-- ==== Sys2Proof/Word.lean ====
section
/-!
DEFINITION. Word.lean: the word types of the device and their plainest arithmetic.
-/
namespace Sys2Proof

/-- One byte of memory. -/
abbrev Byte := BitVec 8

/-- A 64-bit register or doubleword (R40). -/
abbrev Word := BitVec 64

/-- A vector register or a memory line: 512 bits (R42). -/
abbrev Vec := BitVec 512

/-- A general, vector or mask register field of an instruction (R48). -/
abbrev Reg5 := BitVec 5

/-- Bits `[hi:lo]` of a natural number. -/
def natBits (x hi lo : Nat) : Nat := (x >>> lo) % 2 ^ (hi + 1 - lo)

/-- `x` with bits `[lo + w - 1 : lo]` replaced by the low `w` bits of `v`. -/
def natSetBits (x lo w v : Nat) : Nat :=
  x - (natBits x (lo + w - 1) lo) * 2 ^ lo + (v % 2 ^ w) * 2 ^ lo

end Sys2Proof
end

