-- ==== Sys2Proof/Syntax.lean ====
section
/-!
DEFINITION. Syntax.lean: the commands of the block: one constructor for each row of the opcode table, with the row's operands.
-/
namespace Sys2Proof

/-- Register blocks (Table SCOP-3; the MGC block is pages 1-3 of PWR, R603). -/
inductive Blk
  | root | core | hrth | mesh | arb | chim | flue | mc | rid | stk | prc | sec | ash | pmu | pwr | dbg | ihub | tbase
deriving DecidableEq, Repr

/-- Who accesses control space: a core, an external debugger (JTAG) or the management controller. -/
inductive Rq | core (c : Nat) | jtag | mgc
deriving DecidableEq, Repr

/-- The core that loads, and the errors of arrays that its access meets (R194, R197). -/
structure LdCore where
  c : Nat
  err : Nat
deriving DecidableEq, Repr

/-- A descriptor by its ring index, and how many more of its source lines the operation reads in this command (R277). -/
structure DescRun where
  idx : Nat
  n : Nat
deriving DecidableEq, Repr

/-- A core's debug page and who writes it (R588, R590, Table DBUG-1). -/
structure DbgCore where
  rq : Rq
  c : Nat
deriving DecidableEq, Repr

/-- A command.  `c` names a core (socket * 256 + logical ID), `k` a socket, `n`, `j`, `l`, `g` a unit, port, logical core or grate; register
and immediate fields stand as the instruction formats of the spec's second chapter have them. -/
inductive Instr
  /-- CONTROL_REG_WRITE (R16). -/
  | controlRegWrite (rq : Rq) (k off size val : Nat)
  /-- SHADOW_COMMIT_ARRIVAL (R17). -/
  | shadowCommitArrival (b : Blk) (k inst : Nat)
  /-- INT_OP (R53). -/
  | intOp (c : Nat) (f3 : BitVec 3) (f6 : BitVec 6) (a b d : Reg5)
  /-- DIV (R54). -/
  | div (c : Nat) (f3 : BitVec 3) (f6 : BitVec 6) (a b d : Reg5)
  /-- CRC (R55). -/
  | crc (c : Nat) (f3 : BitVec 3) (f6 : BitVec 6) (a b d : Reg5)
  /-- IMM_OP (R56). -/
  | immOp (c : Nat) (op : BitVec 3) (a b : Reg5) (imm : BitVec 14)
  /-- SHIFT_IMM (R56). -/
  | shiftImm (c : Nat) (f3 : BitVec 3) (sub : BitVec 5) (a b : Reg5) (shamt : BitVec 6)
  /-- ADDIW (R56). -/
  | addiw (c : Nat) (a b : Reg5) (imm : BitVec 14)
  /-- LUI (R56). -/
  | lui (c : Nat) (a : Reg5) (imm : BitVec 19)
  /-- ADDPC (R56). -/
  | addpc (c : Nat) (a : Reg5) (imm : BitVec 19)
  /-- EXTU (R56). -/
  | extu (c : Nat) (a b : Reg5) (pos lenM1 : BitVec 6)
  /-- EXTS (R56). -/
  | exts (c : Nat) (a b : Reg5) (pos lenM1 : BitVec 6)
  /-- INS (R56). -/
  | ins (c : Nat) (a b : Reg5) (pos lenM1 : BitVec 6)
  /-- SEL (R56). -/
  | sel (c : Nat) (f3 : BitVec 3) (f1 : BitVec 1) (a b d e : Reg5)
  /-- LI (R57). -/
  | li (c : Nat) (a : Reg5) (imm : BitVec 32)
  /-- LIU (R57). -/
  | liu (c : Nat) (a : Reg5) (imm : BitVec 32)
  /-- LIH (R57). -/
  | lih (c : Nat) (a : Reg5) (imm : BitVec 32)
  /-- ADDI_L (R57). -/
  | addiL (c : Nat) (a : Reg5) (imm : BitVec 32)
  /-- ADDPC_L (R57). -/
  | addpcL (c : Nat) (a : Reg5) (imm : BitVec 32)
  /-- DADD (R58). -/
  | dadd (c : Nat) (f6 : BitVec 6) (a b d : Reg5)
  /-- DSUB (R58). -/
  | dsub (c : Nat) (f6 : BitVec 6) (a b d : Reg5)
  /-- DMUL (R58). -/
  | dmul (c : Nat) (sc : BitVec 6) (a b d : Reg5)
  /-- DDIV (R58). -/
  | ddiv (c : Nat) (sc : BitVec 6) (a b d : Reg5)
  /-- DRESC (R58). -/
  | dresc (c : Nat) (k : BitVec 6) (a b : Reg5)
  /-- LD (R60). -/
  | ld (c : Nat) (f3 : BitVec 3) (a b : Reg5) (imm : BitVec 11) (err : Nat)
  /-- ST (R60). -/
  | st (c : Nat) (f3 : BitVec 3) (a b : Reg5) (imm : BitVec 11)
  /-- LDX (R60). -/
  | ldx (c : LdCore) (f3 : BitVec 3) (f6 : BitVec 6) (a b d : Reg5)
  /-- STX (R60). -/
  | stx (c : Nat) (f3 : BitVec 3) (f6 : BitVec 6) (a b d : Reg5)
  /-- LDA (R60). -/
  | lda (c : LdCore) (f3 : BitVec 3) (a b : Reg5) (imm : BitVec 11)
  /-- STL (R60). -/
  | stl (c : Nat) (f3 : BitVec 3) (a b : Reg5) (imm : BitVec 11)
  /-- PREF (R63). -/
  | pref (c : Nat) (f3 : BitVec 3) (hint b : Reg5) (imm : BitVec 11)
  /-- LD_L (R60). -/
  | ldL (c : LdCore) (f3 : BitVec 3) (a b : Reg5) (imm : BitVec 27)
  /-- ST_L (R60). -/
  | stL (c : Nat) (f3 : BitVec 3) (a b : Reg5) (imm : BitVec 27)
  /-- BCC (R64). -/
  | bcc (c : Nat) (f3 : BitVec 3) (b d : Reg5) (imm : BitVec 11)
  /-- BCC_L (R64). -/
  | bccL (c : Nat) (f3 : BitVec 3) (a b : Reg5) (imm : BitVec 27)
  /-- JMP (R64). -/
  | jmp (c : Nat) (imm : BitVec 24)
  /-- CALL (R66). -/
  | call (c : Nat) (imm : BitVec 24)
  /-- JMPR (R64). -/
  | jmpr (c : Nat) (b : Reg5)
  /-- CALLR (R66). -/
  | callr (c : Nat) (b : Reg5)
  /-- RET (R66). -/
  | ret (c : Nat) (b : Reg5)
  /-- TRAP (R67). -/
  | trap (c : Nat) (imm : BitVec 19)
  /-- BRK (R67). -/
  | brk (c : Nat) (imm : BitVec 19)
  /-- C_MOV (R52). -/
  | cMov (c : Nat) (a b : Reg5)
  /-- C_ADD (R52). -/
  | cAdd (c : Nat) (a b : Reg5)
  /-- C_SUB (R52). -/
  | cSub (c : Nat) (a b : Reg5)
  /-- C_AND (R52). -/
  | cAnd (c : Nat) (a b : Reg5)
  /-- C_OR (R52). -/
  | cOr (c : Nat) (a b : Reg5)
  /-- C_XOR (R52). -/
  | cXor (c : Nat) (a b : Reg5)
  /-- C_ADDI (R52). -/
  | cAddi (c : Nat) (a : Reg5) (imm : BitVec 5)
  /-- C_LI (R52). -/
  | cLi (c : Nat) (a : Reg5) (imm : BitVec 5)
  /-- C_SLLI (R52). -/
  | cSlli (c : Nat) (a : Reg5) (imm : BitVec 5)
  /-- C_SRLI (R52). -/
  | cSrli (c : Nat) (a : Reg5) (imm : BitVec 5)
  /-- C_SRAI (R52). -/
  | cSrai (c : Nat) (a : Reg5) (imm : BitVec 5)
  /-- C_LDK (R52). -/
  | cLdk (c : LdCore) (a : Reg5) (imm : BitVec 5)
  /-- C_STK (R52). -/
  | cStk (c : Nat) (a : Reg5) (imm : BitVec 5)
  /-- C_BEQZ (R52). -/
  | cBeqz (c : Nat) (a : Reg5) (imm : BitVec 5)
  /-- C_BNEZ (R52). -/
  | cBnez (c : Nat) (a : Reg5) (imm : BitVec 5)
  /-- C_J (R52). -/
  | cJ (c : Nat) (imm : BitVec 10)
  /-- C_RET (R52). -/
  | cRet (c : Nat)
  /-- C_BRK (R52). -/
  | cBrk (c : Nat)
  /-- C_FENCE_X (R52). -/
  | cFenceX (c : Nat)
  /-- FADD (R71). -/
  | fadd (c : Nat) (rm prec : BitVec 3) (a b d : Reg5)
  /-- FSUB (R71). -/
  | fsub (c : Nat) (rm prec : BitVec 3) (a b d : Reg5)
  /-- FMUL (R71). -/
  | fmul (c : Nat) (rm prec : BitVec 3) (a b d : Reg5)
  /-- FDIV (R71). -/
  | fdiv (c : Nat) (rm prec : BitVec 3) (a b d : Reg5)
  /-- FMIN (R71). -/
  | fmin (c : Nat) (rm prec : BitVec 3) (a b d : Reg5)
  /-- FMAX (R71). -/
  | fmax (c : Nat) (rm prec : BitVec 3) (a b d : Reg5)
  /-- FSQRT (R71). -/
  | fsqrt (c : Nat) (rm prec : BitVec 3) (a b : Reg5)
  /-- FMADD (R71). -/
  | fmadd (c : Nat) (f3 : BitVec 3) (f1 : BitVec 1) (a b d e : Reg5)
  /-- FEQ (R71). -/
  | feq (c : Nat) (prec : BitVec 3) (a b d : Reg5)
  /-- FUN (R71). -/
  | fun (c : Nat) (prec : BitVec 3) (a b d : Reg5)
  /-- FLT (R71). -/
  | flt (c : Nat) (prec : BitVec 3) (a b d : Reg5)
  /-- FLE (R71). -/
  | fle (c : Nat) (prec : BitVec 3) (a b d : Reg5)
  /-- FLTQ (R71). -/
  | fltq (c : Nat) (prec : BitVec 3) (a b d : Reg5)
  /-- FLEQ (R71). -/
  | fleq (c : Nat) (prec : BitVec 3) (a b d : Reg5)
  /-- FCVT (R72). -/
  | fcvt (c : Nat) (rm dst src : BitVec 3) (a b : Reg5)
  /-- FMV_VG (R71). -/
  | fmvVg (c : Nat) (a b : Reg5)
  /-- FMV_GV (R71). -/
  | fmvGv (c : Nat) (a b : Reg5)
  /-- FCLASS (R71). -/
  | fclass (c : Nat) (prec : BitVec 3) (a b : Reg5)
  /-- FABS (R71). -/
  | fabs (c : Nat) (prec : BitVec 3) (a b : Reg5)
  /-- FNEG (R71). -/
  | fneg (c : Nat) (prec : BitVec 3) (a b : Reg5)
  /-- FNABS (R71). -/
  | fnabs (c : Nat) (prec : BitVec 3) (a b : Reg5)
  /-- FCPYS (R71). -/
  | fcpys (c : Nat) (prec : BitVec 3) (a b d : Reg5)
  /-- VINT (R77). -/
  | vint (c : Nat) (f3 : BitVec 3) (a b d e : Reg5) (msk : BitVec 3) (ew : BitVec 2) (zm : BitVec 1) (f11 : BitVec 11)
  /-- VCMP (R77). -/
  | vcmp (c : Nat) (f3 : BitVec 3) (a b d e : Reg5) (msk : BitVec 3) (ew : BitVec 2) (zm : BitVec 1) (f11 : BitVec 11)
  /-- VFP (R77). -/
  | vfp (c : Nat) (f3 : BitVec 3) (a b d e : Reg5) (msk : BitVec 3) (ew : BitVec 2) (zm : BitVec 1) (f11 : BitVec 11)
  /-- VFMADD (R77). -/
  | vfmadd (c : Nat) (a b d e : Reg5) (msk : BitVec 3) (ew : BitVec 2) (zm : BitVec 1) (f11 : BitVec 11)
  /-- VLD (R79). -/
  | vld (c : LdCore) (f3 : BitVec 3) (a b d : Reg5) (msk : BitVec 3) (ew : BitVec 2) (zm : BitVec 1) (imm : BitVec 16)
  /-- VST (R79). -/
  | vst (c : Nat) (f3 : BitVec 3) (a b d : Reg5) (msk : BitVec 3) (ew : BitVec 2) (zm : BitVec 1) (imm : BitVec 16)
  /-- VPERM (R80). -/
  | vperm (c : Nat) (a b d e : Reg5) (msk : BitVec 3) (ew : BitVec 2) (zm : BitVec 1)
  /-- VPERM2 (R80). -/
  | vperm2 (c : Nat) (a b d e : Reg5) (msk : BitVec 3) (ew : BitVec 2) (zm : BitVec 1)
  /-- VCOMPRESS (R80). -/
  | vcompress (c : Nat) (a b d e : Reg5) (msk : BitVec 3) (ew : BitVec 2) (zm : BitVec 1)
  /-- VEXPAND (R80). -/
  | vexpand (c : Nat) (a b d e : Reg5) (msk : BitVec 3) (ew : BitVec 2) (zm : BitVec 1)
  /-- VSLIDEUP (R80). -/
  | vslideup (c : Nat) (a b d e : Reg5) (msk : BitVec 3) (ew : BitVec 2) (zm : BitVec 1)
  /-- VSLIDEDN (R80). -/
  | vslidedn (c : Nat) (a b d e : Reg5) (msk : BitVec 3) (ew : BitVec 2) (zm : BitVec 1)
  /-- VREV (R80). -/
  | vrev (c : Nat) (a b d e : Reg5) (msk : BitVec 3) (ew : BitVec 2) (zm : BitVec 1)
  /-- VUNPK (R80). -/
  | vunpk (c : Nat) (a b d e : Reg5) (msk : BitVec 3) (ew : BitVec 2) (zm : BitVec 1)
  /-- VPACK (R80). -/
  | vpack (c : Nat) (a b d e : Reg5) (msk : BitVec 3) (ew : BitVec 2) (zm : BitVec 1)
  /-- VCRC (R80). -/
  | vcrc (c : Nat) (a b d e : Reg5) (msk : BitVec 3) (ew : BitVec 2) (zm : BitVec 1)
  /-- VRED_INT (R81). -/
  | vredInt (c : Nat) (f11 : BitVec 11) (a b : Reg5) (msk : BitVec 3) (ew : BitVec 2) (zm : BitVec 1)
  /-- VRED_FP (R81). -/
  | vredFp (c : Nat) (f11 : BitVec 11) (a b : Reg5) (msk : BitVec 3) (ew : BitVec 2) (zm : BitVec 1)
  /-- MASK_LOGIC (R80). -/
  | maskLogic (c : Nat) (f11 : BitVec 11) (a b d : Reg5) (msk : BitVec 3)
  /-- MTOG (R80). -/
  | mtog (c : Nat) (a b : Reg5) (msk : BitVec 3)
  /-- GTOM (R80). -/
  | gtom (c : Nat) (a b : Reg5) (msk : BitVec 3)
  /-- MPOPC (R80). -/
  | mpopc (c : Nat) (a b : Reg5) (msk : BitVec 3)
  /-- MFIRST (R80). -/
  | mfirst (c : Nat) (a b : Reg5) (msk : BitVec 3)
  /-- VBCAST_G (R80). -/
  | vbcastG (c : Nat) (a b : Reg5) (msk : BitVec 3) (ew : BitVec 2) (zm : BitVec 1)
  /-- VINS (R80). -/
  | vins (c : Nat) (a b : Reg5) (ln : BitVec 6) (msk : BitVec 3) (ew : BitVec 2) (zm : BitVec 1)
  /-- VEXT (R80). -/
  | vext (c : Nat) (a b : Reg5) (ln : BitVec 6) (msk : BitVec 3) (ew : BitVec 2) (zm : BitVec 1)
  /-- VMOV (R80). -/
  | vmov (c : Nat) (a b : Reg5) (msk : BitVec 3) (ew : BitVec 2) (zm : BitVec 1)
  /-- VZERO (R80). -/
  | vzero (c : Nat) (a : Reg5) (msk : BitVec 3) (ew : BitVec 2) (zm : BitVec 1)
  /-- HATOM (R121). -/
  | hatom (c : Nat) (f3 : BitVec 3) (f6 : BitVec 6) (a b d : Reg5)
  /-- HCAS (R83). -/
  | hcas (c : Nat) (f3 : BitVec 3) (f1 : BitVec 1) (a b d e : Reg5)
  /-- ATOM_BEGIN (R114). -/
  | atomBegin (c : Nat) (a : Reg5)
  /-- ATOM_ADD (R115). -/
  | atomAdd (c : Nat) (b : Reg5)
  /-- ATOM_COMMIT (R120). -/
  | atomCommit (c : Nat) (a : Reg5)
  /-- ATOM_ABORT (R116). -/
  | atomAbort (c : Nat) (b : Reg5)
  /-- REGION_LONG (R116). -/
  | regionLong (c : Nat)
  /-- FENCE_LL (R94). -/
  | fenceLl (c : Nat)
  /-- FENCE_LS (R94). -/
  | fenceLs (c : Nat)
  /-- FENCE_SL (R94). -/
  | fenceSl (c : Nat)
  /-- FENCE_SS (R94). -/
  | fenceSs (c : Nat)
  /-- FENCE_FULL (R94). -/
  | fenceFull (c : Nat)
  /-- FENCE_IO (R94). -/
  | fenceIo (c : Nat)
  /-- FENCE_GLOBAL (R94). -/
  | fenceGlobal (c : Nat)
  /-- FENCE_X (R89). -/
  | fenceX (c : Nat)
  /-- IFLUSH (R201). -/
  | iflush (c : Nat)
  /-- CCLEAN (R96). -/
  | cclean (c : Nat) (b : Reg5)
  /-- CFLUSH (R96). -/
  | cflush (c : Nat) (b : Reg5)
  /-- CINVAL (R96). -/
  | cinval (c : Nat) (b : Reg5)
  /-- CZERO (R96). -/
  | czero (c : Nat) (b : Reg5)
  /-- SWCLEAN (R98). -/
  | swclean (c : Nat) (b : Reg5)
  /-- SWFLUSH (R98). -/
  | swflush (c : Nat) (b : Reg5)
  /-- TLBI_VA (R100). -/
  | tlbiVa (c : Nat) (scope : BitVec 3) (b d : Reg5)
  /-- TLBI_SID (R100). -/
  | tlbiSid (c : Nat) (scope : BitVec 3) (d : Reg5)
  /-- TLBI_VM (R100). -/
  | tlbiVm (c : Nat) (scope : BitVec 3) (d : Reg5)
  /-- TLBI_IPA (R100). -/
  | tlbiIpa (c : Nat) (scope : BitVec 3) (b d : Reg5)
  /-- TLBI_ALL (R100). -/
  | tlbiAll (c : Nat) (scope : BitVec 3)
  /-- TLBI_FORWARD (R256). -/
  | tlbiForward (k id : Nat)
  /-- TLBI_TARGET_ACK (R256). -/
  | tlbiTargetAck (k id t : Nat)
  /-- TLBI_SOCKET_ACK (R256). -/
  | tlbiSocketAck (k id : Nat)
  /-- TLBI_COMPLETE (R256). -/
  | tlbiComplete (c id : Nat)
  /-- SRD (R102). -/
  | srd (c : Nat) (a : Reg5) (n : BitVec 12)
  /-- SWR (R103). -/
  | swr (c : Nat) (a : Reg5) (n : BitVec 12)
  /-- SWR_AUTH (R92). -/
  | swrAuth (c : Nat) (a : Reg5)
  /-- SWR_KRIGHTS (R104). -/
  | swrKrights (c : Nat) (hi : Bool) (a : Reg5)
  /-- SWR_TCMP (R180). -/
  | swrTcmp (c : Nat) (a : Reg5)
  /-- SWR_XLATCTL (R248). -/
  | swrXlatctl (c : Nat) (a : Reg5)
  /-- SWR_PMSEL (R576). -/
  | swrPmsel (c : Nat) (a : Reg5)
  /-- PMDATA_READ (R577). -/
  | pmdataRead (c : Nat) (a : Reg5)
  /-- KDROP (R108). -/
  | kdrop (c : Nat) (b : Reg5)
  /-- KDROP_LO (R108). -/
  | kdropLo (c : Nat) (b : Reg5)
  /-- KDROP_HI (R108). -/
  | kdropHi (c : Nat) (b : Reg5)
  /-- GATE (R109). -/
  | gate (c : Nat) (b : Reg5)
  /-- GENTRY (R112). -/
  | gentry (c : Nat)
  /-- GRET (R111). -/
  | gret (c : Nat)
  /-- GRET_EV (R168). -/
  | gretEv (c : Nat)
  /-- WAIT (R113). -/
  | wait (c : Nat) (a b : Reg5)
  /-- WAIT_BANKED (R113). -/
  | waitBanked (c : Nat) (a b : Reg5)
  /-- WAIT_COLD (R544). -/
  | waitCold (c : Nat) (a b : Reg5)
  /-- CORE_WAKE (R542). -/
  | coreWake (c : Nat)
  /-- SLEEP_GATE_CLOSED (R543). -/
  | sleepGateClosed (c : Nat)
  /-- ATTEST (R143). -/
  | attest (c : Nat)
  /-- VREPORT (R143). -/
  | vreport (c : Nat)
  /-- STKKEY (R143). -/
  | stkkey (c : Nat)
  /-- VCREATE (R143). -/
  | vcreate (c : Nat)
  /-- VADD (R143). -/
  | vadd (c : Nat)
  /-- VSEAL (R148). -/
  | vseal (c : Nat)
  /-- VDESTROY (R143). -/
  | vdestroy (c : Nat)
  /-- VASSIGN (R155). -/
  | vassign (c : Nat) (sw : Bool)
  /-- VRELEASE (R155). -/
  | vrelease (c : Nat)
  /-- VRECLAIM (R155). -/
  | vreclaim (c : Nat)
  /-- VRESTART (R142). -/
  | vrestart (c : Nat)
  /-- SEC_REQUEST_BAD_OP (R143). -/
  | secRequestBadOp (c : Nat)
  /-- UNIT_WORK_STOPPED (R155). -/
  | unitWorkStopped (k u : Nat)
  /-- UNIT_RESET_COMPLETE (R155). -/
  | unitResetComplete (k u : Nat)
  /-- UNIT_RESET_TIMEOUT (R155). -/
  | unitResetTimeout (k u : Nat)
  /-- UNIT_ROUTES_REWRITTEN (R155). -/
  | unitRoutesRewritten (k u : Nat)
  /-- VI_KICK (R160). -/
  | viKick (c i : Nat)
  /-- VAULT_WATCHDOG_EXPIRY (R156). -/
  | vaultWatchdogExpiry (k i : Nat)
  /-- VAULT_RESTART (R157). -/
  | vaultRestart (k i : Nat)
  /-- VAULT_SEAT_ABANDON (R158). -/
  | vaultSeatAbandon (c : Nat)
  /-- VAULT_UNITS_RESET (R157). -/
  | vaultUnitsReset (k i : Nat)
  /-- VAULT_DATA_CLEARED (R157). -/
  | vaultDataCleared (k i : Nat)
  /-- VAULT_DIGEST_CHECK (R157). -/
  | vaultDigestCheck (k i : Nat)
  /-- EVENT_ENTRY (R162). -/
  | eventEntry (c : Nat)
  /-- INTERRUPT_TAKEOVER (R176). -/
  | interruptTakeover (c v : Nat)
  /-- ENTRY_WINDOW_COMMIT (R176). -/
  | entryWindowCommit (c : Nat)
  /-- POSTED_ATOMIC_FAILED (R122). -/
  | postedAtomicFailed (c : Nat)
  /-- TIMER_COMPARE (R180). -/
  | timerCompare (c : Nat)
  /-- IPI_SEND (R179). -/
  | ipiSend (c : Nat) (a : Reg5)
  /-- IPI_RECEIVE (R179). -/
  | ipiReceive (k : Nat)
  /-- MSG_INTERRUPT (R182). -/
  | msgInterrupt (k i : Nat)
  /-- TPRI_WRITE (R175). -/
  | tpriWrite (c v : Nat)
  /-- STORE_DRAIN (R196). -/
  | storeDrain (c err : Nat)
  /-- HW_PREFETCH (R210). -/
  | hwPrefetch (c : Nat) (stream : Bool) (va : Word)
  /-- HARDEN_WRITE (R204). -/
  | hardenWrite (c : Nat) (v : Bool)
  /-- CONTEXT_SWEEP_DONE (R222). -/
  | contextSweepDone (c : Nat)
  /-- USEFULNESS_DECAY (R219). -/
  | usefulnessDecay (c : Nat)
  /-- FENCE_RECOVERY_TIMEOUT (R283). -/
  | fenceRecoveryTimeout (c : Nat)
  /-- REGION_RECOVERY_TIMEOUT (R282). -/
  | regionRecoveryTimeout (c : Nat)
  /-- ACTION_END_ABANDON (R285). -/
  | actionEndAbandon (k h : Nat)
  /-- RDS (R304). -/
  | rds (c pa ev vic : Nat)
  /-- RD (R304). -/
  | rd (c pa ev vic : Nat)
  /-- RDO (R304). -/
  | rdo (c pa ev vic : Nat)
  /-- UPG (R304). -/
  | upg (c pa : Nat)
  /-- OWN (R304). -/
  | own (c pa : Nat)
  /-- RDU (R304). -/
  | rdu (f pa : Nat)
  /-- WRU (R304). -/
  | wru (f pa : Nat) (bytes : List (Nat × Byte))
  /-- HAT (R312). -/
  | hat (c pa op : Nat) (wide posted : Bool) (x : Word)
  /-- CMO (R304). -/
  | cmo (c pa kind : Nat)
  /-- LOCKX (R315). -/
  | lockx (c pa : Nat)
  /-- WB (R304). -/
  | wb (c pa : Nat) (keep : Bool)
  /-- EV (R306). -/
  | ev (c pa : Nat)
  /-- UNLOCK (R316). -/
  | unlock (c pa : Nat)
  /-- FLUSHB (R321). -/
  | flushb (h d : Nat)
  /-- SNPS (R307). -/
  | snps (d pa : Nat)
  /-- SNPI (R307). -/
  | snpi (d pa : Nat)
  /-- SNPX (R307). -/
  | snpx (d pa : Nat)
  /-- SNPR (R307). -/
  | snpr (d pa : Nat)
  /-- SNPC (R307). -/
  | snpc (d pa : Nat)
  /-- DATA_S (R302). -/
  | dataS (f pa : Nat)
  /-- DATA_E (R302). -/
  | dataE (f pa : Nat)
  /-- DATA_M (R302). -/
  | dataM (f pa : Nat)
  /-- DATA_U (R302). -/
  | dataU (f pa : Nat)
  /-- GNT (R309). -/
  | gnt (f pa : Nat)
  /-- ACK (R309). -/
  | ack (f pa : Nat)
  /-- SRSP (R307). -/
  | srsp (h d pa : Nat)
  /-- CMP (R302). -/
  | cmp (f pa : Nat)
  /-- ATRES (R302). -/
  | atres (f pa : Nat)
  /-- WBACK (R307). -/
  | wback (f pa : Nat)
  /-- RETRY (R310). -/
  | retry (f pa : Nat)
  /-- RETRY_REISSUE (R310). -/
  | retryReissue (f pa : Nat)
  /-- FIN (R309). -/
  | fin (f pa : Nat)
  /-- ATOMIC_BUFFER_WRITEBACK (R313). -/
  | atomicBufferWriteback (h pa : Nat)
  /-- HRTH_RETIRE (R317). -/
  | hrthRetire (k sl : Nat)
  /-- SLICE_RETIRE_START (R318). -/
  | sliceRetireStart (k : Nat)
  /-- BUCKET_MARK (R318). -/
  | bucketMark (k : Nat)
  /-- BUCKET_TXNS_DONE (R318). -/
  | bucketTxnsDone (k : Nat)
  /-- BUCKET_COPY_DONE (R318). -/
  | bucketCopyDone (k : Nat)
  /-- SLICE_RETIRED (R318). -/
  | sliceRetired (k : Nat)
  /-- SLICE_SOURCE_FAIL (R320). -/
  | sliceSourceFail (k sl : Nat)
  /-- SLICE_TARGET_FAIL (R318). -/
  | sliceTargetFail (k : Nat)
  /-- REBUILD_DONE (R321). -/
  | rebuildDone (k : Nat)
  /-- STRIPE_VALID_WRITE (R295). -/
  | stripeValidWrite (k r : Nat) (v : Bool)
  /-- FLIT_ARRIVAL (R330). -/
  | flitArrival (k n port err cls dsock dstop tag : Nat)
  /-- MESH_LINK_FAILING (R346). -/
  | meshLinkFailing (k n port : Nat)
  /-- BRIDGE_LANE_REPAIR (R346). -/
  | bridgeLaneRepair (k n port : Nat)
  /-- BRIDGE_REPAIR_DONE (R346). -/
  | bridgeRepairDone (k n port : Nat) (ok : Bool)
  /-- DACK (R347). -/
  | dack (k d src : Nat)
  /-- DACK_TIMER (R347). -/
  | dackTimer (k d src : Nat)
  /-- DNAK (R347). -/
  | dnak (k d src : Nat)
  /-- ARB_STARVATION (R336). -/
  | arbStarvation (k kind inst req : Nat)
  /-- ARB_COMMIT_GO (R340). -/
  | arbCommitGo (k : Nat)
  /-- ARB_COMMIT_DONE (R340). -/
  | arbCommitDone (k : Nat)
  /-- BELLOWS_ADMIT (R341). -/
  | bellowsAdmit (k g : Nat)
  /-- FLUE_TRAINED (R358). -/
  | flueTrained (k n flight : Nat)
  /-- FLUE_RESTORE (R380). -/
  | flueRestore (k n : Nat)
  /-- CODEWORD_RECEIVE (R364). -/
  | codewordReceive (k n fec seq : Nat) (crc tag : Bool)
  /-- CONTROL_SLOT_RECEIVE (R363). -/
  | controlSlotReceive (k n ackseq : Nat) (nak : Bool) (nakseq ttx techo trx smaster sdist : Nat)
  /-- LANE_FAILING (R359). -/
  | laneFailing (k n lane : Nat)
  /-- LANE (R359). -/
  | lane (k n : Nat)
  /-- FLUE_FAILURE (R366). -/
  | flueFailure (k n : Nat)
  /-- FLUE_CONTROL_TIMEOUT (R366). -/
  | flueControlTimeout (k n : Nat)
  /-- LINKDOWN (R377). -/
  | linkdown (k id : Nat)
  /-- REROUTE_ADOPT (R377). -/
  | rerouteAdopt (k id : Nat)
  /-- REROUTE_REPLAY_RESENT (R377). -/
  | rerouteReplayResent (id : Nat)
  /-- REROUTE_DONE (R377). -/
  | rerouteDone (id : Nat)
  /-- LINKUP (R380). -/
  | linkup (k id : Nat)
  /-- CROSSBAR_FLIT_ARRIVAL (R369). -/
  | crossbarFlitArrival (k n : Nat)
  /-- RESYNC (R379). -/
  | resync (k ssock sstop txid : Nat)
  /-- MULTICAST_SNOOP (R371). -/
  | multicastSnoop (k port : Nat) (bcast : Bool) (groups tag : Nat)
  /-- COMBINED_ACK (R371). -/
  | combinedAck (k tag : Nat)
  /-- SYNC_MASTER_CHANGE (R387). -/
  | syncMasterChange (k : Nat)
  /-- FLUE_KEY_EPOCH (R395). -/
  | flueKeyEpoch (k n : Nat)
  /-- FLUE_KEY_AGREED (R395). -/
  | flueKeyAgreed (k n p : Nat)
  /-- IDENT (R389). -/
  | ident (k n psock pflue : Nat) (small : Bool)
  /-- IDENT_TABLE_COMPLETE (R389). -/
  | identTableComplete (k : Nat) (dup : Bool)
  /-- HELDOUT (R389). -/
  | heldout (k by' n : Nat)
  /-- CFG_GO (R391). -/
  | cfgGo (k : Nat)
  /-- CFGDIGEST (R392). -/
  | cfgdigest (k p : Nat)
  /-- PARTITION_KEYS_AGREED (R392). -/
  | partitionKeysAgreed (k p : Nat) (ok : Bool)
  /-- PARTITION_STOPPED (R392). -/
  | partitionStopped (k p : Nat)
  /-- MC_READ (R408). -/
  | mcRead (k pa : Nat) (e0 e1 : List Nat)
  /-- MC_WRITE (R407). -/
  | mcWrite (k pa : Nat) (x : Vec) (d : BitVec 2) (p : Bool)
  /-- MARK_WRITE (R410). -/
  | markWrite (k n r : Nat) (valid : Bool) (dev : Nat)
  /-- SWEEP_LINE (R417). -/
  | sweepLine (k n : Nat) (e0 e1 : List Nat)
  /-- SWEEP_INIT_DONE (R413). -/
  | sweepInitDone (k n : Nat)
  /-- REFRESH (R420). -/
  | refresh (k n rank post : Nat)
  /-- ZQ_CALIBRATION (R421). -/
  | zqCalibration (k n rank : Nat)
  /-- DQS_OSC_READ (R421). -/
  | dqsOscRead (k n rank : Nat) (drift : Bool)
  /-- SELF_REFRESH_ENTER (R423). -/
  | selfRefreshEnter (k n : Nat)
  /-- SELF_REFRESH_EXIT (R423). -/
  | selfRefreshExit (k n upd : Nat)
  /-- SPARE_REQ (R424). -/
  | spareReq (k n line : Nat)
  /-- SPARE_START (R425). -/
  | spareStart (k n : Nat)
  /-- SPARE_COPY_DONE (R425). -/
  | spareCopyDone (k n : Nat) (bad : List (Nat × List Nat × List Nat)) (res : Bool)
  /-- SPPR_DONE (R425). -/
  | spprDone (k n : Nat)
  /-- SPARE_COPYBACK_DONE (R425). -/
  | spareCopybackDone (k n : Nat) (bad : List (Nat × List Nat × List Nat))
  /-- HPPR_APPLY (R426). -/
  | hpprApply (k n : Nat) (none' : List Nat)
  /-- RIDDLE_PROGRAM_LOAD (R464). -/
  | riddleProgramLoad (k n cell c : Nat)
  /-- RIDDLE_WORK_ITEM (R430). -/
  | riddleWorkItem (k n cell c : Nat)
  /-- RIDDLE_LINE_EVAL (R431). -/
  | riddleLineEval (k n : Nat)
  /-- RIDDLE_SEGMENT_WRITE (R433). -/
  | riddleSegmentWrite (k n : Nat)
  /-- RIDDLE_DRAIN (R435). -/
  | riddleDrain (k n cell c : Nat)
  /-- DRAINED (R435). -/
  | drained (k n cell c : Nat)
  /-- SQTAIL_DOORBELL (R445). -/
  | sqtailDoorbell (k cell c v : Nat)
  /-- CQHEAD_WRITE (R445). -/
  | cqheadWrite (k cell c v : Nat)
  /-- RING_CFG_WRITE (R444). -/
  | ringCfgWrite (k cell c : Nat) (cq : Bool) (size base : Nat)
  /-- CFG_EN_WRITE (R441). -/
  | cfgEnWrite (k cell c : Nat) (en : Bool)
  /-- DESC_FETCH (R446). -/
  | descFetch (k cell c : Nat)
  /-- DESC_START (R447). -/
  | descStart (k cell c : Nat)
  /-- NOP (R451). -/
  | nop (k cell c idx : Nat)
  /-- FILTER (R456). -/
  | filter (k cell c : Nat) (idx : DescRun)
  /-- PROJECT (R457). -/
  | project (k cell c : Nat) (idx : DescRun)
  /-- DECOMP (R458). -/
  | decomp (k cell c : Nat) (idx : DescRun)
  /-- HASHBUILD (R459). -/
  | hashbuild (k cell c : Nat) (idx : DescRun)
  /-- HASHPROBE (R459). -/
  | hashprobe (k cell c : Nat) (idx : DescRun)
  /-- AGG (R460). -/
  | agg (k cell c : Nat) (idx : DescRun)
  /-- SORTRUN (R461). -/
  | sortrun (k cell c : Nat) (idx : DescRun)
  /-- MERGE (R461). -/
  | merge (k cell c : Nat) (idx : DescRun)
  /-- CRC32C (R462). -/
  | crc32c (k cell c : Nat) (idx : DescRun)
  /-- SHA256 (R462). -/
  | sha256 (k cell c : Nat) (idx : DescRun)
  /-- AESGCM (R462). -/
  | aesgcm (k cell c : Nat) (idx : DescRun)
  /-- SEGMENT_READ (R464). -/
  | segmentRead (k cell c idx : Nat)
  /-- DESC_COMPLETE (R448). -/
  | descComplete (k cell c idx : Nat)
  /-- FIREBOX_SLICE (R467). -/
  | fireboxSlice (k cell : Nat) (req : BitVec 64) (clk : Nat)
  /-- CELL_CLOCK_GATE (R467). -/
  | cellClockGate (k cell : Nat)
  /-- CELL_FAULT (R472). -/
  | cellFault (k cell : Nat)
  /-- MBOX_TX (R473). -/
  | mboxTx (k cell c : Nat) (mgr : Bool)
  /-- MBOX_ACK (R473). -/
  | mboxAck (k cell c : Nat) (mgr : Bool)
  /-- CHANNEL_RESET_REQUEST (R474). -/
  | channelResetRequest (k cell c : Nat) (tenant : Bool)
  /-- STK_CTL_RESET (R477). -/
  | stkCtlReset (k cell : Nat)
  /-- DRAIN_TIMER_EXPIRY (R475). -/
  | drainTimerExpiry (k cell c : Nat)
  /-- CHANNEL_RESET_DONE (R475). -/
  | channelResetDone (k cell c : Nat)
  /-- CHANNEL_QUARANTINE (R475). -/
  | channelQuarantine (k cell c : Nat)
  /-- DMA_READ (R483). -/
  | dmaRead (k n j rid : Nat) (pasid : Option Nat) (va len : Nat) (attr : BitVec 3)
  /-- DMA_WRITE (R483). -/
  | dmaWrite (k n j rid : Nat) (pasid : Option Nat) (va : Nat) (data : List Byte) (poisoned : Bool) (attr : BitVec 3)
  /-- MSI_MESSAGE (R488). -/
  | msiMessage (k n j rid : Nat) (data : List Byte)
  /-- PRC_EVENT_INTERRUPT (R489). -/
  | prcEventInterrupt (k n j b : Nat)
  /-- DEVICE_COMPLETION (R490). -/
  | deviceCompletion (c j data : Nat)
  /-- IOINV_GO (R484). -/
  | ioinvGo (k n rid : Nat) (all : Bool)
  /-- IOINV_DONE (R484). -/
  | ioinvDone (k n : Nat)
  /-- SLOT_PWRON (R493). -/
  | slotPwron (k n j : Nat)
  /-- SLOT_PERST_RELEASE (R493). -/
  | slotPerstRelease (k n j : Nat)
  /-- SLOT_LINK_TRAINED (R493). -/
  | slotLinkTrained (k n j gen width : Nat) (cxl meta' : Bool)
  /-- SLOT_TRAIN_TIMEOUT (R493). -/
  | slotTrainTimeout (k n j : Nat)
  /-- SLOT_POWER_FAULT (R493). -/
  | slotPowerFault (k n j : Nat)
  /-- SLOT_PWROFF (R494). -/
  | slotPwroff (k n j : Nat)
  /-- PRESENCE_CHANGE (R494). -/
  | presenceChange (k n j : Nat) (present : Bool)
  /-- AER_FATAL (R494). -/
  | aerFatal (k n j : Nat)
  /-- PORT_RELEASE (R494). -/
  | portRelease (k n j : Nat)
  /-- LINK_L1_EXIT (R495). -/
  | linkL1Exit (k n j : Nat)
  /-- CXLWIN_VALID_WRITE (R496). -/
  | cxlwinValidWrite (k n r : Nat) (v : Bool)
  /-- CXL_POISON_FILL_DONE (R497). -/
  | cxlPoisonFillDone (k n r : Nat)
  /-- ASHPAN_WRITE (R505). -/
  | ashpanWrite (k cls src inst code addr peer domain core d4 d5 d6 : Nat)
  /-- RDPTR_WRITE (R507). -/
  | rdptrWrite (k v : Nat)
  /-- CE_LIMIT_MINUTE (R509). -/
  | ceLimitMinute (k : Nat)
  /-- NV_CLR (R511). -/
  | nvClr (k : Nat)
  /-- HANDOFF_GO (R516). -/
  | handoffGo (k l : Nat)
  /-- PIPELINE_ERROR (R516). -/
  | pipelineError (k l : Nat)
  /-- HANDOFF_START (R518). -/
  | handoffStart (k l : Nat)
  /-- HANDOFF_REPOCH (R518). -/
  | handoffRepoch (k l : Nat)
  /-- SPARE_POWERED (R518). -/
  | sparePowered (k g : Nat)
  /-- HANDOFF_STATE_READ (R518). -/
  | handoffStateRead (k l : Nat)
  /-- HANDOFF_STORES_READ (R518). -/
  | handoffStoresRead (k l : Nat)
  /-- HANDOFF_L2_EMPTIED (R518). -/
  | handoffL2Emptied (k l : Nat)
  /-- SPARE_LOADED (R518). -/
  | spareLoaded (k l : Nat)
  /-- HANDOFF_RESUME (R518). -/
  | handoffResume (k l : Nat)
  /-- HANDOFF_SOURCE_FAIL (R519). -/
  | handoffSourceFail (k l : Nat) (dead : Bool)
  /-- SPARE_FAIL (R627). -/
  | spareFail (k g : Nat)
  /-- GRATE_FENCE (R521). -/
  | grateFence (k g : Nat)
  /-- LOCKSTEP_MISMATCH (R526). -/
  | lockstepMismatch (k p : Nat)
  /-- LOCKSTEP_REPOCH (R526). -/
  | lockstepRepoch (k p : Nat)
  /-- LOCKSTEP_SELFTEST_DONE (R526). -/
  | lockstepSelftestDone (k p : Nat) (mainOk chkOk : Bool)
  /-- LOCKSTEP_REPAIRED (R526). -/
  | lockstepRepaired (k p : Nat)
  /-- COMPARATOR_TEST (R525). -/
  | comparatorTest (k p : Nat)
  /-- COMPARATOR_TEST_DONE (R525). -/
  | comparatorTestDone (k p : Nat) (ok : Bool)
  /-- SOCKET_FAILURE (R528). -/
  | socketFailure (k src inst d4 : Nat)
  /-- STANDBY_RAILS_VALID (R532). -/
  | standbyRailsValid (k : Nat)
  /-- RST_DEASSERT (R561). -/
  | rstDeassert (k : Nat) (i3c : Bool)
  /-- BOOT_VERIFY (R559). -/
  | bootVerify (k : Nat) (aOk bOk : Bool) (a b : List Byte)
  /-- POWER_ON_REQUEST (R534). -/
  | powerOnRequest (k : Nat)
  /-- POWER_OFF_REQUEST (R534). -/
  | powerOffRequest (k : Nat)
  /-- PWRBTN (R534). -/
  | pwrbtn (k ms : Nat)
  /-- PWROK_ASSERT (R561). -/
  | pwrokAssert (k : Nat) (mods : List (Nat × Nat))
  /-- PWROK_LOSS (R533). -/
  | pwrokLoss (k : Nat) (pwrfail : Bool)
  /-- REFCLK_LOSS (R533). -/
  | refclkLoss (k : Nat)
  /-- MESH_PLL_UNLOCK (R533). -/
  | meshPllUnlock (k die : Nat)
  /-- CORE_PLL_UNLOCK (R533). -/
  | corePllUnlock (k l : Nat)
  /-- JUNCTION_FATAL (R533). -/
  | junctionFatal (k : Nat)
  /-- VHOLD_LOW (R533). -/
  | vholdLow (k : Nat)
  /-- PLLEN_WRITE (R539). -/
  | pllenWrite (k l req : Nat) (en : Bool)
  /-- PLL_LOCKED (R539). -/
  | pllLocked (k l : Nat)
  /-- SEL_WRITE (R539). -/
  | selWrite (k l : Nat) (v : Bool)
  /-- FREQ_RELOCK (R540). -/
  | freqRelock (k l : Nat)
  /-- DAMPER_LIMIT (R552). -/
  | damperLimit (k which watts : Nat)
  /-- THERMAL_TARGET (R553). -/
  | thermalTarget (k tile temp : Nat)
  /-- THERMAL_EMERGENCY (R553). -/
  | thermalEmergency (k tile temp : Nat)
  /-- THERMAL_CLEAR (R553). -/
  | thermalClear (k tile temp : Nat)
  /-- PKG_BANKED_ENTER (R546). -/
  | pkgBankedEnter (k : Nat)
  /-- PKG_WAKE (R548). -/
  | pkgWake (k src i : Nat)
  /-- PKG_CMD_STANDBY (R547). -/
  | pkgCmdStandby (k : Nat)
  /-- WAKE_LAND (R549). -/
  | wakeLand (k i : Nat) (high : Bool)
  /-- UPWR_WRITE (R554). -/
  | upwrWrite (k stk prc : Nat)
  /-- COLD_RESET (R555). -/
  | coldReset (k : Nat) (pin : Bool)
  /-- WARM_RESET (R556). -/
  | warmReset (k : Nat)
  /-- CORE_RESET (R557). -/
  | coreReset (k l : Nat)
  /-- CORE_RUN_SET (R561). -/
  | coreRunSet (k l : Nat)
  /-- HOLDUP_TRIGGER (R562). -/
  | holdupTrigger (k cause : Nat)
  /-- SAVE_COMMIT (R563). -/
  | saveCommit (k dur : Nat)
  /-- RESTART_CONDITION (R564). -/
  | restartCondition (k : Nat)
  /-- COUNTER_WRAP (R569). -/
  | counterWrap (c e : Nat)
  /-- UNIT_COUNTER_WRAP (R582). -/
  | unitCounterWrap (k bank u e : Nat)
  /-- THRCTL_WRITE (R578). -/
  | thrctlWrite (c j struct n : Nat) (en : Bool)
  /-- BWCTL_WRITE (R579). -/
  | bwctlWrite (k u j cls win : Nat) (en clr : Bool)
  /-- BW_WINDOW_END (R579). -/
  | bwWindowEnd (k u j n : Nat)
  /-- SAMPLE_FIRE (R580). -/
  | sampleFire (c j : Nat) (pc : Word)
  /-- PMU_SNAPSHOT (R583). -/
  | pmuSnapshot (k : Nat)
  /-- HALTREQ_WRITE (R588). -/
  | haltreqWrite (c : DbgCore)
  /-- CORE_HALT (R588). -/
  | coreHalt (c : Nat)
  /-- RESUME_WRITE (R590). -/
  | resumeWrite (c : DbgCore)
  /-- STEP_WRITE (R590). -/
  | stepWrite (c : DbgCore)
  /-- ACC_GO (R591). -/
  | accGo (rq : Rq) (c : Nat)
  /-- MEM_GO (R592). -/
  | memGo (rq : Rq) (k : Nat)
  /-- DBGACC_UPDATE (R597). -/
  | dbgaccUpdate (k off : Nat) (write : Bool) (data : Nat)
  /-- DBGACC_CAPTURE (R597). -/
  | dbgaccCapture (k : Nat)
  /-- IDCODE (R596). -/
  | idcode (k : Nat)
  /-- SAMPLE_PRELOAD (R596). -/
  | samplePreload (k pins pre : Nat)
  /-- EXTEST (R596). -/
  | extest (k pins : Nat)
  /-- CLAMP (R596). -/
  | clamp (k : Nat)
  /-- HIGHZ (R596). -/
  | highz (k : Nat)
  /-- BYPASS (R596). -/
  | bypass (k : Nat)
  /-- INFO (R599). -/
  | info (k tag : Nat)
  /-- IDENTITY (R599). -/
  | identity (k tag off : Nat)
  /-- POWER_ON (R599). -/
  | powerOn (k tag : Nat)
  /-- POWER_OFF (R599). -/
  | powerOff (k tag : Nat)
  /-- RESET_COLD (R599). -/
  | resetCold (k tag : Nat)
  /-- RESET_WARM (R599). -/
  | resetWarm (k tag : Nat)
  /-- STANDBY (R599). -/
  | standby (k tag : Nat)
  /-- REG_READ (R599). -/
  | regRead (k tag id inst off : Nat)
  /-- REG_WRITE (R600). -/
  | regWrite (k tag id inst off v : Nat)
  /-- ASH_READ (R600). -/
  | ashRead (k tag n : Nat)
  /-- ASH_SAVED (R599). -/
  | ashSaved (k tag i : Nat)
  /-- ASH_NVCLR (R599). -/
  | ashNvclr (k tag : Nat)
  /-- TELEMETRY (R600). -/
  | telemetry (k tag off n : Nat)
  /-- THERMAL (R599). -/
  | thermal (k tag : Nat)
  /-- DEBUG (R599). -/
  | debug (k tag off : Nat) (write : Bool) (data : Nat)
  /-- MGC_IBI (R601). -/
  | mgcIbi (k : Nat)
  /-- RSTDAA (R598). -/
  | rstdaa (k : Nat)
  /-- ENTDAA (R598). -/
  | entdaa (k addr : Nat)
  /-- SETDASA (R598). -/
  | setdasa (k static' addr : Nat)
  /-- GETPID (R598). -/
  | getpid (k : Nat)
  /-- GETBCR (R598). -/
  | getbcr (k : Nat)
  /-- GETDCR (R598). -/
  | getdcr (k : Nat)
  /-- GETSTATUS (R598). -/
  | getstatus (k : Nat)
  /-- ENEC (R598). -/
  | enec (k : Nat)
  /-- DISEC (R598). -/
  | disec (k : Nat)
  /-- SLOT_ATTENTION (R489). -/
  | slotAttention (k n j : Nat)
  /-- AER_ERROR (R489). -/
  | aerError (k n j : Nat)
  /-- DAMPER_LIMIT_CLEAR (R552). -/
  | damperLimitClear (k which watts : Nat)
  /-- UNIT_POWER_DONE (R554). -/
  | unitPowerDone (k : Nat) (prc : Bool) (n : Nat)
  /-- STANDBY_RAIL_LOSS (R563). -/
  | standbyRailLoss (k : Nat)
  /-- BITS_READ_TO_HOME (R305). -/
  | bitsReadToHome (h pa : Nat)
deriving DecidableEq, Repr

end Sys2Proof
end

