-- ==== Sys2Proof/Decode.lean ====
section
/-!
DEFINITION. Decode.lean: the command that a word of the opcode table spells (no row of the table gives bits, so none does), and beside it the
encodings of the Deryr instruction set (R45-R52, R84, R93): the length of an instruction, the fields of its formats, the command of a core
that an instruction is, and the words of a command that is an instruction.
-/
namespace Sys2Proof

/-- The command a word spells by the table's bits: none, since no row has any. -/
def decodeTableWord (_nbits _w : Nat) : Option Instr := none

/-! ### Lengths and fields -/

/-- The length in bytes of an instruction, from its first parcel (R45). -/
def parcelLen (p : Nat) : Nat :=
  match p / 2 ^ 14 % 4 with
  | 0 => 2
  | 3 => 6
  | _ => 4

/-- The field of `n` bits of an instruction that begins at bit `lo`. -/
def fld (w lo n : Nat) : BitVec n := BitVec.ofNat n (w / 2 ^ lo)

/-- A field in two pieces: `n` bits from bit `hi` above `m` bits from bit `lo`. -/
def fld2 (w hi n lo m : Nat) : BitVec (n + m) := BitVec.ofNat (n + m) (w / 2 ^ hi % 2 ^ n * 2 ^ m + w / 2 ^ lo % 2 ^ m)

/-- Field A of every format (Tables ISA-2 and ISA-3). -/
def fldA (w : Nat) : Reg5 := fld w 3 5

/-- Field F3. -/
def fldF3 (w : Nat) : BitVec 3 := fld w 0 3

/-- Field B of a 32-bit instruction. -/
def fldB (w : Nat) : Reg5 := fld w 27 5

/-- Field C of a 32-bit instruction. -/
def fldC (w : Nat) : Reg5 := fld w 22 5

/-- Field D of format Q. -/
def fldD (w : Nat) : Reg5 := fld w 17 5

/-- Field F1 of format Q. -/
def fldF1 (w : Nat) : BitVec 1 := fld w 16 1

/-- Field F6 of format T. -/
def fldF6 (w : Nat) : BitVec 6 := fld w 16 6

/-- The immediate of format I. -/
def immI (w : Nat) : BitVec 14 := fld2 w 0 3 16 11

/-- The immediate of format M. -/
def immM (w : Nat) : BitVec 11 := fld w 16 11

/-- The immediate of format U. -/
def immU (w : Nat) : BitVec 19 := fld2 w 0 3 16 16

/-- The immediate of format B. -/
def immB (w : Nat) : BitVec 11 := fld2 w 3 5 16 6

/-- The immediate of format J. -/
def immJ (w : Nat) : BitVec 24 := fld2 w 0 8 16 16

/-- The shift amount of format SH. -/
def shamt (w : Nat) : BitVec 6 := fld2 w 21 1 22 5

/-- The position of format BF. -/
def bfPos (w : Nat) : BitVec 6 := fld2 w 2 1 22 5

/-- Field B of a 48-bit instruction. -/
def fldVB (w : Nat) : Reg5 := fld w 43 5

/-- Field C of a 48-bit instruction. -/
def fldVC (w : Nat) : Reg5 := fld w 38 5

/-- Field D of format V. -/
def fldVD (w : Nat) : Reg5 := fld w 33 5

/-- Field F11 of format V. -/
def fldF11 (w : Nat) : BitVec 11 := fld w 16 11

/-! ### Decoding -/

/-- A condition that an encoding must meet, or it is illegal (R51). -/
def legal (b : Bool) (i : Instr) : Option Instr := if b then some i else none

/-- The 16-bit instructions (Table ISA-4). -/
def decode16 (c w : Nat) : Option Instr :=
  let a := fld w 5 5
  let b : Reg5 := fld w 0 5
  match w / 2 ^ 10 % 16 with
  | 0 =>
    if a = 0 then
      (if b = 31 then some (.cRet c) else if b = 1 then some (.cBrk c) else if b = 2 then some (.cFenceX c) else none)
    else legal (b ≠ 0) (.cMov c a b)
  | 1 => some (.cAdd c a b)
  | 2 => some (.cSub c a b)
  | 3 => some (.cAnd c a b)
  | 4 => some (.cOr c a b)
  | 5 => some (.cXor c a b)
  | 6 => some (.cAddi c a b)
  | 7 => some (.cLi c a b)
  | 8 => some (.cSlli c a b)
  | 9 => some (.cSrli c a b)
  | 10 => some (.cSrai c a b)
  | 11 => some (.cLdk ⟨c, 0⟩ a b)
  | 12 => some (.cStk c a b)
  | 13 => some (.cBeqz c a b)
  | 14 => some (.cBnez c a b)
  | _ => some (.cJ c (fld w 0 10))

/-- The INT group (Table ISA-8): its divisions and checksums are commands of their own. -/
def decodeInt (c w : Nat) : Option Instr :=
  let f := (fldF6 w).toNat
  if 0x1C ≤ f ∧ f ≤ 0x1F then some (.div c (fldF3 w) (fldF6 w) (fldA w) (fldB w) (fldC w))
  else if 0x28 ≤ f ∧ f ≤ 0x2B then some (.crc c (fldF3 w) (fldF6 w) (fldA w) (fldB w) (fldC w))
  else some (.intOp c (fldF3 w) (fldF6 w) (fldA w) (fldB w) (fldC w))

/-- The BF group; sub-op 0b11 is illegal (R56). -/
def decodeBf (c w : Nat) : Option Instr :=
  match w % 4 with
  | 0 => some (.extu c (fldA w) (fldB w) (bfPos w) (fldF6 w))
  | 1 => some (.exts c (fldA w) (fldB w) (bfPos w) (fldF6 w))
  | 2 => some (.ins c (fldA w) (fldB w) (bfPos w) (fldF6 w))
  | _ => none

/-- The DEC group (Table ISA-11). -/
def decodeDec (c w : Nat) : Option Instr :=
  match (fldF3 w).toNat with
  | 0 => some (.dadd c (fldF6 w) (fldA w) (fldB w) (fldC w))
  | 1 => some (.dsub c (fldF6 w) (fldA w) (fldB w) (fldC w))
  | 2 => some (.dmul c (fldF6 w) (fldA w) (fldB w) (fldC w))
  | 3 => some (.ddiv c (fldF6 w) (fldA w) (fldB w) (fldC w))
  | 4 => legal (fldC w = 0) (.dresc c (fldF6 w) (fldA w) (fldB w))
  | _ => none

/-- The JR group: A, C and F3 zero (Table ISA-13). -/
def decodeJr (c w : Nat) : Option Instr :=
  let z := fldA w = 0 && fldC w = 0 && fldF3 w = 0
  match (fldF6 w).toNat with
  | 0 => legal z (.jmpr c (fldB w))
  | 1 => legal z (.callr c (fldB w))
  | 2 => legal z (.ret c (fldB w))
  | _ => none

/-- Page A (Table ISA-5). -/
def decodeA (c w : Nat) : Option Instr :=
  match w / 2 ^ 8 % 64 with
  | 0x00 => decodeInt c w
  | 0x01 => some (.immOp c 1 (fldA w) (fldB w) (immI w))
  | 0x02 => some (.immOp c 2 (fldA w) (fldB w) (immI w))
  | 0x03 => some (.immOp c 3 (fldA w) (fldB w) (immI w))
  | 0x04 => some (.immOp c 4 (fldA w) (fldB w) (immI w))
  | 0x05 => some (.immOp c 5 (fldA w) (fldB w) (immI w))
  | 0x06 => some (.immOp c 6 (fldA w) (fldB w) (immI w))
  | 0x07 => some (.shiftImm c (fldF3 w) (fld w 16 5) (fldA w) (fldB w) (shamt w))
  | 0x08 => some (.addiw c (fldA w) (fldB w) (immI w))
  | 0x09 => some (.lui c (fldA w) (immU w))
  | 0x0A => some (.addpc c (fldA w) (immU w))
  | 0x0B => decodeBf c w
  | 0x0C => some (.sel c (fldF3 w) (fldF1 w) (fldA w) (fldB w) (fldC w) (fldD w))
  | 0x0D => decodeDec c w
  | 0x10 => some (.ld c (fldF3 w) (fldA w) (fldB w) (immM w) 0)
  | 0x11 => some (.st c (fldF3 w) (fldA w) (fldB w) (immM w))
  | 0x12 => some (.ldx ⟨c, 0⟩ (fldF3 w) (fldF6 w) (fldA w) (fldB w) (fldC w))
  | 0x13 => some (.stx c (fldF3 w) (fldF6 w) (fldA w) (fldB w) (fldC w))
  | 0x14 => some (.lda ⟨c, 0⟩ (fldF3 w) (fldA w) (fldB w) (immM w))
  | 0x15 => some (.stl c (fldF3 w) (fldA w) (fldB w) (immM w))
  | 0x16 => some (.pref c (fldF3 w) (fldA w) (fldB w) (immM w))
  | 0x18 => some (.bcc c (fldF3 w) (fldB w) (fldC w) (immB w))
  | 0x19 => some (.jmp c (immJ w))
  | 0x1A => some (.call c (immJ w))
  | 0x1B => decodeJr c w
  | 0x1C => legal (fldA w = 0) (.trap c (immU w))
  | 0x1D => legal (fldA w = 0) (.brk c (immU w))
  | _ => none

/-- The FARITH group (Table ISA-14). -/
def decodeFarith (c w : Nat) : Option Instr :=
  let rm : BitVec 3 := fld w 19 3
  match w / 2 ^ 16 % 8 with
  | 0 => some (.fadd c rm (fldF3 w) (fldA w) (fldB w) (fldC w))
  | 1 => some (.fsub c rm (fldF3 w) (fldA w) (fldB w) (fldC w))
  | 2 => some (.fmul c rm (fldF3 w) (fldA w) (fldB w) (fldC w))
  | 3 => some (.fdiv c rm (fldF3 w) (fldA w) (fldB w) (fldC w))
  | 4 => some (.fmin c rm (fldF3 w) (fldA w) (fldB w) (fldC w))
  | 5 => some (.fmax c rm (fldF3 w) (fldA w) (fldB w) (fldC w))
  | 6 => legal (fldC w = 0) (.fsqrt c rm (fldF3 w) (fldA w) (fldB w))
  | _ => none

/-- The FCMP group. -/
def decodeFcmp (c w : Nat) : Option Instr :=
  match (fldF6 w).toNat with
  | 0 => some (.feq c (fldF3 w) (fldA w) (fldB w) (fldC w))
  | 1 => some (.flt c (fldF3 w) (fldA w) (fldB w) (fldC w))
  | 2 => some (.fle c (fldF3 w) (fldA w) (fldB w) (fldC w))
  | 3 => some (.fun c (fldF3 w) (fldA w) (fldB w) (fldC w))
  | 4 => some (.fltq c (fldF3 w) (fldA w) (fldB w) (fldC w))
  | 5 => some (.fleq c (fldF3 w) (fldA w) (fldB w) (fldC w))
  | _ => none

/-- The FMV group: F3 zero in the moves, C zero in the sign operations.  C of the others is ignored: the table does not call it zero (log
entry 43). -/
def decodeFmv (c w : Nat) : Option Instr :=
  match (fldF6 w).toNat with
  | 0 => legal (fldF3 w = 0) (.fmvVg c (fldA w) (fldB w))
  | 1 => legal (fldF3 w = 0) (.fmvGv c (fldA w) (fldB w))
  | 2 => some (.fclass c (fldF3 w) (fldA w) (fldB w))
  | 3 => legal (fldC w = 0) (.fabs c (fldF3 w) (fldA w) (fldB w))
  | 4 => legal (fldC w = 0) (.fneg c (fldF3 w) (fldA w) (fldB w))
  | 5 => legal (fldC w = 0) (.fnabs c (fldF3 w) (fldA w) (fldB w))
  | 6 => some (.fcpys c (fldF3 w) (fldA w) (fldB w) (fldC w))
  | _ => none

/-- The ATOM group (Table SYSX-2). -/
def decodeAtom (c w : Nat) : Option Instr :=
  let z := fldC w = 0 && fldF3 w = 0
  match (fldF6 w).toNat with
  | 0 => legal (z && fldB w = 0) (.atomBegin c (fldA w))
  | 1 => legal (z && fldA w = 0) (.atomAdd c (fldB w))
  | 2 => legal (z && fldB w = 0) (.atomCommit c (fldA w))
  | 3 => legal (z && fldA w = 0) (.atomAbort c (fldB w))
  | _ => none

/-- FENCE: every field but F3 zero (R84, Table ISA-19). -/
def decodeFence (c w : Nat) : Option Instr :=
  let z := fldA w = 0 && fldB w = 0 && fldC w = 0 && fldF6 w = 0
  match (fldF3 w).toNat with
  | 0 => legal z (.fenceLl c)
  | 1 => legal z (.fenceLs c)
  | 2 => legal z (.fenceSl c)
  | 3 => legal z (.fenceSs c)
  | 4 => legal z (.fenceFull c)
  | 5 => legal z (.fenceIo c)
  | 6 => legal z (.fenceGlobal c)
  | _ => legal z (.fenceX c)

/-- The CACHE group (Table SYSX-2). -/
def decodeCache (c w : Nat) : Option Instr :=
  let z := fldA w = 0 && fldC w = 0 && fldF3 w = 0
  match (fldF6 w).toNat with
  | 0 => legal (z && fldB w = 0) (.iflush c)
  | 1 => legal z (.cclean c (fldB w))
  | 2 => legal z (.cflush c (fldB w))
  | 3 => legal z (.cinval c (fldB w))
  | 4 => legal z (.czero c (fldB w))
  | 8 => legal z (.swclean c (fldB w))
  | 9 => legal z (.swflush c (fldB w))
  | _ => none

/-- The TLBI group (Table SYSX-2). -/
def decodeTlbi (c w : Nat) : Option Instr :=
  let z := fldA w = 0
  match (fldF6 w).toNat with
  | 0 => legal z (.tlbiVa c (fldF3 w) (fldB w) (fldC w))
  | 1 => legal (z && fldB w = 0) (.tlbiSid c (fldF3 w) (fldC w))
  | 2 => legal (z && fldB w = 0) (.tlbiVm c (fldF3 w) (fldC w))
  | 3 => legal z (.tlbiIpa c (fldF3 w) (fldB w) (fldC w))
  | 4 => legal (z && fldB w = 0 && fldC w = 0) (.tlbiAll c (fldF3 w))
  | _ => none

/-- The SREG group: bits [31:28] zero (Table ISA-2, format SR). -/
def decodeSreg (c w : Nat) : Option Instr :=
  let z := w / 2 ^ 28 % 16 = 0
  match (fldF3 w).toNat with
  | 0 => legal z (.srd c (fldA w) (fld w 16 12))
  | 1 => legal z (.swr c (fldA w) (fld w 16 12))
  | _ => none

/-- The KEY, GATE and WAIT groups (Table SYSX-2), by group. -/
def decodeKgw (c w g : Nat) : Option Instr :=
  let z := fldC w = 0 && fldF3 w = 0
  match g, (fldF6 w).toNat with
  | 0, 0 => legal (z && fldA w = 0) (.kdrop c (fldB w))
  | 0, 1 => legal (z && fldA w = 0) (.kdropLo c (fldB w))
  | 0, 2 => legal (z && fldA w = 0) (.kdropHi c (fldB w))
  | 1, 0 => legal (z && fldA w = 0) (.gate c (fldB w))
  | 1, 1 => legal (z && fldA w = 0 && fldB w = 0) (.gentry c)
  | 1, 2 =>
    let y := fldC w = 0 && fldA w = 0 && fldB w = 0
    if fldF3 w = 0 then legal y (.gret c) else legal (y && fldF3 w = 1) (.gretEv c)
  | 2, 0 => legal z (.wait c (fldA w) (fldB w))
  | 2, 1 => legal z (.waitBanked c (fldA w) (fldB w))
  | 2, 2 => legal z (.waitCold c (fldA w) (fldB w))
  | _, _ => none

/-- Page B (Tables ISA-6 and ISA-19).  C of FCVT is ignored (log entry 43). -/
def decodeB (c w : Nat) : Option Instr :=
  match w / 2 ^ 8 % 64 with
  | 0x00 => decodeFarith c w
  | 0x01 => some (.fmadd c (fldF3 w) (fldF1 w) (fldA w) (fldB w) (fldC w) (fldD w))
  | 0x02 => decodeFcmp c w
  | 0x03 => some (.fcvt c (fld w 19 3) (fldF3 w) (fld w 16 3) (fldA w) (fldB w))
  | 0x04 => decodeFmv c w
  | 0x10 => some (.hatom c (fldF3 w) (fldF6 w) (fldA w) (fldB w) (fldC w))
  | 0x11 => some (.hcas c (fldF3 w) (fldF1 w) (fldA w) (fldB w) (fldC w) (fldD w))
  | 0x12 => decodeAtom c w
  | 0x18 => decodeFence c w
  | 0x19 => decodeCache c w
  | 0x1A => decodeTlbi c w
  | 0x1B => decodeSreg c w
  | 0x1C => decodeKgw c w 0
  | 0x1D => decodeKgw c w 1
  | 0x1E => decodeKgw c w 2
  | _ => none

/-- The LONG group (Table ISA-10). -/
def decodeLong (c w : Nat) : Option Instr :=
  match (fldF3 w).toNat with
  | 0 => some (.li c (fldA w) (fld w 16 32))
  | 1 => some (.liu c (fldA w) (fld w 16 32))
  | 2 => some (.lih c (fldA w) (fld w 16 32))
  | 3 => some (.addiL c (fldA w) (fld w 16 32))
  | _ => none

/-- The VPERM, VCOL, VRED, VMASK and VMOV groups, by group: F3 zero (R76); a register field no member names is ignored (log entry 43). -/
def decodeVec (c w g : Nat) : Option Instr :=
  let msk : BitVec 3 := fld w 30 3
  let ew : BitVec 2 := fld w 28 2
  let zm : BitVec 1 := fld w 27 1
  let a := fldA w
  let b := fldVB w
  let d := fldVC w
  let e := fldVD w
  let ln : BitVec 6 := fld2 w 38 1 33 5
  let z := fldF3 w = 0
  let f := (fldF11 w).toNat
  match g with
  | 0 =>
    (match f with
     | 0 => legal z (.vperm c a b d e msk ew zm)
     | 1 => legal z (.vperm2 c a b d e msk ew zm)
     | 2 => legal z (.vcompress c a b d e msk ew zm)
     | 3 => legal z (.vexpand c a b d e msk ew zm)
     | 4 => legal z (.vslideup c a b d e msk ew zm)
     | 5 => legal z (.vslidedn c a b d e msk ew zm)
     | 6 => legal z (.vrev c a b d e msk ew zm)
     | _ => none)
  | 1 =>
    (match f with
     | 0 => legal z (.vunpk c a b d e msk ew zm)
     | 1 => legal z (.vpack c a b d e msk ew zm)
     | 2 => legal z (.vcrc c a b d e msk ew zm)
     | _ => none)
  | 2 =>
    if f ≤ 4 then legal z (.vredInt c (fldF11 w) a b msk ew zm)
    else if 8 ≤ f ∧ f ≤ 10 then legal z (.vredFp c (fldF11 w) a b msk ew zm) else none
  | 3 =>
    if f ≤ 4 then legal z (.maskLogic c (fldF11 w) a b d msk)
    else (match f with
      | 5 => legal z (.mtog c a b msk)
      | 6 => legal z (.gtom c a b msk)
      | 7 => legal z (.mpopc c a b msk)
      | 8 => legal z (.mfirst c a b msk)
      | _ => none)
  | _ =>
    (match f with
     | 0 => legal z (.vbcastG c a b msk ew zm)
     | 1 => legal z (.vins c a b ln msk ew zm)
     | 2 => legal z (.vext c a b ln msk ew zm)
     | 3 => legal z (.vmov c a b msk ew zm)
     | 4 => legal z (.vzero c a msk ew zm)
     | _ => none)

/-- The 48-bit instructions (Table ISA-7). -/
def decode48 (c w : Nat) : Option Instr :=
  let msk : BitVec 3 := fld w 30 3
  let ew : BitVec 2 := fld w 28 2
  let zm : BitVec 1 := fld w 27 1
  match w / 2 ^ 8 % 64 with
  | 0x00 => decodeLong c w
  | 0x01 => legal (fldF3 w = 0) (.addpcL c (fldA w) (fld w 16 32))
  | 0x02 => some (.ldL ⟨c, 0⟩ (fldF3 w) (fldA w) (fldVB w) (fld w 16 27))
  | 0x03 => some (.stL c (fldF3 w) (fldA w) (fldVB w) (fld w 16 27))
  | 0x04 => some (.bccL c (fldF3 w) (fldA w) (fldVB w) (fld w 16 27))
  | 0x08 => some (.vint c (fldF3 w) (fldA w) (fldVB w) (fldVC w) (fldVD w) msk ew zm (fldF11 w))
  | 0x09 => some (.vcmp c (fldF3 w) (fldA w) (fldVB w) (fldVC w) (fldVD w) msk ew zm (fldF11 w))
  | 0x0A => some (.vfp c (fldF3 w) (fldA w) (fldVB w) (fldVC w) (fldVD w) msk ew zm (fldF11 w))
  | 0x0B => legal (fldF3 w = 0) (.vfmadd c (fldA w) (fldVB w) (fldVC w) (fldVD w) msk ew zm (fldF11 w))
  | 0x0C => some (.vld ⟨c, 0⟩ (fldF3 w) (fldA w) (fldVB w) (fldVC w) (fld w 35 3) (fld w 33 2) (fld w 32 1) (fld w 16 16))
  | 0x0D => some (.vst c (fldF3 w) (fldA w) (fldVB w) (fldVC w) (fld w 35 3) (fld w 33 2) (fld w 32 1) (fld w 16 16))
  | 0x0E => decodeVec c w 0
  | 0x0F => decodeVec c w 1
  | 0x10 => decodeVec c w 2
  | 0x11 => decodeVec c w 3
  | 0x12 => decodeVec c w 4
  | _ => none

/-- The command of core `c` that an instruction is, by its parcels from the lowest address up; none for an encoding that is reserved or
breaks a rule about fields (R51).  A field value that the instruction's own rule refuses is the command's to refuse. -/
def decodeInstr (c w : Nat) : Option Instr :=
  match w / 2 ^ 14 % 4 with
  | 0 => decode16 c w
  | 1 => decodeA c w
  | 2 => decodeB c w
  | _ => decode48 c w

/-! ### Encoding -/

/-- A word of format CR, CI or CJ. -/
def enc16 (op lo : Nat) : Nat := op * 2 ^ 10 + lo

/-- A word of format T: page, opcode, A, F3, B, C, F6. -/
def encT (page op a f3 b d f6 : Nat) : Nat := page * 2 ^ 14 + op * 2 ^ 8 + a * 2 ^ 3 + f3 + f6 * 2 ^ 16 + d * 2 ^ 22 + b * 2 ^ 27

/-- A word of format I. -/
def encI (op a b imm : Nat) : Nat := 2 ^ 14 + op * 2 ^ 8 + a * 2 ^ 3 + imm / 2 ^ 11 + imm % 2 ^ 11 * 2 ^ 16 + b * 2 ^ 27

/-- A word of format M. -/
def encM (op a f3 b imm : Nat) : Nat := 2 ^ 14 + op * 2 ^ 8 + a * 2 ^ 3 + f3 + imm * 2 ^ 16 + b * 2 ^ 27

/-- A word of format U. -/
def encU (op a imm : Nat) : Nat := 2 ^ 14 + op * 2 ^ 8 + a * 2 ^ 3 + imm / 2 ^ 16 + imm % 2 ^ 16 * 2 ^ 16

/-- A word of format J. -/
def encJ (op imm : Nat) : Nat := 2 ^ 14 + op * 2 ^ 8 + imm / 2 ^ 16 + imm % 2 ^ 16 * 2 ^ 16

/-- A word of format L. -/
def encL (op a f3 imm : Nat) : Nat := 3 * 2 ^ 14 + op * 2 ^ 8 + a * 2 ^ 3 + f3 + imm * 2 ^ 16

/-- A word of format LM. -/
def encLM (op a f3 b imm : Nat) : Nat := 3 * 2 ^ 14 + op * 2 ^ 8 + a * 2 ^ 3 + f3 + imm * 2 ^ 16 + b * 2 ^ 43

/-- A word of format V. -/
def encV (op a f3 b d e msk ew zm f11 : Nat) : Nat :=
  3 * 2 ^ 14 + op * 2 ^ 8 + a * 2 ^ 3 + f3 + f11 * 2 ^ 16 + zm * 2 ^ 27 + ew * 2 ^ 28 + msk * 2 ^ 30 + e * 2 ^ 33 + d * 2 ^ 38 + b * 2 ^ 43

/-- A word of format VM. -/
def encVM (op a f3 b d msk ew zm imm : Nat) : Nat :=
  3 * 2 ^ 14 + op * 2 ^ 8 + a * 2 ^ 3 + f3 + imm * 2 ^ 16 + zm * 2 ^ 32 + ew * 2 ^ 33 + msk * 2 ^ 35 + d * 2 ^ 38 + b * 2 ^ 43

/-- The words of a command that is an instruction of the ISA, with every field it does not name zero; none for any other command, and for
field values that another command's words have.  An array error met on the way stands in no word. -/
def encodeInstr (i : Instr) : Option Nat :=
  let is (b : Bool) (w : Nat) : Option Nat := if b then some w else none
  match i with
  | .cMov _ a b => is (a ≠ 0 && b ≠ 0) (enc16 0 (a.toNat * 32 + b.toNat))
  | .cAdd _ a b => some (enc16 1 (a.toNat * 32 + b.toNat))
  | .cSub _ a b => some (enc16 2 (a.toNat * 32 + b.toNat))
  | .cAnd _ a b => some (enc16 3 (a.toNat * 32 + b.toNat))
  | .cOr _ a b => some (enc16 4 (a.toNat * 32 + b.toNat))
  | .cXor _ a b => some (enc16 5 (a.toNat * 32 + b.toNat))
  | .cAddi _ a imm => some (enc16 6 (a.toNat * 32 + imm.toNat))
  | .cLi _ a imm => some (enc16 7 (a.toNat * 32 + imm.toNat))
  | .cSlli _ a imm => some (enc16 8 (a.toNat * 32 + imm.toNat))
  | .cSrli _ a imm => some (enc16 9 (a.toNat * 32 + imm.toNat))
  | .cSrai _ a imm => some (enc16 10 (a.toNat * 32 + imm.toNat))
  | .cStk _ a imm => some (enc16 12 (a.toNat * 32 + imm.toNat))
  | .cBeqz _ a imm => some (enc16 13 (a.toNat * 32 + imm.toNat))
  | .cBnez _ a imm => some (enc16 14 (a.toNat * 32 + imm.toNat))
  | .cLdk x a imm => is (x.err = 0) (enc16 11 (a.toNat * 32 + imm.toNat))
  | .cJ _ imm => some (enc16 15 imm.toNat)
  | .cRet _ => some (enc16 0 31)
  | .cBrk _ => some (enc16 0 1)
  | .cFenceX _ => some (enc16 0 2)
  | .intOp _ f3 f6 a b d => is (!(0x1C ≤ f6.toNat && f6.toNat ≤ 0x1F) && !(0x28 ≤ f6.toNat && f6.toNat ≤ 0x2B)) (encT 1 0 a.toNat f3.toNat b.toNat d.toNat f6.toNat)
  | .div _ f3 f6 a b d => is (0x1C ≤ f6.toNat && f6.toNat ≤ 0x1F) (encT 1 0 a.toNat f3.toNat b.toNat d.toNat f6.toNat)
  | .crc _ f3 f6 a b d => is (0x28 ≤ f6.toNat && f6.toNat ≤ 0x2B) (encT 1 0 a.toNat f3.toNat b.toNat d.toNat f6.toNat)
  | .immOp _ op a b imm => is (op ≠ 0 && op ≠ 7) (encI op.toNat a.toNat b.toNat imm.toNat)
  | .shiftImm _ f3 sub a b sh => some (encT 1 7 a.toNat f3.toNat b.toNat (sh.toNat % 32) (sub.toNat + sh.toNat / 32 * 32))
  | .addiw _ a b imm => some (encI 8 a.toNat b.toNat imm.toNat)
  | .lui _ a imm => some (encU 9 a.toNat imm.toNat)
  | .addpc _ a imm => some (encU 10 a.toNat imm.toNat)
  | .extu _ a b pos l => some (encT 1 11 a.toNat (0 + pos.toNat / 32 * 4) b.toNat (pos.toNat % 32) l.toNat)
  | .exts _ a b pos l => some (encT 1 11 a.toNat (1 + pos.toNat / 32 * 4) b.toNat (pos.toNat % 32) l.toNat)
  | .ins _ a b pos l => some (encT 1 11 a.toNat (2 + pos.toNat / 32 * 4) b.toNat (pos.toNat % 32) l.toNat)
  | .sel _ f3 f1 a b d e => some (encT 1 12 a.toNat f3.toNat b.toNat d.toNat (e.toNat * 2 + f1.toNat))
  | .dadd _ f6 a b d => some (encT 1 13 a.toNat 0 b.toNat d.toNat f6.toNat)
  | .dsub _ f6 a b d => some (encT 1 13 a.toNat 1 b.toNat d.toNat f6.toNat)
  | .dmul _ f6 a b d => some (encT 1 13 a.toNat 2 b.toNat d.toNat f6.toNat)
  | .ddiv _ f6 a b d => some (encT 1 13 a.toNat 3 b.toNat d.toNat f6.toNat)
  | .dresc _ f6 a b => some (encT 1 13 a.toNat 4 b.toNat 0 f6.toNat)
  | .ld _ f3 a b imm err => is (err = 0) (encM 0x10 a.toNat f3.toNat b.toNat imm.toNat)
  | .st _ f3 a b imm => some (encM 0x11 a.toNat f3.toNat b.toNat imm.toNat)
  | .ldx x f3 f6 a b d => is (x.err = 0) (encT 1 0x12 a.toNat f3.toNat b.toNat d.toNat f6.toNat)
  | .stx _ f3 f6 a b d => some (encT 1 0x13 a.toNat f3.toNat b.toNat d.toNat f6.toNat)
  | .lda x f3 a b imm => is (x.err = 0) (encM 0x14 a.toNat f3.toNat b.toNat imm.toNat)
  | .stl _ f3 a b imm => some (encM 0x15 a.toNat f3.toNat b.toNat imm.toNat)
  | .pref _ f3 a b imm => some (encM 0x16 a.toNat f3.toNat b.toNat imm.toNat)
  | .bcc _ f3 b d imm => some (encT 1 0x18 (imm.toNat / 64) f3.toNat b.toNat d.toNat (imm.toNat % 64))
  | .jmp _ imm => some (encJ 0x19 imm.toNat)
  | .call _ imm => some (encJ 0x1A imm.toNat)
  | .jmpr _ b => some (encT 1 0x1B 0 0 b.toNat 0 0)
  | .callr _ b => some (encT 1 0x1B 0 0 b.toNat 0 1)
  | .ret _ b => some (encT 1 0x1B 0 0 b.toNat 0 2)
  | .trap _ imm => some (encU 0x1C 0 imm.toNat)
  | .brk _ imm => some (encU 0x1D 0 imm.toNat)
  | .fadd _ rm p a b d => some (encT 2 0 a.toNat p.toNat b.toNat d.toNat (0 + rm.toNat * 8))
  | .fsub _ rm p a b d => some (encT 2 0 a.toNat p.toNat b.toNat d.toNat (1 + rm.toNat * 8))
  | .fmul _ rm p a b d => some (encT 2 0 a.toNat p.toNat b.toNat d.toNat (2 + rm.toNat * 8))
  | .fdiv _ rm p a b d => some (encT 2 0 a.toNat p.toNat b.toNat d.toNat (3 + rm.toNat * 8))
  | .fmin _ rm p a b d => some (encT 2 0 a.toNat p.toNat b.toNat d.toNat (4 + rm.toNat * 8))
  | .fmax _ rm p a b d => some (encT 2 0 a.toNat p.toNat b.toNat d.toNat (5 + rm.toNat * 8))
  | .fsqrt _ rm p a b => some (encT 2 0 a.toNat p.toNat b.toNat 0 (6 + rm.toNat * 8))
  | .fmadd _ f3 f1 a b d e => some (encT 2 1 a.toNat f3.toNat b.toNat d.toNat (e.toNat * 2 + f1.toNat))
  | .feq _ p a b d => some (encT 2 2 a.toNat p.toNat b.toNat d.toNat 0)
  | .flt _ p a b d => some (encT 2 2 a.toNat p.toNat b.toNat d.toNat 1)
  | .fle _ p a b d => some (encT 2 2 a.toNat p.toNat b.toNat d.toNat 2)
  | .fun _ p a b d => some (encT 2 2 a.toNat p.toNat b.toNat d.toNat 3)
  | .fltq _ p a b d => some (encT 2 2 a.toNat p.toNat b.toNat d.toNat 4)
  | .fleq _ p a b d => some (encT 2 2 a.toNat p.toNat b.toNat d.toNat 5)
  | .fcvt _ rm dst src a b => some (encT 2 3 a.toNat dst.toNat b.toNat 0 (src.toNat + rm.toNat * 8))
  | .fmvVg _ a b => some (encT 2 4 a.toNat 0 b.toNat 0 0)
  | .fmvGv _ a b => some (encT 2 4 a.toNat 0 b.toNat 0 1)
  | .fclass _ p a b => some (encT 2 4 a.toNat p.toNat b.toNat 0 2)
  | .fabs _ p a b => some (encT 2 4 a.toNat p.toNat b.toNat 0 3)
  | .fneg _ p a b => some (encT 2 4 a.toNat p.toNat b.toNat 0 4)
  | .fnabs _ p a b => some (encT 2 4 a.toNat p.toNat b.toNat 0 5)
  | .fcpys _ p a b d => some (encT 2 4 a.toNat p.toNat b.toNat d.toNat 6)
  | .hatom _ f3 f6 a b d => some (encT 2 0x10 a.toNat f3.toNat b.toNat d.toNat f6.toNat)
  | .hcas _ f3 f1 a b d e => some (encT 2 0x11 a.toNat f3.toNat b.toNat d.toNat (e.toNat * 2 + f1.toNat))
  | .atomBegin _ a => some (encT 2 0x12 a.toNat 0 0 0 0)
  | .atomAdd _ b => some (encT 2 0x12 0 0 b.toNat 0 1)
  | .atomCommit _ a => some (encT 2 0x12 a.toNat 0 0 0 2)
  | .atomAbort _ b => some (encT 2 0x12 0 0 b.toNat 0 3)
  | .fenceLl _ => some (encT 2 0x18 0 0 0 0 0)
  | .fenceLs _ => some (encT 2 0x18 0 1 0 0 0)
  | .fenceSl _ => some (encT 2 0x18 0 2 0 0 0)
  | .fenceSs _ => some (encT 2 0x18 0 3 0 0 0)
  | .fenceFull _ => some (encT 2 0x18 0 4 0 0 0)
  | .fenceIo _ => some (encT 2 0x18 0 5 0 0 0)
  | .fenceGlobal _ => some (encT 2 0x18 0 6 0 0 0)
  | .fenceX _ => some (encT 2 0x18 0 7 0 0 0)
  | .iflush _ => some (encT 2 0x19 0 0 0 0 0)
  | .cclean _ b => some (encT 2 0x19 0 0 b.toNat 0 1)
  | .cflush _ b => some (encT 2 0x19 0 0 b.toNat 0 2)
  | .cinval _ b => some (encT 2 0x19 0 0 b.toNat 0 3)
  | .czero _ b => some (encT 2 0x19 0 0 b.toNat 0 4)
  | .swclean _ b => some (encT 2 0x19 0 0 b.toNat 0 8)
  | .swflush _ b => some (encT 2 0x19 0 0 b.toNat 0 9)
  | .tlbiVa _ f3 b d => some (encT 2 0x1A 0 f3.toNat b.toNat d.toNat 0)
  | .tlbiSid _ f3 d => some (encT 2 0x1A 0 f3.toNat 0 d.toNat 1)
  | .tlbiVm _ f3 d => some (encT 2 0x1A 0 f3.toNat 0 d.toNat 2)
  | .tlbiIpa _ f3 b d => some (encT 2 0x1A 0 f3.toNat b.toNat d.toNat 3)
  | .tlbiAll _ f3 => some (encT 2 0x1A 0 f3.toNat 0 0 4)
  | .srd _ a n => some (2 * 2 ^ 14 + 0x1B * 2 ^ 8 + a.toNat * 2 ^ 3 + n.toNat * 2 ^ 16)
  | .swr _ a n => some (2 * 2 ^ 14 + 0x1B * 2 ^ 8 + a.toNat * 2 ^ 3 + 1 + n.toNat * 2 ^ 16)
  | .kdrop _ b => some (encT 2 0x1C 0 0 b.toNat 0 0)
  | .kdropLo _ b => some (encT 2 0x1C 0 0 b.toNat 0 1)
  | .kdropHi _ b => some (encT 2 0x1C 0 0 b.toNat 0 2)
  | .gate _ b => some (encT 2 0x1D 0 0 b.toNat 0 0)
  | .gentry _ => some (encT 2 0x1D 0 0 0 0 1)
  | .gret _ => some (encT 2 0x1D 0 0 0 0 2)
  | .gretEv _ => some (encT 2 0x1D 0 1 0 0 2)
  | .wait _ a b => some (encT 2 0x1E a.toNat 0 b.toNat 0 0)
  | .waitBanked _ a b => some (encT 2 0x1E a.toNat 0 b.toNat 0 1)
  | .waitCold _ a b => some (encT 2 0x1E a.toNat 0 b.toNat 0 2)
  | .li _ a imm => some (encL 0 a.toNat 0 imm.toNat)
  | .liu _ a imm => some (encL 0 a.toNat 1 imm.toNat)
  | .lih _ a imm => some (encL 0 a.toNat 2 imm.toNat)
  | .addiL _ a imm => some (encL 0 a.toNat 3 imm.toNat)
  | .addpcL _ a imm => some (encL 1 a.toNat 0 imm.toNat)
  | .ldL x f3 a b imm => is (x.err = 0) (encLM 2 a.toNat f3.toNat b.toNat imm.toNat)
  | .stL _ f3 a b imm => some (encLM 3 a.toNat f3.toNat b.toNat imm.toNat)
  | .bccL _ f3 a b imm => some (encLM 4 a.toNat f3.toNat b.toNat imm.toNat)
  | .vint _ f3 a b d e msk ew zm f11 => some (encV 8 a.toNat f3.toNat b.toNat d.toNat e.toNat msk.toNat ew.toNat zm.toNat f11.toNat)
  | .vcmp _ f3 a b d e msk ew zm f11 => some (encV 9 a.toNat f3.toNat b.toNat d.toNat e.toNat msk.toNat ew.toNat zm.toNat f11.toNat)
  | .vfp _ f3 a b d e msk ew zm f11 => some (encV 10 a.toNat f3.toNat b.toNat d.toNat e.toNat msk.toNat ew.toNat zm.toNat f11.toNat)
  | .vfmadd _ a b d e msk ew zm f11 => some (encV 11 a.toNat 0 b.toNat d.toNat e.toNat msk.toNat ew.toNat zm.toNat f11.toNat)
  | .vld x f3 a b d msk ew zm imm => is (x.err = 0) (encVM 12 a.toNat f3.toNat b.toNat d.toNat msk.toNat ew.toNat zm.toNat imm.toNat)
  | .vst _ f3 a b d msk ew zm imm => some (encVM 13 a.toNat f3.toNat b.toNat d.toNat msk.toNat ew.toNat zm.toNat imm.toNat)
  | .vperm _ a b d e msk ew zm => some (encV 14 a.toNat 0 b.toNat d.toNat e.toNat msk.toNat ew.toNat zm.toNat 0)
  | .vperm2 _ a b d e msk ew zm => some (encV 14 a.toNat 0 b.toNat d.toNat e.toNat msk.toNat ew.toNat zm.toNat 1)
  | .vcompress _ a b d e msk ew zm => some (encV 14 a.toNat 0 b.toNat d.toNat e.toNat msk.toNat ew.toNat zm.toNat 2)
  | .vexpand _ a b d e msk ew zm => some (encV 14 a.toNat 0 b.toNat d.toNat e.toNat msk.toNat ew.toNat zm.toNat 3)
  | .vslideup _ a b d e msk ew zm => some (encV 14 a.toNat 0 b.toNat d.toNat e.toNat msk.toNat ew.toNat zm.toNat 4)
  | .vslidedn _ a b d e msk ew zm => some (encV 14 a.toNat 0 b.toNat d.toNat e.toNat msk.toNat ew.toNat zm.toNat 5)
  | .vrev _ a b d e msk ew zm => some (encV 14 a.toNat 0 b.toNat d.toNat e.toNat msk.toNat ew.toNat zm.toNat 6)
  | .vunpk _ a b d e msk ew zm => some (encV 15 a.toNat 0 b.toNat d.toNat e.toNat msk.toNat ew.toNat zm.toNat 0)
  | .vpack _ a b d e msk ew zm => some (encV 15 a.toNat 0 b.toNat d.toNat e.toNat msk.toNat ew.toNat zm.toNat 1)
  | .vcrc _ a b d e msk ew zm => some (encV 15 a.toNat 0 b.toNat d.toNat e.toNat msk.toNat ew.toNat zm.toNat 2)
  | .vredInt _ f11 a b msk ew zm => is (f11.toNat ≤ 4) (encV 16 a.toNat 0 b.toNat 0 0 msk.toNat ew.toNat zm.toNat f11.toNat)
  | .vredFp _ f11 a b msk ew zm => is (8 ≤ f11.toNat && f11.toNat ≤ 10) (encV 16 a.toNat 0 b.toNat 0 0 msk.toNat ew.toNat zm.toNat f11.toNat)
  | .maskLogic _ f11 a b d msk => is (f11.toNat ≤ 4) (encV 17 a.toNat 0 b.toNat d.toNat 0 msk.toNat 0 0 f11.toNat)
  | .mtog _ a b msk => some (encV 17 a.toNat 0 b.toNat 0 0 msk.toNat 0 0 5)
  | .gtom _ a b msk => some (encV 17 a.toNat 0 b.toNat 0 0 msk.toNat 0 0 6)
  | .mpopc _ a b msk => some (encV 17 a.toNat 0 b.toNat 0 0 msk.toNat 0 0 7)
  | .mfirst _ a b msk => some (encV 17 a.toNat 0 b.toNat 0 0 msk.toNat 0 0 8)
  | .vbcastG _ a b msk ew zm => some (encV 18 a.toNat 0 b.toNat 0 0 msk.toNat ew.toNat zm.toNat 0)
  | .vins _ a b ln msk ew zm => some (encV 18 a.toNat 0 b.toNat (ln.toNat / 32) (ln.toNat % 32) msk.toNat ew.toNat zm.toNat 1)
  | .vext _ a b ln msk ew zm => some (encV 18 a.toNat 0 b.toNat (ln.toNat / 32) (ln.toNat % 32) msk.toNat ew.toNat zm.toNat 2)
  | .vmov _ a b msk ew zm => some (encV 18 a.toNat 0 b.toNat 0 0 msk.toNat ew.toNat zm.toNat 3)
  | .vzero _ a msk ew zm => some (encV 18 a.toNat 0 0 0 0 msk.toNat ew.toNat zm.toNat 4)
  | _ => none

end Sys2Proof
end

