-- ==== Sys2Proof/Config.lean ====
section
/-!
DEFINITION. Config.lean: what one implementation fixes and the spec leaves open.
-/
namespace Sys2Proof

/-- A value the spec leaves open, the `n`-th one this run has met, `w` bits wide.  It has no body: nothing in Lean can
evaluate it, so no statement can rest on what it is (log entry 1). -/
opaque freeBits (w n : Nat) : BitVec w

/-- The bytes by which a page's kind and offset enter an instance's digest (Table DOMN-3 VADD), whose coding the spec leaves open
(log entry 1). -/
opaque vaddHeader (kind off : Nat) : List (BitVec 8)

/-- The digest of the Kindling image (0) or the security-controller firmware (1) that a socket executes, by what its boot window holds
(Table DOMN-5, R559): how an image set is divided the spec leaves open (log entry 1). -/
opaque imageDigest (which sock : Nat) (window : List (Nat × BitVec 8)) : BitVec 256

/-- The key STKKEY derives from a partition or instance key, a domain ID and a label (Table DOMN-3), by a function the spec leaves
open (log entry 1). -/
opaque stkKeyOf (key domain label : Nat) : BitVec 256

/-- The AES-XTS-256 key pair of a partition, by key number (R135, R136): no register, debug path or command reads it (log entry 1). -/
opaque partKey (n : Nat) : BitVec 512

/-- What a line that was not written under a partition key decrypts to, by key number, line and content (R136, R415, log entry 1). -/
opaque xtsOpen (key line : Nat) (x : BitVec 512) : BitVec 512

/-- What a counter the model does not follow read at a snapshot, by snapshot and register (log entry 11). -/
opaque countOpen (snap key : Nat) : BitVec 48

/-- How many bytes a socket's certificate chain has, and byte `i` of its identity public key and chain (Table DBUG-7), which the spec
leaves open (log entry 1). -/
opaque chainLen (sock : Nat) : Nat

/-- Byte `i` of a socket's identity public key and certificate chain (log entry 1). -/
opaque identityByte (sock i : Nat) : BitVec 8

/-- The I3C identification values the spec does not state: 0 the manufacturer's ID, 1 the other bits of the provisional ID, 2 the bus
and 3 the device characteristics (R598, log entry 1). -/
opaque i3cOpen (which sock : Nat) : BitVec 16

/-- The port of root complex `prc` (four times its socket, plus its number) behind which address `pa` of its device windows or its
configuration window lies: its devices' own registers say it, which no table of the spec holds (R481, R495, log entry 27). -/
opaque windowPort (prc pa : Nat) : Nat

/-- The predictor's open functions (log entry 24), by `which`, the branch's address and the history they use: index (0-7) and partial tag
(8-15, of 9 to 13 bits) in each tagged direction table, index in the indirect target table (16), and which of several tables gets a new
entry (17). -/
opaque predHash (which pc hist : Nat) : BitVec 16

/-- The usefulness of the tagged entry that provided a prediction, after the branch retired, from the old one and whether it was right
(R219, log entry 24). -/
opaque predTrain (old : Nat) (right : Bool) : BitVec 2

/-- How many micro-ops a microcoded sequence takes (R188): 0 GATE, 1 GRET, 2 GRET.EV, 3 SWR, 4 ATOM.COMMIT, 5 event entry (log entry
11). -/
opaque microOps (op : Nat) : BitVec 8

end Sys2Proof
end

