-- ==== Sys2Proof/Machine/State.lean ====
section
/-!
DEFINITION. Machine/State.lean: what the fabric of sockets holds, as plain data, and what it holds after reset.
-/
namespace Sys2Proof.Machine

/-- A sparse table: keys strictly rising, and no entry equal to what an unlisted key reads as. -/
abbrev Cells (α : Type) := List (Nat × α)

/-- Memory by physical byte address; an unlisted byte reads zero (R413, log entry 3). -/
abbrev Memory := List Host.Cell

/-- The three parts (Table SCOP-1). -/
inductive Part | eq256 | eq192 | eq128l
deriving DecidableEq, Repr

/-- Page types (Table XLAT-2 TYPE). -/
inductive PType | normal | gate | shadow
deriving DecidableEq, Repr

/-- One TLB entry with its tags (R251).  `base` is the virtual page number at the entry's size `bits`. -/
structure TlbE where
  vm : Nat
  s2 : Bool
  world : Option Nat
  sid : Nat
  glob : Bool
  base : Nat
  bits : Nat
  pa : Nat
  key : Nat
  ty : PType
  dev : Bool
  s2r : Nat
  leafA : Bool
  leafD : Bool
  leaf2A : Bool
  leaf2D : Bool
  ipaPage : Nat
deriving DecidableEq, Repr

/-- A leaf found by a walk: page base, log2 of its size, key, type, memory type, global flag, stage-2 rights, the address
of its entry, the A and D bits read, and the whole entry as read. -/
structure Leaf where
  base : Nat
  bits : Nat
  key : Nat
  ty : PType
  dev : Bool
  glob : Bool
  s2r : Nat
  ea : Nat
  a : Bool
  d : Bool
  raw : Nat
deriving DecidableEq, Repr

/-- One walk-cache entry (Table XLAT-6): a non-leaf entry of `level` of either stage, naming the table `next`; or, at level 0, the
stage-2 leaf through which the stage-1 table page `idx` is reached. -/
structure WcE where
  stage2 : Bool
  vm : Nat
  s2 : Bool
  world : Option Nat
  sid : Nat
  level : Nat
  idx : Nat
  next : Nat
  leaf : Option Leaf
deriving DecidableEq, Repr

/-- A store accepted by the core's queue and not yet performed (R196): physical address and bytes, lowest first.
`whole` marks a store that covers its line whole and leaves it clean (R504), `rel` a release store (R271), `fence` the last store
before a FENCE.SS that the core has executed (R94). -/
structure StoreEnt where
  pa : Nat
  bytes : List Byte
  whole : Bool
  rel : Bool
  fence : Bool := false
deriving DecidableEq, Repr

/-- An L2 line state other than I (R296). -/
inductive L2St | S | E | M
deriving DecidableEq, Repr

/-- An open multi-line region with its checkpoint (R114). -/
structure Region where
  ordered : Bool
  lines : List Nat
  held : List Nat
  stores : List StoreEnt
  accessed : Bool
  retired : Nat
  dest : Reg5
  next : Word
  ckG : Cells Word
  ckV : Cells Vec
  ckM : Cells Word
  ckFpstat : Word
  ckXpc : Word
deriving DecidableEq, Repr

/-- A pending asynchronous machine-check event: cause code, physical line address, INFO (R172, R512). -/
structure MCheck where
  cause : Nat
  addr : Nat
  info : Nat
deriving DecidableEq, Repr

/-- An interrupt entry inside its window (R176): the vector chosen so far, whether it was taken over, and whether a
Vault-routed entry came from the normal world and so occupied its seat (R154). -/
structure EntryWin where
  vector : Nat
  takeover : Bool
  fromNormal : Bool
deriving DecidableEq, Repr

/-- A request to the security controller not yet complete (R141, R142): operation code, block address captured, issuing
instance and seat (none for the normal world) and domain. -/
structure KeyReq where
  op : Nat
  pa : Nat
  world : Option (Nat × Nat)
  domain : Nat
  kr0 : Word
  kr1 : Word
deriving DecidableEq, Repr

/-- A Vault instance as its security controller keeps it beside the SEC registers (R145-R159): pages in VADD order with
their kinds (1 image, 2 gate, 3 table, 4 data), the bytes of the VSEAL block, the allowlist, the units assigned, the time
its watchdog was reloaded, the step of Table DOMN-8 a restart has reached (0 none, 1 triggered, 2 units being reset, 3 data
cleared), the UNIT_REVOKED held for its next seat entry (R185), and the functions whose reset a restart waits for. -/
structure VInst where
  pages : List (Nat × Nat)
  vseal : List Byte
  allow : List Nat
  units : List Nat
  kick : Nat
  step : Nat
  revoked : Bool
  resets : List Nat
deriving DecidableEq, Repr

/-- An instance never created. -/
def VInst.free : VInst :=
  { pages := [], vseal := [], allow := [], units := [], kick := 0, step := 0, revoked := false, resets := [] }

/-- A unit between worlds (Table DOMN-9): socket, unit word, instance, operation code, step reached and requesting core. -/
structure HandOver where
  sock : Nat
  unit : Nat
  inst : Nat
  op : Nat
  step : Nat
  core : Nat
  cancelled : Bool
deriving DecidableEq, Repr

/-- How a core came to its seat (R149, R154, R158): the address of the gate's record, or of the interrupt's frame, in the seat's
stack; the gate's entry PC, and 2 while the gate itself is retiring, 1 until the instruction at that PC has retired, 0 afterwards; the
running priority and the depth the core had then. -/
structure SeatIn where
  addr : Word
  frame : Bool
  entry : Word
  new : Nat
  rpri : Nat
  depth : Nat
deriving DecidableEq, Repr

/-- A core in a WAIT form (R113): destination of the reason, deadline, the state being entered (1 Ember, 2 Banked, 3 Cold)
and whether its power gate has yet to close (R543). -/
structure WaitInfo where
  dest : Reg5
  deadline : Nat
  kind : Nat
  closing : Bool
deriving DecidableEq, Repr

/-- A load from a device window whose completion has not returned: where its data goes, the root complex (four times its socket, plus its
number) and port it went to, and the pc after it (R490). -/
structure DevWait where
  dest : Reg5
  size : Nat
  signed : Bool
  prc : Nat
  port : Nat
  next : Word
deriving DecidableEq, Repr

/-- A branch target buffer entry (Table BRAN-1): fetch block, parcel offset of the branch in it, kind, length in bytes, target and context
number. -/
structure BtbE where
  block : Nat
  off : Nat
  kind : Nat
  len : Nat
  target : Nat
  ctx : Nat
deriving DecidableEq, Repr

/-- An entry of a tagged direction table (Table BRAN-1): 3-bit counter, 2-bit usefulness, partial tag and context number. -/
structure TagE where
  ctr : Nat
  useful : Nat
  tag : Nat
  ctx : Nat
deriving DecidableEq, Repr

/-- A branch checkpoint (Table BRAN-1): the global and path history, the return-stack top index and the top entry; and how many
entries the stack holds. -/
structure Ckpt where
  ghist : BitVec 224
  phist : BitVec 32
  rtop : Nat
  rcnt : Nat
  entry : Word
deriving DecidableEq, Repr

/-- Predictor state of one core (Table BRAN-1): the histories, the circular return stack with its top index and how many entries it holds,
the retirement copy, the checkpoints in use, the branch target buffer (most recently used first), the base counters, the tagged entries (by
2048 * table + index), the indirect targets with their contexts (by index), the conditional branches retired since the last decay, the
context table (most recently used first: partition, world, instance, domain, number) and the number being swept. -/
structure Pred where
  ghist : BitVec 224
  phist : BitVec 32
  ras : Cells Word
  rtop : Nat
  rcnt : Nat
  retired : Ckpt
  ckpts : List Ckpt
  btb : List BtbE
  base : Cells Nat
  tagged : Cells (Option TagE)
  ind : Cells (Option (Nat × Nat))
  condRetired : Nat
  contexts : List (Nat × Nat × Nat × Nat × Nat)
  sweeping : Option Nat
deriving DecidableEq, Repr

/-- A Quined core behind a logical ID.  `l1i` holds the lines of its L1I with the value each was filled with, `l1d` the lines of its L1D,
which the L2 holds too (R192, R193); `itlb` and `dtlb` its L1 TLBs, `tlb` and `tlbL` the two arrays of its L2 TLB (R250), all newest
first.  `l2bad` lists the clean lines whose copy in its L2 an uncorrectable error has poisoned
(R197); the poison of a modified line is the line's own (`State.poison`). -/
structure Core where
  g : Cells Word
  v : Cells Vec
  m : Cells Word
  pc : Word
  sr : Cells Word
  gsr : Cells Word
  xlPend : Option Word
  world : Option (Nat × Nat)
  seatIn : Option SeatIn
  storeQ : List StoreEnt
  region : Option Region
  aborts : Nat
  l2 : Cells (Option L2St)
  l2bad : List Nat
  l1i : List (Nat × Vec)
  l1d : List Nat
  itlb : List TlbE
  dtlb : List TlbE
  tlb : List TlbE
  tlbL : List TlbE
  wc : List WcE
  mchk : List MCheck
  vpend : List (Nat × Nat)
  pmu : Cells Nat
  win : Option EntryWin
  fresh : Bool
  wait : Option WaitInfo
  devWait : Option DevWait
  tlbiOut : List Nat
  fence : Option Nat
  keyReq : Option KeyReq
  hardenEff : Bool
  ssArm : Bool
  skipArm : Bool
  stepping : Bool
  frozen : Bool
  traceGap : Bool
  traceStamp : Nat
  pred : Pred
deriving DecidableEq, Repr

/-- The predictor after a core reset: empty. -/
def Pred.reset : Pred :=
  { ghist := 0, phist := 0, ras := [], rtop := 0, rcnt := 0, retired := { ghist := 0, phist := 0, rtop := 0, rcnt := 0, entry := 0 },
    ckpts := [], btb := [], base := [], tagged := [], ind := [], condRetired := 0, contexts := [], sweeping := none }

/-- The two directory bits of a line (Table HRTH-1). -/
inductive DirBits | none | shared | owned | unknown
deriving DecidableEq, Repr

/-- Holders in a snoop-filter entry: up to two precise cores, or a tile vector (R297). -/
inductive Holders
  | precise (l : List Nat)
  | tiles (v : BitVec 8)
deriving DecidableEq, Repr

/-- A snoop-filter entry: the socket's permission (E or S) and its holders (R297). -/
structure SfE where
  excl : Bool
  holders : Holders
deriving DecidableEq, Repr

/-- A remote-sharer-cache line entry: precise or coarse (R299).  Held lines and waiters are `State.held`. -/
inductive RscE
  | p (owned : Bool) (socks : List Nat)
  | c (groups : BitVec 64)
deriving DecidableEq, Repr

/-- A line held by an ordered region: the holding core and the oldest retrier recorded (R315, R310). -/
structure HeldE where
  holder : Nat
  waiter : Option Nat
deriving DecidableEq, Repr

/-- One TLB invalidation (R100). -/
inductive Inval
  | va (sid vm page : Nat) | sid (sid vm : Nat) | vm (vm : Nat) | ipa (vm page : Nat) | all
deriving DecidableEq, Repr

/-- A partition-scope invalidation at one socket (Table XLAT-7): whether its IHUB has forwarded it, the targets that have not
acknowledged (logical cores by ID, root-complex IOMMUs from 256, Stoker cells from 264), and whether the socket's own
acknowledgement has been sent and received. -/
structure TlbiSock where
  sock : Nat
  fwd : Bool
  left : List Nat
  sent : Bool
deriving DecidableEq, Repr

/-- A partition-scope invalidation in flight (R256). -/
structure Tlbi where
  id : Nat
  core : Nat
  inv : Inval
  socks : List TlbiSock
deriving DecidableEq, Repr

/-- An inter-processor interrupt on its way to a socket's IHUB (R178, R179): `core` is none for a broadcast, which leaves out
core `skip`. -/
structure Ipi where
  sock : Nat
  core : Option Nat
  skip : Option Nat
  vector : Nat
deriving DecidableEq, Repr

/-- A coherence request (Table HRTH-2).  A masked write carries the offset in its line and the bytes with their mask; a
Hearth atomic its operation, byte offset, width, operand, comparand and posted flag; cache maintenance its kind (1 CCLEAN,
2 CFLUSH, 3 CINVAL). -/
inductive ReqK
  | rds | rd | rdo | upg | own | rdu | lockx
  | wru (bytes : List (Nat × Byte))
  | hat (op off size : Nat) (x y : Word) (posted : Bool)
  | cmo (kind : Nat)
deriving DecidableEq, Repr

/-- A request with its line, its requester (a core, or from 2^20 up an agent that is no core) and its age (R302). -/
structure Req where
  k : ReqK
  ln : Nat
  frm : Nat
  age : Nat
deriving DecidableEq, Repr

/-- A transaction that keeps its line busy at its home (R303): what the requester has received (data, the count of the GNT,
acknowledgements, R309) and the sockets whose snoop answers the home still waits for. -/
structure Txn where
  req : Req
  home : Nat
  data : Bool
  expect : Option Nat
  acks : Nat
  wait : List Nat
  granted : Bool
deriving DecidableEq, Repr

/-- Messages other than requests (Table HRTH-2), and the memory controller's report of the bits it read (R305). -/
inductive MsgK
  | snps | snpi | snpx | snpr | snpc | dataS | dataE | dataM | dataU | gnt | ack | srsp | cmp | atres | wback | retry | bits
deriving DecidableEq, Repr

/-- A message in flight: its line, its source and destination (a socket for a snoop, a home socket for SRSP and the bits
report, the requester otherwise) and a number: the count of a GNT or ACK, the outcome of an SRSP (0 kept S, 1 invalidated,
2 held nothing), the bits read, or the value of DATA_U and ATRES. -/
structure Msg where
  k : MsgK
  ln : Nat
  src : Nat
  dst : Nat
  n : Nat
deriving DecidableEq, Repr

/-- A slice's retirement (Tables HRTH-5 and HRTH-6): the slice, whether it failed as a source, the step reached (1 asked for,
2 between buckets, 3 bucket marked, 4 transactions done), the bucket and its target, targets that failed, the requests that
wait, and the sockets that have yet to answer FLUSHB. -/
structure Retire where
  slice : Nat
  fail : Bool
  step : Nat
  bucket : Nat
  target : Nat
  bad : List Nat
  queue : List (Nat × Bool)
  left : List Nat
deriving DecidableEq, Repr

/-- A flit of the mesh or of a flue (R329, R345, Table FLUE-3): class (0 request, 1 snoop, 2 response, 3 data, 4 Assured),
cast (0 unicast, 1 group multicast, 2 broadcast, 3 combined acknowledgement), sockets, partition, stops, transaction number,
a tag (the line a data flit carries, the snoop a cast belongs to), links crossed, virtual channel, detour progress, the group
vector of a multicast, a count, the steps of its detour still to take, and the time it came to where it waits. -/
structure Flit where
  cls : Nat
  cast : Nat
  a : Bool
  dsock : Nat
  ssock : Nat
  part : Nat
  dstop : Nat
  sstop : Nat
  txid : Nat
  tag : Nat
  hops : Nat
  vc : Nat
  dstep : Nat
  groups : BitVec 64
  count : Nat
  plan : List Nat
  time : Nat
deriving DecidableEq, Repr

/-- The state of one arbitration point (R333): grants made, holder, length of its run, allowances and waits. -/
structure Arb where
  g : Nat
  holder : Option Nat
  run : Nat
  allow : List Nat
  wait : List Nat
  told : List Nat
deriving DecidableEq, Repr

/-- An arbitration point that has granted nothing. -/
def Arb.idle : Arb := { g := 0, holder := none, run := 0, allow := [], wait := [], told := [] }

/-- A mesh link at its receiving input: refusals of the flit now on it in succession, and its state (0 good, 1 failing,
2 under repair) (R345, R346). -/
structure MLink where
  refused : Nat
  st : Nat
deriving DecidableEq, Repr

/-- One end of a flue beyond its registers: codewords sent and unacknowledged, oldest first, each with its flits (R365); the
rejections of the next codeword in succession and whether a replay is awaited; the lane being replaced; how many codewords it
has sent since it came up and its key epoch (R394, R395); the Sealed partitions keyed; the distance from the sync master its
peer last reported (31 for none, R387); whether it failed and is being restored; and when it last completed training (R37). -/
structure FlueS where
  unacked : List (Nat × List Flit)
  rejects : Nat
  nak : Bool
  lane : Option Nat
  sent : Nat
  epoch : Nat
  keyed : List Nat
  sdist : Nat
  back : Bool
  trained : Nat
deriving DecidableEq, Repr

/-- A flue end that has just come up. -/
def FlueS.fresh : FlueS :=
  { unacked := [], rejects := 0, nak := false, lane := none, sent := 0, epoch := 0, keyed := [], sdist := 31, back := false, trained := 0 }

/-- A reroute (Table FLUE-6): its number, the two ends of the flue, whether it moves traffic back (R380), the sockets that have
received LINKDOWN or LINKUP, those that have adopted the new routes, and whether the replay buffers have been resent. -/
structure Reroute where
  id : Nat
  sock : Nat
  flue : Nat
  psock : Nat
  pflue : Nat
  up : Bool
  got : List Nat
  adopted : List Nat
  replayed : Bool
deriving DecidableEq, Repr

/-- A combining entry of a crossbar (R371): socket, snoop, the flue it came by (none at the root), the branches still to acknowledge,
and the count so far. -/
structure Combine where
  sock : Nat
  tag : Nat
  frm : Option Nat
  left : List Nat
  count : Nat
deriving DecidableEq, Repr

/-- A socket's timebase: its offset from the fabric's nanoseconds, and the slew in effect with the time it began (R388,
R541). -/
structure Tb where
  off : Int
  since : Nat
  fwd : Nat
  back : Nat
deriving DecidableEq, Repr

/-- A timebase that has never been corrected. -/
def Tb.free : Tb := { off := 0, since := 0, fwd := 0, back := 0 }

/-- The code word last on a channel's pins and what the controller made of it (R407, R408): ten symbols, data, directory bits and
poison flag. -/
structure McOut where
  word : List Nat
  data : Vec
  d : Nat
  p : Bool
deriving DecidableEq, Repr

/-- An access held in a memory controller's queue (R413, R423, R425): a write with its data, bits and flag, or a read with the
errors its copies have. -/
structure McReq where
  wr : Bool
  pa : Nat
  data : Vec
  d : Nat
  p : Bool
  e0 : List Nat
  e1 : List Nat
deriving DecidableEq, Repr

/-- Row sparing at a channel (Table MEMC-7): candidate rows that wait, and the row under way with its entry, the step (2 copying,
4 sPPR, 5 copying back), the copy being worked on in paired mode, and how many copies have been repaired.  A row is numbered
2 * (line number above the row) + subchannel. -/
structure SpareRow where
  row : Nat
  entry : Nat
  step : Nat
  copy : Nat
  fixed : Nat
deriving DecidableEq, Repr

/-- What a memory channel holds beside its registers: accesses held, whether it is in self-refresh, the corrections of this Sweep
pass (subchannel-rank and device as 16r + d, and row), sparing, the hPPR list of the save store (R426), and the metadata cache:
256 sets of at most 16 lines, the latest used first, with whether each is dirty (R428). -/
structure Chan where
  held : List McReq
  selfRef : Bool
  fixes : List (Nat × Nat)
  cand : List Nat
  row : Option SpareRow
  hppr : List Nat
  meta' : Cells (List (Nat × Bool))
deriving DecidableEq, Repr

/-- A channel at reset. -/
def Chan.idle : Chan := { held := [], selfRef := false, fixes := [], cand := [], row := none, hppr := [], meta' := [] }

/-- How a Stoker operation ended: status, results and the address fields of Table STOK-2. -/
structure Fin where
  status : Nat
  r0 : Nat
  r1 : Nat
  addr : Nat
  kind : Nat
  s2 : Bool
deriving DecidableEq, Repr

/-- A run of a split FILTER (R463, R464): its first whole value and how many, virtual and physical address, lines, bit offset of its
first value, whether the Riddles take it, and once allocated its tag, segment size and place (a line of the segment area), the
Riddles that have accepted it, and the next block to read. -/
structure FRun where
  first : Nat
  cnt : Nat
  va : Nat
  pa : Nat
  lines : Nat
  boff : Nat
  rid : Bool
  tag : Option Nat
  segsz : Nat
  at' : Nat
  sent : List Nat
  blk : Nat
deriving DecidableEq, Repr

/-- A split FILTER under way: its program, the runs still to finish (the front one being read), the next value to put out, the
output so far (one byte a value for a bitmap), the matches, and the tail fragment of the segment read last (bits, value). -/
structure Split where
  prog : List Byte
  runs : List FRun
  pos : Nat
  out : List Byte
  n : Nat
  tail : Option (Nat × Nat)
deriving DecidableEq, Repr

/-- A descriptor in flight (R446): its ring index, its doublewords, whether it has started, how it ended, its split, the source lines it
has read so far, each with the bytes it had then (R277), and for HASHBUILD the records inserted and the longest probe. -/
structure Desc where
  idx : Nat
  w : List Nat
  started : Bool
  fin : Option Fin
  split : Option Split
  memo : List (Nat × List Byte)
  done : Nat × Nat
deriving DecidableEq, Repr

/-- A Stoker channel beside its registers: descriptors in flight in ring order, key slots, the step of Table STOK-9 its reset has
reached (0 none, 1 draining, 3 stopped), whether it entered ERROR, whether step 4 leaves it HELD, and the Riddles that have yet to
answer a drain; the segments written for it, as tag and block; and whether its interrupt is held while it is between worlds (R155). -/
structure StkCh where
  infl : List Desc
  keys : Cells (Option Nat)
  rst : Nat
  err : Bool
  hold : Bool
  drains : List Nat
  segs : List (Nat × Nat)
  irq : Bool
deriving DecidableEq, Repr

/-- A channel at reset. -/
def StkCh.idle : StkCh := { infl := [], keys := [], rst := 0, err := false, hold := false, drains := [], segs := [], irq := false }

/-- Part of a segment area in use: the item's tag, channel and descriptor, its first line and length in lines, the Riddles that have not
finished the item, and whether the cell still needs it. -/
structure SegUse where
  tag : Nat
  chan : Nat
  idx : Nat
  line : Nat
  len : Nat
  left : List Nat
  live : Bool
deriving DecidableEq, Repr

/-- A Stoker cell beside its registers: slices granted, deficits of its channels, whether it is clock-gated, the next item tag, its
segments, and each channel's wait for a reserved slice. -/
structure StkCell where
  slice : Nat
  deficit : Cells Int
  gated : Bool
  tagNext : Nat
  segs : List SegUse
  rwait : List Nat
deriving DecidableEq, Repr

/-- A cell at reset. -/
def StkCell.idle : StkCell := { slice := 0, deficit := [], gated := false, tagNext := 0, segs := [], rwait := [] }

/-- A Riddle work item (Table MEMC-8) with the program it was sent with, and the blocks of its range that lie in the Riddle's
channel and are still to do. -/
structure RidItem where
  cell : Nat
  chan : Nat
  tag : Nat
  assured : Bool
  fmt : Nat
  out : Nat
  w : Nat
  boff : Nat
  segsz : Nat
  base : Nat
  lenl : Nat
  nval : Nat
  dst : Nat
  prog : List Byte
  blocks : List Nat
deriving DecidableEq, Repr

/-- A Riddle unit: its program slots, its queue (the front item in progress), the lines of the current block evaluated so far, and
the drains it has taken and not answered, as cell and channel. -/
structure Rid where
  progs : Cells (List Byte)
  queue : List RidItem
  lines : List Byte
  drains : List (Nat × Nat)
deriving DecidableEq, Repr

/-- A Riddle at reset. -/
def Rid.idle : Rid := { progs := [], queue := [], lines := [], drains := [] }

/-- A function assigned to a Vault instance, in an internal slot of its root complex (R500): requester ID, instance and the eight
doublewords of its context. -/
structure VFn where
  rid : Nat
  inst : Nat
  w : List Nat
deriving DecidableEq, Repr

/-- A DMA request of which not every line is performed (R490): requester ID, port, whether it writes, address and length, how many of its
pieces are done, the data read so far and whether any of it was poisoned. -/
structure DmaPart where
  rid : Nat
  port : Nat
  write : Bool
  va : Nat
  len : Nat
  done : Nat
  data : List Byte
  bad : Bool
deriving DecidableEq, Repr

/-- A root complex beside its registers: cached context entries (by requester ID) and PASID entries (from 65,536 up, by requester ID
and PASID), the functions assigned to instances, functions stopped for a hand-over and functions quarantined, ports whose device
has no Meta0-State storage, its last completion (0 successful, 1 Unsupported Request, 2 poisoned, with its data), the requests that
wait for part of their lines, ports whose link is in L1, the requests of cores held for them (port and core, R495), message interrupts
held for functions between worlds (requester ID and data, R155), ports that PWRON has asked for before their second is over and when each
faulted port's fault was (R494). -/
structure Prc where
  ctxs : List (Nat × List Nat)
  fns : List VFn
  stopped : List Nat
  quar : List Nat
  noMeta : List Nat
  resp : Nat × List Byte
  parts : List DmaPart
  l1 : List Nat
  held : List (Nat × Nat)
  msis : List (Nat × List Byte)
  want : List Nat
  faults : List (Nat × Nat)
deriving DecidableEq, Repr

/-- A root complex at reset. -/
def Prc.idle : Prc :=
  { ctxs := [], fns := [], stopped := [], quar := [], noMeta := [], resp := (0, []), parts := [], l1 := [], held := [], msis := [],
    want := [], faults := [] }

/-- A hand-off of a core to a spare (Table RELY-7): the core, its old grate, the step reached (0 asked for, 1 core stopped, 2 epoch
visible, 3 state read, 4 stores read, 5 L2 emptied, 6 spare loaded), the spare and whether it is powered, and from step 6 the error
counts of the old grate: the words of ERRL1 and ERRL2 (R210). -/
structure Handoff where
  core : Nat
  grate : Nat
  step : Nat
  spare : Option Nat
  powered : Bool
  errs : Nat × Nat
deriving DecidableEq, Repr

/-- A lockstep recovery (Table RELY-8): socket and pair, the step reached (1 cores stopped, 2 self-tests running, 3 result known,
4 comparator test of a new pair), whether the main and the checker are known to have failed, and its result (1 for 4a, 2 for 4b). -/
structure LockRec where
  sock : Nat
  pair : Nat
  step : Nat
  mainBad : Bool
  chkBad : Bool
  res : Nat
deriving DecidableEq, Repr

/-- A socket's power control beside its registers (Tables POWR-2 and POWR-13, R534-R536): where its power sequence stands (0 running,
1 no standby rails, 2 RST# asserted, 3 standby domain running with no image verified, 4 Off, 5 powering up or held in cold reset, 6
powering down, 7 no image verified), THERMTRIP# and ERR#, the levels of the WAKE lands, a standby command taken, a save made in this
power cycle, the save under way (its cause and the package state at its trigger), whether the restart condition is awaited, what woke
the socket from Off, the Damper's steps taken from a core by a power limit (by logical ID) and by its tile's temperature (from 256
up), tiles above the target and in emergency, when the limits acting began to act, and core resets that wait. -/
structure Pwr where
  seq : Nat
  therm : Bool
  errp : Bool
  lands : Nat
  stby : Bool
  saved : Bool
  save : Option (Nat × Nat)
  need : Bool
  wake : Option (Nat × Nat)
  steps : Cells Nat
  hot : Nat
  emerg : Nat
  since : Nat
  rst : List Nat
deriving DecidableEq, Repr

/-- A running socket's power control with nothing pending. -/
def Pwr.idle : Pwr :=
  { seq := 0, therm := false, errp := false, lands := 0, stby := false, saved := false, save := none, need := false, wake := none,
    steps := [], hot := 0, emerg := 0, since := 0, rst := [] }

/-- A JTAG port (R596, R597): the instruction, the data register, the boundary register as last preloaded, what drives the lands
(0 nothing, 1 the boundary register, 2 high impedance), and the status and read data of the last access to the DBG block. -/
structure Jtag where
  ir : Nat
  dr : Nat
  pre : Nat
  drive : Nat
  status : Nat
  data : Option Nat
deriving DecidableEq, Repr

/-- A JTAG port at test-logic reset, which selects IDCODE. -/
def Jtag.idle : Jtag := { ir := 1, dr := 0, pre := 0, drive := 0, status := 0, data := none }

/-- A management controller beside its registers (R598, R599, R601): the response waiting (status, tag, payload), the bytes of its last
answer to an I3C common command, whether DISEC has disabled its interrupts, and the last byte it sent in an in-band interrupt. -/
structure Mgc where
  resp : Option (Nat × Nat × List Byte)
  ccc : List Byte
  evOff : Bool
  sent : Option Nat
deriving DecidableEq, Repr

/-- A management controller that has just started. -/
def Mgc.idle : Mgc := { resp := none, ccc := [], evOff := false, sent := none }

/-- A core as its reset leaves it (R557, Table SYSX-6): the general, vector and mask registers read zero,
the pc is the reset value of PWR.BOOT.PC of socket 0 (`coreAt` moves it to the core's own socket). -/
def Core.reset : Core :=
  { g := [], v := [], m := [], pc := 0x7FFFFF000000, sr := [], gsr := [], xlPend := none, world := none, seatIn := none,
    storeQ := [], region := none, aborts := 0, l2 := [], l2bad := [], l1i := [], l1d := [], itlb := [], dtlb := [], tlb := [], tlbL := [], wc := [], mchk := [], vpend := [], pmu := [], win := none,
    fresh := false, wait := none, devWait := none, tlbiOut := [], fence := none, keyReq := none, hardenEff := false, ssArm := false,
    skipArm := false, stepping := false, frozen := false, traceGap := false, traceStamp := 0, pred := Pred.reset }

/-- Why the machine stops with a fault.  No meaning raises one: every access the spec describes ends in an event, an
Ashpan entry or an ignored write. -/
inductive Fault
  /-- Raised by no command; kept so that the type is inhabited (safe). -/
  | none
deriving DecidableEq, Repr

/-- Why a command has no meaning. -/
inductive Refusal
  /-- A command not yet modelled, by its mnemonic; raised only by an arm of the dispatch (safe: the machine stops). -/
  | notModelled (mnemonic : String)
deriving DecidableEq, Repr

/-- The fabric of sockets: all of it, and the queue of commands that wait. -/
structure State where
  pending : List Instr
  free : Nat
  time : Nat
  tb : Cells Tb
  parts : Cells Part
  straps : Cells (Option Nat)
  mem : Memory
  poison : Cells Bool
  macBad : Cells Bool
  enc : Cells Bool
  owner : Cells (Nat × Nat)
  seatSr : Cells Word
  regs : Cells Nat
  shadow : Cells (Option Nat)
  locked : Cells Bool
  repoch : Cells Nat
  cores : Cells Core
  dirBits : Cells DirBits
  homeOld : Cells (Option (Vec × Bool))
  sf : Cells (Option SfE)
  rsc : Cells (Option RscE)
  rscG : Cells (BitVec 64)
  sfUse : Cells (List Nat)
  rscUse : Cells (List Nat)
  sdata : Cells (List Nat)
  held : Cells (Option HeldE)
  abuf : Cells (List Nat)
  ceCount : Cells Nat
  ceSupp : Cells Nat
  ashTotal : Cells Nat
  ibi : List (Nat × Nat)
  vault : Cells VInst
  handover : List HandOver
  tlbis : List Tlbi
  tlbiNext : Nat
  pafs : List (Nat × Nat × Nat)
  ipis : List Ipi
  txns : List Txn
  net : List Msg
  hq : List Req
  retried : List Req
  unreach : Cells Nat
  acts : List (Nat × Nat)
  iotlb : Cells (List TlbE)
  retire : Cells (Option Retire)
  down : Cells Nat
  meshIn : Cells (List Flit)
  meshReplay : Cells (List (Flit × Nat))
  meshDue : Cells (List Nat)
  meshNak : Cells (List Nat)
  mlinks : Cells MLink
  arbs : Cells Arb
  commitLeft : Cells (List Nat)
  bucketDebt : Cells (Nat × Nat)
  gateQ : Cells (List Req)
  flues : Cells FlueS
  xout : Cells (List Flit)
  xin : Cells (List Flit)
  reroutes : List Reroute
  rerouteNext : Nat
  flueDown : Cells (List Nat)
  combine : List Combine
  txNext : Cells Nat
  txExp : Cells Nat
  txHeld : Cells (List Flit)
  pstep : Cells Nat
  goShadow : Cells (List (Nat × Nat))
  chans : Cells Chan
  mcOut : Cells (Option McOut)
  stkChs : Cells StkCh
  stkCells : Cells StkCell
  rids : Cells Rid
  prcs : Cells Prc
  keyGen : Cells Nat
  handoffs : List Handoff
  lockrecs : List LockRec
  pwrs : Cells Pwr
  jtags : Cells Jtag
  mgcs : Cells Mgc
  snapBase : Cells Nat
  uwraps : List Nat
  ubw : Cells Nat
  bwPend : List Nat
  bwClr : List Nat
deriving DecidableEq, Repr

/-- The fabric right after cold reset: every register at its reset value, no command waiting. -/
def State.reset : State :=
  { pending := [], free := 0, time := 0, tb := [], parts := [], straps := [], mem := [], poison := [], macBad := [], enc := [], owner := [],
    seatSr := [], regs := [], shadow := [], locked := [], repoch := [], cores := [], dirBits := [], homeOld := [],
    sf := [], rsc := [], rscG := [], sfUse := [], rscUse := [], sdata := [], held := [], abuf := [], ceCount := [], ceSupp := [], ashTotal := [], ibi := [], vault := [], handover := [],
    tlbis := [], tlbiNext := 0, pafs := [], ipis := [], txns := [], net := [], hq := [], retried := [], unreach := [], acts := [], iotlb := [], retire := [],
    down := [], meshIn := [], meshReplay := [], meshDue := [], meshNak := [], mlinks := [], arbs := [], commitLeft := [],
    bucketDebt := [], gateQ := [], flues := [], xout := [], xin := [], reroutes := [], rerouteNext := 16, flueDown := [],
    combine := [], txNext := [], txExp := [], txHeld := [], pstep := [], goShadow := [],
    chans := [], mcOut := [], stkChs := [], stkCells := [], rids := [], prcs := [], keyGen := [], handoffs := [], lockrecs := [], pwrs := [], jtags := [], mgcs := [],
    snapBase := [], uwraps := [], ubw := [], bwPend := [], bwClr := [] }

end Sys2Proof.Machine
end

