-- ==== Sys2Proof/Machine/Cells.lean ====
section
/-!
DEFINITION. Machine/Cells.lean: the operations of the sparse tables that memory and every unit's state are kept in.
-/
namespace Sys2Proof.Machine

/-- The entry listed under `k`, if there is one. -/
def cellFind {α : Type} : Cells α → Nat → Option α
  | [], _ => none
  | (k', v) :: t, k => if k' = k then some v else cellFind t k

/-- What key `k` reads as: its entry, or `d` when it is not listed. -/
def cellGet {α : Type} (d : α) (m : Cells α) (k : Nat) : α := (cellFind m k).getD d

/-- Every entry of `k` removed. -/
def cellErase {α : Type} (m : Cells α) (k : Nat) : Cells α := m.filter (fun e => decide (e.1 ≠ k))

/-- Entry `v` listed under `k`, at its place in rising key order. -/
def cellPut {α : Type} : Cells α → Nat → α → Cells α
  | [], k, v => [(k, v)]
  | (k', v') :: t, k, v =>
    if k = k' then (k, v) :: t
    else if k < k' then (k, v) :: (k', v') :: t
    else (k', v') :: cellPut t k v

/-- `k` made to read as `v`: removed when `v` is what an unlisted key reads as. -/
def cellSet {α : Type} [DecidableEq α] (d : α) (m : Cells α) (k : Nat) (v : α) : Cells α :=
  if v = d then cellErase m k else cellPut m k v

/-- Keys strictly rising and none equal to the unlisted value `d k`. -/
def cellsWf {α : Type} [DecidableEq α] (d : α) : Cells α → Bool
  | [] => true
  | [(_, v)] => decide (v ≠ d)
  | (k, v) :: (k', v') :: t => decide (v ≠ d) && decide (k < k') && cellsWf d ((k', v') :: t)

/-- The canonical form of memory: addresses strictly rising, no listed byte equal to the unlisted value. -/
def Memory.wf (m : Memory) : Bool := cellsWf (0 : Byte) m

/-- One byte of memory; a byte nothing has written reads zero (R413, log entry 3). -/
def memGet (m : Memory) (a : Nat) : Byte := cellGet 0 m a

/-- One byte of memory written. -/
def memSet (m : Memory) (a : Nat) (b : Byte) : Memory := cellSet 0 m a b

/-- `n` bytes from `a`, lowest address first (R44). -/
def memBytes (m : Memory) (a : Nat) : Nat → List Byte
  | 0 => []
  | n + 1 => memGet m a :: memBytes m (a + 1) n

/-- Bytes written from `a` upwards. -/
def memWrite (m : Memory) (a : Nat) : List Byte → Memory
  | [] => m
  | b :: t => memWrite (memSet m a b) (a + 1) t

/-- The little-endian number a list of bytes spells (R44). -/
def leNat : List Byte → Nat
  | [] => 0
  | b :: t => b.toNat + 256 * leNat t

/-- The `n` little-endian bytes of a number. -/
def leBytes : Nat → Nat → List Byte
  | 0, _ => []
  | n + 1, x => BitVec.ofNat 8 x :: leBytes n (x / 256)

/-- `n` bytes of memory as a number. -/
def memNat (m : Memory) (a n : Nat) : Nat := leNat (memBytes m a n)

/-- A list entry by position, `d` beyond the end. -/
def nth {α : Type} (d : α) : List α → Nat → α
  | [], _ => d
  | x :: _, 0 => x
  | _ :: t, n + 1 => nth d t n

/-- A list with the entry at position `n` replaced. -/
def setNth {α : Type} : List α → Nat → α → List α
  | [], _, _ => []
  | _ :: t, 0, v => v :: t
  | x :: t, n + 1, v => x :: setNth t n v

/-- A saturating count (`w` bits) one higher (R530). -/
def satInc (w x : Nat) : Nat := if x + 1 < 2 ^ w then x + 1 else 2 ^ w - 1

/-- A saturating count (`w` bits) raised by `n`. -/
def satAdd (w x n : Nat) : Nat := if x + n < 2 ^ w then x + n else 2 ^ w - 1

end Sys2Proof.Machine
end

