-- ==== Sys2Proof/Machine/Regs.lean ====
section
/-!
DEFINITION. Machine/Regs.lean: every field of every control-space register (R5-R19 and the register tables of the
chapters), one definition a field: its block, offset, index strides, place, access type and reset value.
-/
namespace Sys2Proof.Machine

/-- Access types (Table SCOP-5). -/
inductive Access | ro | rw | w1c | w1s | wo | rws | rwl
deriving DecidableEq, Repr

/-- How a field's value after cold reset is found. -/
inductive Rst
  | val (n : Nat)
  | parts (e256 e192 e128 : Nat)
  | sid | lmapGrate | lmapState | gmapLogical | gmapState | bucketSlice | sliceEnabled | sliceBuckets | run0 | cstate0
deriving DecidableEq, Repr

/-- One register field: offset of index (0, 0), strides and counts of its two indices, least significant bit and width. -/
structure Fld where
  id : Nat
  blk : Blk
  off : Nat
  si : Nat
  ni : Nat
  sj : Nat
  nj : Nat
  lsb : Nat
  w : Nat
  acc : Access
  rst : Rst
deriving DecidableEq, Repr

/-- Where a field stands: socket, block instance and the field's two indices. -/
structure Ix where
  sock : Nat
  inst : Nat := 0
  i : Nat := 0
  j : Nat := 0
deriving DecidableEq, Repr

/-- Table SCOP-4, 0x10 [31:0] RO: ROOT.PARTNO. 0x0EC2_5600 (EQ256), 0x0EC1_9200 (EQ192), 0x0EC1_28A0 (EQ128L). Report only. -/
def Reg.rootPartno : Fld := ⟨0, .root, 0x10, 0x0, 1, 0x0, 1, 0, 32, .ro, .parts 247617024 247566848 247539872⟩

/-- Table SCOP-4, 0x10 [39:32] RO: ROOT.STEP. Silicon stepping; 0x00 is the first, which every part of the model is (DESIGN CHOICE, log entry 45). -/
def Reg.rootStep : Fld := ⟨1, .root, 0x10, 0x0, 1, 0x0, 1, 32, 8, .ro, .parts 0 0 0⟩

/-- Table SCOP-4, 0x18 [9:0] RO: ROOT.SOCKET. Current socket ID: SID[9:0] at reset, or as rewritten by fabric discovery. -/
def Reg.rootSocket : Fld := ⟨2, .root, 0x18, 0x0, 1, 0x0, 1, 0, 10, .ro, .sid⟩

/-- Table SCOP-4, 0x18 [10] RO: ROOT.REWRITTEN. 1 when fabric discovery has rewritten SOCKET. -/
def Reg.rootRewritten : Fld := ⟨3, .root, 0x18, 0x0, 1, 0x0, 1, 10, 1, .ro, .val 0⟩

/-- Table DOMN-11, 0x10 [0] RO: SEC.CAP.VAULT. 1 on TLV-EQ256 and TLV-EQ192; 0 on TLV-EQ128L. -/
def Reg.secCapVault : Fld := ⟨4, .sec, 0x10, 0x0, 1, 0x0, 1, 0, 1, .ro, .parts 1 1 0⟩

/-- Table DOMN-11, 0x10 [1] RO: SEC.CAP.SEALED. Sealed partitions supported. -/
def Reg.secCapSealed : Fld := ⟨5, .sec, 0x10, 0x0, 1, 0x0, 1, 1, 1, .ro, .val 1⟩

/-- Table DOMN-11, 0x10 [15:8] RO: SEC.CAP.MAXINST. 64; 0 without the Vault world. -/
def Reg.secCapMaxinst : Fld := ⟨6, .sec, 0x10, 0x0, 1, 0x0, 1, 8, 8, .ro, .parts 64 64 0⟩

/-- Table DOMN-11, 0x10 [23:16] RO: SEC.CAP.MAXSEATS. Seats per instance. -/
def Reg.secCapMaxseats : Fld := ⟨7, .sec, 0x10, 0x0, 1, 0x0, 1, 16, 8, .ro, .val 0x40⟩

/-- Table DOMN-11, 0x10 [31:24] RO: SEC.CAP.MAXASSIGN. Units per instance. -/
def Reg.secCapMaxassign : Fld := ⟨8, .sec, 0x10, 0x0, 1, 0x0, 1, 24, 8, .ro, .val 0x10⟩

/-- Table DOMN-11, 0x18 [0] RO: SEC.PART.SEALED. Partition is Sealed. -/
def Reg.secPartSealed : Fld := ⟨9, .sec, 0x18, 0x0, 1, 0x0, 1, 0, 1, .ro, .val 0⟩

/-- Table DOMN-11, 0x18 [1] RO: SEC.PART.ASSURED. Partition is Assured. -/
def Reg.secPartAssured : Fld := ⟨10, .sec, 0x18, 0x0, 1, 0x0, 1, 1, 1, .ro, .val 0⟩

/-- Table DOMN-11, 0x18 [2] RO: SEC.PART.MAC. MAC enabled. -/
def Reg.secPartMac : Fld := ⟨11, .sec, 0x18, 0x0, 1, 0x0, 1, 2, 1, .ro, .val 0⟩

/-- Table DOMN-11, 0x18 [13:8] RO: SEC.PART.NUM. Partition number. -/
def Reg.secPartNum : Fld := ⟨12, .sec, 0x18, 0x0, 1, 0x0, 1, 8, 6, .ro, .val 0⟩

/-- Table DOMN-11, 0x20 [31:0] RO: SEC.REQDONE. Requests completed with DONE; saturates at 0xFFFF_FFFF. -/
def Reg.secReqdone : Fld := ⟨13, .sec, 0x20, 0x0, 1, 0x0, 1, 0, 32, .ro, .val 0⟩

/-- Table DOMN-11, 0x20 [63:32] RO: SEC.REQFAIL. Requests completed with an error status; saturates. -/
def Reg.secReqfail : Fld := ⟨14, .sec, 0x20, 0x0, 1, 0x0, 1, 32, 32, .ro, .val 0⟩

/-- Table DOMN-11, 0x28 [31:0] RO: SEC.MACERR. MAC mismatches on this socket; saturates. -/
def Reg.secMacerr : Fld := ⟨15, .sec, 0x28, 0x0, 1, 0x0, 1, 0, 32, .ro, .val 0⟩

/-- Table DOMN-11, 0x28 [47:32] RO: SEC.QUARANTINE. Units quarantined; saturates. -/
def Reg.secQuarantine : Fld := ⟨16, .sec, 0x28, 0x0, 1, 0x0, 1, 32, 16, .ro, .val 0⟩

/-- Table DOMN-11, 0x1000 + 0x40i [2:0] RO: SEC.VI_STATE.STATE. 0 FREE, 1 BUILDING, 2 RUNNING, 3 RESTARTING, 4 LOST. -/
def Reg.secViStateState : Fld := ⟨17, .sec, 0x1000, 0x40, 64, 0x0, 1, 0, 3, .ro, .val 0⟩

/-- Table DOMN-11, 0x1000 + 0x40i [15:8] RO: SEC.VI_STATE.SEATS. Seats configured. -/
def Reg.secViStateSeats : Fld := ⟨18, .sec, 0x1000, 0x40, 64, 0x0, 1, 8, 8, .ro, .val 0⟩

/-- Table DOMN-11, 0x1000 + 0x40i [23:16] RO: SEC.VI_STATE.BUSY. Seats occupied. -/
def Reg.secViStateBusy : Fld := ⟨19, .sec, 0x1000, 0x40, 64, 0x0, 1, 16, 8, .ro, .val 0⟩

/-- Table DOMN-11, 0x1008 + 0x40i [31:0] RO: SEC.VI_WDOG. Watchdog period in µs. -/
def Reg.secViWdog : Fld := ⟨20, .sec, 0x1008, 0x40, 64, 0x0, 1, 0, 32, .ro, .val 0⟩

/-- Table DOMN-11, 0x1010 + 0x40i [0] WO: SEC.VI_KICK. Writing 1 reloads the watchdog (R156). -/
def Reg.secViKick : Fld := ⟨21, .sec, 0x1010, 0x40, 64, 0x0, 1, 0, 1, .wo, .val 0⟩

/-- Table DOMN-11, 0x1018 + 0x40i [31:0] RO: SEC.VI_RESTARTS. Restarts since VSEAL; saturates. -/
def Reg.secViRestarts : Fld := ⟨22, .sec, 0x1018, 0x40, 64, 0x0, 1, 0, 32, .ro, .val 0⟩

/-- Table DOMN-11, 0x1020 + 0x40i to 0x1038 + 0x40i RO: SEC.VI_DIGEST. SHA-256 digest recorded at VSEAL; first byte at the lowest address. -/
def Reg.secViDigest : Fld := ⟨23, .sec, 0x1020, 0x40, 64, 0x8, 4, 0, 64, .ro, .val 0⟩

/-- Table EVNT-6, 0x10 [15:0] RO: IHUB.CAP.ROUTES. Routing entries. -/
def Reg.ihubCapRoutes : Fld := ⟨24, .ihub, 0x10, 0x0, 1, 0x0, 1, 0, 16, .ro, .val 0x1000⟩

/-- Table EVNT-6, 0x10 [31:16] RO: IHUB.CAP.CORES. Logical cores: 256, 192 or 128. -/
def Reg.ihubCapCores : Fld := ⟨25, .ihub, 0x10, 0x0, 1, 0x0, 1, 16, 16, .ro, .parts 256 192 128⟩

/-- Table EVNT-6, 0x18 [7:0] RW: IHUB.MONITOR. Logical ID of the socket's monitor core. -/
def Reg.ihubMonitor : Fld := ⟨26, .ihub, 0x18, 0x0, 1, 0x0, 1, 0, 8, .rw, .val 0⟩

/-- Table EVNT-6, 0x20 [7:0] RW: IHUB.SYSVEC.TIMER. Timer vector (R180). -/
def Reg.ihubSysvecTimer : Fld := ⟨27, .ihub, 0x20, 0x0, 1, 0x0, 1, 0, 8, .rw, .val 0xe0⟩

/-- Table EVNT-6, 0x20 [15:8] RW: IHUB.SYSVEC.THREAD_LOST. Sent to the monitor when a thread is declared lost. -/
def Reg.ihubSysvecThreadLost : Fld := ⟨28, .ihub, 0x20, 0x0, 1, 0x0, 1, 8, 8, .rw, .val 0xfb⟩

/-- Table EVNT-6, 0x20 [23:16] RW: IHUB.SYSVEC.VAULT_RESTARTED. Sent for step 7 of Table DOMN-8. -/
def Reg.ihubSysvecVaultRestarted : Fld := ⟨29, .ihub, 0x20, 0x0, 1, 0x0, 1, 16, 8, .rw, .val 0xfc⟩

/-- Table EVNT-6, 0x20 [31:24] RW: IHUB.SYSVEC.VAULT_LOST. Sent for step 7a of Table DOMN-8. -/
def Reg.ihubSysvecVaultLost : Fld := ⟨30, .ihub, 0x20, 0x0, 1, 0x0, 1, 24, 8, .rw, .val 0xfd⟩

/-- Table EVNT-6, 0x20 [39:32] RW: IHUB.SYSVEC.CORE_LOST. Sent for step 4 of Table EVNT-4. -/
def Reg.ihubSysvecCoreLost : Fld := ⟨31, .ihub, 0x20, 0x0, 1, 0x0, 1, 32, 8, .rw, .val 0xfe⟩

/-- Table EVNT-6, 0x28 [31:0] RO: IHUB.DROP.MSG. Messages and system-source vectors discarded (R173, R182); saturates at 0xFFFF_FFFF. -/
def Reg.ihubDropMsg : Fld := ⟨32, .ihub, 0x28, 0x0, 1, 0x0, 1, 0, 32, .ro, .val 0⟩

/-- Table EVNT-6, 0x28 [63:32] RO: IHUB.DROP.IPI. IPIs discarded by this IHUB as sender; saturates. -/
def Reg.ihubDropIpi : Fld := ⟨33, .ihub, 0x28, 0x0, 1, 0x0, 1, 32, 32, .ro, .val 0⟩

/-- Table EVNT-6, 0x30 [7:0] RO: IHUB.LOSTALT.CORE. Core that last received a loss notification (CORE_LOST, THREAD_LOST, VAULT_RESTARTED or VAULT_LOST) in place of the monitor (R183). -/
def Reg.ihubLostaltCore : Fld := ⟨34, .ihub, 0x30, 0x0, 1, 0x0, 1, 0, 8, .ro, .val 0⟩

/-- Table EVNT-6, 0x30 [8] W1C: IHUB.LOSTALT.USED. Set when a notification is redirected under R183, including step 4a of Table EVNT-4. -/
def Reg.ihubLostaltUsed : Fld := ⟨35, .ihub, 0x30, 0x0, 1, 0x0, 1, 8, 1, .w1c, .val 0⟩

/-- Table EVNT-6, 0x1000 + 0x40c [3:0] RW: IHUB.COREc.TPRI. Threshold. -/
def Reg.ihubCoreTpri : Fld := ⟨36, .ihub, 0x1000, 0x40, 256, 0x0, 1, 0, 4, .rw, .val 0⟩

/-- Table EVNT-6, 0x1008 + 0x40c [3:0] RO: IHUB.COREc.CSTATE.RPRI. Running priority. -/
def Reg.ihubCoreCstateRpri : Fld := ⟨37, .ihub, 0x1008, 0x40, 256, 0x0, 1, 0, 4, .ro, .val 0⟩

/-- Table EVNT-6, 0x1008 + 0x40c [4] RO: IHUB.COREc.CSTATE.EXHAUSTED. Core is Exhausted. -/
def Reg.ihubCoreCstateExhausted : Fld := ⟨38, .ihub, 0x1008, 0x40, 256, 0x0, 1, 4, 1, .ro, .val 0⟩

/-- Table EVNT-6, 0x1008 + 0x40c [5] RO: IHUB.COREc.CSTATE.VAULT. Core is in the Vault world. -/
def Reg.ihubCoreCstateVault : Fld := ⟨39, .ihub, 0x1008, 0x40, 256, 0x0, 1, 5, 1, .ro, .val 0⟩

/-- Table EVNT-6, 0x1008 + 0x40c [31:16] RO: IHUB.COREc.CSTATE.DEPTH. Entries not yet returned by GRET.EV; saturates at 0xFFFF and does not go below 0. -/
def Reg.ihubCoreCstateDepth : Fld := ⟨40, .ihub, 0x1008, 0x40, 256, 0x0, 1, 16, 16, .ro, .val 0⟩

/-- Table EVNT-6, 0x1010 + 0x40c to 0x1028 + 0x40c RO: IHUB.PEND. Pending vectors; vector v at bit v mod 64 of doubleword v div 64. -/
def Reg.ihubPend : Fld := ⟨41, .ihub, 0x1010, 0x40, 256, 0x8, 4, 0, 64, .ro, .val 0⟩

/-- Table EVNT-6, 0x1_0000 + 8i [7:0] RW: IHUB.ROUTEi.VEC. Vector. -/
def Reg.ihubRouteVec : Fld := ⟨42, .ihub, 0x10000, 0x8, 4096, 0x0, 1, 0, 8, .rw, .val 0⟩

/-- Table EVNT-6, 0x1_0000 + 8i [15:8] RW: IHUB.ROUTEi.CORE. Target logical core. -/
def Reg.ihubRouteCore : Fld := ⟨43, .ihub, 0x10000, 0x8, 4096, 0x0, 1, 8, 8, .rw, .val 0⟩

/-- Table EVNT-6, 0x1_0000 + 8i [25:16] RW: IHUB.ROUTEi.SOCKET. Target socket. -/
def Reg.ihubRouteSocket : Fld := ⟨44, .ihub, 0x10000, 0x8, 4096, 0x0, 1, 16, 10, .rw, .val 0⟩

/-- Table EVNT-6, 0x1_0000 + 8i [26] RO: IHUB.ROUTEi.VAULT. 1: routed to a Vault instance. -/
def Reg.ihubRouteVault : Fld := ⟨45, .ihub, 0x10000, 0x8, 4096, 0x0, 1, 26, 1, .ro, .val 0⟩

/-- Table EVNT-6, 0x1_0000 + 8i [37:32] RO: IHUB.ROUTEi.INSTANCE. Instance when VAULT = 1. -/
def Reg.ihubRouteInstance : Fld := ⟨46, .ihub, 0x10000, 0x8, 4096, 0x0, 1, 32, 6, .ro, .val 0⟩

/-- Table EVNT-6, 0x1_0000 + 8i [63] RW: IHUB.ROUTEi.VALID. Entry in use. -/
def Reg.ihubRouteValid : Fld := ⟨47, .ihub, 0x10000, 0x8, 4096, 0x0, 1, 63, 1, .rw, .val 0⟩

/-- Table CORE-7, 0x10 [8:0] RO: CORE.CAP.GRATES. Core grates in the package. -/
def Reg.coreCapGrates : Fld := ⟨48, .core, 0x10, 0x0, 1, 0x0, 1, 0, 9, .ro, .val 0x110⟩

/-- Table CORE-7, 0x10 [17:9] RO: CORE.CAP.ENABLED. Logical cores: 256, 192 or 128. -/
def Reg.coreCapEnabled : Fld := ⟨49, .core, 0x10, 0x0, 1, 0x0, 1, 9, 9, .ro, .parts 256 192 128⟩

/-- Table CORE-7, 0x10 [22:18] RO: CORE.CAP.SPARES. Spare cores at reset: 16, 16 or 8. -/
def Reg.coreCapSpares : Fld := ⟨50, .core, 0x10, 0x0, 1, 0x0, 1, 18, 5, .ro, .parts 16 16 8⟩

/-- Table CORE-7, 0x18 [0] RO: CORE.MODE.SEALED. The socket's partition is Sealed; every core is hardened. -/
def Reg.coreModeSealed : Fld := ⟨51, .core, 0x18, 0x0, 1, 0x0, 1, 0, 1, .ro, .val 0⟩

/-- Table CORE-7, 0x1000 + 0x40c [0] RW: CORE.CFGc.L1PF. L1D stride prefetcher enabled. -/
def Reg.coreCfgL1pf : Fld := ⟨52, .core, 0x1000, 0x40, 256, 0x0, 1, 0, 1, .rw, .val 1⟩

/-- Table CORE-7, 0x1000 + 0x40c [1] RW: CORE.CFGc.L2PF. L2 stream prefetcher enabled. -/
def Reg.coreCfgL2pf : Fld := ⟨53, .core, 0x1000, 0x40, 256, 0x0, 1, 1, 1, .rw, .val 1⟩

/-- Table CORE-7, 0x1000 + 0x40c [2] RW: CORE.CFGc.HARDEN. Request hardening (R204). In a Sealed partition it reads 1 and writes are ignored. -/
def Reg.coreCfgHarden : Fld := ⟨54, .core, 0x1000, 0x40, 256, 0x0, 1, 2, 1, .rw, .val 0⟩

/-- Table CORE-7, 0x1000 + 0x40c [11:8] RW: CORE.CFGc.L2PFDIST. Stream prefetch distance in lines, 1–15; 0 is treated as 1. -/
def Reg.coreCfgL2pfdist : Fld := ⟨55, .core, 0x1000, 0x40, 256, 0x0, 1, 8, 4, .rw, .val 4⟩

/-- Table CORE-7, 0x1008 + 0x40c [0] RO: CORE.STATUSc.HARDENED. The core is hardened now. -/
def Reg.coreStatusHardened : Fld := ⟨56, .core, 0x1008, 0x40, 256, 0x0, 1, 0, 1, .ro, .val 0⟩

/-- Table CORE-7, 0x1010 + 0x40c [31:0] RO: CORE.ERRL1c.L1I. L1I parity errors (R194); saturates at 0xFFFF_FFFF. -/
def Reg.coreErrl1L1i : Fld := ⟨57, .core, 0x1010, 0x40, 256, 0x0, 1, 0, 32, .ro, .val 0⟩

/-- Table CORE-7, 0x1010 + 0x40c [63:32] RO: CORE.ERRL1c.L1D. L1D parity errors (R194); saturates. -/
def Reg.coreErrl1L1d : Fld := ⟨58, .core, 0x1010, 0x40, 256, 0x0, 1, 32, 32, .ro, .val 0⟩

/-- Table CORE-7, 0x1018 + 0x40c [31:0] RO: CORE.ERRL2c.CORR. L2 granules corrected (R197); saturates. -/
def Reg.coreErrl2Corr : Fld := ⟨59, .core, 0x1018, 0x40, 256, 0x0, 1, 0, 32, .ro, .val 0⟩

/-- Table CORE-7, 0x1018 + 0x40c [47:32] RO: CORE.ERRL2c.UNCORR. L2 lines poisoned (R197); saturates at 0xFFFF. -/
def Reg.coreErrl2Uncorr : Fld := ⟨60, .core, 0x1018, 0x40, 256, 0x0, 1, 32, 16, .ro, .val 0⟩

/-- Table HRTH-9, 0x10 [8:0] RO: HRTH.CAP.SLICES. Slices in the package. -/
def Reg.hrthCapSlices : Fld := ⟨61, .hrth, 0x10, 0x0, 1, 0x0, 1, 0, 9, .ro, .val 0x110⟩

/-- Table HRTH-9, 0x10 [17:9] RO: HRTH.CAP.ENABLED. Slices enabled at reset: 272 or 136. -/
def Reg.hrthCapEnabled : Fld := ⟨62, .hrth, 0x10, 0x0, 1, 0x0, 1, 9, 9, .ro, .parts 272 272 136⟩

/-- Table HRTH-9, 0x10 [30:18] RO: HRTH.CAP.NB. Buckets: 4,352 or 2,176 (R290). -/
def Reg.hrthCapNb : Fld := ⟨63, .hrth, 0x10, 0x0, 1, 0x0, 1, 18, 13, .ro, .parts 4352 4352 2176⟩

/-- Table HRTH-9, 0x10 [39:31] RO: HRTH.CAP.RSCK. RSC entries ÷ 1,024. -/
def Reg.hrthCapRsck : Fld := ⟨64, .hrth, 0x10, 0x0, 1, 0x0, 1, 31, 9, .ro, .val 0x100⟩

/-- Table HRTH-9, 0x18 [2:0] RWL: HRTH.DIRCFG.GS. Group shift, 0–4 (R299); values 5–7 are treated as 4. -/
def Reg.hrthDircfgGs : Fld := ⟨65, .hrth, 0x18, 0x0, 1, 0x0, 1, 0, 3, .rwl, .val 0⟩

/-- Table HRTH-9, 0x20 [8:0] RO: HRTH.MIG.SLICE. Slice being retired. -/
def Reg.hrthMigSlice : Fld := ⟨66, .hrth, 0x20, 0x0, 1, 0x0, 1, 0, 9, .ro, .val 0⟩

/-- Table HRTH-9, 0x20 [9] RO: HRTH.MIG.ACTIVE. Retirement in progress. -/
def Reg.hrthMigActive : Fld := ⟨67, .hrth, 0x20, 0x0, 1, 0x0, 1, 9, 1, .ro, .val 0⟩

/-- Table HRTH-9, 0x20 [10] RO: HRTH.MIG.SRCFAIL. The source failed (R320). -/
def Reg.hrthMigSrcfail : Fld := ⟨68, .hrth, 0x20, 0x0, 1, 0x0, 1, 10, 1, .ro, .val 0⟩

/-- Table HRTH-9, 0x20 [11] RO: HRTH.MIG.REBUILD. Rebuild in progress (Table HRTH-6). -/
def Reg.hrthMigRebuild : Fld := ⟨69, .hrth, 0x20, 0x0, 1, 0x0, 1, 11, 1, .ro, .val 0⟩

/-- Table HRTH-9, 0x20 [15:12] RO: HRTH.MIG.QUEUED. Retirements waiting (R317). -/
def Reg.hrthMigQueued : Fld := ⟨70, .hrth, 0x20, 0x0, 1, 0x0, 1, 12, 4, .ro, .val 0⟩

/-- Table HRTH-9, 0x20 [28:16] RO: HRTH.MIG.UNK. Buckets marked UNK. -/
def Reg.hrthMigUnk : Fld := ⟨71, .hrth, 0x20, 0x0, 1, 0x0, 1, 16, 13, .ro, .val 0⟩

/-- Table HRTH-9, 0x28 [8:0] WO: HRTH.RETIRE.SLICE. Slice to retire. -/
def Reg.hrthRetireSlice : Fld := ⟨72, .hrth, 0x28, 0x0, 1, 0x0, 1, 0, 9, .wo, .val 0⟩

/-- Table HRTH-9, 0x28 [15] WO: HRTH.RETIRE.GO. Writing 1 requests retirement of RETIRE.SLICE; a disabled or retired slice is ignored. -/
def Reg.hrthRetireGo : Fld := ⟨73, .hrth, 0x28, 0x0, 1, 0x0, 1, 15, 1, .wo, .val 0⟩

/-- Table HRTH-9, 0x30 [31:0] RO: HRTH.STAT.BCAST. Requests resolved by broadcast; saturates at 0xFFFF_FFFF. -/
def Reg.hrthStatBcast : Fld := ⟨74, .hrth, 0x30, 0x0, 1, 0x0, 1, 0, 32, .ro, .val 0⟩

/-- Table HRTH-9, 0x30 [63:32] RO: HRTH.STAT.RETRIES. RETRY responses sent; saturates. -/
def Reg.hrthStatRetries : Fld := ⟨75, .hrth, 0x30, 0x0, 1, 0x0, 1, 32, 32, .ro, .val 0⟩

/-- Table HRTH-9, 0x38 [31:0] RO: HRTH.STAT.RSCEVICT. RSC line entries merged into G entries; saturates. -/
def Reg.hrthStatRscevict : Fld := ⟨76, .hrth, 0x38, 0x0, 1, 0x0, 1, 0, 32, .ro, .val 0⟩

/-- Table HRTH-9, 0x38 [63:32] RO: HRTH.STAT.RECALL. OWNED entries recalled for space (R300); saturates. -/
def Reg.hrthStatRecall : Fld := ⟨77, .hrth, 0x38, 0x0, 1, 0x0, 1, 32, 32, .ro, .val 0⟩

/-- Table HRTH-9, 0x40 [9:0] RW: HRTH.ATOMIDLE. Atomic-buffer write-behind time in µs (R313); 0 is treated as 1. -/
def Reg.hrthAtomidle : Fld := ⟨78, .hrth, 0x40, 0x0, 1, 0x0, 1, 0, 10, .rw, .val 0xa⟩

/-- Table HRTH-9, 0x1000 + 2b [8:0] RO: HRTH.BUCKETb.SLICE. Slice serving bucket b. -/
def Reg.hrthBucketSlice : Fld := ⟨79, .hrth, 0x1000, 0x2, 4352, 0x0, 1, 0, 9, .ro, .bucketSlice⟩

/-- Table HRTH-9, 0x1000 + 2b [13] RO: HRTH.BUCKETb.MIG. Bucket being migrated. -/
def Reg.hrthBucketMig : Fld := ⟨80, .hrth, 0x1000, 0x2, 4352, 0x0, 1, 13, 1, .ro, .val 0⟩

/-- Table HRTH-9, 0x1000 + 2b [14] RO: HRTH.BUCKETb.UNK. Sharers unknown (R320). -/
def Reg.hrthBucketUnk : Fld := ⟨81, .hrth, 0x1000, 0x2, 4352, 0x0, 1, 14, 1, .ro, .val 0⟩

/-- Table HRTH-9, 0x4000 + 0x10s [0] RO: HRTH.SLICEs.ENABLED. Slice enabled at reset. -/
def Reg.hrthSliceEnabled : Fld := ⟨82, .hrth, 0x4000, 0x10, 272, 0x0, 1, 0, 1, .ro, .sliceEnabled⟩

/-- Table HRTH-9, 0x4000 + 0x10s [1] RO: HRTH.SLICEs.RETIRED. Slice retired. -/
def Reg.hrthSliceRetired : Fld := ⟨83, .hrth, 0x4000, 0x10, 272, 0x0, 1, 1, 1, .ro, .val 0⟩

/-- Table HRTH-9, 0x4000 + 0x10s [2] RO: HRTH.SLICEs.FAILED. Retired as a failed source. -/
def Reg.hrthSliceFailed : Fld := ⟨84, .hrth, 0x4000, 0x10, 272, 0x0, 1, 2, 1, .ro, .val 0⟩

/-- Table HRTH-9, 0x4000 + 0x10s [28:16] RO: HRTH.SLICEs.BUCKETS. Buckets served; 0 when not enabled. -/
def Reg.hrthSliceBuckets : Fld := ⟨85, .hrth, 0x4000, 0x10, 272, 0x0, 1, 16, 13, .ro, .sliceBuckets⟩

/-- Table HRTH-9, 0x4000 + 0x10s [63:32] RO: HRTH.SLICEs.CORR. Corrected errors (R288); saturates. -/
def Reg.hrthSliceCorr : Fld := ⟨86, .hrth, 0x4000, 0x10, 272, 0x0, 1, 32, 32, .ro, .val 0⟩

/-- Table HRTH-9, 0x4008 + 0x10s [15:0] RO: HRTH.SLICEs.UNCORR. Uncorrectable data-line errors; saturates at 0xFFFF. -/
def Reg.hrthSliceUncorr : Fld := ⟨87, .hrth, 0x4008, 0x10, 272, 0x0, 1, 0, 16, .ro, .val 0⟩

/-- Table HRTH-9, 0x6000 + 0x100r [0] RWL: HRTH.STRIPEr.VALID. Region valid (R295). -/
def Reg.hrthStripeValid : Fld := ⟨88, .hrth, 0x6000, 0x100, 8, 0x0, 1, 0, 1, .rwl, .val 0⟩

/-- Table HRTH-9, 0x6000 + 0x100r [7:1] RWL: HRTH.STRIPEr.N. Sockets in the list, 2–64. -/
def Reg.hrthStripeN : Fld := ⟨89, .hrth, 0x6000, 0x100, 8, 0x0, 1, 1, 7, .rwl, .val 0⟩

/-- Table HRTH-9, 0x6008 + 0x100r [16:0] RWL: HRTH.STRIPEr.BASE. Window offset of the region, in GiB. -/
def Reg.hrthStripeBase : Fld := ⟨90, .hrth, 0x6008, 0x100, 8, 0x0, 1, 0, 17, .rwl, .val 0⟩

/-- Table HRTH-9, 0x6008 + 0x100r [48:32] RWL: HRTH.STRIPEr.SHARE. Share per socket, in GiB. -/
def Reg.hrthStripeShare : Fld := ⟨91, .hrth, 0x6008, 0x100, 8, 0x0, 1, 32, 17, .rwl, .val 0⟩

/-- Table HRTH-9, 0x6010 + 0x100r + 2k [9:0] RWL: HRTH.STRIPEr.SOCKk. Socket k of the list, k = 0–63; SOCK0 is the anchor. -/
def Reg.hrthStripeSock : Fld := ⟨92, .hrth, 0x6010, 0x100, 8, 0x2, 64, 0, 10, .rwl, .val 0⟩

/-- Table MESH-7, 0x10 [4:0] RO: MESH.CAP.COLS. Mesh columns. -/
def Reg.meshCapCols : Fld := ⟨93, .mesh, 0x10, 0x0, 1, 0x0, 1, 0, 5, .ro, .val 0x16⟩

/-- Table MESH-7, 0x10 [8:5] RO: MESH.CAP.ROWS. Mesh rows. -/
def Reg.meshCapRows : Fld := ⟨94, .mesh, 0x10, 0x0, 1, 0x0, 1, 5, 4, .ro, .val 0xe⟩

/-- Table MESH-7, 0x10 [11:9] RO: MESH.CAP.CLASSES. Traffic classes. -/
def Reg.meshCapClasses : Fld := ⟨95, .mesh, 0x10, 0x0, 1, 0x0, 1, 9, 3, .ro, .val 5⟩

/-- Table MESH-7, 0x10 [19:12] RO: MESH.CAP.BRIDGES. Bridge links (R348). -/
def Reg.meshCapBridges : Fld := ⟨96, .mesh, 0x10, 0x0, 1, 0x0, 1, 12, 8, .ro, .val 0x5a⟩

/-- Table MESH-7, 0x18 [31:0] RO: MESH.ERR.HOPCORR. Hop errors corrected (R345); saturates at 0xFFFF_FFFF. -/
def Reg.meshErrHopcorr : Fld := ⟨97, .mesh, 0x18, 0x0, 1, 0x0, 1, 0, 32, .ro, .val 0⟩

/-- Table MESH-7, 0x18 [63:32] RO: MESH.ERR.HOPRETRY. Hop replays (R345); saturates. -/
def Reg.meshErrHopretry : Fld := ⟨98, .mesh, 0x18, 0x0, 1, 0x0, 1, 32, 32, .ro, .val 0⟩

/-- Table MESH-7, 0x20 [15:0] RO: MESH.ERR.CRCFAIL. End-to-end CRC mismatches (R347); saturates at 0xFFFF. -/
def Reg.meshErrCrcfail : Fld := ⟨99, .mesh, 0x20, 0x0, 1, 0x0, 1, 0, 16, .ro, .val 0⟩

/-- Table MESH-7, 0x20 [31:16] RO: MESH.ERR.CRCPOISON. Flits accepted as poisoned (R347); saturates. -/
def Reg.meshErrCrcpoison : Fld := ⟨100, .mesh, 0x20, 0x0, 1, 0x0, 1, 16, 16, .ro, .val 0⟩

/-- Table MESH-7, 0x20 [47:32] RO: MESH.ERR.LANEREP. Bridge lane repairs (R346); saturates. -/
def Reg.meshErrLanerep : Fld := ⟨101, .mesh, 0x20, 0x0, 1, 0x0, 1, 32, 16, .ro, .val 0⟩

/-- Table MESH-7, 0x28 [8:0] RO: MESH.ERR.LAST.STOP. Stop of the latest error. -/
def Reg.meshErrLastStop : Fld := ⟨102, .mesh, 0x28, 0x0, 1, 0x0, 1, 0, 9, .ro, .val 0⟩

/-- Table MESH-7, 0x28 [11:9] RO: MESH.ERR.LAST.PORT. Input port: 0 N, 1 E, 2 S, 3 W, 4 L. -/
def Reg.meshErrLastPort : Fld := ⟨103, .mesh, 0x28, 0x0, 1, 0x0, 1, 9, 3, .ro, .val 0⟩

/-- Table MESH-7, 0x28 [14:12] RO: MESH.ERR.LAST.KIND. 0 corrected, 1 hop replay, 2 CRC, 3 lane repair, 4 link failed. -/
def Reg.meshErrLastKind : Fld := ⟨104, .mesh, 0x28, 0x0, 1, 0x0, 1, 12, 3, .ro, .val 0⟩

/-- Table MESH-7, 0x1000 + 0x10c [15:0] RWL: MESH.BLWc.RATE. Tokens per µs × 16 (R341). -/
def Reg.meshBlwRate : Fld := ⟨105, .mesh, 0x1000, 0x10, 256, 0x0, 1, 0, 16, .rwl, .val 0⟩

/-- Table MESH-7, 0x1000 + 0x10c [23:16] RWL: MESH.BLWc.DEPTH. Bucket capacity in tokens; 0 acts as 1. -/
def Reg.meshBlwDepth : Fld := ⟨106, .mesh, 0x1000, 0x10, 256, 0x0, 1, 16, 8, .rwl, .val 0⟩

/-- Table MESH-7, 0x1000 + 0x10c [24] RWL: MESH.BLWc.EN. Gate enabled (R343). -/
def Reg.meshBlwEn : Fld := ⟨107, .mesh, 0x1000, 0x10, 256, 0x0, 1, 24, 1, .rwl, .val 0⟩

/-- Table MESH-7, 0x1008 + 0x10c [7:0] RO: MESH.BLWc.TOKENS. Whole tokens now in the bucket. -/
def Reg.meshBlwTokens : Fld := ⟨108, .mesh, 0x1008, 0x10, 256, 0x0, 1, 0, 8, .ro, .val 0⟩

/-- Table MESH-7, 0x2000 + 0x10k RWL: MESH.GATE.RATE. Same fields as 0x1000 + 0x10c, for gate k. -/
def Reg.meshGateRate : Fld := ⟨109, .mesh, 0x2000, 0x10, 12, 0x0, 1, 0, 16, .rwl, .val 0⟩

/-- Table MESH-7, 0x2000 + 0x10k RWL: MESH.GATE.DEPTH. Same fields as 0x1000 + 0x10c, for gate k. -/
def Reg.meshGateDepth : Fld := ⟨110, .mesh, 0x2000, 0x10, 12, 0x0, 1, 16, 8, .rwl, .val 0⟩

/-- Table MESH-7, 0x2000 + 0x10k RWL: MESH.GATE.EN. Same fields as 0x1000 + 0x10c, for gate k. -/
def Reg.meshGateEn : Fld := ⟨111, .mesh, 0x2000, 0x10, 12, 0x0, 1, 24, 1, .rwl, .val 0⟩

/-- Table MESH-7, 0x2008 + 0x10k RO: MESH.GATE.TOKENS. Same field as 0x1008 + 0x10c, for gate k. -/
def Reg.meshGateTokens : Fld := ⟨112, .mesh, 0x2008, 0x10, 12, 0x0, 1, 0, 8, .ro, .val 0⟩

/-- Table MESH-8, 0x10 [0] WO: ARB.COMMIT.GO. Writing 1 starts a commit (R340). -/
def Reg.arbCommitGo : Fld := ⟨113, .arb, 0x10, 0x0, 1, 0x0, 1, 0, 1, .wo, .val 0⟩

/-- Table MESH-8, 0x10 [1] RO: ARB.COMMIT.PENDING. A commit is in progress. -/
def Reg.arbCommitPending : Fld := ⟨114, .arb, 0x10, 0x0, 1, 0x0, 1, 1, 1, .ro, .val 0⟩

/-- Table MESH-8, 0x10 [2] RO: ARB.COMMIT.QUEUED. A further commit waits. -/
def Reg.arbCommitQueued : Fld := ⟨115, .arb, 0x10, 0x0, 1, 0x0, 1, 2, 1, .ro, .val 0⟩

/-- Table MESH-8, 0x18 [0] W1C: ARB.STARVE.FLAG. Starvation reported since last cleared (R336). -/
def Reg.arbStarveFlag : Fld := ⟨116, .arb, 0x18, 0x0, 1, 0x0, 1, 0, 1, .w1c, .val 0⟩

/-- Table MESH-8, 0x18 [3:1] RO: ARB.STARVE.KIND. 0 mesh port, 1 L2 port, 2 Hearth queue, 3 memory scheduler, 4 Stoker cell. -/
def Reg.arbStarveKind : Fld := ⟨117, .arb, 0x18, 0x0, 1, 0x0, 1, 1, 3, .ro, .val 0⟩

/-- Table MESH-8, 0x18 [20:4] RO: ARB.STARVE.INSTANCE. Stop × 8 + port; logical core; physical slice; channel; or cell, by KIND. -/
def Reg.arbStarveInstance : Fld := ⟨118, .arb, 0x18, 0x0, 1, 0x0, 1, 4, 17, .ro, .val 0⟩

/-- Table MESH-8, 0x18 [27:21] RO: ARB.STARVE.REQ. Requester index; a channel number for a Stoker cell. -/
def Reg.arbStarveReq : Fld := ⟨119, .arb, 0x18, 0x0, 1, 0x0, 1, 21, 7, .ro, .val 0⟩

/-- Table MESH-8, 0x20 [31:0] RO: ARB.STARVECNT. Starvation episodes; saturates at 0xFFFF_FFFF. -/
def Reg.arbStarvecnt : Fld := ⟨120, .arb, 0x20, 0x0, 1, 0x0, 1, 0, 32, .ro, .val 0⟩

/-- Table MESH-8, 0x28 [7:0] RW: ARB.STINT.VEC. Starvation vector. -/
def Reg.arbStintVec : Fld := ⟨121, .arb, 0x28, 0x0, 1, 0x0, 1, 0, 8, .rw, .val 0xf0⟩

/-- Table MESH-8, 0x28 [15:8] RW: ARB.STINT.CORE. Logical core to interrupt. -/
def Reg.arbStintCore : Fld := ⟨122, .arb, 0x28, 0x0, 1, 0x0, 1, 8, 8, .rw, .val 0⟩

/-- Table MESH-8, 0x28 [16] RW: ARB.STINT.EN. Interrupt enabled. -/
def Reg.arbStintEn : Fld := ⟨123, .arb, 0x28, 0x0, 1, 0x0, 1, 16, 1, .rw, .val 0⟩

/-- Table MESH-8, 0x40 [63:0] RWS: ARB.MESHPORT. Profile of every mesh output port (Table MESH-4). -/
def Reg.arbMeshport : Fld := ⟨124, .arb, 0x40, 0x0, 1, 0x0, 1, 0, 50, .rws, .val 0x9223c1000208⟩

/-- Table MESH-8, 0x48 [63:0] RWS: ARB.HEARTHQ. Profile of every Hearth request queue. -/
def Reg.arbHearthq : Fld := ⟨125, .arb, 0x48, 0x0, 1, 0x0, 1, 0, 50, .rws, .val 0x911182000108⟩

/-- Table MESH-8, 0x1000 + 8c [63:0] RWS: ARB.L2PORTc. Profile of the L2 port of logical core c; at reset 0x0000_048D_0080_0208. -/
def Reg.arbL2port : Fld := ⟨126, .arb, 0x1000, 0x8, 256, 0x0, 1, 0, 50, .rws, .val 0x48d00800208⟩

/-- Table FLUE-11, 0x10 [2:0] RO: CHIM.CAP.FLUES. Flues present: 6 or 2. -/
def Reg.chimCapFlues : Fld := ⟨127, .chim, 0x10, 0x0, 1, 0x0, 1, 0, 3, .ro, .parts 6 6 2⟩

/-- Table FLUE-11, 0x10 [13:3] RO: CHIM.CAP.MAXSOCK. 1,024 or 4. -/
def Reg.chimCapMaxsock : Fld := ⟨128, .chim, 0x10, 0x0, 1, 0x0, 1, 3, 11, .ro, .parts 1024 1024 4⟩

/-- Table FLUE-11, 0x10 [20:14] RO: CHIM.CAP.PARTS. Partitions. -/
def Reg.chimCapParts : Fld := ⟨129, .chim, 0x10, 0x0, 1, 0x0, 1, 14, 7, .ro, .val 0x40⟩

/-- Table FLUE-11, 0x18 [1:0] RWS: CHIM.TOPO.KIND. Table FLUE-5. -/
def Reg.chimTopoKind : Fld := ⟨130, .chim, 0x18, 0x0, 1, 0x0, 1, 0, 2, .rws, .val 0⟩

/-- Table FLUE-11, 0x18 [5:2], [9:6], [13:10] RWS: CHIM.TOPO.KX. Ring size − 1. -/
def Reg.chimTopoKx : Fld := ⟨131, .chim, 0x18, 0x0, 1, 0x0, 1, 2, 4, .rws, .val 0⟩

/-- Table FLUE-11, 0x18 [5:2], [9:6], [13:10] RWS: CHIM.TOPO.KY. Ring size − 1. -/
def Reg.chimTopoKy : Fld := ⟨132, .chim, 0x18, 0x0, 1, 0x0, 1, 6, 4, .rws, .val 0⟩

/-- Table FLUE-11, 0x18 [5:2], [9:6], [13:10] RWS: CHIM.TOPO.KZ. Ring size − 1. -/
def Reg.chimTopoKz : Fld := ⟨133, .chim, 0x18, 0x0, 1, 0x0, 1, 10, 4, .rws, .val 0⟩

/-- Table FLUE-11, 0x20 [4n + 3 : 4n] RWS: CHIM.PORTMAP. 0 unused; 1 +X, 2 −X, 3 ±X; 4 +Y, 5 −Y, 6 ±Y; 7 +Z, 8 −Z, 9 ±Z; 10 direct. Other values fail TOPO. -/
def Reg.chimPortmap : Fld := ⟨134, .chim, 0x20, 0x0, 1, 0x0, 1, 0, 24, .rws, .val 0⟩

/-- Table FLUE-11, 0x30 [0] RWL: CHIM.DISC.MODE. 0 strapped identities; 1 assigned (R390). -/
def Reg.chimDiscMode : Fld := ⟨135, .chim, 0x30, 0x0, 1, 0x0, 1, 0, 1, .rwl, .val 0⟩

/-- Table FLUE-11, 0x30 [2:1] RO: CHIM.DISC.STATE. 0 training, 1 exchanging, 2 DONE, 3 held out or failed. -/
def Reg.chimDiscState : Fld := ⟨136, .chim, 0x30, 0x0, 1, 0x0, 1, 1, 2, .ro, .val 0⟩

/-- Table FLUE-11, 0x30 [3] W1C: CHIM.DISC.HELDOUT.VALID. A duplicate of this socket was held out (R37). -/
def Reg.chimDiscHeldoutValid : Fld := ⟨137, .chim, 0x30, 0x0, 1, 0x0, 1, 3, 1, .w1c, .val 0⟩

/-- Table FLUE-11, 0x30 [13:4] RO: CHIM.DISC.HELDOUT.BY. Socket that discovered it. -/
def Reg.chimDiscHeldoutBy : Fld := ⟨138, .chim, 0x30, 0x0, 1, 0x0, 1, 4, 10, .ro, .val 0⟩

/-- Table FLUE-11, 0x30 [16:14] RO: CHIM.DISC.HELDOUT.FLUE. That socket's flue to it. -/
def Reg.chimDiscHeldoutFlue : Fld := ⟨139, .chim, 0x30, 0x0, 1, 0x0, 1, 14, 3, .ro, .val 0⟩

/-- Table FLUE-11, 0x38 [0] WO: CHIM.CFG.GO. Writing 1 commits (R391). -/
def Reg.chimCfgGo : Fld := ⟨140, .chim, 0x38, 0x0, 1, 0x0, 1, 0, 1, .wo, .val 0⟩

/-- Table FLUE-11, 0x38 [1] RO: CHIM.CFG.PENDING. Commit waiting or running. -/
def Reg.chimCfgPending : Fld := ⟨141, .chim, 0x38, 0x0, 1, 0x0, 1, 1, 1, .ro, .val 0⟩

/-- Table FLUE-11, 0x38 [15:8] RO: CHIM.CFG.CODE. Table FLUE-9. -/
def Reg.chimCfgCode : Fld := ⟨142, .chim, 0x38, 0x0, 1, 0x0, 1, 8, 8, .ro, .val 0⟩

/-- Table FLUE-11, 0x38 [21:16] RO: CHIM.CFG.PART. Partition concerned. -/
def Reg.chimCfgPart : Fld := ⟨143, .chim, 0x38, 0x0, 1, 0x0, 1, 16, 6, .ro, .val 0⟩

/-- Table FLUE-11, 0x40 [9:0], [12:10] RO: CHIM.ACHK.WLINK.SOCK. Most charged flue direction (R384). -/
def Reg.chimAchkWlinkSock : Fld := ⟨144, .chim, 0x40, 0x0, 1, 0x0, 1, 0, 10, .ro, .val 0⟩

/-- Table FLUE-11, 0x40 [9:0], [12:10] RO: CHIM.ACHK.WLINK.FLUE. Most charged flue direction (R384). -/
def Reg.chimAchkWlinkFlue : Fld := ⟨145, .chim, 0x40, 0x0, 1, 0x0, 1, 10, 3, .ro, .val 0⟩

/-- Table FLUE-11, 0x40 [19:13] RO: CHIM.ACHK.WLINK.PCT. Its charge, percent. -/
def Reg.chimAchkWlinkPct : Fld := ⟨146, .chim, 0x40, 0x0, 1, 0x0, 1, 13, 7, .ro, .val 0⟩

/-- Table FLUE-11, 0x40 [29:20] RO: CHIM.ACHK.WHOME.SOCK. Most charged home (R385). -/
def Reg.chimAchkWhomeSock : Fld := ⟨147, .chim, 0x40, 0x0, 1, 0x0, 1, 20, 10, .ro, .val 0⟩

/-- Table FLUE-11, 0x40 [36:30] RO: CHIM.ACHK.WHOME.PCT. Its charge, percent of 12,800 per µs. -/
def Reg.chimAchkWhomePct : Fld := ⟨148, .chim, 0x40, 0x0, 1, 0x0, 1, 30, 7, .ro, .val 0⟩

/-- Table FLUE-11, 0x48 [9:0] RO: CHIM.SYNC.MASTER. Sync master. -/
def Reg.chimSyncMaster : Fld := ⟨149, .chim, 0x48, 0x0, 1, 0x0, 1, 0, 10, .ro, .val 0⟩

/-- Table FLUE-11, 0x48 [14:10] RO: CHIM.SYNC.DIST. Links from the master. -/
def Reg.chimSyncDist : Fld := ⟨150, .chim, 0x48, 0x0, 1, 0x0, 1, 10, 5, .ro, .val 0x1f⟩

/-- Table FLUE-11, 0x48 [15] RO: CHIM.SYNC.LOCKED. R388. -/
def Reg.chimSyncLocked : Fld := ⟨151, .chim, 0x48, 0x0, 1, 0x0, 1, 15, 1, .ro, .val 0⟩

/-- Table FLUE-11, 0x48 [31:16] RO: CHIM.SYNC.ERRMAX. Largest offset seen, ns; saturates at 0xFFFF. -/
def Reg.chimSyncErrmax : Fld := ⟨152, .chim, 0x48, 0x0, 1, 0x0, 1, 16, 16, .ro, .val 0⟩

/-- Table FLUE-11, 0x50 [0] RO: CHIM.RR.ACTIVE. Reroute in progress. -/
def Reg.chimRrActive : Fld := ⟨153, .chim, 0x50, 0x0, 1, 0x0, 1, 0, 1, .ro, .val 0⟩

/-- Table FLUE-11, 0x50 [1] RO: CHIM.RR.UNREACH. Some socket is unreachable. -/
def Reg.chimRrUnreach : Fld := ⟨154, .chim, 0x50, 0x0, 1, 0x0, 1, 1, 1, .ro, .val 0⟩

/-- Table FLUE-11, 0x50 [31:16] RO: CHIM.RR.DOWN. Failed flues known fabric-wide. -/
def Reg.chimRrDown : Fld := ⟨155, .chim, 0x50, 0x0, 1, 0x0, 1, 16, 16, .ro, .val 0⟩

/-- Table FLUE-11, 0x58 [31:0] RO: CHIM.FW.DROP. Flits discarded (R381). -/
def Reg.chimFwDrop : Fld := ⟨156, .chim, 0x58, 0x0, 1, 0x0, 1, 0, 32, .ro, .val 0⟩

/-- Table FLUE-11, 0x58 [41:32] RO: CHIM.FW.LAST.SSOCK. Source of the latest. -/
def Reg.chimFwLastSsock : Fld := ⟨157, .chim, 0x58, 0x0, 1, 0x0, 1, 32, 10, .ro, .val 0⟩

/-- Table FLUE-11, 0x58 [47:42] RO: CHIM.FW.LAST.PART. Its partition. -/
def Reg.chimFwLastPart : Fld := ⟨158, .chim, 0x58, 0x0, 1, 0x0, 1, 42, 6, .ro, .val 0⟩

/-- Table FLUE-11, 0x58 [50:48] RO: CHIM.FW.LAST.FLUE. Its arrival flue. -/
def Reg.chimFwLastFlue : Fld := ⟨159, .chim, 0x58, 0x0, 1, 0x0, 1, 48, 3, .ro, .val 0⟩

/-- Table FLUE-11, 0x60 [15:0] RO: CHIM.AEXC.STALLED. Assured requests stalled by migration. -/
def Reg.chimAexcStalled : Fld := ⟨160, .chim, 0x60, 0x0, 1, 0x0, 1, 0, 16, .ro, .val 0⟩

/-- Table FLUE-11, 0x60 [31:16] RO: CHIM.AEXC.BCAST. Resolved by broadcast. -/
def Reg.chimAexcBcast : Fld := ⟨161, .chim, 0x60, 0x0, 1, 0x0, 1, 16, 16, .ro, .val 0⟩

/-- Table FLUE-11, 0x60 [47:32] RO: CHIM.AEXC.OUTSET. To a home outside S(i). -/
def Reg.chimAexcOutset : Fld := ⟨162, .chim, 0x60, 0x0, 1, 0x0, 1, 32, 16, .ro, .val 0⟩

/-- Table FLUE-11, 0x60 [63:48] RO: CHIM.AEXC.LONGPATH. Beyond one detour. -/
def Reg.chimAexcLongpath : Fld := ⟨163, .chim, 0x60, 0x0, 1, 0x0, 1, 48, 16, .ro, .val 0⟩

/-- Table FLUE-11, 0x68 [31:0] RO: CHIM.ORD.HELD. Requests held for order (R378). -/
def Reg.chimOrdHeld : Fld := ⟨164, .chim, 0x68, 0x0, 1, 0x0, 1, 0, 32, .ro, .val 0⟩

/-- Table FLUE-11, 0x68 [47:32] RO: CHIM.ORD.DUP. Duplicates discarded. -/
def Reg.chimOrdDup : Fld := ⟨165, .chim, 0x68, 0x0, 1, 0x0, 1, 32, 16, .ro, .val 0⟩

/-- Table FLUE-11, 0x68 [63:48] RO: CHIM.ORD.RESYNC. RESYNCs received (R379). -/
def Reg.chimOrdResync : Fld := ⟨166, .chim, 0x68, 0x0, 1, 0x0, 1, 48, 16, .ro, .val 0⟩

/-- Table FLUE-11, 0x800 + 0x10p [2:0] RWS: CHIM.PARTp.GUAR. [0] Sealed, [1] Assured, [2] MAC. -/
def Reg.chimPartGuar : Fld := ⟨167, .chim, 0x800, 0x10, 64, 0x0, 1, 0, 3, .rws, .val 0⟩

/-- Table FLUE-11, 0x800 + 0x10p [9:8] RWS: CHIM.PARTp.CMD. 0 none, 1 start, 2 stop; 3 refuses the commit (R391). Cleared by a commit that applies; kept pending by a refused one. -/
def Reg.chimPartCmd : Fld := ⟨168, .chim, 0x800, 0x10, 64, 0x0, 1, 8, 2, .rws, .val 0⟩

/-- Table FLUE-11, 0x808 + 0x10p [1:0] RO: CHIM.PARTp.STATE. 0 STOPPED, 1 STARTING, 2 RUNNING, 3 STOPPING. -/
def Reg.chimPartState : Fld := ⟨169, .chim, 0x808, 0x10, 64, 0x0, 1, 0, 2, .ro, .val 0⟩

/-- Table FLUE-11, 0x808 + 0x10p [2] RO: CHIM.PARTp.DEGRADED. R386. -/
def Reg.chimPartDegraded : Fld := ⟨170, .chim, 0x808, 0x10, 64, 0x0, 1, 2, 1, .ro, .val 0⟩

/-- Table FLUE-11, 0x808 + 0x10p [15:8] RO: CHIM.PARTp.LASTCODE. Latest refusal. -/
def Reg.chimPartLastcode : Fld := ⟨171, .chim, 0x808, 0x10, 64, 0x0, 1, 8, 8, .ro, .val 0⟩

/-- Table FLUE-11, 0x808 + 0x10p [26:16] RO: CHIM.PARTp.SOCKETS. Sockets in the partition. -/
def Reg.chimPartSockets : Fld := ⟨172, .chim, 0x808, 0x10, 64, 0x0, 1, 16, 11, .ro, .val 0⟩

/-- Table FLUE-11, 0x1000 + 0x80j to 0x1078 + 0x80j RWS: CHIM.ASET. Destination set j (0–15): socket s at bit s mod 64 of doubleword s div 64. -/
def Reg.chimAset : Fld := ⟨173, .chim, 0x1000, 0x80, 16, 0x8, 16, 0, 64, .rws, .val 0⟩

/-- Table FLUE-11, 0x1800 + 8(c div 16) [4(c mod 16) + 3 : 4(c mod 16)] RWS: CHIM.GSET.CORE. Set of logical core c's gate. -/
def Reg.chimGsetCore : Fld := ⟨174, .chim, 0x1800, 0x8, 16, 0x0, 1, 0, 64, .rws, .val 0⟩

/-- Table FLUE-11, 0x1880 [4k + 3 : 4k] RWS: CHIM.GSET.GATE. Set of gate k (R353). -/
def Reg.chimGsetGate : Fld := ⟨175, .chim, 0x1880, 0x0, 1, 0x0, 1, 0, 48, .rws, .val 0⟩

/-- Table FLUE-11, 0x1880 [63:48] RWS: CHIM.ASETZ. Bit j: set j is restricted to the gate's own Z plane (R384). -/
def Reg.chimAsetz : Fld := ⟨176, .chim, 0x1880, 0x0, 1, 0x0, 1, 48, 16, .rws, .val 0⟩

/-- Table FLUE-11, 0x2000 + 8s [11:0] RWS: CHIM.DEST.XYZ. Coordinates, 4 bits each. -/
def Reg.chimDestXyz : Fld := ⟨177, .chim, 0x2000, 0x8, 1024, 0x0, 1, 0, 12, .rws, .val 0⟩

/-- Table FLUE-11, 0x2000 + 8s [14:12] RWS: CHIM.DESTs.PORT. Flue to s in a direct full connection. -/
def Reg.chimDestPort : Fld := ⟨178, .chim, 0x2000, 0x8, 1024, 0x0, 1, 12, 3, .rws, .val 0⟩

/-- Table FLUE-11, 0x2000 + 8s [15] RWS: CHIM.DESTs.VALID. Socket s is in the fabric. -/
def Reg.chimDestValid : Fld := ⟨179, .chim, 0x2000, 0x8, 1024, 0x0, 1, 15, 1, .rws, .val 0⟩

/-- Table FLUE-11, 0x2000 + 8s [21:16] RWS: CHIM.DESTs.PART. Its partition. -/
def Reg.chimDestPart : Fld := ⟨180, .chim, 0x2000, 0x8, 1024, 0x0, 1, 16, 6, .rws, .val 0⟩

/-- Table FLUE-12, 0x10 [3:0] RO: FLUE.CAP.LANES. Lanes per direction. -/
def Reg.flueCapLanes : Fld := ⟨181, .flue, 0x10, 0x0, 1, 0x0, 1, 0, 4, .ro, .val 9⟩

/-- Table FLUE-12, 0x18 [2:0] RO: FLUE.STATE.LINK. 0 OFF, 1 TRAINING, 2 UP, 3 FAILED, 4 REFUSED. -/
def Reg.flueStateLink : Fld := ⟨182, .flue, 0x18, 0x0, 1, 0x0, 1, 0, 3, .ro, .val 0⟩

/-- Table FLUE-12, 0x18 [6:3] RO: FLUE.STATE.SPARED. Lane replaced by the spare; 0xF none. -/
def Reg.flueStateSpared : Fld := ⟨183, .flue, 0x18, 0x0, 1, 0x0, 1, 3, 4, .ro, .val 0xf⟩

/-- Table FLUE-12, 0x18 [16:7] RO: FLUE.STATE.PEER.SOCK. Peer socket. -/
def Reg.flueStatePeerSock : Fld := ⟨184, .flue, 0x18, 0x0, 1, 0x0, 1, 7, 10, .ro, .val 0⟩

/-- Table FLUE-12, 0x18 [19:17] RO: FLUE.STATE.PEER.FLUE. Peer flue. -/
def Reg.flueStatePeerFlue : Fld := ⟨185, .flue, 0x18, 0x0, 1, 0x0, 1, 17, 3, .ro, .val 0⟩

/-- Table FLUE-12, 0x18 [21:20] RO: FLUE.STATE.REFUSE. 0 FLIGHT, 1 FAMILY, 2 DUPLICATE, 3 none. Reads 3 until the flue is refused, and returns to 3 when a restore trains it. -/
def Reg.flueStateRefuse : Fld := ⟨186, .flue, 0x18, 0x0, 1, 0x0, 1, 20, 2, .ro, .val 3⟩

/-- Table FLUE-12, 0x18 [29:22] RO: FLUE.STATE.FLIGHT. One-way flight time in 0.25 ns. -/
def Reg.flueStateFlight : Fld := ⟨187, .flue, 0x18, 0x0, 1, 0x0, 1, 22, 8, .ro, .val 0⟩

/-- Table FLUE-12, 0x18 [30] RO: FLUE.STATE.SEALED. Keys installed for at least one Sealed partition. -/
def Reg.flueStateSealed : Fld := ⟨188, .flue, 0x18, 0x0, 1, 0x0, 1, 30, 1, .ro, .val 0⟩

/-- Table FLUE-12, 0x18 [31] RO: FLUE.STATE.SLEEP. Electrical idle (R383). -/
def Reg.flueStateSleep : Fld := ⟨189, .flue, 0x18, 0x0, 1, 0x0, 1, 31, 1, .ro, .val 0⟩

/-- Table FLUE-12, 0x20 [0] RW: FLUE.CTL.EN. Flue enabled. -/
def Reg.flueCtlEn : Fld := ⟨190, .flue, 0x20, 0x0, 1, 0x0, 1, 0, 1, .rw, .val 1⟩

/-- Table FLUE-12, 0x20 [1] WO: FLUE.CTL.RESTORE. Writing 1 retrains a FAILED or REFUSED flue (R380). -/
def Reg.flueCtlRestore : Fld := ⟨191, .flue, 0x20, 0x0, 1, 0x0, 1, 1, 1, .wo, .val 0⟩

/-- Table FLUE-12, 0x28 [31:0] RO: FLUE.ERR.FECCORR. Codewords corrected. -/
def Reg.flueErrFeccorr : Fld := ⟨192, .flue, 0x28, 0x0, 1, 0x0, 1, 0, 32, .ro, .val 0⟩

/-- Table FLUE-12, 0x28 [63:32] RO: FLUE.ERR.FECUNC. Codewords uncorrectable. -/
def Reg.flueErrFecunc : Fld := ⟨193, .flue, 0x28, 0x0, 1, 0x0, 1, 32, 32, .ro, .val 0⟩

/-- Table FLUE-12, 0x30 [31:0] RO: FLUE.ERR.CRC. CRC mismatches. -/
def Reg.flueErrCrc : Fld := ⟨194, .flue, 0x30, 0x0, 1, 0x0, 1, 0, 32, .ro, .val 0⟩

/-- Table FLUE-12, 0x30 [63:32] RO: FLUE.ERR.REPLAYS. Replays (R365). -/
def Reg.flueErrReplays : Fld := ⟨195, .flue, 0x30, 0x0, 1, 0x0, 1, 32, 32, .ro, .val 0⟩

/-- Table FLUE-12, 0x38 [15:0] RO: FLUE.ERR.GCMFAIL. Tags failed (R394). -/
def Reg.flueErrGcmfail : Fld := ⟨196, .flue, 0x38, 0x0, 1, 0x0, 1, 0, 16, .ro, .val 0⟩

/-- Table FLUE-12, 0x38 [31:16] RO: FLUE.ERR.LANESW. Spare changes (R359). -/
def Reg.flueErrLanesw : Fld := ⟨197, .flue, 0x38, 0x0, 1, 0x0, 1, 16, 16, .ro, .val 0⟩

/-- Table FLUE-12, 0x38 [47:32] RO: FLUE.ERR.TRAINS. Trainings since cold reset. -/
def Reg.flueErrTrains : Fld := ⟨198, .flue, 0x38, 0x0, 1, 0x0, 1, 32, 16, .ro, .val 0⟩

/-- Table FLUE-12, 0x40 + 8i [31:0] RO: FLUE.LANEi.SYMERR. Symbols corrected on lane i, 0–8. -/
def Reg.flueLaneSymerr : Fld := ⟨199, .flue, 0x40, 0x8, 9, 0x0, 1, 0, 32, .ro, .val 0⟩

/-- Table FLUE-12, 0x88 [11:0] RO: FLUE.SEQ.TX. Next sequence number to send. -/
def Reg.flueSeqTx : Fld := ⟨200, .flue, 0x88, 0x0, 1, 0x0, 1, 0, 12, .ro, .val 0⟩

/-- Table FLUE-12, 0x88 [23:12] RO: FLUE.SEQ.RX. Next sequence number expected. -/
def Reg.flueSeqRx : Fld := ⟨201, .flue, 0x88, 0x0, 1, 0x0, 1, 12, 12, .ro, .val 0⟩

/-- Table MEMC-11, 0x10 [0] RO: MC.CAP.PRESENT. Modules found. -/
def Reg.mcCapPresent : Fld := ⟨202, .mc, 0x10, 0x0, 1, 0x0, 1, 0, 1, .ro, .val 0⟩

/-- Table MEMC-11, 0x10 [2:1] RO: MC.CAP.MOD. 0 none, 1 RDIMM, 2 MRDIMM. -/
def Reg.mcCapMod : Fld := ⟨203, .mc, 0x10, 0x0, 1, 0x0, 1, 1, 2, .ro, .val 0⟩

/-- Table MEMC-11, 0x10 [4:3] RO: MC.CAP.DPC. DIMMs per channel. -/
def Reg.mcCapDpc : Fld := ⟨204, .mc, 0x10, 0x0, 1, 0x0, 1, 3, 2, .ro, .val 0⟩

/-- Table MEMC-11, 0x10 [8:5] RO: MC.CAP.LRANKS. Logical ranks per DIMM. -/
def Reg.mcCapLranks : Fld := ⟨205, .mc, 0x10, 0x0, 1, 0x0, 1, 5, 4, .ro, .val 0⟩

/-- Table MEMC-11, 0x10 [15:9] RO: MC.CAP.DENS. Device density in Gb. -/
def Reg.mcCapDens : Fld := ⟨206, .mc, 0x10, 0x0, 1, 0x0, 1, 9, 7, .ro, .val 0⟩

/-- Table MEMC-11, 0x10 [31:16] RO: MC.CAP.SPEED. Data rate in MT/s at which the channel was trained; 0 until training completes (R401). -/
def Reg.mcCapSpeed : Fld := ⟨207, .mc, 0x10, 0x0, 1, 0x0, 1, 16, 16, .ro, .val 0⟩

/-- Table MEMC-11, 0x10 [47:32] RO: MC.CAP.GIB. Channel capacity in GiB. -/
def Reg.mcCapGib : Fld := ⟨208, .mc, 0x10, 0x0, 1, 0x0, 1, 32, 16, .ro, .val 0⟩

/-- Table MEMC-11, 0x18 [1:0] RWL: MC.GEOM.RANKBITS. Rank bits, 0–3. -/
def Reg.mcGeomRankbits : Fld := ⟨209, .mc, 0x18, 0x0, 1, 0x0, 1, 0, 2, .rwl, .val 0⟩

/-- Table MEMC-11, 0x18 [6:2] RWL: MC.GEOM.ROWBITS. 16 for 16 Gb devices, 17 for 32 Gb devices (R404). -/
def Reg.mcGeomRowbits : Fld := ⟨210, .mc, 0x18, 0x0, 1, 0x0, 1, 2, 5, .rwl, .val 0⟩

/-- Table MEMC-11, 0x18 [7] RWL: MC.GEOM.EN. Channel in use. -/
def Reg.mcGeomEn : Fld := ⟨211, .mc, 0x18, 0x0, 1, 0x0, 1, 7, 1, .rwl, .val 0⟩

/-- Table MEMC-11, 0x18 [8] RWL: MC.GEOM.PAIRED. Paired mode of the socket (R405). In MC1–MC15 it reads MC0's value and ignores writes. -/
def Reg.mcGeomPaired : Fld := ⟨212, .mc, 0x18, 0x0, 1, 0x0, 1, 8, 1, .rwl, .val 0⟩

/-- Table MEMC-11, 0x20 [55:0] RWL: MC.TIM0. tCL [7:0], tCWL [15:8], tRCD [23:16], tRP [31:24], tRAS [39:32], tRTP [47:40], tWR [55:48], in tCK. -/
def Reg.mcTim0 : Fld := ⟨213, .mc, 0x20, 0x0, 1, 0x0, 1, 0, 56, .rwl, .val 0⟩

/-- Table MEMC-11, 0x28 [55:0] RWL: MC.TIM1. tRRD_S, tRRD_L, tFAW, tWTR_S, tWTR_L, tCCD_L, tCCD_L_WR, 8 bits each from [7:0], in tCK. -/
def Reg.mcTim1 : Fld := ⟨214, .mc, 0x28, 0x0, 1, 0x0, 1, 0, 56, .rwl, .val 0⟩

/-- Table MEMC-11, 0x30 [47:0] RWL: MC.TIM2. tRFC1 [15:0], tRFCsb [31:16], tREFI [47:32], in tCK. -/
def Reg.mcTim2 : Fld := ⟨215, .mc, 0x30, 0x0, 1, 0x0, 1, 0, 48, .rwl, .val 0⟩

/-- Table MEMC-11, 0x30 [48] RWL: MC.TIM2.REFSB. Use same-bank refresh. -/
def Reg.mcTim2Refsb : Fld := ⟨216, .mc, 0x30, 0x0, 1, 0x0, 1, 48, 1, .rwl, .val 0⟩

/-- Table MEMC-11, 0x38 [1:0] RWL: MC.DEC.WAYS. 0: 16, 1: 8, 2: 4; 3 acts as 0. -/
def Reg.mcDecWays : Fld := ⟨217, .mc, 0x38, 0x0, 1, 0x0, 1, 0, 2, .rwl, .val 0⟩

/-- Table MEMC-11, 0x38 [2] RO: MC.DEC.MACON. Metadata region carved (R403). -/
def Reg.mcDecMacon : Fld := ⟨218, .mc, 0x38, 0x0, 1, 0x0, 1, 2, 1, .ro, .val 0⟩

/-- Table MEMC-11, 0x38 [63:32] RO: MC.DEC.DRAMTOP. DRAMTOP in MiB. -/
def Reg.mcDecDramtop : Fld := ⟨219, .mc, 0x38, 0x0, 1, 0x0, 1, 32, 32, .ro, .val 0⟩

/-- Table MEMC-11, 0x40 [7:0] RW: MC.SWEEP.PERIOD. Hours per pass; 0 acts as 1. -/
def Reg.mcSweepPeriod : Fld := ⟨220, .mc, 0x40, 0x0, 1, 0x0, 1, 0, 8, .rw, .val 0x18⟩

/-- Table MEMC-11, 0x40 [8] RW: MC.SWEEP.EN. Sweep enabled. -/
def Reg.mcSweepEn : Fld := ⟨221, .mc, 0x40, 0x0, 1, 0x0, 1, 8, 1, .rw, .val 1⟩

/-- Table MEMC-11, 0x40 [9] RW: MC.SWEEP.INIT. Init mode (R413); cleared by the device at completion. -/
def Reg.mcSweepInit : Fld := ⟨222, .mc, 0x40, 0x0, 1, 0x0, 1, 9, 1, .rw, .val 0⟩

/-- Table MEMC-11, 0x40 [63:32] RO: MC.SWEEP.LAPS. Completed passes. -/
def Reg.mcSweepLaps : Fld := ⟨223, .mc, 0x40, 0x0, 1, 0x0, 1, 32, 32, .ro, .val 0⟩

/-- Table MEMC-11, 0x48 [33:0] RO: MC.SWEEP.POS. Next channel-local line. -/
def Reg.mcSweepPos : Fld := ⟨224, .mc, 0x48, 0x0, 1, 0x0, 1, 0, 34, .ro, .val 0⟩

/-- Table MEMC-11, 0x50 [31:0] RO: MC.ERR.CORR. Lines corrected. -/
def Reg.mcErrCorr : Fld := ⟨225, .mc, 0x50, 0x0, 1, 0x0, 1, 0, 32, .ro, .val 0⟩

/-- Table MEMC-11, 0x50 [47:32] RO: MC.ERR.UNCORR. Lines found uncorrectable. -/
def Reg.mcErrUncorr : Fld := ⟨226, .mc, 0x50, 0x0, 1, 0x0, 1, 32, 16, .ro, .val 0⟩

/-- Table MEMC-11, 0x50 [63:48] RO: MC.ERR.SWEEPFIX. Lines rewritten by the Sweep. -/
def Reg.mcErrSweepfix : Fld := ⟨227, .mc, 0x50, 0x0, 1, 0x0, 1, 48, 16, .ro, .val 0⟩

/-- Table MEMC-11, 0x58 [33:0] RO: MC.ERR.LAST.LINE. Line of the latest error. -/
def Reg.mcErrLastLine : Fld := ⟨228, .mc, 0x58, 0x0, 1, 0x0, 1, 0, 34, .ro, .val 0⟩

/-- Table MEMC-11, 0x58 [37:34] RO: MC.ERR.LAST.DEV. Device; 0xF when unknown. -/
def Reg.mcErrLastDev : Fld := ⟨229, .mc, 0x58, 0x0, 1, 0x0, 1, 34, 4, .ro, .val 0⟩

/-- Table MEMC-11, 0x58 [39:38] RO: MC.ERR.LAST.KIND. 0 corrected, 1 uncorrectable, 2 corrected in a marked device, 3 paired repair. -/
def Reg.mcErrLastKind : Fld := ⟨230, .mc, 0x58, 0x0, 1, 0x0, 1, 38, 2, .ro, .val 0⟩

/-- Table MEMC-11, 0x58 [40] RO: MC.ERR.LAST.SWEEP. Found by the Sweep. -/
def Reg.mcErrLastSweep : Fld := ⟨231, .mc, 0x58, 0x0, 1, 0x0, 1, 40, 1, .ro, .val 0⟩

/-- Table MEMC-11, 0x60 [15:0] RW: MC.THR.MARK. MARKTHR (R410); 0 disables automatic marking. -/
def Reg.mcThrMark : Fld := ⟨232, .mc, 0x60, 0x0, 1, 0x0, 1, 0, 16, .rw, .val 0x40⟩

/-- Table MEMC-11, 0x60 [23:16] RW: MC.THR.ROW. ROWTHR (R424); 0 disables automatic sparing. -/
def Reg.mcThrRow : Fld := ⟨233, .mc, 0x60, 0x0, 1, 0x0, 1, 16, 8, .rw, .val 8⟩

/-- Table MEMC-11, 0x68 [31:0] RO: MC.MDC.MISS. Metadata cache misses. -/
def Reg.mcMdcMiss : Fld := ⟨234, .mc, 0x68, 0x0, 1, 0x0, 1, 0, 32, .ro, .val 0⟩

/-- Table MEMC-11, 0x68 [63:32] RO: MC.MDC.WB. Metadata writebacks. -/
def Reg.mcMdcWb : Fld := ⟨235, .mc, 0x68, 0x0, 1, 0x0, 1, 32, 32, .ro, .val 0⟩

/-- Table MEMC-11, 0x70 [2:0] RO: MC.REF.MAXPOST. Largest refresh postponement. -/
def Reg.mcRefMaxpost : Fld := ⟨236, .mc, 0x70, 0x0, 1, 0x0, 1, 0, 3, .ro, .val 0⟩

/-- Table MEMC-11, 0x70 [47:16] RO: MC.CAL.COUNT. Delay updates made (Table MEMC-6). -/
def Reg.mcCalCount : Fld := ⟨237, .mc, 0x70, 0x0, 1, 0x0, 1, 16, 32, .ro, .val 0⟩

/-- Table MEMC-11, 0x78 [63:0] RWS: MC.ARB. Scheduler profile (Table MESH-4), both subchannels. -/
def Reg.mcArb : Fld := ⟨238, .mc, 0x78, 0x0, 1, 0x0, 1, 0, 50, .rws, .val 0xd23c4000208⟩

/-- Table MEMC-11, 0x80 [0] WO: MC.SPARE.REQ.GO. Writing 1 spares the row of LINE (R424). -/
def Reg.mcSpareReqGo : Fld := ⟨239, .mc, 0x80, 0x0, 1, 0x0, 1, 0, 1, .wo, .val 0⟩

/-- Table MEMC-11, 0x80 [34:1] WO: MC.SPARE.REQ.LINE. Channel-local line. -/
def Reg.mcSpareReqLine : Fld := ⟨240, .mc, 0x80, 0x0, 1, 0x0, 1, 1, 34, .wo, .val 0⟩

/-- Table MEMC-11, 0x88 [6:0] RO: MC.SPARE.STAT.USED. Entries valid. -/
def Reg.mcSpareStatUsed : Fld := ⟨241, .mc, 0x88, 0x0, 1, 0x0, 1, 0, 7, .ro, .val 0⟩

/-- Table MEMC-11, 0x88 [7] RO: MC.SPARE.STAT.FULL. No entry free. -/
def Reg.mcSpareStatFull : Fld := ⟨242, .mc, 0x88, 0x0, 1, 0x0, 1, 7, 1, .ro, .val 0⟩

/-- Table MEMC-11, 0x88 [8] RO: MC.SPARE.STAT.BUSY. Table MEMC-7 in progress. -/
def Reg.mcSpareStatBusy : Fld := ⟨243, .mc, 0x88, 0x0, 1, 0x0, 1, 8, 1, .ro, .val 0⟩

/-- Table MEMC-11, 0x88 [31:16] RO: MC.SPARE.STAT.DONE. Rows spared. -/
def Reg.mcSpareStatDone : Fld := ⟨244, .mc, 0x88, 0x0, 1, 0x0, 1, 16, 16, .ro, .val 0⟩

/-- Table MEMC-11, 0x88 [47:32] RO: MC.SPARE.STAT.PPRDONE. Rows repaired by sPPR. -/
def Reg.mcSpareStatPprdone : Fld := ⟨245, .mc, 0x88, 0x0, 1, 0x0, 1, 32, 16, .ro, .val 0⟩

/-- Table MEMC-11, 0x90 [1:0] RW: MC.PPR.MODE. 0 none, 1 sPPR, 2 sPPR and hPPR list; 3 acts as 2. -/
def Reg.mcPprMode : Fld := ⟨246, .mc, 0x90, 0x0, 1, 0x0, 1, 0, 2, .rw, .val 2⟩

/-- Table MEMC-11, 0x100 + 8r [0] RWS: MC.MACRr.VALID. MAC range r (0–15) valid; applied at the Chimney configuration commit. -/
def Reg.mcMacrValid : Fld := ⟨247, .mc, 0x100, 0x8, 16, 0x0, 1, 0, 1, .rws, .val 0⟩

/-- Table MEMC-11, 0x100 + 8r [18:1] RWS: MC.MACRr.BASE. Window offset in GiB. -/
def Reg.mcMacrBase : Fld := ⟨248, .mc, 0x100, 0x8, 16, 0x0, 1, 1, 18, .rws, .val 0⟩

/-- Table MEMC-11, 0x100 + 8r [36:19] RWS: MC.MACRr.SIZE. Size in GiB. -/
def Reg.mcMacrSize : Fld := ⟨249, .mc, 0x100, 0x8, 16, 0x0, 1, 19, 18, .rws, .val 0⟩

/-- Table MEMC-11, 0x1000 + 8e [0] RO: MC.SPAREe.VALID. Entry in use. -/
def Reg.mcSpareValid : Fld := ⟨250, .mc, 0x1000, 0x8, 64, 0x0, 1, 0, 1, .ro, .val 0⟩

/-- Table MEMC-11, 0x1000 + 8e [1] RO: MC.SPAREe.POISONED. The slot holds poisoned lines. -/
def Reg.mcSparePoisoned : Fld := ⟨251, .mc, 0x1000, 0x8, 64, 0x0, 1, 1, 1, .ro, .val 0⟩

/-- Table MEMC-11, 0x1000 + 8e [2] RO: MC.SPAREe.SC. Subchannel. -/
def Reg.mcSpareSc : Fld := ⟨252, .mc, 0x1000, 0x8, 64, 0x0, 1, 2, 1, .ro, .val 0⟩

/-- Table MEMC-11, 0x1000 + 8e [5:3] RO: MC.SPAREe.RANK. Rank. -/
def Reg.mcSpareRank : Fld := ⟨253, .mc, 0x1000, 0x8, 64, 0x0, 1, 3, 3, .ro, .val 0⟩

/-- Table MEMC-11, 0x1000 + 8e [10:6] RO: MC.SPAREe.BANK. BG × 4 + BA. -/
def Reg.mcSpareBank : Fld := ⟨254, .mc, 0x1000, 0x8, 64, 0x0, 1, 6, 5, .ro, .val 0⟩

/-- Table MEMC-11, 0x1000 + 8e [27:11] RO: MC.SPAREe.ROW. Row. -/
def Reg.mcSpareRow : Fld := ⟨255, .mc, 0x1000, 0x8, 64, 0x0, 1, 11, 17, .ro, .val 0⟩

/-- Table MEMC-11, 0x1400 + 8r [0] RW: MC.MARKr.VALID. Device marked in subchannel-rank r = 8 × SC + RANK. -/
def Reg.mcMarkValid : Fld := ⟨256, .mc, 0x1400, 0x8, 16, 0x0, 1, 0, 1, .rw, .val 0⟩

/-- Table MEMC-11, 0x1400 + 8r [4:1] RW: MC.MARKr.DEV. Marked device, 0–9. A write naming 10–15 with VALID = 1 is ignored (R410). -/
def Reg.mcMarkDev : Fld := ⟨257, .mc, 0x1400, 0x8, 16, 0x0, 1, 1, 4, .rw, .val 0⟩

/-- Table MEMC-11, 0x1400 + 8r [5] RO: MC.MARKr.AUTO. Set when the controller makes the mark; cleared by any software write to MARKr that takes effect (R410). -/
def Reg.mcMarkAuto : Fld := ⟨258, .mc, 0x1400, 0x8, 16, 0x0, 1, 5, 1, .ro, .val 0⟩

/-- Table MEMC-11, 0x1800 + 8(10r + d) [31:0] RO: MC.DEVCORR. Corrections attributed to device d. -/
def Reg.mcDevcorr : Fld := ⟨259, .mc, 0x1800, 0x50, 16, 0x8, 10, 0, 32, .ro, .val 0⟩

/-- Table MEMC-12, 0x10 [9:0] RO: RID.CAP.LANES. Values evaluated per MC clock. -/
def Reg.ridCapLanes : Fld := ⟨260, .rid, 0x10, 0x0, 1, 0x0, 1, 0, 10, .ro, .val 0x100⟩

/-- Table MEMC-12, 0x10 [15:10] RO: RID.CAP.OPS. Operations per program. -/
def Reg.ridCapOps : Fld := ⟨261, .rid, 0x10, 0x0, 1, 0x0, 1, 10, 6, .ro, .val 0x20⟩

/-- Table MEMC-12, 0x10 [19:16] RO: RID.CAP.PROGS. Program slots. -/
def Reg.ridCapProgs : Fld := ⟨262, .rid, 0x10, 0x0, 1, 0x0, 1, 16, 4, .ro, .val 8⟩

/-- Table MEMC-12, 0x10 [27:20] RO: RID.CAP.ITEMS. Queue slots, one reserved for Assured items. -/
def Reg.ridCapItems : Fld := ⟨263, .rid, 0x10, 0x0, 1, 0x0, 1, 20, 8, .ro, .val 0x10⟩

/-- Table MEMC-12, 0x10 [35:28] RO: RID.CAP.REFER. Outstanding referrals. -/
def Reg.ridCapRefer : Fld := ⟨264, .rid, 0x10, 0x0, 1, 0x0, 1, 28, 8, .ro, .val 0x10⟩

/-- Table MEMC-12, 0x18 [0] RW: RID.CTL.EN. Unit accepts items (R430). -/
def Reg.ridCtlEn : Fld := ⟨265, .rid, 0x18, 0x0, 1, 0x0, 1, 0, 1, .rw, .val 1⟩

/-- Table MEMC-12, 0x20 [47:0] RO: RID.STAT.LINES. Lines evaluated in place. -/
def Reg.ridStatLines : Fld := ⟨266, .rid, 0x20, 0x0, 1, 0x0, 1, 0, 48, .ro, .val 0⟩

/-- Table MEMC-12, 0x28 [31:0] RO: RID.STAT.REFER. Lines referred to the home. -/
def Reg.ridStatRefer : Fld := ⟨267, .rid, 0x28, 0x0, 1, 0x0, 1, 0, 32, .ro, .val 0⟩

/-- Table MEMC-12, 0x28 [63:32] RO: RID.STAT.ITEMS. Items completed. -/
def Reg.ridStatItems : Fld := ⟨268, .rid, 0x28, 0x0, 1, 0x0, 1, 32, 32, .ro, .val 0⟩

/-- Table MEMC-12, 0x30 [15:0] RO: RID.STAT.POISON. Items ended by R434. -/
def Reg.ridStatPoison : Fld := ⟨269, .rid, 0x30, 0x0, 1, 0x0, 1, 0, 16, .ro, .val 0⟩

/-- Table MEMC-12, 0x30 [31:16] RO: RID.STAT.DRAINS. Drains answered (R435). -/
def Reg.ridStatDrains : Fld := ⟨270, .rid, 0x30, 0x0, 1, 0x0, 1, 16, 16, .ro, .val 0⟩

/-- Table MEMC-12, 0x30 [39:32] RO: RID.OCC.ITEMS. Items queued or in progress. -/
def Reg.ridOccItems : Fld := ⟨271, .rid, 0x30, 0x0, 1, 0x0, 1, 32, 8, .ro, .val 0⟩

/-- Table MEMC-12, 0x30 [40] RO: RID.OCC.ASSURED. The reserved slot is occupied. -/
def Reg.ridOccAssured : Fld := ⟨272, .rid, 0x30, 0x0, 1, 0x0, 1, 40, 1, .ro, .val 0⟩

/-- Table STOK-10, 0x10 [6:0] RO: STK.CAP.CHANNELS. Channels. -/
def Reg.stkCapChannels : Fld := ⟨273, .stk, 0x10, 0x0, 1, 0x0, 1, 0, 7, .ro, .val 0x40⟩

/-- Table STOK-10, 0x10 [15:7] RO: STK.CAP.BUFFERS. Output buffers of 4 KiB. -/
def Reg.stkCapBuffers : Fld := ⟨274, .stk, 0x10, 0x0, 1, 0x0, 1, 7, 9, .ro, .val 0x100⟩

/-- Table STOK-10, 0x10 [24:16] RO: STK.CAP.SLOTS. Descriptor slots. -/
def Reg.stkCapSlots : Fld := ⟨275, .stk, 0x10, 0x0, 1, 0x0, 1, 16, 9, .ro, .val 0x100⟩

/-- Table STOK-10, 0x10 [47:32] RO: STK.CAP.OPS. Bit j: OP j supported. -/
def Reg.stkCapOps : Fld := ⟨276, .stk, 0x10, 0x0, 1, 0x0, 1, 32, 16, .ro, .val 0xfff⟩

/-- Table STOK-10, 0x18 [0] WO: STK.CTL.RESET. Writing 1 resets every channel, and releases QUARANTINED channels. -/
def Reg.stkCtlReset : Fld := ⟨277, .stk, 0x18, 0x0, 1, 0x0, 1, 0, 1, .wo, .val 0⟩

/-- Table STOK-10, 0x18 [1] RW: STK.CTL.RIDDLE. Riddle split allowed (R463). -/
def Reg.stkCtlRiddle : Fld := ⟨278, .stk, 0x18, 0x0, 1, 0x0, 1, 1, 1, .rw, .val 1⟩

/-- Table STOK-10, 0x20 [15:0] RW: STK.SCHED.QUANTUM. Firebox clocks; values below 64 act as 64. -/
def Reg.stkSchedQuantum : Fld := ⟨279, .stk, 0x20, 0x0, 1, 0x0, 1, 0, 16, .rw, .val 0x200⟩

/-- Table STOK-10, 0x20 [21:16] RW: STK.SCHED.ARES. Reserved slices in 64 (R468); values above 32 act as 32. -/
def Reg.stkSchedAres : Fld := ⟨280, .stk, 0x20, 0x0, 1, 0x0, 1, 16, 6, .rw, .val 0⟩

/-- Table STOK-10, 0x28 [63:0] RWS: STK.ARB. Profile (Table MESH-4): N 8, BURST 1, THRESH 4,096 slices; W0–W4 ignored. -/
def Reg.stkArb : Fld := ⟨281, .stk, 0x28, 0x0, 1, 0x0, 1, 0, 50, .rws, .val 0x4000088⟩

/-- Table STOK-10, 0x30 [56:12] RWL: STK.SEG.BASE. Physical base of the segment area, in local DRAM. -/
def Reg.stkSegBase : Fld := ⟨282, .stk, 0x30, 0x0, 1, 0x0, 1, 12, 45, .rwl, .val 0⟩

/-- Table STOK-10, 0x38 [19:0] RWL: STK.SEG.PAGES. Segment area size in 4 KiB pages; 0 disables the split. -/
def Reg.stkSegPages : Fld := ⟨283, .stk, 0x38, 0x0, 1, 0x0, 1, 0, 20, .rwl, .val 0⟩

/-- Table STOK-10, 0x40 [11:0] RW: STK.PFINT.ROUTE. IHUB routing index of the physical function. -/
def Reg.stkPfintRoute : Fld := ⟨284, .stk, 0x40, 0x0, 1, 0x0, 1, 0, 12, .rw, .val 0⟩

/-- Table STOK-10, 0x40 [63] RW: STK.PFINT.VALID. Physical-function interrupt enabled. -/
def Reg.stkPfintValid : Fld := ⟨285, .stk, 0x40, 0x0, 1, 0x0, 1, 63, 1, .rw, .val 0⟩

/-- Table STOK-10, 0x48 [63:0] W1C: STK.MBOXPEND. Bit c: channel c's tenant has sent a message. -/
def Reg.stkMboxpend : Fld := ⟨286, .stk, 0x48, 0x0, 1, 0x0, 1, 0, 64, .w1c, .val 0⟩

/-- Table STOK-10, 0x50 [63:0] W1C: STK.ERRPEND. Bit c: channel c entered ERROR. -/
def Reg.stkErrpend : Fld := ⟨287, .stk, 0x50, 0x0, 1, 0x0, 1, 0, 64, .w1c, .val 0⟩

/-- Table STOK-10, 0x58 [63:0] W1C: STK.RSTDONE. Bit c: a reset of channel c completed. -/
def Reg.stkRstdone : Fld := ⟨288, .stk, 0x58, 0x0, 1, 0x0, 1, 0, 64, .w1c, .val 0⟩

/-- Table STOK-10, 0x60 [8:0] RO: STK.OCC.BUFFREE. Free buffers. -/
def Reg.stkOccBuffree : Fld := ⟨289, .stk, 0x60, 0x0, 1, 0x0, 1, 0, 9, .ro, .val 0x100⟩

/-- Table STOK-10, 0x60 [24:16] RO: STK.OCC.SLOTFREE. Free slots. -/
def Reg.stkOccSlotfree : Fld := ⟨290, .stk, 0x60, 0x0, 1, 0x0, 1, 16, 9, .ro, .val 0x100⟩

/-- Table STOK-10, 0x60 [38:32] RO: STK.OCC.RESERVED. Assured reservations held (R470). -/
def Reg.stkOccReserved : Fld := ⟨291, .stk, 0x60, 0x0, 1, 0x0, 1, 32, 7, .ro, .val 0⟩

/-- Table STOK-10, 0x68 [31:0] RO: STK.STAT.DESCS. Descriptors completed. -/
def Reg.stkStatDescs : Fld := ⟨292, .stk, 0x68, 0x0, 1, 0x0, 1, 0, 32, .ro, .val 0⟩

/-- Table STOK-10, 0x68 [47:32] RO: STK.STAT.SQUASHED. Descriptors squashed. -/
def Reg.stkStatSquashed : Fld := ⟨293, .stk, 0x68, 0x0, 1, 0x0, 1, 32, 16, .ro, .val 0⟩

/-- Table STOK-10, 0x68 [63:48] RO: STK.STAT.CELLFAULT. Cell faults (R472). -/
def Reg.stkStatCellfault : Fld := ⟨294, .stk, 0x68, 0x0, 1, 0x0, 1, 48, 16, .ro, .val 0⟩

/-- Table STOK-11, +0x00 [0] RW: STK.CH.CFG.EN. Channel enabled. -/
def Reg.stkChCfgEn : Fld := ⟨295, .stk, 0x1000, 0x100, 64, 0x0, 1, 0, 1, .rw, .val 0⟩

/-- Table STOK-11, +0x00 [1] RW: STK.CH.CFG.ASSURED. Reserved slices, slot and buffer; Riddle items marked Assured. -/
def Reg.stkChCfgAssured : Fld := ⟨296, .stk, 0x1000, 0x100, 64, 0x0, 1, 1, 1, .rw, .val 0⟩

/-- Table STOK-11, +0x00 [5:2] RW: STK.CH.CFG.WEIGHT. Arbitration weight. -/
def Reg.stkChCfgWeight : Fld := ⟨297, .stk, 0x1000, 0x100, 64, 0x0, 1, 2, 4, .rw, .val 4⟩

/-- Table STOK-11, +0x00 [12:6] RW: STK.CH.CFG.MAXINFL. Descriptors in flight, 1–64; 0 acts as 1, values above 64 as 64. -/
def Reg.stkChCfgMaxinfl : Fld := ⟨298, .stk, 0x1000, 0x100, 64, 0x0, 1, 6, 7, .rw, .val 8⟩

/-- Table STOK-11, +0x00 [13] RW: STK.CH.CFG.ADU. Maintain A and D (R442). -/
def Reg.stkChCfgAdu : Fld := ⟨299, .stk, 0x1000, 0x100, 64, 0x0, 1, 13, 1, .rw, .val 0⟩

/-- Table STOK-11, +0x00 [14] RO: STK.CH.CFG.VAULT. Assigned to a Vault instance. -/
def Reg.stkChCfgVault : Fld := ⟨300, .stk, 0x1000, 0x100, 64, 0x0, 1, 14, 1, .ro, .val 0⟩

/-- Table STOK-11, +0x00 [20:15] RO: STK.CH.CFG.INSTANCE. That instance. -/
def Reg.stkChCfgInstance : Fld := ⟨301, .stk, 0x1000, 0x100, 64, 0x0, 1, 15, 6, .ro, .val 0⟩

/-- Table STOK-11, +0x08 [0] RW: STK.CH.XLAT.EN. Stage-1 translation. -/
def Reg.stkChXlatEn : Fld := ⟨302, .stk, 0x1008, 0x100, 64, 0x0, 1, 0, 1, .rw, .val 0⟩

/-- Table STOK-11, +0x08 [1] RW: STK.CH.XLAT.S2. Stage-2 translation. -/
def Reg.stkChXlatS2 : Fld := ⟨303, .stk, 0x1008, 0x100, 64, 0x0, 1, 1, 1, .rw, .val 0⟩

/-- Table STOK-11, +0x08 [27:16] RW: STK.CH.XLAT.VMID. VM ID. -/
def Reg.stkChXlatVmid : Fld := ⟨304, .stk, 0x1008, 0x100, 64, 0x0, 1, 16, 12, .rw, .val 0⟩

/-- Table STOK-11, +0x08 [47:32] RW: STK.CH.XLAT.SID. Space ID. -/
def Reg.stkChXlatSid : Fld := ⟨305, .stk, 0x1008, 0x100, 64, 0x0, 1, 32, 16, .rw, .val 0⟩

/-- Table STOK-11, +0x10 [56:12] RW: STK.CH.PTB. Stage-1 root. -/
def Reg.stkChPtb : Fld := ⟨306, .stk, 0x1010, 0x100, 64, 0x0, 1, 12, 45, .rw, .val 0⟩

/-- Table STOK-11, +0x18 [56:12] RW: STK.CH.PTB2. Stage-2 root. -/
def Reg.stkChPtb2 : Fld := ⟨307, .stk, 0x1018, 0x100, 64, 0x0, 1, 12, 45, .rw, .val 0⟩

/-- Table STOK-11, +0x20 [63:0] RW: STK.CH.KR0. Rights of keys 0–31. -/
def Reg.stkChKr0 : Fld := ⟨308, .stk, 0x1020, 0x100, 64, 0x0, 1, 0, 64, .rw, .val 0⟩

/-- Table STOK-11, +0x28 [63:0] RW: STK.CH.KR1. Rights of keys 32–63. -/
def Reg.stkChKr1 : Fld := ⟨309, .stk, 0x1028, 0x100, 64, 0x0, 1, 0, 64, .rw, .val 0⟩

/-- Table STOK-11, +0x30 [11:0] RW: STK.CH.ROUTE.INDEX. IHUB routing index. -/
def Reg.stkChRouteIndex : Fld := ⟨310, .stk, 0x1030, 0x100, 64, 0x0, 1, 0, 12, .rw, .val 0⟩

/-- Table STOK-11, +0x30 [63] RW: STK.CH.ROUTE.VALID. Interrupts enabled. -/
def Reg.stkChRouteValid : Fld := ⟨311, .stk, 0x1030, 0x100, 64, 0x0, 1, 63, 1, .rw, .val 0⟩

/-- Table STOK-11, +0x38 [2:0] RO: STK.CH.STATE. Table STOK-1. -/
def Reg.stkChState : Fld := ⟨312, .stk, 0x1038, 0x100, 64, 0x0, 1, 0, 3, .ro, .val 0⟩

/-- Table STOK-11, +0x38 [15:8] RO: STK.CH.ERRCAUSE. 0 none, 1 SQFETCH, 2 CQWRITE, 3 DOORBELL, 4 RINGCFG. -/
def Reg.stkChErrcause : Fld := ⟨313, .stk, 0x1038, 0x100, 64, 0x0, 1, 8, 8, .ro, .val 0⟩

/-- Table STOK-11, +0x38 [22:16] RO: STK.CH.INFL. Descriptors in flight. -/
def Reg.stkChInfl : Fld := ⟨314, .stk, 0x1038, 0x100, 64, 0x0, 1, 16, 7, .ro, .val 0⟩

/-- Table STOK-11, +0x40 [0] WO: STK.CH.CTL.RESET. Writing 1 requests a reset. -/
def Reg.stkChCtlReset : Fld := ⟨315, .stk, 0x1040, 0x100, 64, 0x0, 1, 0, 1, .wo, .val 0⟩

/-- Table STOK-11, +0x48 WO: STK.CH.MBOX.TX. Manager side of the mailbox. -/
def Reg.stkChMboxTx : Fld := ⟨316, .stk, 0x1048, 0x100, 64, 0x0, 1, 0, 1, .wo, .val 0⟩

/-- Table STOK-11, +0x48 RO: STK.CH.MBOX.TXBUSY. Manager side of the mailbox. -/
def Reg.stkChMboxTxbusy : Fld := ⟨317, .stk, 0x1048, 0x100, 64, 0x0, 1, 1, 1, .ro, .val 0⟩

/-- Table STOK-11, +0x48 RO: STK.CH.MBOX.RXPEND. Manager side of the mailbox. -/
def Reg.stkChMboxRxpend : Fld := ⟨318, .stk, 0x1048, 0x100, 64, 0x0, 1, 2, 1, .ro, .val 0⟩

/-- Table STOK-11, +0x48 WO: STK.CH.MBOX.ACK. Manager side of the mailbox. -/
def Reg.stkChMboxAck : Fld := ⟨319, .stk, 0x1048, 0x100, 64, 0x0, 1, 3, 1, .wo, .val 0⟩

/-- Table STOK-11, +0x48 RO: STK.CH.MBOX.TXSEQ. Manager side of the mailbox. -/
def Reg.stkChMboxTxseq : Fld := ⟨320, .stk, 0x1048, 0x100, 64, 0x0, 1, 8, 8, .ro, .val 0⟩

/-- Table STOK-11, +0x48 RO: STK.CH.MBOX.RXSEQ. Manager side of the mailbox. -/
def Reg.stkChMboxRxseq : Fld := ⟨321, .stk, 0x1048, 0x100, 64, 0x0, 1, 16, 8, .ro, .val 0⟩

/-- Table STOK-11, +0x50 [31:0] RO: STK.CH.DONE. Descriptors completed; saturates. -/
def Reg.stkChDone : Fld := ⟨322, .stk, 0x1050, 0x100, 64, 0x0, 1, 0, 32, .ro, .val 0⟩

/-- Table STOK-11, +0x50 [63:32] RO: STK.CH.ERRS. Completions with status 0x10 or above; saturates. -/
def Reg.stkChErrs : Fld := ⟨323, .stk, 0x1050, 0x100, 64, 0x0, 1, 32, 32, .ro, .val 0⟩

/-- Table STOK-11, +0x80 + 8w RW: STK.CH.MBOXW. Mailbox word w. (words 0-7 read-only here, R473) -/
def Reg.stkChMboxw : Fld := ⟨324, .stk, 0x1080, 0x100, 64, 0x8, 16, 0, 64, .rw, .val 0⟩

/-- Table STOK-12, +0x00 [11:0] RW: STK.TP.SQTAIL. Doorbell (R445). -/
def Reg.stkTpSqtail : Fld := ⟨325, .stk, 0x10000, 0x1000, 64, 0x0, 1, 0, 12, .rw, .val 0⟩

/-- Table STOK-12, +0x08 [11:0] RO: STK.TP.SQHEAD. Next descriptor to fetch. -/
def Reg.stkTpSqhead : Fld := ⟨326, .stk, 0x10008, 0x1000, 64, 0x0, 1, 0, 12, .ro, .val 0⟩

/-- Table STOK-12, +0x10 [11:0] RW: STK.TP.CQHEAD. Next completion the tenant will read. -/
def Reg.stkTpCqhead : Fld := ⟨327, .stk, 0x10010, 0x1000, 64, 0x0, 1, 0, 12, .rw, .val 0⟩

/-- Table STOK-12, +0x18 [11:0] RO: STK.TP.CQTAIL. Next completion entry to write. -/
def Reg.stkTpCqtail : Fld := ⟨328, .stk, 0x10018, 0x1000, 64, 0x0, 1, 0, 12, .ro, .val 0⟩

/-- Table STOK-12, +0x18 [12] RO: STK.TP.CQPHASE. PHASE of that entry. -/
def Reg.stkTpCqphase : Fld := ⟨329, .stk, 0x10018, 0x1000, 64, 0x0, 1, 12, 1, .ro, .val 1⟩

/-- Table STOK-12, +0x20 [3:0] RW: STK.TP.SQSIZE. log2 entries, 4–12 (R444). -/
def Reg.stkTpSqsize : Fld := ⟨330, .stk, 0x10020, 0x1000, 64, 0x0, 1, 0, 4, .rw, .val 0⟩

/-- Table STOK-12, +0x20 [56:12] RW: STK.TP.SQBASE. Submission ring address. -/
def Reg.stkTpSqbase : Fld := ⟨331, .stk, 0x10020, 0x1000, 64, 0x0, 1, 12, 45, .rw, .val 0⟩

/-- Table STOK-12, +0x28 [3:0] RW: STK.TP.CQSIZE. log2 entries, 4–12. -/
def Reg.stkTpCqsize : Fld := ⟨332, .stk, 0x10028, 0x1000, 64, 0x0, 1, 0, 4, .rw, .val 0⟩

/-- Table STOK-12, +0x28 [56:12] RW: STK.TP.CQBASE. Completion ring address. -/
def Reg.stkTpCqbase : Fld := ⟨333, .stk, 0x10028, 0x1000, 64, 0x0, 1, 12, 45, .rw, .val 0⟩

/-- Table STOK-12, +0x30 [0] W1C: STK.TP.STATUS.CQ. Completion to read (R449). -/
def Reg.stkTpStatusCq : Fld := ⟨334, .stk, 0x10030, 0x1000, 64, 0x0, 1, 0, 1, .w1c, .val 0⟩

/-- Table STOK-12, +0x30 [1] W1C: STK.TP.STATUS.MBOX. Mailbox event (R473). -/
def Reg.stkTpStatusMbox : Fld := ⟨335, .stk, 0x10030, 0x1000, 64, 0x0, 1, 1, 1, .w1c, .val 0⟩

/-- Table STOK-12, +0x30 [2] W1C: STK.TP.STATUS.RESETDONE. Reset complete. -/
def Reg.stkTpStatusResetdone : Fld := ⟨336, .stk, 0x10030, 0x1000, 64, 0x0, 1, 2, 1, .w1c, .val 0⟩

/-- Table STOK-12, +0x30 [3] RO: STK.TP.STATUS.ERROR. Channel in ERROR. -/
def Reg.stkTpStatusError : Fld := ⟨337, .stk, 0x10030, 0x1000, 64, 0x0, 1, 3, 1, .ro, .val 0⟩

/-- Table STOK-12, +0x30 [6:4] RO: STK.TP.STATUS.STATE. Table STOK-1. -/
def Reg.stkTpStatusState : Fld := ⟨338, .stk, 0x10030, 0x1000, 64, 0x0, 1, 4, 3, .ro, .val 0⟩

/-- Table STOK-12, +0x30 [15:8] RO: STK.TP.STATUS.ERRCAUSE. As in Table STOK-11. -/
def Reg.stkTpStatusErrcause : Fld := ⟨339, .stk, 0x10030, 0x1000, 64, 0x0, 1, 8, 8, .ro, .val 0⟩

/-- Table STOK-12, +0x38 [0] WO: STK.TP.CTL.RESET. Writing 1 requests a reset. -/
def Reg.stkTpCtlReset : Fld := ⟨340, .stk, 0x10038, 0x1000, 64, 0x0, 1, 0, 1, .wo, .val 0⟩

/-- Table STOK-12, +0x38 [1] RW: STK.TP.CTL.IRQEN. Channel interrupts enabled. -/
def Reg.stkTpCtlIrqen : Fld := ⟨341, .stk, 0x10038, 0x1000, 64, 0x0, 1, 1, 1, .rw, .val 1⟩

/-- Table STOK-12, +0x40 [0] WO: STK.TP.MBOX.TX. Writing 1 sends this side's words. -/
def Reg.stkTpMboxTx : Fld := ⟨342, .stk, 0x10040, 0x1000, 64, 0x0, 1, 0, 1, .wo, .val 0⟩

/-- Table STOK-12, +0x40 [1] RO: STK.TP.MBOX.TXBUSY. Sent and not yet acknowledged. -/
def Reg.stkTpMboxTxbusy : Fld := ⟨343, .stk, 0x10040, 0x1000, 64, 0x0, 1, 1, 1, .ro, .val 0⟩

/-- Table STOK-12, +0x40 [2] RO: STK.TP.MBOX.RXPEND. The other side's message awaits. -/
def Reg.stkTpMboxRxpend : Fld := ⟨344, .stk, 0x10040, 0x1000, 64, 0x0, 1, 2, 1, .ro, .val 0⟩

/-- Table STOK-12, +0x40 [3] WO: STK.TP.MBOX.ACK. Writing 1 acknowledges it. -/
def Reg.stkTpMboxAck : Fld := ⟨345, .stk, 0x10040, 0x1000, 64, 0x0, 1, 3, 1, .wo, .val 0⟩

/-- Table STOK-12, +0x40 [15:8] RO: STK.TP.MBOX.TXSEQ. Messages sent, modulo 256. -/
def Reg.stkTpMboxTxseq : Fld := ⟨346, .stk, 0x10040, 0x1000, 64, 0x0, 1, 8, 8, .ro, .val 0⟩

/-- Table STOK-12, +0x40 [23:16] RO: STK.TP.MBOX.RXSEQ. Messages received, modulo 256. -/
def Reg.stkTpMboxRxseq : Fld := ⟨347, .stk, 0x10040, 0x1000, 64, 0x0, 1, 16, 8, .ro, .val 0⟩

/-- Table STOK-12, +0x80 + 8w RW: STK.TP.MBOXW. Mailbox word w. (words 8-15 read-only here; same storage as CH.MBOXW) -/
def Reg.stkTpMboxw : Fld := ⟨348, .stk, 0x10080, 0x1000, 64, 0x8, 16, 0, 64, .rw, .val 0⟩

/-- Table PCIX-4, 0x10 [2:0] RO: PRC.CAP.PORTS. Ports at most. -/
def Reg.prcCapPorts : Fld := ⟨349, .prc, 0x10, 0x0, 1, 0x0, 1, 0, 3, .ro, .val 4⟩

/-- Table PCIX-4, 0x10 [7:3] RO: PRC.CAP.LANES. Lanes. -/
def Reg.prcCapLanes : Fld := ⟨350, .prc, 0x10, 0x0, 1, 0x0, 1, 3, 5, .ro, .val 0x10⟩

/-- Table PCIX-4, 0x10 [10:8] RO: PRC.CAP.GEN. PCIe generation. -/
def Reg.prcCapGen : Fld := ⟨351, .prc, 0x10, 0x0, 1, 0x0, 1, 8, 3, .ro, .val 6⟩

/-- Table PCIX-4, 0x10 [11] RO: PRC.CAP.CXL. CXL 3.1 capable. -/
def Reg.prcCapCxl : Fld := ⟨352, .prc, 0x10, 0x0, 1, 0x0, 1, 11, 1, .ro, .val 1⟩

/-- Table PCIX-4, 0x10 [27:16] RO: PRC.CAP.IOTLB. IOTLB entries. -/
def Reg.prcCapIotlb : Fld := ⟨353, .prc, 0x10, 0x0, 1, 0x0, 1, 16, 12, .ro, .val 0x800⟩

/-- Table PCIX-4, 0x18 [1:0] RWL: PRC.CFG.BIF. R481. -/
def Reg.prcCfgBif : Fld := ⟨354, .prc, 0x18, 0x0, 1, 0x0, 1, 0, 2, .rwl, .val 0⟩

/-- Table PCIX-4, 0x20 [4:0] RW: PRC.DEVTAB.SIZE. log2 entries, 0–16; values above 16 act as 16. -/
def Reg.prcDevtabSize : Fld := ⟨355, .prc, 0x20, 0x0, 1, 0x0, 1, 0, 5, .rw, .val 0⟩

/-- Table PCIX-4, 0x20 [56:12] RW: PRC.DEVTAB.BASE. Physical address of the device table. -/
def Reg.prcDevtabBase : Fld := ⟨356, .prc, 0x20, 0x0, 1, 0x0, 1, 12, 45, .rw, .val 0⟩

/-- Table PCIX-4, 0x28 [56:20] RW: PRC.MSIWIN. Message window, an untranslated bus address, 1 MiB aligned. -/
def Reg.prcMsiwin : Fld := ⟨357, .prc, 0x28, 0x0, 1, 0x0, 1, 20, 37, .rw, .val 0xfee⟩

/-- Table PCIX-4, 0x30 [15:0] WO: PRC.IOINV.RID. Requester ID. -/
def Reg.prcIoinvRid : Fld := ⟨358, .prc, 0x30, 0x0, 1, 0x0, 1, 0, 16, .wo, .val 0⟩

/-- Table PCIX-4, 0x30 [16] WO: PRC.IOINV.ALL. Every requester ID. -/
def Reg.prcIoinvAll : Fld := ⟨359, .prc, 0x30, 0x0, 1, 0x0, 1, 16, 1, .wo, .val 0⟩

/-- Table PCIX-4, 0x30 [17] WO: PRC.IOINV.GO. Writing 1 starts the invalidation (R484). -/
def Reg.prcIoinvGo : Fld := ⟨360, .prc, 0x30, 0x0, 1, 0x0, 1, 17, 1, .wo, .val 0⟩

/-- Table PCIX-4, 0x30 [18] RO: PRC.IOINV.DONE. The last invalidation is complete. -/
def Reg.prcIoinvDone : Fld := ⟨361, .prc, 0x30, 0x0, 1, 0x0, 1, 18, 1, .ro, .val 1⟩

/-- Table PCIX-4, 0x38 [31:0] RO: PRC.ERR.DMAREFUSE. R483. -/
def Reg.prcErrDmarefuse : Fld := ⟨362, .prc, 0x38, 0x0, 1, 0x0, 1, 0, 32, .ro, .val 0⟩

/-- Table PCIX-4, 0x38 [63:32] RO: PRC.ERR.MSIDROP. R488. -/
def Reg.prcErrMsidrop : Fld := ⟨363, .prc, 0x38, 0x0, 1, 0x0, 1, 32, 32, .ro, .val 0⟩

/-- Table PCIX-4, 0x40 [31:0] RO: PRC.ERR.MMIOABORT. R494. -/
def Reg.prcErrMmioabort : Fld := ⟨364, .prc, 0x40, 0x0, 1, 0x0, 1, 0, 32, .ro, .val 0⟩

/-- Table PCIX-4, 0x40 [63:32] RO: PRC.ERR.POISONIN. R487. -/
def Reg.prcErrPoisonin : Fld := ⟨365, .prc, 0x40, 0x0, 1, 0x0, 1, 32, 32, .ro, .val 0⟩

/-- Table PCIX-4, 0x48 [11:0] RW: PRC.EVT.ROUTE. Routing index for R489. -/
def Reg.prcEvtRoute : Fld := ⟨366, .prc, 0x48, 0x0, 1, 0x0, 1, 0, 12, .rw, .val 0⟩

/-- Table PCIX-4, 0x48 [63] RW: PRC.EVT.VALID. Events enabled. -/
def Reg.prcEvtValid : Fld := ⟨367, .prc, 0x48, 0x0, 1, 0x0, 1, 63, 1, .rw, .val 0⟩

/-- Table PCIX-4, 0x50 + 8w [27:0] RW: PRC.MWINw.BASE. Device window w (0, 1): window offset in MiB. -/
def Reg.prcMwinBase : Fld := ⟨368, .prc, 0x50, 0x8, 2, 0x0, 1, 0, 28, .rw, .val 0⟩

/-- Table PCIX-4, 0x50 + 8w [55:28] RW: PRC.MWINw.SIZE. Size in MiB; 0 disables. -/
def Reg.prcMwinSize : Fld := ⟨369, .prc, 0x50, 0x8, 2, 0x0, 1, 28, 28, .rw, .val 0⟩

/-- Table PCIX-5, 0x100 + 0x40j [0] RW: PRC.PORTj.CTL.EN. Port enabled. -/
def Reg.prcPortCtlEn : Fld := ⟨370, .prc, 0x100, 0x40, 4, 0x0, 1, 0, 1, .rw, .val 1⟩

/-- Table PCIX-5, 0x100 + 0x40j [3:1] RW: PRC.PORTj.CTL.MAXGEN. Highest generation to train, 1–6. -/
def Reg.prcPortCtlMaxgen : Fld := ⟨371, .prc, 0x100, 0x40, 4, 0x0, 1, 1, 3, .rw, .val 6⟩

/-- Table PCIX-5, 0x100 + 0x40j [4] RW: PRC.PORTj.CTL.CXL. Offer CXL at training. -/
def Reg.prcPortCtlCxl : Fld := ⟨372, .prc, 0x100, 0x40, 4, 0x0, 1, 4, 1, .rw, .val 1⟩

/-- Table PCIX-5, 0x100 + 0x40j [5] RW: PRC.PORTj.CTL.ASPM. Allow L1 and L0p (R495). -/
def Reg.prcPortCtlAspm : Fld := ⟨373, .prc, 0x100, 0x40, 4, 0x0, 1, 5, 1, .rw, .val 0⟩

/-- Table PCIX-5, 0x100 + 0x40j [6] WO: PRC.PORTj.CTL.RELEASE. Writing 1 ends containment (R494). -/
def Reg.prcPortCtlRelease : Fld := ⟨374, .prc, 0x100, 0x40, 4, 0x0, 1, 6, 1, .wo, .val 0⟩

/-- Table PCIX-5, 0x108 + 0x40j [2:0] RO: PRC.PORTj.LINK.GEN. Trained generation; 0 down. -/
def Reg.prcPortLinkGen : Fld := ⟨375, .prc, 0x108, 0x40, 4, 0x0, 1, 0, 3, .ro, .val 0⟩

/-- Table PCIX-5, 0x108 + 0x40j [7:3] RO: PRC.PORTj.LINK.WIDTH. Trained width. -/
def Reg.prcPortLinkWidth : Fld := ⟨376, .prc, 0x108, 0x40, 4, 0x0, 1, 3, 5, .ro, .val 0⟩

/-- Table PCIX-5, 0x108 + 0x40j [8] RO: PRC.PORTj.LINK.CXL. Trained in CXL mode. -/
def Reg.prcPortLinkCxl : Fld := ⟨377, .prc, 0x108, 0x40, 4, 0x0, 1, 8, 1, .ro, .val 0⟩

/-- Table PCIX-5, 0x108 + 0x40j [9] RO: PRC.PORTj.LINK.CONTAINED. DPC containment in effect. -/
def Reg.prcPortLinkContained : Fld := ⟨378, .prc, 0x108, 0x40, 4, 0x0, 1, 9, 1, .ro, .val 0⟩

/-- Table PCIX-5, 0x110 + 0x40j [0] WO: PRC.PORTj.SLOT.PWRON. Writing 1 starts Table PCIX-3. -/
def Reg.prcPortSlotPwron : Fld := ⟨379, .prc, 0x110, 0x40, 4, 0x0, 1, 0, 1, .wo, .val 0⟩

/-- Table PCIX-5, 0x110 + 0x40j [1] WO: PRC.PORTj.SLOT.PWROFF. Writing 1 powers the slot off. -/
def Reg.prcPortSlotPwroff : Fld := ⟨380, .prc, 0x110, 0x40, 4, 0x0, 1, 1, 1, .wo, .val 0⟩

/-- Table PCIX-5, 0x110 + 0x40j [4:2] RO: PRC.PORTj.SLOT.STATE. 0 OFF, 1 POWERING, 2 TRAINING, 3 UP, 4 DOWN, 5 FAULT. -/
def Reg.prcPortSlotState : Fld := ⟨381, .prc, 0x110, 0x40, 4, 0x0, 1, 2, 3, .ro, .val 0⟩

/-- Table PCIX-5, 0x110 + 0x40j [5] W1C: PRC.PORTj.SLOT.FAULT. Power fault latched (R494). -/
def Reg.prcPortSlotFault : Fld := ⟨382, .prc, 0x110, 0x40, 4, 0x0, 1, 5, 1, .w1c, .val 0⟩

/-- Table PCIX-5, 0x110 + 0x40j [6] RO: PRC.PORTj.SLOT.REASON. 0 SELF, 1 GROUP. -/
def Reg.prcPortSlotReason : Fld := ⟨383, .prc, 0x110, 0x40, 4, 0x0, 1, 6, 1, .ro, .val 0⟩

/-- Table PCIX-5, 0x110 + 0x40j [7] RO: PRC.PORTj.SLOT.PRESENT. Presence land asserted. -/
def Reg.prcPortSlotPresent : Fld := ⟨384, .prc, 0x110, 0x40, 4, 0x0, 1, 7, 1, .ro, .val 0⟩

/-- Table PCIX-5, 0x110 + 0x40j [11:8] RW: PRC.PORTj.SLOT.PFGROUP. Power-fault group, 1–15; 0 none. Groups span every port of the socket. -/
def Reg.prcPortSlotPfgroup : Fld := ⟨385, .prc, 0x110, 0x40, 4, 0x0, 1, 8, 4, .rw, .val 0⟩

/-- Table PCIX-5, 0x118 + 0x40j [5:0] W1C: PRC.PORTj.EVENT. [0] LINKUP, [1] TRAINFAIL, [2] PWRFAULT, [3] PRESENCE change, [4] ATTENTION, [5] AER. -/
def Reg.prcPortEvent : Fld := ⟨386, .prc, 0x118, 0x40, 4, 0x0, 1, 0, 6, .w1c, .val 0⟩

/-- Table PCIX-5, 0x400 + 0x20r [0] RW: PRC.CXLWINr.VALID. Range valid (R496); writing 0 removes it. -/
def Reg.prcCxlwinValid : Fld := ⟨387, .prc, 0x400, 0x20, 8, 0x0, 1, 0, 1, .rw, .val 0⟩

/-- Table PCIX-5, 0x400 + 0x20r [1] RO: PRC.CXLWINr.INIT. Poison fill in progress (R497). -/
def Reg.prcCxlwinInit : Fld := ⟨388, .prc, 0x400, 0x20, 8, 0x0, 1, 1, 1, .ro, .val 0⟩

/-- Table PCIX-5, 0x400 + 0x20r [3:2] RW: PRC.CXLWINr.WAYS. 0: 1, 1: 2, 2: 4; 3 is refused. -/
def Reg.prcCxlwinWays : Fld := ⟨389, .prc, 0x400, 0x20, 8, 0x0, 1, 2, 2, .rw, .val 0⟩

/-- Table PCIX-5, 0x400 + 0x20r [11:4] RW: PRC.CXLWINr.PORTS. Four 2-bit port numbers, way 0 in [5:4]. -/
def Reg.prcCxlwinPorts : Fld := ⟨390, .prc, 0x400, 0x20, 8, 0x0, 1, 4, 8, .rw, .val 0⟩

/-- Table PCIX-5, 0x400 + 0x20r [15:12] RO: PRC.CXLWINr.CODE. 0 OK, 1 overlap, 2 port, 3 metadata, 4 ways. -/
def Reg.prcCxlwinCode : Fld := ⟨391, .prc, 0x400, 0x20, 8, 0x0, 1, 12, 4, .ro, .val 0⟩

/-- Table PCIX-5, 0x400 + 0x20r [32:16] RW: PRC.CXLWINr.BASE. Window offset in GiB. -/
def Reg.prcCxlwinBase : Fld := ⟨392, .prc, 0x400, 0x20, 8, 0x0, 1, 16, 17, .rw, .val 0⟩

/-- Table PCIX-5, 0x400 + 0x20r [49:33] RW: PRC.CXLWINr.SIZE. Size in GiB. -/
def Reg.prcCxlwinSize : Fld := ⟨393, .prc, 0x400, 0x20, 8, 0x0, 1, 33, 17, .rw, .val 0⟩

/-- Table PCIX-5, 0x408 + 0x20r [51:12] RW: PRC.CXLWINr.DPABASE. Device address of block 0. -/
def Reg.prcCxlwinDpabase : Fld := ⟨394, .prc, 0x408, 0x20, 8, 0x0, 1, 12, 40, .rw, .val 0⟩

/-- Table RELY-6, 0x8000 + 8c [8:0] RO: CORE.LMAPc.GRATE. Physical core now serving logical core c, 0–255. -/
def Reg.coreLmapGrate : Fld := ⟨395, .core, 0x8000, 0x8, 256, 0x0, 1, 0, 9, .ro, .lmapGrate⟩

/-- Table RELY-6, 0x8000 + 8c [11:9] RO: CORE.LMAPc.STATE. 0 unused, 1 running, 2 lockstep main, 3 lockstep checker, 4 handing off, 5 lost. -/
def Reg.coreLmapState : Fld := ⟨396, .core, 0x8000, 0x8, 256, 0x0, 1, 9, 3, .ro, .lmapState⟩

/-- Table RELY-6, 0x8000 + 8c [31:16] RO: CORE.LMAPc.MOVES. Hand-offs of this logical core; saturates at 0xFFFF. -/
def Reg.coreLmapMoves : Fld := ⟨397, .core, 0x8000, 0x8, 256, 0x0, 1, 16, 16, .ro, .val 0⟩

/-- Table RELY-6, 0x9000 + 8s [7:0] RO: CORE.GMAPs.LOGICAL. Logical core served; 0 when STATE is not 1. -/
def Reg.coreGmapLogical : Fld := ⟨398, .core, 0x9000, 0x8, 272, 0x0, 1, 0, 8, .ro, .gmapLogical⟩

/-- Table RELY-6, 0x9000 + 8s [10:8] RO: CORE.GMAPs.STATE. 0 fused off, 1 in use, 2 spare, 3 retired, 4 fenced whole, 5 failed as a spare. -/
def Reg.coreGmapState : Fld := ⟨399, .core, 0x9000, 0x8, 272, 0x0, 1, 8, 3, .ro, .gmapState⟩

/-- Table RELY-9, 0x10 [12:0] RO: ASH.CAP.ENTRIES. Ring entries. -/
def Reg.ashCapEntries : Fld := ⟨400, .ash, 0x10, 0x0, 1, 0x0, 1, 0, 13, .ro, .val 0x1000⟩

/-- Table RELY-9, 0x10 [19:13] RO: ASH.CAP.NVENTRIES. Entries saved (R511). -/
def Reg.ashCapNventries : Fld := ⟨401, .ash, 0x10, 0x0, 1, 0x0, 1, 13, 7, .ro, .val 0x40⟩

/-- Table RELY-9, 0x10 [27:20] RO: ASH.CAP.PAIRS. 128, 128 or 0. -/
def Reg.ashCapPairs : Fld := ⟨402, .ash, 0x10, 0x0, 1, 0x0, 1, 20, 8, .ro, .parts 128 128 0⟩

/-- Table RELY-9, 0x18 [11:0] RO: ASH.RING.WRPTR. Next entry to write. -/
def Reg.ashRingWrptr : Fld := ⟨403, .ash, 0x18, 0x0, 1, 0x0, 1, 0, 12, .ro, .val 0⟩

/-- Table RELY-9, 0x18 [27:16] RW: ASH.RING.RDPTR. Oldest unconsumed entry (R507). -/
def Reg.ashRingRdptr : Fld := ⟨404, .ash, 0x18, 0x0, 1, 0x0, 1, 16, 12, .rw, .val 0⟩

/-- Table RELY-9, 0x20 [31:0] RO: ASH.SEQ.NEXT. SEQ of the next entry. -/
def Reg.ashSeqNext : Fld := ⟨405, .ash, 0x20, 0x0, 1, 0x0, 1, 0, 32, .ro, .val 1⟩

/-- Table RELY-9, 0x20 [63:32] RO: ASH.OVERRUN. Entries overwritten unconsumed. -/
def Reg.ashOverrun : Fld := ⟨406, .ash, 0x20, 0x0, 1, 0x0, 1, 32, 32, .ro, .val 0⟩

/-- Table RELY-9, 0x28 [7:0] RW: ASH.INT.VEC. Vector (R510). -/
def Reg.ashIntVec : Fld := ⟨407, .ash, 0x28, 0x0, 1, 0x0, 1, 0, 8, .rw, .val 0xf1⟩

/-- Table RELY-9, 0x28 [15:8] RW: ASH.INT.CORE. Logical core to interrupt. -/
def Reg.ashIntCore : Fld := ⟨408, .ash, 0x28, 0x0, 1, 0x0, 1, 8, 8, .rw, .val 0⟩

/-- Table RELY-9, 0x28 [18:16] RW: ASH.INT.MINCLASS. Lowest class that interrupts. -/
def Reg.ashIntMinclass : Fld := ⟨409, .ash, 0x28, 0x0, 1, 0x0, 1, 16, 3, .rw, .val 2⟩

/-- Table RELY-9, 0x28 [19] RW: ASH.INT.EN. Interrupt enabled. -/
def Reg.ashIntEn : Fld := ⟨410, .ash, 0x28, 0x0, 1, 0x0, 1, 19, 1, .rw, .val 0⟩

/-- Table RELY-9, 0x28 [20] W1C: ASH.INT.PEND. Entry awaiting attention. -/
def Reg.ashIntPend : Fld := ⟨411, .ash, 0x28, 0x0, 1, 0x0, 1, 20, 1, .w1c, .val 0⟩

/-- Table RELY-9, 0x30 [7:0] RW: ASH.CELIM.RATE. Corrected entries per minute (R509); 0 records none. -/
def Reg.ashCelimRate : Fld := ⟨412, .ash, 0x30, 0x0, 1, 0x0, 1, 0, 8, .rw, .val 0x10⟩

/-- Table RELY-9, 0x30 [63:32] RO: ASH.CELIM.SUPP. Corrected entries suppressed. -/
def Reg.ashCelimSupp : Fld := ⟨413, .ash, 0x30, 0x0, 1, 0x0, 1, 32, 32, .ro, .val 0⟩

/-- Table RELY-9, 0x38 [4:0] RO: ASH.SPARE.LEFT. Spares not yet used: 16, 16 or 8. -/
def Reg.ashSpareLeft : Fld := ⟨414, .ash, 0x38, 0x0, 1, 0x0, 1, 0, 5, .ro, .parts 16 16 8⟩

/-- Table RELY-9, 0x38 [15:8] RO: ASH.SPARE.LOST. Logical cores lost. -/
def Reg.ashSpareLost : Fld := ⟨415, .ash, 0x38, 0x0, 1, 0x0, 1, 8, 8, .ro, .val 0⟩

/-- Table RELY-9, 0x38 [31:16] RO: ASH.SPARE.HANDOFFS. Hand-offs completed. -/
def Reg.ashSpareHandoffs : Fld := ⟨416, .ash, 0x38, 0x0, 1, 0x0, 1, 16, 16, .ro, .val 0⟩

/-- Table RELY-9, 0x40 [7:0] WO: ASH.HANDOFF.CORE. Logical core to hand off. -/
def Reg.ashHandoffCore : Fld := ⟨417, .ash, 0x40, 0x0, 1, 0x0, 1, 0, 8, .wo, .val 0⟩

/-- Table RELY-9, 0x40 [8] WO: ASH.HANDOFF.GO. Writing 1 requests the hand-off (R516); ignored without a spare or for a checker. -/
def Reg.ashHandoffGo : Fld := ⟨418, .ash, 0x40, 0x0, 1, 0x0, 1, 8, 1, .wo, .val 0⟩

/-- Table RELY-9, 0x48 [7:0] RO: ASH.HANDOFF.TILES. Bit t: the engine of tile t is busy. -/
def Reg.ashHandoffTiles : Fld := ⟨419, .ash, 0x48, 0x0, 1, 0x0, 1, 0, 8, .ro, .val 0⟩

/-- Table RELY-9, 0x50 [0] RO: ASH.NV.VALID. Saved record present (R511). -/
def Reg.ashNvValid : Fld := ⟨420, .ash, 0x50, 0x0, 1, 0x0, 1, 0, 1, .ro, .val 0⟩

/-- Table RELY-9, 0x50 [2:1] RO: ASH.NV.CAUSE. 1 hold-up save, 2 socket failure. -/
def Reg.ashNvCause : Fld := ⟨421, .ash, 0x50, 0x0, 1, 0x0, 1, 1, 2, .ro, .val 0⟩

/-- Table RELY-9, 0x50 [3] WO: ASH.NV.CLR. Writing 1 clears VALID. -/
def Reg.ashNvClr : Fld := ⟨422, .ash, 0x50, 0x0, 1, 0x0, 1, 3, 1, .wo, .val 0⟩

/-- Table RELY-9, 0x58 [3:0] RW: ASH.LSCFG.TLIM. Transients before the main is replaced; 0 acts as 1. -/
def Reg.ashLscfgTlim : Fld := ⟨423, .ash, 0x58, 0x0, 1, 0x0, 1, 0, 4, .rw, .val 3⟩

/-- Table RELY-9, 0x1000 + 0x10p [7:0] RWL: ASH.LSp.MAIN. Main logical core. -/
def Reg.ashLsMain : Fld := ⟨424, .ash, 0x1000, 0x10, 128, 0x0, 1, 0, 8, .rwl, .val 0⟩

/-- Table RELY-9, 0x1000 + 0x10p [15:8] RWL: ASH.LSp.CHECKER. Checker logical core. -/
def Reg.ashLsChecker : Fld := ⟨425, .ash, 0x1000, 0x10, 128, 0x0, 1, 8, 8, .rwl, .val 0⟩

/-- Table RELY-9, 0x1000 + 0x10p [16] RWL: ASH.LSp.EN. Pair configured (R522). -/
def Reg.ashLsEn : Fld := ⟨426, .ash, 0x1000, 0x10, 128, 0x0, 1, 16, 1, .rwl, .val 0⟩

/-- Table RELY-9, 0x1008 + 0x10p [2:0] RO: ASH.LSp.STATE. 0 OFF, 1 TESTING, 2 ACTIVE, 3 RECOVERING, 4 UNPAIRED, 5 CMPFAIL, 6 LOST. -/
def Reg.ashLsState : Fld := ⟨427, .ash, 0x1008, 0x10, 128, 0x0, 1, 0, 3, .ro, .val 0⟩

/-- Table RELY-9, 0x1008 + 0x10p [15:8] RO: ASH.LSp.MISMATCH. Mismatches; saturates at 0xFF. -/
def Reg.ashLsMismatch : Fld := ⟨428, .ash, 0x1008, 0x10, 128, 0x0, 1, 8, 8, .ro, .val 0⟩

/-- Table RELY-9, 0x1008 + 0x10p [23:16] RO: ASH.LSp.TRANSIENT. Transients; saturates. -/
def Reg.ashLsTransient : Fld := ⟨429, .ash, 0x1008, 0x10, 128, 0x0, 1, 16, 8, .ro, .val 0⟩

/-- Table RELY-9, 0x1_0000 + 0x40i RO: ASH.ENTRY. Ring entry i, 0–4095 (Table RELY-2). -/
def Reg.ashEntry : Fld := ⟨430, .ash, 0x10000, 0x40, 4096, 0x8, 8, 0, 64, .ro, .val 0⟩

/-- Table RELY-9, 0x5_0000 + 0x40j RO: ASH.SAVED. Saved entry j, 0–63 (R511). -/
def Reg.ashSaved : Fld := ⟨431, .ash, 0x50000, 0x40, 64, 0x8, 8, 0, 64, .ro, .val 0⟩

/-- Table RELY-9, 0x5_1000–0x5_103F RO: ASH.SUMMARY. Table RELY-5. -/
def Reg.ashSummary : Fld := ⟨432, .ash, 0x51000, 0x8, 8, 0x0, 1, 0, 64, .ro, .val 0⟩

/-- Table POWR-10, 0x10 [9:0] RO: PWR.CAP.TDPMIN. Lowest TDP, W. -/
def Reg.pwrCapTdpmin : Fld := ⟨433, .pwr, 0x10, 0x0, 1, 0x0, 1, 0, 10, .ro, .val 0x208⟩

/-- Table POWR-10, 0x10 [19:10] RO: PWR.CAP.TDPMAX. Highest TDP, W. -/
def Reg.pwrCapTdpmax : Fld := ⟨434, .pwr, 0x10, 0x0, 1, 0x0, 1, 10, 10, .ro, .val 0x384⟩

/-- Table POWR-10, 0x10 [32:20] RO: PWR.CAP.FMAX. Highest core frequency, MHz. -/
def Reg.pwrCapFmax : Fld := ⟨435, .pwr, 0x10, 0x0, 1, 0x0, 1, 20, 13, .ro, .val 0x1068⟩

/-- Table POWR-10, 0x10 [45:33] RO: PWR.CAP.FMIN. Lowest PLL frequency, MHz. -/
def Reg.pwrCapFmin : Fld := ⟨436, .pwr, 0x10, 0x0, 1, 0x0, 1, 33, 13, .ro, .val 0x320⟩

/-- Table POWR-10, 0x18 [2:0] RO: PWR.PKG.STATE. 0 Run, 1 Package-Banked, 2 Standby, 3 entering, 4 exiting, 5 saving, 6 powering down. -/
def Reg.pwrPkgState : Fld := ⟨437, .pwr, 0x18, 0x0, 1, 0x0, 1, 0, 3, .ro, .val 0⟩

/-- Table POWR-10, 0x18 [8] RW: PWR.PKG.BANKEN. Package-Banked allowed (R546). -/
def Reg.pwrPkgBanken : Fld := ⟨438, .pwr, 0x18, 0x0, 1, 0x0, 1, 8, 1, .rw, .val 1⟩

/-- Table POWR-10, 0x18 [11:9] WO: PWR.PKG.CMD. 1 power off (R534); 2 standby (R547); other values ignored. -/
def Reg.pwrPkgCmd : Fld := ⟨439, .pwr, 0x18, 0x0, 1, 0x0, 1, 9, 3, .wo, .val 0⟩

/-- Table POWR-10, 0x18 [13:12] RO: PWR.PKG.PENDREQ. Latched request: 0 none, 1 on, 2 off. -/
def Reg.pwrPkgPendreq : Fld := ⟨440, .pwr, 0x18, 0x0, 1, 0x0, 1, 12, 2, .ro, .val 0⟩

/-- Table POWR-10, 0x18 [14] RW: PWR.PKG.AUTORST. Cold-start after a save (R564). -/
def Reg.pwrPkgAutorst : Fld := ⟨441, .pwr, 0x18, 0x0, 1, 0x0, 1, 14, 1, .rw, .val 1⟩

/-- Table POWR-10, 0x20 [9:0] RW: PWR.DAMP.TDP. PL1, W; clamped to 520–900. -/
def Reg.pwrDampTdp : Fld := ⟨442, .pwr, 0x20, 0x0, 1, 0x0, 1, 0, 10, .rw, .val 0x2f8⟩

/-- Table POWR-10, 0x20 [23:10] RW: PWR.DAMP.TAU. PL1 window, ms; clamped to 100–10,000. -/
def Reg.pwrDampTau : Fld := ⟨443, .pwr, 0x20, 0x0, 1, 0x0, 1, 10, 14, .rw, .val 0x3e8⟩

/-- Table POWR-10, 0x20 [30:24] RW: PWR.DAMP.PL2. PL2 above TDP, percent; values above 40 act as 40. -/
def Reg.pwrDampPl2 : Fld := ⟨444, .pwr, 0x20, 0x0, 1, 0x0, 1, 24, 7, .rw, .val 0x14⟩

/-- Table POWR-10, 0x20 [37:31] RW: PWR.DAMP.TJTARGET. °C; clamped to 80–103. -/
def Reg.pwrDampTjtarget : Fld := ⟨445, .pwr, 0x20, 0x0, 1, 0x0, 1, 31, 7, .rw, .val 0x64⟩

/-- Table POWR-10, 0x28 [5:0] RO: PWR.DAMP.STAT.ACTIVE. [0] PL1, [1] PL2, [2] current, [3] thermal, [4] VRHOT#, [5] emergency. -/
def Reg.pwrDampStatActive : Fld := ⟨446, .pwr, 0x28, 0x0, 1, 0x0, 1, 0, 6, .ro, .val 0⟩

/-- Table POWR-10, 0x28 [25:16] RO: PWR.DAMP.STAT.PKGW. Package power, W. -/
def Reg.pwrDampStatPkgw : Fld := ⟨447, .pwr, 0x28, 0x0, 1, 0x0, 1, 16, 10, .ro, .val 0⟩

/-- Table POWR-10, 0x28 [38:32] RO: PWR.DAMP.STAT.TJMAX. Hottest sensor, °C. -/
def Reg.pwrDampStatTjmax : Fld := ⟨448, .pwr, 0x28, 0x0, 1, 0x0, 1, 32, 7, .ro, .val 0⟩

/-- Table POWR-10, 0x30 [31:0] RO: PWR.DAMP.THRMS. Milliseconds with any limit acting. -/
def Reg.pwrDampThrms : Fld := ⟨449, .pwr, 0x30, 0x0, 1, 0x0, 1, 0, 32, .ro, .val 0⟩

/-- Table POWR-10, 0x30 [47:32] RO: PWR.DAMP.EMERGCNT. Thermal emergencies. -/
def Reg.pwrDampEmergcnt : Fld := ⟨450, .pwr, 0x30, 0x0, 1, 0x0, 1, 32, 16, .ro, .val 0⟩

/-- Table POWR-10, 0x38 [16i] RW: PWR.WAKEi.EN. WAKEi enabled, i = 0–3 (R549). -/
def Reg.pwrWakeEn : Fld := ⟨451, .pwr, 0x38, 0x2, 4, 0x0, 1, 0, 1, .rw, .val 0⟩

/-- Table POWR-10, 0x38 [16i + 1] RW: PWR.WAKEi.POL. 1 active high. -/
def Reg.pwrWakePol : Fld := ⟨452, .pwr, 0x38, 0x2, 4, 0x0, 1, 1, 1, .rw, .val 0⟩

/-- Table POWR-10, 0x38 [16i + 2] RW: PWR.WAKEi.EDGE. 1 edge, 0 level. -/
def Reg.pwrWakeEdge : Fld := ⟨453, .pwr, 0x38, 0x2, 4, 0x0, 1, 2, 1, .rw, .val 0⟩

/-- Table POWR-10, 0x38 [16i + 3] RW: PWR.WAKEi.PWRON. Power-on request while Off. -/
def Reg.pwrWakePwron : Fld := ⟨454, .pwr, 0x38, 0x2, 4, 0x0, 1, 3, 1, .rw, .val 0⟩

/-- Table POWR-10, 0x38 [16i + 11 : 16i + 4] RW: PWR.WAKEi.VEC. Vector to the monitor core. -/
def Reg.pwrWakeVec : Fld := ⟨455, .pwr, 0x38, 0x2, 4, 0x0, 1, 4, 8, .rw, .val 0⟩

/-- Table POWR-10, 0x40 [3:0] RO: PWR.LASTWAKE.SRC. 0 none, 1 WAKE land, 2 interrupt, 3 flue packet, 4 root complex, 5 management controller, 6 power-on request. -/
def Reg.pwrLastwakeSrc : Fld := ⟨456, .pwr, 0x40, 0x0, 1, 0x0, 1, 0, 4, .ro, .val 0⟩

/-- Table POWR-10, 0x40 [7:4] RO: PWR.LASTWAKE.INDEX. Land, flue or root complex. -/
def Reg.pwrLastwakeIndex : Fld := ⟨457, .pwr, 0x40, 0x0, 1, 0x0, 1, 4, 4, .ro, .val 0⟩

/-- Table POWR-10, 0x40 [8] W1C: PWR.LASTWAKE.VALID. A wake has been recorded (R550). -/
def Reg.pwrLastwakeValid : Fld := ⟨458, .pwr, 0x40, 0x0, 1, 0x0, 1, 8, 1, .w1c, .val 0⟩

/-- Table POWR-10, 0x48 [63:0] RO: PWR.LASTWAKE.TIME. Timebase of the wake, ns. -/
def Reg.pwrLastwakeTime : Fld := ⟨459, .pwr, 0x48, 0x0, 1, 0x0, 1, 0, 64, .ro, .val 0⟩

/-- Table POWR-10, 0x50 [46:1] RWL: PWR.BOOT.PC. Window offset at which cores start (R557). -/
def Reg.pwrBootPc : Fld := ⟨460, .pwr, 0x50, 0x0, 1, 0x0, 1, 1, 46, .rwl, .val 0x3fffff800000⟩

/-- Table POWR-10, 0x58 [0] WO: PWR.RESET.WARM. Writing 1 requests a warm reset (R556). -/
def Reg.pwrResetWarm : Fld := ⟨461, .pwr, 0x58, 0x0, 1, 0x0, 1, 0, 1, .wo, .val 0⟩

/-- Table POWR-10, 0x58 [1] RO: PWR.RESET.WARMPEND. Warm reset held. -/
def Reg.pwrResetWarmpend : Fld := ⟨462, .pwr, 0x58, 0x0, 1, 0x0, 1, 1, 1, .ro, .val 0⟩

/-- Table POWR-10, 0x58 [15:8] WO: PWR.RESET.CORERST.CORE. Logical core to reset. -/
def Reg.pwrResetCorerstCore : Fld := ⟨463, .pwr, 0x58, 0x0, 1, 0x0, 1, 8, 8, .wo, .val 0⟩

/-- Table POWR-10, 0x58 [16] WO: PWR.RESET.CORERST.GO. Writing 1 resets it (R557). -/
def Reg.pwrResetCorerstGo : Fld := ⟨464, .pwr, 0x58, 0x0, 1, 0x0, 1, 16, 1, .wo, .val 0⟩

/-- Table POWR-10, 0x60 [7:0] RW: PWR.UPWR.STK. Stoker cell k powered: 0xFF, or 0x00 on the TLV-EQ128L. -/
def Reg.pwrUpwrStk : Fld := ⟨465, .pwr, 0x60, 0x0, 1, 0x0, 1, 0, 8, .rw, .parts 255 255 0⟩

/-- Table POWR-10, 0x60 [11:8] RW: PWR.UPWR.PRC. Root complex n powered. -/
def Reg.pwrUpwrPrc : Fld := ⟨466, .pwr, 0x60, 0x0, 1, 0x0, 1, 8, 4, .rw, .val 0xf⟩

/-- Table POWR-10, 0x60 [23:16] RO: PWR.UPWR.STAT.STK. Cells powered now. -/
def Reg.pwrUpwrStatStk : Fld := ⟨467, .pwr, 0x60, 0x0, 1, 0x0, 1, 16, 8, .ro, .parts 255 255 0⟩

/-- Table POWR-10, 0x60 [27:24] RO: PWR.UPWR.STAT.PRC. Root complexes powered now. -/
def Reg.pwrUpwrStatPrc : Fld := ⟨468, .pwr, 0x60, 0x0, 1, 0x0, 1, 24, 4, .ro, .val 0xf⟩

/-- Table POWR-10, 0x60 [28] W1C: PWR.UPWR.REFUSED. A power-off was refused (R554). -/
def Reg.pwrUpwrRefused : Fld := ⟨469, .pwr, 0x60, 0x0, 1, 0x0, 1, 28, 1, .w1c, .val 0⟩

/-- Table POWR-10, 0x68 [2:0] RO: PWR.SAVE.CAUSE. 0 none, 1 PWRFAIL#, 2 VUNC sag, 3 VCIN sag, 4 fatal fault. -/
def Reg.pwrSaveCause : Fld := ⟨470, .pwr, 0x68, 0x0, 1, 0x0, 1, 0, 3, .ro, .val 0⟩

/-- Table POWR-10, 0x68 [5:3] RO: PWR.SAVE.STATEAT. PKG.STATE at the trigger. -/
def Reg.pwrSaveStateat : Fld := ⟨471, .pwr, 0x68, 0x0, 1, 0x0, 1, 3, 3, .ro, .val 0⟩

/-- Table POWR-10, 0x68 [6] RO: PWR.SAVE.DONE. The last save committed. -/
def Reg.pwrSaveDone : Fld := ⟨472, .pwr, 0x68, 0x0, 1, 0x0, 1, 6, 1, .ro, .val 0⟩

/-- Table POWR-10, 0x68 [22:7] RO: PWR.SAVE.SAVES. Saves since the save store was made. -/
def Reg.pwrSaveSaves : Fld := ⟨473, .pwr, 0x68, 0x0, 1, 0x0, 1, 7, 16, .ro, .val 0⟩

/-- Table POWR-10, 0x68 [63:32] RO: PWR.SAVE.DURATION. Duration of the last save, µs. -/
def Reg.pwrSaveDuration : Fld := ⟨474, .pwr, 0x68, 0x0, 1, 0x0, 1, 32, 32, .ro, .val 0⟩

/-- Table POWR-10, 0x800 + 8c [12:0] RW: PWR.COREc.REQ. Requested frequency, MHz; rounded down to 25 MHz; clamped to 800–4200. -/
def Reg.pwrCoreReq : Fld := ⟨475, .pwr, 0x800, 0x8, 256, 0x0, 1, 0, 13, .rw, .val 0xa28⟩

/-- Table POWR-10, 0x800 + 8c [13] RW: PWR.COREc.PLLEN. PLL enabled. -/
def Reg.pwrCorePllen : Fld := ⟨476, .pwr, 0x800, 0x8, 256, 0x0, 1, 13, 1, .rw, .val 0⟩

/-- Table POWR-10, 0x800 + 8c [14] RW: PWR.COREc.SEL. 1: core runs on its PLL (R539). -/
def Reg.pwrCoreSel : Fld := ⟨477, .pwr, 0x800, 0x8, 256, 0x0, 1, 14, 1, .rw, .val 0⟩

/-- Table POWR-10, 0x800 + 8c [15] RO: PWR.COREc.LOCKED. PLL locked. -/
def Reg.pwrCoreLocked : Fld := ⟨478, .pwr, 0x800, 0x8, 256, 0x0, 1, 15, 1, .ro, .val 0⟩

/-- Table POWR-10, 0x800 + 8c [17:16] RW: PWR.COREc.PRIO. Damper class, 0 throttled first (R552). -/
def Reg.pwrCorePrio : Fld := ⟨479, .pwr, 0x800, 0x8, 256, 0x0, 1, 16, 2, .rw, .val 1⟩

/-- Table POWR-10, 0x800 + 8c [18] W1S: PWR.COREc.RUN. Core may leave reset. -/
def Reg.pwrCoreRun : Fld := ⟨480, .pwr, 0x800, 0x8, 256, 0x0, 1, 18, 1, .w1s, .run0⟩

/-- Table POWR-10, 0x800 + 8c [44:32] RO: PWR.COREc.CUR. Frequency in effect, MHz (R540). -/
def Reg.pwrCoreCur : Fld := ⟨481, .pwr, 0x800, 0x8, 256, 0x0, 1, 32, 13, .ro, .val 0x640⟩

/-- Table POWR-10, 0x800 + 8c [47:45] RO: PWR.COREc.CSTATE. 0 Run, 1 Ember, 2 Banked, 3 Cold, 4 in reset. -/
def Reg.pwrCoreCstate : Fld := ⟨482, .pwr, 0x800, 0x8, 256, 0x0, 1, 45, 3, .ro, .cstate0⟩

/-- Table POWR-14, 0x10 [63:0] RO: TBASE.NOW. Timebase, ns (R541). -/
def Reg.tbaseNow : Fld := ⟨483, .tbase, 0x10, 0x0, 1, 0x0, 1, 0, 64, .ro, .val 0⟩

/-- Table POWR-14, 0x18 [31:0] RO: TBASE.OFFSET. Latest offset from the sync parent, signed ns (R388). -/
def Reg.tbaseOffset : Fld := ⟨484, .tbase, 0x18, 0x0, 1, 0x0, 1, 0, 32, .ro, .val 0⟩

/-- Table POWR-14, 0x18 [47:32] RO: TBASE.SLEW. Slew in effect, signed ppm. -/
def Reg.tbaseSlew : Fld := ⟨485, .tbase, 0x18, 0x0, 1, 0x0, 1, 32, 16, .ro, .val 0⟩

/-- Table POWR-14, 0x18 [63:48] RO: TBASE.STEPS. Steps made before cores left reset; saturates at 0xFFFF. -/
def Reg.tbaseSteps : Fld := ⟨486, .tbase, 0x18, 0x0, 1, 0x0, 1, 48, 16, .ro, .val 0⟩

/-- Table PERF-7, 0x10 [8:0] RO: PMU.CAP.EVENTS. Core events. -/
def Reg.pmuCapEvents : Fld := ⟨487, .pmu, 0x10, 0x0, 1, 0x0, 1, 0, 9, .ro, .val 0x180⟩

/-- Table PERF-7, 0x10 [13:9] RO: PMU.CAP.THR. Threshold counters per core. -/
def Reg.pmuCapThr : Fld := ⟨488, .pmu, 0x10, 0x0, 1, 0x0, 1, 9, 5, .ro, .val 0x10⟩

/-- Table PERF-7, 0x10 [18:14] RO: PMU.CAP.BW. Bandwidth counters per core. -/
def Reg.pmuCapBw : Fld := ⟨489, .pmu, 0x10, 0x0, 1, 0x0, 1, 14, 5, .ro, .val 0x10⟩

/-- Table PERF-7, 0x10 [21:19] RO: PMU.CAP.SAMP. Sampling comparators per core. -/
def Reg.pmuCapSamp : Fld := ⟨490, .pmu, 0x10, 0x0, 1, 0x0, 1, 19, 3, .ro, .val 4⟩

/-- Table PERF-7, 0x18 [31:0] RO: PMU.SNAP.SEQ. Snapshots taken (R583); wraps. -/
def Reg.pmuSnapSeq : Fld := ⟨491, .pmu, 0x18, 0x0, 1, 0x0, 1, 0, 32, .ro, .val 0⟩

/-- Table PERF-7, 0x20 [63:0] RO: PMU.SNAP.TIME. Timebase of the latest snapshot. -/
def Reg.pmuSnapTime : Fld := ⟨492, .pmu, 0x20, 0x0, 1, 0x0, 1, 0, 64, .ro, .val 0⟩

/-- Table PERF-7, 0x28 [7:0] RW: PMU.UWRAP.VEC. Unit wrap vector (R582). -/
def Reg.pmuUwrapVec : Fld := ⟨493, .pmu, 0x28, 0x0, 1, 0x0, 1, 0, 8, .rw, .val 0xf2⟩

/-- Table PERF-7, 0x28 [15:8] RW: PMU.UWRAP.CORE. Logical core to interrupt. -/
def Reg.pmuUwrapCore : Fld := ⟨494, .pmu, 0x28, 0x0, 1, 0x0, 1, 8, 8, .rw, .val 0⟩

/-- Table PERF-7, 0x28 [16] RW: PMU.UWRAP.EN. Interrupt enabled. -/
def Reg.pmuUwrapEn : Fld := ⟨495, .pmu, 0x28, 0x0, 1, 0x0, 1, 16, 1, .rw, .val 0⟩

/-- Table PERF-7, 0x28 [17] W1C: PMU.UWRAP.PEND. A unit counter has wrapped. -/
def Reg.pmuUwrapPend : Fld := ⟨496, .pmu, 0x28, 0x0, 1, 0x0, 1, 17, 1, .w1c, .val 0⟩

/-- Table PERF-7, 0x1000 + 0x80s + 8e RO: PMU.HRTH.EV.COUNT. Slice s, event e 0–15. -/
def Reg.pmuHrthEvCount : Fld := ⟨497, .pmu, 0x1000, 0x80, 272, 0x8, 16, 0, 48, .ro, .val 0⟩

/-- Table PERF-7, 0x1000 + 0x80s + 8e W1C: PMU.HRTH.EV.WRAP. Slice s, event e 0–15. -/
def Reg.pmuHrthEvWrap : Fld := ⟨498, .pmu, 0x1000, 0x80, 272, 0x8, 16, 48, 1, .w1c, .val 0⟩

/-- Table PERF-7, 0xA000 + 0x80p + 8e RO: PMU.MESH.EV.COUNT. Stop p (R323). -/
def Reg.pmuMeshEvCount : Fld := ⟨499, .pmu, 0xa000, 0x80, 308, 0x8, 16, 0, 48, .ro, .val 0⟩

/-- Table PERF-7, 0xA000 + 0x80p + 8e W1C: PMU.MESH.EV.WRAP. Stop p (R323). -/
def Reg.pmuMeshEvWrap : Fld := ⟨500, .pmu, 0xa000, 0x80, 308, 0x8, 16, 48, 1, .w1c, .val 0⟩

/-- Table PERF-7, 0x1_4000 + 0x80n + 8e RO: PMU.FLUE.EV.COUNT. Flue n. -/
def Reg.pmuFlueEvCount : Fld := ⟨501, .pmu, 0x14000, 0x80, 6, 0x8, 16, 0, 48, .ro, .val 0⟩

/-- Table PERF-7, 0x1_4000 + 0x80n + 8e W1C: PMU.FLUE.EV.WRAP. Flue n. -/
def Reg.pmuFlueEvWrap : Fld := ⟨502, .pmu, 0x14000, 0x80, 6, 0x8, 16, 48, 1, .w1c, .val 0⟩

/-- Table PERF-7, 0x1_5000 + 0x100n + 8e RO: PMU.MC.EV.COUNT. MC events 0–15; e = 16–23 are RIDn events 0–7. -/
def Reg.pmuMcEvCount : Fld := ⟨503, .pmu, 0x15000, 0x100, 16, 0x8, 24, 0, 48, .ro, .val 0⟩

/-- Table PERF-7, 0x1_5000 + 0x100n + 8e W1C: PMU.MC.EV.WRAP. MC events 0–15; e = 16–23 are RIDn events 0–7. -/
def Reg.pmuMcEvWrap : Fld := ⟨504, .pmu, 0x15000, 0x100, 16, 0x8, 24, 48, 1, .w1c, .val 0⟩

/-- Table PERF-7, 0x1_6000–0x1_93FF RW: PMU.UNITBW.CLASS. Unit bandwidth counters. -/
def Reg.pmuUnitbwClass : Fld := ⟨505, .pmu, 0x16000, 0x200, 26, 0x20, 16, 0, 5, .rw, .val 0⟩

/-- Table PERF-7, 0x1_6000–0x1_93FF RW: PMU.UNITBW.WIN. Unit bandwidth counters. -/
def Reg.pmuUnitbwWin : Fld := ⟨506, .pmu, 0x16000, 0x200, 26, 0x20, 16, 5, 5, .rw, .val 0x14⟩

/-- Table PERF-7, 0x1_6000–0x1_93FF RW: PMU.UNITBW.EN. Unit bandwidth counters. -/
def Reg.pmuUnitbwEn : Fld := ⟨507, .pmu, 0x16000, 0x200, 26, 0x20, 16, 10, 1, .rw, .val 0⟩

/-- Table PERF-7, 0x1_6000–0x1_93FF WO: PMU.UNITBW.PEAKCLR. Unit bandwidth counters. -/
def Reg.pmuUnitbwPeakclr : Fld := ⟨508, .pmu, 0x16000, 0x200, 26, 0x20, 16, 11, 1, .wo, .val 0⟩

/-- Table PERF-7, 0x1_6000–0x1_93FF RO: PMU.UNITBW.LAST. Unit bandwidth counters. -/
def Reg.pmuUnitbwLast : Fld := ⟨509, .pmu, 0x16008, 0x200, 26, 0x20, 16, 0, 48, .ro, .val 0⟩

/-- Table PERF-7, 0x1_6000–0x1_93FF RO: PMU.UNITBW.PEAK. Unit bandwidth counters. -/
def Reg.pmuUnitbwPeak : Fld := ⟨510, .pmu, 0x16010, 0x200, 26, 0x20, 16, 0, 48, .ro, .val 0⟩

/-- Table PERF-7, 0x2_0000 + 0x1000k + 8e RO: PMU.STK.EV.COUNT. Cell events. -/
def Reg.pmuStkEvCount : Fld := ⟨511, .pmu, 0x20000, 0x1000, 8, 0x8, 16, 0, 48, .ro, .val 0⟩

/-- Table PERF-7, 0x2_0000 + 0x1000k + 8e W1C: PMU.STK.EV.WRAP. Cell events. -/
def Reg.pmuStkEvWrap : Fld := ⟨512, .pmu, 0x20000, 0x1000, 8, 0x8, 16, 48, 1, .w1c, .val 0⟩

/-- Table PERF-7, 0x2_0800 + 0x1000k + 0x20c + 8e RO: PMU.STK.CH.EV.COUNT. Channel events 0–3. -/
def Reg.pmuStkChEvCount : Fld := ⟨513, .pmu, 0x20800, 0x1000, 8, 0x8, 256, 0, 48, .ro, .val 0⟩

/-- Table PERF-7, 0x2_0800 + 0x1000k + 0x20c + 8e W1C: PMU.STK.CH.EV.WRAP. Channel events 0–3. -/
def Reg.pmuStkChEvWrap : Fld := ⟨514, .pmu, 0x20800, 0x1000, 8, 0x8, 256, 48, 1, .w1c, .val 0⟩

/-- Table PERF-7, 0x10_0000 + 0x2000c + 8e RO: PMU.CORE.EV.COUNT. Event e, 0–383. -/
def Reg.pmuCoreEvCount : Fld := ⟨515, .pmu, 0x100000, 0x2000, 256, 0x8, 384, 0, 48, .ro, .val 0⟩

/-- Table PERF-7, 0x10_0000 + 0x2000c + 8e W1C: PMU.CORE.EV.WRAP. Event e, 0–383. -/
def Reg.pmuCoreEvWrap : Fld := ⟨516, .pmu, 0x100000, 0x2000, 256, 0x8, 384, 48, 1, .w1c, .val 0⟩

/-- Table PERF-7, 0x10_0C00 + 0x2000c + 8j RO: PMU.CORE.THR.COUNT. Threshold counter j. -/
def Reg.pmuCoreThrCount : Fld := ⟨517, .pmu, 0x100c00, 0x2000, 256, 0x8, 16, 0, 48, .ro, .val 0⟩

/-- Table PERF-7, 0x10_0C00 + 0x2000c + 8j W1C: PMU.CORE.THR.WRAP. Threshold counter j. -/
def Reg.pmuCoreThrWrap : Fld := ⟨518, .pmu, 0x100c00, 0x2000, 256, 0x8, 16, 48, 1, .w1c, .val 0⟩

/-- Table PERF-7, 0x10_0D00 + 0x2000c + 0x20j RW: PMU.COREBW.CLASS. Bandwidth counter j. -/
def Reg.pmuCorebwClass : Fld := ⟨519, .pmu, 0x100d00, 0x2000, 256, 0x20, 16, 0, 5, .rw, .val 0⟩

/-- Table PERF-7, 0x10_0D00 + 0x2000c + 0x20j RW: PMU.COREBW.WIN. Bandwidth counter j. -/
def Reg.pmuCorebwWin : Fld := ⟨520, .pmu, 0x100d00, 0x2000, 256, 0x20, 16, 5, 5, .rw, .val 0x14⟩

/-- Table PERF-7, 0x10_0D00 + 0x2000c + 0x20j RW: PMU.COREBW.EN. Bandwidth counter j. -/
def Reg.pmuCorebwEn : Fld := ⟨521, .pmu, 0x100d00, 0x2000, 256, 0x20, 16, 10, 1, .rw, .val 0⟩

/-- Table PERF-7, 0x10_0D00 + 0x2000c + 0x20j WO: PMU.COREBW.PEAKCLR. Bandwidth counter j. -/
def Reg.pmuCorebwPeakclr : Fld := ⟨522, .pmu, 0x100d00, 0x2000, 256, 0x20, 16, 11, 1, .wo, .val 0⟩

/-- Table PERF-7, 0x10_0D00 + 0x2000c + 0x20j RO: PMU.COREBW.LAST. Bandwidth counter j. -/
def Reg.pmuCorebwLast : Fld := ⟨523, .pmu, 0x100d08, 0x2000, 256, 0x20, 16, 0, 48, .ro, .val 0⟩

/-- Table PERF-7, 0x10_0D00 + 0x2000c + 0x20j RO: PMU.COREBW.PEAK. Bandwidth counter j. -/
def Reg.pmuCorebwPeak : Fld := ⟨524, .pmu, 0x100d10, 0x2000, 256, 0x20, 16, 0, 48, .ro, .val 0⟩

/-- Table PERF-7, 0x10_1000 + 0x2000c + 8j [3:0] RW: PMU.THRCTLj.STRUCT. Structure (Table PERF-3). -/
def Reg.pmuThrctlStruct : Fld := ⟨525, .pmu, 0x101000, 0x2000, 256, 0x8, 16, 0, 4, .rw, .val 0⟩

/-- Table PERF-7, 0x10_1000 + 0x2000c + 8j [13:4] RW: PMU.THRCTLj.N. Threshold. -/
def Reg.pmuThrctlN : Fld := ⟨526, .pmu, 0x101000, 0x2000, 256, 0x8, 16, 4, 10, .rw, .val 0⟩

/-- Table PERF-7, 0x10_1000 + 0x2000c + 8j [14] RW: PMU.THRCTLj.EN. Counting enabled. -/
def Reg.pmuThrctlEn : Fld := ⟨527, .pmu, 0x101000, 0x2000, 256, 0x8, 16, 14, 1, .rw, .val 0⟩

/-- Table PERF-7, 0x10_1080 + 0x2000c [7:0] RW: PMU.SAMPVEC. Sampling vector. -/
def Reg.pmuSampvec : Fld := ⟨528, .pmu, 0x101080, 0x2000, 256, 0x0, 1, 0, 8, .rw, .val 0xf3⟩

/-- Table PERF-7, 0x10_1080 + 0x2000c [8] RW: PMU.GUESTOK. Guests may read PMDATA (R577). -/
def Reg.pmuGuestok : Fld := ⟨529, .pmu, 0x101080, 0x2000, 256, 0x0, 1, 8, 1, .rw, .val 0⟩

/-- Table PERF-7, 0x10_1100 + 0x2000c + 0x20j [8:0] RW: PMU.SAMPCTLj.EVENT. Watched event. -/
def Reg.pmuSampctlEvent : Fld := ⟨530, .pmu, 0x101100, 0x2000, 256, 0x20, 4, 0, 9, .rw, .val 0⟩

/-- Table PERF-7, 0x10_1100 + 0x2000c + 0x20j [14:9] RW: PMU.SAMPCTLj.PERIOD. log2 of the period; values below 8 act as 8, above 48 as 48. -/
def Reg.pmuSampctlPeriod : Fld := ⟨531, .pmu, 0x101100, 0x2000, 256, 0x20, 4, 9, 6, .rw, .val 0x30⟩

/-- Table PERF-7, 0x10_1100 + 0x2000c + 0x20j [15] RW: PMU.SAMPCTLj.EN. Comparator enabled. -/
def Reg.pmuSampctlEn : Fld := ⟨532, .pmu, 0x101100, 0x2000, 256, 0x20, 4, 15, 1, .rw, .val 0⟩

/-- Table PERF-7, 0x10_1108 + 0x2000c + 0x20j [56:0] RO: PMU.SAMPj.PC. Captured pc. -/
def Reg.pmuSampPc : Fld := ⟨533, .pmu, 0x101108, 0x2000, 256, 0x20, 4, 0, 57, .ro, .val 0⟩

/-- Table PERF-7, 0x10_1108 + 0x2000c + 0x20j [63] W1C: PMU.SAMPj.FULL. Capture held. -/
def Reg.pmuSampFull : Fld := ⟨534, .pmu, 0x101108, 0x2000, 256, 0x20, 4, 63, 1, .w1c, .val 0⟩

/-- Table PERF-7, 0x10_1110 + 0x2000c + 0x20j [47:0] RO: PMU.SAMPj.COUNT. Captured count. -/
def Reg.pmuSampCount : Fld := ⟨535, .pmu, 0x101110, 0x2000, 256, 0x20, 4, 0, 48, .ro, .val 0⟩

/-- Table PERF-7, 0x10_1118 + 0x2000c + 0x20j [7:0] RO: PMU.SAMPj.LOST. Firings not captured; saturates. -/
def Reg.pmuSampLost : Fld := ⟨536, .pmu, 0x101118, 0x2000, 256, 0x20, 4, 0, 8, .ro, .val 0⟩

/-- Table DBUG-9, 0x10 [3:0] RO: DBG.CAP.CMPS. Comparators per core. -/
def Reg.dbgCapCmps : Fld := ⟨537, .dbg, 0x10, 0x0, 1, 0x0, 1, 0, 4, .ro, .val 8⟩

/-- Table DBUG-9, 0x10 [13:4] RO: DBG.CAP.TRACE. Trace entries per core. -/
def Reg.dbgCapTrace : Fld := ⟨538, .dbg, 0x10, 0x0, 1, 0x0, 1, 4, 10, .ro, .val 0x200⟩

/-- Table DBUG-9, 0x18 [0] RWL: DBG.CTL.EXTEN. External debug permitted (R586). -/
def Reg.dbgCtlExten : Fld := ⟨539, .dbg, 0x18, 0x0, 1, 0x0, 1, 0, 1, .rwl, .val 0⟩

/-- Table DBUG-9, 0x20 [56:3] RW: DBG.MEM.ADDR. Physical address (R592). -/
def Reg.dbgMemAddr : Fld := ⟨540, .dbg, 0x20, 0x0, 1, 0x0, 1, 3, 54, .rw, .val 0⟩

/-- Table DBUG-9, 0x28 [63:0] RW: DBG.MEM.DATA. Data. -/
def Reg.dbgMemData : Fld := ⟨541, .dbg, 0x28, 0x0, 1, 0x0, 1, 0, 64, .rw, .val 0⟩

/-- Table DBUG-9, 0x30 [0] WO: DBG.MEM.GO. Writing 1 starts the access. -/
def Reg.dbgMemGo : Fld := ⟨542, .dbg, 0x30, 0x0, 1, 0x0, 1, 0, 1, .wo, .val 0⟩

/-- Table DBUG-9, 0x30 [1] RW: DBG.MEM.WRITE. 1 write. -/
def Reg.dbgMemWrite : Fld := ⟨543, .dbg, 0x30, 0x0, 1, 0x0, 1, 1, 1, .rw, .val 0⟩

/-- Table DBUG-9, 0x30 [15:8] RO: DBG.MEM.STATUS. Table DBUG-2. -/
def Reg.dbgMemStatus : Fld := ⟨544, .dbg, 0x30, 0x0, 1, 0x0, 1, 8, 8, .ro, .val 0⟩

/-- Table DBUG-9, +0x00 [0] W1S: DBG.CORE.CTL.HALTREQ. Halt requested (R588). -/
def Reg.dbgCoreCtlHaltreq : Fld := ⟨545, .dbg, 0x10000, 0x4000, 256, 0x0, 1, 0, 1, .w1s, .val 0⟩

/-- Table DBUG-9, +0x00 [1] WO: DBG.CORE.CTL.RESUME. R590. -/
def Reg.dbgCoreCtlResume : Fld := ⟨546, .dbg, 0x10000, 0x4000, 256, 0x0, 1, 1, 1, .wo, .val 0⟩

/-- Table DBUG-9, +0x00 [2] WO: DBG.CORE.CTL.STEP. R590. -/
def Reg.dbgCoreCtlStep : Fld := ⟨547, .dbg, 0x10000, 0x4000, 256, 0x0, 1, 2, 1, .wo, .val 0⟩

/-- Table DBUG-9, +0x08 [0] RO: DBG.CORE.STAT.HALTED. Core halted. -/
def Reg.dbgCoreStatHalted : Fld := ⟨548, .dbg, 0x10008, 0x4000, 256, 0x0, 1, 0, 1, .ro, .val 0⟩

/-- Table DBUG-9, +0x08 [1] RO: DBG.CORE.STAT.HALTPEND. Halt held (R588). -/
def Reg.dbgCoreStatHaltpend : Fld := ⟨549, .dbg, 0x10008, 0x4000, 256, 0x0, 1, 1, 1, .ro, .val 0⟩

/-- Table DBUG-9, +0x08 [5:2] RO: DBG.CORE.STAT.REASON. 0 none, 1 request, 2 comparator, 3 step, 5 Exhausted. -/
def Reg.dbgCoreStatReason : Fld := ⟨550, .dbg, 0x10008, 0x4000, 256, 0x0, 1, 2, 4, .ro, .val 0⟩

/-- Table DBUG-9, +0x08 [8:6] RO: DBG.CORE.STAT.HIT. Last comparator matched. -/
def Reg.dbgCoreStatHit : Fld := ⟨551, .dbg, 0x10008, 0x4000, 256, 0x0, 1, 6, 3, .ro, .val 0⟩

/-- Table DBUG-9, +0x10 [1:0] RW: DBG.CORE.ACC.FILE. R591. -/
def Reg.dbgCoreAccFile : Fld := ⟨552, .dbg, 0x10010, 0x4000, 256, 0x0, 1, 0, 2, .rw, .val 0⟩

/-- Table DBUG-9, +0x10 [13:2] RW: DBG.CORE.ACC.INDEX. R591. -/
def Reg.dbgCoreAccIndex : Fld := ⟨553, .dbg, 0x10010, 0x4000, 256, 0x0, 1, 2, 12, .rw, .val 0⟩

/-- Table DBUG-9, +0x10 [14] RW: DBG.CORE.ACC.WRITE. 1 write. -/
def Reg.dbgCoreAccWrite : Fld := ⟨554, .dbg, 0x10010, 0x4000, 256, 0x0, 1, 14, 1, .rw, .val 0⟩

/-- Table DBUG-9, +0x10 [15] WO: DBG.CORE.ACC.GO. Writing 1 starts the access. -/
def Reg.dbgCoreAccGo : Fld := ⟨555, .dbg, 0x10010, 0x4000, 256, 0x0, 1, 15, 1, .wo, .val 0⟩

/-- Table DBUG-9, +0x10 [23:16] RO: DBG.CORE.ACC.STATUS. Table DBUG-2. -/
def Reg.dbgCoreAccStatus : Fld := ⟨556, .dbg, 0x10010, 0x4000, 256, 0x0, 1, 16, 8, .ro, .val 0⟩

/-- Table DBUG-9, +0x18 [63:0] RW: DBG.CORE.ACC.DATA. Data. -/
def Reg.dbgCoreAccData : Fld := ⟨557, .dbg, 0x10018, 0x4000, 256, 0x0, 1, 0, 64, .rw, .val 0⟩

/-- Table DBUG-9, +0x40 + 0x10j [56:0] RW: DBG.CORE.CMPj.ADDR. Address. -/
def Reg.dbgCoreCmpAddr : Fld := ⟨558, .dbg, 0x10040, 0x4000, 256, 0x10, 8, 0, 57, .rw, .val 0⟩

/-- Table DBUG-9, +0x48 + 0x10j [0] RW: DBG.CORE.CMPj.EN. Armed, when ACTION = 1. -/
def Reg.dbgCoreCmpEn : Fld := ⟨559, .dbg, 0x10048, 0x4000, 256, 0x10, 8, 0, 1, .rw, .val 0⟩

/-- Table DBUG-9, +0x48 + 0x10j [2:1] RW: DBG.CORE.CMPj.KIND. 0 fetch, 1 load, 2 store, 3 load or store. -/
def Reg.dbgCoreCmpKind : Fld := ⟨560, .dbg, 0x10048, 0x4000, 256, 0x10, 8, 1, 2, .rw, .val 0⟩

/-- Table DBUG-9, +0x48 + 0x10j [3] RW: DBG.CORE.CMPj.ACTION. 0 WATCHPOINT, 1 halt. -/
def Reg.dbgCoreCmpAction : Fld := ⟨561, .dbg, 0x10048, 0x4000, 256, 0x10, 8, 3, 1, .rw, .val 0⟩

/-- Table DBUG-9, +0x48 + 0x10j [8:4] RW: DBG.CORE.CMPj.MASK. Low address bits ignored, 0–31. -/
def Reg.dbgCoreCmpMask : Fld := ⟨562, .dbg, 0x10048, 0x4000, 256, 0x10, 8, 4, 5, .rw, .val 0⟩

/-- Table DBUG-9, +0x48 + 0x10j [9] RW: DBG.CORE.CMPj.DOMEN. Match DOMAIN only. -/
def Reg.dbgCoreCmpDomen : Fld := ⟨563, .dbg, 0x10048, 0x4000, 256, 0x10, 8, 9, 1, .rw, .val 0⟩

/-- Table DBUG-9, +0x48 + 0x10j [31:16] RW: DBG.CORE.CMPj.DOMAIN. Domain ID. -/
def Reg.dbgCoreCmpDomain : Fld := ⟨564, .dbg, 0x10048, 0x4000, 256, 0x10, 8, 16, 16, .rw, .val 0⟩

/-- Table DBUG-9, +0x100 [0] RW: DBG.CORE.TRCTL.EN. Tracing enabled. -/
def Reg.dbgCoreTrctlEn : Fld := ⟨565, .dbg, 0x10100, 0x4000, 256, 0x0, 1, 0, 1, .rw, .val 0⟩

/-- Table DBUG-9, +0x100 [1] W1C: DBG.CORE.TRCTL.WRAP. Ring has wrapped. -/
def Reg.dbgCoreTrctlWrap : Fld := ⟨566, .dbg, 0x10100, 0x4000, 256, 0x0, 1, 1, 1, .w1c, .val 0⟩

/-- Table DBUG-9, +0x108 [8:0] RO: DBG.CORE.TRPTR. Next trace entry. -/
def Reg.dbgCoreTrptr : Fld := ⟨567, .dbg, 0x10108, 0x4000, 256, 0x0, 1, 0, 9, .ro, .val 0⟩

/-- Table DBUG-9, +0x2000 + 0x10i RO: DBG.CORE.TRACE. Entry i, 0–511 (Table DBUG-4). -/
def Reg.dbgCoreTrace : Fld := ⟨568, .dbg, 0x12000, 0x4000, 256, 0x8, 1024, 0, 64, .ro, .val 0⟩

/-- Table DBUG-10, 0x1010 [0] RO: PWR.MGC.STAT.I3C. 1 I3C, 0 SMBus. -/
def Reg.pwrMgcStatI3c : Fld := ⟨569, .pwr, 0x1010, 0x0, 1, 0x0, 1, 0, 1, .ro, .val 0⟩

/-- Table DBUG-10, 0x1010 [7:1] RO: PWR.MGC.STAT.DYNADDR. I3C dynamic address; 0 unassigned. -/
def Reg.pwrMgcStatDynaddr : Fld := ⟨570, .pwr, 0x1010, 0x0, 1, 0x0, 1, 1, 7, .ro, .val 0⟩

/-- Table DBUG-10, 0x1018 [11:0] RW: PWR.MGC.ASHPTR. Next entry ASH_READ returns. -/
def Reg.pwrMgcAshptr : Fld := ⟨571, .pwr, 0x1018, 0x0, 1, 0x0, 1, 0, 12, .rw, .val 0⟩

/-- Table DBUG-10, 0x1020 [0] RW: PWR.MGC.IBI.EN. In-band interrupts enabled. -/
def Reg.pwrMgcIbiEn : Fld := ⟨572, .pwr, 0x1020, 0x0, 1, 0x0, 1, 0, 1, .rw, .val 1⟩

/-- Table DBUG-10, 0x1020 [3:1] RW: PWR.MGC.IBI.MINCLASS. Lowest Ashpan class signalled. -/
def Reg.pwrMgcIbiMinclass : Fld := ⟨573, .pwr, 0x1020, 0x0, 1, 0x0, 1, 1, 3, .rw, .val 3⟩

/-- Table DBUG-10, 0x1020 [14:8] W1C: PWR.MGC.IBI.PEND. Bit r: reason r (Table DBUG-8) signalled. -/
def Reg.pwrMgcIbiPend : Fld := ⟨574, .pwr, 0x1020, 0x0, 1, 0x0, 1, 8, 7, .w1c, .val 0⟩

/-- Table DBUG-10, 0x1028 [31:0] RO: PWR.MGC.CMDS. Commands completed; saturates. -/
def Reg.pwrMgcCmds : Fld := ⟨575, .pwr, 0x1028, 0x0, 1, 0x0, 1, 0, 32, .ro, .val 0⟩

/-- Table DBUG-10, 0x1028 [63:32] RO: PWR.MGC.NACKS. Writes NACKed (R599); saturates. -/
def Reg.pwrMgcNacks : Fld := ⟨576, .pwr, 0x1028, 0x0, 1, 0x0, 1, 32, 32, .ro, .val 0⟩

/-- Fields of Table SCOP-4, part 0. -/
def regsRootSCOP40 : List Fld :=
  [Reg.rootPartno, Reg.rootStep, Reg.rootSocket, Reg.rootRewritten]

/-- Fields of Table DOMN-11, part 0. -/
def regsSecDOMN110 : List Fld :=
  [Reg.secCapVault, Reg.secCapSealed, Reg.secCapMaxinst, Reg.secCapMaxseats,
   Reg.secCapMaxassign, Reg.secPartSealed, Reg.secPartAssured, Reg.secPartMac,
   Reg.secPartNum, Reg.secReqdone, Reg.secReqfail, Reg.secMacerr,
   Reg.secQuarantine, Reg.secViStateState, Reg.secViStateSeats, Reg.secViStateBusy,
   Reg.secViWdog, Reg.secViKick, Reg.secViRestarts, Reg.secViDigest]

/-- Fields of Table EVNT-6, part 0. -/
def regsIhubEVNT60 : List Fld :=
  [Reg.ihubCapRoutes, Reg.ihubCapCores, Reg.ihubMonitor, Reg.ihubSysvecTimer,
   Reg.ihubSysvecThreadLost, Reg.ihubSysvecVaultRestarted, Reg.ihubSysvecVaultLost, Reg.ihubSysvecCoreLost,
   Reg.ihubDropMsg, Reg.ihubDropIpi, Reg.ihubLostaltCore, Reg.ihubLostaltUsed,
   Reg.ihubCoreTpri, Reg.ihubCoreCstateRpri, Reg.ihubCoreCstateExhausted, Reg.ihubCoreCstateVault,
   Reg.ihubCoreCstateDepth, Reg.ihubPend, Reg.ihubRouteVec, Reg.ihubRouteCore,
   Reg.ihubRouteSocket, Reg.ihubRouteVault, Reg.ihubRouteInstance, Reg.ihubRouteValid]

/-- Fields of Table CORE-7, part 0. -/
def regsCoreCORE70 : List Fld :=
  [Reg.coreCapGrates, Reg.coreCapEnabled, Reg.coreCapSpares, Reg.coreModeSealed,
   Reg.coreCfgL1pf, Reg.coreCfgL2pf, Reg.coreCfgHarden, Reg.coreCfgL2pfdist,
   Reg.coreStatusHardened, Reg.coreErrl1L1i, Reg.coreErrl1L1d, Reg.coreErrl2Corr,
   Reg.coreErrl2Uncorr]

/-- Fields of Table HRTH-9, part 0. -/
def regsHrthHRTH90 : List Fld :=
  [Reg.hrthCapSlices, Reg.hrthCapEnabled, Reg.hrthCapNb, Reg.hrthCapRsck,
   Reg.hrthDircfgGs, Reg.hrthMigSlice, Reg.hrthMigActive, Reg.hrthMigSrcfail,
   Reg.hrthMigRebuild, Reg.hrthMigQueued, Reg.hrthMigUnk, Reg.hrthRetireSlice,
   Reg.hrthRetireGo, Reg.hrthStatBcast, Reg.hrthStatRetries, Reg.hrthStatRscevict,
   Reg.hrthStatRecall, Reg.hrthAtomidle, Reg.hrthBucketSlice, Reg.hrthBucketMig,
   Reg.hrthBucketUnk, Reg.hrthSliceEnabled, Reg.hrthSliceRetired, Reg.hrthSliceFailed,
   Reg.hrthSliceBuckets, Reg.hrthSliceCorr, Reg.hrthSliceUncorr, Reg.hrthStripeValid,
   Reg.hrthStripeN, Reg.hrthStripeBase]

/-- Fields of Table HRTH-9, part 1. -/
def regsHrthHRTH91 : List Fld :=
  [Reg.hrthStripeShare, Reg.hrthStripeSock]

/-- Fields of Table MESH-7, part 0. -/
def regsMeshMESH70 : List Fld :=
  [Reg.meshCapCols, Reg.meshCapRows, Reg.meshCapClasses, Reg.meshCapBridges,
   Reg.meshErrHopcorr, Reg.meshErrHopretry, Reg.meshErrCrcfail, Reg.meshErrCrcpoison,
   Reg.meshErrLanerep, Reg.meshErrLastStop, Reg.meshErrLastPort, Reg.meshErrLastKind,
   Reg.meshBlwRate, Reg.meshBlwDepth, Reg.meshBlwEn, Reg.meshBlwTokens,
   Reg.meshGateRate, Reg.meshGateDepth, Reg.meshGateEn, Reg.meshGateTokens]

/-- Fields of Table MESH-8, part 0. -/
def regsArbMESH80 : List Fld :=
  [Reg.arbCommitGo, Reg.arbCommitPending, Reg.arbCommitQueued, Reg.arbStarveFlag,
   Reg.arbStarveKind, Reg.arbStarveInstance, Reg.arbStarveReq, Reg.arbStarvecnt,
   Reg.arbStintVec, Reg.arbStintCore, Reg.arbStintEn, Reg.arbMeshport,
   Reg.arbHearthq, Reg.arbL2port]

/-- Fields of Table FLUE-11, part 0. -/
def regsChimFLUE110 : List Fld :=
  [Reg.chimCapFlues, Reg.chimCapMaxsock, Reg.chimCapParts, Reg.chimTopoKind,
   Reg.chimTopoKx, Reg.chimTopoKy, Reg.chimTopoKz, Reg.chimPortmap,
   Reg.chimDiscMode, Reg.chimDiscState, Reg.chimDiscHeldoutValid, Reg.chimDiscHeldoutBy,
   Reg.chimDiscHeldoutFlue, Reg.chimCfgGo, Reg.chimCfgPending, Reg.chimCfgCode,
   Reg.chimCfgPart, Reg.chimAchkWlinkSock, Reg.chimAchkWlinkFlue, Reg.chimAchkWlinkPct,
   Reg.chimAchkWhomeSock, Reg.chimAchkWhomePct, Reg.chimSyncMaster, Reg.chimSyncDist,
   Reg.chimSyncLocked, Reg.chimSyncErrmax, Reg.chimRrActive, Reg.chimRrUnreach,
   Reg.chimRrDown, Reg.chimFwDrop]

/-- Fields of Table FLUE-11, part 1. -/
def regsChimFLUE111 : List Fld :=
  [Reg.chimFwLastSsock, Reg.chimFwLastPart, Reg.chimFwLastFlue, Reg.chimAexcStalled,
   Reg.chimAexcBcast, Reg.chimAexcOutset, Reg.chimAexcLongpath, Reg.chimOrdHeld,
   Reg.chimOrdDup, Reg.chimOrdResync, Reg.chimPartGuar, Reg.chimPartCmd,
   Reg.chimPartState, Reg.chimPartDegraded, Reg.chimPartLastcode, Reg.chimPartSockets,
   Reg.chimAset, Reg.chimGsetCore, Reg.chimGsetGate, Reg.chimAsetz,
   Reg.chimDestXyz, Reg.chimDestPort, Reg.chimDestValid, Reg.chimDestPart]

/-- Fields of Table FLUE-12, part 0. -/
def regsFlueFLUE120 : List Fld :=
  [Reg.flueCapLanes, Reg.flueStateLink, Reg.flueStateSpared, Reg.flueStatePeerSock,
   Reg.flueStatePeerFlue, Reg.flueStateRefuse, Reg.flueStateFlight, Reg.flueStateSealed,
   Reg.flueStateSleep, Reg.flueCtlEn, Reg.flueCtlRestore, Reg.flueErrFeccorr,
   Reg.flueErrFecunc, Reg.flueErrCrc, Reg.flueErrReplays, Reg.flueErrGcmfail,
   Reg.flueErrLanesw, Reg.flueErrTrains, Reg.flueLaneSymerr, Reg.flueSeqTx,
   Reg.flueSeqRx]

/-- Fields of Table MEMC-11, part 0. -/
def regsMcMEMC110 : List Fld :=
  [Reg.mcCapPresent, Reg.mcCapMod, Reg.mcCapDpc, Reg.mcCapLranks,
   Reg.mcCapDens, Reg.mcCapSpeed, Reg.mcCapGib, Reg.mcGeomRankbits,
   Reg.mcGeomRowbits, Reg.mcGeomEn, Reg.mcGeomPaired, Reg.mcTim0,
   Reg.mcTim1, Reg.mcTim2, Reg.mcTim2Refsb, Reg.mcDecWays,
   Reg.mcDecMacon, Reg.mcDecDramtop, Reg.mcSweepPeriod, Reg.mcSweepEn,
   Reg.mcSweepInit, Reg.mcSweepLaps, Reg.mcSweepPos, Reg.mcErrCorr,
   Reg.mcErrUncorr, Reg.mcErrSweepfix, Reg.mcErrLastLine, Reg.mcErrLastDev,
   Reg.mcErrLastKind, Reg.mcErrLastSweep]

/-- Fields of Table MEMC-11, part 1. -/
def regsMcMEMC111 : List Fld :=
  [Reg.mcThrMark, Reg.mcThrRow, Reg.mcMdcMiss, Reg.mcMdcWb,
   Reg.mcRefMaxpost, Reg.mcCalCount, Reg.mcArb, Reg.mcSpareReqGo,
   Reg.mcSpareReqLine, Reg.mcSpareStatUsed, Reg.mcSpareStatFull, Reg.mcSpareStatBusy,
   Reg.mcSpareStatDone, Reg.mcSpareStatPprdone, Reg.mcPprMode, Reg.mcMacrValid,
   Reg.mcMacrBase, Reg.mcMacrSize, Reg.mcSpareValid, Reg.mcSparePoisoned,
   Reg.mcSpareSc, Reg.mcSpareRank, Reg.mcSpareBank, Reg.mcSpareRow,
   Reg.mcMarkValid, Reg.mcMarkDev, Reg.mcMarkAuto, Reg.mcDevcorr]

/-- Fields of Table MEMC-12, part 0. -/
def regsRidMEMC120 : List Fld :=
  [Reg.ridCapLanes, Reg.ridCapOps, Reg.ridCapProgs, Reg.ridCapItems,
   Reg.ridCapRefer, Reg.ridCtlEn, Reg.ridStatLines, Reg.ridStatRefer,
   Reg.ridStatItems, Reg.ridStatPoison, Reg.ridStatDrains, Reg.ridOccItems,
   Reg.ridOccAssured]

/-- Fields of Table STOK-10, part 0. -/
def regsStkSTOK100 : List Fld :=
  [Reg.stkCapChannels, Reg.stkCapBuffers, Reg.stkCapSlots, Reg.stkCapOps,
   Reg.stkCtlReset, Reg.stkCtlRiddle, Reg.stkSchedQuantum, Reg.stkSchedAres,
   Reg.stkArb, Reg.stkSegBase, Reg.stkSegPages, Reg.stkPfintRoute,
   Reg.stkPfintValid, Reg.stkMboxpend, Reg.stkErrpend, Reg.stkRstdone,
   Reg.stkOccBuffree, Reg.stkOccSlotfree, Reg.stkOccReserved, Reg.stkStatDescs,
   Reg.stkStatSquashed, Reg.stkStatCellfault]

/-- Fields of Table STOK-11, part 0. -/
def regsStkSTOK110 : List Fld :=
  [Reg.stkChCfgEn, Reg.stkChCfgAssured, Reg.stkChCfgWeight, Reg.stkChCfgMaxinfl,
   Reg.stkChCfgAdu, Reg.stkChCfgVault, Reg.stkChCfgInstance, Reg.stkChXlatEn,
   Reg.stkChXlatS2, Reg.stkChXlatVmid, Reg.stkChXlatSid, Reg.stkChPtb,
   Reg.stkChPtb2, Reg.stkChKr0, Reg.stkChKr1, Reg.stkChRouteIndex,
   Reg.stkChRouteValid, Reg.stkChState, Reg.stkChErrcause, Reg.stkChInfl,
   Reg.stkChCtlReset, Reg.stkChMboxTx, Reg.stkChMboxTxbusy, Reg.stkChMboxRxpend,
   Reg.stkChMboxAck, Reg.stkChMboxTxseq, Reg.stkChMboxRxseq, Reg.stkChDone,
   Reg.stkChErrs, Reg.stkChMboxw]

/-- Fields of Table STOK-12, part 0. -/
def regsStkSTOK120 : List Fld :=
  [Reg.stkTpSqtail, Reg.stkTpSqhead, Reg.stkTpCqhead, Reg.stkTpCqtail,
   Reg.stkTpCqphase, Reg.stkTpSqsize, Reg.stkTpSqbase, Reg.stkTpCqsize,
   Reg.stkTpCqbase, Reg.stkTpStatusCq, Reg.stkTpStatusMbox, Reg.stkTpStatusResetdone,
   Reg.stkTpStatusError, Reg.stkTpStatusState, Reg.stkTpStatusErrcause, Reg.stkTpCtlReset,
   Reg.stkTpCtlIrqen, Reg.stkTpMboxTx, Reg.stkTpMboxTxbusy, Reg.stkTpMboxRxpend,
   Reg.stkTpMboxAck, Reg.stkTpMboxTxseq, Reg.stkTpMboxRxseq, Reg.stkTpMboxw]

/-- Fields of Table PCIX-4, part 0. -/
def regsPrcPCIX40 : List Fld :=
  [Reg.prcCapPorts, Reg.prcCapLanes, Reg.prcCapGen, Reg.prcCapCxl,
   Reg.prcCapIotlb, Reg.prcCfgBif, Reg.prcDevtabSize, Reg.prcDevtabBase,
   Reg.prcMsiwin, Reg.prcIoinvRid, Reg.prcIoinvAll, Reg.prcIoinvGo,
   Reg.prcIoinvDone, Reg.prcErrDmarefuse, Reg.prcErrMsidrop, Reg.prcErrMmioabort,
   Reg.prcErrPoisonin, Reg.prcEvtRoute, Reg.prcEvtValid, Reg.prcMwinBase,
   Reg.prcMwinSize]

/-- Fields of Table PCIX-5, part 0. -/
def regsPrcPCIX50 : List Fld :=
  [Reg.prcPortCtlEn, Reg.prcPortCtlMaxgen, Reg.prcPortCtlCxl, Reg.prcPortCtlAspm,
   Reg.prcPortCtlRelease, Reg.prcPortLinkGen, Reg.prcPortLinkWidth, Reg.prcPortLinkCxl,
   Reg.prcPortLinkContained, Reg.prcPortSlotPwron, Reg.prcPortSlotPwroff, Reg.prcPortSlotState,
   Reg.prcPortSlotFault, Reg.prcPortSlotReason, Reg.prcPortSlotPresent, Reg.prcPortSlotPfgroup,
   Reg.prcPortEvent, Reg.prcCxlwinValid, Reg.prcCxlwinInit, Reg.prcCxlwinWays,
   Reg.prcCxlwinPorts, Reg.prcCxlwinCode, Reg.prcCxlwinBase, Reg.prcCxlwinSize,
   Reg.prcCxlwinDpabase]

/-- Fields of Table RELY-6, part 0. -/
def regsCoreRELY60 : List Fld :=
  [Reg.coreLmapGrate, Reg.coreLmapState, Reg.coreLmapMoves, Reg.coreGmapLogical,
   Reg.coreGmapState]

/-- Fields of Table RELY-9, part 0. -/
def regsAshRELY90 : List Fld :=
  [Reg.ashCapEntries, Reg.ashCapNventries, Reg.ashCapPairs, Reg.ashRingWrptr,
   Reg.ashRingRdptr, Reg.ashSeqNext, Reg.ashOverrun, Reg.ashIntVec,
   Reg.ashIntCore, Reg.ashIntMinclass, Reg.ashIntEn, Reg.ashIntPend,
   Reg.ashCelimRate, Reg.ashCelimSupp, Reg.ashSpareLeft, Reg.ashSpareLost,
   Reg.ashSpareHandoffs, Reg.ashHandoffCore, Reg.ashHandoffGo, Reg.ashHandoffTiles,
   Reg.ashNvValid, Reg.ashNvCause, Reg.ashNvClr, Reg.ashLscfgTlim,
   Reg.ashLsMain, Reg.ashLsChecker, Reg.ashLsEn, Reg.ashLsState,
   Reg.ashLsMismatch, Reg.ashLsTransient]

/-- Fields of Table RELY-9, part 1. -/
def regsAshRELY91 : List Fld :=
  [Reg.ashEntry, Reg.ashSaved, Reg.ashSummary]

/-- Fields of Table POWR-10, part 0. -/
def regsPwrPOWR100 : List Fld :=
  [Reg.pwrCapTdpmin, Reg.pwrCapTdpmax, Reg.pwrCapFmax, Reg.pwrCapFmin,
   Reg.pwrPkgState, Reg.pwrPkgBanken, Reg.pwrPkgCmd, Reg.pwrPkgPendreq,
   Reg.pwrPkgAutorst, Reg.pwrDampTdp, Reg.pwrDampTau, Reg.pwrDampPl2,
   Reg.pwrDampTjtarget, Reg.pwrDampStatActive, Reg.pwrDampStatPkgw, Reg.pwrDampStatTjmax,
   Reg.pwrDampThrms, Reg.pwrDampEmergcnt, Reg.pwrWakeEn, Reg.pwrWakePol,
   Reg.pwrWakeEdge, Reg.pwrWakePwron, Reg.pwrWakeVec, Reg.pwrLastwakeSrc,
   Reg.pwrLastwakeIndex, Reg.pwrLastwakeValid, Reg.pwrLastwakeTime, Reg.pwrBootPc,
   Reg.pwrResetWarm, Reg.pwrResetWarmpend]

/-- Fields of Table POWR-10, part 1. -/
def regsPwrPOWR101 : List Fld :=
  [Reg.pwrResetCorerstCore, Reg.pwrResetCorerstGo, Reg.pwrUpwrStk, Reg.pwrUpwrPrc,
   Reg.pwrUpwrStatStk, Reg.pwrUpwrStatPrc, Reg.pwrUpwrRefused, Reg.pwrSaveCause,
   Reg.pwrSaveStateat, Reg.pwrSaveDone, Reg.pwrSaveSaves, Reg.pwrSaveDuration,
   Reg.pwrCoreReq, Reg.pwrCorePllen, Reg.pwrCoreSel, Reg.pwrCoreLocked,
   Reg.pwrCorePrio, Reg.pwrCoreRun, Reg.pwrCoreCur, Reg.pwrCoreCstate]

/-- Fields of Table POWR-14, part 0. -/
def regsTbasePOWR140 : List Fld :=
  [Reg.tbaseNow, Reg.tbaseOffset, Reg.tbaseSlew, Reg.tbaseSteps]

/-- Fields of Table PERF-7, part 0. -/
def regsPmuPERF70 : List Fld :=
  [Reg.pmuCapEvents, Reg.pmuCapThr, Reg.pmuCapBw, Reg.pmuCapSamp,
   Reg.pmuSnapSeq, Reg.pmuSnapTime, Reg.pmuUwrapVec, Reg.pmuUwrapCore,
   Reg.pmuUwrapEn, Reg.pmuUwrapPend, Reg.pmuHrthEvCount, Reg.pmuHrthEvWrap,
   Reg.pmuMeshEvCount, Reg.pmuMeshEvWrap, Reg.pmuFlueEvCount, Reg.pmuFlueEvWrap,
   Reg.pmuMcEvCount, Reg.pmuMcEvWrap, Reg.pmuUnitbwClass, Reg.pmuUnitbwWin,
   Reg.pmuUnitbwEn, Reg.pmuUnitbwPeakclr, Reg.pmuUnitbwLast, Reg.pmuUnitbwPeak,
   Reg.pmuStkEvCount, Reg.pmuStkEvWrap, Reg.pmuStkChEvCount, Reg.pmuStkChEvWrap,
   Reg.pmuCoreEvCount, Reg.pmuCoreEvWrap]

/-- Fields of Table PERF-7, part 1. -/
def regsPmuPERF71 : List Fld :=
  [Reg.pmuCoreThrCount, Reg.pmuCoreThrWrap, Reg.pmuCorebwClass, Reg.pmuCorebwWin,
   Reg.pmuCorebwEn, Reg.pmuCorebwPeakclr, Reg.pmuCorebwLast, Reg.pmuCorebwPeak,
   Reg.pmuThrctlStruct, Reg.pmuThrctlN, Reg.pmuThrctlEn, Reg.pmuSampvec,
   Reg.pmuGuestok, Reg.pmuSampctlEvent, Reg.pmuSampctlPeriod, Reg.pmuSampctlEn,
   Reg.pmuSampPc, Reg.pmuSampFull, Reg.pmuSampCount, Reg.pmuSampLost]

/-- Fields of Table DBUG-9, part 0. -/
def regsDbgDBUG90 : List Fld :=
  [Reg.dbgCapCmps, Reg.dbgCapTrace, Reg.dbgCtlExten, Reg.dbgMemAddr,
   Reg.dbgMemData, Reg.dbgMemGo, Reg.dbgMemWrite, Reg.dbgMemStatus,
   Reg.dbgCoreCtlHaltreq, Reg.dbgCoreCtlResume, Reg.dbgCoreCtlStep, Reg.dbgCoreStatHalted,
   Reg.dbgCoreStatHaltpend, Reg.dbgCoreStatReason, Reg.dbgCoreStatHit, Reg.dbgCoreAccFile,
   Reg.dbgCoreAccIndex, Reg.dbgCoreAccWrite, Reg.dbgCoreAccGo, Reg.dbgCoreAccStatus,
   Reg.dbgCoreAccData, Reg.dbgCoreCmpAddr, Reg.dbgCoreCmpEn, Reg.dbgCoreCmpKind,
   Reg.dbgCoreCmpAction, Reg.dbgCoreCmpMask, Reg.dbgCoreCmpDomen, Reg.dbgCoreCmpDomain,
   Reg.dbgCoreTrctlEn, Reg.dbgCoreTrctlWrap]

/-- Fields of Table DBUG-9, part 1. -/
def regsDbgDBUG91 : List Fld :=
  [Reg.dbgCoreTrptr, Reg.dbgCoreTrace]

/-- Fields of Table DBUG-10, part 0. -/
def regsPwrDBUG100 : List Fld :=
  [Reg.pwrMgcStatI3c, Reg.pwrMgcStatDynaddr, Reg.pwrMgcAshptr, Reg.pwrMgcIbiEn,
   Reg.pwrMgcIbiMinclass, Reg.pwrMgcIbiPend, Reg.pwrMgcCmds, Reg.pwrMgcNacks]

/-- Every field of a block. -/
def blkFields : Blk → List Fld
  | .root => regsRootSCOP40
  | .core => regsCoreCORE70 ++ regsCoreRELY60
  | .hrth => regsHrthHRTH90 ++ regsHrthHRTH91
  | .mesh => regsMeshMESH70
  | .arb => regsArbMESH80
  | .chim => regsChimFLUE110 ++ regsChimFLUE111
  | .flue => regsFlueFLUE120
  | .mc => regsMcMEMC110 ++ regsMcMEMC111
  | .rid => regsRidMEMC120
  | .stk => regsStkSTOK100 ++ regsStkSTOK110 ++ regsStkSTOK120
  | .prc => regsPrcPCIX40 ++ regsPrcPCIX50
  | .sec => regsSecDOMN110
  | .ash => regsAshRELY90 ++ regsAshRELY91
  | .pmu => regsPmuPERF70 ++ regsPmuPERF71
  | .pwr => regsPwrPOWR100 ++ regsPwrPOWR101 ++ regsPwrDBUG100
  | .dbg => regsDbgDBUG90 ++ regsDbgDBUG91
  | .ihub => regsIhubEVNT60
  | .tbase => regsTbasePOWR140

end Sys2Proof.Machine
end

