-- ==== Sys2Proof/Machine/Ops.lean ====
section
/-!
DEFINITION. Machine/Ops.lean: the named operations on registers, cores, the Ashpan and pending vectors that every
command is built from.
-/
namespace Sys2Proof.Machine

/-! ### Results of an operation that can raise an event -/

/-- An event about to be entered: its cause code, return and excepting addresses, data address, INFO, and the flags of
the frame's header (Table EVNT-1); `code` is the code of a TRAP. -/
structure Ev where
  cause : Nat
  rpc : Word
  epc : Word
  evaddr : Word := 0
  info : Nat := 0
  async : Bool := false
  imprecise : Bool := false
  vector : Nat := 0
  code : Nat := 0
deriving DecidableEq, Repr

/-- What an operation of a core comes to: a value and a state, an event to enter, a wait (nothing happens yet), or an
instruction left unretired in a changed state (a load from a device window, a sleep). -/
inductive Res (α : Type) where
  | ok (a : α) (s : State)
  | ev (e : Ev) (s : State)
  | stall
  | park (s : State)

/-- The rest of an operation after its first part. -/
def Res.bind {α β : Type} (r : Res α) (f : α → State → Res β) : Res β :=
  match r with
  | .ok a s => f a s
  | .ev e s => .ev e s
  | .stall => .stall
  | .park s => .park s

/-! ### Parts and places -/

/-- Enabled grates per tile (Table RELY-13). -/
def Part.perTile : Part → Nat
  | .eq256 => 32 | .eq192 => 24 | .eq128l => 16

/-- Spare grates per tile (Table RELY-13). -/
def Part.spares : Part → Nat
  | .eq256 => 2 | .eq192 => 2 | .eq128l => 1

/-- Logical cores of a part (Table SCOP-1). -/
def Part.cores (p : Part) : Nat := 8 * p.perTile

/-- Whether the part has Stoker cells, Riddles, the Vault world and lockstep (Table SCOP-1). -/
def Part.full : Part → Bool
  | .eq256 => true | .eq192 => true | .eq128l => false

/-- Flues of a part (Table SCOP-1). -/
def Part.flues : Part → Nat
  | .eq256 => 6 | .eq192 => 6 | .eq128l => 2

/-- Whether slice `n` is enabled at reset (R23, Table RELY-13; the fused-off grates of a tile are its highest, log entry 5). -/
def Part.sliceOn : Part → Nat → Bool
  | .eq128l, n => decide (n < 272 ∧ n % 34 < 17)
  | _, n => decide (n < 272)

/-- The `e`-th enabled slice, ascending (R291). -/
def Part.nthSlice : Part → Nat → Nat
  | .eq128l, e => 34 * (e / 17) + e % 17
  | _, e => e

/-- The socket of a core, cores being numbered 256 to a socket; a caching agent of a root complex is numbered from 2^20 (R492). -/
def coreSock (c : Nat) : Nat := if c < 2 ^ 20 then c / 256 else (c - 2 ^ 20) / 256

/-- Whether an agent number is one that caches lines: a core, or the CXL.cache device of port j of root complex n, numbered
2^20 + 256 * socket + 16 + 4n + j (R492). -/
def cacheAgent (c : Nat) : Bool :=
  decide (c < 2 ^ 20) || (decide (16 ≤ (c - 2 ^ 20) % 256) && decide ((c - 2 ^ 20) % 256 < 32))

/-- The CXL.cache device of a port. -/
def devAgent (k n j : Nat) : Nat := 2 ^ 20 + 256 * k + 16 + 4 * n + j

/-- The logical ID of a core within its socket. -/
def coreLog (c : Nat) : Nat := c % 256

/-- The index of a core's own registers. -/
def coreIx (c : Nat) : Ix := { sock := coreSock c, i := coreLog c }

/-! ### Control-space register fields -/

/-- The key of a field in the register table. -/
def regKey (f : Fld) (a : Ix) : Nat := f.id + 1024 * (a.sock + 1024 * (a.inst + 256 * (a.i + 8192 * a.j)))

/-- A field's value after cold reset on a socket of part `p`. -/
def fldReset (p : Part) (f : Fld) (a : Ix) : Nat :=
  match f.rst with
  | .val n => n
  | .parts x y z => match p with | .eq256 => x | .eq192 => y | .eq128l => z
  | .sid => a.sock
  | .lmapGrate => if a.i < p.cores then 34 * (a.i / p.perTile) + a.i % p.perTile else 0
  | .lmapState => if a.i < p.cores then 1 else 0
  | .gmapLogical => if a.i % 34 < p.perTile then p.perTile * (a.i / 34) + a.i % 34 else 0
  | .gmapState => if a.i % 34 < p.perTile then 1 else if a.i % 34 < p.perTile + p.spares then 2 else 0
  | .bucketSlice => match p with
      | .eq128l => if a.i < 2176 then p.nthSlice (a.i % 136) else 0
      | _ => if a.i < 4352 then a.i % 272 else 0
  | .sliceEnabled => if p.sliceOn a.i then 1 else 0
  | .sliceBuckets => if p.sliceOn a.i then 16 else 0
  | .run0 => if a.i = 0 then 1 else 0
  | .cstate0 => 0

/-- The part of socket `k` (TLV-EQ256 unless the state says otherwise, log entry 6). -/
def State.part (s : State) (k : Nat) : Part := cellGet .eq256 s.parts k

/-- A field's current value. -/
def State.rd (s : State) (f : Fld) (a : Ix) : Nat :=
  cellGet (fldReset (s.part a.sock) f a) s.regs (regKey f a)

/-- A field set by the device, cut to its width. -/
def State.wr (s : State) (f : Fld) (a : Ix) (v : Nat) : State :=
  { s with regs := cellSet (fldReset (s.part a.sock) f a) s.regs (regKey f a) (v % 2 ^ f.w) }

/-- A saturating count of a register block one higher (R530). -/
def State.bump (s : State) (f : Fld) (a : Ix) : State := s.wr f a (satInc f.w (s.rd f a))

/-- A field set when a condition holds. -/
def State.wrIf (s : State) (b : Bool) (f : Fld) (a : Ix) (v : Nat) : State := if b then s.wr f a v else s

/-- Several fields of one place set in order. -/
def State.wrs (s : State) (a : Ix) : List (Fld × Nat) → State
  | [] => s
  | (f, v) :: t => State.wrs (s.wr f a v) a t

/-- How far a slew of `n` ns has gone `d` ns after it began: 100 ppm (R388). -/
def slewed (n d : Nat) : Nat := min n (d / 10000)

/-- The socket's timebase in ns (R388, R541). -/
def State.now (s : State) (k : Nat) : Nat :=
  let t := cellGet Tb.free s.tb k
  let d := s.time - t.since
  (((s.time : Int) - t.off + slewed t.fwd d - slewed t.back d) % 2 ^ 64).toNat

/-- The next value the spec leaves open, as a number below `2 ^ w` (log entry 1). -/
def State.freeNat (s : State) (w : Nat) : Nat := (freeBits w s.free).toNat

/-- The state once one open value has been used. -/
def State.useFree (s : State) : State := { s with free := s.free + 1 }

/-- Bytes the spec leaves open. -/
def State.freeBytes (s : State) (n : Nat) : List Byte := leBytes n (s.freeNat (8 * n))

/-! ### Cores -/

/-- A core nothing has touched: its reset state, starting at the boot window of its own socket (R557, R560). -/
def coreDefault (c : Nat) : Core :=
  { Core.reset with pc := BitVec.ofNat 64 (coreSock c * 2 ^ 47 + 0x7FFFFF000000) }

/-- A core of the fabric. -/
def State.core (s : State) (c : Nat) : Core := cellGet (coreDefault c) s.cores c

/-- A core replaced. -/
def State.setCore (s : State) (c : Nat) (k : Core) : State := { s with cores := cellSet (coreDefault c) s.cores c k }

/-- A core changed. -/
def State.updCore (s : State) (c : Nat) (f : Core → Core) : State := s.setCore c (f (s.core c))

/-- A general register; g0 reads as zero (R40). -/
def Core.gr (k : Core) (r : Reg5) : Word := if r = 0 then 0 else cellGet 0 k.g r.toNat

/-- A general register written; a write to g0 is discarded (R40). -/
def Core.setG (k : Core) (r : Reg5) (v : Word) : Core := if r = 0 then k else { k with g := cellSet 0 k.g r.toNat v }

/-- A vector register (R42). -/
def Core.vr (k : Core) (r : Reg5) : Vec := cellGet 0 k.v r.toNat

/-- A vector register written. -/
def Core.setV (k : Core) (r : Reg5) (v : Vec) : Core := { k with v := cellSet 0 k.v r.toNat v }

/-- A mask register (R43). -/
def Core.mr (k : Core) (r : BitVec 3) : Word := cellGet 0 k.m r.toNat

/-- A mask register written. -/
def Core.setM (k : Core) (r : BitVec 3) (v : Word) : Core := { k with m := cellSet 0 k.m r.toNat v }

/-- System register numbers (Table SYSX-6). -/
def SR.CPUCAP0 : Nat := 0x000
/-- SR.COREID. -/
def SR.COREID : Nat := 0x004
/-- SR.REPOCH. -/
def SR.REPOCH : Nat := 0x005
/-- SR.ATOMSTAT. -/
def SR.ATOMSTAT : Nat := 0x006
/-- SR.CORECTL. -/
def SR.CORECTL : Nat := 0x010
/-- SR.FPCTL. -/
def SR.FPCTL : Nat := 0x040
/-- SR.FPSTAT. -/
def SR.FPSTAT : Nat := 0x041
/-- SR.XPC. -/
def SR.XPC : Nat := 0x042
/-- SR.VLANE. -/
def SR.VLANE : Nat := 0x043
/-- SR.AUTH. -/
def SR.AUTH : Nat := 0x080
/-- SR.KRIGHTS0. -/
def SR.KRIGHTS0 : Nat := 0x081
/-- SR.KRIGHTS1. -/
def SR.KRIGHTS1 : Nat := 0x082
/-- SR.DOMAIN. -/
def SR.DOMAIN : Nat := 0x083
/-- SR.SSP. -/
def SR.SSP : Nat := 0x084
/-- SR.EVENT_ENTRY. -/
def SR.EVENT_ENTRY : Nat := 0x0C0
/-- SR.CAUSE. -/
def SR.CAUSE : Nat := 0x0C1
/-- SR.FSP. -/
def SR.FSP : Nat := 0x0C2
/-- SR.FSLIMIT. -/
def SR.FSLIMIT : Nat := 0x0C3
/-- SR.EVENT_AUTH. -/
def SR.EVENT_AUTH : Nat := 0x0C4
/-- SR.EVENT_KEYS0. -/
def SR.EVENT_KEYS0 : Nat := 0x0C5
/-- SR.EVENT_KEYS1. -/
def SR.EVENT_KEYS1 : Nat := 0x0C6
/-- SR.EVADDR. -/
def SR.EVADDR : Nat := 0x0C7
/-- SR.PTB. -/
def SR.PTB : Nat := 0x100
/-- SR.PTB2. -/
def SR.PTB2 : Nat := 0x101
/-- SR.SID. -/
def SR.SID : Nat := 0x102
/-- SR.VMID. -/
def SR.VMID : Nat := 0x103
/-- SR.XLATCTL. -/
def SR.XLATCTL : Nat := 0x104
/-- SR.TIME. -/
def SR.TIME : Nat := 0x140
/-- SR.TCMP. -/
def SR.TCMP : Nat := 0x141
/-- SR.IPI. -/
def SR.IPI : Nat := 0x142
/-- SR.PMSEL. -/
def SR.PMSEL : Nat := 0x180
/-- SR.PMDATA. -/
def SR.PMDATA : Nat := 0x181
/-- SR.KEYREQ. -/
def SR.KEYREQ : Nat := 0x1C0
/-- SR.DBGCTL. -/
def SR.DBGCTL : Nat := 0x1C1

/-- The reset value of a system register (Table SYSX-6). -/
def srReset (n : Nat) : Word :=
  if n = SR.AUTH then 0x7FF
  else if n = SR.KRIGHTS0 then 0xFFFFFFFFFFFFFFFE
  else if n = SR.KRIGHTS1 then 0xFFFFFFFFFFFFFFFF
  else 0

/-- The core's own copy of a system register. -/
def Core.srOwn (k : Core) (n : Nat) : Word := cellGet (srReset n) k.sr n

/-- The core's own copy of a system register set. -/
def Core.setSrOwn (k : Core) (n : Nat) (v : Word) : Core := { k with sr := cellSet (srReset n) k.sr n v }

/-- The registers banked per Vault seat (Table DOMN-10). -/
def srBanked (n : Nat) : Bool :=
  [SR.SSP, SR.FSP, SR.FSLIMIT, SR.EVENT_ENTRY, SR.EVENT_AUTH, SR.EVENT_KEYS0, SR.EVENT_KEYS1, SR.PTB, SR.SID,
   SR.XLATCTL, SR.TCMP].contains n

/-- The registers with a guest copy (R245). -/
def srGuest (n : Nat) : Bool :=
  [SR.EVENT_ENTRY, SR.FSP, SR.FSLIMIT, SR.EVENT_AUTH, SR.EVENT_KEYS0, SR.EVENT_KEYS1].contains n

/-- SR.XLATCTL.GUEST in effect: set, and the core in the normal world (R245, R249). -/
def Core.guest (k : Core) : Bool := k.world.isNone && (k.srOwn SR.XLATCTL).getLsbD 2

/-- The key of a seat's banked copy of a register. -/
def seatKey (inst seat n : Nat) : Nat := (inst * 64 + seat) * 4096 + n

/-- The copy of a system register in effect: the seat's in the Vault world (R151), the guest's in a guest (R245),
otherwise the core's own. -/
def State.sr (s : State) (c n : Nat) : Word :=
  let k := s.core c
  match k.world with
  | some (i, seat) => if srBanked n then cellGet 0 s.seatSr (seatKey i seat n) else k.srOwn n
  | none => if srGuest n && k.guest then cellGet 0 k.gsr n else k.srOwn n

/-- The copy of a system register in effect, set. -/
def State.setSr (s : State) (c n : Nat) (v : Word) : State :=
  let k := s.core c
  match k.world with
  | some (i, seat) =>
    if srBanked n then { s with seatSr := cellSet 0 s.seatSr (seatKey i seat n) v } else s.setCore c (k.setSrOwn n v)
  | none =>
    if srGuest n && k.guest then s.setCore c { k with gsr := cellSet 0 k.gsr n v } else s.setCore c (k.setSrOwn n v)

/-- A bit of SR.AUTH (Table SYSX-1). -/
def State.auth (s : State) (c bit : Nat) : Bool := (s.sr c SR.AUTH).getLsbD bit

/-- The program counter of a core. -/
def State.pc (s : State) (c : Nat) : Word := (s.core c).pc

/-- A precise fault of the instruction at the core's pc (R169). -/
def faultEv (s : State) (c cause : Nat) (evaddr : Word := 0) (info : Nat := 0) : Ev :=
  { cause, rpc := s.pc c, epc := s.pc c, evaddr, info }

/-- A precise trap: the return address is the next instruction (R169). -/
def trapEv (s : State) (c cause : Nat) (next : Word) : Ev := { cause, rpc := next, epc := s.pc c }

/-- An event of the core's counters `n` higher: the low 48 bits count and bit 48 is the sticky WRAP (R569). -/
def Core.count (k : Core) (e n : Nat) : Core :=
  let x := cellGet 0 k.pmu e
  let y := x % 2 ^ 48 + n
  if k.world.isSome && e ≠ 0 && e ≠ 2 then k
  else { k with pmu := cellSet 0 k.pmu e (y % 2 ^ 48 + if y ≥ 2 ^ 48 then 2 ^ 48 else (x / 2 ^ 48) * 2 ^ 48) }

/-! ### Pending vectors (R173, R174) -/

/-- A vector made pending at a core: one bit each (R174). -/
def State.setPend (s : State) (c v : Nat) : State :=
  let a : Ix := { coreIx c with j := v / 64 }
  s.wr Reg.ihubPend a (s.rd Reg.ihubPend a ||| 2 ^ (v % 64))

/-- A pending vector cleared. -/
def State.clrPend (s : State) (c v : Nat) : State :=
  let a : Ix := { coreIx c with j := v / 64 }
  let w := s.rd Reg.ihubPend a
  s.wr Reg.ihubPend a (if w.testBit (v % 64) then w - 2 ^ (v % 64) else w)

/-- Whether a vector is pending. -/
def State.isPend (s : State) (c v : Nat) : Bool := (s.rd Reg.ihubPend { coreIx c with j := v / 64 }).testBit (v % 64)

/-- Whether a logical core exists for messages: one the part has, in use, not lost and no checker (R520, R523, Table RELY-6). -/
def State.coreThere (s : State) (k l : Nat) : Bool :=
  decide (l < (s.part k).cores) && [1, 2, 4].contains (s.rd Reg.coreLmapState { sock := k, i := l })

/-- A system source names vector `v` for logical core `l` of socket `k`: a vector below 0x10, or a core that does not exist,
is discarded and counted (R173). -/
def State.sysVector (s : State) (k l v : Nat) : State :=
  if v < 16 || !s.coreThere k l then s.bump Reg.ihubDropMsg { sock := k } else s.setPend (k * 256 + l) v

/-- The highest pending vector of a core above `lo`, searched from `n - 1` down. -/
def State.topPend (s : State) (c : Nat) (ok : Nat → Bool) : Nat → Option Nat
  | 0 => none
  | n + 1 => if ok n && s.isPend c n then some n else State.topPend s c ok n

/-! ### The management controller's reasons and the Ashpan -/

/-- A reason of Table DBUG-8 occurs: the first time since it was cleared, an in-band interrupt is raised (R601). -/
def State.mgcReason (s : State) (k r : Nat) : State :=
  let a : Ix := { sock := k }
  let p := s.rd Reg.pwrMgcIbiPend a
  if s.rd Reg.pwrMgcIbiEn a = 1 && !p.testBit r then
    { s.wr Reg.pwrMgcIbiPend a (p ||| 2 ^ r) with ibi := s.ibi ++ [(k, r)] }
  else s

/-- What an Ashpan entry says (Table RELY-2). -/
structure AshE where
  cls : Nat
  src : Nat
  inst : Nat := 0
  code : Nat
  addr : Nat := 0
  peer : Nat := 0
  part : Nat := 0
  domain : Nat := 0
  core : Nat := 0
  d4 : Nat := 0
  d5 : Nat := 0
  d6 : Nat := 0
  d7 : Nat := 0
deriving DecidableEq, Repr

/-- The entry written at WRPTR, with the ring moved on and the interrupts it raises (R505, R507, R510, R601). -/
def State.ashRaw (s : State) (k : Nat) (e : AshE) : State :=
  let a : Ix := { sock := k }
  let w := s.rd Reg.ashRingWrptr a
  let seq := s.rd Reg.ashSeqNext a
  let at' (j : Nat) : Ix := { sock := k, i := w, j := j }
  let w' := (w + 1) % 4096
  let full := w' = s.rd Reg.ashRingRdptr a
  let s := s.wr Reg.ashEntry (at' 1) (s.now k)
  let s := s.wr Reg.ashEntry (at' 2) (e.addr % 2 ^ 57)
  let s := s.wr Reg.ashEntry (at' 3)
    (e.code + e.peer * 2 ^ 16 + e.part * 2 ^ 26 + e.domain % 2 ^ 16 * 2 ^ 32 + e.core % 256 * 2 ^ 48)
  let s := s.wr Reg.ashEntry (at' 4) e.d4
  let s := s.wr Reg.ashEntry (at' 5) e.d5
  let s := s.wr Reg.ashEntry (at' 6) e.d6
  let s := s.wr Reg.ashEntry (at' 7) e.d7
  let s := s.wr Reg.ashEntry (at' 0) (seq + e.cls * 2 ^ 32 + e.src * 2 ^ 36 + e.inst * 2 ^ 48)
  let s := s.wr Reg.ashSeqNext a (if seq = 2 ^ 32 - 1 then 1 else seq + 1)
  let s := s.wr Reg.ashRingWrptr a w'
  let s := if full then (s.wr Reg.ashRingRdptr a ((s.rd Reg.ashRingRdptr a + 1) % 4096)).bump Reg.ashOverrun a else s
  let s := { s with ashTotal := cellSet 0 s.ashTotal k (cellGet 0 s.ashTotal k + 1) }
  let s :=
    if s.rd Reg.ashIntMinclass a ≤ e.cls && s.rd Reg.ashIntEn a = 1 then
      if s.rd Reg.ashIntPend a = 0 then
        (s.wr Reg.ashIntPend a 1).sysVector k (s.rd Reg.ashIntCore a) (s.rd Reg.ashIntVec a)
      else s
    else s
  if s.rd Reg.pwrMgcIbiMinclass a ≤ e.cls then s.mgcReason k 1 else s

/-- Details whose form the spec does not give left open where the unit that writes the entry states none (Table RELY-3, log entry 1): the
failing structure of a core's pipeline and L1; set, way and syndrome of an L2; array, entry and bucket of a slice. -/
def AshE.detail (e : AshE) (s : State) : AshE :=
  { e with d4 := if e.d4 = 0 && [0x01, 0x02, 0x10].contains e.src then s.freeNat 64 else e.d4
           d5 := if e.d5 = 0 && [0x02, 0x10].contains e.src then s.useFree.freeNat 64 else e.d5 }

/-- A unit of socket `k` writes an entry; entries of class CE beyond the minute's limit are only counted (R509). -/
def State.ash (s : State) (k : Nat) (e : AshE) : State :=
  let e := e.detail s
  let s := s.useFree.useFree
  if e.cls = 0 then
    if cellGet 0 s.ceCount k < s.rd Reg.ashCelimRate { sock := k } then
      ({ s with ceCount := cellSet 0 s.ceCount k (cellGet 0 s.ceCount k + 1) }).ashRaw k e
    else
      { (s.bump Reg.ashCelimSupp { sock := k }) with ceSupp := cellSet 0 s.ceSupp k (cellGet 0 s.ceSupp k + 1) }
  else s.ashRaw k e

/-- The ring index the next entry of socket `k` takes. -/
def State.ashNext (s : State) (k : Nat) : Nat := s.rd Reg.ashRingWrptr { sock := k }

/-! ### Partitions -/

/-- The partition a socket's own configuration puts it in (Table FLUE-11 DEST). -/
def State.partition (s : State) (k : Nat) : Nat := s.rd Reg.chimDestPart { sock := k, i := k }

/-- Whether socket `d` is in the partition of socket `k`, as `k`'s destination table says (R625). -/
def State.samePart (s : State) (k d : Nat) : Bool :=
  k = d || (s.rd Reg.chimDestValid { sock := k, i := d } = 1 && s.rd Reg.chimDestPart { sock := k, i := d } = s.partition k)

/-- The sockets of a socket's partition, ascending. -/
def State.partSocks (s : State) (k : Nat) : List Nat := (List.range 1024).filter (s.samePart k)

/-- The lowest-numbered socket of a socket's partition. -/
def State.lowSock (s : State) (k : Nat) : Nat := (s.partSocks k).headD k

/-- Whether the socket's partition is Sealed. -/
def State.isSealed (s : State) (k : Nat) : Bool := s.rd Reg.secPartSealed { sock := k } = 1

/-- Whether the socket's partition is Assured. -/
def State.isAssured (s : State) (k : Nat) : Bool := s.rd Reg.secPartAssured { sock := k } = 1

/-- A core is hardened: Sealed partition, Vault world, or HARDEN in effect (R204). -/
def State.hardened (s : State) (c : Nat) : Bool :=
  s.isSealed (coreSock c) || (s.core c).world.isSome || (s.core c).hardenEff

/-- A recovery action begins: REPOCH one higher on every core of the partition (R280). -/
def State.repochInc (s : State) (k : Nat) : State :=
  (s.partSocks k).foldl
    (fun s d => { s with repoch := cellSet 0 s.repoch d ((cellGet 0 s.repoch d + 1) % 2 ^ 64) }) s

/-- A +1 recovery action begins at socket `k` under the number `n` (R280, Table ORDR-6). -/
def State.actBegin (s : State) (k n : Nat) : State := { (s.repochInc k) with acts := s.acts ++ [(k, n)] }

/-- A recovery action ends. -/
def State.actEnd (s : State) (k n : Nat) : State := { s with acts := s.acts.filter (fun a => decide (a ≠ (k, n))) }

/-- Whether a +1 action is in progress in the partition of socket `k` (R283). -/
def State.inAction (s : State) (k : Nat) : Bool := s.acts.any (fun a => s.samePart k a.1)

/-! ### Whether a core runs -/

/-- The logical ID exists on the part, is neither lost nor handing off, and is no checker (R209, Table RELY-6). -/
def State.coreMapped (s : State) (c : Nat) : Bool :=
  decide (coreSock c < 1024) && decide (coreLog c < (s.part (coreSock c)).cores) &&
    (s.rd Reg.coreLmapState (coreIx c) = 1 || s.rd Reg.coreLmapState (coreIx c) = 2)

/-- Whether a socket is powered and out of cold reset: 0 it is, 1 off, 2 failed, 3 held in cold reset (R528, R533-R536). -/
def State.up (s : State) (k : Nat) : Bool := cellGet 0 s.down k = 0

/-- Whether a socket runs and no hold-up save or power-down has stopped what it starts itself (Table POWR-13). -/
def State.live (s : State) (k : Nat) : Bool := s.up k && decide (s.rd Reg.pwrPkgState { sock := k } < 5)

/-- Whether the core belongs to a lockstep pair whose comparator is being tested or failed its test: its reset is held (R525).
Pairs are found by the EN fields listed in the register table. -/
def State.pairHeld (s : State) (c : Nat) : Bool :=
  let k := coreSock c
  s.regs.any (fun e =>
    let a : Ix := { sock := k, i := e.1 / 2 ^ 28 }
    decide (e.1 % 1024 = Reg.ashLsEn.id) && decide (e.1 / 2 ^ 10 % 1024 = k) && e.2 = 1 &&
      (s.rd Reg.ashLsState a = 1 || s.rd Reg.ashLsState a = 5) &&
      (s.rd Reg.ashLsMain a = coreLog c || s.rd Reg.ashLsChecker a = coreLog c))

/-- The core is out of reset: its RUN bit is set and its socket runs (R557, Table POWR-10). -/
def State.outOfReset (s : State) (c : Nat) : Bool :=
  !s.pairHeld c && s.rd Reg.pwrCoreRun (coreIx c) = 1 && s.live (coreSock c)

/-- The core is Exhausted (R167). -/
def State.exhausted (s : State) (c : Nat) : Bool := s.rd Reg.ihubCoreCstateExhausted (coreIx c) = 1

/-- The core is awake: neither Ember, Banked nor Cold. -/
def State.awake (s : State) (c : Nat) : Bool := s.rd Reg.pwrCoreCstate (coreIx c) = 0

/-- The core can execute its next instruction now: it is mapped, out of reset, awake, not Exhausted, not halted or about
to be (R588), not stopped by a hand-off or an open entry window, and waits for no device load. -/
def State.canRun (s : State) (c : Nat) : Bool :=
  s.coreMapped c && s.outOfReset c && s.awake c && !s.exhausted c &&
    s.rd Reg.dbgCoreStatHalted (coreIx c) = 0 &&
    (s.rd Reg.dbgCoreCtlHaltreq (coreIx c) = 0 || (s.core c).world.isSome) &&
    !(s.core c).frozen && (s.core c).win.isNone && (s.core c).devWait.isNone && (s.core c).wait.isNone

/-- A running logical core, as R183 defines it: out of reset, not lost, not Exhausted, not in Cold, not a checker. -/
def State.running (s : State) (c : Nat) : Bool :=
  decide (coreSock c < 1024) && s.coreThere (coreSock c) (coreLog c) && s.outOfReset c && !s.exhausted c &&
    !(s.rd Reg.pwrCoreCstate (coreIx c) = 3)

/-- The lowest-numbered running core of socket `k`, searched from logical ID `l`, for `n` IDs, leaving out `skip`. -/
def State.lowRunning (s : State) (k skip : Nat) : Nat → Nat → Option Nat
  | _, 0 => none
  | l, n + 1 => if s.running (k * 256 + l) && decide (l ≠ skip) then some l else State.lowRunning s k skip (l + 1) n

/-- A loss notification of vector `v` for the monitor core of socket `k`, about logical core `lost` (256 for none); it is
redirected, or left to its Ashpan entry and the management controller (R183). -/
def State.lossNotify (s : State) (k lost v : Nat) : State :=
  let m := s.rd Reg.ihubMonitor { sock := k }
  if s.running (k * 256 + m) && decide (m ≠ lost) then s.sysVector k m v
  else
    match s.lowRunning k lost 0 256 with
    | some l => ((s.wr Reg.ihubLostaltCore { sock := k } l).wr Reg.ihubLostaltUsed { sock := k } 1).sysVector k l v
    | none => s.mgcReason k 3

end Sys2Proof.Machine
end

