-- ==== Sys2Proof/Machine/Flags.lean ====
section
/-!
DEFINITION. Machine/Flags.lean: the arithmetic flags and their exceptions (R73, R85, R86, R88).
-/
namespace Sys2Proof.Machine

/-- Invalid operation, SR.FPSTAT bit 0. -/
def fNV : Nat := 1
/-- Division by zero. -/
def fDZ : Nat := 2
/-- Overflow. -/
def fOF : Nat := 4
/-- Underflow. -/
def fUF : Nat := 8
/-- Inexact. -/
def fNX : Nat := 16
/-- Decimal overflow. -/
def fDOF : Nat := 32

/-- The flags an instruction raised become sticky; the first enabled one since the last barrier becomes pending, with its
kind and the instruction's address (R85, R86).  With SR.CORECTL.PRECISE = 1 the instruction's retirement delivers it at once and
PKIND records nothing (R88): bit 10 carries the kind up to there, and is zero between instructions. -/
def State.raiseFlags (s : State) (c : Nat) (fl : Nat) : State :=
  let st := s.sr c SR.FPSTAT ||| BitVec.ofNat 64 fl
  let en := fl &&& natBits (s.sr c SR.FPCTL).toNat 8 3
  if en = 0 || st.getLsbD 8 then s.setSr c SR.FPSTAT st
  else if (s.sr c SR.CORECTL).getLsbD 0 then
    (s.setSr c SR.FPSTAT (st ||| 0x100 ||| (if en &&& 31 = 0 then 0x400 else 0))).setSr c SR.XPC (s.pc c)
  else
    let kind : Word := if en &&& 31 = 0 then 0x200 else 0
    (s.setSr c SR.FPSTAT ((st &&& ~~~(0x200 : Word)) ||| 0x100 ||| kind)).setSr c SR.XPC (s.pc c)

end Sys2Proof.Machine
end

