-- ==== Sys2Proof/Machine/Route.lean ====
section
/-!
DEFINITION. Machine/Route.lean: topologies and the route between two sockets, with detours round failed flues (R372-R376,
R626).

A step of a route is written 2 * dimension, plus 1 for the minus direction; 6 + n stands for flue n of a direct full
connection.
-/
namespace Sys2Proof.Machine

/-- Ring size of a dimension as socket `k` is configured (Table FLUE-11 TOPO). -/
def State.ring (s : State) (k dim : Nat) : Nat :=
  let a : Ix := { sock := k }
  (match dim with | 0 => s.rd Reg.chimTopoKx a | 1 => s.rd Reg.chimTopoKy a | _ => s.rd Reg.chimTopoKz a) + 1

/-- A coordinate of socket `d` in the table of socket `k`. -/
def State.coord (s : State) (k d dim : Nat) : Nat :=
  natBits (s.rd Reg.chimDestXyz { sock := k, i := d }) (4 * dim + 3) (4 * dim)

/-- Dimensions in use: none, none (direct), X and Y, or X, Y and Z. -/
def State.dims (s : State) (k : Nat) : List Nat :=
  match s.rd Reg.chimTopoKind { sock := k } with | 2 => [0, 1] | 3 => [0, 1, 2] | _ => []

/-- What PORTMAP says of a flue. -/
def State.portCode (s : State) (k n : Nat) : Nat := natBits (s.rd Reg.chimPortmap { sock := k }) (4 * n + 3) (4 * n)

/-- The flue of socket `k` for a step. -/
def State.portOf (s : State) (k step : Nat) : Option Nat :=
  if 6 ≤ step then some (step - 6)
  else
    (List.range 6).find? (fun n =>
      let c := s.portCode k n
      c = 3 * (step / 2) + 1 + step % 2 || c = 3 * (step / 2) + 3)

/-- The socket that stands at a socket's neighbour position in a step's direction, if any. -/
def State.nbr (s : State) (k step : Nat) : Option Nat :=
  if 6 ≤ step then
    if s.rd Reg.flueStateLink { sock := k, inst := step - 6 } = 0 then none
    else some (s.rd Reg.flueStatePeerSock { sock := k, inst := step - 6 })
  else
    let want (d : Nat) : Nat :=
      let x := s.coord k k d
      if d = step / 2 then (if step % 2 = 0 then (x + 1) % s.ring k d else (x + s.ring k d - 1) % s.ring k d) else x
    (List.range 1024).find? (fun d => decide (d ≠ k) && s.rd Reg.chimDestValid { sock := k, i := d } = 1 &&
      [0, 1, 2].all (fun e => s.coord k d e = want e))

/-- Whether socket `v` knows the flue that socket `k` uses for a step to have failed, at either end; a direction with no
neighbour counts as failed (R376, R626). -/
def State.stepDown (s : State) (v k step : Nat) : Bool :=
  match s.portOf k step, s.nbr k step with
  | some n, some d =>
    let l := cellGet [] s.flueDown v
    let p := s.rd Reg.flueStatePeerSock { sock := k, inst := n } * 8 + s.rd Reg.flueStatePeerFlue { sock := k, inst := n }
    l.contains (k * 8 + n) || (decide (p / 8 = d) && l.contains p)
  | _, _ => true

/-- The step R374 chooses from socket `k` to socket `d`, before any failure. -/
def State.firstStep (s : State) (k d : Nat) : Option Nat :=
  if s.rd Reg.chimTopoKind { sock := k } = 1 then some (6 + s.rd Reg.chimDestPort { sock := k, i := d })
  else
    match (s.dims k).find? (fun e => decide (s.coord k k e ≠ s.coord k d e)) with
    | none => none
    | some e =>
      let n := s.ring k e
      let a := s.coord k k e
      let delta := (s.coord k d e + n - a) % n
      some (2 * e + (if 2 * delta < n then 0 else if n < 2 * delta then 1 else a % 2))

/-- The steps of a path, none of them down as socket `v` knows it, starting at socket `k`. -/
def State.pathUp (s : State) (v : Nat) : Nat → List Nat → Bool
  | _, [] => true
  | k, st :: t =>
    if s.stepDown v k st then false
    else match s.nbr k st with
      | some d => State.pathUp s v d t
      | none => false

/-- The opposite step. -/
def backStep (st : Nat) : Nat := if st % 2 = 0 then st + 1 else st - 1

/-- The detour round a failed step (R376): the steps to take, if there are any. -/
def State.detour (s : State) (k d st : Nat) : Option (List Nat) :=
  if 6 ≤ st then
    let via (m : Nat) : Option (List Nat) :=
      let l := (List.range 6).find? (fun n => s.rd Reg.flueStatePeerSock { sock := k, inst := n } = m &&
        decide (s.rd Reg.flueStateLink { sock := k, inst := n } ≠ 0))
      l.map (fun n => [6 + n, 6 + s.rd Reg.chimDestPort { sock := m, i := d }])
    (List.range 1024).findSome? (fun m =>
      if m = k || m = d || s.rd Reg.chimDestValid { sock := k, i := m } = 0 then none
      else (via m).bind (fun p => if s.pathUp k k p then some p else none))
  else
    let sides := ((s.dims k).filter (· ≠ st / 2)).flatMap (fun e => [2 * e, 2 * e + 1])
    match (sides.map (fun e => [e, st, backStep e])).find? (s.pathUp k k) with
    | some p => some p
    | none =>
      let n := s.ring k (st / 2)
      let a := s.coord k k (st / 2)
      let b := s.coord k d (st / 2)
      let other := backStep st
      let hops := if st % 2 = 0 then (a + n - b) % n else (b + n - a) % n
      let p := List.replicate hops other
      if s.pathUp k k p then some p else none

/-- The way a flit takes from socket `k` to socket `d`: the steps it is now bound to, and whether they are a detour; `none`
when no way is left. -/
def State.way (s : State) (k d : Nat) : Option (List Nat × Bool) :=
  match s.firstStep k d with
  | none => none
  | some st => if s.stepDown k k st then (s.detour k d st).map (fun p => (p, true)) else some ([st], false)

/-- Whether a flit from socket `k` comes to socket `d`, each socket on the way routing it as it knows the flues; at most `n`
links. -/
def State.arrives (s : State) (d : Nat) : Nat → Nat → List Nat → Bool
  | 0, k, _ => k = d
  | n + 1, k, plan =>
    if k = d then true
    else
      match plan with
      | st :: t =>
        if s.stepDown k k st then false
        else match s.nbr k st with | some k' => State.arrives s d n k' t | none => false
      | [] =>
        match s.way k d with
        | some (st :: t, _) => (match s.nbr k st with | some k' => State.arrives s d n k' t | none => false)
        | _ => false

/-- Whether socket `d` can be reached from socket `k`. -/
def State.routed (s : State) (k d : Nat) : Bool := s.arrives d 96 k []

/-- The flue directions, as socket and flue, on the route from socket `k` to socket `d` while no flue has failed. -/
def State.routeFlues (s : State) (d : Nat) : Nat → Nat → List (Nat × Nat)
  | 0, _ => []
  | n + 1, k =>
    if k = d then []
    else
      match s.firstStep k d with
      | none => []
      | some st =>
        match s.portOf k st, s.nbr k st with
        | some p, some k' => (k, p) :: State.routeFlues s d n k'
        | _, _ => []

end Sys2Proof.Machine
end

