-- ==== Sys2Proof/Machine/Bellows.lean ====
section
/-!
DEFINITION. Machine/Bellows.lean: the Bellows gates: token buckets and the admission of request-class messages (R341-R343, R34,
R35), and the counts of Assured requests outside their bounds (R384, R386).
-/
namespace Sys2Proof.Machine

/-- The gate a requester's messages pass, as an index of the socket's gates (cores by logical ID, GATE k from 256): none for an
agent without one. -/
def gateOf (f : Nat) : Option Nat :=
  if f < 2 ^ 20 then some (f % 256)
  else
    let n := (f - 2 ^ 20) % 256
    if n < 12 then some (256 + n) else if 16 ≤ n && n < 32 then some (264 + (n - 16) / 4) else none

/-- A gate's RATE, DEPTH and EN. -/
def State.gateCfg (s : State) (k g : Nat) : Nat × Nat × Bool :=
  let a : Ix := { sock := k, i := if g < 256 then g else g - 256 }
  if g < 256 then (max 1 (s.rd Reg.meshBlwRate a), max 1 (s.rd Reg.meshBlwDepth a), s.rd Reg.meshBlwEn a = 1)
  else (max 1 (s.rd Reg.meshGateRate a), max 1 (s.rd Reg.meshGateDepth a), s.rd Reg.meshGateEn a = 1)

/-- How far a bucket is below full now, in 16,000ths of a token: RATE of them come in each nanosecond (R341). -/
def State.gateDebt (s : State) (k g : Nat) : Nat :=
  let d := cellGet (0, 0) s.bucketDebt (k * 512 + g)
  d.1 - (s.gateCfg k g).1 * (s.time - d.2)

/-- Whole tokens in a bucket. -/
def State.gateTokens (s : State) (k g : Nat) : Nat := ((s.gateCfg k g).2.1 * 16000 - s.gateDebt k g) / 16000

/-- One token taken. -/
def State.gateTake (s : State) (k g : Nat) : State :=
  { s with bucketDebt := cellSet (0, 0) s.bucketDebt (k * 512 + g) (s.gateDebt k g + 16000, s.time) }

/-- Whether requests of the gate wait for tokens: an Assured partition and an enabled gate (R343). -/
def State.gateShut (s : State) (k g : Nat) : Bool := s.isAssured k && (s.gateCfg k g).2.2

/-- An Assured request outside its bound, counted by its socket (R386). -/
def State.exempt (s : State) (k : Nat) (f : Fld) : State := if s.isAssured k then s.bump f { sock := k } else s

/-- Whether a home lies in the destination set of a gate (R384). -/
def State.inSet (s : State) (k g h : Nat) : Bool :=
  let j := if g < 256 then natBits (s.rd Reg.chimGsetCore { sock := k, i := g / 16 }) (4 * (g % 16) + 3) (4 * (g % 16))
    else natBits (s.rd Reg.chimGsetGate { sock := k }) (4 * (g - 256) + 3) (4 * (g - 256))
  h = k ||
    ((s.rd Reg.chimAset { sock := k, i := j, j := h / 64 }).testBit (h % 64) &&
      (!(s.rd Reg.chimAsetz { sock := k }).testBit j || s.coord k h 2 = s.coord k k 2))

/-- Whether a message of requester `f` is admitted now: at once outside an Assured partition or with the gate off, otherwise when a whole
token is there and no earlier message waits (R341-R343). -/
def State.gateOpen (s : State) (f : Nat) : Bool :=
  match gateOf f with
  | some g => !s.gateShut (coreSock f) g ||
    ((cellGet [] s.gateQ (coreSock f * 512 + g)).isEmpty && decide (s.gateTokens (coreSock f) g ≠ 0))
  | none => true

/-- A message of requester `f` towards home `h` admitted: it takes a token where its gate is shut to it, and one for a home outside the
gate's destination set is counted (R341, R384). -/
def State.gatePass (s : State) (f h : Nat) : State :=
  match gateOf f with
  | some g =>
    let k := coreSock f
    let s := if s.inSet k g h then s else s.exempt k Reg.chimAexcOutset
    if s.gateShut k g then s.gateTake k g else s
  | none => s

end Sys2Proof.Machine
end

