-- ==== Sys2Proof/Machine/Predict.lean ====
section
/-!
DEFINITION. Machine/Predict.lean: branch prediction: what each control transfer is predicted to do, its checkpoint, the repair of a wrong
prediction, and what a retired transfer teaches (R211-R225).

Kinds of transfer: 0 conditional, 1 direct jump, 2 direct call, 3 indirect jump, 4 indirect call, 5 return.
-/
namespace Sys2Proof.Machine

/-- How a core looks its predictor up: whether it is hardened, the context number its entries carry, and whether that context is still
waiting for a number, so that every tagged lookup misses (R221, R222). -/
structure PView where
  hard : Bool
  ctx : Nat
  blind : Bool
deriving DecidableEq, Repr

/-- What a transfer is predicted to do (Table BRAN-2): taken or not, the target if one is predicted, whether the BTB holds the branch, the
tagged table that provided the direction. -/
structure Guess where
  taken : Bool
  target : Option Nat
  hit : Option BtbE
  provider : Option Nat
deriving DecidableEq, Repr

/-- The history length of a tagged table (Table BRAN-1). -/
def tagHist : Nat → Nat
  | 0 => 5 | 1 => 9 | 2 => 15 | 3 => 26 | 4 => 44 | 5 => 76 | 6 => 130 | _ => 224

/-- The place of a branch in tagged table `t`, as a key of `Pred.tagged` (log entry 24). -/
def Pred.tagIdx (p : Pred) (t pc : Nat) : Nat := 2048 * t + (predHash t pc (p.ghist.toNat % 2 ^ tagHist t)).toNat % 2048

/-- The partial tag of a branch in tagged table `t` (log entry 24). -/
def Pred.tagOf (p : Pred) (t pc : Nat) : Nat := (predHash (8 + t) pc (p.ghist.toNat % 2 ^ tagHist t)).toNat % 8192

/-- The place of an indirect branch in the indirect target table: by PC and the last 32 directions (log entry 24). -/
def Pred.indIdx (p : Pred) (pc : Nat) : Nat := (predHash 16 pc (p.ghist.toNat % 2 ^ 32)).toNat % 2048

/-- Whether an entry's context number matches: a core that is not hardened ignores it (R221). -/
def PView.sees (v : PView) (ctx : Nat) : Bool := !v.blind && (!v.hard || (v.ctx = ctx && decide (ctx ≠ 0)))

/-- The BTB entry of the branch at `pc` (R212). -/
def Pred.btbFind (p : Pred) (v : PView) (pc : Nat) : Option BtbE :=
  p.btb.find? (fun e => e.block = pc / 32 && e.off = pc % 32 / 2 && v.sees e.ctx)

/-- The tagged entry of the branch at `pc` in table `t`, if its tag and context match. -/
def Pred.tagFind (p : Pred) (v : PView) (pc t : Nat) : Option TagE :=
  match cellGet none p.tagged (p.tagIdx t pc) with
  | some e => if e.tag = p.tagOf t pc && v.sees e.ctx then some e else none
  | none => none

/-- The predicted direction of a conditional branch and the tagged table it comes from: the longest history that matches, else the base
table; while its context is being swept, taken exactly when backward (R211, R222). -/
def Pred.dir (p : Pred) (v : PView) (pc target : Nat) : Bool × Option Nat :=
  if v.blind then (decide (target < pc), none)
  else
    match [7, 6, 5, 4, 3, 2, 1, 0].find? (fun t => (p.tagFind v pc t).isSome) with
    | some t => (match p.tagFind v pc t with | some e => decide (4 ≤ e.ctr) | none => false, some t)
    | none => (decide (2 ≤ cellGet 0 p.base (natBits pc 14 1)), none)

/-- The top of the return stack, if it holds one (R214). -/
def Pred.rasTop (p : Pred) : Option Nat := if p.rcnt = 0 then none else some ((cellGet 0 p.ras p.rtop).toNat % 2 ^ 57)

/-- Table BRAN-2, with the computed target of a direct branch. -/
def Pred.guess (p : Pred) (v : PView) (kind pc target : Nat) : Guess :=
  let h := p.btbFind v pc
  let direct : Option Nat := match h with | some e => some e.target | none => some target
  match kind with
  | 0 =>
    let d := p.dir v pc target
    { taken := d.1, target := direct, hit := h, provider := d.2 }
  | 1 | 2 => { taken := true, target := direct, hit := h, provider := none }
  | 5 => { taken := p.rasTop.isSome, target := p.rasTop, hit := h, provider := none }
  | _ =>
    match h with
    | none => { taken := false, target := none, hit := none, provider := none }
    | some e =>
      let t := match cellGet none p.ind (p.indIdx pc) with
        | some x => if v.sees x.2 then x.1 else e.target
        | none => e.target
      { taken := true, target := some t, hit := h, provider := none }

/-- Whether the BTB target of a direct branch predicted taken differs from the computed one: corrected at D2 (R213). -/
def Guess.stale (g : Guess) (kind target : Nat) : Bool :=
  decide (kind < 3) && g.taken && (match g.hit with | some e => decide (e.target ≠ target) | none => false)

/-- Whether the transfer is found mispredicted when it executes (R213, R214): its direction, or the target of one that is not direct. -/
def Guess.wrong (g : Guess) (kind : Nat) (taken : Bool) (target : Nat) : Bool :=
  decide (g.taken ≠ taken) || (decide (3 ≤ kind) && decide (g.target ≠ some target))

/-- A push of a return address: the next entry becomes the top; of 64 the oldest is overwritten (R214). -/
def Pred.push (p : Pred) (ret : Nat) : Pred :=
  let i := (p.rtop + 1) % 64
  { p with ras := cellSet 0 p.ras i (BitVec.ofNat 64 ret), rtop := i, rcnt := min 64 (p.rcnt + 1) }

/-- A pop: the top index moves down by one; an empty stack stays empty (R214). -/
def Pred.pop (p : Pred) : Pred := if p.rcnt = 0 then p else { p with rtop := (p.rtop + 63) % 64, rcnt := p.rcnt - 1 }

/-- The histories and the return stack after a transfer's outcome (Table BRAN-1, R214). -/
def Pred.outcome (p : Pred) (kind : Nat) (taken : Bool) (target ret : Nat) : Pred :=
  let p : Pred :=
    { p with ghist := if kind = 0 then (p.ghist <<< 1) ||| (if taken then 1 else 0) else p.ghist
             phist := if taken then (p.phist <<< 4) ||| BitVec.ofNat 32 (natBits target 4 1) else p.phist }
  if kind = 2 || kind = 4 then p.push ret else if kind = 5 then p.pop else p

/-- What a checkpoint holds (R215). -/
def Pred.ckpt (p : Pred) : Ckpt :=
  { ghist := p.ghist, phist := p.phist, rtop := p.rtop, rcnt := p.rcnt, entry := cellGet 0 p.ras p.rtop }

/-- Histories, top index and top entry restored from a checkpoint (R216). -/
def Pred.restore (p : Pred) (k : Ckpt) : Pred :=
  { p with ghist := k.ghist, phist := k.phist, rtop := k.rtop, rcnt := k.rcnt, ras := cellSet 0 p.ras k.rtop k.entry }

/-- A flush that is no branch misprediction: histories and top index from the retirement copy, every checkpoint discarded (R215, R218). -/
def Pred.flush (p : Pred) : Pred :=
  { p with ghist := p.retired.ghist, phist := p.retired.phist, rtop := p.retired.rtop, rcnt := p.retired.rcnt, ckpts := [] }

/-- Whether a kind takes a checkpoint (R215). -/
def takesCkpt (kind : Nat) : Bool := kind = 0 || decide (3 ≤ kind)

/-- At most `n` entries of the set of fetch block `b`, the most recently used first: what is left of a list (R220). -/
def btbTrim (b : Nat) : Nat → List BtbE → List BtbE
  | _, [] => []
  | 0, e :: t => if e.block % 2048 = b % 2048 then btbTrim b 0 t else e :: btbTrim b 0 t
  | n + 1, e :: t => if e.block % 2048 = b % 2048 then e :: btbTrim b n t else e :: btbTrim b (n + 1) t

/-- The BTB after a taken transfer: an untaken-to-taken miss or a stale target makes an entry, a hit becomes the most recently used
(R220).  A context without a number writes none (R222). -/
def Pred.btbPut (p : Pred) (v : PView) (kind len pc target : Nat) : Pred :=
  if v.blind then p
  else
    let e : BtbE := { block := pc / 32, off := pc % 32 / 2, kind := kind, len := len, target := target, ctx := v.ctx }
    let l := p.btb.filter (fun x => !(x.block = e.block && x.off = e.off && v.sees x.ctx))
    { p with btb := btbTrim e.block 8 (e :: l) }

/-- A saturating counter of `w` bits moved by an outcome. -/
def ctrMove (w n : Nat) (up : Bool) : Nat := if up then satInc w n else n - 1

/-- The tagged table in which a mispredicted branch gets an entry: of those with a longer history than the provider's, one whose entry has
usefulness 0 (R219, log entry 24). -/
def Pred.allocIn (p : Pred) (pc : Nat) (provider : Option Nat) : Option Nat :=
  let from' := match provider with | some t => t + 1 | none => 0
  let l := (List.range 8).filter (fun t => decide (from' ≤ t) &&
    (match cellGet none p.tagged (p.tagIdx t pc) with | some e => e.useful = 0 | none => true))
  if l.isEmpty then none else some (nth 0 l ((predHash 17 pc p.ghist.toNat).toNat % l.length))

/-- What a retired conditional branch teaches the direction tables (R219, R221): the provider's counter and usefulness, or the base
counter when no tagged table matched; a new tagged entry after a misprediction. -/
def Pred.trainDir (p : Pred) (v : PView) (g : Guess) (pc : Nat) (taken : Bool) : Pred :=
  let right : Bool := g.taken == taken
  let q : Pred := match g.provider with
    | some t =>
      (match cellGet none p.tagged (p.tagIdx t pc) with
       | some e =>
         let e' : TagE := { e with ctr := ctrMove 3 e.ctr taken, useful := (predTrain e.useful right).toNat }
         { p with tagged := cellSet none p.tagged (p.tagIdx t pc) (some e') }
       | none => p)
    | none =>
      let i := natBits pc 14 1
      { p with base := cellSet 0 p.base i (ctrMove 2 (cellGet 0 p.base i) taken) }
  let q : Pred := { q with condRetired := q.condRetired + 1 }
  if right || v.blind then q
  else
    match p.allocIn pc g.provider with
    | none => q
    | some t =>
      let e : TagE := { ctr := if taken then 4 else 3, useful := 0, tag := p.tagOf t pc, ctx := v.ctx }
      { q with tagged := cellSet none q.tagged (p.tagIdx t pc) (some e) }

/-- What a retired indirect branch teaches the indirect target table (R219). -/
def Pred.trainInd (p : Pred) (v : PView) (pc target : Nat) : Pred :=
  if v.blind then p else { p with ind := cellSet none p.ind (p.indIdx pc) (some (target, v.ctx)) }

/-- A transfer from prediction to retirement: what was predicted, and the predictor after it.  Prediction moves the histories and the
return stack; D2 corrects a stale target from the snapshot of F1; a misprediction at X is repaired from the checkpoint and the actual
outcome applied; the checkpoint is released, the retirement copy follows, and the tables learn (R212-R220). -/
def Pred.transfer (p : Pred) (v : PView) (kind len : Nat) (taken : Bool) (pc target ret : Nat) : Guess × Pred :=
  let g := p.guess v kind pc target
  let k := p.ckpt
  let predicted := p.outcome kind g.taken (g.target.getD ret) ret
  let d2 := if g.stale kind target then (predicted.restore k).outcome kind g.taken target ret else predicted
  let held : Pred := if takesCkpt kind then { d2 with ckpts := k :: d2.ckpts } else d2
  let x := if g.wrong kind taken target then (held.restore k).outcome kind taken target ret else held
  let x : Pred := { x with ckpts := if takesCkpt kind then x.ckpts.drop 1 else x.ckpts }
  let x := if taken then x.btbPut v kind len pc target else x
  let learnt : Pred := { x with ghist := p.ghist }
  let learnt := if kind = 0 then learnt.trainDir v g pc taken else if kind = 3 || kind = 4 then learnt.trainInd v pc target else learnt
  (g, { learnt with ghist := x.ghist, retired := { x.ckpt with entry := 0 } })

/-- Whether no checkpoint is free for a transfer of this kind: it waits (R215). -/
def Pred.full (p : Pred) (kind : Nat) : Bool := takesCkpt kind && decide (96 ≤ p.ckpts.length)

/-- Every entry that carries a context number gone (R222). -/
def Pred.sweep (p : Pred) (n : Nat) : Pred :=
  { p with sweeping := none, btb := p.btb.filter (fun e => e.ctx ≠ n),
           tagged := p.tagged.filter (fun e => match e.2 with | some x => decide (x.ctx ≠ n) | none => false),
           ind := p.ind.filter (fun e => match e.2 with | some x => decide (x.2 ≠ n) | none => false) }

/-- The usefulness fields of every table halved after 512 Ki retired conditional branches (R219). -/
def Pred.decay (p : Pred) : Pred :=
  { p with condRetired := p.condRetired - 2 ^ 19
           tagged := p.tagged.map (fun e => (e.1, e.2.map (fun x => { x with useful := x.useful / 2 }))) }

/-- Every return-stack entry invalid (R223). -/
def Pred.clearRas (p : Pred) : Pred :=
  { p with ras := [], rtop := 0, rcnt := 0, retired := { p.retired with rtop := 0, rcnt := 0 } }

end Sys2Proof.Machine
end

