-- ==== Sys2Proof/Machine/Coh.lean ====
section
/-!
DEFINITION. Machine/Coh.lean: what a physical address names, and the copies of a line: the L2 states of the cores, the
directory bits, the snoop filters and the remote-sharer cache, moved as whole transactions (R286-R316).

`State.mem` holds the current value of every line, wherever its latest copy lies; `State.homeOld` holds the value still
in home memory for a line whose latest data is in a cache (log entry 7).
-/
namespace Sys2Proof.Machine

/-! ### What an address names -/

/-- What a physical address names, seen from a requesting socket. -/
inductive Tgt where
  /-- DRAM of socket `h` at window offset `off` (the backing offset inside a stripe region). -/
  | dram (h off : Nat)
  /-- CXL memory of socket `h`, root complex `n`. -/
  | cxl (h n : Nat)
  /-- The boot window of socket `k` (R560). -/
  | boot (k : Nat)
  /-- Control space of socket `k` at `off` (R5). -/
  | ctl (k off : Nat)
  /-- A root-complex memory window. -/
  | dev (k n : Nat)
  /-- No memory (R294, R403), home socket `h`. -/
  | hole (h : Nat)
  /-- Refused at the source: home outside the partition (R625). -/
  | refused
  /-- Home socket `h` cannot be reached, and no recovery action remains that might reach it (R285). -/
  | gone (h : Nat)
deriving DecidableEq, Repr

/-- Whether the target is memory a cache may hold. -/
def Tgt.isMem : Tgt → Bool
  | .dram _ _ => true | .cxl _ _ => true | _ => false

/-- Whether the target is device memory whatever the tables say (R234). -/
def Tgt.isDev : Tgt → Bool
  | .ctl _ _ => true | .dev _ _ => true | _ => false

/-- The home socket of a memory target. -/
def Tgt.home : Tgt → Nat
  | .dram h _ => h | .cxl h _ => h | .boot k => k | .ctl k _ => k | .dev k _ => k | .hole h => h | .refused => 0 | .gone h => h

/-- Window offset of control space (R5). -/
def ctlBase : Nat := 0x7FF000000000
/-- Window offset of the boot window (R560). -/
def bootBase : Nat := 0x7FFFFF000000
/-- One GiB. -/
def gib : Nat := 2 ^ 30

/-- Channels interleaved: 16, 8 or 4 (R402). -/
def State.ways (s : State) (h : Nat) : Nat :=
  match s.rd Reg.mcDecWays { sock := h } with
  | 1 => 8 | 2 => 4 | _ => 16

/-- Paired mode of a socket (R405). -/
def State.paired (s : State) (h : Nat) : Bool := s.rd Reg.mcGeomPaired { sock := h } = 1

/-- DRAMTOP in bytes (R402); no memory decodes before MC0 is in use. -/
def State.dramTop (s : State) (h : Nat) : Nat :=
  let g := s.rd Reg.mcCapGib { sock := h }
  if g = 0 || s.rd Reg.mcGeomEn { sock := h } = 0 then 0
  else
    let t := s.ways h * (g * gib - 2 ^ 20)
    if s.paired h then t / 2 else t

/-- The end of DRAM that decodes: below the metadata region when MAC is on (R403). -/
def State.dramEnd (s : State) (h : Nat) : Nat :=
  let t := s.dramTop h
  if s.rd Reg.mcDecMacon { sock := h } = 1 then t - t / 16 else t

/-- The channel a DRAM window offset lies in: blocks of 4 KiB spread by the xor of the nibbles of their number (R402). -/
def State.chanOf (s : State) (h off : Nat) : Nat :=
  let k := off / 4096
  let x := (List.range 12).foldl (fun v i => v ^^^ natBits k (4 * i + 3) (4 * i)) 0
  x % s.ways h * (16 / s.ways h)

/-- The channel-local line number of a DRAM window offset (R402). -/
def State.chanLine (s : State) (h off : Nat) : Nat := off / 4096 / s.ways h * 64 + natBits off 11 6

/-- The stripe region (as socket `k` decodes regions) that holds `pa`: home socket and backing offset (R293). -/
def State.stripeAt (s : State) (k pa : Nat) : Nat → Option (Nat × Nat)
  | 0 => none
  | r + 1 =>
    let a : Ix := { sock := k, i := r }
    let n := s.rd Reg.hrthStripeN a
    let b := s.rd Reg.hrthStripeBase a * gib
    let base := s.rd Reg.hrthStripeSock a * 2 ^ 47 + b
    let size := n * (s.rd Reg.hrthStripeShare a * gib)
    if s.rd Reg.hrthStripeValid a = 1 && decide (n ≠ 0) && decide (base ≤ pa) && decide (pa < base + size) then
      let o := pa - base
      let i := o / 4096
      some (s.rd Reg.hrthStripeSock { a with j := i % n }, b + i / n * 4096 + o % 4096)
    else State.stripeAt s k pa r

/-- Whether window offset `off` of socket `h` is only the backing of a stripe region (R294). -/
def State.backingOnly (s : State) (h off : Nat) : Nat → Bool
  | 0 => false
  | r + 1 =>
    let a : Ix := { sock := h, i := r }
    let n := s.rd Reg.hrthStripeN a
    let b := s.rd Reg.hrthStripeBase a * gib
    (s.rd Reg.hrthStripeValid a = 1 && decide (b ≤ off) && decide (off < b + s.rd Reg.hrthStripeShare a * gib) &&
      (List.range n).any (fun j => decide (j ≠ 0) && s.rd Reg.hrthStripeSock { a with j := j } = h)) ||
      State.backingOnly s h off r

/-- The root complex of socket `h` whose memory window holds `off` (Table PCIX-4 MWIN). -/
def State.mwinAt (s : State) (h off : Nat) : Nat → Option Nat
  | 0 => none
  | n + 1 =>
    let hit (w : Nat) : Bool :=
      let a : Ix := { sock := h, inst := n, i := w }
      let b := s.rd Reg.prcMwinBase a * 2 ^ 20
      decide (b ≤ off) && decide (off < b + s.rd Reg.prcMwinSize a * 2 ^ 20)
    if hit 0 || hit 1 then some n else State.mwinAt s h off n

/-- The root complex of socket `h` that maps CXL memory at `off`, and the range (R429, Table PCIX-5 CXLWIN); with MAC on the top
1/16 of the range holds MACs and does not decode (R499). -/
def State.cxlAt (s : State) (h off : Nat) : Nat → Option (Nat × Nat)
  | 0 => none
  | n + 1 =>
    let hit (r : Nat) : Bool :=
      let a : Ix := { sock := h, inst := n, i := r }
      let b := s.rd Reg.prcCxlwinBase a * gib
      let z := s.rd Reg.prcCxlwinSize a * gib
      s.rd Reg.prcCxlwinValid a = 1 && decide (b ≤ off) &&
        decide (off < b + (if s.rd Reg.mcDecMacon { sock := h } = 1 then z - z / 16 else z))
    match (List.range 8).find? hit with
    | some r => some (n, r)
    | none => State.cxlAt s h off n

/-- Whether the port behind a line of CXL range `r` is contained (R494, R496). -/
def State.cxlContained (s : State) (h off n r : Nat) : Bool :=
  let a : Ix := { sock := h, inst := n, i := r }
  let w := (off - s.rd Reg.prcCxlwinBase a * gib) / 4096 % 2 ^ (s.rd Reg.prcCxlwinWays a % 3)
  s.rd Reg.prcPortLinkContained { sock := h, inst := n, i := natBits (s.rd Reg.prcCxlwinPorts a) (2 * w + 1) (2 * w) } = 1

/-- Whether socket `k` reaches home `h`: 0 it does, 1 not while a recovery action runs, 2 not at all (R281, R285). -/
def State.reach (s : State) (k h : Nat) : Nat := cellGet 0 s.unreach (k * 1024 + h)

/-- What physical address `pa` names for a request of socket `k` (R293, R294, R402, R403, R429, R625). -/
def State.target (s : State) (k pa : Nat) : Tgt :=
  match s.stripeAt k pa 8 with
  | some (h, back) =>
    if !s.samePart k h then .refused
    else if s.reach k h = 2 then .gone h
    else if back < s.dramEnd h then .dram h back else .hole h
  | none =>
    let h := pa / 2 ^ 47
    let off := pa % 2 ^ 47
    if !s.samePart k h then .refused
    else if s.reach k h = 2 then .gone h
    else if bootBase ≤ off then .boot h
    else if ctlBase ≤ off then .ctl h (off - ctlBase)
    else
      match s.mwinAt h off 4 with
      | some n => .dev h n
      | none =>
        if s.backingOnly h off 8 then .hole h
        else if off < s.dramTop h then (if off < s.dramEnd h then .dram h off else .hole h)
        else
          match s.cxlAt h off 4 with
          | some (n, r) => if s.cxlContained h off n r then .gone h else .cxl h n
          | none => .hole h

/-- Whether `pa`, as socket `k` decodes it, lies in a metadata region that holds MACs: the top 1/16 of the DRAM of its socket, or of a CXL
range, while MAC is on (R403, R499). -/
def State.macMeta (s : State) (k pa : Nat) : Bool :=
  let x : Nat × Nat := (s.stripeAt k pa 8).getD (pa / 2 ^ 47, pa % 2 ^ 47)
  let h := x.1
  let off := x.2
  (decide (s.dramEnd h ≤ off) && decide (off < s.dramTop h)) ||
    (s.rd Reg.mcDecMacon { sock := h } = 1 && decide (s.dramTop h ≤ off) &&
      (List.range 32).any (fun j =>
        let a : Ix := { sock := h, inst := j / 8, i := j % 8 }
        let b := s.rd Reg.prcCxlwinBase a * gib
        let z := s.rd Reg.prcCxlwinSize a * gib
        s.rd Reg.prcCxlwinValid a = 1 && decide (b + (z - z / 16) ≤ off) && decide (off < b + z)))

/-- The line number of an address. -/
def lineOf (pa : Nat) : Nat := pa / 64

/-- Whether a line lies in a CXL range: until an agent writes it, it reads as poisoned (R429, R497). -/
def State.inCxl (s : State) (ln : Nat) : Bool :=
  let h := ln * 64 / 2 ^ 47
  let off := ln * 64 % 2 ^ 47
  if off < s.dramTop h || (s.stripeAt h (ln * 64) 8).isSome then false else (s.cxlAt h off 4).isSome

/-- Whether a line is poisoned (R503); `State.poison` lists the lines that differ from what a never-written line reads as. -/
def State.isPoison (s : State) (ln : Nat) : Bool := cellGet false s.poison ln != s.inCxl ln

/-- A line poisoned or cleaned. -/
def State.setPoison (s : State) (ln : Nat) (b : Bool) : State := { s with poison := cellSet false s.poison ln (b != s.inCxl ln) }

/-- The current value of a line. -/
def State.lineVal (s : State) (ln : Nat) : Vec := BitVec.ofNat 512 (memNat s.mem (ln * 64) 64)

/-- The directory bits of a line; a line the Sweep initialised holds NONE (R413). -/
def State.bits (s : State) (ln : Nat) : DirBits := cellGet .none s.dirBits ln

/-- The directory bits of a line written. -/
def State.setBits (s : State) (ln : Nat) (b : DirBits) : State := { s with dirBits := cellSet .none s.dirBits ln b }

/-! ### Slices -/

/-- The hash of an address (R289). -/
def hash16 (pa : Nat) : Nat :=
  (List.range 16).foldl
    (fun h i => h + ((natBits pa (6 + i) (6 + i) + natBits pa (22 + i) (22 + i) +
      (if i ≤ 8 then natBits pa (38 + i) (38 + i) else 0)) % 2) * 2 ^ i) 0

/-- The bucket of an address in socket `k` (R290). -/
def State.bucket (s : State) (k pa : Nat) : Nat :=
  hash16 pa % (match s.part k with | .eq128l => 2176 | _ => 4352)

/-- What the home makes of a line's bits: UNKNOWN in a bucket marked UNK (R303), NONE for OWNED bits without an owner
(R301), UNKNOWN for a poisoned line of CXL memory, whose bits are lost (R498). -/
def State.dirState (s : State) (h ln : Nat) (owned : Bool) : DirBits :=
  if s.inCxl ln && s.isPoison ln then .unknown
  else if s.rd Reg.hrthBucketUnk { sock := h, i := s.bucket h (ln * 64) } = 1 then .unknown
  else match s.bits ln with
    | .owned => if owned then .owned else .none
    | b => b

/-- The slice that serves an address in socket `k` (R291). -/
def State.sliceFor (s : State) (k pa : Nat) : Nat := s.rd Reg.hrthBucketSlice { sock := k, i := s.bucket k pa }

/-- The key of the atomic buffer of a slice. -/
def slKey (k sl : Nat) : Nat := k * 512 + sl

/-- Whether the data array of the slice that serves a line in socket `q` holds it (R286). -/
def State.inSlice (s : State) (q ln : Nat) : Bool := (cellGet [] s.sdata (slKey q (s.sliceFor q (ln * 64)))).contains ln

/-- A line out of its slice's data array in socket `q`. -/
def State.sliceDrop (s : State) (q ln : Nat) : State :=
  let key := slKey q (s.sliceFor q (ln * 64))
  { s with sdata := cellSet [] s.sdata key ((cellGet [] s.sdata key).filter (· ≠ ln)) }

/-- The lines that `p` names, by socket and line, out of every data array. -/
def State.sliceClear (s : State) (p : Nat → Nat → Bool) : State :=
  { s with sdata := (s.sdata.map (fun e => (e.1, e.2.filter (fun ln => !p (e.1 / 512) ln)))).filter (fun e => !e.2.isEmpty) }

/-- Whether a line stands in the atomic buffer of its home slice (R312). -/
def State.buffered (s : State) (h ln : Nat) : Bool := (cellGet [] s.abuf (slKey h (s.sliceFor h (ln * 64)))).contains ln

/-- A line out of every atomic buffer, its data in memory: memory is current again (R313). -/
def State.unbuffer (s : State) (h ln : Nat) : State :=
  let key := slKey h (s.sliceFor h (ln * 64))
  if s.buffered h ln then
    { (s.setBits ln .none) with
      abuf := cellSet [] s.abuf key ((cellGet [] s.abuf key).filter (· ≠ ln)),
      homeOld := cellErase s.homeOld ln }
  else s

/-! ### Regions -/

/-- Whether an abort cause is counted in SR.ATOMSTAT.ABORTS: CONFLICT, INTERRUPT, RECOVERY (R118). -/
def abortCounted (cause : Nat) : Bool := cause = 1 || cause = 8 || cause = 10

/-- A region aborted: its stores discarded, the checkpoint restored, the status in its destination, the pc after the
ATOM.BEGIN (R114, Table SYSX-8). -/
def Core.abortRegion (k : Core) (cause code : Nat) : Core :=
  match k.region with
  | none => k
  | some r =>
    let ab := if abortCounted cause then min 15 (k.aborts + 1) else k.aborts
    let st := cause + (if r.ordered then 2 ^ 8 else 0) + ab * 2 ^ 12 + code * 2 ^ 16
    let k := { k with g := r.ckG, v := r.ckV, m := r.ckM, region := none, aborts := ab, pc := r.next }
    let k := (k.setSrOwn SR.FPSTAT r.ckFpstat).setSrOwn SR.XPC r.ckXpc
    let k := { k with pred := k.pred.flush }
    ((k.setG r.dest (BitVec.ofNat 64 st)).count (167 + cause) 1).count 56 1

/-- The held lines of core `c` released, in any order: nothing else can run between (R316). -/
def State.release (s : State) (c : Nat) : State :=
  { s with held := s.held.filter (fun e => match e.2 with | some h => decide (h.holder ≠ c) | none => true) }

/-- The region of core `c` aborted, its held lines released (R114, R316). -/
def State.abortRegion (s : State) (c cause code : Nat) : State :=
  (s.release c).updCore c (fun k => k.abortRegion cause code)

/-- Whether the core's open optimistic region has the line as a member. -/
def Core.member (k : Core) (ln : Nat) : Bool :=
  match k.region with
  | some r => !r.ordered && r.lines.contains ln
  | none => false

/-- The L2 state of a line in a core. -/
def Core.l2st (k : Core) (ln : Nat) : Option L2St := cellGet none k.l2 ln

/-- The L2 state of a line set; a copy that goes takes its own poison and the L1D's copy with it (R193). -/
def Core.setL2 (k : Core) (ln : Nat) (x : Option L2St) : Core :=
  { k with l2 := cellSet none k.l2 ln x, l2bad := if x = none then k.l2bad.filter (· ≠ ln) else k.l2bad,
           l1d := if x = none then k.l1d.filter (· ≠ ln) else k.l1d }

/-- Of a list, newest first, at most `n` of those that `p` names: a set of a cache with `n` ways loses its oldest line (log entry
8). -/
def keepWays {α : Type} (p : α → Bool) : Nat → List α → List α
  | _, [] => []
  | 0, x :: t => if p x then keepWays p 0 t else x :: keepWays p 0 t
  | n + 1, x :: t => if p x then x :: keepWays p n t else x :: keepWays p (n + 1) t

/-- A line of the L2 entered in the L1D: 128 sets of 8 ways (Table CORE-2, R193). -/
def Core.fillL1d (k : Core) (ln : Nat) : Core :=
  if k.l1d.contains ln then k else { k with l1d := keepWays (fun x => x % 128 = ln % 128) 8 (ln :: k.l1d) }

/-- A snoop takes the line from the core; an optimistic region with the line aborts with CONFLICT (R118, R314). -/
def Core.snoopDrop (ln : Nat) (k : Core) : Core :=
  let k := if k.member ln then k.abortRegion 1 0 else k
  k.setL2 ln none

/-- A snoop leaves the line shared in the core; an optimistic region that held it exclusively aborts (R118). -/
def Core.snoopDown (ln : Nat) (k : Core) : Core :=
  match k.l2st ln with
  | some .E | some .M => (if k.member ln then k.abortRegion 1 0 else k).setL2 ln (some .S)
  | _ => k

/-- Every core but `c` changed. -/
def State.others (s : State) (c : Nat) (f : Core → Core) : State :=
  { s with cores := s.cores.map (fun e => if e.1 = c then e else (e.1, f e.2)) }

/-- Whether some core other than `c` holds the line, and passes `p`. -/
def State.otherHas (s : State) (c ln : Nat) (p : Nat → L2St → Bool) : Bool :=
  s.cores.any (fun e => decide (e.1 ≠ c) && (match e.2.l2st ln with | some x => p e.1 x | none => false))

/-! ### Snoop filter and remote-sharer cache -/

/-- The key of a socket's snoop-filter entry of a line. -/
def sfKey (ln k : Nat) : Nat := ln * 1024 + k

/-- A holder added: at most two precise pointers, then a tile vector (R297). -/
def Holders.add (perTile : Nat) (h : Holders) (l : Nat) : Holders :=
  match h with
  | .precise ls =>
    if ls.contains l then h
    else if ls.length < 2 then .precise (ls ++ [l])
    else .tiles ((l :: ls).foldl (fun v x => v ||| BitVec.ofNat 8 (2 ^ (x / perTile))) 0)
  | .tiles v => .tiles (v ||| BitVec.ofNat 8 (2 ^ (l / perTile)))

/-- An entry named in a structure's order of use, most recent first. -/
def useFront (l : List Nat) (x : Nat) : List Nat := x :: l.filter (· ≠ x)

/-- The caching slice records core `c` as a holder with the socket's permission (R297), its entry now the most recently used; a
CXL.cache device's slice is its root complex. -/
def State.sfAdd (s : State) (c ln : Nat) (excl : Bool) : State :=
  let k := coreSock c
  if 2 ^ 20 ≤ c then s else
  let hs := match cellGet none s.sf (sfKey ln k) with
    | some e => if excl then Holders.precise [coreLog c] else e.holders.add (s.part k).perTile (coreLog c)
    | none => Holders.precise [coreLog c]
  let u := slKey k (s.sliceFor k (ln * 64))
  { s with sf := cellSet none s.sf (sfKey ln k) (some { excl := excl, holders := hs }),
           sfUse := cellSet [] s.sfUse u (useFront (cellGet [] s.sfUse u) ln) }

/-- The snoop-filter entries of a line dropped in every socket but `k`. -/
def State.sfDropOthers (s : State) (ln k : Nat) : State :=
  { s with sf := s.sf.filter (fun e => decide (e.1 / 1024 ≠ ln ∨ e.1 = sfKey ln k)) }

/-- Permission E of a line ends in every socket: the entries stay, shared. -/
def State.sfShare (s : State) (ln : Nat) : State :=
  { s with sf := s.sf.map (fun e => if e.1 / 1024 = ln then (e.1, e.2.map (fun x => { x with excl := false })) else e) }

/-- The group of a socket under HRTH.DIRCFG.GS of the home; values 5-7 act as 4 (R299, Table HRTH-9). -/
def State.group (s : State) (h q : Nat) : Nat := q >>> (min 4 (s.rd Reg.hrthDircfgGs { sock := h }))

/-- The 4 KiB region of a line, as the remote-sharer cache names it. -/
def regionOf (ln : Nat) : Nat := ln / 64

/-- The part of home `h`'s remote-sharer cache that serves a line: that of its home slice's tile (R299). -/
def State.rscTile (s : State) (h ln : Nat) : Nat := s.sliceFor h (ln * 64) / 34

/-- The key of the region entry that covers a line. -/
def State.rscGKey (s : State) (h ln : Nat) : Nat := regionOf ln * 8 + s.rscTile h ln

/-- A line's entry of the remote-sharer cache is now the most recently used of its tile. -/
def State.rscTouch (s : State) (h ln : Nat) : State :=
  let u := h * 8 + s.rscTile h ln
  { s with rscUse := cellSet [] s.rscUse u (useFront (cellGet [] s.rscUse u) (2 * ln)) }

/-- A sharer added to the remote-sharer cache: a fifth makes the entry coarse (R299, R300). -/
def State.rscAdd (s : State) (h ln q : Nat) : State :=
  let vec (l : List Nat) : BitVec 64 := l.foldl (fun v x => v ||| BitVec.ofNat 64 (2 ^ (s.group h x % 64))) 0
  let e' : RscE := match cellGet none s.rsc ln with
    | none => .p false [q]
    | some (.p _ l) =>
      if l.contains q then .p false l else if l.length < 4 then .p false (l ++ [q]) else .c (vec (q :: l))
    | some (.c v) => .c (v ||| vec [q])
  { s.rscTouch h ln with rsc := cellSet none s.rsc ln (some e') }

/-- The remote-sharer entry of a line set to one owner, or dropped for a local owner (R301). -/
def State.rscOwn (s : State) (h ln q : Nat) : State :=
  { s.rscTouch h ln with rsc := cellSet none s.rsc ln (if q = h then none else some (.p true [q])) }

/-! ### Lines of a Sealed partition (R135-R138, R415) -/

/-- Whether socket `k` runs a Sealed partition, whose lines its memory controllers encrypt. -/
def State.sealedRuns (s : State) (k : Nat) : Bool :=
  s.isSealed k && s.rd Reg.chimPartState { sock := k, i := s.partition k } = 2

/-- Whether a line of memory of home `h` has a MAC (R137, R428, R499). -/
def State.macCovers (s : State) (t : Tgt) : Bool :=
  match t with
  | .dram h off =>
    s.rd Reg.secPartMac { sock := h } = 1 && (List.range 16).any (fun r =>
      let a : Ix := { sock := h, i := r }
      let b := s.rd Reg.mcMacrBase a * gib
      s.rd Reg.mcMacrValid a = 1 && decide (b ≤ off) && decide (off < b + s.rd Reg.mcMacrSize a * gib))
  | .cxl h _ => s.rd Reg.secPartMac { sock := h } = 1
  | _ => false

/-- Whether memory holds of a line only what its Sealed partition has not written since it started (R415). -/
def State.stale (s : State) (k ln : Nat) : Bool :=
  s.sealedRuns k && !cellGet false s.enc ln && !s.otherHas (2 ^ 21) ln (fun _ _ => true) &&
    (match s.target k (ln * 64) with | .dram _ _ | .cxl _ _ => true | _ => false)

/-- A line about to be accessed by socket `k`: one not written since its Sealed partition started decrypts to an open value, or fails its
MAC (R415). -/
def State.touch (s : State) (k ln : Nat) : State :=
  if s.stale k ln then
    let s : State := { s with enc := cellSet false s.enc ln true }
    if s.macCovers (s.target k (ln * 64)) then { s with macBad := cellSet false s.macBad ln true }
    else { s with mem := memWrite s.mem (ln * 64) ((List.range 64).map (fun i => freeBits 8 (s.free + i))), free := s.free + 64 }
  else s

/-- A line written whole under the keys of socket `k`'s partition. -/
def State.encrypted (s : State) (k ln : Nat) : State :=
  if s.sealedRuns k then { s with enc := cellSet false s.enc ln true } else s

/-- A line whose MAC does not match: poisoned, counted and reported (R138). -/
def State.macFail (s : State) (k ln : Nat) : State :=
  let t := s.target k (ln * 64)
  let h := t.home
  let ch := match t with | .dram h off => s.chanOf h off | _ => 0
  let s := ({ s with macBad := cellErase s.macBad ln }.setPoison ln true).bump Reg.secMacerr { sock := h }
  s.ash h { cls := 1, src := 0x40, inst := ch, code := 0x02, addr := ln * 64, part := s.partition h }

/-- A MAC mismatch met by a write of part of a line, which leaves the line poisoned; a line written whole matches. -/
def State.macWrite (s : State) (k ln : Nat) (whole : Bool) : State :=
  if !cellGet false s.macBad ln then s
  else if whole then { s with macBad := cellErase s.macBad ln }
  else s.macFail k ln

/-! ### Whole transactions -/

/-- Whether another core's ordered region holds the line: every request waits until its UNLOCK (R315). -/
def State.heldByOther (s : State) (c ln : Nat) : Bool :=
  match cellGet none s.held ln with
  | some h => decide (h.holder ≠ c)
  | none => false

/-- Whether core `c` holds the line with ownership. -/
def State.owns (s : State) (c ln : Nat) : Bool := (s.core c).l2st ln = some .M || (s.core c).l2st ln = some .E

/-- Whether a firewall on the way from socket `k` to its home `h` discards the requests of `k`: a socket there does not list `k` in the
partition `k` puts itself in, or the home is in another one (R381). -/
def State.fwStops (s : State) (k h : Nat) : Bool :=
  let p := s.partition k
  let lists (m : Nat) : Bool :=
    s.rd Reg.chimDestValid { sock := m, i := k } = 1 && s.rd Reg.chimDestPart { sock := m, i := k } = p
  decide (k ≠ h) && (decide (s.partition h ≠ p) ||
    (h :: (s.routeFlues h 96 k).map (·.1)).any (fun m => decide (m ≠ k) && !lists m))

/-- Whether a request of socket `k` for a line of home `h` cannot be served now: a firewall discards it and it is never answered
(R381), the line is busy at its home (R303), its
bucket is being migrated (R319), its channel or CXL range is being initialised (R413, R497), or its home is out of reach while a recovery action
runs (R281). -/
def State.homeWaits (s : State) (k h ln : Nat) : Bool :=
  (match s.target k (ln * 64) with
   | .dram h off => s.rd Reg.mcSweepInit { sock := h, inst := s.chanOf h off } = 1
   | .cxl h _ => (match s.cxlAt h (ln * 64 % 2 ^ 47) 4 with
     | some (n, r) => s.rd Reg.prcCxlwinInit { sock := h, inst := n, i := r } = 1
     | none => false)
   | _ => false) ||
  s.txns.any (fun t => t.req.ln = ln) ||
    s.rd Reg.hrthBucketMig { sock := h, i := s.bucket h (ln * 64) } = 1 ||
    s.reach k h = 1 || s.fwStops k h

/-- Whether core `c`'s socket owns the line, so that its caching slice grants ownership without the home (Table HRTH-4 RDO under E). -/
def State.sockOwns (s : State) (c ln : Nat) : Bool :=
  match cellGet none s.sf (sfKey ln (coreSock c)) with
  | some e => e.excl && decide (c < 2 ^ 20) && decide ((s.target (coreSock c) (ln * 64)).home ≠ coreSock c)
  | none => false

/-- Memory made current for a line whose copy was written home. -/
def State.wroteHome (s : State) (ln : Nat) : State := { s with homeOld := cellErase s.homeOld ln }

/-- Home memory's value becomes the line's value when no owner, buffer or transfer holds a newer one: what a request served from
memory gets. -/
def State.settle (s : State) (h ln : Nat) : State :=
  match cellGet none s.homeOld ln with
  | none => s
  | some (v, p) =>
    if s.buffered h ln || s.otherHas (2 ^ 20) ln (fun _ x => decide (x ≠ .S)) || s.txns.any (fun t => t.req.ln = ln) then s
    else { (s.setPoison ln p) with mem := memWrite s.mem (ln * 64) (leBytes 64 v.toNat), homeOld := cellErase s.homeOld ln }

/-! ### Slices as caches, and evictions (R286, R287, R296, R306) -/

/-- A holder taken out of a snoop-filter entry; a tile vector cannot forget one (R297).  The entry stays, without holders, while the
slice keeps the line. -/
def State.sfRemove (s : State) (c ln : Nat) : State :=
  let q := coreSock c
  let key := sfKey ln q
  match cellGet none s.sf key with
  | some { excl := x, holders := .precise l } =>
    let l' := l.filter (· ≠ coreLog c)
    { s with sf := cellSet none s.sf key (if l'.isEmpty && !s.inSlice q ln then none else some { excl := x, holders := .precise l' }) }
  | _ => s

/-- EV at the home from socket `q`: taken out of a P entry; with no holder left the entry goes and the bits are NONE (Table HRTH-3). -/
def State.evHome (s : State) (q ln : Nat) : State :=
  match cellGet none s.rsc ln with
  | some (.p o l) =>
    let l' := l.filter (· ≠ q)
    if !l.contains q then s
    else if l'.isEmpty then { (s.setBits ln .none) with rsc := cellErase s.rsc ln }
    else { s with rsc := cellSet none s.rsc ln (some (.p o l')) }
  | _ => s

/-- Socket `q` has lost its last copy of a line: its permission goes, and a home elsewhere is told (R306, Table HRTH-4 EV). -/
def State.lastCopy (s : State) (q ln : Nat) : State :=
  if s.inSlice q ln || s.otherHas (2 ^ 21) ln (fun d _ => decide (coreSock d = q)) then s
  else
    let s := { s with sf := cellErase s.sf (sfKey ln q) }
    match s.target q (ln * 64) with
    | .dram h _ | .cxl h _ => if h = q then s else s.evHome q ln
    | _ => s

/-- A clean line installed in the data array of its slice in socket `q` as most recently used; of 16 ways the least recently used
leaves (R286, R287). -/
def State.slicePut (s : State) (q ln : Nat) : State :=
  let key := slKey q (s.sliceFor q (ln * 64))
  let l := ln :: (cellGet [] s.sdata key).filter (· ≠ ln)
  let l' := keepWays (fun x => x % 2048 = ln % 2048) 16 l
  let s := { s with sdata := cellSet [] s.sdata key l' }
  (l.filter (fun x => !l'.contains x)).foldl (fun s x => s.lastCopy q x) s

/-- Core `c` gives a line up: modified data goes home (WB), a clean copy is notified (EV), and its slice keeps the line clean.  For a
line homed elsewhere a modified copy leaves the socket a recorded sharer (WB with KEEP = 1, Table HRTH-4); for one homed here the bits
are NONE when no other socket is recorded (Table HRTH-3). -/
def State.evict (s : State) (c ln : Nat) : State :=
  match (s.core c).l2st ln with
  | none => s
  | some x =>
    let q := coreSock c
    let h := (s.target q (ln * 64)).home
    let s := (s.gatePass c h).updCore c (fun k => k.setL2 ln none)
    if 2 ^ 20 ≤ c then
      let s := if x = .M then s.wroteHome ln else s
      if s.otherHas (2 ^ 21) ln (fun d _ => decide (coreSock d = q)) then s else if h = q then s.setBits ln .none else s.evHome q ln
    else
      let s := (s.slicePut q ln).sfRemove c ln
      let s := if x = .M then s.wroteHome ln else s
      if h = q then (if x = .S then s else (s.setBits ln .none).sfShare ln)
      else if x = .M then { (s.setBits ln .shared).sfShare ln with rsc := cellSet none s.rsc ln (some (.p false [q])) }
      else s

/-- Every line of core `c`'s L2 given up: the Cold flush, and the emptying of a core reset (R544, R557). -/
def State.flushL2 (s : State) (c : Nat) : State := ((s.core c).l2.map (·.1)).foldl (fun s ln => s.evict c ln) s

/-- Room made in core `c`'s L2 for a line: of 16 ways of its set one that no region of the core names leaves, which one being open (R189,
R315; log entry 39). -/
def State.roomL2 (s : State) (c ln : Nat) : State :=
  let k := s.core c
  let set := (k.l2.map (·.1)).filter (fun x => x % 2048 = ln % 2048)
  let mine := match k.region with | some r => r.lines | none => []
  let cand := set.filter (fun x => !mine.contains x && (cellGet none s.held x).isNone)
  if 2 ^ 20 ≤ c || set.contains ln || decide (set.length < 16) || cand.isEmpty then s
  else (s.useFree).evict c (nth 0 cand (s.freeNat 8 % cand.length))

/-- Every cached copy of a line recalled, modified data written home, the home's entries freed; bits NONE. -/
def State.recallAll (s : State) (ln h : Nat) : State :=
  let s := (s.settle h ln).unbuffer h ln
  let s := { s with cores := s.cores.map (fun (e : Nat × Core) => (e.1, Core.snoopDrop ln e.2)) }
  let s := (s.wroteHome ln).setBits ln .none
  { s.sliceClear (fun _ x => x = ln) with sf := s.sf.filter (fun e => decide (e.1 / 1024 ≠ ln)), rsc := cellErase s.rsc ln }

/-! ### Room in the snoop filters and the remote-sharer cache (R297, R300) -/

/-- A line of a cache's copies recalled from one core: an optimistic region with it aborts (R118, R297). -/
def State.recallFrom (s : State) (c ln : Nat) : State :=
  (s.updCore c (fun k => if k.member ln then k.abortRegion 1 0 else k)).evict c ln

/-- The snoop-filter entry of a line evicted from socket `q`: the line recalled from every holder (R297). -/
def State.sfEvict (s : State) (q ln : Nat) : State :=
  let cs := (s.cores.map (·.1)).filter (fun d => decide (coreSock d = q) && ((s.core d).l2st ln).isSome)
  let s := cs.foldl (fun s d => s.recallFrom d ln) s
  { s with sf := cellErase s.sf (sfKey ln q) }

/-- How many holders an entry names; a tile counts as all its cores. -/
def Holders.count (perTile : Nat) : Holders → Nat
  | .precise l => l.length
  | .tiles v => perTile * ((List.range 8).filter (fun i => v.getLsbD i)).length

/-- Of a list in order of use, most recent first, the one of `l` used least recently: an unnamed one first. -/
def leastUsed (order l : List Nat) : Option Nat :=
  match l.find? (fun x => !order.contains x) with
  | some x => some x
  | none => order.reverse.find? (fun x => l.contains x)

/-- Room made in the snoop filter of the slice that caches a line in socket `q`: of 24 entries of its set the one with the fewest
holders, and then the least recently used, is evicted (R297). -/
def State.roomSf (s : State) (q ln : Nat) : State :=
  let sl := s.sliceFor q (ln * 64)
  let set := ((s.sf.filter (fun e => e.1 % 1024 = q)).map (fun e => (e.1 / 1024, e.2))).filter
    (fun e => e.1 % 2048 = ln % 2048 && s.sliceFor q (e.1 * 64) = sl)
  let free (x : Nat) : Bool := (cellGet none s.held x).isNone && !s.txns.any (fun t => t.req.ln = x)
  let n (e : Nat × Option SfE) : Nat := match e.2 with | some x => x.holders.count (s.part q).perTile | none => 0
  let cand := set.filter (fun e => free e.1)
  let least := cand.foldl (fun m e => min m (n e)) 1024
  if set.any (fun e => e.1 = ln) || decide (set.length < 24) then s
  else match leastUsed (cellGet [] s.sfUse (slKey q sl)) ((cand.filter (fun e => n e = least)).map (·.1)) with
    | some v => s.sfEvict q v
    | none => s

/-- The entries of a set of a tile's remote-sharer cache at home `h`: the lines, and the regions as 2 * region + 1 (R299); sets are
chosen by the low bits of the line or region number (log entry 8). -/
def State.rscSet (s : State) (h tile i : Nat) : List Nat :=
  (((s.rsc.map (·.1)).filter (fun ln => ln % 2048 = i && (s.target h (ln * 64)).home = h && s.rscTile h ln = tile)).map (2 * ·)) ++
    (((s.rscG.map (·.1)).filter (fun g => g / 8 % 2048 = i && g % 8 = tile && (s.target h (g / 8 * 4096)).home = h)).map
      (fun g => 2 * (g / 8) + 1))

/-- Whether every entry of the set a line would take is held, so that its request gets RETRY (R300). -/
def State.rscFull (s : State) (h ln : Nat) : Bool :=
  let set := s.rscSet h (s.rscTile h ln) (ln % 2048)
  (cellGet none s.rsc ln).isNone && decide (16 ≤ set.length) && set.all (fun x => x % 2 = 0 && (cellGet none s.held (x / 2)).isSome)

/-- The sharers of an entry as a group vector. -/
def State.rscVec (s : State) (h : Nat) : RscE → BitVec 64
  | .p _ l => l.foldl (fun v x => v ||| BitVec.ofNat 64 (2 ^ (s.group h x % 64))) 0
  | .c v => v

/-- The entry `x` leaves the remote-sharer cache of home `h`: a region's is dropped, that of a SHARED line merged into its region's, an
OWNED line recalled from its owner (R300). -/
def State.rscEvict (s : State) (h tile x : Nat) : State :=
  let ln := x / 2
  if x % 2 = 1 then { s with rscG := cellErase s.rscG (ln * 8 + tile) }
  else
    match cellGet none s.rsc ln with
    | none => s
    | some (.p true _) => (s.recallAll ln h).bump Reg.hrthStatRecall { sock := h }
    | some e =>
      let g := s.rscGKey h ln
      let u := h * 8 + tile
      let s : State := { s with rsc := cellErase s.rsc ln, rscG := cellSet 0 s.rscG g (cellGet 0 s.rscG g ||| s.rscVec h e),
                                rscUse := cellSet [] s.rscUse u (useFront (cellGet [] s.rscUse u) (2 * regionOf ln + 1)) }
      s.bump Reg.hrthStatRscevict { sock := h }

/-- Room made in a set of 16 entries: region entries go before line entries, OWNED ones last, held ones never, and of each kind the
least recently used (R300).  A region entry that takes a place makes room for itself in the same way; at most `n` times. -/
def State.roomRscSet (h tile : Nat) : Nat → Nat → State → State
  | 0, _, s => s
  | n + 1, i, s =>
    let set := s.rscSet h tile i
    if set.length < 16 then s
    else
      let order := cellGet [] s.rscUse (h * 8 + tile)
      let line (o : Bool) : List Nat := set.filter (fun x => x % 2 = 0 && (cellGet none s.held (x / 2)).isNone &&
        (match cellGet none s.rsc (x / 2) with | some (.p true _) => o | _ => !o))
      match leastUsed order (set.filter (fun x => x % 2 = 1)) with
      | some x => s.rscEvict h tile x
      | none =>
        match leastUsed order (line false) with
        | some x =>
          let s := if cellGet 0 s.rscG (s.rscGKey h (x / 2)) = 0 then State.roomRscSet h tile n (regionOf (x / 2) % 2048) s else s
          s.rscEvict h tile x
        | none =>
          match leastUsed order (line true) with
          | some x => s.rscEvict h tile x
          | none => s

/-- Room made in the remote-sharer cache of home `h` for the entry of a line that has none. -/
def State.roomRsc (s : State) (h ln : Nat) : State :=
  match cellGet none s.rsc ln with
  | some _ => s
  | none => State.roomRscSet h (s.rscTile h ln) 4 (ln % 2048) s

/-- Room for a line in the L2 of core `c` and in the snoop filter of its caching slice. -/
def State.room (s : State) (c ln : Nat) : State := if 2 ^ 20 ≤ c then s else (s.roomL2 c ln).roomSf (coreSock c) ln

/-- Whether a write of core `c` to the line must wait: another region holds it, or the core does not own it already and its gate holds
the request (R342) or its home cannot serve it now. -/
def State.lineWaits (s : State) (c ln : Nat) : Bool :=
  let h := (s.target (coreSock c) (ln * 64)).home
  s.heldByOther c ln || (!s.owns c ln && (!s.gateOpen c ||
    (!s.sockOwns c ln && (s.homeWaits (coreSock c) h ln || (decide (coreSock c ≠ h) && s.rscFull h ln)))))

/-! ### Reads and ownership as whole transactions -/

/-- The L2 copies of a line in one socket downgraded to S by a snoop inside it; modified data goes home, and the socket is then a
recorded sharer (SNPS, R307). -/
def State.shareIn (s : State) (q h ln : Nat) : State :=
  let m := s.otherHas (2 ^ 21) ln (fun d x => decide (coreSock d = q) && decide (x = .M))
  let s := { s with cores := s.cores.map (fun e => if coreSock e.1 = q then (e.1, Core.snoopDown ln e.2) else e) }
  if !m then s
  else
    let s := (s.wroteHome ln).sfShare ln
    if h = q then s.setBits ln .none else { s.setBits ln .shared with rsc := cellSet none s.rsc ln (some (.p false [q])) }

/-- A read of core `c` that the caching slice of its socket serves (R25, Table HRTH-4): from its data array, or from another L2 of the
socket; for a line homed here, from the data array of the home slice while no cache owns it.  `none` when the request goes on to the
home. -/
def State.sliceRead (s : State) (c ln h : Nat) (mayE : Bool) : Option State :=
  let q := coreSock c
  let inL := s.inSlice q ln
  let give (s : State) (e : Bool) : State :=
    ((if inL then s.slicePut q ln else s).sfAdd c ln e).updCore c (fun k => k.setL2 ln (some (if e then .E else .S)))
  if 2 ^ 20 ≤ c || s.buffered h ln then none
  else if h = q then
    if inL && !s.homeWaits q h ln && !s.otherHas c ln (fun _ x => decide (x ≠ .S)) then some (give s false) else none
  else
    match cellGet none s.sf (sfKey ln q) with
    | none => none
    | some e =>
      let others := s.otherHas c ln (fun d _ => decide (coreSock d = q))
      if !inL && !others then none
      else some (give (s.shareIn q h ln) (mayE && e.excl && inL && !others))

/-- The socket the home takes for a line's owner, the reading core apart: of an E or M copy, or of an OWNED entry (R301). -/
def State.ownerSock (s : State) (c ln : Nat) : Option Nat :=
  match (s.cores.find? (fun (e : Nat × Core) => decide (e.1 ≠ c) && (e.2.l2st ln = some .M || e.2.l2st ln = some .E))).map (·.1) with
  | some o => some (coreSock o)
  | none => match cellGet none s.rsc ln with
    | some (.p true (k :: _)) => some k
    | _ => none

/-- Core `c` reads a line of home `h` it does not hold: served by its caching slice, or RD at the home resolved by Table HRTH-3 with E
granted by R305. -/
def State.acqShared (s : State) (c ln h : Nat) (mayE : Bool) : State :=
  match (s.core c).l2st ln with
  | some _ => s
  | none =>
    let q := coreSock c
    let s := (s.room c ln).gatePass c h
    match s.sliceRead c ln h mayE with
    | some s => s
    | none =>
      let s := if q = h then s else s.roomRsc h ln
      let s := s.settle h ln
      let hadBuf := s.buffered h ln
      let owner := s.ownerSock c ln
      let localCopy := s.inSlice h ln || s.otherHas c ln (fun d _ => coreSock d = h)
      let s := s.unbuffer h ln
      let s := match owner with
        | some _ => ((s.others c (Core.snoopDown ln)).wroteHome ln).sfShare ln
        | none => s
      let e := mayE && owner.isNone && !hadBuf && (s.dirState h ln false = .none) && !localCopy
      let s := match owner with
        | some o => if q = h && o = h then s.setBits ln .none else s.setBits ln .shared
        | none => if e then s.setBits ln .owned else if q = h then s else s.setBits ln .shared
      let s := if e then s.rscOwn h ln q
        else
          let s := match owner with
            | some o => { s with rsc := cellSet none s.rsc ln (if o = h then none else some (.p false [o])) }
            | none => s
          if q = h then s else s.rscAdd h ln q
      let s := if q = h || 2 ^ 20 ≤ c then s else s.slicePut q ln
      (s.sfAdd c ln e).updCore c (fun k => k.setL2 ln (some (if e then .E else .S)))

/-- Whether an ownership request finds sharers nobody recorded: it is resolved by broadcast (R301, R303). -/
def State.needsBcast (s : State) (h ln : Nat) : Bool :=
  match s.dirState h ln (s.otherHas (2 ^ 20) ln (fun _ x => decide (x ≠ .S))) with
  | .unknown => true
  | .shared => (cellGet none s.rsc ln).isNone && cellGet 0 s.rscG (s.rscGKey h ln) = 0
  | _ => false

/-- Core `c` holds a line modified; the poison of its copy, if any, is now the line's (R197, R504). -/
def State.toM (s : State) (c ln : Nat) : State :=
  let s := if (s.core c).l2bad.contains ln then s.setPoison ln true else s
  s.updCore c (fun k => { k.setL2 ln (some .M) with l2bad := k.l2bad.filter (· ≠ ln) })

/-- Core `c` takes a line of home `h` with ownership: every other copy goes, the bits become OWNED (Table HRTH-3). -/
def State.acqOwn (s : State) (c ln h : Nat) : State :=
  match (s.core c).l2st ln with
  | some .M => s
  | some .E => s.toM c ln
  | x =>
    let s := (if x.isNone then s.room c ln else s).gatePass c h
    let s := if coreSock c = h then s else s.roomRsc h ln
    let s := if x.isNone then s.settle h ln else s
    let s := s.unbuffer h ln
    let s := if s.needsBcast h ln then s.bump Reg.hrthStatBcast { sock := h } else s
    let s := (s.others c (Core.snoopDrop ln)).sfDropOthers ln (coreSock c)
    let s := s.sliceClear (fun _ x => x = ln)
    let s := ((s.setBits ln .owned).rscOwn h ln (coreSock c)).sfAdd c ln true
    s.toM c ln

/-- Home memory's old value kept aside before the first write to a line that only a cache then holds. -/
def State.keepOld (s : State) (ln : Nat) : State :=
  match cellGet none s.homeOld ln with
  | some _ => s
  | none => { s with homeOld := cellSet none s.homeOld ln (some (s.lineVal ln, s.isPoison ln)) }

/-! ### Hearth atomics at the home (R312, R313) -/

/-- The line taken into the atomic buffer of its home slice as most recently used; past 64 lines the least recently used
leaves (R313). -/
def State.bufferLine (s : State) (h ln : Nat) : State :=
  let key := slKey h (s.sliceFor h (ln * 64))
  let l := ln :: (cellGet [] s.abuf key).filter (· ≠ ln)
  let s := if l.length ≤ 64 then s else
    match l.getLast? with | some x => s.unbuffer h x | none => s
  { (s.setBits ln .owned) with abuf := cellSet [] s.abuf key (l.take 64) }

/-- Whether the slice that serves the line is being retired: its atomics are then written through (R313). -/
def State.writeThrough (s : State) (h ln : Nat) : Bool :=
  s.rd Reg.hrthMigActive { sock := h } = 1 && s.rd Reg.hrthMigSlice { sock := h } = s.sliceFor h (ln * 64)

/-- An operation of the home on a line: every copy recalled, the line taken into the atomic buffer, the bytes written. -/
def State.hatApply (s : State) (h ln pa : Nat) (b : List Byte) : State :=
  let s := if s.buffered h ln then s else s.recallAll ln h
  let s := (s.bufferLine h ln).keepOld ln
  let s := { s with mem := memWrite s.mem pa b }
  if s.writeThrough h ln then s.unbuffer h ln else s

/-- The result of a Hearth atomic on a value of `n` bytes (R82). -/
def hatOp (op n : Nat) (old x : Nat) : Nat :=
  let w := 8 * n
  let sg (v : Nat) : Int := if v.testBit (w - 1) then (v : Int) - 2 ^ w else v
  match op with
  | 0 => (old + x) % 2 ^ w
  | 1 => old &&& x
  | 2 => old ||| x
  | 3 => old ^^^ x
  | 4 => x
  | 5 => if sg x < sg old then x else old
  | 6 => if sg old < sg x then x else old
  | 7 => min old x
  | _ => max old x

/-! ### Maintenance by address (R96, Table HRTH-3 CMO) -/

/-- CCLEAN: modified data written home; the owner keeps a clean copy. -/
def State.cmoClean (s : State) (h ln : Nat) : State :=
  let s := (s.unbuffer h ln).wroteHome ln
  { s with cores := s.cores.map (fun (e : Nat × Core) =>
      (e.1, if e.2.l2st ln = some .M then e.2.setL2 ln (some .E) else e.2)) }

/-- CINVAL: every copy goes without being written back, and home memory's old value is the line's value. -/
def State.cmoInval (s : State) (h ln : Nat) : State :=
  let s := s.unbuffer h ln
  let old := cellGet none s.homeOld ln
  let s := s.recallAll ln h
  match old with
  | some (v, p) => { (s.setPoison ln p) with mem := memWrite s.mem (ln * 64) (leBytes 64 v.toNat) }
  | none => s

/-! ### Stores -/

/-- Whether a read of core `c` of the line must wait: another region holds it, or the core has no copy and its gate holds the request
(R342), or its caching slice does not serve it and its home cannot now (R25). -/
def State.readWaits (s : State) (c ln : Nat) : Bool :=
  let h := (s.target (coreSock c) (ln * 64)).home
  s.heldByOther c ln || (((s.core c).l2st ln).isNone && (!s.gateOpen c ||
    ((s.sliceRead c ln h true).isNone && (s.homeWaits (coreSock c) h ln || (decide (coreSock c ≠ h) && s.rscFull h ln)))))

/-- A MACHINE_CHECK made pending at core `c` for an abandoned store, with its Ashpan entry (R164, R285, R512): one already
pending keeps its place. -/
def State.abandon (s : State) (c pa src inst code kind : Nat) : State :=
  let k := coreSock c
  let idx := s.ashNext k
  let s := s.ash k { cls := 3, src := src, inst := inst, code := code, addr := lineOf pa * 64, core := coreLog c,
                     domain := ((s.core c).srOwn SR.DOMAIN).toNat % 2 ^ 16, part := s.partition k }
  s.updCore c (fun q =>
    if q.mchk.any (fun m => m.cause = 0x0304) then q
    else { q with mchk := q.mchk ++ [{ cause := 0x0304, addr := lineOf pa * 64, info := kind + 2 ^ 15 + idx * 2 ^ 16 }] })

/-- One queued store performed in the L2 with ownership (R196); `none` while another region holds the line.  A store with
no memory, or refused at its source, is abandoned (R294, R403, R625). -/
def State.performStore (s : State) (c : Nat) (e : StoreEnt) : Option State :=
  let ln := lineOf e.pa
  match s.target (coreSock c) e.pa with
  | .hole h => some (s.abandon c e.pa 0x10 (s.sliceFor h e.pa) 0x07 2)
  | .refused => some (s.abandon c e.pa 0x30 0 0x07 2)
  | .gone _ => some (s.abandon c e.pa 0x30 0 0x09 2)
  | .boot _ => some s
  | .ctl _ _ => some s
  | .dev _ _ => some s
  | t =>
    if s.lineWaits c ln then none
    else
      let s := if e.whole then s.encrypted (coreSock c) ln else s.touch (coreSock c) ln
      let s := ((s.macWrite (coreSock c) ln e.whole).acqOwn c ln t.home).keepOld ln
      let s := { s with mem := memWrite s.mem e.pa e.bytes }
      let s := if e.whole then s.setPoison ln false else s
      some (if s.rd Reg.dbgCoreStatHalted (coreIx c) = 1 then s else s.updCore c (fun k => k.count 184 1))

/-- The queue performed in program order as far as it goes, and what is left of it. -/
def State.drainList (s : State) (c : Nat) : List StoreEnt → State × List StoreEnt
  | [] => (s, [])
  | e :: t =>
    match s.performStore c e with
    | some s' => State.drainList s' c t
    | none => (s, e :: t)

/-- The queued stores of core `c` up to the last that `p` names performed in order; `none` when one must wait. -/
def State.drainTo (s : State) (c : Nat) (p : StoreEnt → Bool) : Option State :=
  let q := (s.core c).storeQ
  let n := q.length - (q.reverse.takeWhile (fun e => !p e)).length
  if n = 0 then some s
  else match s.drainList c (q.take n) with
    | (s', []) => some (s'.updCore c (fun k => { k with storeQ := q.drop n }))
    | (_, _ :: _) => none

/-- The queued stores of core `c` to one line performed, with those before them (R266, R272). -/
def State.drainLine (s : State) (c ln : Nat) : Option State := s.drainTo c (fun e => lineOf e.pa = ln)

/-- Bytes written to device memory behind which lies memory: uncached, so every copy is recalled and the home writes them (R234,
R274); `none` while the line must wait. -/
def State.uncWrite (s : State) (c pa : Nat) (b : List Byte) : Option State :=
  let ln := lineOf pa
  let h := (s.target (coreSock c) pa).home
  if s.heldByOther (2 ^ 21) ln || !s.gateOpen c || s.homeWaits (coreSock c) h ln then none
  else
    let s := (s.gatePass c h).touch (coreSock c) ln
    let s := (s.macWrite (coreSock c) ln false).recallAll ln h
    some { s with mem := memWrite s.mem pa b }

/-- Every queued store of core `c` performed; `none` when one must wait. -/
def State.drain (s : State) (c : Nat) : Option State :=
  match s.drainList c (s.core c).storeQ with
  | (s', []) => some (s'.updCore c (fun k => { k with storeQ := [] }))
  | (_, _ :: _) => none

/-- The stores of one access, one for each line it touches. -/
def splitStore (pa : Nat) (bytes : List Byte) (whole rel : Bool) : List StoreEnt :=
  let n := 64 - pa % 64
  if bytes.length ≤ n then [{ pa := pa, bytes := bytes, whole := whole, rel := rel }]
  else [{ pa := pa, bytes := bytes.take n, whole := false, rel := rel },
        { pa := pa + n, bytes := bytes.drop n, whole := false, rel := rel }]

/-- Retired stores enter the queue; past 144 the oldest are performed first (R196). -/
def State.queueStores (s : State) (c : Nat) (es : List StoreEnt) : Option State :=
  let s' := if (s.core c).storeQ.length + es.length > 144 then s.drain c else some s
  s'.map (fun s => s.updCore c (fun k => { k with storeQ := k.storeQ ++ es }))

/-- Whether a queued store writes byte `a`. -/
def StoreEnt.covers (e : StoreEnt) (a : Nat) : Bool := decide (e.pa ≤ a) && decide (a < e.pa + e.bytes.length)

/-- Byte `a` as a later load of the same core sees it: from the youngest of its queued stores that writes it, else
memory. -/
def fwdByte (m : Memory) (q : List StoreEnt) (a : Nat) : Byte :=
  match q.reverse.find? (fun e => e.covers a) with
  | some e => nth 0 e.bytes (a - e.pa)
  | none => memGet m a

/-- The stores a later load of the same core reads from first: the queue's, then the region's. -/
def Core.ownStores (k : Core) : List StoreEnt :=
  k.storeQ ++ (match k.region with | some r => r.stores | none => [])

/-- Whether a queued store writes any of `n` bytes from `a`. -/
def fwdTouches (q : List StoreEnt) (a n : Nat) : Bool :=
  q.any (fun e => decide (e.pa < a + n) && decide (a < e.pa + e.bytes.length))

end Sys2Proof.Machine
end

