-- ==== Sys2Proof/Machine/Xlat.lean ====
section
/-!
DEFINITION. Machine/Xlat.lean: address translation: regimes, table walks of both stages, the A and D bits, the access
check, the translation caches and what a TLB invalidation removes (R124-R126, R146, R147, R227-R262).
-/
namespace Sys2Proof.Machine

/-! ### Regimes -/

/-- Everything a translation depends on beside memory and the caches: a core's registers, a Stoker channel's or a device
context's fields (R227, R442, R483); the stores of its own that it sees first (R237), the agent that reads, the lines bad in its own L2
(R197), whether it only looks for a translation (R260), and the address being translated. -/
structure XCtx where
  sock : Nat
  s1 : Bool
  s2 : Bool
  root1 : Nat
  root2 : Nat
  adu : Bool
  s2adu : Bool
  world : Option Nat
  sid : Nat
  vm : Nat
  kr0 : Word
  kr1 : Word
  queue : List StoreEnt
  who : Nat
  bad : List Nat := []
  quiet : Bool := false
  va : Nat := 0
deriving DecidableEq, Repr

/-- Why a translation or check failed: cause, EVADDR (the IPA for stage 2) and INFO. -/
structure XErr where
  cause : Nat
  addr : Nat
  info : Nat
deriving DecidableEq, Repr

/-- What a walk or an access comes to: done, refused, or waiting for a line another core's region holds (R315). -/
inductive XR (α : Type) where
  | ok (a : α) (s : State)
  | bad (e : XErr) (s : State)
  | wait

/-- The rest of a walk after its first part. -/
def XR.bind {α β : Type} (r : XR α) (f : α → State → XR β) : XR β :=
  match r with
  | .ok a s => f a s
  | .bad e s => .bad e s
  | .wait => .wait

/-- The regime of core `c` in world `w` (R227, R228, R147, R249); `kr0` and `kr1` are the rights used. -/
def State.xctxIn (s : State) (c : Nat) (w : Option (Nat × Nat)) (kr0 kr1 : Word) : XCtx :=
  let k := s.core c
  let own (n : Nat) : Word := match w with
    | some (i, seat) => cellGet 0 s.seatSr (seatKey i seat n)
    | none => k.srOwn n
  let xl := own SR.XLATCTL
  let byp := xl.getLsbD 4
  { sock := coreSock c
    s1 := w.isSome || (xl.getLsbD 0 && !byp)
    s2 := w.isNone && xl.getLsbD 1 && !byp
    root1 := natBits (own SR.PTB).toNat 56 12 * 4096
    root2 := natBits (k.srOwn SR.PTB2).toNat 56 12 * 4096
    adu := xl.getLsbD 3
    s2adu := (k.srOwn SR.PTB2).getLsbD 0
    world := w.map (·.1)
    sid := (own SR.SID).toNat % 65536
    vm := (k.srOwn SR.VMID).toNat % 4096
    kr0 := kr0, kr1 := kr1, queue := k.ownStores, who := c, bad := k.l2bad }

/-- The regime core `c` executes in. -/
def State.xctx (s : State) (c : Nat) : XCtx :=
  s.xctxIn c (s.core c).world ((s.core c).srOwn SR.KRIGHTS0) ((s.core c).srOwn SR.KRIGHTS1)

/-! ### Kinds of access (Table DOMN-1) -/

/-- How an access is checked against page type and rights. -/
inductive Need
  /-- Fetch. -/
  | fetch
  /-- Load, LDA, vector load, ATOM.ADD. -/
  | load
  /-- Store, STL, vector store, CZERO, CINVAL, HATOM, HCAS. -/
  | store
  /-- CCLEAN, CFLUSH. -/
  | clean
  /-- GATE descriptor read. -/
  | gate
  /-- Shadow-stack pop. -/
  | pop
  /-- Shadow-stack push. -/
  | push
  /-- Fault-stack store (R165). -/
  | frame
deriving DecidableEq, Repr

/-- An access: how it is checked, its INFO kind (Table EVNT-2) and whether it writes. -/
structure Acc where
  need : Need
  kind : Nat
  wr : Bool
deriving DecidableEq, Repr

/-- A fetch. -/
def Acc.fetch : Acc := ⟨.fetch, 0, false⟩
/-- A load. -/
def Acc.load : Acc := ⟨.load, 1, false⟩
/-- A store. -/
def Acc.store : Acc := ⟨.store, 2, true⟩
/-- A Hearth atomic. -/
def Acc.atomic : Acc := ⟨.store, 3, true⟩
/-- ATOM.ADD. -/
def Acc.atomAdd : Acc := ⟨.load, 3, false⟩
/-- A shadow-stack load. -/
def Acc.pop : Acc := ⟨.pop, 4, false⟩
/-- A shadow-stack store. -/
def Acc.push : Acc := ⟨.push, 4, true⟩
/-- A gate descriptor read. -/
def Acc.gate : Acc := ⟨.gate, 5, false⟩
/-- CCLEAN or CFLUSH. -/
def Acc.clean : Acc := ⟨.clean, 7, false⟩
/-- CINVAL. -/
def Acc.inval : Acc := ⟨.store, 7, false⟩
/-- CZERO. -/
def Acc.czero : Acc := ⟨.store, 7, true⟩
/-- A frame store. -/
def Acc.frame : Acc := ⟨.frame, 2, true⟩

/-- Whether the page type admits the access (Table DOMN-1, R165). -/
def Need.typeOk : Need → PType → Bool
  | .fetch, t => decide (t = .normal)
  | .load, _ => true
  | .store, t => decide (t = .normal)
  | .clean, _ => true
  | .gate, t => decide (t = .gate)
  | .pop, t => decide (t = .shadow)
  | .push, t => decide (t = .shadow)
  | .frame, t => decide (t = .normal)

/-- Whether key rights `r` allow the access (Table DOMN-1, R126, R165). -/
def Need.keyOk : Need → Nat → Bool
  | .fetch, r => r = 2
  | .load, r => decide (r ≠ 0)
  | .store, r => r = 3
  | .clean, r => decide (r ≠ 0)
  | .gate, r => decide (r ≠ 0)
  | _, _ => true

/-- Whether stage-2 rights `r` allow the access (R243). -/
def Need.s2Ok : Need → Nat → Bool
  | .push, r => r = 3
  | .frame, r => r = 3
  | .pop, r => decide (r ≠ 0)
  | n, r => n.keyOk r

/-- The INFO word of a failed access (Table EVNT-2). -/
def infoOf (a : Acc) (key rights lvl : Nat) (st2 : Bool) (inst : Nat) : Nat :=
  a.kind + key * 2 ^ 3 + rights * 2 ^ 9 + lvl * 2 ^ 11 + (if st2 then 2 ^ 14 else 0) + (if a.wr then 2 ^ 15 else 0) +
    inst % 64 * 2 ^ 28

/-- The rights of a key (Table SYSX-6). -/
def XCtx.rights (x : XCtx) (key : Nat) : Nat :=
  let w := if key < 32 then x.kr0.toNat else x.kr1.toNat
  natBits w (2 * (key % 32) + 1) (2 * (key % 32))

/-! ### Poison met by a reader -/

/-- The event a reader of a poisoned line raises: INTEGRITY_FAULT for the reader whose read found the MAC mismatch, which
poisons the line and is reported, otherwise POISON (R62, R138).  Which Ashpan entry POISON names in INFO[27:16] is open for a line of
memory (log entry 1); for an address without memory no entry is written and the field is 0. -/
def State.poisonErr (s : State) (k pa : Nat) (addr : Nat) (info : Nat) : XErr × State :=
  let ln := lineOf pa
  if cellGet false s.macBad ln then
    (⟨0x0506, addr, info + s.ashNext (s.target k pa).home * 2 ^ 16⟩, s.macFail k ln)
  else if (s.target k pa).isMem then (⟨0x0301, addr, info + s.freeNat 12 * 2 ^ 16⟩, s.useFree)
  else (⟨0x0301, addr, info⟩, s)

/-- Whether a read of the line at `pa` finds poison or a bad MAC. -/
def State.badLine (s : State) (pa : Nat) : Bool := s.isPoison (lineOf pa) || cellGet false s.macBad (lineOf pa)

/-! ### Table entries -/

/-- Whether an entry read at `lvl` fails R232 (with Table XLAT-3 for stage 2). -/
def entryBad (st2 : Bool) (lvl e : Nat) : Bool :=
  natBits e 0 0 = 0 ||
    (if natBits e 1 1 = 0 then natBits e 11 2 ≠ 0 || natBits e 63 57 ≠ 0 || lvl = 1
     else
       natBits e 11 10 ≠ 0 || natBits e 57 57 ≠ 0 || 2 ≤ natBits e 9 8 || 4 ≤ lvl ||
         (if st2 then natBits e 4 2 ≠ 0 || natBits e 63 60 ≠ 0 else natBits e 3 2 = 3) ||
         (lvl = 3 && natBits e 29 12 ≠ 0) || (lvl = 2 && natBits e 20 12 ≠ 0) || (lvl ≠ 1 && natBits e 7 7 = 1))

/-- The leaf an entry spells at `lvl` (Tables XLAT-1, XLAT-2, XLAT-3; R235 for a 64 KiB page). -/
def leafOf (lvl e ea : Nat) : Leaf :=
  let bits := if lvl = 3 then 30 else if lvl = 2 then 21 else if natBits e 7 7 = 1 then 16 else 12
  { base := natBits e 56 bits * 2 ^ bits
    bits := bits
    key := natBits e 63 58
    ty := match natBits e 3 2 with | 1 => .gate | 2 => .shadow | _ => .normal
    dev := natBits e 9 8 = 1
    glob := natBits e 4 4 = 1
    s2r := natBits e 59 58
    ea := ea
    a := natBits e 5 5 = 1
    d := natBits e 6 6 = 1
    raw := e }

/-- The translated address of `va` through a leaf. -/
def Leaf.pa (l : Leaf) (va : Nat) : Nat := l.base + va % 2 ^ l.bits

/-- The level-`lvl` index of an address (Table XLAT-1). -/
def vaIdx (lvl va : Nat) : Nat := natBits va (9 * lvl + 11) (9 * lvl + 3)

/-- The owner of a page: kind (0 none, 1 image, 2 gate page, 3 table page, 4 data) and instance (R145). -/
def State.pageOwner (s : State) (pa : Nat) : Nat × Nat := cellGet (0, 0) s.owner (pa / 4096)

/-- Whether a walk's read of a line must wait: for a region of another agent, its gate or its home (R315, R342). -/
def XCtx.waits (x : XCtx) (s : State) (ln : Nat) : Bool :=
  if x.who < 2 ^ 20 then s.readWaits x.who ln
  else s.heldByOther x.who ln || s.homeWaits x.sock (s.target x.sock (ln * 64)).home ln

/-- The line of a table entry in the reader's L2, for a reader that is a core (R198). -/
def XCtx.fill (x : XCtx) (s : State) (ln h : Nat) : State := if x.who < 2 ^ 20 then s.acqShared x.who ln h true else s

/-- Why a walk may not read a table entry at `pa`: in the Vault world the table must be a table or data page of the instance (R147), in the
normal world a page of none; the metadata regions hold no table (R233). -/
def tableErr (x : XCtx) (acc : Acc) (addr lvl : Nat) (st2 : Bool) (pa : Nat) (s : State) : Option XErr :=
  let o := s.pageOwner pa
  let fault : XErr := ⟨0x0102, addr, infoOf acc 0 0 lvl st2 0⟩
  match x.world with
  | some i => if !((o.1 = 3 || o.1 = 4) && o.2 = i) || s.macMeta x.sock pa then some fault else none
  | none =>
    if o.1 ≠ 0 then some ⟨0x0501, x.va, infoOf { acc with kind := 6 } 0 0 0 st2 o.2⟩
    else if s.macMeta x.sock pa then some fault
    else none

/-- One table entry read by a walk of stage 2 (`st2`) or 1: coherent, one's own earlier stores included (R237).  It must lie in DRAM or CXL
memory (R233); poison ends the walk, at the address of the access (R239).  `addr` and `lvl` are reported for a bad table address. -/
def readEntry (x : XCtx) (acc : Acc) (addr lvl : Nat) (st2 : Bool) (pa : Nat) (s : State) : XR Nat :=
  let s := s.touch x.sock (lineOf pa)
  let poison (s : State) : XR Nat :=
    let r := s.poisonErr x.sock pa x.va (6 + (if st2 then 2 ^ 14 else 0) + (if acc.wr then 2 ^ 15 else 0))
    .bad r.1 r.2
  match tableErr x acc addr lvl st2 pa s with
  | some e => .bad e s
  | none =>
    match s.target x.sock pa with
    | .hole _ => poison s
    | .refused => poison s
    | .gone _ => poison s
    | .dram h _ | .cxl h _ =>
      if x.waits s (lineOf pa) then .wait
      else if s.badLine pa || x.bad.contains (lineOf pa) then poison s
      else .ok (leNat ((List.range 8).map (fun j => fwdByte s.mem x.queue (pa + j)))) (x.fill s (lineOf pa) h)
    | _ => .bad ⟨0x0102, addr, infoOf acc 0 0 lvl st2 0⟩ s

/-- A and D set in the entry at `ea` by a compare-and-swap at its home against the value `raw` that the walk read (R238): copies of its line
are recalled.  Where the home holds another value the walk is made again, so the access waits; a walk that only looks for a translation
makes no update (R260). -/
def setAD (x : XCtx) (ea raw : Nat) (d : Bool) (s : State) : XR Unit :=
  let v := memNat s.mem ea 8
  let b := BitVec.ofNat 8 v
  let b' := b ||| (if d then 0x60 else 0x20)
  if x.quiet || decide (v ||| 0x60 ≠ raw ||| 0x60) then .wait
  else if b = b' then .ok () s
  else
    let s := s.recallAll (lineOf ea) (s.target x.sock ea).home
    .ok () { s with mem := memSet s.mem ea b' }

/-! ### Walks -/

/-- A walk-cache entry's table, if one is held for this path (Table XLAT-6, R251). -/
def wcFind (wc : List WcE) (x : XCtx) (st2 : Bool) (lvl va : Nat) : Option Nat :=
  (wc.find? (fun e => e.leaf.isNone && e.stage2 = st2 && e.level = lvl && e.vm = x.vm && e.s2 = x.s2 && e.world = x.world &&
    e.sid = x.sid && e.idx = natBits va 56 (9 * lvl + 3))).map (·.next)

/-- The level a walk starts below and the table it starts from: the deepest cached entry, else the root. -/
def wcStart (wc : List WcE) (x : XCtx) (st2 : Bool) (root va : Nat) : Nat × Nat :=
  match wcFind wc x st2 2 va with
  | some t => (1, t)
  | none => match wcFind wc x st2 3 va with
    | some t => (2, t)
    | none => match wcFind wc x st2 4 va with
      | some t => (3, t)
      | none => match wcFind wc x st2 5 va with
        | some t => (4, t)
        | none => (5, root)

/-- The non-leaf entries a walk passed, to be installed (R240, R261). -/
abbrev Path := List WcE

/-- A walk-cache entry for this path. -/
def wcEntry (x : XCtx) (st2 : Bool) (lvl va next : Nat) : WcE :=
  { stage2 := st2, vm := x.vm, s2 := x.s2, world := x.world, sid := x.sid, level := lvl,
    idx := natBits va 56 (9 * lvl + 3), next := next, leaf := none }

/-- The stage-2 leaf cached for the table page at IPA `t`, if its A bit needs no update (Table XLAT-6). -/
def wcTable (wc : List WcE) (x : XCtx) (t : Nat) : Option Leaf :=
  match wc.find? (fun e => e.leaf.isSome && e.vm = x.vm && e.s2 = x.s2 && e.world = x.world && e.sid = x.sid && e.idx = t / 4096) with
  | some e => e.leaf.bind (fun l => if x.s2adu && !l.a then none else some l)
  | none => none

/-- A walk-cache entry for a stage-2 translation of the table page at IPA `t`. -/
def wcTableEntry (x : XCtx) (t : Nat) (l : Leaf) : WcE :=
  { stage2 := true, vm := x.vm, s2 := x.s2, world := x.world, sid := x.sid, level := 0, idx := t / 4096, next := l.pa t, leaf := some l }

/-- The stage-2 walk of an IPA from level `lvl` down (R241). -/
def walk2 (x : XCtx) (acc : Acc) (ipa : Nat) : Nat → Nat → Path → State → XR (Leaf × Path)
  | 0, _, _, s => .bad ⟨0x0102, ipa, infoOf acc 0 0 1 true 0⟩ s
  | lvl + 1, t, p, s =>
    let l := lvl + 1
    let nameLvl := if l = 5 then 5 else l + 1
    match readEntry x acc ipa nameLvl true (t + vaIdx l ipa * 8) s with
    | .wait => .wait
    | .bad e s => .bad e s
    | .ok e s =>
      if entryBad true l e then .bad ⟨0x0102, ipa, infoOf acc 0 0 l true 0⟩ s
      else if natBits e 1 1 = 1 then .ok (leafOf l e (t + vaIdx l ipa * 8), p) s
      else walk2 x acc ipa lvl (natBits e 56 12 * 4096) (wcEntry x true l ipa (natBits e 56 12 * 4096) :: p) s

/-- Stage 2 of one IPA, with the check of its rights (R243). -/
def stage2 (x : XCtx) (wc : List WcE) (acc : Acc) (okR : Nat → Bool) (ipa : Nat) (p : Path) (s : State) :
    XR (Leaf × Path) :=
  let st := wcStart wc x true x.root2 ipa
  (walk2 x acc ipa st.1 st.2 p s).bind (fun r s =>
    if okR r.1.s2r then .ok r s else .bad ⟨0x0102, ipa, infoOf acc 0 0 0 true 0⟩ s)

/-- The physical address of a stage-1 table (R236, R241), and whether stage 2 maps it as device memory: through stage 2 when it is in effect,
setting A there first (R238). -/
def tablePa (x : XCtx) (wc : List WcE) (acc : Acc) (t : Nat) (p : Path) (s : State) : XR ((Nat × Bool) × Path) :=
  if x.s2 then
    match wcTable wc x t with
    | some l => .ok ((l.pa t, l.dev), p) s
    | none =>
      (stage2 x wc acc (fun r => decide (r ≠ 0)) t p s).bind (fun r s =>
        let l := r.1
        let done (l : Leaf) (s : State) : XR ((Nat × Bool) × Path) := .ok ((l.pa t, l.dev), wcTableEntry x t l :: r.2) s
        if x.s2adu && !l.a then
          (setAD x l.ea l.raw false s).bind (fun _ s => done { l with a := true, raw := l.raw ||| 0x20 } s)
        else done l s)
  else .ok ((t, false), p) s

/-- The stage-1 walk from level `lvl` down (R236).  The leaf's `ea` is the table's own address (an IPA under stage 2)
joined with the entry's offset.  A table that stage 2 maps as device memory is refused as R233 refuses one in device memory. -/
def walk1 (x : XCtx) (wc : List WcE) (acc : Acc) (va : Nat) : Nat → Nat → Path → State → XR (Leaf × Path)
  | 0, _, _, s => .bad ⟨0x0102, va, infoOf acc 0 0 1 false 0⟩ s
  | lvl + 1, t, p, s =>
    let l := lvl + 1
    let nameLvl := if l = 5 then 5 else l + 1
    match tablePa x wc acc t p s with
    | .wait => .wait
    | .bad e s => .bad e s
    | .ok (ta, p) s =>
      if ta.2 then .bad ⟨0x0102, va, infoOf acc 0 0 nameLvl false 0⟩ s
      else
        match readEntry x acc va nameLvl false (ta.1 + vaIdx l va * 8) s with
        | .wait => .wait
        | .bad e s => .bad e s
        | .ok e s =>
          if entryBad false l e then .bad ⟨0x0102, va, infoOf acc 0 0 l false 0⟩ s
          else if natBits e 1 1 = 1 then .ok (leafOf l e (t + vaIdx l va * 8), p) s
          else walk1 x wc acc va lvl (natBits e 56 12 * 4096) (wcEntry x false l va (natBits e 56 12 * 4096) :: p) s

/-- The A and D updates that an access through a stage-1 leaf owes (R238): of the leaf itself, whose table page stage 2 must let be
written (S2R = 11, R243), and of the stage-2 leaf that maps that page. -/
def owed1 (x : XCtx) (wc : List WcE) (acc : Acc) (l : Leaf) (s : State) : XR (List (Nat × Nat × Bool)) :=
  if !x.adu || (l.a && (!acc.wr || l.d)) then .ok [] s
  else if x.s2 then
    (stage2 x wc acc (fun r => r = 3) l.ea [] s).bind (fun r s =>
      .ok ((if x.s2adu && !(r.1.a && r.1.d) then [(r.1.ea, r.1.raw, true)] else []) ++ [(r.1.pa l.ea, l.raw, acc.wr)]) s)
  else .ok [(l.ea, l.raw, acc.wr)] s

/-- The A and D update that an access through a stage-2 leaf owes (R238). -/
def owed2 (x : XCtx) (acc : Acc) (l : Leaf) : List (Nat × Nat × Bool) :=
  if x.s2adu && !(l.a && (!acc.wr || l.d)) then [(l.ea, l.raw, acc.wr)] else []

/-- A translation: physical address, key, page type, device flag, whether key rights are consulted, the A and D updates still owed
before the access is performed (address of the entry, the value read, whether D is set too), and what is to be installed. -/
structure Tr where
  pa : Nat
  bits : Nat
  key : Nat
  ty : PType
  dev : Bool
  keyed : Bool
  owed : List (Nat × Nat × Bool)
  tlb : Option TlbE
  path : Path
deriving DecidableEq, Repr

/-- Whether a TLB entry's tags match the regime and the address (R251). -/
def TlbE.hits (e : TlbE) (x : XCtx) (va : Nat) : Bool :=
  e.vm = x.vm && e.s2 = x.s2 && e.world = x.world && (e.glob || e.sid = x.sid) && e.base = va / 2 ^ e.bits

/-- Whether a TLB entry may serve the access: A and D are set where they are maintained (R238), and the stage-2 rights
allow it (otherwise the walk reports the refusal). -/
def TlbE.usable (e : TlbE) (x : XCtx) (acc : Acc) : Bool :=
  (!x.adu || (e.leafA && (!acc.wr || e.leafD))) && (!(x.s2 && x.s2adu) || (e.leaf2A && (!acc.wr || e.leaf2D))) &&
    (!x.s2 || acc.need.s2Ok e.s2r)

/-- Whether an address is device memory whatever the tables say, or memory whatever they say (R234). -/
def State.devKind (s : State) (k pa : Nat) (mt : Bool) : Bool :=
  match s.target k pa with
  | .boot _ => false
  | t => mt || t.isDev

/-- The TLB entry of a stage-1 leaf, combined with the stage-2 leaf of the IPA `ipa` when stage 2 is in effect, as it stands once the
updates owed are made (R243, R251). -/
def tlbOf (x : XCtx) (acc : Acc) (v ipa : Nat) (l : Leaf) (l2 : Option Leaf) : TlbE :=
  let bits := match l2 with | some m => min l.bits m.bits | none => l.bits
  let pa := match l2 with | some m => m.pa ipa | none => ipa
  { vm := x.vm, s2 := x.s2, world := x.world, sid := x.sid, glob := l.glob, base := v / 2 ^ bits, bits := bits,
    pa := pa / 2 ^ bits * 2 ^ bits, key := l.key, ty := l.ty, dev := l.dev || (match l2 with | some m => m.dev | none => false),
    s2r := match l2 with | some m => m.s2r | none => 3
    leafA := l.a || x.adu, leafD := l.d || (x.adu && acc.wr)
    leaf2A := match l2 with | some m => m.a || x.s2adu | none => true
    leaf2D := match l2 with | some m => m.d || (x.s2adu && acc.wr) | none => true
    ipaPage := if x.s2 then ipa / 4096 else 0 }

/-- A translation through a TLB entry. -/
def trOf (s : State) (x : XCtx) (v : Nat) (e : TlbE) (owed : List (Nat × Nat × Bool)) (path : Path) : Tr :=
  let pa := e.pa + v % 2 ^ e.bits
  { pa := pa, bits := e.bits, key := e.key, ty := e.ty, dev := s.devKind x.sock pa e.dev, keyed := true, owed := owed, tlb := some e,
    path := path }

/-- The translation of `va` for an access, without any check beyond the translation step of R125 (R227-R243). -/
def translate (x : XCtx) (tlb : List TlbE) (wc : List WcE) (acc : Acc) (va : Word) (s : State) : XR Tr :=
  let v := va.toNat % 2 ^ 57
  let x : XCtx := { x with va := va.toNat }
  let noncanon : XErr := ⟨0x0102, va.toNat, infoOf acc 0 0 0 false 0⟩
  if x.s1 then
    if natBits va.toNat 63 57 ≠ (if natBits va.toNat 56 56 = 1 then 127 else 0) then .bad noncanon s
    else
      match tlb.find? (fun e => e.hits x v && e.usable x acc) with
      | some e => .ok (trOf s x v e [] []) s
      | none =>
        let st := wcStart wc x false x.root1 v
        (walk1 x wc acc va.toNat st.1 st.2 [] s).bind (fun r s =>
          let l := r.1
          let ipa := l.pa v
          (owed1 x wc acc l s).bind (fun o1 s =>
            if x.s2 then
              (stage2 x wc acc acc.need.s2Ok ipa r.2 s).bind (fun r2 s =>
                .ok (trOf s x v (tlbOf x acc v ipa l (some r2.1)) (o1 ++ owed2 x acc r2.1) r2.2) s)
            else .ok (trOf s x v (tlbOf x acc v ipa l none) o1 r.2) s))
  else if natBits va.toNat 63 57 ≠ 0 then .bad noncanon s
  else if x.s2 then
    (stage2 x wc acc acc.need.s2Ok v [] s).bind (fun r s =>
      let l := r.1
      let pa := l.pa v
      .ok { pa := pa, bits := l.bits, key := 0, ty := .normal, dev := s.devKind x.sock pa l.dev, keyed := false,
            owed := owed2 x acc l, tlb := none, path := r.2 } s)
  else
    .ok { pa := v, bits := 12, key := 0, ty := .normal, dev := s.devKind x.sock v false, keyed := false, owed := [], tlb := none,
          path := [] } s

/-- World ownership, page type and key rights, in that order (R125, R146, R147, Table DOMN-1). -/
def checkAcc (x : XCtx) (acc : Acc) (va : Word) (t : Tr) (s : State) : Option XErr :=
  let o := s.pageOwner t.pa
  let vault : Bool :=
    decide (o.1 ≠ 0) && !(acc.need = .gate && o.1 = 2) &&
      (match x.world with
       | none => true
       | some i => decide (o.2 ≠ i) || (acc.wr && decide (o.1 ≠ 4)))
  if vault then some ⟨0x0501, va.toNat, infoOf acc 0 0 0 false o.2⟩
  else if !acc.need.typeOk t.ty then some ⟨0x0104, va.toNat, infoOf acc 0 0 0 false 0⟩
  else if t.keyed && !acc.need.keyOk (x.rights t.key) then
    some ⟨0x0103, va.toNat, infoOf acc t.key (x.rights t.key) 0 false 0⟩
  else none

/-- The A and D updates owed by a translation, made before the access is performed (R238). -/
def payAD (x : XCtx) : List (Nat × Nat × Bool) → State → XR Unit
  | [], s => .ok () s
  | (ea, raw, d) :: t, s => (setAD x ea raw d s).bind (fun _ s => payAD x t s)

/-- One whole translation with its checks and A and D updates; whether a line of the page itself is held by another core's region is
asked at the access. -/
def xlate (x : XCtx) (tlb : List TlbE) (wc : List WcE) (acc : Acc) (va : Word) (s : State) : XR Tr :=
  (translate x tlb wc acc va s).bind (fun t s =>
    match checkAcc x acc va t s with
    | some e => .bad e s
    | none => (payAD x t.owed s).bind (fun _ s => .ok t s))

/-! ### The translation caches of a core (Table XLAT-6) -/

/-- The TLB entries an access may use, in the order they are looked up: the L1 TLB of its kind, then the L2 TLB (R250, R253). -/
def Core.tlbs (k : Core) (acc : Acc) : List TlbE := (if acc.need = .fetch then k.itlb else k.dtlb) ++ k.tlb ++ k.tlbL

/-- An entry put first in an L1 TLB of `n` entries, fully associative (log entry 8). -/
def tlbPut1 (n : Nat) (e : TlbE) (l : List TlbE) : List TlbE := if l.contains e then l else (e :: l).take n

/-- An entry put first in an array of the L2 TLB of `sets` sets of `ways` ways (log entry 8). -/
def tlbPut2 (sets ways : Nat) (e : TlbE) (l : List TlbE) : List TlbE :=
  if l.contains e then l else keepWays (fun x => x.base % sets = e.base % sets) ways (e :: l)

/-- An entry installed in a core's TLBs: the L1 TLB of the access, and the L2 array of its page size (R250). -/
def Core.tlbPut (k : Core) (acc : Acc) (e : TlbE) : Core :=
  { k with itlb := if acc.need = .fetch then tlbPut1 48 e k.itlb else k.itlb
           dtlb := if acc.need = .fetch then k.dtlb else tlbPut1 96 e k.dtlb
           tlb := if e.bits ≤ 16 then tlbPut2 512 8 e k.tlb else k.tlb
           tlbL := if e.bits ≤ 16 then k.tlbL else tlbPut2 256 4 e k.tlbL }

/-- A translation's entries installed in core `c`, newest first (R240). -/
def State.install (s : State) (c : Nat) (acc : Acc) (t : Tr) : State :=
  if t.tlb.isNone && t.path.isEmpty then s
  else
    s.updCore c (fun k =>
      let k := match t.tlb with | some e => k.tlbPut acc e | none => k
      { k with wc := (t.path ++ k.wc).take 256 })

/-- A translation for core `c` in the given regime, its entries installed. -/
def State.xlateIn (s : State) (c : Nat) (x : XCtx) (acc : Acc) (va : Word) : XR Tr :=
  (xlate x ((s.core c).tlbs acc) (s.core c).wc acc va s).bind (fun t s => .ok t (s.install c acc t))

/-- A translation for core `c` as it executes. -/
def State.xlateC (s : State) (c : Nat) (acc : Acc) (va : Word) : XR Tr := s.xlateIn c (s.xctx c) acc va

/-- The precise event of a failed access of the instruction at core `c`'s pc. -/
def xrToRes {α : Type} (c : Nat) (r : XR α) : Res α :=
  match r with
  | .ok a s => .ok a s
  | .bad e s => .ev (faultEv s c e.cause (BitVec.ofNat 64 e.addr) e.info) s
  | .wait => .stall

/-! ### Invalidation (R100, R254) -/

/-- Whether the invalidation removes a TLB entry (R100, R254). -/
def Inval.hitsTlb (i : Inval) (e : TlbE) : Bool :=
  match i with
  | .va q n p => e.vm = n && (e.glob || e.sid = q) && e.base = p * 4096 / 2 ^ e.bits
  | .sid q n => e.vm = n && !e.glob && e.sid = q
  | .vm n => e.vm = n
  | .ipa n p => e.vm = n && e.s2 && e.ipaPage * 4096 / 2 ^ e.bits = p * 4096 / 2 ^ e.bits
  | .all => true

/-- Whether the invalidation removes a walk-cache entry (R254).  The stage-2 entries that a page's path used carry the page's VM and SID:
an invalidation by address removes them all (log entry 8). -/
def Inval.hitsWc (i : Inval) (e : WcE) : Bool :=
  match i with
  | .va q n p => e.vm = n && e.sid = q && (e.stage2 || e.idx = natBits (p * 4096) 56 (9 * e.level + 3))
  | .sid q n => e.vm = n && e.sid = q
  | .vm n => e.vm = n
  | .ipa n p => e.stage2 && e.vm = n && e.idx = (if e.leaf.isSome then p else natBits (p * 4096) 56 (9 * e.level + 3))
  | .all => true

/-- A core's translation caches after the invalidation. -/
def Core.invalidate (k : Core) (i : Inval) : Core :=
  let keep (l : List TlbE) : List TlbE := l.filter (fun e => !i.hitsTlb e)
  { k with itlb := keep k.itlb, dtlb := keep k.dtlb, tlb := keep k.tlb, tlbL := keep k.tlbL, wc := k.wc.filter (fun e => !i.hitsWc e) }

/-- A core without translation-cache entries (R257). -/
def Core.noTlb (k : Core) : Core := { k with itlb := [], dtlb := [], tlb := [], tlbL := [], wc := [] }

end Sys2Proof.Machine
end

