-- ==== Sys2Proof/Machine/Event.lean ====
section
/-!
DEFINITION. Machine/Event.lean: taking an event and returning from one: the frame, the Exhausted state, host exits,
interrupts and their entry window, seats of the Vault world, and the trace (R153-R154, R161-R185, R223, R246-R247, R595).
-/
namespace Sys2Proof.Machine

/-! ### Predictor contexts -/

/-- The quadruple that names a hardened core's context: partition, world, instance, domain (R221). -/
def State.ctxKey (s : State) (c : Nat) : Nat × Nat × Nat × Nat :=
  let k := s.core c
  (s.partition (coreSock c), (if k.world.isSome then 1 else 0), (match k.world with | some w => w.1 % 64 | none => 0),
   (k.srOwn SR.DOMAIN).toNat % 65536)

/-- Context table entries carrying a quadruple. -/
def ctxIs (q : Nat × Nat × Nat × Nat) (e : Nat × Nat × Nat × Nat × Nat) : Bool :=
  e.1 = q.1 && e.2.1 = q.2.1 && e.2.2.1 = q.2.2.1 && e.2.2.2.1 = q.2.2.2

/-- The context is evaluated again at a change of domain, world or seat: known quadruples move to the front, a new one
takes the lowest free number of 1-31, and with none free the least recently used number is freed and its sweep begins
(R221, R222). -/
def State.ctxEval (s : State) (c : Nat) : State :=
  if s.hardened c then
    let q := s.ctxKey c
    s.updCore c (fun k =>
      let l := k.pred.contexts
      match l.find? (ctxIs q) with
      | some e => { k with pred := { k.pred with contexts := e :: l.filter (fun x => !ctxIs q x) } }
      | none =>
        match ((List.range 31).map (· + 1)).find? (fun n => !l.any (fun e => e.2.2.2.2 = n) && k.pred.sweeping ≠ some n) with
        | some n => { k with pred := { k.pred with contexts := (q.1, q.2.1, q.2.2.1, q.2.2.2, n) :: l } }
        | none =>
          match k.pred.sweeping, l.getLast? with
          | none, some e =>
            { k with pred := { k.pred with contexts := l.dropLast, sweeping := some e.2.2.2.2 } }.count 151 1
          | _, _ => k)
  else s

/-- In a hardened core the return stack is emptied (R223); `was` says that the core was hardened before what empties it. -/
def State.clearRstack (s : State) (c : Nat) (was : Bool) : State :=
  if was || s.hardened c then s.updCore c (fun k => { k with pred := k.pred.clearRas }) else s

/-- A change of HARDEN takes effect at a serialising instruction, event entry or GRET.EV, and is counted then (R200, R204). -/
def State.applyHarden (s : State) (c : Nat) : State :=
  let h := decide (s.rd Reg.coreCfgHarden (coreIx c) = 1)
  s.updCore c (fun k => { k with hardenEff := h, pmu := (if k.hardenEff = h then k else k.count 53 1).pmu })

/-! ### Trace -/

/-- One entry put in the trace ring (Table DBUG-4). -/
def State.trPut (s : State) (c w0 w1 : Nat) : State :=
  let a := coreIx c
  let p := s.rd Reg.dbgCoreTrptr a
  let s := (s.wr Reg.dbgCoreTrace { a with j := 2 * p } w0).wr Reg.dbgCoreTrace { a with j := 2 * p + 1 } w1
  let s := s.wr Reg.dbgCoreTrptr a ((p + 1) % 512)
  s.wrIf (p = 511) Reg.dbgCoreTrctlWrap a 1

/-- A time stamp entry (KIND 7). -/
def State.trStamp (s : State) (c : Nat) : State :=
  let n := s.now (coreSock c)
  (s.trPut c (7 * 2 ^ 57) n).updCore c (fun k => { k with traceStamp := n })

/-- A control transfer, event entry, GATE, GRET or GRET.EV recorded while tracing is on; in the Vault world or a Sealed
partition nothing is recorded and a gap entry follows later (R595). -/
def State.trRec (s : State) (c kind : Nat) (frm to' : Word) : State :=
  if s.rd Reg.dbgCoreTrctlEn (coreIx c) = 0 then s
  else if (s.core c).world.isSome || s.isSealed (coreSock c) then s.updCore c (fun k => { k with traceGap := true })
  else
    let n := s.now (coreSock c)
    let s := if (s.core c).traceGap then (s.trPut c (6 * 2 ^ 57) n).updCore c (fun k => { k with traceGap := false }) else s
    let s := if (s.core c).traceStamp + 65536 ≤ n then s.trStamp c else s
    s.trPut c (frm.toNat % 2 ^ 57 + kind * 2 ^ 57) (to'.toNat % 2 ^ 57)

/-! ### Seats of the Vault world -/

/-- Instances are numbered across the fabric: 64 to' the lowest socket of their partition. -/
def State.instOf (s : State) (k i : Nat) : Nat := s.lowSock k * 64 + i

/-- Where the SEC registers of an instance stand. -/
def viIx (g : Nat) : Ix := { sock := g / 64, i := g % 64 }

/-- The security controller's record of an instance. -/
def State.vinst (s : State) (g : Nat) : VInst := cellGet VInst.free s.vault g

/-- The record of an instance replaced. -/
def State.setVinst (s : State) (g : Nat) (v : VInst) : State := { s with vault := cellSet VInst.free s.vault g v }

/-- Whether some core occupies the seat. -/
def State.seatTaken (s : State) (g seat : Nat) : Bool := s.cores.any (fun e => e.2.world = some (g, seat))

/-- The lowest-numbered free seat of an instance (R149). -/
def State.freeSeat (s : State) (g : Nat) : Option Nat :=
  (List.range (s.rd Reg.secViStateSeats (viIx g))).find? (fun i => !s.seatTaken g i)

/-- Whether an instance is RUNNING (Table DOMN-11). -/
def State.vRunning (s : State) (g : Nat) : Bool := s.rd Reg.secViStateState (viIx g) = 2

/-- What GATE, GRET, GRET.EV and event entry do to the predictor of a core, which `was` hardened before: a change of HARDEN takes effect,
the return stack of a hardened core is emptied, histories come from the retirement copy, and the context is evaluated again (R204,
R218, R222, R223). -/
def State.repredict (s : State) (c : Nat) (was : Bool) : State :=
  let s := ((s.applyHarden c).clearRstack c was).ctxEval c
  s.updCore c (fun k => { k with pred := k.pred.flush })

/-- What SWR and ATOM.COMMIT do to the predictor of a core: a change of HARDEN takes effect, the context is evaluated again, and histories
come from the retirement copy (R204, R218, R221). -/
def State.reharden (s : State) (c : Nat) : State :=
  ((s.applyHarden c).ctxEval c).updCore c (fun k => { k with pred := k.pred.flush })

/-- A core moved to a world: CSTATE.VAULT, VI_STATE.BUSY and the watchdog follow (R151, R156, Tables EVNT-6 and DOMN-11). -/
def State.setWorld (s : State) (c : Nat) (w : Option (Nat × Nat)) : State :=
  let old := (s.core c).world
  let s := s.updCore c (fun k => { k with world := w, seatIn := if old = w then k.seatIn else none })
  let s := s.wr Reg.ihubCoreCstateVault (coreIx c) (if w.isSome then 1 else 0)
  let busy (s : State) (g : Nat) : State :=
    s.wr Reg.secViStateBusy (viIx g) ((List.range 64).filter (s.seatTaken g)).length
  let s := match old with | some o => busy s o.1 | none => s
  match w with
  | some n =>
    let s := busy s n.1
    if old = w then s else s.setVinst n.1 { s.vinst n.1 with kick := s.now (n.1 / 64) }
  | none => s

/-! ### Exhausted -/

/-- A restart trigger of an instance; while it is not RUNNING a trigger is ignored (R156, step 1 of Table DOMN-8).  Hand-overs into the
instance that have not reached step 4 will end after step 3 (R155). -/
def State.vaultTrigger (s : State) (g : Nat) : State :=
  if s.vRunning g then
    let s := (s.wr Reg.secViStateState (viIx g) 3).setVinst g { s.vinst g with step := 1 }
    { s with handover := s.handover.map (fun h =>
        if h.inst = g && h.op = 0x14 && decide (h.step < 4) then { h with cancelled := true } else h) }
  else s

/-- The Exhausted state entered by an event of the given cause (Table EVNT-4; which words of the Ashpan entry hold what is the model's
choice, log entry 28); in the Vault world the crash of R152. -/
def State.exhaust (s : State) (c cause : Nat) : State :=
  match (s.core c).world with
  | some w => s.vaultTrigger w.1
  | none =>
    let k := coreSock c
    let s := s.wr Reg.ihubCoreCstateExhausted (coreIx c) 1
    let s := s.wrIf (s.rd Reg.dbgCoreCtlHaltreq (coreIx c) = 1) Reg.dbgCoreStatHalted (coreIx c) 1
    let s := s.wrIf (s.rd Reg.dbgCoreCtlHaltreq (coreIx c) = 1) Reg.dbgCoreStatReason (coreIx c) 5
    let s := s.ash k { cls := 5, src := 0x05, inst := coreLog c, code := 0x09, core := coreLog c,
                       domain := (s.sr c SR.DOMAIN).toNat, part := s.partition k, d4 := (s.sr c SR.FSP).toNat,
                       d5 := (s.sr c SR.FSLIMIT).toNat, d6 := (s.pc c).toNat, d7 := cause }
    s.lossNotify k (coreLog c) (s.rd Reg.ihubSysvecCoreLost { sock := k })

/-! ### Entry -/

/-- The outcome of an entry: the event (or a pending arithmetic exception ahead of it) was entered, there was no room, or
the entry must wait. -/
inductive Ent where
  | entered (s : State)
  | arith (s : State)
  | noRoom (cause : Nat) (s : State)
  | wait

/-- Whether the event is a host exit (Table XLAT-5). -/
def State.isHostExit (s : State) (c : Nat) (e : Ev) : Bool :=
  let hv := natBits (s.sr c SR.PTB2).toNat 11 4
  (s.core c).guest &&
    ((decide (16 ≤ e.vector) && decide (16 ≤ hv) && decide (hv ≤ e.vector)) ||
     (e.cause = 0x0102 && e.info.testBit 14) ||
     (e.cause = 0x0004 && decide (0xFF00 ≤ e.code)))

/-- XLATCTL at a host exit: GUEST 0, HOSTX 1, XIT 1 (R247). -/
def hostExitCtl (w : Word) : Word := (w &&& ~~~(4 : Word)) ||| 0x30

/-- The frame's first doubleword (Table EVNT-1). -/
def frameHdr (e : Ev) (world seat takeover : Bool) (rpri domain : Nat) : Nat :=
  e.cause + (if world then 2 ^ 16 else 0) + (if e.async then 2 ^ 17 else 0) + (if e.imprecise then 2 ^ 18 else 0) +
    (if seat then 2 ^ 19 else 0) + (if takeover then 2 ^ 20 else 0) + e.vector * 2 ^ 24 + rpri * 2 ^ 32 +
    domain * 2 ^ 36 + 2 ^ 63

/-- The causes whose INFO is not zero (R164). -/
def infoCause (cause : Nat) : Bool := cause / 256 = 1 || cause / 256 = 3 || cause / 256 = 5

/-- The 128 bytes of the frame (Table EVNT-1). -/
def State.frameBytes (s : State) (c : Nat) (e : Ev) (world seat takeover : Bool) : List Byte :=
  let rpri := s.rd Reg.ihubCoreCstateRpri (coreIx c)
  let dom := ((s.core c).srOwn SR.DOMAIN).toNat % 65536
  let words : List Nat :=
    [frameHdr e world seat takeover rpri dom, e.rpc.toNat, e.epc.toNat, e.evaddr.toNat,
     ((s.core c).srOwn SR.AUTH).toNat, ((s.core c).srOwn SR.KRIGHTS0).toNat, ((s.core c).srOwn SR.KRIGHTS1).toNat,
     if infoCause e.cause then e.info else 0, cellGet 0 s.repoch (coreSock c), ((s.core c).gr 1).toNat,
     s.now (coreSock c), 0, 0, 0, 0, 0]
  words.flatMap (leBytes 8)

/-- One event entered as one step (R162): `seat` when a Vault-routed interrupt took the core from the normal world (the
core is on its seat already), `takeover` for the frame.  A pending arithmetic exception is
delivered instead (R87). -/
def State.enter (s : State) (c : Nat) (e0 : Ev) (seat takeover : Bool) : Ent :=
  let pend := (s.sr c SR.FPSTAT).getLsbD 8 && !(e0.imprecise)
  let e : Ev :=
    if pend then
      { cause := if (s.sr c SR.FPSTAT).getLsbD 9 then 7 else 6, rpc := e0.rpc, epc := s.sr c SR.XPC, imprecise := true }
    else e0
  let world := (s.core c).world.isSome && !seat
  let hx := s.isHostExit c e
  let s1 := if hx then
      s.updCore c (fun k => (k.setSrOwn SR.XLATCTL (hostExitCtl (k.srOwn SR.XLATCTL))).count 251 1)
    else s
  let fsp := (s1.sr c SR.FSP).toNat
  let f := fsp - 128
  if fsp < (s1.sr c SR.FSLIMIT).toNat + 128 then .noRoom e.cause s1
  else
    match s1.xlateC c Acc.frame (BitVec.ofNat 64 f) with
    | .wait => .wait
    | .bad _ s2 => .noRoom e.cause s2
    | .ok t s2 =>
      match s2.queueStores c
          [{ pa := t.pa, bytes := (s.frameBytes c e world seat takeover).take 64, whole := false, rel := false },
           { pa := t.pa + 64, bytes := (s.frameBytes c e world seat takeover).drop 64, whole := false, rel := false }] with
      | none => .wait
      | some s3 =>
        let s4 := if e.imprecise then s3.setSr c SR.FPSTAT (s3.sr c SR.FPSTAT &&& ~~~(0x100 : Word)) else s3
        let s5 := (s4.setSr c SR.FSP (BitVec.ofNat 64 f)).setSr c SR.CAUSE (BitVec.ofNat 64 e.cause)
        let s6 := s5.setSr c SR.EVADDR e.evaddr
        let s7 := ((s6.setSr c SR.AUTH (s6.sr c SR.EVENT_AUTH)).setSr c SR.KRIGHTS0 (s6.sr c SR.EVENT_KEYS0)).setSr c
          SR.KRIGHTS1 (s6.sr c SR.EVENT_KEYS1)
        let s8 := s7.updCore c (fun k =>
          let k := k.setSrOwn SR.DOMAIN 0
          let k := (k.setSrOwn SR.DBGCTL (k.srOwn SR.DBGCTL &&& ~~~(0x300 : Word))).setG 1 (BitVec.ofNat 64 f)
          let k := { k with pc := s7.sr c SR.EVENT_ENTRY, xlPend := if world then k.xlPend else none, fresh := true, ssArm := false,
                               skipArm := false, fence := none }
          let k := (k.count (240 + e.cause / 256) 1).count 4 (microOps 5).toNat
          let k := if e.async || e.imprecise then k else k.count 55 1
          let k := if e.cause = 0x0301 then k.count 10 1 else k
          if e.imprecise then k.count 253 1 else k)
        let s9 := if 16 ≤ e.vector then
            (s8.wr Reg.ihubCoreCstateRpri (coreIx c) (e.vector / 16)).updCore c (fun k => k.count 7 1)
          else s8
        let s10 := s9.bump Reg.ihubCoreCstateDepth (coreIx c)
        let s11 := s10.repredict c (s.hardened c)
        let s12 := s11.trRec c 4 e.epc (s11.pc c)
        if pend then .arith s12 else .entered s12

/-- A synchronous event of the instruction at core `c`'s pc: an open region is aborted first with cause EVENT and the
return address becomes the abort path (R117); the fetch at SR.EVENT_ENTRY failing before the handler's first instruction
is an entry without room (R166).  `none` when the entry must wait: the instruction is then tried again. -/
def State.raise (s : State) (c : Nat) (e : Ev) : Option State :=
  let inRegion := (s.core c).region.isSome
  let e := match (s.core c).region with
    | some r => { e with rpc := r.next }
    | none => e
  let s1 := if inRegion then s.abortRegion c 7 0 else s
  if e.imprecise && inRegion && !(s1.sr c SR.FPSTAT).getLsbD 8 then some s1
  else
    match s1.enter c e false false with
    | .entered s' => some s'
    | .arith s' => some s'
    | .noRoom x s' => some (s'.exhaust c x)
    | .wait => none

/-! ### Interrupts -/

/-- Whether a pending vector is deliverable to core `c` in the normal world (R173, Table XLAT-5, R119, R153). -/
def State.deliverable (s : State) (c v : Nat) : Bool :=
  let hv := natBits (s.sr c SR.PTB2).toNat 11 4
  decide (16 ≤ v) && (s.core c).world.isNone &&
    (((s.core c).guest && decide (16 ≤ hv) && decide (hv ≤ v)) ||
      (decide (s.rd Reg.ihubCoreCstateRpri (coreIx c) < v / 16) && decide (s.rd Reg.ihubCoreTpri (coreIx c) < v / 16)))

/-- Whether an ordered region defers normal-world interrupts (R119). -/
def Core.orderedOpen (k : Core) : Bool := match k.region with | some r => r.ordered | none => false

/-- The interrupt the core takes: the highest-numbered deliverable vector (R174). -/
def State.dueInterrupt (s : State) (c : Nat) : Option Nat :=
  if (s.core c).orderedOpen then none else s.topPend c (s.deliverable c) 256

/-- The Vault-routed interrupt the core takes, with its instance: in the normal world any vector of a running instance with
a free seat, on a seat only the seat's own instance above the running priority and threshold (R154). -/
def State.dueVault (s : State) (c : Nat) : Option (Nat × Nat) :=
  let k := s.core c
  let okv (p : Nat × Nat) : Bool := match k.world with
    | none => s.vRunning p.1 && (s.freeSeat p.1).isSome
    | some w => decide (w.1 = p.1) && decide (s.rd Reg.ihubCoreCstateRpri (coreIx c) < p.2 / 16) &&
        decide (s.rd Reg.ihubCoreTpri (coreIx c) < p.2 / 16)
  (k.vpend.filter okv).foldl (fun b p => match b with | none => some p | some q => if q.2 < p.2 then some p else b) none

/-- What an instruction boundary does before the next instruction. -/
inductive Bnd where
  | none
  | took (s : State)
  | wait

/-- An interrupt's entry window opened (R176): the frame address must be usable now. -/
def State.openWin (s : State) (c v : Nat) (fromNormal : Bool) : State :=
  s.updCore c (fun k => { k with win := some { vector := v, takeover := false, fromNormal := fromNormal } })

/-- The event of the entry window at its commit. -/
def State.intEv (s : State) (c v : Nat) : Ev :=
  { cause := 0x400 + v, rpc := s.pc c, epc := s.pc c, async := true, vector := v }

/-- Whether an asynchronous event is due at the boundary. -/
def State.asyncDue (s : State) (c : Nat) : Bool :=
  !(s.core c).mchk.isEmpty || (s.dueVault c).isSome || (s.dueInterrupt c).isSome

/-- The boundary before the next instruction: a machine check, a Vault-routed interrupt or a normal-world interrupt, in that
order, an open region being aborted with INTERRUPT first; a pending arithmetic exception goes ahead of each (R171, R172,
R117, R119). -/
def State.boundary (s : State) (c : Nat) : Bnd :=
  if (s.core c).stepping || !s.asyncDue c then .none
  else
    let s := if (s.core c).region.isSome then s.abortRegion c 8 0 else s
    if (s.sr c SR.FPSTAT).getLsbD 8 then
      match s.enter c { cause := 0, rpc := s.pc c, epc := s.pc c } false false with
      | .entered s' => .took s'
      | .arith s' => .took s'
      | .noRoom x s' => .took (s'.exhaust c x)
      | .wait => .wait
    else
      match (s.core c).mchk with
      | m :: t =>
        let e : Ev := { cause := m.cause, rpc := s.pc c, epc := s.pc c, evaddr := BitVec.ofNat 64 m.addr, info := m.info,
                        async := true }
        match s.enter c e false false with
        | .entered s' => .took (s'.updCore c (fun k => { k with mchk := t }))
        | .arith s' => .took s'
        | .noRoom x s' => .took (s'.exhaust c x)
        | .wait => .wait
      | [] =>
        match s.dueVault c with
        | some p =>
          match (s.core c).world, s.freeSeat p.1 with
          | none, some seat => .took ((s.setWorld c (some (p.1, seat))).openWin c p.2 true)
          | _, _ => .took (s.openWin c p.2 false)
        | none =>
          match s.dueInterrupt c with
          | none => .none
          | some v => .took (s.openWin c v false)

/-- A vector that became deliverable inside the window takes the entry over when its priority is higher, in the same world
and, in a guest, of the same kind of exit (R176, R177, R247). -/
def State.takeover (s : State) (c v : Nat) : State :=
  match (s.core c).win with
  | none => s
  | some w =>
    let hv := natBits (s.sr c SR.PTB2).toNat 11 4
    let host (x : Nat) : Bool := decide (16 ≤ hv) && decide (hv ≤ x)
    let ok := match (s.core c).world with
      | none => s.isPend c v && s.deliverable c v && (!(s.core c).guest || host v == host w.vector)
      | some g => (s.core c).vpend.contains (g.1, v) &&
          (w.fromNormal || (decide (s.rd Reg.ihubCoreCstateRpri (coreIx c) < v / 16) &&
            decide (s.rd Reg.ihubCoreTpri (coreIx c) < v / 16)))
    if ok && decide (w.vector / 16 < v / 16) then
      s.updCore c (fun k => { k with win := some { w with vector := v, takeover := true } }.count 252 1)
    else s

/-- How a core came to its seat recorded. -/
def State.seated (s : State) (c : Nat) (addr : Word) (frame : Bool) (entry : Word) (new rpri depth : Nat) : State :=
  s.updCore c (fun k =>
    { k with seatIn := some { addr := addr, frame := frame, entry := entry, new := new, rpri := rpri, depth := depth } })

/-- The entry committed at clock 8 with the vector chosen: its pending bit is cleared (R174, R176).  That no room is left for the frame is
found out here (log entry 29). -/
def State.commitWin (s : State) (c : Nat) : Option State :=
  match (s.core c).win with
  | none => some s
  | some w =>
    let s0 := s.updCore c (fun k => { k with win := none })
    match s0.enter c (s0.intEv c w.vector) w.fromNormal w.takeover with
    | .wait => none
    | .noRoom x s' => some (s'.exhaust c x)
    | .arith s' => some s'
    | .entered s' =>
      match (s'.core c).world with
      | none => some (s'.clrPend c w.vector)
      | some g =>
        let s' := if w.fromNormal then
            s'.seated c (s'.sr c SR.FSP) true (s'.pc c) 0 (s.rd Reg.ihubCoreCstateRpri (coreIx c))
              (s.rd Reg.ihubCoreCstateDepth (coreIx c))
          else s'
        some (s'.updCore c (fun k => { k with vpend := k.vpend.filter (fun p => p ≠ (g.1, w.vector)) }))

/-! ### Return from an event -/

/-- A doubleword of a frame read. -/
def frameWord (b : List Byte) (i : Nat) : Nat := leNat ((b.drop (8 * i)).take 8)

/-- Whether GRET.EV refuses the frame (R168). -/
def State.frameBad (s : State) (c : Nat) (hdr : Nat) : Bool :=
  !hdr.testBit 63 ||
    (match (s.core c).world with
     | none => hdr.testBit 16 || hdr.testBit 19
     | some _ => !hdr.testBit 16 && !hdr.testBit 19)

/-- What GRET.EV restores from the 128 bytes of the frame (R168): the program counter is answered with the state.  In the normal world
it clears XIT and a pending write of SR.XLATCTL takes effect (R248); the Vault world leaves that register alone (R151). -/
def State.unframe (s : State) (c : Nat) (b : List Byte) : State × Word :=
  let hdr := frameWord b 0
  let normal := (s.core c).world.isNone
  let was := s.hardened c
  let fsp := s.sr c SR.FSP
  let s := s.setSr c SR.FSP (fsp + 128)
  let s := s.updCore c (fun k =>
    let k := (k.setSrOwn SR.AUTH (BitVec.ofNat 64 (frameWord b 4 % 2 ^ 11))).setSrOwn SR.KRIGHTS0
      (BitVec.ofNat 64 (frameWord b 5))
    let k := (k.setSrOwn SR.KRIGHTS1 (BitVec.ofNat 64 (frameWord b 6))).setSrOwn SR.DOMAIN
      (BitVec.ofNat 64 (natBits hdr 51 36))
    k.setG 1 (BitVec.ofNat 64 (frameWord b 9)))
  let s := s.wr Reg.ihubCoreCstateRpri (coreIx c) (natBits hdr 35 32)
  let d := s.rd Reg.ihubCoreCstateDepth (coreIx c)
  let s := s.wr Reg.ihubCoreCstateDepth (coreIx c) (d - 1)
  let s := if hdr.testBit 19 && (s.core c).world.isSome then s.setWorld c none else s
  let s := s.updCore c (fun k =>
    let k := if normal then k.setSrOwn SR.XLATCTL (k.srOwn SR.XLATCTL &&& ~~~(0x20 : Word)) else k
    let k := match k.xlPend, normal with
      | some v, true => { k.setSrOwn SR.XLATCTL v with xlPend := none }
      | _, _ => k
    { k with ssArm := (k.srOwn SR.DBGCTL).getLsbD 8, skipArm := (k.srOwn SR.DBGCTL).getLsbD 9 })
  (s.repredict c was, BitVec.ofNat 64 (frameWord b 1))

end Sys2Proof.Machine
end

