-- ==== Sys2Proof/Machine/Ctl.lean ====
section
/-!
DEFINITION. Machine/Ctl.lean: control space: where each register block stands (R5-R15), the fields of a register word, and
how a field takes a written value by its access type (R16-R19, R624).
-/
namespace Sys2Proof.Machine

/-! ### The capability list -/

/-- `n` entries of one kind, instances rising: block (none for one that holds only its entry), ID, instance, pages. -/
def capRun (b : Option Blk) (id pages : Nat) : Nat → List (Option Blk × Nat × Nat × Nat)
  | 0 => []
  | n + 1 => capRun b id pages n ++ [(b, id, n, pages)]

/-- The capability list of a part, in the order of Table SCOP-3; the order and the packing are the model's (log entry 9). -/
def capList (p : Part) : List (Option Blk × Nat × Nat × Nat) :=
  capRun (some .root) 0x00 1 1 ++ capRun (some .core) 0x01 16 1 ++ capRun (some .hrth) 0x10 7 1 ++
  [(some .mesh, 0x20, 0, 3), (some .arb, 0x20, 1, 2)] ++
  [(some .chim, 0x30, 0x80, 4)] ++ capRun (some .flue) 0x30 1 p.flues ++
  capRun (some .mc) 0x40 4 16 ++ (if p.full then capRun (some .rid) 0x41 1 16 ++ capRun (some .stk) 0x50 80 8 else []) ++
  capRun (some .prc) 0x60 36864 4 ++ capRun (some .sec) 0x70 2 1 ++ (if p.full then capRun none 0x80 1 1 else []) ++
  capRun (some .pmu) 0x90 768 1 ++ capRun (some .ash) 0xA0 82 1 ++ capRun (some .pwr) 0xB0 4 1 ++
  capRun (some .dbg) 0xC0 1040 1 ++ capRun (some .ihub) 0xD0 24 1 ++ capRun (some .tbase) 0xE0 1 1

/-- A place in control space: the entry (block, ID, instance, pages), the offset of its block and of the next entry. -/
structure CtlAt where
  blk : Option Blk
  id : Nat
  inst : Nat
  pages : Nat
  base : Nat
  next : Nat
deriving DecidableEq, Repr

/-- The entry whose block holds an offset. -/
def capFind (off : Nat) : List (Option Blk × Nat × Nat × Nat) → Nat → Option CtlAt
  | [], _ => none
  | (b, id, n, pg) :: t, base =>
    let nx := base + pg * 4096
    if off < nx then some { blk := b, id := id, inst := n, pages := pg, base := base, next := if t.isEmpty then 0 else nx }
    else capFind off t nx

/-- The control-space offset of a block's entry. -/
def capBase (b : Blk) (inst : Nat) : List (Option Blk × Nat × Nat × Nat) → Nat → Option Nat
  | [], _ => none
  | (b', _, n, pg) :: t, base => if b' = some b && n = inst then some base else capBase b inst t (base + pg * 4096)

/-- The two words of a capability entry (Table SCOP-2); VER is 0 (log entry 9). -/
def CtlAt.word (e : CtlAt) (second : Bool) : Nat :=
  if second then e.next else e.id + e.inst * 2 ^ 24 + e.pages * 2 ^ 32

/-! ### Fields of a word -/

/-- The indices at which a field stands at block offset `o`, if any. -/
def Fld.at? (f : Fld) (o : Nat) : Option (Nat × Nat) :=
  if o < f.off then none
  else
    let d := o - f.off
    if f.sj ≤ f.si then
      let i := if f.si = 0 then 0 else d / f.si
      let j := if f.sj = 0 then 0 else (d - i * f.si) / f.sj
      if i < f.ni && j < f.nj && i * f.si + j * f.sj = d then some (i, j) else none
    else
      let j := d / f.sj
      let i := if f.si = 0 then 0 else (d - j * f.sj) / f.si
      if i < f.ni && j < f.nj && i * f.si + j * f.sj = d then some (i, j) else none

/-- A field of a register word: the field, its indices and its least significant bit in the word. -/
structure WF where
  f : Fld
  ix : Ix
  lsb : Nat
deriving DecidableEq, Repr

/-- The fields of the doubleword at block offset `w`. -/
def wordFields (b : Blk) (sock inst w : Nat) : List WF :=
  (blkFields b).flatMap (fun f => (List.range 8).filterMap (fun k =>
    match f.at? (w + k) with
    | some (i, j) => some { f := f, ix := { sock := sock, inst := inst, i := i, j := j }, lsb := 8 * k + f.lsb }
    | none => none))

/-- A doubleword assembled from the values its fields read as. -/
def assemble (v : Fld → Ix → Nat) (l : List WF) : Nat :=
  l.foldl (fun x w => x + (if w.f.acc = .wo then 0 else v w.f w.ix % 2 ^ w.f.w) * 2 ^ w.lsb) 0

/-- The part of a written doubleword that falls on a field: the value of a `size`-byte write at byte `lo` of the word, and
the mask of the field's bits it covers. -/
def fieldBits (w : WF) (lo size val : Nat) : Nat × Nat :=
  let mask := (2 ^ (8 * size) - 1) * 2 ^ (8 * lo)
  let data := val % 2 ^ (8 * size) * 2 ^ (8 * lo)
  (natBits data (w.lsb + w.f.w - 1) w.lsb, natBits mask (w.lsb + w.f.w - 1) w.lsb)

/-- New bits `v` under `mask` over old bits. -/
def mergeBits (old v mask : Nat) : Nat := (old ^^^ (old &&& mask)) ||| (v &&& mask)

/-- A field takes a written value by its access type (Table SCOP-5). -/
def State.fieldWrite (s : State) (f : Fld) (a : Ix) (v mask : Nat) : State :=
  let old := s.rd f a
  match f.acc with
  | .ro => s
  | .wo => s
  | .rw => s.wr f a (mergeBits old v mask)
  | .w1c => s.wr f a (old ^^^ (old &&& v &&& mask))
  | .w1s => s.wr f a (old ||| (v &&& mask))
  | .rws =>
    let sh := (cellGet none s.shadow (regKey f a)).getD old
    { s with shadow := cellSet none s.shadow (regKey f a) (some (mergeBits sh v mask % 2 ^ f.w)) }
  | .rwl =>
    if mask = 0 || cellGet false s.locked (regKey f a) then s
    else { s.wr f a (mergeBits old v mask) with locked := cellSet false s.locked (regKey f a) true }

/-- A shadow value takes effect: the field holds it and nothing is pending (R16, R17). -/
def State.commitField (s : State) (key : Nat) (f : Fld) (a : Ix) : State :=
  match cellGet none s.shadow key with
  | none => s
  | some v => { s.wr f a v with shadow := cellErase s.shadow key }

/-- Every shadow value of one block of a socket (or those `keep` names) takes effect. -/
def State.commitBlk (s : State) (b : Blk) (sock : Nat) (keep : Nat → Fld → Bool) : State :=
  let fs := (blkFields b).filter (fun f => decide (f.acc = .rws))
  s.shadow.foldl (fun s e =>
    match e.2, fs.find? (fun f => f.id = e.1 % 1024) with
    | some v, some f =>
      if e.1 / 1024 % 1024 = sock && keep (e.1 / 1024 / 1024 % 256) f then
        let d := fldReset (s.part sock) f { sock := sock, inst := e.1 / 2 ^ 20 % 256, i := e.1 / 2 ^ 28 % 8192, j := e.1 / 2 ^ 41 }
        { s with regs := cellSet d s.regs e.1 (v % 2 ^ f.w), shadow := cellErase s.shadow e.1 }
      else s
    | _, _ => s) s

end Sys2Proof.Machine
end

