-- ==== Sys2Proof/Machine/Pmu.lean ====
section
/-!
DEFINITION. Machine/Pmu.lean: performance counters, their wraps, samples, windows and snapshots (R568-R584).

A core's live counters stand in `Core.pmu`: event e at e (its count in the low 48 bits, WRAP in bit 48), threshold counter j at 384 + j,
LAST and PEAK of bandwidth counter j at 512 + j and 528 + j.  Counts the model does not follow are left open (log entry 11).
-/
namespace Sys2Proof.Machine

/-- Events the model counts exactly; the live value of any other is left open (log entry 11). -/
def pmuExact (e : Nat) : Bool :=
  [3, 4, 7, 10, 12, 152, 153, 163, 164, 165, 166, 181, 182, 183, 184, 187].contains e || (decide (51 ≤ e) && decide (e ≤ 57)) ||
    (decide (136 ≤ e) && decide (e ≤ 151) && decide (e ≠ 150)) || (decide (154 ≤ e) && decide (e ≤ 161)) ||
    (decide (168 ≤ e) && decide (e ≤ 178)) || (decide (240 ≤ e) && decide (e ≤ 253))

/-- Events counted when an instruction retires (Path R of Tables PERF-1 and PERF-2). -/
def pmuRetired (e : Nat) : Bool :=
  [3, 4, 12, 181, 182].contains e || (decide (16 ≤ e) && decide (e ≤ 29)) ||
    (decide (72 ≤ e) && decide (e ≤ 135) && decide (e % 8 < 2)) || (decide (136 ≤ e) && decide (e ≤ 149)) ||
    (decide (152 ≤ e) && decide (e ≤ 166) && decide (e ≠ 162)) || (decide (240 ≤ e) && decide (e ≤ 250))

/-- A WRAP bit of a core's live counter cleared (R576, R584). -/
def State.pmuClear (s : State) (c e : Nat) : State :=
  s.updCore c (fun q => { q with pmu := cellSet 0 q.pmu e (cellGet 0 q.pmu e % 2 ^ 48) })

/-- Whether a core's counters count: out of reset, awake, not halted, not in the Vault world, and no checker (R570, R574, R575, R589). -/
def State.pmuRuns (s : State) (c : Nat) : Bool :=
  s.outOfReset c && s.awake c && s.rd Reg.dbgCoreStatHalted (coreIx c) = 0 && (s.core c).world.isNone &&
    decide (s.rd Reg.coreLmapState (coreIx c) ≠ 3)

/-- The capacity of a watched structure (Table PERF-3). -/
def structCap : Nat → Nat
  | 0 => 576 | 1 => 224 | 2 => 144 | 3 => 160 | 4 => 48 | 5 => 128 | 6 => 64 | 7 => 96 | 8 => 96 | 9 => 8 | 10 => 32 | 11 => 64
  | 12 => 32 | 13 => 16 | 14 => 96 | _ => 4

/-- Whether a threshold counter can count: enabled, with a threshold below its structure's capacity (R578). -/
def State.thrOn (s : State) (a : Ix) : Bool :=
  s.rd Reg.pmuThrctlEn a = 1 && decide (s.rd Reg.pmuThrctlN a < structCap (s.rd Reg.pmuThrctlStruct a))

/-- COUNTER_WRAP: event counter `e` of core `c` (threshold counter e - 384 from 384 up) passes 2^48 - 1: it continues from 0 and WRAP is
set (R569).  A counter the model follows passes there only from its maximum; events 0 and 13 count in every state of their own. -/
def execCounterWrap (c e : Nat) (s : State) : Host.Outcome State Fault Refusal :=
  .next (
    let x := cellGet 0 (s.core c).pmu e
    if 400 ≤ e || (!s.pmuRuns c && ! [0, 2, 13].contains e) then s
    else if pmuExact e && x % 2 ^ 48 ≠ 2 ^ 48 - 1 then s
    else if 384 ≤ e && !s.thrOn { coreIx c with j := e - 384 } then s
    else s.updCore c (fun q => { q with pmu := cellSet 0 q.pmu e (2 ^ 48) }))

/-! ### Unit counters (R582) -/

/-- The WRAP bit of a unit counter: bank 0 Hearth slice, 1 mesh stop, 2 flue, 3 memory channel with its Riddle, 4 Stoker cell, 5 channel
of a cell (unit 64 * cell + channel). -/
def unitWrapAt (k bank u e : Nat) : Option (Fld × Ix) :=
  match bank with
  | 0 => if u < 272 && e < 16 then some (Reg.pmuHrthEvWrap, { sock := k, i := u, j := e }) else none
  | 1 => if u < 308 && e < 16 then some (Reg.pmuMeshEvWrap, { sock := k, i := u, j := e }) else none
  | 2 => if u < 6 && e < 16 then some (Reg.pmuFlueEvWrap, { sock := k, i := u, j := e }) else none
  | 3 => if u < 16 && e < 24 then some (Reg.pmuMcEvWrap, { sock := k, i := u, j := e }) else none
  | 4 => if u < 8 && e < 16 then some (Reg.pmuStkEvWrap, { sock := k, i := u, j := e }) else none
  | 5 => if u < 512 && e < 4 then some (Reg.pmuStkChEvWrap, { sock := k, i := u / 64, j := u % 64 * 4 + e }) else none
  | _ => none

/-- Whether a bank's unit is there and counts: an enabled slice, a flue or Riddle of the part, a powered Stoker cell (R582, R584). -/
def State.bankThere (s : State) (k bank u e : Nat) : Bool :=
  let p := s.part k
  let stk (n : Nat) : Bool := p.full && (s.rd Reg.pwrUpwrStatStk { sock := k }).testBit n
  match bank with
  | 0 => s.rd Reg.hrthSliceEnabled { sock := k, i := u } = 1
  | 1 => true
  | 2 => decide (u < p.flues)
  | 3 => decide (e < 16) || p.full
  | 4 => stk u
  | _ => stk (u / 64)

/-- UNIT_COUNTER_WRAP: WRAP, UWRAP.PEND and the interrupt; the block shows WRAP from the next snapshot (R582, R583).  Of a channel assigned
to a Vault instance only event 0 counts. -/
def execUnitCounterWrap (k bank u e : Nat) (s : State) : Host.Outcome State Fault Refusal :=
  .next (match unitWrapAt k bank u e with
    | none => s
    | some (f, a) =>
      let key := regKey f a
      let vault := bank = 5 && e ≠ 0 && s.rd Reg.stkChCfgVault { sock := k, inst := u / 64, i := u % 64 } = 1
      if !s.up k || !s.bankThere k bank u e || s.uwraps.contains key || s.rd f a = 1 || vault then s
      else
        let s : State := { s with uwraps := s.uwraps ++ [key] }
        let b : Ix := { sock := k }
        if s.rd Reg.pmuUwrapPend b = 1 then s
        else
          let s := s.wr Reg.pmuUwrapPend b 1
          if s.rd Reg.pmuUwrapEn b = 1 then s.sysVector k (s.rd Reg.pmuUwrapCore b) (s.rd Reg.pmuUwrapVec b) else s)

/-! ### Threshold and bandwidth counters (R578, R579) -/

/-- Whether a core's page of the block takes writes: not in the Vault world (R584). -/
def State.pmuPage (s : State) (c : Nat) : Bool := (s.core c).world.isNone && decide (coreLog c < (s.part (coreSock c)).cores)

/-- Threshold counter `j` and its WRAP zeroed by a write of THRCTL. -/
def State.thrZero (s : State) (c j : Nat) : State := s.updCore c (fun q => { q with pmu := cellErase q.pmu (384 + j) })

/-- THRCTL_WRITE. -/
def execThrctlWrite (c j struct n : Nat) (en : Bool) (s : State) : Host.Outcome State Fault Refusal :=
  .next (if !s.pmuPage c || 16 ≤ j then s
    else
      (s.wrs { coreIx c with j := j } [(Reg.pmuThrctlStruct, struct), (Reg.pmuThrctlN, n), (Reg.pmuThrctlEn, if en then 1 else 0)]).thrZero
        c j)

/-- The number of a bandwidth counter: `u` is a logical core, or from 256 a unit of the list in R584. -/
def bwKey (k u j : Nat) : Nat := k * 2 ^ 16 + u * 16 + j

/-- Where a bandwidth counter's registers stand. -/
def bwIx (k u j : Nat) : Ix := if u < 256 then { sock := k, i := u, j := j } else { sock := k, i := u - 256, j := j }

/-- BWCTL written: the change is for the next window boundary, and so is PEAKCLR. -/
def State.bwMark (s : State) (k u j : Nat) (cfg clr : Bool) : State :=
  let add (b : Bool) (l : List Nat) : List Nat := if b && !l.contains (bwKey k u j) then l ++ [bwKey k u j] else l
  { s with bwPend := add cfg s.bwPend, bwClr := add clr s.bwClr }

/-- BWCTL_WRITE of bandwidth counter `j` of a core, or from 256 of a unit. -/
def execBwctlWrite (k u j cls win : Nat) (en clr : Bool) (s : State) : Host.Outcome State Fault Refusal :=
  .next (
    let a := bwIx k u j
    let e := if en then 1 else 0
    if 16 ≤ j || 282 ≤ u || (u < 256 && !s.pmuPage (k * 256 + u)) then s
    else
      let s := if u < 256 then s.wrs a [(Reg.pmuCorebwClass, cls), (Reg.pmuCorebwWin, win), (Reg.pmuCorebwEn, e)]
        else s.wrs a [(Reg.pmuUnitbwClass, cls), (Reg.pmuUnitbwWin, win), (Reg.pmuUnitbwEn, e)]
      s.bwMark k u j true clr)

/-- A live LAST or (`p`) PEAK. -/
def State.bwLive (s : State) (k u j : Nat) (p : Bool) : Nat :=
  if u < 256 then cellGet 0 (s.core (k * 256 + u)).pmu (512 + (if p then 16 else 0) + j)
  else cellGet 0 s.ubw (bwKey k u j * 2 + (if p then 1 else 0))

/-- Live LAST and PEAK set. -/
def State.bwSet (s : State) (k u j last peak : Nat) : State :=
  if u < 256 then
    s.updCore (k * 256 + u) (fun q => { q with pmu := cellSet 0 (cellSet 0 q.pmu (512 + j) last) (528 + j) peak })
  else { s with ubw := cellSet 0 (cellSet 0 s.ubw (bwKey k u j * 2) last) (bwKey k u j * 2 + 1) peak }

/-- Bytes counted for each flit, line or TLP byte: 80 at a core's or flue's port, 64 at a memory channel's, 1 at a root complex's. -/
def bwUnit (u : Nat) : Nat := if u < 256 then 80 else if u < 272 then 64 else if u < 278 then 80 else 1

/-- BW_WINDOW_END: a window in which `n` flits, lines or bytes of the chosen classes passed is over (R579). -/
def execBwWindowEnd (k u j n : Nat) (s : State) : Host.Outcome State Fault Refusal :=
  .next (
    let key := bwKey k u j
    let a := bwIx k u j
    let en := s.rd (if u < 256 then Reg.pmuCorebwEn else Reg.pmuUnitbwEn) a
    let held := u < 256 && (s.core (k * 256 + u)).world.isSome
    if 16 ≤ j || 282 ≤ u || held then s
    else
      let clr := s.bwClr.contains key
      let pend := s.bwPend.contains key
      let s : State := { s with bwPend := s.bwPend.filter (· ≠ key), bwClr := s.bwClr.filter (· ≠ key) }
      if pend then s.bwSet k u j 0 0
      else if en = 0 then (if clr then s.bwSet k u j (s.bwLive k u j false) 0 else s)
      else
        let cls := s.rd (if u < 256 then Reg.pmuCorebwClass else Reg.pmuUnitbwClass) a
        let b := if cls = 0 then 0 else n * bwUnit u
        s.bwSet k u j b (if clr then 0 else max (s.bwLive k u j true) b))

/-! ### Sampling (R580) -/

/-- SAMPLE_FIRE: comparator `j` of core `c` fires; `pc` is the pc of the instruction whose retirement made the crossing, used for an event
counted at retirement. -/
def execSampleFire (c j : Nat) (pc : Word) (s : State) : Host.Outcome State Fault Refusal :=
  .next (
    let a : Ix := { coreIx c with j := j }
    let e := s.rd Reg.pmuSampctlEvent a
    if 4 ≤ j || s.rd Reg.pmuSampctlEn a = 0 || 384 ≤ e || !s.pmuRuns c then s
    else if s.rd Reg.pmuSampFull a = 1 then s.bump Reg.pmuSampLost a
    else
      let s' := if pmuExact e then s else s.useFree
      let n := if pmuExact e then cellGet 0 (s.core c).pmu e % 2 ^ 48 else s.freeNat 48
      let at' : Word := if pmuRetired e then pc else s.pc c
      let s := s'.wrs a [(Reg.pmuSampPc, at'.toNat), (Reg.pmuSampCount, n), (Reg.pmuSampFull, 1)]
      s.sysVector (coreSock c) (coreLog c) (s.rd Reg.pmuSampvec (coreIx c)))

/-! ### Snapshots (R583) -/

/-- The group of a counter in `State.snapBase`: cores by logical ID, 256 Hearth and mesh, 257 memory channels and flues, 264 up Stoker
cells. -/
def snapKey (k g : Nat) : Nat := k * 512 + g

/-- The shadows of one core's counters taken. -/
def State.snapCore (s : State) (c base : Nat) : State :=
  let q := s.core c
  let a := coreIx c
  let s := (List.range 400).foldl (fun s e =>
    let x := cellGet 0 q.pmu e
    if e < 384 then
      (s.wrIf (pmuExact e) Reg.pmuCoreEvCount { a with j := e } (x % 2 ^ 48)).wr Reg.pmuCoreEvWrap { a with j := e } (x / 2 ^ 48)
    else s.wr Reg.pmuCoreThrWrap { a with j := e - 384 } (x / 2 ^ 48)) s
  let s := (List.range 16).foldl (fun s j =>
    (s.wr Reg.pmuCorebwLast { a with j := j } (cellGet 0 q.pmu (512 + j))).wr Reg.pmuCorebwPeak { a with j := j }
      (cellGet 0 q.pmu (528 + j))) s
  { s with snapBase := cellSet 0 s.snapBase (snapKey (coreSock c) (coreLog c)) base }

/-- PMU_SNAPSHOT: at a multiple of 1,024 ns every live value is copied into its shadow; a sleeping core's and a powered-off cell's keep
theirs. -/
def execPmuSnapshot (k : Nat) (s : State) : Host.Outcome State Fault Refusal :=
  .next (
    if !s.up k then s
    else
      let a : Ix := { sock := k }
      let base := s.free + 1
      let cs := (List.range (s.part k).cores).filter (fun l => s.awake (k * 256 + l))
      let s := cs.foldl (fun s l => s.snapCore (k * 256 + l) base) s.useFree
      let cells := (List.range 8).filter (fun n => (s.rd Reg.pwrUpwrStatStk a).testBit n)
      let s := (256 :: 257 :: cells.map (264 + ·)).foldl (fun s g =>
        { s with snapBase := cellSet 0 s.snapBase (snapKey k g) base }) s
      let mine := s.uwraps.filter (fun key => decide (key / 1024 % 1024 = k))
      let s := mine.foldl (fun s key => { s with regs := cellPut s.regs key 1 }) s
      let s : State := { s with uwraps := s.uwraps.filter (fun key => decide (key / 1024 % 1024 ≠ k)) }
      let s := (List.range 416).foldl (fun s i =>
        let u := 256 + i / 16
        let b := bwIx k u (i % 16)
        (s.wr Reg.pmuUnitbwLast b (s.bwLive k u (i % 16) false)).wr Reg.pmuUnitbwPeak b (s.bwLive k u (i % 16) true)) s
      let t := s.now k
      (s.wr Reg.pmuSnapTime a (t - t % 1024)).wr Reg.pmuSnapSeq a ((s.rd Reg.pmuSnapSeq a + 1) % 2 ^ 32))

/-- The snapshot group of a unit counter's field: none for any other field. -/
def snapGroup (f : Fld) (a : Ix) : Option Nat :=
  if f.id = Reg.pmuHrthEvCount.id || f.id = Reg.pmuMeshEvCount.id then some 256
  else if f.id = Reg.pmuFlueEvCount.id || f.id = Reg.pmuMcEvCount.id then some 257
  else if f.id = Reg.pmuStkEvCount.id || f.id = Reg.pmuStkChEvCount.id then some (264 + a.i)
  else if f.id = Reg.pmuCoreThrCount.id || (f.id = Reg.pmuCoreEvCount.id && !pmuExact a.j) then some a.i
  else none

/-- What a field of the block shows: the shadow, or for a count the model does not follow the open value of its latest snapshot (log
entry 11); zero before the first. -/
def State.pmuView (s : State) (f : Fld) (a : Ix) : Nat :=
  match snapGroup f a with
  | none => s.rd f a
  | some g =>
    let b := cellGet 0 s.snapBase (snapKey a.sock g)
    if b = 0 then 0
    else if f.id = Reg.pmuCoreThrCount.id && !s.thrOn a then 0
    else (countOpen b (regKey f a)).toNat

end Sys2Proof.Machine
end

