-- ==== Sys2Proof/Machine/SrOps.lean ====
section
/-!
DEFINITION. Machine/SrOps.lean: what a system register reads as and what a write of it does, whoever makes it (Table SYSX-6).
-/
namespace Sys2Proof.Machine

/-! ### Key rights -/

/-- The intersection of two rights codes (Table SYSX-4). -/
def meet (x y : Nat) : Nat := if x = y then x else if x = 0 || y = 0 then 0 else 1

/-- The intersection of the rights of 32 keys, key by key (R104, R108). -/
def meetWord (x y : Word) : Word :=
  BitVec.ofNat 64 ((List.range 32).foldl
    (fun v k => v + meet (natBits x.toNat (2 * k + 1) (2 * k)) (natBits y.toNat (2 * k + 1) (2 * k)) * 2 ^ (2 * k)) 0)

/-- SR.KRIGHTS0 or SR.KRIGHTS1 intersected with a written value. -/
def State.dropRights (s : State) (c n : Nat) (y : Word) : State := s.setSr c n (meetWord (s.sr c n) y)

/-! ### Reading -/

/-- SR.CPUCAP0-SR.CPUCAP3 (Table SYSX-7). -/
def cpucap (p : Part) (i : Nat) : Nat :=
  match i with
  | 0 => 0xC8F + (if p.full then 0x300 else 0)
  | 1 => 64 + 64 * 2 ^ 8 + 2048 * 2 ^ 16 + 72 * 2 ^ 32 + 14 * 2 ^ 40 + 16 * 2 ^ 48 + 64 * 2 ^ 56
  | 2 => 57 + 57 * 2 ^ 8 + 15 * 2 ^ 16 + 16 * 2 ^ 20 + 12 * 2 ^ 25 + 64 * 2 ^ 29 + 2 ^ 36
  | _ => 0

/-- The live count of event `e`, with its WRAP in bit 48 (Table PERF-5). -/
def State.pmuLive (s : State) (c e : Nat) : Nat × State :=
  if 384 ≤ e then (0, s)
  else if pmuExact e then (cellGet 0 (s.core c).pmu e, s)
  else (s.freeNat 48 + cellGet 0 (s.core c).pmu e / 2 ^ 48 * 2 ^ 48, s.useFree)

/-- The live value of threshold counter `j`: zero while it counts nothing, since the write that stopped it zeroed it (R578). -/
def State.thrLive (s : State) (c j : Nat) : Nat × State :=
  if !s.thrOn { coreIx c with j := j } then (0, s)
  else (s.freeNat 48 + cellGet 0 (s.core c).pmu (384 + j) / 2 ^ 48 * 2 ^ 48, s.useFree)

/-- SR.PMDATA: what SR.PMSEL selects (R576, Table PERF-4); a selection outside its bank reads zero. -/
def State.pmdata (s : State) (c : Nat) : Nat × State :=
  let sel := (s.sr c SR.PMSEL).toNat
  let i := natBits sel 10 2
  match natBits sel 1 0 with
  | 0 => s.pmuLive c i
  | 1 => if i < 16 then s.thrLive c i else (0, s)
  | 2 => if i < 32 then (cellGet 0 (s.core c).pmu (512 + i) % 2 ^ 48, s) else (0, s)
  | _ => if i < 4 then (s.rd Reg.pmuSampPc { coreIx c with j := i } % 2 ^ 48, s)
         else if i < 8 then (s.rd Reg.pmuSampCount { coreIx c with j := i - 4 }, s) else (0, s)

/-- Registers of Table SYSX-6. -/
def srKnown (n : Nat) : Bool :=
  decide (n ≤ 6) || [0x10, 0x40, 0x41, 0x42, 0x43, 0x80, 0x81, 0x82, 0x83, 0x84, 0xC0, 0xC1, 0xC2, 0xC3, 0xC4, 0xC5, 0xC6,
    0xC7, 0x100, 0x101, 0x102, 0x103, 0x104, 0x140, 0x141, 0x142, 0x180, 0x181, 0x1C0, 0x1C1].contains n

/-- Registers marked RO. -/
def srRo (n : Nat) : Bool :=
  decide (n ≤ 6) || [0x42, 0x43, 0x83, 0xC1, 0xC7, 0x140, 0x181].contains n

/-- Registers whose SRD or SWR is a barrier (R86). -/
def srBarrier (n : Nat) : Bool := [SR.FPCTL, SR.FPSTAT, SR.CORECTL].contains n

/-- The value an SRD of register `n` returns (Table SYSX-6); a WO register reads zero. -/
def State.srdVal (s : State) (c n : Nat) : Word × State :=
  let k := s.core c
  let o (v : Nat) : Word × State := (BitVec.ofNat 64 v, s)
  if n < 4 then o (cpucap (s.part (coreSock c)) n)
  else if n = SR.COREID then o (coreLog c + s.rd Reg.rootSocket { sock := coreSock c } * 2 ^ 8 + s.partition (coreSock c) * 2 ^ 18)
  else if n = SR.REPOCH then o (cellGet 0 s.repoch (coreSock c))
  else if n = SR.ATOMSTAT then
    o (k.aborts + (if k.region.isSome then 16 else 0) + (if 3 ≤ k.aborts then 32 else 0))
  else if n = SR.DOMAIN then o ((k.srOwn SR.DOMAIN).toNat % 65536 + (if k.world.isSome then 65536 else 0))
  else if n = SR.TIME then o (s.now (coreSock c))
  else if n = SR.PMDATA then
    let r := s.pmdata c
    (BitVec.ofNat 64 r.1, r.2)
  else if n = SR.IPI || n = SR.KEYREQ then o 0
  else (s.sr c n, s)

/-! ### Writing -/

/-- The authority bit a write needs (Table SYSX-6). -/
def srAuth (n : Nat) : Option Nat :=
  if [SR.PTB, SR.PTB2, SR.SID, SR.VMID, SR.XLATCTL].contains n then some 0
  else if [SR.EVENT_ENTRY, SR.FSP, SR.FSLIMIT, SR.EVENT_AUTH, SR.EVENT_KEYS0, SR.EVENT_KEYS1, SR.SSP, SR.TCMP].contains n
  then some 1
  else if n = SR.PMSEL then some 5
  else if n = SR.DBGCTL then some 7
  else if n = SR.KEYREQ then some 8
  else if n = SR.CORECTL then some 9
  else if n = SR.IPI then some 10
  else none

/-- The bits of a register that a write reaches (R18, R165, Tables ISA-15, ISA-16, XLAT-4, PERF-4, DBUG-3). -/
def srMask (n : Nat) : Word :=
  if n = SR.CORECTL then 3
  else if n = SR.FPCTL then 0x1FF
  else if n = SR.FPSTAT then 0x3F
  else if n = SR.FSP || n = SR.FSLIMIT then 0xFFFFFFFFFFFFFF80
  else if n = SR.EVENT_AUTH then 0x7FF
  else if n = SR.PTB then 0x01FFFFFFFFFFF000
  else if n = SR.PTB2 then 0x01FFFFFFFFFFFFF1
  else if n = SR.SID then 0xFFFF
  else if n = SR.VMID then 0xFFF
  else if n = SR.PMSEL then 0x7FF
  else if n = SR.DBGCTL then 0x3FF
  else 0xFFFFFFFFFFFFFFFF

/-- Writes that are refused whatever SR.AUTH holds: in the Vault world (R151) and in a guest (R245). -/
def State.swrDenied (s : State) (c n : Nat) (v : Word) : Bool :=
  let host := [SR.PTB2, SR.VMID, SR.IPI].contains n
  ((s.core c).world.isSome && host) ||
    ((s.core c).guest &&
      (host || (n = SR.XLATCTL && ((v ^^^ (s.core c).srOwn SR.XLATCTL) &&& 0x16) ≠ 0)))

/-- SWR to SR.XLATCTL: ignored on a seat; held pending when it sets GUEST; otherwise at once, XIT cleared (R244, R248,
Table DOMN-10). -/
def Core.writeXlatctl (k : Core) (v : Word) : Core :=
  if k.world.isSome then k
  else
    let old := k.srOwn SR.XLATCTL
    if v.getLsbD 2 && !old.getLsbD 2 then
      { k.setSrOwn SR.XLATCTL (old &&& ~~~(0x20 : Word)) with xlPend := some (v &&& 0x1F) }
    else { k.setSrOwn SR.XLATCTL (v &&& 0x1F) with xlPend := none }

/-- SR.IPI written (R178, R179): what is sent to which IHUB, or discarded and counted. -/
def State.sendIpi (s : State) (c : Nat) (v : Word) : State :=
  let k := coreSock c
  let vec := natBits v.toNat 7 0
  let l := natBits v.toNat 15 8
  let d := natBits v.toNat 25 16
  let drop := s.bump Reg.ihubDropIpi { sock := k }
  match natBits v.toNat 27 26 with
  | 0 =>
    if vec < 16 || !s.samePart k d || !s.coreThere d l then drop
    else { s with ipis := s.ipis ++ [{ sock := d, core := some l, skip := none, vector := vec }] }
  | 1 =>
    if vec < 16 || !s.samePart k d then drop
    else { s with ipis := s.ipis ++ [{ sock := d, core := none, skip := none, vector := vec }] }
  | 2 =>
    if vec < 16 then drop
    else { s with ipis := s.ipis ++ (s.partSocks k).map (fun d => { sock := d, core := none, skip := some c, vector := vec }) }
  | _ => s

/-- SR.PMSEL written: CLRWRAP clears the WRAP bit of the event or threshold counter selected (R576). -/
def State.writePmsel (s : State) (c : Nat) (v : Word) : State :=
  let i := natBits v.toNat 10 2
  let b := natBits v.toNat 1 0
  let s := s.setSr c SR.PMSEL (v &&& 0x7FF)
  if v.getLsbD 11 && ((b = 0 && i < 384) || (b = 1 && i < 16)) then s.pmuClear c (if b = 0 then i else 384 + i) else s

/-- A register written, every check passed (R92, R104, R73, Table SYSX-6). -/
def State.swrDo (s : State) (c n : Nat) (v : Word) : State :=
  if n = SR.AUTH then s.setSr c n (s.sr c n &&& v &&& 0x7FF)
  else if n = SR.KRIGHTS0 || n = SR.KRIGHTS1 then s.dropRights c n v
  else if n = SR.XLATCTL then s.updCore c (fun k => k.writeXlatctl v)
  else if n = SR.FPCTL then
    let w := v &&& 0x1FF
    s.setSr c n (if 5 ≤ (w &&& 7).toNat then (w &&& ~~~(7 : Word)) ||| (s.sr c n &&& 7) else w)
  else if n = SR.FPSTAT then s.setSr c n ((s.sr c n &&& 0x300) ||| (v &&& 0x3F))
  else if n = SR.IPI then s.sendIpi c v
  else if n = SR.PMSEL then s.writePmsel c v
  else if n = SR.SSP then (s.setSr c n v).clearRstack c (s.hardened c)
  else s.setSr c n (v &&& srMask n)

end Sys2Proof.Machine
end

