-- ==== Sys2Proof/Machine/Debug.lean ====
section
/-!
DEFINITION. Machine/Debug.lean: halting a core, stepping it, and access to a halted core's registers (R585-R591, R595).
-/
namespace Sys2Proof.Machine

/-- Whether the requester is external: JTAG or the management controller. -/
def rqExt : Rq → Bool
  | .core _ => false
  | _ => true

/-- Whether the socket's partition is Sealed and not STOPPED, as Table DBUG-1 asks. -/
def State.dbgSealed (s : State) (k : Nat) : Bool :=
  let a : Ix := { sock := k, i := s.partition k }
  (s.rd Reg.chimPartGuar a).testBit 0 && decide (s.rd Reg.chimPartState a ≠ 0)

/-- Why an access to offset `o` of the DBG block is refused, as a status code: 0 when it is allowed (Tables DBUG-1 and DBUG-2). -/
def State.dbgDenied (s : State) (rq : Rq) (k o : Nat) : Nat :=
  let l := (o - 0x10000) / 0x4000
  if rqExt rq && s.rd Reg.dbgCtlExten { sock := k } = 0 then 2
  else if o < 0x10000 then 0
  else if (s.part k).cores ≤ l || s.rd Reg.coreLmapState { sock := k, i := l } = 3 then 6
  else if rqExt rq && s.dbgSealed k then 3
  else 0

/-! ### Halting (R588-R590) -/

/-- The core halts at its boundary: an open region is aborted with INTERRUPT (R588, R593). -/
def State.haltNow (s : State) (c reason : Nat) : State :=
  let s := if (s.core c).region.isSome then s.abortRegion c 8 0 else s
  let s := s.wr Reg.dbgCoreStatHalted (coreIx c) 1
  let s := (s.wr Reg.dbgCoreStatReason (coreIx c) reason).wr Reg.dbgCoreStatHaltpend (coreIx c) 0
  s.updCore c (fun k => { k with stepping := false, traceGap := k.traceGap || s.rd Reg.dbgCoreTrctlEn (coreIx c) = 1 })

/-- HALTREQ written 1: an Exhausted core shows HALTED at once, in the Vault world the halt is held. -/
def State.haltReq (s : State) (c : Nat) : State :=
  let a := coreIx c
  let s := s.wr Reg.dbgCoreCtlHaltreq a 1
  if s.exhausted c then s.haltNow c 5
  else s.wrIf (s.core c).world.isSome Reg.dbgCoreStatHaltpend a 1

/-- Whether a requester may reach the page of a core (Table DBUG-1). -/
def State.dbgMay (s : State) (rq : Rq) (c : Nat) : Bool := s.dbgDenied rq (coreSock c) (0x10000 + 0x4000 * coreLog c) = 0

/-- HALTREQ_WRITE. -/
def execHaltreqWrite (d : DbgCore) (s : State) : Host.Outcome State Fault Refusal :=
  .next (if s.dbgMay d.rq d.c then s.haltReq d.c else s)

/-- CORE_HALT: the core halts at its next instruction boundary, ahead of every event: out of reset, awake, not on a hand-off, past an
entry window or device load; in the Vault world the halt stays pending (R588). -/
def execCoreHalt (c : Nat) (s : State) : Host.Outcome State Fault Refusal :=
  .next (
    let a := coreIx c
    let q := s.core c
    if s.rd Reg.dbgCoreCtlHaltreq a = 0 || s.rd Reg.dbgCoreStatHalted a = 1 || !s.coreMapped c || !s.outOfReset c || !s.awake c ||
        q.frozen || q.win.isSome || q.devWait.isSome || q.wait.isSome then s
    else if q.world.isSome then s.wr Reg.dbgCoreStatHaltpend a 1
    else (s.updCore c (fun q => { q with fence := none })).haltNow c 1)

/-- Whether RESUME and STEP are refused: the core is Exhausted. -/
def State.resumeDenied (s : State) (c : Nat) : Bool := s.exhausted c

/-- RESUME written 1: HALTREQ is cleared and the core goes on. -/
def State.resume (s : State) (c : Nat) : State :=
  let a := coreIx c
  if s.resumeDenied c then s
  else s.wrs a [(Reg.dbgCoreCtlHaltreq, 0), (Reg.dbgCoreStatHalted, 0), (Reg.dbgCoreStatHaltpend, 0), (Reg.dbgCoreStatReason, 0)]

/-- RESUME_WRITE. -/
def execResumeWrite (d : DbgCore) (s : State) : Host.Outcome State Fault Refusal := .next (if s.dbgMay d.rq d.c then s.resume d.c else s)

/-- STEP written 1: one instruction is to be executed, and the core halts again (R590). -/
def State.stepReq (s : State) (c : Nat) : State :=
  let halted := s.rd Reg.dbgCoreStatHalted (coreIx c) = 1
  if s.resumeDenied c then s
  else (s.resume c).updCore c (fun q => { q with stepping := q.stepping || halted })

/-- STEP_WRITE. -/
def execStepWrite (d : DbgCore) (s : State) : Host.Outcome State Fault Refusal := .next (if s.dbgMay d.rq d.c then s.stepReq d.c else s)

/-! ### Registers of a halted core (R591) -/

/-- A register read: file 0 general, 1 pieces of vector registers, 2 masks, 3 system registers and the pc. -/
def State.accRead (s : State) (c file i : Nat) : Option (Word × State) :=
  let q := s.core c
  match file with
  | 0 => if i < 32 then some (q.gr (BitVec.ofNat 5 i), s) else none
  | 1 => if i < 256 then some (((q.vr (BitVec.ofNat 5 (i / 8))) >>> (64 * (i % 8))).setWidth 64, s) else none
  | 2 => if i < 8 then some (q.mr (BitVec.ofNat 3 i), s) else none
  | _ => if i = 0xFFF then some (q.pc, s) else if srKnown i then some (s.srdVal c i) else none

/-- SR.KEYREQ written by a debugger: the block is translated as for SWR; one that cannot be used completes BAD_REQ. -/
def State.accKeyreq (s : State) (c : Nat) (v : Word) : Option State :=
  match (s.core c).keyReq, s.xlateC c Acc.store (v &&& ~~~(63 : Word)) with
  | none, .ok t s =>
    let q := s.core c
    let r : KeyReq := { op := natBits v.toNat 5 0, pa := t.pa, world := q.world, domain := (q.srOwn SR.DOMAIN).toNat % 65536,
                        kr0 := q.srOwn SR.KRIGHTS0, kr1 := q.srOwn SR.KRIGHTS1 }
    some (s.updCore c (fun q => { q with keyReq := some r }))
  | _, _ => none

/-- A register written; a system register as by SWR without authority. -/
def State.accWrite (s : State) (c file i : Nat) (v : Word) : Option State :=
  match file with
  | 0 => if i < 32 then some (s.updCore c (fun q => q.setG (BitVec.ofNat 5 i) v)) else none
  | 1 =>
    if i < 256 then
      let r : Reg5 := BitVec.ofNat 5 (i / 8)
      some (s.updCore c (fun q => q.setV r (BitVec.ofNat 512 (natSetBits (q.vr r).toNat (64 * (i % 8)) 64 v.toNat))))
    else none
  | 2 => if i < 8 then some (s.updCore c (fun q => q.setM (BitVec.ofNat 3 i) v)) else none
  | _ =>
    if i = 0xFFF then some (s.updCore c (fun q => { q with pc := v }))
    else if !srKnown i || srRo i then none
    else if i = SR.KEYREQ then s.accKeyreq c v
    else some ((s.swrDo c i v).reharden c)

/-- ACC.GO written 1: the access ACC.FILE, INDEX, WRITE and DATA name, with its status (R591, Table DBUG-2). -/
def State.accGo (s : State) (c : Nat) : State :=
  let a := coreIx c
  let file := s.rd Reg.dbgCoreAccFile a
  let i := s.rd Reg.dbgCoreAccIndex a
  let st (s : State) (n : Nat) : State := s.wr Reg.dbgCoreAccStatus a n
  if s.rd Reg.dbgCoreStatHalted a = 0 then (st s 5).wr Reg.dbgCoreAccData a 0
  else if s.rd Reg.dbgCoreAccWrite a = 1 then
    match s.accWrite c file i (BitVec.ofNat 64 (s.rd Reg.dbgCoreAccData a)) with
    | some s => st s 0
    | none => st s 7
  else
    match s.accRead c file i with
    | some (v, s) => (st s 0).wr Reg.dbgCoreAccData a v.toNat
    | none => (st s 7).wr Reg.dbgCoreAccData a 0

/-- ACC_GO, by a requester that may reach the core's page. -/
def execAccGo (rq : Rq) (c : Nat) (s : State) : Host.Outcome State Fault Refusal :=
  .next (if s.dbgDenied rq (coreSock c) (0x10010 + 0x4000 * coreLog c) = 0 then s.accGo c else s)

/-- TRCTL.EN written: when tracing starts a time stamp is recorded (R595). -/
def State.traceSet (s : State) (c : Nat) (en : Bool) : State :=
  let a := coreIx c
  let was := s.rd Reg.dbgCoreTrctlEn a = 1
  let s := s.wr Reg.dbgCoreTrctlEn a (if en then 1 else 0)
  if !en || was then s
  else if (s.core c).world.isSome || s.isSealed (coreSock c) || s.rd Reg.dbgCoreStatHalted a = 1 then
    s.updCore c (fun q => { q with traceGap := true })
  else s.trStamp c

end Sys2Proof.Machine
end

