-- ==== Sys2Proof/Machine/Fail.lean ====
section
/-!
DEFINITION. Machine/Fail.lean: the saved record (R511), a socket's failure (R528) and the reset of a core (R557).
-/
namespace Sys2Proof.Machine

/-! ### The saved record (R511, Table RELY-5) -/

/-- The fabric summary of a socket. -/
def State.summary (s : State) (k cause : Nat) : List Nat :=
  let a : Ix := { sock := k }
  let links (n : Nat) : Nat := (List.range 6).foldl (fun v i =>
    v + (if s.rd Reg.flueStateLink { sock := k, inst := i } = n then 2 ^ i else 0)) 0
  let retired := ((List.range 272).filter (fun i => s.rd Reg.hrthSliceRetired { sock := k, i := i } = 1)).length
  let newest := s.rd Reg.ashEntry { sock := k, i := (s.rd Reg.ashRingWrptr a + 4095) % 4096, j := 0 } % 2 ^ 32
  [s.rd Reg.rootSocket a + s.partition k * 2 ^ 10 + cause * 2 ^ 16 + links 3 * 2 ^ 18 + links 2 * 2 ^ 24 +
      s.rd Reg.chimRrActive a * 2 ^ 30 + s.rd Reg.chimSyncLocked a * 2 ^ 31,
   s.now k, cellGet 0 s.repoch k, s.rd Reg.ashOverrun a + newest * 2 ^ 32,
   s.rd Reg.chimRrDown a + s.rd Reg.ashSpareLeft a * 2 ^ 16 + retired * 2 ^ 32, 0, 0, 0]

/-- The newest 64 entries, oldest first, and the summary copied to the save store; the record is there from now on. -/
def State.saveRecord (s : State) (k cause : Nat) : State :=
  let a : Ix := { sock := k }
  let w := s.rd Reg.ashRingWrptr a
  let n := min 64 (cellGet 0 s.ashTotal k)
  let sum := s.summary k cause
  let s := (List.range 64).foldl (fun s j => (List.range 8).foldl (fun s i =>
    s.wr Reg.ashSaved { sock := k, i := j, j := i }
      (if j < n then s.rd Reg.ashEntry { sock := k, i := (w + 4096 - n + j) % 4096, j := i } else 0)) s) s
  let s := (List.range 8).foldl (fun s i => s.wr Reg.ashSummary { sock := k, i := i } (nth 0 sum i)) s
  (s.wr Reg.ashNvValid a 1).wr Reg.ashNvCause a cause

/-! ### Socket failure (R528) -/

/-- The modified lines of a core whose L2 cannot be read: their latest data is lost and they are poisoned (R520). -/
def State.poisonOwned (s : State) (c : Nat) : State :=
  (s.core c).l2.foldl (fun s e => match e.2 with
    | some .M => ((s.setPoison e.1 true).wroteHome e.1).setBits e.1 .none
    | _ => s) s

/-- What a socket's caches held is gone: data modified there is lost and poisoned (DEDUCED from R520). -/
def State.socketGone (s : State) (k : Nat) : State :=
  let cs := (s.cores.map (·.1)).filter (fun c => coreSock c = k)
  let s := cs.foldl (fun s c => ((s.poisonOwned c).release c).updCore c (fun q => { q with l2 := [], l2bad := [], l1i := [], l1d := [] })) s
  { s.sliceClear (fun q _ => q = k) with sf := s.sf.filter (fun e => decide (e.1 % 1024 ≠ k)) }

/-- A socket fails: it stops whole, records and saves why, tells its management controller, and its crossbar and flues
stop; ERR# asserts (R619). -/
def State.socketFail (s : State) (k src inst d4 : Nat) : State :=
  if !s.up k then s
  else
    let s := s.ash k { cls := 4, src := src, inst := inst, code := 0x09, part := s.partition k, d4 := d4 }
    let s := (s.saveRecord k 2).mgcReason k 2
    let s := (List.range 6).foldl (fun s n =>
      s.wrIf (s.rd Reg.flueStateLink { sock := k, inst := n } = 2) Reg.flueStateLink { sock := k, inst := n } 3) s
    { s.socketGone k with down := cellSet 0 s.down k 2
                          pwrs := cellSet Pwr.idle s.pwrs k { cellGet Pwr.idle s.pwrs k with errp := true } }

/-! ### Core reset (R557, R184) -/

/-- The lockstep pair that logical core `l` of socket `k` is the main or the checker of, with an entry in use. -/
def State.pairOf (s : State) (k l : Nat) : Option Nat :=
  (List.range 128).find? (fun p => s.rd Reg.ashLsEn { sock := k, i := p } = 1 &&
    (s.rd Reg.ashLsMain { sock := k, i := p } = l || s.rd Reg.ashLsChecker { sock := k, i := p } = l))

/-- The ACTIVE pair of a logical core. -/
def State.activePair (s : State) (k l : Nat) : Option Nat :=
  (s.pairOf k l).bind (fun p => if s.rd Reg.ashLsState { sock := k, i := p } = 2 then some p else none)

/-- Where a core starts (R557, Table POWR-10 BOOT.PC). -/
def State.bootPc (s : State) (k : Nat) : Word := BitVec.ofNat 64 (k * 2 ^ 47 + s.rd Reg.pwrBootPc { sock := k } * 2)

/-- A core's registers, caches and pending state as a reset leaves them; its lines and its queue are gone already.  HARDEN stays
written and is in effect from the first instruction (R204). -/
def State.coreClear (s : State) (c : Nat) : State :=
  let a := coreIx c
  let s := (List.range 4).foldl (fun s j => s.wr Reg.ihubPend { a with j := j } 0) s
  let s := s.wrs a [(Reg.ihubCoreCstateRpri, 0), (Reg.ihubCoreTpri, 0), (Reg.ihubCoreCstateDepth, 0),
    (Reg.ihubCoreCstateExhausted, 0), (Reg.pwrCoreSel, 0), (Reg.pwrCorePllen, 0), (Reg.pwrCoreLocked, 0),
    (Reg.pwrCoreCur, 1600), (Reg.pwrCoreCstate, 0)]
  let s := s.setCore c { coreDefault c with pc := s.bootPc (coreSock c), hardenEff := s.rd Reg.coreCfgHarden a = 1 }
  { s with bucketDebt := cellErase s.bucketDebt (coreSock c * 512 + coreLog c) }

/-- One core reset, `none` while a hand-off of it or its sleep entry is under way or a store of its queue cannot be performed yet: its stores
are performed, its lines written home, its held lines released, its seat abandoned as a crash (R152, R316). -/
def State.coreResetOne (s : State) (c : Nat) : Option State :=
  if (s.core c).frozen || (match (s.core c).wait with | some w => w.closing | none => false) then none
  else
    match s.drain c with
    | none => none
    | some s =>
      let s := match (s.core c).world with
        | some w => (s.vaultTrigger w.1).setWorld c none
        | none => s
      some (((s.flushL2 c).release c).coreClear c)

/-- A core reset; of an ACTIVE lockstep pair it resets both cores, and the pair is tested again (R557). -/
def State.coreReset (s : State) (c : Nat) : Option State :=
  let k := coreSock c
  match s.pairOf k (coreLog c) with
  | some p =>
    let a : Ix := { sock := k, i := p }
    if s.rd Reg.ashLsState a = 2 then
      ((s.coreResetOne (k * 256 + s.rd Reg.ashLsMain a)).bind
        (fun s => s.coreResetOne (k * 256 + s.rd Reg.ashLsChecker a))).map (fun s => s.wr Reg.ashLsState a 1)
    else s.coreResetOne c
  | none => s.coreResetOne c

end Sys2Proof.Machine
end

