-- ==== Sys2Proof/Machine/Mesh.lean ====
section
/-!
DEFINITION. Machine/Mesh.lean: the arbitration scheme (R333-R337), the mesh of 308 stops with its buffers and protection
(R323-R332, R345-R348), the profile commit (R338-R340) and the Bellows gates (R341-R343).
-/
namespace Sys2Proof.Machine

/-! ### The arbitration scheme (R333) -/

/-- A profile word (Table MESH-4): N, BURST and THRESH clamped, and the weights. -/
structure Prof where
  n : Nat
  burst : Nat
  thresh : Nat
  w : List Nat
deriving DecidableEq, Repr

/-- The profile a word spells for `k` requesters. -/
def profOf (k x : Nat) : Prof :=
  { n := min 64 (max 2 (natBits x 6 0)), burst := min 64 (max 1 (natBits x 13 7)), thresh := natBits x 29 14,
    w := (List.range k).map (fun i => natBits x (33 + 4 * i) (30 + 4 * i)) }

/-- The requester among `l` with the largest value, the lower-numbered on a tie (R334). -/
def pickMax (f : Nat → Nat) (l : List Nat) : Option Nat :=
  l.foldl (fun b i => match b with | none => some i | some j => if f j < f i then some i else some j) none

/-- One unit of an arbitration point with candidates `cand` in ascending order: the grant and the point after it. -/
def Arb.unit (p : Prof) (cand : List Nat) (a : Arb) : Option Nat × Arb :=
  let wt (i : Nat) : Nat := nth 0 a.wait i
  if cand.isEmpty then (none, { a with holder := none, run := 0, wait := [] })
  else
    let fresh := cand.all (fun i => nth 0 a.allow i = 0)
    let a1 := if a.g % p.n = p.n - 1 then a
      else if fresh then { a with allow := p.w, holder := none, run := 0 } else a
    let elig := cand.filter (fun i => decide (0 < nth 0 a1.allow i))
    let aged := a.g % p.n = p.n - 1 || elig.isEmpty
    let w := if aged then pickMax wt cand
      else match a1.holder with
        | some h => if elig.contains h && a1.run < p.burst then some h else pickMax (fun i => nth 0 p.w i) elig
        | none => pickMax (fun i => nth 0 p.w i) elig
    match w with
    | none => (none, a1)
    | some w =>
      let allow := if aged then a1.allow else setNth a1.allow w (nth 0 a1.allow w - 1)
      let a2 := if a1.holder = some w then { a1 with run := a1.run + 1 } else { a1 with holder := some w, run := 1 }
      (some w, { a2 with g := a.g + 1, allow := allow,
                         wait := (List.range p.w.length).map (fun i =>
                           if i = w || !cand.contains i then 0 else wt i + 1),
                         told := a.told.filter (· ≠ w) })

/-- The key of an arbitration point: socket, kind (Table MESH-8 STARVE.KIND) and instance. -/
def arbKey (k kind inst : Nat) : Nat := (k * 8 + kind) * 2 ^ 17 + inst

/-- An arbitration point. -/
def State.arb (s : State) (k kind inst : Nat) : Arb := cellGet Arb.idle s.arbs (arbKey k kind inst)

/-- ARB_STARVATION: a requester's wait exceeds THRESH; reported once for the episode (R336).  For a mesh output port, whose
waits the state holds, the wait must do so. -/
def execArbStarvation (k kind inst req : Nat) (s : State) : Host.Outcome State Fault Refusal :=
  .next (
    let a : Ix := { sock := k }
    let x := s.arb k kind inst
    let word := match kind with
      | 0 => s.rd Reg.arbMeshport a
      | 1 => s.rd Reg.arbL2port { a with i := inst }
      | 2 => s.rd Reg.arbHearthq a
      | 3 => s.rd Reg.mcArb { a with inst := inst }
      | _ => s.rd Reg.stkArb { a with inst := inst }
    let th := (profOf 5 word).thresh
    if th = 0 || x.told.contains req || (kind = 0 && nth 0 x.wait req ≤ th) || 4 < kind then s
    else
      let s := s.bump Reg.arbStarvecnt a
      let s : State := { s with arbs := cellSet Arb.idle s.arbs (arbKey k kind inst) { x with told := req :: x.told } }
      if s.rd Reg.arbStarveFlag a = 1 then s
      else
        let s := s.wrs a [(Reg.arbStarveFlag, 1), (Reg.arbStarveKind, kind), (Reg.arbStarveInstance, inst),
          (Reg.arbStarveReq, req)]
        if s.rd Reg.arbStintEn a = 1 then s.sysVector k (s.rd Reg.arbStintCore a) (s.rd Reg.arbStintVec a) else s)

/-! ### Profile commit (R340) -/

/-- The blocks a commit covers: the ARB block (0), the memory controllers (1 + n) and the Stoker cells (17 + n). -/
def commitBlocks (p : Part) : List Nat := List.range 17 ++ (if p.full then (List.range 8).map (· + 17) else [])

/-- A commit sent to every block. -/
def State.commitSend (s : State) (k : Nat) : State :=
  { (s.wr Reg.arbCommitPending { sock := k } 1) with
    commitLeft := cellSet [] s.commitLeft k (commitBlocks (s.part k)) }

/-- COMMIT.GO written 1 (R340). -/
def State.commitGo (s : State) (k : Nat) : State :=
  if s.rd Reg.arbCommitPending { sock := k } = 1 then s.wr Reg.arbCommitQueued { sock := k } 1 else s.commitSend k

/-- SHADOW_COMMIT_ARRIVAL: the commit reaches a block, which applies the shadow values it holds (R17, R340). -/
def execShadowCommitArrival (b : Blk) (k inst : Nat) (s : State) : Host.Outcome State Fault Refusal :=
  .next (
    let code := match b with | .arb => some 0 | .mc => some (1 + inst) | .stk => some (17 + inst) | _ => none
    match code with
    | none => s
    | some n =>
      let l := cellGet [] s.commitLeft k
      if l.contains n then
        let arbField (f : Fld) : Bool := match f.blk with
          | .mc => f.id = Reg.mcArb.id | .stk => f.id = Reg.stkArb.id | _ => true
        let s := s.commitBlk b k (fun i f => (i = inst || b = .arb) && arbField f)
        { s with commitLeft := cellSet [] s.commitLeft k (l.filter (· ≠ n)) }
      else s)

/-- ARB_COMMIT_DONE: every point has switched; a queued commit starts (R340). -/
def execArbCommitDone (k : Nat) (s : State) : Host.Outcome State Fault Refusal :=
  .next (
    let a : Ix := { sock := k }
    if s.rd Reg.arbCommitPending a = 0 || !(cellGet [] s.commitLeft k).isEmpty then s
    else
      let s := s.wr Reg.arbCommitPending a 0
      if s.rd Reg.arbCommitQueued a = 1 then (s.wr Reg.arbCommitQueued a 0).commitSend k else s)

/-! ### Stops and links (R323-R328, R348) -/

/-- A stop's place. -/
def stopXY (n : Nat) : Nat × Nat := (n % 22, n / 22)

/-- The stop on the other side of an input port: 0 N, 1 E, 2 S, 3 W. -/
def stopNbr (n port : Nat) : Option Nat :=
  let p := stopXY n
  match port with
  | 0 => if p.2 = 0 then none else some (n - 22)
  | 1 => if p.1 = 21 then none else some (n + 1)
  | 2 => if p.2 = 13 then none else some (n + 22)
  | 3 => if p.1 = 0 then none else some (n - 1)
  | _ => none

/-- The output a flit takes at a stop: along the row, then along the column, 4 when it has arrived (R326). -/
def stopOut (n dst : Nat) : Nat :=
  let p := stopXY n
  let d := stopXY dst
  if p.1 < d.1 then 1 else if d.1 < p.1 then 3 else if p.2 < d.2 then 2 else if d.2 < p.2 then 0 else 4

/-- Whether a link crosses a die boundary (R348). -/
def isBridge (n port : Nat) : Bool :=
  let p := stopXY n
  match port with
  | 0 => p.2 = 7 && decide (1 ≤ p.1) && decide (p.1 ≤ 20)
  | 2 => p.2 = 6 && decide (1 ≤ p.1) && decide (p.1 ≤ 20)
  | 1 => [0, 5, 10, 15, 20].contains p.1
  | 3 => [1, 6, 11, 16, 21].contains p.1
  | _ => false

/-- Depth of an input buffer (Table MESH-3). -/
def inDepth (n port cls : Nat) : Nat := (if cls = 3 then 16 else 8) * (if isBridge n port then 2 else 1)

/-- What stands at a stop (R22, R23): a grate with its physical core and slice, a tile's service stop, or an edge unit. -/
inductive StopUnit
  | grate (slice : Nat) | service (tile : Nat) | mc (n : Nat) | flue (n : Nat) | prc (n : Nat) | secMgc | ihub
deriving DecidableEq, Repr

/-- The edge stop of row `y`, in the west column or (`e` = 1) the east one (Table MESH-1, Table SYSI-1). -/
def edgeUnit (e y : Nat) : StopUnit :=
  match y with
  | 2 => .flue (3 * e) | 6 => .flue (3 * e + 1) | 11 => .flue (3 * e + 2)
  | 5 => .prc (2 * e) | 8 => .prc (2 * e + 1)
  | 7 => if e = 0 then .secMgc else .ihub
  | 0 => .mc (8 * e) | 1 => .mc (8 * e + 1) | 3 => .mc (8 * e + 2) | 4 => .mc (8 * e + 3)
  | 9 => .mc (8 * e + 4) | 10 => .mc (8 * e + 5) | 12 => .mc (8 * e + 6) | _ => .mc (8 * e + 7)

/-- What stands at stop `n` (R21-R25, R324, R325). -/
def stopUnit (n : Nat) : StopUnit :=
  let p := stopXY n
  if p.1 = 0 then edgeUnit 0 p.2
  else if p.1 = 21 then edgeUnit 1 p.2
  else
    let t := (p.1 - 1) / 5 + 4 * (p.2 / 7)
    let k := 5 * (p.2 % 7) + (p.1 - 1) % 5
    if k = 17 then .service t else .grate (34 * t + (if k < 17 then k else k - 1))

/-- The stop of a unit. -/
def unitStop (u : StopUnit) : Nat := ((List.range 308).find? (fun n => stopUnit n = u)).getD 0

/-- Whether the unit at a stop of part `p` sends messages of a class (R22, R23, R302, R329): snoops come from home slices and, as forwarded
invalidations, from the interrupt hub, which sends no request; a flue stop only passes on what the crossbar brings it. -/
def Part.sends (p : Part) (n cls : Nat) : Bool :=
  match stopUnit n with
  | .grate g => p.sliceOn g || decide (g % 34 < p.perTile + p.spares)
  | .service _ => p.full && decide (cls ≠ 1)
  | .ihub => decide (cls ≠ 0) && decide (cls ≠ 4)
  | .flue _ => false
  | _ => decide (cls ≠ 1)

/-- The stop of a flue (Table MESH-1). -/
def flueStop (n : Nat) : Nat := nth 2 [2, 6, 11, 2, 6, 11] n * 22 + (if n < 3 then 0 else 21)

/-- The flue stop at which a flit for stop `d` enters the mesh (R369). -/
def ejectFlue (d : Nat) : Nat :=
  let p := stopXY d
  let dist (r : Nat) : Nat := (p.2 - r) + (r - p.2)
  let best := if dist 2 ≤ dist 6 && dist 2 ≤ dist 11 then 0 else if dist 6 ≤ dist 11 then 1 else 2
  if p.1 ≤ 10 then best else best + 3

/-- The key of an input buffer. -/
def inKey (k n port cls : Nat) : Nat := ((k * 512 + n) * 8 + port) * 8 + cls

/-- The key of a stop. -/
def stopKey (k n : Nat) : Nat := k * 512 + n

/-- The flits in an input buffer, oldest first. -/
def State.inBuf (s : State) (k n port cls : Nat) : List Flit := cellGet [] s.meshIn (inKey k n port cls)

/-- An input buffer replaced. -/
def State.setIn (s : State) (k n port cls : Nat) (l : List Flit) : State :=
  { s with meshIn := cellSet [] s.meshIn (inKey k n port cls) l }

/-- The stop of socket `k` a flit is bound for: its own, or the flue stop of the port it leaves by (R369, R374); at the stop
where it stands when no way is left. -/
def State.flitStop (s : State) (k here : Nat) (f : Flit) : Nat :=
  if f.dsock = k then f.dstop
  else
    match s.way k f.dsock with
    | some (st :: _, _) => (match s.portOf k st with | some n => flueStop n | none => here)
    | _ => here

/-- The class order of a mesh output port's requesters (Table MESH-5). -/
def meshReq : List Nat := [4, 2, 3, 1, 0]

/-- The input ports of stop `n` whose head flit of a class leaves by output `out`, the longest-waiting first, in the order N,
E, S, W, L on a tie (R339). -/
def State.headFor (s : State) (k n out cls : Nat) : Option Nat :=
  (List.range 5).foldl (fun b p =>
    match s.inBuf k n p cls with
    | f :: _ =>
      if stopOut n (s.flitStop k n f) = out then
        match b with
        | none => some p
        | some q => (match s.inBuf k n q cls with | g :: _ => if f.time < g.time then some p else some q | [] => some p)
      else b
    | [] => b) none

/-- ERR.LAST of the MESH block. -/
def State.meshLast (s : State) (k n port kind : Nat) : State :=
  s.wrs { sock := k } [(Reg.meshErrLastStop, n), (Reg.meshErrLastPort, port), (Reg.meshErrLastKind, kind)]

/-- MESH.ERR.LAST as an Ashpan entry records it. -/
def meshLastWord (n port kind : Nat) : Nat := n + port * 2 ^ 9 + kind * 2 ^ 12

/-- The key of a link, at its receiving input. -/
def linkKey (k n port : Nat) : Nat := (k * 512 + n) * 8 + port

/-- A link. -/
def State.mlink (s : State) (k n port : Nat) : MLink := cellGet { refused := 0, st := 0 } s.mlinks (linkKey k n port)

/-- A link replaced. -/
def State.setMlink (s : State) (k n port : Nat) (l : MLink) : State :=
  { s with mlinks := cellSet { refused := 0, st := 0 } s.mlinks (linkKey k n port) l }

/-! ### Injection and ejection -/

/-- The transaction number of a new request to another socket (R378). -/
def State.newTxid (s : State) (k stop dsock : Nat) : Nat × State :=
  let key := (k * 512 + stop) * 1024 + dsock
  let n := cellGet 0 s.txNext key
  (n, { s with txNext := cellSet 0 s.txNext key ((n + 1) % 4096) })

/-- A flit put in an output queue: one of an Assured partition goes ahead of the others but for those of its own class and channel
(R368, R370). -/
def xInsert (f : Flit) : List Flit → List Flit
  | [] => [f]
  | y :: t =>
    if f.a && !y.a && !(y :: t).any (fun z => z.a || (z.cls = f.cls && z.vc = f.vc)) then f :: y :: t else y :: xInsert f t

/-- A flit put in the queue of a crossbar output (R370). -/
def State.xPut (s : State) (k port : Nat) (f : Flit) : State :=
  { s with xout := cellSet [] s.xout (k * 8 + port) (xInsert f (cellGet [] s.xout (k * 8 + port))) }

/-- The channel of a flit's first link from socket `k`: the detour channel on a detour of a torus, otherwise VC0 (R375). -/
def State.vcFirst (s : State) (k : Nat) (det : Bool) : Nat :=
  if det && decide (2 ≤ s.rd Reg.chimTopoKind { sock := k }) then 2 else 0

/-- A flit that leaves socket `k` by the steps `t` after its first one. -/
def State.sendOff (s : State) (k : Nat) (det : Bool) (t : List Nat) (f : Flit) : Flit :=
  { f with vc := s.vcFirst k det, dstep := if det then 1 else 0, plan := t, time := s.time }

/-- The stop of socket `k` that injected a flit: for data of another socket the flue stop it entered by is the endpoint (R347, R369). -/
def Flit.source (f : Flit) (k : Nat) : Nat := if f.ssock = k then f.sstop else flueStop (ejectFlue f.dstop)

/-- A data flit kept in the replay store of the stop that injects it (R347). -/
def State.replayKeep (s : State) (k n : Nat) (f : Flit) : State :=
  if f.cls = 3 then
    { s with meshReplay := cellSet [] s.meshReplay (stopKey k n) (cellGet [] s.meshReplay (stopKey k n) ++ [(f, 0)]) }
  else s

/-- Whether the replay store of a stop takes no further data flit (R347). -/
def State.replayFull (s : State) (k n cls : Nat) : Bool :=
  cls = 3 && decide (128 ≤ (cellGet [] s.meshReplay (stopKey k n)).length)

/-- A data flit is good at its destination: a DACK is due to its source (R347). -/
def State.dataDue (s : State) (k n : Nat) (f : Flit) : State :=
  let key := (k * 512 + n) * 512 + f.source k
  { s with meshDue := cellSet [] s.meshDue key (cellGet [] s.meshDue key ++ [f.tag]) }

/-- A data flit with a bad CRC: discarded and to be refused, or, after three resends, taken as poisoned (R347). -/
def State.dataBad (s : State) (k n port : Nat) (f : Flit) : State :=
  let a : Ix := { sock := k }
  let s := (s.bump Reg.meshErrCrcfail a).meshLast k n port 2
  let src := stopKey k (f.source k)
  let l := cellGet [] s.meshReplay src
  let fails := ((l.find? (fun e => e.1.tag = f.tag && e.1.dstop = f.dstop)).map (·.2)).getD 0
  if 3 ≤ fails then
    let s := (s.bump Reg.meshErrCrcpoison a).setPoison f.tag true
    let s := s.ash k { cls := 1, src := 0x20, inst := n, code := 0x04, addr := f.tag * 64, part := s.partition k,
                       d4 := meshLastWord n port 2 }
    s.dataDue k n f
  else
    let key := (k * 512 + n) * 512 + f.source k
    { s with
      meshReplay := cellSet [] s.meshReplay src
        (l.map (fun (e : Flit × Nat) => if e.1.tag = f.tag && e.1.dstop = f.dstop then (e.1, e.2 + 1) else e))
      meshNak := cellSet [] s.meshNak key (cellGet [] s.meshNak key ++ [f.tag]) }

/-- A flit leaves the mesh at stop `n`: at its destination, or at the flue stop of the port it leaves the socket by, where
its partition, channel and first steps are written (R327, R369, R375, R381). -/
def State.eject (s : State) (k n port : Nat) (badCrc : Bool) (f : Flit) : State :=
  let s := if f.cls = 3 then (if badCrc then s.dataBad k n port f else s.dataDue k n f) else s
  if f.dsock = k || (f.cls = 3 && badCrc) then s
  else
    match s.way k f.dsock with
    | some (st :: t, det) =>
      (match s.portOf k st with
       | some p => s.xPut k p (s.sendOff k det t { f with part := s.partition k, a := s.isAssured k })
       | none => s)
    | _ => s

/-- Requests of a stop that a socket has not yet passed on, by their numbers: a requester never has more than 2,048 (R378). -/
def State.txFull (s : State) (k stop dsock cls : Nat) : Bool :=
  dsock ≠ k && (cls = 0 || cls = 4) &&
    decide (2048 ≤ (cellGet 0 s.txNext ((k * 512 + stop) * 1024 + dsock) + 4096 -
      cellGet 0 s.txExp ((dsock * 1024 + k) * 512 + stop)) % 4096)

/-- Whether a flit at stop `n` has come to where it leaves the mesh: its own stop, or the flue stop of its port (R326, R369).  One for
which no way to its socket is left waits where it is (R330). -/
def State.arrived (s : State) (k n : Nat) (f : Flit) : Bool :=
  stopOut n (s.flitStop k n f) = 4 && (f.dsock = k || (match s.way k f.dsock with | some (_ :: _, _) => true | _ => false))

/-- A flit that waited at stop `n` for a way out of the socket and has one now: its input and class. -/
def State.waiting (s : State) (k n : Nat) : Option (Nat × Nat × Flit) :=
  (List.range 25).findSome? (fun i => match s.inBuf k n (i / 5) (i % 5) with
    | f :: _ => if s.arrived k n f then some (i / 5, i % 5, f) else none
    | [] => none)

/-- FLIT_ARRIVAL at input `port` of stop `n`.  At the local input (4) the unit's new flit of class `cls` for stop `dstop` of
socket `dsock`, of its own partition (R31, R625), is injected, when its buffer and, for data, the stop's replay store have room,
and once no flit waits there to leave the socket.  At another input the flit is
the one the neighbour's output port grants (R333, R339).  `err` is 0 good, 1 a single-bit error, 2 a double-bit error, 3 a
CRC mismatch that shows when a data flit is ejected (R330, R345-R347). -/
def execFlitArrival (k n port err cls dsock dstop tag : Nat) (s : State) : Host.Outcome State Fault Refusal :=
  .next (
    let a : Ix := { sock := k }
    if !s.up k || 308 ≤ n || 4 < port then s
    else if port = 4 then
      match s.waiting k n with
      | some (p, c, f) => (s.setIn k n p c ((s.inBuf k n p c).drop 1)).eject k n p false f
      | none =>
      if 4 < cls || 308 ≤ dstop || !(s.part k).sends n cls || (cls = 4 && !s.isAssured k) || !s.samePart k dsock ||
          inDepth n 4 cls ≤ (s.inBuf k n 4 cls).length || s.replayFull k n cls || s.txFull k n dsock cls then s
      else
        let r := if dsock ≠ k && (cls = 0 || cls = 4) then s.newTxid k n dsock else (0, s)
        let f : Flit := { cls := cls, cast := 0, a := s.isAssured k, dsock := dsock, ssock := k, part := s.partition k,
                          dstop := dstop, sstop := n, txid := r.1, tag := tag, hops := 0, vc := 0, dstep := 0, groups := 0,
                          count := 0, plan := [], time := s.time }
        let s := r.2.replayKeep k n f
        if s.arrived k n f then s.eject k n 4 (err = 3) f
        else s.setIn k n 4 cls (s.inBuf k n 4 cls ++ [f])
    else
      match stopNbr n port with
      | none => s
      | some u =>
        let out := (port + 2) % 4
        if (s.mlink k n port).st ≠ 0 || decide (8 ≤ (s.mlink k n port).refused) then s
        else
          let ready (i : Nat) : Bool :=
            let c := nth 0 meshReq i
            (s.headFor k u out c).isSome && decide ((s.inBuf k n port c).length < inDepth n port c)
          let inst := u * 8 + out
          let r := (s.arb k 0 inst).unit (profOf 5 (s.rd Reg.arbMeshport a)) ((List.range 5).filter ready)
          match r.1 with
          | none => s
          | some i =>
            let c := nth 0 meshReq i
            match s.headFor k u out c with
            | none => s
            | some q =>
              match s.inBuf k u q c with
              | [] => s
              | f :: t =>
                if err = 2 then
                  let l := s.mlink k n port
                  ((s.bump Reg.meshErrHopretry a).meshLast k n port 1).setMlink k n port { l with refused := l.refused + 1 }
                else
                  let s := if err = 1 then (s.bump Reg.meshErrHopcorr a).meshLast k n port 0 else s
                  let s : State := { (s.setMlink k n port { refused := 0, st := 0 }) with
                    arbs := cellSet Arb.idle s.arbs (arbKey k 0 inst) r.2 }
                  let s := s.setIn k u q c t
                  let f := { f with time := s.time }
                  if s.arrived k n f then s.eject k n port (err = 3) f
                  else s.setIn k n port c (s.inBuf k n port c ++ [f]))

/-! ### Data acknowledgement (R347) -/

/-- Up to 16 good flits acknowledged by stop `d` to stop `src`, whose replay store they leave. -/
def State.dack (s : State) (k d src : Nat) : State :=
  let key := (k * 512 + d) * 512 + src
  let due := cellGet [] s.meshDue key
  let now := due.take 16
  let l := cellGet [] s.meshReplay (stopKey k src)
  { s with
    meshDue := cellSet [] s.meshDue key (due.drop 16)
    meshReplay := cellSet [] s.meshReplay (stopKey k src)
      (l.filter (fun e => !(now.contains e.1.tag && (e.1.dstop = d || decide (e.1.dsock ≠ k))))) }

/-- DACK: 16 flits from one source are due. -/
def execDack (k d src : Nat) (s : State) : Host.Outcome State Fault Refusal :=
  .next (if 16 ≤ (cellGet [] s.meshDue ((k * 512 + d) * 512 + src)).length then s.dack k d src else s)

/-- DACK_TIMER: 8 mesh clocks after the first flit that is due. -/
def execDackTimer (k d src : Nat) (s : State) : Host.Outcome State Fault Refusal := .next (s.dack k d src)

/-- DNAK: the refused flit is resent from the source's replay store, ahead of its later flits. -/
def execDnak (k d src : Nat) (s : State) : Host.Outcome State Fault Refusal :=
  .next (
    let key := (k * 512 + d) * 512 + src
    match cellGet [] s.meshNak key with
    | [] => s
    | x :: t =>
      let s : State := { s with meshNak := cellSet [] s.meshNak key t }
      match (cellGet [] s.meshReplay (stopKey k src)).find? (fun e => e.1.tag = x) with
      | some e => s.setIn k src 4 3 ({ e.1 with time := s.time } :: s.inBuf k src 4 3)
      | none => s)

/-! ### Failing links (R346) -/

/-- MESH_LINK_FAILING: a flit was refused 8 times in succession.  A bridge is repaired; any other link's loss is a socket
failure. -/
def execMeshLinkFailing (k n port : Nat) (s : State) : Host.Outcome State Fault Refusal :=
  .next (
    let l := s.mlink k n port
    if l.refused < 8 || l.st ≠ 0 then s
    else if isBridge n port then s.setMlink k n port { l with st := 1 }
    else (s.meshLast k n port 4).socketFail k 0x20 n (meshLastWord n port 4))

/-- BRIDGE_LANE_REPAIR: the failing bridge is stopped and retrained. -/
def execBridgeLaneRepair (k n port : Nat) (s : State) : Host.Outcome State Fault Refusal :=
  .next (if (s.mlink k n port).st = 1 then s.setMlink k n port { s.mlink k n port with st := 2 } else s)

/-- BRIDGE_REPAIR_DONE: the repair is counted and flits continue in order, or the socket fails. -/
def execBridgeRepairDone (k n port : Nat) (ok : Bool) (s : State) : Host.Outcome State Fault Refusal :=
  .next (
    if (s.mlink k n port).st ≠ 2 then s
    else if ok then
      let s := ((s.bump Reg.meshErrLanerep { sock := k }).meshLast k n port 3).setMlink k n port { refused := 0, st := 0 }
      s.ash k { cls := 2, src := 0x20, inst := n, code := 0x06, part := s.partition k, d4 := meshLastWord n port 3 }
    else (s.meshLast k n port 4).socketFail k 0x20 n (meshLastWord n port 4))

end Sys2Proof.Machine
end

