-- ==== Sys2Proof/Machine/Hearth.lean ====
section
/-!
DEFINITION. Machine/Hearth.lean: the coherence messages one by one (R302-R316, Tables HRTH-2 to HRTH-4), the atomic buffer
(R313), retiring a slice and the rebuild (R317-R321, Tables HRTH-5 and HRTH-6) and the check of a stripe region (R295).

A core's own accesses are whole transactions (`Coh.lean`); the commands here move the same directory state one message at a
time.  A requester is a core, or an agent of socket `k` written 2^20 + 256 k + n.
-/
namespace Sys2Proof.Machine

/-! ### Requesters and messages -/

/-- The socket of a requester. -/
def reqSock (f : Nat) : Nat := (if f < 2 ^ 20 then f else f - 2 ^ 20) / 256

/-- The home socket of a line as its requester's socket decodes it. -/
def State.homeFor (s : State) (f ln : Nat) : Tgt := s.target (reqSock f) (ln * 64)

/-- A message sent. -/
def State.say (s : State) (k : MsgK) (ln src dst n : Nat) : State :=
  { s with net := s.net ++ [{ k := k, ln := ln, src := src, dst := dst, n := n }] }

/-- The same message sent to each of several sockets. -/
def State.sayAll (s : State) (k : MsgK) (ln src : Nat) (l : List Nat) : State :=
  l.foldl (fun s d => s.say k ln src d 0) s

/-- The first message of a kind about a line to a destination (from `src`, when that is asked for). -/
def State.heard (s : State) (k : MsgK) (ln dst : Nat) (src : Option Nat) : Option Msg :=
  s.net.find? (fun m => m.k = k && m.ln = ln && m.dst = dst && (match src with | some x => m.src = x | none => true))

/-- A message taken off the fabric. -/
def State.took (s : State) (m : Msg) : State := { s with net := s.net.erase m }

/-- The transaction that keeps a line busy at a home. -/
def State.txn (s : State) (ln : Nat) : Option Txn := s.txns.find? (fun t => t.req.ln = ln)

/-- The transaction of a line changed. -/
def State.updTxn (s : State) (ln : Nat) (f : Txn → Txn) : State :=
  { s with txns := s.txns.map (fun (t : Txn) => if t.req.ln = ln then f t else t) }

/-- The transaction of a line ended. -/
def State.endTxn (s : State) (ln : Nat) : State := { s with txns := s.txns.filter (fun t => t.req.ln ≠ ln) }

/-! ### Holders -/

/-- A core other than the requester that holds the line E or M. -/
def State.ownerBut (s : State) (f ln : Nat) : Option Nat :=
  (s.cores.find? (fun (e : Nat × Core) => decide (e.1 ≠ f) && (e.2.l2st ln = some .M || e.2.l2st ln = some .E))).map (·.1)

/-- Whether some core of socket `k` other than the requester holds the line. -/
def State.sockHas (s : State) (k f ln : Nat) : Bool := s.otherHas f ln (fun d _ => decide (coreSock d = k))

/-- The sockets an ownership request, a masked write or an invalidation must snoop, given the bits read: every socket of the
partition when the line is UNKNOWN or its sharers are (R301, R303), else the recorded ones and the home's own holders. -/
def State.snoopSet (s : State) (h f ln : Nat) (b : DirBits) : List Nat × Bool :=
  let q := reqSock f
  let loc := if s.sockHas h f ln then [h] else []
  let all := ((s.partSocks h).filter (fun k => decide (k ≠ q)) ++ (if q = h then loc else []), true)
  let groups (v : BitVec 64) : List Nat :=
    (s.partSocks h).filter (fun k => decide (k ≠ q) && decide (k ≠ h) && v.getLsbD (s.group h k % 64))
  if s.rd Reg.hrthBucketUnk { sock := h, i := s.bucket h (ln * 64) } = 1 then all
  else match b with
    | .unknown => all
    | .none => (loc, false)
    | _ =>
      match cellGet none s.rsc ln with
      | some (.p _ l) => (l.filter (fun k => decide (k ≠ q) && decide (k ≠ h)) ++ loc, false)
      | some (.c v) => (groups v ++ loc, false)
      | none =>
        let g := cellGet 0 s.rscG (s.rscGKey h ln)
        if g ≠ 0 then (groups g ++ loc, false)
        else match b with
          | .shared => all
          | _ => (loc, false)

/-- The code of directory bits (Table HRTH-1). -/
def DirBits.code : DirBits → Nat
  | .none => 0 | .shared => 1 | .owned => 2 | .unknown => 3

/-- Directory bits from their code. -/
def dirBitsOf : Nat → DirBits
  | 0 => .none | 1 => .shared | 2 => .owned | _ => .unknown

/-! ### Requests at the home (Table HRTH-3) -/

/-- Whether the request asks for ownership. -/
def ReqK.isOwn : ReqK → Bool
  | .rdo | .upg | .own | .lockx => true
  | _ => false

/-- Memory read for a shared request under the grant rule of R305. -/
def State.memRead (s : State) (h : Nat) (r : Req) : State :=
  let q := reqSock r.frm
  let b := s.dirState h r.ln false
  let e := (match r.k with | .rd => true | _ => false) && b.code = 0 && !s.sockHas h r.frm r.ln
  let s1 := if e then (s.setBits r.ln .owned).rscOwn h r.ln q
    else if q = h then s else (s.setBits r.ln .shared).rscAdd h r.ln q
  let s2 := s1.say (if e then .dataE else .dataS) r.ln h r.frm 0
  s2.say .bits r.ln h h b.code

/-- A masked write, a Hearth atomic or a maintenance request once no copy is left to recall: its effect, its answer, and
whether its transaction is over. -/
def State.finishHome (s : State) (h : Nat) (r : Req) : State :=
  let ln := r.ln
  match r.k with
  | .wru bytes =>
    let s := (s.macWrite h ln ((List.range 64).all (fun i => bytes.any (fun e => e.1 = i)))).recallAll ln h
    let s := { s with mem := bytes.foldl (fun m (e : Nat × Byte) => memSet m (ln * 64 + e.1 % 64) e.2) s.mem }
    let s := if (List.range 64).all (fun i => bytes.any (fun e => e.1 = i)) then s.setPoison ln false else s
    s.say .cmp ln h r.frm 0
  | .hat op off size x _ posted =>
    let pa := ln * 64 + off
    let old := memNat s.mem pa size
    let s := if s.badLine (ln * 64) then s else s.hatApply h ln pa (leBytes size (hatOp op size old (x.toNat % 2 ^ (8 * size))))
    (if posted then s else s.say .atres ln h r.frm old).endTxn ln
  | .cmo k =>
    let s := if k = 1 then s.cmoClean h ln else if k = 2 then s.recallAll ln h else s.cmoInval h ln
    s.say .cmp ln h r.frm 0
  | _ => s

/-- Whether the requester's socket is a recorded sharer of a line, so that an UPG is granted without data (Table HRTH-3). -/
def State.sharer (s : State) (h f ln : Nat) : Bool :=
  let q := reqSock f
  if q = h then decide ((s.core f).l2st ln = some .S)
  else match cellGet none s.rsc ln with
    | some (.p _ l) => l.contains q
    | some (.c v) => v.getLsbD (s.group h q % 64)
    | none => (cellGet 0 s.rscG (s.rscGKey h ln)).getLsbD (s.group h q % 64)

/-- Whether a request needs an entry of the remote-sharer cache: one of another socket for a copy. -/
def Req.entry (r : Req) (h : Nat) : Bool :=
  decide (reqSock r.frm ≠ h) && (r.k.isOwn || (match r.k with | .rds | .rd => true | _ => false))

/-- The home starts a request: what it does on what it finds (Table HRTH-3). -/
def State.serve (s : State) (h : Nat) (r : Req) : State :=
  let f := r.frm
  let ln := r.ln
  let s := match r.k with | .hat .. => s | _ => s.unbuffer h ln
  let s := if r.entry h then s.roomRsc h ln else s
  let t : Txn := { req := r, home := h, data := false, expect := none, acks := 0, wait := [], granted := false }
  let s : State := { s with txns := s.txns ++ [t] }
  let owner := s.ownerBut f ln
  match r.k with
  | .rds | .rd =>
    match owner with
    | some o => s.say .snps ln h (coreSock o) 0
    | none => s.memRead h r
  | .rdu =>
    match owner with
    | some o => s.say .snps ln h (coreSock o) 0
    | none => s.say .dataU ln h f 0
  | .rdo | .upg | .own | .lockx =>
    let s := match r.k with
      | .lockx => { s with held := cellSet none s.held ln (some { holder := f, waiter := none }) }
      | _ => s
    let noData : Bool := match r.k with | .own => true | .upg => s.sharer h f ln | _ => false
    let s := if noData then s.updTxn ln (fun t => { t with data := true }) else s
    match owner with
    | some o =>
      let s := (s.setBits ln .owned).rscOwn h ln (reqSock f)
      match r.k with
      | .own => (s.say .snpi ln h (coreSock o) 0).say .gnt ln h f 1
      | _ => (s.say .snpx ln h (coreSock o) 0).say .gnt ln h f 0
    | none =>
      let b := s.dirState h ln false
      let s := s.setBits ln .owned
      let s := if noData then s else s.say .dataM ln h f 0
      s.say .bits ln h h b.code
  | .wru _ | .hat .. =>
    if (match r.k with | .hat .. => s.buffered h ln | _ => false) then s.finishHome h r
    else
      match owner with
      | some o => (s.updTxn ln (fun t => { t with wait := [coreSock o] })).say .snpr ln h (coreSock o) 0
      | none =>
        let l := (s.snoopSet h (2 ^ 21) ln (s.dirState h ln false)).1
        if l.isEmpty then s.finishHome h r
        else (s.updTxn ln (fun t => { t with wait := l })).sayAll .snpi ln h l
  | .cmo k =>
    match owner, k with
    | some o, 1 => (s.updTxn ln (fun t => { t with wait := [coreSock o] })).say .snpc ln h (coreSock o) 0
    | none, 1 => s.finishHome h r
    | some o, 2 => (s.updTxn ln (fun t => { t with wait := [coreSock o] })).say .snpr ln h (coreSock o) 0
    | _, _ =>
      let l := ((s.snoopSet h (2 ^ 21) ln (s.dirState h ln owner.isSome)).1 ++
        (match owner with | some o => [coreSock o] | none => [])).eraseDups
      if l.isEmpty then s.finishHome h r
      else (s.updTxn ln (fun t => { t with wait := l })).sayAll .snpi ln h l

/-- The requests that wait at a home for a line, started one after another as long as it is not busy (R303); at most `n`. -/
def State.serveWaiting (h ln : Nat) : Nat → State → State
  | 0, s => s
  | n + 1, s =>
    if (s.txn ln).isSome then s
    else
      match s.hq.find? (fun r => r.ln = ln) with
      | none => s
      | some r => State.serveWaiting h ln n (State.serve { s with hq := s.hq.erase r } h r)

/-- Whether the 96 transaction entries of a line's home slice are all in use (R310). -/
def State.slotsFull (s : State) (h ln : Nat) : Bool :=
  decide (96 ≤ (s.txns.filter (fun t => t.home = h && s.sliceFor h (t.req.ln * 64) = s.sliceFor h (ln * 64))).length)

/-- A free transaction entry of a slice taken by the oldest request that waits there for a line that is not busy (R310, R337). -/
def State.serveSlot (s : State) (h sl : Nat) : State :=
  let l := s.hq.filter (fun r => (s.homeFor r.frm r.ln).isMem && (s.homeFor r.frm r.ln).home = h && s.sliceFor h (r.ln * 64) = sl &&
    (s.txn r.ln).isNone && s.rd Reg.hrthBucketMig { sock := h, i := s.bucket h (r.ln * 64) } = 0)
  match l.foldl (fun (b : Option Req) r => match b with | some x => if r.age < x.age then some r else some x | none => some r) none with
  | some r => if s.slotsFull h r.ln then s else State.serve { s with hq := s.hq.erase r } h r
  | none => s

/-- The next request that waits at a home for a line that is no longer busy (R303), or for the entry its transaction leaves. -/
def State.serveNext (s : State) (h ln : Nat) : State :=
  (State.serveWaiting h ln s.hq.length s).serveSlot h (s.sliceFor h (ln * 64))

/-- Whether a request must be answered RETRY: the line is held by another region (R315), or it needs an entry of the remote-sharer cache
where every one is held (R300). -/
def State.mustRetry (s : State) (h : Nat) (r : Req) : Bool :=
  (match cellGet none s.held r.ln with
   | some e => decide (e.holder ≠ r.frm)
   | none => false) || (r.entry h && s.rscFull h r.ln)

/-- RETRY: counted, the requester reissues later, and the oldest retrier of the line is recorded (R310). -/
def State.sayRetry (s : State) (h : Nat) (r : Req) : State :=
  let s := (s.bump Reg.hrthStatRetries { sock := h }).say .retry r.ln h r.frm 0
  let older (w : Nat) : Bool := s.retried.any (fun x => x.frm = w && x.ln = r.ln && decide (x.age ≤ r.age))
  let held := match cellGet none s.held r.ln with
    | some e => cellSet none s.held r.ln (some { e with waiter := match e.waiter with
        | some w => if older w then some w else some r.frm
        | none => some r.frm })
    | none => s.held
  { s with retried := s.retried ++ [r], held := held }

/-- A request at its home: held at its source while its bucket moves (R319), answered RETRY for a line held by another region,
behind the line's other requests while it is busy, or with no transaction entry free, else started. -/
def State.atHome (s : State) (h : Nat) (r : Req) : State :=
  if s.rd Reg.hrthBucketMig { sock := h, i := s.bucket h (r.ln * 64) } = 1 then
    { (s.exempt (reqSock r.frm) Reg.chimAexcStalled) with hq := s.hq ++ [r] }
  else if s.mustRetry h r then s.sayRetry h r
  else if (s.txn r.ln).isSome || s.slotsFull h r.ln then { s with hq := s.hq ++ [r] }
  else s.serve h r

/-- A request sent towards its home: in an Assured partition it waits at its gate for a token (R341, R342). -/
def State.sendReq (s : State) (h : Nat) (r : Req) : State :=
  let k := reqSock r.frm
  match gateOf r.frm with
  | some g =>
    let s := if s.inSet k g h then s else s.exempt k Reg.chimAexcOutset
    if s.gateShut k g then
      { s with gateQ := cellSet [] s.gateQ (k * 512 + g) (cellGet [] s.gateQ (k * 512 + g) ++ [r]) }
    else s.atHome h r
  | none => s.atHome h r

/-- A request leaves its caching slice for its home: nothing when the address has no memory, or a core already holds what it
asks for. -/
def State.request (s : State) (k : ReqK) (f pa : Nat) : State :=
  let ln := lineOf pa
  let s := s.touch (reqSock f) ln
  let has := cacheAgent f && (match k, (s.core f).l2st ln with
    | .rds, some _ | .rd, some _ => true
    | .rdo, some .M | .rdo, some .E | .upg, some .M | .upg, some .E | .own, some .M | .own, some .E => true
    | _, _ => false)
  match s.homeFor f ln with
  | .dram h _ | .cxl h _ =>
    if has then s else s.sendReq h { k := k, ln := ln, frm := f, age := s.now (reqSock f) }
  | _ => s

/-- A read request of core `c`: its caching slice answers it before anything leaves the socket where it can (R25, Table HRTH-4). -/
def State.readReq (s : State) (k : ReqK) (c pa : Nat) : State :=
  let ln := lineOf pa
  match (s.core c).l2st ln with
  | some _ => s
  | none =>
    match s.homeFor c ln with
    | .dram h _ | .cxl h _ =>
      if s.heldByOther c ln || (s.txn ln).isSome || s.badLine pa then s.request k c pa
      else
        match ((s.touch (coreSock c) ln).room c ln).sliceRead c ln h (match k with | .rd => true | _ => false) with
        | some s' => s'
        | none => s.request k c pa
    | _ => s.request k c pa

/-- An ownership request of core `c`: other copies of its own socket go first when the home is elsewhere; permission E of the
socket is enough, and under permission S an UPG goes to the home in place of an RDO (Table HRTH-4). -/
def State.ownReq (s : State) (k : ReqK) (c pa : Nat) : State :=
  let ln := lineOf pa
  match s.homeFor c ln with
  | .dram h _ | .cxl h _ =>
    let q := coreSock c
    if h = q || s.heldByOther c ln || (s.txn ln).isSome then s.request k c pa
    else
      let perm := (cellGet none s.sf (sfKey ln q)).map (·.excl)
      let has := s.inSlice q ln || s.otherHas (2 ^ 21) ln (fun d _ => decide (coreSock d = q))
      let s := { s with cores := s.cores.map (fun (e : Nat × Core) =>
        if e.1 ≠ c && coreSock e.1 = q then (e.1, Core.snoopDrop ln e.2) else e) }
      let k := match k with | .rdo => if perm = some false && has then .upg else .rdo | k => k
      if perm = some true && has then (((s.room c ln).sliceDrop q ln).sfAdd c ln true).toM c ln else s.request k c pa
  | _ => s

/-! ### Request commands -/

/-- BELLOWS_ADMIT: the oldest request that waits at gate `g` is admitted with a token (R341, R342). -/
def execBellowsAdmit (k g : Nat) (s : State) : Host.Outcome State Fault Refusal :=
  .next (match cellGet [] s.gateQ (k * 512 + g) with
    | [] => s
    | r :: t =>
      if s.gateTokens k g = 0 then s
      else
        let s : State := { (s.gateTake k g) with gateQ := cellSet [] s.gateQ (k * 512 + g) t }
        match s.homeFor r.frm r.ln with
        | .dram h _ | .cxl h _ => s.atHome h r
        | _ => s)


/-- UPG. -/
def execUpg (c pa : Nat) (s : State) : Host.Outcome State Fault Refusal := .next (s.ownReq .upg c pa)
/-- OWN. -/
def execOwn (c pa : Nat) (s : State) : Host.Outcome State Fault Refusal := .next (s.ownReq .own c pa)
/-- RDU of a requester that keeps no copy. -/
def execRdu (f pa : Nat) (s : State) : Host.Outcome State Fault Refusal := .next (s.request .rdu f pa)
/-- WRU of bytes at offsets of the line. -/
def execWru (f pa : Nat) (bytes : List (Nat × Byte)) (s : State) : Host.Outcome State Fault Refusal :=
  .next (s.request (.wru bytes) f pa)
/-- HAT: an atomic of 4 or 8 bytes at a natural boundary (R82, R312). -/
def execHat (c pa op : Nat) (wide posted : Bool) (x : Word) (s : State) : Host.Outcome State Fault Refusal :=
  .next (let n := if wide then 8 else 4
    if pa % n ≠ 0 || 8 < op then s else s.request (.hat op (pa % 64) n x 0 posted) c pa)
/-- CMO: `kind` 1 CCLEAN, 2 CFLUSH, 3 CINVAL. -/
def execCmo (c pa kind : Nat) (s : State) : Host.Outcome State Fault Refusal :=
  .next (if kind = 0 || 3 < kind then s else s.request (.cmo kind) c pa)
/-- LOCKX (R315). -/
def execLockx (c pa : Nat) (s : State) : Host.Outcome State Fault Refusal :=
  .next (match (s.core c).l2st (lineOf pa) with
    | some .M | some .E =>
      if s.heldByOther c (lineOf pa) || (s.txn (lineOf pa)).isSome then s.request .lockx c pa
      else { s with held := cellSet none s.held (lineOf pa) (some { holder := c, waiter := none }) }
    | _ => s.ownReq .lockx c pa)

/-- WB: from the recorded owner the data is written to memory; KEEP leaves the sender a clean shared copy.  From any other
sender the data is discarded.  A held line is not evicted (R315). -/
def execWb (c pa : Nat) (keep : Bool) (s : State) : Host.Outcome State Fault Refusal :=
  .next (let ln := lineOf pa
    match s.homeFor c ln with
    | .dram h _ | .cxl h _ =>
      let s := s.say .wback ln h c 0
      if (s.core c).l2st ln = some .M then
        if keep then
          let s := (s.updCore c (fun k => k.setL2 ln (some .S))).wroteHome ln
          let s := s.slicePut (coreSock c) ln
          if coreSock c = h then (s.setBits ln .none).sfShare ln
          else { (s.setBits ln .shared).sfShare ln with rsc := cellSet none s.rsc ln (some (.p false [coreSock c])) }
        else if (cellGet none s.held ln).isSome then s else s.evict c ln
      else s
    | _ => s)

/-- EV: a clean copy given up (R296); a held line is not evicted (R315). -/
def execEv (c pa : Nat) (s : State) : Host.Outcome State Fault Refusal :=
  .next (match (s.core c).l2st (lineOf pa) with
    | some .E | some .S => if (cellGet none s.held (lineOf pa)).isSome then s else s.evict c (lineOf pa)
    | _ => s)

/-- UNLOCK: the held line is released once the holder's region is over, and the recorded retrier served first (R310, R316). -/
def execUnlock (c pa : Nat) (s : State) : Host.Outcome State Fault Refusal :=
  .next (let ln := lineOf pa
    match cellGet none s.held ln, s.homeFor c ln with
    | some e, .dram h _ | some e, .cxl h _ =>
      let inRegion := match (s.core c).region with | some r => r.held.contains ln | none => false
      if e.holder ≠ c || inRegion then s
      else
        let s := { s with held := cellErase s.held ln }
        match e.waiter.bind (fun w => s.retried.find? (fun r => r.frm = w && r.ln = ln)) with
        | some r => State.atHome { s with retried := s.retried.erase r } h r
        | none => s.serveNext h ln
    | _, _ => s)

/-! ### Snoops (R307) -/

/-- The copies of a socket's cores invalidated, and its snoop-filter entry and data-array line with them. -/
def State.dropIn (s : State) (d f ln : Nat) : State :=
  let s := { s with cores := s.cores.map (fun (e : Nat × Core) =>
    if e.1 ≠ f && coreSock e.1 = d then (e.1, Core.snoopDrop ln e.2) else e) }
  let s := if (s.core f).l2st ln ≠ none && coreSock f = d then s else { s with sf := cellErase s.sf (sfKey ln d) }
  s.sliceDrop d ln

/-- Whether socket `d` owns the line through a core other than `f`. -/
def State.ownsIn (s : State) (d f ln : Nat) : Bool :=
  s.otherHas f ln (fun e x => decide (coreSock e = d) && decide (x ≠ .S))

/-- A snoop of kind `k` reaches socket `d` for the line at `pa`; `f` answers for the holder, given the message and the
transaction. -/
def State.snooped (s : State) (k : MsgK) (d pa : Nat) (f : Msg → Txn → State → State) : State :=
  match s.heard k (lineOf pa) d none, s.txn (lineOf pa) with
  | some m, some t => f m t (s.took m)
  | _, _ => s

/-- SNPS: an owner keeps S, forwards the data to the requester and a copy to the home; without the line it answers that it
held nothing. -/
def execSnps (d pa : Nat) (s : State) : Host.Outcome State Fault Refusal :=
  .next (s.snooped .snps d pa (fun m t s =>
    let ln := m.ln
    if s.ownsIn d t.req.frm ln then
      let s := { s with cores := s.cores.map (fun (e : Nat × Core) =>
        if e.1 ≠ t.req.frm && coreSock e.1 = d then (e.1, Core.snoopDown ln e.2) else e) }
      let s := ((s.wroteHome ln).sfShare ln).say (match t.req.k with | .rdu => .dataU | _ => .dataS) ln d t.req.frm 0
      s.say .srsp ln d m.src 0
    else s.say .srsp ln d m.src 2))

/-- SNPI: the copies of a socket go, acknowledged to the requester of ownership, or to the home for a write, an atomic or
maintenance. -/
def execSnpi (d pa : Nat) (s : State) : Host.Outcome State Fault Refusal :=
  .next (s.snooped .snpi d pa (fun m t s =>
    let s := s.dropIn d t.req.frm m.ln
    if t.req.k.isOwn then s.say .ack m.ln d t.req.frm 1 else s.say .srsp m.ln d m.src 1))

/-- SNPX: the owner's copy goes, forwarded with ownership to the requester. -/
def execSnpx (d pa : Nat) (s : State) : Host.Outcome State Fault Refusal :=
  .next (s.snooped .snpx d pa (fun m t s =>
    if s.ownsIn d t.req.frm m.ln then
      ((s.dropIn d t.req.frm m.ln).say .dataM m.ln d t.req.frm 0).say .srsp m.ln d m.src 1
    else s.say .srsp m.ln d m.src 2))

/-- SNPR: the copy goes and modified data returns to the home. -/
def execSnpr (d pa : Nat) (s : State) : Host.Outcome State Fault Refusal :=
  .next (s.snooped .snpr d pa (fun m _ s =>
    if s.ownsIn d (2 ^ 21) m.ln then ((s.dropIn d (2 ^ 21) m.ln).wroteHome m.ln).say .srsp m.ln d m.src 1
    else s.say .srsp m.ln d m.src 2))

/-- SNPC: modified data written home, the copy kept. -/
def execSnpc (d pa : Nat) (s : State) : Host.Outcome State Fault Refusal :=
  .next (s.snooped .snpc d pa (fun m t s =>
    if s.ownsIn d (2 ^ 21) m.ln then
      ((s.cmoClean t.home m.ln)).say .srsp m.ln d m.src 0
    else s.say .srsp m.ln d m.src 2))

/-- SRSP at the home from socket `d`: a read whose owner held nothing is served from memory, a write, an atomic or
maintenance is finished once every socket has answered (R307). -/
def execSrsp (h d pa : Nat) (s : State) : Host.Outcome State Fault Refusal :=
  .next (let ln := lineOf pa
    match s.heard .srsp ln h (some d), s.txn ln with
    | some m, some t =>
      let s := s.took m
      let q := reqSock t.req.frm
      match t.req.k with
      | .rds | .rd =>
        if m.n = 2 then s.memRead h t.req
        else if q = h && d = h then s.setBits ln .none
        else
          let s := s.setBits ln .shared
          let s := if d = h then { s with rsc := cellErase s.rsc ln }
            else { s with rsc := cellSet none s.rsc ln (some (.p false [d])) }
          if q = h then s else s.rscAdd h ln q
      | .rdu =>
        if m.n = 2 then s.say .dataU ln h t.req.frm 0
        else
          let s := s.setBits ln .shared
          { s with rsc := if d = h then cellErase s.rsc ln else cellSet none s.rsc ln (some (.p false [d])) }
      | .rdo | .upg | .own | .lockx => if m.n = 2 then s.say .dataM ln h t.req.frm 0 else s
      | _ =>
        let s := s.updTxn ln (fun t => { t with wait := t.wait.filter (· ≠ d) })
        if (t.wait.filter (· ≠ d)).isEmpty then (s.finishHome h t.req).serveNext h ln else s
    | _, _ => s)

/-- BITS_READ_TO_HOME: the home learns the bits the memory controller read; for ownership the snoops and the GNT with their
count follow (R305). -/
def execBitsReadToHome (h pa : Nat) (s : State) : Host.Outcome State Fault Refusal :=
  .next (let ln := lineOf pa
    match s.heard .bits ln h none, s.txn ln with
    | some m, some t =>
      let s := s.took m
      if t.req.k.isOwn then
        let r := s.snoopSet h t.req.frm ln (dirBitsOf m.n)
        let s := if r.2 then (s.bump Reg.hrthStatBcast { sock := h }).exempt (reqSock t.req.frm) Reg.chimAexcBcast else s
        ((s.sayAll .snpi ln h r.1).rscOwn h ln (reqSock t.req.frm)).say .gnt ln h t.req.frm r.1.length
      else s
    | _, _ => s)

/-! ### At the requester (R309) -/

/-- Whether the requester has the data, the GNT and every acknowledgement it states. -/
def Txn.complete (t : Txn) : Bool :=
  match t.req.k with
  | .rds | .rd | .rdu => t.data
  | .rdo | .upg | .own | .lockx => t.data && (match t.expect with | some n => decide (n ≤ t.acks) | none => false)
  | _ => false

/-- The line installed M once an ownership transaction is complete. -/
def State.installM (s : State) (ln : Nat) : State :=
  match s.txn ln with
  | some t =>
    if t.req.k.isOwn && t.complete && !t.granted && cacheAgent t.req.frm then
      let s := ((s.room t.req.frm ln).sfAdd t.req.frm ln true).toM t.req.frm ln
      s.updTxn ln (fun t => { t with granted := true })
    else s
  | none => s

/-- A message of kind `k` about the line at `pa` reaches requester `f`, whose transaction it changes. -/
def State.received (s : State) (k : MsgK) (f pa : Nat) (g : Msg → Txn → Txn) (h : State → State) : State :=
  match s.heard k (lineOf pa) f none with
  | some m =>
    let s := s.took m
    match s.txn (lineOf pa) with
    | some t => if t.req.frm = f then h (s.updTxn (lineOf pa) (g m)) else s
    | none => s
  | none => s

/-- A line installed in core `f` in a shared or exclusive state; one homed elsewhere enters its caching slice's data array too (R286). -/
def State.installL2 (s : State) (f pa : Nat) (x : L2St) : State :=
  if cacheAgent f then
    let s := s.room f (lineOf pa)
    let s := if 2 ^ 20 ≤ f || (s.homeFor f (lineOf pa)).home = reqSock f then s else s.slicePut (reqSock f) (lineOf pa)
    (s.sfAdd f (lineOf pa) (x = .E)).updCore f (fun k => k.setL2 (lineOf pa) (some x))
  else s

/-- DATA_S. -/
def execDataS (f pa : Nat) (s : State) : Host.Outcome State Fault Refusal :=
  .next (s.received .dataS f pa (fun _ t => { t with data := true }) (fun s => s.installL2 f pa .S))
/-- DATA_E. -/
def execDataE (f pa : Nat) (s : State) : Host.Outcome State Fault Refusal :=
  .next (s.received .dataE f pa (fun _ t => { t with data := true }) (fun s => s.installL2 f pa .E))
/-- DATA_M. -/
def execDataM (f pa : Nat) (s : State) : Host.Outcome State Fault Refusal :=
  .next (s.received .dataM f pa (fun _ t => { t with data := true }) (fun s => s.installM (lineOf pa)))
/-- DATA_U. -/
def execDataU (f pa : Nat) (s : State) : Host.Outcome State Fault Refusal :=
  .next (s.received .dataU f pa (fun _ t => { t with data := true }) (fun s => s))
/-- GNT, with the number of acknowledgements to expect. -/
def execGnt (f pa : Nat) (s : State) : Host.Outcome State Fault Refusal :=
  .next (s.received .gnt f pa (fun m t => { t with expect := some m.n }) (fun s => s.installM (lineOf pa)))
/-- ACK, possibly combined; it may come before the GNT. -/
def execAck (f pa : Nat) (s : State) : Host.Outcome State Fault Refusal :=
  .next (s.received .ack f pa (fun m t => { t with acks := t.acks + m.n }) (fun s => s.installM (lineOf pa)))

/-- FIN: the requester holds everything; the line is no longer busy (R309). -/
def execFin (f pa : Nat) (s : State) : Host.Outcome State Fault Refusal :=
  .next (match s.txn (lineOf pa) with
    | some t => if t.req.frm = f && t.complete then (s.endTxn (lineOf pa)).serveNext t.home (lineOf pa) else s
    | none => s)

/-- CMP: its acknowledgement ends the transaction (R303). -/
def execCmp (f pa : Nat) (s : State) : Host.Outcome State Fault Refusal :=
  .next (match s.heard .cmp (lineOf pa) f none with
    | some m =>
      let s := s.took m
      match s.txn (lineOf pa) with
      | some t => if t.req.frm = f then (s.endTxn (lineOf pa)).serveNext t.home (lineOf pa) else s
      | none => s
    | none => s)

/-- A message that only frees what its receiver kept for it. -/
def State.consume (s : State) (k : MsgK) (f pa : Nat) : State :=
  match s.heard k (lineOf pa) f none with | some m => s.took m | none => s

/-- ATRES: the old value reaches the core. -/
def execAtres (f pa : Nat) (s : State) : Host.Outcome State Fault Refusal := .next (s.consume .atres f pa)
/-- WBACK: the writer frees its buffer (R307). -/
def execWback (f pa : Nat) (s : State) : Host.Outcome State Fault Refusal := .next (s.consume .wback f pa)
/-- RETRY: the request waits to be reissued (R310). -/
def execRetry (f pa : Nat) (s : State) : Host.Outcome State Fault Refusal := .next (s.consume .retry f pa)

/-- RETRY_REISSUE: the caching slice sends the request again with its original age (R310). -/
def execRetryReissue (f pa : Nat) (s : State) : Host.Outcome State Fault Refusal :=
  .next (match s.retried.find? (fun r => r.frm = f && r.ln = lineOf pa) with
    | some r =>
      match s.homeFor f r.ln with
      | .dram h _ | .cxl h _ => State.atHome { s with retried := s.retried.erase r } h r
      | _ => s
    | none => s)

/-! ### The atomic buffer -/

/-- ATOMIC_BUFFER_WRITEBACK: a buffered line is written to memory and leaves the buffer (R313). -/
def execAtomicBufferWriteback (h pa : Nat) (s : State) : Host.Outcome State Fault Refusal :=
  .next (s.unbuffer h (lineOf pa))

/-! ### Retiring a slice (Tables HRTH-5 and HRTH-6) -/

/-- The retirement in progress at a socket. -/
def State.retiring (s : State) (k : Nat) : Option Retire := cellGet none s.retire k

/-- The retirement of a socket replaced. -/
def State.setRetire (s : State) (k : Nat) (r : Option Retire) : State := { s with retire := cellSet none s.retire k r }

/-- The number of the slice-migration action of a socket. -/
def actSlice : Nat := 1

/-- Whether a slice serves: enabled and not retired. -/
def State.sliceLive (s : State) (k n : Nat) : Bool :=
  s.rd Reg.hrthSliceEnabled { sock := k, i := n } = 1 && s.rd Reg.hrthSliceRetired { sock := k, i := n } = 0

/-- The live slices of a socket. -/
def State.liveSlices (s : State) (k : Nat) : List Nat := (List.range 272).filter (s.sliceLive k)

/-- A retirement that begins: MIG shows it. -/
def State.startRetire (s : State) (k sl : Nat) (fail : Bool) (q : List (Nat × Bool)) : State :=
  let a : Ix := { sock := k }
  let s := ((s.wr Reg.hrthMigSlice a sl).wr Reg.hrthMigActive a 1).wr Reg.hrthMigSrcfail a 0
  (s.wr Reg.hrthMigQueued a q.length).setRetire k
    (some { slice := sl, fail := fail, step := 1, bucket := 0, target := 0, bad := [], queue := q, left := [] })

/-- A retirement asked for: one runs per socket, 15 wait, more are recorded and ignored; the last enabled slice is never
retired (R317). -/
def State.retireReq (s : State) (k sl : Nat) (fail : Bool) : State :=
  if !s.sliceLive k sl || (s.liveSlices k).length ≤ 1 then s
  else
    match s.retiring k with
    | none => s.startRetire k sl fail []
    | some r =>
      if r.slice = sl && r.step ≠ 0 then s
      else if r.queue.any (fun e => e.1 = sl) then s
      else if r.queue.length < 15 then
        (s.wr Reg.hrthMigQueued { sock := k } (r.queue.length + 1)).setRetire k (some { r with queue := r.queue ++ [(sl, fail)] })
      else s.ash k { cls := 5, src := 0x10, inst := sl, code := 0x07, part := s.partition k }

/-- The slice that a bucket of the retiring slice goes to: the enabled one with the fewest buckets, the lowest on a tie
(R292). -/
def State.retireTarget (s : State) (k : Nat) (r : Retire) : Option Nat :=
  ((s.liveSlices k).filter (fun n => decide (n ≠ r.slice) && !r.bad.contains n)).foldl (fun b n =>
    match b with
    | none => some n
    | some m => if s.rd Reg.hrthSliceBuckets { sock := k, i := n } < s.rd Reg.hrthSliceBuckets { sock := k, i := m }
        then some n else some m) none

/-- The buckets of a part. -/
def Part.buckets : Part → Nat
  | .eq128l => 2176 | _ => 4352

/-- The buckets a slice still serves, ascending. -/
def State.bucketsOf (s : State) (k sl : Nat) : List Nat :=
  (List.range (s.part k).buckets).filter (fun b => s.rd Reg.hrthBucketSlice { sock := k, i := b } = sl)

/-- The region entries of one tile's remote-sharer cache copied to another's, for the lines a bucket moves there (Table HRTH-5). -/
def State.copyRegions (s : State) (k t u : Nat) : State :=
  if t = u then s
  else
    { s with rscG := s.rscG.foldl (fun l e =>
        if e.1 % 8 = t && (s.target k (e.1 / 8 * 4096)).home = k then
          cellSet 0 l (e.1 / 8 * 8 + u) (cellGet 0 l (e.1 / 8 * 8 + u) ||| e.2)
        else l) s.rscG }

/-- A bucket's entry renamed, with the counts of both slices. -/
def State.moveBucket (s : State) (k b sl dst : Nat) : State :=
  let n (x : Nat) : Nat := s.rd Reg.hrthSliceBuckets { sock := k, i := x }
  ((s.wr Reg.hrthBucketSlice { sock := k, i := b } dst).wr Reg.hrthSliceBuckets { sock := k, i := sl } (n sl - 1)).wr
    Reg.hrthSliceBuckets { sock := k, i := dst } (n dst + 1)

/-- Whether a line is homed in socket `k` in one of the buckets `p` names. -/
def State.inBucket (s : State) (k ln : Nat) (p : Nat → Bool) : Bool :=
  let t := s.target k (ln * 64)
  t.isMem && t.home = k && p (s.bucket k (ln * 64))

/-- The optimistic regions with a member line that `p` names abort with RECOVERY (R118, R282). -/
def State.abortMembers (s : State) (p : Nat → Bool) : State :=
  s.cores.foldl (fun s (e : Nat × Core) =>
    match e.2.region with
    | some r => if !r.ordered && r.lines.any p then s.abortRegion e.1 10 0 else s
    | none => s) s

/-- The lines of a failed slice's atomic buffer poisoned, their bits UNKNOWN (R313). -/
def State.poisonBuffer (s : State) (k sl : Nat) : State :=
  let l := cellGet [] s.abuf (slKey k sl)
  let s := l.foldl (fun s ln => State.setBits { (s.setPoison ln true) with homeOld := cellErase s.homeOld ln } ln .unknown) s
  { s with abuf := cellErase s.abuf (slKey k sl) }

/-- A source slice's failure: every bucket left moves at once with UNK, the directory records of those buckets are lost,
requests at the slice are reissued, and the rebuild begins (R320, R321). -/
def State.sourceFail (s : State) (k : Nat) (r : Retire) : State :=
  let bs := s.bucketsOf k r.slice
  let s := s.poisonBuffer k r.slice
  let inB (s : State) (ln : Nat) : Bool := s.inBucket k ln (fun b => bs.contains b)
  let s := s.sliceClear (fun q ln => q = k && bs.contains (s.bucket k (ln * 64)))
  let lost := s.txns.filter (fun t => t.home = k && inB s t.req.ln)
  let s : State :=
    { s with
      sf := s.sf.filter (fun e => !(decide (e.1 % 1024 = k) && bs.contains (s.bucket k (e.1 / 1024 * 64))))
      rsc := s.rsc.filter (fun e => !inB s e.1)
      held := s.held.filter (fun e => !inB s e.1)
      txns := s.txns.filter (fun t => !(decide (t.home = k) && inB s t.req.ln))
      net := s.net.filter (fun m => !inB s m.ln)
      retried := s.retried ++ lost.map (·.req) }
  let s := bs.foldl (fun s b =>
    match s.retireTarget k r with
    | none => s
    | some t => ((s.moveBucket k b r.slice t).wr Reg.hrthBucketUnk { sock := k, i := b } 1).wr Reg.hrthBucketMig
        { sock := k, i := b } 0) s
  let a : Ix := { sock := k }
  let s := ((s.wr Reg.hrthMigSrcfail a 1).wr Reg.hrthMigRebuild a 1).wr Reg.hrthMigUnk a (s.rd Reg.hrthMigUnk a + bs.length)
  s.setRetire k (some { r with fail := true, step := 2, left := s.partSocks k })

/-- HRTH_RETIRE: a write of RETIRE with GO (R317, R322). -/
def execHrthRetire (k sl : Nat) (s : State) : Host.Outcome State Fault Refusal := .next (s.retireReq k sl false)

/-- SLICE_RETIRE_START (step 1): the epoch is raised and visible, the slice's atomic buffer is written to memory. -/
def execSliceRetireStart (k : Nat) (s : State) : Host.Outcome State Fault Refusal :=
  .next (match s.retiring k with
    | some r =>
      if r.step ≠ 1 then s
      else
        let s := s.actBegin k actSlice
        if r.fail then s.sourceFail k r
        else
          let s := (cellGet [] s.abuf (slKey k r.slice)).foldl (fun s ln => s.unbuffer k ln) s
          s.setRetire k (some { r with step := 2 })
    | none => s)

/-- BUCKET_MARK (step 2): the next bucket's target is chosen and MIG set. -/
def execBucketMark (k : Nat) (s : State) : Host.Outcome State Fault Refusal :=
  .next (match s.retiring k with
    | some r =>
      if r.step ≠ 2 then s
      else
        match s.bucketsOf k r.slice, s.retireTarget k r with
        | b :: _, some t =>
          (s.wr Reg.hrthBucketMig { sock := k, i := b } 1).setRetire k (some { r with step := 3, bucket := b, target := t })
        | _, _ => s
    | none => s)

/-- BUCKET_TXNS_DONE (steps 3 and 4): the bucket's transactions are complete, its optimistic regions abort, its records are
copied and its data-array lines dropped. -/
def execBucketTxnsDone (k : Nat) (s : State) : Host.Outcome State Fault Refusal :=
  .next (match s.retiring k with
    | some r =>
      let p (ln : Nat) : Bool := s.inBucket k ln (fun b => b = r.bucket)
      if r.step ≠ 3 || s.txns.any (fun t => t.home = k && p t.req.ln) then s
      else
        let s := s.abortMembers p
        let s := s.sliceClear (fun q ln => q = k && s.bucket k (ln * 64) = r.bucket)
        s.setRetire k (some { r with step := 4 })
    | none => s)

/-- BUCKET_COPY_DONE (step 5): the entry names the target, MIG clears, and the requests held back are released in order. -/
def execBucketCopyDone (k : Nat) (s : State) : Host.Outcome State Fault Refusal :=
  .next (match s.retiring k with
    | some r =>
      if r.step ≠ 4 then s
      else
        let p (ln : Nat) : Bool := s.inBucket k ln (fun b => b = r.bucket)
        let rs := s.hq.filter (fun q => p q.ln)
        let s := ((s.copyRegions k (r.slice / 34) (r.target / 34)).moveBucket k r.bucket r.slice r.target).wr Reg.hrthBucketMig { sock := k, i := r.bucket } 0
        let s : State := { s with hq := s.hq.filter (fun q => !p q.ln) }
        (rs.foldl (fun s q => s.atHome k q) s).setRetire k (some { r with step := 2, bad := [] })
    | none => s)

/-- SLICE_TARGET_FAIL (step 4b): the bucket is marked again with the next target. -/
def execSliceTargetFail (k : Nat) (s : State) : Host.Outcome State Fault Refusal :=
  .next (match s.retiring k with
    | some r =>
      if r.step ≠ 4 then s
      else
        (s.wr Reg.hrthBucketMig { sock := k, i := r.bucket } 0).setRetire k
          (some { r with step := 2, bad := r.bad ++ [r.target] })
    | none => s)

/-- The retirement's action ends and the next one waiting begins (R317, R318). -/
def State.retireOver (s : State) (k : Nat) (r : Retire) : State :=
  let a : Ix := { sock := k }
  let s := ((s.actEnd k actSlice).wr Reg.hrthMigActive a 0).wr Reg.hrthMigSrcfail a 0
  match r.queue with
  | [] => s.setRetire k none
  | e :: t => s.startRetire k e.1 e.2 t

/-- SLICE_RETIRED (step 6): no bucket is left; the slice is RETIRED and reported; the action ends, unless the rebuild still
runs. -/
def execSliceRetired (k : Nat) (s : State) : Host.Outcome State Fault Refusal :=
  .next (match s.retiring k with
    | some r =>
      if r.step ≠ 2 || !(s.bucketsOf k r.slice).isEmpty then s
      else
        let a : Ix := { sock := k, i := r.slice }
        let s := (s.wr Reg.hrthSliceRetired a 1).wr Reg.hrthSliceFailed a (if r.fail then 1 else 0)
        let s := s.ash k { cls := 2, src := 0x10, inst := r.slice, code := 0x05, part := s.partition k }
        if s.rd Reg.hrthMigRebuild { sock := k } = 1 then s.setRetire k (some { r with step := 0 })
        else s.retireOver k r
    | none => s)

/-- A slice fails as a source, before or during its retirement (R288, R320, step 4a); the last one in service takes its socket
with it (R317). -/
def State.sliceFailed (s : State) (k sl : Nat) : State :=
  if s.sliceLive k sl && decide ((s.liveSlices k).length ≤ 1) then s.socketFail k 0x10 sl 0
  else
    match s.retiring k with
    | some r =>
      if r.slice = sl && !r.fail then
        if r.step = 1 then s.setRetire k (some { r with fail := true })
        else if r.step = 0 then s else s.sourceFail k r
      else s.retireReq k sl true
    | none => s.retireReq k sl true

/-- SLICE_SOURCE_FAIL: the slice failed as a source (R320, step 4a). -/
def execSliceSourceFail (k sl : Nat) (s : State) : Host.Outcome State Fault Refusal := .next (s.sliceFailed k sl)

/-! ### Requests that meet an array error or a full structure -/

/-- What a read request meets in the Hearth, at its caching slice but for the remote-sharer cache, which is its home's: `ev` 0 nothing; 1
a corrected error, 2 an uncorrectable one in the line's data, 3 one in a tag, filter or sharer entry (R288); 4 the snoop filter
makes room for the line at `vic` where its set is full (R297); 5 and 6 the remote-sharer cache does (R300). -/
def State.hrthEvent (s : State) (c pa ev vic : Nat) : State :=
  let q := coreSock c
  let sl := s.sliceFor q pa
  let a : Ix := { sock := q, i := sl }
  let ln := lineOf vic
  let entry (s : State) : State := s.ash q { cls := 0, src := 0x10, inst := sl, code := 0x01, addr := lineOf pa * 64, part := s.partition q }
  match ev with
  | 1 => entry (s.bump Reg.hrthSliceCorr a)
  | 2 =>
    let s := s.bump Reg.hrthSliceUncorr a
    entry (s.sliceDrop q (lineOf pa))
  | 3 =>
    (s.ash q { cls := 2, src := 0x10, inst := sl, code := 0x03, part := s.partition q }).sliceFailed q sl
  | 4 => s.roomSf q ln
  | 5 | 6 =>
    match s.target q vic with
    | .dram h _ | .cxl h _ => s.roomRsc h ln
    | _ => s
  | _ => s

/-- RDS, with what it meets in the Hearth (`State.hrthEvent`). -/
def execRds (c pa ev vic : Nat) (s : State) : Host.Outcome State Fault Refusal := .next ((s.hrthEvent c pa ev vic).readReq .rds c pa)

/-- RD, with what it meets in the Hearth (`State.hrthEvent`). -/
def execRd (c pa ev vic : Nat) (s : State) : Host.Outcome State Fault Refusal := .next ((s.hrthEvent c pa ev vic).readReq .rd c pa)

/-- RDO, with what it meets in the Hearth (`State.hrthEvent`). -/
def execRdo (c pa ev vic : Nat) (s : State) : Host.Outcome State Fault Refusal := .next ((s.hrthEvent c pa ev vic).ownReq .rdo c pa)

/-- The lines of UNK buckets homed in socket `h` that core `c` holds, recalled by the scan: an ordered region that holds one
aborts at once, an optimistic region with a member too (R321). -/
def State.scanCore (s : State) (h c : Nat) : State :=
  let unk (b : Nat) : Bool := s.rd Reg.hrthBucketUnk { sock := h, i := b } = 1
  let ls := ((s.core c).l2.map (·.1)).filter (fun ln => s.inBucket h ln unk)
  ls.foldl (fun s ln =>
    let s := match (s.core c).region with
      | some r => if r.lines.contains ln && (!r.ordered || r.accessed) then s.abortRegion c 10 0 else s
      | none => s
    (s.updCore c (fun k => k.setL2 ln none)).wroteHome ln) s

/-- FLUSHB: the caching slices of socket `d` scan for lines of the UNK buckets of home `h` and answer (R321). -/
def execFlushb (h d : Nat) (s : State) : Host.Outcome State Fault Refusal :=
  .next (match s.retiring h with
    | some r =>
      if !r.left.contains d then s
      else
        let unk (b : Nat) : Bool := s.rd Reg.hrthBucketUnk { sock := h, i := b } = 1
        let s1 := s.cores.foldl (fun s (e : Nat × Core) => if coreSock e.1 = d then s.scanCore h e.1 else s) s
        let hit (e : Nat) : Bool := decide (e % 1024 = d) && s.inBucket h (e / 1024) unk
        let s2 : State := { s1.sliceClear (fun q ln => q = d && s.inBucket h ln unk) with sf := s1.sf.filter (fun e => !hit e.1) }
        s2.setRetire h (some { r with left := r.left.filter (· ≠ d) })
    | none => s)

/-- REBUILD_DONE: every socket has answered; UNK clears, and the action ends once the slice is retired too (R318, R321). -/
def execRebuildDone (k : Nat) (s : State) : Host.Outcome State Fault Refusal :=
  .next (match s.retiring k with
    | some r =>
      if s.rd Reg.hrthMigRebuild { sock := k } = 0 || !r.left.isEmpty then s
      else
        let s := (List.range (s.part k).buckets).foldl (fun s b =>
          if s.rd Reg.hrthBucketUnk { sock := k, i := b } = 1 then s.wr Reg.hrthBucketUnk { sock := k, i := b } 0 else s) s
        let s := (s.wr Reg.hrthMigUnk { sock := k } 0).wr Reg.hrthMigRebuild { sock := k } 0
        if r.step = 0 then s.retireOver k r else s
    | none => s)

/-! ### Stripe regions (R293-R295) -/

/-- The sockets a stripe region lists. -/
def State.stripeSocks (s : State) (k r : Nat) : List Nat :=
  (List.range (s.rd Reg.hrthStripeN { sock := k, i := r })).map (fun j => s.rd Reg.hrthStripeSock { sock := k, i := r, j := j })

/-- The first address of a stripe region and the one after its last. -/
def State.stripeSpan (s : State) (k r : Nat) : Nat × Nat :=
  let a : Ix := { sock := k, i := r }
  let lo := s.rd Reg.hrthStripeSock a * 2 ^ 47 + s.rd Reg.hrthStripeBase a * gib
  (lo, lo + s.rd Reg.hrthStripeN a * (s.rd Reg.hrthStripeShare a * gib))

/-- Whether a stripe region may be made valid (R295). -/
def State.stripeOk (s : State) (k r : Nat) : Bool :=
  let a : Ix := { sock := k, i := r }
  let n := s.rd Reg.hrthStripeN a
  let l := s.stripeSocks k r
  let p := s.stripeSpan k r
  decide (2 ≤ n) && decide (n ≤ 64) && decide (1 ≤ s.rd Reg.hrthStripeShare a) &&
    decide (p.2 % 2 ^ 63 - s.rd Reg.hrthStripeSock a * 2 ^ 47 ≤ ctlBase) && l.all (s.samePart k) &&
    (l.eraseDups.length = n) &&
    (List.range 8).all (fun q => q = r || s.rd Reg.hrthStripeValid { sock := k, i := q } = 0 ||
      (let o := s.stripeSpan k q
       decide (o.2 ≤ p.1) || decide (p.2 ≤ o.1)))

/-- VALID written 1: kept only when the region passes every check, otherwise forced to 0 and recorded (R295). -/
def State.stripeCheck (s : State) (k r : Nat) : State :=
  if s.stripeOk k r then s
  else (s.wr Reg.hrthStripeValid { sock := k, i := r } 0).ash k
    { cls := 5, src := 0x10, inst := 0, code := 0x0A, part := s.partition k, d4 := r }

end Sys2Proof.Machine
end

