-- ==== Sys2Proof/Machine/Chim.lean ====
section
/-!
DEFINITION. Machine/Chim.lean: flues, the crossbar, reroutes, time synchronisation, discovery, configuration and the start of
partitions (R355-R397, R625, R626, R285).
-/
namespace Sys2Proof.Machine

/-! ### Flue ends -/

/-- The key of a flue end. -/
def flueKey (k n : Nat) : Nat := k * 8 + n

/-- Where a flue's registers stand. -/
def flueIx (k n : Nat) : Ix := { sock := k, inst := n }

/-- A flue end beyond its registers. -/
def State.flue (s : State) (k n : Nat) : FlueS := cellGet FlueS.fresh s.flues (flueKey k n)

/-- A flue end replaced. -/
def State.setFlue (s : State) (k n : Nat) (f : FlueS) : State := { s with flues := cellSet FlueS.fresh s.flues (flueKey k n) f }

/-- STATE.LINK: 0 OFF, 1 TRAINING, 2 UP, 3 FAILED, 4 REFUSED. -/
def State.link (s : State) (k n : Nat) : Nat := s.rd Reg.flueStateLink (flueIx k n)

/-- The other end of a flue. -/
def State.peer (s : State) (k n : Nat) : Nat × Nat :=
  (s.rd Reg.flueStatePeerSock (flueIx k n), s.rd Reg.flueStatePeerFlue (flueIx k n))

/-- The word STATE of a flue, as an Ashpan entry records it. -/
def State.flueWord (s : State) (k n : Nat) : Nat := assemble (fun f a => s.rd f a) (wordFields .flue k n 0x18)

/-- An Ashpan entry of a flue. -/
def State.flueAsh (s : State) (k n cls code : Nat) : State :=
  s.ash k { cls := cls, src := 0x31, inst := n, code := code, peer := (s.peer k n).1, part := s.partition k,
            d4 := s.flueWord k n, d5 := s.rd Reg.flueStateSpared (flueIx k n) }

/-- The sockets of a socket's fabric, as its destination table has them. -/
def State.fabric (s : State) (k : Nat) : List Nat :=
  (List.range 1024).filter (fun d => d = k || s.rd Reg.chimDestValid { sock := k, i := d } = 1)

/-! ### Training and lanes (R357-R359) -/

/-- A reroute begun for a flue (Table FLUE-6). -/
def State.newReroute (s : State) (k n : Nat) (up : Bool) : State :=
  let p := s.peer k n
  let r : Reroute := { id := s.rerouteNext, sock := k, flue := n, psock := p.1, pflue := p.2, up := up, got := [],
                       adopted := [], replayed := up }
  { s with reroutes := s.reroutes ++ [r], rerouteNext := s.rerouteNext + 1 }

/-- FLUE_TRAINED: the flue has trained and measured its flight time in quarters of a ns; one above 50 ns is refused.  A
restored flue whose other end is up too takes its traffic back by a reroute (R357, R358, R380). -/
def execFlueTrained (k n flight : Nat) (s : State) : Host.Outcome State Fault Refusal :=
  .next (
    let a := flueIx k n
    if !s.up k || (s.part k).flues ≤ n || s.rd Reg.flueCtlEn a = 0 || 1 < s.link k n then s
    else
      let s := (s.bump Reg.flueErrTrains a).wr Reg.flueStateFlight a flight
      if 200 < flight then (s.wr Reg.flueStateLink a 4).wr Reg.flueStateRefuse a 0
      else
        let back := (s.flue k n).back
        let s := s.wrs a [(Reg.flueStateLink, 2), (Reg.flueStateSpared, 0xF), (Reg.flueSeqTx, 0), (Reg.flueSeqRx, 0),
          (Reg.flueStateSealed, 0)]
        let s := s.setFlue k n { FlueS.fresh with back := back, trained := s.time }
        let p := s.peer k n
        if back && s.link p.1 p.2 = 2 && (s.flue p.1 p.2).back then
          ((s.setFlue k n { s.flue k n with back := false }).setFlue p.1 p.2 { s.flue p.1 p.2 with back := false }).newReroute k n true
        else s)

/-- One end set training by a restore. -/
def State.retrain (s : State) (k n : Nat) : State :=
  let l := s.link k n
  if l = 3 || l = 4 then
    let s := (s.wr Reg.flueStateLink (flueIx k n) 1).wr Reg.flueStateRefuse (flueIx k n) 3
    s.setFlue k n { FlueS.fresh with back := decide (l = 3) }
  else s

/-- CTL.RESTORE written 1: a failed or refused flue retrains, at both ends (R380). -/
def State.flueRestore (s : State) (k n : Nat) : State :=
  let p := s.peer k n
  if s.link k n = 3 || s.link k n = 4 then (s.retrain k n).retrain p.1 p.2 else s


/-- One end of a flue steers a lane to the spare. -/
def State.laneEnd (s : State) (k n lane : Nat) : State :=
  let s := ((s.wr Reg.flueStateSpared (flueIx k n) lane).bump Reg.flueErrLanesw (flueIx k n)).setFlue k n
    { s.flue k n with lane := none }
  s.flueAsh k n 2 0x06

/-- LANE: both ends steer the failing lane to the spare at the agreed sequence number (R359). -/
def execLane (k n : Nat) (s : State) : Host.Outcome State Fault Refusal :=
  .next (match (s.flue k n).lane with
    | some l =>
      let p := s.peer k n
      (s.laneEnd k n l).laneEnd p.1 p.2 l
    | none => s)

/-! ### Failure and reroute (R366, R376, R377, R380) -/

/-- Whether a way between two sockets of the fabric crosses a flue, in either direction, while no flue has failed. -/
def State.crosses (s : State) (r : Reroute) (a b : Nat) : Bool :=
  (s.routeFlues b 64 a).any (fun e => e = (r.sock, r.flue) || e = (r.psock, r.pflue))

/-- Accesses from socket `v` to each home it could reach only by the flue now wait (R281). -/
def State.holdRoutes (s : State) (r : Reroute) (v : Nat) : State :=
  (s.fabric v).foldl (fun s h =>
    if h ≠ v && s.reach v h = 0 && (s.crosses r v h || s.crosses r h v) then
      { s with unreach := cellSet 0 s.unreach (v * 1024 + h) 1 }
    else s) s

/-- A flue stops at both ends and its reroute begins (step 1). -/
def State.flueFail (s : State) (k n code : Nat) : State :=
  if s.link k n ≠ 2 then s
  else
    let p := s.peer k n
    let s := s.wr Reg.flueStateLink (flueIx k n) 3
    let s := s.wrIf (s.link p.1 p.2 = 2) Reg.flueStateLink (flueIx p.1 p.2) 3
    let s := (s.flueAsh k n 2 code).flueAsh p.1 p.2 2 code
    let s := s.newReroute k n false
    match s.reroutes.getLast? with
    | some r => (s.fabric k).foldl (fun s v => s.holdRoutes r v) s
    | none => s

/-- LANE_FAILING: with the spare unused the lane is to be replaced; a second failing lane is a link failure (R359, R366). -/
def execLaneFailing (k n lane : Nat) (s : State) : Host.Outcome State Fault Refusal :=
  .next (
    if s.link k n ≠ 2 || 8 ≤ lane || s.rd Reg.flueStateSpared (flueIx k n) = lane then s
    else if s.rd Reg.flueStateSpared (flueIx k n) = 0xF then s.setFlue k n { s.flue k n with lane := some lane }
    else s.flueFail k n 0x05)

/-- FLUE_FAILURE: a codeword rejected eight times, a second failing lane, or the peer's crossbar stopped (R366). -/
def execFlueFailure (k n : Nat) (s : State) : Host.Outcome State Fault Refusal :=
  .next (s.flueFail k n (if 8 ≤ (s.flue k n).rejects then 0x04 else 0x05))

/-- FLUE_CONTROL_TIMEOUT: no good control slot for 10 µs (R366). -/
def execFlueControlTimeout (k n : Nat) (s : State) : Host.Outcome State Fault Refusal := .next (s.flueFail k n 0x08)

/-- A reroute changed. -/
def State.updReroute (s : State) (id : Nat) (f : Reroute → Reroute) : State :=
  { s with reroutes := s.reroutes.map (fun (r : Reroute) => if r.id = id then f r else r) }

/-- The optimistic regions of socket `k` with a member line whose home's route crosses the flue abort with RECOVERY (R118, R282). -/
def State.routeAborts (s : State) (k : Nat) (r : Reroute) : State :=
  s.cores.foldl (fun s (e : Nat × Core) =>
    match e.2.region with
    | some g =>
      let cut (ln : Nat) : Bool :=
        let h := (s.target k (ln * 64)).home
        decide (h ≠ k) && (s.crosses r k h || s.crosses r h k)
      if coreSock e.1 = k && !g.ordered && g.lines.any cut then s.abortRegion e.1 10 0 else s
    | none => s) s

/-- LINKDOWN or LINKUP received at socket `k`: the epoch of a partition whose routes cross the flue is raised once, RR shows
the reroute (step 3), and optimistic regions whose routes change abort. -/
def State.linkNews (s : State) (k id : Nat) (up : Bool) : State :=
  match s.reroutes.find? (fun r => r.id = id && r.up == up) with
  | none => s
  | some r =>
    if r.got.contains k || !(s.fabric r.sock).contains k then s
    else
      let a : Ix := { sock := k }
      let s := s.updReroute id (fun r => { r with got := r.got ++ [k] })
      let s := s.wr Reg.chimRrActive a 1
      let s := s.wr Reg.chimRrDown a (if up then s.rd Reg.chimRrDown a - 1 else s.rd Reg.chimRrDown a + 1)
      let ps := s.partSocks k
      let used := ps.any (fun x => ps.any (fun y => decide (x ≠ y) && s.crosses r x y))
      (if used && !s.acts.any (fun e => e.2 = id && s.samePart k e.1) then s.actBegin k id else s).routeAborts k r

/-- LINKDOWN (steps 2 and 3). -/
def execLinkdown (k id : Nat) (s : State) : Host.Outcome State Fault Refusal := .next (s.linkNews k id false)

/-- LINKUP (R380). -/
def execLinkup (k id : Nat) (s : State) : Host.Outcome State Fault Refusal := .next (s.linkNews k id true)

/-- A flit that waited at port `port` routed again from socket `k` as though it started there, `first` telling on which side of the
port's queue; with no way left it waits where it is.  One whose route was chosen before is on a path longer than one detour
(R376, R386). -/
def State.resend (s : State) (k port : Nat) (first : Bool) (f : Flit) : State :=
  let put (s : State) (p : Nat) (f : Flit) : State :=
    let q := cellGet [] s.xout (k * 8 + p)
    { s with xout := cellSet [] s.xout (k * 8 + p) (if first then f :: q else xInsert f q) }
  match s.way k f.dsock with
  | some (st :: t, det) =>
    (match s.portOf k st with
     | some p =>
       let s := if f.ssock ≠ k || f.dstep ≠ 0 then s.exempt f.ssock Reg.chimAexcLongpath else s
       put s p (s.sendOff k det t f)
     | none => put s port f)
  | _ => put s port f

/-- The flits of socket `k` that wait at ports whose flue is known to have failed, routed again in their order (R376, step 4). -/
def State.resendAll (s : State) (k : Nat) : State :=
  (List.range 6).foldl (fun s n =>
    if (cellGet [] s.flueDown k).contains (flueKey k n) then
      let q := cellGet [] s.xout (flueKey k n)
      q.foldl (fun s f => s.resend k n false f) { s with xout := cellErase s.xout (flueKey k n) }
    else s) s

/-- What socket `k` can reach after a change of routes: homes within reach again are served, and UNREACH shows whether some
socket is not. -/
def State.reReach (s : State) (k : Nat) : State :=
  let s := (s.fabric k).foldl (fun s h =>
    if s.routed k h && s.routed h k then { s with unreach := cellSet 0 s.unreach (k * 1024 + h) 0 } else s) s
  s.wr Reg.chimRrUnreach { sock := k } (if (s.fabric k).any (fun h => !s.routed k h) then 1 else 0)

/-- REROUTE_ADOPT: the socket treats the flue as failed from now on (or as back), and flits that waited for its port take the
detour in their order (step 4). -/
def execRerouteAdopt (k id : Nat) (s : State) : Host.Outcome State Fault Refusal :=
  .next (match s.reroutes.find? (fun r => r.id = id) with
    | none => s
    | some r =>
      if !r.got.contains k || r.adopted.contains k then s
      else
        let s := s.updReroute id (fun r => { r with adopted := r.adopted ++ [k] })
        let ends := [flueKey r.sock r.flue, flueKey r.psock r.pflue]
        let l := cellGet [] s.flueDown k
        let s := { s with flueDown := cellSet [] s.flueDown k
                            (if r.up then l.filter (fun e => !ends.contains e) else ends ++ l) }
        (s.resendAll k).reReach k)

/-- REROUTE_REPLAY_RESENT: what each end had sent and not had acknowledged goes along the detour, ahead of later flits
(step 5). -/
def execRerouteReplayResent (id : Nat) (s : State) : Host.Outcome State Fault Refusal :=
  .next (match s.reroutes.find? (fun r => r.id = id) with
    | none => s
    | some r =>
      if r.replayed || !r.adopted.contains r.sock || !r.adopted.contains r.psock then s
      else
        let one (s : State) (k n : Nat) : State :=
          let fs := (s.flue k n).unacked.flatMap (·.2)
          fs.reverse.foldl (fun s f => s.resend k n true f) (s.setFlue k n FlueS.fresh)
        ((one s r.sock r.flue) |> fun s => one s r.psock r.pflue).updReroute id (fun r => { r with replayed := true }))

/-! ### Configuration commit (R391) -/

/-- The value a field will have once its shadow is applied. -/
def State.nv (s : State) (f : Fld) (a : Ix) : Nat := (cellGet none s.shadow (regKey f a)).getD (s.rd f a)

/-- The 64-bit words of a partition's configuration digest in ascending offset (R392), read by `v` at socket `k`. -/
def digestWords (v : Fld → Ix → Nat) (k p : Nat) : List Nat :=
  let a : Ix := { sock := k }
  let gsets := (List.range 16).map (fun i => v Reg.chimGsetCore { a with i := i }) ++
    [v Reg.chimGsetGate a + v Reg.chimAsetz a * 2 ^ 48]
  let gates (w i : Nat) : Bool := decide (w < 16) || decide (i < 12)
  let named (j : Nat) : Bool := (List.range 17).any (fun w => (List.range 16).any (fun i =>
    gates w i && decide (natBits (nth 0 gsets w) (4 * i + 3) (4 * i) = j)))
  [v Reg.chimTopoKind a + v Reg.chimTopoKx a * 4 + v Reg.chimTopoKy a * 64 + v Reg.chimTopoKz a * 1024, v Reg.chimPortmap a,
   v Reg.chimPartGuar { a with i := p }] ++
  (List.range 16).flatMap (fun j => if named j then (List.range 16).map (fun i => v Reg.chimAset { a with i := j, j := i }) else []) ++
  gsets ++
  (List.range 1024).flatMap (fun d =>
    let b : Ix := { a with i := d }
    if v Reg.chimDestValid b = 1 && v Reg.chimDestPart b = p then
      [v Reg.chimDestXyz b + v Reg.chimDestPort b * 2 ^ 12 + 2 ^ 15 + p * 2 ^ 16]
    else [])

/-- The Chimney's commit reaches the CHIM block and the MAC ranges, whose shadows it applies (R17, R391, Table MEMC-11). -/
def State.chimApply (s : State) (k : Nat) : State :=
  (s.commitBlk .chim k (fun _ _ => true)).commitBlk .mc k (fun _ f =>
    [Reg.mcMacrValid.id, Reg.mcMacrBase.id, Reg.mcMacrSize.id].contains f.id)

/-- Whether a key is that of a shadow the Chimney of socket `k` commits. -/
def cfgKey (k key : Nat) : Bool :=
  decide (key / 1024 % 1024 = k) &&
    ([Reg.mcMacrValid.id, Reg.mcMacrBase.id, Reg.mcMacrSize.id] ++ (blkFields .chim).map Fld.id).contains (key % 1024)

/-- Whether the topology and the coordinates are allowed (R372, R626, Table FLUE-5). -/
def State.topoOk (s : State) (k : Nat) : Bool :=
  let a : Ix := { sock := k }
  let kind := s.nv Reg.chimTopoKind a
  let r := [s.nv Reg.chimTopoKx a + 1, s.nv Reg.chimTopoKy a + 1, s.nv Reg.chimTopoKz a + 1]
  let small := decide (s.part k = .eq128l)
  let ds := (List.range 1024).filter (fun d => s.nv Reg.chimDestValid { a with i := d } = 1)
  let xyz (d : Nat) : Nat := s.nv Reg.chimDestXyz { a with i := d }
  let sizes := match kind with
    | 0 => decide (ds.length ≤ 1)
    | 1 => decide (2 ≤ ds.length) && decide (ds.length ≤ (if small then 3 else 7))
    | 2 => (r.take 2).all (fun x => decide (2 ≤ x)) && (!small || r.take 2 = [2, 2])
    | _ => !small && (r.take 2).all (fun x => decide (2 ≤ x) && decide (x ≤ 8)) && decide (2 ≤ nth 0 r 2)
  let codes := (List.range 6).map (fun n => natBits (s.nv Reg.chimPortmap a) (4 * n + 3) (4 * n))
  let torus := decide (2 ≤ kind)
  sizes && codes.all (fun c => decide (c ≤ 10)) &&
    (List.range 9).all (fun c => decide ((codes.filter (· = c + 1)).length ≤ 1)) &&
    (if torus then
      decide ((ds.map xyz).eraseDups.length = ds.length) &&
      ds.all (fun d => [0, 1, 2].all (fun e =>
        if kind = 2 && e = 2 then natBits (xyz d) 11 8 = 0 else decide (natBits (xyz d) (4 * e + 3) (4 * e) < nth 0 r e)))
     else ds.all (fun d => xyz d = 0))

/-- Whether PORTMAP and DEST agree with the peers that discovery found (R373). -/
def State.cablingOk (s0 : State) (k : Nat) : Bool :=
  let s := s0.chimApply k
  let a : Ix := { sock := k }
  let kind := s.rd Reg.chimTopoKind a
  let found (n : Nat) : Bool := s.link k n = 2 || s.link k n = 3
  (match kind with
   | 1 => (List.range 1024).all (fun d =>
       d = k || s.rd Reg.chimDestValid { a with i := d } = 0 ||
         (let n := s.rd Reg.chimDestPort { a with i := d }
          found n && (s.peer k n).1 = d && s.portCode k n = 10))
   | _ => (s.dims k).all (fun e => [2 * e, 2 * e + 1].all (fun st =>
       match s.portOf k st with
       | none => true
       | some n =>
         match s.nbr k st with
         | some d => found n && (s.peer k n).1 = d
         | none => !(found n) || s.rd Reg.flueCtlEn (flueIx k n) = 0)))

/-- The gates of a socket (R353): enabled cores, tile service stops and root complexes. -/
def State.gates (s : State) (k : Nat) : List Nat :=
  List.range (s.part k).cores ++ (if (s.part k).full then (List.range 8).map (· + 256) else []) ++ (List.range 4).map (· + 264)

/-- A gate's rate as programmed, in sixteenths of a token per µs. -/
def State.gateRate (s : State) (k g : Nat) : Nat := (s.gateCfg k g).1

/-- The destination set of a gate of socket `h`, by the tables of socket `k` (R384). -/
def State.gateSet (s : State) (k h g : Nat) : List Nat :=
  (s.fabric k).filter (fun d => d = h ||
    (let a : Ix := { sock := k }
     let j := if g < 256 then natBits (s.rd Reg.chimGsetCore { a with i := g / 16 }) (4 * (g % 16) + 3) (4 * (g % 16))
       else natBits (s.rd Reg.chimGsetGate a) (4 * (g - 256) + 3) (4 * (g - 256))
     (s.rd Reg.chimAset { a with i := j, j := d / 64 }).testBit (d % 64) &&
       (!(s.rd Reg.chimAsetz a).testBit j || s.coord k d 2 = s.coord k h 2)))

/-- The partitions of the fabric whose Assured reservations count: those assured and started, or to be started by this commit
(R35, R384). -/
def State.assuredParts (s : State) (k p : Nat) : List Nat :=
  (List.range 64).filter (fun q => (s.rd Reg.chimPartGuar { sock := k, i := q }).testBit 1 &&
    (q = p || s.rd Reg.chimPartState { sock := k, i := q } = 1 || s.rd Reg.chimPartState { sock := k, i := q } = 2 ||
      (s.rd Reg.chimPartCmd { sock := k, i := q } = 1 && s.rd Reg.chimPartState { sock := k, i := q } = 0)))

/-- The sockets of partition `p` in the table of socket `k`. -/
def State.socksOf (s : State) (k p : Nat) : List Nat :=
  (s.fabric k).filter (fun d => s.rd Reg.chimDestPart { sock := k, i := d } = p &&
    s.rd Reg.chimDestValid { sock := k, i := d } = 1)

/-- Charges on flue directions: 10 bytes per µs for each sixteenth of a token (R384). -/
def State.charges (s : State) (k p : Nat) : List ((Nat × Nat) × Nat) :=
  let gs := (s.assuredParts k p).flatMap (fun q => (s.socksOf k q).flatMap (fun h => (s.gates h).map (fun g => (h, g))))
  gs.foldl (fun m e =>
    let fl := ((s.gateSet k e.1 e.2).flatMap (fun d => s.routeFlues d 64 e.1 ++ s.routeFlues e.1 64 d)).eraseDups
    fl.foldl (fun (m : List ((Nat × Nat) × Nat)) f =>
      if m.any (fun x => x.1 = f) then m.map (fun x => if x.1 = f then (x.1, x.2 + s.gateRate e.1 e.2 * 10) else x)
      else m ++ [(f, s.gateRate e.1 e.2 * 10)]) m) []

/-- The requests per µs, in sixteenths, that a home may be sent (R385). -/
def State.homeLoad (s : State) (k p h : Nat) : Nat :=
  ((s.socksOf k p).flatMap (fun d => (s.gates d).map (fun g => (d, g)))).foldl (fun n e =>
    if (s.gateSet k e.1 e.2).contains h then n + s.gateRate e.1 e.2 else n) 0

/-- Whether the flue direction carries a Sealed partition's traffic. -/
def State.dirSealed (s : State) (k : Nat) (f : Nat × Nat) : Bool :=
  (List.range 64).any (fun q => (s.rd Reg.chimPartGuar { sock := k, i := q }).testBit 0 &&
    (s.socksOf k q).any (fun a => (s.socksOf k q).any (fun b => (s.routeFlues b 64 a).contains f)))

/-- The capacity of a flue direction in bytes per µs. -/
def State.dirCap (s : State) (k : Nat) (f : Nat × Nat) : Nat := if s.dirSealed k f then 174000 else 200000

/-- Whether the MAC ranges of a socket break R137: MAC without Sealed, or more than half of its DRAM. -/
def State.macBreaks (s : State) (k p : Nat) : Bool :=
  let g := s.rd Reg.chimPartGuar { sock := k, i := p }
  g.testBit 2 &&
    (!g.testBit 0 ||
      decide (s.dramTop k / 2 < ((List.range 16).foldl (fun n r =>
        if s.nv Reg.mcMacrValid { sock := k, i := r } = 1 then n + s.nv Reg.mcMacrSize { sock := k, i := r } else n) 0) * gib))

/-- The refusal of a commit, if any: its code (Table FLUE-9) and the partition concerned. -/
def State.cfgRefusal (s : State) (k : Nat) : Option (Nat × Nat) :=
  let n := s.chimApply k
  let cmd (p : Nat) : Nat := s.nv Reg.chimPartCmd { sock := k, i := p }
  let st (p : Nat) : Nat := s.rd Reg.chimPartState { sock := k, i := p }
  let ps := List.range 64
  let starts := ps.filter (fun p => cmd p = 1 && st p = 0)
  let assured := starts.filter (fun p => (n.rd Reg.chimPartGuar { sock := k, i := p }).testBit 1)
  let own := n.partition k
  let find (code : Nat) (l : List Nat) (b : Nat → Bool) : Option (Nat × Nat) := (l.find? b).map (fun p => (code, p))
  let gateOff (p : Nat) : Bool := (n.socksOf k p).any (fun d => (n.gates d).any (fun g => !(n.gateCfg d g).2.2))
  let unpaired (p : Nat) : Bool := (n.socksOf k p).any (fun d => (List.range 16).any (fun i =>
    n.rd Reg.mcGeomEn { sock := d, inst := i } = 1 && n.rd Reg.mcGeomPaired { sock := d, inst := i } = 0))
  let tooMuch (p : Nat) : Bool := (n.charges k p).any (fun e => decide (60 * n.dirCap k e.1 < 100 * e.2))
  let live (p : Nat) : Bool := decide (st p ≠ 0) || (s.socksOf k p).any (fun d => decide (2 ≤ s.rd Reg.chimPartState { sock := d, i := p }))
  let home (p : Nat) : Bool := (n.socksOf k p).any (fun h => decide (7680 * 16 < n.homeLoad k p h))
  [find 0x03 ps (fun p => cmd p = 3 || (decide (cmd p = 1) && (n.socksOf k p).isEmpty)),
   find 0x04 ps (fun p => (live p && decide (digestWords (fun f a => s.rd f a) k p ≠ digestWords (fun f a => n.rd f a) k p)) || (cmd p = 1 && st p = 3)),
   if s.topoOk k then none else some (0x02, own),
   if s.cablingOk k then none else some (0x01, own),
   find 0x08 ps (fun p => (starts.contains p || (p = own && decide (st p ≠ 0))) && n.macBreaks k p),
   find 0x07 assured gateOff, find 0x0B assured unpaired, find 0x05 assured tooMuch, find 0x06 assured home].findSome? id

/-- The admission check's record (R384, R385). -/
def State.recordAchk (s : State) (k p : Nat) : State :=
  let a : Ix := { sock := k }
  let c := (s.charges k p).foldl (fun (b : Option ((Nat × Nat) × Nat)) e =>
    match b with
    | none => some e
    | some x => if x.2 * s.dirCap k e.1 < e.2 * s.dirCap k x.1 then some e else b) none
  let h := pickMax (fun h => s.homeLoad k p h) (s.socksOf k p)
  let s := match c with
    | some e => s.wrs a [(Reg.chimAchkWlinkSock, e.1.1), (Reg.chimAchkWlinkFlue, e.1.2),
        (Reg.chimAchkWlinkPct, min 127 (100 * e.2 / s.dirCap k e.1))]
    | none => s
  match h with
  | some d => s.wrs a [(Reg.chimAchkWhomeSock, d), (Reg.chimAchkWhomePct, min 127 (100 * s.homeLoad k p d / (12800 * 16)))]
  | none => s

/-- The commit done: refused whole with its code, or applied whole with the partition commands (R391). -/
def State.cfgCommit (s : State) (k : Nat) : State :=
  let a : Ix := { sock := k }
  let s := s.wr Reg.chimCfgPending a 0
  match s.cfgRefusal k with
  | some (code, p) =>
    let s := s.wrs a [(Reg.chimCfgCode, code), (Reg.chimCfgPart, p)]
    (s.wr Reg.chimPartLastcode { a with i := p } code).ash k
      { cls := 5, src := 0x30, code := 0x0A, part := p, d4 := assemble (fun f a => s.rd f a) (wordFields .chim k 0x80 0x50),
        d5 := assemble (fun f a => s.rd f a) (wordFields .chim k 0x80 0x68) }
  | none =>
    let s := (s.chimApply k).wr Reg.chimCfgCode a 0
    (List.range 64).foldl (fun s p =>
      let b : Ix := { a with i := p }
      let cmd := s.rd Reg.chimPartCmd b
      let st := s.rd Reg.chimPartState b
      let s := (s.wr Reg.chimPartSockets b (s.socksOf k p).length).wr Reg.chimPartCmd b 0
      if cmd = 1 && st = 0 then
        let s := if (s.rd Reg.chimPartGuar b).testBit 1 then s.recordAchk k p else s
        { ((s.wr Reg.chimPartState b 1).wr Reg.chimCfgPart a p) with pstep := cellSet 0 s.pstep (k * 64 + p) 1 }
      else if cmd = 2 && (st = 1 || st = 2) then (s.wr Reg.chimPartState b 3).wr Reg.chimCfgPart a p
      else s) s

/-- CFG.GO written 1; during a reroute the commit waits for its end, and covers the shadows written before it (R17, R391). -/
def State.cfgGo (s : State) (k : Nat) : State :=
  if s.rd Reg.chimRrActive { sock := k } = 1 then
    { (s.wr Reg.chimCfgPending { sock := k } 1) with
      goShadow := cellSet [] s.goShadow k (s.shadow.filterMap (fun e =>
        if cfgKey k e.1 then e.2.map (fun v => (e.1, v)) else none)) }
  else s.cfgCommit k

/-- The commit that waited is made with the shadows it covers; values written since stay pending (R17, R391). -/
def State.cfgLate (s : State) (k : Nat) : State :=
  let old := cellGet [] s.goShadow k
  let late := s.shadow.filter (fun e => cfgKey k e.1 && !old.any (fun x => x.1 = e.1 && some x.2 = e.2))
  let put (m : Cells (Option Nat)) (l : List (Nat × Option Nat)) : Cells (Option Nat) :=
    l.foldl (fun m e => cellSet none m e.1 e.2) m
  let s := State.cfgCommit { s with
    goShadow := cellErase s.goShadow k
    shadow := put (s.shadow.filter (fun e => !cfgKey k e.1)) (old.map (fun x => (x.1, some x.2))) } k
  { s with shadow := put s.shadow late }

/-- REROUTE_DONE: every socket of the fabric has changed its routes; the actions end, RR.ACTIVE clears and a commit that
waited is made (step 6). -/
def execRerouteDone (id : Nat) (s : State) : Host.Outcome State Fault Refusal :=
  .next (match s.reroutes.find? (fun r => r.id = id) with
    | none => s
    | some r =>
      let fab := s.fabric r.sock
      if !r.replayed || !fab.all (fun k => r.adopted.contains k || !s.up k) then s
      else
        let s : State := { s with reroutes := s.reroutes.filter (fun r => r.id ≠ id), acts := s.acts.filter (fun a => a.2 ≠ id) }
        fab.foldl (fun s k =>
          if s.reroutes.any (fun r => r.got.contains k) then s
          else
            let s := s.wr Reg.chimRrActive { sock := k } 0
            if s.rd Reg.chimCfgPending { sock := k } = 1 then s.cfgLate k else s) s)

/-- ACTION_END_ABANDON: every recovery action is over and home `h` is still out of the reach of socket `k`; accesses to it are
abandoned from now on, queued stores at once (R285). -/
def execActionEndAbandon (k h : Nat) (s : State) : Host.Outcome State Fault Refusal :=
  .next (
    if s.inAction k || s.reach k h ≠ 1 then s
    else
      let s : State := { s with unreach := cellSet 0 s.unreach (k * 1024 + h) 2 }
      let mine (r : Req) : Bool := reqSock r.frm = k && decide ((s.target k (r.ln * 64)).home = h)
      let s : State := { s with hq := s.hq.filter (fun r => !mine r), retried := s.retried.filter (fun r => !mine r),
                                txns := s.txns.filter (fun t => !(mine t.req && t.home = h)) }
      s.cores.foldl (fun s (e : Nat × Core) =>
        if coreSock e.1 = k then
          let r := s.drainList e.1 (s.core e.1).storeQ
          r.1.updCore e.1 (fun q => { q with storeQ := r.2 })
        else s) s)

/-! ### Codewords and control slots (R360-R368) -/

/-- Whether a partition is Sealed, as socket `k` is configured. -/
def State.partSealed (s : State) (k p : Nat) : Bool := (s.rd Reg.chimPartGuar { sock := k, i := p }).testBit 0

/-- Room for flits of a class and channel at a crossbar input (R367). -/
def xDepth (cls vc : Nat) : Nat := if vc = 2 then 32 else if cls = 3 then 256 else 64

/-- What a codeword is being filled with: nothing yet, flits of partitions that are not Sealed, or those of one Sealed partition,
which leave one slot for the tag (R393). -/
inductive Filling
  | none | plain | sealed (p : Nat)
deriving DecidableEq, Repr

/-- Whether a flit may join a codeword (R361, R367, R393, R395): a credit for its class and channel, none of that class and channel
left behind (`stuck`), the key of a Sealed partition, and the codeword's partition; and the codeword it makes. -/
def State.joins (s : State) (k : Nat) (f : FlueS) (peerIn : List Flit) (stuck : List (Nat × Nat)) (m : Filling) (x : Flit) :
    Option Filling :=
  let used := (peerIn.filter (fun y => y.cls = x.cls && y.vc = x.vc)).length
  let isS := s.partSealed k x.part
  if xDepth x.cls x.vc ≤ used || stuck.contains (x.cls, x.vc) || (isS && !f.keyed.contains x.part) then Option.none
  else match m with
    | .none => some (if isS then .sealed x.part else .plain)
    | .plain => if isS then Option.none else some m
    | .sealed p => if isS && x.part = p then some m else Option.none

/-- The flits a codeword of `n` message slots carries, in the order of the output queue, and those left behind. -/
def State.fill (s : State) (k : Nat) (f : FlueS) (peerIn : List Flit) (stuck : List (Nat × Nat)) (m : Filling) :
    Nat → List Flit → List Flit × List Flit
  | _, [] => ([], [])
  | 0, q => ([], q)
  | n + 1, x :: t =>
    match s.joins k f peerIn stuck m x with
    | some m' =>
      let r := State.fill s k f (peerIn ++ [x]) stuck m' (match m, m' with | .none, .sealed _ => n - 1 | _, _ => n) t
      (x :: r.1, r.2)
    | Option.none =>
      let r := State.fill s k f peerIn ((x.cls, x.vc) :: stuck) m (n + 1) t
      (r.1, x :: r.2)

/-- CODEWORD_RECEIVE at flue `n` of socket `k`: the peer's next codeword, or the replay of one it has sent, arrives.  `fec` is 0
clean, 1 corrected, 2 uncorrectable; `seq` the SEQ bits received; `crc` and `tag` whether CRC and, if sealed, tag match
(R364, R365). -/
def execCodewordReceive (k n fec seq : Nat) (crc tag : Bool) (s : State) : Host.Outcome State Fault Refusal :=
  .next (
    let a := flueIx k n
    let p := s.peer k n
    if s.link k n ≠ 2 || s.link p.1 p.2 ≠ 2 then s
    else
      let rx := s.rd Reg.flueSeqRx a
      let me := s.flue k n
      let tx := s.flue p.1 p.2
      let old := tx.unacked.find? (fun e => e.1 = rx)
      if old.isNone && 128 ≤ tx.unacked.length then s
      else
        let q := cellGet [] s.xout (flueKey p.1 p.2)
        let cut := match old with
          | some e => (e.2, q)
          | none => s.fill p.1 tx (cellGet [] s.xin (flueKey k n)) [] .none (if rx % 3 = 0 then 7 else 8) q
        let fs := cut.1
        let s := if old.isSome then s else
          let s : State := { s with xout := cellSet [] s.xout (flueKey p.1 p.2) cut.2 }
          (s.setFlue p.1 p.2 { tx with unacked := tx.unacked ++ [(rx, fs)], sent := tx.sent + 1 }).wr Reg.flueSeqTx
            (flueIx p.1 p.2) ((rx + 1) % 4096)
        let isSealed := fs.any (fun f => s.partSealed p.1 f.part)
        let s := if fec = 1 then s.bump Reg.flueErrFeccorr a else s
        let rej (s : State) : State := s.setFlue k n { me with rejects := min 8 (me.rejects + 1), nak := true }
        if 2 ≤ fec then rej (s.bump Reg.flueErrFecunc a)
        else if !crc then rej (s.bump Reg.flueErrCrc a)
        else if seq % 16 ≠ rx % 16 then (if me.nak then s else rej s)
        else if isSealed && !tag then rej (s.bump Reg.flueErrGcmfail a)
        else
          let fs := fs.map (fun (f : Flit) => { f with hops := f.hops + 1, time := s.time })
          let s : State := { s with xin := cellSet [] s.xin (flueKey k n) (cellGet [] s.xin (flueKey k n) ++ fs) }
          (s.setFlue k n { me with rejects := 0, nak := false }).wr Reg.flueSeqRx a ((rx + 1) % 4096))

/-- A signed value in `w` bits. -/
def signedBits (w : Nat) (x : Int) : Nat := (x % (2 ^ w : Nat)).toNat

/-- The flue to the parent of socket `k`: the up flue whose peer reported the smallest distance, the lowest-numbered on a tie
(R387). -/
def State.syncParent (s : State) (k : Nat) : Option Nat :=
  ((List.range 6).filter (fun n => s.link k n = 2 && decide ((s.flue k n).sdist < 31))).foldl (fun b n =>
    match b with
    | none => some n
    | some m => if (s.flue k n).sdist < (s.flue k m).sdist then some n else some m) none

/-- The timebase corrected by an offset from its parent: stepped while no core has left reset, slewed afterwards (R388). -/
def State.syncTo (s : State) (k : Nat) (off : Int) : State :=
  let a : Ix := { sock := k }
  let d := off.natAbs
  let s := ((s.wr Reg.tbaseOffset a (signedBits 32 off)).wr Reg.chimSyncErrmax a (max (s.rd Reg.chimSyncErrmax a) (min d 65535))).wr
    Reg.chimSyncLocked a (if d ≤ 10 then 1 else 0)
  let t := cellGet Tb.free s.tb k
  if (List.range (s.part k).cores).any (fun l => s.outOfReset (k * 256 + l)) then
    let e := s.time - t.since
    let base : Int := t.off - slewed t.fwd e + slewed t.back e
    let t' : Tb := { off := base, since := s.time, fwd := if off < 0 then d else 0, back := if 0 < off then d else 0 }
    { (s.wr Reg.tbaseSlew a (signedBits 16 (if off < 0 then 100 else if 0 < off then -100 else 0))) with
      tb := cellSet Tb.free s.tb k t' }
  else if off = 0 then s
  else
    let e := s.time - t.since
    { (s.bump Reg.tbaseSteps a) with
      tb := cellSet Tb.free s.tb k { off := t.off - slewed t.fwd e + slewed t.back e + off, since := s.time, fwd := 0, back := 0 } }

/-- CONTROL_SLOT_RECEIVE at flue `n` of socket `k`: acknowledgement, replay request, time stamps and sync distance (R363-R365,
R387, R388). -/
def execControlSlotReceive (k n ackseq : Nat) (nak : Bool) (nakseq ttx techo trx smaster sdist : Nat) (s : State) :
    Host.Outcome State Fault Refusal :=
  .next (
    if s.link k n ≠ 2 then s
    else
      let a : Ix := { sock := k }
      let f := s.flue k n
      let un := match f.unacked.findIdx? (fun e => e.1 = ackseq % 4096) with
        | some i => f.unacked.drop (i + 1)
        | none => f.unacked
      let s := s.setFlue k n { f with unacked := un, sdist := sdist % 32 }
      let s := if nak && un.any (fun e => e.1 = nakseq % 4096) then s.bump Reg.flueErrReplays (flueIx k n) else s
      if s.rd Reg.chimSyncMaster a = k then s.wr Reg.chimSyncDist a 0
      else
        match s.syncParent k with
        | none => s.wr Reg.chimSyncDist a 31
        | some m =>
          let s := s.wr Reg.chimSyncDist a (min 31 ((s.flue k m).sdist + 1))
          if m ≠ n then s
          else
            let s := s.wr Reg.chimSyncMaster a smaster
            s.syncTo k (((s.now k : Int) - ttx + (techo - trx)) / 2))

/-! ### The crossbar (R369-R371, R378, R381) -/

/-- The flit an input gives next, of those `ready` names among the heads of its class and channel buffers: one of an Assured
partition first, the oldest otherwise (R367, R370). -/
def xNext (q : List Flit) (ready : Flit → Bool) : Option Flit :=
  let heads := ((List.range 5).flatMap (fun c => (List.range 3).filterMap (fun v => q.find? (fun f => f.cls = c && f.vc = v)))).filter ready
  match q.find? (fun f => f.a && heads.contains f) with
  | some f => some f
  | none => q.find? heads.contains

/-- A flit taken out of an input. -/
def State.xTake (s : State) (k n : Nat) (f : Flit) : State :=
  { s with xin := cellSet [] s.xin (flueKey k n) ((cellGet [] s.xin (flueKey k n)).erase f) }

/-- A flit discarded by the firewall (R381). -/
def State.fwDrop (s : State) (k n : Nat) (f : Flit) : State :=
  let a : Ix := { sock := k }
  let s := (s.bump Reg.chimFwDrop a).wrs a [(Reg.chimFwLastSsock, f.ssock), (Reg.chimFwLastPart, f.part), (Reg.chimFwLastFlue, n)]
  s.ash k { cls := 5, src := 0x32, inst := n, code := 0x07, peer := f.ssock, part := f.part,
            d4 := s.rd Reg.chimFwDrop a + f.ssock % 1024 * 2 ^ 32 + f.part % 64 * 2 ^ 42 + n * 2 ^ 48 }

/-- A flit entered into the mesh at the flue stop for its destination stop. -/
def State.toMesh (s : State) (k : Nat) (f : Flit) : State :=
  let n := flueStop (ejectFlue f.dstop)
  let f := { f with time := s.time }
  let s := s.replayKeep k n f
  if n = f.dstop then s.eject k n 4 false f else s.setIn k n 4 f.cls (s.inBuf k n 4 f.cls ++ [f])

/-- The key of the expected transaction number of a requester's stop at a home (R378). -/
def txKey (k ssock sstop : Nat) : Nat := (k * 1024 + ssock) * 512 + sstop

/-- Whether the flue stop where a flit enters the mesh has room for it, and its replay store for data (R331, R347). -/
def State.meshRoom (s : State) (k : Nat) (f : Flit) : Bool :=
  let m := flueStop (ejectFlue f.dstop)
  decide ((s.inBuf k m 4 f.cls).length < inDepth m 4 f.cls) && !s.replayFull k m f.cls

/-- Requests held for the gap that has just closed, released in the order of their numbers while the mesh has room; at most `n`. -/
def State.txRelease (k port ssock sstop : Nat) : Nat → State → State
  | 0, s => s
  | n + 1, s =>
    let e := cellGet 0 s.txExp (txKey k ssock sstop)
    let l := cellGet [] s.txHeld (k * 8 + port)
    match l.find? (fun f => f.ssock = ssock && f.sstop = sstop && f.txid = e && s.meshRoom k f) with
    | none => s
    | some f =>
      let s : State := { s with txHeld := cellSet [] s.txHeld (k * 8 + port) (l.erase f),
                                txExp := cellSet 0 s.txExp (txKey k ssock sstop) ((e + 1) % 4096) }
      State.txRelease k port ssock sstop n (s.toMesh k f)

/-- The requests a port still holds whose turn has come. -/
def State.txAgain (s : State) (k port : Nat) : State :=
  (cellGet [] s.txHeld (k * 8 + port)).foldl (fun s f => State.txRelease k port f.ssock f.sstop 1 s) s

/-- How far a request's number is above the one its home expects. -/
def State.txAhead (s : State) (k : Nat) (f : Flit) : Nat := (f.txid + 4096 - cellGet 0 s.txExp (txKey k f.ssock f.sstop)) % 4096

/-- A request ejected at its home under the order of its requester's transaction numbers (R378). -/
def State.txArrive (s : State) (k n : Nat) (f : Flit) : State :=
  let a : Ix := { sock := k }
  let key := txKey k f.ssock f.sstop
  let d := s.txAhead k f
  let l := cellGet [] s.txHeld (k * 8 + n)
  if d = 0 then
    State.txRelease k n f.ssock f.sstop l.length
      (State.toMesh { (s.xTake k n f) with txExp := cellSet 0 s.txExp key ((cellGet 0 s.txExp key + 1) % 4096) } k f)
  else if d ≤ 2048 then { ((s.xTake k n f).bump Reg.chimOrdHeld a) with txHeld := cellSet [] s.txHeld (k * 8 + n) (l ++ [f]) }
  else (s.xTake k n f).bump Reg.chimOrdDup a

/-- A combined acknowledgement arrives from a branch. -/
def State.branchAck (s : State) (k n : Nat) (f : Flit) : State :=
  { s with combine := s.combine.map (fun (e : Combine) =>
      if e.sock = k && e.tag = f.tag && e.left.contains n then { e with left := e.left.erase n, count := e.count + f.count }
      else e) }

/-- Whether the firewall of socket `k` discards a flit: its source is no valid entry of its partition, or it is for this socket and of
another partition (R381). -/
def State.fwDrops (s : State) (k : Nat) (f : Flit) : Bool :=
  !(s.rd Reg.chimDestValid { sock := k, i := f.ssock } = 1 && s.rd Reg.chimDestPart { sock := k, i := f.ssock } = f.part) ||
    (f.dsock = k && f.cast = 0 && decide (f.part ≠ s.partition k))

/-- The port and the steps by which a flit that arrived goes on: those of its detour, or of the route from here (R374, R376). -/
def State.onward (s : State) (k : Nat) (f : Flit) : Option (Nat × Nat × List Nat × Bool) :=
  match f.plan with
  | st :: t => (s.portOf k st).map (fun p => (p, st, t, false))
  | [] =>
    match s.way k f.dsock with
    | some (st :: t, det) => (s.portOf k st).map (fun p => (p, st, t, det))
    | _ => none

/-- Whether a step from socket `k` crosses the dateline of its dimension (R375). -/
def State.dateline (s : State) (k st : Nat) : Bool :=
  if st % 2 = 0 then s.coord k k (st / 2) + 1 = s.ring k (st / 2) else s.coord k k (st / 2) = 0

/-- Whether a flit that goes on from socket `k` by a step has crossed that dimension's dateline, counted from its source (R375). -/
def State.crossed (s : State) (k st : Nat) (f : Flit) : Bool :=
  let x := s.coord k k (st / 2)
  let o := s.coord k f.ssock (st / 2)
  if st % 2 = 0 then decide (x < o) else decide (o < x)

/-- The flit as it leaves socket `k` again: a detour's links use the detour channel, the second link of a direct full connection VC1,
and a torus VC0 until the dateline and VC1 after it; DSTEP follows the detour (R375, R376, Table FLUE-3). -/
def State.passOn (s : State) (k st : Nat) (t : List Nat) (det : Bool) (f : Flit) : Flit :=
  let direct := decide (s.rd Reg.chimTopoKind { sock := k } ≤ 1)
  if det then s.sendOff k true t f
  else if f.plan.isEmpty then { f with vc := if s.crossed k st f then 1 else 0, dstep := 0, plan := t, time := s.time }
  else { f with vc := if direct then 1 else 2, dstep := min 2 (f.dstep + 1), plan := t, time := s.time }

/-- Whether a flit at the crossbar input of port `n` can move now: casts wait for MULTICAST_SNOOP, a flit for this socket for room in the
mesh or the reorder buffer, another for a way out (R330, R331, R371, R376, R378). -/
def State.xReady (s : State) (k n : Nat) (f : Flit) : Bool :=
  if s.fwDrops k f then f.cast ≠ 1 && f.cast ≠ 2
  else if f.cast = 1 || f.cast = 2 then false
  else if f.cast = 3 then true
  else if f.dsock = k then
    if f.cls = 0 || f.cls = 4 then
      let d := s.txAhead k f
      if d = 0 then s.meshRoom k f else decide (2048 < d) || decide ((cellGet [] s.txHeld (k * 8 + n)).length < 128)
    else s.meshRoom k f
  else (s.onward k f).isSome

/-- CROSSBAR_FLIT_ARRIVAL: the next flit of flue `n` passes the firewall and leaves on an output or enters the mesh (R369, R378,
R381). -/
def execCrossbarFlitArrival (k n : Nat) (s : State) : Host.Outcome State Fault Refusal :=
  .next (match xNext (cellGet [] s.xin (flueKey k n)) (s.xReady k n) with
    | none => s.txAgain k n
    | some f =>
      if s.fwDrops k f then (s.xTake k n f).fwDrop k n f
      else if f.cast = 3 then (s.xTake k n f).branchAck k n f
      else if f.dsock = k then
        if f.cls = 0 || f.cls = 4 then s.txArrive k n f
        else (s.xTake k n f).toMesh k f
      else
        match s.onward k f with
        | some (p, st, t, det) => (s.xTake k n f).xPut k p (s.passOn k st t det f)
        | none => s)

/-- RESYNC: the home sets its expected number for a requester (R379). -/
def execResync (k ssock sstop txid : Nat) (s : State) : Host.Outcome State Fault Refusal :=
  .next { (s.bump Reg.chimOrdResync { sock := k }) with
          txExp := cellSet 0 s.txExp (txKey k ssock sstop) (txid % 4096) }

/-! ### Casts (R371) -/

/-- How many positions of a ring a copy sent in a step's direction covers. -/
def castCover (ring st : Nat) : Nat := if st % 2 = 0 then (if ring ≤ 1 then 0 else (ring - 1) / 2 + 1) else (ring - 1) - ((ring - 1) / 2 + 1)

/-- The distance of socket `d` from the root along a step's direction. -/
def State.castDist (s : State) (k root d st : Nat) : Nat :=
  let r := s.ring k (st / 2)
  let x := s.coord k d (st / 2)
  let o := s.coord k root (st / 2)
  if st % 2 = 0 then (x + r - o) % r else (o + r - x) % r

/-- Whether socket `d` is targeted by a cast. -/
def State.castHits (s : State) (k : Nat) (f : Flit) (d : Nat) : Bool :=
  s.rd Reg.chimDestPart { sock := k, i := d } = f.part &&
    (f.cast = 2 || f.groups.getLsbD (s.group f.dsock d % 64))

/-- The steps a socket sends copies of a cast on: both ways round each dimension after the one it came by, and on in that one
while its half of the ring lasts; only where a targeted socket lies beyond. -/
def State.castSteps (s : State) (k : Nat) (f : Flit) (came : Option Nat) : List Nat :=
  let root := f.dsock
  if s.rd Reg.chimTopoKind { sock := k } = 1 then
    if came.isSome then []
    else ((s.fabric k).filter (fun d => decide (d ≠ k) && s.castHits k f d)).map (fun d =>
      6 + s.rd Reg.chimDestPort { sock := k, i := d })
  else
    let starts := (s.dims k).filter (fun e => match came with | none => true | some st => decide (st / 2 < e))
    let steps := (match came with | some st => [st] | none => []) ++ starts.flatMap (fun e => [2 * e, 2 * e + 1])
    steps.filter (fun st =>
      let e := st / 2
      let here := if came = some st then s.castDist k root k st else 0
      (s.fabric k).any (fun d => s.castHits k f d &&
        (List.range 3).all (fun x => decide (e ≤ x) || s.coord k d x = s.coord k k x) &&
        decide (here < s.castDist k root d st) && decide (s.castDist k root d st ≤ castCover (s.ring k e) st)))

/-- A cast acted on in socket `k`: copies on its branches, and a combining entry. -/
def State.castAt (s : State) (k : Nat) (f : Flit) (came : Option Nat) (frm : Option Nat) : State :=
  let ports := (s.castSteps k f came).filterMap (s.portOf k)
  let hit := decide (f.part = s.partition k) && s.castHits k f k && decide (k ≠ f.dsock)
  let s := ports.foldl (fun s p => s.xPut k p { f with time := s.time }) s
  { s with combine := s.combine ++ [{ sock := k, tag := f.tag, frm := frm, left := ports, count := if hit then 1 else 0 }] }

/-- MULTICAST_SNOOP at socket `k`: the cast at the head of flue `port`, or with `port` 7 a new one of this root for line `tag`
and the groups `groups` (`bcast` for the whole partition), is replicated; it waits when all 1,024 combining entries are in
use. -/
def execMulticastSnoop (k port : Nat) (bcast : Bool) (groups tag : Nat) (s : State) : Host.Outcome State Fault Refusal :=
  .next (
    if 1024 ≤ (s.combine.filter (fun e => e.sock = k)).length then s
    else if port = 7 then
      let f : Flit := { cls := 1, cast := if bcast then 2 else 1, a := s.isAssured k, dsock := k, ssock := k,
                        part := s.partition k, dstop := 0, sstop := 0, txid := 0, tag := tag, hops := 0, vc := 0, dstep := 0,
                        groups := BitVec.ofNat 64 groups, count := 0, plan := [], time := s.time }
      s.castAt k f none none
    else
      match xNext (cellGet [] s.xin (flueKey k port)) (fun f => f.cast = 1 || f.cast = 2) with
      | some f =>
        if s.fwDrops k f then (s.xTake k port f).fwDrop k port f
        else
          let code := s.portCode k port
          let plus : Nat := 2 * ((code - 1) / 3)
          -- The flit came by this flue, so it was moving away from it.
          let came := if (code - 1) % 3 = 0 then plus + 1 else if (code - 1) % 3 = 1 then plus
            else (if s.castDist k f.dsock k plus = 1 then plus else plus + 1)
          (s.xTake k port f).castAt k f (some came) (some port)
      | none => s)

/-- COMBINED_ACK: every branch of socket `k` has acknowledged the cast; the sum goes up the tree, at the root to the
requester. -/
def execCombinedAck (k tag : Nat) (s : State) : Host.Outcome State Fault Refusal :=
  .next (match s.combine.find? (fun e => e.sock = k && e.tag = tag) with
    | none => s
    | some e =>
      if !e.left.isEmpty then s
      else
        let s : State := { s with combine := s.combine.erase e }
        match e.frm with
        | some p =>
          s.xPut k p { cls := 2, cast := 3, a := s.isAssured k, dsock := (s.peer k p).1, ssock := k, part := s.partition k,
                       dstop := 0, sstop := 0, txid := 0, tag := tag, hops := 0, vc := 0, dstep := 0, groups := 0,
                       count := e.count, plan := [], time := s.time }
        | none =>
          match s.txn tag with
          | some t => s.say .ack tag k t.req.frm e.count
          | none => s)

/-! ### Time and discovery (R387-R390) -/

/-- SYNC_MASTER_CHANGE: the running socket of the fabric with the lowest identity is master from now on (R387). -/
def execSyncMasterChange (k : Nat) (s : State) : Host.Outcome State Fault Refusal :=
  .next (
    let a : Ix := { sock := k }
    match (s.fabric k).find? s.up with
    | none => s
    | some m =>
      if s.rd Reg.chimSyncMaster a = m && m ≠ k then s
      else s.wrs a [(Reg.chimSyncMaster, m), (Reg.chimSyncDist, if m = k then 0 else 31), (Reg.chimSyncLocked, if m = k then 1 else 0)])

/-- IDENT: a trained flue learns its peer, its flue number and whether it is a TLV-EQ128L; the two families do not join
(steps 2 and 3 of Table FLUE-8). -/
def execIdent (k n psock pflue : Nat) (small : Bool) (s : State) : Host.Outcome State Fault Refusal :=
  .next (
    let a := flueIx k n
    if s.link k n ≠ 2 then s
    else
      let s := (s.wr Reg.flueStatePeerSock a psock).wr Reg.flueStatePeerFlue a pflue
      let s := s.wrIf (s.rd Reg.chimDiscState { sock := k } = 0) Reg.chimDiscState { sock := k } 1
      if small == decide (s.part k = .eq128l) then s
      else (s.wr Reg.flueStateLink a 4).wr Reg.flueStateRefuse a 1)

/-- The SID[9:0] strap lands of a socket (R37, R390). -/
def State.strap (s : State) (k : Nat) : Nat := (cellGet none s.straps k).getD k

/-- The sockets met from a list of known ones breadth first over flues that are up, neighbours in ascending flue number; at most `n` more
rounds (R389, R390). -/
def State.flood (s : State) : Nat → List Nat → List Nat
  | 0, l => l
  | n + 1, l =>
    let l' := (l ++ l.flatMap (fun x => (List.range 6).filterMap (fun f => if s.link x f = 2 then some (s.peer x f).1 else none))).eraseDups
    if l'.length = l.length then l else State.flood s n l'

/-- When the first flue of a socket that is up completed training, in management clocks (R37). -/
def State.joinTime (s : State) (k : Nat) : Option Nat :=
  (((List.range 6).filter (fun n => s.link k n = 2)).map (fun n => (s.flue k n).trained / 5)).min?

/-- The flue by which a socket reaches a neighbour. -/
def State.flueTo (s : State) (k d : Nat) : Option Nat := (List.range 6).find? (fun n => s.link k n = 2 && (s.peer k n).1 = d)

/-- Whether of two sockets of one identity `d` joins before `k`: it completed training first, or in the same management clock and a
socket that reaches both has it on the lower-numbered flue (R37); without such a socket `tie` says it (log entry 12). -/
def State.joinsBefore (s : State) (d k : Nat) (tie : Bool) : Bool :=
  match s.joinTime d, s.joinTime k with
  | some x, some y =>
    decide (x < y) || (x = y &&
      match (s.flood 1024 [k]).findSome? (fun z => match s.flueTo z d, s.flueTo z k with | some i, some j => some (i, j) | _, _ => none) with
      | some (i, j) => decide (i < j)
      | none => tie)
  | some _, none => true
  | _, _ => false

/-- IDENT_TABLE_COMPLETE: with strapped identities the flues of the later of two sockets with one identity are refused and it is held out
(R37), `dup` telling whether it is this one where R37 orders neither; with assigned identities the socket takes its place in breadth-first order from the root, which keeps 0, or stays in step
5a when the fabric has no single root (steps 5 to 6 of Table FLUE-8, R390). -/
def execIdentTableComplete (k : Nat) (dup : Bool) (s : State) : Host.Outcome State Fault Refusal :=
  .next (
    let a : Ix := { sock := k }
    let known := s.flood 1024 [k]
    let roots := known.filter (fun d => s.strap d = 0)
    if s.rd Reg.chimDiscState a = 2 then s
    else if s.rd Reg.chimDiscMode a = 0 then
      if known.any (fun d => d ≠ k && s.strap d = s.strap k && s.joinsBefore d k dup) then
        let s := (List.range 6).foldl (fun s n =>
          if s.link k n = 2 then
            let p := s.peer k n
            let refuse (s : State) (x y : Nat) : State := (s.wr Reg.flueStateLink (flueIx x y) 4).wr Reg.flueStateRefuse (flueIx x y) 2
            refuse (refuse s k n) p.1 p.2
          else s) s
        (s.wr Reg.chimDiscState a 3).mgcReason k 4
      else s.wr Reg.chimDiscState a 2
    else match roots with
      | [r] =>
        let s := if k = r then s
          else (s.wr Reg.rootSocket a ((s.flood 1024 [r]).findIdx (· = k))).wr Reg.rootRewritten a 1
        s.wr Reg.chimDiscState a 2
      | _ => (s.wr Reg.chimDiscState a 3).mgcReason k 4)

/-- HELDOUT: a duplicate of this socket was held out by socket `by'` at its flue `n` (R37, step 5). -/
def execHeldout (k by' n : Nat) (s : State) : Host.Outcome State Fault Refusal :=
  .next ((s.wrs { sock := k } [(Reg.chimDiscHeldoutValid, 1), (Reg.chimDiscHeldoutBy, by'), (Reg.chimDiscHeldoutFlue, n)]).mgcReason k 4)

/-! ### Link keys and the start of a partition (R392, R395, Table FLUE-10) -/

/-- One end of a flue keyed for a partition. -/
def State.keyEnd (s : State) (k n p : Nat) : State :=
  if s.link k n = 2 then
    let f := s.flue k n
    (s.setFlue k n { f with keyed := if f.keyed.contains p then f.keyed else p :: f.keyed }).wr Reg.flueStateSealed (flueIx k n) 1
  else s

/-- FLUE_KEY_AGREED: a flue's key for a running Sealed partition is agreed at both ends (R395). -/
def execFlueKeyAgreed (k n p : Nat) (s : State) : Host.Outcome State Fault Refusal :=
  .next (
    if s.partSealed k p && s.rd Reg.chimPartState { sock := k, i := p } = 2 then
      let q := s.peer k n
      (s.keyEnd k n p).keyEnd q.1 q.2 p
    else s)

/-- FLUE_KEY_EPOCH: after each 2^32 codewords both ends use the next derived key (R395). -/
def execFlueKeyEpoch (k n : Nat) (s : State) : Host.Outcome State Fault Refusal :=
  .next (
    let f := s.flue k n
    if f.epoch < f.sent / 2 ^ 32 then s.setFlue k n { f with epoch := f.epoch + 1 } else s)

/-- A partition's start fails: STOPPED with its code (steps 1a to 3a). -/
def State.startFails (s : State) (k p code : Nat) : State :=
  let b : Ix := { sock := k, i := p }
  let s := s.wrs { sock := k } [(Reg.chimCfgCode, code), (Reg.chimCfgPart, p)]
  { ((s.wr Reg.chimPartState b 0).wr Reg.chimPartLastcode b code) with pstep := cellErase s.pstep (k * 64 + p) }

/-- CFGDIGEST: the digests of every socket of the starting partition are compared (step 2). -/
def execCfgdigest (k p : Nat) (s : State) : Host.Outcome State Fault Refusal :=
  .next (
    let socks := s.socksOf k p
    if s.rd Reg.chimPartState { sock := k, i := p } ≠ 1 || cellGet 0 s.pstep (k * 64 + p) ≠ 1 then s
    else if !socks.all (fun d => s.rd Reg.chimPartState { sock := d, i := p } = 1 || s.rd Reg.chimPartState { sock := d, i := p } = 2)
    then s
    else
      let mine := (digestWords (fun f a => s.rd f a) k p).drop 0
      if socks.all (fun d => decide (digestWords (fun f a => s.rd f a) d p = mine)) then
        { s with pstep := cellSet 0 s.pstep (k * 64 + p) 2 }
      else s.startFails k p 0x09)

/-- The partition runs on socket `k`: its guarantees hold, its buckets are full (R341, step 4), and the lines its caches hold modified
will be written under its keys (R415). -/
def State.partRuns (s : State) (k p : Nat) : State :=
  let g := s.rd Reg.chimPartGuar { sock := k, i := p }
  let bit (i : Nat) : Nat := if g.testBit i then 1 else 0
  let a : Ix := { sock := k }
  let s : State := { (s.wr Reg.chimPartState { sock := k, i := p } 2) with pstep := cellErase s.pstep (k * 64 + p) }
  if s.partition k = p then
    let s := s.wrs a [(Reg.secPartSealed, bit 0), (Reg.secPartAssured, bit 1), (Reg.secPartMac, bit 2), (Reg.secPartNum, p),
      (Reg.coreModeSealed, bit 0)]
    let s := (List.range 16).foldl (fun s i => s.wr Reg.mcDecMacon { sock := k, inst := i } (bit 2)) s
    let mod := (s.cores.filter (fun e => decide (coreSock e.1 = k))).flatMap (fun e => (e.2.l2.filter (fun x => x.2 = some .M)).map (·.1))
    let s := (mod ++ (s.abuf.filter (fun e => decide (e.1 / 512 = k))).flatMap (·.2)).foldl (fun s ln => s.encrypted k ln) s
    { s with bucketDebt := s.bucketDebt.filter (fun e => decide (e.1 / 512 ≠ k)) }
  else s

/-- PARTITION_KEYS_AGREED: with its keys agreed, or not Sealed, the partition becomes RUNNING; otherwise it stops (steps 3, 4
and 3a). -/
def execPartitionKeysAgreed (k p : Nat) (ok : Bool) (s : State) : Host.Outcome State Fault Refusal :=
  .next (
    if cellGet 0 s.pstep (k * 64 + p) ≠ 2 then s
    else if s.partSealed k p then
      if ok then ((List.range 6).foldl (fun s n => s.keyEnd k n p) s).partRuns k p else s.startFails k p 0x0A
    else s.partRuns k p)

end Sys2Proof.Machine
end

