-- ==== Sys2Proof/Machine/Crypto.lean ====
section
/-!
DEFINITION. Machine/Crypto.lean: the functions the spec names by their standards: CRC-32C (R55), SHA-256 (FIPS 180-4), AES-256
in GCM (SP 800-38D), and the field of the DFC code (R406-R407).
-/
namespace Sys2Proof.Machine

/-! ### CRC-32C (R55) -/

/-- One step of the reflected CRC-32C over one bit (R55). -/
def crcBit (c : Nat) : Nat := if c.testBit 0 then (c >>> 1) ^^^ 0x82F63B78 else c >>> 1

/-- CRC-32C over one byte. -/
def crcByte (c b : Nat) : Nat := crcBit (crcBit (crcBit (crcBit (crcBit (crcBit (crcBit (crcBit (c ^^^ b))))))))

/-- CRC-32C over the low `n` bytes of `x`, least significant first (R55). -/
def crc32c (c x : Nat) : Nat → Nat
  | 0 => c
  | n + 1 => crc32c (crcByte c (x % 256)) (x / 256) n

/-- CRC-32C over a list of bytes. -/
def crcBytes (c : Nat) (l : List Byte) : Nat := l.foldl (fun c b => crcByte c b.toNat) c

/-! ### SHA-256 (FIPS 180-4) -/

/-- The 64 round constants, constant 0 lowest. -/
def shaK : Nat :=
  0xc67178f2bef9a3f7a4506ceb90befffa8cc7020884c8781478a5636f748f82ee682e6ff35b9cca4f4ed8aa4a391c0cb334b0bcb52748774c1e376c0819a4c116106aa070f40e3585d6990624d192e819c76c51a3c24b8b70a81a664ba2bfe8a192722c8581c2c92e766a0abb650a735453380d134d2c6dfc2e1b213827b70a851429296706ca6351d5a79147c6e00bf3bf597fc7b00327c8a831c66d983e515276f988da5cb0a9dc4a7484aa2de92c6f240ca1cc0fc19dc6efbe4786e49b69c1c19bf1749bdc06a780deb1fe72be5d74550c7dc3243185be12835b01d807aa98ab1c5ed5923f82a459f111f13956c25be9b5dba5b5c0fbcf71374491428a2f98

/-- The initial hash value, word 0 lowest. -/
def shaH0 : Nat := 0x5be0cd191f83d9ab9b05688c510e527fa54ff53a3c6ef372bb67ae856a09e667

/-- A 32-bit word rotated right. -/
def rotr32 (x n : Nat) : Nat := (x >>> n) ||| ((x <<< (32 - n)) % 2 ^ 32)

/-- A big-endian number. -/
def beNat (l : List Byte) : Nat := l.foldl (fun x b => 256 * x + b.toNat) 0

/-- The `n` big-endian bytes of a number. -/
def beBytes (n x : Nat) : List Byte := (leBytes n x).reverse

/-- `n` rounds from round `i` on: the 16 schedule words still to come and the eight working variables. -/
def shaRounds : Nat → Nat → List Nat → List Nat → List Nat
  | 0, _, _, v => v
  | n + 1, i, w, v =>
    let x (j : Nat) : Nat := nth 0 v j
    let wt := nth 0 w 0
    let w1 := nth 0 w 1
    let w14 := nth 0 w 14
    let s0 := rotr32 w1 7 ^^^ rotr32 w1 18 ^^^ (w1 >>> 3)
    let s1 := rotr32 w14 17 ^^^ rotr32 w14 19 ^^^ (w14 >>> 10)
    let nw := (s1 + nth 0 w 9 + s0 + wt) % 2 ^ 32
    let e := x 4
    let a := x 0
    let t1 := x 7 + (rotr32 e 6 ^^^ rotr32 e 11 ^^^ rotr32 e 25) + ((e &&& x 5) ^^^ ((e ^^^ 0xFFFFFFFF) &&& x 6)) +
      natBits shaK (32 * i + 31) (32 * i) + wt
    let t2 := (rotr32 a 2 ^^^ rotr32 a 13 ^^^ rotr32 a 22) + ((a &&& x 1) ^^^ (a &&& x 2) ^^^ (x 1 &&& x 2))
    shaRounds n (i + 1) (w.drop 1 ++ [nw])
      [(t1 + t2) % 2 ^ 32, a, x 1, x 2, (x 3 + t1) % 2 ^ 32, e, x 5, x 6]

/-- One 64-byte block compressed into the state of eight words. -/
def shaBlock (h : List Nat) (b : List Byte) : List Nat :=
  let w := (List.range 16).map (fun i => beNat ((b.drop (4 * i)).take 4))
  (h.zip (shaRounds 64 0 w h)).map (fun p => (p.1 + p.2) % 2 ^ 32)

/-- `n` blocks compressed. -/
def shaBlocks : Nat → List Nat → List Byte → List Nat
  | 0, h, _ => h
  | n + 1, h, b => shaBlocks n (shaBlock h (b.take 64)) (b.drop 64)

/-- The initial state. -/
def shaInit : List Nat := (List.range 8).map (fun i => natBits shaH0 (32 * i + 31) (32 * i))

/-- The padding of a message of `n` bytes. -/
def shaPad (n : Nat) : List Byte :=
  0x80 :: List.replicate ((119 - n % 64) % 64) 0 ++ beBytes 8 (8 * n)

/-- The eight words as 32 big-endian bytes. -/
def shaOut (h : List Nat) : List Byte := h.flatMap (beBytes 4)

/-- The digest of a message. -/
def sha256 (m : List Byte) : List Byte :=
  let b := m ++ shaPad m.length
  shaOut (shaBlocks (b.length / 64) shaInit b)

/-! ### AES-256 and GCM -/

/-- The S-box, entry 0 lowest. -/
def aesS : Nat :=
  0x16bb54b00f2d99416842e6bf0d89a18cdf2855cee9871e9b948ed9691198f8e19e1dc186b95735610ef6034866b53e708a8bbd4b1f74dde8c6b4a61c2e2578ba08ae7a65eaf4566ca94ed58d6d37c8e779e4959162acd3c25c2406490a3a32e0db0b5ede14b8ee4688902a22dc4f816073195d643d7ea7c41744975fec130ccdd2f3ff1021dab6bcf5389d928f40a351a89f3c507f02f94585334d43fbaaefd0cf584c4a39becb6a5bb1fc20ed00d153842fe329b3d63b52a05a6e1b1a2c830975b227ebe28012079a059618c323c7041531d871f1e5a534ccf73f362693fdb7c072a49cafa2d4adf04759fa7dc982ca76abd7fe2b670130c56f6bf27b777c63

/-- One byte through the S-box. -/
def aesSub (x : Nat) : Nat := natBits aesS (8 * x + 7) (8 * x)

/-- A byte doubled in GF(2^8). -/
def aesX (x : Nat) : Nat := if x < 128 then 2 * x else (2 * x) % 256 ^^^ 0x1B

/-- The key schedule's words (as lists of four bytes) from word `i` on, the newest eight first in `w` (newest at the head). -/
def aesExpand : Nat → Nat → Nat → List (List Nat) → List (List Nat)
  | 0, _, _, w => w
  | n + 1, i, rc, w =>
    let t := nth [] w 0
    let t' := if i % 8 = 0 then
        let r := (t.drop 1 ++ t.take 1).map aesSub
        setNth r 0 (nth 0 r 0 ^^^ rc)
      else if i % 8 = 4 then t.map aesSub
      else t
    let nw := (nth [] w 7).zipWith (· ^^^ ·) t'
    aesExpand n (i + 1) (if i % 8 = 0 then aesX rc else rc) (nw :: w)

/-- The round keys of a 32-byte key, one list of 16 bytes a round. -/
def aesKeys (key : List Byte) : List (List Nat) :=
  let b := key.map (·.toNat)
  let w0 := (List.range 8).map (fun i => (b.drop (4 * i)).take 4)
  let w := (aesExpand 52 8 1 w0.reverse).reverse
  (List.range 15).map (fun r => ((w.drop (4 * r)).take 4).flatten)

/-- SubBytes and ShiftRows. -/
def aesSubShift (b : List Nat) : List Nat :=
  (List.range 16).map (fun i => aesSub (nth 0 b ((i + 4 * (i % 4)) % 16)))

/-- MixColumns. -/
def aesMix (b : List Nat) : List Nat :=
  (List.range 16).map (fun i =>
    let c := 4 * (i / 4)
    let x (j : Nat) : Nat := nth 0 b (c + (i + j) % 4)
    aesX (x 0) ^^^ (aesX (x 1) ^^^ x 1) ^^^ x 2 ^^^ x 3)

/-- The rounds after the first key addition. -/
def aesRounds : List (List Nat) → List Nat → List Nat
  | [], b => b
  | [k], b => (aesSubShift b).zipWith (· ^^^ ·) k
  | k :: t, b => aesRounds t ((aesMix (aesSubShift b)).zipWith (· ^^^ ·) k)

/-- One block enciphered. -/
def aesBlock (ks : List (List Nat)) (b : List Byte) : List Byte :=
  (aesRounds (ks.drop 1) ((b.map (·.toNat)).zipWith (· ^^^ ·) (nth [] ks 0))).map (BitVec.ofNat 8 ·)

/-- The tweak of the next block of AES-XTS (IEEE 1619): doubled in GF(2^128), byte 0 lowest. -/
def xtsNext (t : Nat) : Nat := if t < 2 ^ 127 then 2 * t else (2 * t) % 2 ^ 128 ^^^ 0x87

/-- `n` blocks enciphered from tweak `t` on. -/
def xtsBlocks (ks : List (List Nat)) : Nat → Nat → List Byte → List Byte
  | 0, _, _ => []
  | n + 1, t, b =>
    let x := leBytes 16 t
    (aesBlock ks ((b.take 16).zipWith (· ^^^ ·) x)).zipWith (· ^^^ ·) x ++ xtsBlocks ks n (xtsNext t) (b.drop 16)

/-- A 64-byte line enciphered with AES-XTS-256 under a key pair, with a line number PA[56:6] as its tweak (R136). -/
def xtsLine (key : BitVec 512) (ln : Nat) (x : Vec) : Vec :=
  let k := leBytes 64 key.toNat
  let t := leNat (aesBlock (aesKeys (k.drop 32)) (leBytes 16 ln))
  BitVec.ofNat 512 (leNat (xtsBlocks (aesKeys (k.take 32)) 4 t (leBytes 64 x.toNat)))

/-- The product of SP 800-38D in GF(2^128), bit 127 being the coefficient of 1. -/
def gcmMul (x y : Nat) : Nat :=
  ((List.range 128).foldl (fun (p : Nat × Nat) i =>
    (if x.testBit (127 - i) then p.1 ^^^ p.2 else p.1,
     if p.2.testBit 0 then (p.2 >>> 1) ^^^ (0xE1 * 2 ^ 120) else p.2 >>> 1)) (0, y)).1

/-- GHASH over `n` blocks. -/
def ghash (h : Nat) : Nat → Nat → List Byte → Nat
  | 0, y, _ => y
  | n + 1, y, b => ghash h n (gcmMul (y ^^^ beNat (b.take 16)) h) (b.drop 16)

/-- Bytes padded with zeros to a whole block. -/
def pad16 (b : List Byte) : List Byte := b ++ List.replicate ((16 - b.length % 16) % 16) 0

/-- `n` bytes of key stream from counter `c` of a 96-bit IV. -/
def gcmStream (ks : List (List Nat)) (iv : List Byte) : Nat → Nat → List Byte
  | 0, _ => []
  | n + 1, c => aesBlock ks (iv ++ beBytes 4 c) ++ gcmStream ks iv n (c + 1)

/-- GCM on a text with a 96-bit IV: the output text and the tag; the tag covers the cipher text. -/
def gcm (key iv aad text : List Byte) (dec : Bool) : List Byte × List Byte :=
  let ks := aesKeys key
  let h := beNat (aesBlock ks (List.replicate 16 0))
  let out := text.zipWith (· ^^^ ·) (gcmStream ks iv ((text.length + 15) / 16) 2)
  let c := if dec then text else out
  let b := pad16 aad ++ pad16 c ++ beBytes 8 (8 * aad.length) ++ beBytes 8 (8 * c.length)
  let s := ghash h (b.length / 16) 0 b
  (out, beBytes 16 (s ^^^ beNat (aesBlock ks (iv ++ beBytes 4 1))))

/-! ### GF(2^64) of the DFC code (R406) -/

/-- A symbol times α (R406). -/
def gfX (a : Nat) : Nat := if a < 2 ^ 63 then 2 * a else (2 * a) % 2 ^ 64 ^^^ 0x1B

/-- A symbol times α to the `n`. -/
def gfXn : Nat → Nat → Nat
  | 0, a => a
  | n + 1, a => gfXn n (gfX a)

/-- A symbol divided by α. -/
def gfDivX (a : Nat) : Nat := if a % 2 = 0 then a / 2 else (a ^^^ 0x1B) / 2 + 2 ^ 63

/-- A symbol divided by α to the `n`. -/
def gfDivXn : Nat → Nat → Nat
  | 0, a => a
  | n + 1, a => gfDivXn n (gfDivX a)

/-- The product of two symbols. -/
def gfMul (a b : Nat) : Nat :=
  ((List.range 64).foldl (fun (p : Nat × Nat) i => (if b.testBit i then p.1 ^^^ p.2 else p.1, gfX p.2)) (0, a)).1

/-- The inverse of 1 + α. -/
def gfInv3 : Nat := 0xFFFFFFFFFFFFFFF6

end Sys2Proof.Machine
end

