-- ==== Sys2Proof/Machine/MemCh.lean ====
section
/-!
DEFINITION. Machine/MemCh.lean: the memory channels: the DFC code (R406-R412), initialisation (R413), the Sweep (R416, R417),
refresh and calibration (R420, R421), self-refresh (R423), row sparing and repair (R424-R427).

Errors of the DRAM come in with the access that meets them: ten 64-bit symbols by which the code word read differs from the
one written (log entry 20).
-/
namespace Sys2Proof.Machine

/-! ### The DFC code (R406-R408) -/

/-- Symbol `d` of a line (R406). -/
def symOf (x : Vec) (d : Nat) : Nat :=
  (List.range 64).foldl (fun v i => v + (if x.getLsbD (32 * (i / 4) + 4 * d + i % 4) then 2 ^ i else 0)) 0

/-- The line eight data symbols spell. -/
def lineOfSyms (l : List Nat) : Vec :=
  BitVec.ofNat 512 ((List.range 512).foldl
    (fun v i => v + (if (nth 0 l (i % 32 / 4)).testBit (4 * (i / 32) + i % 4) then 2 ^ i else 0)) 0)

/-- δ(D) + P·π (R407). -/
def dfcTag (d : Nat) (p : Bool) : Nat := (d % 4) * 2 ^ 32 + (if p then 2 ^ 40 else 0)

/-- S0 and S1 of ten symbols. -/
def dfcSyn (w : List Nat) : Nat × Nat :=
  (w.foldl (· ^^^ ·) 0, (List.range 10).foldl (fun v i => v ^^^ gfXn i (nth 0 w i)) 0)

/-- The code word of a line with directory bits `d` and poison flag `p` (R407). -/
def dfcWord (x : Vec) (d : Nat) (p : Bool) : List Nat :=
  let l := (List.range 8).map (symOf x)
  let a := l.foldl (· ^^^ ·) 0
  let b := (List.range 8).foldl (fun v i => v ^^^ gfXn i (nth 0 l i)) (dfcTag d p)
  let w9 := gfMul (a ^^^ gfDivXn 8 b) gfInv3
  l ++ [a ^^^ w9, w9]

/-- The hypotheses that fit a syndrome: poison flag, directory bits, and a device or none; while a device is marked only
hypotheses naming it, with "no error", are tried (R408). -/
def dfcFits (s0 s1 : Nat) (mark : Option Nat) : List (Bool × Nat × Option Nat) :=
  [false, true].flatMap (fun p => (List.range 4).flatMap (fun d =>
    let t := s1 ^^^ dfcTag d p
    (if s0 = 0 ∧ t = 0 then [(p, d, none)] else []) ++
    (List.range 10).filterMap (fun j =>
      if s0 ≠ 0 ∧ t = gfXn j s0 ∧ (match mark with | none => true | some m => decide (m = j)) = true then
        some (p, d, some j) else none)))

/-- What a code word decodes to: data, directory bits, poison flag and the device corrected; none when it is uncorrectable. -/
def dfcDecode (w : List Nat) (mark : Option Nat) : Option (Vec × Nat × Bool × Option Nat) :=
  let s := dfcSyn w
  match dfcFits s.1 s.2 mark with
  | [(p, d, none)] => some (lineOfSyms w, d, p, none)
  | [(p, d, some j)] => some (lineOfSyms (setNth w j (nth 0 w j ^^^ s.1)), d, p, some j)
  | _ => none

/-! ### Lines and rows of a channel (R402, R404) -/

/-- The registers of a channel. -/
def mcIx (k n : Nat) : Ix := { sock := k, inst := n }

/-- What a channel holds beside its registers. -/
def State.chan (s : State) (k n : Nat) : Chan := cellGet Chan.idle s.chans (k * 16 + n)

/-- A channel's record replaced. -/
def State.setChan (s : State) (k n : Nat) (c : Chan) : State := { s with chans := cellSet Chan.idle s.chans (k * 16 + n) c }

/-- A channel's record changed. -/
def State.updChan (s : State) (k n : Nat) (f : Chan → Chan) : State := s.setChan k n (f (s.chan k n))

/-- The window offset of a channel-local line: the mapping of R402 the other way. -/
def State.chanOff (s : State) (k n line : Nat) : Nat :=
  let w := s.ways k
  let b := line / 64 * w
  let x := (List.range 12).foldl (fun v i => v ^^^ natBits b (4 * i + 3) (4 * i)) 0
  (b + ((n / (16 / w)) ^^^ (x % w))) * 4096 + line % 64 * 64

/-- The image address backed by a window offset of socket `k`: through the stripe region it backs, if any (R293). -/
def State.imageOf (s : State) (k off : Nat) : Nat :=
  let hit (r : Nat) : Option Nat :=
    let a : Ix := { sock := k, i := r }
    let b := s.rd Reg.hrthStripeBase a * gib
    let n := s.rd Reg.hrthStripeN a
    if s.rd Reg.hrthStripeValid a = 1 && decide (b ≤ off) && decide (off < b + s.rd Reg.hrthStripeShare a * gib) then
      ((List.range n).find? (fun j => s.rd Reg.hrthStripeSock { a with j := j } = k)).map (fun j =>
        let o := off - b
        s.rd Reg.hrthStripeSock a * 2 ^ 47 + b + ((o / 4096) * n + j) * 4096 + o % 4096)
    else none
  ((List.range 8).findSome? hit).getD (k * 2 ^ 47 + off)

/-- Lines of a channel, the sparing area with them. -/
def State.chanLines (s : State) (k n : Nat) : Nat :=
  let g := s.rd Reg.mcCapGib (mcIx k n) * gib / 64
  if s.paired k then g / 2 else g

/-- Lines that decode: below the sparing area (R402). -/
def State.chanTop (s : State) (k n : Nat) : Nat := s.chanLines k n - 2 ^ 20 / 64 / (if s.paired k then 2 else 1)

/-- The row of a line; in paired mode `copy` names the subchannel. -/
def State.rowOf (s : State) (k line copy : Nat) : Nat :=
  if s.paired k then line / 128 * 2 + copy % 2 else line / 256 * 2 + line % 2

/-- Line `i` of a row. -/
def State.rowLine (s : State) (k row i : Nat) : Nat :=
  if s.paired k then row / 2 * 128 + i else row / 2 * 256 + 2 * i + row % 2

/-- Rank, bank group, bank and row number of a row (Table MEMC-3). -/
def State.rowPlace (s : State) (k n row : Nat) : Nat × Nat × Nat × Nat :=
  let l := row / 2
  let rb := s.rd Reg.mcGeomRankbits (mcIx k n)
  let r := l / 2 ^ (5 + rb) % 2 ^ s.rd Reg.mcGeomRowbits (mcIx k n)
  (l / 32 % 2 ^ rb, l % 8 ^^^ r % 8, l / 8 % 4 ^^^ r / 8 % 4, r)

/-- The subchannel-rank of a line: 8 × SC + RANK. -/
def State.subRank (s : State) (k n line copy : Nat) : Nat :=
  let row := s.rowOf k line copy
  8 * (row % 2) + (s.rowPlace k n row).1

/-- The line number of the image a channel line holds, none for the sparing area but for a row spared into it (R425). -/
def State.imageLine (s : State) (k n line : Nat) : Option Nat :=
  if line < s.chanTop k n then some (lineOf (s.imageOf k (s.chanOff k n line)))
  else if s.paired k then none
  else
    let a : Ix := { sock := k, inst := n, i := line / 256 % 64 }
    if s.rd Reg.mcSpareValid a = 1 && s.rd Reg.mcSpareSc a = line % 2 then
      let row := s.rd Reg.mcSpareRow a
      let rb := s.rd Reg.mcGeomRankbits (mcIx k n)
      let b := s.rd Reg.mcSpareBank a
      let l := ((row * 2 ^ rb + s.rd Reg.mcSpareRank a) * 4 + (b % 4 ^^^ row / 8 % 4)) * 8 + (b / 4 ^^^ row % 8)
      some (lineOf (s.imageOf k (s.chanOff k n (l * 256 + line % 256))))
    else none

/-! ### Reading and writing DRAM -/

/-- The value, directory bits code and poison flag in home memory of an image line. -/
def State.dram (s : State) (ln : Nat) : Vec × Nat × Bool :=
  let b := match s.bits ln with | .none => 0 | .shared => 1 | .owned => 2 | .unknown => 3
  match cellGet none s.homeOld ln with
  | some (v, p) => (v, b, p)
  | none => (s.lineVal ln, b, s.isPoison ln)

/-- A code word written to home memory; a line that caches hold keeps its value there. -/
def State.dramWrite (s : State) (ln : Nat) (x : Vec) (d : Nat) (p : Bool) : State :=
  let s := s.setBits ln (match d with | 0 => .none | 1 => .shared | 2 => .owned | _ => .unknown)
  if (cellGet none s.homeOld ln).isSome || s.otherHas (2 ^ 20) ln (fun _ _ => true) then
    { s with homeOld := cellSet none s.homeOld ln (some (x, p)) }
  else { (s.setPoison ln p) with mem := memWrite s.mem (ln * 64) (leBytes 64 x.toNat) }

/-- The latest error noted: line, device, kind, and whether the Sweep found it. -/
def State.mcLast (s : State) (k n line dev kind : Nat) (sweep : Bool) : State :=
  s.wrs (mcIx k n) [(Reg.mcErrLastLine, line), (Reg.mcErrLastDev, dev), (Reg.mcErrLastKind, kind),
    (Reg.mcErrLastSweep, if sweep then 1 else 0)]

/-- The word MCn.ERR.LAST as an Ashpan entry of the channel carries it (Table RELY-3). -/
def State.mcLastWord (s : State) (k n : Nat) : Nat :=
  let a := mcIx k n
  s.rd Reg.mcErrLastLine a + s.rd Reg.mcErrLastDev a * 2 ^ 34 + s.rd Reg.mcErrLastKind a * 2 ^ 38 +
    s.rd Reg.mcErrLastSweep a * 2 ^ 40

/-- An Ashpan entry of a channel: the controller or its Sweep. -/
def State.mcAsh (s : State) (k n cls code pa : Nat) (sweep : Bool) : State :=
  s.ash k { cls := cls, src := if sweep then 0x41 else 0x40, inst := n, code := code, addr := pa, part := s.partition k,
            d4 := s.mcLastWord k n }

/-- An entry of row sparing and repair. -/
def State.spareAsh (s : State) (k n cls code entry : Nat) : State :=
  s.ash k { cls := cls, src := 0x42, inst := n, code := code, part := s.partition k, d4 := entry }

/-- A row put forward for sparing (R424, R427): ignored with an Ashpan entry when it has a sparing entry already, chosen or in use, the
table is full or four candidates wait. -/
def State.candidate (s : State) (k n row : Nat) : State :=
  let c := s.chan k n
  let p := s.rowPlace k n row
  let has (e : Nat) : Bool :=
    let a : Ix := { sock := k, inst := n, i := e }
    s.rd Reg.mcSpareValid a = 1 && (s.paired k || s.rd Reg.mcSpareSc a = row % 2) && s.rd Reg.mcSpareRank a = p.1 &&
      s.rd Reg.mcSpareBank a = p.2.1 * 4 + p.2.2.1 && s.rd Reg.mcSpareRow a = p.2.2.2
  let busy := match c.row with | some r => decide (r.row / 2 = row / 2 ∧ (s.paired k = true ∨ r.row = row)) | none => false
  if (List.range 64).any has || busy || s.rd Reg.mcSpareStatFull (mcIx k n) = 1 || 4 ≤ c.cand.length then
    s.spareAsh k n 5 0x07 0
  else if c.cand.contains row then s
  else s.setChan k n { c with cand := c.cand ++ [row] }

/-- A correction attributed to device `j`: counted, and the device marked and the row put forward at their thresholds (R410,
R424). -/
def State.mcFixed (s : State) (k n line copy j : Nat) (sweep : Bool) (pa : Nat) : State :=
  let a := mcIx k n
  let r := s.subRank k n line copy
  let mk : Ix := { a with i := r }
  let row := s.rowOf k line copy
  let marked := s.rd Reg.mcMarkValid mk = 1 && s.rd Reg.mcMarkDev mk = j
  let s := (s.bump Reg.mcErrCorr a).bump Reg.mcDevcorr { a with i := r, j := j }
  let s := (s.mcLast k n line j (if marked then 2 else 0) sweep).mcAsh k n 0 0x01 pa sweep
  let s := s.updChan k n (fun c => { c with fixes := c.fixes ++ [(16 * r + j, row)] })
  let fx := (s.chan k n).fixes
  let mine := fx.filter (fun f => f.1 = 16 * r + j)
  let th := s.rd Reg.mcThrMark a
  let s := if th ≠ 0 ∧ th ≤ mine.length ∧ mine.any (fun f => f.2 ≠ row) = true ∧ s.rd Reg.mcMarkValid mk = 0 then
      (s.wrs mk [(Reg.mcMarkValid, 1), (Reg.mcMarkDev, j), (Reg.mcMarkAuto, 1)]).mcAsh k n 2 0x06 pa sweep
    else s
  let tr := s.rd Reg.mcThrRow a
  if tr ≠ 0 ∧ (fx.filter (fun f => f.2 = row)).length = tr then s.candidate k n row else s

/-- The device marked in a line's subchannel-rank. -/
def State.markOf (s : State) (k n line copy : Nat) : Option Nat :=
  let a : Ix := { sock := k, inst := n, i := s.subRank k n line copy }
  if s.rd Reg.mcMarkValid a = 1 then some (s.rd Reg.mcMarkDev a) else none

/-- The number of the partition key that socket `k`'s memory controllers use (R135). -/
def State.partKeyNo (s : State) (k : Nat) : Nat := (cellGet 0 s.keyGen (s.lowSock k) * 2 ^ 10 + s.lowSock k) * 4

/-- The number of an instance's image key, or of its data key (R145). -/
def State.instKeyNo (s : State) (g : Nat) (data : Bool) : Nat :=
  if data then (cellGet 0 s.keyGen (2 ^ 17 + g) * 2 ^ 16 + g) * 4 + 2 else (cellGet 0 s.keyGen (1024 + g) * 2 ^ 16 + g) * 4 + 1

/-- The number of the key a line is kept under in memory: of an instance's page its image or data key, otherwise the key of a Sealed
partition that has written it (R136, R145, R415). -/
def State.lineKey (s : State) (k ln : Nat) : Option Nat :=
  let o := cellGet (0, 0) s.owner (ln / 64)
  if o.1 ≠ 0 then some (s.instKeyNo o.2 (o.1 = 4))
  else if s.sealedRuns k && cellGet false s.enc ln then some (s.partKeyNo k)
  else none

/-- What DRAM holds of a line: its cipher text in an instance's page, or once a Sealed partition has written it; the poison code word is
not enciphered (R136, R145, R411, R415). -/
def State.stored (s : State) (k ln : Nat) (x : Vec) (p : Bool) : Vec :=
  match s.lineKey k ln with
  | some key => if p then x else xtsLine (partKey key) ln x
  | none => x

/-- The metadata line of a channel that holds a line's MAC, and the MAC's bit there (R137, R428). -/
def State.macPlace (s : State) (k n line : Nat) : Option (Nat × Nat) :=
  let off := s.chanOff k n line
  let per := 2 ^ 24 / s.ways k
  let base (r : Nat) : Nat := s.rd Reg.mcMacrBase { sock := k, i := r }
  let size (r : Nat) : Nat := s.rd Reg.mcMacrSize { sock := k, i := r }
  let valid := (List.range 16).filter (fun r => s.rd Reg.mcMacrValid { sock := k, i := r } = 1)
  if !s.macCovers (.dram k off) then none
  else (valid.find? (fun r => decide (base r * gib ≤ off) && decide (off < (base r + size r) * gib))).map (fun r =>
    let j := ((valid.filter (fun q => decide (base q < base r))).foldl (fun a q => a + size q) 0) * per + line - base r * per
    (s.chanTop k n * 15 / 16 + j / 8, 56 * (j % 8)))

/-- The metadata cache of a channel used by an access to a line: the least recently used of 16 ways makes room (R428). -/
def State.macTouch (s : State) (k n line : Nat) (wr : Bool) : State :=
  match s.macPlace k n line with
  | none => s
  | some (m, _) =>
    let l := cellGet [] (s.chan k n).meta' (m % 256)
    let dirty := wr || l.any (fun e => e.1 = m && e.2)
    s.updChan k n (fun c => { c with meta' := cellSet [] c.meta' (m % 256) (((m, dirty) :: l.filter (fun e => e.1 ≠ m)).take 16) })

/-- The controller delivers a line and its bits. -/
def State.mcDeliver (s : State) (k n : Nat) (w : List Nat) (x : Vec) (d : Nat) (p : Bool) : State :=
  { s with mcOut := cellSet none s.mcOut (k * 16 + n) (some { word := w, data := x, d := d, p := p }) }

/-- A line of a channel as a read meets it: its physical line, the bits the model keeps of it, the key it is under, what DRAM holds of it,
and its code word. -/
structure McLine where
  k : Nat
  n : Nat
  line : Nat
  sweep : Bool
  ln : Option Nat
  v : Vec × Nat × Bool
  key : Option Nat
  dram : Vec
  word : List Nat

/-- The line's address, zero for a line of no image. -/
def McLine.pa (l : McLine) : Nat := match l.ln with | some x => x * 64 | none => 0

/-- The code word a copy answers with, `e` being its errors. -/
def McLine.got (l : McLine) (e : List Nat) : List Nat := (List.range 10).map (fun i => nth 0 l.word i ^^^ nth 0 e i)

/-- Decoded data deciphered (R136). -/
def McLine.plain (l : McLine) (x : Vec) : Vec :=
  if x = l.dram then l.v.1 else match l.ln, l.key with | some ln, some key => xtsOpen key ln x | _, _ => x

/-- What a correction of the Sweep writes back (R417). -/
def State.mcRewrite (s : State) (l : McLine) (x : Vec) (d : Nat) (p : Bool) : State :=
  match l.ln with | some ln => if (x, d, p) = l.v then s else s.dramWrite ln x d p | none => s

/-- The MAC of a line read, checked where a range covers it; and whether the line is poisoned (R138). -/
def State.mcMac (s : State) (l : McLine) (x : Vec) (p : Bool) : State × Bool :=
  match l.ln with
  | some ln =>
    if !p && s.macCovers (s.target l.k (ln * 64)) && (cellGet false s.macBad ln || decide (x ≠ l.dram)) then (s.macFail l.k ln, true)
    else (s, p)
  | none => (s, p)

/-- Copy `copy` of a line decoded: a correction is recorded, and rewritten by the Sweep; the line is delivered (R408, R417). -/
def State.mcGood (s : State) (l : McLine) (copy : Nat) (e : List Nat) (r : Vec × Nat × Bool × Option Nat) : State :=
  let s := match r.2.2.2 with
    | none => s
    | some j =>
      let s := s.mcFixed l.k l.n l.line copy j l.sweep l.pa
      if l.sweep then (s.bump Reg.mcErrSweepfix (mcIx l.k l.n)).mcRewrite l (l.plain r.1) r.2.1 r.2.2.1 else s
  let m := s.mcMac l r.1 r.2.2.1
  m.1.mcDeliver l.k l.n (l.got e) (l.plain r.1) r.2.1 m.2

/-- No copy decodes: the line is poisoned (R411). -/
def State.mcLost (s : State) (l : McLine) (e : List Nat) : State :=
  let s := (s.bump Reg.mcErrUncorr (mcIx l.k l.n)).mcLast l.k l.n l.line 0xF 1 l.sweep
  let s := s.mcAsh l.k l.n 1 0x02 l.pa l.sweep
  let s := match l.ln with | some ln => s.dramWrite ln 0 3 true | none => s
  s.mcDeliver l.k l.n (l.got e) 0 3 true

/-- A line of a channel met: DRAM's own bits of it, and the metadata line its MAC needs. -/
def State.mcMeet (s : State) (k n line : Nat) (sweep : Bool) : State × McLine :=
  match s.imageLine k n line with
  | none => (s, { k := k, n := n, line := line, sweep := sweep, ln := none, v := (0, 0, false), key := none, dram := 0, word := dfcWord 0 0 false })
  | some ln =>
    let v := s.dram ln
    let c := s.stored k ln v.1 v.2.2
    let s := (s.touch k ln).macTouch k n line false
    let key := match s.lineKey k ln with | some key => some key | none => if s.sealedRuns k then some (s.partKeyNo k) else none
    (s, { k := k, n := n, line := line, sweep := sweep, ln := some ln, v := s.dram ln, key := key, dram := c, word := dfcWord c v.2.1 v.2.2 })

/-- A line of the channel read and decoded (R408, R411): `e0` are the errors of the copy read, `e1` those of the other copy in
paired mode; the Sweep rewrites what it corrects (R417).  A Sealed partition's line is deciphered, and with MAC enabled its MAC checked
(R136, R138). -/
def State.mcReadLine (s : State) (k n line : Nat) (sweep : Bool) (e0 e1 : List Nat) : State :=
  let m := s.mcMeet k n line sweep
  let s := m.1
  let l := m.2
  let c0 := line % 2
  match dfcDecode (l.got e0) (s.markOf k n line c0) with
  | some r =>
    if sweep && s.paired k then
      match dfcDecode (l.got e1) (s.markOf k n line (1 - c0)) with
      | some r1 => (s.mcGood l c0 e0 r).mcGood l (1 - c0) e1 r1
      | none => (s.mcGood l c0 e0 r).mcLast k n line 0xF 3 sweep
    else s.mcGood l c0 e0 r
  | none =>
    if s.paired k then
      match dfcDecode (l.got e1) (s.markOf k n line (1 - c0)) with
      | some r1 => (s.mcGood l (1 - c0) e1 r1).mcLast k n line 0xF 3 sweep
      | none => s.mcLost l e0
    else s.mcLost l e0

/-- Whether demand to a line is held: the channel initialises or refreshes itself, or its row is being copied in normal mode (R413,
R423, Table MEMC-7). -/
def State.mcHolds (s : State) (k n line : Nat) : Bool :=
  let c := s.chan k n
  c.selfRef || s.rd Reg.mcSweepInit (mcIx k n) = 1 ||
    (!s.paired k && match c.row with | some r => r.row = s.rowOf k line 0 && decide (r.step ≠ 4) | none => false)

/-- The channel and line of a DRAM address of socket `k`. -/
def State.mcLine (s : State) (k pa : Nat) : Option (Nat × Nat) :=
  match s.target k pa with
  | .dram h off => if h = k then some (s.chanOf k off, s.chanLine k off) else none
  | _ => none

/-- One access performed. -/
def State.mcDo (s : State) (k n line : Nat) (q : McReq) : State :=
  if q.wr then
    let ln := lineOf q.pa
    let s := (((s.dramWrite ln q.data q.d q.p).encrypted k ln).macWrite k ln true).macTouch k n line true
    s.mcDeliver k n (dfcWord (s.stored k ln q.data q.p) q.d q.p) q.data q.d q.p
  else s.mcReadLine k n line false q.e0 q.e1

/-- An access reaches its controller: performed, or held in arrival order. -/
def State.mcAccess (s : State) (k : Nat) (q : McReq) : State :=
  match s.mcLine k q.pa with
  | none => s
  | some (n, line) =>
    if s.rd Reg.mcGeomEn (mcIx k n) = 0 then s
    else if s.mcHolds k n line || ((s.chan k n).held.any (fun r => lineOf r.pa = lineOf q.pa)) then
      s.updChan k n (fun c => { c with held := c.held ++ [q] })
    else s.mcDo k n line q

/-- The held accesses that may go now performed in order. -/
def State.mcRelease (s : State) (k n : Nat) : State :=
  let l := (s.chan k n).held
  l.foldl (fun s q => s.mcAccess k q) (s.updChan k n (fun c => { c with held := [] }))

/-- MC_READ: the controller reads the line's code word, the copies differing from what was written by `e0` and `e1` (R408). -/
def execMcRead (k pa : Nat) (e0 e1 : List Nat) (s : State) : Host.Outcome State Fault Refusal :=
  .next (s.mcAccess k { wr := false, pa := pa, data := 0, d := 0, p := false, e0 := e0, e1 := e1 })

/-- MC_WRITE: the controller writes the line's code word (R407, R412, R414). -/
def execMcWrite (k pa : Nat) (x : Vec) (d : BitVec 2) (p : Bool) (s : State) : Host.Outcome State Fault Refusal :=
  .next (s.mcAccess k { wr := true, pa := pa, data := x, d := d.toNat, p := p, e0 := [], e1 := [] })

/-- A software write of MARK r: a device above 9 with VALID is ignored; any other takes effect and clears AUTO (R410). -/
def State.markWrite (s : State) (k n r valid dev : Nat) : State :=
  let a : Ix := { sock := k, inst := n, i := r }
  if valid % 2 = 1 ∧ 10 ≤ dev % 16 then s
  else
    let s := s.wrs a [(Reg.mcMarkValid, valid), (Reg.mcMarkDev, dev), (Reg.mcMarkAuto, 0)]
    if valid % 2 = 1 then s.mcAsh k n 2 0x06 0 false else s

/-- MARK_WRITE. -/
def execMarkWrite (k n r : Nat) (valid : Bool) (dev : Nat) (s : State) : Host.Outcome State Fault Refusal :=
  .next (if n < 16 ∧ r < 16 then s.markWrite k n r (if valid then 1 else 0) dev else s)

/-! ### The Sweep (R413, R416, R417) -/

/-- SWEEP_LINE: the Sweep reads the next line of its pass; it waits for a row being copied, and at the end of a pass starts the
next. -/
def execSweepLine (k n : Nat) (e0 e1 : List Nat) (s : State) : Host.Outcome State Fault Refusal :=
  .next (
    let a := mcIx k n
    let line := s.rd Reg.mcSweepPos a
    if s.rd Reg.mcGeomEn a = 0 || s.rd Reg.mcSweepEn a = 0 || s.mcHolds k n line || s.chanLines k n = 0 then s
    else
      let s := s.mcReadLine k n line true e0 e1
      if line + 1 < s.chanLines k n then s.wr Reg.mcSweepPos a (line + 1)
      else ((s.wr Reg.mcSweepPos a 0).bump Reg.mcSweepLaps a).updChan k n (fun c => { c with fixes := [] }))

/-- Whether a byte address lies in a channel of socket `k`. -/
def State.inChan (s : State) (k n pa : Nat) : Bool :=
  match s.mcLine k pa with | some (m, _) => m = n | none => false

/-- SWEEP_INIT_DONE: every line of the channel reads zero with bits NONE, no poison; INIT clears and waiting accesses go on (R413). -/
def execSweepInitDone (k n : Nat) (s : State) : Host.Outcome State Fault Refusal :=
  .next (
    let a := mcIx k n
    if s.rd Reg.mcSweepInit a = 0 then s
    else
      let gone (ln : Nat) : Bool := s.inChan k n (ln * 64)
      let s' : State :=
        { s with mem := s.mem.filter (fun e => !s.inChan k n e.1), poison := s.poison.filter (fun e => !gone e.1),
                 dirBits := s.dirBits.filter (fun e => !gone e.1), homeOld := s.homeOld.filter (fun e => !gone e.1),
                 enc := s.enc.filter (fun e => !gone e.1), macBad := s.macBad.filter (fun e => !gone e.1) }
      (s'.wr Reg.mcSweepInit a 0).mcRelease k n)

/-! ### Refresh, calibration and self-refresh (R420-R423) -/

/-- REFRESH of a rank, postponed by `post` intervals, never more than four (R420). -/
def execRefresh (k n _rank post : Nat) (s : State) : Host.Outcome State Fault Refusal :=
  .next (if post ≤ 4 ∧ s.rd Reg.mcRefMaxpost (mcIx k n) < post then s.wr Reg.mcRefMaxpost (mcIx k n) post else s)

/-- ZQ_CALIBRATION: the rank waits tZQLAT and nothing else changes (Table MEMC-6). -/
def execZqCalibration (_k _n _rank : Nat) (s : State) : Host.Outcome State Fault Refusal := .next s

/-- DQS_OSC_READ: a drift above the programmed threshold brings a delay update (Table MEMC-6). -/
def execDqsOscRead (k n _rank : Nat) (drift : Bool) (s : State) : Host.Outcome State Fault Refusal :=
  .next (if drift then s.bump Reg.mcCalCount (mcIx k n) else s)

/-- SELF_REFRESH_ENTER: in Package-Banked or Standby, once the channel's queues are empty (R423). -/
def execSelfRefreshEnter (k n : Nat) (s : State) : Host.Outcome State Fault Refusal :=
  .next (
    let p := s.rd Reg.pwrPkgState { sock := k }
    if (p = 1 || p = 2 || p = 3) && (s.chan k n).held.isEmpty then s.updChan k n (fun c => { c with selfRef := true }) else s)

/-- SELF_REFRESH_EXIT on a wake, with `upd` delay updates; held requests go on (R423). -/
def execSelfRefreshExit (k n upd : Nat) (s : State) : Host.Outcome State Fault Refusal :=
  .next (
    let p := s.rd Reg.pwrPkgState { sock := k }
    if (s.chan k n).selfRef && (p = 0 || p = 4) then
      let s := s.wr Reg.mcCalCount (mcIx k n) (satAdd 32 (s.rd Reg.mcCalCount (mcIx k n)) upd)
      (s.updChan k n (fun c => { c with selfRef := false })).mcRelease k n
    else s)

/-! ### Row sparing (R424-R427, Table MEMC-7) -/

/-- SPARE.REQ written with GO: the row of a line put forward (R424). -/
def State.spareReq (s : State) (k n line : Nat) : State := s.candidate k n (s.rowOf k line 0)

/-- SPARE_REQ. -/
def execSpareReq (k n line : Nat) (s : State) : Host.Outcome State Fault Refusal :=
  .next (if n < 16 then s.spareReq k n (line % 2 ^ 34) else s)

/-- The lowest free sparing entry. -/
def State.freeSpare (s : State) (k n : Nat) : Option Nat :=
  (List.range 64).find? (fun e => s.rd Reg.mcSpareValid { sock := k, inst := n, i := e } = 0)

/-- SPARE_START: the oldest candidate takes a free entry and its row is held (steps 1 and 2). -/
def execSpareStart (k n : Nat) (s : State) : Host.Outcome State Fault Refusal :=
  .next (
    let c := s.chan k n
    match c.row, c.cand, s.freeSpare k n with
    | none, r :: t, some e =>
      (s.wr Reg.mcSpareStatBusy (mcIx k n) 1).setChan k n
        { c with cand := t, row := some { row := r, entry := e, step := 2, copy := 0, fixed := 0 } }
    | _, _, _ => s)

/-- Entries in use counted. -/
def State.spareCount (s : State) (k n : Nat) : State :=
  let u := ((List.range 64).filter (fun e => s.rd Reg.mcSpareValid { sock := k, inst := n, i := e } = 1)).length
  (s.wr Reg.mcSpareStatUsed (mcIx k n) u).wr Reg.mcSpareStatFull (mcIx k n) (if u = 64 then 1 else 0)

/-- The row's lines copied, those of `bad` (position in the row, errors of the copy, errors of the other copy) read through the
DFC; whether any was lost. -/
def State.copyRow (s : State) (k n row : Nat) (bad : List (Nat × List Nat × List Nat)) : State × Bool :=
  bad.foldl (fun p b =>
    let line := s.rowLine k row (b.1 % 128)
    let u := p.1.rd Reg.mcErrUncorr (mcIx k n)
    let s' := p.1.mcReadLine k n line false b.2.1 b.2.2
    (s', p.2 || decide (u < s'.rd Reg.mcErrUncorr (mcIx k n)))) (s, false)

/-- The table has run on one copy: in paired mode it runs on the other copy next, and after the last copy the controller is free. -/
def State.spareEnd (s : State) (k n : Nat) (r : SpareRow) : State :=
  if s.paired k && r.copy = 0 then
    s.updChan k n (fun c => { c with row := some { r with copy := 1, row := r.row ^^^ 1, step := 2 } })
  else (s.wr Reg.mcSpareStatBusy (mcIx k n) 0).updChan k n (fun c => { c with row := none })

/-- SPARE_COPY_DONE: the entry becomes valid and held demand goes on; the repair follows when PPR.MODE asks for it and the bank
group has a resource `res` (steps 2 to 4). -/
def execSpareCopyDone (k n : Nat) (bad : List (Nat × List Nat × List Nat)) (res : Bool) (s : State) :
    Host.Outcome State Fault Refusal :=
  .next (
    match (s.chan k n).row with
    | none => s
    | some r =>
      if r.step ≠ 2 then s
      else
        let a : Ix := { sock := k, inst := n, i := r.entry }
        let p := s.rowPlace k n r.row
        let c := s.copyRow k n r.row bad
        let s := c.1.wrs a [(Reg.mcSpareValid, 1), (Reg.mcSpareSc, r.row % 2), (Reg.mcSpareRank, p.1),
          (Reg.mcSpareBank, p.2.1 * 4 + p.2.2.1), (Reg.mcSpareRow, p.2.2.2)]
        let s := s.wrIf c.2 Reg.mcSparePoisoned a 1
        let s := (if r.copy = 0 then s.bump Reg.mcSpareStatDone (mcIx k n) else s).spareCount k n
        let s := s.spareAsh k n 2 0x06 r.entry
        let s := if s.rd Reg.mcPprMode (mcIx k n) ≠ 0 && res then
            s.updChan k n (fun c => { c with row := some { r with step := 4 } })
          else s.spareEnd k n r
        s.mcRelease k n)

/-- SPPR_DONE: the row is repaired and its lines are copied back (steps 4 and 5). -/
def execSpprDone (k n : Nat) (s : State) : Host.Outcome State Fault Refusal :=
  .next (
    match (s.chan k n).row with
    | some r => if r.step = 4 then s.updChan k n (fun c => { c with row := some { r with step := 5 } }) else s
    | none => s)

/-- SPARE_COPYBACK_DONE: the entry is freed once every copy is repaired, and the row listed for hPPR (steps 5 and 6). -/
def execSpareCopybackDone (k n : Nat) (bad : List (Nat × List Nat × List Nat)) (s : State) :
    Host.Outcome State Fault Refusal :=
  .next (
    match (s.chan k n).row with
    | none => s
    | some r =>
      if r.step ≠ 5 then s
      else
        let s := (s.copyRow k n r.row bad).1
        let s := s.bump Reg.mcSpareStatPprdone (mcIx k n)
        let r := { r with fixed := r.fixed + 1 }
        let all := if s.paired k then 2 else 1
        let s := if r.fixed = all then
            (s.wrs { sock := k, inst := n, i := r.entry } [(Reg.mcSpareValid, 0), (Reg.mcSparePoisoned, 0), (Reg.mcSpareSc, 0),
              (Reg.mcSpareRank, 0), (Reg.mcSpareBank, 0), (Reg.mcSpareRow, 0)]).spareCount k n
          else s
        let s := if 2 ≤ s.rd Reg.mcPprMode (mcIx k n) then
            s.updChan k n (fun c => { c with hppr := if c.hppr.contains r.row then c.hppr else c.hppr ++ [r.row] })
          else s
        (s.spareEnd k n r).mcRelease k n)

/-- HPPR_APPLY: at cold reset every listed row is repaired but those of `none'`, for which the device has no resource (R426). -/
def execHpprApply (k n : Nat) (none' : List Nat) (s : State) : Host.Outcome State Fault Refusal :=
  .next (s.updChan k n (fun c => { c with hppr := c.hppr.filter none'.contains }))

end Sys2Proof.Machine
end

