-- ==== Sys2Proof/Machine/Agent.lean ====
section
/-!
DEFINITION. Machine/Agent.lean: accesses of agents that cache nothing (Stoker cells, Riddles, devices): RDU, WRU and Hearth atomics
as whole transactions, by physical address and through a translation context (R28, R29, R442, R483).
-/
namespace Sys2Proof.Machine

/-- Why an agent's access ended: a status of Table STOK-5 (256 while it must wait), the address, FKIND and FS2 of Table STOK-2. -/
structure Stop where
  status : Nat
  addr : Nat := 0
  kind : Nat := 0
  s2 : Bool := false
deriving DecidableEq, Repr

/-- The access must wait and is made again. -/
def Stop.wait : Stop := { status := 256 }

/-- A number no core has, for requests of agents. -/
def agentId : Nat := 2 ^ 21

/-- Whether an agent's request for a line waits at its home (R303, R315, R319). -/
def State.agentWaits (s : State) (k ln : Nat) : Bool :=
  s.heldByOther agentId ln || s.homeWaits k (s.target k (ln * 64)).home ln

/-- RDU of a line whose home is `h`: an owner keeps a shared copy and memory becomes current (Table HRTH-3). -/
def State.rduLine (s : State) (h ln : Nat) : State :=
  let s := (s.settle h ln).unbuffer h ln
  match s.cores.find? (fun (e : Nat × Core) => e.2.l2st ln = some .M || e.2.l2st ln = some .E) with
  | none => s
  | some e =>
    let d := coreSock e.1
    let s := ((((s.others agentId (Core.snoopDown ln)).wroteHome ln).sfShare ln)).setBits ln .shared
    { s with rsc := if d = h then cellErase s.rsc ln else cellSet none s.rsc ln (some (.p false [d])) }

/-- An agent `who` of socket `k` reads a line: RDU, through its gate, or why it could not (R34, R62, R294, R442, R466, R625). -/
def State.agentRead (s : State) (who k ln : Nat) : State × Option Stop :=
  let s := s.touch k ln
  match s.target k (ln * 64) with
  | .dram h _ | .cxl h _ =>
    if s.agentWaits k ln || !s.gateOpen who then (s, some .wait)
    else if cellGet false s.macBad ln then ((s.poisonErr k (ln * 64) 0 0).2, some { status := 0x14 })
    else if s.isPoison ln then (s, some { status := 0x13 })
    else ((s.rduLine h ln).gatePass who h, none)
  | .hole _ | .gone _ => (s, some { status := 0x13 })
  | _ => (s, some { status := 0x12 })

/-- WRU of bytes at offsets of a line whose home is `h`: copies go, the bytes are merged; with every byte the line is clean (R414,
Table HRTH-3). -/
def State.wruLine (s : State) (h ln : Nat) (bytes : List (Nat × Byte)) : State :=
  let s := (s.macWrite h ln ((List.range 64).all (fun i => bytes.any (fun e => e.1 = i)))).recallAll ln h
  let s := { s with mem := bytes.foldl (fun m (e : Nat × Byte) => memSet m (ln * 64 + e.1 % 64) e.2) s.mem }
  if (List.range 64).all (fun i => bytes.any (fun e => e.1 = i)) then
    s.setPoison ln false
  else s

/-- An agent's write with no memory behind it is recorded and counts as performed (R285, R294, R625). -/
def State.agentLost (s : State) (k pa src inst code : Nat) : State :=
  s.ash k { cls := 3, src := src, inst := inst, code := code, addr := lineOf pa * 64, part := s.partition k }

/-- An agent `who` of socket `k` writes bytes within one line from `pa` on. -/
def State.agentWrite (s : State) (who k pa : Nat) (b : List Byte) : State × Option Stop :=
  let ln := lineOf pa
  let s := s.touch k ln
  match s.target k pa with
  | .dram h _ | .cxl h _ =>
    if s.agentWaits k ln || !s.gateOpen who then (s, some .wait)
    else ((s.wruLine h ln ((List.range b.length).map (fun i => (pa % 64 + i, nth 0 b i)))).gatePass who h, none)
  | .hole h => (s.agentLost k pa 0x10 (s.sliceFor h pa) 0x07, none)
  | .gone _ => (s.agentLost k pa 0x30 0 0x09, none)
  | _ => (s, some { status := 0x12, kind := 1 })

/-- A Hearth atomic add of an agent on 8 bytes at `pa`, with the old value (R312). -/
def State.agentHadd (s : State) (who k pa x : Nat) : State × Nat × Option Stop :=
  let ln := lineOf pa
  let s := s.touch k ln
  match s.target k pa with
  | .dram h _ | .cxl h _ =>
    if s.agentWaits k ln || !s.gateOpen who then (s, 0, some .wait)
    else if cellGet false s.macBad ln then ((s.poisonErr k (ln * 64) 0 0).2, 0, some { status := 0x14, kind := 1 })
    else if s.isPoison ln then (s, 0, some { status := 0x13, kind := 1 })
    else
      let old := memNat s.mem pa 8
      ((s.hatApply h ln pa (leBytes 8 (hatOp 0 8 old x))).gatePass who h, old, none)
  | .hole _ | .gone _ => (s, 0, some { status := 0x13, kind := 1 })
  | _ => (s, 0, some { status := 0x12, kind := 1 })

/-- The requester numbers of agents: Stoker cell `n` of socket `k`, and port `j` of root complex `n`. -/
def cellAgent (k n : Nat) : Nat := 2 ^ 20 + k * 256 + n

/-- The requester number of port `j` of root complex `n` of socket `k`. -/
def prcAgent (k n j : Nat) : Nat := 2 ^ 20 + k * 256 + 16 + 4 * n + j

/-- A unit without a gate: a Riddle, the security controller or the debug port of socket `k`. -/
def freeAgent (k : Nat) : Nat := 2 ^ 20 + k * 256 + 255

/-! ### Through a translation context -/

/-- An agent's context: socket and regime, the key of its translation cache in `State.iotlb`, and for a Stoker operation its descriptor
(channel key and ring index) and how many source lines it may have read by the end of this beat (R277, R467). -/
structure Port where
  x : XCtx
  key : Nat
  desc : Option (Nat × Nat) := none
  lim : Nat := 0
deriving DecidableEq, Repr

/-- A descriptor in flight, by its channel's key and its ring index. -/
def State.descAt (s : State) (d : Nat × Nat) : Option Desc := (cellGet StkCh.idle s.stkChs d.1).infl.find? (fun e => e.idx = d.2)

/-- A descriptor in flight changed. -/
def State.updDescAt (s : State) (d : Nat × Nat) (f : Desc → Desc) : State :=
  let c := cellGet StkCh.idle s.stkChs d.1
  { s with stkChs := cellSet StkCh.idle s.stkChs d.1 { c with infl := c.infl.map (fun e => if e.idx = d.2 then f e else e) } }

/-- The source lines a port's operation has read so far. -/
def State.memo (s : State) (p : Port) : List (Nat × List Byte) := ((p.desc.bind s.descAt).map (·.memo)).getD []

/-- A source line read by a port's operation kept for the rest of it (R277). -/
def State.remember (s : State) (p : Port) (va : Nat) (b : List Byte) : State :=
  match p.desc with
  | some d => s.updDescAt d (fun e => { e with memo := e.memo ++ [(va, b)] })
  | none => s

/-- The stop an address that failed translation or its checks gives: the address is the virtual one, a table walk's own refused
read is FKIND 2 (Table STOK-2). -/
def stopOf (e : XErr) (va : Nat) (wr : Bool) : Stop :=
  { status := if e.cause = 0x0301 then 0x13 else if e.cause = 0x0506 then 0x14 else 0x12
    addr := va % 2 ^ 57
    kind := if e.info % 8 = 6 then 2 else if wr then 1 else 0
    s2 := e.info.testBit 14 }

/-- A translation put in an agent's cache: a Stoker cell has 512 entries for all its channels, of which the fullest channel gives up its
oldest, and a root complex 2,048 for all its requesters, likewise (R443, R484, log entry 8). -/
def State.iotlbPut (s : State) (key : Nat) (e : TlbE) : State :=
  let unit (key : Nat) : Nat := if key < 2 ^ 50 then (key - 2 ^ 40) / 64 else 2 ^ 50 + (key - 2 ^ 50) / 2 ^ 33
  let s : State := { s with iotlb := cellSet [] s.iotlb key (e :: cellGet [] s.iotlb key) }
  let l := s.iotlb.filter (fun x => unit x.1 = unit key)
  if (l.map (fun x => x.2.length)).sum ≤ (if key < 2 ^ 50 then 512 else 2048) then s
  else
    let x := l.foldl (fun b x => if b.2.length < x.2.length then x else b) (key, [])
    { s with iotlb := cellSet [] s.iotlb x.1 x.2.dropLast }

/-- One address translated and checked for the agent (R442). -/
def State.portXlate (s : State) (p : Port) (acc : Acc) (va : Nat) : State × Except Stop Tr :=
  match xlate p.x (cellGet [] s.iotlb p.key) [] acc (BitVec.ofNat 64 va) s with
  | .wait => (s, .error .wait)
  | .bad e s => (s, .error (stopOf e va acc.wr))
  | .ok t s =>
    if t.dev then (s, .error { status := 0x12, addr := va % 2 ^ 57, kind := if acc.wr then 1 else 0 })
    else (match t.tlb with | some e => s.iotlbPut p.key e | none => s, .ok t)

/-- A line read for an agent: one its operation has read before keeps the value it had then; a new one waits for the operation's next
beat once the lines of this one are read (R277). -/
def State.portLine (s : State) (p : Port) (va : Nat) : State × List Byte × Option Stop :=
  let vl := va / 64 * 64
  match (s.memo p).find? (fun e => e.1 = vl) with
  | some e => (s, e.2, none)
  | none =>
    if p.desc.isSome && decide (p.lim ≤ (s.memo p).length) then (s, [], some .wait)
    else
      match s.portXlate p Acc.load va with
      | (s, .error e) => (s, [], some e)
      | (s, .ok t) =>
        match s.agentRead p.x.who p.x.sock (lineOf t.pa) with
        | (s, some e) => (s, [], some { e with addr := va % 2 ^ 57 })
        | (s, none) =>
          let b := memBytes s.mem (lineOf t.pa * 64) 64
          (s.remember p vl b, b, none)

/-- `n` bytes read from `va` on, one line at a time, as far as it goes; `m` bounds the pieces. -/
def State.portRead (p : Port) : Nat → Nat → Nat → State → State × List Byte × Option Stop
  | 0, _, _, s => (s, [], none)
  | m + 1, va, n, s =>
    if n = 0 then (s, [], none)
    else
      let d := min n (64 - va % 64)
      match s.portLine p va with
      | (s, _, some e) => (s, [], some e)
      | (s, l, none) =>
        let r := State.portRead p m (va + d) (n - d) s
        (r.1, (l.drop (va % 64)).take d ++ r.2.1, r.2.2)

/-- `n` bytes read from `va`. -/
def State.pRead (s : State) (p : Port) (va n : Nat) : State × List Byte × Option Stop := State.portRead p (n / 64 + 2) va n s

/-- Bytes written from `va` on, one line at a time, as far as it goes: how many, and why it stopped. -/
def State.portWrite (p : Port) : Nat → Nat → List Byte → State → State × Nat × Option Stop
  | 0, _, _, s => (s, 0, none)
  | m + 1, va, b, s =>
    if b.isEmpty then (s, 0, none)
    else
      let d := min b.length (64 - va % 64)
      match s.portXlate p Acc.store va with
      | (s, .error e) => (s, 0, some e)
      | (s, .ok t) =>
        match s.agentWrite p.x.who p.x.sock t.pa (b.take d) with
        | (s, some e) => (s, 0, some { e with addr := va % 2 ^ 57 })
        | (s, none) =>
          let r := State.portWrite p m (va + d) (b.drop d) s
          (r.1, d + r.2.1, r.2.2)

/-- Bytes written from `va`. -/
def State.pWrite (s : State) (p : Port) (va : Nat) (b : List Byte) : State × Nat × Option Stop :=
  State.portWrite p (b.length / 64 + 2) va b s

/-- Bytes from `va` on whose contents the spec leaves undefined, where they can be written at all. -/
def State.portFree (p : Port) : Nat → Nat → Nat → State → State
  | 0, _, _, s => s
  | m + 1, va, n, s =>
    if n = 0 then s
    else
      let d := min n (64 - va % 64)
      let s' := match s.portXlate p Acc.store va with
        | (_, .error _) => s
        | (s', .ok t) => ((s'.agentWrite p.x.who p.x.sock t.pa (s'.freeBytes d)).1).useFree
      State.portFree p m (va + d) (n - d) s'

/-! ### Messages to the interrupt hub (R182) -/

/-- A message naming routing index `i` of socket `k`: the vector becomes pending at its target, one for a Vault instance beside
the normal world's (log entry 19), or the message is dropped and counted. -/
def State.msgInt (s : State) (k i : Nat) : State :=
  let a : Ix := { sock := k, i := i % 4096 }
  let v := s.rd Reg.ihubRouteVec a
  let d := s.rd Reg.ihubRouteSocket a
  let l := s.rd Reg.ihubRouteCore a
  if s.rd Reg.ihubRouteValid a = 0 || v < 16 || !s.samePart k d || !s.coreThere d l then
    s.bump Reg.ihubDropMsg { sock := k }
  else if s.rd Reg.ihubRouteVault a = 1 then
    let g := s.lowSock k * 64 + s.rd Reg.ihubRouteInstance a
    s.updCore (d * 256 + l) (fun c => if c.vpend.contains (g, v) then c else { c with vpend := c.vpend ++ [(g, v)] })
  else s.setPend (d * 256 + l) v

end Sys2Proof.Machine
end

