-- ==== Sys2Proof/Machine/Pcie.lean ====
section
/-!
DEFINITION. Machine/Pcie.lean: the root complexes: DMA through the IOMMU, message interrupts, hot-plug and containment, CXL ranges
(R480-R501).
-/
namespace Sys2Proof.Machine

/-- Where a root complex's registers stand. -/
def prcIx (k n : Nat) : Ix := { sock := k, inst := n }

/-- Where a port's registers stand. -/
def portIx (k n j : Nat) : Ix := { sock := k, inst := n, i := j }

/-- A root complex. -/
def State.prc (s : State) (k n : Nat) : Prc := cellGet Prc.idle s.prcs (k * 4 + n)

/-- A root complex changed. -/
def State.updPrc (s : State) (k n : Nat) (f : Prc → Prc) : State :=
  { s with prcs := cellSet Prc.idle s.prcs (k * 4 + n) (f (s.prc k n)) }

/-- Whether a root complex is there and powered (Table POWR-10 UPWR). -/
def State.prcOn (s : State) (k n : Nat) : Bool :=
  s.live k && decide (n < 4) && (s.rd Reg.pwrUpwrStatPrc { sock := k }).testBit n

/-- The ports a bifurcation makes (R481). -/
def bifPorts (b : Nat) : List Nat := match b with | 0 => [0] | 1 => [0, 2] | 2 => [0, 2, 3] | _ => [0, 1, 2, 3]

/-- Whether the root complex has port `j`. -/
def State.hasPort (s : State) (k n j : Nat) : Bool :=
  s.prcOn k n && (bifPorts (s.rd Reg.prcCfgBif (prcIx k n))).contains j

/-- Whether the port's link is up and its port not contained, so that traffic is taken from it. -/
def State.portOpen (s : State) (k n j : Nat) : Bool :=
  s.hasPort k n j && s.rd Reg.prcPortSlotState (portIx k n j) = 3 && s.rd Reg.prcPortLinkContained (portIx k n j) = 0

/-- An Ashpan entry of a root complex (Table RELY-3): W5 holds the port and, from bit 8, what happened as a bit of EVENT, or 6 for a
refusal, 7 for an abort. -/
def State.prcAsh (s : State) (k n cls code rid addr port what : Nat) : State :=
  s.ash k { cls := cls, src := 0x60, inst := n, code := code, addr := addr, part := s.partition k, d4 := rid,
            d5 := port + what * 256 }

/-! ### Events (R489) -/

/-- Bit `b` of a port's EVENT register rises: the root complex's routing index is raised. -/
def State.prcEvent (s : State) (k n j b : Nat) : State :=
  let a := portIx k n j
  let e := s.rd Reg.prcPortEvent a
  if e.testBit b then s
  else
    let s := s.wr Reg.prcPortEvent a (e + 2 ^ b)
    if s.rd Reg.prcEvtValid (prcIx k n) = 1 then s.msgInt k (s.rd Reg.prcEvtRoute (prcIx k n)) else s

/-- PRC_EVENT_INTERRUPT: a root-complex event occurs at a port. -/
def execPrcEventInterrupt (k n j b : Nat) (s : State) : Host.Outcome State Fault Refusal :=
  .next (if s.hasPort k n j && b < 6 then s.prcEvent k n j b else s)

/-! ### Contexts (R482-R485) -/

/-- Bits of a doubleword of a context entry. -/
def cw (w : List Nat) (i hi lo : Nat) : Nat := natBits (nth 0 w i) hi lo

/-- Whether the function is assigned to an instance, between worlds, or quarantined. -/
def State.fnHeld (s : State) (k n rid : Nat) : Bool := (s.prc k n).stopped.contains rid || (s.prc k n).quar.contains rid

/-- Doublewords read from memory by a root complex itself: `none` when they cannot be read, or with `true` must be waited for. -/
def State.prcRead (s : State) (k p pa n : Nat) : State × Except Bool (List Nat) :=
  -- `p` is the root complex
  if (s.pageOwner pa).1 ≠ 0 then (s, .error false)
  else
    match s.agentRead (prcAgent k p 0) k (lineOf pa) with
    | (s, none) => (s, .ok ((List.range n).map (fun i => memNat s.mem (pa + 8 * i) 8)))
    | (s, some e) => (s, .error (e.status = 256))

/-- An entry kept among the 256 that are cached. -/
def State.ctxKeep (s : State) (k n key : Nat) (w : List Nat) : State :=
  s.updPrc k n (fun x => { x with ctxs := ((key, w) :: x.ctxs.filter (fun e => decide (e.1 ≠ key))).take 256 })

/-- The context of a requester ID: an internal slot, a cached entry, or the device table's (R482, R484, R500). -/
def State.devCtx (s : State) (k n rid : Nat) : State × Except Bool (List Nat × Option Nat) :=
  match (s.prc k n).fns.find? (fun f => f.rid = rid) with
  | some f => (s, .ok (f.w, some f.inst))
  | none =>
    match (s.prc k n).ctxs.find? (fun e => e.1 = rid) with
    | some e => (s, .ok (e.2, none))
    | none =>
      let a := prcIx k n
      if 2 ^ (min 16 (s.rd Reg.prcDevtabSize a)) ≤ rid then (s, .error false)
      else
        match s.prcRead k n (s.rd Reg.prcDevtabBase a * 4096 + rid * 64) 8 with
        | (s, .error e) => (s, .error e)
        | (s, .ok w) => if cw w 0 0 0 = 1 then (s.ctxKeep k n rid w, .ok (w, none)) else (s, .error false)

/-- A root complex's key among the agents' translation caches: socket, root complex, requester ID and PASID + 1 (0 for none). -/
def prcKey (k n rid : Nat) (pasid : Option Nat) : Nat :=
  2 ^ 50 + (((k * 4 + n) * 2 ^ 16 + rid % 2 ^ 16) * 2 ^ 17 + (match pasid with | some p => p + 1 | none => 0))

/-- The regime a context gives a request without a PASID (Table PCIX-2). -/
def ctxX (k n : Nat) (w : List Nat) (inst : Option Nat) : XCtx :=
  { sock := k, who := prcAgent k n 0, s1 := cw w 0 1 1 = 1, s2 := cw w 0 2 2 = 1, root1 := cw w 1 56 12 * 4096, root2 := cw w 2 56 12 * 4096,
    adu := cw w 0 3 3 = 1, s2adu := cw w 0 3 3 = 1, world := inst, sid := cw w 0 31 16, vm := cw w 0 43 32,
    kr0 := BitVec.ofNat 64 (nth 0 w 4), kr1 := BitVec.ofNat 64 (nth 0 w 5), queue := [] }

/-- The regime of a request, its PASID entry read from the PASID table when it carries one (R485). -/
def State.dmaPort (s : State) (k n rid : Nat) (pasid : Option Nat) : State × Except Bool Port :=
  match s.devCtx k n rid with
  | (s, .error e) => (s, .error e)
  | (s, .ok (w, inst)) =>
    let x := ctxX k n w inst
    match pasid with
    | none => (s, .ok { x := x, key := prcKey k n rid none })
    | some p =>
      if cw w 0 4 4 = 0 || 2 ^ (cw w 0 47 44 + 4) ≤ p || 2 ^ 16 ≤ p then (s, .error false)
      else
        let fin (e : List Nat) : Port :=
          { x := { x with s1 := cw e 0 1 1 = 1, sid := cw e 0 31 16, root1 := cw e 1 56 12 * 4096 },
            key := prcKey k n rid (some p) }
        let key := 65536 + rid * 65536 + p
        match (s.prc k n).ctxs.find? (fun e => e.1 = key) with
        | some e => (s, .ok (fin e.2))
        | none =>
          let at' := cw w 3 56 12 * 4096 + p * 16
          let pa : State × Except Bool Nat :=
            if x.s2 then
              match s.portXlate { x := { x with s1 := false }, key := prcKey k n rid (some (2 ^ 17 - 2)) } Acc.load at' with
              | (s, .error e) => (s, .error (e.status = 256))
              | (s, .ok t) => (s, .ok t.pa)
            else (s, .ok at')
          match pa with
          | (s, .error e) => (s, .error e)
          | (s, .ok a) =>
            match s.prcRead k n a 2 with
            | (s, .error e) => (s, .error e)
            | (s, .ok e) => if cw e 0 0 0 = 1 then (s.ctxKeep k n key e, .ok (fin e)) else (s, .error false)

/-- Translations and cached entries of a requester ID, or of all of them, removed from a root complex (R484). -/
def State.iotlbDrop (s : State) (k n : Nat) (p : Nat → Bool) : State :=
  let keep (e : Nat × List TlbE) : Bool :=
    !(decide (2 ^ 50 ≤ e.1) && decide ((e.1 - 2 ^ 50) / 2 ^ 33 = k * 4 + n) && p ((e.1 - 2 ^ 50) / 2 ^ 17 % 2 ^ 16))
  { s with iotlb := s.iotlb.filter keep }

/-- The translations that TLBI target `t` of socket `k` holds (root complexes 0-3, Stoker cells 8-15) without those the invalidation
names (R256, R484). -/
def State.ioInval (s : State) (k t : Nat) (inv : Inval) : State :=
  let mine (key : Nat) : Bool :=
    if t < 8 then decide (2 ^ 50 ≤ key) && (key - 2 ^ 50) / 2 ^ 33 = k * 4 + t
    else decide (2 ^ 40 ≤ key) && decide (key < 2 ^ 41) && (key - 2 ^ 40) / 64 = k * 8 + (t - 8)
  let cut (e : Nat × List TlbE) : Nat × List TlbE := if mine e.1 then (e.1, e.2.filter (fun x => !inv.hitsTlb x)) else e
  { s with iotlb := (s.iotlb.map cut).filter (fun e => !e.2.isEmpty) }

/-! ### DMA (R483, R486, R487) -/

/-- A span cut at lines; `m` bounds the pieces. -/
def cutLines : Nat → Nat → Nat → List (Nat × Nat)
  | 0, _, _ => []
  | m + 1, va, n => if n = 0 then [] else
      let d := min n (64 - va % 64)
      (va, d) :: cutLines m (va + d) (n - d)

/-- The pieces of a span. -/
def pieces (va n : Nat) : List (Nat × Nat) := cutLines (n / 64 + 2) va n

/-- Whether an address lies where no DMA may go: control space, a root complex's window, the boot window, another partition's memory or
the region of MACs (R483). -/
def State.dmaBarred (s : State) (k pa : Nat) : Bool :=
  match s.target k pa with
  | .dram _ _ | .cxl _ _ | .gone _ => false
  | .hole _ => s.macMeta k pa
  | _ => true

/-- Every piece translated and checked: physical addresses in order, or the address refused, or (`none`) a wait. -/
def dmaXlate (p : Port) (acc : Acc) : List (Nat × Nat) → State → State × Except (Option Nat) (List (Nat × Nat))
  | [], s => (s, .ok [])
  | (va, n) :: t, s =>
    match s.portXlate p acc va with
    | (s, .error e) => (s, .error (if e.status = 256 then none else some va))
    | (s, .ok x) =>
      if s.dmaBarred p.x.sock x.pa then (s, .error (some va))
      else
        match dmaXlate p acc t s with
        | (s, .error e) => (s, .error e)
        | (s, .ok l) => (s, .ok ((x.pa, n) :: l))

/-- Why a request is not served: it is refused, or it waits. -/
inductive DmaR where
  | ok (l : List (Nat × Nat)) (s : State)
  | refuse (addr : Nat) (s : State)
  | wait

/-- The context, attributes and translation of a request (R482-R486). -/
def State.dmaCheck (s : State) (k n rid : Nat) (pasid : Option Nat) (va len : Nat) (acc : Acc) (attr : Nat) : DmaR :=
  if attr ≠ 0 || s.fnHeld k n rid then .refuse va s
  else
    match s.dmaPort k n rid pasid with
    | (_, .error true) => .wait
    | (s, .error false) => .refuse va s
    | (s, .ok p) =>
      match dmaXlate p acc (pieces va len) s with
      | (_, .error none) => .wait
      | (s, .error (some a)) => .refuse a s
      | (s, .ok l) => .ok l s

/-- A request refused: counted and recorded. -/
def State.dmaRefuse (s : State) (k n j rid addr : Nat) : State :=
  (s.bump Reg.prcErrDmarefuse (prcIx k n)).prcAsh k n 5 0x07 rid (addr % 2 ^ 57) j 6

/-- Whether a part is the one of a request. -/
def DmaPart.is (p : DmaPart) (rid : Nat) (write : Bool) (va len : Nat) : Bool :=
  p.rid = rid && p.write = write && p.va = va && p.len = len

/-- How far a request has come; a new one has not begun. -/
def State.dmaPart (s : State) (k n j rid : Nat) (write : Bool) (va len : Nat) : DmaPart :=
  ((s.prc k n).parts.find? (fun p => p.is rid write va len)).getD
    { rid := rid, port := j, write := write, va := va, len := len, done := 0, data := [], bad := false }

/-- A request kept, in the order requests came, until its last line is performed; or over. -/
def State.dmaKeep (s : State) (k n : Nat) (p : DmaPart) (fin : Bool) : State :=
  s.updPrc k n (fun x =>
    let mine (q : DmaPart) : Bool := q.is p.rid p.write p.va p.len
    { x with parts :=
        if fin then x.parts.filter (fun q => !mine q)
        else if x.parts.any mine then x.parts.map (fun q => if mine q then p else q)
        else x.parts ++ [p] })

/-- Whether posted writes of the requester wait that came before a request (R490). -/
def State.dmaBehind (s : State) (k n rid : Nat) (write : Bool) (va len : Nat) : Bool :=
  ((s.prc k n).parts.takeWhile (fun p => !p.is rid write va len)).any (fun p => p.write && p.rid = rid)

/-- The pieces of a read in order, as far as they go now (R34, R490): the part with them. -/
def dmaReadGo (who k : Nat) : List (Nat × Nat) → DmaPart → State → State × DmaPart
  | [], p, s => (s, p)
  | (pa, n) :: t, p, s =>
    let r := s.agentRead who k (lineOf pa)
    if r.2.any (fun e => e.status = 256) then (r.1, p)
    else dmaReadGo who k t { p with done := p.done + 1, data := p.data ++ memBytes r.1.mem pa n, bad := p.bad || r.2.isSome } r.1

/-- DMA_READ: a read of `len` bytes at `va` from requester ID `rid` on port `j`, completed once each of its lines has been read; `attr`
holds the attributes that refuse it (ATS translated, privileged, execute). -/
def execDmaRead (k n j rid : Nat) (pasid : Option Nat) (va len : Nat) (attr : BitVec 3) (s : State) :
    Host.Outcome State Fault Refusal :=
  .next (
    let rid := rid % 2 ^ 16
    if !s.portOpen k n j || s.dmaBehind k n rid false va len then s
    else
      let p := s.dmaPart k n j rid false va len
      match s.dmaCheck k n rid pasid va len Acc.load attr.toNat with
      | .wait => s.dmaKeep k n p false
      | .refuse a s => ((s.dmaRefuse k n j rid a).dmaKeep k n p true).updPrc k n (fun x => { x with resp := (1, []) })
      | .ok l s =>
        let r := dmaReadGo (prcAgent k n j) k (l.drop p.done) p s
        let s := r.1.dmaKeep k n r.2 (r.2.done = l.length)
        if r.2.done ≠ l.length then s
        else if r.2.bad then (s.bump Reg.prcErrPoisonin (prcIx k n)).updPrc k n (fun x => { x with resp := (2, r.2.data) })
        else s.updPrc k n (fun x => { x with resp := (0, r.2.data) }))

/-- The pieces of a write in order, as far as they go now; a poisoned one leaves its line poisoned (R487, R490). -/
def dmaWriteGo (who k : Nat) (bad : Bool) : List (Nat × Nat) → List Byte → DmaPart → State → State × DmaPart
  | [], _, p, s => (s, p)
  | (pa, n) :: t, b, p, s =>
    let r := s.agentWrite who k pa (b.take n)
    if r.2.any (fun e => e.status = 256) then (r.1, p)
    else
      let s := match s.target k pa with
        | .dram _ _ | .cxl _ _ => if bad then r.1.setPoison (lineOf pa) true else r.1
        | _ => r.1
      dmaWriteGo who k bad t (b.drop n) { p with done := p.done + 1 } s

/-- An interrupt message (R488): one DWORD holding an offset within the function's routing indices; held while its function is between
worlds (R155), and while posted writes of the requester wait (R490). -/
def State.msiWrite (s : State) (k n rid : Nat) (data : List Byte) : State :=
  let drop (s : State) : State := s.bump Reg.prcErrMsidrop (prcIx k n)
  if data.length ≠ 4 || (s.prc k n).quar.contains rid then drop s
  else if (s.prc k n).stopped.contains rid || (s.prc k n).parts.any (fun p => p.write && p.rid = rid) then
    s.updPrc k n (fun x => { x with msis := x.msis ++ [(rid, data)] })
  else
    match s.devCtx k n rid with
    | (_, .error true) => s.updPrc k n (fun x => { x with msis := x.msis ++ [(rid, data)] })
    | (s, .error false) => drop s
    | (s, .ok (w, _)) =>
      let d := leNat data
      if 256 ≤ d || cw w 6 23 16 ≤ d then drop s else s.msgInt k (cw w 6 11 0 + d)

/-- The messages held for a requester sent in order; one that still has to wait is held again. -/
def State.msiRelease (s : State) (k n rid : Nat) : State :=
  let l := (s.prc k n).msis
  (l.filter (fun e => e.1 = rid)).foldl (fun s e => s.msiWrite k n rid e.2)
    (s.updPrc k n (fun x => { x with msis := l.filter (fun e => e.1 ≠ rid) }))

/-- DMA_WRITE: a posted write, over once each of its lines is written; one in the message window is an interrupt message. -/
def execDmaWrite (k n j rid : Nat) (pasid : Option Nat) (va : Nat) (data : List Byte) (poisoned : Bool) (attr : BitVec 3)
    (s : State) : Host.Outcome State Fault Refusal :=
  .next (
    let rid := rid % 2 ^ 16
    if !s.portOpen k n j then s
    else if va / 2 ^ 20 = s.rd Reg.prcMsiwin (prcIx k n) then s.msiWrite k n rid data
    else
      let p := s.dmaPart k n j rid true va data.length
      if s.dmaBehind k n rid true va data.length then s.dmaKeep k n p false
      else
        match s.dmaCheck k n rid pasid va data.length Acc.store attr.toNat with
        | .wait => s.dmaKeep k n p false
        | .refuse a s => ((s.dmaRefuse k n j rid a).dmaKeep k n p true).msiRelease k n rid
        | .ok l s =>
          let r := dmaWriteGo (prcAgent k n j) k poisoned (l.drop p.done)
            (data.drop (((l.take p.done).map (·.2)).sum)) p s
          let s := r.1.dmaKeep k n r.2 (r.2.done = l.length)
          if r.2.done ≠ l.length then s
          else (if poisoned then s.bump Reg.prcErrPoisonin (prcIx k n) else s).msiRelease k n rid)

/-- MSI_MESSAGE: a write to the message window; an INTx message carries no data and is dropped the same way (R488, Table
PCIX-1). -/
def execMsiMessage (k n j rid : Nat) (data : List Byte) (s : State) : Host.Outcome State Fault Refusal :=
  .next (if s.portOpen k n j then s.msiWrite k n (rid % 2 ^ 16) data else s)

/-! ### IOINV (R484) -/

/-- Context and PASID entries of a requester ID, or of every one, removed; every access through them is over. -/
def State.ioinvGo (s : State) (k n rid : Nat) (all : Bool) : State :=
  if !s.prcOn k n then s
  else
    let s := s.updPrc k n (fun x =>
      { x with ctxs := x.ctxs.filter (fun e => !(all || e.1 = rid || (decide (65536 ≤ e.1) && (e.1 - 65536) / 65536 = rid))) })
    (s.iotlbDrop k n (fun r => all || r = rid)).wr Reg.prcIoinvDone (prcIx k n) 0

/-- IOINV_GO. -/
def execIoinvGo (k n rid : Nat) (all : Bool) (s : State) : Host.Outcome State Fault Refusal :=
  .next (s.ioinvGo k n (rid % 2 ^ 16) all)

/-- IOINV_DONE. -/
def execIoinvDone (k n : Nat) (s : State) : Host.Outcome State Fault Refusal :=
  .next (s.wr Reg.prcIoinvDone (prcIx k n) 1)

/-! ### Hot-plug and containment (R492-R494) -/

/-- The lines the port's CXL.cache device owns are lost with it: poisoned; its shared copies go (R492). -/
def State.devLost (s : State) (k n j : Nat) : State :=
  let c := devAgent k n j
  let s := (s.core c).l2.foldl (fun s e => match e.2 with
    | some .M | some .E =>
      ((s.setPoison e.1 true).wroteHome e.1).setBits e.1 .none
    | _ => s) s
  { s with cores := cellErase s.cores c, rsc := s.rsc.filter (fun e => match e.2 with
      | some (.p true _) => !((cellGet none (s.core c).l2 e.1).isSome)
      | _ => true) }

/-- What a port's link held is over: no request waits for its exit from L1, and none of its own has lines left to perform (R494,
R495). -/
def State.linkLost (s : State) (k n j : Nat) : State :=
  s.updPrc k n (fun x => { x with l1 := x.l1.filter (· ≠ j), held := x.held.filter (fun e => e.1 ≠ j),
                                  parts := x.parts.filter (fun p => p.port ≠ j) })

/-- The port contained by DPC; `what` is the event of its Ashpan entry. -/
def State.contain (s : State) (k n j what : Nat) : State :=
  if s.rd Reg.prcPortLinkContained (portIx k n j) = 1 then s
  else
    let s := s.wr Reg.prcPortLinkContained (portIx k n j) 1
    ((s.devLost k n j).linkLost k n j).prcAsh k n 3 0x05 0 0 j what

/-- The link of a port down. -/
def State.linkOff (s : State) (k n j : Nat) : State :=
  (s.wrs (portIx k n j) [(Reg.prcPortLinkGen, 0), (Reg.prcPortLinkWidth, 0), (Reg.prcPortLinkCxl, 0)]).linkLost k n j

/-- Whether a slot's last power fault is less than a second old (R494). -/
def State.slotHot (s : State) (k n j : Nat) : Bool :=
  (s.prc k n).faults.any (fun e => decide (e.1 = j) && decide (s.time < e.2 + 10 ^ 9))

/-- SLOT.PWRON written (step 1 of Table PCIX-3): discarded while FAULT is set or nothing is present, without effect on a slot already
powering up, training or up; power is asserted no sooner than a second after a fault (R494). -/
def State.slotOn (s : State) (k n j : Nat) : State :=
  let a := portIx k n j
  let st := s.rd Reg.prcPortSlotState a
  if !s.hasPort k n j || s.rd Reg.prcPortSlotPresent a = 0 || s.rd Reg.prcPortSlotFault a = 1 || (1 ≤ st && st ≤ 3) then s
  else if s.slotHot k n j then s.updPrc k n (fun x => { x with want := j :: x.want.filter (· ≠ j) })
  else s.wr Reg.prcPortSlotState a 1

/-- Slots whose PWRON waited for the second after their fault and waits no longer, powered on. -/
def State.slotsDue (s : State) : State :=
  s.prcs.foldl (fun s e => e.2.want.foldl (fun s j =>
    let k := e.1 / 4
    let n := e.1 % 4
    if s.slotHot k n j then s
    else (s.updPrc k n (fun x => { x with want := x.want.filter (· ≠ j) })).slotOn k n j) s) s

/-- SLOT_PWRON. -/
def execSlotPwron (k n j : Nat) (s : State) : Host.Outcome State Fault Refusal := .next (s.slotOn k n j)

/-- SLOT_PERST_RELEASE (step 2). -/
def execSlotPerstRelease (k n j : Nat) (s : State) : Host.Outcome State Fault Refusal :=
  .next (if s.hasPort k n j && s.rd Reg.prcPortSlotState (portIx k n j) = 1 then
    s.wr Reg.prcPortSlotState (portIx k n j) 2 else s)

/-- SLOT_LINK_TRAINED (step 3): the generation trained (at most CTL.MAXGEN), the width (at most the port's), CXL where it was
offered, and whether the device stores Meta0-State. -/
def execSlotLinkTrained (k n j gen width : Nat) (cxl meta' : Bool) (s : State) : Host.Outcome State Fault Refusal :=
  .next (
    let a := portIx k n j
    if !s.hasPort k n j || s.rd Reg.prcPortSlotState a ≠ 2 || s.rd Reg.prcPortCtlEn a = 0 || gen = 0 ||
        s.rd Reg.prcPortCtlMaxgen a < gen then s
    else
      let s := s.wrs a [(Reg.prcPortSlotState, 3), (Reg.prcPortLinkGen, gen), (Reg.prcPortLinkWidth, width),
        (Reg.prcPortLinkCxl, if cxl && s.rd Reg.prcPortCtlCxl a = 1 then 1 else 0)]
      let s := s.updPrc k n (fun x => { x with noMeta := x.noMeta.filter (· ≠ j) ++ (if meta' then [] else [j]) })
      s.prcEvent k n j 0)

/-- SLOT_TRAIN_TIMEOUT (step 3a). -/
def execSlotTrainTimeout (k n j : Nat) (s : State) : Host.Outcome State Fault Refusal :=
  .next (if s.hasPort k n j && s.rd Reg.prcPortSlotState (portIx k n j) = 2 then
    (s.wr Reg.prcPortSlotState (portIx k n j) 4).prcEvent k n j 1 else s)

/-- One slot faulted (steps 1a and 1b): power off, FAULT latched, the port contained, the management controller told (R601). -/
def State.slotFault (s : State) (k n j reason : Nat) : State :=
  let a := portIx k n j
  let s := s.wrs a [(Reg.prcPortSlotState, 5), (Reg.prcPortSlotFault, 1), (Reg.prcPortSlotReason, reason)]
  let s := s.updPrc k n (fun x =>
    { x with faults := (j, s.time) :: x.faults.filter (fun e => e.1 ≠ j), want := x.want.filter (· ≠ j) })
  ((((s.linkOff k n j).contain k n j 2)).prcEvent k n j 2).mgcReason k 6

/-- SLOT_POWER_FAULT: the slot, and every other powered slot of its group on the socket (R493). -/
def execSlotPowerFault (k n j : Nat) (s : State) : Host.Outcome State Fault Refusal :=
  .next (
    let powered (s : State) (a : Ix) : Bool := decide (1 ≤ s.rd Reg.prcPortSlotState a ∧ s.rd Reg.prcPortSlotState a ≤ 4)
    if !s.hasPort k n j || !powered s (portIx k n j) then s
    else
      let g := s.rd Reg.prcPortSlotPfgroup (portIx k n j)
      let s := s.slotFault k n j 0
      if g = 0 then s
      else
        (List.range 16).foldl (fun s i =>
          let a := portIx k (i / 4) (i % 4)
          if s.hasPort k (i / 4) (i % 4) && powered s a && s.rd Reg.prcPortSlotPfgroup a = g then
            s.slotFault k (i / 4) (i % 4) 1 else s) s)

/-- SLOT.PWROFF written: the slot is powered off in any step, and a PWRON that waited is over; what its device owned is lost with it. -/
def State.slotOff (s : State) (k n j : Nat) : State :=
  if s.hasPort k n j then
    (((s.wr Reg.prcPortSlotState (portIx k n j) 0).linkOff k n j).devLost k n j).updPrc k n
      (fun x => { x with want := x.want.filter (· ≠ j) })
  else s

/-- SLOT_PWROFF. -/
def execSlotPwroff (k n j : Nat) (s : State) : Host.Outcome State Fault Refusal := .next (s.slotOff k n j)

/-- PRESENCE_CHANGE: reported; a removal powers nothing by itself but contains the port (R494). -/
def execPresenceChange (k n j : Nat) (present : Bool) (s : State) : Host.Outcome State Fault Refusal :=
  .next (
    let a := portIx k n j
    if !s.hasPort k n j || s.rd Reg.prcPortSlotPresent a = (if present then 1 else 0) then s
    else
      let s := (s.wr Reg.prcPortSlotPresent a (if present then 1 else 0)).prcEvent k n j 3
      let s := s.mgcReason k 6
      if present then s else (s.linkOff k n j).contain k n j 3)

/-- AER_FATAL. -/
def execAerFatal (k n j : Nat) (s : State) : Host.Outcome State Fault Refusal :=
  .next (if s.portOpen k n j then (s.contain k n j 5).prcEvent k n j 5 else s)

/-- AER_ERROR: not fatal, without containment. -/
def execAerError (k n j : Nat) (s : State) : Host.Outcome State Fault Refusal :=
  .next (if s.portOpen k n j then s.prcEvent k n j 5 else s)

/-- SLOT_ATTENTION. -/
def execSlotAttention (k n j : Nat) (s : State) : Host.Outcome State Fault Refusal :=
  .next (if s.hasPort k n j then s.prcEvent k n j 4 else s)

/-- CTL.RELEASE written: containment ends when the slot is UP (R494). -/
def State.portRelease (s : State) (k n j : Nat) : State :=
  if s.hasPort k n j && s.rd Reg.prcPortSlotState (portIx k n j) = 3 then s.wr Reg.prcPortLinkContained (portIx k n j) 0 else s

/-- PORT_RELEASE. -/
def execPortRelease (k n j : Nat) (s : State) : Host.Outcome State Fault Refusal := .next (s.portRelease k n j)

/-! ### Links in L1 (R495) -/

/-- Whether a port's link may be in L1 or L0p: its CTL.ASPM allows it, the link is up, and the partition is not Assured. -/
def State.mayL1 (s : State) (k n j : Nat) : Bool :=
  s.portOpen k n j && s.rd Reg.prcPortCtlAspm (portIx k n j) = 1 && !s.isAssured k

/-- Whether a port's link is in L1. -/
def State.inL1 (s : State) (k n j : Nat) : Bool := s.mayL1 k n j && (s.prc k n).l1.contains j

/-- A request of core `c` to a device of a root complex (`q`, four times its socket plus its number) at `pa`: its port; the request is
held where the port's link is in L1, which a link that may be there can have entered at any time before (R495, log entry 27). -/
def State.devReq (s : State) (c q pa : Nat) : State × Nat :=
  let k := q / 4
  let n := q % 4
  let j := windowPort q pa % 4
  if !s.mayL1 k n j then (s, j)
  else
    let b := s.inL1 k n j || s.freeNat 1 = 1
    ((if b then s.updPrc k n (fun x => { x with l1 := j :: x.l1.filter (· ≠ j), held := x.held ++ [(j, c)] }) else s).useFree, j)

/-- Whether a request of core `c` to a device is held. -/
def State.devHeld (s : State) (c : Nat) : Bool := s.prcs.any (fun e => e.2.held.any (fun h => h.2 = c))

/-- LINK_L1_EXIT: the port's link is back in L0, and what was held for it goes on (R495). -/
def execLinkL1Exit (k n j : Nat) (s : State) : Host.Outcome State Fault Refusal :=
  .next (if s.hasPort k n j then
    s.updPrc k n (fun x => { x with l1 := x.l1.filter (· ≠ j), held := x.held.filter (fun e => e.1 ≠ j) }) else s)

/-! ### CXL ranges (R496, R497) -/

/-- The window bytes a range covers. -/
def State.cxlSpan (s : State) (k n r : Nat) : Nat × Nat :=
  let a : Ix := { sock := k, inst := n, i := r }
  let b := s.rd Reg.prcCxlwinBase a * gib
  (b, b + s.rd Reg.prcCxlwinSize a * gib)

/-- Whether a range overlaps local DRAM, another valid range or a device window of the socket. -/
def State.cxlOverlap (s : State) (k n r : Nat) : Bool :=
  let x := s.cxlSpan k n r
  let meets (b e : Nat) : Bool := decide (b < x.2) && decide (x.1 < e)
  decide (x.1 < s.dramTop k) || decide (ctlBase < x.2) ||
    (List.range 32).any (fun i =>
      decide (i ≠ 8 * n + r) && s.rd Reg.prcCxlwinValid { sock := k, inst := i / 8, i := i % 8 } = 1 &&
        meets (s.cxlSpan k (i / 8) (i % 8)).1 (s.cxlSpan k (i / 8) (i % 8)).2) ||
    (List.range 8).any (fun i =>
      let a : Ix := { sock := k, inst := i / 2, i := i % 2 }
      let b := s.rd Reg.prcMwinBase a * 2 ^ 20
      decide (0 < s.rd Reg.prcMwinSize a) && decide (b < x.2))

/-- The ports of a range. -/
def State.cxlPorts (s : State) (k n r : Nat) : List Nat :=
  let a : Ix := { sock := k, inst := n, i := r }
  (List.range (2 ^ s.rd Reg.prcCxlwinWays a)).map (fun i => natBits (s.rd Reg.prcCxlwinPorts a) (2 * i + 1) (2 * i))

/-- The code a write of VALID = 1 gives: the number of ways, the span, the ports, their metadata. -/
def State.cxlCode (s : State) (k n r : Nat) : Nat :=
  if s.rd Reg.prcCxlwinWays { sock := k, inst := n, i := r } = 3 then 4
  else if s.cxlOverlap k n r then 1
  else if (s.cxlPorts k n r).any (fun j => !s.hasPort k n j || s.rd Reg.prcPortLinkCxl (portIx k n j) = 0) then 2
  else if (s.cxlPorts k n r).any (s.prc k n).noMeta.contains then 3
  else 0

/-- What memory holds of a range dropped: every line reads as one never written. -/
def State.cxlClear (s : State) (k n r : Nat) : State :=
  let x := s.cxlSpan k n r
  let lo := k * 2 ^ 47 + x.1
  let hi := k * 2 ^ 47 + x.2
  { s with mem := s.mem.filter (fun e => decide (e.1 < lo ∨ hi ≤ e.1))
           poison := s.poison.filter (fun e => decide (e.1 * 64 < lo ∨ hi ≤ e.1 * 64))
           homeOld := s.homeOld.filter (fun e => decide (e.1 * 64 < lo ∨ hi ≤ e.1 * 64))
           dirBits := s.dirBits.filter (fun e => decide (e.1 * 64 < lo ∨ hi ≤ e.1 * 64)) }

/-- VALID written: 1 is checked and starts the poison fill, 0 removes the range. -/
def State.cxlValid (s : State) (k n r : Nat) (v : Bool) : State :=
  let a : Ix := { sock := k, inst := n, i := r }
  if !s.prcOn k n then s
  else if !v then s.wrs a [(Reg.prcCxlwinValid, 0), (Reg.prcCxlwinInit, 0)]
  else if s.rd Reg.prcCxlwinValid a = 1 then s
  else
    let c := s.cxlCode k n r
    if c = 0 then s.wrs a [(Reg.prcCxlwinCode, 0), (Reg.prcCxlwinValid, 1), (Reg.prcCxlwinInit, 1)]
    else s.wr Reg.prcCxlwinCode a c

/-- CXLWIN_VALID_WRITE. -/
def execCxlwinValidWrite (k n r : Nat) (v : Bool) (s : State) : Host.Outcome State Fault Refusal := .next (s.cxlValid k n r v)

/-- CXL_POISON_FILL_DONE. -/
def execCxlPoisonFillDone (k n r : Nat) (s : State) : Host.Outcome State Fault Refusal :=
  .next (
    let a : Ix := { sock := k, inst := n, i := r }
    if s.rd Reg.prcCxlwinInit a = 1 then (s.cxlClear k n r).wr Reg.prcCxlwinInit a 0 else s)

end Sys2Proof.Machine
end

