-- ==== Sys2Proof/Machine/Reli.lean ====
section
/-!
DEFINITION. Machine/Reli.lean: the Ashpan's own commands, the hand-off of a core to a spare, lockstep pairs and socket failure
(R502-R529, R627).
-/
namespace Sys2Proof.Machine

/-! ### The Ashpan (R505-R511) -/

/-- ASHPAN_WRITE: a unit of socket `k` detects an error or a recorded event. -/
def execAshpanWrite (k cls src inst code addr peer domain core d4 d5 d6 : Nat) (s : State) : Host.Outcome State Fault Refusal :=
  .next (if s.up k && cls < 6 then
    s.ash k { cls := cls, src := src % 256, inst := inst % 2 ^ 16, code := code % 256, addr := addr, peer := peer % 1024,
              part := s.partition k, domain := domain, core := core, d4 := d4, d5 := d5, d6 := d6 } else s)

/-- The oldest surviving entry (R507). -/
def State.ashOldest (s : State) (k : Nat) : Nat :=
  if 4095 ≤ cellGet 0 s.ashTotal k then (s.rd Reg.ashRingWrptr { sock := k } + 1) % 4096 else 0

/-- RING.RDPTR written: a value in the live range takes effect, any other names the oldest surviving entry. -/
def State.rdptrWrite (s : State) (k v : Nat) : State :=
  let o := s.ashOldest k
  let a : Ix := { sock := k }
  let v := v % 4096
  s.wr Reg.ashRingRdptr a (if (v + 4096 - o) % 4096 ≤ (s.rd Reg.ashRingWrptr a + 4096 - o) % 4096 then v else o)

/-- RDPTR_WRITE. -/
def execRdptrWrite (k v : Nat) (s : State) : Host.Outcome State Fault Refusal := .next (s.rdptrWrite k v)

/-- CE_LIMIT_MINUTE: a minute of corrected errors ends; what was suppressed in it is recorded (R509). -/
def execCeLimitMinute (k : Nat) (s : State) : Host.Outcome State Fault Refusal :=
  .next (
    let n := cellGet 0 s.ceSupp k
    let s : State := { s with ceCount := cellErase s.ceCount k, ceSupp := cellErase s.ceSupp k }
    if n = 0 then s else s.ash k { cls := 5, src := 0xA0, code := 0x0B, part := s.partition k, d4 := n })

/-- NV.CLR written. -/
def State.nvClr (s : State) (k : Nat) : State := s.wr Reg.ashNvValid { sock := k } 0

/-- NV_CLR. -/
def execNvClr (k : Nat) (s : State) : Host.Outcome State Fault Refusal := .next (s.nvClr k)

/-! ### Losing a thread (R520) -/

/-- The tile of a grate. -/
def tileOf (g : Nat) : Nat := g / 34

/-- The number under which a core's recovery is a +1 action (R280). -/
def actCore (c : Nat) : Nat := 2 ^ 20 + c

/-- Whether the hand-off engine of a tile is busy, shown in HANDOFF.TILES. -/
def State.tileBusy (s : State) (k t : Nat) (b : Bool) : State :=
  let a : Ix := { sock := k }
  let v := s.rd Reg.ashHandoffTiles a
  s.wr Reg.ashHandoffTiles a (if b then v ||| 2 ^ t else if v.testBit t then v - 2 ^ t else v)

/-- The hand-off of a core over. -/
def State.handEnd (s : State) (h : Handoff) : State :=
  ({ s with handoffs := s.handoffs.filter (fun x => decide (x ≠ h)) }.tileBusy (coreSock h.core) (tileOf h.grate) false).actEnd
    (coreSock h.core) (actCore h.core)

/-- A grate goes out of use: retired, or fenced whole as it already is. -/
def State.grateOut (s : State) (k g : Nat) : State :=
  let a : Ix := { sock := k, i := g }
  (s.wrIf (s.rd Reg.coreGmapState a ≠ 4) Reg.coreGmapState a 3).wr Reg.coreGmapLogical a 0

/-- A thread declared lost (R520): `dead` when its L2 cannot be read.  A seat it held is given up as a crash of its instance. -/
def State.threadLost (s : State) (c outcome : Nat) (dead : Bool) : State :=
  let k := coreSock c
  let l := coreLog c
  let g := s.rd Reg.coreLmapGrate (coreIx c)
  let q := s.core c
  let s := (s.wr Reg.coreLmapState (coreIx c) 5).grateOut k g
  let s := s.updCore c (fun q => { q with storeQ := [], region := none, win := none, wait := none, devWait := none, fence := none,
                                          frozen := false, mchk := [], vpend := [] })
  let s := s.release c
  let s := if dead then s.poisonOwned c else s.flushL2 c
  let s := s.updCore c (fun q => { q with l2 := [], l2bad := [], l1i := [], l1d := [] })
  let s := match q.world with | some w => (s.vaultTrigger w.1).setWorld c none | none => s
  let s := (List.range 4).foldl (fun s j => s.wr Reg.ihubPend { coreIx c with j := j } 0) s
  let s := s.bump Reg.ashSpareLost { sock := k }
  let s := s.ash k { cls := 3, src := 0x04, inst := l, code := 0x09, part := s.partition k, domain := (q.srOwn SR.DOMAIN).toNat,
                     core := l, d4 := g, d5 := outcome, d6 := q.pc.toNat }
  s.lossNotify k l (s.rd Reg.ihubSysvecThreadLost { sock := k })

/-! ### Spares (R517) -/

/-- The distance of two tiles on the 4 by 2 grid (R21). -/
def tileDist (a b : Nat) : Nat :=
  let d (x y : Nat) : Nat := if x ≤ y then y - x else x - y
  d (a % 4) (b % 4) + d (a / 4) (b / 4)

/-- Spares of a socket not taken by a hand-off. -/
def State.spares (s : State) (k : Nat) : List Nat :=
  (List.range 272).filter (fun g => s.rd Reg.coreGmapState { sock := k, i := g } = 2 &&
    !s.handoffs.any (fun h => coreSock h.core = k && h.spare = some g))

/-- The spare for a failing core of grate `g`: the nearest tile's, then the lowest tile's, then the lowest-numbered; in its own tile
only when `own`. -/
def State.pickSpare (s : State) (k g : Nat) (own : Bool) : Option Nat :=
  let rank (x : Nat) : Nat := (tileDist (tileOf g) (tileOf x) * 8 + tileOf x) * 512 + x
  ((s.spares k).filter (fun x => !own || tileOf x = tileOf g)).foldl (fun b x => match b with
    | none => some x
    | some y => if rank x < rank y then some x else b) none

/-! ### Hand-off (Table RELY-7, R627) -/

/-- The hand-off of a core, if there is one. -/
def State.handoff (s : State) (c : Nat) : Option Handoff := s.handoffs.find? (fun h => h.core = c)

/-- A hand-off's record replaced. -/
def State.setHand (s : State) (h h' : Handoff) : State :=
  { s with handoffs := s.handoffs.map (fun x => if x = h then h' else x) }

/-- A hand-off of a logical core asked for. -/
def State.handReq (s : State) (k l : Nat) : State :=
  let c := k * 256 + l
  if !s.up k || !s.coreMapped c || (s.handoff c).isSome then s
  else
    { s with handoffs := s.handoffs ++ [{ core := c, grate := s.rd Reg.coreLmapGrate (coreIx c), step := 0, spare := none,
                                          powered := false, errs := (0, 0) }] }

/-- ASH.HANDOFF.GO written: ignored without a spare, and for a checker (Table RELY-9). -/
def State.handoffGo (s : State) (k l : Nat) : State := if (s.spares k).isEmpty then s else s.handReq k l

/-- HANDOFF_GO. -/
def execHandoffGo (k l : Nat) (s : State) : Host.Outcome State Fault Refusal := .next (s.handoffGo k (l % 256))

/-- HANDOFF_START (step 1): the core stops, once its tile's engine is free and an access that must not be repeated has retired; what
has not retired runs again on the spare. -/
def execHandoffStart (k l : Nat) (s : State) : Host.Outcome State Fault Refusal :=
  .next (
    let c := k * 256 + l
    match s.handoff c with
    | none => s
    | some h =>
      let busy := (s.rd Reg.ashHandoffTiles { sock := k }).testBit (tileOf h.grate)
      if h.step ≠ 0 || busy || (s.core c).devWait.isSome || (s.core c).win.isSome then s
      else
        let opt := match (s.core c).region with | some r => !r.ordered | none => false
        let s := if opt then s.abortRegion c 10 0 else s
        let s := s.updCore c (fun q =>
          { q with frozen := true, fence := none, wait := q.wait.bind (fun w =>
              if w.closing then none else some w) })
        ((s.wr Reg.coreLmapState (coreIx c) 4).tileBusy k (tileOf h.grate) true).setHand h { h with step := 1 })

/-- A core's hand-off continues at step 3 with the next spare, or ends with its thread lost (R517, R521). -/
def State.nextSpare (s : State) (h : Handoff) (step : Nat) : State :=
  let k := coreSock h.core
  let own := (s.pairOf k (coreLog h.core)).isSome
  match s.pickSpare k h.grate own with
  | some g => s.setHand h { h with step := step, spare := some g, powered := false }
  | none => (s.handEnd h).threadLost h.core 3 false

/-- HANDOFF_REPOCH (steps 2 and 3): the epoch is raised and visible, the spare chosen. -/
def execHandoffRepoch (k l : Nat) (s : State) : Host.Outcome State Fault Refusal :=
  .next (match s.handoff (k * 256 + l) with
    | none => s
    | some h => if h.step ≠ 1 then s else (s.actBegin k (actCore h.core)).nextSpare h 2)

/-- SPARE_POWERED (step 3). -/
def execSparePowered (k g : Nat) (s : State) : Host.Outcome State Fault Refusal :=
  .next (match s.handoffs.find? (fun h => coreSock h.core = k && h.spare = some g) with
    | some h => s.setHand h { h with powered := true }
    | none => s)

/-- HANDOFF_STATE_READ (step 4). -/
def execHandoffStateRead (k l : Nat) (s : State) : Host.Outcome State Fault Refusal :=
  .next (match s.handoff (k * 256 + l) with
    | some h => if h.step = 2 then s.setHand h { h with step := 3 } else s
    | none => s)

/-- HANDOFF_STORES_READ (step 5). -/
def execHandoffStoresRead (k l : Nat) (s : State) : Host.Outcome State Fault Refusal :=
  .next (match s.handoff (k * 256 + l) with
    | some h => if h.step = 3 then s.setHand h { h with step := 4 } else s
    | none => s)

/-- Every line but the held ones leaves the old L2 (step 6). -/
def State.emptyL2 (s : State) (c : Nat) : State :=
  let held := match (s.core c).region with | some r => if r.ordered then r.held else [] | none => []
  ((s.core c).l2.map (·.1)).foldl (fun s ln => if held.contains ln then s else s.evict c ln) s

/-- HANDOFF_L2_EMPTIED (step 6), with the spare powered. -/
def execHandoffL2Emptied (k l : Nat) (s : State) : Host.Outcome State Fault Refusal :=
  .next (match s.handoff (k * 256 + l) with
    | some h => if h.step = 4 && h.powered then (s.emptyL2 h.core).setHand h { h with step := 5 } else s
    | none => s)

/-- What a thread does not take with it to another grate. -/
def Core.newGrate (q : Core) : Core := { q.noTlb with l1i := [], l1d := [], pred := Pred.reset }

/-- The error counts of the grate behind a logical core, as the words of ERRL1 and ERRL2. -/
def State.errWords (s : State) (c : Nat) : Nat × Nat :=
  let a := coreIx c
  (s.rd Reg.coreErrl1L1i a + s.rd Reg.coreErrl1L1d a * 2 ^ 32, s.rd Reg.coreErrl2Corr a + s.rd Reg.coreErrl2Uncorr a * 2 ^ 32)

/-- The error counts of a logical core: they describe the grate now behind it, and read zero for a spare (R210). -/
def State.errSet (s : State) (c i d e u : Nat) : State :=
  s.wrs (coreIx c) [(Reg.coreErrl1L1i, i), (Reg.coreErrl1L1d, d), (Reg.coreErrl2Corr, e), (Reg.coreErrl2Uncorr, u)]

/-- A spare grate put to use for a logical core, starting on its fast internal clock (R210, R513, R627). -/
def State.grateIn (s : State) (c g : Nat) : State :=
  let k := coreSock c
  let a : Ix := { sock := k, i := g }
  let s := (s.wr Reg.coreGmapState a 1).wr Reg.coreGmapLogical a (coreLog c)
  let s := s.wr Reg.coreLmapGrate (coreIx c) g
  let s := s.wr Reg.ashSpareLeft { sock := k } (s.rd Reg.ashSpareLeft { sock := k } - 1)
  (s.errSet c 0 0 0 0).wrs (coreIx c) [(Reg.pwrCoreLocked, 0), (Reg.pwrCoreCur, 1600)]

/-- SPARE_LOADED (step 7), with the spare powered: the core map changes. -/
def execSpareLoaded (k l : Nat) (s : State) : Host.Outcome State Fault Refusal :=
  .next (match s.handoff (k * 256 + l) with
    | some h =>
      match h.spare with
      | some g =>
        if h.step ≠ 5 || !h.powered then s
        else
          let w := s.errWords h.core
          let s := ((s.grateOut k h.grate).grateIn h.core g).updCore h.core Core.newGrate
          let s := s.bump Reg.coreLmapMoves (coreIx h.core)
          s.setHand h { h with step := 6, errs := w }
      | none => s
    | none => s)

/-- HANDOFF_RESUME (step 8): the spare performs the copied stores in order and the thread goes on; the main core of a pair waits for
the comparator test of its new grate (R525). -/
def execHandoffResume (k l : Nat) (s : State) : Host.Outcome State Fault Refusal :=
  .next (match s.handoff (k * 256 + l) with
    | some h =>
      if h.step ≠ 6 then s
      else
        match s.drain h.core with
        | none => s
        | some s =>
          let s := s.updCore h.core (fun q => { q with frozen := false })
          let pair := s.activePair k l
          let s := s.wr Reg.coreLmapState (coreIx h.core) (if pair.isSome then 2 else 1)
          let s := match pair with | some p => s.wr Reg.ashLsState { sock := k, i := p } 1 | none => s
          let s := s.bump Reg.ashSpareHandoffs { sock := k }
          let s := s.ash k { cls := 2, src := 0x04, inst := l, code := 0x06, part := s.partition k, core := l,
                             domain := ((s.core h.core).srOwn SR.DOMAIN).toNat, d4 := h.grate + h.spare.getD 0 * 2 ^ 16, d5 := 8,
                             d6 := h.errs.1, d7 := h.errs.2 }
          s.handEnd h
    | none => s)

/-- What a spare that can no longer serve leaves to do: a hand-off that was using it goes on with the next one (step 6a, R627). -/
def State.spareGone (s : State) (k g : Nat) : State :=
  match s.handoffs.find? (fun h => coreSock h.core = k && h.spare = some g) with
  | some h => s.nextSpare h h.step
  | none => s

/-- SPARE_FAIL: a spare fails its self-test or shows an error; a hand-off that was using it goes on with the next one, and what the
failed spare already held moves with it (R517, R627). -/
def execSpareFail (k g : Nat) (s : State) : Host.Outcome State Fault Refusal :=
  .next (
    let a : Ix := { sock := k, i := g }
    if s.rd Reg.coreGmapState a ≠ 2 then s
    else
      let s := s.wr Reg.coreGmapState a 5
      let s := s.wr Reg.ashSpareLeft { sock := k } (s.rd Reg.ashSpareLeft { sock := k } - 1)
      (s.ash k { cls := 2, src := 0x01, inst := g, code := 0x05, part := s.partition k }).spareGone k g)

/-! ### Lockstep (Tables RELY-8 and RELY-10) -/

/-- Where a pair's registers stand. -/
def lsIx (k p : Nat) : Ix := { sock := k, i := p }

/-- The main core of a pair. -/
def State.lsMain (s : State) (k p : Nat) : Nat := k * 256 + s.rd Reg.ashLsMain (lsIx k p)

/-- The checker of a pair. -/
def State.lsChk (s : State) (k p : Nat) : Nat := k * 256 + s.rd Reg.ashLsChecker (lsIx k p)

/-- An Ashpan entry of a pair. -/
def State.lsAsh (s : State) (k p cls code w4 : Nat) : State :=
  let m := s.lsMain k p
  s.ash k { cls := cls, src := 0x03, inst := p, code := code, part := s.partition k, core := coreLog m,
            domain := ((s.core m).srOwn SR.DOMAIN).toNat, d4 := w4, d5 := (s.pc m).toNat }

/-- The recovery of a pair. -/
def State.lockrec (s : State) (k p : Nat) : Option LockRec := s.lockrecs.find? (fun r => r.sock = k && r.pair = p)

/-- A recovery's record replaced. -/
def State.setLock (s : State) (r r' : LockRec) : State := { s with lockrecs := s.lockrecs.map (fun x => if x = r then r' else x) }

/-- A recovery over: its action ends. -/
def State.lockEnd (s : State) (r : LockRec) : State :=
  ({ s with lockrecs := s.lockrecs.filter (fun x => decide (x ≠ r)) } : State).actEnd r.sock (actCore (s.lsMain r.sock r.pair))

/-- A recovery begins: both cores stop (step 1 of Table RELY-8). -/
def State.lockStart (s : State) (k p : Nat) (mainBad chkBad : Bool) : State :=
  let s := s.wr Reg.ashLsState (lsIx k p) 3
  let s := s.updCore (s.lsMain k p) (fun q => { q with frozen := true })
  { s with lockrecs := s.lockrecs ++ [{ sock := k, pair := p, step := 1, mainBad := mainBad, chkBad := chkBad, res := 0 }] }

/-- LOCKSTEP_MISMATCH: nothing after the last compared commit point has been performed (R524, R526). -/
def execLockstepMismatch (k p : Nat) (s : State) : Host.Outcome State Fault Refusal :=
  .next (if s.rd Reg.ashLsState (lsIx k p) = 2 && s.up k then
    (s.bump Reg.ashLsMismatch (lsIx k p)).lockStart k p false false else s)

/-- PIPELINE_ERROR at the core serving a logical ID: a lockstep recovery for a core of an ACTIVE pair, otherwise a hand-off (R516,
R526). -/
def execPipelineError (k l : Nat) (s : State) : Host.Outcome State Fault Refusal :=
  .next (
    if !s.up k then s
    else
      match s.activePair k l with
      | some p => s.lockStart k p (s.rd Reg.ashLsMain (lsIx k p) = l) (s.rd Reg.ashLsChecker (lsIx k p) = l)
      | none => s.handReq k l)

/-- LOCKSTEP_REPOCH (step 2): the epoch is raised and visible, the self-tests start. -/
def execLockstepRepoch (k p : Nat) (s : State) : Host.Outcome State Fault Refusal :=
  .next (match s.lockrec k p with
    | some r => if r.step = 1 then (s.actBegin k (actCore (s.lsMain k p))).setLock r { r with step := 2 } else s
    | none => s)

/-- The thread of a pair resumes from its commit point. -/
def State.lockResume (s : State) (r : LockRec) (st : Nat) : State :=
  let s := s.wr Reg.ashLsState (lsIx r.sock r.pair) st
  (s.updCore (s.lsMain r.sock r.pair) (fun q => { q with frozen := false })).lockEnd r

/-- LOCKSTEP_SELFTEST_DONE (step 3): both passed is a transient, which resumes unless it is the TLIM-th (4c); both failed loses the
thread (4d); otherwise the failed core is to be replaced (4a, 4b). -/
def execLockstepSelftestDone (k p : Nat) (mainOk chkOk : Bool) (s : State) : Host.Outcome State Fault Refusal :=
  .next (match s.lockrec k p with
    | none => s
    | some r =>
      if r.step ≠ 2 then s
      else
        let m := mainOk && !r.mainBad
        let c := chkOk && !r.chkBad
        if m && c then
          let s := s.bump Reg.ashLsTransient (lsIx k p)
          if s.rd Reg.ashLsTransient (lsIx k p) < max 1 (s.rd Reg.ashLscfgTlim { sock := k }) then
            (s.lockResume r 2).lsAsh k p 2 0x06 0
          else s.setLock r { r with step := 3, res := 1 }
        else if !m && !c then
          let x := s.lsMain k p
          let g := s.rd Reg.coreLmapGrate (coreIx (s.lsChk k p))
          let s := (((s.wr Reg.ashLsState (lsIx k p) 6).threadLost x 4 true).grateOut k g).lockEnd r
          s.lsAsh k p 3 0x09 3
        else s.setLock r { r with step := 3, res := if c then 1 else 2 })

/-- The pair's thread goes on unpaired, with MACHINE_CHECK pending (step 5a, R512). -/
def State.unpair (s : State) (r : LockRec) : State :=
  let k := r.sock
  let m := s.lsMain k r.pair
  let idx := s.ashNext k
  let s := s.lsAsh k r.pair 3 0x05 r.res
  let s := (s.wr Reg.coreLmapState (coreIx m) 1).wr Reg.coreLmapState (coreIx (s.lsChk k r.pair)) 0
  let s := s.updCore m (fun q =>
    if q.mchk.any (fun x => x.cause = 0x0304) then q
    else { q with mchk := q.mchk ++ [{ cause := 0x0304, addr := 0, info := idx * 2 ^ 16 }] })
  s.lockResume r 4

/-- LOCKSTEP_REPAIRED: after 4a the checker's grate serves the main's logical ID and the old main's L2 has moved; after 4b the main
stays; then the lowest-numbered spare of the tile takes the checker's logical ID and the comparator is tested, or the thread goes on
alone (steps 5 and 5a). -/
def execLockstepRepaired (k p : Nat) (s : State) : Host.Outcome State Fault Refusal :=
  .next (match s.lockrec k p with
    | none => s
    | some r =>
      if r.step ≠ 3 then s
      else
        let m := s.lsMain k p
        let c := s.lsChk k p
        let gm := s.rd Reg.coreLmapGrate (coreIx m)
        let gc := s.rd Reg.coreLmapGrate (coreIx c)
        let s := if r.res = 1 then
            let a := coreIx c
            let s := ((s.emptyL2 m).grateOut k gm).updCore m Core.newGrate
            let s := s.errSet m (s.rd Reg.coreErrl1L1i a) (s.rd Reg.coreErrl1L1d a) (s.rd Reg.coreErrl2Corr a) (s.rd Reg.coreErrl2Uncorr a)
            (s.wr Reg.coreLmapGrate (coreIx m) gc).wr Reg.coreGmapLogical { sock := k, i := gc } (coreLog m)
          else s.grateOut k gc
        match s.pickSpare k gm true with
        | some g => ((s.grateIn c g).wr Reg.ashLsState (lsIx k p) 1).setLock r { r with step := 4 }
        | none => s.unpair r)

/-- Whether a pair's registers name two running cores of one tile that have not left reset (R522). -/
def State.pairOk (s : State) (k p : Nat) : Bool :=
  let m := s.lsMain k p
  let c := s.lsChk k p
  decide (m ≠ c) && s.rd Reg.coreLmapState (coreIx m) = 1 && s.rd Reg.coreLmapState (coreIx c) = 1 &&
    tileOf (s.rd Reg.coreLmapGrate (coreIx m)) = tileOf (s.rd Reg.coreLmapGrate (coreIx c)) &&
    s.rd Reg.pwrCoreRun (coreIx m) = 0 && s.rd Reg.pwrCoreRun (coreIx c) = 0

/-- COMPARATOR_TEST: the test of a configured pair starts; a pair that breaks R522 stays OFF and is recorded. -/
def execComparatorTest (k p : Nat) (s : State) : Host.Outcome State Fault Refusal :=
  .next (
    let a := lsIx k p
    if !(s.part k).full || 128 ≤ p || s.rd Reg.ashLsEn a = 0 || s.rd Reg.ashLsState a ≠ 0 then s
    else if s.pairOk k p then s.wr Reg.ashLsState a 1
    else s.ash k { cls := 5, src := 0x03, inst := p, code := 0x0A, part := s.partition k })

/-- COMPARATOR_TEST_DONE: ACTIVE when it passed; else CMPFAIL, the main core staying in reset, or, for a new pairing, going on
unpaired (steps 3 and 3a of Table RELY-10). -/
def execComparatorTestDone (k p : Nat) (ok : Bool) (s : State) : Host.Outcome State Fault Refusal :=
  .next (
    let a := lsIx k p
    if s.rd Reg.ashLsState a ≠ 1 then s
    else
      let m := s.lsMain k p
      let c := s.lsChk k p
      if ok then
        let s := (s.wr Reg.coreLmapState (coreIx m) 2).wr Reg.coreLmapState (coreIx c) 3
        let s := s.wr Reg.ashLsState a 2
        match s.lockrec k p with
        | some r => (s.lockResume r 2).lsAsh k p 2 0x06 r.res
        | none => s
      else
        let s := (s.wr Reg.ashLsState a 5).lsAsh k p 3 0x03 0
        match s.lockrec k p with
        | some r => s.unpair r
        | none => s)

/-- HANDOFF_SOURCE_FAIL (R519): the source of steps 4 to 6 fails, `dead` when its L2 cannot be read; the main core of an ACTIVE pair
is replaced by its checker, any other thread is lost. -/
def execHandoffSourceFail (k l : Nat) (dead : Bool) (s : State) : Host.Outcome State Fault Refusal :=
  .next (match s.handoff (k * 256 + l) with
    | none => s
    | some h =>
      if h.step < 2 || 4 < h.step then s
      else
        match s.activePair k l with
        | some p =>
          let s := s.wr Reg.coreLmapState (coreIx h.core) 2
          let s := s.handEnd h
          let s := (s.lockStart k p true false).actBegin k (actCore h.core)
          match s.lockrec k p with
          | some r => s.setLock r { r with step := 3, res := 1 }
          | none => s
        | none => (s.handEnd h).threadLost h.core 4 dead)

/-- GRATE_FENCE: an error in a grate's stop or power domain (R521). -/
def execGrateFence (k g : Nat) (s : State) : Host.Outcome State Fault Refusal :=
  .next (
    let a : Ix := { sock := k, i := g }
    let st := s.rd Reg.coreGmapState a
    if !s.up k || (st ≠ 1 && st ≠ 2) then s
    else
      let l := s.rd Reg.coreGmapLogical a
      let s := (s.wr Reg.coreGmapState a 4).wr Reg.coreGmapLogical a 0
      let s := s.retireReq k g true
      if st = 1 then s.handReq k l
      else (s.wr Reg.ashSpareLeft { sock := k } (s.rd Reg.ashSpareLeft { sock := k } - 1)).spareGone k g)

/-- SOCKET_FAILURE from one of the units of R528. -/
def execSocketFailure (k src inst d4 : Nat) (s : State) : Host.Outcome State Fault Refusal :=
  .next (if [0x10, 0x20, 0x30, 0x70, 0x80, 0xD0].contains src then s.socketFail k src (inst % 2 ^ 16) d4 else s)

end Sys2Proof.Machine
end

