-- ==== Sys2Proof/Machine/Float.lean ====
section
/-!
DEFINITION. Machine/Float.lean: IEEE 754-2019 arithmetic on bit patterns: exact values, one rounding, flags (R68-R72).
-/
namespace Sys2Proof.Machine

/-- A binary format: precision with the hidden bit, and exponent width. -/
structure Fmt where
  p : Nat
  eb : Nat
deriving DecidableEq, Repr

/-- binary16. -/
def Fmt.b16 : Fmt := ⟨11, 5⟩
/-- binary32. -/
def Fmt.b32 : Fmt := ⟨24, 8⟩
/-- binary64. -/
def Fmt.b64 : Fmt := ⟨53, 11⟩

/-- The format of a precision code (R71); 0b11 names none. -/
def fmtOf (code : Nat) : Option Fmt :=
  match code with | 0 => some .b16 | 1 => some .b32 | 2 => some .b64 | _ => none

/-- Width in bits. -/
def Fmt.w (f : Fmt) : Nat := f.p + f.eb

/-- The exponent of the least significant bit of a subnormal. -/
def Fmt.emin (f : Fmt) : Int := 2 - 2 ^ (f.eb - 1) - (f.p - 1 : Nat)

/-- The canonical quiet NaN (R69). -/
def Fmt.nan (f : Fmt) : Nat := (2 ^ f.eb - 1) * 2 ^ (f.p - 1) + 2 ^ (f.p - 2)

/-- An infinity. -/
def Fmt.inf (f : Fmt) (neg : Bool) : Nat := (if neg then 2 ^ (f.w - 1) else 0) + (2 ^ f.eb - 1) * 2 ^ (f.p - 1)

/-- A zero. -/
def Fmt.zero (f : Fmt) (neg : Bool) : Nat := if neg then 2 ^ (f.w - 1) else 0

/-- The largest finite number. -/
def Fmt.max (f : Fmt) (neg : Bool) : Nat := f.inf neg - 1

/-- A decoded operand: NaN (signalling or not), infinity, or ± m × 2^e. -/
inductive Fv
  | nan (sig : Bool)
  | inf (neg : Bool)
  | fin (neg : Bool) (m : Nat) (e : Int)
deriving DecidableEq, Repr

/-- A bit pattern decoded. -/
def Fmt.unpack (f : Fmt) (x : Nat) : Fv :=
  let neg := x.testBit (f.w - 1)
  let ex := natBits x (f.w - 2) (f.p - 1)
  let fr := x % 2 ^ (f.p - 1)
  if ex = 2 ^ f.eb - 1 then (if fr = 0 then .inf neg else .nan (!fr.testBit (f.p - 2)))
  else if ex = 0 then .fin neg fr f.emin
  else .fin neg (fr + 2 ^ (f.p - 1)) (f.emin + (ex - 1 : Nat))

/-- Whether rounding mode `rm` (R70) rounds away the remainder `r` of `2 ^ k` below an integer `q`. -/
def roundUp (rm : Nat) (neg : Bool) (q r k : Nat) : Bool :=
  match rm with
  | 0 => 2 ^ k < 2 * r || (2 ^ k = 2 * r && q % 2 = 1)
  | 1 => false
  | 2 => neg && r ≠ 0
  | 3 => !neg && r ≠ 0
  | _ => 2 ^ k ≤ 2 * r && r ≠ 0

/-- `m × 2^e` cut to a multiple of `2^t` by the rounding mode: the multiple and whether anything was lost. -/
def roundAt (rm : Nat) (neg : Bool) (m : Nat) (e t : Int) : Nat × Bool :=
  if t ≤ e then (m * 2 ^ (e - t).toNat, false)
  else
    let k := (t - e).toNat
    let q := m / 2 ^ k
    let r := m % 2 ^ k
    (if roundUp rm neg q r k then q + 1 else q, decide (r ≠ 0))

/-- `± m × 2^e` rounded once into the format, with its flags; tininess is detected after rounding, and an exact
subnormal result raises no underflow (R69, R85; log entry 29). -/
def Fmt.round (f : Fmt) (rm : Nat) (neg : Bool) (m : Nat) (e : Int) : Nat × Nat :=
  if m = 0 then (f.zero neg, 0)
  else
    let tu := e + (m.log2 + 1 : Nat) - (f.p : Int)
    let t := if tu < f.emin then f.emin else tu
    let r := roundAt rm neg m e t
    let u := roundAt rm neg m e tu
    let tiny := decide (tu < f.emin) && !(decide (tu = f.emin - 1) && u.1 = 2 ^ f.p)
    let q := if r.1 = 2 ^ f.p then 2 ^ (f.p - 1) else r.1
    let t := if r.1 = 2 ^ f.p then t + 1 else t
    let bexp := (t - f.emin).toNat + 1
    if 2 ^ (f.p - 1) ≤ q && 2 ^ f.eb - 1 ≤ bexp then
      let toInf := match rm with | 0 => true | 1 => false | 2 => neg | 3 => !neg | _ => true
      (if toInf then f.inf neg else f.max neg, fOF + fNX)
    else
      let body := if q < 2 ^ (f.p - 1) then q else (bexp - 1) * 2 ^ (f.p - 1) + q
      (f.zero neg + body, (if r.2 then fNX else 0) + (if r.2 && tiny then fUF else 0))

/-- An operand that is a NaN gives the canonical NaN, with NV for a signalling one. -/
def nanOut (f : Fmt) (l : List Fv) : Nat × Nat := (f.nan, if l.any (fun x => x = .nan true) then fNV else 0)

/-- Whether a value is a NaN. -/
def Fv.isNan : Fv → Bool | .nan _ => true | _ => false

/-- The sign of an operand that is no NaN. -/
def Fv.neg : Fv → Bool | .nan _ => false | .inf n => n | .fin n _ _ => n

/-- A value with its sign flipped when asked. -/
def Fv.flip (b : Bool) : Fv → Fv
  | .nan s => .nan s
  | .inf n => .inf (n != b)
  | .fin n m e => .fin (n != b) m e

/-- A finite value as an integer multiple of `2^t`, `t` not above its exponent. -/
def scaled (neg : Bool) (m : Nat) (e t : Int) : Int :=
  let v : Int := (m * 2 ^ (e - t).toNat : Nat)
  if neg then -v else v

/-- The rounded sum of two values, neither a NaN. -/
def addV (f : Fmt) (rm : Nat) (x y : Fv) : Nat × Nat :=
  match x, y with
  | .inf a, .inf b => if a = b then (f.inf a, 0) else (f.nan, fNV)
  | .inf a, _ => (f.inf a, 0)
  | _, .inf b => (f.inf b, 0)
  | .fin a m e, .fin b n d =>
    let t := if e ≤ d then e else d
    let z := scaled a m e t + scaled b n d t
    if z = 0 then
      (f.zero (if m = 0 && n = 0 && a = b then a else rm = 2), 0)
    else f.round rm (decide (z < 0)) z.natAbs t
  | _, _ => (f.nan, 0)

/-- Addition. -/
def Fmt.add (f : Fmt) (rm a b : Nat) : Nat × Nat :=
  let x := f.unpack a
  let y := f.unpack b
  if x.isNan || y.isNan then nanOut f [x, y] else addV f rm x y

/-- Subtraction. -/
def Fmt.sub (f : Fmt) (rm a b : Nat) : Nat × Nat :=
  let x := f.unpack a
  let y := f.unpack b
  if x.isNan || y.isNan then nanOut f [x, y] else addV f rm x (y.flip true)

/-- The exact product of two values; `none` for infinity times zero. -/
def mulV (x y : Fv) : Option Fv :=
  match x, y with
  | .inf a, .inf b => some (.inf (a != b))
  | .inf a, .fin b n _ => if n = 0 then none else some (.inf (a != b))
  | .fin a m _, .inf b => if m = 0 then none else some (.inf (a != b))
  | .fin a m e, .fin b n d => some (.fin (a != b) (m * n) (e + d))
  | _, _ => none

/-- Multiplication. -/
def Fmt.mul (f : Fmt) (rm a b : Nat) : Nat × Nat :=
  let x := f.unpack a
  let y := f.unpack b
  if x.isNan || y.isNan then nanOut f [x, y]
  else
    match mulV x y with
    | none => (f.nan, fNV)
    | some (.inf n) => (f.inf n, 0)
    | some (.fin n m e) => f.round rm n m e
    | some (.nan _) => (f.nan, 0)

/-- The flag bit that stands for a case IEEE 754 leaves to the implementation: whether infinity times zero plus a quiet NaN
raises NV (log entry 1). -/
def fAmb : Nat := 64

/-- Fused multiply-add, `np` and `na` negating the product and the addend. -/
def Fmt.fma (f : Fmt) (rm : Nat) (np na : Bool) (a b c : Nat) : Nat × Nat :=
  let x := f.unpack a
  let y := f.unpack b
  let z := f.unpack c
  if x.isNan || y.isNan then nanOut f [x, y, z]
  else
    match mulV x y with
    | none => match z with
      | .nan true => (f.nan, fNV)
      | .nan false => (f.nan, fAmb)
      | _ => (f.nan, fNV)
    | some q => if z.isNan then nanOut f [z] else addV f rm (q.flip np) (z.flip na)

/-- Division. -/
def Fmt.div (f : Fmt) (rm a b : Nat) : Nat × Nat :=
  let x := f.unpack a
  let y := f.unpack b
  match x, y with
  | .nan _, _ => nanOut f [x, y]
  | _, .nan _ => nanOut f [x, y]
  | .inf _, .inf _ => (f.nan, fNV)
  | .inf n, .fin m _ _ => (f.inf (n != m), 0)
  | .fin n _ _, .inf m => (f.zero (n != m), 0)
  | .fin n p e, .fin m q d =>
    if q = 0 then (if p = 0 then (f.nan, fNV) else (f.inf (n != m), fDZ))
    else if p = 0 then (f.zero (n != m), 0)
    else
      let k := 2 * f.p + 6 + q.log2
      let num := p * 2 ^ k
      let z := num / q * 2 + (if num % q = 0 then 0 else 1)
      f.round rm (n != m) z (e - d - k - 1)

/-- The integer square root by `n` bits from the top. -/
def isqrtGo (x : Nat) : Nat → Nat → Nat
  | 0, r => r
  | n + 1, r => let t := r + 2 ^ n
    isqrtGo x n (if t * t ≤ x then t else r)

/-- Square root. -/
def Fmt.sqrt (f : Fmt) (rm a : Nat) : Nat × Nat :=
  match f.unpack a with
  | .nan s => nanOut f [.nan s]
  | .inf n => if n then (f.nan, fNV) else (f.inf false, 0)
  | .fin n m e =>
    if m = 0 then (f.zero n, 0)
    else if n then (f.nan, fNV)
    else
      let k : Nat := 2 * f.p + 6 + (if (e - (2 * f.p + 6 : Nat)) % 2 = 0 then 0 else 1)
      let x := m * 2 ^ k
      let r := isqrtGo x (x.log2 / 2 + 2) 0
      f.round rm false (r * 2 + (if r * r = x then 0 else 1)) ((e - k) / 2 - 1)

/-- The value of a finite pattern or infinity as an order key: zeros compare equal. -/
def Fmt.key (f : Fmt) (x : Nat) : Int :=
  let mag : Int := (x % 2 ^ (f.w - 1) : Nat)
  if x.testBit (f.w - 1) then -mag else mag

/-- An ordered or unordered comparison: `lt` and `eq` of two patterns, or unordered. -/
inductive Rel | lt | eq | gt | un
deriving DecidableEq, Repr

/-- How two patterns compare. -/
def Fmt.rel (f : Fmt) (a b : Nat) : Rel :=
  if (f.unpack a).isNan || (f.unpack b).isNan then .un
  else if f.key a < f.key b then .lt else if f.key a = f.key b then .eq else .gt

/-- NV for a comparison: on a signalling NaN, or on any NaN for a signalling comparison. -/
def Fmt.cmpFlags (f : Fmt) (signalling : Bool) (a b : Nat) : Nat :=
  let l := [f.unpack a, f.unpack b]
  if l.any (fun x => x = .nan true) || (signalling && l.any (·.isNan)) then fNV else 0

/-- minimumNumber and maximumNumber; −0 is below +0 (R71). -/
def Fmt.minmax (f : Fmt) (isMax : Bool) (a b : Nat) : Nat × Nat :=
  let fl := f.cmpFlags false a b
  match (f.unpack a).isNan, (f.unpack b).isNan with
  | true, true => (f.nan, fl)
  | true, false => (b, fl)
  | false, true => (a, fl)
  | false, false =>
    let aLow := match f.rel a b with
      | .lt => true | .gt => false | _ => a.testBit (f.w - 1)
    (if aLow != isMax then a else b, fl)

/-- Class and sign of a pattern (Table ISA-14, FCLASS). -/
def Fmt.fclass (f : Fmt) (a : Nat) : Nat :=
  let c := match f.unpack a with
    | .nan true => 5 | .nan false => 4 | .inf _ => 3
    | .fin _ m _ => if m = 0 then 0 else if m < 2 ^ (f.p - 1) then 1 else 2
  c + (if a.testBit (f.w - 1) then 8 else 0)

/-- One format to another. -/
def Fmt.toFmt (f g : Fmt) (rm a : Nat) : Nat × Nat :=
  match f.unpack a with
  | .nan s => (g.nan, if s then fNV else 0)
  | .inf n => (g.inf n, 0)
  | .fin n m e => g.round rm n m e

/-- A pattern to an integer of `w` bits: NaN gives 0 and NV, a value out of range the nearest integer and NV (R72). -/
def Fmt.toInt (f : Fmt) (rm w : Nat) (signed : Bool) (a : Nat) : Int × Nat :=
  let lo : Int := if signed then -(2 ^ (w - 1)) else 0
  let hi : Int := if signed then 2 ^ (w - 1) - 1 else 2 ^ w - 1
  match f.unpack a with
  | .nan _ => (0, fNV)
  | .inf n => (if n then lo else hi, fNV)
  | .fin n m e =>
    let r := roundAt rm n m e 0
    let v : Int := if n then -(r.1 : Int) else r.1
    if v < lo then (lo, fNV) else if hi < v then (hi, fNV) else (v, if r.2 then fNX else 0)

/-- An integer to a pattern. -/
def Fmt.ofInt (f : Fmt) (rm : Nat) (x : Int) : Nat × Nat := f.round rm (decide (x < 0)) x.natAbs 0

end Sys2Proof.Machine
end

