-- ==== Sys2Proof/Machine/StkOps.lean ====
section
/-!
DEFINITION. Machine/StkOps.lean: what the Stoker's operations compute: descriptor and program checks (R450-R455) and the operations
themselves (R456-R462).  An operation reads its source lines one at a time over as many beats as it is given (R277), and then writes
its output.
-/
namespace Sys2Proof.Machine

/-- A descriptor's doubleword. -/
abbrev DWords := List Nat

/-- Field `[hi:lo]` of doubleword `i`. -/
def dw (w : DWords) (i hi lo : Nat) : Nat := natBits (nth 0 w i) hi lo

/-- Operation code. -/
def dOp (w : DWords) : Nat := dw w 0 7 0
/-- Source address. -/
def dSrc (w : DWords) : Nat := nth 0 w 1
/-- Source length. -/
def dSlen (w : DWords) : Nat := dw w 2 39 0
/-- Destination address. -/
def dDst (w : DWords) : Nat := nth 0 w 3
/-- Destination capacity. -/
def dDlen (w : DWords) : Nat := dw w 4 39 0
/-- Program, table or parameter address. -/
def dAux (w : DWords) : Nat := nth 0 w 5
/-- Second address or count. -/
def dAux2 (w : DWords) : Nat := nth 0 w 6
/-- Operation parameter. -/
def dP64 (w : DWords) : Nat := nth 0 w 7

/-! ### Descriptor checks (R450, R451) -/

/-- Bits [63:57] of an address equal bit 56 (R450). -/
def canon57 (a : Nat) : Bool := natBits a 63 57 = (if natBits a 56 56 = 1 then 127 else 0)

/-- What Table STOK-4 lets a row use: bits of P16, whether SRC, SLEN, DST with DLEN, AUX and AUX2 are used, bits of P24, and
whether P64 is used. -/
structure OpForm where
  p16 : Nat
  src : Bool
  slen : Bool
  dst : Bool
  aux : Bool
  aux2 : Bool
  p24 : Nat
  p64 : Bool
deriving DecidableEq, Repr

/-- The rows of Table STOK-4; DECOMP's depend on its KIND. -/
def opForm (op kind : Nat) : Option OpForm :=
  match op with
  | 0x00 => some ⟨0, false, false, false, false, false, 0, false⟩
  | 0x01 => some ⟨0x3FF, true, false, true, true, false, 0x1FF, true⟩
  | 0x02 => some ⟨0x1F, true, false, true, true, true, 0xFFF, true⟩
  | 0x03 => some ⟨0x7FF, true, kind = 1 || kind = 3, true, kind = 0, kind = 0, if kind = 2 then 7 else 0, kind = 0 || kind = 2⟩
  | 0x04 => some ⟨0x3F, true, true, false, true, false, 0, true⟩
  | 0x05 => some ⟨0x3F, true, true, true, true, false, 0, true⟩
  | 0x06 => some ⟨0x7FF, true, false, true, true, false, 0, true⟩
  | 0x07 => some ⟨1, true, true, true, false, false, 0, false⟩
  | 0x08 => some ⟨1, false, false, true, true, true, 0, false⟩
  | 0x09 => some ⟨0, true, true, false, false, false, 0, true⟩
  | 0x0A => some ⟨3, true, true, false, true, false, 0, true⟩
  | 0x0B => some ⟨0x1F, true, true, true, true, false, 0, false⟩
  | _ => none

/-- Whether a descriptor obeys the layout: every bit its row does not name is zero and its addresses are canonical. -/
def formOk (w : DWords) : Bool :=
  match opForm (dOp w) (dw w 0 17 16) with
  | none => false
  | some f =>
    let zero (use : Bool) (x : Nat) : Bool := use || x = 0
    dw w 0 15 10 = 0 && dw w 0 31 16 &&& f.p16 = dw w 0 31 16 && dw w 2 63 40 &&& f.p24 = dw w 2 63 40 &&
      dw w 4 63 40 = 0 && zero f.src (dSrc w) && zero f.slen (dSlen w) && zero f.dst (dDst w) && zero f.dst (dDlen w) &&
      zero f.aux (dAux w) && zero f.aux2 (dAux2 w) && zero f.p64 (dP64 w) &&
      canon57 (dSrc w) && canon57 (dDst w) && canon57 (dAux w) && (dOp w ≠ 2 || canon57 (dAux2 w))

/-- The range rules of the operations that need no memory (R456-R462). -/
def rangeOk (w : DWords) : Bool :=
  match dOp w with
  | 0x01 =>
    let fw := dw w 0 25 20
    decide (dw w 0 18 17 ≠ 3) && dAux w % 64 = 0 &&
      (if dw w 0 16 16 = 0 then decide (fw ≤ 6) && dSrc w % 2 ^ fw = 0 else dSrc w % 64 = 0)
  | 0x03 =>
    let ow := dw w 0 19 18
    let iw := dw w 0 25 20 + 1
    (match dw w 0 17 16 with
     | 0 => (iw = 8 || iw = 16 || iw = 32) && decide (dAux2 w ≤ 65536) && decide (dAux2 w * 2 ^ ow ≤ 65536)
     | 2 => decide (iw ≤ 8 * 2 ^ ow)
     | 3 => ow = 0
     | _ => true) && (dw w 0 26 26 = 0 || dw w 0 17 16 = 2)
  | 0x04 => decide (4 ≤ dw w 0 21 16) && decide (dw w 0 21 16 ≤ 32) && dAux w % 64 = 0 && dSlen w % 16 = 0
  | 0x05 => decide (4 ≤ dw w 0 21 16) && decide (dw w 0 21 16 ≤ 32) && dAux w % 64 = 0 && dSlen w % 8 = 0
  | 0x07 =>
    dSlen w % 16 = 0 && decide (dSlen w ≤ 65536) &&
      (decide (dSrc w + dSlen w ≤ dDst w) || decide (dDst w + dSlen w ≤ dSrc w) || dSlen w = 0)
  | 0x08 => decide (2 ≤ dAux2 w) && decide (dAux2 w ≤ 16)
  | 0x0A => dw w 0 17 17 = 1 || dSlen w % 64 = 0
  | _ => true

/-! ### Predicate programs (R454, R455) -/

/-- An operation word of a program. -/
def progOp (p : List Byte) (i : Nat) : Nat := leNat ((p.drop (4 * i)).take 4)

/-- A constant of a program. -/
def progK (p : List Byte) (j : Nat) : Nat := leNat ((p.drop (0x80 + 8 * j)).take 8)

/-- Operations used. -/
def progN (p : List Byte) : Nat := leNat ((p.drop 0xF8).take 8) % 64

/-- How an operation code moves the stack: bits popped and pushed; none for an unlisted code (Table STOK-7). -/
def opcStack (c : Nat) : Option (Nat × Nat) :=
  if 1 ≤ c ∧ c ≤ 10 then some (0, 1)
  else if 0x10 ≤ c ∧ c ≤ 0x12 then some (2, 1)
  else if c = 0x13 then some (1, 1)
  else if c = 0x14 then some (0, 1)
  else none

/-- Whether one operation is valid for values of `width` bits. -/
def progOpOk (width o : Nat) : Bool :=
  let ty := natBits o 7 5
  let wid := natBits o 22 17 + 1
  (opcStack (o % 32)).isSome && decide (ty ≤ 4) && decide (natBits o 26 23 ≠ 15) && decide (natBits o 30 27 ≠ 15) &&
    decide (natBits o 16 8 + wid ≤ width) &&
    (match ty with | 2 => wid = 16 | 3 => wid = 32 | 4 => wid = 64 | _ => true) && (decide (o % 32 ≠ 10) || ty = 0)

/-- The depth of the stack over the operations, none when it underflows or passes 8. -/
def progDepth : List Nat → Nat → Option Nat
  | [], d => some d
  | o :: t, d =>
    match opcStack (o % 32) with
    | some (a, b) => if d < a || 8 < d - a + b then none else progDepth t (d - a + b)
    | none => none

/-- Whether a program is valid (R454). -/
def progOk (p : List Byte) (width : Nat) : Bool :=
  let n := progN p
  let l := (List.range n).map (progOp p)
  decide (1 ≤ n) && decide (n ≤ 32) && l.all (progOpOk width) && progDepth l 0 = some 1

/-- A two's-complement reading of `w` bits. -/
def sgn (w x : Nat) : Int := if x.testBit (w - 1) then (x : Int) - 2 ^ w else x

/-- How a field compares with a constant, as the type says. -/
def fieldRel (ty wid f k : Nat) : Rel :=
  let ints (a b : Int) : Rel := if a < b then .lt else if a = b then .eq else .gt
  match ty with
  | 0 => ints f k
  | 1 => ints (sgn wid f) (sgn 64 k)
  | 2 => Fmt.b16.rel f (k % 2 ^ 16)
  | 3 => Fmt.b32.rel f (k % 2 ^ 32)
  | _ => Fmt.b64.rel f k

/-- One operation on the stack of bits (Table STOK-7). -/
def progStep (p : List Byte) (v : Nat) (st : List Bool) (o : Nat) : List Bool :=
  let ty := natBits o 7 5
  let off := natBits o 16 8
  let wid := natBits o 22 17 + 1
  let f := natBits v (off + wid - 1) off
  let k := progK p (natBits o 26 23)
  let k2 := progK p (natBits o 30 27)
  let fx := if ty = 1 then ((sgn wid f) % 2 ^ 64).toNat else f
  let r := fieldRel ty wid f k
  let two (g : Bool → Bool → Bool) : List Bool :=
    match st with | a :: b :: t => g b a :: t | _ => st
  match o % 32 with
  | 1 => (r = .eq) :: st
  | 2 => decide (r ≠ .eq) :: st
  | 3 => (r = .lt) :: st
  | 4 => (r = .lt || r = .eq) :: st
  | 5 => (r = .gt) :: st
  | 6 => (r = .gt || r = .eq) :: st
  | 7 => ((r = .gt || r = .eq) && (fieldRel ty wid f k2 = .lt || fieldRel ty wid f k2 = .eq)) :: st
  | 8 => ((fx &&& k) = k) :: st
  | 9 => decide (fx &&& k ≠ 0) :: st
  | 10 => (decide (f < 64) && k.testBit f) :: st
  | 0x10 => two (· && ·)
  | 0x11 => two (· || ·)
  | 0x12 => two xor
  | 0x13 => (match st with | a :: t => (!a) :: t | [] => [])
  | 0x14 => true :: st
  | _ => st

/-- Whether a value or row matches (R455). -/
def progEval (p : List Byte) (v : Nat) : Bool :=
  (((List.range (progN p)).map (progOp p)).foldl (progStep p v) []).headD false

/-! ### Running an operation -/

/-- An operation as far as it has run: state, output, a count, and why it stopped. -/
structure Run where
  s : State
  out : List Byte
  n : Nat
  stop : Option Stop

/-- Items `i`, `i + 1`, … of `m` taken in turn, each giving bytes of output and a count; output beyond `cap` bytes stops with
DST_FULL (R452). -/
def runItems (cap : Nat) (f : Nat → State → State × (List Byte × Nat) × Option Stop) : Nat → Nat → Run → Run
  | 0, _, r => r
  | m + 1, i, r =>
    match f i r.s with
    | (s, _, some e) => { r with s := s, stop := some e }
    | (s, b, none) =>
      if cap < r.out.length + b.1.length then { r with s := s, stop := some { status := 0x15 } }
      else runItems cap f m (i + 1) { r with s := s, out := r.out ++ b.1, n := r.n + b.2 }

/-- The end of an operation; none while it must wait. -/
def finOf (e : Option Stop) (r0 r1 : Nat) : Option Fin :=
  match e with
  | none => some ⟨0, r0, r1, 0, 0, false⟩
  | some e => if e.status = 256 then none else some ⟨e.status, r0, r1, e.addr, e.kind, e.s2⟩

/-- Output written to the destination; where the operation did not end OK, the rest of the destination holds what the spec leaves
undefined (R453).  While the operation must wait nothing is written. -/
def runOut (p : Port) (w : DWords) (r : Run) (r1 : Nat) : State × Option Fin :=
  match r.stop with
  | some { status := 256, .. } => (r.s, none)
  | _ =>
    match r.s.pWrite p (dDst w) r.out with
    | (s, n, e) =>
      let st := match e with | some x => some x | none => r.stop
      match finOf st n r1 with
      | none => (r.s, none)
      | some f =>
        if f.status = 0 then (s, some f)
        else (State.portFree p (dDlen w / 64 + 2) (dDst w + n) (dDlen w - n) s, some f)

/-- An operation that ended before it wrote anything. -/
def runNone (s : State) (e : Stop) : State × Option Fin := (s, finOf (some e) 0 0)

/-- BAD_DESC found while an operation's own tables are read: nothing is written. -/
def badDesc : Stop := { status := 0x10 }

/-- `n` bits from bit `b` of the data at `va`. -/
def State.pBits (s : State) (p : Port) (va b n : Nat) : State × Nat × Option Stop :=
  match s.pRead p (va + b / 8) ((b % 8 + n + 7) / 8) with
  | (s, l, e) => (s, natBits (leNat l) (b % 8 + n - 1) (b % 8), e)

/-- Bits packed into bytes, bit 0 lowest. -/
def packBits : List Bool → Nat
  | [] => 0
  | b :: t => (if b then 1 else 0) + 2 * packBits t

/-- A bitmap of 8-byte units, padding bits zero (R456). -/
def bitmapBytes (l : List Bool) : List Byte := leBytes ((l.length + 63) / 64 * 8) (packBits l)

/-- Bytes that hold a value of `n` bits: 1, 2, 4 or 8 (R456). -/
def valBytes (n : Nat) : Nat := if n ≤ 8 then 1 else if n ≤ 16 then 2 else if n ≤ 32 then 4 else 8

/-! ### FILTER (R456) -/

/-- Width in bits of the values or rows of a FILTER. -/
def filterWidth (w : DWords) : Nat := if dw w 0 16 16 = 0 then 8 * 2 ^ dw w 0 25 20 else dw w 0 25 20 + 1

/-- Value or row `i` of a FILTER read. -/
def State.filterItem (s : State) (p : Port) (w : DWords) (i : Nat) : State × Nat × Option Stop :=
  if dw w 0 16 16 = 0 then s.pBits p (dSrc w) (8 * 2 ^ dw w 0 25 20 * i) (8 * 2 ^ dw w 0 25 20)
  else s.pBits p (dSrc w) (dw w 2 48 40 + i * (dw w 0 25 20 + 1)) (dw w 0 25 20 + 1)

/-- The bytes a matching item gives in compacted output. -/
def compactItem (w : DWords) (v : Nat) : List Byte :=
  if dw w 0 16 16 = 0 then leBytes (2 ^ dw w 0 25 20) v else leBytes (valBytes (dw w 0 25 20 + 1)) v

/-- The output bitmap of a run that found the matches `l` (one byte each, 1 for a match), and its stop. -/
def bitmapRun (cap : Nat) (r : Run) : Run :=
  let l := r.out.map (fun b => decide (b ≠ 0))
  let full := bitmapBytes l
  let part := if r.stop.isSome then full.take (l.length / 8) else full
  if cap < part.length then { r with out := part.take cap, stop := some { status := 0x15 } } else { r with out := part }

/-- FILTER evaluated by the firebox. -/
def runFilter (p : Port) (w : DWords) (prog : List Byte) (s : State) : State × Option Fin :=
  let out := dw w 0 18 17
  let item (i : Nat) (s : State) : State × (List Byte × Nat) × Option Stop :=
    match s.filterItem p w i with
    | (s, v, e) =>
      let m := progEval prog v
      (s, (if out = 1 then (if m then compactItem w v else []) else if out = 0 then [if m then 1 else 0] else [],
           if m then 1 else 0), e)
  let r := runItems (if out = 0 then 2 ^ 64 else dDlen w) item (dP64 w) 0 { s := s, out := [], n := 0, stop := none }
  runOut p w (if out = 0 then bitmapRun (dDlen w) r else r) r.n

/-! ### PROJECT (R457) -/

/-- Whether a field descriptor fits rows of `bits` bits. -/
def fieldOk (bits f : Nat) : Bool :=
  natBits f 63 24 = 0 && decide (natBits f 14 0 + natBits f 20 15 + 1 ≤ bits) &&
    decide (natBits f 20 15 + 1 ≤ 8 * 2 ^ natBits f 22 21)

/-- A field of a row as it is written. -/
def fieldOut (f row : Nat) : List Byte :=
  let n := natBits f 20 15 + 1
  let x := natBits row (natBits f 14 0 + n - 1) (natBits f 14 0)
  let b := 2 ^ natBits f 22 21
  leBytes b (if natBits f 23 23 = 1 then ((sgn n x) % (2 ^ (8 * b) : Nat)).toNat else x)

/-- PROJECT. -/
def runProject (p : Port) (w : DWords) (s : State) : State × Option Fin :=
  let rb := dw w 2 51 40 + 1
  let nf := dw w 0 20 16 + 1
  match s.pRead p (dAux w) (8 * nf) with
  | (s1, _, some e) => runNone s1 e
  | (s1, l, none) =>
    let fs := (List.range nf).map (fun i => leNat ((l.drop (8 * i)).take 8))
    if !fs.all (fieldOk (8 * rb)) then runNone s1 badDesc
    else
      let item (i : Nat) (s : State) : State × (List Byte × Nat) × Option Stop :=
        let sel := if dAux2 w = 0 then (s, 1, none) else s.pBits p (dAux2 w) i 1
        match sel with
        | (s, _, some e) => (s, ([], 0), some e)
        | (s, b, none) =>
          if b = 0 then (s, ([], 0), none)
          else
            match s.pRead p (dSrc w + i * rb) rb with
            | (s, _, some e) => (s, ([], 0), some e)
            | (s, r, none) => (s, (fs.flatMap (fun f => fieldOut f (leNat r)), 1), none)
      let r := runItems (dDlen w) item (dP64 w) 0 { s := s1, out := [], n := 0, stop := none }
      runOut p w r r.n

/-! ### DECOMP (R458) -/

/-- A length extension of the LZ4 block format: the length and what follows; none when the input ends inside it. -/
def lz4Len : List Byte → Nat → Option (Nat × List Byte)
  | [], _ => none
  | b :: t, n => if b.toNat = 255 then lz4Len t (n + 255) else some (n + b.toNat, t)

/-- A match copied byte by byte; `rev` is the output, newest byte first. -/
def lz4Copy (off : Nat) : Nat → List Byte → List Byte
  | 0, rev => rev
  | n + 1, rev => lz4Copy off n (nth 0 rev (off - 1) :: rev)

/-- An LZ4 block decoded: output (newest first), whether it is sound, and whether the input ran out inside a sequence.  `whole` says
that the input is all there is. -/
def lz4Go : Nat → List Byte → List Byte → List Byte × Bool
  | 0, _, rev => (rev, false)
  | _ + 1, [], rev => (rev, false)
  | m + 1, tok :: t, rev =>
    let ll := tok.toNat / 16
    match (if ll = 15 then lz4Len t 15 else some (ll, t)) with
    | none => (rev, false)
    | some (n, t) =>
      if t.length < n then ((t.reverse ++ rev), false)
      else
        let rev := (t.take n).reverse ++ rev
        match t.drop n with
        | [] => (rev, true)
        | [_] => (rev, false)
        | a :: b :: t =>
          let off := a.toNat + 256 * b.toNat
          if off = 0 || rev.length < off then (rev, false)
          else
            match (if tok.toNat % 16 = 15 then lz4Len t 15 else some (tok.toNat % 16, t)) with
            | none => (rev, false)
            | some (ml, t) => lz4Go m t (lz4Copy off (ml + 4) rev)

/-- DECOMP. -/
def runDecomp (p : Port) (w : DWords) (s : State) : State × Option Fin :=
  let ow := 2 ^ dw w 0 19 18
  let iw := dw w 0 25 20 + 1
  let r0 : Run := { s := s, out := [], n := 0, stop := none }
  let cap := dDlen w
  match dw w 0 17 16 with
  | 0 =>
    let item (i : Nat) (s : State) : State × (List Byte × Nat) × Option Stop :=
      match s.pRead p (dSrc w + i * (iw / 8)) (iw / 8) with
      | (s, _, some e) => (s, ([], 0), some e)
      | (s, c, none) =>
        if dAux2 w ≤ leNat c then (s, ([], 0), some { status := 0x16 })
        else
          match s.pRead p (dAux w + leNat c * ow) ow with
          | (s, _, some e) => (s, ([], 0), some e)
          | (s, v, none) => (s, (v, 1), none)
    let r := runItems cap item (dP64 w) 0 r0
    runOut p w r r.n
  | 1 =>
    let pair := 4 + ow
    let item (i : Nat) (s : State) : State × (List Byte × Nat) × Option Stop :=
      let left := dSlen w - i * pair
      match s.pRead p (dSrc w + i * pair) (min left pair) with
      | (s, _, some e) => (s, ([], 0), some e)
      | (s, b, none) =>
        let n := leNat (b.take 4)
        if left < pair || n = 0 then (s, ([], 0), some { status := 0x16 })
        else (s, (b, 0), none)
    let pairs := runItems (2 ^ 64) item ((dSlen w + pair - 1) / pair) 0 r0
    let grow (r : Run) (i : Nat) : Run :=
      if r.stop.isSome then r
      else
        let b := (pairs.out.drop (i * pair)).take pair
        let n := leNat (b.take 4)
        let fit := min n ((cap - r.out.length) / ow)
        { r with out := r.out ++ (List.replicate fit (b.drop 4)).flatten, n := r.n + fit
                 stop := if fit < n then some { status := 0x15 } else none }
    let r := (List.range (pairs.out.length / pair)).foldl grow { pairs with out := [], stop := none }
    let r := { r with stop := match r.stop with | some e => some e | none => pairs.stop }
    runOut p w (if pairs.stop = some .wait then pairs else r) r.n
  | 2 =>
    let item (i : Nat) (s : State) : State × (List Byte × Nat) × Option Stop :=
      match s.pBits p (dSrc w) (dw w 2 42 40 + i * iw) iw with
      | (s, v, e) =>
        (s, (leBytes ow (if dw w 0 26 26 = 1 then ((sgn iw v) % (2 ^ (8 * ow) : Nat)).toNat else v), 1), e)
    let r := runItems cap item (dP64 w) 0 r0
    runOut p w r r.n
  | _ =>
    match s.pRead p (dSrc w) (dSlen w) with
    | (s1, b, e) =>
      let d := lz4Go (b.length + 1) b []
      let out := d.1.reverse
      let stop := if e = some .wait then e else if cap < out.length then some { status := 0x15 } else if e.isSome then e
        else if d.2 then none else some { status := 0x16 }
      runOut p w { s := s1, out := out.take cap, n := 0, stop := stop } (min cap out.length)

/-! ### HASHBUILD and HASHPROBE (R459) -/

/-- The home bucket of a key. -/
def hashHome (w : DWords) (key : Nat) : Nat := crc32c (dw w 7 31 0) key 8 % 2 ^ dw w 0 21 16

/-- One record put in the table: the buckets visited, or why it stopped; `m` buckets may still be visited. -/
def State.hashPut (p : Port) (w : DWords) (b : Nat) (rec : List Byte) : Nat → Nat → State → State × Nat × Option Stop
  | 0, d, s => (s, d, some { status := 0x18 })
  | m + 1, d, s =>
    let va := dAux w + 64 * ((b + d) % 2 ^ dw w 0 21 16)
    match s.portXlate p Acc.atomic va with
    | (s, .error e) => (s, d, some e)
    | (s, .ok t) =>
      match s.agentHadd p.x.who p.x.sock t.pa 1 with
      | (s, _, some e) => (s, d, some { e with addr := va % 2 ^ 57 })
      | (s, old, none) =>
        if old < 3 then
          match s.pWrite p (va + 16 * (old + 1)) rec with
          | (s, _, e) => (s, d + 1, e)
        else State.hashPut p w b rec m (d + 1) s

/-- HASHBUILD: records inserted and the longest probe, in buckets visited.  One that must wait goes on with its next record. -/
def runBuild (p : Port) (w : DWords) (s : State) : State × Option Fin :=
  let d0 := ((p.desc.bind s.descAt).map (·.done)).getD (0, 0)
  let go (r : Run × Nat) (i : Nat) : Run × Nat :=
    if r.1.stop.isSome then r
    else
      match r.1.s.pRead p (dSrc w + 16 * (d0.1 + i)) 16 with
      | (s, _, some e) => ({ r.1 with s := s, stop := some e }, r.2)
      | (s, b, none) =>
        match State.hashPut p w (hashHome w (leNat (b.take 8))) b 16 0 s with
        | (s', d, some e) => ({ r.1 with s := if e.status = 256 then s else s', stop := some e }, if e.status = 256 then r.2 else max r.2 d)
        | (s, d, none) => ({ r.1 with s := s, n := r.1.n + 1 }, max r.2 d)
  let r := (List.range (dSlen w / 16 - d0.1)).foldl go ({ s := s, out := [], n := d0.1, stop := none }, d0.2)
  match finOf r.1.stop r.1.n r.2 with
  | none => (match p.desc with | some d => r.1.s.updDescAt d (fun e => { e with done := (r.1.n, r.2) }) | none => r.1.s, none)
  | some f => (if f.status = 0 then r.1.s else State.portFree p (2 ^ dw w 0 21 16 + 2) (dAux w) (64 * 2 ^ dw w 0 21 16) r.1.s, some f)

/-- The records found for one key; `m` buckets may still be visited. -/
def State.hashGet (p : Port) (w : DWords) (key idx b : Nat) : Nat → Nat → List Byte → State → State × List Byte × Option Stop
  | 0, _, out, s => (s, out, none)
  | m + 1, d, out, s =>
    match s.pRead p (dAux w + 64 * ((b + d) % 2 ^ dw w 0 21 16)) 64 with
    | (s, _, some e) => (s, out, some e)
    | (s, l, none) =>
      let c := leNat (l.take 8)
      let found := (List.range (min c 3)).flatMap (fun j =>
        let e := (l.drop (16 * (j + 1))).take 16
        if leNat (e.take 8) = key then leBytes 8 idx ++ e.drop 8 else [])
      if 3 ≤ c then State.hashGet p w key idx b m (d + 1) (out ++ found) s else (s, out ++ found, none)

/-- HASHPROBE. -/
def runProbe (p : Port) (w : DWords) (s : State) : State × Option Fin :=
  let item (i : Nat) (s : State) : State × (List Byte × Nat) × Option Stop :=
    match s.pRead p (dSrc w + 8 * i) 8 with
    | (s, _, some e) => (s, ([], 0), some e)
    | (s, k, none) =>
      match State.hashGet p w (leNat k) i (hashHome w (leNat k)) 16 0 [] s with
      | (s, out, e) => (s, (out, out.length / 16), e)
  let r := runItems (dDlen w) item (dSlen w / 8) 0 { s := s, out := [], n := 0, stop := none }
  runOut p w r r.n

/-! ### AGG (R460) -/

/-- A group's record: sum, count, minimum, maximum, and whether the sum has saturated. -/
structure Grp where
  sum : Nat
  count : Nat
  min : Nat
  max : Nat
  sat : Bool
deriving DecidableEq, Repr

/-- A group before its first row. -/
def Grp.start (fp : Bool) : Grp :=
  if fp then ⟨0, 0, Fmt.b64.inf false, Fmt.b64.inf true, false⟩ else ⟨0, 0, 2 ^ 63 - 1, 2 ^ 63, false⟩

/-- A group with one more row. -/
def Grp.row (fp : Bool) (g : Grp) (v : Nat) : Grp :=
  if fp then
    ⟨(Fmt.b64.add 0 g.sum v).1, (g.count + 1) % 2 ^ 64, (Fmt.b64.minmax false g.min v).1, (Fmt.b64.minmax true g.max v).1, false⟩
  else
    let x := sgn 64 g.sum + sgn 64 v
    let runover := x < -(2 ^ 63) || 2 ^ 63 ≤ x
    let sum := if g.sat then g.sum else if x < -(2 ^ 63) then 2 ^ 63 else if 2 ^ 63 ≤ x then 2 ^ 63 - 1 else (x % 2 ^ 64).toNat
    ⟨sum, (g.count + 1) % 2 ^ 64, if sgn 64 v < sgn 64 g.min then v else g.min,
     if sgn 64 g.max < sgn 64 v then v else g.max, g.sat || runover⟩

/-- AGG. -/
def runAgg (p : Port) (w : DWords) (s : State) : State × Option Fin :=
  let fp := dw w 0 16 16 = 1
  let gw := 1 + dw w 0 17 17
  let ng := dw w 0 26 19 + 1
  if dDlen w < 32 * ng then
    runOut p w { s := s, out := [], n := 0, stop := some { status := 0x15 } } 0
  else
    let init : State × List Byte × Option Stop := if dw w 0 18 18 = 1 then s.pRead p (dDst w) (32 * ng) else (s, [], none)
    match init with
    | (s1, _, some e) => runOut p w { s := s1, out := [], n := 0, stop := some e } 0
    | (s1, b, none) =>
      let word (i j : Nat) : Nat := leNat ((b.drop (32 * i + 8 * j)).take 8)
      let gs := (List.range ng).map (fun i =>
        if dw w 0 18 18 = 1 then ⟨word i 0, word i 1, word i 2, word i 3, false⟩ else Grp.start fp)
      let go (r : State × List Grp × Nat × Option Stop) (i : Nat) : State × List Grp × Nat × Option Stop :=
        if r.2.2.2.isSome then r
        else
          match r.1.pRead p (dSrc w + i * gw) gw with
          | (s, _, some e) => (s, r.2.1, r.2.2.1, some e)
          | (s, c, none) =>
            match s.pRead p (dAux w + 8 * i) 8 with
            | (s, _, some e) => (s, r.2.1, r.2.2.1, some e)
            | (s, v, none) =>
              let g := leNat c
              if ng ≤ g then (s, r.2.1, r.2.2.1 + 1, none)
              else (s, setNth r.2.1 g ((nth (Grp.start fp) r.2.1 g).row fp (leNat v)), r.2.2.1, none)
      let r := (List.range (dP64 w)).foldl go (s1, gs, 0, none)
      match r.2.2.2 with
      | some e => runOut p w { s := r.1, out := [], n := 0, stop := some e } 0
      | none =>
        let out := r.2.1.flatMap (fun g => leBytes 8 g.sum ++ leBytes 8 g.count ++ leBytes 8 g.min ++ leBytes 8 g.max)
        match runOut p w { s := r.1, out := out, n := 0, stop := none } r.2.2.1 with
        | (s, some f) => (s, some (if f.status = 0 then { f with r0 := (r.2.1.filter (·.sat)).length } else { f with r1 := 0 }))
        | x => x

/-! ### SORTRUN and MERGE (R461) -/

/-- The key of a record. -/
def recKey (b : List Byte) : Nat := leNat (b.take 8)

/-- Whether record `a` must leave after record `b`. -/
def recAfter (desc : Bool) (a b : List Byte) : Bool := if desc then recKey a < recKey b else recKey b < recKey a

/-- A record put behind every record it need not precede. -/
def recInsert (desc : Bool) (x : List Byte) : List (List Byte) → List (List Byte)
  | [] => [x]
  | y :: t => if recAfter desc y x then x :: y :: t else y :: recInsert desc x t

/-- SORTRUN: a stable sort. -/
def runSort (p : Port) (w : DWords) (s : State) : State × Option Fin :=
  match s.pRead p (dSrc w) (dSlen w) with
  | (s1, _, some e) => runOut p w { s := s1, out := [], n := 0, stop := some e } 0
  | (s1, b, none) =>
    let recs := (List.range (dSlen w / 16)).map (fun i => (b.drop (16 * i)).take 16)
    let out := (recs.foldl (fun l x => recInsert (dw w 0 16 16 = 1) x l) []).flatten
    runOut p w { s := s1, out := out.take (dDlen w / 16 * 16), n := 0
                 stop := if dDlen w < out.length then some { status := 0x15 } else none } 0

/-- A run being merged: address, records left, and the last key taken. -/
structure MRun where
  va : Nat
  left : Nat
  last : Option Nat
deriving DecidableEq, Repr

/-- The heads of the runs read: run number and record, in run-table order, or why a head could not be taken. -/
def mergeHeads (p : Port) (desc : Bool) : List (Nat × MRun) → State → State × List (Nat × List Byte) × Option Stop
  | [], s => (s, [], none)
  | (i, r) :: t, s =>
    if r.left = 0 then mergeHeads p desc t s
    else
      match s.pRead p r.va 16 with
      | (s, _, some e) => (s, [], some e)
      | (s, b, none) =>
        let wrong := match r.last with | none => false | some k => if desc then decide (k < recKey b) else decide (recKey b < k)
        if wrong then (s, [], some { status := 0x16, addr := r.va % 2 ^ 57 })
        else
          match mergeHeads p desc t s with
          | (s, l, e) => (s, (i, b) :: l, e)

/-- The first of the heads that no other precedes. -/
def mergePick (desc : Bool) : List (Nat × List Byte) → Option (Nat × List Byte)
  | [] => none
  | h :: t =>
    match mergePick desc t with
    | none => some h
    | some g => if recAfter desc h.2 g.2 then some g else some h

/-- The merge, `m` records at most. -/
def mergeGo (p : Port) (desc : Bool) (cap : Nat) : Nat → List MRun → Run → Run
  | 0, _, r => r
  | m + 1, l, r =>
    match mergeHeads p desc ((List.range l.length).zip l) r.s with
    | (s, _, some e) => { r with s := s, stop := some e }
    | (s, hs, none) =>
      match mergePick desc hs with
      | none => { r with s := s }
      | some (i, b) =>
        if cap < r.out.length + 16 then { r with s := s, stop := some { status := 0x15 } }
        else
          let x := nth { va := 0, left := 0, last := none } l i
          mergeGo p desc cap m (setNth l i { va := x.va + 16, left := x.left - 1, last := some (recKey b) })
            { r with s := s, out := r.out ++ b, n := r.n + 1 }

/-- MERGE. -/
def runMerge (p : Port) (w : DWords) (s : State) : State × Option Fin :=
  match s.pRead p (dAux w) (16 * dAux2 w) with
  | (s1, _, some e) => runOut p w { s := s1, out := [], n := 0, stop := some e } 0
  | (s1, b, none) =>
    let l := (List.range (dAux2 w)).map (fun i =>
      { va := leNat ((b.drop (16 * i)).take 8), left := leNat ((b.drop (16 * i + 8)).take 8), last := none : MRun })
    if !l.all (fun r => canon57 r.va) then runNone s1 badDesc
    else
      let r := mergeGo p (dw w 0 16 16 = 1) (dDlen w) ((l.map (·.left)).foldl (· + ·) 0 + 1) l
        { s := s1, out := [], n := 0, stop := none }
      runOut p w r r.n

/-! ### CRC32C, SHA256, AESGCM (R462) -/

/-- CRC32C. -/
def runCrc (p : Port) (w : DWords) (s : State) : State × Option Fin :=
  match s.pRead p (dSrc w) (dSlen w) with
  | (s1, _, some e) => runNone s1 e
  | (s1, b, none) => (s1, finOf none 0 (crcBytes (dw w 7 31 0) b))

/-- SHA256: the state is eight big-endian words at AUX. -/
def runSha (p : Port) (w : DWords) (s : State) : State × Option Fin :=
  let start : State × List Nat × Option Stop :=
    if dw w 0 16 16 = 1 then (s, shaInit, none)
    else
      match s.pRead p (dAux w) 32 with
      | (s, b, e) => (s, (List.range 8).map (fun i => beNat ((b.drop (4 * i)).take 4)), e)
  let lost (s1 : State) (e : Stop) : State × Option Fin :=
    if e.status = 256 then (s1, none) else (State.portFree p 2 (dAux w) 32 s1, finOf (some e) 0 0)
  match start with
  | (s1, _, some e) => lost s1 e
  | (s1, h, none) =>
    match s1.pRead p (dSrc w) (dSlen w) with
    | (s2, _, some e) => lost s2 e
    | (s2, b, none) =>
      let m := if dw w 0 17 17 = 1 then
          b ++ 0x80 :: List.replicate ((119 - b.length % 64) % 64) 0 ++ beBytes 8 (8 * (dP64 w + b.length))
        else b
      match s2.pWrite p (dAux w) (shaOut (shaBlocks (m.length / 64) h m)) with
      | (s3, _, some e) => lost s3 e
      | (s3, _, none) => (s3, finOf none (dSlen w) 0)

/-- AESGCM under key `key`; decryption compares the tag (R462, R453 for TAG_FAIL). -/
def runGcm (p : Port) (w : DWords) (key : List Byte) (s : State) : State × Option Fin :=
  let dec := dw w 0 16 16 = 1
  let stopAt (s1 : State) (e : Stop) : State × Option Fin := runOut p w { s := s1, out := [], n := 0, stop := some e } 0
  match s.pRead p (dAux w) 64 with
  | (s1, _, some e) => stopAt s1 e
  | (s1, b, none) =>
    match s1.pRead p (leNat ((b.drop 0x10).take 8)) (leNat ((b.drop 0x18).take 8)) with
    | (s2, _, some e) => stopAt s2 e
    | (s2, aad, none) =>
      match s2.pRead p (dSrc w) (dSlen w) with
      | (s3, t, some e) =>
        if dec then stopAt s3 e
        else runOut p w { s := s3, out := (gcm key (b.take 12) aad t dec).1.take (dDlen w), n := 0, stop := some e } 0
      | (s3, t, none) =>
        let r := gcm key (b.take 12) aad t dec
        if dDlen w < dSlen w then
          runOut p w { s := s3, out := if dec then [] else r.1.take (dDlen w), n := 0, stop := some { status := 0x15 } } 0
        else if dec then
          if r.2 = (b.drop 0x20).take 16 then runOut p w { s := s3, out := r.1, n := 0, stop := none } 0
          else stopAt s3 { status := 0x17 }
        else
          match s3.pWrite p (dAux w + 0x20) r.2 with
          | (s4, _, some e) => stopAt s4 e
          | (s4, _, none) => runOut p w { s := s4, out := r.1, n := 0, stop := none } 0

/-- What an operation stopped in the middle leaves undefined: its destination, a build's table, a hash's state block (R453). -/
def State.opUndef (s : State) (p : Port) (w : DWords) : State :=
  match opForm (dOp w) (dw w 0 17 16) with
  | none => s
  | some f =>
    let s := if f.dst then State.portFree p (dDlen w / 64 + 2) (dDst w) (dDlen w) s else s
    match dOp w with
    | 0x04 => State.portFree p (2 ^ dw w 0 21 16 + 2) (dAux w) (64 * 2 ^ dw w 0 21 16) s
    | 0x0A => State.portFree p 2 (dAux w) 32 s
    | _ => s

end Sys2Proof.Machine
end

