-- ==== Sys2Proof/Machine/Stoker.lean ====
section
/-!
DEFINITION. Machine/Stoker.lean: the Stoker cells' channels, rings, resets, mailboxes and firebox slices (R439-R479), and the Riddle
units that filter at the memory channels (R430-R435, R463-R465).
-/
namespace Sys2Proof.Machine

/-! ### Places -/

/-- The key of a channel: socket, cell, channel. -/
def chKey (k cell c : Nat) : Nat := (k * 8 + cell) * 64 + c

/-- Where the registers of a channel stand. -/
def chIx (k cell c : Nat) : Ix := { sock := k, inst := cell, i := c }

/-- A channel beside its registers. -/
def State.stk (s : State) (k cell c : Nat) : StkCh := cellGet StkCh.idle s.stkChs (chKey k cell c)

/-- A channel's record changed; INFL and the cell's free slots follow (Tables STOK-10, STOK-11). -/
def State.updStk (s : State) (k cell c : Nat) (f : StkCh → StkCh) : State :=
  let s : State := { s with stkChs := cellSet StkCh.idle s.stkChs (chKey k cell c) (f (s.stk k cell c)) }
  let s := s.wr Reg.stkChInfl (chIx k cell c) (s.stk k cell c).infl.length
  let used := (List.range 64).foldl (fun n i => n + (s.stk k cell i).infl.length) 0
  s.wr Reg.stkOccSlotfree { sock := k, inst := cell } (256 - used)

/-- A cell beside its registers. -/
def State.cell (s : State) (k cell : Nat) : StkCell := cellGet StkCell.idle s.stkCells (k * 8 + cell)

/-- A cell's record changed. -/
def State.updCell (s : State) (k cell : Nat) (f : StkCell → StkCell) : State :=
  { s with stkCells := cellSet StkCell.idle s.stkCells (k * 8 + cell) (f (s.cell k cell)) }

/-- A Riddle unit. -/
def State.rid (s : State) (k n : Nat) : Rid := cellGet Rid.idle s.rids (k * 16 + n)

/-- A Riddle changed; its occupancy follows (Table MEMC-12). -/
def State.updRid (s : State) (k n : Nat) (f : Rid → Rid) : State :=
  let s : State := { s with rids := cellSet Rid.idle s.rids (k * 16 + n) (f (s.rid k n)) }
  let l := (s.rid k n).queue.length
  s.wrs { sock := k, inst := n } [(Reg.ridOccItems, l), (Reg.ridOccAssured, if 16 ≤ l then 1 else 0)]

/-- Whether the cell exists on the part and is powered (R439, R554). -/
def State.stkOn (s : State) (k cell : Nat) : Bool :=
  (s.part k).full && decide (cell < 8) && (s.rd Reg.pwrUpwrStatStk { sock := k }).testBit cell && s.live k

/-- A channel's state (Table STOK-1). -/
def State.chState (s : State) (k cell c : Nat) : Nat := s.rd Reg.stkChState (chIx k cell c)

/-- A channel's state set; the tenant page shows it too. -/
def State.setChState (s : State) (k cell c v : Nat) : State :=
  (s.wr Reg.stkChState (chIx k cell c) v).wr Reg.stkTpStatusState (chIx k cell c) v

/-- Whether a channel number of a cell of the part is named. -/
def State.hasCh (s : State) (k cell c : Nat) : Bool := s.stkOn k cell && decide (c < 64)

/-- The context of a channel (R442, R147 for one assigned to a Vault instance). -/
def State.stkPort (s : State) (k cell c : Nat) : Port :=
  let a := chIx k cell c
  let adu := s.rd Reg.stkChCfgAdu a = 1
  { key := 2 ^ 40 + chKey k cell c
    x := { sock := k, s1 := s.rd Reg.stkChXlatEn a = 1, s2 := s.rd Reg.stkChXlatS2 a = 1
           root1 := s.rd Reg.stkChPtb a * 4096, root2 := s.rd Reg.stkChPtb2 a * 4096, adu := adu, s2adu := adu
           world := if s.rd Reg.stkChCfgVault a = 1 then some (s.lowSock k * 64 + s.rd Reg.stkChCfgInstance a) else none
           sid := s.rd Reg.stkChXlatSid a, vm := s.rd Reg.stkChXlatVmid a
           kr0 := BitVec.ofNat 64 (s.rd Reg.stkChKr0 a), kr1 := BitVec.ofNat 64 (s.rd Reg.stkChKr1 a), queue := []
           who := cellAgent k cell } }

/-! ### Notices (R449) -/

/-- The channel's interrupt goes out, or is held while the channel is between worlds (R155). -/
def State.stkIrq (s : State) (k cell c : Nat) : State :=
  if (s.stk k cell c).hold then s.updStk k cell c (fun x => { x with irq := true })
  else if s.rd Reg.stkTpCtlIrqen (chIx k cell c) = 1 && s.rd Reg.stkChRouteValid (chIx k cell c) = 1 then
    s.msgInt k (s.rd Reg.stkChRouteIndex (chIx k cell c))
  else s

/-- A status bit of the tenant page set; when it was clear the channel's interrupt goes out. -/
def State.stkTell (s : State) (k cell c : Nat) (f : Fld) : State :=
  let a := chIx k cell c
  if s.rd f a = 1 then s
  else (s.wr f a 1).stkIrq k cell c

/-- Bit `c` of a pending register of the physical function set; when it was clear its interrupt goes out. -/
def State.stkPf (s : State) (k cell c : Nat) (f : Fld) : State :=
  let a : Ix := { sock := k, inst := cell }
  let v := s.rd f a
  if v.testBit c then s
  else
    let s := s.wr f a (v ||| 2 ^ c)
    if s.rd Reg.stkPfintValid a = 1 then s.msgInt k (s.rd Reg.stkPfintRoute a) else s

/-! ### Resets and errors (R471, R474, R475) -/

/-- How a descriptor stopped before its end completes. -/
def Fin.stopped (status : Nat) : Fin := ⟨status, 0, 0, 0, 0, false⟩

/-- Item segments of a cell that nobody needs any more freed. -/
def StkCell.free (c : StkCell) : StkCell := { c with segs := c.segs.filter (fun u => u.live || !u.left.isEmpty) }

/-- The segments of a descriptor's runs given up by the cell. -/
def State.dropSplit (s : State) (k cell : Nat) (d : Desc) : State :=
  match d.split with
  | none => s
  | some sp =>
    s.updCell k cell (fun x => StkCell.free { x with segs := x.segs.map (fun u =>
      if sp.runs.any (fun r => r.tag = some u.tag) then { u with live := false } else u) })

/-- A descriptor of a channel changed. -/
def State.updDesc (s : State) (k cell c idx : Nat) (f : Desc → Desc) : State :=
  s.updStk k cell c (fun x => { x with infl := x.infl.map (fun d => if d.idx = idx then f d else d) })

/-- How a descriptor ended noted. -/
def State.setFin (s : State) (k cell c idx : Nat) (f : Fin) : State :=
  match (s.stk k cell c).infl.find? (fun d => d.idx = idx) with
  | none => s
  | some d => (s.dropSplit k cell d).updDesc k cell c idx (fun d => { d with fin := some f, split := none, memo := [] })

/-- Step 3 of Table STOK-9: what is unfinished is stopped, what it was writing undefined (R453), and every Riddle is sent a drain
(R435). -/
def State.stkStop (s : State) (k cell c : Nat) : State :=
  let ds := (s.stk k cell c).infl.filter (fun d => d.fin.isNone)
  let s := ds.foldl (fun s d =>
    (if d.started then s.opUndef (s.stkPort k cell c) d.w else s).setFin k cell c d.idx
      { Fin.stopped 0x02 with r0 := if dOp d.w = 4 then d.done.1 else 0 }) s
  s.updStk k cell c (fun x => { x with rst := 3, drains := List.range 16 })

/-- A channel enters ERROR (R471). -/
def State.stkError (s : State) (k cell c cause : Nat) : State :=
  let a := chIx k cell c
  let s := (s.setChState k cell c 2).wrs a [(Reg.stkChErrcause, cause), (Reg.stkTpStatusErrcause, cause)]
  let s := (s.stkTell k cell c Reg.stkTpStatusError).stkPf k cell c Reg.stkErrpend
  (s.stkStop k cell c).updStk k cell c (fun x => { x with err := true })

/-- A reset of a channel requested (step 1 of Table STOK-9); `hold` leaves it HELD at the end.  One that is draining joins the reset
under way; a quarantined one is left only by a cell reset. -/
def State.stkReset (s : State) (k cell c : Nat) (hold : Bool) : State :=
  let st := s.chState k cell c
  let s := if hold then s.updStk k cell c (fun x => { x with hold := true }) else s
  if st = 3 || st = 5 then s
  else
    let ds := (s.stk k cell c).infl.filter (fun d => d.fin.isNone && !d.started)
    let s := s.setChState k cell c 3
    let s := ds.foldl (fun s d => s.setFin k cell c d.idx (Fin.stopped 0x01)) s
    s.updStk k cell c (fun x => { x with rst := 1, err := false, hold := x.hold || st = 4 })

/-- CHANNEL_RESET_REQUEST by the tenant or by the manager; a tenant's is ignored in HELD or QUARANTINED (R474). -/
def State.stkResetReq (s : State) (k cell c : Nat) (tenant : Bool) : State :=
  let st := s.chState k cell c
  if !s.hasCh k cell c || (tenant && (st = 4 || st = 5)) then s
  else if !tenant && s.rd Reg.stkChCfgVault (chIx k cell c) = 1 then s
  else s.stkReset k cell c false

/-- CHANNEL_RESET_REQUEST. -/
def execChannelResetRequest (k cell c : Nat) (tenant : Bool) (s : State) : Host.Outcome State Fault Refusal :=
  .next (s.stkResetReq k cell c tenant)

/-- A write of 1 to STK k CTL.RESET: every channel is reset and a quarantined one released (R477). -/
def State.stkCtlReset (s : State) (k cell : Nat) : State :=
  if !s.stkOn k cell then s
  else
    (List.range 64).foldl (fun s c =>
      let s := if s.chState k cell c = 5 then s.setChState k cell c 0 else s
      s.stkReset k cell c false) s

/-- STK_CTL_RESET. -/
def execStkCtlReset (k cell : Nat) (s : State) : Host.Outcome State Fault Refusal := .next (s.stkCtlReset k cell)

/-- DRAIN_TIMER_EXPIRY: 50 µs after the request what is unfinished stops (step 3). -/
def execDrainTimerExpiry (k cell c : Nat) (s : State) : Host.Outcome State Fault Refusal :=
  .next (
    let x := s.stk k cell c
    if s.chState k cell c = 3 && x.rst = 1 && x.infl.any (fun d => d.fin.isNone) then s.stkStop k cell c else s)

/-- The end of a channel's reset: its rings emptied, its keys, mailbox and translations cleared (step 4). -/
def State.chanEmpty (s : State) (k cell c : Nat) : State :=
  let x := s.stk k cell c
  let a := chIx k cell c
  let s := s.wrs a [(Reg.stkTpSqhead, 0), (Reg.stkTpSqtail, 0), (Reg.stkTpCqhead, 0), (Reg.stkTpCqtail, 0),
    (Reg.stkTpCqphase, 1), (Reg.stkTpMboxTxbusy, 0), (Reg.stkTpMboxRxpend, 0), (Reg.stkTpMboxTxseq, 0),
    (Reg.stkTpMboxRxseq, 0), (Reg.stkChMboxTxbusy, 0), (Reg.stkChMboxRxpend, 0), (Reg.stkChMboxTxseq, 0),
    (Reg.stkChMboxRxseq, 0)]
  let s := (List.range 16).foldl (fun s j => s.wr Reg.stkChMboxw { a with j := j } 0) s
  let s : State := { s with iotlb := cellErase s.iotlb (2 ^ 40 + chKey k cell c) }
  let s := s.setChState k cell c
    (if x.err then 2 else if x.hold then 4 else if s.rd Reg.stkChCfgEn a = 1 then 1 else 0)
  let s := if x.err then s
    else s.wrs a [(Reg.stkTpStatusError, 0), (Reg.stkChErrcause, 0), (Reg.stkTpStatusErrcause, 0)]
  s.updStk k cell c (fun x => { x with keys := [], segs := [], rst := 0 })

/-- CHANNEL_RESET_DONE: with nothing of the channel in flight the reset ends (step 4). -/
def execChannelResetDone (k cell c : Nat) (s : State) : Host.Outcome State Fault Refusal :=
  .next (
    let x := s.stk k cell c
    if x.rst = 0 || !x.infl.isEmpty || !x.drains.isEmpty then s
    else ((s.chanEmpty k cell c).stkTell k cell c Reg.stkTpStatusResetdone).stkPf k cell c Reg.stkRstdone)

/-- CHANNEL_QUARANTINE: step 4 not reached 60 µs after the request (step 4a). -/
def execChannelQuarantine (k cell c : Nat) (s : State) : Host.Outcome State Fault Refusal :=
  .next (
    if s.chState k cell c = 3 && (s.stk k cell c).rst = 3 then
      (s.setChState k cell c 5).ash k { cls := 3, src := 0x50, inst := cell, code := 0x05, part := s.partition k, d4 := c,
                                        d5 := 5 + s.rd Reg.stkChErrcause (chIx k cell c) * 2 ^ 8 }
    else s)

/-- CELL_FAULT: every channel resets as if its drain timer had expired (R472). -/
def execCellFault (k cell : Nat) (s : State) : Host.Outcome State Fault Refusal :=
  .next (
    if !s.stkOn k cell then s
    else
      let s := s.bump Reg.stkStatCellfault { sock := k, inst := cell }
      let s := s.ash k { cls := 3, src := 0x50, inst := cell, code := 0x03, part := s.partition k }
      (List.range 64).foldl (fun s c =>
        if s.chState k cell c = 5 then s else (s.stkReset k cell c false).stkStop k cell c) s)

/-! ### Rings and doorbells (R444-R448) -/

/-- Entries of a ring. -/
def State.ringSize (s : State) (f : Fld) (k cell c : Nat) : Nat := 2 ^ s.rd f (chIx k cell c)

/-- A write of SQTAIL: the doorbell (R445). -/
def State.doorbell (s : State) (k cell c v : Nat) : State :=
  if !s.hasCh k cell c || s.chState k cell c ≠ 1 then s
  else if s.ringSize Reg.stkTpSqsize k cell c ≤ v then s.stkError k cell c 3
  else (s.wr Reg.stkTpSqtail (chIx k cell c) v).updCell k cell (fun x => { x with gated := false })

/-- SQTAIL_DOORBELL. -/
def execSqtailDoorbell (k cell c v : Nat) (s : State) : Host.Outcome State Fault Refusal :=
  .next (s.doorbell k cell c (v % 4096))

/-- A write of CQHEAD (R445). -/
def State.cqheadWrite (s : State) (k cell c v : Nat) : State :=
  if !s.hasCh k cell c || s.chState k cell c ≠ 1 then s
  else if s.ringSize Reg.stkTpCqsize k cell c ≤ v then s.stkError k cell c 3
  else s.wr Reg.stkTpCqhead (chIx k cell c) v

/-- CQHEAD_WRITE. -/
def execCqheadWrite (k cell c v : Nat) (s : State) : Host.Outcome State Fault Refusal :=
  .next (s.cqheadWrite k cell c (v % 4096))

/-- Whether a channel has descriptors submitted or in flight. -/
def State.chBusy (s : State) (k cell c : Nat) : Bool :=
  let a := chIx k cell c
  decide (s.rd Reg.stkTpSqhead a ≠ s.rd Reg.stkTpSqtail a) || !(s.stk k cell c).infl.isEmpty

/-- A write of a ring's size and base: in effect at once while the channel is DISABLED or idle, ERROR while it is busy or for a size
outside 4-12; in another state it changes nothing (R444, log entry 21). -/
def State.ringCfg (s : State) (k cell c : Nat) (cq : Bool) (size base : Option Nat) : State :=
  let st := s.chState k cell c
  let bad := match size with | some n => decide (n < 4) || decide (12 < n) | none => false
  let a := chIx k cell c
  if !s.hasCh k cell c || (st ≠ 0 && st ≠ 1) then s
  else if bad || (st = 1 && s.chBusy k cell c) then s.stkError k cell c 4
  else
    let s := match size with
      | some n => s.wr (if cq then Reg.stkTpCqsize else Reg.stkTpSqsize) a n
      | none => s
    match base with
    | some b => s.wr (if cq then Reg.stkTpCqbase else Reg.stkTpSqbase) a b
    | none => s

/-- RING_CFG_WRITE: size and base of the submission ring, or of the completion ring. -/
def execRingCfgWrite (k cell c : Nat) (cq : Bool) (size base : Nat) (s : State) : Host.Outcome State Fault Refusal :=
  .next (s.ringCfg k cell c cq (some (size % 16)) (some base))

/-- A write of CFG.EN (R441). -/
def State.cfgEn (s : State) (k cell c v : Nat) : State :=
  let a := chIx k cell c
  if !s.hasCh k cell c || s.rd Reg.stkChCfgVault a = 1 then s
  else
    let old := s.rd Reg.stkChCfgEn a
    let s := s.wr Reg.stkChCfgEn a v
    if v % 2 = 1 then (if s.chState k cell c = 0 then s.setChState k cell c 1 else s)
    else if old = 1 then s.stkReset k cell c false
    else s

/-- CFG_EN_WRITE. -/
def execCfgEnWrite (k cell c : Nat) (en : Bool) (s : State) : Host.Outcome State Fault Refusal :=
  .next (s.cfgEn k cell c (if en then 1 else 0))

/-- Whether a slot is free for the channel: the one reserved for an Assured channel, or a shared one (R470). -/
def State.slotFree (s : State) (k cell c : Nat) : Bool :=
  let res (i : Nat) : Bool := s.rd Reg.stkChCfgEn (chIx k cell i) = 1 && s.rd Reg.stkChCfgAssured (chIx k cell i) = 1
  let n (i : Nat) : Nat := (s.stk k cell i).infl.length
  let shared := (List.range 64).foldl (fun v i => v + (if res i then n i - 1 else n i)) 0
  (res c && n c = 0) || decide (shared < 256 - ((List.range 64).filter res).length)

/-- DESC_FETCH: the next descriptor of the ring is read, its completion entry reserved (R446). -/
def execDescFetch (k cell c : Nat) (s : State) : Host.Outcome State Fault Refusal :=
  .next (
    let a := chIx k cell c
    let x := s.stk k cell c
    let head := s.rd Reg.stkTpSqhead a
    let cqs := s.ringSize Reg.stkTpCqsize k cell c
    let used := (s.rd Reg.stkTpCqtail a + cqs - s.rd Reg.stkTpCqhead a) % cqs
    if !s.hasCh k cell c || s.chState k cell c ≠ 1 || head = s.rd Reg.stkTpSqtail a ||
        min 64 (max 1 (s.rd Reg.stkChCfgMaxinfl a)) ≤ x.infl.length || !s.slotFree k cell c ||
        cqs ≤ used + x.infl.length + 1 then s
    else
      match s.pRead (s.stkPort k cell c) (s.rd Reg.stkTpSqbase a * 4096 + head * 64) 64 with
      | (_, _, some { status := 256, .. }) => s
      | (s, _, some _) => s.stkError k cell c 1
      | (s, b, none) =>
        let w := (List.range 8).map (fun i => leNat ((b.drop (8 * i)).take 8))
        let s := s.wr Reg.stkTpSqhead a ((head + 1) % s.ringSize Reg.stkTpSqsize k cell c)
        (s.updStk k cell c (fun x =>
          { x with infl := x.infl ++ [{ idx := head, w := w, started := false, fin := none, split := none, memo := [], done := (0, 0) }] })).updCell k cell
            (fun x => { x with gated := false }))

/-- DESC_START: the next descriptor of the ring starts after its checks; one with FENCE waits for every earlier one (R447, R451,
R454). -/
def execDescStart (k cell c : Nat) (s : State) : Host.Outcome State Fault Refusal :=
  .next (
    let x := s.stk k cell c
    if s.chState k cell c ≠ 1 then s
    else
      match x.infl.find? (fun d => !d.started) with
      | none => s
      | some d =>
        let w := d.w
        let first := match x.infl with | e :: _ => e.idx = d.idx | [] => false
        if dw w 0 8 8 = 1 && !first then s
        else
          let go (s : State) : State := s.updDesc k cell c d.idx (fun d => { d with started := true })
          let fail (s : State) (st : Nat) : State := (go s).setFin k cell c d.idx (Fin.stopped st)
          if !formOk w || !rangeOk w then fail s 0x10
          else if dOp w = 1 then
            match s.pRead (s.stkPort k cell c) (dAux w) 256 with
            | (_, _, some { status := 256, .. }) => s
            | (s, _, some e) => (go s).setFin k cell c d.idx ⟨e.status, 0, 0, e.addr, e.kind, e.s2⟩
            | (s, p, none) => if progOk p (filterWidth w) then go s else fail s 0x11
          else if dOp w = 0x0B && (cellGet none x.keys (dw w 0 20 17)).isNone then fail s 0x19
          else go s)

/-- DESC_COMPLETE: the completion entry of an ended descriptor is written at CQTAIL (R448, R449); one that cannot be written puts the
channel in ERROR, or is discarded when it is there (R471).  It waits for the Riddles' writes for the descriptor (R276). -/
def execDescComplete (k cell c idx : Nat) (s : State) : Host.Outcome State Fault Refusal :=
  .next (
    let a := chIx k cell c
    match (s.stk k cell c).infl.find? (fun d => d.idx = idx) with
    | none => s
    | some d =>
      match (if (s.cell k cell).segs.any (fun u => u.chan = c && u.idx = idx && !u.left.isEmpty) then none else d.fin) with
      | none => s
      | some f =>
        let tail := s.rd Reg.stkTpCqtail a
        let w0 := dw d.w 0 63 32 + d.idx * 2 ^ 32 + f.status * 2 ^ 44 + dOp d.w * 2 ^ 52 + s.rd Reg.stkTpCqphase a * 2 ^ 63
        let w3 := f.addr % 2 ^ 57 + f.kind * 2 ^ 57 + (if f.s2 then 2 ^ 59 else 0)
        let drop (s : State) : State := s.updStk k cell c (fun x => { x with infl := x.infl.filter (fun d => d.idx ≠ idx) })
        match s.pWrite (s.stkPort k cell c) (s.rd Reg.stkTpCqbase a * 4096 + tail * 32) ([w0, f.r0, f.r1, w3].flatMap (leBytes 8)) with
        | (_, _, some { status := 256, .. }) => s
        | (s, _, some _) => if s.chState k cell c = 2 then drop s else (drop s).stkError k cell c 2
        | (s, _, none) =>
          let t := (tail + 1) % s.ringSize Reg.stkTpCqsize k cell c
          let s := (s.wr Reg.stkTpCqtail a t).wrIf (t = 0) Reg.stkTpCqphase a (1 - s.rd Reg.stkTpCqphase a)
          let s := ((drop s).bump Reg.stkChDone a).bump Reg.stkStatDescs { sock := k, inst := cell }
          let s := if 0x10 ≤ f.status then s.bump Reg.stkChErrs a else s
          let s := if f.status = 2 then s.bump Reg.stkStatSquashed { sock := k, inst := cell } else s
          if dw d.w 0 9 9 = 1 || 0x10 ≤ f.status then s.stkTell k cell c Reg.stkTpStatusCq else s)

/-! ### Operations -/

/-- A started descriptor that runs, with operation code `op`. -/
def State.running' (s : State) (k cell c idx op : Nat) : Option Desc :=
  let st := s.chState k cell c
  if !s.hasCh k cell c || (st ≠ 1 && st ≠ 3) then none
  else (s.stk k cell c).infl.find? (fun d => d.idx = idx && d.started && d.fin.isNone && d.split.isNone && dOp d.w = op)

/-- An operation run for a started descriptor as far as `n` more source lines: its effect on memory, and how it ended (R277, R467). -/
def State.stkRun (s : State) (k cell c idx op n : Nat) (f : Port → DWords → State → State × Option Fin) : State :=
  match s.running' k cell c idx op with
  | none => s
  | some d =>
    match f { s.stkPort k cell c with desc := some (chKey k cell c, idx), lim := d.memo.length + n } d.w s with
    | (s, none) => s
    | (s, some e) => s.setFin k cell c idx e

/-- NOP (R451). -/
def execStkNop (k cell c idx : Nat) (s : State) : Host.Outcome State Fault Refusal :=
  .next (s.stkRun k cell c idx 0 0 (fun _ _ s => (s, some ⟨0, 0, 0, 0, 0, false⟩)))

/-- PROJECT (R457). -/
def execProject (k cell c : Nat) (r : DescRun) (s : State) : Host.Outcome State Fault Refusal :=
  .next (s.stkRun k cell c r.idx 2 r.n runProject)
/-- DECOMP (R458). -/
def execDecomp (k cell c : Nat) (r : DescRun) (s : State) : Host.Outcome State Fault Refusal :=
  .next (s.stkRun k cell c r.idx 3 r.n runDecomp)
/-- HASHBUILD (R459). -/
def execHashbuild (k cell c : Nat) (r : DescRun) (s : State) : Host.Outcome State Fault Refusal :=
  .next (s.stkRun k cell c r.idx 4 r.n runBuild)
/-- HASHPROBE (R459). -/
def execHashprobe (k cell c : Nat) (r : DescRun) (s : State) : Host.Outcome State Fault Refusal :=
  .next (s.stkRun k cell c r.idx 5 r.n runProbe)
/-- AGG (R460). -/
def execAgg (k cell c : Nat) (r : DescRun) (s : State) : Host.Outcome State Fault Refusal :=
  .next (s.stkRun k cell c r.idx 6 r.n runAgg)
/-- SORTRUN (R461). -/
def execSortrun (k cell c : Nat) (r : DescRun) (s : State) : Host.Outcome State Fault Refusal :=
  .next (s.stkRun k cell c r.idx 7 r.n runSort)
/-- MERGE (R461). -/
def execMerge (k cell c : Nat) (r : DescRun) (s : State) : Host.Outcome State Fault Refusal :=
  .next (s.stkRun k cell c r.idx 8 r.n runMerge)
/-- CRC32C (R462). -/
def execCrc32c (k cell c : Nat) (r : DescRun) (s : State) : Host.Outcome State Fault Refusal :=
  .next (s.stkRun k cell c r.idx 9 r.n runCrc)
/-- SHA256 (R462). -/
def execSha256 (k cell c : Nat) (r : DescRun) (s : State) : Host.Outcome State Fault Refusal :=
  .next (s.stkRun k cell c r.idx 10 r.n runSha)
/-- AESGCM (R462). -/
def execAesgcm (k cell c : Nat) (r : DescRun) (s : State) : Host.Outcome State Fault Refusal :=
  .next (s.stkRun k cell c r.idx 11 r.n (fun p w s =>
    match cellGet none (s.stk k cell c).keys (dw w 0 20 17) with
    | none => (s, some (Fin.stopped 0x19))
    | some key => runGcm p w (leBytes 32 key) s))

/-! ### The split of a FILTER (R463, R464) -/

/-- The pages of a column from `va`: virtual and physical address and length; none when one is refused. -/
def State.colPages (p : Port) : Nat → Nat → Nat → State → Option (List (Nat × Nat × Nat))
  | 0, _, _, _ => some []
  | m + 1, va, n, s =>
    if n = 0 then some []
    else
      let d := min n (4096 - va % 4096)
      match s.portXlate p Acc.load va with
      | (_, .error _) => none
      | (s, .ok t) => (State.colPages p m (va + d) (n - d) s).map ((va, t.pa, d) :: ·)

/-- Whether a page lies in the DRAM of socket `k` where its own address says (R402). -/
def State.localPage (s : State) (k pa : Nat) : Bool :=
  match s.target k pa with | .dram h off => h = k && off = pa % 2 ^ 47 && pa / 2 ^ 47 = k | _ => false

/-- Physically contiguous pages of one kind joined. -/
def joinRuns (loc : Nat → Bool) : List (Nat × Nat × Nat) → List (Nat × Nat × Nat)
  | [] => []
  | (va, pa, n) :: t =>
    match joinRuns loc t with
    | (va', pa', n') :: r => if pa + n = pa' && loc pa == loc pa' then (va, pa, n + n') :: r else (va, pa, n) :: (va', pa', n') :: r
    | [] => [(va, pa, n)]

/-- Blocks of 4 KiB a range of lines touches. -/
def blocksOf (pa lines : Nat) : Nat := (pa + 64 * lines - 1) / 4096 - pa / 4096 + 1

/-- The smallest segment that holds the largest result of one block, in lines (R433). -/
def segSize (w : DWords) : Nat :=
  let n := 32768 / filterWidth w
  let pay := match dw w 0 18 17 with | 0 => (n + 7) / 8 | 1 => n * (compactItem w 0).length | _ => 0
  (64 + pay + 63) / 64

/-- One run as the cell plans it: values wholly inside it, and the Riddles' part of it in whole lines. -/
def planRun (w : DWords) (loc : Bool) (va pa n : Nat) : List FRun :=
  let wid := filterWidth w
  let boff := if dw w 0 16 16 = 0 then 0 else dw w 2 48 40
  let mk (va pa n : Nat) (loc : Bool) : FRun :=
    let rb := 8 * (va - dSrc w)
    let first := if rb ≤ boff then 0 else (rb - boff + wid - 1) / wid
    let last := min (dP64 w) ((rb + 8 * n - boff) / wid)
    let lines := (n + 63) / 64
    let ok := loc && decide (first < last) && decide (segSize w ≤ 255) && pa % 64 = 0
    { first := first, cnt := last - first, va := va, pa := pa, lines := lines, boff := boff + first * wid - rb, rid := ok
      tag := none, segsz := segSize w, at' := 0, sent := [], blk := 0 }
  if dw w 0 16 16 = 0 && loc && n % 64 ≠ 0 then
    (if n < 64 then [] else [mk va pa (n / 64 * 64) true]) ++ [mk (va + n / 64 * 64) (pa + n / 64 * 64) (n % 64) false]
  else [mk va pa n loc]

/-- The runs of a FILTER's column. -/
def State.plan (s : State) (p : Port) (w : DWords) : Option (List FRun) :=
  let bits := (if dw w 0 16 16 = 0 then 0 else dw w 2 48 40) + dP64 w * filterWidth w
  let n := (bits + 7) / 8
  (State.colPages p (n / 4096 + 2) (dSrc w) n s).map (fun l =>
    let loc := s.localPage p.x.sock
    (joinRuns loc l).flatMap (fun r => planRun w (loc r.2.1) r.1 r.2.1 r.2.2))

/-- Whether a cell's segment area lies in this socket's DRAM, in pages of no Vault instance (R29, R146, Table STOK-10). -/
def State.areaOk (s : State) (k cell : Nat) : Bool :=
  let b := s.rd Reg.stkSegBase { sock := k, inst := cell }
  (List.range (s.rd Reg.stkSegPages { sock := k, inst := cell })).all (fun i =>
    s.localPage k ((b + i) * 4096) && (s.pageOwner ((b + i) * 4096)).1 = 0)

/-- Whether a FILTER goes to the Riddles (R463). -/
def State.splits (s : State) (k cell c : Nat) (w : DWords) : Bool :=
  dw w 0 19 19 = 0 && s.rd Reg.stkCtlRiddle { sock := k, inst := cell } = 1 &&
    decide (s.rd Reg.stkSegPages { sock := k, inst := cell } ≠ 0) && s.areaOk k cell && s.rd Reg.stkChCfgVault (chIx k cell c) = 0 &&
    (List.range 16).all (fun n => s.rd Reg.ridCtlEn { sock := k, inst := n } = 1)

/-- FILTER (R456): evaluated by the firebox, or split among the Riddles when its column lies in this socket's DRAM (R463). -/
def execFilter (k cell c : Nat) (r : DescRun) (s : State) : Host.Outcome State Fault Refusal :=
  .next (
    match s.running' k cell c r.idx 1 with
    | none => s
    | some d =>
      let p := s.stkPort k cell c
      match s.pRead p (dAux d.w) 256 with
      | (_, _, some { status := 256, .. }) => s
      | (s, _, some e) => s.setFin k cell c r.idx ⟨e.status, 0, 0, e.addr, e.kind, e.s2⟩
      | (s, prog, none) =>
        let box (s : State) : State := s.stkRun k cell c r.idx 1 r.n (fun p w s => runFilter p w prog s)
        if s.splits k cell c d.w then
          match s.plan p d.w with
          | some l =>
            let area := s.rd Reg.stkSegPages { sock := k, inst := cell } * 64
            let l := l.map (fun r => { r with rid := r.rid && decide (blocksOf r.pa r.lines * r.segsz ≤ area) })
            if l.any (·.rid) then
              s.updDesc k cell c r.idx (fun d =>
                { d with split := some { prog := prog, runs := l, pos := 0, out := [], n := 0, tail := none } })
            else box s
          | none => box s
        else box s)

/-! ### The Riddle units (R430-R435) -/

/-- The split FILTER of a channel that has a run to send to Riddle `n`, with that run. -/
def State.nextItem (s : State) (k cell c n : Nat) : Option (Desc × Split × FRun) :=
  (s.stk k cell c).infl.findSome? (fun d =>
    match d.split with
    | none => none
    | some sp => (sp.runs.find? (fun r => r.rid && !r.sent.contains n)).map (fun r => (d, sp, r)))

/-- RIDDLE_PROGRAM_LOAD: Riddle `n` takes the program of the channel's split FILTER into the cell's slot (R464). -/
def execRiddleProgramLoad (k n cell c : Nat) (s : State) : Host.Outcome State Fault Refusal :=
  .next (
    match s.nextItem k cell c n with
    | some (_, sp, _) => if n < 16 then s.updRid k n (fun r => { r with progs := cellSet [] r.progs cell sp.prog }) else s
    | none => s)

/-- Items without a block of this channel left are finished; at most `m` of them (R430). -/
def State.ridAdvance (k n : Nat) : Nat → State → State
  | 0, s => s
  | m + 1, s =>
    match (s.rid k n).queue with
    | it :: t =>
      if it.blocks.isEmpty then
        let s := (s.updRid k n (fun r => { r with queue := t, lines := [] })).bump Reg.ridStatItems { sock := k, inst := n }
        State.ridAdvance k n m (s.updCell k it.cell (fun x => StkCell.free { x with segs := x.segs.map (fun u =>
          if u.tag = it.tag then { u with left := u.left.filter (· ≠ n) } else u) }))
      else s
    | [] => s

/-- The lowest place with room for `len` lines in a segment area of `area` lines. -/
def segPlace (l : List SegUse) (area len : Nat) : Option Nat :=
  (0 :: l.map (fun u => u.line + u.len)).foldl (fun b x =>
    if x + len ≤ area ∧ l.all (fun u => decide (x + len ≤ u.line) || decide (u.line + u.len ≤ x)) = true then
      (match b with | none => some x | some y => some (min x y))
    else b) none

/-- RIDDLE_WORK_ITEM: Riddle `n` accepts the channel's next run: a queue slot, at most two items of a cell, the reserved slot for an
Assured item only, room in the segment area (R430, R464). -/
def execRiddleWorkItem (k n cell c : Nat) (s : State) : Host.Outcome State Fault Refusal :=
  .next (
    match s.nextItem k cell c n with
    | none => s
    | some (d, sp, r) =>
      let q := (s.rid k n).queue
      let as' := s.rd Reg.stkChCfgAssured (chIx k cell c) = 1
      let prog := cellGet [] (s.rid k n).progs cell
      let nb := blocksOf r.pa r.lines
      let x := s.cell k cell
      let at' := match r.tag with
        | some _ => some r.at'
        | none => segPlace x.segs (s.rd Reg.stkSegPages { sock := k, inst := cell } * 64) (nb * r.segsz)
      if 16 ≤ n || s.rd Reg.ridCtlEn { sock := k, inst := n } = 0 || (if as' then 16 else 15) ≤ q.length ||
          2 ≤ (q.filter (fun i => i.cell = cell)).length || prog ≠ sp.prog then s
      else
        match at' with
        | none => s
        | some at' =>
          let tag := r.tag.getD (x.tagNext % 65536)
          let s := match r.tag with
            | some _ => s
            | none =>
              let u : SegUse := { tag := tag, chan := c, idx := d.idx, line := at', len := nb * r.segsz, left := List.range 16, live := true }
              s.updCell k cell (fun x => { x with tagNext := (x.tagNext + 1) % 65536, segs := x.segs ++ [u] })
          let w := d.w
          let it : RidItem :=
            { cell := cell, chan := c, tag := tag, assured := as', fmt := dw w 0 16 16, out := dw w 0 18 17, w := dw w 0 25 20
              boff := r.boff, segsz := r.segsz, base := r.pa, lenl := r.lines, nval := r.cnt
              dst := s.rd Reg.stkSegBase { sock := k, inst := cell } * 4096 + at' * 64, prog := prog
              blocks := (List.range nb).filter (fun i => s.chanOf k ((r.pa / 4096 + i) * 4096 % 2 ^ 47) = n) }
          let s := s.updDesc k cell c d.idx (fun d => { d with split := some { sp with runs := sp.runs.map (fun e =>
            if e.first = r.first && e.va = r.va then { e with tag := some tag, at' := at', sent := e.sent ++ [n] } else e) } })
          State.ridAdvance k n 17 (s.updRid k n (fun r => { r with queue := r.queue ++ [it] })))

/-- The byte range of block `i` of an item. -/
def RidItem.block (it : RidItem) (i : Nat) : Nat × Nat :=
  let b := (it.base / 4096 + i) * 4096
  (max it.base b, min (it.base + 64 * it.lenl) (b + 4096))

/-- Width in bits of an item's values. -/
def RidItem.width (it : RidItem) : Nat := if it.fmt = 0 then 8 * 2 ^ it.w else it.w + 1

/-- The result of the part `data` of a block starting at `start`: header doublewords after STATUS, and payload (R432, R433). -/
def RidItem.result (it : RidItem) (start : Nat) (data : List Byte) : Nat × Nat × Nat × (Nat × Nat) × (Nat × Nat) × List Byte :=
  let wid := it.width
  let bs := 8 * (start - it.base)
  let be := bs + 8 * data.length
  let x := leNat data
  let boff := if it.fmt = 0 then 0 else it.boff
  let lim := if it.fmt = 0 || it.nval = 0 then 2 ^ 64 else it.nval
  let first := if bs ≤ boff then 0 else (bs - boff + wid - 1) / wid
  let last := min lim ((be - boff) / wid)
  let val (v : Nat) : Nat := natBits x (boff + v * wid - bs + wid - 1) (boff + v * wid - bs)
  let vs := (List.range (last - first)).map (fun j => val (first + j))
  let ms := vs.map (progEval it.prog)
  let headn := if first = 0 || lim ≤ first - 1 then 0 else boff + first * wid - bs
  let tb := boff + last * wid - bs
  let tailn := if lim ≤ last || be ≤ boff + last * wid then 0 else 8 * data.length - tb
  let pay : List Byte := match it.out with
    | 0 => leBytes ((ms.length + 7) / 8) (packBits ms)
    | 1 => (vs.zip ms).flatMap (fun p => if p.2 then leBytes (if it.fmt = 0 then 2 ^ it.w else valBytes wid) p.1 else [])
    | _ => []
  (last - first, (ms.filter id).length, first, (headn, natBits x (headn - 1) 0 * (if headn = 0 then 0 else 1)),
   (tailn, if tailn = 0 then 0 else natBits x (tb + tailn - 1) tb), pay)

/-- The bytes of a segment (Table MEMC-9). -/
def RidItem.segment (it : RidItem) (start : Nat) (data : List Byte) (status bad : Nat) : List Byte :=
  let r := it.result start data
  leBytes 8 (status + r.1 * 2 ^ 16 + r.2.1 * 2 ^ 32) ++ leBytes 8 (r.2.2.1 % 2 ^ 40) ++ leBytes 8 r.2.2.2.1.1 ++
    leBytes 8 r.2.2.2.1.2 ++ leBytes 8 r.2.2.2.2.1.1 ++ leBytes 8 r.2.2.2.2.1.2 ++ leBytes 8 bad ++ leBytes 8 0 ++
    r.2.2.2.2.2

/-- Bytes written at a physical address by a unit of the normal world, line by line, none of them to a page of a Vault instance (R146);
none when a line must wait. -/
def State.physWrite (k : Nat) : Nat → Nat → List Byte → State → Option State
  | 0, _, _, s => some s
  | m + 1, pa, b, s =>
    if b.isEmpty then some s
    else
      match (if (s.pageOwner pa).1 = 0 then s.agentWrite (freeAgent k) k pa (b.take 64) else (s, none)) with
      | (_, some { status := 256, .. }) => none
      | (s, _) => State.physWrite k m (pa + 64) (b.drop 64) s

/-- The segment of the block in progress written, and the cell told (R433, R434). -/
def State.segOut (s : State) (k n status bad : Nat) : State :=
  match (s.rid k n).queue with
  | [] => s
  | it :: t =>
    match it.blocks with
    | [] => s
    | i :: bl =>
      let b := it.segment (it.block i).1 (s.rid k n).lines status bad
      match State.physWrite k (b.length / 64 + 2) (it.dst + i * it.segsz * 64) b s with
      | none => s
      | some s =>
        let s := s.updRid k n (fun r =>
          { r with queue := { it with blocks := if status = 0 then bl else [] } :: t, lines := [] })
        let s := if status = 0 then s else s.bump Reg.ridStatPoison { sock := k, inst := n }
        let s := if status = 0 then s
          else s.ash k { cls := 3, src := 0x43, inst := n, code := 0x02, addr := bad, part := s.partition k,
                         d4 := it.cell + it.chan * 2 ^ 3 + it.tag * 2 ^ 9 }
        State.ridAdvance k n 17 (if (s.cell k it.cell).segs.any (fun u => u.tag = it.tag && u.live) then
            s.updStk k it.cell it.chan (fun c => { c with segs := c.segs ++ [(it.tag, i)] }) else s)

/-- RIDDLE_LINE_EVAL: the next line of the block in progress, in place when its bits are NONE or SHARED, otherwise by RDU through the
home; a bad line ends the item (R431, R434). -/
def execRiddleLineEval (k n : Nat) (s : State) : Host.Outcome State Fault Refusal :=
  .next (
    let r := s.rid k n
    match r.queue with
    | [] => s
    | it :: _ =>
      match it.blocks with
      | [] => s
      | i :: _ =>
        let b := it.block i
        let pa := b.1 + r.lines.length
        let ln := lineOf pa
        if b.2 ≤ pa || (match s.mcLine k pa with | some (m, l) => m = n && s.mcHolds k n l | none => false) || s.agentWaits k ln then s
        else
          match s.agentRead (freeAgent k) k ln with
          | (_, some { status := 256, .. }) => s
          | (s', some e) => s'.segOut k n (if e.status = 0x14 then 2 else 1) pa
          | (s', none) =>
            let inPlace := match s.bits ln with | .none | .shared => true | _ => false
            let s1 := if inPlace then (s.touch k ln).bump Reg.ridStatLines { sock := k, inst := n }
              else s'.bump Reg.ridStatRefer { sock := k, inst := n }
            s1.updRid k n (fun r => { r with lines := r.lines ++ memBytes s1.mem pa 64 }))

/-- RIDDLE_SEGMENT_WRITE: every line of the block has been evaluated (R431, R433). -/
def execRiddleSegmentWrite (k n : Nat) (s : State) : Host.Outcome State Fault Refusal :=
  .next (
    match (s.rid k n).queue with
    | [] => s
    | it :: _ =>
      match it.blocks with
      | [] => s
      | i :: _ => if (it.block i).2 ≤ (it.block i).1 + (s.rid k n).lines.length then s.segOut k n 0 0 else s)

/-- RIDDLE_DRAIN: a drain takes the channel's items out of the queue and stops the one in progress (R435). -/
def execRiddleDrain (k n cell c : Nat) (s : State) : Host.Outcome State Fault Refusal :=
  .next (
    if !(s.stk k cell c).drains.contains n || (s.rid k n).drains.contains (cell, c) then s
    else
      let mine (i : RidItem) : Bool := i.cell = cell && i.chan = c
      let gone := (s.rid k n).queue.filter mine
      let front := match (s.rid k n).queue with | i :: _ => mine i | [] => false
      let s := s.updRid k n (fun r =>
        { r with queue := r.queue.filter (fun i => !mine i), drains := r.drains ++ [(cell, c)]
                 lines := if front then [] else r.lines })
      s.updCell k cell (fun x => StkCell.free { x with segs := x.segs.map (fun u =>
        if gone.any (fun i => i.tag = u.tag) then { u with left := u.left.filter (· ≠ n) } else u) }))

/-- DRAINED: the Riddle answers once its writes for the channel are performed (R435). -/
def execDrained (k n cell c : Nat) (s : State) : Host.Outcome State Fault Refusal :=
  .next (
    if (s.rid k n).drains.contains (cell, c) then
      let s := (s.updRid k n (fun r => { r with drains := r.drains.filter (· ≠ (cell, c)) })).bump Reg.ridStatDrains
        { sock := k, inst := n }
      let s := s.updStk k cell c (fun x => { x with drains := x.drains.filter (· ≠ n) })
      s.updCell k cell (fun x => StkCell.free { x with segs := x.segs.map (fun u =>
        if u.live then u else { u with left := u.left.filter (· ≠ n) }) })
    else s)

/-! ### Segments read back (R464, R465) -/

/-- Values `i`, … of a split FILTER evaluated by the cell itself; `m` of them. -/
def State.boxValues (p : Port) (w : DWords) : Nat → Split → State → State × Split × Option Stop
  | 0, sp, s => (s, sp, none)
  | m + 1, sp, s =>
    match s.filterItem p w sp.pos with
    | (s, _, some e) => (s, sp, some e)
    | (s, v, none) =>
      let hit := progEval sp.prog v
      let o : List Byte := match dw w 0 18 17 with
        | 0 => [if hit then 1 else 0] | 1 => if hit then compactItem w v else [] | _ => []
      State.boxValues p w m { sp with pos := sp.pos + 1, out := sp.out ++ o, n := sp.n + (if hit then 1 else 0), tail := none } s

/-- A value that straddles two blocks joined from the fragments and evaluated. -/
def Split.join (sp : Split) (w : DWords) (headn head : Nat) : Split :=
  match sp.tail with
  | none => sp
  | some (tn, t) =>
    if tn + headn ≠ filterWidth w then sp
    else
      let v := t + head * 2 ^ tn
      let hit := progEval sp.prog v
      let o : List Byte := match dw w 0 18 17 with
        | 0 => [if hit then 1 else 0] | 1 => if hit then compactItem w v else [] | _ => []
      { sp with pos := sp.pos + 1, out := sp.out ++ o, n := sp.n + (if hit then 1 else 0), tail := none }

/-- A split FILTER ends: its output goes to DST (R456). -/
def State.splitEnd (s : State) (k cell c idx : Nat) (w : DWords) (sp : Split) (e : Option Stop) : State :=
  let r : Run := { s := s, out := sp.out, n := sp.n, stop := e }
  let r := if dw w 0 18 17 = 0 then bitmapRun (dDlen w) r
    else if dDlen w < r.out.length then
      let u := (compactItem w 0).length
      { r with out := r.out.take (dDlen w / u * u), stop := some { status := 0x15 } }
    else r
  match runOut (s.stkPort k cell c) w r r.n with
  | (s, none) => s
  | (s, some f) => s.setFin k cell c idx f

/-- SEGMENT_READ: the cell reads the next segment in block order, joins a straddling value and takes the results; runs that no Riddle
has it evaluates itself; after the last run it writes the output (R464, R465). -/
def execSegmentRead (k cell c idx : Nat) (s : State) : Host.Outcome State Fault Refusal :=
  .next (
    let st := s.chState k cell c
    if st ≠ 1 && st ≠ 3 then s
    else
      match (s.stk k cell c).infl.find? (fun d => d.idx = idx && d.fin.isNone) with
      | none => s
      | some d =>
        match d.split with
        | none => s
        | some sp =>
          let p := s.stkPort k cell c
          let w := d.w
          let save (s : State) (sp : Split) : State := s.updDesc k cell c idx (fun d => { d with split := some sp })
          match sp.runs with
          | [] =>
            match State.boxValues p w (dP64 w - sp.pos) sp s with
            | (_, _, some { status := 256, .. }) => s
            | (s, sp, e) => s.splitEnd k cell c idx w sp e
          | r :: rt =>
            if !r.rid then
              match State.boxValues p w (r.first + r.cnt - sp.pos) sp s with
              | (_, _, some { status := 256, .. }) => s
              | (s, sp, some e) => s.splitEnd k cell c idx w sp (some e)
              | (s, sp, none) => save s { sp with runs := rt }
            else
              match r.tag with
              | none => s
              | some tag =>
                if !(s.stk k cell c).segs.contains (tag, r.blk) then s
                else
                  let pa := s.rd Reg.stkSegBase { sock := k, inst := cell } * 4096 + (r.at' + r.blk * r.segsz) * 64
                  let word (i : Nat) : Nat := memNat s.mem (pa + 8 * i) 8
                  if (s.pageOwner pa).1 ≠ 0 then s.splitEnd k cell c idx w sp (some { status := 0x12 })
                  else
                  let status := word 0 % 4
                  let nval := natBits (word 0) 31 16
                  let nm := natBits (word 0) 47 32
                  let sp := sp.join w (word 2) (word 3)
                  match State.boxValues p w (r.first + word 1 - sp.pos) sp s with
                  | (_, _, some { status := 256, .. }) => s
                  | (s, sp, some e) => s.splitEnd k cell c idx w sp (some e)
                  | (s, sp, none) =>
                    let pay : List Byte := match dw w 0 18 17 with
                      | 0 => (List.range nval).map (fun j => if (memGet s.mem (pa + 64 + j / 8)).getLsbD (j % 8) then 1 else 0)
                      | 1 => memBytes s.mem (pa + 64) (nm * (compactItem w 0).length)
                      | _ => []
                    let sp := { sp with pos := sp.pos + nval, out := sp.out ++ pay, n := sp.n + nm
                                        tail := if word 4 = 0 then none else some (word 4, word 5) }
                    let s := s.updStk k cell c (fun x => { x with segs := x.segs.filter (· ≠ (tag, r.blk)) })
                    if status ≠ 0 then
                      s.splitEnd k cell c idx w sp
                        (some { status := if status = 2 then 0x14 else 0x13, addr := (r.va + (word 6 - r.pa)) % 2 ^ 57 })
                    else if r.blk + 1 < blocksOf r.pa r.lines then save s { sp with runs := { r with blk := r.blk + 1 } :: rt }
                    else
                      save (s.updCell k cell (fun x => StkCell.free { x with segs := x.segs.map (fun u =>
                        if u.tag = tag then { u with live := false } else u) })) { sp with runs := rt })

/-! ### The firebox (R467, R468) -/

/-- FIREBOX_SLICE: one slice granted among the channels of `req` that have a beat ready, `clk` clocks of beats run in it. -/
def execFireboxSlice (k cell : Nat) (req : BitVec 64) (clk : Nat) (s : State) : Host.Outcome State Fault Refusal :=
  .next (
    let a : Ix := { sock := k, inst := cell }
    let work (c : Nat) : Bool := req.getLsbD c && (s.stk k cell c).infl.any (fun d => d.started && d.fin.isNone)
    let cand := (List.range 64).filter work
    if !s.stkOn k cell || cand.isEmpty then s
    else
      let x := s.cell k cell
      let ares := min 32 (s.rd Reg.stkSchedAres a)
      let reserved := decide (x.slice * ares / 64 < (x.slice + 1) * ares / 64)
      let arb := s.arb k 4 cell
      let asd := cand.filter (fun c => s.rd Reg.stkChCfgAssured (chIx k cell c) = 1)
      let pr := profOf 0 (s.rd Reg.stkArb a)
      let prof : Prof := { pr with w := (List.range 64).map (fun c => s.rd Reg.stkChCfgWeight (chIx k cell c)) }
      let g : Option Nat × Arb :=
        match (if reserved then pickMax (fun c => nth 0 x.rwait c) asd else none) with
        | some c => (some c, arb)
        | none => Arb.unit prof cand arb
      match g.1 with
      | none => s
      | some c =>
        let q : Int := max 64 (s.rd Reg.stkSchedQuantum a)
        let df := min (cellGet 0 x.deficit c + q) (2 * q)
        let left : Int := if (clk : Int) < df + 8 then df - clk else df
        let s : State := { s with arbs := cellSet Arb.idle s.arbs (arbKey k 4 cell) g.2 }
        s.updCell k cell (fun x =>
          { x with slice := x.slice + 1, gated := false, deficit := cellSet 0 x.deficit c left
                   rwait := (List.range 64).map (fun i => if i = c || !cand.contains i then 0 else nth 0 x.rwait i + 1) }))

/-- CELL_CLOCK_GATE: after 1 µs in which no channel requested (R467). -/
def execCellClockGate (k cell : Nat) (s : State) : Host.Outcome State Fault Refusal :=
  .next (
    if s.stkOn k cell && (List.range 64).all (fun c => !(s.stk k cell c).infl.any (fun d => d.started && d.fin.isNone)) then
      s.updCell k cell (fun x => { x with gated := true })
    else s)

/-! ### Mailbox (R473) -/

/-- TX written 1 by the tenant or the manager. -/
def State.mboxTx (s : State) (k cell c : Nat) (mgr : Bool) : State :=
  let a := chIx k cell c
  let f (t m : Fld) : Fld := if mgr then m else t
  if !s.hasCh k cell c || s.rd (f Reg.stkTpMboxTxbusy Reg.stkChMboxTxbusy) a = 1 then s
  else
    let s := s.wrs a [(f Reg.stkTpMboxTxbusy Reg.stkChMboxTxbusy, 1), (f Reg.stkChMboxRxpend Reg.stkTpMboxRxpend, 1),
      (f Reg.stkTpMboxTxseq Reg.stkChMboxTxseq, s.rd (f Reg.stkTpMboxTxseq Reg.stkChMboxTxseq) a + 1),
      (f Reg.stkChMboxRxseq Reg.stkTpMboxRxseq, s.rd (f Reg.stkChMboxRxseq Reg.stkTpMboxRxseq) a + 1)]
    if mgr then s.stkTell k cell c Reg.stkTpStatusMbox else s.stkPf k cell c Reg.stkMboxpend

/-- MBOX_TX. -/
def execMboxTx (k cell c : Nat) (mgr : Bool) (s : State) : Host.Outcome State Fault Refusal := .next (s.mboxTx k cell c mgr)

/-- ACK written 1 by the side that received. -/
def State.mboxAck (s : State) (k cell c : Nat) (mgr : Bool) : State :=
  let a := chIx k cell c
  let f (t m : Fld) : Fld := if mgr then m else t
  if !s.hasCh k cell c || s.rd (f Reg.stkTpMboxRxpend Reg.stkChMboxRxpend) a = 0 then s
  else
    let s := s.wrs a [(f Reg.stkTpMboxRxpend Reg.stkChMboxRxpend, 0), (f Reg.stkChMboxTxbusy Reg.stkTpMboxTxbusy, 0)]
    if mgr then s.stkTell k cell c Reg.stkTpStatusMbox else s.stkPf k cell c Reg.stkMboxpend

/-- MBOX_ACK. -/
def execMboxAck (k cell c : Nat) (mgr : Bool) (s : State) : Host.Outcome State Fault Refusal := .next (s.mboxAck k cell c mgr)

end Sys2Proof.Machine
end

