-- ==== Sys2Proof/Machine/Vault.lean ====
section
/-!
DEFINITION. Machine/Vault.lean: requests to the security controller, reports, Vault instances, unit hand-over, watchdog and restart
(R140-R160, R185, R500).
-/
namespace Sys2Proof.Machine

/-! ### Requests (R141-R143) -/

/-- Status values (Table DOMN-4). -/
def secBadOp : Nat := 0x80000001
/-- BAD_ARG. -/
def secBadArg : Nat := 0x80000002
/-- NOT_SEALED. -/
def secNotSealed : Nat := 0x80000003
/-- WRONG_WORLD. -/
def secWrongWorld : Nat := 0x80000004
/-- NO_RESOURCE. -/
def secNoResource : Nat := 0x80000005
/-- STATE. -/
def secState : Nat := 0x80000006
/-- NOT_ALLOWED. -/
def secNotAllowed : Nat := 0x80000007
/-- UNIT_FAILED. -/
def secUnitFailed : Nat := 0x80000008
/-- ABSENT. -/
def secAbsent : Nat := 0x80000009

/-- What a request comes to: a status to write, a later completion, or a wait for a line. -/
inductive SecR where
  | fin (status : Nat) (s : State)
  | later (s : State)
  | wait

/-- A request completed: the status written last, the counts, and the core free to ask again (R142, Table DOMN-11). -/
def State.secEnd (s : State) (c : Nat) (r : KeyReq) (st : Nat) : Option State :=
  let k := coreSock c
  match s.agentWrite (freeAgent k) k r.pa (leBytes 8 st) with
  | (_, some { status := 256, .. }) => none
  | (s, _) =>
    let s := if st = 1 then s.bump Reg.secReqdone { sock := k } else s.bump Reg.secReqfail { sock := k }
    some (s.updCore c (fun q => { q with keyReq := none }))

/-- A doubleword operand of the request block. -/
def State.opnd (s : State) (r : KeyReq) (o : Nat) : Nat := memNat s.mem (r.pa + o) 8

/-- The pending request of core `c`, when `is` names its operation, carried out; a block that cannot be read is BAD_ARG. -/
def State.secDo (s : State) (c : Nat) (is : Nat → Bool) (f : KeyReq → State → SecR) : State :=
  match (s.core c).keyReq with
  | none => s
  | some r =>
    if !is r.op then s
    else
      let r' : SecR := match s.agentRead (freeAgent (coreSock c)) (coreSock c) (lineOf r.pa) with
        | (_, some { status := 256, .. }) => .wait
        | (s, some _) => .fin secBadArg s
        | (s, none) => f r s
      match r' with
      | .wait => s
      | .later s' => s'
      | .fin st s' => (s'.secEnd c r st).getD s

/-- The operations of Table DOMN-3. -/
def secOps : List Nat := [0x01, 0x02, 0x03, 0x10, 0x11, 0x12, 0x13, 0x14, 0x15, 0x16, 0x17]

/-- An operation refused on the part or in the world it is issued from, else `f`; `vault` is the world it needs. -/
def State.secWorld (s : State) (c : Nat) (r : KeyReq) (vault : Bool) (f : State → SecR) : SecR :=
  if !(s.part (coreSock c)).full then .fin secAbsent s
  else if r.world.isSome ≠ vault then .fin secWrongWorld s
  else f s

/-- SEC_REQUEST_BAD_OP: an unlisted operation code. -/
def execSecRequestBadOp (c : Nat) (s : State) : Host.Outcome State Fault Refusal :=
  .next (s.secDo c (fun o => !secOps.contains o) (fun _ s => .fin secBadOp s))

/-- An operand address translated in the world the request came from, with the rights it had (R141): `none` when it fails. -/
def State.secVa (s : State) (c : Nat) (r : KeyReq) (acc : Acc) (va : Nat) : Option (Nat × State) :=
  match xlate (s.xctxIn c r.world r.kr0 r.kr1) [] [] acc (BitVec.ofNat 64 va) s with
  | .ok t s => if t.dev then none else some (t.pa, s.touch (coreSock c) (lineOf t.pa))
  | _ => none

/-- Whether the translation of an operand address must wait for a line. -/
def State.secWait (s : State) (c : Nat) (r : KeyReq) (acc : Acc) (va : Nat) : Bool :=
  match xlate (s.xctxIn c r.world r.kr0 r.kr1) [] [] acc (BitVec.ofNat 64 va) s with
  | .wait => true
  | _ => false

/-! ### Reports (R144, Table DOMN-5) -/

/-- The digest of a partition's configuration, as the words in effect give it (R392). -/
def State.configDigest (s : State) (k : Nat) : List Byte :=
  sha256 ((digestWords (fun f a => s.rd f a) k (s.partition k)).flatMap (leBytes 8))

/-- The 512 bytes of a report; the signature is an open value. -/
def State.report (s : State) (c : Nat) (r : KeyReq) (nonce : List Byte) : List Byte :=
  let k := coreSock c
  let a : Ix := { sock := k }
  let inst := r.world.map (·.1)
  let boot := s.mem.filter (fun e => decide (k * 2 ^ 47 + bootBase ≤ e.1) && decide (e.1 < k * 2 ^ 47 + bootBase + 2 ^ 24))
  let img (i : Nat) : List Byte := leBytes 32 (imageDigest i k boot).toNat
  leBytes 2 (if inst.isSome then 2 else 1) ++
  leBytes 2 (s.rd Reg.secPartSealed a + 2 * s.rd Reg.secPartAssured a + 4 * s.rd Reg.secPartMac a) ++
  leBytes 4 (s.rd Reg.rootPartno a) ++ leBytes 1 (s.rd Reg.rootStep a) ++ leBytes 1 (s.partition k) ++
  leBytes 2 (s.rd Reg.rootSocket a) ++ leBytes 4 0 ++ leBytes 8 (s.now k) ++ leBytes 8 0 ++ nonce ++
  img 0 ++ img 1 ++ s.configDigest k ++
  (match inst with
    | some g => (List.range 4).flatMap (fun j => leBytes 8 (s.rd Reg.secViDigest { viIx g with j := j }))
    | none => leBytes 32 0) ++
  leBytes 2 r.domain ++ leBytes 1 (match inst with | some g => g % 64 | none => 0xFF) ++
  leBytes 1 (match inst with | some g => min 255 (s.rd Reg.secViRestarts (viIx g)) | none => 0) ++
  leBytes 188 0 ++ sha256 ((List.range 97).map (identityByte k)) ++ s.freeBytes 96

/-- Bytes written by the security controller from `pa` on, a line at a time; `none` when a line must be waited for. -/
def secWrite (k : Nat) : List (Nat × Nat) → List Byte → State → Option State
  | [], _, s => some s
  | (pa, n) :: t, b, s =>
    match s.agentWrite (freeAgent k) k pa (b.take n) with
    | (_, some { status := 256, .. }) => none
    | (s, _) => secWrite k t (b.drop n) s

/-- A report written to its 512-byte aligned buffer. -/
def State.secReport (s : State) (c : Nat) (r : KeyReq) : SecR :=
  let va := s.opnd r 0x08
  let nonce := memBytes s.mem (r.pa + 0x10) 32
  if va % 512 ≠ 0 then .fin secBadArg s
  else if s.secWait c r Acc.store va then .wait
  else
    match s.secVa c r Acc.store va with
    | none => .fin secBadArg s
    | some (pa, s) =>
      match secWrite (coreSock c) (pieces pa 512) (s.report c r nonce) s.useFree with
      | none => .wait
      | some s => .fin 1 s

/-- ATTEST. -/
def execAttest (c : Nat) (s : State) : Host.Outcome State Fault Refusal :=
  .next (s.secDo c (· = 0x01) (fun r s =>
    if r.world.isSome then .fin secWrongWorld s
    else if !s.isSealed (coreSock c) then .fin secNotSealed s
    else s.secReport c r))

/-- VREPORT. -/
def execVreport (c : Nat) (s : State) : Host.Outcome State Fault Refusal :=
  .next (s.secDo c (· = 0x02) (fun r s => s.secWorld c r true (fun s => s.secReport c r)))

/-! ### Keys (Table DOMN-3 STKKEY) -/

/-- The partition key or instance key STKKEY derives from: partitions and instances get a new one each time they are made. -/
def State.secKey (s : State) (k : Nat) (inst : Option Nat) : Nat :=
  match inst with
  | some g => (cellGet 0 s.keyGen (1024 + g) * 2 ^ 20 + g) * 2 + 1
  | none => (cellGet 0 s.keyGen (s.lowSock k) * 2 ^ 20 + s.lowSock k) * 2

/-- A new key for a partition (by its lowest socket), from 1024 up of an instance's image pages, and from 2^17 up of its data pages. -/
def State.newKey (s : State) (i : Nat) : State := { s with keyGen := cellSet 0 s.keyGen i (cellGet 0 s.keyGen i + 1) }

/-- The world a channel belongs to. -/
def State.chWorld (s : State) (k cell c : Nat) : Option Nat :=
  if s.rd Reg.stkChCfgVault (chIx k cell c) = 1 then some (s.lowSock k * 64 + s.rd Reg.stkChCfgInstance (chIx k cell c))
  else none

/-- Whether a channel is in neither world: between worlds, or quarantined (R155). -/
def State.chNowhere (s : State) (k cell c : Nat) : Bool :=
  s.chState k cell c = 5 ||
    s.handover.any (fun h => h.sock = k && decide (2 ≤ h.step) && h.unit % 2 ^ 32 = 1 + cell * 2 ^ 8 + c * 2 ^ 16)

/-- STKKEY; the label is taken as the doubleword at +0x10, whose size Table DOMN-3 does not state (log entry 19). -/
def execStkkey (c : Nat) (s : State) : Host.Outcome State Fault Refusal :=
  .next (s.secDo c (· = 0x03) (fun r s =>
    let k := coreSock c
    let o := s.opnd r 0x08
    let cell := natBits o 2 0
    let ch := natBits o 13 8
    let slot := natBits o 19 16
    if !(s.part k).full then .fin secAbsent s
    else if s.chNowhere k cell ch || s.chWorld k cell ch ≠ r.world.map (·.1) then .fin secNotAllowed s
    else
      let key := (stkKeyOf (s.secKey k (r.world.map (·.1))) r.domain (s.opnd r 0x10)).toNat
      .fin 1 (s.updStk k cell ch (fun x => { x with keys := cellSet none x.keys slot (some key) }))))

/-! ### Pages (R145-R148) -/

/-- The cached copies of a page's lines called home. -/
def State.pageRecall (s : State) (k pg : Nat) : State :=
  (List.range 64).foldl (fun s i => s.recallAll (pg * 64 + i) (s.target k (pg * 4096)).home) s

/-- Whether some line of a page cannot be reached now. -/
def State.pageBusy (s : State) (k pg : Nat) : Bool := (List.range 64).any (fun i => s.agentWaits k (pg * 64 + i))

/-- A page's contents replaced, its lines clean. -/
def State.pagePut (s : State) (k pg : Nat) (b : List Byte) : State :=
  let s := s.pageRecall k pg
  let s := (List.range 64).foldl (fun s i => (s.setPoison (pg * 64 + i) false).encrypted k (pg * 64 + i)) s
  { s with mem := memWrite (s.mem.filter (fun e => decide (e.1 / 4096 ≠ pg))) (pg * 4096) b
           macBad := s.macBad.filter (fun e => decide (e.1 / 64 ≠ pg)) }

/-- A page zeroed. -/
def State.pageZero (s : State) (k pg : Nat) : State := s.pagePut k pg []

/-- VCREATE: the lowest-numbered free instance of the partition. -/
def execVcreate (c : Nat) (s : State) : Host.Outcome State Fault Refusal :=
  .next (s.secDo c (· = 0x10) (fun r s => s.secWorld c r false (fun s =>
    let k := coreSock c
    match (List.range 64).find? (fun i => s.rd Reg.secViStateState (viIx (s.instOf k i)) = 0) with
    | none => .fin secNoResource s
    | some i =>
      let g := s.instOf k i
      match s.agentWrite (freeAgent k) k (r.pa + 8) (leBytes 8 i) with
      | (_, some { status := 256, .. }) => .wait
      | (s, _) =>
        let s := s.wrs (viIx g) [(Reg.secViStateState, 1), (Reg.secViStateSeats, 0), (Reg.secViStateBusy, 0), (Reg.secViWdog, 0),
          (Reg.secViRestarts, 0)]
        let s := (List.range 4).foldl (fun s j => s.wr Reg.secViDigest { viIx g with j := j } 0) s
        .fin 1 (((s.setVinst g VInst.free).newKey (1024 + g)).newKey (2 ^ 17 + g)))))

/-- The instance a request names, in a state `ok` admits. -/
def State.secInst (s : State) (c : Nat) (r : KeyReq) (ok : Nat → Bool) : Except Nat Nat :=
  let i := s.opnd r 0x08
  if 64 ≤ i then .error secBadArg
  else
    let g := s.instOf (coreSock c) i
    if ok (s.rd Reg.secViStateState (viIx g)) then .ok g else .error secState

/-- VADD. -/
def execVadd (c : Nat) (s : State) : Host.Outcome State Fault Refusal :=
  .next (s.secDo c (· = 0x11) (fun r s => s.secWorld c r false (fun s =>
    let k := coreSock c
    match s.secInst c r (· = 1) with
    | .error e => .fin e s
    | .ok g =>
      let src := s.opnd r 0x10
      let pa := s.opnd r 0x18
      let kind := natBits (s.opnd r 0x20) 1 0
      let pg := pa / 4096
      let isMem := match s.target k pa with | .dram _ _ | .cxl _ _ => true | _ => false
      if pa % 4096 ≠ 0 || !isMem || (s.pageOwner pa).1 ≠ 0 then .fin secBadArg s
      else if s.pageBusy k pg then .wait
      else
        let own (s : State) : State :=
          let v := s.vinst g
          { (s.setVinst g { v with pages := v.pages ++ [(pg, kind + 1)] }) with owner := cellSet (0, 0) s.owner pg (kind + 1, g) }
        if kind = 3 then .fin 1 (own (s.pageZero k pg))
        else if src % 4096 ≠ 0 then .fin secBadArg s
        else if s.secWait c r Acc.load src then .wait
        else
          match s.secVa c r Acc.load src with
          | none => .fin secBadArg s
          | some (sp, s) =>
            let s := (List.range 64).foldl (fun s i => s.touch k (sp / 64 + i)) s
            let isMem' := match s.target k sp with | .dram _ _ | .cxl _ _ => true | _ => false
            if !isMem' || (List.range 64).any (fun i => s.badLine (sp + 64 * i)) then .fin secBadArg s
            else if s.pageBusy k (sp / 4096) then .wait
            else .fin 1 (own (s.pagePut k pg (memBytes s.mem sp 4096))))))

/-- What the digest of an instance covers: every image page in order and bytes 0x10 to 0x3F of the VSEAL block (R148). -/
def State.digestOf (s : State) (v : VInst) : List Byte :=
  let img (i : Nat) (e : Nat × Nat) : List Byte :=
    if e.2 = 4 then [] else vaddHeader (e.2 - 1) (4096 * i) ++ memBytes s.mem (e.1 * 4096) 4096
  sha256 (((List.range v.pages.length).flatMap (fun i => img i (nth (0, 4) v.pages i))) ++ (v.vseal.drop 0x10))

/-- Whether an image page of the instance can no longer be read whole. -/
def State.imageBad (s : State) (v : VInst) : Bool :=
  v.pages.any (fun e => decide (e.2 ≠ 4) && (List.range 64).any (fun i => s.badLine (e.1 * 4096 + 64 * i)))

/-! ### Units (Tables DOMN-7 and DOMN-9, R155, R500) -/

/-- A unit word that names a unit. -/
def unitOk (u : Nat) : Bool :=
  let w := u % 2 ^ 63
  natBits w 7 4 = 0 && natBits w 15 11 = 0 && natBits w 62 32 = 0 &&
    ((natBits w 3 0 = 1 && natBits w 31 22 = 0) || (natBits w 3 0 = 2 && natBits w 10 10 = 0))

/-- A unit's number in the instance's records: its word without bit 63, and its socket. -/
def unitKey (k u : Nat) : Nat := u % 2 ^ 32 + k * 2 ^ 32

/-- Cell and channel of a kind-1 unit. -/
def unitCh (u : Nat) : Nat × Nat := (natBits u 10 8, natBits u 21 16)

/-- Root complex and requester ID of a kind-2 unit. -/
def unitFn (u : Nat) : Nat × Nat := (natBits u 9 8, natBits u 31 16)

/-- The instance a unit belongs to. -/
def State.unitOwner (s : State) (k u : Nat) : Option Nat :=
  (s.vault.find? (fun e => e.2.units.contains (unitKey k u))).map (·.1)

/-- Whether a unit is quarantined (Table DOMN-9 step 3a). -/
def State.unitQuar (s : State) (k u : Nat) : Bool :=
  if natBits u 3 0 = 1 then s.chState k (unitCh u).1 (unitCh u).2 = 5
  else (s.prc k (unitFn u).1).quar.contains (unitFn u).2

/-- A banked register of a seat. -/
def State.seatReg (s : State) (g seat n : Nat) : Nat := (cellGet 0 s.seatSr (seatKey g seat n)).toNat

/-- A doubleword of the VSEAL block. -/
def VInst.sealed (v : VInst) (o : Nat) : Nat := leNat ((v.vseal.drop o).take 8)

/-- The interrupt routes a unit may name marked with an instance, or given back (R154, step 4). -/
def State.unitRoutes (s : State) (k : Nat) (l : List Nat) (inst : Option Nat) : State :=
  l.foldl (fun s i =>
    let a : Ix := { sock := k, i := i % 4096 }
    (s.wr Reg.ihubRouteVault a (if inst.isSome then 1 else 0)).wr Reg.ihubRouteInstance a ((inst.getD 0) % 64)) s

/-- The routing indices of a unit. -/
def State.unitIdx (s : State) (k u : Nat) : List Nat :=
  if natBits u 3 0 = 1 then
    let a := chIx k (unitCh u).1 (unitCh u).2
    if s.rd Reg.stkChRouteValid a = 1 then [s.rd Reg.stkChRouteIndex a] else []
  else
    match (s.devCtx k (unitFn u).1 (unitFn u).2).2 with
    | .ok (w, _) => (List.range (cw w 6 23 16)).map (· + cw w 6 11 0)
    | .error _ => []

/-- A unit's context and routes rewritten to an instance (step 4): a channel walks from the sealed PTB with every right, a function's
context goes to an internal slot with its routing indices. -/
def State.unitTo (s : State) (k u g : Nat) : State :=
  let v := s.vinst g
  let idx := s.unitIdx k u
  let ptb := natBits (v.sealed 0x10) 56 12
  let sid := natBits (v.sealed 0x30) 31 16
  let s :=
    if natBits u 3 0 = 1 then
      s.wrs (chIx k (unitCh u).1 (unitCh u).2) [(Reg.stkChXlatEn, 1), (Reg.stkChXlatS2, 0), (Reg.stkChXlatSid, sid),
        (Reg.stkChXlatVmid, 0), (Reg.stkChPtb, ptb), (Reg.stkChKr0, 2 ^ 64 - 1), (Reg.stkChKr1, 2 ^ 64 - 1),
        (Reg.stkChCfgVault, 1), (Reg.stkChCfgInstance, g % 64)]
    else
      let n := (unitFn u).1
      let rid := (unitFn u).2
      let ir := match (s.devCtx k n rid).2 with | .ok (w, _) => nth 0 w 6 | .error _ => 0
      let w : List Nat := [3 + sid * 2 ^ 16, ptb * 4096, 0, 0, 2 ^ 64 - 1, 2 ^ 64 - 1, ir, 0]
      (s.updPrc k n (fun x => { x with fns := x.fns.filter (fun f => decide (f.rid ≠ rid)) ++ [{ rid := rid, inst := g, w := w }] })).iotlbDrop
        k n (fun r => r = rid)
  (s.unitRoutes k idx (some g)).setVinst g { v with units := unitKey k u :: v.units.filter (· ≠ unitKey k u) }

/-- A unit's context and routes given back to the normal world (step 4). -/
def State.unitFrom (s : State) (k u g : Nat) : State :=
  let v := s.vinst g
  let idx := s.unitIdx k u
  let s :=
    if natBits u 3 0 = 1 then
      s.wrs (chIx k (unitCh u).1 (unitCh u).2) [(Reg.stkChXlatEn, 0), (Reg.stkChXlatS2, 0), (Reg.stkChXlatSid, 0),
        (Reg.stkChXlatVmid, 0), (Reg.stkChPtb, 0), (Reg.stkChKr0, 0), (Reg.stkChKr1, 0), (Reg.stkChCfgVault, 0),
        (Reg.stkChCfgInstance, 0)]
    else
      let n := (unitFn u).1
      let rid := (unitFn u).2
      (s.updPrc k n (fun x => { x with fns := x.fns.filter (fun f => decide (f.rid ≠ rid)),
                                       ctxs := x.ctxs.filter (fun e => decide (e.1 ≠ rid)) })).iotlbDrop k n (fun r => r = rid)
  (s.unitRoutes k idx none).setVinst g { v with units := v.units.filter (· ≠ unitKey k u) }

/-- Whether a unit is between worlds. -/
def State.unitMoving (s : State) (k u : Nat) : Bool := s.handover.any (fun h => h.sock = k && unitKey k h.unit = unitKey k u)

/-- A unit hand-over asked for: steps begin, and the request completes later (R155). -/
def State.unitAsk (s : State) (c : Nat) (r : KeyReq) (u g : Nat) : SecR :=
  .later { s with handover := s.handover ++ [{ sock := coreSock c, unit := u % 2 ^ 32, inst := g, op := r.op, step := 1, core := c,
                                               cancelled := false }] }

/-- VASSIGN; `sw` says that the function lies behind a CXL switch, which cannot be assigned (R500). -/
def execVassign (c : Nat) (sw : Bool) (s : State) : Host.Outcome State Fault Refusal :=
  .next (s.secDo c (· = 0x14) (fun r s => s.secWorld c r false (fun s =>
    if s.handover.any (fun h => h.core = c) then .later s
    else
      match s.secInst c r (· = 2) with
      | .error e => .fin e s
      | .ok g =>
        let k := coreSock c
        let u := s.opnd r 0x10
        if !unitOk u || u.testBit 63 then .fin secBadArg s
        else if s.unitMoving k u then .fin secState s
        else if !((s.vinst g).allow.any (fun a => a % 2 ^ 63 = u)) || (s.unitOwner k u).isSome || s.unitQuar k u ||
            (natBits u 3 0 = 2 && sw) then .fin secNotAllowed s
        else if 16 ≤ (s.vinst g).units.length || (natBits u 3 0 = 2 && 64 ≤ (s.prc k (unitFn u).1).fns.length) then
          .fin secNoResource s
        else s.unitAsk c r u g)))

/-- VRELEASE, from the instance that has the unit. -/
def execVrelease (c : Nat) (s : State) : Host.Outcome State Fault Refusal :=
  .next (s.secDo c (· = 0x15) (fun r s => s.secWorld c r true (fun s =>
    if s.handover.any (fun h => h.core = c) then .later s
    else
      let k := coreSock c
      let u := s.opnd r 0x10
      if !unitOk u || u.testBit 63 then .fin secBadArg s
      else if s.unitMoving k u then .fin secState s
      else if s.unitOwner k u ≠ r.world.map (·.1) then .fin secNotAllowed s
      else s.unitAsk c r u ((r.world.map (·.1)).getD 0))))

/-- VRECLAIM. -/
def execVreclaim (c : Nat) (s : State) : Host.Outcome State Fault Refusal :=
  .next (s.secDo c (· = 0x16) (fun r s => s.secWorld c r false (fun s =>
    if s.handover.any (fun h => h.core = c) then .later s
    else
      match s.secInst c r (· = 2) with
      | .error e => .fin e s
      | .ok g =>
        let k := coreSock c
        let u := s.opnd r 0x10
        if !unitOk u || u.testBit 63 then .fin secBadArg s
        else if s.unitMoving k u then .fin secState s
        else if s.unitOwner k u ≠ some g then .fin secNotAllowed s
        else s.unitAsk c r u g)))

/-- The hand-over of a unit, if one is at step `st`. -/
def State.moving (s : State) (k u st : Nat) : Option HandOver :=
  s.handover.find? (fun h => h.sock = k && h.unit = u && h.step = st)

/-- A hand-over moved on. -/
def State.moveTo (s : State) (h : HandOver) (st : Nat) : State :=
  { s with handover := s.handover.map (fun x => if x = h then { x with step := st } else x) }

/-- A hand-over over. -/
def State.moved (s : State) (h : HandOver) : State := { s with handover := s.handover.filter (fun x => decide (x ≠ h)) }

/-- UNIT_WORK_STOPPED: the unit takes no more work and its reset is asked for (steps 1 and 2). -/
def execUnitWorkStopped (k u : Nat) (s : State) : Host.Outcome State Fault Refusal :=
  .next (match s.moving k u 1 with
    | none => s
    | some h =>
      let s := s.moveTo h 2
      if natBits u 3 0 = 1 then s.stkReset k (unitCh u).1 (unitCh u).2 true
      else s.updPrc k (unitFn u).1 (fun x => { x with stopped := (unitFn u).2 :: x.stopped.filter (· ≠ (unitFn u).2) }))

/-- A unit that has been moved, or has not, takes work again, and its interrupts held until then go out (R155). -/
def State.unitFree (s : State) (k u : Nat) : State :=
  if natBits u 3 0 = 1 then
    let c := unitCh u
    let irq := (s.stk k c.1 c.2).irq
    let s := s.updStk k c.1 c.2 (fun x => { x with hold := false, irq := false })
    let s := if s.chState k c.1 c.2 = 4 then s.setChState k c.1 c.2 (if s.rd Reg.stkChCfgEn (chIx k c.1 c.2) = 1 then 1 else 0) else s
    if irq then s.stkIrq k c.1 c.2 else s
  else
    (s.updPrc k (unitFn u).1 (fun x => { x with stopped := x.stopped.filter (· ≠ (unitFn u).2) })).msiRelease k (unitFn u).1 (unitFn u).2

/-- The status of a hand-over written to the request of the core that asked; `none` when it must wait. -/
def State.moveEnd (s : State) (h : HandOver) (st : Nat) : Option State :=
  match (s.core h.core).keyReq with
  | some r => (s.moved h).secEnd h.core r st
  | none => some (s.moved h)

/-- The reset of a function of a restarting instance is complete (step 4 of Table DOMN-8); the function stays assigned and stopped. -/
def State.resetDone (s : State) (k u : Nat) : State :=
  match s.vault.find? (fun e => e.2.resets.contains (unitKey k u)) with
  | some e => s.setVinst e.1 { e.2 with resets := e.2.resets.filter (· ≠ unitKey k u) }
  | none => s

/-- UNIT_RESET_COMPLETE: step 4 for the world the unit goes to; a hand-over into an instance that has restarted ends here, the unit
staying with the normal world (R155). -/
def execUnitResetComplete (k u : Nat) (s : State) : Host.Outcome State Fault Refusal :=
  .next (match s.moving k u 2 with
    | none => s.resetDone k u
    | some h =>
      if natBits u 3 0 = 1 && s.chState k (unitCh u).1 (unitCh u).2 ≠ 4 then s
      else if natBits u 3 0 = 2 && (match (s.devCtx k (unitFn u).1 (unitFn u).2).2 with | .error true => true | _ => false) then s
      else if h.cancelled then ((s.unitFree k u).moveEnd h secState).getD s
      else (if h.op = 0x14 then s.unitTo k u h.inst else s.unitFrom k u h.inst).moveTo h 4)

/-- A unit quarantined, in neither world, counted and recorded (step 3a of Table DOMN-9). -/
def State.unitQuarantine (s : State) (k u g : Nat) : State :=
  let s := s.bump Reg.secQuarantine { sock := k }
  let v := s.vinst g
  let s := s.setVinst g { v with units := v.units.filter (· ≠ unitKey k u), resets := v.resets.filter (· ≠ unitKey k u) }
  if natBits u 3 0 = 1 then
    let s := (s.setChState k (unitCh u).1 (unitCh u).2 5).updStk k (unitCh u).1 (unitCh u).2 (fun x =>
      { x with hold := false, irq := false })
    s.ash k { cls := 3, src := 0x50, inst := (unitCh u).1, code := 0x05, part := s.partition k, d4 := (unitCh u).2, d5 := 5 }
  else
    let rid := (unitFn u).2
    (s.updPrc k (unitFn u).1 (fun x => { x with quar := rid :: x.quar, stopped := x.stopped.filter (· ≠ rid),
                                                msis := x.msis.filter (fun e => e.1 ≠ rid),
                                                fns := x.fns.filter (fun f => decide (f.rid ≠ rid)) })).prcAsh
      k (unitFn u).1 3 0x05 rid 0 0 0

/-- The restarting instance that waits for a unit's reset (step 4 of Table DOMN-8). -/
def State.resetFor (s : State) (k u : Nat) : Option Nat :=
  (s.vault.find? (fun e => e.2.step = 2 && e.2.units.contains (unitKey k u) &&
    (e.2.resets.contains (unitKey k u) || (natBits u 3 0 = 1 && s.chState k (unitCh u).1 (unitCh u).2 = 3)))).map (·.1)

/-- UNIT_RESET_TIMEOUT: the unit is quarantined, in neither world (step 3a), also one that a restart resets. -/
def execUnitResetTimeout (k u : Nat) (s : State) : Host.Outcome State Fault Refusal :=
  .next (match s.moving k u 2 with
    | none =>
      match s.resetFor k u with
      | some g => s.unitQuarantine k u g
      | none => s
    | some h =>
      if natBits u 3 0 = 1 && s.chState k (unitCh u).1 (unitCh u).2 = 4 then s
      else let s1 := s.unitQuarantine k u h.inst; (s1.moveEnd h secUnitFailed).getD s)

/-- UNIT_ROUTES_REWRITTEN: the unit takes work in its new world, the request is DONE, and an instance that lost it against its
will is told at its next entry (step 5, R185). -/
def execUnitRoutesRewritten (k u : Nat) (s : State) : Host.Outcome State Fault Refusal :=
  .next (match s.moving k u 4 with
    | none => s
    | some h =>
      let s1 := s.unitFree k u
      let s1 := if h.op = 0x16 then s1.setVinst h.inst { s1.vinst h.inst with revoked := true } else s1
      (s1.moveEnd h 1).getD s)

/-! ### VSEAL (R148) -/

/-- The banked registers of every seat at their VSEAL values (Tables DOMN-6 and DOMN-10). -/
def State.sealSeats (s : State) (g : Nat) (v : VInst) : State :=
  let base := v.sealed 0x20
  let stride := natBits (v.sealed 0x28) 15 0 * 4096
  (List.range 64).foldl (fun s seat =>
    let put (s : State) (n x : Nat) : State :=
      { s with seatSr := cellSet 0 s.seatSr (seatKey g seat n) (BitVec.ofNat 64 x) }
    if natBits (v.sealed 0x28) 23 16 ≤ seat then s
    else
      [(SR.SSP, base + (2 * seat + 1) * stride), (SR.FSLIMIT, base + (2 * seat + 1) * stride),
       (SR.FSP, base + (2 * seat + 2) * stride), (SR.EVENT_ENTRY, v.sealed 0x18),
       (SR.EVENT_AUTH, natBits (v.sealed 0x30) 10 0), (SR.EVENT_KEYS0, (srReset SR.EVENT_KEYS0).toNat),
       (SR.EVENT_KEYS1, (srReset SR.EVENT_KEYS1).toNat), (SR.PTB, v.sealed 0x10),
       (SR.SID, natBits (v.sealed 0x30) 31 16), (SR.XLATCTL, 1), (SR.TCMP, 0)].foldl (fun s e => put s e.1 e.2) s) s

/-- The regime in which the addresses of a VSEAL block are looked up: that of the instance's own world. -/
def sealX (k g ptb sid : Nat) : XCtx :=
  { sock := k, s1 := true, s2 := false, root1 := natBits ptb 56 12 * 4096, root2 := 0, adu := false, s2adu := false,
    world := some g, sid := sid, vm := 0, kr0 := 0, kr1 := 0, queue := [], who := freeAgent k }

/-- The page of the instance an address of its own world names. -/
def State.sealPage (s : State) (k g ptb sid va : Nat) : Option (Nat × Nat) :=
  match translate (sealX k g ptb sid) [] [] Acc.load (BitVec.ofNat 64 va) s with
  | .ok t s => if (s.pageOwner t.pa).1 ≠ 0 && (s.pageOwner t.pa).2 = g then some (s.pageOwner t.pa) else none
  | _ => none

/-- Whether looking up an address of the instance's own world must wait for a line. -/
def State.sealWait (s : State) (k g ptb sid va : Nat) : Bool :=
  match translate (sealX k g ptb sid) [] [] Acc.load (BitVec.ofNat 64 va) s with
  | .wait => true
  | _ => false

/-- Whether the VSEAL block is refused with BAD_ARG (R148). -/
def State.sealBad (s : State) (k g : Nat) (v : VInst) : Bool :=
  let w := v.sealed 0x28
  let seats := natBits w 23 16
  let pages := 2 * natBits w 15 0 * seats
  let ptb := v.sealed 0x10
  let sid := natBits (v.sealed 0x30) 31 16
  let o := s.pageOwner (natBits ptb 56 12 * 4096)
  seats = 0 || decide (64 < seats) || natBits w 55 24 = 0 || decide (1000000 < natBits w 55 24) || v.sealed 0x20 % 4096 ≠ 0 ||
    o.1 = 0 || o.2 ≠ g || (s.sealPage k g ptb sid (v.sealed 0x18)).isNone ||
    !((List.range pages).all (fun i => (s.sealPage k g ptb sid (v.sealed 0x20 + 4096 * i)).isSome))

/-- Whether VSEAL must wait for a line of a table: of the seat area, the event entry or the allowlist. -/
def State.vsealWaits (s : State) (c : Nat) (r : KeyReq) (g : Nat) (v : VInst) : Bool :=
  let k := coreSock c
  let w := v.sealed 0x28
  let at' (va : Nat) : Bool := s.sealWait k g (v.sealed 0x10) (natBits (v.sealed 0x30) 31 16) va
  at' (v.sealed 0x18) || (List.range (2 * natBits w 15 0 * min 64 (natBits w 23 16))).any (fun i => at' (v.sealed 0x20 + 4096 * i)) ||
    (List.range 17).any (fun i => s.secWait c r Acc.load (v.sealed 0x38 + 8 * i))

/-- The allowlist at a virtual address: a count of at most 16 and that many unit words. -/
def State.secAllow (s : State) (c : Nat) (r : KeyReq) (va : Nat) : Option (List Nat) :=
  let rd8 (i : Nat) : Option Nat := match s.secVa c r Acc.load (va + 8 * i) with
    | some (pa, _) => if s.badLine pa then none else some (memNat s.mem pa 8)
    | none => none
  if va % 8 ≠ 0 then none
  else
    match rd8 0 with
    | none => none
    | some n =>
      if 16 < n then none
      else
        let l := (List.range n).map (fun i => rd8 (i + 1))
        if l.all (fun x => match x with | some u => unitOk u | none => false) then some (l.map (·.getD 0)) else none

/-- A channel or function given to an instance at once: reset first, so that nothing crosses between worlds. -/
def State.unitNow (s : State) (k g u : Nat) : State :=
  let s := if natBits u 3 0 = 1 then
      let x := (s.stkReset k (unitCh u).1 (unitCh u).2 false)
      if (x.stk k (unitCh u).1 (unitCh u).2).infl.isEmpty then x else x.stkStop k (unitCh u).1 (unitCh u).2
    else s
  s.unitTo k u g

/-- VSEAL. -/
def execVseal (c : Nat) (s : State) : Host.Outcome State Fault Refusal :=
  .next (s.secDo c (· = 0x12) (fun r s => s.secWorld c r false (fun s =>
    let k := coreSock c
    match s.secInst c r (· = 1) with
    | .error e => .fin e s
    | .ok g =>
      let v := { s.vinst g with vseal := memBytes s.mem r.pa 64 }
      if s.vsealWaits c r g v then .wait else
      match s.secAllow c r (v.sealed 0x38) with
      | none => .fin secBadArg s
      | some l =>
        let now := l.filter (·.testBit 63)
        if s.sealBad k g v then .fin secBadArg s
        else if now.any (fun u => (s.unitOwner k u).isSome || s.unitMoving k u || s.unitQuar k u) then .fin secNotAllowed s
        else
          let v := { v with allow := l }
          let d := s.digestOf v
          let s := (s.setVinst g v).wrs (viIx g) [(Reg.secViStateState, 2), (Reg.secViStateSeats, natBits (v.sealed 0x28) 23 16),
            (Reg.secViStateBusy, 0), (Reg.secViWdog, natBits (v.sealed 0x28) 55 24), (Reg.secViRestarts, 0)]
          let s := (List.range 4).foldl (fun s j => s.wr Reg.secViDigest { viIx g with j := j } (leNat ((d.drop (8 * j)).take 8))) s
          .fin 1 (now.foldl (fun s u => s.unitNow k g (u % 2 ^ 32)) (s.sealSeats g v)))))

/-! ### Seats given up (R158) -/

/-- Bytes of the seat's stack as its own regime finds them; where they cannot be read the spec leaves them open. -/
def State.seatBytes (s : State) (c n : Nat) (va : Word) : List Byte :=
  match translate (s.xctx c) [] [] Acc.load va s with
  | .ok t s => if s.badLine t.pa then s.freeBytes n else memBytes s.mem t.pa n
  | _ => s.freeBytes n

/-- A pending arithmetic exception of the seat's code is delivered there before anything else (R87): `none` while its frame must wait. -/
def State.seatArith (s : State) (c : Nat) : Option State :=
  if (s.sr c SR.FPSTAT).getLsbD 8 then
    match s.enter c { cause := 0, rpc := s.pc c, epc := s.pc c } false false with
    | .entered s => some s
    | .arith s => some s
    | .noRoom _ s => some (s.setSr c SR.FPSTAT (s.sr c SR.FPSTAT &&& ~~~(0x100 : Word)))
    | .wait => none
  else some s

/-- The normal-world state of a core that leaves its seat: of a gate's record as GRET would restore it, or of the interrupt's frame; a
core whose interrupt found no room for its frame never gave its state up (R158). -/
def State.seatCaller (s : State) (c : Nat) : Option SeatIn → State
  | none => s
  | some i =>
    let b := s.seatBytes c (if i.frame then 128 else 48) i.addr
    let fw (j : Nat) : Nat := leNat ((b.drop (8 * j)).take 8)
    let s := s.useFree.updCore c (fun q =>
      let set (a k0 k1 d : Nat) : Core :=
        (((q.setSrOwn SR.AUTH (BitVec.ofNat 64 (a % 2 ^ 11))).setSrOwn SR.KRIGHTS0 (BitVec.ofNat 64 k0)).setSrOwn SR.KRIGHTS1
          (BitVec.ofNat 64 k1)).setSrOwn SR.DOMAIN (BitVec.ofNat 64 d)
      let q := if i.frame then (set (fw 4) (fw 5) (fw 6) (natBits (fw 0) 51 36)).setG 1 (BitVec.ofNat 64 (fw 9))
        else (set (fw 2) (fw 3) (fw 4) (natBits (fw 0) 63 48)).setG 25 (BitVec.ofNat 64 (fw 5))
      { q with pc := BitVec.ofNat 64 (fw 1) })
    s.wrs (coreIx c) [(Reg.ihubCoreCstateRpri, i.rpri), (Reg.ihubCoreCstateDepth, i.depth)]

/-- A core gives up its seat at an instruction boundary and takes VAULT_RESTARTED in the normal world, with the caller's state of the
gate's record, or the interrupted state of the frame, and the running priority and depth it came with (steps 2 and 3 of Table DOMN-8,
R158; log entry 19): `none` when it cannot yet. -/
def State.abandonSeat (s : State) (c : Nat) : Option State :=
  let k := s.core c
  match k.world with
  | none => none
  | some w =>
    if k.frozen || k.devWait.isSome || k.win.isSome then none
    else
      let s := if k.region.isSome then s.abortRegion c 7 0 else s
      match (s.drain c).bind (fun s => (s.seatArith c).bind (fun s => s.drain c)) with
      | none => none
      | some s =>
        let was := s.hardened c
        let s := (s.updCore c (fun q => { q with wait := none, fence := none })).seatCaller c k.seatIn
        let s := s.wr Reg.pwrCoreCstate (coreIx c) 0
        let s := ((s.setWorld c none).repredict c was).updCore c (fun q =>
          { q with keyReq := match q.keyReq with | some r => if r.op = 0x17 then none else some r | none => none })
        s.raise c { cause := 0x0504, rpc := s.pc c, epc := s.pc c, info := w.1 % 64 * 2 ^ 28 }

/-- VAULT_SEAT_ABANDON. -/
def execVaultSeatAbandon (c : Nat) (s : State) : Host.Outcome State Fault Refusal :=
  .next (match (s.core c).world with
    | some w => if s.rd Reg.secViStateState (viIx w.1) = 3 then (s.abandonSeat c).getD s else s
    | none => s)

/-! ### Destruction -/

/-- Every seat of an instance given up, each core taking VAULT_RESTARTED as in a restart (log entry 19); `none` when one cannot be yet. -/
def State.evictSeats (s : State) (g : Nat) : Option State :=
  (s.cores.filter (fun (e : Nat × Core) => e.2.world.map (·.1) = some g)).foldl (fun o e => o.bind (fun s => s.abandonSeat e.1)) (some s)

/-- VDESTROY: a restart under way ends first (R159); seats are evicted, units reset and returned, pages zeroed and returned. -/
def execVdestroy (c : Nat) (s : State) : Host.Outcome State Fault Refusal :=
  .next (s.secDo c (· = 0x13) (fun r s => s.secWorld c r false (fun s =>
    let k := coreSock c
    match s.secInst c r (· ≠ 0) with
    | .error e => .fin e s
    | .ok g =>
      if s.rd Reg.secViStateState (viIx g) = 3 || s.handover.any (fun h => h.inst = g) ||
          (s.vinst g).pages.any (fun e => s.pageBusy k e.1) then .wait
      else
        match s.evictSeats g with
        | none => .wait
        | some s =>
          let v := s.vinst g
          let s := v.units.foldl (fun s x =>
            let h := x / 2 ^ 32
            let u := x % 2 ^ 32
            let s := if natBits u 3 0 = 1 then
                let y := s.stkReset h (unitCh u).1 (unitCh u).2 false
                if (y.stk h (unitCh u).1 (unitCh u).2).infl.isEmpty then y else y.stkStop h (unitCh u).1 (unitCh u).2
              else s
            (s.unitFrom h u g).unitFree h u) s
          let s := v.pages.foldl (fun (s : State) (e : Nat × Nat) =>
            let s := s.pageZero k e.1
            { s with owner := cellErase s.owner e.1 }) s
          let s := s.wrs (viIx g) [(Reg.secViStateState, 0), (Reg.secViStateSeats, 0), (Reg.secViStateBusy, 0), (Reg.secViWdog, 0)]
          .fin 1 (((s.setVinst g VInst.free).newKey (1024 + g)).newKey (2 ^ 17 + g)))))

/-! ### Watchdog and restart (R156-R159, Table DOMN-8) -/

/-- VRESTART: from the Vault world it starts or joins a restart and writes no status (R142). -/
def execVrestart (c : Nat) (s : State) : Host.Outcome State Fault Refusal :=
  .next (s.secDo c (· = 0x17) (fun r s => s.secWorld c r true (fun s =>
    .later (match r.world with | some w => s.vaultTrigger w.1 | none => s))))

/-- VI_KICK written by core `c` for instance `i` of its partition: only that instance's own code reloads its watchdog (R160). -/
def State.viKick (s : State) (c i : Nat) : State :=
  let g := s.instOf (coreSock c) i
  if (s.core c).world.map (·.1) = some g then s.setVinst g { s.vinst g with kick := s.now (g / 64) } else s

/-- VI_KICK. -/
def execViKick (c i : Nat) (s : State) : Host.Outcome State Fault Refusal := .next (s.viKick c (i % 64))

/-- VAULT_WATCHDOG_EXPIRY of instance `i` of the partition of socket `k`: it counts only while a seat is occupied, and the VSEAL period
in µs has passed since it was reloaded (R156). -/
def execVaultWatchdogExpiry (k i : Nat) (s : State) : Host.Outcome State Fault Refusal :=
  .next (
    let g := s.instOf k (i % 64)
    if s.rd Reg.secViStateBusy (viIx g) = 0 || s.now (g / 64) < (s.vinst g).kick + 1000 * s.rd Reg.secViWdog (viIx g) then s
    else s.vaultTrigger g)

/-- VAULT_RESTART: step 1, a trigger. -/
def execVaultRestart (k i : Nat) (s : State) : Host.Outcome State Fault Refusal :=
  .next (s.vaultTrigger (s.instOf k (i % 64)))

/-- Whether a socket's security controller can go on with a restart: it runs, and no hold-up save pre-empts it (R159, R563). -/
def State.restartRuns (s : State) (m : Nat) : Bool := s.live m && (cellGet Pwr.idle s.pwrs m).save.isNone

/-- VAULT_UNITS_RESET: every seat given up, the instance's units are stopped and their reset asked for; they stay assigned (step 4). -/
def execVaultUnitsReset (k i : Nat) (s : State) : Host.Outcome State Fault Refusal :=
  .next (
    let g := s.instOf k (i % 64)
    let v := s.vinst g
    if v.step ≠ 1 || !s.restartRuns (g / 64) || s.cores.any (fun (e : Nat × Core) => e.2.world.map (·.1) = some g) then s
    else
      let s := v.units.foldl (fun s x =>
        let h := x / 2 ^ 32
        let u := x % 2 ^ 32
        if natBits u 3 0 = 1 then s.stkReset h (unitCh u).1 (unitCh u).2 false
        else (s.updPrc h (unitFn u).1 (fun x => { x with stopped := (unitFn u).2 :: x.stopped.filter (· ≠ (unitFn u).2) })).iotlbDrop
          h (unitFn u).1 (fun r => r = (unitFn u).2)) s
      s.setVinst g { v with step := 2, resets := v.units.filter (fun x => natBits x 3 0 = 2) })

/-- VAULT_DATA_CLEARED: every unit reset, a new data key is generated, data pages are zeroed, the instance's lines leave every cache
(step 5). -/
def execVaultDataCleared (k i : Nat) (s : State) : Host.Outcome State Fault Refusal :=
  .next (
    let g := s.instOf k (i % 64)
    let v := s.vinst g
    let draining (x : Nat) : Bool := natBits x 3 0 = 1 && s.chState (x / 2 ^ 32) (unitCh x).1 (unitCh x).2 = 3
    if v.step ≠ 2 || !s.restartRuns (g / 64) || v.units.any draining || !v.resets.isEmpty || v.pages.any (fun e => s.pageBusy k e.1) then s
    else
      let s := v.pages.foldl (fun (s : State) (e : Nat × Nat) => if e.2 = 4 then s.pageZero k e.1 else s.pageRecall k e.1) s
      (s.newKey (2 ^ 17 + g)).setVinst g { v with step := 3 })

/-- VAULT_DIGEST_CHECK: the image is hashed again; equal to VI_DIGEST the instance runs (step 7) and its functions' DMA with it, otherwise
it is LOST (step 7a). -/
def execVaultDigestCheck (k i : Nat) (s : State) : Host.Outcome State Fault Refusal :=
  .next (
    let g := s.instOf k (i % 64)
    let v := s.vinst g
    let m := g / 64
    if v.step ≠ 3 || !s.restartRuns m then s
    else
      let d := s.digestOf v
      let same := !s.imageBad v &&
        (List.range 4).all (fun j => s.rd Reg.secViDigest { viIx g with j := j } = leNat ((d.drop (8 * j)).take 8))
      let s := s.setVinst g { v with step := 0 }
      if same then
        let s := ((s.sealSeats g v).wr Reg.secViStateState (viIx g) 2).bump Reg.secViRestarts (viIx g)
        let s := (v.units.filter (fun x => natBits x 3 0 = 2)).foldl (fun s x => s.unitFree (x / 2 ^ 32) (x % 2 ^ 32)) s
        s.lossNotify m 256 (s.rd Reg.ihubSysvecVaultRestarted { sock := m })
      else
        let s := s.wr Reg.secViStateState (viIx g) 4
        let s := s.ash m { cls := 3, src := 0x70, code := 0x09, part := s.partition m, d4 := g % 64 }
        s.lossNotify m 256 (s.rd Reg.ihubSysvecVaultLost { sock := m }))

end Sys2Proof.Machine
end

