-- ==== Sys2Proof/Machine/Power.lean ====
section
/-!
DEFINITION. Machine/Power.lean: power sequences and requests, clocks and the Damper, package states, unit power, the resets, start-up
and the hold-up save (R531-R567), with the stop of a partition (Table FLUE-10).
-/
namespace Sys2Proof.Machine

/-- A socket's power control. -/
def State.pw (s : State) (k : Nat) : Pwr := cellGet Pwr.idle s.pwrs k

/-- A socket's power control changed. -/
def State.updPw (s : State) (k : Nat) (f : Pwr → Pwr) : State := { s with pwrs := cellSet Pwr.idle s.pwrs k (f (s.pw k)) }

/-- An Ashpan entry of the power block; the condition code and the form of W4 are not stated and are left open (log entry 1). -/
def State.pwrAsh (s : State) (k cls : Nat) : State :=
  ((s.useFree).useFree).ash k { cls := cls, src := 0x80, code := s.freeNat 8, part := s.partition k, d4 := s.useFree.freeNat 64 }

/-! ### What a reset drops (Table POWR-9) -/

/-- The socket, and its place in it, of a listed register field. -/
def keySock (key : Nat) : Nat := key / 1024 % 1024

/-- The fields of the save store, which no reset touches (R511, Table POWR-13), with those that the standby domain alone sets. -/
def savedFields : List Nat :=
  [Reg.ashSaved, Reg.ashSummary, Reg.ashNvValid, Reg.ashNvCause, Reg.pwrSaveCause, Reg.pwrSaveStateat, Reg.pwrSaveDone,
   Reg.pwrSaveSaves, Reg.pwrSaveDuration, Reg.pwrMgcStatI3c, Reg.pwrMgcStatDynaddr].map Fld.id

/-- Register fields of a socket that `p` names back at their reset values, unlocked and with nothing pending. -/
def State.regsBack (s : State) (k : Nat) (p : Nat → Bool) : State :=
  let keep (key : Nat) : Bool := decide (keySock key ≠ k) || !p (key % 1024)
  { s with regs := s.regs.filter (fun e => keep e.1)
           shadow := s.shadow.filter (fun e => keep e.1)
           locked := s.locked.filter (fun e => keep e.1) }

/-- Everything a socket has in flight dropped: its mesh, queues, transactions, engines and what its cores have asked of others. -/
def State.inFlightGone (s : State) (k : Nat) : State :=
  let far (n key : Nat) : Bool := decide (key / n ≠ k)
  let lineFar (ln : Nat) : Bool := decide ((s.target k (ln * 64)).home ≠ k)
  { s with meshIn := s.meshIn.filter (fun e => far (2 ^ 15) e.1)
           meshReplay := s.meshReplay.filter (fun e => far 512 e.1)
           meshDue := s.meshDue.filter (fun e => far (2 ^ 18) e.1)
           meshNak := s.meshNak.filter (fun e => far (2 ^ 18) e.1)
           mlinks := s.mlinks.filter (fun e => far 4096 e.1)
           arbs := s.arbs.filter (fun e => far (2 ^ 20) e.1)
           commitLeft := cellErase s.commitLeft k
           bucketDebt := s.bucketDebt.filter (fun e => far 512 e.1)
           gateQ := s.gateQ.filter (fun e => far 512 e.1)
           abuf := s.abuf.filter (fun e => far 512 e.1)
           retire := cellErase s.retire k
           txns := s.txns.filter (fun t => decide (t.home ≠ k) && decide (coreSock t.req.frm ≠ k))
           net := s.net.filter (fun m => lineFar m.ln)
           hq := s.hq.filter (fun r => decide (coreSock r.frm ≠ k) && lineFar r.ln)
           retried := s.retried.filter (fun r => decide (coreSock r.frm ≠ k) && lineFar r.ln)
           stkChs := s.stkChs.filter (fun e => far 512 e.1)
           stkCells := s.stkCells.filter (fun e => far 8 e.1)
           rids := s.rids.filter (fun e => far 16 e.1)
           prcs := s.prcs.filter (fun e => far 4 e.1)
           iotlb := s.iotlb.filter (fun e =>
             if e.1 < 2 ^ 50 then far 512 (e.1 - 2 ^ 40) else far 4 ((e.1 - 2 ^ 50) / 2 ^ 33))
           ipis := s.ipis.filter (fun i => decide (i.sock ≠ k))
           pafs := s.pafs.filter (fun p => decide (coreSock p.1 ≠ k))
           tlbis := (s.tlbis.filter (fun t => decide (coreSock t.core ≠ k))).map (fun t =>
             { t with socks := t.socks.filter (fun x => decide (x.sock ≠ k)) })
           acts := s.acts.filter (fun a => decide (a.1 ≠ k) || decide (a.2 < 2 ^ 20))
           handoffs := s.handoffs.filter (fun h => decide (coreSock h.core ≠ k))
           lockrecs := s.lockrecs.filter (fun r => decide (r.sock ≠ k)) }

/-- The keys of a Sealed partition discarded: new ones the next time, no flue keyed, and what was written under the old ones unreadable: open
values (R135, log entry 1). -/
def State.keysGone (s : State) (k p : Nat) : State :=
  let socks := s.partSocks k
  let s := s.newKey (s.lowSock k)
  let s := (socks.flatMap (fun d => (List.range 6).map (fun n => (d, n)))).foldl (fun s x =>
    let f := s.flue x.1 x.2
    let l := f.keyed.filter (· ≠ p)
    if f.keyed.contains p then
      (s.setFlue x.1 x.2 { f with keyed := l }).wr Reg.flueStateSealed (flueIx x.1 x.2) (if l.isEmpty then 0 else 1)
    else s) s
  let mine := (s.enc.map (·.1)).filter (fun ln => match s.target k (ln * 64) with | .dram _ _ => true | .cxl _ _ => true | _ => false)
  mine.foldl (fun s ln =>
    { s with mem := memWrite s.mem (ln * 64) ((List.range 64).map (fun i => freeBits 8 (s.free + i))), free := s.free + 64
             macBad := cellErase s.macBad ln, enc := cellErase s.enc ln }) s

/-- The keys of the socket's partition discarded if it is Sealed. -/
def State.sealedReset (s : State) (k : Nat) : State := if s.isSealed k then s.keysGone k (s.partition k) else s

/-- The seats of a socket's cores given up, a crash of each instance that runs elsewhere (R152). -/
def State.seatsGone (s : State) (k : Nat) : State :=
  (s.cores.filter (fun e => decide (coreSock e.1 = k))).foldl (fun s e => match e.2.world with
    | some w => (s.vaultTrigger w.1).setWorld e.1 none
    | none => s) s

/-- A cold reset of socket `k`: everything but the save store's records and the hPPR list (R555); the boot window, which the security
controller loads and a reset does not write, and the levels of the lands stay. -/
def State.coldSock (s : State) (k : Nat) : State :=
  let s := ((s.sealedReset k).seatsGone k).socketGone k
  let homeFar (a : Nat) : Bool := decide ((s.target k a).home ≠ k)
  let lineFar (ln : Nat) : Bool := homeFar (ln * 64)
  let boot (a : Nat) : Bool := decide (a / 2 ^ 47 = k) && decide (bootBase ≤ a % 2 ^ 47)
  let far (n key : Nat) : Bool := decide (key / n ≠ k)
  let s : State :=
    { s with mem := s.mem.filter (fun e => homeFar e.1 || boot e.1)
             poison := s.poison.filter (fun e => lineFar e.1)
             macBad := s.macBad.filter (fun e => lineFar e.1)
             dirBits := s.dirBits.filter (fun e => lineFar e.1)
             homeOld := s.homeOld.filter (fun e => lineFar e.1)
             held := s.held.filter (fun e => lineFar e.1)
             rsc := s.rsc.filter (fun e => lineFar e.1)
             rscG := s.rscG.filter (fun e => lineFar (e.1 / 8 * 4096))
             sfUse := s.sfUse.filter (fun e => far 512 e.1)
             rscUse := s.rscUse.filter (fun e => far 8 e.1)
             owner := s.owner.filter (fun e => far (2 ^ 35) e.1 && (decide (e.2.1 = 0) || decide (e.2.2 / 64 ≠ k)))
             seatSr := s.seatSr.filter (fun e => far (2 ^ 24) e.1)
             vault := s.vault.filter (fun e => far 64 e.1)
             handover := s.handover.filter (fun h => decide (h.sock ≠ k)) }
  let s := s.inFlightGone k
  let s : State :=
    { s with cores := s.cores.filter (fun e => decide (coreSock e.1 ≠ k))
             ceCount := cellErase s.ceCount k
             ceSupp := cellErase s.ceSupp k
             snapBase := s.snapBase.filter (fun e => far 512 e.1)
             uwraps := s.uwraps.filter (fun e => decide (keySock e ≠ k))
             ubw := s.ubw.filter (fun e => far (2 ^ 17) e.1)
             bwPend := s.bwPend.filter (far (2 ^ 16))
             bwClr := s.bwClr.filter (far (2 ^ 16))
             ashTotal := cellErase s.ashTotal k
             repoch := cellErase s.repoch k
             ibi := s.ibi.filter (fun e => decide (e.1 ≠ k))
             tb := cellSet Tb.free s.tb k { Tb.free with off := s.time, since := s.time }
             unreach := s.unreach.filter (fun e => far 1024 e.1)
             acts := s.acts.filter (fun a => decide (a.1 ≠ k))
             flues := s.flues.filter (fun e => far 8 e.1)
             xout := s.xout.filter (fun e => far 8 e.1)
             xin := s.xin.filter (fun e => far 8 e.1)
             goShadow := cellErase s.goShadow k
             reroutes := s.reroutes.filter (fun r => decide (r.sock ≠ k))
             flueDown := cellErase s.flueDown k
             combine := s.combine.filter (fun c => decide (c.sock ≠ k))
             txNext := s.txNext.filter (fun e => far (2 ^ 19) e.1)
             txExp := s.txExp.filter (fun e => far (2 ^ 19) e.1)
             txHeld := s.txHeld.filter (fun e => far 8 e.1)
             pstep := s.pstep.filter (fun e => far 64 e.1)
             mcOut := s.mcOut.filter (fun e => far 16 e.1)
             chans := (s.chans.filter (fun e => far 16 e.1 || !e.2.hppr.isEmpty)).map (fun e =>
               if e.1 / 16 = k then (e.1, { Chan.idle with hppr := e.2.hppr }) else e) }
  let s := (List.range 64).foldl (fun s i => s.newKey (1024 + k * 64 + i)) s
  let s := s.regsBack k (fun f => !savedFields.contains f)
  s.updPw k (fun p => { Pwr.idle with seq := p.seq, lands := p.lands, need := p.need, wake := p.wake, saved := p.saved })

/-! ### Turning a socket on and off (R534-R536, R550) -/

/-- What woke the package is recorded (R550). -/
def State.lastWake (s : State) (k src i : Nat) : State :=
  s.wrs { sock := k } [(Reg.pwrLastwakeSrc, src), (Reg.pwrLastwakeIndex, i), (Reg.pwrLastwakeValid, 1), (Reg.pwrLastwakeTime, s.now k)]

/-- The power-up sequence begins: PWREN asserted, the socket held in cold reset (step 4 of Table POWR-2). -/
def State.powerUp (s : State) (k : Nat) : State :=
  let s := s.coldSock k
  ({ s with down := cellSet 0 s.down k 3 } : State).updPw k (fun p => { p with seq := 5, need := false, saved := false })

/-- The socket is Off; PKG.STATE has no code for it, so what it reads is left open (log entry 1). -/
def State.offNow (s : State) (k : Nat) : State :=
  let s := (s.wr Reg.pwrPkgState { sock := k } (s.freeNat 3)).useFree
  let s := ({ s with down := cellSet 0 s.down k 1 } : State).updPw k (fun p => { p with seq := 4, stby := false })
  if s.rd Reg.pwrPkgPendreq { sock := k } = 1 && !(s.pw k).need then s.powerUp k else s

/-- The power-down sequence begins: PWREN deasserted (R532); what the caches held is lost (R535). -/
def State.powerDown (s : State) (k : Nat) : State :=
  let s := (s.seatsGone k).socketGone k
  let s := (s.wr Reg.pwrPkgState { sock := k } 6).wr Reg.pwrPkgPendreq { sock := k } 0
  ({ s with down := cellSet 0 s.down k 1 } : State).updPw k (fun p => { p with seq := 6 })

/-- A power-on request, with what made it as LASTWAKE names it (R534, R536). -/
def State.powerOn (s : State) (k src i : Nat) : State :=
  let p := s.pw k
  let a : Ix := { sock := k }
  let latch (s : State) : State := (s.wr Reg.pwrPkgPendreq a 1).updPw k (fun p => { p with wake := some (src, i) })
  if p.save.isSome then latch s
  else match p.seq with
    | 2 => latch s
    | 3 => latch s
    | 4 => if p.need then latch s else (s.updPw k (fun p => { p with wake := some (src, i) })).powerUp k
    | 6 => latch s
    | _ => s

/-- A power-off request (R534-R536). -/
def State.powerOff (s : State) (k : Nat) : State :=
  let p := s.pw k
  let a : Ix := { sock := k }
  if p.save.isSome then s.wr Reg.pwrPkgPendreq a 2
  else match p.seq with
    | 0 => if cellGet 0 s.down k = 0 || cellGet 0 s.down k = 2 then s.powerDown k else s
    | 5 => s.wr Reg.pwrPkgPendreq a 2
    | 2 => s.wr Reg.pwrPkgPendreq a 0
    | 3 => s.wr Reg.pwrPkgPendreq a 0
    | 4 => s.wr Reg.pwrPkgPendreq a 0
    | _ => s

/-- POWER_ON_REQUEST by the management controller. -/
def execPowerOnRequest (k : Nat) (s : State) : Host.Outcome State Fault Refusal := .next (s.powerOn k 5 0)

/-- POWER_OFF_REQUEST: by the management controller or a write of PKG.CMD. -/
def execPowerOffRequest (k : Nat) (s : State) : Host.Outcome State Fault Refusal := .next (s.powerOff k)

/-- PWRBTN: an assertion of `ms` milliseconds: from 4 s a power-off request, from 10 ms a power-on request of a socket that is Off
(R534). -/
def execPwrbtn (k ms : Nat) (s : State) : Host.Outcome State Fault Refusal :=
  .next (if 4000 ≤ ms then s.powerOff k
    else if 10 ≤ ms && (s.pw k).seq ≠ 0 && (s.pw k).seq ≠ 5 then s.powerOn k 6 0 else s)

/-! ### Start-up (Tables POWR-2 and POWR-11) -/

/-- STANDBY_RAILS_VALID: V1P8S and VMGT within tolerance. -/
def execStandbyRailsValid (k : Nat) (s : State) : Host.Outcome State Fault Refusal :=
  .next (if (s.pw k).seq = 1 then s.updPw k (fun p => { p with seq := 2 }) else s)

/-- RST_DEASSERT: the standby domain starts, reads the save store and latches the straps: SID[9:0] gives the socket its identity, and
MSMODE selects the management bus (step 1 of Table POWR-11, R14, R607). -/
def execRstDeassert (k : Nat) (i3c : Bool) (s : State) : Host.Outcome State Fault Refusal :=
  .next (if (s.pw k).seq = 2 then
    let r := s.rd Reg.pwrPkgPendreq { sock := k }
    let s := (s.coldSock k).wrs { sock := k }
      [(Reg.pwrPkgPendreq, r), (Reg.pwrMgcStatI3c, if i3c then 1 else 0), (Reg.pwrMgcStatDynaddr, 0), (Reg.rootSocket, s.strap k)]
    ({ s with mgcs := cellErase s.mgcs k } : State).updPw k (fun p => { p with seq := 3 })
  else s)

/-- The bytes of the boot window replaced by an image (R560). -/
def State.loadBoot (s : State) (k : Nat) (img : List Byte) : State :=
  let base := k * 2 ^ 47 + bootBase
  { s with mem := memWrite (s.mem.filter (fun e => decide (e.1 < base ∨ base + 2 ^ 24 ≤ e.1))) base (img.take (2 ^ 24)) }

/-- BOOT_VERIFY: slot A is used if it verifies, else slot B; its image is in the boot window.  With neither the socket stays in cold
reset and the management controller reports it (R559). -/
def execBootVerify (k : Nat) (aOk bOk : Bool) (a b : List Byte) (s : State) : Host.Outcome State Fault Refusal :=
  .next (
    let p := s.pw k
    if p.seq ≠ 3 then s
    else if !aOk && !bOk then
      (({ s with down := cellSet 0 s.down k 3 } : State).updPw k (fun p => { p with seq := 7 })).mgcReason k 5
    else
      let s := s.loadBoot k (if aOk then a else b)
      if cellGet 0 s.down k = 3 then s.updPw k (fun p => { p with seq := 5 })
      else
        let s := s.updPw k (fun p => { p with seq := 4 })
        if s.rd Reg.pwrPkgPendreq { sock := k } = 1 && !p.need then s.powerUp k else s)

/-- PWROK_ASSERT: every main rail is valid: a latched power-off is acted on; otherwise the die's PLLs lock, its blocks leave reset, the
memory channels report the modules found (`mods`: channel and CAP word, data rate as trained) and core 0 starts at BOOT.PC (steps 4
and 5 of Table POWR-11, R536). -/
def execPwrokAssert (k : Nat) (mods : List (Nat × Nat)) (s : State) : Host.Outcome State Fault Refusal :=
  .next (
    let a : Ix := { sock := k }
    if (s.pw k).seq ≠ 5 then s
    else if s.rd Reg.pwrPkgPendreq a = 2 then s.powerDown k
    else
      let w := (s.pw k).wake
      let s := ({ s with down := cellErase s.down k } : State).updPw k (fun p => { p with seq := 0, wake := none })
      let s := (s.wr Reg.pwrPkgState a 0).wr Reg.pwrPkgPendreq a 0
      let s := mods.foldl (fun s m =>
        if 16 ≤ m.1 then s
        else
          s.wrs { sock := k, inst := m.1 } [(Reg.mcCapPresent, natBits m.2 0 0), (Reg.mcCapMod, natBits m.2 2 1),
            (Reg.mcCapDpc, natBits m.2 4 3), (Reg.mcCapLranks, natBits m.2 8 5), (Reg.mcCapDens, natBits m.2 15 9),
            (Reg.mcCapSpeed, natBits m.2 31 16), (Reg.mcCapGib, natBits m.2 47 32)]) s
      match w with
      | some x => s.lastWake k x.1 x.2
      | none => (s.useFree).lastWake k (s.freeNat 4) 0)

/-! ### Faults of power and clocks (Table POWR-3) -/

/-- A fatal fault: the socket fails, and its save ends with the socket Off (R533, R562). -/
def State.powerFatal (s : State) (k : Nat) : State :=
  let p := s.pw k
  if p.seq ≠ 0 || p.save.isSome || !s.up k then s
  else
    let a : Ix := { sock := k }
    let st := s.rd Reg.pwrPkgState a
    let s := (s.useFree).socketFail k 0x80 0 (s.freeNat 64)
    if p.saved then s
    else (s.wr Reg.pwrPkgState a 5).updPw k (fun p => { p with save := some (4, st), saved := true })

/-- PWROK_LOSS: the end of a power-down; otherwise, with PWRFAIL# not asserted, a fatal fault. -/
def execPwrokLoss (k : Nat) (pwrfail : Bool) (s : State) : Host.Outcome State Fault Refusal :=
  .next (if (s.pw k).seq = 6 then s.offNow k else if pwrfail then s else s.powerFatal k)

/-- REFCLK_LOSS: 10 µs without an edge. -/
def execRefclkLoss (k : Nat) (s : State) : Host.Outcome State Fault Refusal := .next (s.powerFatal k)

/-- MESH_PLL_UNLOCK of a die, for 1 µs. -/
def execMeshPllUnlock (k _die : Nat) (s : State) : Host.Outcome State Fault Refusal := .next (s.powerFatal k)

/-- JUNCTION_FATAL: 110 °C for 100 µs; THERMTRIP# asserts (R619). -/
def execJunctionFatal (k : Nat) (s : State) : Host.Outcome State Fault Refusal :=
  .next (if s.up k then (s.powerFatal k).updPw k (fun p => { p with therm := true }) else s)

/-- VHOLD_LOW: below 10.8 V for 1 ms: an entry of class EV, which the management controller is told of (R601). -/
def execVholdLow (k : Nat) (s : State) : Host.Outcome State Fault Refusal :=
  .next (if (s.pw k).seq = 0 && s.up k then s.pwrAsh k 5 else s)

/-! ### Core clocks and the Damper (R538-R540, R551-R553) -/

/-- Where a core's power registers stand. -/
def pcIx (k l : Nat) : Ix := { sock := k, i := l }

/-- The tile of the grate that serves a logical core. -/
def State.coreTile (s : State) (k l : Nat) : Nat := tileOf (s.rd Reg.coreLmapGrate (pcIx k l))

/-- The frequency a core's PLL is to run at: REQ less the Damper's steps, 800 MHz at least, 800 MHz in an emergency of its tile. -/
def State.freqFor (s : State) (k l : Nat) : Nat :=
  let p := s.pw k
  if p.emerg.testBit (s.coreTile k l) then 800
  else max 800 (s.rd Reg.pwrCoreReq (pcIx k l) - 25 * (cellGet 0 p.steps l + cellGet 0 p.steps (256 + l)))

/-- The checker whose clock follows this main core's, if it is the main of an ACTIVE pair. -/
def State.clkTwin (s : State) (k l : Nat) : Option Nat :=
  (s.activePair k l).bind (fun q =>
    if s.rd Reg.ashLsMain { sock := k, i := q } = l then some (s.rd Reg.ashLsChecker { sock := k, i := q }) else none)

/-- Clock fields of a core set, and of the checker that runs on its clock (R539). -/
def State.clkSet (s : State) (k l : Nat) (f : List (Fld × Nat)) : State :=
  let s' := s.wrs (pcIx k l) f
  match s.clkTwin k l with
  | some c => s'.wrs (pcIx k c) f
  | none => s'

/-- Whether a logical core's clock fields take writes: it exists and is no checker. -/
def State.clkOk (s : State) (k l : Nat) : Bool :=
  decide (l < (s.part k).cores) && decide (s.rd Reg.coreLmapState (pcIx k l) ≠ 3)

/-- A change of frequency while SEL = 1 moves the core to its fast clock until its PLL has relocked (R540). -/
def State.freqCheck (s : State) (k l : Nat) : State :=
  let a := pcIx k l
  if s.rd Reg.pwrCoreSel a = 1 && s.rd Reg.pwrCoreLocked a = 1 && s.rd Reg.pwrCoreCur a ≠ s.freqFor k l then
    s.clkSet k l [(Reg.pwrCoreLocked, 0), (Reg.pwrCoreCur, 1600)]
  else s

/-- Every core's frequency looked at again. -/
def State.freqAll (s : State) (k : Nat) : State := (List.range 256).foldl (fun s l => s.freqCheck k l) s

/-- REQ as it is kept: rounded down to 25 MHz, 800 to 4,200 (Table POWR-10). -/
def reqClamp (v : Nat) : Nat := if v < 800 then 800 else if 4200 < v then 4200 else v / 25 * 25

/-- CORE REQ and PLLEN written. -/
def State.pllWrite (s : State) (k l req en : Nat) : State :=
  if !s.clkOk k l then s
  else
    let s := s.clkSet k l [(Reg.pwrCoreReq, reqClamp req), (Reg.pwrCorePllen, en % 2)]
    let s := if en % 2 = 0 && s.rd Reg.pwrCoreLocked (pcIx k l) = 1 then s.clkSet k l [(Reg.pwrCoreLocked, 0), (Reg.pwrCoreCur, 1600)]
      else s
    s.freqCheck k l

/-- PLLEN_WRITE (step 1 of R539). -/
def execPllenWrite (k l req : Nat) (en : Bool) (s : State) : Host.Outcome State Fault Refusal :=
  .next (s.pllWrite k l req (if en then 1 else 0))

/-- The PLL of a core locks: a core that has selected it runs on it. -/
def State.lockPll (s : State) (k l : Nat) : State :=
  let a := pcIx k l
  if s.clkOk k l && s.rd Reg.pwrCorePllen a = 1 && s.rd Reg.pwrCoreLocked a = 0 then
    let s := s.clkSet k l [(Reg.pwrCoreLocked, 1)]
    if s.rd Reg.pwrCoreSel a = 1 then s.clkSet k l [(Reg.pwrCoreCur, s.freqFor k l)] else s
  else s

/-- PLL_LOCKED (step 2 of R539). -/
def execPllLocked (k l : Nat) (s : State) : Host.Outcome State Fault Refusal := .next (s.lockPll k l)

/-- SEL written: ignored as 1 while LOCKED is 0; the switch itself loses no instruction (step 3 of R539). -/
def State.selWrite (s : State) (k l v : Nat) : State :=
  let a := pcIx k l
  if !s.clkOk k l then s
  else if v % 2 = 1 then
    if s.rd Reg.pwrCoreLocked a = 1 then s.clkSet k l [(Reg.pwrCoreSel, 1), (Reg.pwrCoreCur, s.freqFor k l)] else s
  else s.clkSet k l [(Reg.pwrCoreSel, 0), (Reg.pwrCoreCur, 1600)]

/-- SEL_WRITE. -/
def execSelWrite (k l : Nat) (v : Bool) (s : State) : Host.Outcome State Fault Refusal := .next (s.selWrite k l (if v then 1 else 0))

/-- FREQ_RELOCK: the core returns to its PLL at the new frequency (R540). -/
def execFreqRelock (k l : Nat) (s : State) : Host.Outcome State Fault Refusal :=
  .next (if s.rd Reg.pwrCoreSel (pcIx k l) = 1 then s.lockPll k l else s)

/-- CORE_PLL_UNLOCK: the core goes on on its fast clock, recorded with class RE (Table POWR-3). -/
def execCorePllUnlock (k l : Nat) (s : State) : Host.Outcome State Fault Refusal :=
  .next (if s.live k && s.clkOk k l && s.rd Reg.pwrCoreLocked (pcIx k l) = 1 then
    (s.clkSet k l [(Reg.pwrCoreLocked, 0), (Reg.pwrCoreCur, 1600)]).pwrAsh k 2 else s)

/-- Milliseconds with a limit acting, up to now. -/
def State.thrms (s : State) (k : Nat) : Nat :=
  let a : Ix := { sock := k }
  let x := s.rd Reg.pwrDampThrms a
  if s.rd Reg.pwrDampStatActive a = 0 then x else satAdd 32 x ((s.time - (s.pw k).since) / 1000000)

/-- A limit starts or stops acting: STAT.ACTIVE, and THRMS counts the time (R552). -/
def State.dampBit (s : State) (k b : Nat) (on : Bool) : State :=
  let a : Ix := { sock := k }
  let v := s.rd Reg.pwrDampStatActive a
  let v' := if on then v ||| 2 ^ b else if v.testBit b then v - 2 ^ b else v
  let s := if v ≠ 0 && v' = 0 then s.wr Reg.pwrDampThrms a (s.thrms k) else s
  let s := if v = 0 && v' ≠ 0 then s.updPw k (fun p => { p with since := s.time }) else s
  s.wr Reg.pwrDampStatActive a v'

/-- One step of 25 MHz off the cores of the lowest priority class that still run above 800 MHz on their PLLs, of those `p` names; the
steps are kept from `base` up. -/
def State.throttle (s : State) (k base : Nat) (p : Nat → Bool) : State :=
  let can := (List.range 256).filter (fun l =>
    p l && s.clkOk k l && s.rd Reg.pwrCoreSel (pcIx k l) = 1 && decide (800 < s.freqFor k l))
  let cls (l : Nat) : Nat := s.rd Reg.pwrCorePrio (pcIx k l)
  let low := can.foldl (fun m l => min m (cls l)) 3
  let s := (can.filter (fun l => cls l = low)).foldl (fun s l =>
    s.updPw k (fun p => { p with steps := cellSet 0 p.steps (base + l) (cellGet 0 p.steps (base + l) + 1) })) s
  s.freqAll k

/-- DAMPER_LIMIT: limit `which` (0 PL1, 1 PL2, 2 current, 4 VRHOT#) is reached at `watts` of package power: one step (R551, R552). -/
def execDamperLimit (k which watts : Nat) (s : State) : Host.Outcome State Fault Refusal :=
  .next (if !s.live k || ! [0, 1, 2, 4].contains which then s
    else ((s.dampBit k which true).wr Reg.pwrDampStatPkgw { sock := k } watts).throttle k 0 (fun _ => true))

/-- DAMPER_LIMIT_CLEAR: with no power, current or VRHOT# limit acting the cores rise to REQ again. -/
def execDamperLimitClear (k which watts : Nat) (s : State) : Host.Outcome State Fault Refusal :=
  .next (if !s.live k || ! [0, 1, 2, 4].contains which then s
    else
      let s := (s.dampBit k which false).wr Reg.pwrDampStatPkgw { sock := k } watts
      if s.rd Reg.pwrDampStatActive { sock := k } &&& 0x17 = 0 then
        (s.updPw k (fun p => { p with steps := p.steps.filter (fun e => decide (256 ≤ e.1)) })).freqAll k
      else s)

/-- The tile bits of a response changed, and the bit of STAT.ACTIVE with them. -/
def State.tileHot (s : State) (k tile : Nat) (emerg on : Bool) : State :=
  let flip (v : Nat) : Nat := if on then v ||| 2 ^ tile else if v.testBit tile then v - 2 ^ tile else v
  let s := s.updPw k (fun p => if emerg then { p with emerg := flip p.emerg } else { p with hot := flip p.hot })
  s.dampBit k (if emerg then 5 else 3) (decide ((if emerg then (s.pw k).emerg else (s.pw k).hot) ≠ 0))

/-- THERMAL_TARGET: the hottest sensor of a tile reads `temp`, above TJTARGET: one step off the tile's cores (Table POWR-8). -/
def execThermalTarget (k tile temp : Nat) (s : State) : Host.Outcome State Fault Refusal :=
  .next (if !s.live k || temp ≤ s.rd Reg.pwrDampTjtarget { sock := k } then s
    else
      ((s.tileHot k tile false true).wr Reg.pwrDampStatTjmax { sock := k } temp).throttle k 256 (fun l => s.coreTile k l = tile))

/-- THERMAL_EMERGENCY: 105 °C or more: the tile's cores at 0.8 GHz, its Stoker cell at 1.0 GHz, recorded (Table POWR-8). -/
def execThermalEmergency (k tile temp : Nat) (s : State) : Host.Outcome State Fault Refusal :=
  .next (if !s.live k || temp < 105 || (s.pw k).emerg.testBit tile then s
    else
      let s := ((s.tileHot k tile true true).wr Reg.pwrDampStatTjmax { sock := k } temp).bump Reg.pwrDampEmergcnt { sock := k }
      (s.freqAll k).pwrAsh k 5)

/-- THERMAL_CLEAR: no sensor of a tile is above `temp`: each response ends 2 °C below its threshold (R553). -/
def execThermalClear (k tile temp : Nat) (s : State) : Host.Outcome State Fault Refusal :=
  .next (if !s.live k then s
    else
      let s := s.wr Reg.pwrDampStatTjmax { sock := k } temp
      let s := if temp ≤ 103 then s.tileHot k tile true false else s
      if temp + 2 ≤ s.rd Reg.pwrDampTjtarget { sock := k } then
        ((s.tileHot k tile false false).updPw k (fun p =>
          { p with steps := p.steps.filter (fun e => decide (e.1 < 256) || decide (s.coreTile k (e.1 - 256) ≠ tile)) })).freqAll k
      else s.freqAll k)

/-! ### Package states (R545-R550) -/

/-- Whether a WAKE land in level mode stands at its active level. -/
def State.landUp (s : State) (k i : Nat) : Bool :=
  let a : Ix := { sock := k, i := i }
  s.rd Reg.pwrWakeEn a = 1 && s.rd Reg.pwrWakeEdge a = 0 && ((s.pw k).lands.testBit i == decide (s.rd Reg.pwrWakePol a = 1))

/-- Whether some land keeps a package state from being entered (R549). -/
def State.landsHold (s : State) (k : Nat) : Bool := (List.range 4).any (s.landUp k)

/-- The sleep state of every logical core in use is one of `l`. -/
def State.allAsleep (s : State) (k : Nat) (l : List Nat) : Bool :=
  (List.range 256).all (fun i => !s.coreThere k i || s.rd Reg.pwrCoreRun (pcIx k i) = 0 ||
    l.contains (s.rd Reg.pwrCoreCstate (pcIx k i)))

/-- Whether a route of a running partition other than the socket's own crosses it (R383). -/
def State.passThrough (s : State) (k : Nat) : Bool :=
  (List.range 64).any (fun p => decide (p ≠ s.partition k) && s.rd Reg.chimPartState { sock := k, i := p } = 2 &&
    (s.socksOf k p).any (fun a => (s.socksOf k p).any (fun b => (s.routeFlues b 64 a).any (fun e => e.1 = k))))

/-- Whether a root complex has a request outstanding: a load of a device window that has not completed, a request held for a link in L1,
DMA of which lines wait, or an interrupt message that waits. -/
def State.prcBusy (s : State) (k : Nat) : Bool :=
  s.cores.any (fun e => match e.2.devWait with | some w => w.prc / 4 = k | none => false) ||
    s.prcs.any (fun e => e.1 / 4 = k && (!e.2.parts.isEmpty || !e.2.held.isEmpty || !e.2.msis.isEmpty))

/-- PKG_BANKED_ENTER: the conditions of R546 have held for 10 µs. -/
def execPkgBankedEnter (k : Nat) (s : State) : Host.Outcome State Fault Refusal :=
  .next (
    let a : Ix := { sock := k }
    let cells := (List.range 8).all (fun c => !s.stkOn k c || (s.cell k c).gated)
    let busy := s.handoffs.any (fun h => coreSock h.core = k) || (cellGet none s.retire k).isSome || s.inAction k ||
      (List.range 16).any (fun n => s.rd Reg.mcSpareStatBusy { sock := k, inst := n } = 1)
    if !s.live k || s.rd Reg.pwrPkgState a ≠ 0 || s.rd Reg.pwrPkgBanken a = 0 || !s.allAsleep k [2, 3] || !cells || s.prcBusy k || busy ||
        s.isAssured k || s.landsHold k then s
    else
      let s := s.wr Reg.pwrPkgState a 1
      if s.passThrough k then s
      else (List.range 6).foldl (fun s n => s.wrIf (s.link k n = 2) Reg.flueStateSleep (flueIx k n) 1) s)

/-- The package wakes; from Standby it wakes the other sockets of its partition by an interrupt to each monitor core (R547, R550). -/
def State.pkgWake (s : State) (k src i : Nat) : State :=
  let a : Ix := { sock := k }
  let st := s.rd Reg.pwrPkgState a
  if !s.live k || st = 0 then s
  else
    let s := ((s.wr Reg.pwrPkgState a 0).lastWake k src i).updPw k (fun p => { p with stby := false })
    let s := (List.range 6).foldl (fun s n => s.wr Reg.flueStateSleep (flueIx k n) 0) s
    if st = 2 && s.rd Reg.ihubSysvecTimer a < 16 then
      ((s.partSocks k).filter (· ≠ k)).foldl (fun s _ => s.bump Reg.ihubDropIpi a) s
    else if st = 2 then
      { s with ipis := s.ipis ++ ((s.partSocks k).filter (· ≠ k)).map (fun d =>
          { sock := d, core := some (s.rd Reg.ihubMonitor { sock := d }), skip := none, vector := s.rd Reg.ihubSysvecTimer a }) }
    else s

/-- PKG_WAKE by source `src` (Table POWR-10 LASTWAKE): 1 WAKE land, 2 interrupt, 3 flue packet, 4 root complex, 5 management controller;
`i` names the land, flue or root complex (R548). -/
def execPkgWake (k src i : Nat) (s : State) : Host.Outcome State Fault Refusal :=
  .next (if 1 ≤ src && src ≤ 5 then s.pkgWake k src i else s)

/-- A socket enters Standby: its atomic buffers are written back, its directories and data arrays emptied (R547). -/
def State.standbyIn (s : State) (k : Nat) : State :=
  let lines := (s.abuf.filter (fun e => decide (e.1 / 512 = k))).flatMap (·.2)
  let s := lines.foldl (fun s ln => s.unbuffer k ln) s
  let lineFar (ln : Nat) : Bool := decide ((s.target k (ln * 64)).home ≠ k)
  let s : State :=
    { s.sliceClear (fun q _ => q = k) with
      sf := s.sf.filter (fun e => decide (e.1 % 1024 ≠ k))
      rsc := s.rsc.filter (fun e => lineFar e.1)
      rscG := s.rscG.filter (fun e => lineFar (e.1 / 8 * 4096)) }
  (s.wr Reg.pwrPkgState { sock := k } 2).updPw k (fun p => { p with stby := false })

/-- The standby command to a socket: once every socket of its partition has had it, every logical core is Cold and every Stoker channel
DISABLED, they all enter Standby (R547). -/
def State.standby (s : State) (k : Nat) : State :=
  if !s.live k then s
  else
    let s := s.updPw k (fun p => { p with stby := true })
    let ds := s.partSocks k
    let ok (d : Nat) : Bool := (s.pw d).stby && s.live d && s.allAsleep d [3] && !s.landsHold d &&
      (List.range 8).all (fun c => !s.stkOn d c || (List.range 64).all (fun ch => s.chState d c ch = 0))
    if ds.all ok then ds.foldl (fun s d => s.standbyIn d) s else s

/-- PKG_CMD_STANDBY. -/
def execPkgCmdStandby (k : Nat) (s : State) : Host.Outcome State Fault Refusal := .next (s.standby k)

/-- WAKE_LAND: land `i` comes to a level.  An assertion requests power-on while Off with PWRON = 1; while EN = 1 it wakes the package and
makes its vector pending at the monitor core (R549). -/
def execWakeLand (k i : Nat) (high : Bool) (s : State) : Host.Outcome State Fault Refusal :=
  .next (
    let i := i % 4
    let a : Ix := { sock := k, i := i }
    let act (v : Bool) : Bool := v == decide (s.rd Reg.pwrWakePol a = 1)
    let old := (s.pw k).lands.testBit i
    let s := s.updPw k (fun p => { p with lands := if high then p.lands ||| 2 ^ i else if old then p.lands - 2 ^ i else p.lands })
    if !act high || (s.rd Reg.pwrWakeEdge a = 1 && act old) then s
    else if (s.pw k).seq = 4 then (if s.rd Reg.pwrWakePwron a = 1 then s.powerOn k 1 i else s)
    else if s.live k && s.rd Reg.pwrWakeEn a = 1 then
      (s.pkgWake k 1 i).sysVector k (s.rd Reg.ihubMonitor { sock := k }) (s.rd Reg.pwrWakeVec a)
    else s)

/-! ### Unit power (R554) -/

/-- UPWR.STK and UPWR.PRC written: refused whole when it would power off a busy unit. -/
def State.upwr (s : State) (k stk prc : Nat) : State :=
  let a : Ix := { sock := k }
  let stk := if (s.part k).full then stk % 256 else 0
  let offS := (List.range 8).any (fun c => s.stkOn k c && !stk.testBit c && (List.range 64).any (fun ch => s.chState k c ch ≠ 0))
  let offP := (List.range 4).any (fun n => s.prcOn k n && !prc.testBit n &&
    (List.range 4).any (fun j => s.rd Reg.prcPortSlotState { sock := k, inst := n, i := j } ≠ 0))
  if !s.live k then s
  else if offS || offP then s.wr Reg.pwrUpwrRefused a 1
  else (s.wr Reg.pwrUpwrStk a stk).wr Reg.pwrUpwrPrc a prc

/-- UPWR_WRITE. -/
def execUpwrWrite (k stk prc : Nat) (s : State) : Host.Outcome State Fault Refusal := .next (s.upwr k stk prc)

/-- UNIT_POWER_DONE: STAT follows UPWR for a Stoker cell, or a root complex when `prc`; a unit without power keeps nothing. -/
def execUnitPowerDone (k : Nat) (prc : Bool) (n : Nat) (s : State) : Host.Outcome State Fault Refusal :=
  .next (
    let a : Ix := { sock := k }
    let want := (s.rd (if prc then Reg.pwrUpwrPrc else Reg.pwrUpwrStk) a).testBit n
    let f := if prc then Reg.pwrUpwrStatPrc else Reg.pwrUpwrStatStk
    let v := s.rd f a
    if !s.live k || v.testBit n = want then s
    else
      let ids := (blkFields (if prc then .prc else .stk)).map Fld.id
      let keep (key : Nat) : Bool := decide (keySock key ≠ k) || decide (key / 2 ^ 20 % 256 ≠ n) || !ids.contains (key % 1024)
      let s : State := if want then s
        else { s with regs := s.regs.filter (fun e => keep e.1), shadow := s.shadow.filter (fun e => keep e.1),
                      locked := s.locked.filter (fun e => keep e.1),
                      prcs := if prc then cellErase s.prcs (k * 4 + n) else s.prcs,
                      stkChs := if prc then s.stkChs else s.stkChs.filter (fun e => decide (e.1 / 64 ≠ k * 8 + n)),
                      stkCells := if prc then s.stkCells else cellErase s.stkCells (k * 8 + n),
                      iotlb := s.iotlb.filter (fun e =>
                        if prc then decide (e.1 < 2 ^ 50) || decide ((e.1 - 2 ^ 50) / 2 ^ 33 ≠ k * 4 + n)
                        else decide (2 ^ 50 ≤ e.1) || decide ((e.1 - 2 ^ 40) / 64 ≠ k * 8 + n)) }
      s.wr f a (if want then v + 2 ^ n else v - 2 ^ n))

/-! ### Resets (R555-R557) -/

/-- COLD_RESET, by RST# (`pin`, which is then held until RST_DEASSERT) or by a management command: taken after any hold-up save, when the
socket is Off (R611). -/
def State.coldReset (s : State) (k : Nat) (pin : Bool) : State :=
  let p := s.pw k
  if p.save.isSome || p.seq = 1 then s
  else
    let off := p.seq = 4 || p.seq = 6 || (p.seq ≠ 5 && p.seq ≠ 0 && cellGet 0 s.down k ≠ 3)
    let s := (s.coldSock k).wr Reg.pwrMgcStatDynaddr { sock := k } 0
    ({ s with down := cellSet 0 s.down k (if off then 1 else 3) } : State).updPw k (fun p => { p with seq := if pin then 2 else 3 })

/-- COLD_RESET. -/
def execColdReset (k : Nat) (pin : Bool) (s : State) : Host.Outcome State Fault Refusal := .next (s.coldReset k pin)

/-- A core reset as part of a warm reset: nothing holds it back. -/
def State.coreForce (s : State) (c : Nat) : State :=
  let s := s.updCore c (fun q => { q with frozen := false, wait := none })
  match s.coreReset c with
  | some s => s
  | none =>
    match (s.updCore c (fun q => { q with storeQ := [] })).coreResetOne c with
    | some s => s
    | none => s

/-- Every logical core of a socket reset and held; core 0 may leave reset when `boot`. -/
def State.coresHeld (s : State) (k : Nat) (boot : Bool) : State :=
  let s := ((s.cores.map (·.1)).filter (fun c => decide (c < 2 ^ 20) && decide (c / 256 = k))).foldl (fun s c => s.coreForce c) s
  (List.range 256).foldl (fun s l => s.wr Reg.pwrCoreRun (pcIx k l) (if boot && l = 0 then 1 else 0)) s

/-- The unit counters a warm reset zeroes (R582). -/
def warmCounts : List Nat :=
  [Reg.pmuHrthEvCount, Reg.pmuHrthEvWrap, Reg.pmuMeshEvCount, Reg.pmuMeshEvWrap, Reg.pmuStkEvCount, Reg.pmuStkEvWrap,
   Reg.pmuStkChEvCount, Reg.pmuStkChEvWrap].map Fld.id

/-- The blocks whose registers a warm reset resets, but for what records retired slices (R13, Table POWR-9). -/
def warmFields : List Nat :=
  ([Blk.hrth, .mesh, .arb, .ihub, .stk, .prc].flatMap blkFields).map Fld.id |>.filter (fun i =>
    ! [Reg.hrthBucketSlice.id, Reg.hrthSliceRetired.id, Reg.hrthSliceFailed.id, Reg.hrthSliceBuckets.id, Reg.hrthSliceCorr.id,
      Reg.hrthSliceUncorr.id, Reg.prcPortSlotPresent.id].contains i) |>.append warmCounts

/-- A warm reset carried out (R556). -/
def State.warmNow (s : State) (k : Nat) : State :=
  let a : Ix := { sock := k }
  let s := s.coresHeld k true
  let lines := (s.abuf.filter (fun e => decide (e.1 / 512 = k))).flatMap (·.2)
  let s := lines.foldl (fun s ln => s.unbuffer k ln) s
  let s := (List.range 32).foldl (fun s i =>
    if s.rd Reg.prcCxlwinValid { sock := k, inst := i / 8, i := i % 8 } = 1 then s.cxlClear k (i / 8) (i % 8) else s) s
  let s := (List.range 16).foldl (fun s i => s.devLost k (i / 4) (i % 4)) s
  let lineFar (ln : Nat) : Bool := decide ((s.target k (ln * 64)).home ≠ k)
  let s : State :=
    { s.sliceClear (fun q _ => q = k) with
             sf := s.sf.filter (fun e => decide (e.1 % 1024 ≠ k))
             rsc := s.rsc.filter (fun e => lineFar e.1)
             rscG := s.rscG.filter (fun e => lineFar (e.1 / 8 * 4096))
             chans := (s.chans.map (fun e => if e.1 / 16 = k then (e.1, { e.2 with held := [], selfRef := false }) else e)).filter (fun e =>
               decide (e.2 ≠ Chan.idle)) }
  let s := (s.inFlightGone k).regsBack k warmFields.contains
  let s : State :=
    { s with uwraps := s.uwraps.filter (fun e => decide (keySock e ≠ k) || !warmCounts.contains (e % 1024))
             snapBase := s.snapBase.filter (fun e => decide (e.1 / 512 ≠ k) || decide (e.1 % 512 < 256) || decide (e.1 % 512 = 257)) }
  (s.sealedReset k).wr Reg.pwrResetWarmpend a 0

/-- A warm reset asked for: held while the socket's partition runs (R556, R611). -/
def State.warmReset (s : State) (k : Nat) : State :=
  let a : Ix := { sock := k }
  let st := s.rd Reg.chimPartState { sock := k, i := s.partition k }
  if !s.live k then s
  else if st = 2 || st = 3 then s.wr Reg.pwrResetWarmpend a 1
  else s.warmNow k

/-- WARM_RESET. -/
def execWarmReset (k : Nat) (s : State) : Host.Outcome State Fault Refusal := .next (s.warmReset k)

/-- A core reset asked for or carried out: it waits for the end of a hand-off or sleep entry (R557). -/
def State.coreRst (s : State) (k l : Nat) : State :=
  if !s.live k || (s.part k).cores ≤ l then s
  else
    match s.coreReset (k * 256 + l) with
    | some s => s.updPw k (fun p => { p with rst := p.rst.filter (· ≠ l) })
    | none => s.updPw k (fun p => { p with rst := if p.rst.contains l then p.rst else p.rst ++ [l] })

/-- CORE_RESET. -/
def execCoreReset (k l : Nat) (s : State) : Host.Outcome State Fault Refusal := .next (s.coreRst k l)

/-- CORE RUN written 1: the core starts at BOOT.PC (R561, R557). -/
def State.coreRunSet (s : State) (k l : Nat) : State :=
  if (s.part k).cores ≤ l || s.rd Reg.pwrCoreRun (pcIx k l) = 1 then s
  else (s.wr Reg.pwrCoreRun (pcIx k l) 1).updCore (k * 256 + l) (fun q => { q with pc := s.bootPc k })

/-- CORE_RUN_SET. -/
def execCoreRunSet (k l : Nat) (s : State) : Host.Outcome State Fault Refusal := .next (s.coreRunSet k l)

/-- Whether a socket does not keep partition `p` from being STOPPED: it is down or has stopped, or every core of it is held in reset and
every Stoker channel reset while it is STOPPING. -/
def State.stopDone (s : State) (d p : Nat) : Bool :=
  let st := s.rd Reg.chimPartState { sock := d, i := p }
  !s.live d || s.partition d ≠ p || st = 0 ||
    (st = 3 && (List.range (s.part d).cores).all (fun l => s.rd Reg.pwrCoreRun (pcIx d l) = 0) &&
      (List.range 512).all (fun i => !s.stkOn d (i / 64) || (s.stk d (i / 64) (i % 64)).infl.isEmpty))

/-- PARTITION_STOPPED: on a socket of a partition that is STOPPING every core is held in reset and every Stoker channel reset; once that is
so on every socket of the partition the socket's STATE is STOPPED, its Sealed keys are discarded, and a warm reset that waited is carried
out (Table FLUE-10, R33, R135, R556). -/
def execPartitionStopped (k p : Nat) (s : State) : Host.Outcome State Fault Refusal :=
  .next (
    let a : Ix := { sock := k }
    if s.rd Reg.chimPartState { sock := k, i := p } ≠ 3 then s
    else
      if s.partition k ≠ p then s.wr Reg.chimPartState { sock := k, i := p } 0
      else
        let s := s.coresHeld k false
        let s := (List.range 512).foldl (fun s i =>
          if s.stkOn k (i / 64) then
            (s.updStk k (i / 64) (i % 64) (fun x => { x with infl := [], drains := [], err := false })).chanEmpty k (i / 64) (i % 64)
          else s) s
        if !((s.partSocks k).all (fun d => s.stopDone d p)) then s
        else
          let s := (s.wr Reg.chimPartState { sock := k, i := p } 0).sealedReset k
          let s := s.wrs a [(Reg.secPartSealed, 0), (Reg.secPartAssured, 0), (Reg.coreModeSealed, 0)]
          if s.rd Reg.pwrResetWarmpend a = 1 then s.warmNow k else s)

/-! ### The hold-up save (R562-R565) -/

/-- HOLDUP_TRIGGER: 1 PWRFAIL#, 2 a sag of VUNC, 3 of a VCIN rail; once in a power cycle.  A second trigger during a save replaces a sag as
the cause. -/
def execHoldupTrigger (k cause : Nat) (s : State) : Host.Outcome State Fault Refusal :=
  .next (
    let a : Ix := { sock := k }
    let p := s.pw k
    if cause = 0 || 3 < cause then s
    else match p.save with
      | some c => if c.1 = 2 || c.1 = 3 then s.updPw k (fun p => { p with save := some (cause, c.2) }) else s
      | none =>
        if p.saved || (p.seq ≠ 0 && p.seq ≠ 5 && p.seq ≠ 6) then s
        else
          let st := s.rd Reg.pwrPkgState a
          let s := (s.wr Reg.pwrPkgState a 5).updPw k (fun p => { p with save := some (cause, st), saved := true })
          (s.pwrAsh k 5).mgcReason k 2)

/-- SAVE_COMMIT: the record is written and its commit marker last; PWREN is deasserted and the socket is Off (Table POWR-13, steps 3 to
5).  `dur` is the save's duration in µs. -/
def execSaveCommit (k dur : Nat) (s : State) : Host.Outcome State Fault Refusal :=
  .next (
    let a : Ix := { sock := k }
    match (s.pw k).save with
    | none => s
    | some c =>
      let s := s.saveRecord k (if c.1 = 4 then 2 else 1)
      let s := s.wrs a [(Reg.pwrSaveCause, c.1), (Reg.pwrSaveStateat, c.2), (Reg.pwrSaveDone, 1), (Reg.pwrSaveDuration, dur)]
      let s := (s.bump Reg.pwrSaveSaves a).updPw k (fun p => { p with save := none, need := true })
      ((s.seatsGone k).socketGone k).offNow k)

/-- RESTART_CONDITION: it has held for 50 ms; the latched request is acted on, or with AUTORST = 1 the socket cold-starts (R564). -/
def execRestartCondition (k : Nat) (s : State) : Host.Outcome State Fault Refusal :=
  .next (
    let a : Ix := { sock := k }
    let p := s.pw k
    if p.seq ≠ 4 || !p.need then s
    else
      let s := s.updPw k (fun p => { p with need := false })
      match s.rd Reg.pwrPkgPendreq a with
      | 1 => s.powerUp k
      | 2 => s.wr Reg.pwrPkgPendreq a 0
      | _ => if s.rd Reg.pwrPkgAutorst a = 1 then (s.updPw k (fun p => { p with wake := none })).powerUp k else s)

/-- STANDBY_RAIL_LOSS: the standby domain stops; a save in progress leaves the record before it (R563, R619). -/
def execStandbyRailLoss (k : Nat) (s : State) : Host.Outcome State Fault Refusal :=
  .next (
    let s := (s.seatsGone k).socketGone k
    ({ s with down := cellSet 0 s.down k 1, mgcs := cellErase s.mgcs k, jtags := cellErase s.jtags k } : State).updPw k (fun p =>
      { Pwr.idle with seq := 1, lands := p.lands, need := p.need || p.save.isSome }))

end Sys2Proof.Machine
end

