-- ==== Sys2Proof/Machine/CtlBus.lean ====
section
/-!
DEFINITION. Machine/CtlBus.lean: reads and writes of control space (R15-R19), with what each field shows and what a written field sets
going.
-/
namespace Sys2Proof.Machine

/-- Whether an offset of control space lies in a root complex's configuration window (R480, Table PCIX-5), which belongs to
the devices behind it: root complex and requester ID. -/
def ctlCfg (p : Part) (off : Nat) : Option (Nat × Nat) :=
  match capFind off (capList p) 0 with
  | some e =>
    if e.blk = some .prc && decide (0x1000000 ≤ off - e.base) then some (e.inst, (off - e.base - 0x1000000) / 4096 % 2 ^ 16) else none
  | none => none

/-! ### Fields that are not there -/

/-- Whether a field belongs to a Stoker channel's configuration, which a Vault instance that owns the channel keeps from the physical
function (R441). -/
def chanCfgField (f : Fld) : Bool := f.blk = .stk && decide (0x1000 ≤ f.off) && decide (f.off < 0x1038)

/-- Whether a channel field can be written only while the channel is DISABLED (R441). -/
def chanFixedField (f : Fld) : Bool :=
  [Reg.stkChXlatEn.id, Reg.stkChXlatS2.id, Reg.stkChXlatVmid.id, Reg.stkChXlatSid.id, Reg.stkChPtb.id, Reg.stkChPtb2.id,
   Reg.stkChKr0.id, Reg.stkChKr1.id, Reg.stkChCfgAdu.id, Reg.stkChCfgAssured.id].contains f.id

/-- Whether a field of a register block is absent or out of reach, so that it reads zero and ignores writes: of a logical core the part
lacks (R209, R353, R566), of a port, pair or unit that is not there (R481, R529, R584), of a unit without power (R352), of a debug access
refused (R585). -/
def State.absent (s : State) (rq : Rq) (f : Fld) (a : Ix) : Bool :=
  let k := a.sock
  let p := s.part k
  (decide (f.ni = 256) && decide (p.cores ≤ a.i)) ||
    match f.blk with
    | .stk => !(s.rd Reg.pwrUpwrStatStk { sock := k }).testBit a.inst
    | .prc => !(s.rd Reg.pwrUpwrStatPrc { sock := k }).testBit a.inst ||
        (decide (f.off ≥ 0x100) && decide (f.off < 0x200) && !s.hasPort k a.inst a.i)
    | .ash => decide (0x1000 ≤ f.off) && decide (f.off < 0x2000) && !p.full
    | .dbg => s.dbgDenied rq k (if f.ni = 256 then 0x10000 + 0x4000 * a.i else f.off) ≠ 0
    | .pmu =>
      let sealedCore := rq = .mgc && s.dbgSealed k
      (decide (f.ni = 256) && (decide (s.rd Reg.coreLmapState { sock := k, i := a.i } = 3) || sealedCore)) ||
        ((f.id = Reg.pmuHrthEvCount.id || f.id = Reg.pmuHrthEvWrap.id) && s.rd Reg.hrthSliceEnabled { sock := k, i := a.i } = 0) ||
        ((f.id = Reg.pmuFlueEvCount.id || f.id = Reg.pmuFlueEvWrap.id) && decide (p.flues ≤ a.i)) ||
        ((f.id = Reg.pmuStkEvCount.id || f.id = Reg.pmuStkEvWrap.id) && !p.full) ||
        ((f.id = Reg.pmuStkChEvCount.id || f.id = Reg.pmuStkChEvWrap.id) && (!p.full || sealedCore)) ||
        ((f.id = Reg.pmuMcEvCount.id || f.id = Reg.pmuMcEvWrap.id) && decide (16 ≤ a.j) && !p.full) ||
        (decide (f.ni = 26) && decide (16 + p.flues ≤ a.i) && decide (a.i < 22))
    | .mc => decide (a.inst ≠ 0) && [Reg.mcDecWays.id, Reg.mcDecMacon.id, Reg.mcDecDramtop.id, Reg.mcMacrValid.id, Reg.mcMacrBase.id,
        Reg.mcMacrSize.id].contains f.id
    | _ => false

/-- Whether a write of a field is ignored whatever its value: an absent field; a routing entry of a Vault instance (R182); HARDEN in a
Sealed partition (R204); a channel's fixed configuration (R441); a range of CXL memory in use (Table PCIX-5); the paired mode of channels
but the first (R405); a core's page of counters in the Vault world (R584); a mailbox word of the other side or of a message not yet
acknowledged (R473); a lockable field once written (Table SCOP-5). -/
def State.writeIgnored (s : State) (rq : Rq) (f : Fld) (a : Ix) : Bool :=
  s.absent rq f a || (decide (f.acc = .rwl) && cellGet false s.locked (regKey f a)) ||
    match f.blk with
    | .ihub => decide (0x10000 ≤ f.off) && s.rd Reg.ihubRouteVault { sock := a.sock, i := a.i } = 1
    | .core => f.id = Reg.coreCfgHarden.id && s.isSealed a.sock
    | .stk =>
      (chanCfgField f && s.rd Reg.stkChCfgVault a = 1) || (chanFixedField f && decide (s.rd Reg.stkChState a ≠ 0)) ||
        (f.id = Reg.stkTpMboxw.id && (decide (8 ≤ a.j) || s.rd Reg.stkTpMboxTxbusy { a with j := 0 } = 1)) ||
        (f.id = Reg.stkChMboxw.id && (decide (a.j < 8) || s.rd Reg.stkChMboxTxbusy { a with j := 0 } = 1))
    | .prc => decide (f.ni = 8) && f.id ≠ Reg.prcCxlwinValid.id && s.rd Reg.prcCxlwinValid { a with j := 0 } = 1
    | .mc => f.id = Reg.mcGeomPaired.id && decide (a.inst ≠ 0)
    | .pmu => decide (f.ni = 256) && (s.core (a.sock * 256 + a.i)).world.isSome
    | _ => false

/-! ### What a field shows -/

/-- Whether a running Assured partition is degraded: a flue on one of its routes has failed or is longer than 4 ns (R386). -/
def State.degraded (s : State) (k p : Nat) : Bool :=
  let b : Ix := { sock := k, i := p }
  let l := s.socksOf k p
  s.rd Reg.chimPartState b = 2 && (s.rd Reg.chimPartGuar b).testBit 1 &&
    l.any (fun x => l.any (fun y => (s.routeFlues y 64 x).any (fun e =>
      decide (s.link e.1 e.2 ≠ 2) || decide (16 < s.rd Reg.flueStateFlight (flueIx e.1 e.2)))))

/-- What a field reads as: its register, or what the device computes. -/
def State.view (s : State) (rq : Rq) (f : Fld) (a : Ix) : Nat :=
  let k := a.sock
  let b2n (b : Bool) : Nat := if b then 1 else 0
  if s.absent rq f a then 0
  else match f.blk with
    | .pmu => s.pmuView f a
    | .tbase => if f.id = Reg.tbaseNow.id then s.now k else s.rd f a
    | .pwr =>
      if f.id = Reg.pwrDampThrms.id then s.thrms k
      else if f.id = Reg.pwrCoreCstate.id then (if s.outOfReset (k * 256 + a.i) then s.rd f a else 4)
      else s.rd f a
    | .mc =>
      if f.id = Reg.mcGeomPaired.id then s.rd f { a with inst := 0 }
      else if f.id = Reg.mcDecDramtop.id then s.dramTop k / 2 ^ 20
      else s.rd f a
    | .ihub =>
      if f.id = Reg.ihubPend.id then
        (s.core (k * 256 + a.i)).vpend.foldl (fun w p => if p.2 / 64 = a.j then w ||| 2 ^ (p.2 % 64) else w) (s.rd f a)
      else s.rd f a
    | .core =>
      if f.id = Reg.coreStatusHardened.id then b2n (s.hardened (k * 256 + a.i))
      else if f.id = Reg.coreCfgHarden.id && s.isSealed k then 1
      else s.rd f a
    | .mesh =>
      if f.id = Reg.meshBlwTokens.id then s.gateTokens k a.i
      else if f.id = Reg.meshGateTokens.id then s.gateTokens k (256 + a.i)
      else s.rd f a
    | .chim => if f.id = Reg.chimPartDegraded.id then b2n (s.degraded k a.i) else s.rd f a
    | .stk =>
      if f.id = Reg.stkOccReserved.id then
        ((List.range 64).filter (fun c => s.rd Reg.stkChCfgEn { a with i := c } = 1 && s.rd Reg.stkChCfgAssured { a with i := c } = 1)).length
      else if f.id = Reg.stkTpMboxw.id then s.rd Reg.stkChMboxw a
      else s.rd f a
    | .sec => if 0x1000 ≤ f.off then s.rd f { a with sock := s.lowSock k } else s.rd f a
    | _ => s.rd f a

/-! ### Writing a field -/

/-- `x` held between two bounds. -/
def clampTo (lo hi x : Nat) : Nat := if x < lo then lo else if hi < x then hi else x

/-- A write of one field takes effect: by its access type, clamped where its chapter says so (R624), or as the operation the field
stands for. -/
def State.fieldSet (s : State) (rq : Rq) (f : Fld) (a : Ix) (v mask : Nat) : State :=
  let k := a.sock
  let c := k * 256 + a.i
  let new := mergeBits (s.rd f a) v mask
  let one := (v &&& mask) % 2 = 1
  if s.writeIgnored rq f a then s
  else match f.blk with
    | .pwr =>
      if f.id = Reg.pwrDampTdp.id then s.wr f a (clampTo 520 900 new)
      else if f.id = Reg.pwrDampTau.id then s.wr f a (clampTo 100 10000 new)
      else if f.id = Reg.pwrDampTjtarget.id then s.wr f a (clampTo 80 103 new)
      else if f.id = Reg.pwrCoreReq.id then s.pllWrite k a.i new (s.rd Reg.pwrCorePllen a)
      else if f.id = Reg.pwrCorePllen.id then s.pllWrite k a.i (s.rd Reg.pwrCoreReq a) new
      else if f.id = Reg.pwrCoreSel.id then s.selWrite k a.i new
      else if f.id = Reg.pwrCorePrio.id then (if s.clkOk k a.i then s.fieldWrite f a v mask else s)
      else if f.id = Reg.pwrCoreRun.id then (if one then s.coreRunSet k a.i else s)
      else if f.id = Reg.pwrUpwrStk.id || f.id = Reg.pwrUpwrPrc.id then s
      else s.fieldWrite f a v mask
    | .ash => if f.id = Reg.ashRingRdptr.id then s.rdptrWrite k new else s.fieldWrite f a v mask
    | .dbg =>
      if f.id = Reg.dbgCoreCtlHaltreq.id then (if one then s.haltReq c else s)
      else if f.id = Reg.dbgCoreTrctlEn.id then s.traceSet c (new = 1)
      else s.fieldWrite f a v mask
    | .pmu =>
      if f.id = Reg.pmuCoreEvWrap.id then (if one then (s.fieldWrite f a v mask).pmuClear c a.j else s)
      else if f.id = Reg.pmuCoreThrWrap.id then (if one then (s.fieldWrite f a v mask).pmuClear c (384 + a.j) else s)
      else if [Reg.pmuThrctlStruct.id, Reg.pmuThrctlN.id, Reg.pmuThrctlEn.id].contains f.id then (s.fieldWrite f a v mask).thrZero c a.j
      else if [Reg.pmuCorebwClass.id, Reg.pmuCorebwWin.id, Reg.pmuCorebwEn.id].contains f.id then
        (s.fieldWrite f a v mask).bwMark k a.i a.j true false
      else if [Reg.pmuUnitbwClass.id, Reg.pmuUnitbwWin.id, Reg.pmuUnitbwEn.id].contains f.id then
        (s.fieldWrite f a v mask).bwMark k (256 + a.i) a.j true false
      else if f.id = Reg.pmuCorebwPeakclr.id then s.bwMark k a.i a.j false one
      else if f.id = Reg.pmuUnitbwPeakclr.id then s.bwMark k (256 + a.i) a.j false one
      else if f.acc = .w1c && one then
        { s.fieldWrite f a v mask with uwraps := s.uwraps.filter (fun e => decide (e ≠ regKey f a)) }
      else s.fieldWrite f a v mask
    | .mc => if f.id = Reg.mcMarkValid.id || f.id = Reg.mcMarkDev.id then s else s.fieldWrite f a v mask
    | .stk =>
      if f.id = Reg.stkChCfgEn.id then s.cfgEn k a.inst a.i new
      else if f.id = Reg.stkTpSqtail.id then s.doorbell k a.inst a.i new
      else if f.id = Reg.stkTpCqhead.id then s.cqheadWrite k a.inst a.i new
      else if [Reg.stkTpSqsize.id, Reg.stkTpSqbase.id, Reg.stkTpCqsize.id, Reg.stkTpCqbase.id].contains f.id then s
      else if f.id = Reg.stkTpMboxw.id then s.fieldWrite Reg.stkChMboxw a v mask
      else s.fieldWrite f a v mask
    | .prc => if f.id = Reg.prcCxlwinValid.id then s else s.fieldWrite f a v mask
    | .sec => s
    | _ => s.fieldWrite f a v mask

/-! ### What a written word sets going -/

/-- A written word: each field with its place, the value bits and the mask of the bits written. -/
abbrev Written := List (WF × Nat × Nat)

/-- Whether 1 was written to a field of one bit, and where it stands. -/
def Written.go (l : Written) (f : Fld) : Option Ix :=
  (l.find? (fun e => e.1.f.id = f.id && (e.2.1 &&& e.2.2) % 2 = 1)).map (fun e => e.1.ix)

/-- Where a field was written, with the bits written to it. -/
def Written.val (l : Written) (f : Fld) : Option (Ix × Nat × Nat) :=
  (l.find? (fun e => e.1.f.id = f.id && decide (e.2.2 ≠ 0))).map (fun e => (e.1.ix, e.2.1, e.2.2))

/-- The bits written to a field, zero where none were. -/
def Written.bits (l : Written) (f : Fld) : Nat := match l.val f with | some (_, v, m) => v &&& m | none => 0

/-- What a write of 1 to the field `f` sets going, if the word written holds one. -/
def Written.on (l : Written) (s : State) (f : Fld) (g : State → Ix → State) : State :=
  match l.go f with
  | some a => g s a
  | none => s

/-- A written package power command: power off or standby. -/
def Written.pkgCmd (l : Written) (s : State) : State :=
  match l.val Reg.pwrPkgCmd with
  | some (a, v, m) => if v &&& m = 1 then s.powerOff a.sock else if v &&& m = 2 then s.standby a.sock else s
  | none => s

/-- The value a written part of a field leaves in it, or the field's own value where it is not written. -/
def mergedVal (s : State) (f : Fld) (a : Ix) (o : Option (Ix × Nat × Nat)) : Nat :=
  match o with
  | some (_, v, m) => mergeBits (s.rd f a) v m
  | none => s.rd f a

/-- The element of whichever of two fields of one word is written. -/
def writtenIx (x y : Option (Ix × Nat × Nat)) : Ix :=
  match x, y with
  | some e, _ => e.1
  | none, some e => e.1
  | none, none => { sock := 0 }

/-- A written unit power word. -/
def Written.upwr (l : Written) (s : State) : State :=
  let x := l.val Reg.pwrUpwrStk
  let y := l.val Reg.pwrUpwrPrc
  if x.isNone && y.isNone then s
  else
    let a := writtenIx x y
    s.upwr a.sock (mergedVal s Reg.pwrUpwrStk a x) (mergedVal s Reg.pwrUpwrPrc a y)

/-- A written VALID of a CXL window. -/
def Written.cxl (l : Written) (s : State) : State :=
  match l.val Reg.prcCxlwinValid with
  | some (a, v, m) => s.cxlValid a.sock a.inst a.i ((v &&& m) % 2 = 1)
  | none => s

/-- A written size or base of a ring. -/
def Written.ring (l : Written) (cq : Bool) (fs fb : Fld) (s : State) : State :=
  let x := l.val fs
  let y := l.val fb
  if x.isNone && y.isNone then s
  else
    let a := writtenIx x y
    s.ringCfg a.sock a.inst a.i cq (if x.isNone then none else some (mergedVal s fs a x))
      (if y.isNone then none else some (mergedVal s fb a y))

/-- A written mark entry. -/
def Written.mark (l : Written) (s : State) : State :=
  let x := l.val Reg.mcMarkValid
  let y := l.val Reg.mcMarkDev
  if x.isNone && y.isNone then s
  else
    let a := writtenIx x y
    s.markWrite a.sock a.inst a.i (mergedVal s Reg.mcMarkValid a x) (mergedVal s Reg.mcMarkDev a y)

/-- Operations of PWR, root complexes and Stoker cells that a word set going. -/
def State.unitAct (s : State) (l : Written) : State :=
  let s := l.pkgCmd s
  let s := l.on s Reg.pwrResetWarm (fun s a => s.warmReset a.sock)
  let s := l.on s Reg.pwrResetCorerstGo (fun s a => s.coreRst a.sock (l.bits Reg.pwrResetCorerstCore))
  let s := l.upwr s
  let s := l.on s Reg.prcIoinvGo (fun s a => s.ioinvGo a.sock a.inst (l.bits Reg.prcIoinvRid) (l.bits Reg.prcIoinvAll = 1))
  let s := l.on s Reg.prcPortCtlRelease (fun s a => s.portRelease a.sock a.inst a.i)
  let s := l.on s Reg.prcPortSlotPwron (fun s a => s.slotOn a.sock a.inst a.i)
  let s := l.on s Reg.prcPortSlotPwroff (fun s a => s.slotOff a.sock a.inst a.i)
  let s := l.cxl s
  let s := l.on s Reg.stkCtlReset (fun s a => s.stkCtlReset a.sock a.inst)
  let s := l.on s Reg.stkChCtlReset (fun s a => s.stkResetReq a.sock a.inst a.i false)
  let s := l.on s Reg.stkTpCtlReset (fun s a => s.stkResetReq a.sock a.inst a.i true)
  let s := l.on s Reg.stkChMboxTx (fun s a => s.mboxTx a.sock a.inst a.i true)
  let s := l.on s Reg.stkChMboxAck (fun s a => s.mboxAck a.sock a.inst a.i true)
  let s := l.on s Reg.stkTpMboxTx (fun s a => s.mboxTx a.sock a.inst a.i false)
  let s := l.on s Reg.stkTpMboxAck (fun s a => s.mboxAck a.sock a.inst a.i false)
  l.ring true Reg.stkTpCqsize Reg.stkTpCqbase (l.ring false Reg.stkTpSqsize Reg.stkTpSqbase s)

/-- What the fields of one written word set going, but for a debugger's access to memory. -/
def State.wordAct0 (s : State) (rq : Rq) (l : Written) : State :=
  let s := l.on s Reg.hrthRetireGo (fun s a => s.retireReq a.sock (l.bits Reg.hrthRetireSlice) false)
  let s := l.on s Reg.hrthStripeValid (fun s a => s.stripeCheck a.sock a.i)
  let s := l.on s Reg.arbCommitGo (fun s a => s.commitGo a.sock)
  let s := l.on s Reg.chimCfgGo (fun s a => s.cfgGo a.sock)
  let s := l.on s Reg.flueCtlRestore (fun s a => s.flueRestore a.sock a.inst)
  let s := l.on s Reg.mcSpareReqGo (fun s a => s.spareReq a.sock a.inst (l.bits Reg.mcSpareReqLine))
  let s := l.mark s
  let s := match rq with
    | .core c => l.on s Reg.secViKick (fun s a => s.viKick c a.i)
    | _ => s
  let s := l.on s Reg.ashHandoffGo (fun s a => s.handoffGo a.sock (l.bits Reg.ashHandoffCore))
  let s := l.on s Reg.ashNvClr (fun s a => s.nvClr a.sock)
  let s := l.on s Reg.dbgCoreCtlResume (fun s a => s.resume (a.sock * 256 + a.i))
  let s := l.on s Reg.dbgCoreCtlStep (fun s a => s.stepReq (a.sock * 256 + a.i))
  let s := l.on s Reg.dbgCoreAccGo (fun s a => s.accGo (a.sock * 256 + a.i))
  s.unitAct l

/-! ### Words and accesses -/

/-- The written parts of a block's word. -/
def writtenOf (b : Blk) (h inst o lo size val : Nat) : Written := (wordFields b h inst o).map (fun w => (w, fieldBits w lo size val))

/-- The written parts of a block's word that are not ignored. -/
def State.writtenLive (s : State) (rq : Rq) (b : Blk) (h inst o lo size val : Nat) : Written :=
  (writtenOf b h inst o lo size val).filter (fun e => !s.writeIgnored rq e.1.f e.1.ix)

/-- A read of a block's word. -/
def State.blkLoad (s : State) (rq : Rq) (b : Blk) (h inst o : Nat) : Nat :=
  assemble (s.view rq) (wordFields b h inst o)

/-- The fields of a written word take their values. -/
def State.blkFields (s : State) (rq : Rq) (l : Written) : State :=
  l.foldl (fun s e => if e.2.2 = 0 then s else s.fieldSet rq e.1.f e.1.ix e.2.1 e.2.2) s

/-- A write of part of a block's word, but for a debugger's access to memory. -/
def State.blkStore0 (s : State) (rq : Rq) (b : Blk) (h inst o lo size val : Nat) : State :=
  let l := s.writtenLive rq b h inst o lo size val
  (s.blkFields rq l).wordAct0 rq l

/-- A load of 4 or 8 bytes at a control-space offset of socket `h` (R15, R19). -/
def State.ctlLoad (s : State) (rq : Rq) (h off size : Nat) : Nat :=
  match capFind off (capList (s.part h)) 0 with
  | none => 0
  | some e =>
    let o := off - e.base
    let w := if o < 16 then e.word (8 ≤ o) else
      match e.blk with
      | none => 0
      | some b => s.blkLoad rq b h e.inst (o / 8 * 8)
    natBits w (8 * (o % 8 + size) - 1) (8 * (o % 8))

/-- A store through `f` at a control-space offset of socket `h`. -/
def State.ctlStoreBy (s : State) (f : Blk → Nat → Nat → Nat → State) (h off : Nat) : State :=
  match capFind off (capList (s.part h)) 0 with
  | none => s
  | some e =>
    let o := off - e.base
    if o < 16 then s
    else match e.blk with
      | none => s
      | some b => f b e.inst (o / 8 * 8) (o % 8)

/-- A store of 8 bytes by the debug module itself. -/
def State.ctlStore0 (s : State) (rq : Rq) (h off val : Nat) : State :=
  s.ctlStoreBy (fun b inst o lo => s.blkStore0 rq b h inst o lo 8 val) h off

/-! ### A debugger's access to memory (R592) -/

/-- The status and state of a debugger's read of 8 bytes at `pa`, with the data: coherent memory, or a device access whose data the
device gives, and so is left open (log entry 1). -/
def State.dbgRead (s : State) (rq : Rq) (k pa : Nat) : State × Nat × Nat :=
  match s.target k pa with
  | .dram _ _ | .cxl _ _ =>
    (match s.agentRead (freeAgent k) k (lineOf pa) with
     | (s, none) => (s, 0, memNat s.mem pa 8)
     | (s, some e) => (s, if e.status = 256 then 1 else 0x0A, 0))
  | .boot _ => (s, 0, memNat s.mem pa 8)
  | .ctl h off => (match ctlCfg (s.part h) off with
      | some _ => (s.useFree, 0, s.freeNat 64)
      | none => (s, 0, s.ctlLoad rq h off 8))
  | .dev _ _ => (s.useFree, 0, s.freeNat 64)
  | .hole _ => (s, 0x0A, 0)
  | .gone _ => (s, 0x0A, 0)
  | .refused => (s, 0x09, 0)

/-- The status and state of a debugger's write of 8 bytes at `pa`. -/
def State.memWriteDbg (s : State) (rq : Rq) (k pa v : Nat) : State × Nat :=
  match s.target k pa with
  | .ctl h off => ((if (ctlCfg (s.part h) off).isSome then s else s.ctlStore0 rq h off v), 0)
  | .dev _ _ => (s, 0)
  | .boot _ => (s, 0)
  | .refused => (s, 0x09)
  | _ =>
    match s.agentWrite (freeAgent k) k pa (leBytes 8 v) with
    | (s, none) => (s, 0)
    | (s, some e) => (s, if e.status = 256 then 1 else 0x09)

/-- MEM.GO written 1: Vault memory is refused to all, the memory of a Sealed partition to external requesters (Table DBUG-1). -/
def State.memGo (s : State) (rq : Rq) (k : Nat) : State :=
  let a : Ix := { sock := k }
  let pa := s.rd Reg.dbgMemAddr a * 8
  let st (s : State) (n : Nat) : State := s.wr Reg.dbgMemStatus a n
  let mem := match s.target k pa with | .dram _ _ => true | .cxl _ _ => true | _ => false
  if rqExt rq && s.dbgSealed k then (st s 3).wr Reg.dbgMemData a 0
  else if mem && decide ((s.pageOwner pa).1 ≠ 0) then (st s 4).wr Reg.dbgMemData a 0
  else if s.rd Reg.dbgMemWrite a = 1 then
    let r := s.memWriteDbg rq k pa (s.rd Reg.dbgMemData a)
    st r.1 r.2
  else
    let r := s.dbgRead rq k pa
    (st r.1 r.2.1).wr Reg.dbgMemData a r.2.2

/-- MEM_GO, by a requester that may reach the block. -/
def execMemGo (rq : Rq) (k : Nat) (s : State) : Host.Outcome State Fault Refusal :=
  .next (if s.dbgDenied rq k 0x30 = 0 then s.memGo rq k else s)

/-! ### Stores -/

/-- A write of part of a block's word, with all that it sets going. -/
def State.blkStore (s : State) (rq : Rq) (b : Blk) (h inst o lo size val : Nat) : State :=
  let l := s.writtenLive rq b h inst o lo size val
  let s' := (s.blkFields rq l).wordAct0 rq l
  match l.go Reg.dbgMemGo with
  | some a => if s.dbgDenied rq a.sock 0x30 = 0 then s'.memGo rq a.sock else s'
  | none => s'

/-- A store of 4 or 8 bytes at a control-space offset of socket `h` (R15, R16, R19). -/
def State.ctlStore (s : State) (rq : Rq) (h off size val : Nat) : State :=
  s.ctlStoreBy (fun b inst o lo => s.blkStore rq b h inst o lo size val) h off

/-- Whether REG_WRITE reaches a block's word: the PWR, CHIM, ASH, DBG and PMU blocks and the SLOT words of root complexes (R600). -/
def mgcMay (e : CtlAt) (off : Nat) : Bool :=
  match e.blk with
  | some .pwr => true
  | some .chim => true
  | some .ash => true
  | some .dbg => true
  | some .pmu => true
  | some .prc => (List.range 4).any (fun j => off = Reg.prcPortSlotState.off / 8 * 8 + 0x40 * j)
  | _ => false

/-- Whether a requester's writes reach an offset of control space: every core's do, JTAG's the DBG block (R597), the management controller's
what REG_WRITE reaches (R600); so an operator reaches no cache, slice or channel (R140). -/
def ctlReaches (p : Part) (rq : Rq) (off : Nat) : Bool :=
  match rq with
  | .core _ => true
  | _ =>
    match capFind off (capList p) 0 with
    | none => false
    | some e => if rq = .jtag then e.blk = some .dbg else mgcMay e ((off - e.base) / 8 * 8)

/-- CONTROL_REG_WRITE: a store of `size` bytes at a control-space offset of a socket, by a core, JTAG or the management controller; an
access that is not naturally aligned changes nothing (R19). -/
def execControlRegWrite (rq : Rq) (k off size val : Nat) (s : State) : Host.Outcome State Fault Refusal :=
  .next (if (size = 4 || size = 8) && off % size = 0 && (ctlCfg (s.part k) off).isNone && ctlReaches (s.part k) rq off && s.up k then s.ctlStore rq k off size val else s)

end Sys2Proof.Machine
end

