-- ==== Sys2Proof/Machine/Access.lean ====
section
/-!
DEFINITION. Machine/Access.lean: the data accesses of a core (R60-R62, R124-R126, R196, R234, R274, R593), and the frame
every instruction runs in: the boundary before it, its fetch, its retirement (R47, R169-R171, R590, R594).
-/
namespace Sys2Proof.Machine

/-! ### Comparators -/

/-- The cause that stands for a comparator of ACTION 1: the core halts instead (R593); it is no cause code. -/
def haltCause : Nat := 0x10000

/-- Whether comparator `j` of a core is armed and matches an access at virtual address `va`, `f`, `l` and `w` saying
whether it fetches, loads and stores (R593). -/
def State.cmpHit (s : State) (c j : Nat) (va : Word) (f l w : Bool) : Bool :=
  let a : Ix := { coreIx c with j := j }
  let armed := if s.rd Reg.dbgCoreCmpAction a = 1 then s.rd Reg.dbgCoreCmpEn a = 1
    else ((s.core c).srOwn SR.DBGCTL).getLsbD j
  let kind := s.rd Reg.dbgCoreCmpKind a
  let m := s.rd Reg.dbgCoreCmpMask a
  armed && (s.core c).world.isNone && !(s.core c).skipArm &&
    ((kind = 0 && f) || ((kind = 1 || kind = 3) && l) || ((kind = 2 || kind = 3) && w)) &&
    (va.toNat % 2 ^ 57 / 2 ^ m = s.rd Reg.dbgCoreCmpAddr a / 2 ^ m) &&
    (s.rd Reg.dbgCoreCmpDomen a = 0 ||
      s.rd Reg.dbgCoreCmpDomain a = ((s.core c).srOwn SR.DOMAIN).toNat % 65536)

/-- The lowest matching comparator acts: WATCHPOINT, or a halt (R593). -/
def State.watch (s : State) (c : Nat) (va : Word) (f l w : Bool) : Res Unit :=
  match (List.range 8).find? (fun j => s.cmpHit c j va f l w) with
  | none => .ok () s
  | some j =>
    let s := s.wr Reg.dbgCoreStatHit (coreIx c) j
    if s.rd Reg.dbgCoreCmpAction { coreIx c with j := j } = 1 then .ev (faultEv s c haltCause) s
    else .ev (faultEv s c 0x0008 (if f then 0 else va)) s

/-! ### Translation of an access -/

/-- A piece of an access that lies in one page. -/
structure Span where
  pa : Nat
  len : Nat
  dev : Bool
deriving DecidableEq, Repr

/-- Both pages of an access translated and checked before either is used (R61), with the translations. -/
def State.spans (s : State) (c : Nat) (acc : Acc) (va : Word) (size : Nat) : XR (List Span × List Tr) :=
  let n1 := min size (4096 - va.toNat % 4096)
  let one (va : Word) (s : State) : XR Tr :=
    (translate (s.xctx c) ((s.core c).tlbs acc) (s.core c).wc acc va s).bind (fun t s =>
      match checkAcc (s.xctx c) acc va t s with | some e => .bad e s | none => .ok t s)
  (one va s).bind (fun t1 s =>
    if n1 = size then .ok ([⟨t1.pa, size, t1.dev⟩], [t1]) s
    else
      (one (va + BitVec.ofNat 64 n1) s).bind (fun t2 s =>
        .ok ([⟨t1.pa, n1, t1.dev⟩, ⟨t2.pa, size - n1, t2.dev⟩], [t1, t2]) s))

/-- The A and D bits that an access's translations owe set, before it is performed (R238), and their entries installed. -/
def State.paid (s : State) (c : Nat) (acc : Acc) : List Tr → XR Unit
  | [] => .ok () s
  | t :: ts => (payAD (s.xctx c) t.owed s).bind (fun _ s => State.paid (s.install c acc t) c acc ts)

/-- Whether a span lies in control space. -/
def State.inCtl (s : State) (c : Nat) (p : Span) : Bool :=
  match s.target (coreSock c) p.pa with
  | .ctl _ _ => true
  | _ => false

/-- Whether an access breaks the rule for control space: 32 or 64 bits wide, naturally aligned, any part of it that lies there (R19, R61). -/
def State.ctlBad (s : State) (c : Nat) (va : Word) (size : Nat) (ps : List Span) : Bool :=
  ps.any (s.inCtl c) && !((size = 4 || size = 8) && va.toNat % size = 0)

/-- The lines of an access met in memory (R415). -/
def State.touchAll (s : State) (c : Nat) (ps : List Span) : State :=
  ps.foldl (fun s p => if p.dev then s else (s.touch (coreSock c) (lineOf p.pa)).touch (coreSock c) (lineOf (p.pa + p.len - 1))) s

/-- An access translated, checked, examined by `bad` for a target that cannot take it, and watched, in that order; then what its
translations owe (R61, R90, R125, R238). -/
def State.accessIf (s : State) (c : Nat) (acc : Acc) (va : Word) (size : Nat) (bad : State → List Span → Option Ev) :
    Res (List Span) :=
  (xrToRes c (s.spans c acc va size)).bind (fun r s =>
    let s := s.touchAll c r.1
    match bad s r.1 with
    | some e => .ev e s
    | none =>
      let pay (s : State) : Res (List Span) := (xrToRes c (s.paid c acc r.2)).bind (fun _ s => .ok r.1 s)
      if acc.kind = 7 && acc.need ≠ .store then pay s
      else (s.watch c va false (!acc.wr || acc.kind = 3) acc.wr).bind (fun _ s => pay s))

/-- A load, a store, or an access whose target the instruction itself examines (an atomic, cache maintenance). -/
def State.access (s : State) (c : Nat) (acc : Acc) (va : Word) (size : Nat) : Res (List Span) :=
  s.accessIf c acc va size (fun s ps =>
    if acc.kind ≠ 3 && acc.kind ≠ 7 && s.ctlBad c va size ps then some (faultEv s c 0x0101 va (infoOf acc 0 0 0 false 0)) else none)

/-- Whether a piece lies where an atomic or cache maintenance cannot act: a device, control space, the boot window (R97, R121, R560);
maintenance that `noHome` marks needs a home in the partition too (R294, R403, R625). -/
def State.notMem (s : State) (c : Nat) (noHome : Bool) (p : Span) : Bool :=
  p.dev || (match s.target (coreSock c) p.pa with
    | .ctl _ _ => true
    | .dev _ _ => true
    | .boot _ => true
    | .hole _ => noHome
    | .refused => noHome
    | _ => false)

/-- An access to memory alone: any other target is UNSUPPORTED_TARGET (R97, R121). -/
def State.accessMem (s : State) (c : Nat) (acc : Acc) (va : Word) (size : Nat) (noHome : Bool) : Res (List Span) :=
  s.accessIf c acc va size (fun s ps =>
    if ps.any (s.notMem c noHome) then some (faultEv s c 0x0105 va (infoOf acc 0 0 0 false 0)) else none)

/-- An event of the core's counters. -/
def State.countC (s : State) (c e : Nat) : State := s.updCore c (fun k => k.count e 1)

/-- What an instruction counts when it retires (R570), `n` of event `e`; one parked for a device's answer retires in time. -/
def Res.counted {α : Type} (r : Res α) (c e n : Nat) : Res α :=
  match r with
  | .ok a s => .ok a (s.updCore c (fun k => k.count e n))
  | .park s => .park (if (s.core c).devWait.isSome then s.updCore c (fun k => k.count e n) else s)
  | r => r

/-! ### Regions -/

/-- Lines taken one after another with `f`, each once it need not wait; `none` when one must. -/
def takeLines (w : State → Nat → Bool) (f : State → Nat → State) : List Nat → State → Option State
  | [], s => some s
  | ln :: t, s => if w s ln then none else takeLines w f t (f s ln)

/-- The lines of an ordered region acquired in ascending order at its first load, store or commit (R119, R315): `none`
while another region holds one. -/
def State.ensureHeld (s : State) (c : Nat) : Option State :=
  match (s.core c).region with
  | none => some s
  | some r =>
    if r.ordered && !r.accessed then
      match takeLines (fun s ln => s.lineWaits c ln) (fun s ln =>
          let s := s.acqOwn c ln (s.target (coreSock c) (ln * 64)).home
          { s with held := cellSet none s.held ln (some { holder := c, waiter := none }) }) r.lines s with
      | none => none
      | some s => some (s.updCore c (fun k => { k with region := k.region.map (fun r => { r with accessed := true, held := r.lines }) }))
    else some (s.updCore c (fun k => { k with region := k.region.map (fun r => { r with accessed := true }) }))

/-! ### Errors of a core's own arrays -/

/-- Whether core `c` finds a line bad: the line itself (R62, R138), or the copy in its L2 (R197). -/
def State.badFor (s : State) (c pa : Nat) : Bool := s.badLine pa || (s.core c).l2bad.contains (lineOf pa)

/-- The Ashpan entry of an error of core `c`'s arrays (Table RELY-3): `src` 1 the L1, 2 the L2. -/
def State.arrayEntry (s : State) (c src cls code pa : Nat) : State :=
  let k := coreSock c
  s.ash k { cls := cls, src := src, inst := s.rd Reg.coreLmapGrate (coreIx c), code := code, addr := pa, part := s.partition k,
            domain := (s.sr c SR.DOMAIN).toNat % 65536, core := coreLog c, d5 := if src = 1 then (s.pc c).toNat else 0 }

/-- A parity error of the L1I or L1D: the line leaves it and is refetched from the L2, and the error is counted (R194). -/
def State.l1Err (s : State) (c : Nat) (instr : Bool) (pa : Nat) : State :=
  let s := s.updCore c (fun k =>
    if instr then { k with l1i := k.l1i.filter (fun e => e.1 ≠ lineOf pa) }.count 52 1
    else { k with l1d := k.l1d.filter (· ≠ lineOf pa) }.count 51 1)
  (s.bump (if instr then Reg.coreErrl1L1i else Reg.coreErrl1L1d) (coreIx c)).arrayEntry c 1 0 0x01 pa

/-- An error of the L2 at a line it holds: one bit is corrected; two bits poison the line, counted and reported (R197). -/
def State.l2Err (s : State) (c pa : Nat) (two : Bool) : State :=
  let ln := lineOf pa
  match (s.core c).l2st ln with
  | none => s
  | some x =>
    if two then
      let s := (s.bump Reg.coreErrl2Uncorr (coreIx c)).arrayEntry c 2 1 0x02 (ln * 64)
      if x = .M then s.setPoison ln true
      else if (s.core c).l2bad.contains ln then s else s.updCore c (fun k => { k with l2bad := ln :: k.l2bad })
    else (s.bump Reg.coreErrl2Corr (coreIx c)).arrayEntry c 2 0 0x01 (ln * 64)

/-! ### Loads -/

/-- Whether a configuration access of core `c` is refused: the function is assigned to an instance the core is not in
(R500). -/
def State.cfgRefused (s : State) (c h : Nat) (f : Nat × Nat) : Bool :=
  let u := 2 + f.1 * 2 ^ 8 + f.2 * 2 ^ 16 + h * 2 ^ 32
  s.vault.any (fun e => decide (e.1 / 64 = s.lowSock h) && e.2.units.contains u && decide ((s.core c).world.map (·.1) ≠ some e.1))

/-- The lines a piece of memory touches. -/
def Span.lines (p : Span) : List Nat :=
  if lineOf p.pa = lineOf (p.pa + p.len - 1) then [lineOf p.pa] else [lineOf p.pa, lineOf (p.pa + p.len - 1)]

/-- Whether a queued store writes any byte of a piece. -/
def StoreEnt.meets (e : StoreEnt) (p : Span) : Bool := decide (e.pa < p.pa + p.len) && decide (p.pa < e.pa + e.bytes.length)

/-- Whether the youngest queued store that meets each line's part of a piece covers that part, so that the piece is forwarded (R196). -/
def forwards (q : List StoreEnt) (p : Span) : Bool :=
  p.lines.all (fun ln =>
    let lo := max p.pa (ln * 64)
    let hi := min (p.pa + p.len) (ln * 64 + 64)
    match q.reverse.find? (fun e => e.meets { pa := lo, len := hi - lo, dev := false }) with
    | some e => decide (e.pa ≤ lo) && decide (hi ≤ e.pa + e.bytes.length)
    | none => false)

/-- The stores an open region holds. -/
def Core.held (k : Core) : List StoreEnt := match k.region with | some r => r.stores | none => []

/-- The lines of a piece read by core `c`, once none has to wait: from a line in memory or in a cache, its region's stores over it; POISON or
INTEGRITY_FAULT for a bad line; a line of memory enters the L2 and the L1D (R62, R138, R193, R197). -/
def State.readLines (s : State) (c : Nat) (acc : Acc) (va : Word) (p : Span) (h : Nat) : Res (List Byte) :=
  if p.lines.any (fun ln => s.readWaits c ln) then .stall
  else
    match p.lines.find? (fun ln => s.badFor c (ln * 64)) with
    | some ln =>
      let e := s.poisonErr (coreSock c) (ln * 64) va.toNat (infoOf acc 0 0 0 false 0)
      .ev (faultEv e.2 c e.1.cause (BitVec.ofNat 64 e.1.addr) e.1.info) e.2
    | none =>
      let read (s : State) : Res (List Byte) := .ok ((List.range p.len).map (fun i => fwdByte s.mem (s.core c).held (p.pa + i))) s
      if p.dev then read s
      else
        match takeLines (fun s ln => s.readWaits c ln) (fun s ln => (s.acqShared c ln h true).updCore c (fun k => k.fillL1d ln)) p.lines s with
        | none => .stall
        | some s => read s

/-- A piece of memory read by core `c`: forwarded from its queued stores where they cover it, else read once those that meet it have been
performed (R196, R266). -/
def State.readMem (s : State) (c : Nat) (acc : Acc) (va : Word) (p : Span) (h : Nat) : Res (List Byte) :=
  let k := s.core c
  if (k.held ++ k.storeQ).any (fun e => e.meets p) && forwards (k.storeQ ++ k.held) p then
    .ok ((List.range p.len).map (fun i => fwdByte s.mem k.ownStores (p.pa + i))) s
  else if k.storeQ.any (fun e => e.meets p) then
    match s.drainTo c (fun e => e.meets p) with
    | none => .stall
    | some s => s.readLines c acc va p h
  else s.readLines c acc va p h

/-- One line or device piece read: from one's own stores where they cover it, otherwise the line is acquired S or E
(R196, R266).  A window of a device answers with what the spec leaves open; `execLoad` waits for it instead. -/
def State.readSpan (s : State) (c : Nat) (acc : Acc) (va : Word) (p : Span) : Res (List Byte) :=
  let k := coreSock c
  let t := s.target k p.pa
  let perr (s : State) : Res (List Byte) :=
    let e := s.poisonErr k p.pa va.toNat (infoOf acc 0 0 0 false 0)
    .ev (faultEv e.2 c e.1.cause (BitVec.ofNat 64 e.1.addr) e.1.info) e.2
  match t with
  | .hole _ => perr s
  | .refused => perr s
  | .gone _ => perr s
  | .ctl h off =>
    match ctlCfg (s.part h) off with
    | some f =>
      if s.cfgRefused c h f then .ok (leBytes p.len (2 ^ 64 - 1)) s
      else
        let s := (s.devReq c (h * 4 + f.1) p.pa).1
        .ok (s.freeBytes p.len) s.useFree
    | none => .ok (leBytes p.len (s.ctlLoad (.core c) h off p.len)) s
  | .dev h n =>
    let s := (s.devReq c (h * 4 + n) p.pa).1
    .ok (s.freeBytes p.len) s.useFree
  | .boot _ => .ok (memBytes s.mem p.pa p.len) s
  | _ => s.readMem c acc va p t.home

/-- The pieces of an access read in order. -/
def State.readSpans (s : State) (c : Nat) (acc : Acc) (va : Word) : List Span → Res (List Byte)
  | [] => .ok [] s
  | p :: t => (s.readSpan c acc va p).bind (fun b s => (State.readSpans s c acc va t).bind (fun b' s => .ok (b ++ b') s))

/-- A load or store that crosses a 64-byte line takes a second micro-op and is counted when it retires (R188, Table PERF-1). -/
def Res.crossing {α : Type} (r : Res α) (c : Nat) (va : Word) (size : Nat) : Res α :=
  if va.toNat % 64 + size ≤ 64 then r else (r.counted c 181 1).counted c 4 1

/-- Bytes loaded by core `c` (R60, R62). -/
def State.loadRaw (s : State) (c : Nat) (acc : Acc) (va : Word) (size : Nat) : Res (List Byte) :=
  (s.access c acc va size).bind (fun ps s =>
    match s.ensureHeld c with
    | none => .stall
    | some s => s.readSpans c acc va ps)

/-- A load with its micro-ops counted. -/
def State.load (s : State) (c : Nat) (acc : Acc) (va : Word) (size : Nat) : Res (List Byte) := (s.loadRaw c acc va size).crossing c va size

/-- A load's value, sign- or zero-extended to 64 bits. -/
def extend (b : List Byte) (signed : Bool) : Word :=
  let n := leNat b
  let w := 8 * b.length
  BitVec.ofNat 64 (if signed && n.testBit (w - 1) then n + (2 ^ 64 - 2 ^ w) else n)

/-! ### Stores -/

/-- What a store that leaves the queue's order must wait for: a release store for every earlier store, any other for those before a
FENCE.SS and those to the same line (R94, R266, R271). -/
def State.before (s : State) (c pa : Nat) (rel : Bool) : Option State :=
  s.drainTo c (fun e => rel || e.fence || lineOf e.pa = lineOf pa)

/-- One piece of a store performed or queued (R196, R274, R560); a store to a device or control space goes there at once, behind the
stores that must be performed before it. -/
def State.writeSpan (s : State) (c : Nat) (p : Span) (b : List Byte) (whole rel : Bool) : Option State :=
  match s.target (coreSock c) p.pa with
  | .ctl h off =>
    (s.before c p.pa rel).map (fun s =>
      match ctlCfg (s.part h) off with
      | some f => if s.cfgRefused c h f then s else (s.devReq c (h * 4 + f.1) p.pa).1
      | none => s.ctlStore (.core c) h off p.len (leNat b))
  | .dev h n => (s.before c p.pa rel).map (fun s => (s.devReq c (h * 4 + n) p.pa).1)
  | .boot _ => some s
  | .dram _ _ | .cxl _ _ =>
    if p.dev then
      (s.before c p.pa rel).bind (fun s =>
        (splitStore p.pa b false rel).foldl (fun (o : Option State) (e : StoreEnt) => o.bind (fun s => s.uncWrite c e.pa e.bytes)) (some s))
    else s.queueStores c (splitStore p.pa b whole rel)
  | _ => s.queueStores c (splitStore p.pa b whole rel)

/-- The pieces of a store in order. -/
def State.writeSpans (s : State) (c : Nat) (whole rel : Bool) : List Span → List Byte → Option State
  | [], _ => some s
  | p :: t, b =>
    match s.writeSpan c p (b.take p.len) whole rel with
    | none => none
    | some s => State.writeSpans s c whole rel t (b.drop p.len)

/-- The lines of a store's pieces. -/
def spanLines (ps : List Span) : List Nat := ps.flatMap (fun p => [lineOf p.pa, lineOf (p.pa + p.len - 1)])

/-- Bytes stored by core `c`: inside a region they are held for its set, and a store outside the set aborts it (R116). -/
def State.storeRaw (s : State) (c : Nat) (acc : Acc) (va : Word) (b : List Byte) (whole rel : Bool) : Res Unit :=
  (s.access c acc va b.length).bind (fun ps s =>
    match (s.core c).region with
    | some r =>
      if (spanLines ps).all (fun ln => r.lines.contains ln) then
        match s.ensureHeld c with
        | none => .stall
        | some s =>
          let es := (ps.foldl (fun (x : List StoreEnt × List Byte) p =>
            (x.1 ++ splitStore p.pa (x.2.take p.len) whole rel, x.2.drop p.len)) ([], b)).1
          .ok () (s.updCore c (fun k => { k with region := k.region.map (fun r => { r with stores := r.stores ++ es }) }))
      else .park (s.abortRegion c 4 0)
    | none =>
      match s.writeSpans c whole rel ps b with
      | none => .stall
      | some s => .ok () s)

/-- A store with its micro-ops counted. -/
def State.store (s : State) (c : Nat) (acc : Acc) (va : Word) (b : List Byte) (whole rel : Bool) : Res Unit :=
  (s.storeRaw c acc va b whole rel).crossing c va b.length

/-! ### The frame of an instruction -/

/-- An instruction being stepped has ended: the core halts again (R590). -/
def State.stepDone (s : State) (c : Nat) : State := if (s.core c).stepping then s.haltNow c 3 else s

/-- A physical line entered in the L1I with its value: 256 sets of 4 ways (Table CORE-2, R192; which line leaves a full set is open, log
entry 8). -/
def Core.fillL1i (k : Core) (ln : Nat) (v : Vec) : Core :=
  { k with l1i := keepWays (fun e => e.1 % 256 = ln % 256) 4 ((ln, v) :: k.l1i) }

/-- Whether the L1I holds a line. -/
def Core.inL1i (k : Core) (ln : Nat) : Bool := k.l1i.any (fun e => e.1 = ln)

/-- A line that the L1I lacks fetched into it, an instruction read that wants no ownership (R192, R198); none for a line it holds. -/
def State.fillLine (s : State) (c ln : Nat) : State :=
  if (s.core c).inL1i ln then s
  else
    let s := match s.target (coreSock c) (ln * 64) with
      | .dram h _ | .cxl h _ => s.acqShared c ln h false
      | _ => s
    s.updCore c (fun k => k.fillL1i ln (s.lineVal ln))

/-- `n` bytes at `pa`, within one line, as a fetch reads them: from the L1I where it holds the line (R192, R202). -/
def State.fetchNat (s : State) (c pa n : Nat) : Nat :=
  match (s.core c).l1i.find? (fun e => e.1 = lineOf pa) with
  | some e => natBits e.2.toNat (8 * (pa % 64 + n) - 1) (8 * (pa % 64))
  | none => memNat s.mem pa n

/-- Whether a fetch of a line that the L1I lacks finds no memory or poison. -/
def State.fetchBad (s : State) (c ln : Nat) : Bool :=
  !(s.core c).inL1i ln && (match s.target (coreSock c) (ln * 64) with
    | .hole _ => true
    | .refused => true
    | .gone _ => true
    | .boot _ => false
    | _ => s.badFor c (ln * 64))

/-- Whether a fetch of a line that the L1I lacks must wait. -/
def State.fetchWaits (s : State) (c ln : Nat) : Bool :=
  !(s.core c).inL1i ln && (match s.target (coreSock c) (ln * 64) with
    | .dram _ _ | .cxl _ _ => s.readWaits c ln
    | _ => false)

/-- The fetch of `len` bytes at the pc (R47, R125, R234): every parcel's page, the target, the lines the L1I lacks with their poison, then
comparators (R62, R192). -/
def State.fetch (s : State) (c len : Nat) : Res Unit :=
  let pc := s.pc c
  match s.spans c Acc.fetch pc len with
  | .wait => .stall
  | .bad e s => .ev (faultEv s c e.cause (if e.info.testBit 14 && e.cause = 0x0102 then BitVec.ofNat 64 e.addr else pc) e.info) s
  | .ok (ps, ts) s =>
    if ps.any (·.dev) then .ev (faultEv s c 0x0105 pc 0) s
    else
      match s.paid c Acc.fetch ts with
      | .wait => .stall
      | .bad e s => .ev (faultEv s c e.cause pc e.info) s
      | .ok _ s =>
        let s := s.touchAll c ps
        let lines := ps.flatMap Span.lines
        match lines.find? (s.fetchBad c) with
        | some ln =>
          let e := s.poisonErr (coreSock c) (ln * 64) pc.toNat 0
          .ev (faultEv e.2 c e.1.cause pc e.1.info) e.2
        | none =>
          match takeLines (fun s ln => s.fetchWaits c ln) (fun s ln => s.fillLine c ln) lines s with
          | none => .stall
          | some s => s.watch c pc true false false

/-- The core's SR.CORECTL.PRECISE (R88). -/
def State.precise (s : State) (c : Nat) : Bool := (s.sr c SR.CORECTL).getLsbD 0

/-- How the seat's entry PC is left behind: GATE itself retires onto it, then its first instruction (R185). -/
def SeatIn.past (e : SeatIn) (pc : Word) : SeatIn :=
  { e with new := if e.new = 2 then 1 else if e.new = 1 && pc = e.entry then 0 else e.new }

/-- The core past a retired instruction of one micro-op: the pc at `next`, SKIP spent, the instruction and its micro-op counted (R188, R570,
R594). -/
def Core.advance (k : Core) (next : Word) : Core :=
  let reg : Option Region := k.region.map (fun (r : Region) => { r with retired := r.retired + 1 })
  let k : Core := { k with pc := next, fresh := false, region := reg, seatIn := k.seatIn.map (fun e => e.past k.pc) }
  let k : Core := if k.skipArm then
      { k.setSrOwn SR.DBGCTL (k.srOwn SR.DBGCTL &&& ~~~(0x200 : Word)) with skipArm := false } else k
  (k.count 3 1).count 4 1

/-- An instruction retires and the next one is at `next`: counts, a precise arithmetic exception, single step, a debugger's
step (R88, R570, R590, R594); `none` when an event it raises must wait, the instruction being tried again then. -/
def State.retireInstr (s : State) (c : Nat) (next : Word) : Option State :=
  let pc := s.pc c
  let s := s.updCore c (fun k =>
    k.advance next)
  let r :=
    if s.precise c && (s.sr c SR.FPSTAT).getLsbD 8 then
      let f := s.sr c SR.FPSTAT
      let s := s.setSr c SR.FPSTAT (f &&& ~~~(0x500 : Word))
      s.raise c { cause := if f.getLsbD 10 then 7 else 6, rpc := next, epc := s.sr c SR.XPC }
    else if (s.core c).ssArm then
      let s := s.updCore c (fun k =>
        { k.setSrOwn SR.DBGCTL (k.srOwn SR.DBGCTL &&& ~~~(0x100 : Word)) with ssArm := false })
      s.raise c { cause := 0x0009, rpc := next, epc := pc }
    else some s
  r.map (fun s => s.stepDone c)

/-- A pending arithmetic exception is delivered before a barrier executes (R86). -/
def barrier {α : Type} (s : State) (c : Nat) (k : State → Res α) : Res α :=
  if (s.sr c SR.FPSTAT).getLsbD 8 then
    .ev { cause := if (s.sr c SR.FPSTAT).getLsbD 9 then 7 else 6, rpc := s.pc c, epc := s.sr c SR.XPC,
          imprecise := true } s
  else k s

/-- UNIT_REVOKED is taken on the seat before the instruction at the entry PC (R185). -/
def State.revokedDue (s : State) (c : Nat) : Option Nat :=
  match (s.core c).world, (s.core c).seatIn with
  | some w, some e => if e.new = 1 && s.pc c = e.entry && (s.vinst w.1).revoked then some w.1 else none
  | _, _ => none

/-- An exception that was pending when a debugger's write set PRECISE is delivered under the imprecise rule before the next instruction
(R88, R591). -/
def State.lateArith (s : State) (c : Nat) : Option Ev :=
  if s.precise c && (s.sr c SR.FPSTAT).getLsbD 8 then
    some { cause := if (s.sr c SR.FPSTAT).getLsbD 9 then 7 else 6, rpc := s.pc c, epc := s.sr c SR.XPC, imprecise := true }
  else none

/-- What is entered before the instruction at the pc, on the state it is entered in: UNIT_REVOKED on a seat (R185), or an exception left
pending. -/
def State.firstDue (s : State) (c : Nat) : Option (State × Ev) :=
  match s.revokedDue c with
  | some g =>
    some (s.setVinst g { s.vinst g with revoked := false }, { cause := 0x0505, rpc := s.pc c, epc := s.pc c, info := g % 64 * 2 ^ 28 })
  | none => (s.lateArith c).map (fun e => (s, e))

/-- One instruction of `len` bytes of core `c`: nothing when the core cannot run; else the event due at the boundary, or
its fetch and its own effect.  What must wait leaves the state as it was. -/
def State.instr (s : State) (c len : Nat) (body : State → Res Word) : State :=
  if !s.canRun c then s
  else
    match s.boundary c with
    | .took s' => s'.stepDone c
    | .wait => s
    | .none =>
      let take (s' : State) (e : Ev) : State := ((s'.raise c e).map (fun s' => s'.stepDone c)).getD s
      match s.firstDue c with
      | some (s', e) => take s' e
      | none =>
        if ((s.core c).region.map (fun r => decide (1025 < r.retired))).getD false then s
        else
          match s.fetch c len with
          | .stall => s
          | .park s' => s'
          | .ev e s' =>
            if e.cause = haltCause then s'.haltNow c 2
            else if (s.core c).fresh && e.cause ≠ 0x0008 then (s'.exhaust c e.cause).stepDone c
            else take s' e
          | .ok _ s0 =>
            match body s0 with
            | .ok next s' => (s'.retireInstr c next).getD s
            | .stall => s
            | .park s' => if (s'.core c).devWait.isSome || (s'.core c).wait.isSome || (s'.core c).fence.isSome then s'
                          else s'.stepDone c
            | .ev e s' => if e.cause = haltCause then s'.haltNow c 2 else take s' e

/-- The pc of the instruction after one of `len` bytes. -/
def State.nextPc (s : State) (c len : Nat) : Word := s.pc c + BitVec.ofNat 64 len

end Sys2Proof.Machine
end

