-- ==== Sys2Proof/Machine/Operands.lean ====
section
/-!
DEFINITION. Machine/Operands.lean: operands of instructions: immediates, addresses and the refusal of an illegal form.
-/
namespace Sys2Proof.Machine

/-- ILLEGAL_INSTRUCTION, precise and with no other effect (R51). -/
def illegal {α : Type} (s : State) (c : Nat) : Res α := .ev (faultEv s c 0x0001) s

/-- AUTHORITY_FAULT (R91). -/
def noAuth {α : Type} (s : State) (c : Nat) : Res α := .ev (faultEv s c 0x0002) s

/-- A sign-extended immediate. -/
def sx {n : Nat} (i : BitVec n) : Word := i.signExtend 64

/-- A zero-extended immediate. -/
def zx {n : Nat} (i : BitVec n) : Word := i.zeroExtend 64

/-- A pc-relative target: the address of the instruction plus the immediate times two (R44, R64). -/
def State.target2 {n : Nat} (s : State) (c : Nat) (i : BitVec n) : Word := s.pc c + (sx i <<< 1)

/-- General register `r` of core `c` read. -/
def State.g (s : State) (c : Nat) (r : Reg5) : Word := (s.core c).gr r

/-- General register `r` of core `c` written. -/
def State.setG (s : State) (c : Nat) (r : Reg5) (v : Word) : State := s.updCore c (fun k => k.setG r v)

/-- A vector register read. -/
def State.v (s : State) (c : Nat) (r : Reg5) : Vec := (s.core c).vr r

/-- A vector register written. -/
def State.setV (s : State) (c : Nat) (r : Reg5) (x : Vec) : State := s.updCore c (fun k => k.setV r x)

/-- A mask register written. -/
def State.setM (s : State) (c : Nat) (r : BitVec 3) (x : Word) : State := s.updCore c (fun k => k.setM r x)

/-- A width in bytes and whether the load sign-extends, from a load's F3 (R60). -/
def loadWidth (f3 : BitVec 3) : Option (Nat × Bool) :=
  match f3.toNat with
  | 0 => some (1, true) | 1 => some (2, true) | 2 => some (4, true) | 3 => some (8, true)
  | 4 => some (1, false) | 5 => some (2, false) | 6 => some (4, false) | _ => none

/-- A store's width in bytes from its F3 (R60). -/
def storeWidth (f3 : BitVec 3) : Option Nat :=
  match f3.toNat with
  | 0 => some 1 | 1 => some 2 | 2 => some 4 | 3 => some 8 | _ => none

end Sys2Proof.Machine
end

