-- ==== Sys2Proof/Machine/Int.lean ====
section
/-!
DEFINITION. Machine/Int.lean: the integer, immediate, field and decimal instructions (R53-R59) and their 16-bit forms (R52).
-/
namespace Sys2Proof.Machine

/-! ### Shared operations -/

/-- Leading zeros of the low `n` bits. -/
def clz (x : Nat) : Nat → Nat
  | 0 => 0
  | n + 1 => if x.testBit n then 0 else clz x n + 1

/-- Trailing zeros from bit `i`, `n` bits left. -/
def ctz (x i : Nat) : Nat → Nat
  | 0 => 0
  | n + 1 => if x.testBit i then 0 else ctz x (i + 1) n + 1

/-- Set bits among the low `n`. -/
def popc (x : Nat) : Nat → Nat
  | 0 => 0
  | n + 1 => popc x n + (if x.testBit n then 1 else 0)

/-- The byte order of a doubleword reversed. -/
def bswap (x : Word) : Word := BitVec.ofNat 64 (leNat (leBytes 8 x.toNat).reverse)

/-- A comparison's result. -/
def bit (b : Bool) : Word := if b then 1 else 0

/-- The sign-extended low word. -/
def sxw (x : Word) : Word := (x.truncate 32).signExtend 64

/-- The 64-bit operations of Table ISA-8 but divide and CRC; `none` for a reserved F6. -/
def intOp64 (f6 : Nat) (x y : Word) : Option Word :=
  let n := y.toNat % 64
  match f6 with
  | 0x00 => some (x + y)
  | 0x01 => some (x - y)
  | 0x02 => some (x &&& y)
  | 0x03 => some (x ||| y)
  | 0x04 => some (x ^^^ y)
  | 0x05 => some (x &&& ~~~y)
  | 0x06 => some (x ||| ~~~y)
  | 0x07 => some (~~~(x ^^^ y))
  | 0x08 => some (x <<< n)
  | 0x09 => some (x >>> n)
  | 0x0A => some (x.sshiftRight n)
  | 0x0B => some (x.rotateLeft n)
  | 0x0C => some (x.rotateRight n)
  | 0x0D => some (bit (x.slt y))
  | 0x0E => some (bit (x.ult y))
  | 0x10 => some (if x.slt y then x else y)
  | 0x11 => some (if x.slt y then y else x)
  | 0x12 => some (if x.ult y then x else y)
  | 0x13 => some (if x.ult y then y else x)
  | 0x18 => some (x * y)
  | 0x19 => some (BitVec.ofInt 64 (x.toInt * y.toInt / 2 ^ 64))
  | 0x1A => some (BitVec.ofNat 64 (x.toNat * y.toNat / 2 ^ 64))
  | 0x1B => some (BitVec.ofInt 64 (x.toInt * y.toNat / 2 ^ 64))
  | 0x20 => some (BitVec.ofNat 64 (clz x.toNat 64))
  | 0x21 => some (BitVec.ofNat 64 (ctz x.toNat 0 64))
  | 0x22 => some (BitVec.ofNat 64 (popc x.toNat 64))
  | 0x23 => some (bswap x)
  | _ => none

/-- The word forms of Table ISA-8 but divide: the low word's result before its sign extension. -/
def intOp32 (f6 : Nat) (x y : BitVec 32) : Option (BitVec 32) :=
  let n := y.toNat % 32
  match f6 with
  | 0x00 => some (x + y)
  | 0x01 => some (x - y)
  | 0x08 => some (x <<< n)
  | 0x09 => some (x >>> n)
  | 0x0A => some (x.sshiftRight n)
  | 0x0B => some (x.rotateLeft n)
  | 0x0C => some (x.rotateRight n)
  | 0x18 => some (x * y)
  | 0x20 => some (BitVec.ofNat 32 (clz x.toNat 32))
  | 0x21 => some (BitVec.ofNat 32 (ctz x.toNat 0 32))
  | 0x22 => some (BitVec.ofNat 32 (popc x.toNat 32))
  | _ => none

/-- Whether the operation is unary, so that its C field must be zero (R53). -/
def intUnary (f6 : Nat) : Bool := 0x20 ≤ f6 && f6 ≤ 0x23

/-- The result of an INT operation, `none` for an illegal encoding (R53). -/
def intOp (f3 f6 : Nat) (d : Reg5) (x y : Word) : Option Word :=
  if intUnary f6 && d ≠ 0 then none
  else if f3 = 0 then intOp64 f6 x y
  else if f3 = 1 then (intOp32 f6 (x.truncate 32) (y.truncate 32)).map (·.signExtend 64)
  else none

/-- Quotient (`rem` false) or remainder of a division by a divisor that is not zero (R54). -/
def divide {n : Nat} (signed rem : Bool) (x y : BitVec n) : BitVec n :=
  if signed then (if rem then BitVec.ofInt n (x.toInt.tmod y.toInt) else BitVec.ofInt n (x.toInt.tdiv y.toInt))
  else if rem then x.umod y else x.udiv y

/-- A result written to a general register, and on to the next instruction. -/
def wrG (s : State) (c len : Nat) (a : Reg5) (v : Word) : Res Word := .ok (s.nextPc c len) (s.setG c a v)

/-- DIVIDE_BY_ZERO (R54). -/
def divZero (s : State) (c : Nat) : Res Word := .ev (faultEv s c 0x0005) s

/-! ### INT group -/

/-- INT group but divide and CRC (R53). -/
def execIntOp (c : Nat) (f3 : BitVec 3) (f6 : BitVec 6) (a b d : Reg5) (s : State) :
    Host.Outcome State Fault Refusal :=
  .next (s.instr c 4 (fun s =>
    match intOp f3.toNat f6.toNat d (s.g c b) (s.g c d) with
    | some v => wrG s c 4 a v
    | none => illegal s c))

/-- DIV, DIVU, REM, REMU and their word forms (R54). -/
def execDiv (c : Nat) (f3 : BitVec 3) (f6 : BitVec 6) (a b d : Reg5) (s : State) :
    Host.Outcome State Fault Refusal :=
  .next (s.instr c 4 (fun s =>
    let x := s.g c b
    let y := s.g c d
    let o := f6.toNat
    if o < 0x1C || 0x1F < o || 1 < f3.toNat then illegal s c
    else
      let signed := o = 0x1C || o = 0x1E
      let rem := 0x1E ≤ o
      if f3 = 0 then
        if y = 0 then divZero s c else wrG s c 4 a (divide signed rem x y)
      else if y.truncate 32 = 0 then divZero s c
      else wrG s c 4 a ((divide signed rem (x.truncate 32) (y.truncate 32)).signExtend 64)))

/-- CRC.B to CRC.D (R55). -/
def execCrc (c : Nat) (f3 : BitVec 3) (f6 : BitVec 6) (a b d : Reg5) (s : State) :
    Host.Outcome State Fault Refusal :=
  .next (s.instr c 4 (fun s =>
    let o := f6.toNat
    if o < 0x28 || 0x2B < o || f3 ≠ 0 then illegal s c
    else wrG s c 4 a (BitVec.ofNat 64 (crc32c ((s.g c b).toNat % 2 ^ 32) (s.g c d).toNat (2 ^ (o - 0x28))))))

/-! ### Immediates and fields -/

/-- ADDI, ANDI, ORI, XORI, SLTI, SLTIU, chosen by the low bits of OP (R56). -/
def execImmOp (c : Nat) (op : BitVec 3) (a b : Reg5) (imm : BitVec 14) (s : State) :
    Host.Outcome State Fault Refusal :=
  .next (s.instr c 4 (fun s =>
    let x := s.g c b
    let y := sx imm
    match op.toNat with
    | 1 => wrG s c 4 a (x + y)
    | 2 => wrG s c 4 a (x &&& y)
    | 3 => wrG s c 4 a (x ||| y)
    | 4 => wrG s c 4 a (x ^^^ y)
    | 5 => wrG s c 4 a (bit (x.slt y))
    | 6 => wrG s c 4 a (bit (x.ult y))
    | _ => illegal s c))

/-- SLLI, SRLI, SRAI, RORI and their word forms (R56). -/
def execShiftImm (c : Nat) (f3 : BitVec 3) (sub : BitVec 5) (a b : Reg5) (shamt : BitVec 6) (s : State) :
    Host.Outcome State Fault Refusal :=
  .next (s.instr c 4 (fun s =>
    let op := match sub.toNat with | 0 => 0x08 | 1 => 0x09 | 2 => 0x0A | 3 => 0x0C | _ => 0x3F
    if f3 = 1 && shamt.getLsbD 5 then illegal s c
    else
      match intOp f3.toNat op 0 (s.g c b) (zx shamt) with
      | some v => wrG s c 4 a v
      | none => illegal s c))

/-- ADDIW (R56). -/
def execAddiw (c : Nat) (a b : Reg5) (imm : BitVec 14) (s : State) : Host.Outcome State Fault Refusal :=
  .next (s.instr c 4 (fun s => wrG s c 4 a (sxw (s.g c b + sx imm))))

/-- The upper immediate: sext of the low word of imm19 shifted by 13 (R56). -/
def upper (imm : BitVec 19) : Word := sxw (zx imm <<< 13)

/-- LUI (R56). -/
def execLui (c : Nat) (a : Reg5) (imm : BitVec 19) (s : State) : Host.Outcome State Fault Refusal :=
  .next (s.instr c 4 (fun s => wrG s c 4 a (upper imm)))

/-- ADDPC (R56, R44). -/
def execAddpc (c : Nat) (a : Reg5) (imm : BitVec 19) (s : State) : Host.Outcome State Fault Refusal :=
  .next (s.instr c 4 (fun s => wrG s c 4 a (s.pc c + upper imm)))

/-- EXTU: a field zero-extended (R56). -/
def execExtu (c : Nat) (a b : Reg5) (pos lenM1 : BitVec 6) (s : State) : Host.Outcome State Fault Refusal :=
  .next (s.instr c 4 (fun s =>
    let len := lenM1.toNat + 1
    if 64 < pos.toNat + len then illegal s c
    else wrG s c 4 a (BitVec.ofNat 64 (natBits (s.g c b).toNat (pos.toNat + len - 1) pos.toNat))))

/-- EXTS: a field sign-extended (R56). -/
def execExts (c : Nat) (a b : Reg5) (pos lenM1 : BitVec 6) (s : State) : Host.Outcome State Fault Refusal :=
  .next (s.instr c 4 (fun s =>
    let len := lenM1.toNat + 1
    if 64 < pos.toNat + len then illegal s c
    else
      wrG s c 4 a ((BitVec.ofNat len (natBits (s.g c b).toNat (pos.toNat + len - 1) pos.toNat)).signExtend 64)))

/-- INS: low bits of gB into a field of gA (R56). -/
def execIns (c : Nat) (a b : Reg5) (pos lenM1 : BitVec 6) (s : State) : Host.Outcome State Fault Refusal :=
  .next (s.instr c 4 (fun s =>
    let len := lenM1.toNat + 1
    if 64 < pos.toNat + len then illegal s c
    else wrG s c 4 a (BitVec.ofNat 64 (natSetBits (s.g c a).toNat pos.toNat len (s.g c b).toNat))))

/-- SEL (R56). -/
def execSel (c : Nat) (f3 : BitVec 3) (f1 : BitVec 1) (a b d e : Reg5) (s : State) :
    Host.Outcome State Fault Refusal :=
  .next (s.instr c 4 (fun s =>
    if f3 ≠ 0 || f1 ≠ 0 then illegal s c
    else wrG s c 4 a (if s.g c e ≠ 0 then s.g c b else s.g c d)))

/-- LI (R57). -/
def execLi (c : Nat) (a : Reg5) (imm : BitVec 32) (s : State) : Host.Outcome State Fault Refusal :=
  .next (s.instr c 6 (fun s => wrG s c 6 a (sx imm)))

/-- LIU (R57). -/
def execLiu (c : Nat) (a : Reg5) (imm : BitVec 32) (s : State) : Host.Outcome State Fault Refusal :=
  .next (s.instr c 6 (fun s => wrG s c 6 a (zx imm)))

/-- LIH (R57). -/
def execLih (c : Nat) (a : Reg5) (imm : BitVec 32) (s : State) : Host.Outcome State Fault Refusal :=
  .next (s.instr c 6 (fun s => wrG s c 6 a ((zx imm <<< 32) ||| (s.g c a &&& 0xFFFFFFFF))))

/-- ADDI.L (R57). -/
def execAddiL (c : Nat) (a : Reg5) (imm : BitVec 32) (s : State) : Host.Outcome State Fault Refusal :=
  .next (s.instr c 6 (fun s => wrG s c 6 a (s.g c a + sx imm)))

/-- ADDPC.L (R57). -/
def execAddpcL (c : Nat) (a : Reg5) (imm : BitVec 32) (s : State) : Host.Outcome State Fault Refusal :=
  .next (s.instr c 6 (fun s => wrG s c 6 a (s.pc c + sx imm)))

/-! ### Decimal -/

/-- DMAX (R58). -/
def dmax : Int := 999999999999999999

/-- `n / d` rounded half away from zero (R59). -/
def dround (n d : Int) : Int :=
  let q := n.tdiv d
  let r := n - q * d
  if d.natAbs ≤ 2 * r.natAbs then q + n.sign * d.sign else q

/-- A decimal result limited and written, with decimal overflow signalled (R58, R59). -/
def decOut (s : State) (c : Nat) (a : Reg5) (x : Int) (srcs : List Word) : Res Word :=
  let ovf := decide (dmax < x.natAbs)
  let bad := ovf || srcs.any (fun w => decide (dmax < w.toInt.natAbs))
  let v := if ovf then x.sign * dmax else x
  let s' := if bad then s.raiseFlags c fDOF else s
  wrG s' c 4 a (BitVec.ofInt 64 v)

/-- DADD (R58). -/
def execDadd (c : Nat) (f6 : BitVec 6) (a b d : Reg5) (s : State) : Host.Outcome State Fault Refusal :=
  .next (s.instr c 4 (fun s =>
    let x := s.g c b
    let y := s.g c d
    if f6 ≠ 0 then illegal s c else decOut s c a (x.toInt + y.toInt) [x, y]))

/-- DSUB (R58). -/
def execDsub (c : Nat) (f6 : BitVec 6) (a b d : Reg5) (s : State) : Host.Outcome State Fault Refusal :=
  .next (s.instr c 4 (fun s =>
    let x := s.g c b
    let y := s.g c d
    if f6 ≠ 0 then illegal s c else decOut s c a (x.toInt - y.toInt) [x, y]))

/-- DMUL (R58). -/
def execDmul (c : Nat) (sc : BitVec 6) (a b d : Reg5) (s : State) : Host.Outcome State Fault Refusal :=
  .next (s.instr c 4 (fun s =>
    let x := s.g c b
    let y := s.g c d
    if 18 < sc.toNat then illegal s c else decOut s c a (dround (x.toInt * y.toInt) (10 ^ sc.toNat)) [x, y]))

/-- DDIV (R58, R59). -/
def execDdiv (c : Nat) (sc : BitVec 6) (a b d : Reg5) (s : State) : Host.Outcome State Fault Refusal :=
  .next (s.instr c 4 (fun s =>
    let x := s.g c b
    let y := s.g c d
    if 18 < sc.toNat then illegal s c
    else if y = 0 then divZero s c
    else decOut s c a (dround (x.toInt * 10 ^ sc.toNat) y.toInt) [x, y]))

/-- DRESC (R58). -/
def execDresc (c : Nat) (k : BitVec 6) (a b : Reg5) (s : State) : Host.Outcome State Fault Refusal :=
  .next (s.instr c 4 (fun s =>
    let x := s.g c b
    let n := k.toInt
    if n < -18 || 18 < n then illegal s c
    else if 0 ≤ n then decOut s c a (x.toInt * 10 ^ n.toNat) [x]
    else decOut s c a (dround x.toInt (10 ^ (-n).toNat)) [x]))

/-! ### 16-bit forms (Table ISA-4) -/

/-- C.MOV (R52). -/
def execCMov (c : Nat) (a b : Reg5) (s : State) : Host.Outcome State Fault Refusal :=
  .next (s.instr c 2 (fun s => if a = 0 || b = 0 then illegal s c else wrG s c 2 a (s.g c b)))

/-- C.ADD. -/
def execCAdd (c : Nat) (a b : Reg5) (s : State) : Host.Outcome State Fault Refusal :=
  .next (s.instr c 2 (fun s => wrG s c 2 a (s.g c a + s.g c b)))

/-- C.SUB. -/
def execCSub (c : Nat) (a b : Reg5) (s : State) : Host.Outcome State Fault Refusal :=
  .next (s.instr c 2 (fun s => wrG s c 2 a (s.g c a - s.g c b)))

/-- C.AND. -/
def execCAnd (c : Nat) (a b : Reg5) (s : State) : Host.Outcome State Fault Refusal :=
  .next (s.instr c 2 (fun s => wrG s c 2 a (s.g c a &&& s.g c b)))

/-- C.OR. -/
def execCOr (c : Nat) (a b : Reg5) (s : State) : Host.Outcome State Fault Refusal :=
  .next (s.instr c 2 (fun s => wrG s c 2 a (s.g c a ||| s.g c b)))

/-- C.XOR. -/
def execCXor (c : Nat) (a b : Reg5) (s : State) : Host.Outcome State Fault Refusal :=
  .next (s.instr c 2 (fun s => wrG s c 2 a (s.g c a ^^^ s.g c b)))

/-- C.ADDI. -/
def execCAddi (c : Nat) (a : Reg5) (imm : BitVec 5) (s : State) : Host.Outcome State Fault Refusal :=
  .next (s.instr c 2 (fun s => wrG s c 2 a (s.g c a + sx imm)))

/-- C.LI. -/
def execCLi (c : Nat) (a : Reg5) (imm : BitVec 5) (s : State) : Host.Outcome State Fault Refusal :=
  .next (s.instr c 2 (fun s => wrG s c 2 a (sx imm)))

/-- C.SLLI. -/
def execCSlli (c : Nat) (a : Reg5) (imm : BitVec 5) (s : State) : Host.Outcome State Fault Refusal :=
  .next (s.instr c 2 (fun s => wrG s c 2 a (s.g c a <<< imm.toNat)))

/-- C.SRLI. -/
def execCSrli (c : Nat) (a : Reg5) (imm : BitVec 5) (s : State) : Host.Outcome State Fault Refusal :=
  .next (s.instr c 2 (fun s => wrG s c 2 a (s.g c a >>> imm.toNat)))

/-- C.SRAI. -/
def execCSrai (c : Nat) (a : Reg5) (imm : BitVec 5) (s : State) : Host.Outcome State Fault Refusal :=
  .next (s.instr c 2 (fun s => wrG s c 2 a ((s.g c a).sshiftRight imm.toNat)))

end Sys2Proof.Machine
end

