-- ==== Sys2Proof/Machine/LoadStore.lean ====
section
/-!
DEFINITION. Machine/LoadStore.lean: scalar loads, stores and prefetches (R60-R63).
-/
namespace Sys2Proof.Machine

/-! ### Shared operations -/

/-- The device a load's data comes back from: four times its socket, plus the root complex (R490). -/
def State.devOf (s : State) (c : Nat) (ps : List Span) : Option (Nat × Nat) :=
  match ps with
  | [p] =>
    match s.target (coreSock c) p.pa with
    | .dev h n => some (h * 4 + n, p.pa)
    | .ctl h off => match ctlCfg (s.part h) off with
      | some f => if s.cfgRefused c h f then none else some (h * 4 + f.1, p.pa)
      | none => none
    | _ => none
  | _ => none

/-- A scalar load into a general register; a load from a device window leaves the core waiting for its completion, the stores that
precede it in the queue's order performed first (R274, R490, R495). -/
def State.loadReg (s : State) (c len : Nat) (a : Reg5) (va : Word) (size : Nat) (signed : Bool) : Res Word :=
  ((s.access c Acc.load va size).bind (fun ps s =>
    match s.ensureHeld c with
    | none => .stall
    | some s =>
      match s.devOf c ps with
      | some (n, pa) =>
        let r := s.devReq c n pa
        .park (r.1.updCore c (fun k =>
          { k with devWait := some { dest := a, size := size, signed := signed, prc := n, port := r.2, next := s.nextPc c len } }))
      | none => (s.readSpans c Acc.load va ps).bind (fun b s => .ok (s.nextPc c len) (s.setG c a (extend b signed))))).crossing c va size

/-- A scalar store of a general register. -/
def State.storeReg (s : State) (c len : Nat) (a : Reg5) (va : Word) (size : Nat) (rel : Bool) : Res Word :=
  (s.store c Acc.store va (leBytes size (s.g c a).toNat) false rel).bind (fun _ s => .ok (s.nextPc c len) s)

/-- MISALIGNED for an access of an instruction (R61). -/
def misaligned {α : Type} (s : State) (c : Nat) (acc : Acc) (va : Word) : Res α :=
  .ev (faultEv s c 0x0101 va (infoOf acc 0 0 0 false 0)) s

/-- Whether an address is naturally aligned. -/
def aligned (va : Word) (size : Nat) : Bool := va.toNat % size = 0

/-! ### Instructions -/

/-- The array error `err` that a load of `len` bytes meets (R194, R197): 1 a parity error of the L1I at its own fetch, 7 with two bad bits
behind it in the L2; where its line lies in the core's L2, 3 one bad bit and 4 two; where it lies in the L1D too, 2 a parity error, 5
with one bad bit behind it and 6 with two.  The line is refetched, and what it is then decides. -/
def State.loadErr (s : State) (c len err : Nat) (va : Word) (size : Nat) : Res Unit :=
  let l1 := err = 2 || err = 5 || err = 6
  let l2 (s : State) (pa : Nat) : State :=
    if err = 3 || err = 5 then s.l2Err c pa false else if err = 4 || err = 6 || err = 7 then s.l2Err c pa true else s
  if err = 0 || 7 < err then .ok () s
  else if err = 1 || err = 7 then
    match s.spans c Acc.fetch (s.pc c) len with
    | .ok (p :: _, _) s' => (l2 (s'.l1Err c true p.pa) p.pa).fetch c len
    | _ => .ok () s
  else
    match s.spans c Acc.load va size with
    | .ok (p :: _, _) s' =>
      if p.dev || ((s'.core c).l2st (lineOf p.pa)).isNone || (l1 && !(s'.core c).l1d.contains (lineOf p.pa)) then .ok () s
      else .ok () (l2 (if l1 then s'.l1Err c false p.pa else s') p.pa)
    | _ => .ok () s

/-- A scalar load that meets an array error. -/
def State.loadMet (s : State) (c len err : Nat) (a : Reg5) (va : Word) (size : Nat) (signed : Bool) : Res Word :=
  (s.loadErr c len err va size).bind (fun _ s => s.loadReg c len a va size signed)

/-- LD (R60), with the array error it meets (`State.loadErr`; 0 none). -/
def execLd (c : Nat) (f3 : BitVec 3) (a b : Reg5) (imm : BitVec 11) (err : Nat) (s : State) : Host.Outcome State Fault Refusal :=
  .next (s.instr c 4 (fun s =>
    match loadWidth f3 with
    | none => illegal s c
    | some (n, sg) => s.loadMet c 4 err a (s.g c b + sx imm) n sg))

/-- ST (R60). -/
def execSt (c : Nat) (f3 : BitVec 3) (a b : Reg5) (imm : BitVec 11) (s : State) : Host.Outcome State Fault Refusal :=
  .next (s.instr c 4 (fun s =>
    match storeWidth f3 with
    | none => illegal s c
    | some n => s.storeReg c 4 a (s.g c b + sx imm) n false))

/-- LDA: acquire order; an earlier release store of the core is performed first (R266, R271). -/
def execLda (l : LdCore) (f3 : BitVec 3) (a b : Reg5) (imm : BitVec 11) (s : State) : Host.Outcome State Fault Refusal :=
  .next (s.instr l.c 4 (fun s =>
    match loadWidth f3 with
    | none => illegal s l.c
    | some (n, sg) =>
      let va := s.g l.c b + sx imm
      if !aligned va n then misaligned s l.c Acc.load va
      else
        match (if (s.core l.c).storeQ.any (·.rel) then s.drain l.c else some s) with
        | none => .stall
        | some s => (s.loadMet l.c 4 l.err a va n sg).counted l.c 152 1))

/-- STL: release order; the queue performs its stores in program order, so every earlier access is performed before it
(R196, R266, R271). -/
def execStl (c : Nat) (f3 : BitVec 3) (a b : Reg5) (imm : BitVec 11) (s : State) : Host.Outcome State Fault Refusal :=
  .next (s.instr c 4 (fun s =>
    match storeWidth f3 with
    | none => illegal s c
    | some n =>
      let va := s.g c b + sx imm
      if !aligned va n then misaligned s c Acc.store va
      else (s.storeReg c 4 a va n true).counted c 153 1))

/-- LDX (R60). -/
def execLdx (l : LdCore) (f3 : BitVec 3) (f6 : BitVec 6) (a b d : Reg5) (s : State) : Host.Outcome State Fault Refusal :=
  .next (s.instr l.c 4 (fun s =>
    match loadWidth f3 with
    | none => illegal s l.c
    | some (n, sg) =>
      if 4 ≤ f6.toNat then illegal s l.c else s.loadMet l.c 4 l.err a (s.g l.c b + (s.g l.c d <<< f6.toNat)) n sg))

/-- STX (R60). -/
def execStx (c : Nat) (f3 : BitVec 3) (f6 : BitVec 6) (a b d : Reg5) (s : State) : Host.Outcome State Fault Refusal :=
  .next (s.instr c 4 (fun s =>
    match storeWidth f3 with
    | none => illegal s c
    | some n =>
      if 4 ≤ f6.toNat then illegal s c else s.storeReg c 4 a (s.g c b + (s.g c d <<< f6.toNat)) n false))

/-- LD.L (R60). -/
def execLdL (l : LdCore) (f3 : BitVec 3) (a b : Reg5) (imm : BitVec 27) (s : State) : Host.Outcome State Fault Refusal :=
  .next (s.instr l.c 6 (fun s =>
    match loadWidth f3 with
    | none => illegal s l.c
    | some (n, sg) => s.loadMet l.c 6 l.err a (s.g l.c b + sx imm) n sg))

/-- ST.L (R60). -/
def execStL (c : Nat) (f3 : BitVec 3) (a b : Reg5) (imm : BitVec 27) (s : State) : Host.Outcome State Fault Refusal :=
  .next (s.instr c 6 (fun s =>
    match storeWidth f3 with
    | none => illegal s c
    | some n => s.storeReg c 6 a (s.g c b + sx imm) n false))

/-- C.LDK: LD.D from the stack register (R52). -/
def execCLdk (l : LdCore) (a : Reg5) (imm : BitVec 5) (s : State) : Host.Outcome State Fault Refusal :=
  .next (s.instr l.c 2 (fun s => s.loadMet l.c 2 l.err a (s.g l.c 25 + zx imm * 8) 8 true))

/-- C.STK: ST.D to the stack register (R52). -/
def execCStk (c : Nat) (a : Reg5) (imm : BitVec 5) (s : State) : Host.Outcome State Fault Refusal :=
  .next (s.instr c 2 (fun s => s.storeReg c 2 a (s.g c 25 + zx imm * 8) 8 false))

/-- A prefetch's fill by its hint: the L1D and L2, the L2, the local Hearth slice, the L2 with ownership, or nothing that stays (R63).  A
failed translation, a refusal of any kind, an A or D bit still to be set, a bad line, a target that is not memory and a line that would
have to wait drop it, and its walk changes nothing but the translation caches (R206, R260). -/
def State.prefetchTry (s : State) (c : Nat) (hint : Nat) (va : Word) : Option State :=
  let acc : Acc := { need := .load, kind := 1, wr := hint = 3 }
  let x := { s.xctx c with quiet := true }
  match translate x ((s.core c).tlbs acc) (s.core c).wc acc va s with
  | .wait => none
  | .bad _ _ => none
  | .ok t _ =>
    let ln := lineOf t.pa
    match s.target (coreSock c) t.pa with
    | .dram h _ | .cxl h _ =>
      let s' := s.touch (coreSock c) ln
      let waits := if hint = 3 then s'.lineWaits c ln else s'.readWaits c ln
      if (checkAcc x acc va t s').isSome || !t.owed.isEmpty || t.dev || s'.badFor c t.pa || waits then none
      else
        let s := s'.install c acc t
        match hint with
        | 1 => some (s.acqShared c ln h true)
        | 2 => some (if ((s.core c).l2st ln).isSome then s.slicePut (coreSock c) ln else (s.acqShared c ln h false).evict c ln)
        | 3 => some (s.acqOwn c ln h)
        | 4 => some s
        | _ => some ((s.acqShared c ln h true).updCore c (fun k => k.fillL1d ln))
    | _ => none

/-- A prefetch by PREF; one dropped is counted. -/
def State.prefetch (s : State) (c : Nat) (hint : Nat) (va : Word) : State :=
  (s.prefetchTry c hint va).getD (s.updCore c (fun k => k.count 187 1))

/-- PREF (R63). -/
def execPref (c : Nat) (f3 : BitVec 3) (hint b : Reg5) (imm : BitVec 11) (s : State) :
    Host.Outcome State Fault Refusal :=
  .next (s.instr c 4 (fun s =>
    if f3 ≠ 0 then illegal s c
    else .ok (s.nextPc c 4) (s.prefetch c hint.toNat (s.g c b + sx imm))))

end Sys2Proof.Machine
end

