-- ==== Sys2Proof/Machine/Branch.lean ====
section
/-!
DEFINITION. Machine/Branch.lean: control transfer (R64-R67) with the shadow stack, and what a retired transfer leaves in the
predictor (R211-R220) and the trace (R595).
-/
namespace Sys2Proof.Machine

/-! ### Predictor -/

/-- How core `c` looks its predictor up: a hardened core by the number of its context, which a context still being swept lacks (R221,
R222). -/
def State.pview (s : State) (c : Nat) : PView :=
  if s.hardened c then
    match (s.core c).pred.contexts.find? (ctxIs (s.ctxKey c)) with
    | some e => { hard := true, ctx := e.2.2.2.2, blind := false }
    | none => { hard := true, ctx := 0, blind := true }
  else { hard := false, ctx := 0, blind := false }

/-- SR.CORECTL.NOPRED: prediction structures are neither read nor written, and the histories stand still (R225, log entry 24). -/
def State.nopred (s : State) (c : Nat) : Bool := (s.sr c SR.CORECTL).getLsbD 1

/-- What a retired transfer adds to the counters: its kind, whether it was mispredicted or corrected at D2, a pop from an empty return
stack, and the fetch bubble of a direct branch predicted taken without a BTB entry (R200, Table PERF-1). -/
def Core.countTransfer (k : Core) (kind : Nat) (taken : Bool) (target : Nat) (g : Guess) (empty : Bool) : Core :=
  let wrong := g.wrong kind taken target
  let stale := g.stale kind target
  let n (b : Bool) : Nat := if b then 1 else 0
  ((((k.count (142 + kind) (n wrong)).count 148 (n stale)).count 149 (n empty)).count 44 (n (wrong || stale))).count 45
    (n (decide (kind < 3) && g.taken && g.hit.isNone))

/-- The predictor of core `c` through a transfer from prediction to retirement, with its counts (R211-R220); untouched under NOPRED. -/
def State.predict (s : State) (c kind len : Nat) (taken : Bool) (target ret : Word) : State :=
  if s.nopred c then s
  else
    let s := if s.hardened c && (s.pview c).blind then s.ctxEval c else s
    let v := s.pview c
    let pc := (s.pc c).toNat % 2 ^ 57
    let t := target.toNat % 2 ^ 57
    let empty := kind = 5 && (s.core c).pred.rasTop.isNone
    s.updCore c (fun k =>
      let r := k.pred.transfer v kind len taken pc t (ret.toNat % 2 ^ 57)
      { k with pred := r.2, pmu := (k.countTransfer kind taken t r.1 empty).pmu })

/-- A retired control transfer of `kind` (0 conditional, 1 direct jump, 2 direct call, 3 indirect jump, 4 indirect call, 5 return) of `len`
bytes, predicted, counted, traced when taken, and learnt; then on to its target.  One that finds no free checkpoint waits for one
(R215). -/
def State.transfer (s : State) (c kind len : Nat) (taken : Bool) (target ret : Word) : Res Word :=
  let next := if taken then target else ret
  if !s.nopred c && (s.core c).pred.full kind then .stall
  else
    let frm := s.pc c
    let s := (s.predict c kind len taken target ret).updCore c (fun k => k.count (136 + kind) 1)
    let tk := match kind with | 0 => 0 | 1 => 1 | 2 => 1 | 3 => 2 | 4 => 2 | _ => 3
    .ok next (if taken then s.trRec c tk frm target else s)

/-- MISALIGNED at a branch whose target has bit 0 set (R46). -/
def badTarget {α : Type} (s : State) (c : Nat) (t : Word) : Res α := .ev (faultEv s c 0x0101 t 0) s

/-- A transfer of an instruction of `len` bytes whose target is checked if it is taken (R46). -/
def State.goto (s : State) (c kind len : Nat) (taken : Bool) (t : Word) : Res Word :=
  if taken && t.getLsbD 0 then badTarget s c t else s.transfer c kind len taken t (s.nextPc c len)

/-! ### Shadow stack (R66) -/

/-- A doubleword pushed: SR.SSP lowered by 8 and the word stored through a shadow-stack access. -/
def State.push (s : State) (c : Nat) (x : Word) : Res Unit :=
  let p := s.sr c SR.SSP - 8
  (s.store c Acc.push p (leBytes 8 x.toNat) false false).bind (fun _ s => .ok () (s.setSr c SR.SSP p))

/-- The conditions of BCC (R65). -/
def cond (f3 : BitVec 3) (x y : Word) : Bool :=
  match f3.toNat with
  | 0 => x = y | 1 => decide (x ≠ y) | 2 => x.slt y | 3 => !x.slt y | 4 => x.ult y | 5 => !x.ult y
  | 6 => decide (x &&& y ≠ 0) | _ => decide (x &&& y = 0)

/-- CALL and CALLR: the return address pushed and written to g26; two micro-ops (R46, R64, R66, R188). -/
def State.call (s : State) (c kind : Nat) (target : Word) : Res Word :=
  let ret := s.nextPc c 4
  if target.getLsbD 0 then badTarget s c target
  else ((s.push c ret).bind (fun _ s => (s.setG c 26 ret).transfer c kind 4 true target ret)).counted c 4 1

/-- RET gB: two micro-ops (R46, R66, R188). -/
def State.ret (s : State) (c len : Nat) (b : Reg5) : Res Word :=
  let t := s.g c b
  let p := s.sr c SR.SSP
  (((s.loadRaw c Acc.pop p 8).bind (fun e s =>
    if BitVec.ofNat 64 (leNat e) ≠ t then .ev (faultEv s c 0x0201) s
    else if t.getLsbD 0 then badTarget s c t
    else (s.setSr c SR.SSP (p + 8)).transfer c 5 len true t (s.nextPc c len))).crossing c p 8).counted c 4 1

/-! ### Instructions -/

/-- BCC (R64, R65). -/
def execBcc (c : Nat) (f3 : BitVec 3) (b d : Reg5) (imm : BitVec 11) (s : State) : Host.Outcome State Fault Refusal :=
  .next (s.instr c 4 (fun s => s.goto c 0 4 (cond f3 (s.g c b) (s.g c d)) (s.target2 c imm)))

/-- BCC.L (R64, R65). -/
def execBccL (c : Nat) (f3 : BitVec 3) (a b : Reg5) (imm : BitVec 27) (s : State) : Host.Outcome State Fault Refusal :=
  .next (s.instr c 6 (fun s => s.goto c 0 6 (cond f3 (s.g c a) (s.g c b)) (s.target2 c imm)))

/-- JMP (R64). -/
def execJmp (c : Nat) (imm : BitVec 24) (s : State) : Host.Outcome State Fault Refusal :=
  .next (s.instr c 4 (fun s => s.goto c 1 4 true (s.target2 c imm)))

/-- CALL (R64). -/
def execCall (c : Nat) (imm : BitVec 24) (s : State) : Host.Outcome State Fault Refusal :=
  .next (s.instr c 4 (fun s => s.call c 2 (s.target2 c imm)))

/-- JMPR (R64). -/
def execJmpr (c : Nat) (b : Reg5) (s : State) : Host.Outcome State Fault Refusal :=
  .next (s.instr c 4 (fun s => s.goto c 3 4 true (s.g c b)))

/-- CALLR (R64). -/
def execCallr (c : Nat) (b : Reg5) (s : State) : Host.Outcome State Fault Refusal :=
  .next (s.instr c 4 (fun s => s.call c 4 (s.g c b)))

/-- RET (R66). -/
def execRet (c : Nat) (b : Reg5) (s : State) : Host.Outcome State Fault Refusal :=
  .next (s.instr c 4 (fun s => s.ret c 4 b))

/-- TRAP: a barrier, then the TRAP event (R67, R86). -/
def execTrap (c : Nat) (imm : BitVec 19) (s : State) : Host.Outcome State Fault Refusal :=
  .next (s.instr c 4 (fun s =>
    if 2 ^ 16 ≤ imm.toNat then illegal s c
    else barrier s c (fun s => .ev { trapEv s c 0x0004 (s.nextPc c 4) with code := imm.toNat } s)))

/-- BRK: a barrier, then the BREAKPOINT event (R67, R86). -/
def execBrk (c : Nat) (imm : BitVec 19) (s : State) : Host.Outcome State Fault Refusal :=
  .next (s.instr c 4 (fun s =>
    if imm ≠ 0 then illegal s c else barrier s c (fun s => .ev (trapEv s c 0x0003 (s.nextPc c 4)) s)))

/-- C.BEQZ (R52). -/
def execCBeqz (c : Nat) (a : Reg5) (imm : BitVec 5) (s : State) : Host.Outcome State Fault Refusal :=
  .next (s.instr c 2 (fun s => s.goto c 0 2 (s.g c a = 0) (s.target2 c imm)))

/-- C.BNEZ (R52). -/
def execCBnez (c : Nat) (a : Reg5) (imm : BitVec 5) (s : State) : Host.Outcome State Fault Refusal :=
  .next (s.instr c 2 (fun s => s.goto c 0 2 (decide (s.g c a ≠ 0)) (s.target2 c imm)))

/-- C.J (R52). -/
def execCJ (c : Nat) (imm : BitVec 10) (s : State) : Host.Outcome State Fault Refusal :=
  .next (s.instr c 2 (fun s => s.goto c 1 2 true (s.target2 c imm)))

/-- C.RET: RET g26 (R52). -/
def execCRet (c : Nat) (s : State) : Host.Outcome State Fault Refusal :=
  .next (s.instr c 2 (fun s => s.ret c 2 26))

/-- C.BRK: BRK (R52). -/
def execCBrk (c : Nat) (s : State) : Host.Outcome State Fault Refusal :=
  .next (s.instr c 2 (fun s => barrier s c (fun s => .ev (trapEv s c 0x0003 (s.nextPc c 2)) s)))

end Sys2Proof.Machine
end

