-- ==== Sys2Proof/Machine/Fp.lean ====
section
/-!
DEFINITION. Machine/Fp.lean: the scalar floating-point instructions (R68-R72).
-/
namespace Sys2Proof.Machine

/-! ### Shared operations -/

/-- The rounding mode of a rounding field: a static mode, or SR.FPCTL.RM; 0b101 and 0b110 are illegal (R70). -/
def State.rmode (s : State) (c : Nat) (rm : BitVec 3) : Option Nat :=
  if rm = 5 || rm = 6 then none else if rm = 7 then some (natBits (s.sr c SR.FPCTL).toNat 2 0) else some rm.toNat

/-- Flags an arithmetic result carries, the case IEEE 754 leaves open settled by a free value (log entry 1). -/
def State.settleFlags (s : State) (c fl : Nat) : State :=
  if fl.testBit 6 then (s.useFree).raiseFlags c (fl % 64 ||| s.freeNat 1) else s.raiseFlags c fl

/-- A scalar operand: the low bits of a vector register (R68). -/
def State.fsrc (s : State) (c : Nat) (f : Fmt) (r : Reg5) : Nat := (s.v c r).toNat % 2 ^ f.w

/-- A scalar result: its low bits, every other bit zero (R42, R68), with its flags. -/
def fpOut (s : State) (c : Nat) (a : Reg5) (r : Nat × Nat) : Res Word :=
  .ok (s.nextPc c 4) ((s.settleFlags c r.2).setV c a (BitVec.ofNat 512 r.1))

/-- A comparison's result in a general register, with its flags. -/
def cmpOut (s : State) (c : Nat) (a : Reg5) (b : Bool) (fl : Nat) : Res Word :=
  .ok (s.nextPc c 4) ((s.raiseFlags c fl).setG c a (bit b))

/-- A binary operation of the FARITH group. -/
def farith (op : Fmt → Nat → Nat → Nat → Nat × Nat) (c : Nat) (rm prec : BitVec 3) (a b d : Reg5) (s : State) : State :=
  s.instr c 4 (fun s =>
    match fmtOf prec.toNat, s.rmode c rm with
    | some f, some m => fpOut s c a (op f m (s.fsrc c f b) (s.fsrc c f d))
    | _, _ => illegal s c)

/-- A comparison of the FCMP group. -/
def fcmp (test : Rel → Bool) (signalling : Bool) (c : Nat) (prec : BitVec 3) (a b d : Reg5) (s : State) : State :=
  s.instr c 4 (fun s =>
    match fmtOf prec.toNat with
    | none => illegal s c
    | some f =>
      let x := s.fsrc c f b
      let y := s.fsrc c f d
      cmpOut s c a (test (f.rel x y)) (f.cmpFlags signalling x y))

/-- A sign operation: bit `w - 1` of the operand set to `sg` of the signs, every other bit of vB kept (Table ISA-14). -/
def fsign (sg : Bool → Bool) (c : Nat) (prec : BitVec 3) (a b : Reg5) (s : State) : State :=
  s.instr c 4 (fun s =>
    match fmtOf prec.toNat with
    | none => illegal s c
    | some f =>
      let x := (s.v c b).toNat
      let y := natSetBits x (f.w - 1) 1 (if sg (x.testBit (f.w - 1)) then 1 else 0)
      .ok (s.nextPc c 4) (s.setV c a (BitVec.ofNat 512 (y % 2 ^ f.w))))

/-! ### Instructions -/

/-- FADD (R71). -/
def execFadd (c : Nat) (rm prec : BitVec 3) (a b d : Reg5) (s : State) : Host.Outcome State Fault Refusal :=
  .next (farith Fmt.add c rm prec a b d s)

/-- FSUB (R71). -/
def execFsub (c : Nat) (rm prec : BitVec 3) (a b d : Reg5) (s : State) : Host.Outcome State Fault Refusal :=
  .next (farith Fmt.sub c rm prec a b d s)

/-- FMUL (R71). -/
def execFmul (c : Nat) (rm prec : BitVec 3) (a b d : Reg5) (s : State) : Host.Outcome State Fault Refusal :=
  .next (farith Fmt.mul c rm prec a b d s)

/-- FDIV (R71). -/
def execFdiv (c : Nat) (rm prec : BitVec 3) (a b d : Reg5) (s : State) : Host.Outcome State Fault Refusal :=
  .next (farith Fmt.div c rm prec a b d s)

/-- FMIN (R71). -/
def execFmin (c : Nat) (rm prec : BitVec 3) (a b d : Reg5) (s : State) : Host.Outcome State Fault Refusal :=
  .next (farith (fun f _ => f.minmax false) c rm prec a b d s)

/-- FMAX (R71). -/
def execFmax (c : Nat) (rm prec : BitVec 3) (a b d : Reg5) (s : State) : Host.Outcome State Fault Refusal :=
  .next (farith (fun f _ => f.minmax true) c rm prec a b d s)

/-- FSQRT (R71). -/
def execFsqrt (c : Nat) (rm prec : BitVec 3) (a b : Reg5) (s : State) : Host.Outcome State Fault Refusal :=
  .next (farith (fun f m x _ => f.sqrt m x) c rm prec a b 0 s)

/-- The FMADD family, always in the dynamic rounding mode (R70, R71). -/
def execFmadd (c : Nat) (f3 : BitVec 3) (f1 : BitVec 1) (a b d e : Reg5) (s : State) :
    Host.Outcome State Fault Refusal :=
  .next (s.instr c 4 (fun s =>
    match fmtOf (f3.toNat % 4), s.rmode c 7 with
    | some f, some m =>
      fpOut s c a (f.fma m (f3.getLsbD 2) (f1.getLsbD 0) (s.fsrc c f b) (s.fsrc c f d) (s.fsrc c f e))
    | _, _ => illegal s c))

/-- FEQ (R71). -/
def execFeq (c : Nat) (prec : BitVec 3) (a b d : Reg5) (s : State) : Host.Outcome State Fault Refusal :=
  .next (fcmp (fun r => r = .eq) false c prec a b d s)

/-- FUN (R71). -/
def execFun (c : Nat) (prec : BitVec 3) (a b d : Reg5) (s : State) : Host.Outcome State Fault Refusal :=
  .next (fcmp (fun r => r = .un) false c prec a b d s)

/-- FLT (R71). -/
def execFlt (c : Nat) (prec : BitVec 3) (a b d : Reg5) (s : State) : Host.Outcome State Fault Refusal :=
  .next (fcmp (fun r => r = .lt) true c prec a b d s)

/-- FLE (R71). -/
def execFle (c : Nat) (prec : BitVec 3) (a b d : Reg5) (s : State) : Host.Outcome State Fault Refusal :=
  .next (fcmp (fun r => r = .lt || r = .eq) true c prec a b d s)

/-- FLTQ (R71). -/
def execFltq (c : Nat) (prec : BitVec 3) (a b d : Reg5) (s : State) : Host.Outcome State Fault Refusal :=
  .next (fcmp (fun r => r = .lt) false c prec a b d s)

/-- FLEQ (R71). -/
def execFleq (c : Nat) (prec : BitVec 3) (a b d : Reg5) (s : State) : Host.Outcome State Fault Refusal :=
  .next (fcmp (fun r => r = .lt || r = .eq) false c prec a b d s)

/-- An integer source of FCVT by its type code. -/
def cvtIntSrc (code : Nat) (x : Word) : Int :=
  match code with
  | 4 => x.toInt | 5 => x.toNat | 6 => (x.truncate 32).toInt | _ => (x.truncate 32).toNat

/-- FCVT (R72). -/
def execFcvt (c : Nat) (rm dst src : BitVec 3) (a b : Reg5) (s : State) : Host.Outcome State Fault Refusal :=
  .next (s.instr c 4 (fun s =>
    match s.rmode c rm with
    | none => illegal s c
    | some m =>
      match fmtOf dst.toNat, fmtOf src.toNat with
      | some g, some f => if dst = src then illegal s c else fpOut s c a (f.toFmt g m (s.fsrc c f b))
      | some g, none =>
        if src = 3 then illegal s c else fpOut s c a (g.ofInt m (cvtIntSrc src.toNat (s.g c b)))
      | none, some f =>
        if dst = 3 then illegal s c
        else
          let w := if dst = 4 || dst = 5 then 64 else 32
          let signed := dst = 4 || dst = 6
          let r := f.toInt m w signed (s.fsrc c f b)
          .ok (s.nextPc c 4) ((s.raiseFlags c r.2).setG c a (BitVec.ofInt 64 r.1))
      | none, none => illegal s c))

/-- FMV.VG (R71). -/
def execFmvVg (c : Nat) (a b : Reg5) (s : State) : Host.Outcome State Fault Refusal :=
  .next (s.instr c 4 (fun s => wrG s c 4 a ((s.v c b).truncate 64)))

/-- FMV.GV (R71). -/
def execFmvGv (c : Nat) (a b : Reg5) (s : State) : Host.Outcome State Fault Refusal :=
  .next (s.instr c 4 (fun s => .ok (s.nextPc c 4) (s.setV c a ((s.g c b).zeroExtend 512))))

/-- FCLASS (R71). -/
def execFclass (c : Nat) (prec : BitVec 3) (a b : Reg5) (s : State) : Host.Outcome State Fault Refusal :=
  .next (s.instr c 4 (fun s =>
    match fmtOf prec.toNat with
    | none => illegal s c
    | some f => wrG s c 4 a (BitVec.ofNat 64 (f.fclass (s.fsrc c f b)))))

/-- FABS (R71). -/
def execFabs (c : Nat) (prec : BitVec 3) (a b : Reg5) (s : State) : Host.Outcome State Fault Refusal :=
  .next (fsign (fun _ => false) c prec a b s)

/-- FNEG (R71). -/
def execFneg (c : Nat) (prec : BitVec 3) (a b : Reg5) (s : State) : Host.Outcome State Fault Refusal :=
  .next (fsign (fun x => !x) c prec a b s)

/-- FNABS (R71). -/
def execFnabs (c : Nat) (prec : BitVec 3) (a b : Reg5) (s : State) : Host.Outcome State Fault Refusal :=
  .next (fsign (fun _ => true) c prec a b s)

/-- FCPYS (R71). -/
def execFcpys (c : Nat) (prec : BitVec 3) (a b d : Reg5) (s : State) : Host.Outcome State Fault Refusal :=
  .next (s.instr c 4 (fun s =>
    match fmtOf prec.toNat with
    | none => illegal s c
    | some f =>
      let y := natSetBits (s.fsrc c f b) (f.w - 1) 1 (if (s.v c d).toNat.testBit (f.w - 1) then 1 else 0)
      .ok (s.nextPc c 4) (s.setV c a (BitVec.ofNat 512 y))))

end Sys2Proof.Machine
end

