-- ==== Sys2Proof/Machine/Vector.lean ====
section
/-!
DEFINITION. Machine/Vector.lean: the column vector instructions (R74-R81).
-/
namespace Sys2Proof.Machine

/-! ### Lanes -/

/-- The lane width EW selects (R74). -/
def laneBits (ew : BitVec 2) : Nat := 8 * 2 ^ ew.toNat

/-- The number of lanes of a width. -/
def laneCount (w : Nat) : Nat := 512 / w

/-- Lane `i` of width `w` of a 512-bit value. -/
def lane (w : Nat) (x : Vec) (i : Nat) : Nat := x.toNat / 2 ^ (w * i) % 2 ^ w

/-- Lane values put together, lane 0 lowest. -/
def joinLanes (w : Nat) : List Nat → Nat
  | [] => 0
  | x :: t => x % 2 ^ w + 2 ^ w * joinLanes w t

/-- A lane read as a signed integer. -/
def slane (w x : Nat) : Int := if x.testBit (w - 1) then (x : Int) - 2 ^ w else x

/-- An integer cut to a lane. -/
def cutLane (w : Nat) (x : Int) : Nat := (x % 2 ^ w).toNat

/-- An execution mask: MSK and ZM of the instruction, the lane width, and the mask register's value (R75). -/
structure VMask where
  w : Nat
  all : Bool
  bits : Nat
  zero : Bool
deriving DecidableEq, Repr

/-- The execution mask of an instruction; MSK = 0 enables every lane (R48, R75). -/
def State.vmask (s : State) (c : Nat) (msk : BitVec 3) (ew : BitVec 2) (zm : BitVec 1) : VMask :=
  { w := laneBits ew, all := msk = 0, bits := ((s.core c).mr msk).toNat, zero := zm = 1 }

/-- Whether lane `i` is enabled. -/
def VMask.on (m : VMask) (i : Nat) : Bool := m.all || m.bits.testBit i

/-- The lanes of the width. -/
def VMask.lanes (m : VMask) : List Nat := List.range (laneCount m.w)

/-- The enabled lanes, ascending. -/
def VMask.onLanes (m : VMask) : List Nat := m.lanes.filter m.on

/-- A vector result: enabled lanes computed, the others by ZM (R75). -/
def VMask.merge (m : VMask) (old : Vec) (f : Nat → Nat) : Vec :=
  BitVec.ofNat 512 (joinLanes m.w (m.lanes.map (fun i => if m.on i then f i else if m.zero then 0 else lane m.w old i)))

/-- A mask result: enabled bits computed, the others by ZM, bits at or above the lane count zero (R74, R77). -/
def VMask.mergeMask (m : VMask) (old : Word) (f : Nat → Bool) : Word :=
  BitVec.ofNat 64 (joinLanes 1 (m.lanes.map (fun i =>
    if (if m.on i then f i else !m.zero && old.getLsbD i) then 1 else 0)))

/-- The second operand of VINT, VCMP and VFP, lane by lane; `none` for an illegal form (R76). -/
def State.second (s : State) (c w : Nat) (f3 : BitVec 3) (d e : Reg5) : Option (Nat → Nat) :=
  match f3.toNat with
  | 0 => if e = 0 then some (lane w (s.v c d)) else none
  | 1 => if e = 0 then some (fun _ => (s.g c d).toNat % 2 ^ w) else none
  | 2 => if d = 0 then some (fun _ => (sx e).toNat % 2 ^ w) else none
  | _ => none

/-- The format of a lane width (R77). -/
def laneFmt (ew : BitVec 2) : Option Fmt :=
  match ew.toNat with | 1 => some .b16 | 2 => some .b32 | 3 => some .b64 | _ => none

/-- A vector register written, the next instruction 6 bytes on. -/
def vOut (s : State) (c : Nat) (a : Reg5) (x : Vec) : Res Word := .ok (s.nextPc c 6) (s.setV c a x)

/-- Whether a register field names a mask register: bits [4:3] zero (R81). -/
def isMask (r : Reg5) : Bool := r.toNat < 8

/-- The mask register a field names. -/
def maskOf (r : Reg5) : BitVec 3 := r.truncate 3

/-- Mask register `r` read. -/
def State.m (s : State) (c : Nat) (r : Reg5) : Word := (s.core c).mr (maskOf r)

/-! ### Lane operations -/

/-- A saturating signed result. -/
def satS (w : Nat) (x : Int) : Nat :=
  cutLane w (if x < -(2 ^ (w - 1)) then -(2 ^ (w - 1)) else if 2 ^ (w - 1) - 1 < x then 2 ^ (w - 1) - 1 else x)

/-- A saturating unsigned result. -/
def satU (w : Nat) (x : Int) : Nat := if x < 0 then 0 else if 2 ^ w - 1 < x then 2 ^ w - 1 else x.toNat

/-- A lane of VINT (Table ISA-17). -/
def vintOp (f11 w x y : Nat) : Option Nat :=
  let sx := slane w x
  let sy := slane w y
  match f11 with
  | 0 => some (cutLane w (x + y))
  | 1 => some (cutLane w (x - y))
  | 2 => some (satS w (sx + sy))
  | 3 => some (satU w (x + y))
  | 4 => some (satS w (sx - sy))
  | 5 => some (satU w ((x : Int) - y))
  | 6 => some (x * y % 2 ^ w)
  | 7 => some (cutLane w (sx * sy / 2 ^ w))
  | 8 => some (x * y / 2 ^ w)
  | 9 => some (if sx < sy then x else y)
  | 10 => some (if sx < sy then y else x)
  | 11 => some (min x y)
  | 12 => some (max x y)
  | 13 => some (x &&& y)
  | 14 => some (x ||| y)
  | 15 => some (x ^^^ y)
  | 16 => some (x ^^^ (x &&& y))
  | 17 => some (x * 2 ^ (y % w) % 2 ^ w)
  | 18 => some (x / 2 ^ (y % w))
  | 19 => some (cutLane w (sx / 2 ^ (y % w)))
  | 20 => some (cutLane w (if sx < 0 then -sx else sx))
  | _ => none

/-- A lane of VCMP (Table ISA-17). -/
def vcmpOp (f11 w x y : Nat) : Option Bool :=
  let sx := slane w x
  let sy := slane w y
  match f11 with
  | 0 => some (x = y)
  | 1 => some (decide (x ≠ y))
  | 2 => some (decide (sx < sy))
  | 3 => some (decide (sx ≤ sy))
  | 4 => some (decide (sy < sx))
  | 5 => some (decide (sy ≤ sx))
  | 6 => some (decide (x < y))
  | 7 => some (decide (x ≤ y))
  | 8 => some (decide (y < x))
  | 9 => some (decide (y ≤ x))
  | _ => none

/-- A lane of VFP that gives a value, with its flags (Table ISA-17). -/
def vfpOp (f : Fmt) (rm f11 x y : Nat) : Option (Nat × Nat) :=
  match f11 with
  | 0 => some (f.add rm x y)
  | 1 => some (f.sub rm x y)
  | 2 => some (f.mul rm x y)
  | 3 => some (f.div rm x y)
  | 4 => some (f.minmax false x y)
  | 5 => some (f.minmax true x y)
  | 6 => some (f.sqrt rm x)
  | 8 => let r := f.toInt rm f.w true x
         some (cutLane f.w r.1, r.2)
  | 9 => some (f.ofInt rm (slane f.w x))
  | _ => none

/-- A lane of VFP that compares, with its flags (Table ISA-17). -/
def vfpCmp (f : Fmt) (f11 x y : Nat) : Option (Bool × Nat) :=
  let r := f.rel x y
  match f11 with
  | 16 => some (r = .eq, f.cmpFlags false x y)
  | 17 => some (r = .lt, f.cmpFlags true x y)
  | 18 => some (r = .lt || r = .eq, f.cmpFlags true x y)
  | 19 => some (r = .un, f.cmpFlags false x y)
  | _ => none

/-- The flags of all enabled lanes ORed (R77). -/
def VMask.flags (m : VMask) (f : Nat → Nat) : Nat := m.onLanes.foldl (fun x i => x ||| f i) 0

/-! ### Arithmetic groups -/

/-- VINT (R76, R77). -/
def execVint (c : Nat) (f3 : BitVec 3) (a b d e : Reg5) (msk : BitVec 3) (ew : BitVec 2) (zm : BitVec 1) (f11 : BitVec 11)
    (s : State) : Host.Outcome State Fault Refusal :=
  .next (s.instr c 6 (fun s =>
    let m := s.vmask c msk ew zm
    match s.second c m.w f3 d e, vintOp f11.toNat m.w 0 0 with
    | some y, some _ =>
      vOut s c a (m.merge (s.v c a) (fun i => (vintOp f11.toNat m.w (lane m.w (s.v c b) i) (y i)).getD 0))
    | _, _ => illegal s c))

/-- VCMP (R76, R77). -/
def execVcmp (c : Nat) (f3 : BitVec 3) (a b d e : Reg5) (msk : BitVec 3) (ew : BitVec 2) (zm : BitVec 1) (f11 : BitVec 11)
    (s : State) : Host.Outcome State Fault Refusal :=
  .next (s.instr c 6 (fun s =>
    let m := s.vmask c msk ew zm
    match s.second c m.w f3 d e, vcmpOp f11.toNat m.w 0 0, isMask a with
    | some y, some _, true =>
      .ok (s.nextPc c 6) (s.setM c (maskOf a) (m.mergeMask (s.m c a)
        (fun i => (vcmpOp f11.toNat m.w (lane m.w (s.v c b) i) (y i)).getD false)))
    | _, _, _ => illegal s c))

/-- VFP (R76, R77). -/
def execVfp (c : Nat) (f3 : BitVec 3) (a b d e : Reg5) (msk : BitVec 3) (ew : BitVec 2) (zm : BitVec 1) (f11 : BitVec 11)
    (s : State) : Host.Outcome State Fault Refusal :=
  .next (s.instr c 6 (fun s =>
    let m := s.vmask c msk ew zm
    match s.second c m.w f3 d e, laneFmt ew, s.rmode c 7 with
    | some y, some f, some rm =>
      let x := lane m.w (s.v c b)
      if (vfpOp f rm f11.toNat 0 0).isSome then
        let r (i : Nat) : Nat × Nat := (vfpOp f rm f11.toNat (x i) (y i)).getD (0, 0)
        vOut (s.settleFlags c (m.flags (fun i => (r i).2))) c a (m.merge (s.v c a) (fun i => (r i).1))
      else if (vfpCmp f f11.toNat 0 0).isSome && isMask a then
        let r (i : Nat) : Bool × Nat := (vfpCmp f f11.toNat (x i) (y i)).getD (false, 0)
        let s' := s.settleFlags c (m.flags (fun i => (r i).2))
        .ok (s.nextPc c 6) (s'.setM c (maskOf a) (m.mergeMask (s.m c a) (fun i => (r i).1)))
      else illegal s c
    | _, _, _ => illegal s c))

/-- The VFMADD family (R77). -/
def execVfmadd (c : Nat) (a b d e : Reg5) (msk : BitVec 3) (ew : BitVec 2) (zm : BitVec 1) (f11 : BitVec 11) (s : State) :
    Host.Outcome State Fault Refusal :=
  .next (s.instr c 6 (fun s =>
    let m := s.vmask c msk ew zm
    match laneFmt ew, s.rmode c 7 with
    | some f, some rm =>
      if 4 ≤ f11.toNat then illegal s c
      else
        let r (i : Nat) : Nat × Nat :=
          f.fma rm (f11.getLsbD 1) (f11.getLsbD 0) (lane m.w (s.v c b) i) (lane m.w (s.v c d) i) (lane m.w (s.v c e) i)
        vOut (s.settleFlags c (m.flags (fun i => (r i).2))) c a (m.merge (s.v c a) (fun i => (r i).1))
    | _, _ => illegal s c))

/-! ### Memory -/

/-- The address of lane `i` of VLD and VST; `none` for an illegal F3 (R78). -/
def State.laneAddr (s : State) (c w : Nat) (f3 : BitVec 3) (b d : Reg5) (imm : BitVec 16) : Option (Nat → Word) :=
  let base := s.g c b + sx imm
  match f3.toNat with
  | 0 => some (fun i => base + BitVec.ofNat 64 (i * (w / 8)))
  | 1 => some (fun _ => base)
  | 2 => some (fun i => base + BitVec.ofInt 64 (slane w (lane w (s.v c d) i)) * BitVec.ofNat 64 (w / 8))
  | 3 => some (fun i => base + BitVec.ofNat 64 i * s.g c d)
  | _ => none

/-- Lanes loaded in order: the lane and its value (R79). -/
def State.loadLanes (s : State) (c n : Nat) (addr : Nat → Word) : List Nat → Res (List (Nat × Nat))
  | [] => .ok [] s
  | i :: t =>
    (s.loadRaw c Acc.load (addr i) n).bind (fun b s =>
      (State.loadLanes s c n addr t).bind (fun l s => .ok ((i, leNat b) :: l) s))

/-- What a vector access of lanes `l`, each of `n` bytes, counts when it retires: the lanes of a gather, scatter or strided form and one
micro-op for four of them, or the second micro-op of a contiguous form that crosses a line; and the accesses that cross one (R188, Table
PERF-1). -/
def Res.lanes {α : Type} (r : Res α) (c n : Nat) (f3 : BitVec 3) (addr : Nat → Word) (l : List Nat) : Res α :=
  let wide (i : Nat) : Bool := decide (64 < (addr i).toNat % 64 + n)
  if f3 = 0 then
    let lo := (l.map (fun i => (addr i).toNat / 64)).eraseDups
    if l.any wide || decide (1 < lo.length) then (r.counted c 181 1).counted c 4 1 else r
  else if f3 = 1 then (if l.any wide then (r.counted c 181 1).counted c 4 1 else r)
  else ((r.counted c 182 l.length).counted c 181 (l.filter wide).length).counted c 4 ((l.length + 3) / 4 - 1)

/-- VLD (R78, R79), with the array error its first lane meets (`State.loadErr`). -/
def execVld (x : LdCore) (f3 : BitVec 3) (a b d : Reg5) (msk : BitVec 3) (ew : BitVec 2) (zm : BitVec 1) (imm : BitVec 16)
    (s : State) : Host.Outcome State Fault Refusal :=
  .next (s.instr x.c 6 (fun s =>
    let m := s.vmask x.c msk ew zm
    match s.laneAddr x.c m.w f3 b d imm with
    | none => illegal s x.c
    | some addr =>
      let n := m.w / 8
      ((s.loadErr x.c 6 x.err (addr (m.onLanes.headD 0)) n).bind (fun _ s =>
        (s.loadLanes x.c n addr m.onLanes).bind (fun l s =>
          vOut s x.c a (m.merge (s.v x.c a) (fun i => (cellFind l i).getD 0))))).lanes x.c n f3 addr m.onLanes))

/-- An event at lane `k` of a vector store: the lanes below it are performed, SR.VLANE holds `k` (R79).  With an
arithmetic exception pending the instruction has not executed (R87). -/
def State.laneFault (s0 s : State) (c k : Nat) (e : Ev) : Res Word :=
  if (s0.sr c SR.FPSTAT).getLsbD 8 then .ev e s0
  else
    match s.drain c with
    | none => .stall
    | some s => .ev e (s.setSr c SR.VLANE (BitVec.ofNat 64 k))

/-- Lanes stored in ascending order (R79). -/
def State.storeLanes (s0 s : State) (c n : Nat) (addr : Nat → Word) (x : Nat → Nat) : List Nat → Res Word
  | [] => .ok (s0.nextPc c 6) s
  | i :: t =>
    match s.storeRaw c Acc.store (addr i) (leBytes n (x i)) false false with
    | .ok _ s' => State.storeLanes s0 s' c n addr x t
    | .ev e s' => State.laneFault s0 s' c i e
    | .stall => .stall
    | .park s' => .park s'

/-- Whether a contiguous store of all lanes covers one line of memory whole (R504). -/
def State.wholeLine (s : State) (c : Nat) (va : Word) : Bool :=
  va.toNat % 64 = 0 &&
    (match s.spans c Acc.store va 64 with
     | .ok ([p], _) _ => (s.target (coreSock c) p.pa).isMem && !p.dev
     | _ => false)

/-- VST (R78, R79). -/
def execVst (c : Nat) (f3 : BitVec 3) (a b d : Reg5) (msk : BitVec 3) (ew : BitVec 2) (zm : BitVec 1) (imm : BitVec 16)
    (s : State) : Host.Outcome State Fault Refusal :=
  .next (s.instr c 6 (fun s =>
    let m := s.vmask c msk ew zm
    match s.laneAddr c m.w f3 b d imm with
    | none => illegal s c
    | some addr =>
      if f3 = 1 then illegal s c
      else if f3 = 0 && m.onLanes.length = laneCount m.w && s.wholeLine c (addr 0) then
        match s.storeRaw c Acc.store (addr 0) (leBytes 64 (s.v c a).toNat) true false with
        | .ok _ s' => .ok (s.nextPc c 6) s'
        | .ev e s' => s.laneFault s' c 0 e
        | .stall => .stall
        | .park s' => .park s'
      else (s.storeLanes s c (m.w / 8) addr (lane m.w (s.v c a)) m.onLanes).lanes c (m.w / 8) f3 addr m.onLanes))

/-! ### Permutes and columns -/

/-- A permute: lane `i` computed from the state, under the mask (R80). -/
def vperm (c : Nat) (a : Reg5) (msk : BitVec 3) (ew : BitVec 2) (zm : BitVec 1) (f : State → VMask → Nat → Nat)
    (s : State) : State :=
  s.instr c 6 (fun s =>
    let m := s.vmask c msk ew zm
    vOut s c a (m.merge (s.v c a) (f s m)))

/-- VPERM (R80). -/
def execVperm (c : Nat) (a b d _e : Reg5) (msk : BitVec 3) (ew : BitVec 2) (zm : BitVec 1) (s : State) :
    Host.Outcome State Fault Refusal :=
  .next (vperm c a msk ew zm (fun s m i => lane m.w (s.v c b) (lane m.w (s.v c d) i % laneCount m.w)) s)

/-- VPERM2 (R80). -/
def execVperm2 (c : Nat) (a b d e : Reg5) (msk : BitVec 3) (ew : BitVec 2) (zm : BitVec 1) (s : State) :
    Host.Outcome State Fault Refusal :=
  .next (vperm c a msk ew zm (fun s m i =>
    let n := laneCount m.w
    let j := lane m.w (s.v c d) i % (2 * n)
    if j < n then lane m.w (s.v c b) j else lane m.w (s.v c e) (j - n)) s)

/-- VCOMPRESS (R80). -/
def execVcompress (c : Nat) (a b _d _e : Reg5) (msk : BitVec 3) (ew : BitVec 2) (zm : BitVec 1) (s : State) :
    Host.Outcome State Fault Refusal :=
  .next (s.instr c 6 (fun s =>
    let m := s.vmask c msk ew zm
    vOut s c a (BitVec.ofNat 512 (joinLanes m.w (m.onLanes.map (lane m.w (s.v c b)))))))

/-- VEXPAND (R80). -/
def execVexpand (c : Nat) (a b _d _e : Reg5) (msk : BitVec 3) (ew : BitVec 2) (zm : BitVec 1) (s : State) :
    Host.Outcome State Fault Refusal :=
  .next (vperm c a msk ew zm (fun s m i => lane m.w (s.v c b) ((List.range i).filter m.on).length) s)

/-- VSLIDEUP (R80). -/
def execVslideup (c : Nat) (a b _d e : Reg5) (msk : BitVec 3) (ew : BitVec 2) (zm : BitVec 1) (s : State) :
    Host.Outcome State Fault Refusal :=
  .next (vperm c a msk ew zm (fun s m i => if i < e.toNat then 0 else lane m.w (s.v c b) (i - e.toNat)) s)

/-- VSLIDEDN (R80). -/
def execVslidedn (c : Nat) (a b _d e : Reg5) (msk : BitVec 3) (ew : BitVec 2) (zm : BitVec 1) (s : State) :
    Host.Outcome State Fault Refusal :=
  .next (vperm c a msk ew zm (fun s m i => lane m.w (s.v c b) (i + e.toNat)) s)

/-- VREV (R80); its C and D fields are ignored (log entry 43). -/
def execVrev (c : Nat) (a b _d _e : Reg5) (msk : BitVec 3) (ew : BitVec 2) (zm : BitVec 1) (s : State) :
    Host.Outcome State Fault Refusal :=
  .next (vperm c a msk ew zm (fun s m i => lane m.w (s.v c b) (laneCount m.w - 1 - i)) s)

/-- VUNPK (R80). -/
def execVunpk (c : Nat) (a b d e : Reg5) (msk : BitVec 3) (ew : BitVec 2) (zm : BitVec 1) (s : State) :
    Host.Outcome State Fault Refusal :=
  .next (s.instr c 6 (fun s =>
    let m := s.vmask c msk ew zm
    let k := e.toNat + 1
    let off := (s.g c d).toNat % 512
    if m.w < k then illegal s c
    else vOut s c a (m.merge (s.v c a) (fun i => (s.v c b).toNat / 2 ^ (off + i * k) % 2 ^ k))))

/-- VPACK; a field wider than the lane is not stated, so the whole result is then a free value (R80, log entry 1). -/
def execVpack (c : Nat) (a b _d e : Reg5) (msk : BitVec 3) (ew : BitVec 2) (zm : BitVec 1) (s : State) :
    Host.Outcome State Fault Refusal :=
  .next (s.instr c 6 (fun s =>
    let m := s.vmask c msk ew zm
    let k := e.toNat + 1
    if msk ≠ 0 then illegal s c
    else if m.w < k then vOut s.useFree c a (freeBits 512 s.free)
    else vOut s c a (BitVec.ofNat 512 (joinLanes k (m.lanes.map (lane m.w (s.v c b)))))))

/-- VCRC (R55, R80). -/
def execVcrc (c : Nat) (a b d _e : Reg5) (msk : BitVec 3) (ew : BitVec 2) (zm : BitVec 1) (s : State) :
    Host.Outcome State Fault Refusal :=
  .next (s.instr c 6 (fun s =>
    let m := s.vmask c msk ew zm
    if ew ≠ 2 then illegal s c
    else vOut s c a (m.merge (s.v c a) (fun i => crc32c (lane 32 (s.v c b) i) (lane 32 (s.v c d) i) 4))))

/-! ### Reductions -/

/-- The smallest or largest of a list by an order, `d` when it is empty. -/
def pick (lt : Int → Int → Bool) (d : Int) : List Int → Int
  | [] => d
  | x :: t => t.foldl (fun a y => if lt y a then y else a) x

/-- VRADD, VRMIN, VRMAX, VRMINU and VRMAXU over the enabled lanes (R80, R81).  VRADD sign-extends its lanes: it has no
unsigned form beside it (log entry 10). -/
def vredInt (f11 w : Nat) (l : List Nat) : Option Int :=
  let sl := l.map (slane w)
  let ul : List Int := l.map Int.ofNat
  match f11 with
  | 0 => some (sl.foldl (· + ·) 0)
  | 1 => some (pick (fun a b => decide (a < b)) (2 ^ (w - 1) - 1) sl)
  | 2 => some (pick (fun a b => decide (b < a)) (-(2 ^ (w - 1))) sl)
  | 3 => some (pick (fun a b => decide (a < b)) (2 ^ w - 1) ul)
  | 4 => some (pick (fun a b => decide (b < a)) 0 ul)
  | _ => none

/-- VRED on integers (R80, R81). -/
def execVredInt (c : Nat) (f11 : BitVec 11) (a b : Reg5) (msk : BitVec 3) (ew : BitVec 2) (zm : BitVec 1) (s : State) :
    Host.Outcome State Fault Refusal :=
  .next (s.instr c 6 (fun s =>
    let m := s.vmask c msk ew zm
    match vredInt f11.toNat m.w (m.onLanes.map (lane m.w (s.v c b))) with
    | none => illegal s c
    | some x => wrG s c 6 a (BitVec.ofInt 64 x)))

/-- A floating-point reduction with its flags: no lanes give the value of R81, one lane itself (a NaN made canonical), and
more are combined in ascending order from the first (R80, R81, log entry 10). -/
def vredFp (f : Fmt) (op : Nat → Nat → Nat × Nat) (empty : Nat) : List Nat → Nat × Nat
  | [] => (empty, 0)
  | [x] => if (f.unpack x).isNan then nanOut f [f.unpack x] else (x, 0)
  | x :: t => t.foldl (fun (r : Nat × Nat) y => let q := op r.1 y
                                                (q.1, r.2 ||| q.2)) (x, 0)

/-- VRED on floating-point lanes (R80, R81). -/
def execVredFp (c : Nat) (f11 : BitVec 11) (a b : Reg5) (msk : BitVec 3) (ew : BitVec 2) (zm : BitVec 1) (s : State) :
    Host.Outcome State Fault Refusal :=
  .next (s.instr c 6 (fun s =>
    let m := s.vmask c msk ew zm
    match laneFmt ew, s.rmode c 7 with
    | some f, some rm =>
      let l := m.onLanes.map (lane m.w (s.v c b))
      let r : Option (Nat × Nat) := match f11.toNat with
        | 8 => some (vredFp f (f.add rm) (f.zero false) l)
        | 9 => some (vredFp f (f.minmax false) (f.inf false) l)
        | 10 => some (vredFp f (f.minmax true) (f.inf true) l)
        | _ => none
      match r with
      | none => illegal s c
      | some r => vOut (s.settleFlags c r.2) c a (BitVec.ofNat 512 r.1)
    | _, _ => illegal s c))

/-! ### Masks and moves -/

/-- MAND, MOR, MXOR, MANDN and MNOT on all 64 bits (R80). -/
def maskOp (f11 : Nat) (x y : Word) : Option Word :=
  match f11 with
  | 0 => some (x &&& y)
  | 1 => some (x ||| y)
  | 2 => some (x ^^^ y)
  | 3 => some (x &&& ~~~y)
  | 4 => some (~~~x)
  | _ => none

/-- The VMASK operations that write a mask register from masks (R80, R81). -/
def execMaskLogic (c : Nat) (f11 : BitVec 11) (a b d : Reg5) (msk : BitVec 3) (s : State) :
    Host.Outcome State Fault Refusal :=
  .next (s.instr c 6 (fun s =>
    match maskOp f11.toNat (s.m c b) (s.m c d) with
    | some x =>
      if msk = 0 && isMask a && isMask b && isMask d then .ok (s.nextPc c 6) (s.setM c (maskOf a) x) else illegal s c
    | none => illegal s c))

/-- A VMASK operation from a mask register to a general register (R80, R81). -/
def maskToG (f : Word → Word) (c : Nat) (a b : Reg5) (msk : BitVec 3) (s : State) : State :=
  s.instr c 6 (fun s => if msk = 0 && isMask b then wrG s c 6 a (f (s.m c b)) else illegal s c)

/-- MTOG (R80). -/
def execMtog (c : Nat) (a b : Reg5) (msk : BitVec 3) (s : State) : Host.Outcome State Fault Refusal :=
  .next (maskToG (fun x => x) c a b msk s)

/-- GTOM (R80). -/
def execGtom (c : Nat) (a b : Reg5) (msk : BitVec 3) (s : State) : Host.Outcome State Fault Refusal :=
  .next (s.instr c 6 (fun s =>
    if msk = 0 && isMask a then .ok (s.nextPc c 6) (s.setM c (maskOf a) (s.g c b)) else illegal s c))

/-- MPOPC (R80). -/
def execMpopc (c : Nat) (a b : Reg5) (msk : BitVec 3) (s : State) : Host.Outcome State Fault Refusal :=
  .next (maskToG (fun x => BitVec.ofNat 64 (popc x.toNat 64)) c a b msk s)

/-- MFIRST (R80). -/
def execMfirst (c : Nat) (a b : Reg5) (msk : BitVec 3) (s : State) : Host.Outcome State Fault Refusal :=
  .next (maskToG (fun x => BitVec.ofNat 64 (ctz x.toNat 0 64)) c a b msk s)

/-- VBCAST.G (R80). -/
def execVbcastG (c : Nat) (a b : Reg5) (msk : BitVec 3) (ew : BitVec 2) (zm : BitVec 1) (s : State) :
    Host.Outcome State Fault Refusal :=
  .next (s.instr c 6 (fun s =>
    let m := s.vmask c msk ew zm
    if msk ≠ 0 then illegal s c else vOut s c a (m.merge (s.v c a) (fun _ => (s.g c b).toNat % 2 ^ m.w))))

/-- VINS (R80). -/
def execVins (c : Nat) (a b : Reg5) (ln : BitVec 6) (msk : BitVec 3) (ew : BitVec 2) (zm : BitVec 1) (s : State) :
    Host.Outcome State Fault Refusal :=
  .next (s.instr c 6 (fun s =>
    let m := s.vmask c msk ew zm
    if msk ≠ 0 || laneCount m.w ≤ ln.toNat then illegal s c
    else vOut s c a (m.merge (s.v c a) (fun i => if i = ln.toNat then (s.g c b).toNat % 2 ^ m.w else lane m.w (s.v c a) i))))

/-- VEXT (R80). -/
def execVext (c : Nat) (a b : Reg5) (ln : BitVec 6) (msk : BitVec 3) (ew : BitVec 2) (zm : BitVec 1) (s : State) :
    Host.Outcome State Fault Refusal :=
  .next (s.instr c 6 (fun s =>
    let m := s.vmask c msk ew zm
    if msk ≠ 0 || laneCount m.w ≤ ln.toNat then illegal s c
    else wrG s c 6 a (BitVec.ofNat 64 (lane m.w (s.v c b) ln.toNat))))

/-- VMOV (R80). -/
def execVmov (c : Nat) (a b : Reg5) (msk : BitVec 3) (ew : BitVec 2) (zm : BitVec 1) (s : State) :
    Host.Outcome State Fault Refusal :=
  .next (vperm c a msk ew zm (fun s m i => lane m.w (s.v c b) i) s)

/-- VZERO (R80). -/
def execVzero (c : Nat) (a : Reg5) (msk : BitVec 3) (ew : BitVec 2) (zm : BitVec 1) (s : State) :
    Host.Outcome State Fault Refusal :=
  .next (vperm c a msk ew zm (fun _ _ _ => 0) s)

end Sys2Proof.Machine
end

