-- ==== Sys2Proof/Machine/Atomic.lean ====
section
/-!
DEFINITION. Machine/Atomic.lean: Hearth atomics (R82, R83, R121, R122), multi-line regions (R114-R120), fences (R89, R94,
R283-R285), cache maintenance (R96-R99) and TLB invalidation with its completion (R100, R254-R258).
-/
namespace Sys2Proof.Machine

/-! ### Shared operations -/

/-- An instruction of the CACHE, TLBI, SREG, KEY, GATE, WAIT, HATOM or HCAS group: inside a region it aborts it with cause
SYSTEM (R116). -/
def noRegion (s : State) (c : Nat) (k : State → Res Word) : Res Word :=
  if (s.core c).region.isSome then .park (s.abortRegion c 5 0) else k s

/-- A step that needs an authority bit (R91). -/
def withAuth (s : State) (c bit : Nat) (k : State → Res Word) : Res Word :=
  if s.auth c bit then k s else noAuth s c

/-- The next instruction, four bytes on. -/
def done4 (s : State) (c : Nat) : Res Word := .ok (s.nextPc c 4) s

/-! ### Hearth atomics -/

/-- A Hearth atomic of core `c` on `n` bytes at `va`: the core's queued stores to the line are performed, then the home does the operation
`f` on the old value, which answers what is written, if anything; the old value is the result (R121, R122, R272).  A posted one is
counted apart. -/
def State.hatom (s : State) (c : Nat) (a : Reg5) (va : Word) (n : Nat) (f : Nat → Option Nat) : Res Word :=
  if !aligned va n then misaligned s c Acc.atomic va
  else
    ((s.accessMem c Acc.atomic va n false).bind (fun ps s =>
      match ps with
      | [p] =>
        let k := coreSock c
        let posted := a = 0
        let ok (s : State) (v : Nat) : Res Word := .ok (s.nextPc c 4) (s.setG c a (BitVec.ofNat 64 v))
        let perr (s : State) : Res Word :=
          let e := s.poisonErr k p.pa va.toNat (infoOf Acc.atomic 0 0 0 false 0)
          .ev (faultEv e.2 c e.1.cause (BitVec.ofNat 64 e.1.addr) e.1.info) e.2
        match s.drainLine c (lineOf p.pa) with
        | none => .stall
        | some s =>
          match s.target k p.pa with
          | .hole h => if posted then ok (s.abandon c p.pa 0x10 (s.sliceFor h p.pa) 0x07 3) 0 else perr s
          | .refused => if posted then ok (s.abandon c p.pa 0x30 0 0x07 3) 0 else perr s
          | .dram h _ | .cxl h _ =>
            let ln := lineOf p.pa
            if s.heldByOther c ln || !s.gateOpen c || s.homeWaits k h ln then .stall
            else
              let s := s.gatePass c h
              if s.badLine p.pa then
                if posted then
                  let s := if cellGet false s.macBad ln then (s.poisonErr k p.pa va.toNat 0).2 else s
                  let idx := s.ashNext h
                  let s := s.ash h { cls := 3, src := 0x10, inst := s.sliceFor h p.pa, code := 0x07, addr := ln * 64,
                                     core := coreLog c, domain := ((s.core c).srOwn SR.DOMAIN).toNat % 2 ^ 16,
                                     part := s.partition h }
                  ok { s with pafs := s.pafs ++ [(c, ln * 64, 3 + 2 ^ 15 + idx * 2 ^ 16)] } 0
                else perr s
              else
                let old := memNat s.mem p.pa n
                match f old with
                | some v => ok (s.hatApply h ln p.pa (leBytes n v)) old
                | none => ok (s.hatApply h ln p.pa (leBytes n old)) old
          | _ => if posted then ok (s.abandon c p.pa 0x30 0 0x09 3) 0 else perr s
      | _ => misaligned s c Acc.atomic va)).counted c (if a = 0 then 164 else 163) 1

/-- HATOM (R82, R121, R122). -/
def execHatom (c : Nat) (f3 : BitVec 3) (f6 : BitVec 6) (a b d : Reg5) (s : State) : Host.Outcome State Fault Refusal :=
  .next (s.instr c 4 (fun s =>
    let op := natBits f6.toNat 4 1
    let n := if f6.getLsbD 5 then 8 else 4
    if f3 ≠ 0 || f6.getLsbD 0 || 8 < op then illegal s c
    else noRegion s c (fun s =>
      s.hatom c a (s.g c b) n (fun old => some (hatOp op n old ((s.g c d).toNat % 2 ^ (8 * n)))))))

/-- HCAS (R83, R121, R122). -/
def execHcas (c : Nat) (f3 : BitVec 3) (f1 : BitVec 1) (a b d e : Reg5) (s : State) : Host.Outcome State Fault Refusal :=
  .next (s.instr c 4 (fun s =>
    let n := if f1 = 1 then 8 else 4
    if f3 ≠ 0 then illegal s c
    else noRegion s c (fun s =>
      s.hatom c a (s.g c b) n (fun old =>
        if old = (s.g c e).toNat % 2 ^ (8 * n) then some ((s.g c d).toNat % 2 ^ (8 * n)) else none))))

/-- POSTED_ATOMIC_FAILED: the notice of a posted atomic that found poison reaches the core and is pending (R122, R172). -/
def execPostedAtomicFailed (c : Nat) (s : State) : Host.Outcome State Fault Refusal :=
  .next (match s.pafs.find? (fun e => e.1 = c) with
    | none => s
    | some e =>
      let s : State := { s with pafs := s.pafs.erase e }
      s.updCore c (fun k =>
        { k with mchk := k.mchk ++ [{ cause := 0x0302, addr := e.2.1, info := e.2.2 }] }))

/-! ### Multi-line regions -/

/-- Everything a region's checkpoint keeps, for a new region (R114, R119). -/
def Core.openRegion (k : Core) (a : Reg5) (next : Word) : Core :=
  let ordered := decide (3 ≤ k.aborts)
  let r : Region :=
    { ordered := ordered, lines := [], held := [], stores := [], accessed := false, retired := 0, dest := a, next := next,
      ckG := k.g, ckV := k.v, ckM := k.m, ckFpstat := k.srOwn SR.FPSTAT, ckXpc := k.srOwn SR.XPC }
  let k : Core := { k with region := some r }
  (if ordered then k.count 166 1 else k).setG a 0

/-- ATOM.BEGIN; the region's own count of instructions starts after it (R114, R116, R118, R119, R273). -/
def execAtomBegin (c : Nat) (a : Reg5) (s : State) : Host.Outcome State Fault Refusal :=
  .next (s.instr c 4 (fun s =>
    if (s.core c).region.isSome then .park (s.abortRegion c 9 0)
    else
      match s.drain c with
      | none => .stall
      | some s => done4 (s.updCore c (fun k => k.openRegion a (s.nextPc c 4))) c))

/-- A line recorded in the open region's set. -/
def Core.addLine (k : Core) (ln : Nat) : Core :=
  let ins (l : List Nat) : List Nat := (l.filter (· < ln)) ++ ln :: l.filter (ln < ·)
  { k with region := k.region.map (fun (r : Region) => { r with lines := ins r.lines }) }

/-- ATOM.ADD (R115, R118, R119, R294, R625); of a line whose home is unreachable it aborts with RECOVERY, the cause that R118 has for such a
line (log entry 44). -/
def execAtomAdd (c : Nat) (b : Reg5) (s : State) : Host.Outcome State Fault Refusal :=
  .next (s.instr c 4 (fun s =>
    match (s.core c).region with
    | none => done4 s c
    | some r =>
      if r.accessed then .park (s.abortRegion c 3 0)
      else
        (s.access c Acc.atomAdd (s.g c b) 1).bind (fun ps s =>
          match ps with
          | [p] =>
            let ln := lineOf p.pa
            let t := s.target (coreSock c) p.pa
            if t = .gone t.home then .park (s.abortRegion c 10 0)
            else if p.dev || !t.isMem then .park (s.abortRegion c 5 0)
            else if r.lines.contains ln then done4 s c
            else if 8 ≤ r.lines.length then .park (s.abortRegion c 2 0)
            else if r.ordered then done4 (s.updCore c (fun k => k.addLine ln)) c
            else if s.lineWaits c ln then .stall
            else done4 ((s.acqOwn c ln t.home).updCore c (fun k => k.addLine ln)) c
          | _ => .park (s.abortRegion c 5 0))))

/-- The region's held stores performed at one instant: each line of the set is owned, so none has to wait (R120, R314). -/
def State.commitStores (s : State) (c : Nat) (r : Region) : Option State :=
  (s.updCore c (fun k => { k with region := none, storeQ := r.stores })).drain c

/-- ATOM.COMMIT (R119, R120, R273, R316); with no region open it writes gA := 0. -/
def execAtomCommit (c : Nat) (a : Reg5) (s : State) : Host.Outcome State Fault Refusal :=
  .next (s.instr c 4 (fun s =>
    match (s.core c).region with
    | none => done4 (s.setG c a 0) c
    | some _ =>
      match s.drain c with
      | none => .stall
      | some s =>
        match s.ensureHeld c with
        | none => .stall
        | some s =>
          match (s.core c).region with
          | none => .stall
          | some r =>
            match s.commitStores c r with
            | none => .stall
            | some s =>
              let st := (if r.ordered then 2 ^ 8 else 0) + (s.core c).aborts * 2 ^ 12
              let s := (s.release c).updCore c (fun k =>
                (({ k with aborts := 0 }.setG a (BitVec.ofNat 64 st)).count 165 1).count 4 (microOps 4).toNat)
              done4 (s.reharden c) c))

/-- ATOM.ABORT (R116). -/
def execAtomAbort (c : Nat) (b : Reg5) (s : State) : Host.Outcome State Fault Refusal :=
  .next (s.instr c 4 (fun s =>
    if (s.core c).region.isSome then .park (s.abortRegion c 11 ((s.g c b).toNat % 2 ^ 16)) else done4 s c))

/-- A region past its 1,024th instruction aborts with cause LONG (R116). -/
def execRegionLong (c : Nat) (s : State) : Host.Outcome State Fault Refusal :=
  .next (match (s.core c).region with
    | some r => if 1025 < r.retired then (s.abortRegion c 6 0).stepDone c else s
    | none => s)

/-! ### Fences -/

/-- A fence whose condition `p` decides: done, or waiting (R94, R283); a machine check its stores raised is taken at its
boundary first (R285). -/
def State.fence (s : State) (c kind : Nat) (ok : State → Bool) : Res Word :=
  let wait : Res Word := .park (s.updCore c (fun k => { k with fence := some kind }))
  match s.drain c with
  | none => wait
  | some s' =>
    if !ok s' then wait
    else if !(s'.core c).mchk.isEmpty then .park s'
    else done4 ((s'.updCore c (fun k => { k with fence := none })).countC c (154 + kind)) c

/-- A fence that only orders earlier loads, or stores that the queue performs in program order anyway. -/
def fenceFree (c kind : Nat) (s : State) : State := s.instr c 4 (fun s => done4 (s.countC c (154 + kind)) c)

/-- FENCE.LL: every load is performed when it executes (R94). -/
def execFenceLl (c : Nat) (s : State) : Host.Outcome State Fault Refusal := .next (fenceFree c 0 s)

/-- FENCE.LS (R94). -/
def execFenceLs (c : Nat) (s : State) : Host.Outcome State Fault Refusal := .next (fenceFree c 1 s)

/-- FENCE.SL: earlier stores are performed (R94). -/
def execFenceSl (c : Nat) (s : State) : Host.Outcome State Fault Refusal :=
  .next (s.instr c 4 (fun s => s.fence c 2 (fun _ => true)))

/-- The last queued store of a core marked: a later store that leaves the queue's order waits for it (R94, R271). -/
def Core.fenceStores (k : Core) : Core :=
  match k.storeQ.reverse with
  | [] => k
  | e :: t => { k with storeQ := (({ e with fence := true } : StoreEnt) :: t).reverse }

/-- FENCE.SS: the queue performs stores in program order; a later store that does not enter it waits for those before (R94, R196, R271). -/
def execFenceSs (c : Nat) (s : State) : Host.Outcome State Fault Refusal :=
  .next (s.instr c 4 (fun s => done4 ((s.updCore c (fun k => k.fenceStores)).countC c 157) c))

/-- FENCE.FULL (R94). -/
def execFenceFull (c : Nat) (s : State) : Host.Outcome State Fault Refusal :=
  .next (s.instr c 4 (fun s => s.fence c 4 (fun _ => true)))

/-- FENCE.IO: device accesses have reached their targets as soon as they are performed (R94, R274). -/
def execFenceIo (c : Nat) (s : State) : Host.Outcome State Fault Refusal :=
  .next (s.instr c 4 (fun s => noRegion s c (fun s => s.fence c 5 (fun _ => true))))

/-- FENCE.GLOBAL: also every partition-scope TLBI of the core is complete, and every device access has been sent on its link (R94, R95,
R263, R495). -/
def execFenceGlobal (c : Nat) (s : State) : Host.Outcome State Fault Refusal :=
  .next (s.instr c 4 (fun s => noRegion s c (fun s => s.fence c 6 (fun s => (s.core c).tlbiOut.isEmpty && !s.devHeld c))))

/-- FENCE.X and C.FENCE.X: a barrier (R89). -/
def fenceX (c len : Nat) (s : State) : State :=
  s.instr c len (fun s => barrier s c (fun s => .ok (s.nextPc c len) (s.countC c 161)))

/-- FENCE.X (R89). -/
def execFenceX (c : Nat) (s : State) : Host.Outcome State Fault Refusal := .next (fenceX c 4 s)

/-- C.FENCE.X (R52). -/
def execCFenceX (c : Nat) (s : State) : Host.Outcome State Fault Refusal := .next (fenceX c 2 s)

/-- A fence's recovery timer reaches 2 ms while an action is in progress: RECOVERY_FAILED, precisely (R283, R284). -/
def execFenceRecoveryTimeout (c : Nat) (s : State) : Host.Outcome State Fault Refusal :=
  .next (if s.canRun c && (s.core c).fence.isSome && s.inAction (coreSock c) then
      match (s.core c).storeQ with
      | e :: _ => (s.raise c (faultEv s c 0x0303 (BitVec.ofNat 64 e.pa) (2 + 2 ^ 15))).getD s
      | [] => (s.raise c (faultEv s c 0x0303 0 0)).getD s
    else s)

/-- An ordered region stalled by recovery for 2 ms aborts with RECOVERY and releases its lines (R282). -/
def execRegionRecoveryTimeout (c : Nat) (s : State) : Host.Outcome State Fault Refusal :=
  .next (if (s.core c).orderedOpen && s.inAction (coreSock c) then (s.abortRegion c 10 0).stepDone c else s)

/-! ### Cache maintenance -/

/-- Maintenance by address of the line that holds gB, `op` done at its home `h` behind the core's queued stores to the line (R96, R97,
R266); it does nothing to a line whose home is unreachable (log entry 44). -/
def State.cmo (s : State) (c : Nat) (acc : Acc) (va : Word) (op : State → Nat → Nat → State) : Res Word :=
  (s.accessMem c acc va 1 true).bind (fun ps s =>
    match ps with
    | [p] =>
      match s.target (coreSock c) p.pa with
      | .dram h _ | .cxl h _ =>
        match s.drainLine c (lineOf p.pa) with
        | none => .stall
        | some s =>
          if s.heldByOther c (lineOf p.pa) || !s.gateOpen c || s.homeWaits (coreSock c) h (lineOf p.pa) then .stall
          else done4 (op (s.gatePass c h) h (lineOf p.pa)) c
      | _ => done4 s c
    | _ => done4 s c)

/-- IFLUSH: the core's own earlier stores performed, the L1I emptied and the pipeline flushed (R99, R200, R201, R218). -/
def execIflush (c : Nat) (s : State) : Host.Outcome State Fault Refusal :=
  .next (s.instr c 4 (fun s => noRegion s c (fun s =>
    match s.drain c with
    | none => .stall
    | some s => done4 (s.updCore c (fun k => { k with l1i := [], pred := k.pred.flush }.count 54 1)) c)))

/-- CCLEAN (R96, R97). -/
def execCclean (c : Nat) (b : Reg5) (s : State) : Host.Outcome State Fault Refusal :=
  .next (s.instr c 4 (fun s => noRegion s c (fun s => s.cmo c Acc.clean (s.g c b) State.cmoClean)))

/-- CFLUSH (R96, R97). -/
def execCflush (c : Nat) (b : Reg5) (s : State) : Host.Outcome State Fault Refusal :=
  .next (s.instr c 4 (fun s => noRegion s c (fun s => s.cmo c Acc.clean (s.g c b) (fun s h ln => s.recallAll ln h))))

/-- CINVAL (R96, R97). -/
def execCinval (c : Nat) (b : Reg5) (s : State) : Host.Outcome State Fault Refusal :=
  .next (s.instr c 4 (fun s => noRegion s c (fun s => withAuth s c 4 (fun s =>
    s.cmo c Acc.inval (s.g c b) State.cmoInval))))

/-- CZERO: a store of 64 zero bytes (R96, R97). -/
def execCzero (c : Nat) (b : Reg5) (s : State) : Host.Outcome State Fault Refusal :=
  .next (s.instr c 4 (fun s => noRegion s c (fun s =>
    (s.accessMem c Acc.czero (s.g c b) 1 false).bind (fun ps s =>
      match s.writeSpans c true false (ps.map (fun p => { pa := lineOf p.pa * 64, len := 64, dev := false })) (leBytes 64 0) with
      | none => .stall
      | some s => done4 s c))))

/-- One of the lines a list names, or none, as a free value says: the spec does not say which line of a set stands in which way (R98, log
entry 1). -/
def State.pickLine (s : State) (l : List Nat) : Option Nat :=
  let i := s.freeNat 64 % (l.length + 1)
  l[i]?

/-- A set/way operation on a line of the core's L2: modified data is cleaned, or the line leaves by the coherence protocol; a line a
region holds stays. -/
def State.setWayL2 (s : State) (c ln : Nat) (flush : Bool) : State :=
  if s.heldByOther c ln || (cellGet none s.held ln).isSome then s
  else if flush then (s.updCore c (fun k => if k.member ln then k.abortRegion 1 0 else k)).evict c ln
  else if (s.core c).l2st ln = some .M then s.cmoClean (s.target (coreSock c) (ln * 64)).home ln
  else s

/-- A set/way operation on a line of a slice of socket `k`: what its atomic buffer holds goes to memory, and a flush makes it leave the data
array (R287, R306). -/
def State.setWaySlice (s : State) (k sl ln : Nat) (flush : Bool) : State :=
  let s := s.unbuffer k ln
  let key := slKey k sl
  if flush && (cellGet [] s.sdata key).contains ln then
    { s with sdata := cellSet [] s.sdata key ((cellGet [] s.sdata key).filter (· ≠ ln)) }.lastCopy k ln
  else s

/-- A set/way operation: the level decides the structure; the location's line, if any, leaves it or is cleaned (R98).  A set holds the
lines whose number agrees with it (log entry 39). -/
def State.setWay (s : State) (c : Nat) (x : Word) (flush : Bool) : State :=
  let k := coreSock c
  let level := natBits x.toNat 1 0
  let way := natBits x.toNat 5 2
  let set := natBits x.toNat 16 6
  let sl := natBits x.toNat 40 32
  let on (l : List Nat) (f : State → Nat → State) : State :=
    match s.pickLine l with
    | none => s.useFree
    | some ln => f s.useFree ln
  if level = 1 && decide (set < 128) && decide (way < 8) && flush then
    on ((s.core c).l1d.filter (fun ln => ln % 128 = set)) (fun s ln => s.updCore c (fun q => { q with l1d := q.l1d.filter (· ≠ ln) }))
  else if level = 2 && decide (set < 2048) then
    on (((s.core c).l2.map (·.1)).filter (fun ln => ln % 2048 = set)) (fun s ln => s.setWayL2 c ln flush)
  else if level = 3 && decide (set < 2048) && s.rd Reg.hrthSliceEnabled { sock := k, i := sl } = 1 &&
      s.rd Reg.hrthSliceRetired { sock := k, i := sl } = 0 then
    let key := slKey k sl
    on (((cellGet [] s.sdata key) ++ (cellGet [] s.abuf key).filter (fun ln => !(cellGet [] s.sdata key).contains ln)).filter
      (fun ln => ln % 2048 = set)) (fun s ln => s.setWaySlice k sl ln flush)
  else s

/-- SWCLEAN (R98). -/
def execSwclean (c : Nat) (b : Reg5) (s : State) : Host.Outcome State Fault Refusal :=
  .next (s.instr c 4 (fun s => noRegion s c (fun s => withAuth s c 3 (fun s => done4 (s.setWay c (s.g c b) false) c))))

/-- SWFLUSH (R98). -/
def execSwflush (c : Nat) (b : Reg5) (s : State) : Host.Outcome State Fault Refusal :=
  .next (s.instr c 4 (fun s => noRegion s c (fun s => withAuth s c 3 (fun s => done4 (s.setWay c (s.g c b) true) c))))

/-! ### TLB invalidation -/

/-- A partition-scope invalidation sent to the IHUB of every socket of the partition (step 1 of Table XLAT-7). -/
def State.tlbiSend (s : State) (c : Nat) (i : Inval) : State :=
  let t : Tlbi :=
    { id := s.tlbiNext, core := c, inv := i,
      socks := (s.partSocks (coreSock c)).map (fun k => { sock := k, fwd := false, left := [], sent := false }) }
  let s : State := { s with tlbis := s.tlbis ++ [t], tlbiNext := s.tlbiNext + 1 }
  s.updCore c (fun k => { k with tlbiOut := k.tlbiOut ++ [t.id] })

/-- A TLBI form: F3 chooses the scope, earlier stores are performed first, and a ninth outstanding one waits (R100, R101,
R255, R258). -/
def State.tlbi (s : State) (c : Nat) (scope : BitVec 3) (i : Inval) : Res Word :=
  match s.drain c with
  | none => .stall
  | some s =>
    if scope = 0 then done4 (s.updCore c (fun k => k.invalidate i)) c
    else if 8 ≤ (s.core c).tlbiOut.length then .stall
    else done4 (s.tlbiSend c i) c

/-- The checks every TLBI form shares. -/
def tlbiForm (c : Nat) (scope : BitVec 3) (f : State → Res Word) (s : State) : State :=
  s.instr c 4 (fun s =>
    if 1 < scope.toNat then illegal s c else noRegion s c (fun s => withAuth s c 2 f))

/-- The SID and VM ID of gC; a guest's forms act on its own VM ID (R100, R245). -/
def State.tags (s : State) (c : Nat) (d : Reg5) : Nat × Nat :=
  let x := (s.g c d).toNat
  (natBits x 15 0, if (s.core c).guest then (s.sr c SR.VMID).toNat % 4096 else natBits x 27 16)

/-- TLBI.VA (R100). -/
def execTlbiVa (c : Nat) (scope : BitVec 3) (b d : Reg5) (s : State) : Host.Outcome State Fault Refusal :=
  .next (tlbiForm c scope (fun s =>
    s.tlbi c scope (.va (s.tags c d).1 (s.tags c d).2 (natBits (s.g c b).toNat 56 12))) s)

/-- TLBI.SID (R100). -/
def execTlbiSid (c : Nat) (scope : BitVec 3) (d : Reg5) (s : State) : Host.Outcome State Fault Refusal :=
  .next (tlbiForm c scope (fun s => s.tlbi c scope (.sid (s.tags c d).1 (s.tags c d).2)) s)

/-- TLBI.VM (R100). -/
def execTlbiVm (c : Nat) (scope : BitVec 3) (d : Reg5) (s : State) : Host.Outcome State Fault Refusal :=
  .next (tlbiForm c scope (fun s => s.tlbi c scope (.vm (s.tags c d).2)) s)

/-- TLBI.IPA; a guest may not execute it (R100, R245). -/
def execTlbiIpa (c : Nat) (scope : BitVec 3) (b d : Reg5) (s : State) : Host.Outcome State Fault Refusal :=
  .next (tlbiForm c scope (fun s =>
    if (s.core c).guest then noAuth s c
    else s.tlbi c scope (.ipa (s.tags c d).2 (natBits (s.g c b).toNat 56 12))) s)

/-- TLBI.ALL; in a guest it acts as TLBI.VM (R100, R245). -/
def execTlbiAll (c : Nat) (scope : BitVec 3) (s : State) : Host.Outcome State Fault Refusal :=
  .next (tlbiForm c scope (fun s =>
    s.tlbi c scope (if (s.core c).guest then .vm ((s.sr c SR.VMID).toNat % 4096) else .all)) s)

/-- The invalidation `id` at socket `k` changed. -/
def State.tlbiAt (s : State) (k id : Nat) (f : TlbiSock → TlbiSock) : State :=
  { s with tlbis := s.tlbis.map (fun (t : Tlbi) =>
      if t.id = id then { t with socks := t.socks.map (fun (x : TlbiSock) => if x.sock = k then f x else x) } else t) }

/-- The invalidation `id` as socket `k` sees it. -/
def State.tlbiFind (s : State) (k id : Nat) : Option (Tlbi × TlbiSock) :=
  match s.tlbis.find? (fun t => t.id = id) with
  | none => none
  | some t => (t.socks.find? (fun x => x.sock = k)).map (fun x => (t, x))

/-- The targets of an invalidation in socket `k`: every logical core that is not lost, the root complexes' IOMMUs and the
Stoker cells (step 2 of Table XLAT-7). -/
def State.tlbiTargets (s : State) (k : Nat) : List Nat :=
  (List.range (s.part k).cores).filter (fun l => decide (s.rd Reg.coreLmapState { sock := k, i := l } ≠ 0)) ++
    [256, 257, 258, 259] ++ (if (s.part k).full then (List.range 8).map (· + 264) else [])

/-- TLBI_FORWARD (step 2 of Table XLAT-7). -/
def execTlbiForward (k id : Nat) (s : State) : Host.Outcome State Fault Refusal :=
  .next (match s.tlbiFind k id with
    | some (_, x) => if x.fwd then s else s.tlbiAt k id (fun x => { x with fwd := true, left := s.tlbiTargets k })
    | none => s)

/-- Whether a core still has accesses that were translated before an invalidation and are neither performed nor discarded, beyond what its
store queue holds: the stores of an open region, a load that waits for a device (R256). -/
def Core.midAccess (k : Core) : Bool := !k.held.isEmpty || k.devWait.isSome

/-- TLBI_TARGET_ACK: the target's entries are gone and every access translated through one is performed; a core in Banked
or Cold holds none, and a core being handed off answers when the copy is over (R256, R257). -/
def execTlbiTargetAck (k id t : Nat) (s : State) : Host.Outcome State Fault Refusal :=
  .next (match s.tlbiFind k id with
    | some (x, y) =>
      if !y.fwd || !y.left.contains t then s
      else
        let ack (s : State) : State := s.tlbiAt k id (fun y => { y with left := y.left.filter (· ≠ t) })
        if t < 256 then
          let c := k * 256 + t
          if (s.core c).frozen || (s.core c).midAccess then s
          else
            match s.drain c with
            | none => s
            | some s => ack (s.updCore c (fun q => q.invalidate x.inv))
        else ack (s.ioInval k (t - 256) x.inv)
    | none => s)

/-- TLBI_SOCKET_ACK (step 4 of Table XLAT-7). -/
def execTlbiSocketAck (k id : Nat) (s : State) : Host.Outcome State Fault Refusal :=
  .next (match s.tlbiFind k id with
    | some (_, y) => if y.fwd && y.left.isEmpty then s.tlbiAt k id (fun y => { y with sent := true }) else s
    | none => s)

/-- TLBI_COMPLETE: one acknowledgement of every socket is received (step 5 of Table XLAT-7). -/
def execTlbiComplete (c id : Nat) (s : State) : Host.Outcome State Fault Refusal :=
  .next (match s.tlbis.find? (fun t => t.id = id && t.core = c) with
    | some t =>
      if t.socks.all (·.sent) then
        let s : State := { s with tlbis := s.tlbis.filter (fun u => u.id ≠ id) }
        s.updCore c (fun k =>
          { k with tlbiOut := k.tlbiOut.filter (· ≠ id) })
      else s
    | none => s)

end Sys2Proof.Machine
end

