-- ==== Sys2Proof/Machine/Sreg.lean ====
section
/-!
DEFINITION. Machine/Sreg.lean: system registers (R92, R102-R106, R123, R151, R178-R180, R244-R248, R576, R577) and dropping
key rights (R107, R108).
-/
namespace Sys2Proof.Machine

/-- SRD (R102, R106, R577). -/
def State.srd (s : State) (c : Nat) (a : Reg5) (n : Nat) : Res Word :=
  if !srKnown n then illegal s c
  else
    let go (s : State) : Res Word :=
      if n = SR.PMDATA && (!s.auth c 5 || ((s.core c).guest && s.rd Reg.pmuGuestok (coreIx c) = 0)) then noAuth s c
      else
        let r := s.srdVal c n
        done4 (r.2.setG c a r.1) c
    if srBarrier n then barrier s c go else go s

/-- SWR to SR.KEYREQ: the block is translated and checked at the SWR; a request still incomplete holds the core
(R141, R142). -/
def State.keyreq (s : State) (c : Nat) (v : Word) : Res State :=
  (s.access c Acc.store (v &&& ~~~(63 : Word)) 64).bind (fun ps s =>
    if (s.core c).keyReq.isSome then .stall
    else
      let k := s.core c
      let r : KeyReq := { op := natBits v.toNat 5 0, pa := (ps.map (·.pa)).headD 0, world := k.world,
                          domain := (k.srOwn SR.DOMAIN).toNat % 65536, kr0 := k.srOwn SR.KRIGHTS0, kr1 := k.srOwn SR.KRIGHTS1 }
      .ok (s.updCore c (fun k => { k with keyReq := some r })) s)

/-- What every SWR does besides its write: it is counted, with its micro-ops and its drain, and a change of HARDEN takes effect (R188, R200,
R204). -/
def State.swrEnd (s : State) (c : Nat) : State :=
  let same := (s.core c).hardenEff == decide (s.rd Reg.coreCfgHarden (coreIx c) = 1)
  ((s.countC c 250).updCore c (fun k => (k.count 4 (microOps 3).toNat).count 53 (if same then 1 else 0))).reharden c

/-- SWR: the checks of R102, R91, R151 and R245, then the write, ordered as FENCE.FULL and serialising (R103, R267). -/
def State.swr (s : State) (c : Nat) (a : Reg5) (n : Nat) : Res Word :=
  let v := s.g c a
  if !srKnown n || srRo n then illegal s c
  else
    let go (s : State) : Res Word :=
      if s.swrDenied c n v || !((srAuth n).map (s.auth c)).getD true then noAuth s c
      else
        match s.drain c with
        | none => .stall
        | some s =>
          let fin (s : State) : Res Word := done4 (s.swrEnd c) c
          if n = SR.KEYREQ then (s.keyreq c v).bind (fun s _ => fin s) else fin (s.swrDo c n v)
    if srBarrier n then barrier s c go else go s

/-- A member of the SREG group. -/
def sreg (c : Nat) (f : State → Res Word) (s : State) : State := s.instr c 4 (fun s => noRegion s c f)

/-! ### Instructions -/

/-- SRD (R102, R106). -/
def execSrd (c : Nat) (a : Reg5) (n : BitVec 12) (s : State) : Host.Outcome State Fault Refusal :=
  .next (sreg c (fun s => s.srd c a n.toNat) s)

/-- SWR (R102, R103). -/
def execSwr (c : Nat) (a : Reg5) (n : BitVec 12) (s : State) : Host.Outcome State Fault Refusal :=
  .next (sreg c (fun s => s.swr c a n.toNat) s)

/-- SWR to SR.AUTH (R92). -/
def execSwrAuth (c : Nat) (a : Reg5) (s : State) : Host.Outcome State Fault Refusal :=
  .next (sreg c (fun s => s.swr c a SR.AUTH) s)

/-- SWR to SR.KRIGHTS0, or SR.KRIGHTS1 when `hi` is set (R104). -/
def execSwrKrights (c : Nat) (hi : Bool) (a : Reg5) (s : State) : Host.Outcome State Fault Refusal :=
  .next (sreg c (fun s => s.swr c a (if hi then SR.KRIGHTS1 else SR.KRIGHTS0)) s)

/-- SWR to SR.TCMP (R180). -/
def execSwrTcmp (c : Nat) (a : Reg5) (s : State) : Host.Outcome State Fault Refusal :=
  .next (sreg c (fun s => s.swr c a SR.TCMP) s)

/-- SWR to SR.XLATCTL (R244, R245, R248). -/
def execSwrXlatctl (c : Nat) (a : Reg5) (s : State) : Host.Outcome State Fault Refusal :=
  .next (sreg c (fun s => s.swr c a SR.XLATCTL) s)

/-- SWR to SR.PMSEL (R576). -/
def execSwrPmsel (c : Nat) (a : Reg5) (s : State) : Host.Outcome State Fault Refusal :=
  .next (sreg c (fun s => s.swr c a SR.PMSEL) s)

/-- SRD of SR.PMDATA (R106, R577). -/
def execPmdataRead (c : Nat) (a : Reg5) (s : State) : Host.Outcome State Fault Refusal :=
  .next (sreg c (fun s => s.srd c a SR.PMDATA) s)

/-- SWR to SR.IPI (R178, R179). -/
def execIpiSend (c : Nat) (a : Reg5) (s : State) : Host.Outcome State Fault Refusal :=
  .next (sreg c (fun s => s.swr c a SR.IPI) s)

/-- KDROP (R107, R108). -/
def execKdrop (c : Nat) (b : Reg5) (s : State) : Host.Outcome State Fault Refusal :=
  .next (sreg c (fun s =>
    let x := (s.g c b).toNat
    let key := natBits x 5 0
    let n := if key < 32 then SR.KRIGHTS0 else SR.KRIGHTS1
    let old := (s.sr c n).toNat
    let sh := 2 * (key % 32)
    done4 ((s.setSr c n (BitVec.ofNat 64 (natSetBits old sh 2 (meet (natBits old (sh + 1) sh) (natBits x 9 8))))).countC c 249)
      c) s)

/-- KDROP.LO (R108). -/
def execKdropLo (c : Nat) (b : Reg5) (s : State) : Host.Outcome State Fault Refusal :=
  .next (sreg c (fun s => done4 ((s.dropRights c SR.KRIGHTS0 (s.g c b)).countC c 249) c) s)

/-- KDROP.HI (R108). -/
def execKdropHi (c : Nat) (b : Reg5) (s : State) : Host.Outcome State Fault Refusal :=
  .next (sreg c (fun s => done4 ((s.dropRights c SR.KRIGHTS1 (s.g c b)).countC c 249) c) s)

end Sys2Proof.Machine
end

