-- ==== Sys2Proof/Machine/Gate.lean ====
section
/-!
DEFINITION. Machine/Gate.lean: gates and returns (R109-R112, R127-R132, R149, R150, R168) and the WAIT forms with the core's
sleep states (R113, R542-R544).
-/
namespace Sys2Proof.Machine

/-! ### Gates -/

/-- A gate descriptor (Table DOMN-2, R128). -/
structure GDesc where
  kr0 : Word
  kr1 : Word
  entry : Word
  auth : Nat
  stack : Nat
  world : Bool
  swstk : Bool
  bad : Bool
  domain : Nat
deriving DecidableEq, Repr

/-- A 57-bit address extended by copies of bit 56. -/
def ext57 (x : Nat) : Word := (BitVec.ofNat 57 x).signExtend 64

/-- The descriptor that 32 bytes spell. -/
def descOf (b : List Byte) : GDesc :=
  let w2 := frameWord b 2
  let w3 := frameWord b 3
  let sw := w3.testBit 46
  { kr0 := BitVec.ofNat 64 (frameWord b 0), kr1 := BitVec.ofNat 64 (frameWord b 1), entry := ext57 (natBits w2 52 0 * 16),
    auth := natBits w2 63 53, stack := natBits w3 44 0, world := w3.testBit 45, swstk := sw,
    bad := w3.testBit 47 || (!sw && natBits w3 44 0 ≠ 0), domain := natBits w3 63 48 }

/-- The instance whose gate page holds the descriptor at `pa`, if any (R129, R145). -/
def State.gateInst (s : State) (pa : Nat) : Option Nat :=
  let o := s.pageOwner pa
  if o.1 = 2 then some o.2 else none

/-- The seat a WORLD = 1 gate of instance `g` would run on, with whether it is newly occupied (R149). -/
def State.gateSeat (s : State) (c g : Nat) : Option (Nat × Bool) :=
  match (s.core c).world with
  | some w => if w.1 = g then some (w.2, false) else none
  | none => (s.freeSeat g).map (fun i => (i, true))

/-- Whether the entry PC lies outside the instance's image pages: it does not translate on the seat, or the page it names is no image page of
the instance (R129). -/
def State.entryOutside (s : State) (c g seat : Nat) (d : GDesc) : Bool :=
  match translate (s.xctxIn c (some (g, seat)) d.kr0 d.kr1) ((s.core c).tlbs Acc.fetch) (s.core c).wc Acc.fetch d.entry s with
  | .ok t _ =>
    let o := s.pageOwner t.pa
    !((o.1 = 1 || o.1 = 2 || o.1 = 3) && o.2 = g)
  | .bad _ _ => true
  | .wait => false

/-- Step 5 of R109 with the two refusals after it (R129): the event, if any. -/
def State.gateRefusal (s : State) (c pa : Nat) (d : GDesc) : Option Ev :=
  let fault : Option Ev := some (faultEv s c 0x0202)
  let info (g : Nat) : Nat := infoOf Acc.gate 0 0 0 false g
  if d.bad then fault
  else if !d.world then (if (s.core c).world.isSome then fault else none)
  else if !(s.part (coreSock c)).full then fault
  else
    match s.gateInst pa with
    | none => fault
    | some g =>
      let other := match (s.core c).world with | some w => decide (w.1 ≠ g) | none => false
      if other then fault
      else if s.entryOutside c g ((s.gateSeat c g).map (·.1) |>.getD 0) d then fault
      else if !s.vRunning g then some (faultEv s c 0x0502 0 (info g))
      else if (s.gateSeat c g).isNone then some (faultEv s c 0x0503 0 (info g))
      else none

/-- The world and seat the callee runs in. -/
def State.gateWorld (s : State) (c pa : Nat) (d : GDesc) : Option (Nat × Nat) :=
  if !d.world then none
  else
    match s.gateInst pa with
    | none => none
    | some g => (s.gateSeat c g).map (fun p => (g, p.1))

/-- The fetch of the 32 bits at the entry PC, checked and made as the callee will fetch, and reported against the GATE (step 6 of
R109). -/
def State.gateFetch (s : State) (c : Nat) (w : Option (Nat × Nat)) (d : GDesc) : Res Nat :=
  let x := s.xctxIn c w d.kr0 d.kr1
  (xrToRes c (s.xlateIn c x Acc.fetch d.entry)).bind (fun t s =>
    if t.dev then .ev (faultEv s c 0x0105 d.entry 0) s
    else
      let ln := lineOf t.pa
      let s := s.touch (coreSock c) ln
      if s.fetchBad c ln then
        let e := s.poisonErr (coreSock c) t.pa d.entry.toNat 0
        .ev (faultEv e.2 c e.1.cause d.entry e.1.info) e.2
      else if s.fetchWaits c ln then .stall
      else
        let s := s.fillLine c ln
        .ok (s.fetchNat c t.pa 4) s)

/-- The return record (Table SYSX-5, R149). -/
def State.gateRecord (s : State) (c : Nat) (d : GDesc) (enters : Bool) : List Byte :=
  let k := s.core c
  let dom := (k.srOwn SR.DOMAIN).toNat % 65536
  let marker := 1 + (if k.world.isSome then 2 else 0) + (if d.swstk then 4 else 0) + d.domain * 2 ^ 16 + dom * 2 ^ 48
  [marker, (s.nextPc c 4).toNat, (k.srOwn SR.AUTH).toNat, (k.srOwn SR.KRIGHTS0).toNat, (k.srOwn SR.KRIGHTS1).toNat,
   if d.swstk || enters then (k.gr 25).toNat else 0].flatMap (leBytes 8)

/-- What a gate loads into the core once its record is pushed. -/
def Core.gateLoad (k : Core) (d : GDesc) : Core :=
  let k := (k.setSrOwn SR.AUTH (BitVec.ofNat 64 d.auth)).setSrOwn SR.KRIGHTS0 d.kr0
  let k := (k.setSrOwn SR.KRIGHTS1 d.kr1).setSrOwn SR.DOMAIN (BitVec.ofNat 64 d.domain)
  if d.swstk then k.setG 25 (ext57 (d.stack * 4096)) else k

/-- Steps 8 of R109 and the gate itself: the record is pushed in the callee's world; a fault there changes nothing. -/
def State.gateGo (s : State) (c : Nat) (w : Option (Nat × Nat)) (d : GDesc) : Res Word :=
  let enters := (s.core c).world.isNone && w.isSome
  let rec' := s.gateRecord c d enters
  let s1 := if enters then s.setWorld c w else s
  let p := s1.sr c SR.SSP - 48
  match s1.storeRaw c Acc.push p rec' false false with
  | .stall => .stall
  | .park s' => .park s'
  | .ev e _ => .ev e s
  | .ok _ s2 =>
    let s3 := (s2.setSr c SR.SSP p).updCore c (fun k => (((k.gateLoad d).count 246 1).count 57 1).count 4 (microOps 0).toNat)
    let s4 := if enters then
        s3.seated c p false d.entry 2 (s.rd Reg.ihubCoreCstateRpri (coreIx c)) (s.rd Reg.ihubCoreCstateDepth (coreIx c))
      else s3
    .ok d.entry ((s4.repredict c (s.hardened c)).trRec c 5 (s.pc c) d.entry)

/-- GATE (R109, R129-R131, R149). -/
def execGate (c : Nat) (b : Reg5) (s : State) : Host.Outcome State Fault Refusal :=
  .next (s.instr c 4 (fun s => noRegion s c (fun s => barrier s c (fun s =>
    let va := s.g c b
    if va.toNat % 32 ≠ 0 then misaligned s c Acc.gate va
    else
      (s.access c Acc.gate va 32).bind (fun ps s =>
        let pa := (ps.map (·.pa)).headD 0
        (s.readSpans c Acc.gate va ps).bind (fun bs s =>
          let d := descOf bs
          match s.gateRefusal c pa d with
          | some e => .ev e s
          | none =>
            let w := s.gateWorld c pa d
            (s.gateFetch c w d).bind (fun x s =>
              if x ≠ 0x00019D00 then .ev (faultEv s c 0x0201) s else s.gateGo c w d)))))))

/-- GENTRY (R112). -/
def execGentry (c : Nat) (s : State) : Host.Outcome State Fault Refusal :=
  .next (s.instr c 4 (fun s => noRegion s c (fun s => done4 s c)))

/-- What GRET restores from the return record's 48 bytes; a record of a normal-world caller met in the Vault world leaves it
(R111, R150). -/
def State.gretDo (s : State) (c : Nat) (b : List Byte) : State :=
  let m := frameWord b 0
  let inVault := (s.core c).world.isSome
  let leaves := inVault && !m.testBit 1
  let was := s.hardened c
  let s := s.setSr c SR.SSP (s.sr c SR.SSP + 48)
  let s := s.updCore c (fun k =>
    let k := (k.setSrOwn SR.AUTH (BitVec.ofNat 64 (frameWord b 2 % 2 ^ 11))).setSrOwn SR.KRIGHTS0
      (BitVec.ofNat 64 (frameWord b 3))
    let k := (k.setSrOwn SR.KRIGHTS1 (BitVec.ofNat 64 (frameWord b 4))).setSrOwn SR.DOMAIN
      (BitVec.ofNat 64 (natBits m 63 48))
    (if m.testBit 2 || leaves then k.setG 25 (BitVec.ofNat 64 (frameWord b 5)) else k).count 247 1 |>.count 57 1 |>.count 4 (microOps 1).toNat)
  let s := if leaves then s.setWorld c none else s
  s.repredict c was

/-- GRET (R111, R150). -/
def execGret (c : Nat) (s : State) : Host.Outcome State Fault Refusal :=
  .next (s.instr c 4 (fun s => noRegion s c (fun s => barrier s c (fun s =>
    let p := s.sr c SR.SSP
    (s.loadRaw c Acc.pop p 8).bind (fun m s =>
      let x := leNat m
      if !x.testBit 0 || natBits x 31 16 ≠ ((s.core c).srOwn SR.DOMAIN).toNat % 65536 then .ev (faultEv s c 0x0201) s
      else
        (s.loadRaw c Acc.pop (p + 8) 40).bind (fun t s =>
          let b := m ++ t
          let tgt := BitVec.ofNat 64 (frameWord b 1)
          .ok tgt ((s.gretDo c b).trRec c 5 (s.pc c) tgt)))))))

/-- GRET.EV (R112, R168). -/
def execGretEv (c : Nat) (s : State) : Host.Outcome State Fault Refusal :=
  .next (s.instr c 4 (fun s => noRegion s c (fun s => barrier s c (fun s => withAuth s c 1 (fun s =>
    (s.loadRaw c Acc.load (s.sr c SR.FSP) 128).bind (fun b s =>
      if s.frameBad c (frameWord b 0) then .ev (faultEv s c 0x0201) s
      else
        let r := s.unframe c b
        .ok r.2 ((r.1.updCore c (fun k => ((k.count 248 1).count 57 1).count 4 (microOps 2).toNat)).trRec c 5 (s.pc c) r.2)))))))

/-! ### WAIT and sleep -/

/-- The reason to wake a waiting core that holds now: 0 an interrupt, 1 the deadline, 2 a debug halt request (R113). -/
def State.wakeReason (s : State) (c deadline : Nat) : Option Nat :=
  if (s.dueVault c).isSome || (s.dueInterrupt c).isSome then some 0
  else if deadline ≠ 0 && deadline ≤ s.now (coreSock c) then some 1
  else if s.rd Reg.dbgCoreCtlHaltreq (coreIx c) = 1 then some 2
  else none

/-- A WAIT form of `kind` (1 Ember, 2 Banked, 3 Cold): done at once when a wake condition holds; otherwise the sleep begins,
Banked and Cold after the retired stores are performed, Cold after its flush too (R113, R542-R544). -/
def State.waitForm (s : State) (c kind : Nat) (a b : Reg5) : Res Word :=
  let d := (s.g c b).toNat
  match s.wakeReason c d with
  | some r => done4 ((s.setG c a (BitVec.ofNat 64 r)).countC c 12) c
  | none =>
    let i : WaitInfo := { dest := a, deadline := d, kind := kind, closing := decide (kind ≠ 1) }
    let go (s : State) : Res Word := .park ((s.updCore c (fun k => { k with wait := some i })).wrIf (kind = 1)
      Reg.pwrCoreCstate (coreIx c) 1)
    if kind = 1 then go s
    else
      match s.drain c with
      | none => .stall
      | some s => go (if kind = 3 then s.flushL2 c else s)

/-- WAIT (R113). -/
def execWait (c : Nat) (a b : Reg5) (s : State) : Host.Outcome State Fault Refusal :=
  .next (s.instr c 4 (fun s => noRegion s c (fun s => barrier s c (fun s => s.waitForm c 1 a b))))

/-- WAIT.BANKED (R113). -/
def execWaitBanked (c : Nat) (a b : Reg5) (s : State) : Host.Outcome State Fault Refusal :=
  .next (s.instr c 4 (fun s => noRegion s c (fun s => barrier s c (fun s =>
    withAuth s c 6 (fun s => s.waitForm c 2 a b)))))

/-- WAIT.COLD (R113, R544). -/
def execWaitCold (c : Nat) (a b : Reg5) (s : State) : Host.Outcome State Fault Refusal :=
  .next (s.instr c 4 (fun s => noRegion s c (fun s => barrier s c (fun s =>
    withAuth s c 6 (fun s => s.waitForm c 3 a b)))))

/-- What a core loses in Banked or Cold (Table POWR-5). -/
def Core.sleepLoss (k : Core) : Core := { k.noTlb with l1i := [], l1d := [], pred := Pred.reset }

/-- CORE_WAKE: a wake condition holds; the WAIT retires with its reason, an entry whose gate had not closed being abandoned
(R113, R542, R543).  From Cold the core runs on its fast clock (R538); a package asleep wakes with it (R548). -/
def execCoreWake (c : Nat) (s0 : State) : Host.Outcome State Fault Refusal :=
  let s := s0
  .next (match (s.core c).wait with
    | none => s
    | some i =>
      match s.wakeReason c i.deadline with
      | none => s
      | some r =>
        if 5 ≤ s.rd Reg.pwrPkgState { sock := coreSock c } then s
        else
          let s := if s.rd Reg.pwrPkgState { sock := coreSock c } = 0 then s else s.useFree.pkgWake (coreSock c) 2 (s.freeNat 4)
          let cold := i.kind = 3 && !i.closing
          let s := ((s.wr Reg.pwrCoreCstate (coreIx c) 0).wrIf cold Reg.pwrCoreSel (coreIx c) 0).wrIf cold
            Reg.pwrCorePllen (coreIx c) 0
          let s := s.wrIf cold Reg.pwrCoreLocked (coreIx c) 0
          let s := s.updCore c (fun k => ({ k with wait := none }.setG i.dest (BitVec.ofNat 64 r)).count 12 1)
          (s.retireInstr c (s.nextPc c 4)).getD s0)

/-- SLEEP_GATE_CLOSED: the power gate closes unless a wake condition has come first (R543). -/
def execSleepGateClosed (c : Nat) (s : State) : Host.Outcome State Fault Refusal :=
  .next (match (s.core c).wait with
    | none => s
    | some i =>
      if i.closing && (s.wakeReason c i.deadline).isNone then
        (s.wr Reg.pwrCoreCstate (coreIx c) i.kind).updCore c (fun k =>
          { k.sleepLoss with wait := some { i with closing := false } })
      else s)

end Sys2Proof.Machine
end

