-- ==== Sys2Proof/Machine/Mgc.lean ====
section
/-!
DEFINITION. Machine/Mgc.lean: the JTAG port and the management controller (R596-R603).
-/
namespace Sys2Proof.Machine

/-- Whether the standby domain of a socket runs, so that its management controller answers (R598). -/
def State.mgcUp (s : State) (k : Nat) : Bool := (s.pw k).seq ≠ 1 && (s.pw k).seq ≠ 2

/-- Whether a socket's main rails are on (R599). -/
def State.railsOn (s : State) (k : Nat) : Bool := (s.pw k).seq = 0

/-! ### Accesses to the DBG block (R587, R597) -/

/-- Whether a word of a block holds fields of which none can be written. -/
def roWord (b : Blk) (h inst o : Nat) : Bool :=
  let l := wordFields b h inst o
  !l.isEmpty && l.all (fun w => decide (w.f.acc = .ro))

/-- Word 0 or 1 of the DBG block's own capability entry (R8). -/
def dbgHead (p : Part) (o : Nat) : Nat :=
  match (capBase .dbg 0 (capList p) 0).bind (fun b => capFind b (capList p) 0) with
  | some e => e.word (decide (8 ≤ o))
  | none => 0

/-- An external requester's access to 8 bytes of the DBG block: the state, the status (Table DBUG-2) and the data read. -/
def State.dbgAcc (s : State) (rq : Rq) (k off : Nat) (write : Bool) (v : Nat) : State × Nat × Nat :=
  let o := off / 8 * 8
  if !s.railsOn k then (s, 8, 0)
  else if 1040 * 4096 ≤ o then (s, 7, 0)
  else if s.dbgDenied rq k o ≠ 0 then (s, s.dbgDenied rq k o, 0)
  else if !write then
    (s, 0, if o < 16 then dbgHead (s.part k) o else s.blkLoad rq .dbg k 0 o)
  else if o < 16 || roWord .dbg k 0 o then (s, 7, 0)
  else
    let l := writtenOf .dbg k 0 o 0 8 v
    let stuck (a : Ix) : Bool := s.exhausted (k * 256 + a.i)
    let refused := (match l.go Reg.dbgCoreCtlResume with | some a => stuck a | none => false) ||
      (match l.go Reg.dbgCoreCtlStep with | some a => stuck a | none => false)
    (s.blkStore rq .dbg k 0 o 0 8 v, if refused then 9 else 0, 0)

/-! ### JTAG -/

/-- A socket's JTAG port. -/
def State.jtag (s : State) (k : Nat) : Jtag := cellGet Jtag.idle s.jtags k

/-- A socket's JTAG port changed. -/
def State.updJtag (s : State) (k : Nat) (f : Jtag → Jtag) : State := { s with jtags := cellSet Jtag.idle s.jtags k (f (s.jtag k)) }

/-- Whether the port has its standby rails. -/
def State.jtagOn (s : State) (k : Nat) : Bool := (s.pw k).seq ≠ 1

/-- DBGACC_UPDATE: Update-DR with DBGACC selected; the access completes with the command (log entry 23). -/
def execDbgaccUpdate (k off : Nat) (write : Bool) (data : Nat) (s : State) : Host.Outcome State Fault Refusal :=
  .next (if s.jtagOn k then
    let r := s.dbgAcc .jtag k off write (data % 2 ^ 64)
    let dr := data % 2 ^ 64 + off % 2 ^ 23 * 2 ^ 64 + (if write then 2 ^ 87 else 0)
    r.1.updJtag k (fun j => { j with ir := 0x20, dr := dr, drive := 0, status := r.2.1, data := if write then none else some r.2.2 })
  else s)

/-- DBGACC_CAPTURE: Capture-DR with DBGACC selected loads the status and, after a read, the data. -/
def execDbgaccCapture (k : Nat) (s : State) : Host.Outcome State Fault Refusal :=
  .next (if s.jtagOn k then
    s.updJtag k (fun j =>
      let d := match j.data with | some v => v | none => j.dr % 2 ^ 64
      { j with ir := 0x20, dr := d + natBits j.dr 87 64 * 2 ^ 64 + j.status * 2 ^ 88, drive := 0 })
  else s)

/-- The identification register (R596). -/
def State.idcode (s : State) (k : Nat) : Nat :=
  natSetBits (match s.part k with | .eq256 => 0x0EC25F4B | .eq192 => 0x0EC19F4B | .eq128l => 0x0EC12F4B) 28 4
    (s.rd Reg.rootStep { sock := k })

/-- IDCODE: selects the identification register. -/
def execIdcode (k : Nat) (s : State) : Host.Outcome State Fault Refusal :=
  .next (if s.jtagOn k then s.updJtag k (fun j => { j with ir := 1, dr := s.idcode k, drive := 0 }) else s)

/-- SAMPLE_PRELOAD: the levels of the lands are captured, and the boundary register is loaded with `pre`. -/
def execSamplePreload (k pins pre : Nat) (s : State) : Host.Outcome State Fault Refusal :=
  .next (if s.jtagOn k then s.updJtag k (fun j => { j with ir := 2, dr := pins, pre := pre, drive := 0 }) else s)

/-- BYPASS: the one-bit bypass register, captured as 0. -/
def State.bypass (s : State) (k : Nat) : State := s.updJtag k (fun j => { j with ir := 0xFF, dr := 0, drive := 0 })

/-- An instruction that drives the lands acts only while the socket is held in cold reset; otherwise it acts as BYPASS (Table
DBUG-5). -/
def State.bscan (s : State) (k ir drive : Nat) (dr : Jtag → Nat) : State :=
  if !s.jtagOn k then s
  else if cellGet 0 s.down k = 3 || (s.pw k).seq = 2 then s.updJtag k (fun j => { j with ir := ir, dr := dr j, drive := drive })
  else s.bypass k

/-- EXTEST: the boundary register drives the lands and captures `pins`. -/
def execExtest (k pins : Nat) (s : State) : Host.Outcome State Fault Refusal := .next (s.bscan k 3 1 (fun _ => pins))

/-- CLAMP: the boundary register drives the lands, with the bypass register selected. -/
def execClamp (k : Nat) (s : State) : Host.Outcome State Fault Refusal := .next (s.bscan k 4 1 (fun _ => 0))

/-- HIGHZ: the lands are not driven, with the bypass register selected. -/
def execHighz (k : Nat) (s : State) : Host.Outcome State Fault Refusal := .next (s.bscan k 5 2 (fun _ => 0))

/-- BYPASS, and every instruction code that Table DBUG-5 does not list. -/
def execBypass (k : Nat) (s : State) : Host.Outcome State Fault Refusal := .next (if s.jtagOn k then s.bypass k else s)

/-! ### Management commands (R599, R600) -/

/-- A socket's management controller. -/
def State.mgc (s : State) (k : Nat) : Mgc := cellGet Mgc.idle s.mgcs k

/-- A socket's management controller changed. -/
def State.updMgc (s : State) (k : Nat) (f : Mgc → Mgc) : State := { s with mgcs := cellSet Mgc.idle s.mgcs k (f (s.mgc k)) }

/-- A request completes: the response replaces one not yet read, and the command is counted. -/
def State.respond (s : State) (k tag status : Nat) (l : List Byte) : State :=
  (s.bump Reg.pwrMgcCmds { sock := k }).updMgc k (fun m => { m with resp := some (status, tag % 256, l) })

/-- A request whose command is carried out by `f`, when the controller runs; one that needs the main rails completes POWERED without
them. -/
def State.mgcDo (s : State) (k tag : Nat) (needs : Bool) (f : State → State × Nat × List Byte) : State :=
  if !s.mgcUp k then s
  else if needs && !s.railsOn k then s.respond k tag 8 []
  else
    let r := f s
    r.1.respond k tag r.2.1 r.2.2

/-- A doubleword as response bytes. -/
def dwBytes (v : Nat) : List Byte := leBytes 8 v

/-- INFO: the root block's words 0x10 and 0x18, the CHIM.DISC word and the PWR.PKG word. -/
def execInfo (k tag : Nat) (s : State) : Host.Outcome State Fault Refusal :=
  .next (s.mgcDo k tag false (fun s => (s, 0,
    dwBytes (s.blkLoad .mgc .root k 0 0x10) ++ dwBytes (s.blkLoad .mgc .root k 0 0x18) ++
    dwBytes (s.blkLoad .mgc .chim k 0 Reg.chimDiscState.off) ++ dwBytes (s.blkLoad .mgc .pwr k 0 0x18))))

/-- IDENTITY: up to 240 bytes of the identity public key and certificate chain from an offset. -/
def execIdentity (k tag off : Nat) (s : State) : Host.Outcome State Fault Refusal :=
  .next (s.mgcDo k tag false (fun s => (s, 0,
    (List.range (min 240 (97 + chainLen k - off))).map (fun i => identityByte k (off + i)))))

/-- POWER_ON: a power-on request. -/
def execPowerOn (k tag : Nat) (s : State) : Host.Outcome State Fault Refusal :=
  .next (s.mgcDo k tag false (fun s => (s.powerOn k 5 0, 0, [])))

/-- POWER_OFF: a power-off request. -/
def execPowerOff (k tag : Nat) (s : State) : Host.Outcome State Fault Refusal :=
  .next (s.mgcDo k tag false (fun s => (s.powerOff k, 0, [])))

/-- RESET_COLD. -/
def execResetCold (k tag : Nat) (s : State) : Host.Outcome State Fault Refusal :=
  .next (s.mgcDo k tag false (fun s => (s.coldReset k false, 0, [])))

/-- RESET_WARM. -/
def execResetWarm (k tag : Nat) (s : State) : Host.Outcome State Fault Refusal :=
  .next (s.mgcDo k tag true (fun s => (s.warmReset k, 0, [])))

/-- STANDBY. -/
def execStandby (k tag : Nat) (s : State) : Host.Outcome State Fault Refusal :=
  .next (s.mgcDo k tag true (fun s => (s.standby k, 0, [])))

/-- The entry of the capability list with a block ID and instance. -/
def capById (id inst : Nat) : List (Option Blk × Nat × Nat × Nat) → Nat → Option CtlAt
  | [], _ => none
  | (b, id', n, pg) :: t, base =>
    if id' = id && n = inst then
      some { blk := b, id := id, inst := n, pages := pg, base := base, next := if t.isEmpty then 0 else base + pg * 4096 }
    else capById id inst t (base + pg * 4096)

/-- Whether a Stoker cell or root complex lacks power. -/
def State.unitOff (s : State) (k : Nat) (e : CtlAt) : Bool :=
  match e.blk with
  | some .stk => !(s.rd Reg.pwrUpwrStatStk { sock := k }).testBit e.inst
  | some .prc => !(s.rd Reg.pwrUpwrStatPrc { sock := k }).testBit e.inst
  | _ => false

/-- Whether a doubleword of the PMU block lies in a core's page or a Stoker channel's bank, which the controller may not read of a
Sealed partition (R574, R600). -/
def pmuSecret (o : Nat) : Bool := decide (0x100000 ≤ o) || (decide (0x20000 ≤ o) && decide (o < 0x28000) && decide (0x800 ≤ o % 0x1000))

/-- A read by the controller of a block's doubleword: the state, its status and value. -/
def State.mgcRead (s : State) (k id inst off : Nat) : State × Nat × Nat :=
  match capById id inst (capList (s.part k)) 0 with
  | none => (s, 7, 0)
  | some e =>
    if off % 8 ≠ 0 || e.pages * 4096 ≤ off then (s, 7, 0)
    else if s.unitOff k e then (s, 8, 0)
    else if e.blk = some .prc && decide (0x1000000 ≤ off) then (s.useFree, 0, s.freeNat 64)
    else if e.blk = some .dbg then
      let r := s.dbgAcc .mgc k off false 0
      (s, r.2.1, r.2.2)
    else if e.blk = some .pmu && pmuSecret off && s.dbgSealed k then (s, 3, 0)
    else (s, 0, s.ctlLoad .mgc k (e.base + off) 8)

/-- REG_READ: 8 bytes of a block; the status tells a refusal (Table DBUG-2). -/
def execRegRead (k tag id inst off : Nat) (s : State) : Host.Outcome State Fault Refusal :=
  .next (s.mgcDo k tag true (fun s =>
    let r := s.mgcRead k id inst off
    (r.1, r.2.1, dwBytes r.2.2)))

/-- A write by the controller of a block's doubleword, with its status. -/
def State.mgcWrite (s : State) (k id inst off v : Nat) : State × Nat :=
  match capById id inst (capList (s.part k)) 0 with
  | none => (s, 7)
  | some e =>
    if off % 8 ≠ 0 || e.pages * 4096 ≤ off then (s, 7)
    else if !mgcMay e off then (s, 9)
    else if s.unitOff k e then (s, 8)
    else match e.blk with
      | none => (s, 9)
      | some .dbg =>
        let r := s.dbgAcc .mgc k off true v
        (r.1, r.2.1)
      | some b =>
        if off < 16 || roWord b k e.inst off then (s, 7)
        else
          let l := writtenOf b k e.inst off 0 8 v
          let barred := l.any (fun w => decide (w.1.f.acc ≠ .ro) && decide (w.2.2 ≠ 0) && s.writeIgnored .mgc w.1.f w.1.ix)
          let s' := s.blkStore .mgc b k e.inst off 0 8 v
          let refused := ((l.go Reg.chimCfgGo).isSome && decide (s'.rd Reg.chimCfgCode { sock := k } ≠ 0)) ||
            ((l.val Reg.pwrUpwrStk).isSome && decide (s'.rd Reg.pwrUpwrRefused { sock := k } = 1))
          (s', if barred || refused then 9 else 0)

/-- REG_WRITE. -/
def execRegWrite (k tag id inst off v : Nat) (s : State) : Host.Outcome State Fault Refusal :=
  .next (s.mgcDo k tag true (fun s =>
    let r := s.mgcWrite k id inst off v
    (r.1, r.2, [])))

/-- The 64 bytes of an Ashpan entry. -/
def State.ashBytes (s : State) (k i : Nat) : List Byte :=
  (List.range 8).flatMap (fun j => dwBytes (s.rd Reg.ashEntry { sock := k, i := i, j := j }))

/-- ASH_READ: `n` entries, one to three, from MGC.ASHPTR, which moves past them and stops at WRPTR; a pointer at an entry overwritten
since goes to the oldest that survives (R600). -/
def execAshRead (k tag n : Nat) (s : State) : Host.Outcome State Fault Refusal :=
  .next (s.mgcDo k tag true (fun s =>
    let a : Ix := { sock := k }
    let o := s.ashOldest k
    let w := s.rd Reg.ashRingWrptr a
    let p := s.rd Reg.pwrMgcAshptr a
    let p := if (p + 4096 - o) % 4096 ≤ (w + 4096 - o) % 4096 then p else o
    if n = 0 || 3 < n then (s, 7, [])
    else
      let m := min n ((w + 4096 - p) % 4096)
      (s.wr Reg.pwrMgcAshptr a ((p + m) % 4096), 0, (List.range m).flatMap (fun i => s.ashBytes k ((p + i) % 4096)))))

/-- ASH_SAVED: a saved entry, or the summary at index 64. -/
def execAshSaved (k tag i : Nat) (s : State) : Host.Outcome State Fault Refusal :=
  .next (s.mgcDo k tag false (fun s =>
    if 64 < i then (s, 7, [])
    else (s, 0, (List.range 8).flatMap (fun j => dwBytes (if i = 64 then s.rd Reg.ashSummary { sock := k, i := j }
      else s.rd Reg.ashSaved { sock := k, i := i, j := j })))))

/-- ASH_NVCLR. -/
def execAshNvclr (k tag : Nat) (s : State) : Host.Outcome State Fault Refusal :=
  .next (s.mgcDo k tag false (fun s => (s.nvClr k, 0, [])))

/-- TELEMETRY: `n` doublewords of the PMU block's shadows, one to thirty; pages of a Sealed partition read zero with SEALED (R600). -/
def execTelemetry (k tag off n : Nat) (s : State) : Host.Outcome State Fault Refusal :=
  .next (s.mgcDo k tag true (fun s =>
    if off % 8 ≠ 0 || n = 0 || 30 < n || 768 * 4096 < off + 8 * n then (s, 7, [])
    else
      let l := (List.range n).map (fun i => s.mgcRead k 0x90 0 (off + 8 * i))
      (s, if l.any (fun r => r.2.1 = 3) then 3 else 0, l.flatMap (fun r => dwBytes r.2.2))))

/-- THERMAL: the DAMP.STAT word and the hottest sensor of each tile, compute tiles first, then west and east, a byte each; the model holds
no sensors, so their readings are left open (log entry 1). -/
def execThermal (k tag : Nat) (s : State) : Host.Outcome State Fault Refusal :=
  .next (s.mgcDo k tag true (fun s => (s.useFree, 0, dwBytes (s.blkLoad .mgc .pwr k 0 0x28) ++ s.freeBytes 10)))

/-- DEBUG: an access to the DBG block as through DBGACC; the response holds its status and data. -/
def execDebug (k tag off : Nat) (write : Bool) (data : Nat) (s : State) : Host.Outcome State Fault Refusal :=
  .next (s.mgcDo k tag true (fun s =>
    let r := s.dbgAcc .mgc k off write (data % 2 ^ 64)
    (r.1, r.2.1, BitVec.ofNat 8 r.2.1 :: dwBytes r.2.2)))

/-! ### In-band interrupts and common commands of I3C (R598, R601) -/

/-- Whether the controller is an I3C target that runs. -/
def State.i3cOn (s : State) (k : Nat) : Bool := s.mgcUp k && decide (s.rd Reg.pwrMgcStatI3c { sock := k } = 1)

/-- The controller's dynamic address, 0 for none. -/
def State.dynAddr (s : State) (k : Nat) : Nat := s.rd Reg.pwrMgcStatDynaddr { sock := k }

/-- MGC_IBI: the reason that has waited longest goes out as an in-band interrupt of one byte; SMBus has none. -/
def execMgcIbi (k : Nat) (s : State) : Host.Outcome State Fault Refusal :=
  .next (
    match s.ibi.find? (fun e => e.1 = k) with
    | none => s
    | some e =>
      if s.i3cOn k && s.dynAddr k ≠ 0 && !(s.mgc k).evOff then
        ({ s with ibi := s.ibi.erase e } : State).updMgc k (fun m => { m with sent := some e.2 })
      else s)

/-- RSTDAA: the dynamic address is dropped. -/
def execRstdaa (k : Nat) (s : State) : Host.Outcome State Fault Refusal :=
  .next (if s.i3cOn k then s.wr Reg.pwrMgcStatDynaddr { sock := k } 0 else s)

/-- A dynamic address given to a target that has none. -/
def State.setDyn (s : State) (k addr : Nat) : State :=
  if s.i3cOn k && s.dynAddr k = 0 then s.wr Reg.pwrMgcStatDynaddr { sock := k } (addr % 128) else s

/-- ENTDAA: the target takes part in address assignment and is given `addr`. -/
def execEntdaa (k addr : Nat) (s : State) : Host.Outcome State Fault Refusal := .next (s.setDyn k addr)

/-- SETDASA: the target with the static address named, 0x3A, takes the dynamic address. -/
def execSetdasa (k static' addr : Nat) (s : State) : Host.Outcome State Fault Refusal :=
  .next (if static' = 0x3A then s.setDyn k addr else s)

/-- The answer of a target with a dynamic address to a directed common command. -/
def State.answer (s : State) (k : Nat) (l : List Byte) : State :=
  if s.i3cOn k && s.dynAddr k ≠ 0 then s.updMgc k (fun m => { m with ccc := l }) else s

/-- The provisional ID (Table DBUG-6). -/
def State.pid (s : State) (k : Nat) : Nat :=
  let p := match s.part k with | .eq256 => 0xEC25 | .eq192 => 0xEC19 | .eq128l => 0xEC12
  s.rd Reg.rootSocket { sock := k } + (i3cOpen 1 k).toNat / 2 ^ 10 * 2 ^ 10 + p * 2 ^ 16 + (i3cOpen 1 k).toNat % 2 * 2 ^ 32 +
    (i3cOpen 0 k).toNat % 2 ^ 15 * 2 ^ 33

/-- GETPID: the provisional ID, highest byte first. -/
def execGetpid (k : Nat) (s : State) : Host.Outcome State Fault Refusal := .next (s.answer k (leBytes 6 (s.pid k)).reverse)

/-- GETBCR: the bus characteristics. -/
def execGetbcr (k : Nat) (s : State) : Host.Outcome State Fault Refusal := .next (s.answer k (leBytes 1 (i3cOpen 2 k).toNat))

/-- GETDCR: the device characteristics. -/
def execGetdcr (k : Nat) (s : State) : Host.Outcome State Fault Refusal := .next (s.answer k (leBytes 1 (i3cOpen 3 k).toNat))

/-- GETSTATUS: two bytes, whose value the spec does not state (log entry 1). -/
def execGetstatus (k : Nat) (s : State) : Host.Outcome State Fault Refusal := .next ((s.answer k (s.freeBytes 2)).useFree)

/-- ENEC: the target's events are enabled. -/
def execEnec (k : Nat) (s : State) : Host.Outcome State Fault Refusal :=
  .next (if s.i3cOn k then s.updMgc k (fun m => { m with evOff := false }) else s)

/-- DISEC: the target's events are disabled. -/
def execDisec (k : Nat) (s : State) : Host.Outcome State Fault Refusal :=
  .next (if s.i3cOn k then s.updMgc k (fun m => { m with evOff := true }) else s)

end Sys2Proof.Machine
end

