-- ==== Sys2Proof/Machine/Intr.lean ====
section
/-!
DEFINITION. Machine/Intr.lean: what happens to a core from outside its instructions: event entry, interrupts, timers, draining stores,
prefetches, predictor upkeep, completions from devices (R171-R182, R196, R204, R210, R219, R222, R490); and the writes of control space
that have a row of their own.
-/
namespace Sys2Proof.Machine

/-! ### Events and interrupts -/

/-- EVENT_ENTRY: at the boundary before the next instruction the core takes what is due: a pending arithmetic exception ahead of an
asynchronous event, a machine check, or an interrupt, whose window opens (R162, R171, R176).  Synchronous events are entered by the
instruction that raises them. -/
def execEventEntry (c : Nat) (s : State) : Host.Outcome State Fault Refusal :=
  .next (if s.canRun c then
    match s.boundary c with
    | .took s' => s'.stepDone c
    | _ => s
  else s)

/-- INTERRUPT_TAKEOVER: vector `v` takes over the entry whose window is open, if its priority is higher (R176). -/
def execInterruptTakeover (c v : Nat) (s : State) : Host.Outcome State Fault Refusal := .next (s.takeover c (v % 256))

/-- ENTRY_WINDOW_COMMIT: clock 8 of the window (R176); an entry whose frame's line is held waits. -/
def execEntryWindowCommit (c : Nat) (s : State) : Host.Outcome State Fault Refusal := .next ((s.commitWin c).getD s)

/-- Whether the device makes the deadline of a core's own SR.TCMP good now (R180). -/
def tcmpDue (now : Nat) (t : Word) : Bool := decide (t ≠ 0) && decide (t.toNat ≤ now)

/-- A seat's deadline: its vector pending for the instance at this core (R180, R154). -/
def State.seatTimer (s : State) (c : Nat) (w : Nat × Nat) : State :=
  let v := s.rd Reg.ihubSysvecTimer { sock := coreSock c }
  let s := s.setSr c SR.TCMP 0
  if v < 16 then s.bump Reg.ihubDropMsg { sock := coreSock c }
  else s.updCore c (fun k => if k.vpend.contains (w.1, v) then k else { k with vpend := k.vpend ++ [(w.1, v)] })

/-- TIMER_COMPARE: SR.TIME has reached a core's SR.TCMP, or its seat's; the vector becomes pending and TCMP zero (R180). -/
def execTimerCompare (c : Nat) (s : State) : Host.Outcome State Fault Refusal :=
  .next (
    let k := coreSock c
    if !s.outOfReset c then s
    else
      let s := if tcmpDue (s.now k) ((s.core c).srOwn SR.TCMP) then
          (s.updCore c (fun q => q.setSrOwn SR.TCMP 0)).sysVector k (coreLog c) (s.rd Reg.ihubSysvecTimer { sock := k })
        else s
      match (s.core c).world with
      | none => s
      | some w => if tcmpDue (s.now k) (s.sr c SR.TCMP) then s.seatTimer c w else s)

/-- Whether a broadcast IPI reaches a logical core: it exists, is out of reset, not lost and no checker (R179). -/
def State.ipiTarget (s : State) (i : Ipi) (l : Nat) : Bool :=
  s.coreThere i.sock l && s.outOfReset (i.sock * 256 + l) && decide (i.skip ≠ some (i.sock * 256 + l))

/-- IPI_RECEIVE: the oldest inter-processor interrupt on its way to a socket arrives at its IHUB (R179). -/
def execIpiReceive (k : Nat) (s : State) : Host.Outcome State Fault Refusal :=
  .next (
    match s.ipis.find? (fun i => i.sock = k) with
    | none => s
    | some i =>
      if !s.live k then s
      else
        let s := { s with ipis := s.ipis.erase i }
        match i.core with
        | some l => if s.coreThere k l then s.setPend (k * 256 + l) i.vector else s
        | none => ((List.range 256).filter (s.ipiTarget i)).foldl (fun s l => s.setPend (k * 256 + l) i.vector) s)

/-- MSG_INTERRUPT: a message naming routing index `i` arrives at a socket's IHUB (R182). -/
def execMsgInterrupt (k i : Nat) (s : State) : Host.Outcome State Fault Refusal := .next (if s.live k then s.msgInt k i else s)

/-- TPRI_WRITE: the threshold of a core set, from this store on (R175). -/
def execTpriWrite (c v : Nat) (s : State) : Host.Outcome State Fault Refusal :=
  .next (if s.live (coreSock c) && coreLog c < (s.part (coreSock c)).cores then s.wr Reg.ihubCoreTpri (coreIx c) (v % 16) else s)

/-- HARDEN_WRITE: CFG.HARDEN of a core set; in a Sealed partition it is ignored; it takes effect at the core's next serialising
instruction or event entry (R204). -/
def execHardenWrite (c : Nat) (v : Bool) (s : State) : Host.Outcome State Fault Refusal :=
  .next (if s.live (coreSock c) && coreLog c < (s.part (coreSock c)).cores && !s.isSealed (coreSock c) then
    s.wr Reg.coreCfgHarden (coreIx c) (if v then 1 else 0) else s)

/-! ### Stores, prefetches, the predictor -/

/-- The stores at the front of a queue that merge with its first: those to the same line with none to another between (R196). -/
def mergeRun : List StoreEnt → List StoreEnt
  | [] => []
  | e :: t => e :: t.takeWhile (fun x => lineOf x.pa = lineOf e.pa)

/-- STORE_DRAIN: the oldest retired store of a core, merged with those that follow it to its line, is performed in its L2, unless the line
must wait (R196).  `err` is the error its line meets there: 0 none, 3 one bit, 4 two bits (R197). -/
def execStoreDrain (c err : Nat) (s : State) : Host.Outcome State Fault Refusal :=
  .next (
    match (s.core c).storeQ with
    | [] => s
    | e :: _ =>
      let q := (s.core c).storeQ
      let n := (mergeRun q).length
      if (s.core c).frozen || !s.outOfReset c then s
      else match (if err = 3 || err = 4 then s.l2Err c e.pa (err = 4) else s).drainList c (q.take n) with
        | (s', []) =>
          let m := if s'.rd Reg.dbgCoreStatHalted (coreIx c) = 1 then 0 else n - 1
          s'.updCore c (fun k => { k with storeQ := q.drop n }.count 183 m)
        | (_, _ :: _) => s)

/-- HW_PREFETCH: the L1D stride prefetcher prefetches the line of `va`, or when `stream` the L2 stream prefetcher the line its distance
ahead of `va`, in the same 4 KiB page (R206, R210). -/
def execHwPrefetch (c : Nat) (stream : Bool) (va : Word) (s : State) : Host.Outcome State Fault Refusal :=
  .next (
    let f := if stream then Reg.coreCfgL2pf else Reg.coreCfgL1pf
    let t := if stream then va + BitVec.ofNat 64 (64 * max 1 (s.rd Reg.coreCfgL2pfdist (coreIx c))) else va
    if !s.outOfReset c || !s.awake c || (s.core c).frozen || s.rd f (coreIx c) = 0 || t >>> 12 ≠ va >>> 12 then s
    else match s.prefetchTry c (if stream then 1 else 0) t with
      | some s' => s'.updCore c (fun k => k.count (if stream then 186 else 185) 1)
      | none => s)

/-- CONTEXT_SWEEP_DONE: the entries of the freed context number are gone, and it is assigned to the context that waits (R222). -/
def execContextSweepDone (c : Nat) (s : State) : Host.Outcome State Fault Refusal :=
  .next (
    match (s.core c).pred.sweeping with
    | none => s
    | some n =>
      (s.updCore c (fun k => { k with pred := k.pred.sweep n })).ctxEval c)

/-- USEFULNESS_DECAY: after 512 Ki retired conditional branches every usefulness field is halved (R219). -/
def execUsefulnessDecay (c : Nat) (s : State) : Host.Outcome State Fault Refusal :=
  .next (
    if (s.core c).pred.condRetired < 2 ^ 19 then s
    else s.updCore c (fun k => { k with pred := k.pred.decay }))

/-! ### Completions from devices -/

/-- DEVICE_COMPLETION: the completion of the load that core `c` waits for comes back through port `j`, once the request is not held for the
link and every posted write received on the port before is performed; from a contained port the load returns all ones, counted and
recorded (R490, R494, R495). -/
def execDeviceCompletion (c j data : Nat) (s : State) : Host.Outcome State Fault Refusal :=
  .next (
    match (s.core c).devWait with
    | none => s
    | some w =>
      let h := w.prc / 4
      let n := w.prc % 4
      let p := s.prc h n
      if j ≠ w.port || p.held.contains (j, c) || p.parts.any (fun (x : DmaPart) => x.write && x.port = j) then s else
      let s0 := s
      let bad := s.rd Reg.prcPortLinkContained (portIx h n j) = 1
      let s := if bad then
          (s.bump Reg.prcErrMmioabort (prcIx h n)).prcAsh h n 5 0x07 0 0 j 7
        else s
      let v := extend (leBytes w.size (if bad then 2 ^ 64 - 1 else data)) w.signed
      (s.updCore c (fun k => { k with devWait := none }.setG w.dest v)).retireInstr c w.next |>.getD s0)

/-! ### Writes of control space with a row of their own -/

/-- STRIPE_VALID_WRITE: STRIPE.VALID written; when set, the region is checked and VALID forced to 0 on failure (R295). -/
def execStripeValidWrite (k r : Nat) (v : Bool) (s : State) : Host.Outcome State Fault Refusal :=
  .next (
    if !s.live k || cellGet false s.locked (regKey Reg.hrthStripeValid { sock := k, i := r }) then s
    else
      let s := s.fieldWrite Reg.hrthStripeValid { sock := k, i := r } (if v then 1 else 0) 1
      if v then s.stripeCheck k r else s)

/-- ARB_COMMIT_GO: COMMIT.GO written 1 (R340). -/
def execArbCommitGo (k : Nat) (s : State) : Host.Outcome State Fault Refusal := .next (if s.live k then s.commitGo k else s)

/-- CFG_GO: CHIM.CFG.GO written 1 (R391). -/
def execCfgGo (k : Nat) (s : State) : Host.Outcome State Fault Refusal := .next (if s.live k then s.cfgGo k else s)

/-- FLUE_RESTORE: CTL.RESTORE written 1 (R380). -/
def execFlueRestore (k n : Nat) (s : State) : Host.Outcome State Fault Refusal := .next (if s.live k then s.flueRestore k n else s)

end Sys2Proof.Machine
end

