-- ==== Sys2Proof/Machine/Dispatch.lean ====
section
/-!
DEFINITION. Machine/Dispatch.lean: which meaning each command has.
-/
namespace Sys2Proof.Machine

def exec (i : Instr) (s : State) : Host.Outcome State Fault Refusal :=
  match i with
  | .controlRegWrite rq k off size val => Sys2Proof.Machine.execControlRegWrite rq k off size val s
  | .shadowCommitArrival b k inst => Sys2Proof.Machine.execShadowCommitArrival b k inst s
  | .intOp c f3 f6 a b d => Sys2Proof.Machine.execIntOp c f3 f6 a b d s
  | .div c f3 f6 a b d => Sys2Proof.Machine.execDiv c f3 f6 a b d s
  | .crc c f3 f6 a b d => Sys2Proof.Machine.execCrc c f3 f6 a b d s
  | .immOp c op a b imm => Sys2Proof.Machine.execImmOp c op a b imm s
  | .shiftImm c f3 sub a b shamt => Sys2Proof.Machine.execShiftImm c f3 sub a b shamt s
  | .addiw c a b imm => Sys2Proof.Machine.execAddiw c a b imm s
  | .lui c a imm => Sys2Proof.Machine.execLui c a imm s
  | .addpc c a imm => Sys2Proof.Machine.execAddpc c a imm s
  | .extu c a b pos lenM1 => Sys2Proof.Machine.execExtu c a b pos lenM1 s
  | .exts c a b pos lenM1 => Sys2Proof.Machine.execExts c a b pos lenM1 s
  | .ins c a b pos lenM1 => Sys2Proof.Machine.execIns c a b pos lenM1 s
  | .sel c f3 f1 a b d e => Sys2Proof.Machine.execSel c f3 f1 a b d e s
  | .li c a imm => Sys2Proof.Machine.execLi c a imm s
  | .liu c a imm => Sys2Proof.Machine.execLiu c a imm s
  | .lih c a imm => Sys2Proof.Machine.execLih c a imm s
  | .addiL c a imm => Sys2Proof.Machine.execAddiL c a imm s
  | .addpcL c a imm => Sys2Proof.Machine.execAddpcL c a imm s
  | .dadd c f6 a b d => Sys2Proof.Machine.execDadd c f6 a b d s
  | .dsub c f6 a b d => Sys2Proof.Machine.execDsub c f6 a b d s
  | .dmul c sc a b d => Sys2Proof.Machine.execDmul c sc a b d s
  | .ddiv c sc a b d => Sys2Proof.Machine.execDdiv c sc a b d s
  | .dresc c k a b => Sys2Proof.Machine.execDresc c k a b s
  | .ld c f3 a b imm err => Sys2Proof.Machine.execLd c f3 a b imm err s
  | .st c f3 a b imm => Sys2Proof.Machine.execSt c f3 a b imm s
  | .ldx c f3 f6 a b d => Sys2Proof.Machine.execLdx c f3 f6 a b d s
  | .stx c f3 f6 a b d => Sys2Proof.Machine.execStx c f3 f6 a b d s
  | .lda c f3 a b imm => Sys2Proof.Machine.execLda c f3 a b imm s
  | .stl c f3 a b imm => Sys2Proof.Machine.execStl c f3 a b imm s
  | .pref c f3 hint b imm => Sys2Proof.Machine.execPref c f3 hint b imm s
  | .ldL c f3 a b imm => Sys2Proof.Machine.execLdL c f3 a b imm s
  | .stL c f3 a b imm => Sys2Proof.Machine.execStL c f3 a b imm s
  | .bcc c f3 b d imm => Sys2Proof.Machine.execBcc c f3 b d imm s
  | .bccL c f3 a b imm => Sys2Proof.Machine.execBccL c f3 a b imm s
  | .jmp c imm => Sys2Proof.Machine.execJmp c imm s
  | .call c imm => Sys2Proof.Machine.execCall c imm s
  | .jmpr c b => Sys2Proof.Machine.execJmpr c b s
  | .callr c b => Sys2Proof.Machine.execCallr c b s
  | .ret c b => Sys2Proof.Machine.execRet c b s
  | .trap c imm => Sys2Proof.Machine.execTrap c imm s
  | .brk c imm => Sys2Proof.Machine.execBrk c imm s
  | .cMov c a b => Sys2Proof.Machine.execCMov c a b s
  | .cAdd c a b => Sys2Proof.Machine.execCAdd c a b s
  | .cSub c a b => Sys2Proof.Machine.execCSub c a b s
  | .cAnd c a b => Sys2Proof.Machine.execCAnd c a b s
  | .cOr c a b => Sys2Proof.Machine.execCOr c a b s
  | .cXor c a b => Sys2Proof.Machine.execCXor c a b s
  | .cAddi c a imm => Sys2Proof.Machine.execCAddi c a imm s
  | .cLi c a imm => Sys2Proof.Machine.execCLi c a imm s
  | .cSlli c a imm => Sys2Proof.Machine.execCSlli c a imm s
  | .cSrli c a imm => Sys2Proof.Machine.execCSrli c a imm s
  | .cSrai c a imm => Sys2Proof.Machine.execCSrai c a imm s
  | .cLdk c a imm => Sys2Proof.Machine.execCLdk c a imm s
  | .cStk c a imm => Sys2Proof.Machine.execCStk c a imm s
  | .cBeqz c a imm => Sys2Proof.Machine.execCBeqz c a imm s
  | .cBnez c a imm => Sys2Proof.Machine.execCBnez c a imm s
  | .cJ c imm => Sys2Proof.Machine.execCJ c imm s
  | .cRet c => Sys2Proof.Machine.execCRet c s
  | .cBrk c => Sys2Proof.Machine.execCBrk c s
  | .cFenceX c => Sys2Proof.Machine.execCFenceX c s
  | .fadd c rm prec a b d => Sys2Proof.Machine.execFadd c rm prec a b d s
  | .fsub c rm prec a b d => Sys2Proof.Machine.execFsub c rm prec a b d s
  | .fmul c rm prec a b d => Sys2Proof.Machine.execFmul c rm prec a b d s
  | .fdiv c rm prec a b d => Sys2Proof.Machine.execFdiv c rm prec a b d s
  | .fmin c rm prec a b d => Sys2Proof.Machine.execFmin c rm prec a b d s
  | .fmax c rm prec a b d => Sys2Proof.Machine.execFmax c rm prec a b d s
  | .fsqrt c rm prec a b => Sys2Proof.Machine.execFsqrt c rm prec a b s
  | .fmadd c f3 f1 a b d e => Sys2Proof.Machine.execFmadd c f3 f1 a b d e s
  | .feq c prec a b d => Sys2Proof.Machine.execFeq c prec a b d s
  | .fun c prec a b d => Sys2Proof.Machine.execFun c prec a b d s
  | .flt c prec a b d => Sys2Proof.Machine.execFlt c prec a b d s
  | .fle c prec a b d => Sys2Proof.Machine.execFle c prec a b d s
  | .fltq c prec a b d => Sys2Proof.Machine.execFltq c prec a b d s
  | .fleq c prec a b d => Sys2Proof.Machine.execFleq c prec a b d s
  | .fcvt c rm dst src a b => Sys2Proof.Machine.execFcvt c rm dst src a b s
  | .fmvVg c a b => Sys2Proof.Machine.execFmvVg c a b s
  | .fmvGv c a b => Sys2Proof.Machine.execFmvGv c a b s
  | .fclass c prec a b => Sys2Proof.Machine.execFclass c prec a b s
  | .fabs c prec a b => Sys2Proof.Machine.execFabs c prec a b s
  | .fneg c prec a b => Sys2Proof.Machine.execFneg c prec a b s
  | .fnabs c prec a b => Sys2Proof.Machine.execFnabs c prec a b s
  | .fcpys c prec a b d => Sys2Proof.Machine.execFcpys c prec a b d s
  | .vint c f3 a b d e msk ew zm f11 => Sys2Proof.Machine.execVint c f3 a b d e msk ew zm f11 s
  | .vcmp c f3 a b d e msk ew zm f11 => Sys2Proof.Machine.execVcmp c f3 a b d e msk ew zm f11 s
  | .vfp c f3 a b d e msk ew zm f11 => Sys2Proof.Machine.execVfp c f3 a b d e msk ew zm f11 s
  | .vfmadd c a b d e msk ew zm f11 => Sys2Proof.Machine.execVfmadd c a b d e msk ew zm f11 s
  | .vld c f3 a b d msk ew zm imm => Sys2Proof.Machine.execVld c f3 a b d msk ew zm imm s
  | .vst c f3 a b d msk ew zm imm => Sys2Proof.Machine.execVst c f3 a b d msk ew zm imm s
  | .vperm c a b d e msk ew zm => Sys2Proof.Machine.execVperm c a b d e msk ew zm s
  | .vperm2 c a b d e msk ew zm => Sys2Proof.Machine.execVperm2 c a b d e msk ew zm s
  | .vcompress c a b d e msk ew zm => Sys2Proof.Machine.execVcompress c a b d e msk ew zm s
  | .vexpand c a b d e msk ew zm => Sys2Proof.Machine.execVexpand c a b d e msk ew zm s
  | .vslideup c a b d e msk ew zm => Sys2Proof.Machine.execVslideup c a b d e msk ew zm s
  | .vslidedn c a b d e msk ew zm => Sys2Proof.Machine.execVslidedn c a b d e msk ew zm s
  | .vrev c a b d e msk ew zm => Sys2Proof.Machine.execVrev c a b d e msk ew zm s
  | .vunpk c a b d e msk ew zm => Sys2Proof.Machine.execVunpk c a b d e msk ew zm s
  | .vpack c a b d e msk ew zm => Sys2Proof.Machine.execVpack c a b d e msk ew zm s
  | .vcrc c a b d e msk ew zm => Sys2Proof.Machine.execVcrc c a b d e msk ew zm s
  | .vredInt c f11 a b msk ew zm => Sys2Proof.Machine.execVredInt c f11 a b msk ew zm s
  | .vredFp c f11 a b msk ew zm => Sys2Proof.Machine.execVredFp c f11 a b msk ew zm s
  | .maskLogic c f11 a b d msk => Sys2Proof.Machine.execMaskLogic c f11 a b d msk s
  | .mtog c a b msk => Sys2Proof.Machine.execMtog c a b msk s
  | .gtom c a b msk => Sys2Proof.Machine.execGtom c a b msk s
  | .mpopc c a b msk => Sys2Proof.Machine.execMpopc c a b msk s
  | .mfirst c a b msk => Sys2Proof.Machine.execMfirst c a b msk s
  | .vbcastG c a b msk ew zm => Sys2Proof.Machine.execVbcastG c a b msk ew zm s
  | .vins c a b ln msk ew zm => Sys2Proof.Machine.execVins c a b ln msk ew zm s
  | .vext c a b ln msk ew zm => Sys2Proof.Machine.execVext c a b ln msk ew zm s
  | .vmov c a b msk ew zm => Sys2Proof.Machine.execVmov c a b msk ew zm s
  | .vzero c a msk ew zm => Sys2Proof.Machine.execVzero c a msk ew zm s
  | .hatom c f3 f6 a b d => Sys2Proof.Machine.execHatom c f3 f6 a b d s
  | .hcas c f3 f1 a b d e => Sys2Proof.Machine.execHcas c f3 f1 a b d e s
  | .atomBegin c a => Sys2Proof.Machine.execAtomBegin c a s
  | .atomAdd c b => Sys2Proof.Machine.execAtomAdd c b s
  | .atomCommit c a => Sys2Proof.Machine.execAtomCommit c a s
  | .atomAbort c b => Sys2Proof.Machine.execAtomAbort c b s
  | .regionLong c => Sys2Proof.Machine.execRegionLong c s
  | .fenceLl c => Sys2Proof.Machine.execFenceLl c s
  | .fenceLs c => Sys2Proof.Machine.execFenceLs c s
  | .fenceSl c => Sys2Proof.Machine.execFenceSl c s
  | .fenceSs c => Sys2Proof.Machine.execFenceSs c s
  | .fenceFull c => Sys2Proof.Machine.execFenceFull c s
  | .fenceIo c => Sys2Proof.Machine.execFenceIo c s
  | .fenceGlobal c => Sys2Proof.Machine.execFenceGlobal c s
  | .fenceX c => Sys2Proof.Machine.execFenceX c s
  | .iflush c => Sys2Proof.Machine.execIflush c s
  | .cclean c b => Sys2Proof.Machine.execCclean c b s
  | .cflush c b => Sys2Proof.Machine.execCflush c b s
  | .cinval c b => Sys2Proof.Machine.execCinval c b s
  | .czero c b => Sys2Proof.Machine.execCzero c b s
  | .swclean c b => Sys2Proof.Machine.execSwclean c b s
  | .swflush c b => Sys2Proof.Machine.execSwflush c b s
  | .tlbiVa c scope b d => Sys2Proof.Machine.execTlbiVa c scope b d s
  | .tlbiSid c scope d => Sys2Proof.Machine.execTlbiSid c scope d s
  | .tlbiVm c scope d => Sys2Proof.Machine.execTlbiVm c scope d s
  | .tlbiIpa c scope b d => Sys2Proof.Machine.execTlbiIpa c scope b d s
  | .tlbiAll c scope => Sys2Proof.Machine.execTlbiAll c scope s
  | .tlbiForward k id => Sys2Proof.Machine.execTlbiForward k id s
  | .tlbiTargetAck k id t => Sys2Proof.Machine.execTlbiTargetAck k id t s
  | .tlbiSocketAck k id => Sys2Proof.Machine.execTlbiSocketAck k id s
  | .tlbiComplete c id => Sys2Proof.Machine.execTlbiComplete c id s
  | .srd c a n => Sys2Proof.Machine.execSrd c a n s
  | .swr c a n => Sys2Proof.Machine.execSwr c a n s
  | .swrAuth c a => Sys2Proof.Machine.execSwrAuth c a s
  | .swrKrights c hi a => Sys2Proof.Machine.execSwrKrights c hi a s
  | .swrTcmp c a => Sys2Proof.Machine.execSwrTcmp c a s
  | .swrXlatctl c a => Sys2Proof.Machine.execSwrXlatctl c a s
  | .swrPmsel c a => Sys2Proof.Machine.execSwrPmsel c a s
  | .pmdataRead c a => Sys2Proof.Machine.execPmdataRead c a s
  | .kdrop c b => Sys2Proof.Machine.execKdrop c b s
  | .kdropLo c b => Sys2Proof.Machine.execKdropLo c b s
  | .kdropHi c b => Sys2Proof.Machine.execKdropHi c b s
  | .gate c b => Sys2Proof.Machine.execGate c b s
  | .gentry c => Sys2Proof.Machine.execGentry c s
  | .gret c => Sys2Proof.Machine.execGret c s
  | .gretEv c => Sys2Proof.Machine.execGretEv c s
  | .wait c a b => Sys2Proof.Machine.execWait c a b s
  | .waitBanked c a b => Sys2Proof.Machine.execWaitBanked c a b s
  | .waitCold c a b => Sys2Proof.Machine.execWaitCold c a b s
  | .coreWake c => Sys2Proof.Machine.execCoreWake c s
  | .sleepGateClosed c => Sys2Proof.Machine.execSleepGateClosed c s
  | .attest c => Sys2Proof.Machine.execAttest c s
  | .vreport c => Sys2Proof.Machine.execVreport c s
  | .stkkey c => Sys2Proof.Machine.execStkkey c s
  | .vcreate c => Sys2Proof.Machine.execVcreate c s
  | .vadd c => Sys2Proof.Machine.execVadd c s
  | .vseal c => Sys2Proof.Machine.execVseal c s
  | .vdestroy c => Sys2Proof.Machine.execVdestroy c s
  | .vassign c sw => Sys2Proof.Machine.execVassign c sw s
  | .vrelease c => Sys2Proof.Machine.execVrelease c s
  | .vreclaim c => Sys2Proof.Machine.execVreclaim c s
  | .vrestart c => Sys2Proof.Machine.execVrestart c s
  | .secRequestBadOp c => Sys2Proof.Machine.execSecRequestBadOp c s
  | .unitWorkStopped k u => Sys2Proof.Machine.execUnitWorkStopped k u s
  | .unitResetComplete k u => Sys2Proof.Machine.execUnitResetComplete k u s
  | .unitResetTimeout k u => Sys2Proof.Machine.execUnitResetTimeout k u s
  | .unitRoutesRewritten k u => Sys2Proof.Machine.execUnitRoutesRewritten k u s
  | .viKick c n => Sys2Proof.Machine.execViKick c n s
  | .vaultWatchdogExpiry k n => Sys2Proof.Machine.execVaultWatchdogExpiry k n s
  | .vaultRestart k n => Sys2Proof.Machine.execVaultRestart k n s
  | .vaultSeatAbandon c => Sys2Proof.Machine.execVaultSeatAbandon c s
  | .vaultUnitsReset k n => Sys2Proof.Machine.execVaultUnitsReset k n s
  | .vaultDataCleared k n => Sys2Proof.Machine.execVaultDataCleared k n s
  | .vaultDigestCheck k n => Sys2Proof.Machine.execVaultDigestCheck k n s
  | .eventEntry c => Sys2Proof.Machine.execEventEntry c s
  | .interruptTakeover c v => Sys2Proof.Machine.execInterruptTakeover c v s
  | .entryWindowCommit c => Sys2Proof.Machine.execEntryWindowCommit c s
  | .postedAtomicFailed c => Sys2Proof.Machine.execPostedAtomicFailed c s
  | .timerCompare c => Sys2Proof.Machine.execTimerCompare c s
  | .ipiSend c a => Sys2Proof.Machine.execIpiSend c a s
  | .ipiReceive k => Sys2Proof.Machine.execIpiReceive k s
  | .msgInterrupt k n => Sys2Proof.Machine.execMsgInterrupt k n s
  | .tpriWrite c v => Sys2Proof.Machine.execTpriWrite c v s
  | .storeDrain c err => Sys2Proof.Machine.execStoreDrain c err s
  | .hwPrefetch c stream va => Sys2Proof.Machine.execHwPrefetch c stream va s
  | .hardenWrite c v => Sys2Proof.Machine.execHardenWrite c v s
  | .contextSweepDone c => Sys2Proof.Machine.execContextSweepDone c s
  | .usefulnessDecay c => Sys2Proof.Machine.execUsefulnessDecay c s
  | .fenceRecoveryTimeout c => Sys2Proof.Machine.execFenceRecoveryTimeout c s
  | .regionRecoveryTimeout c => Sys2Proof.Machine.execRegionRecoveryTimeout c s
  | .actionEndAbandon k h => Sys2Proof.Machine.execActionEndAbandon k h s
  | .rds c pa ev vic => Sys2Proof.Machine.execRds c pa ev vic s
  | .rd c pa ev vic => Sys2Proof.Machine.execRd c pa ev vic s
  | .rdo c pa ev vic => Sys2Proof.Machine.execRdo c pa ev vic s
  | .upg c pa => Sys2Proof.Machine.execUpg c pa s
  | .own c pa => Sys2Proof.Machine.execOwn c pa s
  | .rdu f pa => Sys2Proof.Machine.execRdu f pa s
  | .wru f pa bytes => Sys2Proof.Machine.execWru f pa bytes s
  | .hat c pa op wide posted x => Sys2Proof.Machine.execHat c pa op wide posted x s
  | .cmo c pa kind => Sys2Proof.Machine.execCmo c pa kind s
  | .lockx c pa => Sys2Proof.Machine.execLockx c pa s
  | .wb c pa keep => Sys2Proof.Machine.execWb c pa keep s
  | .ev c pa => Sys2Proof.Machine.execEv c pa s
  | .unlock c pa => Sys2Proof.Machine.execUnlock c pa s
  | .flushb h d => Sys2Proof.Machine.execFlushb h d s
  | .snps d pa => Sys2Proof.Machine.execSnps d pa s
  | .snpi d pa => Sys2Proof.Machine.execSnpi d pa s
  | .snpx d pa => Sys2Proof.Machine.execSnpx d pa s
  | .snpr d pa => Sys2Proof.Machine.execSnpr d pa s
  | .snpc d pa => Sys2Proof.Machine.execSnpc d pa s
  | .dataS f pa => Sys2Proof.Machine.execDataS f pa s
  | .dataE f pa => Sys2Proof.Machine.execDataE f pa s
  | .dataM f pa => Sys2Proof.Machine.execDataM f pa s
  | .dataU f pa => Sys2Proof.Machine.execDataU f pa s
  | .gnt f pa => Sys2Proof.Machine.execGnt f pa s
  | .ack f pa => Sys2Proof.Machine.execAck f pa s
  | .srsp h d pa => Sys2Proof.Machine.execSrsp h d pa s
  | .cmp f pa => Sys2Proof.Machine.execCmp f pa s
  | .atres f pa => Sys2Proof.Machine.execAtres f pa s
  | .wback f pa => Sys2Proof.Machine.execWback f pa s
  | .retry f pa => Sys2Proof.Machine.execRetry f pa s
  | .retryReissue f pa => Sys2Proof.Machine.execRetryReissue f pa s
  | .fin f pa => Sys2Proof.Machine.execFin f pa s
  | .atomicBufferWriteback h pa => Sys2Proof.Machine.execAtomicBufferWriteback h pa s
  | .hrthRetire k sl => Sys2Proof.Machine.execHrthRetire k sl s
  | .sliceRetireStart k => Sys2Proof.Machine.execSliceRetireStart k s
  | .bucketMark k => Sys2Proof.Machine.execBucketMark k s
  | .bucketTxnsDone k => Sys2Proof.Machine.execBucketTxnsDone k s
  | .bucketCopyDone k => Sys2Proof.Machine.execBucketCopyDone k s
  | .sliceRetired k => Sys2Proof.Machine.execSliceRetired k s
  | .sliceSourceFail k sl => Sys2Proof.Machine.execSliceSourceFail k sl s
  | .sliceTargetFail k => Sys2Proof.Machine.execSliceTargetFail k s
  | .rebuildDone k => Sys2Proof.Machine.execRebuildDone k s
  | .stripeValidWrite k r v => Sys2Proof.Machine.execStripeValidWrite k r v s
  | .flitArrival k n port err cls dsock dstop tag => Sys2Proof.Machine.execFlitArrival k n port err cls dsock dstop tag s
  | .meshLinkFailing k n port => Sys2Proof.Machine.execMeshLinkFailing k n port s
  | .bridgeLaneRepair k n port => Sys2Proof.Machine.execBridgeLaneRepair k n port s
  | .bridgeRepairDone k n port ok => Sys2Proof.Machine.execBridgeRepairDone k n port ok s
  | .dack k d src => Sys2Proof.Machine.execDack k d src s
  | .dackTimer k d src => Sys2Proof.Machine.execDackTimer k d src s
  | .dnak k d src => Sys2Proof.Machine.execDnak k d src s
  | .arbStarvation k kind inst req => Sys2Proof.Machine.execArbStarvation k kind inst req s
  | .arbCommitGo k => Sys2Proof.Machine.execArbCommitGo k s
  | .arbCommitDone k => Sys2Proof.Machine.execArbCommitDone k s
  | .bellowsAdmit k g => Sys2Proof.Machine.execBellowsAdmit k g s
  | .flueTrained k n flight => Sys2Proof.Machine.execFlueTrained k n flight s
  | .flueRestore k n => Sys2Proof.Machine.execFlueRestore k n s
  | .codewordReceive k n fec seq crc tag => Sys2Proof.Machine.execCodewordReceive k n fec seq crc tag s
  | .controlSlotReceive k n ackseq nak nakseq ttx techo trx smaster sdist => Sys2Proof.Machine.execControlSlotReceive k n ackseq nak nakseq ttx techo trx smaster sdist s
  | .laneFailing k n lane => Sys2Proof.Machine.execLaneFailing k n lane s
  | .lane k n => Sys2Proof.Machine.execLane k n s
  | .flueFailure k n => Sys2Proof.Machine.execFlueFailure k n s
  | .flueControlTimeout k n => Sys2Proof.Machine.execFlueControlTimeout k n s
  | .linkdown k id => Sys2Proof.Machine.execLinkdown k id s
  | .rerouteAdopt k id => Sys2Proof.Machine.execRerouteAdopt k id s
  | .rerouteReplayResent id => Sys2Proof.Machine.execRerouteReplayResent id s
  | .rerouteDone id => Sys2Proof.Machine.execRerouteDone id s
  | .linkup k id => Sys2Proof.Machine.execLinkup k id s
  | .crossbarFlitArrival k n => Sys2Proof.Machine.execCrossbarFlitArrival k n s
  | .resync k ssock sstop txid => Sys2Proof.Machine.execResync k ssock sstop txid s
  | .multicastSnoop k port bcast groups tag => Sys2Proof.Machine.execMulticastSnoop k port bcast groups tag s
  | .combinedAck k tag => Sys2Proof.Machine.execCombinedAck k tag s
  | .syncMasterChange k => Sys2Proof.Machine.execSyncMasterChange k s
  | .flueKeyEpoch k n => Sys2Proof.Machine.execFlueKeyEpoch k n s
  | .flueKeyAgreed k n p => Sys2Proof.Machine.execFlueKeyAgreed k n p s
  | .ident k n psock pflue small => Sys2Proof.Machine.execIdent k n psock pflue small s
  | .identTableComplete k dup => Sys2Proof.Machine.execIdentTableComplete k dup s
  | .heldout k by' n => Sys2Proof.Machine.execHeldout k by' n s
  | .cfgGo k => Sys2Proof.Machine.execCfgGo k s
  | .cfgdigest k p => Sys2Proof.Machine.execCfgdigest k p s
  | .partitionKeysAgreed k p ok => Sys2Proof.Machine.execPartitionKeysAgreed k p ok s
  | .partitionStopped k p => Sys2Proof.Machine.execPartitionStopped k p s
  | .mcRead k pa e0 e1 => Sys2Proof.Machine.execMcRead k pa e0 e1 s
  | .mcWrite k pa x d p => Sys2Proof.Machine.execMcWrite k pa x d p s
  | .markWrite k n r valid dev => Sys2Proof.Machine.execMarkWrite k n r valid dev s
  | .sweepLine k n e0 e1 => Sys2Proof.Machine.execSweepLine k n e0 e1 s
  | .sweepInitDone k n => Sys2Proof.Machine.execSweepInitDone k n s
  | .refresh k n rank post => Sys2Proof.Machine.execRefresh k n rank post s
  | .zqCalibration k n rank => Sys2Proof.Machine.execZqCalibration k n rank s
  | .dqsOscRead k n rank drift => Sys2Proof.Machine.execDqsOscRead k n rank drift s
  | .selfRefreshEnter k n => Sys2Proof.Machine.execSelfRefreshEnter k n s
  | .selfRefreshExit k n upd => Sys2Proof.Machine.execSelfRefreshExit k n upd s
  | .spareReq k n line => Sys2Proof.Machine.execSpareReq k n line s
  | .spareStart k n => Sys2Proof.Machine.execSpareStart k n s
  | .spareCopyDone k n bad res => Sys2Proof.Machine.execSpareCopyDone k n bad res s
  | .spprDone k n => Sys2Proof.Machine.execSpprDone k n s
  | .spareCopybackDone k n bad => Sys2Proof.Machine.execSpareCopybackDone k n bad s
  | .hpprApply k n none' => Sys2Proof.Machine.execHpprApply k n none' s
  | .riddleProgramLoad k n cell c => Sys2Proof.Machine.execRiddleProgramLoad k n cell c s
  | .riddleWorkItem k n cell c => Sys2Proof.Machine.execRiddleWorkItem k n cell c s
  | .riddleLineEval k n => Sys2Proof.Machine.execRiddleLineEval k n s
  | .riddleSegmentWrite k n => Sys2Proof.Machine.execRiddleSegmentWrite k n s
  | .riddleDrain k n cell c => Sys2Proof.Machine.execRiddleDrain k n cell c s
  | .drained k n cell c => Sys2Proof.Machine.execDrained k n cell c s
  | .sqtailDoorbell k cell c v => Sys2Proof.Machine.execSqtailDoorbell k cell c v s
  | .cqheadWrite k cell c v => Sys2Proof.Machine.execCqheadWrite k cell c v s
  | .ringCfgWrite k cell c cq size base => Sys2Proof.Machine.execRingCfgWrite k cell c cq size base s
  | .cfgEnWrite k cell c en => Sys2Proof.Machine.execCfgEnWrite k cell c en s
  | .descFetch k cell c => Sys2Proof.Machine.execDescFetch k cell c s
  | .descStart k cell c => Sys2Proof.Machine.execDescStart k cell c s
  | .nop k cell c idx => Sys2Proof.Machine.execStkNop k cell c idx s
  | .filter k cell c idx => Sys2Proof.Machine.execFilter k cell c idx s
  | .project k cell c idx => Sys2Proof.Machine.execProject k cell c idx s
  | .decomp k cell c idx => Sys2Proof.Machine.execDecomp k cell c idx s
  | .hashbuild k cell c idx => Sys2Proof.Machine.execHashbuild k cell c idx s
  | .hashprobe k cell c idx => Sys2Proof.Machine.execHashprobe k cell c idx s
  | .agg k cell c idx => Sys2Proof.Machine.execAgg k cell c idx s
  | .sortrun k cell c idx => Sys2Proof.Machine.execSortrun k cell c idx s
  | .merge k cell c idx => Sys2Proof.Machine.execMerge k cell c idx s
  | .crc32c k cell c idx => Sys2Proof.Machine.execCrc32c k cell c idx s
  | .sha256 k cell c idx => Sys2Proof.Machine.execSha256 k cell c idx s
  | .aesgcm k cell c idx => Sys2Proof.Machine.execAesgcm k cell c idx s
  | .segmentRead k cell c idx => Sys2Proof.Machine.execSegmentRead k cell c idx s
  | .descComplete k cell c idx => Sys2Proof.Machine.execDescComplete k cell c idx s
  | .fireboxSlice k cell req clk => Sys2Proof.Machine.execFireboxSlice k cell req clk s
  | .cellClockGate k cell => Sys2Proof.Machine.execCellClockGate k cell s
  | .cellFault k cell => Sys2Proof.Machine.execCellFault k cell s
  | .mboxTx k cell c mgr => Sys2Proof.Machine.execMboxTx k cell c mgr s
  | .mboxAck k cell c mgr => Sys2Proof.Machine.execMboxAck k cell c mgr s
  | .channelResetRequest k cell c tenant => Sys2Proof.Machine.execChannelResetRequest k cell c tenant s
  | .stkCtlReset k cell => Sys2Proof.Machine.execStkCtlReset k cell s
  | .drainTimerExpiry k cell c => Sys2Proof.Machine.execDrainTimerExpiry k cell c s
  | .channelResetDone k cell c => Sys2Proof.Machine.execChannelResetDone k cell c s
  | .channelQuarantine k cell c => Sys2Proof.Machine.execChannelQuarantine k cell c s
  | .dmaRead k n j rid pasid va len attr => Sys2Proof.Machine.execDmaRead k n j rid pasid va len attr s
  | .dmaWrite k n j rid pasid va data poisoned attr => Sys2Proof.Machine.execDmaWrite k n j rid pasid va data poisoned attr s
  | .msiMessage k n j rid data => Sys2Proof.Machine.execMsiMessage k n j rid data s
  | .prcEventInterrupt k n j b => Sys2Proof.Machine.execPrcEventInterrupt k n j b s
  | .deviceCompletion c j data => Sys2Proof.Machine.execDeviceCompletion c j data s
  | .ioinvGo k n rid all => Sys2Proof.Machine.execIoinvGo k n rid all s
  | .ioinvDone k n => Sys2Proof.Machine.execIoinvDone k n s
  | .slotPwron k n j => Sys2Proof.Machine.execSlotPwron k n j s
  | .slotPerstRelease k n j => Sys2Proof.Machine.execSlotPerstRelease k n j s
  | .slotLinkTrained k n j gen width cxl meta' => Sys2Proof.Machine.execSlotLinkTrained k n j gen width cxl meta' s
  | .slotTrainTimeout k n j => Sys2Proof.Machine.execSlotTrainTimeout k n j s
  | .slotPowerFault k n j => Sys2Proof.Machine.execSlotPowerFault k n j s
  | .slotPwroff k n j => Sys2Proof.Machine.execSlotPwroff k n j s
  | .presenceChange k n j present => Sys2Proof.Machine.execPresenceChange k n j present s
  | .aerFatal k n j => Sys2Proof.Machine.execAerFatal k n j s
  | .portRelease k n j => Sys2Proof.Machine.execPortRelease k n j s
  | .linkL1Exit k n j => Sys2Proof.Machine.execLinkL1Exit k n j s
  | .cxlwinValidWrite k n r v => Sys2Proof.Machine.execCxlwinValidWrite k n r v s
  | .cxlPoisonFillDone k n r => Sys2Proof.Machine.execCxlPoisonFillDone k n r s
  | .ashpanWrite k cls src inst code addr peer domain core d4 d5 d6 => Sys2Proof.Machine.execAshpanWrite k cls src inst code addr peer domain core d4 d5 d6 s
  | .rdptrWrite k v => Sys2Proof.Machine.execRdptrWrite k v s
  | .ceLimitMinute k => Sys2Proof.Machine.execCeLimitMinute k s
  | .nvClr k => Sys2Proof.Machine.execNvClr k s
  | .handoffGo k l => Sys2Proof.Machine.execHandoffGo k l s
  | .pipelineError k l => Sys2Proof.Machine.execPipelineError k l s
  | .handoffStart k l => Sys2Proof.Machine.execHandoffStart k l s
  | .handoffRepoch k l => Sys2Proof.Machine.execHandoffRepoch k l s
  | .sparePowered k g => Sys2Proof.Machine.execSparePowered k g s
  | .handoffStateRead k l => Sys2Proof.Machine.execHandoffStateRead k l s
  | .handoffStoresRead k l => Sys2Proof.Machine.execHandoffStoresRead k l s
  | .handoffL2Emptied k l => Sys2Proof.Machine.execHandoffL2Emptied k l s
  | .spareLoaded k l => Sys2Proof.Machine.execSpareLoaded k l s
  | .handoffResume k l => Sys2Proof.Machine.execHandoffResume k l s
  | .handoffSourceFail k l dead => Sys2Proof.Machine.execHandoffSourceFail k l dead s
  | .spareFail k g => Sys2Proof.Machine.execSpareFail k g s
  | .grateFence k g => Sys2Proof.Machine.execGrateFence k g s
  | .lockstepMismatch k p => Sys2Proof.Machine.execLockstepMismatch k p s
  | .lockstepRepoch k p => Sys2Proof.Machine.execLockstepRepoch k p s
  | .lockstepSelftestDone k p mainOk chkOk => Sys2Proof.Machine.execLockstepSelftestDone k p mainOk chkOk s
  | .lockstepRepaired k p => Sys2Proof.Machine.execLockstepRepaired k p s
  | .comparatorTest k p => Sys2Proof.Machine.execComparatorTest k p s
  | .comparatorTestDone k p ok => Sys2Proof.Machine.execComparatorTestDone k p ok s
  | .socketFailure k src inst d4 => Sys2Proof.Machine.execSocketFailure k src inst d4 s
  | .standbyRailsValid k => Sys2Proof.Machine.execStandbyRailsValid k s
  | .rstDeassert k i3c => Sys2Proof.Machine.execRstDeassert k i3c s
  | .bootVerify k aOk bOk a b => Sys2Proof.Machine.execBootVerify k aOk bOk a b s
  | .powerOnRequest k => Sys2Proof.Machine.execPowerOnRequest k s
  | .powerOffRequest k => Sys2Proof.Machine.execPowerOffRequest k s
  | .pwrbtn k ms => Sys2Proof.Machine.execPwrbtn k ms s
  | .pwrokAssert k mods => Sys2Proof.Machine.execPwrokAssert k mods s
  | .pwrokLoss k pwrfail => Sys2Proof.Machine.execPwrokLoss k pwrfail s
  | .refclkLoss k => Sys2Proof.Machine.execRefclkLoss k s
  | .meshPllUnlock k die => Sys2Proof.Machine.execMeshPllUnlock k die s
  | .corePllUnlock k l => Sys2Proof.Machine.execCorePllUnlock k l s
  | .junctionFatal k => Sys2Proof.Machine.execJunctionFatal k s
  | .vholdLow k => Sys2Proof.Machine.execVholdLow k s
  | .pllenWrite k l req en => Sys2Proof.Machine.execPllenWrite k l req en s
  | .pllLocked k l => Sys2Proof.Machine.execPllLocked k l s
  | .selWrite k l v => Sys2Proof.Machine.execSelWrite k l v s
  | .freqRelock k l => Sys2Proof.Machine.execFreqRelock k l s
  | .damperLimit k which watts => Sys2Proof.Machine.execDamperLimit k which watts s
  | .thermalTarget k tile temp => Sys2Proof.Machine.execThermalTarget k tile temp s
  | .thermalEmergency k tile temp => Sys2Proof.Machine.execThermalEmergency k tile temp s
  | .thermalClear k tile temp => Sys2Proof.Machine.execThermalClear k tile temp s
  | .pkgBankedEnter k => Sys2Proof.Machine.execPkgBankedEnter k s
  | .pkgWake k src n => Sys2Proof.Machine.execPkgWake k src n s
  | .pkgCmdStandby k => Sys2Proof.Machine.execPkgCmdStandby k s
  | .wakeLand k n high => Sys2Proof.Machine.execWakeLand k n high s
  | .upwrWrite k stk prc => Sys2Proof.Machine.execUpwrWrite k stk prc s
  | .coldReset k pin => Sys2Proof.Machine.execColdReset k pin s
  | .warmReset k => Sys2Proof.Machine.execWarmReset k s
  | .coreReset k l => Sys2Proof.Machine.execCoreReset k l s
  | .coreRunSet k l => Sys2Proof.Machine.execCoreRunSet k l s
  | .holdupTrigger k cause => Sys2Proof.Machine.execHoldupTrigger k cause s
  | .saveCommit k dur => Sys2Proof.Machine.execSaveCommit k dur s
  | .restartCondition k => Sys2Proof.Machine.execRestartCondition k s
  | .counterWrap c e => Sys2Proof.Machine.execCounterWrap c e s
  | .unitCounterWrap k bank u e => Sys2Proof.Machine.execUnitCounterWrap k bank u e s
  | .thrctlWrite c j struct n en => Sys2Proof.Machine.execThrctlWrite c j struct n en s
  | .bwctlWrite k u j cls win en clr => Sys2Proof.Machine.execBwctlWrite k u j cls win en clr s
  | .bwWindowEnd k u j n => Sys2Proof.Machine.execBwWindowEnd k u j n s
  | .sampleFire c j pc => Sys2Proof.Machine.execSampleFire c j pc s
  | .pmuSnapshot k => Sys2Proof.Machine.execPmuSnapshot k s
  | .haltreqWrite c => Sys2Proof.Machine.execHaltreqWrite c s
  | .coreHalt c => Sys2Proof.Machine.execCoreHalt c s
  | .resumeWrite c => Sys2Proof.Machine.execResumeWrite c s
  | .stepWrite c => Sys2Proof.Machine.execStepWrite c s
  | .accGo rq c => Sys2Proof.Machine.execAccGo rq c s
  | .memGo rq k => Sys2Proof.Machine.execMemGo rq k s
  | .dbgaccUpdate k off write data => Sys2Proof.Machine.execDbgaccUpdate k off write data s
  | .dbgaccCapture k => Sys2Proof.Machine.execDbgaccCapture k s
  | .idcode k => Sys2Proof.Machine.execIdcode k s
  | .samplePreload k pins pre => Sys2Proof.Machine.execSamplePreload k pins pre s
  | .extest k pins => Sys2Proof.Machine.execExtest k pins s
  | .clamp k => Sys2Proof.Machine.execClamp k s
  | .highz k => Sys2Proof.Machine.execHighz k s
  | .bypass k => Sys2Proof.Machine.execBypass k s
  | .info k tag => Sys2Proof.Machine.execInfo k tag s
  | .identity k tag off => Sys2Proof.Machine.execIdentity k tag off s
  | .powerOn k tag => Sys2Proof.Machine.execPowerOn k tag s
  | .powerOff k tag => Sys2Proof.Machine.execPowerOff k tag s
  | .resetCold k tag => Sys2Proof.Machine.execResetCold k tag s
  | .resetWarm k tag => Sys2Proof.Machine.execResetWarm k tag s
  | .standby k tag => Sys2Proof.Machine.execStandby k tag s
  | .regRead k tag id inst off => Sys2Proof.Machine.execRegRead k tag id inst off s
  | .regWrite k tag id inst off v => Sys2Proof.Machine.execRegWrite k tag id inst off v s
  | .ashRead k tag n => Sys2Proof.Machine.execAshRead k tag n s
  | .ashSaved k tag n => Sys2Proof.Machine.execAshSaved k tag n s
  | .ashNvclr k tag => Sys2Proof.Machine.execAshNvclr k tag s
  | .telemetry k tag off n => Sys2Proof.Machine.execTelemetry k tag off n s
  | .thermal k tag => Sys2Proof.Machine.execThermal k tag s
  | .debug k tag off write data => Sys2Proof.Machine.execDebug k tag off write data s
  | .mgcIbi k => Sys2Proof.Machine.execMgcIbi k s
  | .rstdaa k => Sys2Proof.Machine.execRstdaa k s
  | .entdaa k addr => Sys2Proof.Machine.execEntdaa k addr s
  | .setdasa k static' addr => Sys2Proof.Machine.execSetdasa k static' addr s
  | .getpid k => Sys2Proof.Machine.execGetpid k s
  | .getbcr k => Sys2Proof.Machine.execGetbcr k s
  | .getdcr k => Sys2Proof.Machine.execGetdcr k s
  | .getstatus k => Sys2Proof.Machine.execGetstatus k s
  | .enec k => Sys2Proof.Machine.execEnec k s
  | .disec k => Sys2Proof.Machine.execDisec k s
  | .slotAttention k n j => Sys2Proof.Machine.execSlotAttention k n j s
  | .aerError k n j => Sys2Proof.Machine.execAerError k n j s
  | .damperLimitClear k which watts => Sys2Proof.Machine.execDamperLimitClear k which watts s
  | .unitPowerDone k prc n => Sys2Proof.Machine.execUnitPowerDone k prc n s
  | .standbyRailLoss k => Sys2Proof.Machine.execStandbyRailLoss k s
  | .bitsReadToHome h pa => Sys2Proof.Machine.execBitsReadToHome h pa s

end Sys2Proof.Machine
end

