-- ==== Sys2Proof/Machine/Step.lean ====
section
/-!
DEFINITION. Machine/Step.lean: one step: the command at the front of the queue, or a tick of the clock when none waits.
-/
namespace Sys2Proof.Machine

/-- With no command waiting a nanosecond passes (log entry 2); the slots whose second after a power fault is over go on (Table PCIX-3). -/
def State.tick (s : State) : State := { s with time := s.time + 1 }.slotsDue

/-- One step: the first waiting command takes effect on the state with the rest of the queue. -/
def step (s : State) : Host.Outcome State Fault Refusal :=
  match s.pending with
  | [] => .next s.tick
  | i :: rest => exec i { s with pending := rest }

/-- A command put at the front of the queue. -/
def State.enqueueFront (s : State) (i : Instr) : State := { s with pending := i :: s.pending }

/-- The command a word of the table spells put at the front of the queue; no word spells one. -/
def State.withFetchWord (s : State) (nbits w : Nat) : State :=
  match Sys2Proof.decodeTableWord nbits w with
  | some i => s.enqueueFront i
  | none => s

end Sys2Proof.Machine
end

