-- ==== Sys2Proof/Machine/Fetch.lean ====
section
/-!
DEFINITION. Machine/Fetch.lean: what a core's next instruction is: its parcels read at the pc, its length, and the command it decodes to
(R44, R45, R47, R51).  The commands of the table arrive from outside, so no step calls this (log entry 43).
-/
namespace Sys2Proof.Machine

/-- The `n` bytes at the pc of core `c`, little-endian, as its fetch reads them; none where their translation fails (R44, R47). -/
def State.parcels (s : State) (c n : Nat) : Option Nat :=
  match s.spans c Acc.fetch (s.pc c) n with
  | .ok (ps, _) s =>
    some (leNat (ps.flatMap (fun p => (List.range p.len).map (fun i => BitVec.ofNat 8 (s.fetchNat c (p.pa + i) 1)))))
  | _ => none

/-- The length of the instruction at the pc, from its first parcel (R45); a fetch that fails at the first parcel fails as of two bytes. -/
def State.fetchLen (s : State) (c : Nat) : Nat := ((s.parcels c 2).map parcelLen).getD 2

/-- The command that the instruction at the pc of core `c` is: none for an encoding that is illegal, or one that cannot be fetched. -/
def State.nextInstr (s : State) (c : Nat) : Option Instr := (s.parcels c (s.fetchLen c)).bind (decodeInstr c)

/-- Core `c` runs the instruction at its pc: the command it decodes to, or ILLEGAL_INSTRUCTION once it is fetched (R47, R51). -/
def State.runFetched (s : State) (c : Nat) : Host.Outcome State Fault Refusal :=
  match s.nextInstr c with
  | some i => exec i s
  | none => .next (s.instr c (s.fetchLen c) (fun s => illegal s c))

end Sys2Proof.Machine
end

