-- ==== Sys2Proof/Safety.lean ====
section
/-!
DEFINITION. Safety.lean: what the statements about commands speak of: an instruction that is fetched, what it leaves when it
retires, and the frame of an instruction.
-/
namespace Sys2Proof.Machine

/-- Memory in its canonical form: addresses strictly rising, no listed byte zero. -/
def State.memOk (s : State) : Prop := Memory.wf s.mem = true

/-- A step that neither faults nor refuses. -/
def State.steps (s : State) : Prop := ∃ t, step s = .next t

/-- Core `c` fetches an instruction of `len` bytes at its pc: the core runs (R209, R557, R588), nothing asynchronous is due at the
boundary before it (R171, R172), no UNIT_REVOKED waits for this instruction and no exception was left pending by a debugger's write (R185,
R88), no open region is past its 1,024th instruction (R116), and the fetch finds the bytes (R47).  `s0` is the state once they are
fetched. -/
structure State.Fetched (s : State) (c len : Nat) (s0 : State) : Prop where
  runs : s.canRun c = true
  quiet : ((s.core c).stepping || !s.asyncDue c) = true
  first : s.firstDue c = none
  short : ((s.core c).region.map (fun r => decide (1025 < r.retired))).getD false = false
  got : s.fetch c len = .ok () s0

/-- General register `a` written and the instruction of `len` bytes retired; `none` where an event its retirement raises must wait, the
instruction being tried again then. -/
def State.wroteG (s : State) (c len : Nat) (a : Reg5) (x : Word) : Option State := (s.setG c a x).retireInstr c (s.nextPc c len)

/-- Vector register `a` written and the instruction of `len` bytes retired. -/
def State.wroteV (s : State) (c len : Nat) (a : Reg5) (x : Vec) : Option State := (s.setV c a x).retireInstr c (s.nextPc c len)

/-- Mask register `a` written and the instruction of `len` bytes retired. -/
def State.wroteM (s : State) (c len : Nat) (a : BitVec 3) (x : Word) : Option State := (s.setM c a x).retireInstr c (s.nextPc c len)

/-- The instruction takes event `e` instead of retiring (R162); `none` where the entry must wait. -/
def State.takes (s : State) (c : Nat) (e : Ev) : Option State := (s.raise c e).map (fun t => t.stepDone c)

/-- A load of `n` bytes at `va` finds `b` in `s` and leaves `s'`: the access is granted, the lines of an open ordered region can be
held, no device window answers later, and the pieces are read. -/
def State.Loads (s : State) (c : Nat) (va : Word) (n : Nat) (b : List Byte) (s' : State) : Prop :=
  ∃ ps s1 s2, s.access c Acc.load va n = .ok ps s1 ∧ s1.ensureHeld c = some s2 ∧ s2.devOf c ps = none ∧
     s2.readSpans c Acc.load va ps = .ok b s'

/-- A load of `n` bytes at `va` that meets the array error `err` of the core's caches, 0 for none (R194, R197): what the error leaves, then
the load itself. -/
def State.LoadsMet (s : State) (c len err : Nat) (va : Word) (n : Nat) (b : List Byte) (s' : State) : Prop :=
  ∃ s1, s.loadErr c len err va n = .ok () s1 ∧ s1.Loads c va n b s'

/-- What an access that crosses a line counts besides (R188, Table PERF-1). -/
def State.crossCounted (s : State) (c : Nat) (va : Word) (n : Nat) : State :=
  if va.toNat % 64 + n ≤ 64 then s else (s.countC c 181).countC c 4

/-- What a vector access of lanes `l` counts when it retires. -/
def State.lanesCounted (s : State) (c n : Nat) (f3 : BitVec 3) (addr : Nat → Word) (l : List Nat) : State :=
  match (Res.ok () s).lanes c n f3 addr l with
  | .ok _ t => t
  | _ => s

/-- An atomic access of `n` bytes at `va` is granted and its home can serve it: one piece, at `pa`, in DRAM or CXL memory of socket `h`; the
core's queued stores to the line are performed and the gate admits the request, leaving `s1`; no other core's region holds the line and the
home does not make it wait (R34, R121, R303, R315). -/
def State.LineAt (s : State) (c : Nat) (acc : Acc) (va : Word) (n : Nat) (noHome : Bool) (pa h : Nat) (s1 : State) : Prop :=
  ∃ s' s'', s.accessMem c acc va n noHome = .ok [{ pa := pa, len := n, dev := false }] s' ∧ s'.drainLine c (lineOf pa) = some s'' ∧
    (∃ o, (s'.target (coreSock c) pa = .dram h o ∧ s''.target (coreSock c) pa = .dram h o) ∨
      (s'.target (coreSock c) pa = .cxl h o ∧ s''.target (coreSock c) pa = .cxl h o)) ∧
    s''.heldByOther c (lineOf pa) = false ∧ s''.gateOpen c = true ∧ s''.homeWaits (coreSock c) h (lineOf pa) = false ∧
    s1 = s''.gatePass c h

/-- The core an instruction of Deryr is executed by; `none` for every other command. -/
def instrCore : Instr → Option Nat
  | .intOp c _ _ _ _ _ => some c
  | .div c _ _ _ _ _ => some c
  | .crc c _ _ _ _ _ => some c
  | .immOp c _ _ _ _ => some c
  | .shiftImm c _ _ _ _ _ => some c
  | .addiw c _ _ _ => some c
  | .lui c _ _ => some c
  | .addpc c _ _ => some c
  | .extu c _ _ _ _ => some c
  | .exts c _ _ _ _ => some c
  | .ins c _ _ _ _ => some c
  | .sel c _ _ _ _ _ _ => some c
  | .li c _ _ => some c
  | .liu c _ _ => some c
  | .lih c _ _ => some c
  | .addiL c _ _ => some c
  | .addpcL c _ _ => some c
  | .dadd c _ _ _ _ => some c
  | .dsub c _ _ _ _ => some c
  | .dmul c _ _ _ _ => some c
  | .ddiv c _ _ _ _ => some c
  | .dresc c _ _ _ => some c
  | .ld c _ _ _ _ _ => some c
  | .st c _ _ _ _ => some c
  | .ldx c _ _ _ _ _ => some c.c
  | .stx c _ _ _ _ _ => some c
  | .lda c _ _ _ _ => some c.c
  | .stl c _ _ _ _ => some c
  | .pref c _ _ _ _ => some c
  | .ldL c _ _ _ _ => some c.c
  | .stL c _ _ _ _ => some c
  | .bcc c _ _ _ _ => some c
  | .bccL c _ _ _ _ => some c
  | .jmp c _ => some c
  | .call c _ => some c
  | .jmpr c _ => some c
  | .callr c _ => some c
  | .ret c _ => some c
  | .trap c _ => some c
  | .brk c _ => some c
  | .cMov c _ _ => some c
  | .cAdd c _ _ => some c
  | .cSub c _ _ => some c
  | .cAnd c _ _ => some c
  | .cOr c _ _ => some c
  | .cXor c _ _ => some c
  | .cAddi c _ _ => some c
  | .cLi c _ _ => some c
  | .cSlli c _ _ => some c
  | .cSrli c _ _ => some c
  | .cSrai c _ _ => some c
  | .cLdk c _ _ => some c.c
  | .cStk c _ _ => some c
  | .cBeqz c _ _ => some c
  | .cBnez c _ _ => some c
  | .cJ c _ => some c
  | .cRet c => some c
  | .cBrk c => some c
  | .cFenceX c => some c
  | .fadd c _ _ _ _ _ => some c
  | .fsub c _ _ _ _ _ => some c
  | .fmul c _ _ _ _ _ => some c
  | .fdiv c _ _ _ _ _ => some c
  | .fmin c _ _ _ _ _ => some c
  | .fmax c _ _ _ _ _ => some c
  | .fsqrt c _ _ _ _ => some c
  | .fmadd c _ _ _ _ _ _ => some c
  | .feq c _ _ _ _ => some c
  | .fun c _ _ _ _ => some c
  | .flt c _ _ _ _ => some c
  | .fle c _ _ _ _ => some c
  | .fltq c _ _ _ _ => some c
  | .fleq c _ _ _ _ => some c
  | .fcvt c _ _ _ _ _ => some c
  | .fmvVg c _ _ => some c
  | .fmvGv c _ _ => some c
  | .fclass c _ _ _ => some c
  | .fabs c _ _ _ => some c
  | .fneg c _ _ _ => some c
  | .fnabs c _ _ _ => some c
  | .fcpys c _ _ _ _ => some c
  | .vint c _ _ _ _ _ _ _ _ _ => some c
  | .vcmp c _ _ _ _ _ _ _ _ _ => some c
  | .vfp c _ _ _ _ _ _ _ _ _ => some c
  | .vfmadd c _ _ _ _ _ _ _ _ => some c
  | .vld c _ _ _ _ _ _ _ _ => some c.c
  | .vst c _ _ _ _ _ _ _ _ => some c
  | .vperm c _ _ _ _ _ _ _ => some c
  | .vperm2 c _ _ _ _ _ _ _ => some c
  | .vcompress c _ _ _ _ _ _ _ => some c
  | .vexpand c _ _ _ _ _ _ _ => some c
  | .vslideup c _ _ _ _ _ _ _ => some c
  | .vslidedn c _ _ _ _ _ _ _ => some c
  | .vrev c _ _ _ _ _ _ _ => some c
  | .vunpk c _ _ _ _ _ _ _ => some c
  | .vpack c _ _ _ _ _ _ _ => some c
  | .vcrc c _ _ _ _ _ _ _ => some c
  | .vredInt c _ _ _ _ _ _ => some c
  | .vredFp c _ _ _ _ _ _ => some c
  | .maskLogic c _ _ _ _ _ => some c
  | .mtog c _ _ _ => some c
  | .gtom c _ _ _ => some c
  | .mpopc c _ _ _ => some c
  | .mfirst c _ _ _ => some c
  | .vbcastG c _ _ _ _ _ => some c
  | .vins c _ _ _ _ _ _ => some c
  | .vext c _ _ _ _ _ _ => some c
  | .vmov c _ _ _ _ _ => some c
  | .vzero c _ _ _ _ => some c
  | .hatom c _ _ _ _ _ => some c
  | .hcas c _ _ _ _ _ _ => some c
  | .atomBegin c _ => some c
  | .atomAdd c _ => some c
  | .atomCommit c _ => some c
  | .atomAbort c _ => some c
  | .fenceLl c => some c
  | .fenceLs c => some c
  | .fenceSl c => some c
  | .fenceSs c => some c
  | .fenceFull c => some c
  | .fenceIo c => some c
  | .fenceGlobal c => some c
  | .fenceX c => some c
  | .iflush c => some c
  | .cclean c _ => some c
  | .cflush c _ => some c
  | .cinval c _ => some c
  | .czero c _ => some c
  | .swclean c _ => some c
  | .swflush c _ => some c
  | .tlbiVa c _ _ _ => some c
  | .tlbiSid c _ _ => some c
  | .tlbiVm c _ _ => some c
  | .tlbiIpa c _ _ _ => some c
  | .tlbiAll c _ => some c
  | .srd c _ _ => some c
  | .swr c _ _ => some c
  | .swrAuth c _ => some c
  | .swrKrights c _ _ => some c
  | .swrTcmp c _ => some c
  | .swrXlatctl c _ => some c
  | .swrPmsel c _ => some c
  | .pmdataRead c _ => some c
  | .kdrop c _ => some c
  | .kdropLo c _ => some c
  | .kdropHi c _ => some c
  | .gate c _ => some c
  | .gentry c => some c
  | .gret c => some c
  | .gretEv c => some c
  | .wait c _ _ => some c
  | .waitBanked c _ _ => some c
  | .waitCold c _ _ => some c
  | _ => none

end Sys2Proof.Machine
end

