-- ==== Sys2Proof/Certificates/Slice0/Obligations.lean ====
section
/-!
DEFINITION. Certificates/Slice0/Obligations.lean: the statements about the machine.  A result statement says of each command what state
exec answers, `t` being that state; where a value is open it is a free value, and the statement holds for every one.  The hypotheses speak of
the state and the operands alone.
-/
open Sys2Proof Sys2Proof.Machine

/-- A step takes the command at the front of the queue and runs it on the state with the rest of the queue; with no command waiting a
nanosecond passes and the slots whose wait is over go on (the model's choice, log entry 2). -/
def Obligations.step_runs_front_command : Prop :=
  ∀ (i : Instr) (rest : List Instr) (s : State),
    (s.pending = i :: rest → step s = exec i { s with pending := rest }) ∧
    (s.pending = [] → step s = .next { s with time := s.time + 1 }.slotsDue)

/-- R105, R557, Table SYSX-6: after reset every core's general, vector and mask registers read zero, SR.AUTH is 0x7FF, SR.KRIGHTS0 is all
ones but for key 0's right to write, SR.KRIGHTS1 is all ones and the other registers of Table SYSX-6 with a stated reset value are zero; no
command waits and memory is in its canonical form. -/
def Obligations.reset_values : Prop :=
  ∀ (c : Nat), let k := State.reset.core c
    (∀ r, k.gr r = 0) ∧ (∀ r, k.vr r = 0) ∧ (∀ r, k.mr r = 0) ∧
    k.srOwn SR.AUTH = 0x7FF ∧ k.srOwn SR.KRIGHTS0 = 0xFFFFFFFFFFFFFFFE ∧ k.srOwn SR.KRIGHTS1 = 0xFFFFFFFFFFFFFFFF ∧
    (∀ n ∈ [SR.REPOCH, SR.ATOMSTAT, SR.CORECTL, SR.FPCTL, SR.FPSTAT, SR.XPC, SR.VLANE, SR.DOMAIN, SR.SSP, SR.EVENT_ENTRY, SR.CAUSE, SR.FSP,
      SR.FSLIMIT, SR.EVENT_AUTH, SR.EVENT_KEYS0, SR.EVENT_KEYS1, SR.EVADDR, SR.PTB, SR.PTB2, SR.SID, SR.VMID, SR.XLATCTL, SR.TCMP, SR.PMSEL,
      SR.DBGCTL], State.reset.sr c n = 0) ∧
    k.region = none ∧ k.storeQ = [] ∧ k.l2 = [] ∧ k.tlb = [] ∧ k.world = none ∧
    State.reset.pending = [] ∧ State.reset.memOk

/-- R40, R42, R43: general register 0 reads as zero and a write to it is discarded; a write to any other general register, to a vector
register or to a mask register is read back and leaves every other register as it was. -/
def Obligations.register_files : Prop :=
  ∀ (k : Core) (a r : Reg5) (x : Word) (y : Vec) (m n : BitVec 3),
    k.gr 0 = 0 ∧ k.setG 0 x = k ∧ (a ≠ 0 → (k.setG a x).gr a = x) ∧ (r ≠ a → (k.setG a x).gr r = k.gr r) ∧
    (k.setV a y).vr a = y ∧ (r ≠ a → (k.setV a y).vr r = k.vr r) ∧ (k.setM m x).mr m = x ∧ (n ≠ m → (k.setM m x).mr n = k.mr n) ∧
    (k.setG a x).v = k.v ∧ (k.setG a x).m = k.m ∧ (k.setV a y).g = k.g ∧ (k.setV a y).m = k.m ∧ (k.setM m x).g = k.g ∧ (k.setM m x).v = k.v ∧
    (k.setG a x).sr = k.sr ∧ (k.setV a y).sr = k.sr ∧ (k.setM m x).sr = k.sr ∧
    (k.setG a x).pc = k.pc ∧ (k.setV a y).pc = k.pc ∧ (k.setM m x).pc = k.pc

/-- R88, R570, R590, R594: the frame of an instruction that retires with no precise arithmetic exception due and no single step armed, under
no debugger's step: it retires, the pc moves on, and apart from it and its destination register nothing changes: memory, the queue, every
other core, every control register, every other register of the core and its system registers (but for SR.DBGCTL.SKIP, which is spent).

The frame of a fetch: outside a region, the core's general, vector and mask registers, its pc, its system registers and its store
queue are as before, and so are the queue of commands and the clock. -/
def Obligations.retirement_and_fetch_frame : Prop :=
  (∀ (c len : Nat) (a : Reg5) (m : BitVec 3) (x : Word) (y : Vec) (s : State),
    (s.precise c && (s.sr c SR.FPSTAT).getLsbD 8) = false → (s.core c).ssArm = false → (s.core c).stepping = false →
    (∀ u ∈ [s.wroteG c len a x, s.wroteV c len a y, s.wroteM c len m x, s.retireInstr c (s.nextPc c len)], ∃ t, u = some t ∧
      t.pc c = s.pc c + BitVec.ofNat 64 len ∧ t.mem = s.mem ∧ t.poison = s.poison ∧ t.regs = s.regs ∧ t.pending = s.pending ∧
      (∀ d, d ≠ c → t.core d = s.core d) ∧ (t.core c).storeQ = (s.core c).storeQ ∧ (t.core c).l2 = (s.core c).l2 ∧
      (t.core c).world = (s.core c).world ∧ (∀ n, n ≠ SR.DBGCTL → (t.core c).srOwn n = (s.core c).srOwn n) ∧
      (∀ i, i ≠ 9 → ((t.core c).srOwn SR.DBGCTL).getLsbD i = ((s.core c).srOwn SR.DBGCTL).getLsbD i)) ∧
    (∀ t, s.wroteG c len a x = some t →
      (∀ r, r ≠ a → t.g c r = s.g c r) ∧ (a ≠ 0 → t.g c a = x) ∧ t.g c 0 = 0 ∧ (t.core c).v = (s.core c).v ∧ (t.core c).m = (s.core c).m) ∧
    (∀ t, s.wroteV c len a y = some t →
      (∀ r, r ≠ a → t.v c r = s.v c r) ∧ t.v c a = y ∧ (t.core c).g = (s.core c).g ∧ (t.core c).m = (s.core c).m) ∧
    (∀ t, s.wroteM c len m x = some t →
      (∀ n, n ≠ m → (t.core c).mr n = (s.core c).mr n) ∧ (t.core c).mr m = x ∧ (t.core c).g = (s.core c).g ∧ (t.core c).v = (s.core c).v) ∧
    (∀ t, s.retireInstr c (s.nextPc c len) = some t →
     (t.core c).g = (s.core c).g ∧ (t.core c).v = (s.core c).v ∧ (t.core c).m = (s.core c).m)) ∧
  (∀ (c len : Nat) (s t : State), (s.core c).region = none → s.fetch c len = .ok () t →
    (t.core c).g = (s.core c).g ∧ (t.core c).v = (s.core c).v ∧ (t.core c).m = (s.core c).m ∧ t.pc c = s.pc c ∧
    (t.core c).sr = (s.core c).sr ∧ (t.core c).storeQ = (s.core c).storeQ ∧ (t.core c).world = (s.core c).world ∧
    t.pending = s.pending ∧ t.time = s.time)

/-- R209, R557, R167, R588: a core that is not mapped, in reset, asleep, Exhausted, halted, or waiting executes no instruction of Deryr: the machine
is unchanged.

Where the spec leaves the choice open it rests on the model's choices of log entry 13. -/
def Obligations.stopped_core_executes_nothing : Prop :=
  ∀ (i : Instr) (c : Nat) (s : State), instrCore i = some c → s.canRun c = false → exec i s = .next s

/-- R44, R60, R196, R266: with none of its own stores pending a load within a line reads memory's bytes at its address, lowest address first,
and leaves the core's registers, its pc and its stores as they were, and with no value waiting to go home every byte of memory; a load of
several lines that is answered has read memory's bytes too; a byte that one of the core's own pending stores writes is read from the youngest
such store.

R196, R260: the oldest retired store, with those behind it that merge with it, performed in a line of DRAM that need not wait, makes their
bytes memory's, the youngest last, and leaves every other byte of memory and the core's registers as they were; the core then holds the line
modified and those stores leave the queue.

Where the spec leaves the choice open it rests on the model's choices of log entries 7 and 16. -/
def Obligations.loads_read_and_stores_write_memory : Prop :=
  (∀ (c h off i : Nat) (acc : Acc) (va : Word) (p : Span) (e : StoreEnt) (q : List StoreEnt) (s : State),
    (s.target (coreSock c) p.pa = .dram h off → (s.core c).ownStores = [] → (s.core c).region = none → p.dev = false →
      (0 < p.len → p.pa % 64 + p.len ≤ 64 → s.readWaits c (lineOf p.pa) = false → s.badFor c (lineOf p.pa * 64) = false →
        cellGet none s.homeOld (lineOf p.pa) = none →
        ∃ t : State, s.readSpan c acc va p = .ok (memBytes s.mem p.pa p.len) t ∧ (s.homeOld = [] → t.mem = s.mem) ∧
          t.pc c = s.pc c ∧ (t.core c).g = (s.core c).g ∧ (t.core c).storeQ = (s.core c).storeQ) ∧
      (∀ b t, s.homeOld = [] → s.readSpan c acc va p = .ok b t → b = memBytes s.mem p.pa p.len ∧ t.mem = s.mem)) ∧
    (e.pa ≤ i → i < e.pa + e.bytes.length → fwdByte s.mem (q ++ [e]) i = nth 0 e.bytes (i - e.pa)) ∧
    (i < e.pa ∨ e.pa + e.bytes.length ≤ i → fwdByte s.mem (q ++ [e]) i = fwdByte s.mem q i)) ∧
  (∀ (c h : Nat) (e : StoreEnt) (q : List StoreEnt) (s : State),
    let ln := lineOf e.pa
    let n := (q.takeWhile (fun x => lineOf x.pa = ln)).length
    (s.core c).storeQ = e :: q → (s.core c).frozen = false → (s.core c).region = none → s.outOfReset c = true →
    (∀ x ∈ (e :: q).take (n + 1), (∃ off, s.target (coreSock c) x.pa = .dram h off) ∧ x.pa % 64 + x.bytes.length ≤ 64) →
    s.lineWaits c ln = false → s.stale (coreSock c) ln = false → cellGet false s.macBad ln = false →
    ((s.core c).l2st ln = some .M ∨ s.homeOld = []) →
    ∃ t : State, exec (.storeDrain c 0) s = .next t ∧ (∀ a, memGet t.mem a = fwdByte s.mem ((e :: q).take (n + 1)) a) ∧
      (t.core c).storeQ = q.drop n ∧ (t.core c).l2st ln = some .M ∧ (t.core c).g = (s.core c).g ∧ (t.core c).v = (s.core c).v ∧
      (t.core c).m = (s.core c).m ∧ t.pc c = s.pc c ∧ t.pending = s.pending)

/-- Whatever a step does, what the parts are fused as never changes, the queue loses at most its first command, and the clock moves only when
no command waits (the model's choice, log entry 2). -/
def Obligations.step_keeps_parts_and_queue : Prop :=
  ∀ (s t : State), step s = .next t →
    t.parts = s.parts ∧ t.pending = s.pending.tail ∧ (s.pending ≠ [] → t.time = s.time) ∧ (s.pending = [] → t.mem = s.mem ∧ t.cores = s.cores)

/-- Every step keeps memory in its canonical form, addresses strictly rising and no byte listed that reads as an unlisted one does: whatever
the command, equal memories stay equal data. -/
def Obligations.step_keeps_memory_canonical : Prop :=
  ∀ (s t : State), s.memOk → step s = .next t → t.memOk

/-- R53, Table ISA-8: INT_OP completes and writes the result of its operation, for every two-operand F6 with F3 = 0 on doublewords and
with F3 = 1 on low words, sign-extended; the unary forms likewise, with their C field zero. -/
def Obligations.int_op_results : Prop :=
  ∀ (c : Nat) (a b d : Reg5) (s s0 : State), s.Fetched c 4 s0 →
    let x := s0.g c b
    let y := s0.g c d
    let n := y.toNat % 64
    let does (f6 : BitVec 6) (v : Word) : Prop := exec (.intOp c 0 f6 a b d) s = .next ((s0.wroteG c 4 a v).getD s)
    let p : BitVec 32 := x.truncate 32
    let q : BitVec 32 := y.truncate 32
    let k := q.toNat % 32
    let doesW (f6 : BitVec 6) (v : BitVec 32) : Prop :=
      exec (.intOp c 1 f6 a b d) s = .next ((s0.wroteG c 4 a (v.signExtend 64)).getD s)
    let unary (f6 : BitVec 6) (v : Word) : Prop := exec (.intOp c 0 f6 a b 0) s = .next ((s0.wroteG c 4 a v).getD s)
    does 0x00 (x + y) ∧ does 0x01 (x - y) ∧ does 0x02 (x &&& y) ∧ does 0x03 (x ||| y) ∧ does 0x04 (x ^^^ y) ∧
    does 0x05 (x &&& ~~~y) ∧ does 0x06 (x ||| ~~~y) ∧ does 0x07 (~~~(x ^^^ y)) ∧ does 0x08 (x <<< n) ∧ does 0x09 (x >>> n) ∧
    does 0x0A (x.sshiftRight n) ∧ does 0x0B (x.rotateLeft n) ∧ does 0x0C (x.rotateRight n) ∧
    does 0x0D (if x.toInt < y.toInt then 1 else 0) ∧ does 0x0E (if x.toNat < y.toNat then 1 else 0) ∧
    does 0x10 (if x.toInt < y.toInt then x else y) ∧ does 0x11 (if x.toInt < y.toInt then y else x) ∧
    does 0x12 (if x.toNat < y.toNat then x else y) ∧ does 0x13 (if x.toNat < y.toNat then y else x) ∧
    does 0x18 (x * y) ∧ does 0x19 (BitVec.ofInt 64 (x.toInt * y.toInt / 2 ^ 64)) ∧
    does 0x1A (BitVec.ofNat 64 (x.toNat * y.toNat / 2 ^ 64)) ∧ does 0x1B (BitVec.ofInt 64 (x.toInt * y.toNat / 2 ^ 64)) ∧
    unary 0x20 (BitVec.ofNat 64 (clz x.toNat 64)) ∧ unary 0x21 (BitVec.ofNat 64 (ctz x.toNat 0 64)) ∧
    unary 0x22 (BitVec.ofNat 64 (popc x.toNat 64)) ∧
    doesW 0x00 (p + q) ∧ doesW 0x01 (p - q) ∧ doesW 0x08 (p <<< k) ∧ doesW 0x09 (p >>> k) ∧ doesW 0x0A (p.sshiftRight k) ∧
    doesW 0x0B (p.rotateLeft k) ∧ doesW 0x0C (p.rotateRight k) ∧ doesW 0x18 (p * q)

/-- R54: division.  A divisor of zero (of the low words in a word form) raises DIVIDE_BY_ZERO (cause 0x0005), precisely and with gA not
written; the most negative value divided by -1 gives itself and remainder 0; every other division completes, its signed quotient
rounded toward zero and its remainder having the sign of the dividend. -/
def Obligations.division : Prop :=
  ∀ (c : Nat) (a b d : Reg5) (s s0 : State), s.Fetched c 4 s0 →
    let x := s0.g c b
    let y := s0.g c d
    let p : BitVec 32 := x.truncate 32
    let q : BitVec 32 := y.truncate 32
    let does (f6 : BitVec 6) (v : Word) : Prop := exec (.div c 0 f6 a b d) s = .next ((s0.wroteG c 4 a v).getD s)
    let doesW (f6 : BitVec 6) (v : BitVec 32) : Prop :=
      exec (.div c 1 f6 a b d) s = .next ((s0.wroteG c 4 a (v.signExtend 64)).getD s)
    let zero : Ev := { cause := 0x0005, rpc := s0.pc c, epc := s0.pc c }
    (y = 0 → ∀ f6 ∈ ([0x1C, 0x1D, 0x1E, 0x1F] : List (BitVec 6)), exec (.div c 0 f6 a b d) s = .next ((s0.takes c zero).getD s)) ∧
    (q = 0 → ∀ f6 ∈ ([0x1C, 0x1D, 0x1E, 0x1F] : List (BitVec 6)), exec (.div c 1 f6 a b d) s = .next ((s0.takes c zero).getD s)) ∧
    (x = BitVec.intMin 64 → y = -1 → does 0x1C (BitVec.intMin 64) ∧ does 0x1E 0) ∧
    (p = BitVec.intMin 32 → q = -1 → doesW 0x1C (BitVec.intMin 32) ∧ doesW 0x1E 0) ∧
    (y ≠ 0 → does 0x1C (BitVec.ofInt 64 (x.toInt.tdiv y.toInt)) ∧ does 0x1D (x / y) ∧
      does 0x1E (BitVec.ofInt 64 (x.toInt.tmod y.toInt)) ∧ does 0x1F (x % y)) ∧
    (q ≠ 0 → doesW 0x1C (BitVec.ofInt 32 (p.toInt.tdiv q.toInt)) ∧ doesW 0x1D (p / q) ∧
      doesW 0x1E (BitVec.ofInt 32 (p.toInt.tmod q.toInt)) ∧ doesW 0x1F (p % q))

/-- R55, R56, R57, Tables ISA-9 and ISA-10: CRC, the immediate, upper, field and long instructions complete with their results, for
every operand the encoding admits.

R57, Table ISA-10, and R52, Table ISA-4: the 48-bit and 16-bit integer forms complete with their results.

R58, R59, Table ISA-11: the decimal instructions complete; with operands and exact result within DMAX the result is exact, rounded
half away from zero, and no flag is raised; beyond DMAX it is DMAX with the sign of the exact result and decimal overflow is raised.
DDIV by zero raises DIVIDE_BY_ZERO. -/
def Obligations.immediate_long_short_decimal_results : Prop :=
  (∀ (c : Nat) (a b d e : Reg5) (s s0 : State), s.Fetched c 4 s0 →
    let x := s0.g c b
    let w (v : Word) : Host.Outcome State Fault Refusal := .next ((s0.wroteG c 4 a v).getD s)
    (∀ k : BitVec 6, k.toNat < 4 → exec (.crc c 0 (0x28 + k) a b d) s =
      w (BitVec.ofNat 64 (crc32c (x.toNat % 2 ^ 32) (s0.g c d).toNat (2 ^ k.toNat)))) ∧
    (∀ imm : BitVec 14, let y := imm.signExtend 64
      exec (.immOp c 1 a b imm) s = w (x + y) ∧ exec (.immOp c 2 a b imm) s = w (x &&& y) ∧
      exec (.immOp c 3 a b imm) s = w (x ||| y) ∧ exec (.immOp c 4 a b imm) s = w (x ^^^ y) ∧
      exec (.immOp c 5 a b imm) s = w (if x.toInt < y.toInt then 1 else 0) ∧
      exec (.immOp c 6 a b imm) s = w (if x.toNat < y.toNat then 1 else 0) ∧
      exec (.addiw c a b imm) s = w (((x + y).truncate 32).signExtend 64)) ∧
    (∀ n : BitVec 6,
      exec (.shiftImm c 0 0 a b n) s = w (x <<< n.toNat) ∧ exec (.shiftImm c 0 1 a b n) s = w (x >>> n.toNat) ∧
      exec (.shiftImm c 0 2 a b n) s = w (x.sshiftRight n.toNat) ∧
      exec (.shiftImm c 0 3 a b n) s = w (x.rotateRight n.toNat) ∧
      (n.toNat < 32 → let p : BitVec 32 := x.truncate 32
        exec (.shiftImm c 1 0 a b n) s = w ((p <<< n.toNat).signExtend 64) ∧
        exec (.shiftImm c 1 1 a b n) s = w ((p >>> n.toNat).signExtend 64) ∧
        exec (.shiftImm c 1 2 a b n) s = w ((p.sshiftRight n.toNat).signExtend 64) ∧
        exec (.shiftImm c 1 3 a b n) s = w ((p.rotateRight n.toNat).signExtend 64))) ∧
    (∀ imm : BitVec 19, let u : Word := ((imm ++ (0 : BitVec 13)) : BitVec 32).signExtend 64
      exec (.lui c a imm) s = w u ∧ exec (.addpc c a imm) s = w (s0.pc c + u)) ∧
    (∀ pos lenM1 : BitVec 6, let len := lenM1.toNat + 1
      pos.toNat + len ≤ 64 →
        exec (.extu c a b pos lenM1) s = w (BitVec.ofNat 64 (x.toNat / 2 ^ pos.toNat % 2 ^ len)) ∧
        exec (.exts c a b pos lenM1) s = w ((BitVec.ofNat len (x.toNat / 2 ^ pos.toNat)).signExtend 64) ∧
        exec (.ins c a b pos lenM1) s = w (BitVec.ofNat 64 ((s0.g c a).toNat -
          (s0.g c a).toNat / 2 ^ pos.toNat % 2 ^ len * 2 ^ pos.toNat + x.toNat % 2 ^ len * 2 ^ pos.toNat))) ∧
    exec (.sel c 0 0 a b d e) s = w (if s0.g c e ≠ 0 then x else s0.g c d)) ∧
  (∀ (c : Nat) (a b : Reg5) (s s0 : State),
    (s.Fetched c 6 s0 → ∀ imm : BitVec 32,
      let w (v : Word) : Host.Outcome State Fault Refusal := .next ((s0.wroteG c 6 a v).getD s)
      exec (.li c a imm) s = w (imm.signExtend 64) ∧ exec (.liu c a imm) s = w (imm.zeroExtend 64) ∧
      exec (.lih c a imm) s = w (imm ++ ((s0.g c a).truncate 32 : BitVec 32)) ∧
      exec (.addiL c a imm) s = w (s0.g c a + imm.signExtend 64) ∧
      exec (.addpcL c a imm) s = w (s0.pc c + imm.signExtend 64)) ∧
    (s.Fetched c 2 s0 →
      let x := s0.g c a
      let y := s0.g c b
      let w (v : Word) : Host.Outcome State Fault Refusal := .next ((s0.wroteG c 2 a v).getD s)
      (a ≠ 0 → b ≠ 0 → exec (.cMov c a b) s = w y) ∧ exec (.cAdd c a b) s = w (x + y) ∧ exec (.cSub c a b) s = w (x - y) ∧
      exec (.cAnd c a b) s = w (x &&& y) ∧ exec (.cOr c a b) s = w (x ||| y) ∧ exec (.cXor c a b) s = w (x ^^^ y) ∧
      (∀ imm : BitVec 5, exec (.cAddi c a imm) s = w (x + imm.signExtend 64) ∧ exec (.cLi c a imm) s = w (imm.signExtend 64) ∧
        exec (.cSlli c a imm) s = w (x <<< imm.toNat) ∧ exec (.cSrli c a imm) s = w (x >>> imm.toNat) ∧
        exec (.cSrai c a imm) s = w (x.sshiftRight imm.toNat)))) ∧
  (∀ (c : Nat) (a b d : Reg5) (k : BitVec 6) (s s0 : State), s.Fetched c 4 s0 →
    let x := (s0.g c b).toInt
    let y := (s0.g c d).toInt
    let out (v : Int) (big : Bool) : Host.Outcome State Fault Refusal :=
      let r : Int := if 999999999999999999 < v.natAbs then v.sign * 999999999999999999 else v
      let s1 := if 999999999999999999 < v.natAbs || big then s0.raiseFlags c 32 else s0
      .next (((s1.setG c a (BitVec.ofInt 64 r)).retireInstr c (s1.nextPc c 4)).getD s)
    let bx := decide (999999999999999999 < x.natAbs)
    let by' := decide (999999999999999999 < y.natAbs)
    exec (.dadd c 0 a b d) s = out (x + y) (bx || by') ∧ exec (.dsub c 0 a b d) s = out (x - y) (bx || by') ∧
    (k.toNat ≤ 18 → exec (.dmul c k a b d) s = out (dround (x * y) (10 ^ k.toNat)) (bx || by')) ∧
    (k.toNat ≤ 18 → y ≠ 0 → exec (.ddiv c k a b d) s = out (dround (x * 10 ^ k.toNat) y) (bx || by')) ∧
    (k.toNat ≤ 18 → y = 0 → exec (.ddiv c k a b d) s = .next ((s0.takes c { cause := 0x0005, rpc := s0.pc c, epc := s0.pc c }).getD s)) ∧
    (0 ≤ k.toInt → k.toInt ≤ 18 → exec (.dresc c k a b) s = out (x * 10 ^ k.toInt.toNat) bx) ∧
    (-18 ≤ k.toInt → k.toInt < 0 → exec (.dresc c k a b) s = out (dround x (10 ^ (-k.toInt).toNat)) bx))

/-- R70, R71, R85, Table ISA-14: FADD, FSUB, FMUL, FDIV, FSQRT, FMIN, FMAX and the FMA group complete in every format and legal
rounding mode: the low bits of vA receive the IEEE 754 result, every other bit zero (R68), and the flags are raised.

R71, R72, Table ISA-14: comparisons, classification, sign operations, moves and conversions complete: a comparison writes 1 or 0
to gA (a NaN compares unordered), the sign operations change only the sign bit, FMV copies bits, FCVT rounds once. -/
def Obligations.floating_point_results : Prop :=
  (∀ (c : Nat) (rm prec : BitVec 3) (a b d e : Reg5) (f : Fmt) (m : Nat) (s s0 : State), s.Fetched c 4 s0 →
    fmtOf prec.toNat = some f → s0.rmode c rm = some m →
    let x := (s0.v c b).toNat % 2 ^ f.w
    let y := (s0.v c d).toNat % 2 ^ f.w
    let out (r : Nat × Nat) : Host.Outcome State Fault Refusal :=
      .next ((((s0.settleFlags c r.2).setV c a (BitVec.ofNat 512 r.1)).retireInstr c (s0.nextPc c 4)).getD s)
    exec (.fadd c rm prec a b d) s = out (f.add m x y) ∧ exec (.fsub c rm prec a b d) s = out (f.sub m x y) ∧
    exec (.fmul c rm prec a b d) s = out (f.mul m x y) ∧ exec (.fdiv c rm prec a b d) s = out (f.div m x y) ∧
    exec (.fsqrt c rm prec a b) s = out (f.sqrt m x) ∧ exec (.fmin c rm prec a b d) s = out (f.minmax false x y) ∧
    exec (.fmax c rm prec a b d) s = out (f.minmax true x y) ∧
    (∀ (g : Fmt) (f3 : BitVec 3) (f1 : BitVec 1) (n : Nat), fmtOf (f3.toNat % 4) = some g → s0.rmode c 7 = some n →
      exec (.fmadd c f3 f1 a b d e) s = out (g.fma n (f3.getLsbD 2) (f1.getLsbD 0) ((s0.v c b).toNat % 2 ^ g.w)
        ((s0.v c d).toNat % 2 ^ g.w) ((s0.v c e).toNat % 2 ^ g.w)))) ∧
  (∀ (c : Nat) (rm prec : BitVec 3) (a b d : Reg5) (f : Fmt) (m : Nat) (s s0 : State), s.Fetched c 4 s0 →
    fmtOf prec.toNat = some f → s0.rmode c rm = some m →
    let x := (s0.v c b).toNat % 2 ^ f.w
    let y := (s0.v c d).toNat % 2 ^ f.w
    let r := f.rel x y
    let tells (v : Bool) (signalling : Bool) : Host.Outcome State Fault Refusal :=
      .next ((((s0.raiseFlags c (f.cmpFlags signalling x y)).setG c a (if v then 1 else 0)).retireInstr c (s0.nextPc c 4)).getD s)
    let signed (h : Bool) : Vec := BitVec.ofNat 512 (x % 2 ^ (f.w - 1) + (if h then 2 ^ (f.w - 1) else 0))
    exec (.feq c prec a b d) s = tells (r = .eq) false ∧ exec (.fun c prec a b d) s = tells (r = .un) false ∧
    exec (.flt c prec a b d) s = tells (r = .lt) true ∧ exec (.fle c prec a b d) s = tells (r = .lt || r = .eq) true ∧
    exec (.fltq c prec a b d) s = tells (r = .lt) false ∧ exec (.fleq c prec a b d) s = tells (r = .lt || r = .eq) false ∧
    exec (.fabs c prec a b) s = .next ((s0.wroteV c 4 a (signed false)).getD s) ∧
    exec (.fneg c prec a b) s = .next ((s0.wroteV c 4 a (signed (!x.testBit (f.w - 1)))).getD s) ∧
    exec (.fnabs c prec a b) s = .next ((s0.wroteV c 4 a (signed true)).getD s) ∧
    exec (.fcpys c prec a b d) s = .next ((s0.wroteV c 4 a (signed (y.testBit (f.w - 1)))).getD s) ∧
    exec (.fclass c prec a b) s = .next ((s0.wroteG c 4 a (BitVec.ofNat 64 (f.fclass x))).getD s) ∧
    exec (.fmvVg c a b) s = .next ((s0.wroteG c 4 a ((s0.v c b).truncate 64)).getD s) ∧
    exec (.fmvGv c a b) s = .next ((s0.wroteV c 4 a ((s0.g c b).zeroExtend 512)).getD s) ∧
    (∀ (dst : BitVec 3) (g : Fmt), fmtOf dst.toNat = some g → dst ≠ prec →
      exec (.fcvt c rm dst prec a b) s = .next ((((s0.settleFlags c (f.toFmt g m x).2).setV c a
        (BitVec.ofNat 512 (f.toFmt g m x).1)).retireInstr c (s0.nextPc c 4)).getD s)) ∧
    (∀ src : BitVec 3, 4 ≤ src.toNat →
      exec (.fcvt c rm prec src a b) s =
        let q := f.ofInt m (cvtIntSrc src.toNat (s0.g c b))
        .next ((((s0.settleFlags c q.2).setV c a (BitVec.ofNat 512 q.1)).retireInstr c (s0.nextPc c 4)).getD s)) ∧
    (∀ dst : BitVec 3, 4 ≤ dst.toNat →
      exec (.fcvt c rm dst prec a b) s =
        let q := f.toInt m (if dst.toNat < 6 then 64 else 32) (dst.toNat % 2 = 0) x
        .next ((((s0.raiseFlags c q.2).setG c a (BitVec.ofInt 64 q.1)).retireInstr c (s0.nextPc c 4)).getD s)))

/-- R75, R76, R77, Table ISA-17: the vector arithmetic groups complete: enabled lanes hold the result of the operation on their own
lanes, disabled lanes are kept or zeroed as ZM says; a comparison writes a mask register; the flags of the enabled lanes are raised. -/
def Obligations.vector_arithmetic_results : Prop :=
  ∀ (c : Nat) (f3 : BitVec 3) (a b d e : Reg5) (msk : BitVec 3) (ew : BitVec 2) (zm : BitVec 1) (f11 : BitVec 11)
    (y : Nat → Nat) (s s0 : State), s.Fetched c 6 s0 →
    let m := s0.vmask c msk ew zm
    let x := lane m.w (s0.v c b)
    s0.second c m.w f3 d e = some y →
    ((vintOp f11.toNat m.w 0 0).isSome → exec (.vint c f3 a b d e msk ew zm f11) s = .next ((s0.wroteV c 6 a
      (m.merge (s0.v c a) (fun i => (vintOp f11.toNat m.w (x i) (y i)).getD 0))).getD s)) ∧
    ((vcmpOp f11.toNat m.w 0 0).isSome → a.toNat < 8 → exec (.vcmp c f3 a b d e msk ew zm f11) s = .next ((s0.wroteM c 6
      (a.truncate 3) (m.mergeMask (s0.m c a) (fun i => (vcmpOp f11.toNat m.w (x i) (y i)).getD false))).getD s)) ∧
    (∀ (f : Fmt) (rm : Nat), laneFmt ew = some f → s0.rmode c 7 = some rm →
      ((vfpOp f rm f11.toNat 0 0).isSome →
        let r (i : Nat) : Nat × Nat := (vfpOp f rm f11.toNat (x i) (y i)).getD (0, 0)
        let s1 := s0.settleFlags c (m.flags (fun i => (r i).2))
        exec (.vfp c f3 a b d e msk ew zm f11) s = .next ((s1.wroteV c 6 a (m.merge (s0.v c a) (fun i => (r i).1))).getD s)) ∧
      ((vfpOp f rm f11.toNat 0 0) = none → (vfpCmp f f11.toNat 0 0).isSome → a.toNat < 8 →
        let r (i : Nat) : Bool × Nat := (vfpCmp f f11.toNat (x i) (y i)).getD (false, 0)
        exec (.vfp c f3 a b d e msk ew zm f11) s = .next ((((s0.settleFlags c (m.flags (fun i => (r i).2))).setM c
          (a.truncate 3) (m.mergeMask (s0.m c a) (fun i => (r i).1))).retireInstr c (s0.nextPc c 6)).getD s)) ∧
      (f11.toNat < 4 →
        let r (i : Nat) : Nat × Nat :=
          f.fma rm (f11.getLsbD 1) (f11.getLsbD 0) (x i) (lane m.w (s0.v c d) i) (lane m.w (s0.v c e) i)
        let s1 := s0.settleFlags c (m.flags (fun i => (r i).2))
        exec (.vfmadd c a b d e msk ew zm f11) s = .next ((s1.wroteV c 6 a (m.merge (s0.v c a) (fun i => (r i).1))).getD s)))

/-- R75, R77: lane by lane, VINT leaves in an enabled lane the operation of that lane alone, in a disabled lane zero if ZM = 1 and its
old value otherwise. -/
def Obligations.vint_lane_by_lane : Prop :=
  ∀ (c : Nat) (f3 : BitVec 3) (a b d e : Reg5) (msk : BitVec 3) (ew : BitVec 2) (zm : BitVec 1) (f11 : BitVec 11)
    (y : Nat → Nat) (s s0 : State), s.Fetched c 6 s0 →
    let w := 8 * 2 ^ ew.toNat
    s0.second c w f3 d e = some y → (vintOp f11.toNat w 0 0).isSome →
    ∃ v : Vec, exec (.vint c f3 a b d e msk ew zm f11) s = .next ((s0.wroteV c 6 a v).getD s) ∧
      ∀ i, i < 512 / w →
        lane w v i =
          if msk = 0 ∨ ((s0.core c).mr msk).getLsbD i then (vintOp f11.toNat w (lane w (s0.v c b) i) (y i)).getD 0 % 2 ^ w
          else if zm = 1 then 0 else lane w (s0.v c a) i

/-- R78, R79: a vector load completes with the enabled lanes loaded in order, whatever array error it meets, and a vector store with every
enabled lane stored in order, a contiguous store of a whole line at once; with no lane enabled nothing is accessed.  Their lanes and
micro-ops are counted. -/
def Obligations.vector_memory_results : Prop :=
  ∀ (c : Nat) (f3 : BitVec 3) (a b d : Reg5) (msk : BitVec 3) (ew : BitVec 2) (zm : BitVec 1) (imm : BitVec 16)
    (addr : Nat → Word) (s s0 : State), s.Fetched c 6 s0 →
    let m := s0.vmask c msk ew zm
    let n := m.w / 8
    let on := m.onLanes
    let whole := f3 = 0 ∧ on.length = 512 / m.w ∧ s0.wholeLine c (addr 0) = true
    let stored (s1 : State) : Host.Outcome State Fault Refusal := .next ((s1.retireInstr c (s0.nextPc c 6)).getD s)
    s0.laneAddr c m.w f3 b d imm = some addr →
    (∀ err l s' s1, s0.loadErr c 6 err (addr (on.headD 0)) n = .ok () s' → s'.loadLanes c n addr on = .ok l s1 →
      exec (.vld ⟨c, err⟩ f3 a b d msk ew zm imm) s = .next ((((s1.setV c a (m.merge (s1.v c a) (fun i => (cellFind l i).getD 0))).lanesCounted
        c n f3 addr on).retireInstr c (s1.nextPc c 6)).getD s)) ∧
    (∀ s1, f3 ≠ 1 → ¬ whole → s0.storeLanes s0 c n addr (lane m.w (s0.v c a)) on = .ok (s0.nextPc c 6) s1 →
      exec (.vst c f3 a b d msk ew zm imm) s = stored (s1.lanesCounted c n f3 addr on)) ∧
    (∀ s1, whole → s0.storeRaw c Acc.store (addr 0) (leBytes 64 (s0.v c a).toNat) true false = .ok () s1 →
      exec (.vst c f3 a b d msk ew zm imm) s = stored s1) ∧
    (on = [] → exec (.vld ⟨c, 0⟩ f3 a b d msk ew zm imm) s = .next ((((s0.setV c a (m.merge (s0.v c a) (fun _ => 0))).lanesCounted
      c n f3 addr []).retireInstr c (s0.nextPc c 6)).getD s)) ∧
    (on = [] → f3 ≠ 1 → exec (.vst c f3 a b d msk ew zm imm) s = stored (s0.lanesCounted c n f3 addr []))

/-- R80, Table ISA-18: the permutes, slides, column packs and moves complete with the lanes the table gives.

R80, R81, Table ISA-18: reductions, mask operations and moves between the register files complete with their results; a reduction
over no enabled lanes yields the value of R81.

Where the spec leaves the choice open it rests on the model's choices of log entry 10. -/
def Obligations.vector_permute_reduce_mask_results : Prop :=
  (∀ (c : Nat) (a b d e : Reg5) (msk : BitVec 3) (ew : BitVec 2) (zm : BitVec 1) (s s0 : State), s.Fetched c 6 s0 →
    let m := s0.vmask c msk ew zm
    let n := 512 / m.w
    let x := lane m.w (s0.v c b)
    let y := lane m.w (s0.v c d)
    let out (f : Nat → Nat) : Host.Outcome State Fault Refusal := .next ((s0.wroteV c 6 a (m.merge (s0.v c a) f)).getD s)
    exec (.vperm c a b d e msk ew zm) s = out (fun i => x (y i % n)) ∧
    exec (.vperm2 c a b d e msk ew zm) s =
      out (fun i => if y i % (2 * n) < n then x (y i % (2 * n)) else lane m.w (s0.v c e) (y i % (2 * n) - n)) ∧
    exec (.vcompress c a b d e msk ew zm) s =
      .next ((s0.wroteV c 6 a (BitVec.ofNat 512 (joinLanes m.w (m.onLanes.map x)))).getD s) ∧
    exec (.vexpand c a b d e msk ew zm) s = out (fun i => x ((List.range i).filter m.on).length) ∧
    exec (.vslideup c a b d e msk ew zm) s = out (fun i => if i < e.toNat then 0 else x (i - e.toNat)) ∧
    exec (.vslidedn c a b d e msk ew zm) s = out (fun i => x (i + e.toNat)) ∧
    exec (.vrev c a b d e msk ew zm) s = out (fun i => x (n - 1 - i)) ∧
    exec (.vmov c a b msk ew zm) s = out x ∧ exec (.vzero c a msk ew zm) s = out (fun _ => 0) ∧
    (e.toNat + 1 ≤ m.w → exec (.vunpk c a b d e msk ew zm) s =
      out (fun i => (s0.v c b).toNat / 2 ^ ((s0.g c d).toNat % 512 + i * (e.toNat + 1)) % 2 ^ (e.toNat + 1))) ∧
    (msk = 0 → e.toNat + 1 ≤ m.w → exec (.vpack c a b d e msk ew zm) s =
      .next ((s0.wroteV c 6 a (BitVec.ofNat 512 (joinLanes (e.toNat + 1) ((List.range n).map x)))).getD s)) ∧
    (ew = 2 → exec (.vcrc c a b d e msk ew zm) s =
      out (fun i => crc32c (lane 32 (s0.v c b) i) (lane 32 (s0.v c d) i) 4))) ∧
  (∀ (c : Nat) (f11 : BitVec 11) (a b d : Reg5) (ln : BitVec 6) (msk : BitVec 3) (ew : BitVec 2) (zm : BitVec 1) (s s0 : State),
    s.Fetched c 6 s0 →
    let m := s0.vmask c msk ew zm
    let x := lane m.w (s0.v c b)
    let l := m.onLanes.map x
    (∀ v, vredInt f11.toNat m.w l = some v → exec (.vredInt c f11 a b msk ew zm) s = .next ((s0.wroteG c 6 a (BitVec.ofInt 64 v)).getD s)) ∧
    (m.onLanes = [] →
      exec (.vredInt c 0 a b msk ew zm) s = .next ((s0.wroteG c 6 a 0).getD s) ∧
      exec (.vredInt c 1 a b msk ew zm) s = .next ((s0.wroteG c 6 a (BitVec.ofInt 64 (2 ^ (m.w - 1) - 1))).getD s) ∧
      exec (.vredInt c 2 a b msk ew zm) s = .next ((s0.wroteG c 6 a (BitVec.ofInt 64 (-(2 ^ (m.w - 1))))).getD s) ∧
      exec (.vredInt c 3 a b msk ew zm) s = .next ((s0.wroteG c 6 a (BitVec.ofInt 64 (2 ^ m.w - 1))).getD s) ∧
      exec (.vredInt c 4 a b msk ew zm) s = .next ((s0.wroteG c 6 a 0).getD s)) ∧
    (∀ (f : Fmt) (rm : Nat), laneFmt ew = some f → s0.rmode c 7 = some rm →
      let out (r : Nat × Nat) : Host.Outcome State Fault Refusal :=
        .next (((s0.settleFlags c r.2).wroteV c 6 a (BitVec.ofNat 512 r.1)).getD s)
      exec (.vredFp c 8 a b msk ew zm) s = out (vredFp f (f.add rm) (f.zero false) l) ∧
      exec (.vredFp c 9 a b msk ew zm) s = out (vredFp f (f.minmax false) (f.inf false) l) ∧
      exec (.vredFp c 10 a b msk ew zm) s = out (vredFp f (f.minmax true) (f.inf true) l)) ∧
    (a.toNat < 8 → b.toNat < 8 → d.toNat < 8 →
      let p := s0.m c b
      let q := s0.m c d
      let w (v : Word) : Host.Outcome State Fault Refusal := .next ((s0.wroteM c 6 (a.truncate 3) v).getD s)
      exec (.maskLogic c 0 a b d 0) s = w (p &&& q) ∧ exec (.maskLogic c 1 a b d 0) s = w (p ||| q) ∧
      exec (.maskLogic c 2 a b d 0) s = w (p ^^^ q) ∧ exec (.maskLogic c 3 a b d 0) s = w (p &&& ~~~q) ∧
      exec (.maskLogic c 4 a b d 0) s = w (~~~p)) ∧
    (b.toNat < 8 →
      exec (.mtog c a b 0) s = .next ((s0.wroteG c 6 a (s0.m c b)).getD s) ∧
      exec (.mpopc c a b 0) s = .next ((s0.wroteG c 6 a (BitVec.ofNat 64 (popc (s0.m c b).toNat 64))).getD s) ∧
      exec (.mfirst c a b 0) s = .next ((s0.wroteG c 6 a (BitVec.ofNat 64 (ctz (s0.m c b).toNat 0 64))).getD s)) ∧
    (a.toNat < 8 → exec (.gtom c a b 0) s = .next ((s0.wroteM c 6 (a.truncate 3) (s0.g c b)).getD s)) ∧
    (msk = 0 →
      exec (.vbcastG c a b msk ew zm) s = .next ((s0.wroteV c 6 a (m.merge (s0.v c a) (fun _ => (s0.g c b).toNat % 2 ^ m.w))).getD s) ∧
      (ln.toNat < 512 / m.w →
        exec (.vins c a b ln msk ew zm) s = .next ((s0.wroteV c 6 a (m.merge (s0.v c a)
          (fun i => if i = ln.toNat then (s0.g c b).toNat % 2 ^ m.w else lane m.w (s0.v c a) i))).getD s) ∧
        exec (.vext c a b ln msk ew zm) s = .next ((s0.wroteG c 6 a (BitVec.ofNat 64 (x ln.toNat))).getD s))))

/-- R60, R61, Table ISA-12: a load that is granted completes and writes gA with the bytes read, sign-extended for F3 = 0 to 3 and
zero-extended for F3 = 4 to 6: LD, LD.L, LDX, LDA (aligned, an earlier release store of the core performed first) and C.LDK, whatever array
error it meets; one that crosses a line is counted (R188).

R60, R61, Table ISA-12: a store that is granted completes: the low bytes of gA, lowest address first, are stored at the address:
ST, ST.L, STX, STL (aligned) and C.STK; PREF completes whatever becomes of the prefetch (R63).

Where the spec leaves the choice open it rests on the model's choices of log entries 16 and 20. -/
def Obligations.load_and_store_results : Prop :=
  (∀ (c err : Nat) (f3 : BitVec 3) (a b d : Reg5) (n : Nat) (sg : Bool) (bs : List Byte) (s s0 s1 : State),
    loadWidth f3 = some (n, sg) →
    let got (va : Word) (m : Nat) (g : Bool) : State := (s1.setG c a (extend bs g)).crossCounted c va m
    let done (len : Nat) (u : State) : Host.Outcome State Fault Refusal := .next ((u.retireInstr c (s1.nextPc c len)).getD s)
    (∀ imm : BitVec 11, let va := s0.g c b + imm.signExtend 64
      s.Fetched c 4 s0 → s0.LoadsMet c 4 err va n bs s1 → exec (.ld c f3 a b imm err) s = done 4 (got va n sg)) ∧
    (∀ imm : BitVec 27, let va := s0.g c b + imm.signExtend 64
      s.Fetched c 6 s0 → s0.LoadsMet c 6 err va n bs s1 → exec (.ldL ⟨c, err⟩ f3 a b imm) s = done 6 (got va n sg)) ∧
    (∀ f6 : BitVec 6, let va := s0.g c b + (s0.g c d <<< f6.toNat)
      f6.toNat < 4 → s.Fetched c 4 s0 → s0.LoadsMet c 4 err va n bs s1 → exec (.ldx ⟨c, err⟩ f3 f6 a b d) s = done 4 (got va n sg)) ∧
    (∀ (imm : BitVec 11) (s' : State), let va := s0.g c b + imm.signExtend 64
      s.Fetched c 4 s0 → va.toNat % n = 0 → (if (s0.core c).storeQ.any (·.rel) then s0.drain c else some s0) = some s' →
      s'.LoadsMet c 4 err va n bs s1 → exec (.lda ⟨c, err⟩ f3 a b imm) s = done 4 ((got va n sg).countC c 152)) ∧
    (∀ imm : BitVec 5, let va := s0.g c 25 + imm.zeroExtend 64 * 8
      s.Fetched c 2 s0 → s0.LoadsMet c 2 err va 8 bs s1 → exec (.cLdk ⟨c, err⟩ a imm) s = done 2 (got va 8 true))) ∧
  (∀ (c : Nat) (f3 : BitVec 3) (a b d : Reg5) (n : Nat) (s s0 s1 : State),
    storeWidth f3 = some n →
    let bytes := leBytes n (s0.g c a).toNat
    let done (len : Nat) (u : State) : Host.Outcome State Fault Refusal := .next ((u.retireInstr c (s1.nextPc c len)).getD s)
    (∀ imm : BitVec 11, s.Fetched c 4 s0 →
      s0.store c Acc.store (s0.g c b + imm.signExtend 64) bytes false false = .ok () s1 → exec (.st c f3 a b imm) s = done 4 s1) ∧
    (∀ imm : BitVec 27, s.Fetched c 6 s0 →
      s0.store c Acc.store (s0.g c b + imm.signExtend 64) bytes false false = .ok () s1 → exec (.stL c f3 a b imm) s = done 6 s1) ∧
    (∀ f6 : BitVec 6, f6.toNat < 4 → s.Fetched c 4 s0 →
      s0.store c Acc.store (s0.g c b + (s0.g c d <<< f6.toNat)) bytes false false = .ok () s1 →
      exec (.stx c f3 f6 a b d) s = done 4 s1) ∧
    (∀ imm : BitVec 11, s.Fetched c 4 s0 → (s0.g c b + imm.signExtend 64).toNat % n = 0 →
      s0.store c Acc.store (s0.g c b + imm.signExtend 64) bytes false true = .ok () s1 →
      exec (.stl c f3 a b imm) s = done 4 (s1.countC c 153)) ∧
    (∀ imm : BitVec 5, s.Fetched c 2 s0 →
      s0.store c Acc.store (s0.g c 25 + imm.zeroExtend 64 * 8) (leBytes 8 (s0.g c a).toNat) false false = .ok () s1 →
      exec (.cStk c a imm) s = done 2 s1) ∧
    (∀ (hint : Reg5) (imm : BitVec 11), s.Fetched c 4 s0 →
      exec (.pref c 0 hint b imm) s =
        .next (((s0.prefetch c hint.toNat (s0.g c b + imm.signExtend 64)).retireInstr c (s0.nextPc c 4)).getD s)))

/-- R44, R46, R64, R65, Table ISA-13: every jump and branch for whose checkpoint there is room (R215) completes: the pc is the target (the
address of the instruction plus the immediate times two, or the register) when the transfer is taken and the next instruction otherwise;
the eight conditions are those of R65.  A transfer that would be taken to a target with bit 0 set raises MISALIGNED at it. -/
def Obligations.branch_results : Prop :=
  ∀ (c : Nat) (f3 : BitVec 3) (a b d : Reg5) (s s0 : State),
    let goes (i : Instr) (kind len : Nat) (taken : Bool) (target : Word) : Prop :=
      let next := if taken then target else s0.nextPc c len
      ((taken = true → target.toNat % 2 = 0) → (s0.nopred c || !(s0.core c).pred.full kind) = true →
        ∃ u : State, s0.transfer c kind len taken target (s0.nextPc c len) = .ok next u ∧ exec i s = .next ((u.retireInstr c next).getD s)) ∧
      (taken = true → target.toNat % 2 = 1 →
        exec i s = .next ((s0.takes c { cause := 0x0101, rpc := s0.pc c, epc := s0.pc c, evaddr := target }).getD s))
    let rel (x : Word) : Word := s0.pc c + x * 2
    let holds (x y : Word) : Bool :=
      match f3.toNat with
      | 0 => decide (x = y) | 1 => decide (x ≠ y) | 2 => decide (x.toInt < y.toInt) | 3 => decide (y.toInt ≤ x.toInt)
      | 4 => decide (x.toNat < y.toNat) | 5 => decide (y.toNat ≤ x.toNat) | 6 => decide (x &&& y ≠ 0) | _ => decide (x &&& y = 0)
    (s.Fetched c 4 s0 →
      (∀ imm : BitVec 11, goes (.bcc c f3 b d imm) 0 4 (holds (s0.g c b) (s0.g c d)) (rel (imm.signExtend 64))) ∧
      (∀ imm : BitVec 24, goes (.jmp c imm) 1 4 true (rel (imm.signExtend 64))) ∧ goes (.jmpr c b) 3 4 true (s0.g c b)) ∧
    (s.Fetched c 6 s0 → ∀ imm : BitVec 27,
      goes (.bccL c f3 a b imm) 0 6 (holds (s0.g c a) (s0.g c b)) (rel (imm.signExtend 64))) ∧
    (s.Fetched c 2 s0 →
      (∀ imm : BitVec 5, goes (.cBeqz c a imm) 0 2 (s0.g c a = 0) (rel (imm.signExtend 64)) ∧
        goes (.cBnez c a imm) 0 2 (s0.g c a ≠ 0) (rel (imm.signExtend 64))) ∧
      (∀ imm : BitVec 10, goes (.cJ c imm) 1 2 true (rel (imm.signExtend 64))))

/-- R46, R64, R66, R188: a call to an even target pushes the address after it on the shadow stack (SR.SSP lowered by 8), writes it to g26
and goes to its target; a return whose register equals the entry at SR.SSP, an even address, raises SR.SSP by 8 and goes there, and one
that does not raises CONTROL_FLOW (cause 0x0201).  Each is two micro-ops.

R67, R86: with no arithmetic exception pending, TRAP raises its event (cause 0x0004, with its 16-bit code) and BRK and C.BRK raise
BREAKPOINT (cause 0x0003), recording the address of the instruction and returning to the one after it. -/
def Obligations.call_return_trap_results : Prop :=
  (∀ (c : Nat) (b : Reg5) (s s0 s1 u : State) (t : Word),
    let ret := s0.pc c + 4
    let p := s0.sr c SR.SSP
    let even := t.toNat % 2 = 0
    let done (x : State) : Host.Outcome State Fault Refusal := .next (((x.countC c 4).retireInstr c t).getD s)
    let pushed (kind : Nat) : Prop := s0.store c Acc.push (p - 8) (leBytes 8 ret.toNat) false false = .ok () s1 ∧
      ((s1.setSr c SR.SSP (p - 8)).setG c 26 ret).transfer c kind 4 true t ret = .ok t u
    let popped (len : Nat) : Prop := (s1.setSr c SR.SSP (p + 8)).transfer c 5 len true t ((s1.setSr c SR.SSP (p + 8)).nextPc c len) = .ok t u
    (∀ imm : BitVec 24, s.Fetched c 4 s0 → t = s0.pc c + imm.signExtend 64 * 2 → even → pushed 2 → exec (.call c imm) s = done u) ∧
    (s.Fetched c 4 s0 → t = s0.g c b → even → pushed 4 → exec (.callr c b) s = done u) ∧
    (∀ e, s.Fetched c 4 s0 → t = s0.g c b → s0.loadRaw c Acc.pop p 8 = .ok e s1 →
      (BitVec.ofNat 64 (leNat e) = t → even → popped 4 → exec (.ret c b) s = done (u.crossCounted c p 8)) ∧
      (BitVec.ofNat 64 (leNat e) ≠ t →
        exec (.ret c b) s = .next ((s1.takes c { cause := 0x0201, rpc := s1.pc c, epc := s1.pc c }).getD s))) ∧
    (∀ e, s.Fetched c 2 s0 → t = s0.g c 26 → s0.loadRaw c Acc.pop p 8 = .ok e s1 →
      BitVec.ofNat 64 (leNat e) = t → even → popped 2 → exec (.cRet c) s = done (u.crossCounted c p 8))) ∧
  (∀ (c : Nat) (s s0 : State), (s0.sr c SR.FPSTAT).getLsbD 8 = false →
    (s.Fetched c 4 s0 →
      (∀ imm : BitVec 19, imm.toNat < 2 ^ 16 → exec (.trap c imm) s =
        .next ((s0.takes c { cause := 0x0004, rpc := s0.pc c + 4, epc := s0.pc c, code := imm.toNat }).getD s)) ∧
      exec (.brk c 0) s = .next ((s0.takes c { cause := 0x0003, rpc := s0.pc c + 4, epc := s0.pc c }).getD s)) ∧
    (s.Fetched c 2 s0 → exec (.cBrk c) s = .next ((s0.takes c { cause := 0x0003, rpc := s0.pc c + 2, epc := s0.pc c }).getD s)))

/-- R82, R83, R121, R122: a Hearth atomic on a clean line its home can serve completes: memory at the address receives the result of
the operation of Table ISA-19 on its old value (HCAS: the new value if the old one equals the comparand, and otherwise the old value),
and gA the old value.  With A = 0 the atomic is posted, which is counted apart.

Where the spec leaves the choice open it rests on the model's choices of log entries 16 and 39. -/
def Obligations.hearth_atomic_results : Prop :=
  ∀ (c pa h : Nat) (a b d e : Reg5) (s s0 s1 : State), s.Fetched c 4 s0 → (s0.core c).region = none → s1.badLine pa = false →
    let does (i : Instr) (n new : Nat) : Prop :=
      exec i s = .next (((((s1.hatApply h (lineOf pa) pa (leBytes n new)).setG c a (BitVec.ofNat 64 (memNat s1.mem pa n))).countC c
        (if a = 0 then 164 else 163)).retireInstr c ((s1.hatApply h (lineOf pa) pa (leBytes n new)).nextPc c 4)).getD s)
    (∀ (n : Nat) (k : BitVec 6), (n = 4 ∧ k = 0 ∨ n = 8 ∧ k = 32) → (s0.g c b).toNat % n = 0 →
      s0.LineAt c Acc.atomic (s0.g c b) n false pa h s1 →
      let old := memNat s1.mem pa n
      let x := (s0.g c d).toNat % 2 ^ (8 * n)
      let sg (v : Nat) : Int := if v.testBit (8 * n - 1) then (v : Int) - 2 ^ (8 * n) else v
      does (.hatom c 0 (k + 0) a b d) n ((old + x) % 2 ^ (8 * n)) ∧ does (.hatom c 0 (k + 2) a b d) n (old &&& x) ∧
      does (.hatom c 0 (k + 4) a b d) n (old ||| x) ∧ does (.hatom c 0 (k + 6) a b d) n (old ^^^ x) ∧
      does (.hatom c 0 (k + 8) a b d) n x ∧
      does (.hatom c 0 (k + 10) a b d) n (if sg x < sg old then x else old) ∧
      does (.hatom c 0 (k + 12) a b d) n (if sg old < sg x then x else old) ∧
      does (.hatom c 0 (k + 14) a b d) n (min old x) ∧ does (.hatom c 0 (k + 16) a b d) n (max old x)) ∧
    (∀ (n : Nat) (f1 : BitVec 1), (n = 4 ∧ f1 = 0 ∨ n = 8 ∧ f1 = 1) → (s0.g c b).toNat % n = 0 →
      s0.LineAt c Acc.atomic (s0.g c b) n false pa h s1 →
      let old := memNat s1.mem pa n
      does (.hcas c 0 f1 a b d e) n (if old = (s0.g c e).toNat % 2 ^ (8 * n) then (s0.g c d).toNat % 2 ^ (8 * n) else old))

/-- R114-R120: a region opens with its checkpoint and an empty set and gA = 0, ordered when ABORTS is 3 or more; ADD of a line of
memory records it; a commit writes gA with [8] = ordered and [15:12] = ABORTS, closes the region and zeroes ABORTS; COMMIT, ADD and
ABORT with no region open are no-ops, COMMIT writing gA := 0.

R116, R282: ATOM.ABORT aborts an open region with the code in gB[15:0]; a region more than 1,024
instructions past its ATOM.BEGIN, which `retired` counts too, aborts with cause LONG (6); an ordered region stalled by recovery for 2 ms aborts with cause RECOVERY (10).

Where the spec leaves the choice open it rests on the model's choices of log entry 29. -/
def Obligations.region_results : Prop :=
  (∀ (c : Nat) (a b : Reg5) (s s0 s1 : State), s.Fetched c 4 s0 →
    (∀ r, (s0.core c).region = none → s0.drain c = some s1 →
      r = { ordered := decide (3 ≤ (s1.core c).aborts), lines := [], held := [], stores := [], accessed := false, retired := 0, dest := a,
            next := s1.pc c + 4, ckG := (s1.core c).g, ckV := (s1.core c).v, ckM := (s1.core c).m,
            ckFpstat := (s1.core c).srOwn SR.FPSTAT, ckXpc := (s1.core c).srOwn SR.XPC : Region } →
      ∃ u : State, exec (.atomBegin c a) s = .next ((u.retireInstr c (u.nextPc c 4)).getD s) ∧ (u.core c).region = some r ∧ u.g c a = 0 ∧
        u.mem = s1.mem) ∧
    (∀ r pa h, (s0.core c).region = some r → r.accessed = false → r.lines.length < 8 → r.lines.contains (lineOf pa) = false →
      s0.access c Acc.atomAdd (s0.g c b) 1 = .ok [{ pa := pa, len := 1, dev := false }] s1 →
      ((∃ o, s1.target (coreSock c) pa = .dram h o) ∨ ∃ o, s1.target (coreSock c) pa = .cxl h o) →
      s1.lineWaits c (lineOf pa) = false →
      let u := (if r.ordered then s1 else s1.acqOwn c (lineOf pa) h).updCore c (fun k => k.addLine (lineOf pa))
      exec (.atomAdd c b) s = .next ((u.retireInstr c (u.nextPc c 4)).getD s)) ∧
    (∀ r s2 s3, (s0.core c).region.isSome → s0.drain c = some s1 → s1.ensureHeld c = some s2 → (s2.core c).region = some r →
      s2.commitStores c r = some s3 →
      ∃ u : State, exec (.atomCommit c a) s = .next ((u.retireInstr c (u.nextPc c 4)).getD s) ∧ (u.core c).aborts = 0 ∧ u.mem = s3.mem ∧
        (a ≠ 0 → u.g c a = BitVec.ofNat 64 ((if r.ordered then 256 else 0) + (s3.core c).aborts * 4096))) ∧
    ((s0.core c).region = none →
      exec (.atomCommit c a) s = .next (((s0.setG c a 0).retireInstr c ((s0.setG c a 0).nextPc c 4)).getD s) ∧
      exec (.atomAdd c b) s = .next ((s0.retireInstr c (s0.nextPc c 4)).getD s) ∧
      exec (.atomAbort c b) s = .next ((s0.retireInstr c (s0.nextPc c 4)).getD s))) ∧
  (∀ (c : Nat) (b : Reg5) (r : Region) (s s0 : State),
    (s.Fetched c 4 s0 → (s0.core c).region = some r → (s0.core c).devWait = none → (s0.core c).wait = none →
      (s0.core c).fence = none →
      exec (.atomAbort c b) s = .next ((s0.abortRegion c 11 ((s0.g c b).toNat % 2 ^ 16)).stepDone c)) ∧
    ((s.core c).region = some r → 1025 < r.retired →
      exec (.regionLong c) s = .next ((s.abortRegion c 6 0).stepDone c)) ∧
    ((s.core c).region = some r → r.ordered = true → s.inAction (coreSock c) = true →
      exec (.regionRecoveryTimeout c) s = .next ((s.abortRegion c 10 0).stepDone c)))

/-- R114, R116, R118: aborting a region restores g0-g31, v0-v31, m0-m7, SR.FPSTAT and SR.XPC from its checkpoint, writes the cause and
code into gA, discards the stores it held, leaves memory as it is, and continues after the ATOM.BEGIN; ABORTS counts the causes
CONFLICT (1), INTERRUPT (8) and RECOVERY (10) up to 15. -/
def Obligations.region_abort_restores : Prop :=
  ∀ (c cause code : Nat) (r : Region) (s : State), (s.core c).region = some r →
    let u := s.abortRegion c cause code
    (u.core c).region = none ∧ u.mem = s.mem ∧ (u.core c).storeQ = (s.core c).storeQ ∧ u.pc c = r.next ∧
    (u.core c).v = r.ckV ∧ (u.core c).m = r.ckM ∧ (u.core c).srOwn SR.FPSTAT = r.ckFpstat ∧ (u.core c).srOwn SR.XPC = r.ckXpc ∧
    (∀ x : Reg5, x ≠ 0 → x ≠ r.dest → (u.core c).gr x = cellGet 0 r.ckG x.toNat) ∧
    (u.core c).aborts = (if cause = 1 ∨ cause = 8 ∨ cause = 10 then min 15 ((s.core c).aborts + 1) else (s.core c).aborts) ∧
    ∀ d, d ≠ c → u.core d = s.core d

/-- R89, R94, R95: the fences complete: FENCE.LL, LS and SS without waiting; FENCE.SL, FULL and IO once every earlier store of the
core is performed; FENCE.GLOBAL when also every partition-scope TLBI of the core is complete and no link holds its device accesses; FENCE.X and C.FENCE.X with no
arithmetic exception pending.

R95, R283, R284: a fence that cannot complete yet leaves the core waiting on it, and after 2 ms with a recovery action in progress
raises RECOVERY_FAILED (cause 0x0303), precisely, with the address of the oldest store it waits for.

Where the spec leaves the choice open it rests on the model's choices of log entries 15 and 31. -/
def Obligations.fence_results : Prop :=
  (∀ (c : Nat) (s s0 s1 : State),
    let done (u : State) (len : Nat) : Host.Outcome State Fault Refusal := .next ((u.retireInstr c (u.nextPc c len)).getD s)
    let free (s : State) : State := s.updCore c (fun k => { k with fence := none })
    (s.Fetched c 4 s0 →
      exec (.fenceLl c) s = done (s0.countC c 154) 4 ∧ exec (.fenceLs c) s = done (s0.countC c 155) 4 ∧
      exec (.fenceSs c) s = done ((s0.updCore c (fun k => k.fenceStores)).countC c 157) 4 ∧
      (s0.drain c = some s1 → (s1.core c).mchk = [] →
        exec (.fenceSl c) s = done ((free s1).countC c 156) 4 ∧ exec (.fenceFull c) s = done ((free s1).countC c 158) 4 ∧
        ((s0.core c).region = none → exec (.fenceIo c) s = done ((free s1).countC c 159) 4) ∧
        ((s0.core c).region = none → (s1.core c).tlbiOut = [] → s1.devHeld c = false →
          exec (.fenceGlobal c) s = done ((free s1).countC c 160) 4)) ∧
      ((s0.sr c SR.FPSTAT).getLsbD 8 = false →
        exec (.fenceX c) s = .next (((s0.countC c 161).retireInstr c (s0.nextPc c 4)).getD s))) ∧
    (s.Fetched c 2 s0 → (s0.sr c SR.FPSTAT).getLsbD 8 = false →
      exec (.cFenceX c) s = .next (((s0.countC c 161).retireInstr c (s0.nextPc c 2)).getD s))) ∧
  (∀ (c : Nat) (s s0 : State),
    (s.Fetched c 4 s0 → s0.drain c = none →
      exec (.fenceFull c) s = .next (s0.updCore c (fun k => { k with fence := some 4 }))) ∧
    (∀ e t, s.canRun c = true → (s.core c).fence.isSome → s.inAction (coreSock c) = true → (s.core c).storeQ = e :: t →
      exec (.fenceRecoveryTimeout c) s = .next ((s.raise c
        { cause := 0x0303, rpc := s.pc c, epc := s.pc c, evaddr := BitVec.ofNat 64 e.pa, info := 2 + 2 ^ 15 }).getD s)) ∧
    (∀ x, s.pafs.find? (fun e => e.1 = c) = some x →
      exec (.postedAtomicFailed c) s = .next (({ s with pafs := s.pafs.erase x } : State).updCore c (fun k =>
        { k with mchk := k.mchk ++ [{ cause := 0x0302, addr := x.2.1, info := x.2.2 }] }))))

/-- R96-R99: cache maintenance completes: IFLUSH, the core's earlier stores performed, empties the L1I and flushes the pipeline; CCLEAN, CFLUSH and CINVAL act on the line at its home; CZERO stores
64 zero bytes; SWCLEAN and SWFLUSH, with SR.AUTH.CACHE_SW, act on a line location.

Where the spec leaves the choice open it rests on the model's choices of log entries 16 and 39. -/
def Obligations.cache_results : Prop :=
  ∀ (c pa h : Nat) (b : Reg5) (s s0 s1 : State), s.Fetched c 4 s0 → (s0.core c).region = none →
    let done (u : State) : Host.Outcome State Fault Refusal := .next ((u.retireInstr c (u.nextPc c 4)).getD s)
    (s0.drain c = some s1 → exec (.iflush c) s = done (s1.updCore c (fun k => { k with l1i := [], pred := k.pred.flush }.count 54 1))) ∧
    (s0.LineAt c Acc.clean (s0.g c b) 1 true pa h s1 →
      exec (.cclean c b) s = done (s1.cmoClean h (lineOf pa)) ∧ exec (.cflush c b) s = done (s1.recallAll (lineOf pa) h)) ∧
    (s0.auth c 4 = true → s0.LineAt c Acc.inval (s0.g c b) 1 true pa h s1 →
      exec (.cinval c b) s = done (s1.cmoInval h (lineOf pa))) ∧
    (∀ s2, s0.accessMem c Acc.czero (s0.g c b) 1 false = .ok [{ pa := pa, len := 1, dev := false }] s1 →
      s1.writeSpan c { pa := lineOf pa * 64, len := 64, dev := false } (List.replicate 64 0) true false = some s2 →
      exec (.czero c b) s = done s2) ∧
    (s0.auth c 3 = true → exec (.swclean c b) s = done (s0.setWay c (s0.g c b) false) ∧
      exec (.swflush c b) s = done (s0.setWay c (s0.g c b) true))

/-- R100, R101, R255, R258: a TLBI form with SR.AUTH.TLBI completes: with core scope it removes the entries named from the core's
translation caches at once, and with partition scope it is sent to every socket of the partition and counted as outstanding.

R256, Table XLAT-7: a partition-scope invalidation is forwarded to the targets of a socket, acknowledged by each once its entries
are gone, acknowledged by the socket when no target is left, and complete at the core when every socket has acknowledged. -/
def Obligations.tlb_invalidation_results : Prop :=
  (∀ (c : Nat) (b d : Reg5) (s s0 s1 : State), s.Fetched c 4 s0 → (s0.core c).region = none → s0.auth c 2 = true →
    (s0.core c).guest = false → s0.drain c = some s1 →
    let sid := (s0.g c d).toNat % 2 ^ 16
    let vm := (s0.g c d).toNat / 2 ^ 16 % 2 ^ 12
    let page := (s0.g c b).toNat / 2 ^ 12 % 2 ^ 45
    let core (i : Inval) : State := s1.updCore c (fun k => k.invalidate i)
    let done (u : State) : Host.Outcome State Fault Refusal := .next ((u.retireInstr c (u.nextPc c 4)).getD s)
    (exec (.tlbiVa c 0 b d) s = done (core (.va sid vm page)) ∧ exec (.tlbiSid c 0 d) s = done (core (.sid sid vm)) ∧
      exec (.tlbiVm c 0 d) s = done (core (.vm vm)) ∧ exec (.tlbiIpa c 0 b d) s = done (core (.ipa vm page)) ∧
      exec (.tlbiAll c 0) s = done (core .all)) ∧
    ((s1.core c).tlbiOut.length < 8 →
      exec (.tlbiVa c 1 b d) s = done (s1.tlbiSend c (.va sid vm page)) ∧
      exec (.tlbiSid c 1 d) s = done (s1.tlbiSend c (.sid sid vm)) ∧ exec (.tlbiVm c 1 d) s = done (s1.tlbiSend c (.vm vm)) ∧
      exec (.tlbiIpa c 1 b d) s = done (s1.tlbiSend c (.ipa vm page)) ∧ exec (.tlbiAll c 1) s = done (s1.tlbiSend c .all))) ∧
  (∀ (c k id t : Nat) (x : Tlbi) (y : TlbiSock) (s s1 : State), s.tlbiFind k id = some (x, y) →
    (y.fwd = false → exec (.tlbiForward k id) s =
      .next (s.tlbiAt k id (fun z => { z with fwd := true, left := s.tlbiTargets k }))) ∧
    (y.fwd = true → y.left.contains t = true → t < 256 → (s.core (k * 256 + t)).frozen = false →
      (s.core (k * 256 + t)).midAccess = false →
      s.drain (k * 256 + t) = some s1 → exec (.tlbiTargetAck k id t) s =
        .next ((s1.updCore (k * 256 + t) (fun q => q.invalidate x.inv)).tlbiAt k id
          (fun z => { z with left := z.left.filter (· ≠ t) }))) ∧
    (y.fwd = true → y.left.contains t = true → 256 ≤ t → exec (.tlbiTargetAck k id t) s =
      .next ((s.ioInval k (t - 256) x.inv).tlbiAt k id (fun z => { z with left := z.left.filter (· ≠ t) }))) ∧
    (y.fwd = true → y.left = [] → exec (.tlbiSocketAck k id) s = .next (s.tlbiAt k id (fun z => { z with sent := true }))) ∧
    (s.tlbis.find? (fun z => z.id = id && z.core = c) = some x → (∀ z ∈ x.socks, z.sent = true) →
      ∃ u : State, exec (.tlbiComplete c id) s = .next u ∧ (∀ z ∈ u.tlbis, z.id ≠ id) ∧ id ∉ (u.core c).tlbiOut))

/-- R102, R105, R106, R123, R267: SRD completes and writes gA with the register's value: what Table SYSX-6 lists for it, zero for a WO
register; SRD of SR.PMDATA needs SR.AUTH.PMU.

R102, R103, R104, R92, R180, R244, R576, R178: SWR of a register that may be written completes once the earlier stores are
performed, with the write's effect; the forms with a row of their own write SR.AUTH (which only loses bits), SR.KRIGHTS0 and
SR.KRIGHTS1 (intersected), SR.TCMP, SR.XLATCTL, SR.PMSEL and SR.IPI.

Where the spec leaves the choice open it rests on the model's choices of log entry 29. -/
def Obligations.system_register_results : Prop :=
  (∀ (c : Nat) (a : Reg5) (s s0 : State), s.Fetched c 4 s0 → (s0.core c).region = none → (s0.sr c SR.FPSTAT).getLsbD 8 = false →
    let reads (n : BitVec 12) (v : Word) : Prop :=
      exec (.srd c a n) s = .next (((s0.setG c a v).retireInstr c ((s0.setG c a v).nextPc c 4)).getD s)
    reads 0x004 (BitVec.ofNat 64 (coreLog c + s0.rd Reg.rootSocket { sock := coreSock c } * 2 ^ 8 + s0.partition (coreSock c) * 2 ^ 18)) ∧
    reads 0x005 (BitVec.ofNat 64 (cellGet 0 s0.repoch (coreSock c))) ∧ reads 0x006 (BitVec.ofNat 64 ((s0.core c).aborts +
      if 3 ≤ (s0.core c).aborts then 32 else 0)) ∧
    reads 0x140 (BitVec.ofNat 64 (s0.now (coreSock c))) ∧ reads 0x142 0 ∧ reads 0x1C0 0 ∧
    reads 0x083 (BitVec.ofNat 64 (((s0.core c).srOwn SR.DOMAIN).toNat % 2 ^ 16 + if (s0.core c).world.isSome then 2 ^ 16 else 0)) ∧
    (∀ n ∈ ([0x010, 0x040, 0x041, 0x042, 0x043, 0x080, 0x081, 0x082, 0x084, 0x0C0, 0x0C1, 0x0C2, 0x0C3, 0x0C4, 0x0C5, 0x0C6, 0x0C7,
      0x100, 0x101, 0x102, 0x103, 0x104, 0x141, 0x180, 0x1C1] : List (BitVec 12)), reads n (s0.sr c n.toNat)) ∧
    ((s0.auth c 5 = true → (s0.core c).guest = false →
      let s1 := (s0.pmdata c).2.setG c a (BitVec.ofNat 64 (s0.pmdata c).1)
      exec (.pmdataRead c a) s = .next ((s1.retireInstr c (s1.nextPc c 4)).getD s)) ∧
     (s0.auth c 5 = false → exec (.pmdataRead c a) s = .next ((s0.takes c { cause := 0x0002, rpc := s0.pc c, epc := s0.pc c }).getD s)))) ∧
  (∀ (c : Nat) (a : Reg5) (s s0 s1 : State), s.Fetched c 4 s0 → (s0.core c).region = none → (s0.core c).world = none →
    (s0.core c).guest = false → (s0.sr c SR.FPSTAT).getLsbD 8 = false → s0.drain c = some s1 →
    let v := s0.g c a
    let done (u : State) : Host.Outcome State Fault Refusal :=
      let u := u.swrEnd c
      .next ((u.retireInstr c (u.nextPc c 4)).getD s)
    exec (.swrAuth c a) s = done (s1.setSr c SR.AUTH (s1.sr c SR.AUTH &&& v &&& 0x7FF)) ∧
    exec (.swrKrights c false a) s = done (s1.setSr c SR.KRIGHTS0 (meetWord (s1.sr c SR.KRIGHTS0) v)) ∧
    exec (.swrKrights c true a) s = done (s1.setSr c SR.KRIGHTS1 (meetWord (s1.sr c SR.KRIGHTS1) v)) ∧
    (s0.auth c 1 = true → exec (.swrTcmp c a) s = done (s1.setSr c SR.TCMP (v &&& srMask SR.TCMP))) ∧
    (s0.auth c 0 = true → exec (.swrXlatctl c a) s = done (s1.updCore c (fun k => k.writeXlatctl v))) ∧
    (s0.auth c 5 = true → exec (.swrPmsel c a) s = done (s1.writePmsel c v)) ∧
    (s0.auth c 10 = true → exec (.ipiSend c a) s = done (s1.sendIpi c v)) ∧
    (s0.auth c 0 = true → exec (.swr c a 0x102) s = done (s1.setSr c SR.SID (v &&& 0xFFFF))) ∧
    (s0.auth c 1 = true → exec (.swr c a 0x0C2) s = done (s1.setSr c SR.FSP (v &&& 0xFFFFFFFFFFFFFF80))))

/-- R91, R92, Table SYSX-6: SWR of a register whose authority bit is 0 in SR.AUTH raises AUTHORITY_FAULT (cause 0x0002) precisely; a
number the table does not list and, for SWR, a register marked RO raise ILLEGAL_INSTRUCTION (cause 0x0001), precisely.

Where the spec leaves the choice open it rests on the model's choices of log entry 29. -/
def Obligations.system_register_traps : Prop :=
  ∀ (c : Nat) (a : Reg5) (n : BitVec 12) (bit : Nat) (s s0 : State), s.Fetched c 4 s0 → (s0.core c).region = none →
    let takes (cause : Nat) : Host.Outcome State Fault Refusal := .next ((s0.takes c { cause := cause, rpc := s0.pc c, epc := s0.pc c }).getD s)
    (srKnown n.toNat = false → exec (.srd c a n) s = takes 0x0001 ∧ exec (.swr c a n) s = takes 0x0001) ∧
    (srRo n.toNat = true → exec (.swr c a n) s = takes 0x0001) ∧
    (srRo n.toNat = false → srKnown n.toNat = true → srAuth n.toNat = some bit → s0.auth c bit = false →
      (s0.sr c SR.FPSTAT).getLsbD 8 = false → exec (.swr c a n) s = takes 0x0002)

/-- R107, Table SYSX-4: the intersection of two rights codes: 00 {}, 01 {read}, 10 {read, execute} and 11 {read, write} form sets, and
a drop takes the codes to the code of the intersection of their sets.

R107, R108: KDROP replaces the rights of one key by their intersection with gB[9:8], KDROP.LO and KDROP.HI those of keys 0 to 31
and 32 to 63. -/
def Obligations.rights_intersection : Prop :=
  (let rights (r : Nat) : List Nat := if r = 0 then [] else if r = 1 then [0] else if r = 2 then [0, 2] else [0, 1]
  (∀ x < 4, ∀ y < 4, ∀ p < 3, p ∈ rights (meet x y) ↔ p ∈ rights x ∧ p ∈ rights y) ∧
  ∀ (x y : Word) (k : Nat), k < 32 →
    (meetWord x y).toNat / 2 ^ (2 * k) % 4 = meet (x.toNat / 2 ^ (2 * k) % 4) (y.toNat / 2 ^ (2 * k) % 4)) ∧
  (∀ (c : Nat) (b : Reg5) (s s0 : State), s.Fetched c 4 s0 → (s0.core c).region = none →
    let x := (s0.g c b).toNat
    let key := x % 64
    let n := if key < 32 then SR.KRIGHTS0 else SR.KRIGHTS1
    let sh := 2 * (key % 32)
    let old := (s0.sr c n).toNat
    let done (u : State) : Host.Outcome State Fault Refusal := .next (((u.countC c 249).retireInstr c ((u.countC c 249).nextPc c 4)).getD s)
    exec (.kdrop c b) s = done (s0.setSr c n (BitVec.ofNat 64 (old - old / 2 ^ sh % 4 * 2 ^ sh +
      meet (old / 2 ^ sh % 4) (x / 2 ^ 8 % 4) * 2 ^ sh))) ∧
    exec (.kdropLo c b) s = done (s0.setSr c SR.KRIGHTS0 (meetWord (s0.sr c SR.KRIGHTS0) (s0.g c b))) ∧
    exec (.kdropHi c b) s = done (s0.setSr c SR.KRIGHTS1 (meetWord (s0.sr c SR.KRIGHTS1) (s0.g c b))))

/-- R109-R112, R128-R131, R149: a gate whose descriptor is granted, well formed and leads to a GENTRY pushes its return record of six
doublewords at SR.SSP - 48 of the callee's world and continues at the entry PC with the descriptor's authority, rights, domain and stack;
one from the normal world into an instance takes a seat of it.  GENTRY in sequence is a no-op.

R111, R168: GRET whose record is marked and names the current domain restores the caller's state from it and continues at the return
PC, and one whose marker bit is 0 raises CONTROL_FLOW; GRET.EV with SR.AUTH.EVENT restores the state of a well-formed frame at SR.FSP.

Where the spec leaves the choice open it rests on the model's choices of log entry 19. -/
def Obligations.gate_results : Prop :=
  (∀ (c pa : Nat) (b : Reg5) (bs : List Byte) (s s0 s1 s2 s3 s4 : State), s.Fetched c 4 s0 → (s0.core c).region = none →
    exec (.gentry c) s = .next ((s0.retireInstr c (s0.nextPc c 4)).getD s) ∧
    ((s0.sr c SR.FPSTAT).getLsbD 8 = false → (s0.g c b).toNat % 32 = 0 →
      s0.access c Acc.gate (s0.g c b) 32 = .ok [{ pa := pa, len := 32, dev := false }] s1 →
      s1.readSpans c Acc.gate (s0.g c b) [{ pa := pa, len := 32, dev := false }] = .ok bs s2 →
      let d := descOf bs
      let w := s2.gateWorld c pa d
      s2.gateRefusal c pa d = none → s2.gateFetch c w d = .ok 0x00019D00 s3 →
      let enters := (s3.core c).world.isNone && w.isSome
      let callee := if enters then s3.setWorld c w else s3
      let p := callee.sr c SR.SSP - 48
      callee.storeRaw c Acc.push p (s3.gateRecord c d enters) false false = .ok () s4 →
      let s5 := (s4.setSr c SR.SSP p).updCore c (fun k => (((k.gateLoad d).count 246 1).count 57 1).count 4 (microOps 0).toNat)
      let s6 := if enters then
          s5.seated c p false d.entry 2 (s3.rd Reg.ihubCoreCstateRpri (coreIx c)) (s3.rd Reg.ihubCoreCstateDepth (coreIx c))
        else s5
      exec (.gate c b) s = .next ((((s6.repredict c (s3.hardened c)).trRec c 5 (s3.pc c) d.entry).retireInstr c d.entry).getD s))) ∧
  (∀ (c : Nat) (m t bs : List Byte) (s s0 s1 s2 : State), s.Fetched c 4 s0 → (s0.core c).region = none →
    (s0.sr c SR.FPSTAT).getLsbD 8 = false →
    (s0.loadRaw c Acc.pop (s0.sr c SR.SSP) 8 = .ok m s1 →
      let x := leNat m
      (x % 2 = 1 → x / 2 ^ 16 % 2 ^ 16 = ((s1.core c).srOwn SR.DOMAIN).toNat % 2 ^ 16 →
        s1.loadRaw c Acc.pop (s0.sr c SR.SSP + 8) 40 = .ok t s2 →
        let pc := BitVec.ofNat 64 (frameWord (m ++ t) 1)
        exec (.gret c) s = .next ((((s2.gretDo c (m ++ t)).trRec c 5 (s2.pc c) pc).retireInstr c pc).getD s)) ∧
      (x % 2 = 0 → exec (.gret c) s = .next ((s1.takes c { cause := 0x0201, rpc := s1.pc c, epc := s1.pc c }).getD s))) ∧
    (s0.auth c 1 = true → s0.loadRaw c Acc.load (s0.sr c SR.FSP) 128 = .ok bs s1 → s1.frameBad c (frameWord bs 0) = false →
      let r := s1.unframe c bs
      let u := r.1.updCore c (fun k => ((k.count 248 1).count 57 1).count 4 (microOps 2).toNat)
      exec (.gretEv c) s = .next (((u.trRec c 5 (s1.pc c) r.2).retireInstr c r.2).getD s)) ∧
    (s0.auth c 1 = false → exec (.gretEv c) s = .next ((s0.takes c { cause := 0x0002, rpc := s0.pc c, epc := s0.pc c }).getD s)))

/-- R113, R542, R543: a WAIT form with no wake condition leaves the core waiting in its sleep state (Ember, Banked, Cold; Banked and
Cold need SR.AUTH.WAIT); with one it completes at once with the reason; CORE_WAKE retires the wait with the reason in gA; the power gate
closes a Banked or Cold entry while no wake condition has come.

Where the spec leaves the choice open it rests on the model's choices of log entry 15. -/
def Obligations.wait_results : Prop :=
  ∀ (c : Nat) (a b : Reg5) (s s0 s1 : State),
    (s.Fetched c 4 s0 → (s0.core c).region = none → (s0.sr c SR.FPSTAT).getLsbD 8 = false →
      let d := (s0.g c b).toNat
      let waits (kind : Nat) (s : State) : State := s.updCore c (fun k =>
        { k with wait := some { dest := a, deadline := d, kind := kind, closing := decide (kind ≠ 1) } })
      (s0.wakeReason c d = none →
        exec (.wait c a b) s = .next ((waits 1 s0).wr Reg.pwrCoreCstate (coreIx c) 1) ∧
        (s0.auth c 6 = true → s0.drain c = some s1 →
          exec (.waitBanked c a b) s = .next (waits 2 s1) ∧ exec (.waitCold c a b) s = .next (waits 3 (s1.flushL2 c)))) ∧
      (∀ r, s0.wakeReason c d = some r →
        let u := (s0.setG c a (BitVec.ofNat 64 r)).countC c 12
        exec (.wait c a b) s = .next ((u.retireInstr c (u.nextPc c 4)).getD s) ∧
        (s0.auth c 6 = true → exec (.waitBanked c a b) s = .next ((u.retireInstr c (u.nextPc c 4)).getD s) ∧
          exec (.waitCold c a b) s = .next ((u.retireInstr c (u.nextPc c 4)).getD s)))) ∧
    (∀ i r, (s.core c).wait = some i → s.wakeReason c i.deadline = some r → s.rd Reg.pwrPkgState { sock := coreSock c } = 0 →
      i.kind ≠ 3 →
      let u := (s.wr Reg.pwrCoreCstate (coreIx c) 0).updCore c (fun k =>
        ({ k with wait := none }.setG i.dest (BitVec.ofNat 64 r)).count 12 1)
      exec (.coreWake c) s = .next ((u.retireInstr c (u.nextPc c 4)).getD s)) ∧
    (∀ i, (s.core c).wait = some i → i.closing = true → s.wakeReason c i.deadline = none →
      exec (.sleepGateClosed c) s = .next ((s.wr Reg.pwrCoreCstate (coreIx c) i.kind).updCore c (fun k =>
        { k.sleepLoss with wait := some { i with closing := false } })))

/-- R162, R163, R164, R176: an event with room for its frame and its stores is entered as one step: g1 and SR.FSP hold the address of the frame,
SR.FSP - 128, SR.CAUSE and SR.EVADDR say what happened, SR.AUTH and the key rights come from the SR.EVENT registers, the
domain is 0, no SKIP or single step is armed, and execution continues at SR.EVENT_ENTRY.

Where the spec leaves the choice open it rests on the model's choices of log entry 31. -/
def Obligations.event_entry_results : Prop :=
  ∀ (c : Nat) (e : Ev) (s u : State), s.enter c e false false = .entered u →
    let f := s.sr c SR.FSP - 128
    (s.sr c SR.FPSTAT).getLsbD 8 = false → (s.core c).world = none → (s.core c).guest = false →
    (s.core c).storeQ.length ≤ 142 →
    u.pc c = s.sr c SR.EVENT_ENTRY ∧ u.g c 1 = f ∧ u.sr c SR.FSP = f ∧ u.sr c SR.CAUSE = BitVec.ofNat 64 e.cause ∧
    u.sr c SR.EVADDR = e.evaddr ∧ u.sr c SR.AUTH = s.sr c SR.EVENT_AUTH ∧ u.sr c SR.KRIGHTS0 = s.sr c SR.EVENT_KEYS0 ∧
    u.sr c SR.KRIGHTS1 = s.sr c SR.EVENT_KEYS1 ∧ (u.core c).srOwn SR.DOMAIN = 0 ∧
    (u.core c).srOwn SR.DBGCTL = (s.core c).srOwn SR.DBGCTL &&& ~~~0x300

/-- R173-R177, R171: at a boundary with a machine check due the core takes it; a due interrupt opens the entry window with the highest
deliverable vector; a vector of higher priority takes the window over; and at the window's commit the event of the vector chosen is
entered and its pending bit cleared.

R173, R175, R179, R180, R182, R204: a message or a source that names a core of its partition makes its vector pending there, one that
names no core is counted in DROP_MSG; a reached SR.TCMP raises the timer vector and is zeroed; TPRI and HARDEN take the value written.

Where the spec leaves the choice open it rests on the model's choices of log entries 13, 15 and 31. -/
def Obligations.interrupt_results : Prop :=
  (∀ (c v : Nat) (s u : State),
    (s.canRun c = true → (s.core c).stepping = false → (s.core c).region = none → (s.sr c SR.FPSTAT).getLsbD 8 = false →
      (s.core c).mchk = [] → s.dueVault c = none → s.dueInterrupt c = some v →
      exec (.eventEntry c) s = .next (s.updCore c (fun k => { k with win := some { vector := v, takeover := false, fromNormal := false } }))) ∧
    (∀ m t, s.canRun c = true → (s.core c).stepping = false → (s.core c).region = none → (s.sr c SR.FPSTAT).getLsbD 8 = false →
      (s.core c).mchk = m :: t →
      s.enter c { cause := m.cause, rpc := s.pc c, epc := s.pc c, evaddr := BitVec.ofNat 64 m.addr, info := m.info, async := true }
        false false = .entered u → (u.core c).stepping = false →
      exec (.eventEntry c) s = .next (u.updCore c (fun k => { k with mchk := t }))) ∧
    (∀ w, v < 256 → (s.core c).win = some w → (s.core c).world = none → s.isPend c v = true → s.deliverable c v = true →
      (s.core c).guest = false → w.vector / 16 < v / 16 →
      exec (.interruptTakeover c v) s = .next (s.updCore c (fun k =>
        { k with win := some { w with vector := v, takeover := true } }.count 252 1))) ∧
    (∀ w, (s.core c).win = some w → w.vector / 16 = v / 16 → v < 256 → exec (.interruptTakeover c v) s = .next s) ∧
    (∀ w, (s.core c).win = some w →
      (s.updCore c (fun k => { k with win := none })).enter c
        { cause := 0x400 + w.vector, rpc := s.pc c, epc := s.pc c, async := true, vector := w.vector } w.fromNormal w.takeover =
        .entered u → (u.core c).world = none →
      exec (.entryWindowCommit c) s = .next (u.clrPend c w.vector))) ∧
  (∀ (c k i v : Nat) (b : Bool) (s : State),
    (s.outOfReset c = true → (s.core c).world = none → (s.core c).srOwn SR.TCMP ≠ 0 →
      ((s.core c).srOwn SR.TCMP).toNat ≤ s.now (coreSock c) →
      exec (.timerCompare c) s = .next ((s.updCore c (fun q => q.setSrOwn SR.TCMP 0)).sysVector (coreSock c) (coreLog c)
        (s.rd Reg.ihubSysvecTimer { sock := coreSock c }))) ∧
    ((s.core c).world = none → (s.core c).srOwn SR.TCMP = 0 → exec (.timerCompare c) s = .next s) ∧
    (∀ p l, s.ipis.find? (fun i => i.sock = k) = some p → s.live k = true → p.core = some l → s.coreThere k l = true →
      exec (.ipiReceive k) s = .next ({ s with ipis := s.ipis.erase p }.setPend (k * 256 + l) p.vector)) ∧
    (∀ p, s.ipis.find? (fun i => i.sock = k) = some p → s.live k = true → p.core = none →
      exec (.ipiReceive k) s = .next (((List.range 256).filter ({ s with ipis := s.ipis.erase p }.ipiTarget p)).foldl
        (fun s l => s.setPend (k * 256 + l) p.vector) { s with ipis := s.ipis.erase p })) ∧
    (let a : Ix := { sock := k, i := i }
     let d := s.rd Reg.ihubRouteSocket a
     let l := s.rd Reg.ihubRouteCore a
     let w := s.rd Reg.ihubRouteVec a
     i < 4096 → s.live k = true →
      ((s.rd Reg.ihubRouteValid a = 0 ∨ w < 16 ∨ s.samePart k d = false ∨ s.coreThere d l = false) →
        exec (.msgInterrupt k i) s = .next (s.bump Reg.ihubDropMsg { sock := k })) ∧
      (s.rd Reg.ihubRouteValid a ≠ 0 → 16 ≤ w → s.samePart k d = true → s.coreThere d l = true → s.rd Reg.ihubRouteVault a = 0 →
        exec (.msgInterrupt k i) s = .next (s.setPend (d * 256 + l) w))) ∧
    (s.live (coreSock c) = true → coreLog c < (s.part (coreSock c)).cores → v < 16 →
      exec (.tpriWrite c v) s = .next (s.wr Reg.ihubCoreTpri (coreIx c) v)) ∧
    (s.live (coreSock c) = true → coreLog c < (s.part (coreSock c)).cores →
      exec (.hardenWrite c b) s = .next (if s.isSealed (coreSock c) then s
        else s.wr Reg.coreCfgHarden (coreIx c) (if b then 1 else 0))))

/-- R63, R195, R196, R206, R219, R222, R490, R494-R496: the oldest queued store of a core and those that follow it to its line become memory
together; a hardware prefetch whose line lies in the page of its address is counted; a context's sweep drops its entries; the usefulness
counters halve; and a device's answer to a waiting load is written to its register, all ones of a contained port.

Where the spec leaves the choice open it rests on the model's choices of log entries 13, 24 and 32. -/
def Obligations.core_background_results : Prop :=
  ∀ (c j data : Nat) (stream : Bool) (va : Word) (s u : State),
    (∀ e t, (s.core c).storeQ = e :: t → (s.core c).frozen = false → s.outOfReset c = true →
      let n := (mergeRun (e :: t)).length
      s.drainList c (mergeRun (e :: t)) = (u, []) →
      (∀ x ∈ mergeRun (e :: t), lineOf x.pa = lineOf e.pa) ∧ mergeRun (e :: t) = (e :: t).take n ∧
      exec (.storeDrain c 0) s = .next (u.updCore c (fun k => { k with storeQ := (e :: t).drop n }.count 183
        (if u.rd Reg.dbgCoreStatHalted (coreIx c) = 1 then 0 else n - 1)))) ∧
    (let at' := if stream then va + BitVec.ofNat 64 (64 * max 1 (s.rd Reg.coreCfgL2pfdist (coreIx c))) else va
     s.outOfReset c = true → s.awake c = true → (s.core c).frozen = false →
      s.rd (if stream then Reg.coreCfgL2pf else Reg.coreCfgL1pf) (coreIx c) = 1 → at' >>> 12 = va >>> 12 →
      s.prefetchTry c (if stream then 1 else 0) at' = some u →
      exec (.hwPrefetch c stream va) s = .next (u.updCore c (fun k => k.count (if stream then 186 else 185) 1))) ∧
    (∀ n, (s.core c).pred.sweeping = some n → s.hardened c = false →
      ∃ t, exec (.contextSweepDone c) s = .next t ∧ (t.core c).pred.sweeping = none ∧
        (∀ e ∈ (t.core c).pred.btb, e.ctx ≠ n) ∧ (∀ e ∈ (t.core c).pred.tagged, ∀ x, e.2 = some x → x.ctx ≠ n) ∧
        (∀ e ∈ (t.core c).pred.ind, ∀ x, e.2 = some x → x.2 ≠ n)) ∧
    (2 ^ 19 ≤ (s.core c).pred.condRetired →
      ∃ t, exec (.usefulnessDecay c) s = .next t ∧ (t.core c).pred.condRetired = (s.core c).pred.condRetired - 2 ^ 19 ∧
        ∀ i, cellGet none (t.core c).pred.tagged i =
          (cellGet none (s.core c).pred.tagged i).map (fun x => { x with useful := x.useful / 2 })) ∧
    (∀ w, (s.core c).devWait = some w →
      let h := w.prc / 4
      let n := w.prc % 4
      let a := portIx h n j
      let done (x : State) (v : Nat) : Host.Outcome State Fault Refusal :=
        .next (((x.updCore c (fun k => { k with devWait := none }.setG w.dest (extend (leBytes w.size v) w.signed))).retireInstr c w.next).getD s)
      (j ≠ w.port ∨ (s.prc h n).held.contains (j, c) = true → exec (.deviceCompletion c j data) s = .next s) ∧
      (j = w.port → (s.prc h n).held.contains (j, c) = false → (∀ x ∈ (s.prc h n).parts, x.write = true → x.port ≠ j) →
        (s.rd Reg.prcPortLinkContained a = 0 → exec (.deviceCompletion c j data) s = done s data) ∧
        (s.rd Reg.prcPortLinkContained a = 1 → exec (.deviceCompletion c j data) s =
          done ((s.bump Reg.prcErrMmioabort (prcIx h n)).ash h
            { cls := 5, src := 0x60, inst := n, code := 0x07, part := s.partition h, d5 := j + 7 * 256 }) (2 ^ 64 - 1))))

/-- R16, R295, R339, R340, R391, R380, R573, R597: a stripe region's VALID is kept only when the region passes every check; COMMIT.GO and
CFG.GO start a commit, or queue it behind the one in progress or the reroute, with the values it covers; CTL.RESTORE retrains a failed flue at both ends; MEM.GO and a register
write act when their requester may make them.

Where the spec leaves the choice open it rests on the model's choices of log entries 13 and 28. -/
def Obligations.block_control_results : Prop :=
  ∀ (k r n off size val : Nat) (rq : Rq) (s : State), s.live k = true →
    (cellGet false s.locked (regKey Reg.hrthStripeValid { sock := k, i := r }) = false →
      let a : Ix := { sock := k, i := r }
      let w := s.fieldWrite Reg.hrthStripeValid a 1 1
      exec (.stripeValidWrite k r true) s = .next (if w.stripeOk k r then w else (w.wr Reg.hrthStripeValid a 0).ash k
        { cls := 5, src := 0x10, inst := 0, code := 0x0A, part := w.partition k, d4 := r }) ∧
      exec (.stripeValidWrite k r false) s = .next (s.fieldWrite Reg.hrthStripeValid a 0 1)) ∧
    (cellGet false s.locked (regKey Reg.hrthStripeValid { sock := k, i := r }) = true →
      ∀ b, exec (.stripeValidWrite k r b) s = .next s) ∧
    (s.rd Reg.arbCommitPending { sock := k } = 1 → exec (.arbCommitGo k) s = .next (s.wr Reg.arbCommitQueued { sock := k } 1)) ∧
    (s.rd Reg.arbCommitPending { sock := k } = 0 →
      ∃ t, exec (.arbCommitGo k) s = .next t ∧ t.rd Reg.arbCommitPending { sock := k } = 1 ∧
        cellGet [] t.commitLeft k = commitBlocks (s.part k)) ∧
    (s.rd Reg.chimRrActive { sock := k } = 1 → exec (.cfgGo k) s = .next { s.wr Reg.chimCfgPending { sock := k } 1 with
      goShadow := cellSet [] s.goShadow k (s.shadow.filterMap (fun e => if cfgKey k e.1 then e.2.map (fun v => (e.1, v)) else none)) }) ∧
    (s.rd Reg.chimRrActive { sock := k } = 0 → exec (.cfgGo k) s = .next (s.cfgCommit k)) ∧
    (s.link k n = 3 ∨ s.link k n = 4 → exec (.flueRestore k n) s = .next ((s.retrain k n).retrain (s.peer k n).1 (s.peer k n).2)) ∧
    (s.link k n < 3 → exec (.flueRestore k n) s = .next s) ∧
    (s.dbgDenied rq k 0x30 = 0 → exec (.memGo rq k) s = .next (s.memGo rq k)) ∧
    ((size = 4 ∨ size = 8) → off % size = 0 → ctlCfg (s.part k) off = none → ctlReaches (s.part k) rq off = true → s.up k = true →
      exec (.controlRegWrite rq k off size val) s = .next (s.ctlStore rq k off size val)) ∧
    (off % size ≠ 0 → exec (.controlRegWrite rq k off size val) s = .next s)

/-- R588, R589, R590, R591, R167: HALTREQ asks a core to halt (an Exhausted one shows HALTED at once with reason 5, one in the Vault
world leaves the halt pending); a core asked to halts at its boundary with reason 1; RESUME lets it run on and STEP makes it execute one
instruction; an Exhausted core ignores both; a requester that Table DBUG-1 refuses changes nothing; ACC.GO on a core that is not
halted answers NOT_HALTED.

R591, Table DBUG-2: with the core halted ACC.GO reads or writes the register ACC.FILE and ACC.INDEX name: general registers (file
0), vector registers as eight doublewords each (1, here its reads), mask registers (2) and, in file 3, the pc at index 0xFFF; an index the first
three files do not have answers BAD_REQ.

Where the spec leaves the choice open it rests on the model's choices of log entry 37. -/
def Obligations.debug_halt_results : Prop :=
  (∀ (c : Nat) (rq : Rq) (s : State),
    let a := coreIx c
    let halts (s : State) (reason : Nat) : State :=
      (((s.wr Reg.dbgCoreStatHalted a 1).wr Reg.dbgCoreStatReason a reason).wr Reg.dbgCoreStatHaltpend a 0).updCore c
        (fun k => { k with stepping := false, traceGap := k.traceGap || s.rd Reg.dbgCoreTrctlEn a = 1 })
    let may := s.dbgDenied rq (coreSock c) (0x10000 + 0x4000 * coreLog c) = 0
    (¬ may → exec (.haltreqWrite ⟨rq, c⟩) s = .next s ∧ exec (.resumeWrite ⟨rq, c⟩) s = .next s ∧ exec (.stepWrite ⟨rq, c⟩) s = .next s) ∧
    (may → (s.core c).region = none →
      (may → s.exhausted c = true → exec (.haltreqWrite ⟨rq, c⟩) s = .next (halts (s.wr Reg.dbgCoreCtlHaltreq a 1) 5)) ∧
      (s.exhausted c = false → (s.core c).world = none → exec (.haltreqWrite ⟨rq, c⟩) s = .next (s.wr Reg.dbgCoreCtlHaltreq a 1)) ∧
      (s.exhausted c = false → (s.core c).world.isSome = true →
        exec (.haltreqWrite ⟨rq, c⟩) s = .next ((s.wr Reg.dbgCoreCtlHaltreq a 1).wr Reg.dbgCoreStatHaltpend a 1))) ∧
    (s.rd Reg.dbgCoreCtlHaltreq a = 1 → s.rd Reg.dbgCoreStatHalted a = 0 → s.coreMapped c = true → s.outOfReset c = true →
      s.awake c = true → (s.core c).frozen = false → (s.core c).win = none → (s.core c).devWait = none → (s.core c).wait = none →
      (s.core c).region = none →
      ((s.core c).world = none → exec (.coreHalt c) s = .next (halts (s.updCore c (fun q => { q with fence := none })) 1)) ∧
      ((s.core c).world.isSome = true → exec (.coreHalt c) s = .next (s.wr Reg.dbgCoreStatHaltpend a 1))) ∧
    (may → s.exhausted c = false →
      let t := s.wrs a [(Reg.dbgCoreCtlHaltreq, 0), (Reg.dbgCoreStatHalted, 0), (Reg.dbgCoreStatHaltpend, 0), (Reg.dbgCoreStatReason, 0)]
      exec (.resumeWrite ⟨rq, c⟩) s = .next t ∧
      (s.rd Reg.dbgCoreStatHalted a = 1 → exec (.stepWrite ⟨rq, c⟩) s = .next (t.updCore c (fun q => { q with stepping := true })))) ∧
    (may → s.exhausted c = true → exec (.resumeWrite ⟨rq, c⟩) s = .next s ∧ exec (.stepWrite ⟨rq, c⟩) s = .next s) ∧
    (s.dbgDenied rq (coreSock c) (0x10010 + 0x4000 * coreLog c) = 0 → s.rd Reg.dbgCoreStatHalted a = 0 →
      exec (.accGo rq c) s = .next ((s.wr Reg.dbgCoreAccStatus a 5).wr Reg.dbgCoreAccData a 0)) ∧
    (s.dbgDenied rq (coreSock c) (0x10010 + 0x4000 * coreLog c) ≠ 0 → exec (.accGo rq c) s = .next s)) ∧
  (∀ (c : Nat) (rq : Rq) (s : State), s.dbgDenied rq (coreSock c) (0x10010 + 0x4000 * coreLog c) = 0 →
    let a := coreIx c
    let file := s.rd Reg.dbgCoreAccFile a
    let i := s.rd Reg.dbgCoreAccIndex a
    let x : Word := BitVec.ofNat 64 (s.rd Reg.dbgCoreAccData a)
    let reads (v : Word) : Prop := exec (.accGo rq c) s = .next ((s.wr Reg.dbgCoreAccStatus a 0).wr Reg.dbgCoreAccData a v.toNat)
    let writes (t : State) : Prop := exec (.accGo rq c) s = .next (t.wr Reg.dbgCoreAccStatus a 0)
    s.rd Reg.dbgCoreStatHalted a = 1 →
    (s.rd Reg.dbgCoreAccWrite a = 0 →
      (file = 0 → i < 32 → reads (s.g c (BitVec.ofNat 5 i))) ∧
      (file = 1 → i < 256 → reads (((s.v c (BitVec.ofNat 5 (i / 8))) >>> (64 * (i % 8))).setWidth 64)) ∧
      (file = 2 → i < 8 → reads ((s.core c).mr (BitVec.ofNat 3 i))) ∧
      (file = 3 → i = 0xFFF → reads (s.pc c)) ∧
      ((file = 0 ∧ 32 ≤ i ∨ file = 1 ∧ 256 ≤ i ∨ file = 2 ∧ 8 ≤ i) →
        exec (.accGo rq c) s = .next ((s.wr Reg.dbgCoreAccStatus a 7).wr Reg.dbgCoreAccData a 0))) ∧
    (s.rd Reg.dbgCoreAccWrite a = 1 →
      (file = 0 → i < 32 → writes (s.setG c (BitVec.ofNat 5 i) x)) ∧
      (file = 2 → i < 8 → writes (s.setM c (BitVec.ofNat 3 i) x)) ∧
      (file = 3 → i = 0xFFF → writes (s.updCore c (fun q => { q with pc := x }))) ∧
      ((file = 0 ∧ 32 ≤ i ∨ file = 1 ∧ 256 ≤ i ∨ file = 2 ∧ 8 ≤ i) →
        exec (.accGo rq c) s = .next (s.wr Reg.dbgCoreAccStatus a 7))))

/-- R569, R578, R582, R584: a counter at 2^48 - 1 continues from 0 with WRAP set; a unit counter's wrap sets UWRAP.PEND and raises its
vector; THRCTL programs a threshold counter and zeroes it; in the Vault world a core's page keeps its values.

R579, R580, R583: BWCTL takes its new setting and waits for the next window; a window's end puts the bytes of the chosen classes in LAST
and the greatest in PEAK; a sample records the pc and the count, or counts as lost while the last one stands; and a snapshot's time is the 1,024 ns boundary.

Where the spec leaves the choice open it rests on the model's choices of log entries 11 and 36. -/
def Obligations.performance_counter_results : Prop :=
  (∀ (c k bank u e j st n : Nat) (en : Bool) (f : Fld) (i : Ix) (s : State),
    (e < 384 → s.pmuRuns c = true → cellGet 0 (s.core c).pmu e % 2 ^ 48 = 2 ^ 48 - 1 →
      ∃ t, exec (.counterWrap c e) s = .next t ∧ cellGet 0 (t.core c).pmu e = 2 ^ 48 ∧
        ∀ d, d ≠ e → cellGet 0 (t.core c).pmu d = cellGet 0 (s.core c).pmu d) ∧
    (unitWrapAt k bank u e = some (f, i) → bank ≠ 5 → s.up k = true → s.bankThere k bank u e = true → s.uwraps.contains (regKey f i) = false → s.rd f i = 0 →
      let t : State := { s with uwraps := s.uwraps ++ [regKey f i] }
      (s.rd Reg.pmuUwrapPend { sock := k } = 1 → exec (.unitCounterWrap k bank u e) s = .next t) ∧
      (s.rd Reg.pmuUwrapPend { sock := k } = 0 → s.rd Reg.pmuUwrapEn { sock := k } = 0 →
        exec (.unitCounterWrap k bank u e) s = .next (t.wr Reg.pmuUwrapPend { sock := k } 1))) ∧
    ((s.core c).world = none → coreLog c < (s.part (coreSock c)).cores → j < 16 →
      exec (.thrctlWrite c j st n en) s = .next
        ((((s.wr Reg.pmuThrctlStruct { coreIx c with j := j } st).wr Reg.pmuThrctlN { coreIx c with j := j } n).wr Reg.pmuThrctlEn
          { coreIx c with j := j } (if en then 1 else 0)).updCore c (fun q => { q with pmu := cellErase q.pmu (384 + j) }))) ∧
    ((s.core c).world.isSome = true → exec (.thrctlWrite c j st n en) s = .next s)) ∧
  (∀ (c k u j cls win n : Nat) (en clr : Bool) (pc : Word) (s : State),
    (j < 16 → 256 ≤ u → u < 282 → exec (.bwctlWrite k u j cls win en clr) s = .next
      ((((s.wr Reg.pmuUnitbwClass (bwIx k u j) cls).wr Reg.pmuUnitbwWin (bwIx k u j) win).wr Reg.pmuUnitbwEn (bwIx k u j)
        (if en then 1 else 0)).bwMark k u j true clr)) ∧
    (j < 16 → u < 256 → (s.core (k * 256 + u)).world = none → coreLog (k * 256 + u) < (s.part (coreSock (k * 256 + u))).cores →
      exec (.bwctlWrite k u j cls win en clr) s = .next
        ((((s.wr Reg.pmuCorebwClass (bwIx k u j) cls).wr Reg.pmuCorebwWin (bwIx k u j) win).wr Reg.pmuCorebwEn (bwIx k u j)
          (if en then 1 else 0)).bwMark k u j true clr)) ∧
    (j < 16 → 256 ≤ u → u < 282 → s.bwPend.contains (bwKey k u j) = false → s.bwClr.contains (bwKey k u j) = false →
      s.rd Reg.pmuUnitbwEn (bwIx k u j) = 1 → s.rd Reg.pmuUnitbwClass (bwIx k u j) ≠ 0 →
      ∃ t, exec (.bwWindowEnd k u j n) s = .next t ∧ t.bwLive k u j false = n * bwUnit u ∧
        t.bwLive k u j true = max (s.bwLive k u j true) (n * bwUnit u)) ∧
    (let a : Ix := { coreIx c with j := j }
     j < 4 → s.rd Reg.pmuSampctlEn a = 1 → s.rd Reg.pmuSampctlEvent a < 384 → s.pmuRuns c = true →
      (s.rd Reg.pmuSampFull a = 1 → exec (.sampleFire c j pc) s = .next (s.bump Reg.pmuSampLost a)) ∧
      (s.rd Reg.pmuSampFull a = 0 →
        ∃ x t : State, exec (.sampleFire c j pc) s = .next t ∧
          t = (((x.wr Reg.pmuSampPc a (if pmuRetired (s.rd Reg.pmuSampctlEvent a) then pc else s.pc c).toNat).wr Reg.pmuSampCount a
            (if pmuExact (s.rd Reg.pmuSampctlEvent a) then cellGet 0 (s.core c).pmu (s.rd Reg.pmuSampctlEvent a) % 2 ^ 48
             else s.freeNat 48)).wr Reg.pmuSampFull a 1).sysVector (coreSock c) (coreLog c) (x.rd Reg.pmuSampvec (coreIx c)) ∧
          x.regs = s.regs ∧ x.mem = s.mem)) ∧
    (s.up k = true →
      ∃ t, exec (.pmuSnapshot k) s = .next t ∧ t.rd Reg.pmuSnapTime { sock := k } = s.now k - s.now k % 1024))

/-- R357, R358, R359, R366, R380: training that measures a flight time above 50 ns refuses the flue, any other brings it up with cleared
sequence numbers; a failing lane of an up flue whose spare is unused is steered to the spare at both ends; and a failed flue stops at both
ends and begins a reroute.  Nothing happens to a flue that is not up.

R280, R376, R377, R380, R391: LINKDOWN and LINKUP reach a socket of the fabric once and show the reroute in RR; a socket that has the
news adopts the new routes; with both ends adopted the replay buffers are resent; and when every socket that is up has adopted, the
reroute and its recovery actions end.

Where the spec leaves the choice open it rests on the model's choices of log entries 13 and 18. -/
def Obligations.flue_and_reroute_results : Prop :=
  (∀ (k n flight lane : Nat) (s : State),
    let a := flueIx k n
    (s.up k = true → n < (s.part k).flues → s.rd Reg.flueCtlEn a ≠ 0 → s.link k n ≤ 1 →
      (200 < flight → exec (.flueTrained k n flight) s = .next
        ((((s.bump Reg.flueErrTrains a).wr Reg.flueStateFlight a flight).wr Reg.flueStateLink a 4).wr Reg.flueStateRefuse a 0)) ∧
      (flight ≤ 200 → (s.flue k n).back = false → exec (.flueTrained k n flight) s = .next
        ((((s.bump Reg.flueErrTrains a).wr Reg.flueStateFlight a flight).wrs a [(Reg.flueStateLink, 2), (Reg.flueStateSpared, 15),
          (Reg.flueSeqTx, 0), (Reg.flueSeqRx, 0), (Reg.flueStateSealed, 0)]).setFlue k n { FlueS.fresh with trained := s.time }))) ∧
    (s.link k n = 2 → s.rd Reg.flueStateSpared a = 15 → lane < 8 →
      exec (.laneFailing k n lane) s = .next (s.setFlue k n { s.flue k n with lane := some lane })) ∧
    (∀ l, (s.flue k n).lane = some l →
      exec (.lane k n) s = .next ((s.laneEnd k n l).laneEnd (s.peer k n).1 (s.peer k n).2 l)) ∧
    (s.link k n = 2 →
      ∀ i ∈ ([.flueFailure k n, .flueControlTimeout k n] : List Instr), ∃ t : State, exec i s = .next t ∧
        t.reroutes.length = s.reroutes.length + 1 ∧ t.link k n = 3 ∧ t.mem = s.mem) ∧
    (s.link k n ≠ 2 → ∀ i ∈ ([.flueFailure k n, .flueControlTimeout k n, .laneFailing k n lane, .ident k n 0 0 true] : List Instr),
      exec i s = .next s)) ∧
  (∀ (k id : Nat) (r : Reroute) (s : State), s.reroutes.find? (fun r => r.id = id) = some r →
    (∀ up, s.reroutes.find? (fun r => r.id = id && r.up == up) = some r → r.got.contains k = false → (s.fabric r.sock).contains k = true →
      ∃ t : State, exec (if up then .linkup k id else .linkdown k id) s = .next t ∧
        t.reroutes = s.reroutes.map (fun q => if q.id = id then { q with got := q.got ++ [k] } else q) ∧
        t.rd Reg.chimRrActive { sock := k } = 1) ∧
    (∀ up, r.got.contains k = true → s.reroutes.find? (fun r => r.id = id && r.up == up) = some r →
      exec (if up then .linkup k id else .linkdown k id) s = .next s) ∧
    (r.got.contains k = true → r.adopted.contains k = false →
      ∃ t : State, exec (.rerouteAdopt k id) s = .next t ∧
        t.reroutes = s.reroutes.map (fun q => if q.id = id then { q with adopted := q.adopted ++ [k] } else q) ∧
        (∀ e ∈ [flueKey r.sock r.flue, flueKey r.psock r.pflue], e ∈ cellGet [] t.flueDown k ↔ r.up = false)) ∧
    (r.replayed = false → r.adopted.contains r.sock = true → r.adopted.contains r.psock = true →
      ∃ t : State, exec (.rerouteReplayResent id) s = .next t ∧
        t.reroutes = s.reroutes.map (fun q => if q.id = id then { q with replayed := true } else q) ∧
        (t.flue r.sock r.flue).unacked = [] ∧ (t.flue r.psock r.pflue).unacked = []) ∧
    (r.replayed = true → (s.fabric r.sock).all (fun k => r.adopted.contains k || !s.up k) = true →
      ∃ t : State, exec (.rerouteDone id) s = .next t ∧ t.reroutes = s.reroutes.filter (fun q => q.id ≠ id) ∧
        t.acts = s.acts.filter (fun a => a.2 ≠ id)) ∧
    (r.replayed = false → exec (.rerouteDone id) s = .next s))

/-- R285, R361-R365, R371, R374-R376, R378, R381, R387, R388: codewords, control slots, crossbar flits, multicasts and combined acknowledges move on
as the crossbar's rules say, and what is not for the socket to take leaves it unchanged.

R37, R387, R389, R390, R392, R393, R395: the lowest socket of the fabric becomes time master; IDENT names a flue's peer and refuses a part of
another kind; a complete identity table ends discovery, the later of two sockets with one strapped identity refuses its flues, and with
assigned identities a socket takes its place in breadth-first order from the one root, which keeps its own; keys of a Sealed partition are agreed at both ends; and
a partition's start compares its digests before it runs.

Where the spec leaves the choice open it rests on the model's choices of log entries 13 and 18. -/
def Obligations.crossbar_and_fabric_results : Prop :=
  (∀ (k n h seq tag : Nat) (ssock sstop txid : Nat) (s : State),
    (s.inAction k = false → s.reach k h = 1 → (∀ e ∈ s.cores, coreSock e.1 = k → (s.core e.1).storeQ = []) →
      ∃ t : State, exec (.actionEndAbandon k h) s = .next t ∧ t.reach k h = 2 ∧
        (∀ r ∈ t.hq, r ∈ s.hq) ∧ t.mem = s.mem) ∧
    (s.inAction k = true → exec (.actionEndAbandon k h) s = .next s) ∧
    (s.link k n = 2 → s.link (s.peer k n).1 (s.peer k n).2 = 2 → ∀ e fs, (s.flue (s.peer k n).1 (s.peer k n).2).unacked.find?
        (fun e => e.1 = s.rd Reg.flueSeqRx (flueIx k n)) = some (e, fs) →
      let rx := s.rd Reg.flueSeqRx (flueIx k n)
      let me := s.flue k n
      (seq % 16 = rx % 16 → fs.any (fun f => s.partSealed (s.peer k n).1 f.part) = false → exec (.codewordReceive k n 0 seq true true) s =
        .next (({ s with xin := cellSet [] s.xin (flueKey k n) (cellGet [] s.xin (flueKey k n) ++
          fs.map (fun (f : Flit) => { f with hops := f.hops + 1, time := s.time })) }.setFlue k n { me with rejects := 0, nak := false }).wr
          Reg.flueSeqRx (flueIx k n) ((rx + 1) % 4096))) ∧
      exec (.codewordReceive k n 0 seq false true) s =
        .next ((s.bump Reg.flueErrCrc (flueIx k n)).setFlue k n { me with rejects := min 8 (me.rejects + 1), nak := true })) ∧
    (s.link k n = 2 → s.rd Reg.chimSyncMaster { sock := k } = k → (s.flue k n).unacked = [] →
      ∀ a b c d m dist, exec (.controlSlotReceive k n a false b c d m tag dist) s =
        .next ((s.setFlue k n { s.flue k n with unacked := [], sdist := dist % 32 }).wr Reg.chimSyncDist { sock := k } 0)) ∧
    (cellGet [] s.xin (flueKey k n) = [] → cellGet [] s.txHeld (k * 8 + n) = [] → exec (.crossbarFlitArrival k n) s = .next s) ∧
    (∀ f, xNext (cellGet [] s.xin (flueKey k n)) (s.xReady k n) = some f →
      (s.rd Reg.chimDestValid { sock := k, i := f.ssock } = 0 →
        exec (.crossbarFlitArrival k n) s = .next ((s.xTake k n f).fwDrop k n f)) ∧
      (f.dsock = k → f.cast = 0 → f.part ≠ s.partition k → exec (.crossbarFlitArrival k n) s = .next ((s.xTake k n f).fwDrop k n f)) ∧
      (s.rd Reg.chimDestValid { sock := k, i := f.ssock } = 1 → s.rd Reg.chimDestPart { sock := k, i := f.ssock } = f.part → f.cast = 0 →
        (f.dsock = k → f.part = s.partition k →
          ((f.cls ≠ 0 ∧ f.cls ≠ 4) → exec (.crossbarFlitArrival k n) s = .next ((s.xTake k n f).toMesh k f)) ∧
          ((f.cls = 0 ∨ f.cls = 4) → exec (.crossbarFlitArrival k n) s = .next (s.txArrive k n f))) ∧
        (∀ q st t det, f.dsock ≠ k → s.onward k f = some (q, st, t, det) →
          exec (.crossbarFlitArrival k n) s = .next ((s.xTake k n f).xPut k q (s.passOn k st t det f))))) ∧
    (∃ u : State, exec (.resync k ssock sstop txid) s = .next u ∧ cellGet 0 u.txExp (txKey k ssock sstop) = txid % 4096 ∧
      u.regs = (s.bump Reg.chimOrdResync { sock := k }).regs ∧ u.mem = s.mem) ∧
    ((s.combine.filter (fun e => e.sock = k)).length < 1024 → exec (.multicastSnoop k 7 true 0 tag) s = .next (s.castAt k
      { cls := 1, cast := 2, a := s.isAssured k, dsock := k, ssock := k, part := s.partition k, dstop := 0, sstop := 0, txid := 0,
        tag := tag, hops := 0, vc := 0, dstep := 0, groups := 0, count := 0, plan := [], time := s.time } none none)) ∧
    ((s.combine.filter (fun e => e.sock = k)).length < 1024 → n ≠ 7 → cellGet [] s.xin (flueKey k n) = [] →
      exec (.multicastSnoop k n true 0 tag) s = .next s) ∧
    (∀ e t, s.combine.find? (fun e => e.sock = k && e.tag = tag) = some e → e.left = [] → e.frm = none → s.txn tag = some t →
      exec (.combinedAck k tag) s = .next ({ s with combine := s.combine.erase e }.say .ack tag k t.req.frm e.count)) ∧
    (∀ e, s.combine.find? (fun e => e.sock = k && e.tag = tag) = some e → e.left ≠ [] → exec (.combinedAck k tag) s = .next s)) ∧
  (∀ (k n p m psock pflue : Nat) (small dup : Bool) (s : State),
    let a : Ix := { sock := k }
    ((s.fabric k).find? s.up = some m → ¬ (s.rd Reg.chimSyncMaster a = m ∧ m ≠ k) → exec (.syncMasterChange k) s = .next
      (s.wrs a [(Reg.chimSyncMaster, m), (Reg.chimSyncDist, if m = k then 0 else 31), (Reg.chimSyncLocked, if m = k then 1 else 0)])) ∧
    (s.link k n = 2 →
      let t := ((s.wr Reg.flueStatePeerSock (flueIx k n) psock).wr Reg.flueStatePeerFlue (flueIx k n) pflue).wrIf
        (s.rd Reg.chimDiscState a = 0) Reg.chimDiscState a 1
      exec (.ident k n psock pflue small) s = .next (if small = decide (s.part k = .eq128l) then t
        else (t.wr Reg.flueStateLink (flueIx k n) 4).wr Reg.flueStateRefuse (flueIx k n) 1)) ∧
    (s.rd Reg.chimDiscState a ≠ 2 →
      let known := s.flood 1024 [k]
      let later := ∃ d ∈ known, d ≠ k ∧ s.strap d = s.strap k ∧ s.joinsBefore d k dup = true
      (s.rd Reg.chimDiscMode a = 0 →
        (¬ later → exec (.identTableComplete k dup) s = .next (s.wr Reg.chimDiscState a 2)) ∧
        (later → ∃ t : State, exec (.identTableComplete k dup) s = .next t ∧ t.rd Reg.chimDiscState a = 3 ∧
          ∀ n < 6, s.link k n = 2 → t.link k n = 4 ∧ t.rd Reg.flueStateRefuse (flueIx k n) = 2)) ∧
      (s.rd Reg.chimDiscMode a = 1 →
        (∀ r, known.filter (fun d => s.strap d = 0) = [r] →
          (k = r → exec (.identTableComplete k dup) s = .next (s.wr Reg.chimDiscState a 2)) ∧
          (k ≠ r → exec (.identTableComplete k dup) s = .next (((s.wr Reg.rootSocket a ((s.flood 1024 [r]).findIdx (· = k))).wr
            Reg.rootRewritten a 1).wr Reg.chimDiscState a 2))) ∧
        ((known.filter (fun d => s.strap d = 0)).length ≠ 1 →
          exec (.identTableComplete k dup) s = .next ((s.wr Reg.chimDiscState a 3).mgcReason k 4)))) ∧
    exec (.heldout k p n) s = .next (((((s.wr Reg.chimDiscHeldoutValid a 1).wr Reg.chimDiscHeldoutBy a p).wr Reg.chimDiscHeldoutFlue a
      n)).mgcReason k 4) ∧
    (s.partSealed k p = true → s.rd Reg.chimPartState { sock := k, i := p } = 2 →
      exec (.flueKeyAgreed k n p) s = .next ((s.keyEnd k n p).keyEnd (s.peer k n).1 (s.peer k n).2 p)) ∧
    ((s.flue k n).epoch < (s.flue k n).sent / 2 ^ 32 →
      exec (.flueKeyEpoch k n) s = .next (s.setFlue k n { s.flue k n with epoch := (s.flue k n).epoch + 1 })) ∧
    (s.rd Reg.chimPartState { sock := k, i := p } = 1 → cellGet 0 s.pstep (k * 64 + p) = 1 →
      (∀ d ∈ s.socksOf k p, s.rd Reg.chimPartState { sock := d, i := p } = 1) →
      ((∀ d ∈ s.socksOf k p, digestWords (fun f a => s.rd f a) d p = digestWords (fun f a => s.rd f a) k p) →
        exec (.cfgdigest k p) s = .next { s with pstep := cellSet 0 s.pstep (k * 64 + p) 2 }) ∧
      ((∃ d ∈ s.socksOf k p, digestWords (fun f a => s.rd f a) d p ≠ digestWords (fun f a => s.rd f a) k p) →
        exec (.cfgdigest k p) s = .next (s.startFails k p 0x09))) ∧
    (cellGet 0 s.pstep (k * 64 + p) = 2 →
      (s.partSealed k p = false → ∀ b, exec (.partitionKeysAgreed k p b) s = .next (s.partRuns k p)) ∧
      (s.partSealed k p = true → exec (.partitionKeysAgreed k p false) s = .next (s.startFails k p 0x0A) ∧
        exec (.partitionKeysAgreed k p true) s = .next (((List.range 6).foldl (fun s n => s.keyEnd k n p) s).partRuns k p))))

/-- R25, R302, R303, R304, R311, R312, R314, R315: a request for a line of memory that its own socket cannot answer goes to the line's home with
its age: RDS, RD, RDO, OWN and LOCKX of a core without the line, UPG of one that has it shared, and RDU, WRU, HAT and CMO of any requester.  A read
that the caching slice can answer is answered there, and ownership its socket already has needs no message.  A core that already owns
the line locks it at once.

R302, R303, R310, R315, R319, R341, R342: at the home a request waits while its bucket moves, is answered RETRY for a line another region
holds, waits behind the line's transaction or for a transaction entry, and is otherwise served; a request that waits at a Bellows gate goes on with a token.

Where the spec leaves the choice open it rests on the model's choices of log entries 16 and 22. -/
def Obligations.hearth_request_results : Prop :=
  (∀ (c f pa h : Nat) (s : State),
    let ln := lineOf pa
    let goes (i : Instr) (k : ReqK) (f : Nat) : Prop :=
      let u := s.touch (reqSock f) ln
      exec i s = .next (u.sendReq h { k := k, ln := ln, frm := f, age := u.now (reqSock f) })
    let asks (e : Bool) : Option State := ((s.touch (coreSock c) ln).room c ln).sliceRead c ln h e
    (∀ o, s.homeFor c ln = .dram h o → (s.core c).l2st ln = none → c < 2 ^ 20 →
      ((s.touch (reqSock c) ln).homeFor c ln = .dram h o →
        (asks false = none → goes (.rds c pa 0 0) .rds c) ∧ (asks true = none → goes (.rd c pa 0 0) .rd c)) ∧
      (s.heldByOther c ln = false → s.txn ln = none → s.badLine pa = false →
        (∀ u, asks false = some u → exec (.rds c pa 0 0) s = .next u) ∧ (∀ u, asks true = some u → exec (.rd c pa 0 0) s = .next u))) ∧
    (∀ o, (s.homeFor c ln = .dram h o ∧ (s.touch (reqSock c) ln).homeFor c ln = .dram h o) → h = coreSock c → c < 2 ^ 20 →
      ((s.core c).l2st ln = none → goes (.rdo c pa 0 0) .rdo c ∧ goes (.own c pa) .own c ∧ goes (.lockx c pa) .lockx c) ∧
      ((s.core c).l2st ln = some .S → goes (.upg c pa) .upg c)) ∧
    (∀ o, h ≠ coreSock c → c < 2 ^ 20 → (s.core c).l2st ln = none → s.homeFor c ln = .dram h o → s.heldByOther c ln = false →
      s.txn ln = none →
      let w : State := { s with cores := s.cores.map (fun (e : Nat × Core) =>
        if e.1 ≠ c && coreSock e.1 = coreSock c then (e.1, Core.snoopDrop ln e.2) else e) }
      let has := s.inSlice (coreSock c) ln || s.otherHas (2 ^ 21) ln (fun d _ => decide (coreSock d = coreSock c))
      (cellGet none s.sf (sfKey ln (coreSock c)) = none →
        let u := w.touch (reqSock c) ln
        u.homeFor c ln = .dram h o →
        let r (k : ReqK) : Host.Outcome State Fault Refusal := .next (u.sendReq h { k := k, ln := ln, frm := c, age := u.now (reqSock c) })
        exec (.rdo c pa 0 0) s = r .rdo ∧ exec (.own c pa) s = r .own) ∧
      (∀ e, cellGet none s.sf (sfKey ln (coreSock c)) = some e → e.excl = true → has = true →
        ∀ i ∈ ([.rdo c pa 0 0, .own c pa] : List Instr),
          exec i s = .next ((((w.room c ln).sliceDrop (coreSock c) ln).sfAdd c ln true).toM c ln))) ∧
    (∀ o, (s.touch (reqSock f) ln).homeFor f ln = .dram h o →
      (∀ b, goes (.wru f pa b) (.wru b) f) ∧ goes (.rdu f pa) .rdu f ∧
      (∀ op posted x, op ≤ 8 → (pa % 8 = 0 → goes (.hat f pa op true posted x) (.hat op (pa % 64) 8 x 0 posted) f) ∧
        (pa % 4 = 0 → goes (.hat f pa op false posted x) (.hat op (pa % 64) 4 x 0 posted) f)) ∧
      (∀ kind, 1 ≤ kind → kind ≤ 3 → goes (.cmo f pa kind) (.cmo kind) f)) ∧
    (((s.core c).l2st ln = some .M ∨ (s.core c).l2st ln = some .E) → s.heldByOther c ln = false → s.txn ln = none →
      exec (.lockx c pa) s = .next { s with held := cellSet none s.held ln (some { holder := c, waiter := none }) }) ∧
    (∀ i ∈ ([.hat f pa 9 true true 0, .hat f 4 0 true true 0, .cmo f pa 0, .cmo f pa 4] : List Instr), exec i s = .next s)) ∧
  (∀ (k g h : Nat) (r : Req) (t : List Req) (s : State),
    let moving := s.rd Reg.hrthBucketMig { sock := h, i := s.bucket h (r.ln * 64) } = 1
    (¬ moving → s.mustRetry h r = false → s.txn r.ln = none → s.slotsFull h r.ln = false → s.atHome h r = s.serve h r) ∧
    (¬ moving → s.mustRetry h r = false → ((s.txn r.ln).isSome = true ∨ s.slotsFull h r.ln = true) → s.atHome h r = { s with hq := s.hq ++ [r] }) ∧
    (¬ moving → s.mustRetry h r = true → s.atHome h r = s.sayRetry h r) ∧
    (moving → (s.atHome h r).hq = s.hq ++ [r] ∧ (s.atHome h r).net = s.net) ∧
    (cellGet [] s.gateQ (k * 512 + g) = r :: t → 0 < s.gateTokens k g →
      let u : State := { s.gateTake k g with gateQ := cellSet [] s.gateQ (k * 512 + g) t }
      ∀ o, u.homeFor r.frm r.ln = .dram h o → exec (.bellowsAdmit k g) s = .next (u.atHome h r)) ∧
    (s.gateTokens k g = 0 → exec (.bellowsAdmit k g) s = .next s))

/-- R296, R307, R310, R315, R316: a write-back from the owner of a line puts its data in memory and answers WBACK, with KEEP leaving a clean
shared copy; an eviction gives a clean copy up; a held line is not evicted; and UNLOCK releases the line of a region that is over, serving
the recorded retrier first.

R307, Table HRTH-3: a snoop reaches the socket that its message names: SNPS makes the owner's copy shared and forwards the data, SNPI
drops the copies, SNPX forwards the line with ownership, SNPR drops it and returns the data, SNPC writes it home and keeps it; a socket that holds
nothing says so.

Where the spec leaves the choice open it rests on the model's choices of log entry 16. -/
def Obligations.snoop_and_writeback_results : Prop :=
  (∀ (c pa h : Nat) (s : State),
    let ln := lineOf pa
    (∀ o, s.homeFor c ln = .dram h o →
      let w := s.say .wback ln h c 0
      ((s.core c).l2st ln ≠ some .M → ∀ keep, exec (.wb c pa keep) s = .next w) ∧
      ((s.core c).l2st ln = some .M → cellGet none s.held ln = none → exec (.wb c pa false) s = .next (w.evict c ln)) ∧
      ((s.core c).l2st ln = some .M →
        let x := ((w.updCore c (fun k => k.setL2 ln (some .S))).wroteHome ln).slicePut (coreSock c) ln
        (coreSock c = h → exec (.wb c pa true) s = .next ((x.setBits ln .none).sfShare ln)) ∧
        (coreSock c ≠ h → exec (.wb c pa true) s =
          .next { (x.setBits ln .shared).sfShare ln with rsc := cellSet none x.rsc ln (some (.p false [coreSock c])) })) ∧
      (∀ e, cellGet none s.held ln = some e → e.holder = c → (s.core c).region = none → e.waiter = none →
        exec (.unlock c pa) s = .next ({ s with held := cellErase s.held ln }.serveNext h ln)) ∧
      (∀ e w r, cellGet none s.held ln = some e → e.holder = c → (s.core c).region = none → e.waiter = some w →
        s.retried.find? (fun r => r.frm = w && r.ln = ln) = some r →
        exec (.unlock c pa) s = .next ({ s with held := cellErase s.held ln, retried := s.retried.erase r }.atHome h r))) ∧
    (((s.core c).l2st ln = some .E ∨ (s.core c).l2st ln = some .S) →
      (cellGet none s.held ln = none → exec (.ev c pa) s = .next (s.evict c ln)) ∧
      (∀ e, cellGet none s.held ln = some e → exec (.ev c pa) s = .next s)) ∧
    (∀ e, cellGet none s.held ln = some e → e.holder ≠ c → exec (.unlock c pa) s = .next s)) ∧
  (∀ (d pa : Nat) (m : Msg) (t : Txn) (s : State), s.txn (lineOf pa) = some t → m.ln = lineOf pa →
    let u := s.took m
    let ln := m.ln
    (s.heard .snpi (lineOf pa) d none = some m →
      exec (.snpi d pa) s = .next (if t.req.k.isOwn then (u.dropIn d t.req.frm ln).say .ack ln d t.req.frm 1
        else (u.dropIn d t.req.frm ln).say .srsp ln d m.src 1)) ∧
    (s.heard .snps (lineOf pa) d none = some m → u.ownsIn d t.req.frm ln = false →
      exec (.snps d pa) s = .next (u.say .srsp ln d m.src 2)) ∧
    (s.heard .snps (lineOf pa) d none = some m → u.ownsIn d t.req.frm ln = true →
      let w : State := { u with cores := u.cores.map (fun (e : Nat × Core) =>
        if e.1 ≠ t.req.frm && coreSock e.1 = d then (e.1, Core.snoopDown ln e.2) else e) }
      exec (.snps d pa) s = .next ((((w.wroteHome ln).sfShare ln).say (match t.req.k with | .rdu => .dataU | _ => .dataS) ln d t.req.frm 0).say
        .srsp ln d m.src 0)) ∧
    (s.heard .snpx (lineOf pa) d none = some m →
      exec (.snpx d pa) s = .next (if u.ownsIn d t.req.frm ln then
        ((u.dropIn d t.req.frm ln).say .dataM ln d t.req.frm 0).say .srsp ln d m.src 1 else u.say .srsp ln d m.src 2)) ∧
    (s.heard .snpr (lineOf pa) d none = some m →
      exec (.snpr d pa) s = .next (if u.ownsIn d (2 ^ 21) ln then ((u.dropIn d (2 ^ 21) ln).wroteHome ln).say .srsp ln d m.src 1
        else u.say .srsp ln d m.src 2)) ∧
    (s.heard .snpc (lineOf pa) d none = some m →
      exec (.snpc d pa) s = .next (if u.ownsIn d (2 ^ 21) ln then (u.cmoClean t.home ln).say .srsp ln d m.src 0
        else u.say .srsp ln d m.src 2)))

/-- R305, R307: the home hears an SRSP from each socket it snooped and finishes a masked write, an atomic or maintenance with the last one;
with the memory's bits it sends the snoops an ownership request needs and the GNT with their number.

R307, R309, R310, R313: data, a GNT and acknowledgements are recorded in the requester's transaction, shared and exclusive data entering
its L2; FIN frees the line once the requester holds all of it, CMP ends a write's transaction, ATRES, WBACK and RETRY are taken, a retry is
reissued with its age, and a buffered line leaves the atomic buffer.

Where the spec leaves the choice open it rests on the model's choices of log entry 16. -/
def Obligations.home_and_requester_results : Prop :=
  (∀ (h d pa : Nat) (m : Msg) (t : Txn) (s : State), s.txn (lineOf pa) = some t →
    let ln := lineOf pa
    let u := s.took m
    (s.heard .srsp ln h (some d) = some m → (∃ x, t.req.k = .cmo x) →
      let w := u.updTxn ln (fun t => { t with wait := t.wait.filter (· ≠ d) })
      exec (.srsp h d pa) s = .next (if (t.wait.filter (· ≠ d)).isEmpty then (w.finishHome h t.req).serveNext h ln else w)) ∧
    (s.heard .srsp ln h (some d) = some m → (t.req.k = .rds ∨ t.req.k = .rd) → m.n = 2 →
      exec (.srsp h d pa) s = .next (u.memRead h t.req)) ∧
    (s.heard .bits ln h none = some m → t.req.k.isOwn = false → exec (.bitsReadToHome h pa) s = .next u) ∧
    (s.heard .bits ln h none = some m → t.req.k.isOwn = true →
      let r := u.snoopSet h t.req.frm ln (dirBitsOf m.n)
      r.2 = false → exec (.bitsReadToHome h pa) s = .next (((u.sayAll .snpi ln h r.1).rscOwn h ln (reqSock t.req.frm)).say .gnt ln h
        t.req.frm r.1.length))) ∧
  (∀ (f pa h : Nat) (m : Msg) (t : Txn) (s : State),
    let ln := lineOf pa
    let u := s.took m
    (s.txn ln = some t → t.req.frm = f →
      (s.heard .dataS ln f none = some m → exec (.dataS f pa) s = .next ((u.updTxn ln (fun t => { t with data := true })).installL2 f pa .S)) ∧
      (s.heard .dataE ln f none = some m → exec (.dataE f pa) s = .next ((u.updTxn ln (fun t => { t with data := true })).installL2 f pa .E)) ∧
      (s.heard .dataM ln f none = some m → exec (.dataM f pa) s = .next ((u.updTxn ln (fun t => { t with data := true })).installM ln)) ∧
      (s.heard .dataU ln f none = some m → exec (.dataU f pa) s = .next (u.updTxn ln (fun t => { t with data := true }))) ∧
      (s.heard .gnt ln f none = some m → exec (.gnt f pa) s = .next ((u.updTxn ln (fun t => { t with expect := some m.n })).installM ln)) ∧
      (s.heard .ack ln f none = some m → exec (.ack f pa) s = .next ((u.updTxn ln (fun t => { t with acks := t.acks + m.n })).installM ln)) ∧
      (t.complete = true → exec (.fin f pa) s = .next ((s.endTxn ln).serveNext t.home ln)) ∧
      (t.complete = false → exec (.fin f pa) s = .next s) ∧
      (s.heard .cmp ln f none = some m → exec (.cmp f pa) s = .next ((u.endTxn ln).serveNext t.home ln))) ∧
    (s.heard .atres ln f none = some m → exec (.atres f pa) s = .next u) ∧
    (s.heard .wback ln f none = some m → exec (.wback f pa) s = .next u) ∧
    (s.heard .retry ln f none = some m → exec (.retry f pa) s = .next u) ∧
    (∀ r o, s.retried.find? (fun r => r.frm = f && r.ln = ln) = some r → s.homeFor f r.ln = .dram h o →
      exec (.retryReissue f pa) s = .next ({ s with retried := s.retried.erase r }.atHome h r)) ∧
    (s.buffered h ln = true →
      let key := slKey h (s.sliceFor h (ln * 64))
      ∃ w : State, exec (.atomicBufferWriteback h pa) s = .next w ∧
        cellGet [] w.abuf key = (cellGet [] s.abuf key).filter (· ≠ ln) ∧ w.mem = s.mem))

/-- R292, R313, R317-R321, Tables HRTH-5 and HRTH-6: a slice's retirement goes through its steps: it is shown in MIG and begins; a bucket
is marked, its transactions finish, its entry names the target; a failed target makes the bucket be marked again; with no bucket left the slice is
RETIRED; and the sockets' answers end the rebuild.  A command out of its step changes nothing.

Where the spec leaves the choice open it rests on the model's choices of log entry 13. -/
def Obligations.slice_retirement_results : Prop :=
  ∀ (k sl d : Nat) (r : Retire) (s : State),
    let a : Ix := { sock := k }
    (s.sliceLive k sl = true → 1 < (s.liveSlices k).length → s.retiring k = none →
      exec (.hrthRetire k sl) s = .next (s.startRetire k sl false []) ∧ exec (.sliceSourceFail k sl) s = .next (s.startRetire k sl true [])) ∧
    (s.retiring k = some r →
      (r.step = 1 → r.fail = false → exec (.sliceRetireStart k) s = .next
        (((cellGet [] (s.actBegin k actSlice).abuf (slKey k r.slice)).foldl (fun s ln => s.unbuffer k ln) (s.actBegin k actSlice)).setRetire k
          (some { r with step := 2 }))) ∧
      (r.step = 1 → r.fail = true → exec (.sliceRetireStart k) s = .next ((s.actBegin k actSlice).sourceFail k r)) ∧
      (∀ b bs t, r.step = 2 → s.bucketsOf k r.slice = b :: bs → s.retireTarget k r = some t → exec (.bucketMark k) s = .next
        ((s.wr Reg.hrthBucketMig { sock := k, i := b } 1).setRetire k (some { r with step := 3, bucket := b, target := t }))) ∧
      (r.step = 3 → s.txns.any (fun t => t.home = k && s.inBucket k t.req.ln (fun b => b = r.bucket)) = false → ∃ u : State, exec (.bucketTxnsDone k) s = .next u ∧ u.retiring k = some { r with step := 4 } ∧
        u.mem = s.mem) ∧
      (r.step = 4 →
        let p (q : Req) : Bool := s.inBucket k q.ln (fun b => b = r.bucket)
        let u := ((s.copyRegions k (r.slice / 34) (r.target / 34)).moveBucket k r.bucket r.slice r.target).wr Reg.hrthBucketMig
          { sock := k, i := r.bucket } 0
        exec (.bucketCopyDone k) s = .next (((s.hq.filter p).foldl (fun (x : State) q => x.atHome k q)
          { u with hq := u.hq.filter (fun q => !p q) }).setRetire k (some { r with step := 2, bad := [] }))) ∧
      (r.step = 4 → exec (.sliceTargetFail k) s = .next ((s.wr Reg.hrthBucketMig { sock := k, i := r.bucket } 0).setRetire k
        (some { r with step := 2, bad := r.bad ++ [r.target] }))) ∧
      (r.step = 2 → s.bucketsOf k r.slice = [] →
        ∃ u : State, exec (.sliceRetired k) s = .next u ∧ u.rd Reg.hrthSliceRetired { sock := k, i := r.slice } = 1 ∧
          u.rd Reg.hrthSliceFailed { sock := k, i := r.slice } = (if r.fail then 1 else 0)) ∧
      (r.left.contains d = true → ∃ u : State, exec (.flushb k d) s = .next u ∧
        u.retiring k = some { r with left := r.left.filter (· ≠ d) }) ∧
      (r.left.contains d = false → exec (.flushb k d) s = .next s) ∧
      (s.rd Reg.hrthMigRebuild a = 1 → r.left = [] → ∃ u : State, exec (.rebuildDone k) s = .next u ∧ u.rd Reg.hrthMigRebuild a = 0 ∧
        u.rd Reg.hrthMigUnk a = 0) ∧
      (r.step ≠ 4 → exec (.bucketCopyDone k) s = .next s ∧ exec (.sliceTargetFail k) s = .next s)) ∧
    (s.retiring k = none → ∀ i ∈ ([.sliceRetireStart k, .bucketMark k, .bucketTxnsDone k, .sliceRetired k, .rebuildDone k] : List Instr),
      exec i s = .next s)

/-- R136, R402, R407, R408, R411, R413, R423: an access of an enabled channel that nothing holds is performed: a read decodes the code word of
what DRAM holds of the line, delivers it deciphered when no error is found, and otherwise corrects it or poisons the line and answers it; a
write stores data, directory bits and poison, a Sealed partition's line enciphered.  While the channel initialises or refreshes itself, accesses wait in order.

R410, R413, R416, R417, R420, R421, R423: the marks, the Sweep, refresh, calibration and self-refresh act as the tables of the memory
channels say; ZQ_CALIBRATION changes nothing that a program sees.

R424-R427, Table MEMC-7: a row put forward waits as a candidate (four at most); it takes the lowest free entry and its row is held; the
copy done, the entry is valid and, with a repair asked for and possible, the repair runs and its copy back frees the entry; the hPPR list keeps
what an applied repair leaves.

Where the spec leaves the choice open it rests on the model's choices of log entries 20 and 25. -/
def Obligations.memory_channel_results : Prop :=
  (∀ (k n pa line : Nat) (x y : Vec) (d : BitVec 2) (p : Bool) (e0 e1 : List Nat) (s : State), s.mcLine k pa = some (n, line) →
    s.rd Reg.mcGeomEn (mcIx k n) = 1 →
    let free := s.mcHolds k n line = false ∧ (s.chan k n).held.any (fun r => lineOf r.pa = lineOf pa) = false
    (free → exec (.mcRead k pa e0 e1) s = .next (s.mcReadLine k n line false e0 e1)) ∧
    (free →
      let w := (((s.dramWrite (lineOf pa) x d.toNat p).encrypted k (lineOf pa)).macWrite k (lineOf pa) true).macTouch k n line true
      exec (.mcWrite k pa x d p) s =
        .next (w.mcDeliver k n (dfcWord (w.stored k (lineOf pa) x p) d.toNat p) x d.toNat p)) ∧
    (s.mcHolds k n line = true → exec (.mcRead k pa e0 e1) s = .next (s.setChan k n { s.chan k n with held := (s.chan k n).held ++
      [{ wr := false, pa := pa, data := 0, d := 0, p := false, e0 := e0, e1 := e1 }] })) ∧
    (∀ ln b q, free → s.imageLine k n line = some ln →
      let m := s.mcMeet k n line false
      let w := m.2.got e0
      m.2.word = dfcWord (s.stored k ln (s.dram ln).1 (s.dram ln).2.2) (s.dram ln).2.1 (s.dram ln).2.2 ∧
      (dfcDecode w (m.1.markOf k n line (line % 2)) = some (y, b, q, none) → m.1.macCovers (m.1.target k (ln * 64)) = false →
        exec (.mcRead k pa e0 e1) s = .next (m.1.mcDeliver k n w (m.2.plain y) b q)) ∧
      (dfcDecode w (m.1.markOf k n line (line % 2)) = none → m.1.paired k = false →
        ∃ t : State, exec (.mcRead k pa e0 e1) s = .next t ∧
          cellGet none t.mcOut (k * 16 + n) = some { word := w, data := 0, d := 3, p := true }))) ∧
  (∀ (k n r dev post rank upd : Nat) (e0 e1 : List Nat) (drift : Bool) (s : State),
    let a := mcIx k n
    let mk : Ix := { sock := k, inst := n, i := r }
    (n < 16 → r < 16 → dev < 10 →
      exec (.markWrite k n r true dev) s = .next ((((s.wr Reg.mcMarkValid mk 1).wr Reg.mcMarkDev mk dev).wr Reg.mcMarkAuto mk 0).mcAsh k n 2
        0x06 0 false) ∧
      exec (.markWrite k n r false dev) s = .next (((s.wr Reg.mcMarkValid mk 0).wr Reg.mcMarkDev mk dev).wr Reg.mcMarkAuto mk 0)) ∧
    (10 ≤ dev → dev < 16 → exec (.markWrite k n r true dev) s = .next s) ∧
    (let line := s.rd Reg.mcSweepPos a
     s.rd Reg.mcGeomEn a = 1 → s.rd Reg.mcSweepEn a = 1 → s.mcHolds k n line = false →
      let t := s.mcReadLine k n line true e0 e1
      (line + 1 < t.chanLines k n → line + 1 < s.chanLines k n → exec (.sweepLine k n e0 e1) s = .next (t.wr Reg.mcSweepPos a (line + 1))) ∧
      (0 < s.chanLines k n → t.chanLines k n ≤ line + 1 → exec (.sweepLine k n e0 e1) s = .next
        (((t.wr Reg.mcSweepPos a 0).bump Reg.mcSweepLaps a).updChan k n (fun c => { c with fixes := [] })))) ∧
    (s.rd Reg.mcSweepInit a = 1 → (s.chan k n).held = [] →
      ∃ t : State, exec (.sweepInitDone k n) s = .next t ∧ t.rd Reg.mcSweepInit a = 0 ∧
        (∀ x, memGet t.mem x = if s.inChan k n x then 0 else memGet s.mem x) ∧
        (∀ ln, s.inChan k n (ln * 64) = true → s.inCxl ln = false → t.isPoison ln = false)) ∧
    (exec (.refresh k n rank post) s = .next (if post ≤ 4 ∧ s.rd Reg.mcRefMaxpost a < post then s.wr Reg.mcRefMaxpost a post else s)) ∧
    exec (.zqCalibration k n rank) s = .next s ∧
    exec (.dqsOscRead k n rank drift) s = .next (if drift then s.bump Reg.mcCalCount a else s) ∧
    ((s.rd Reg.pwrPkgState { sock := k } = 1 ∨ s.rd Reg.pwrPkgState { sock := k } = 2) → (s.chan k n).held = [] →
      exec (.selfRefreshEnter k n) s = .next (s.setChan k n { s.chan k n with selfRef := true })) ∧
    (s.rd Reg.pwrPkgState { sock := k } = 0 → (s.chan k n).selfRef = true → (s.chan k n).held = [] →
      ∃ t : State, exec (.selfRefreshExit k n upd) s = .next t ∧ (t.chan k n).selfRef = false ∧ t.mem = s.mem)) ∧
  (∀ (k n line e : Nat) (r : SpareRow) (t l : List Nat) (s : State), n < 16 → line < 2 ^ 34 →
    let c := s.chan k n
    exec (.spareReq k n line) s = .next (s.candidate k n (s.rowOf k line 0)) ∧
    (4 ≤ c.cand.length → exec (.spareReq k n line) s = .next (s.spareAsh k n 5 0x07 0)) ∧
    (∀ x, c.row = none → c.cand = x :: t → s.freeSpare k n = some e → exec (.spareStart k n) s = .next
      ((s.wr Reg.mcSpareStatBusy (mcIx k n) 1).setChan k n
        { c with cand := t, row := some { row := x, entry := e, step := 2, copy := 0, fixed := 0 } })) ∧
    (c.row = some r → r.step = 2 → c.held = [] → s.paired k = false → s.rd Reg.mcPprMode (mcIx k n) = 0 →
      ∃ u : State, exec (.spareCopyDone k n [] false) s = .next u ∧ (u.chan k n).row = none ∧
        u.rd Reg.mcSpareValid { sock := k, inst := n, i := r.entry } = 1 ∧ u.rd Reg.mcSpareStatBusy (mcIx k n) = 0) ∧
    (c.row = some r → r.step = 4 → exec (.spprDone k n) s = .next (s.setChan k n { c with row := some { r with step := 5 } })) ∧
    (c.row = some r → r.step = 5 → r.fixed = 0 → r.copy = 0 → c.held = [] → s.paired k = false →
      ∃ u : State, exec (.spareCopybackDone k n []) s = .next u ∧ (u.chan k n).row = none ∧
        u.rd Reg.mcSpareValid { sock := k, inst := n, i := r.entry } = 0) ∧
    (c.row = none → exec (.spareCopyDone k n [] true) s = .next s ∧ exec (.spprDone k n) s = .next s ∧
      exec (.spareCopybackDone k n []) s = .next s) ∧
    exec (.hpprApply k n l) s = .next (s.setChan k n { c with hppr := c.hppr.filter l.contains }))

/-- R336, R339, R340: a wait beyond THRESH is counted once for its episode and the first one latched with its place; a commit that reaches a
block ends that block's part of it; and with every block reached the commit is over and a queued one starts.

R323-R332, R345-R348: a flit enters its stop's buffer, hops one link where its class has room, or is refused and sent again; a data
flit stays in its source's replay buffer until DACK; DNAK sends it again; a link refused eight times fails, a bridge's after a repair that
does not help.

Where the spec leaves the choice open it rests on the model's choices of log entries 13, 18 and 28. -/
def Obligations.mesh_arbitration_results : Prop :=
  (∀ (k kind inst req : Nat) (s : State),
    let a : Ix := { sock := k }
    (kind = 2 → let x := s.arb k 2 inst
      (profOf 5 (s.rd Reg.arbHearthq a)).thresh ≠ 0 → x.told.contains req = false →
      let t : State := { s.bump Reg.arbStarvecnt a with arbs := cellSet Arb.idle s.arbs (arbKey k 2 inst) { x with told := req :: x.told } }
      (s.rd Reg.arbStarveFlag a = 1 → exec (.arbStarvation k kind inst req) s = .next t) ∧
      (s.rd Reg.arbStarveFlag a = 0 → s.rd Reg.arbStintEn a = 0 → exec (.arbStarvation k kind inst req) s = .next
        ((((t.wr Reg.arbStarveFlag a 1).wr Reg.arbStarveKind a 2).wr Reg.arbStarveInstance a inst).wr Reg.arbStarveReq a req))) ∧
    (4 < kind → exec (.arbStarvation k kind inst req) s = .next s) ∧
    ((s.arb k kind inst).told.contains req = true → exec (.arbStarvation k kind inst req) s = .next s) ∧
    ((cellGet [] s.commitLeft k).contains 0 = true → ∃ t : State, exec (.shadowCommitArrival .arb k inst) s = .next t ∧
      cellGet [] t.commitLeft k = (cellGet [] s.commitLeft k).filter (· ≠ 0)) ∧
    ((cellGet [] s.commitLeft k).contains 0 = false → exec (.shadowCommitArrival .arb k inst) s = .next s) ∧
    (s.rd Reg.arbCommitPending a = 1 → cellGet [] s.commitLeft k = [] →
      (s.rd Reg.arbCommitQueued a = 0 → exec (.arbCommitDone k) s = .next (s.wr Reg.arbCommitPending a 0)) ∧
      (s.rd Reg.arbCommitQueued a = 1 → exec (.arbCommitDone k) s = .next
        (((s.wr Reg.arbCommitPending a 0).wr Reg.arbCommitQueued a 0).commitSend k))) ∧
    (cellGet [] s.commitLeft k ≠ [] → exec (.arbCommitDone k) s = .next s)) ∧
  (∀ (k n port d src cls dstop tag : Nat) (s : State), s.up k = true →
    (n < 308 → dstop < 308 → s.waiting k n = none → (s.part k).sends n cls = true → s.samePart k k = true → (cls = 1 ∨ cls = 2) → (s.inBuf k n 4 cls).length < inDepth n 4 cls → stopOut n dstop ≠ 4 →
      let f : Flit := { cls := cls, cast := 0, a := s.isAssured k, dsock := k, ssock := k, part := s.partition k, dstop := dstop,
                        sstop := n, txid := 0, tag := tag, hops := 0, vc := 0, dstep := 0, groups := 0, count := 0, plan := [],
                        time := s.time }
      exec (.flitArrival k n 4 0 cls k dstop tag) s = .next (s.setIn k n 4 cls (s.inBuf k n 4 cls ++ [f]))) ∧
    (n < 308 → s.waiting k n = none → inDepth n 4 cls ≤ (s.inBuf k n 4 cls).length → exec (.flitArrival k n 4 0 cls k dstop tag) s = .next s) ∧
    (∀ i ∈ ([.dackTimer k d src, .dack k d src] : List Instr), 16 ≤ (cellGet [] s.meshDue ((k * 512 + d) * 512 + src)).length →
      ∃ t : State, exec i s = .next t ∧ t.meshDue = cellSet [] s.meshDue ((k * 512 + d) * 512 + src)
        ((cellGet [] s.meshDue ((k * 512 + d) * 512 + src)).drop 16) ∧ t.meshIn = s.meshIn) ∧
    ((cellGet [] s.meshDue ((k * 512 + d) * 512 + src)).length < 16 → exec (.dack k d src) s = .next s) ∧
    (∀ (x : Nat) (t : List Nat) (e : Flit × Nat),
      let key := (k * 512 + d) * 512 + src
      cellGet [] s.meshNak key = x :: t → (cellGet [] s.meshReplay (stopKey k src)).find? (fun e => e.1.tag = x) = some e →
      let u : State := { s with meshNak := cellSet [] s.meshNak key t }
      exec (.dnak k d src) s = .next (u.setIn k src 4 3 ({ e.1 with time := s.time } :: u.inBuf k src 4 3))) ∧
    ((s.mlink k n port).refused = 8 → (s.mlink k n port).st = 0 →
      (isBridge n port = true → exec (.meshLinkFailing k n port) s = .next (s.setMlink k n port { s.mlink k n port with st := 1 })) ∧
      (isBridge n port = false → exec (.meshLinkFailing k n port) s = .next ((s.meshLast k n port 4).socketFail k 0x20 n
        (meshLastWord n port 4)))) ∧
    ((s.mlink k n port).st = 1 → exec (.bridgeLaneRepair k n port) s = .next (s.setMlink k n port { s.mlink k n port with st := 2 })) ∧
    ((s.mlink k n port).st = 2 →
      exec (.bridgeRepairDone k n port true) s = .next ((((s.bump Reg.meshErrLanerep { sock := k }).meshLast k n port 3).setMlink k n port
        { refused := 0, st := 0 }).ash k
        { cls := 2, src := 0x20, inst := n, code := 0x06, part := s.partition k, d4 := meshLastWord n port 3 }) ∧
      exec (.bridgeRepairDone k n port false) s = .next ((s.meshLast k n port 4).socketFail k 0x20 n (meshLastWord n port 4))) ∧
    ((s.mlink k n port).st = 0 → ∀ b, exec (.bridgeLaneRepair k n port) s = .next s ∧ exec (.bridgeRepairDone k n port b) s = .next s))

/-- R587, R596, R597, Table DBUG-5: with the standby rails the port's instructions select their registers: IDCODE gives the part's code with the
stepping in [31:28], SAMPLE_PRELOAD captures the lands, EXTEST, CLAMP and HIGHZ drive them only while the socket is held in cold reset and otherwise act
as BYPASS; a DBGACC update makes the access, a capture loads its status and data.

R585-R587, Tables DBUG-1 and DBUG-2: an external access to the DBG block completes POWERED (8) without the main rails, BAD_REQ (7) beyond
its pages, NOT_ENABLED (2) while EXTEN is 0, and SEALED (3) at a core's page of a Sealed partition that runs.

Where the spec leaves the choice open it rests on the model's choices of log entries 23 and 37. -/
def Obligations.external_debug_results : Prop :=
  (∀ (k off data pins pre : Nat) (write : Bool) (s : State),
    let j := s.jtag k
    let sets (i : Instr) (j : Jtag) : Prop := exec i s = .next { s with jtags := cellSet Jtag.idle s.jtags k j }
    (s.jtagOn k = true →
      sets (.idcode k) { j with ir := 1, dr := s.idcode k, drive := 0 } ∧
      sets (.samplePreload k pins pre) { j with ir := 2, dr := pins, pre := pre, drive := 0 } ∧
      sets (.bypass k) { j with ir := 255, dr := 0, drive := 0 } ∧
      ((cellGet 0 s.down k = 3 ∨ (s.pw k).seq = 2) →
        sets (.extest k pins) { j with ir := 3, dr := pins, drive := 1 } ∧ sets (.clamp k) { j with ir := 4, dr := 0, drive := 1 } ∧
        sets (.highz k) { j with ir := 5, dr := 0, drive := 2 }) ∧
      (cellGet 0 s.down k ≠ 3 → (s.pw k).seq ≠ 2 → ∀ i ∈ ([.extest k pins, .clamp k, .highz k] : List Instr),
        sets i { j with ir := 255, dr := 0, drive := 0 }) ∧
      (let r := s.dbgAcc .jtag k off write (data % 2 ^ 64)
       exec (.dbgaccUpdate k off write data) s = .next (r.1.updJtag k (fun j => { j with
         ir := 0x20, dr := data % 2 ^ 64 + off % 2 ^ 23 * 2 ^ 64 + (if write then 2 ^ 87 else 0), drive := 0, status := r.2.1,
         data := if write then none else some r.2.2 }))) ∧
      (∀ v, j.data = some v →
        sets (.dbgaccCapture k) { j with ir := 0x20, dr := v + natBits j.dr 87 64 * 2 ^ 64 + j.status * 2 ^ 88, drive := 0 })) ∧
    (s.jtagOn k = false → ∀ i ∈ ([.idcode k, .samplePreload k pins pre, .bypass k, .extest k pins, .clamp k, .highz k,
      .dbgaccUpdate k off write data, .dbgaccCapture k] : List Instr), exec i s = .next s) ∧
    (s.rd Reg.rootStep { sock := k } = 0 → s.part k = .eq256 → s.idcode k = 0x0EC25F4B) ∧
    (s.rd Reg.rootStep { sock := k } = 0 → s.part k = .eq192 → s.idcode k = 0x0EC19F4B)) ∧
  (∀ (rq : Rq) (k off v : Nat) (w : Bool) (s : State), rq = .jtag ∨ rq = .mgc →
    (s.railsOn k = false → s.dbgAcc rq k off w v = (s, 8, 0)) ∧
    (s.railsOn k = true → 1040 * 4096 ≤ off → s.dbgAcc rq k off w v = (s, 7, 0)) ∧
    (s.railsOn k = true → off < 1040 * 4096 → s.rd Reg.dbgCtlExten { sock := k } = 0 → s.dbgAcc rq k off w v = (s, 2, 0)) ∧
    (s.railsOn k = true → s.rd Reg.dbgCtlExten { sock := k } = 1 → ∀ l < (s.part k).cores, off = 0x10000 + l * 0x4000 →
      s.rd Reg.coreLmapState { sock := k, i := l } ≠ 3 → s.dbgSealed k = true → s.dbgAcc rq k off w v = (s, 3, 0)))

/-- R598, R599, R600, Table DBUG-7: a management command completes with its response while the controller runs: the tag, a status and the bytes
of its answer; one that needs the main rails completes POWERED without them.

R600: ASH_READ of one to three entries starts at MGC.ASHPTR, gives 64 bytes for each and moves the pointer past them; TELEMETRY gives the
doublewords of the PMU block it asks for.

R598, R601, Table DBUG-6: an I3C target takes its dynamic address from ENTDAA or, for the static address 0x3A, SETDASA, and drops it on
RSTDAA; ENEC and DISEC switch its events; with an address it answers GETPID, GETBCR, GETDCR and GETSTATUS; the oldest reason goes out as an in-band
interrupt.

Where the spec leaves the choice open it rests on the model's choices of log entries 1, 23, 37 and 38. -/
def Obligations.management_results : Prop :=
  (∀ (k tag id inst off n v i data : Nat) (write : Bool) (s : State), s.mgcUp k = true →
    let answers (i : Instr) (u : State) (status : Nat) (l : List Byte) : Prop := exec i s = .next (u.respond k tag status l)
    answers (.info k tag) s 0 (dwBytes (s.blkLoad .mgc .root k 0 0x10) ++ dwBytes (s.blkLoad .mgc .root k 0 0x18) ++
      dwBytes (s.blkLoad .mgc .chim k 0 Reg.chimDiscState.off) ++ dwBytes (s.blkLoad .mgc .pwr k 0 0x18)) ∧
    answers (.identity k tag off) s 0 ((List.range (min 240 (97 + chainLen k - off))).map (fun i => identityByte k (off + i))) ∧
    answers (.powerOn k tag) (s.powerOn k 5 0) 0 [] ∧ answers (.powerOff k tag) (s.powerOff k) 0 [] ∧
    answers (.resetCold k tag) (s.coldReset k false) 0 [] ∧ answers (.ashNvclr k tag) (s.nvClr k) 0 [] ∧
    (i < 64 → answers (.ashSaved k tag i) s 0 ((List.range 8).flatMap (fun j => dwBytes (s.rd Reg.ashSaved { sock := k, i := i, j := j })))) ∧
    answers (.ashSaved k tag 64) s 0 ((List.range 8).flatMap (fun j => dwBytes (s.rd Reg.ashSummary { sock := k, i := j }))) ∧
    (64 < i → answers (.ashSaved k tag i) s 7 []) ∧
    (s.railsOn k = true →
      answers (.resetWarm k tag) (s.warmReset k) 0 [] ∧ answers (.standby k tag) (s.standby k) 0 [] ∧
      answers (.regRead k tag id inst off) (s.mgcRead k id inst off).1 (s.mgcRead k id inst off).2.1 (dwBytes (s.mgcRead k id inst off).2.2) ∧
      answers (.regWrite k tag id inst off v) (s.mgcWrite k id inst off v).1 (s.mgcWrite k id inst off v).2 [] ∧
      answers (.thermal k tag) s.useFree 0 (dwBytes (s.blkLoad .mgc .pwr k 0 0x28) ++ s.freeBytes 10) ∧
      (n = 0 ∨ 3 < n → answers (.ashRead k tag n) s 7 []) ∧
      (off % 8 ≠ 0 ∨ n = 0 ∨ 30 < n → answers (.telemetry k tag off n) s 7 []) ∧
      (let r := s.dbgAcc .mgc k off write (data % 2 ^ 64)
       answers (.debug k tag off write data) r.1 r.2.1 (BitVec.ofNat 8 r.2.1 :: dwBytes r.2.2))) ∧
    (s.railsOn k = false → ∀ i ∈ ([.resetWarm k tag, .standby k tag, .regRead k tag id inst off, .regWrite k tag id inst off v,
      .ashRead k tag n, .telemetry k tag off n, .thermal k tag, .debug k tag off write data] : List Instr), answers i s 8 [])) ∧
  (∀ (k tag n off : Nat) (s : State), s.mgcUp k = true → s.railsOn k = true →
    let a : Ix := { sock := k }
    let p := s.rd Reg.pwrMgcAshptr a
    let w := s.rd Reg.ashRingWrptr a
    (1 ≤ n → n ≤ 3 → (p + 4096 - s.ashOldest k) % 4096 ≤ (w + 4096 - s.ashOldest k) % 4096 →
      let m := min n ((w + 4096 - p) % 4096)
      exec (.ashRead k tag n) s = .next ((s.wr Reg.pwrMgcAshptr a ((p + m) % 4096)).respond k tag 0
        ((List.range m).flatMap (fun i => s.ashBytes k ((p + i) % 4096))))) ∧
    (off % 8 = 0 → 1 ≤ n → n ≤ 30 → off + 8 * n ≤ 768 * 4096 → s.dbgSealed k = false →
      exec (.telemetry k tag off n) s = .next (s.respond k tag 0
        ((List.range n).flatMap (fun i => dwBytes (s.mgcRead k 0x90 0 (off + 8 * i)).2.2)))) ∧
    ∀ (st : Nat) (l : List Byte), (s.respond k tag st l).mgc k = { s.mgc k with resp := some (st, tag % 256, l) }) ∧
  (∀ (k addr : Nat) (s : State),
    let a : Ix := { sock := k }
    let sets (i : Instr) (m : Mgc) : Prop := exec i s = .next { s with mgcs := cellSet Mgc.idle s.mgcs k m }
    (s.i3cOn k = true →
      exec (.rstdaa k) s = .next (s.wr Reg.pwrMgcStatDynaddr a 0) ∧
      (s.dynAddr k = 0 → addr < 128 → exec (.entdaa k addr) s = .next (s.wr Reg.pwrMgcStatDynaddr a addr) ∧
        exec (.setdasa k 0x3A addr) s = .next (s.wr Reg.pwrMgcStatDynaddr a addr)) ∧
      (s.dynAddr k ≠ 0 → exec (.entdaa k addr) s = .next s) ∧
      sets (.enec k) { s.mgc k with evOff := false } ∧ sets (.disec k) { s.mgc k with evOff := true } ∧
      (s.dynAddr k ≠ 0 →
        sets (.getpid k) { s.mgc k with ccc := (leBytes 6 (s.pid k)).reverse } ∧
        sets (.getbcr k) { s.mgc k with ccc := leBytes 1 (i3cOpen 2 k).toNat } ∧
        sets (.getdcr k) { s.mgc k with ccc := leBytes 1 (i3cOpen 3 k).toNat } ∧
        (∃ t : State, exec (.getstatus k) s = .next t ∧ (t.mgc k).ccc = s.freeBytes 2 ∧ t.regs = s.regs) ∧
        (∀ e, s.ibi.find? (fun e => e.1 = k) = some e → (s.mgc k).evOff = false →
          exec (.mgcIbi k) s = .next ({ s with ibi := s.ibi.erase e }.updMgc k (fun m => { m with sent := some e.2 }))))) ∧
    (addr ≠ 0x3A → exec (.setdasa k addr 1) s = .next s) ∧
    (s.i3cOn k = false → ∀ i ∈ ([.rstdaa k, .entdaa k addr, .enec k, .disec k, .getpid k, .getbcr k, .getdcr k] : List Instr),
      exec i s = .next s))

/-- R482-R488, R490, Tables PCIX-1 and PCIX-2: a DMA request that its context grants reads or writes the lines it names; its completion comes with its last
line, behind earlier posted writes; one that is refused changes no memory, is counted and recorded; an interrupt message that its function may send raises its routing index, and any other is dropped and counted.

R484, R489, R491-R497, Table PCIX-3: the slot, port and CXL commands of a root complex that has the port: power on, PERST release, training, its
timeout, power off, attention, errors with and without containment, release, and the check of a CXL range; IOINV drops the cached entries and
shows DONE when it is over; a link's exit from L1 lets the requests held for it go on.

Where the spec leaves the choice open it rests on the model's choices of log entries 13 and 27. -/
def Obligations.root_complex_results : Prop :=
  (∀ (k n j rid va len : Nat) (p : Option Nat) (data : List Byte) (attr : BitVec 3) (poisoned : Bool) (s t : State) (l : List (Nat × Nat)),
    s.portOpen k n j = true → rid < 2 ^ 16 →
    let pr := s.dmaPart k n j rid false va len
    let pw := s.dmaPart k n j rid true va data.length
    (s.dmaBehind k n rid false va len = false → s.dmaCheck k n rid p va len Acc.load attr.toNat = .ok l t →
      let r := dmaReadGo (prcAgent k n j) k (l.drop pr.done) pr t
      let u := r.1.dmaKeep k n r.2 (r.2.done = l.length)
      (r.2.done = l.length → exec (.dmaRead k n j rid p va len attr) s = .next (if r.2.bad
        then (u.bump Reg.prcErrPoisonin (prcIx k n)).updPrc k n (fun x => { x with resp := (2, r.2.data) })
        else u.updPrc k n (fun x => { x with resp := (0, r.2.data) }))) ∧
      (r.2.done ≠ l.length → exec (.dmaRead k n j rid p va len attr) s = .next u)) ∧
    (s.dmaBehind k n rid false va len = true → exec (.dmaRead k n j rid p va len attr) s = .next s) ∧
    (va / 2 ^ 20 ≠ s.rd Reg.prcMsiwin (prcIx k n) →
      (s.dmaBehind k n rid true va data.length = true → exec (.dmaWrite k n j rid p va data poisoned attr) s = .next (s.dmaKeep k n pw false)) ∧
      (s.dmaBehind k n rid true va data.length = false →
        (s.dmaCheck k n rid p va data.length Acc.store attr.toNat = .ok l t →
          let r := dmaWriteGo (prcAgent k n j) k poisoned (l.drop pw.done) (data.drop (((l.take pw.done).map (·.2)).sum)) pw t
          let u := r.1.dmaKeep k n r.2 (r.2.done = l.length)
          (r.2.done = l.length → exec (.dmaWrite k n j rid p va data poisoned attr) s =
            .next ((if poisoned then u.bump Reg.prcErrPoisonin (prcIx k n) else u).msiRelease k n rid)) ∧
          (r.2.done ≠ l.length → exec (.dmaWrite k n j rid p va data poisoned attr) s = .next u)) ∧
        (∀ a, s.dmaCheck k n rid p va data.length Acc.store attr.toNat = .refuse a t →
          exec (.dmaWrite k n j rid p va data poisoned attr) s =
            .next (((t.dmaRefuse k n j rid a).dmaKeep k n pw true).msiRelease k n rid) ∧
          (t.dmaRefuse k n j rid a).mem = t.mem))) ∧
    (attr ≠ 0 → s.dmaCheck k n rid p va len Acc.load attr.toNat = .refuse va s) ∧
    (data.length ≠ 4 → exec (.msiMessage k n j rid data) s = .next (s.bump Reg.prcErrMsidrop (prcIx k n))) ∧
    (∀ w i, data.length = 4 → s.fnHeld k n rid = false → (∀ q ∈ (s.prc k n).parts, q.write = true → q.rid ≠ rid) → s.devCtx k n rid = (t, .ok (w, i)) →
      (leNat data < 256 → leNat data < cw w 6 23 16 →
        exec (.msiMessage k n j rid data) s = .next (t.msgInt k (cw w 6 11 0 + leNat data)) ∧
        (va / 2 ^ 20 = s.rd Reg.prcMsiwin (prcIx k n) →
          exec (.dmaWrite k n j rid p va data poisoned attr) s = .next (t.msgInt k (cw w 6 11 0 + leNat data)))) ∧
      (cw w 6 23 16 ≤ leNat data → exec (.msiMessage k n j rid data) s = .next (t.bump Reg.prcErrMsidrop (prcIx k n))))) ∧
  (∀ (k n j r rid gen width b : Nat) (all : Bool) (s : State),
    let a := portIx k n j
    let x : Ix := { sock := k, inst := n, i := r }
    let st := s.rd Reg.prcPortSlotState a
    (s.hasPort k n j = true →
      (b < 6 → exec (.prcEventInterrupt k n j b) s = .next (s.prcEvent k n j b)) ∧
      (∀ b, (s.rd Reg.prcPortEvent a).testBit b = true → s.prcEvent k n j b = s) ∧
      (s.rd Reg.prcPortSlotPresent a = 1 → s.rd Reg.prcPortSlotFault a = 0 → st = 0 →
        (s.slotHot k n j = false → exec (.slotPwron k n j) s = .next (s.wr Reg.prcPortSlotState a 1)) ∧
        (s.slotHot k n j = true → exec (.slotPwron k n j) s =
          .next (s.updPrc k n (fun x => { x with want := j :: x.want.filter (· ≠ j) })))) ∧
      (s.rd Reg.prcPortSlotFault a = 1 → exec (.slotPwron k n j) s = .next s) ∧
      (st = 1 → exec (.slotPerstRelease k n j) s = .next (s.wr Reg.prcPortSlotState a 2)) ∧
      (st = 2 → exec (.slotTrainTimeout k n j) s = .next ((s.wr Reg.prcPortSlotState a 4).prcEvent k n j 1)) ∧
      (st = 2 → s.rd Reg.prcPortCtlEn a = 1 → 1 ≤ gen → gen ≤ s.rd Reg.prcPortCtlMaxgen a → s.rd Reg.prcPortCtlCxl a = 0 →
        exec (.slotLinkTrained k n j gen width true true) s = .next (((s.wrs a [(Reg.prcPortSlotState, 3), (Reg.prcPortLinkGen, gen),
          (Reg.prcPortLinkWidth, width), (Reg.prcPortLinkCxl, 0)]).updPrc k n (fun x => { x with noMeta := x.noMeta.filter (· ≠ j) })).prcEvent k
            n j 0)) ∧
      exec (.slotPwroff k n j) s = .next ((((s.wr Reg.prcPortSlotState a 0).linkOff k n j).devLost k n j).updPrc k n
        (fun x => { x with want := x.want.filter (· ≠ j) })) ∧
      exec (.linkL1Exit k n j) s = .next (s.updPrc k n (fun x =>
        { x with l1 := x.l1.filter (· ≠ j), held := x.held.filter (fun e => e.1 ≠ j) })) ∧
      exec (.slotAttention k n j) s = .next (s.prcEvent k n j 4) ∧
      ((st = 1 ∨ st = 3) → s.rd Reg.prcPortSlotPfgroup a = 0 → exec (.slotPowerFault k n j) s = .next (s.slotFault k n j 0)) ∧
      (s.rd Reg.prcPortSlotPresent a = 0 → exec (.presenceChange k n j true) s = .next
        (((s.wr Reg.prcPortSlotPresent a 1).prcEvent k n j 3).mgcReason k 6)) ∧
      (s.rd Reg.prcPortSlotPresent a = 1 → exec (.presenceChange k n j false) s = .next
        (((((s.wr Reg.prcPortSlotPresent a 0).prcEvent k n j 3).mgcReason k 6).linkOff k n j).contain k n j 3)) ∧
      (st = 3 → exec (.portRelease k n j) s = .next (s.wr Reg.prcPortLinkContained a 0)) ∧
      (st = 3 → s.rd Reg.prcPortLinkContained a = 0 →
        exec (.aerFatal k n j) s = .next ((s.contain k n j 5).prcEvent k n j 5) ∧
        exec (.aerError k n j) s = .next (s.prcEvent k n j 5))) ∧
    (s.hasPort k n j = false → ∀ i ∈ ([.slotPwron k n j, .slotPerstRelease k n j, .slotTrainTimeout k n j, .slotPwroff k n j,
      .slotPowerFault k n j, .linkL1Exit k n j, .presenceChange k n j true, .aerFatal k n j, .aerError k n j, .portRelease k n j] : List Instr),
      exec i s = .next s) ∧
    (s.prcOn k n = true → rid < 2 ^ 16 →
      ∃ t : State, exec (.ioinvGo k n rid all) s = .next t ∧ t.rd Reg.prcIoinvDone (prcIx k n) = 0 ∧
        ∀ e ∈ (t.prc k n).ctxs, e.1 ≠ rid ∧ all = false) ∧
    exec (.ioinvDone k n) s = .next (s.wr Reg.prcIoinvDone (prcIx k n) 1) ∧
    (s.prcOn k n = true →
      exec (.cxlwinValidWrite k n r false) s = .next ((s.wr Reg.prcCxlwinValid x 0).wr Reg.prcCxlwinInit x 0) ∧
      (s.rd Reg.prcCxlwinValid x = 0 → exec (.cxlwinValidWrite k n r true) s = .next (if s.cxlCode k n r = 0 then
        ((s.wr Reg.prcCxlwinCode x 0).wr Reg.prcCxlwinValid x 1).wr Reg.prcCxlwinInit x 1 else s.wr Reg.prcCxlwinCode x (s.cxlCode k n r)))) ∧
    (s.rd Reg.prcCxlwinInit x = 1 → exec (.cxlPoisonFillDone k n r) s = .next ((s.cxlClear k n r).wr Reg.prcCxlwinInit x 0)))

/-- R505, R506, R507: an entry of a class above CE is written at WRPTR: its sequence number, class, source and instance in doubleword 0, the
time in 1, the address in 2, the data words in 4 to 7 (words the unit does not state are
left open); WRPTR moves on by one and SEQ takes the next number, never 0. -/
def Obligations.ashpan_entry_written : Prop :=
  ∀ (k : Nat) (e : AshE) (s : State), k < 1024 → e.cls ≠ 0 → e.cls < 16 → e.src < 256 → e.inst < 2 ^ 16 →
    let a : Ix := { sock := k }
    let w := s.rd Reg.ashRingWrptr a
    let seq := s.rd Reg.ashSeqNext a
    seq < 2 ^ 32 →
    let t := s.ash k e
    let word (j : Nat) : Nat := t.rd Reg.ashEntry { sock := k, i := w, j := j }
    word 0 = seq + e.cls * 2 ^ 32 + e.src * 2 ^ 36 + e.inst * 2 ^ 48 ∧ word 1 = s.now k ∧ word 2 = e.addr % 2 ^ 57 ∧
    word 4 = (e.detail s).d4 % 2 ^ 64 ∧ word 5 = (e.detail s).d5 % 2 ^ 64 ∧ word 6 = e.d6 % 2 ^ 64 ∧ word 7 = e.d7 % 2 ^ 64 ∧
    (e.d4 ≠ 0 → (e.detail s).d4 = e.d4) ∧ (e.d5 ≠ 0 → (e.detail s).d5 = e.d5) ∧
    t.rd Reg.ashRingWrptr a = (w + 1) % 4096 ∧ t.rd Reg.ashSeqNext a = (if seq = 2 ^ 32 - 1 then 1 else seq + 1) ∧
    t.mem = s.mem ∧ t.cores = s.cores

/-- R505, R508, R509, R511, R528: a unit's entry is written through the Ashpan; a write of RDPTR takes a value in the live range and otherwise
names the oldest entry that survives; a minute's end records the corrected errors it suppressed; NV_CLR clears NV.VALID; a failure of a unit
of R528 fails its socket.

R516, R517, R521: a spare that fails is marked and no longer counted; a grate whose stop or power domain fails is fenced, its slice retires and
the thread on it asks for a hand-off; an error of an unpaired core does too.

Where the spec leaves the choice open it rests on the model's choices of log entries 13, 15, 28 and 34. -/
def Obligations.ashpan_and_grate_results : Prop :=
  (∀ (k v src inst code addr d4 d5 d6 dom core peer cls : Nat) (s : State),
    let a : Ix := { sock := k }
    (s.up k = true → cls < 6 → src < 256 → inst < 2 ^ 16 → code < 256 → peer < 1024 →
      exec (.ashpanWrite k cls src inst code addr peer dom core d4 d5 d6) s = .next (s.ash k
        { cls := cls, src := src, inst := inst, code := code, addr := addr, peer := peer, part := s.partition k, domain := dom,
          core := core, d4 := d4, d5 := d5, d6 := d6 })) ∧
    (s.up k = false → exec (.ashpanWrite k cls src inst code addr peer dom core d4 d5 d6) s = .next s) ∧
    (let o := s.ashOldest k
     v < 4096 → exec (.rdptrWrite k v) s = .next (s.wr Reg.ashRingRdptr a
      (if (v + 4096 - o) % 4096 ≤ (s.rd Reg.ashRingWrptr a + 4096 - o) % 4096 then v else o))) ∧
    (let t : State := { s with ceCount := cellErase s.ceCount k, ceSupp := cellErase s.ceSupp k }
     (cellGet 0 s.ceSupp k = 0 → exec (.ceLimitMinute k) s = .next t) ∧
     (cellGet 0 s.ceSupp k ≠ 0 → exec (.ceLimitMinute k) s = .next
      (t.ash k { cls := 5, src := 0xA0, code := 0x0B, part := t.partition k, d4 := cellGet 0 s.ceSupp k }))) ∧
    exec (.nvClr k) s = .next (s.wr Reg.ashNvValid a 0) ∧
    (inst < 2 ^ 16 → exec (.socketFailure k 0x20 inst d4) s = .next (s.socketFail k 0x20 inst d4)) ∧
    (s.up k = true → ∃ t : State, exec (.socketFailure k 0x10 inst d4) s = .next t ∧ cellGet 0 t.down k = 2) ∧
    exec (.socketFailure k 0x11 inst d4) s = .next s) ∧
  (∀ (k g l : Nat) (s : State),
    let a : Ix := { sock := k, i := g }
    (s.rd Reg.coreGmapState a = 2 → s.handoffs = [] → exec (.spareFail k g) s = .next
      (((s.wr Reg.coreGmapState a 5).wr Reg.ashSpareLeft { sock := k } ((s.wr Reg.coreGmapState a 5).rd Reg.ashSpareLeft { sock := k } -
        1)).ash k { cls := 2, src := 0x01, inst := g, code := 0x05, part := s.partition k })) ∧
    (s.rd Reg.coreGmapState a ≠ 2 → exec (.spareFail k g) s = .next s) ∧
    (s.up k = true → s.rd Reg.coreGmapState a = 1 → exec (.grateFence k g) s = .next
      ((((s.wr Reg.coreGmapState a 4).wr Reg.coreGmapLogical a 0).retireReq k g true).handReq k (s.rd Reg.coreGmapLogical a))) ∧
    (s.rd Reg.coreGmapState a = 4 → exec (.grateFence k g) s = .next s) ∧
    (s.up k = true → s.activePair k l = none → exec (.pipelineError k l) s = .next (s.handReq k l)) ∧
    (s.up k = false → exec (.pipelineError k l) s = .next s))

/-- R516-R519, R627, Table RELY-7: a hand-off goes through its steps: asked for with a spare there, it stops the core, raises the epoch and
takes the nearest spare, reads state and stores, empties the L2 once the spare has power, loads the spare into the core map and resumes the
thread.  A command out of its step changes nothing.

R522-R527, Tables RELY-8 and RELY-10: a mismatch of an ACTIVE pair is counted and stops both cores; the epoch is raised and the self-tests
run; both passed below TLIM resumes the thread, one failed has its core replaced; a pair that satisfies R522 is tested, and is ACTIVE once its comparator
passes, CMPFAIL when it does not.

Where the spec leaves the choice open it rests on the model's choices of log entries 13 and 34. -/
def Obligations.handoff_and_lockstep_results : Prop :=
  (∀ (k l g : Nat) (h : Handoff) (s : State),
    let c := k * 256 + l
    let stepTo (step : Nat) (s : State) : State := s.setHand h { h with step := step }
    (l < 256 → s.spares k ≠ [] → s.up k = true → s.coreMapped c = true → s.handoff c = none →
      let new : Handoff := { core := c, grate := s.rd Reg.coreLmapGrate (coreIx c), step := 0, spare := none, powered := false, errs := (0, 0) }
      exec (.handoffGo k l) s = .next { s with handoffs := s.handoffs ++ [new] }) ∧
    (s.spares k = [] → exec (.handoffGo k l) s = .next s) ∧
    (s.handoff c = some h →
      (h.step = 0 → (s.rd Reg.ashHandoffTiles { sock := k }).testBit (tileOf h.grate) = false → (s.core c).devWait = none →
        (s.core c).win = none → (s.core c).region = none → (s.core c).wait = none →
        exec (.handoffStart k l) s = .next (stepTo 1 (((s.updCore c (fun q => { q with frozen := true, fence := none })).wr Reg.coreLmapState
          (coreIx c) 4).tileBusy k (tileOf h.grate) true))) ∧
      (h.step = 1 → exec (.handoffRepoch k l) s = .next ((s.actBegin k (actCore h.core)).nextSpare h 2)) ∧
      (h.step = 2 → exec (.handoffStateRead k l) s = .next (stepTo 3 s)) ∧
      (h.step = 3 → exec (.handoffStoresRead k l) s = .next (stepTo 4 s)) ∧
      (h.step = 4 → h.powered = true → exec (.handoffL2Emptied k l) s = .next (stepTo 5 (s.emptyL2 h.core))) ∧
      (h.step = 4 → h.powered = false → exec (.handoffL2Emptied k l) s = .next s) ∧
      (h.step = 5 → h.spare = some g → h.powered = true → exec (.spareLoaded k l) s = .next
        (((((s.grateOut k h.grate).grateIn h.core g).updCore h.core Core.newGrate).bump Reg.coreLmapMoves (coreIx h.core)).setHand h
          { h with step := 6, errs := s.errWords h.core })) ∧
      (h.step = 5 → h.powered = false → exec (.spareLoaded k l) s = .next s) ∧
      (∀ t, h.step = 6 → s.drain h.core = some t → ∃ u : State, exec (.handoffResume k l) s = .next u ∧ u.mem = t.mem ∧
        (u.core h.core).frozen = false) ∧
      (h.step = 6 → (s.core h.core).storeQ = [] → ∃ u : State, exec (.handoffResume k l) s = .next u ∧ u.mem = s.mem ∧
        (u.core h.core).frozen = false) ∧
      (h.step = 3 → s.activePair k l = none → ∀ d, exec (.handoffSourceFail k l d) s = .next ((s.handEnd h).threadLost h.core 4 d)) ∧
      (h.step = 6 → ∀ d, exec (.handoffSourceFail k l d) s = .next s ∧ exec (.handoffStateRead k l) s = .next s)) ∧
    (s.handoffs.find? (fun h => coreSock h.core = k && h.spare = some g) = some h →
      exec (.sparePowered k g) s = .next (s.setHand h { h with powered := true }))) ∧
  (∀ (k p : Nat) (r : LockRec) (s : State),
    let a := lsIx k p
    (s.rd Reg.ashLsState a = 2 → s.up k = true →
      exec (.lockstepMismatch k p) s = .next ((s.bump Reg.ashLsMismatch a).lockStart k p false false)) ∧
    (s.rd Reg.ashLsState a ≠ 2 → exec (.lockstepMismatch k p) s = .next s) ∧
    (s.lockrec k p = some r →
      (r.step = 1 → exec (.lockstepRepoch k p) s = .next ((s.actBegin k (actCore (s.lsMain k p))).setLock r { r with step := 2 })) ∧
      (r.step = 2 → r.mainBad = false → r.chkBad = false →
        exec (.lockstepSelftestDone k p false true) s = .next (s.setLock r { r with step := 3, res := 1 }) ∧
        exec (.lockstepSelftestDone k p true false) s = .next (s.setLock r { r with step := 3, res := 2 }) ∧
        (let t := s.bump Reg.ashLsTransient a
         t.rd Reg.ashLsTransient a < s.rd Reg.ashLscfgTlim { sock := k } →
          exec (.lockstepSelftestDone k p true true) s = .next ((t.lockResume r 2).lsAsh k p 2 0x06 0))) ∧
      (r.step = 3 → r.res = 2 →
        let t := s.grateOut k (s.rd Reg.coreLmapGrate (coreIx (s.lsChk k p)))
        (∀ g, t.pickSpare k (s.rd Reg.coreLmapGrate (coreIx (s.lsMain k p))) true = some g → exec (.lockstepRepaired k p) s = .next
          (((t.grateIn (s.lsChk k p) g).wr Reg.ashLsState a 1).setLock r { r with step := 4 })) ∧
        (t.pickSpare k (s.rd Reg.coreLmapGrate (coreIx (s.lsMain k p))) true = none →
          exec (.lockstepRepaired k p) s = .next (t.unpair r)))) ∧
    ((s.part k).full = true → p < 128 → s.rd Reg.ashLsEn a = 1 → s.rd Reg.ashLsState a = 0 →
      exec (.comparatorTest k p) s = .next (if s.pairOk k p then s.wr Reg.ashLsState a 1
        else s.ash k { cls := 5, src := 0x03, inst := p, code := 0x0A, part := s.partition k })) ∧
    (s.rd Reg.ashLsState a = 1 → s.lockrec k p = none →
      exec (.comparatorTestDone k p true) s = .next (((s.wr Reg.coreLmapState (coreIx (s.lsMain k p)) 2).wr Reg.coreLmapState
        (coreIx (s.lsChk k p)) 3).wr Reg.ashLsState a 2) ∧
      exec (.comparatorTestDone k p false) s = .next ((s.wr Reg.ashLsState a 5).lsAsh k p 3 0x03 0)) ∧
    (s.rd Reg.ashLsState a = 2 → ∀ b, exec (.comparatorTestDone k p b) s = .next s))

/-- R532-R536, R562-R564, Table POWR-2: a power-on request of an Off socket starts the power-up sequence, a power-off request of a running one
the power-down sequence, and a request made in between is latched; the sequence's own events move it on; a fatal fault fails the socket and
starts a save; a save's end records it and leaves the socket Off until the restart condition.

Where the spec leaves the choice open it rests on the model's choices of log entries 13 and 33. -/
def Obligations.power_sequence_results : Prop :=
  ∀ (k ms w die cause dur : Nat) (s : State),
    let a : Ix := { sock := k }
    let p := s.pw k
    (p.seq = 4 → p.save = none → p.need = false →
      exec (.powerOnRequest k) s = .next ((s.updPw k (fun p => { p with wake := some (5, 0) })).powerUp k) ∧
      (10 ≤ ms → ms < 4000 → exec (.pwrbtn k ms) s = .next ((s.updPw k (fun p => { p with wake := some (6, 0) })).powerUp k))) ∧
    (p.seq = 6 → p.save = none → exec (.powerOnRequest k) s = .next ((s.wr Reg.pwrPkgPendreq a 1).updPw k
      (fun p => { p with wake := some (5, 0) }))) ∧
    (p.seq = 0 → p.save = none → s.up k = true →
      exec (.powerOffRequest k) s = .next (s.powerDown k) ∧ (4000 ≤ ms → exec (.pwrbtn k ms) s = .next (s.powerDown k))) ∧
    (ms < 10 → exec (.pwrbtn k ms) s = .next s) ∧
    (p.seq = 1 → exec (.standbyRailsValid k) s = .next (s.updPw k (fun p => { p with seq := 2 }))) ∧
    (p.seq ≠ 1 → exec (.standbyRailsValid k) s = .next s) ∧
    (p.seq = 2 → ∀ b, ∃ t : State, exec (.rstDeassert k b) s = .next t ∧ (t.pw k).seq = 3 ∧
      t.rd Reg.pwrMgcStatI3c a = (if b then 1 else 0) ∧ t.rd Reg.pwrMgcStatDynaddr a = 0) ∧
    (p.seq = 3 → ∀ x y, ∃ t : State, exec (.bootVerify k false false x y) s = .next t ∧ (t.pw k).seq = 7 ∧ cellGet 0 t.down k = 3) ∧
    (p.seq = 3 → ∀ x y, (s.loadBoot k x).rd Reg.pwrPkgPendreq a = 0 → cellGet 0 (s.loadBoot k x).down k = 1 →
      exec (.bootVerify k true true x y) s = .next ((s.loadBoot k x).updPw k (fun p => { p with seq := 4 }))) ∧
    (p.seq = 5 → s.rd Reg.pwrPkgPendreq a = 0 → p.wake = some (w, die) →
      ∃ t : State, exec (.pwrokAssert k []) s = .next t ∧ t.up k = true ∧ t.rd Reg.pwrPkgState a = 0 ∧ (t.pw k).seq = 0 ∧
        t.rd Reg.pwrLastwakeSrc a = w % 2 ^ Reg.pwrLastwakeSrc.w) ∧
    (p.seq = 5 → s.rd Reg.pwrPkgPendreq a = 2 → exec (.pwrokAssert k []) s = .next (s.powerDown k)) ∧
    (p.seq = 6 → exec (.pwrokLoss k false) s = .next (s.offNow k)) ∧
    (p.seq = 0 → exec (.pwrokLoss k false) s = .next (s.powerFatal k)) ∧
    exec (.refclkLoss k) s = .next (s.powerFatal k) ∧ exec (.meshPllUnlock k die) s = .next (s.powerFatal k) ∧
    (s.up k = true → exec (.junctionFatal k) s = .next ((s.powerFatal k).updPw k (fun p => { p with therm := true }))) ∧
    (p.seq = 0 → s.up k = true → exec (.vholdLow k) s = .next (s.pwrAsh k 5)) ∧
    (p.save = none → p.saved = false → p.seq = 0 → 1 ≤ cause → cause ≤ 3 →
      let u := (s.wr Reg.pwrPkgState a 5).updPw k (fun p => { p with save := some (cause, s.rd Reg.pwrPkgState a), saved := true })
      exec (.holdupTrigger k cause) s = .next ((u.pwrAsh k 5).mgcReason k 2)) ∧
    (p.save = none → exec (.saveCommit k dur) s = .next s) ∧
    (∀ c, p.save = some c → p.seq = 0 → s.rd Reg.pwrPkgPendreq a = 0 →
      ∃ t : State, exec (.saveCommit k dur) s = .next t ∧ cellGet 0 t.down k = 1 ∧ (t.pw k).need = true ∧ (t.pw k).save = none) ∧
    (p.seq = 4 → p.need = true → s.rd Reg.pwrPkgPendreq a = 2 → exec (.restartCondition k) s = .next
      ((s.updPw k (fun p => { p with need := false })).wr Reg.pwrPkgPendreq a 0)) ∧
    (∃ t : State, exec (.standbyRailLoss k) s = .next t ∧ cellGet 0 t.down k = 1 ∧ (t.pw k).seq = 1)

/-- R537-R541, R551-R554, Tables POWR-3 and POWR-8: a core's PLL is requested, locks and is selected; without its lock a core runs on its fast
clock of 1,600 MHz; the Damper takes one step off the cores it may throttle when a limit or a target is passed, and gives it back.

R523, R546-R549, R555-R561, Tables POWR-9 and FLUE-10: the package sleeps and wakes; a WAKE land that asserts requests power-on or wakes the
package and raises its vector; units change power unless one in use would lose it; cold, warm and core resets are carried out or held; a core whose
RUN is set starts at BOOT.PC; of a partition that is STOPPING every core is held in reset, and it becomes STOPPED.

Where the spec leaves the choice open it rests on the model's choices of log entries 13 and 33. -/
def Obligations.clock_damper_sleep_reset_results : Prop :=
  (∀ (k l req tile temp which watts : Nat) (s : State),
    let a := pcIx k l
    let d : Ix := { sock := k }
    (s.clkOk k l = true → s.clkTwin k l = none →
      (s.rd Reg.pwrCoreLocked a = 0 → exec (.pllenWrite k l req true) s = .next ((s.wr Reg.pwrCoreReq a (reqClamp req)).wr Reg.pwrCorePllen
        a 1)) ∧
      (s.rd Reg.pwrCorePllen a = 1 → s.rd Reg.pwrCoreLocked a = 0 →
        (s.rd Reg.pwrCoreSel a = 0 → exec (.pllLocked k l) s = .next (s.wr Reg.pwrCoreLocked a 1)) ∧
        (s.rd Reg.pwrCoreSel a = 1 → ∃ t : State, exec (.freqRelock k l) s = .next t ∧ t.rd Reg.pwrCoreLocked a = 1 ∧
          t.rd Reg.pwrCoreCur a = s.freqFor k l % 2 ^ Reg.pwrCoreCur.w)) ∧
      (s.rd Reg.pwrCoreLocked a = 1 → exec (.selWrite k l true) s = .next ((s.wr Reg.pwrCoreSel a 1).wr Reg.pwrCoreCur a (s.freqFor k l))) ∧
      (s.rd Reg.pwrCoreLocked a = 0 → exec (.selWrite k l true) s = .next s) ∧
      exec (.selWrite k l false) s = .next ((s.wr Reg.pwrCoreSel a 0).wr Reg.pwrCoreCur a 1600) ∧
      (s.live k = true → s.rd Reg.pwrCoreLocked a = 1 →
        exec (.corePllUnlock k l) s = .next (((s.wr Reg.pwrCoreLocked a 0).wr Reg.pwrCoreCur a 1600).pwrAsh k 2))) ∧
    (s.clkOk k l = false → ∀ i ∈ ([.pllenWrite k l req true, .pllLocked k l, .selWrite k l true, .corePllUnlock k l] : List Instr),
      exec i s = .next s) ∧
    (s.live k = true →
      (which < 3 → exec (.damperLimit k which watts) s =
        .next (((s.dampBit k which true).wr Reg.pwrDampStatPkgw d watts).throttle k 0 (fun _ => true))) ∧
      (which = 3 → exec (.damperLimit k which watts) s = .next s ∧ exec (.damperLimitClear k which watts) s = .next s) ∧
      (which < 3 → let t := (s.dampBit k which false).wr Reg.pwrDampStatPkgw d watts
        t.rd Reg.pwrDampStatActive d &&& 0x17 ≠ 0 → exec (.damperLimitClear k which watts) s = .next t) ∧
      (s.rd Reg.pwrDampTjtarget d < temp → exec (.thermalTarget k tile temp) s = .next
        (((s.tileHot k tile false true).wr Reg.pwrDampStatTjmax d temp).throttle k 256 (fun l => s.coreTile k l = tile))) ∧
      (temp ≤ s.rd Reg.pwrDampTjtarget d → exec (.thermalTarget k tile temp) s = .next s) ∧
      (105 ≤ temp → (s.pw k).emerg.testBit tile = false → exec (.thermalEmergency k tile temp) s = .next
        ((((((s.tileHot k tile true true).wr Reg.pwrDampStatTjmax d temp).bump Reg.pwrDampEmergcnt d)).freqAll k).pwrAsh k 5)) ∧
      (103 < temp → s.rd Reg.pwrDampTjtarget d < temp + 2 →
        exec (.thermalClear k tile temp) s = .next ((s.wr Reg.pwrDampStatTjmax d temp).freqAll k)))) ∧
  (∀ (k l i n p stk prc src : Nat) (s : State),
    let a : Ix := { sock := k }
    (s.live k = true →
      (s.rd Reg.pwrPkgBanken a = 0 → exec (.pkgBankedEnter k) s = .next s) ∧
      (s.rd Reg.pwrPkgState a = 0 → s.rd Reg.pwrPkgBanken a = 1 → s.allAsleep k [2, 3] = true →
        (∀ c < 8, s.stkOn k c = true → (s.cell k c).gated = true) → s.prcBusy k = false → s.inAction k = false →
        (∀ h ∈ s.handoffs, coreSock h.core ≠ k) → cellGet none s.retire k = none →
        (∀ m < 16, s.rd Reg.mcSpareStatBusy { sock := k, inst := m } = 0) → s.isAssured k = false → s.landsHold k = false →
        ∃ t : State, exec (.pkgBankedEnter k) s = .next t ∧ t.rd Reg.pwrPkgState a = 1 ∧ t.mem = s.mem) ∧
      (s.rd Reg.pwrPkgState a = 1 → 1 ≤ src → src ≤ 5 → ∃ t : State, exec (.pkgWake k src i) s = .next t ∧ t.rd Reg.pwrPkgState a = 0 ∧
        t.rd Reg.pwrLastwakeSrc a = src ∧ t.rd Reg.pwrLastwakeValid a = 1) ∧
      (s.rd Reg.pwrPkgState a = 0 → exec (.pkgWake k src i) s = .next s) ∧
      (i < 4 → (s.pw k).seq = 0 → s.rd Reg.pwrWakePol { sock := k, i := i } = 1 → s.rd Reg.pwrWakeEn { sock := k, i := i } = 1 →
        s.rd Reg.pwrWakeEdge { sock := k, i := i } = 0 →
        let t := s.updPw k (fun p => { p with lands := p.lands ||| 2 ^ i })
        exec (.wakeLand k i true) s = .next ((t.pkgWake k 1 i).sysVector k (t.rd Reg.ihubMonitor { sock := k })
          (t.rd Reg.pwrWakeVec { sock := k, i := i }))) ∧
      (∀ h : Bool, i < 4 → (h == decide (s.rd Reg.pwrWakePol { sock := k, i := i } = 1)) = false →
        ∃ t : State, exec (.wakeLand k i h) s = .next t ∧ t.regs = s.regs ∧ (t.pw k).lands.testBit i = h) ∧
      ((s.part k).full = true → stk < 256 → prc < 16 → s.rd Reg.pwrUpwrStatStk a = 0 → s.rd Reg.pwrUpwrStatPrc a = 0 →
        exec (.upwrWrite k stk prc) s = .next ((s.wr Reg.pwrUpwrStk a stk).wr Reg.pwrUpwrPrc a prc)) ∧
      ((s.rd Reg.pwrUpwrStk a).testBit n = true → (s.rd Reg.pwrUpwrStatStk a).testBit n = false →
        exec (.unitPowerDone k false n) s = .next (s.wr Reg.pwrUpwrStatStk a (s.rd Reg.pwrUpwrStatStk a + 2 ^ n))) ∧
      (let st := s.rd Reg.chimPartState { sock := k, i := s.partition k }
       (st = 2 ∨ st = 3 → exec (.warmReset k) s = .next (s.wr Reg.pwrResetWarmpend a 1)) ∧
       (st = 0 → exec (.warmReset k) s = .next (s.warmNow k))) ∧
      (l < (s.part k).cores → s.pairOf k l = none → (s.core (k * 256 + l)).frozen = false → (s.core (k * 256 + l)).wait = none →
        (s.core (k * 256 + l)).storeQ = [] → ∃ t : State, exec (.coreReset k l) s = .next t ∧
          (t.core (k * 256 + l)).pc = s.bootPc k ∧ (t.core (k * 256 + l)).region = none ∧ (t.core (k * 256 + l)).l2 = [] ∧
          (t.core (k * 256 + l)).world = none ∧ ∀ r, (t.core (k * 256 + l)).gr r = 0) ∧
      (∀ t, l < (s.part k).cores → s.coreReset (k * 256 + l) = some t →
        exec (.coreReset k l) s = .next (t.updPw k (fun p => { p with rst := p.rst.filter (· ≠ l) }))) ∧
      ((s.part k).cores ≤ l → exec (.coreReset k l) s = .next s)) ∧
    exec (.pkgCmdStandby k) s = .next (s.standby k) ∧
    (s.live k = false → exec (.pkgCmdStandby k) s = .next s ∧ exec (.warmReset k) s = .next s) ∧
    ((s.pw k).save = none → (s.pw k).seq = 0 → ∀ pin, ∃ t : State, exec (.coldReset k pin) s = .next t ∧ cellGet 0 t.down k = 3 ∧
      (t.pw k).seq = (if pin then 2 else 3)) ∧
    ((s.pw k).seq = 1 → ∀ pin, exec (.coldReset k pin) s = .next s) ∧
    (l < (s.part k).cores → s.rd Reg.pwrCoreRun (pcIx k l) = 0 → ∃ t : State, exec (.coreRunSet k l) s = .next t ∧
      t.rd Reg.pwrCoreRun (pcIx k l) = 1 ∧ t.pc (k * 256 + l) = (s.wr Reg.pwrCoreRun (pcIx k l) 1).bootPc k) ∧
    (s.rd Reg.chimPartState { sock := k, i := p } ≠ 3 → exec (.partitionStopped k p) s = .next s) ∧
    (s.rd Reg.chimPartState { sock := k, i := p } = 3 → s.partition k ≠ p →
      exec (.partitionStopped k p) s = .next (s.wr Reg.chimPartState { sock := k, i := p } 0)) ∧
    (s.rd Reg.chimPartState { sock := k, i := p } = 3 → s.partition k = p → s.rd Reg.pwrResetWarmpend a = 0 →
      ∃ t : State, exec (.partitionStopped k p) s = .next t ∧ ∀ i < 256, t.rd Reg.pwrCoreRun (pcIx k i) = 0))

/-- R441, R444, R445, R471, R472, R474-R476, Tables STOK-1 and STOK-9: a doorbell or a completion head beyond its ring puts the channel in
ERROR; rings are set while the channel is DISABLED or idle; CFG.EN enables or resets it; a reset requested drains it, the drain timer
stops what is unfinished, the reset ends with the rings empty once nothing is in flight, and a channel that does not get there is
quarantined until the whole cell is reset.

R467, R468, R473: a slice of the firebox goes to a channel with started work that the arbiter chooses and is counted; an idle cell's clock is gated;
a mailbox message sets the sender's TXBUSY and the receiver's RXPEND and advances both sequence numbers, and its acknowledgement clears
both bits.

Where the spec leaves the choice open it rests on the model's choices of log entries 13, 21 and 28. -/
def Obligations.stoker_channel_results : Prop :=
  (∀ (k cell c v n base : Nat) (cq tenant : Bool) (s : State),
    let a := chIx k cell c
    let st := s.chState k cell c
    let x := s.stk k cell c
    s.hasCh k cell c = true →
      (st = 1 →
        (v % 4096 < 2 ^ s.rd Reg.stkTpSqsize a → exec (.sqtailDoorbell k cell c v) s =
          .next ((s.wr Reg.stkTpSqtail a (v % 4096)).updCell k cell (fun x => { x with gated := false }))) ∧
        (2 ^ s.rd Reg.stkTpSqsize a ≤ v % 4096 → exec (.sqtailDoorbell k cell c v) s = .next (s.stkError k cell c 3)) ∧
        (v % 4096 < 2 ^ s.rd Reg.stkTpCqsize a → exec (.cqheadWrite k cell c v) s = .next (s.wr Reg.stkTpCqhead a (v % 4096))) ∧
        (2 ^ s.rd Reg.stkTpCqsize a ≤ v % 4096 → exec (.cqheadWrite k cell c v) s = .next (s.stkError k cell c 3)) ∧
        (s.chBusy k cell c = true → exec (.ringCfgWrite k cell c cq n base) s = .next (s.stkError k cell c 4))) ∧
      (st ≠ 1 → exec (.sqtailDoorbell k cell c v) s = .next s ∧ exec (.cqheadWrite k cell c v) s = .next s) ∧
      (st = 0 ∨ (st = 1 ∧ s.chBusy k cell c = false) →
        (4 ≤ n → n ≤ 12 → exec (.ringCfgWrite k cell c cq n base) s =
          .next ((s.wr (if cq then Reg.stkTpCqsize else Reg.stkTpSqsize) a n).wr (if cq then Reg.stkTpCqbase else Reg.stkTpSqbase) a base)) ∧
        (n < 4 → exec (.ringCfgWrite k cell c cq n base) s = .next (s.stkError k cell c 4))) ∧
      (s.rd Reg.stkChCfgVault a = 0 →
        (st = 0 → exec (.cfgEnWrite k cell c true) s = .next ((s.wr Reg.stkChCfgEn a 1).setChState k cell c 1)) ∧
        (s.rd Reg.stkChCfgEn a = 1 → exec (.cfgEnWrite k cell c false) s = .next ((s.wr Reg.stkChCfgEn a 0).stkReset k cell c false)) ∧
        exec (.channelResetRequest k cell c false) s = .next (s.stkReset k cell c false)) ∧
      (s.rd Reg.stkChCfgVault a = 1 → exec (.cfgEnWrite k cell c tenant) s = .next s ∧ exec (.channelResetRequest k cell c false) s = .next s) ∧
      (st ≠ 4 → st ≠ 5 → exec (.channelResetRequest k cell c true) s = .next (s.stkReset k cell c false)) ∧
      (st = 4 ∨ st = 5 → exec (.channelResetRequest k cell c true) s = .next s) ∧
      (st = 3 → x.rst = 1 → x.infl.any (fun d => d.fin.isNone) = true → exec (.drainTimerExpiry k cell c) s = .next (s.stkStop k cell c)) ∧
      (st = 3 → x.rst = 3 → exec (.channelQuarantine k cell c) s = .next ((s.setChState k cell c 5).ash k
        { cls := 3, src := 0x50, inst := cell, code := 0x05, part := s.partition k, d4 := c, d5 := 5 + s.rd Reg.stkChErrcause a * 2 ^ 8 })) ∧
      (x.rst ≠ 0 → x.infl = [] → x.drains = [] → ∃ t : State, exec (.channelResetDone k cell c) s = .next t ∧
        t.rd Reg.stkTpSqhead a = 0 ∧ t.rd Reg.stkTpSqtail a = 0 ∧ t.rd Reg.stkTpCqhead a = 0 ∧ t.rd Reg.stkTpCqtail a = 0 ∧
        t.rd Reg.stkTpCqphase a = 1 ∧ t.rd Reg.stkTpStatusResetdone a = 1) ∧
      (x.rst ≠ 0 → x.infl ≠ [] ∨ x.drains ≠ [] → exec (.channelResetDone k cell c) s = .next s) ∧
      exec (.stkCtlReset k cell) s = .next ((List.range 64).foldl (fun u i =>
        (if u.chState k cell i = 5 then u.setChState k cell i 0 else u).stkReset k cell i false) s) ∧
      exec (.cellFault k cell) s = .next ((List.range 64).foldl (fun u i =>
          if u.chState k cell i = 5 then u else (u.stkReset k cell i false).stkStop k cell i)
        ((s.bump Reg.stkStatCellfault { sock := k, inst := cell }).ash k
          { cls := 3, src := 0x50, inst := cell, code := 0x03, part := s.partition k }))) ∧
  (∀ (k cell c clk : Nat) (req : BitVec 64) (s : State),
    let a := chIx k cell c
    (s.stkOn k cell = true →
      ((∀ i < 64, (s.stk k cell i).infl.any (fun d => d.started && d.fin.isNone) = false) →
        exec (.cellClockGate k cell) s = .next (s.updCell k cell (fun x => { x with gated := true })) ∧
        exec (.fireboxSlice k cell req clk) s = .next s) ∧
      (c < 64 → (s.stk k cell c).infl.any (fun d => d.started && d.fin.isNone) = true →
        exec (.cellClockGate k cell) s = .next s ∧
        (s.rd Reg.stkSchedAres { sock := k, inst := cell } = 0 → (∀ i < 64, req.getLsbD i = decide (i = c)) →
          ∃ t : State, exec (.fireboxSlice k cell req clk) s = .next t ∧ (t.cell k cell).slice = (s.cell k cell).slice + 1))) ∧
    (s.hasCh k cell c = true →
      (s.rd Reg.stkTpMboxTxbusy a = 0 → exec (.mboxTx k cell c false) s = .next ((s.wrs a [(Reg.stkTpMboxTxbusy, 1), (Reg.stkChMboxRxpend, 1),
        (Reg.stkTpMboxTxseq, s.rd Reg.stkTpMboxTxseq a + 1), (Reg.stkChMboxRxseq, s.rd Reg.stkChMboxRxseq a + 1)]).stkPf k cell c Reg.stkMboxpend)) ∧
      (s.rd Reg.stkChMboxTxbusy a = 0 → exec (.mboxTx k cell c true) s = .next ((s.wrs a [(Reg.stkChMboxTxbusy, 1), (Reg.stkTpMboxRxpend, 1),
        (Reg.stkChMboxTxseq, s.rd Reg.stkChMboxTxseq a + 1), (Reg.stkTpMboxRxseq, s.rd Reg.stkTpMboxRxseq a + 1)]).stkTell k cell c
          Reg.stkTpStatusMbox)) ∧
      (s.rd Reg.stkTpMboxTxbusy a = 1 → exec (.mboxTx k cell c false) s = .next s) ∧
      (s.rd Reg.stkTpMboxRxpend a = 1 → exec (.mboxAck k cell c false) s =
        .next ((s.wrs a [(Reg.stkTpMboxRxpend, 0), (Reg.stkChMboxTxbusy, 0)]).stkPf k cell c Reg.stkMboxpend)) ∧
      (s.rd Reg.stkChMboxRxpend a = 1 → exec (.mboxAck k cell c true) s =
        .next ((s.wrs a [(Reg.stkChMboxRxpend, 0), (Reg.stkTpMboxTxbusy, 0)]).stkTell k cell c Reg.stkTpStatusMbox)) ∧
      (s.rd Reg.stkTpMboxRxpend a = 0 → exec (.mboxAck k cell c false) s = .next s)))

/-- R446-R449, R451, R452, R454, Tables STOK-2 and STOK-5: a descriptor is fetched from SQHEAD through the channel's own translation and
joins those in flight; it starts in order, one with FENCE after every earlier one has completed, and completes at once with BAD_DESC, BAD_PROGRAM or NO_KEY when its fields, its program or its
key are refused; its completion waits for the Riddles' writes for it; the entry, when it has been written, moves CQTAIL, turns the phase at the ring's end and counts it; a ring that cannot be
read or written puts the channel in ERROR.

Where the spec leaves the choice open it rests on the model's choices of log entry 21. -/
def Obligations.stoker_descriptor_results : Prop :=
  ∀ (k cell c idx : Nat) (s u : State) (b : List Byte) (e : Stop) (d : Desc) (f : Fin),
    let a := chIx k cell c
    let p := s.stkPort k cell c
    let x := s.stk k cell c
    let head := s.rd Reg.stkTpSqhead a
    let cqs := 2 ^ s.rd Reg.stkTpCqsize a
    (s.hasCh k cell c = true → s.chState k cell c = 1 → s.slotFree k cell c = true →
      (head = s.rd Reg.stkTpSqtail a → exec (.descFetch k cell c) s = .next s) ∧
      (head ≠ s.rd Reg.stkTpSqtail a → x.infl.length < s.rd Reg.stkChCfgMaxinfl a → x.infl.length < 64 →
        (s.rd Reg.stkTpCqtail a + cqs - s.rd Reg.stkTpCqhead a) % cqs + x.infl.length + 1 < cqs →
        (s.pRead p (s.rd Reg.stkTpSqbase a * 4096 + head * 64) 64 = (u, b, none) →
          ∃ t : State, exec (.descFetch k cell c) s = .next t ∧ t.mem = u.mem ∧
            (t.stk k cell c).infl = (u.stk k cell c).infl ++
              [{ idx := head, w := (List.range 8).map (fun i => leNat ((b.drop (8 * i)).take 8)), started := false, fin := none, split := none, memo := [], done := (0, 0) }]) ∧
        (s.pRead p (s.rd Reg.stkTpSqbase a * 4096 + head * 64) 64 = (u, b, some e) → e.status ≠ 256 →
          exec (.descFetch k cell c) s = .next (u.stkError k cell c 1)))) ∧
    (∀ e' t', s.chState k cell c = 1 → x.infl.find? (fun d => !d.started) = some d → dw d.w 0 8 8 = 1 → x.infl = e' :: t' → e'.idx ≠ d.idx →
      exec (.descStart k cell c) s = .next s) ∧
    (s.chState k cell c = 1 → x.infl.find? (fun d => !d.started) = some d → (dw d.w 0 8 8 = 1 → ∃ t, x.infl = d :: t) →
      let go (s : State) : State := s.updDesc k cell c d.idx (fun d => { d with started := true })
      let fail (st : Nat) : State := (go s).setFin k cell c d.idx (Fin.stopped st)
      (formOk d.w = false ∨ rangeOk d.w = false → exec (.descStart k cell c) s = .next (fail 0x10)) ∧
      (formOk d.w = true → rangeOk d.w = true →
        (dOp d.w ≠ 1 → dOp d.w ≠ 0x0B → exec (.descStart k cell c) s = .next (go s)) ∧
        (dOp d.w = 0x0B → cellGet none x.keys (dw d.w 0 20 17) = none → exec (.descStart k cell c) s = .next (fail 0x19)) ∧
        (dOp d.w = 1 → s.pRead p (dAux d.w) 256 = (u, b, none) →
          (progOk b (filterWidth d.w) = true → exec (.descStart k cell c) s = .next (go u)) ∧
          (progOk b (filterWidth d.w) = false →
            exec (.descStart k cell c) s = .next ((go u).setFin k cell c d.idx (Fin.stopped 0x11)))) ∧
        (dOp d.w = 1 → s.pRead p (dAux d.w) 256 = (u, b, some e) → e.status ≠ 256 → exec (.descStart k cell c) s =
          .next ((go u).setFin k cell c d.idx ⟨e.status, 0, 0, e.addr, e.kind, e.s2⟩)))) ∧
    (x.infl.find? (fun d => d.idx = idx) = some d → (s.cell k cell).segs.any (fun u => u.chan = c && u.idx = idx && !u.left.isEmpty) = true →
      exec (.descComplete k cell c idx) s = .next s) ∧
    (x.infl.find? (fun d => d.idx = idx) = some d → d.fin = some f →
      (s.cell k cell).segs.any (fun u => u.chan = c && u.idx = idx && !u.left.isEmpty) = false →
      let tail := s.rd Reg.stkTpCqtail a
      let w0 := dw d.w 0 63 32 + d.idx * 2 ^ 32 + f.status * 2 ^ 44 + dOp d.w * 2 ^ 52 + s.rd Reg.stkTpCqphase a * 2 ^ 63
      let w3 := f.addr % 2 ^ 57 + f.kind * 2 ^ 57 + (if f.s2 then 2 ^ 59 else 0)
      let q := s.pWrite p (s.rd Reg.stkTpCqbase a * 4096 + tail * 32) ([w0, f.r0, f.r1, w3].flatMap (leBytes 8))
      (q.2.2 = none → (tail + 1 < 2 ^ q.1.rd Reg.stkTpCqsize a) → 2 ^ q.1.rd Reg.stkTpCqsize a ≤ 4096 →
        ∃ t : State, exec (.descComplete k cell c idx) s = .next t ∧ t.rd Reg.stkTpCqtail a = tail + 1 ∧
          (t.stk k cell c).infl = (q.1.stk k cell c).infl.filter (fun d => d.idx ≠ idx)) ∧
      (∀ e, q.2.2 = some e → e.status ≠ 256 → q.1.chState k cell c = 1 → exec (.descComplete k cell c idx) s =
        .next ((q.1.updStk k cell c (fun x => { x with infl := x.infl.filter (fun d => d.idx ≠ idx) })).stkError k cell c 2))) ∧
    (x.infl.find? (fun d => d.idx = idx) = none → exec (.descComplete k cell c idx) s = .next s)

/-- R277, R451-R453, R457-R462, Table STOK-4: each operation of a started descriptor of the channel runs over the channel's own port
as far as `n` more of its source lines, and when it has run out ends the descriptor with the status and results the operation gives;
AESGCM uses the key of its slot; FILTER evaluates its program in the cell when none of its source is sent to the Riddles.

Where the spec leaves the choice open it rests on the model's choices of log entry 21. -/
def Obligations.stoker_operation_results : Prop :=
  ∀ (k cell c idx op n : Nat) (d : Desc) (i : Instr) (run : Port → DWords → State → State × Option Fin) (s u : State) (e : Fin),
    let at' (s : State) : Port := { s.stkPort k cell c with desc := some (chKey k cell c, idx), lim := d.memo.length + n }
    s.running' k cell c idx op = some d →
    ((op, i, run) ∈ ([(2, .project k cell c ⟨idx, n⟩, runProject), (3, .decomp k cell c ⟨idx, n⟩, runDecomp),
        (4, .hashbuild k cell c ⟨idx, n⟩, runBuild), (5, .hashprobe k cell c ⟨idx, n⟩, runProbe), (6, .agg k cell c ⟨idx, n⟩, runAgg),
        (7, .sortrun k cell c ⟨idx, n⟩, runSort), (8, .merge k cell c ⟨idx, n⟩, runMerge), (9, .crc32c k cell c ⟨idx, n⟩, runCrc),
        (10, .sha256 k cell c ⟨idx, n⟩, runSha)] : List (Nat × Instr × (Port → DWords → State → State × Option Fin))) →
      (run (at' s) d.w s = (u, some e) → exec i s = .next (u.setFin k cell c idx e)) ∧
      (run (at' s) d.w s = (u, none) → exec i s = .next u)) ∧
    (op = 0 → exec (.nop k cell c idx) s = .next (s.setFin k cell c idx ⟨0, 0, 0, 0, 0, false⟩)) ∧
    (∀ key, op = 11 → cellGet none (s.stk k cell c).keys (dw d.w 0 20 17) = some key →
      (runGcm (at' s) d.w (leBytes 32 key) s = (u, some e) → exec (.aesgcm k cell c ⟨idx, n⟩) s = .next (u.setFin k cell c idx e)) ∧
      (runGcm (at' s) d.w (leBytes 32 key) s = (u, none) → exec (.aesgcm k cell c ⟨idx, n⟩) s = .next u)) ∧
    (∀ u1 b, op = 1 → s.pRead (s.stkPort k cell c) (dAux d.w) 256 = (u1, b, none) → u1.splits k cell c d.w = false →
      u1.running' k cell c idx 1 = some d →
      (runFilter (at' u1) d.w b u1 = (u, some e) → exec (.filter k cell c ⟨idx, n⟩) s = .next (u.setFin k cell c idx e)) ∧
      (runFilter (at' u1) d.w b u1 = (u, none) → exec (.filter k cell c ⟨idx, n⟩) s = .next u)) ∧
    (∀ u1 b pe, op = 1 → s.pRead (s.stkPort k cell c) (dAux d.w) 256 = (u1, b, some pe) → pe.status ≠ 256 →
      exec (.filter k cell c ⟨idx, n⟩) s = .next (u1.setFin k cell c idx ⟨pe.status, 0, 0, pe.addr, pe.kind, pe.s2⟩))

/-- R430-R435, R464, R465: a Riddle takes the program and a work item of a split FILTER with the blocks of its own channel, evaluates the lines of its own channel's blocks in
place when their directory bits are NONE or SHARED, writes a segment when a block is read, gives up a channel's items when the cell
drains it, and the cell joins the segments in order.

Where the spec leaves the choice open it rests on the model's choices of log entries 13 and 26. -/
def Obligations.riddle_results : Prop :=
  ∀ (k n cell c idx : Nat) (it : RidItem) (q : List RidItem) (b : Nat) (bl : List Nat) (d : Desc) (sp : Split) (r : FRun) (s u : State),
    (s.nextItem k cell c n = none → exec (.riddleProgramLoad k n cell c) s = .next s ∧ exec (.riddleWorkItem k n cell c) s = .next s) ∧
    (s.nextItem k cell c n = some (d, sp, r) → n < 16 →
      exec (.riddleProgramLoad k n cell c) s = .next (s.updRid k n (fun r => { r with progs := cellSet [] r.progs cell sp.prog })) ∧
      (s.rd Reg.ridCtlEn { sock := k, inst := n } = 0 → exec (.riddleWorkItem k n cell c) s = .next s) ∧
      (16 ≤ (s.rid k n).queue.length → exec (.riddleWorkItem k n cell c) s = .next s) ∧
      (∀ tg, s.rd Reg.ridCtlEn { sock := k, inst := n } ≠ 0 → (s.rid k n).queue = [] → cellGet [] (s.rid k n).progs cell = sp.prog →
        r.tag = some tg → (∃ j < blocksOf r.pa r.lines, s.chanOf k ((r.pa / 4096 + j) * 4096 % 2 ^ 47) = n) →
        ∃ t : State, exec (.riddleWorkItem k n cell c) s = .next t ∧ (t.rid k n).queue =
          [{ cell := cell, chan := c, tag := tg, assured := s.rd Reg.stkChCfgAssured (chIx k cell c) = 1, fmt := dw d.w 0 16 16
             out := dw d.w 0 18 17, w := dw d.w 0 25 20, boff := r.boff, segsz := r.segsz, base := r.pa, lenl := r.lines, nval := r.cnt
             dst := s.rd Reg.stkSegBase { sock := k, inst := cell } * 4096 + r.at' * 64, prog := sp.prog
             blocks := (List.range (blocksOf r.pa r.lines)).filter (fun j => s.chanOf k ((r.pa / 4096 + j) * 4096 % 2 ^ 47) = n) }])) ∧
    ((s.rid k n).queue = it :: q → it.blocks = b :: bl →
      let pa := (it.block b).1 + (s.rid k n).lines.length
      let ln := lineOf pa
      (pa < (it.block b).2 → (∀ l, s.mcLine k pa = some (n, l) → s.mcHolds k n l = false) → s.agentWaits k ln = false →
        s.agentRead (freeAgent k) k ln = (u, none) →
        ∃ t : State, exec (.riddleLineEval k n) s = .next t ∧
          (s.bits ln = .none ∨ s.bits ln = .shared →
            t = ((s.touch k ln).bump Reg.ridStatLines { sock := k, inst := n }).updRid k n (fun r =>
              { r with lines := r.lines ++ memBytes (s.touch k ln).mem pa 64 })) ∧
          (s.bits ln ≠ .none → s.bits ln ≠ .shared →
            t = (u.bump Reg.ridStatRefer { sock := k, inst := n }).updRid k n (fun r => { r with lines := r.lines ++ memBytes u.mem pa 64 }))) ∧
      (∀ e, pa < (it.block b).2 → (∀ l, s.mcLine k pa = some (n, l) → s.mcHolds k n l = false) → s.agentWaits k ln = false →
        s.agentRead (freeAgent k) k ln = (u, some e) → e.status ≠ 256 →
        exec (.riddleLineEval k n) s = .next (u.segOut k n (if e.status = 0x14 then 2 else 1) pa)) ∧
      (pa < (it.block b).2 → exec (.riddleSegmentWrite k n) s = .next s) ∧
      ((it.block b).2 ≤ pa → exec (.riddleSegmentWrite k n) s = .next (s.segOut k n 0 0) ∧ exec (.riddleLineEval k n) s = .next s)) ∧
    ((s.rid k n).queue = [] → exec (.riddleLineEval k n) s = .next s ∧ exec (.riddleSegmentWrite k n) s = .next s) ∧
    ((s.stk k cell c).drains.contains n = true → (s.rid k n).drains.contains (cell, c) = false →
      ∃ t : State, exec (.riddleDrain k n cell c) s = .next t ∧ (cell, c) ∈ (t.rid k n).drains ∧
        ∀ i ∈ (t.rid k n).queue, ¬(i.cell = cell ∧ i.chan = c)) ∧
    ((s.stk k cell c).drains.contains n = false → exec (.riddleDrain k n cell c) s = .next s) ∧
    ((s.rid k n).drains.contains (cell, c) = true → ∃ t : State, exec (.drained k n cell c) s = .next t ∧ n ∉ (t.stk k cell c).drains) ∧
    ((s.rid k n).drains.contains (cell, c) = false → exec (.drained k n cell c) s = .next s) ∧
    (s.chState k cell c = 1 → (s.stk k cell c).infl.find? (fun d => d.idx = idx && d.fin.isNone) = some d → d.split = some sp →
      (∀ sq, sp.runs = [] → State.boxValues (s.stkPort k cell c) d.w (dP64 d.w - sp.pos) sp s = (u, sq, none) →
        exec (.segmentRead k cell c idx) s = .next (u.splitEnd k cell c idx d.w sq none)) ∧
      (∀ tg rt, sp.runs = r :: rt → r.rid = true → r.tag = some tg → (s.stk k cell c).segs.contains (tg, r.blk) = false →
        exec (.segmentRead k cell c idx) s = .next s)) ∧
    ((s.stk k cell c).infl.find? (fun d => d.idx = idx && d.fin.isNone) = none → exec (.segmentRead k cell c idx) s = .next s)

/-- R142-R144, Tables DOMN-3 and DOMN-4: a pending request is carried out on its block, its status is written last, it is counted as done or
failed and it is no longer pending; ATTEST answers in the normal world of a Sealed partition, VREPORT in the Vault world, each with the report at
its buffer; STKKEY keys a channel of its own world; an unlisted operation is BAD_OP, and an operation from the wrong world or on a part without the
unit says so.

R142, R145, R148, R159, Tables DOMN-3 and DOMN-6: VCREATE takes the lowest free instance, VADD gives it a page, VSEAL checks its
block, records the digest, makes it SEALED and assigns its first units, and VDESTROY evicts its seats, resets and returns its units and
pages and frees it; each is refused in the Vault world, and on an instance in another state.

Where the spec leaves the choice open it rests on the model's choices of log entry 19. -/
def Obligations.vault_request_results : Prop :=
  (∀ (c pa : Nat) (r : KeyReq) (s u v w x : State) (e : Option Stop),
    let k := coreSock c
    (s.core c).keyReq = some r → s.agentRead (freeAgent k) k (lineOf r.pa) = (u, none) →
    let ended (st : Nat) (x : State) : State :=
      (x.bump (if st = 1 then Reg.secReqdone else Reg.secReqfail) { sock := k }).updCore c (fun q => { q with keyReq := none })
    let ends (i : Instr) (st : Nat) (v : State) : Prop :=
      v.agentWrite (freeAgent k) k r.pa (leBytes 8 st) = (x, e) → (∀ y, e = some y → y.status ≠ 256) → exec i s = .next (ended st x)
    let reports (i : Instr) : Prop :=
      (u.opnd r 8 % 512 ≠ 0 → ends i 0x80000002 u) ∧
      (u.opnd r 8 % 512 = 0 → u.secWait c r Acc.store (u.opnd r 8) = false →
        (u.secVa c r Acc.store (u.opnd r 8) = none → ends i 0x80000002 u) ∧
        (u.secVa c r Acc.store (u.opnd r 8) = some (pa, v) →
          secWrite k (pieces pa 512) (v.report c r (memBytes u.mem (r.pa + 0x10) 32)) v.useFree = some w → ends i 1 w))
    (r.op ∉ ([0x01, 0x02, 0x03, 0x10, 0x11, 0x12, 0x13, 0x14, 0x15, 0x16, 0x17] : List Nat) → ends (.secRequestBadOp c) 0x80000001 u) ∧
    (r.op ∈ ([0x01, 0x02, 0x03, 0x10, 0x11, 0x12, 0x13, 0x14, 0x15, 0x16, 0x17] : List Nat) → exec (.secRequestBadOp c) s = .next s) ∧
    (r.op = 0x01 →
      (r.world.isSome = true → ends (.attest c) 0x80000004 u) ∧
      (r.world = none → u.isSealed k = false → ends (.attest c) 0x80000003 u) ∧
      (r.world = none → u.isSealed k = true → reports (.attest c))) ∧
    (r.op = 0x02 →
      ((u.part k).full = false → ends (.vreport c) 0x80000009 u) ∧
      ((u.part k).full = true → r.world = none → ends (.vreport c) 0x80000004 u) ∧
      ((u.part k).full = true → r.world.isSome = true → reports (.vreport c))) ∧
    (r.op = 0x03 →
      let o := u.opnd r 0x08
      let key := (stkKeyOf (u.secKey k (r.world.map (·.1))) r.domain (u.opnd r 0x10)).toNat
      ((u.part k).full = false → ends (.stkkey c) 0x80000009 u) ∧
      ((u.part k).full = true →
        (u.chNowhere k (natBits o 2 0) (natBits o 13 8) = true → ends (.stkkey c) 0x80000007 u) ∧
        (u.chWorld k (natBits o 2 0) (natBits o 13 8) ≠ r.world.map (·.1) → ends (.stkkey c) 0x80000007 u) ∧
        (u.chNowhere k (natBits o 2 0) (natBits o 13 8) = false →
          u.chWorld k (natBits o 2 0) (natBits o 13 8) = r.world.map (·.1) → ends (.stkkey c) 1
          (u.updStk k (natBits o 2 0) (natBits o 13 8) (fun x => { x with keys := cellSet none x.keys (natBits o 19 16) (some key) })))))) ∧
  (∀ (c g pa i : Nat) (r : KeyReq) (l : List Nat) (s u v x : State) (e : Option Stop),
    let k := coreSock c
    (s.core c).keyReq = some r → s.agentRead (freeAgent k) k (lineOf r.pa) = (u, none) → (∀ y, e = some y → y.status ≠ 256) →
    let ended (st : Nat) (x : State) : State :=
      (x.bump (if st = 1 then Reg.secReqdone else Reg.secReqfail) { sock := k }).updCore c (fun q => { q with keyReq := none })
    let ends (i : Instr) (st : Nat) (v : State) : Prop :=
      v.agentWrite (freeAgent k) k r.pa (leBytes 8 st) = (x, e) → exec i s = .next (ended st x)
    let newKeys (s : State) : State := (s.newKey (1024 + g)).newKey (2 ^ 17 + g)
    (∀ x ∈ ([(0x10, .vcreate c), (0x11, .vadd c), (0x12, .vseal c), (0x13, .vdestroy c)] : List (Nat × Instr)), r.op = x.1 →
      ((u.part k).full = false → ends x.2 0x80000009 u) ∧
      ((u.part k).full = true → r.world.isSome = true → ends x.2 0x80000004 u)) ∧
    ((u.part k).full = true → r.world = none →
      (r.op = 0x10 →
        ((∀ i < 64, u.rd Reg.secViStateState (viIx (u.instOf k i)) ≠ 0) → ends (.vcreate c) 0x80000005 u) ∧
        (i < 64 → u.rd Reg.secViStateState (viIx (u.instOf k i)) = 0 → (∀ j < i, u.rd Reg.secViStateState (viIx (u.instOf k j)) ≠ 0) →
          u.instOf k i = g → u.agentWrite (freeAgent k) k (r.pa + 8) (leBytes 8 i) = (v, none) → ends (.vcreate c) 1 (newKeys
            (((List.range 4).foldl (fun s j => s.wr Reg.secViDigest { viIx g with j := j } 0)
              (v.wrs (viIx g) [(Reg.secViStateState, 1), (Reg.secViStateSeats, 0), (Reg.secViStateBusy, 0), (Reg.secViWdog, 0),
                (Reg.secViRestarts, 0)])).setVinst g VInst.free)))) ∧
      (r.op = 0x11 → u.secInst c r (· = 1) = .error i → ends (.vadd c) i u) ∧
      (r.op = 0x11 → u.secInst c r (· = 1) = .ok g → u.opnd r 0x18 = pa →
        let kind := natBits (u.opnd r 0x20) 1 0
        let isMem (a : Nat) : Bool := match u.target k a with | .dram _ _ | .cxl _ _ => true | _ => false
        let own (s : State) : State :=
          { (s.setVinst g { s.vinst g with pages := (s.vinst g).pages ++ [(pa / 4096, kind + 1)] }) with
            owner := cellSet (0, 0) s.owner (pa / 4096) (kind + 1, g) }
        (pa % 4096 ≠ 0 ∨ isMem pa = false ∨ (u.pageOwner pa).1 ≠ 0 → ends (.vadd c) 0x80000002 u) ∧
        (pa % 4096 = 0 → isMem pa = true → (u.pageOwner pa).1 = 0 → u.pageBusy k (pa / 4096) = false → kind = 3 →
          ends (.vadd c) 1 (own (u.pageZero k (pa / 4096))))) ∧
      (r.op = 0x12 → u.secInst c r (· = 1) = .error i → ends (.vseal c) i u) ∧
      (r.op = 0x12 → u.secInst c r (· = 1) = .ok g →
        let x := { u.vinst g with vseal := memBytes u.mem r.pa 64 }
        let d := u.digestOf { x with allow := l }
        (u.vsealWaits c r g x = true → exec (.vseal c) s = .next s) ∧
        (u.vsealWaits c r g x = false → u.secAllow c r (x.sealed 0x38) = none → ends (.vseal c) 0x80000002 u) ∧
        (u.vsealWaits c r g x = false → u.secAllow c r (x.sealed 0x38) = some l →
          (u.sealBad k g x = true → ends (.vseal c) 0x80000002 u) ∧
          (u.sealBad k g x = false → l.any (fun a => a.testBit 63 && (u.unitOwner k a).isSome) = true → ends (.vseal c) 0x80000007 u) ∧
          (u.sealBad k g x = false → l.filter (·.testBit 63) = [] → ends (.vseal c) 1
            (((List.range 4).foldl (fun s j => s.wr Reg.secViDigest { viIx g with j := j } (leNat ((d.drop (8 * j)).take 8)))
              ((u.setVinst g { x with allow := l }).wrs (viIx g) [(Reg.secViStateState, 2),
                (Reg.secViStateSeats, natBits (x.sealed 0x28) 23 16), (Reg.secViStateBusy, 0),
                (Reg.secViWdog, natBits (x.sealed 0x28) 55 24), (Reg.secViRestarts, 0)])).sealSeats g { x with allow := l })))) ∧
      (r.op = 0x13 → u.secInst c r (· ≠ 0) = .error i → ends (.vdestroy c) i u) ∧
      (r.op = 0x13 → u.secInst c r (· ≠ 0) = .ok g →
        (u.rd Reg.secViStateState (viIx g) = 3 → exec (.vdestroy c) s = .next s) ∧
        (u.rd Reg.secViStateState (viIx g) ≠ 3 → u.handover.any (fun h => h.inst = g) = false →
          (u.vinst g).pages.any (fun e => u.pageBusy k e.1) = false → u.evictSeats g = some v →
          let stop (s : State) (h cell n : Nat) : State :=
            let y := s.stkReset h cell n false
            if (y.stk h cell n).infl.isEmpty then y else y.stkStop h cell n
          let back := (v.vinst g).units.foldl (fun (s : State) x =>
            let m := x % 2 ^ 32
            ((if natBits m 3 0 = 1 then stop s (x / 2 ^ 32) (unitCh m).1 (unitCh m).2 else s).unitFrom (x / 2 ^ 32) m g).unitFree (x / 2 ^ 32) m) v
          ends (.vdestroy c) 1 (newKeys
            (((((v.vinst g).pages.foldl (fun (s : State) (e : Nat × Nat) =>
                { s.pageZero k e.1 with owner := cellErase (s.pageZero k e.1).owner e.1 }) back).wrs (viIx g)
              [(Reg.secViStateState, 0), (Reg.secViStateSeats, 0), (Reg.secViStateBusy, 0), (Reg.secViWdog, 0)]).setVinst g VInst.free)))))))

/-- R155, R185, Table DOMN-9: VASSIGN, VRELEASE and VRECLAIM of a unit their instance may move begin its hand-over; the unit stops,
is reset, changes worlds and takes work again when its routes are rewritten; one whose reset does not end in time is quarantined and
the request fails.

R156-R160, Table DOMN-8: a restart is triggered by VRESTART from the Vault world, by the watchdog while a seat is occupied and by the
restart event, and cancels the assignments under way; each core then gives up its seat, the units are reset, the data pages cleared, and the instance's
digest decides whether it is SEALED again, its functions freed, or LOST; a hold-up save comes first; the instance's own code reloads the watchdog.

Where the spec leaves the choice open it rests on the model's choices of log entries 13, 15 and 19. -/
def Obligations.vault_unit_and_restart_results : Prop :=
  (∀ (c g x k0 unit : Nat) (r r' : KeyReq) (h : HandOver) (s u w w' : State) (e : Option Stop),
    let k := coreSock c
    let ask (op : Nat) : State :=
      { u with handover := u.handover ++ [{ sock := k, unit := x % 2 ^ 32, inst := g, op := op, step := 1, core := c, cancelled := false }] }
    let ended (c st : Nat) (w : State) : State :=
      (w.bump (if st = 1 then Reg.secReqdone else Reg.secReqfail) { sock := coreSock c }).updCore c (fun q => { q with keyReq := none })
    let finishes (i : Instr) (st : Nat) (v : State) : Prop :=
      ((v.core h.core).keyReq = none → exec i s = .next (v.moved h)) ∧
      ((v.core h.core).keyReq = some r' →
        (v.moved h).agentWrite (freeAgent (coreSock h.core)) (coreSock h.core) r'.pa (leBytes 8 st) = (w', e) →
        exec i s = .next (ended h.core st w'))
    (∀ y, e = some y → y.status ≠ 256) →
    ((s.core c).keyReq = some r → s.agentRead (freeAgent k) k (lineOf r.pa) = (u, none) → (u.part k).full = true →
      (∀ h ∈ u.handover, h.core ≠ c) → u.opnd r 0x10 = x → unitOk x = true → x < 2 ^ 63 →
      let ends (i : Instr) (st : Nat) : Prop :=
        u.agentWrite (freeAgent k) k r.pa (leBytes 8 st) = (w, e) → exec i s = .next (ended c st w)
      (r.op = 0x14 → r.world = none → u.secInst c r (· = 2) = .ok g →
        (u.unitMoving k x = true → ends (.vassign c false) 0x80000006) ∧
        (u.unitMoving k x = false →
          ((u.unitOwner k x).isSome = true ∨ u.unitQuar k x = true ∨ (∀ a ∈ (u.vinst g).allow, a % 2 ^ 63 ≠ x) →
            ends (.vassign c false) 0x80000007) ∧
          (natBits x 3 0 = 2 → ends (.vassign c true) 0x80000007) ∧
          (u.unitOwner k x = none → u.unitQuar k x = false → (∃ a ∈ (u.vinst g).allow, a % 2 ^ 63 = x) → (u.vinst g).units.length < 16 →
            (u.prc k (unitFn x).1).fns.length < 64 → exec (.vassign c false) s = .next (ask 0x14)))) ∧
      (r.op = 0x15 → r.world.map (·.1) = some g → u.unitMoving k x = false →
        (u.unitOwner k x = some g → exec (.vrelease c) s = .next (ask 0x15)) ∧
        (u.unitOwner k x ≠ some g → ends (.vrelease c) 0x80000007)) ∧
      (r.op = 0x16 → r.world = none → u.secInst c r (· = 2) = .ok g → u.unitMoving k x = false →
        (u.unitOwner k x = some g → exec (.vreclaim c) s = .next (ask 0x16)) ∧
        (u.unitOwner k x ≠ some g → ends (.vreclaim c) 0x80000007))) ∧
    (s.moving k0 unit 1 = some h → natBits unit 3 0 = 1 →
      exec (.unitWorkStopped k0 unit) s = .next ((s.moveTo h 2).stkReset k0 (unitCh unit).1 (unitCh unit).2 true)) ∧
    (s.moving k0 unit 1 = none → exec (.unitWorkStopped k0 unit) s = .next s) ∧
    (s.moving k0 unit 1 = some h → natBits unit 3 0 = 2 → exec (.unitWorkStopped k0 unit) s =
      .next ((s.moveTo h 2).updPrc k0 (unitFn unit).1 (fun x =>
        { x with stopped := (unitFn unit).2 :: x.stopped.filter (· ≠ (unitFn unit).2) }))) ∧
    (s.moving k0 unit 2 = some h → (natBits unit 3 0 = 1 → s.chState k0 (unitCh unit).1 (unitCh unit).2 = 4) →
      (natBits unit 3 0 = 2 → (s.devCtx k0 (unitFn unit).1 (unitFn unit).2).2 ≠ .error true) →
      (h.cancelled = false → exec (.unitResetComplete k0 unit) s =
        .next ((if h.op = 0x14 then s.unitTo k0 unit h.inst else s.unitFrom k0 unit h.inst).moveTo h 4)) ∧
      (h.cancelled = true → finishes (.unitResetComplete k0 unit) 0x80000006 (s.unitFree k0 unit))) ∧
    (s.moving k0 unit 2 = some h → natBits unit 3 0 = 1 → s.chState k0 (unitCh unit).1 (unitCh unit).2 ≠ 4 →
      exec (.unitResetComplete k0 unit) s = .next s) ∧
    (s.moving k0 unit 2 = some h → (natBits unit 3 0 = 1 → s.chState k0 (unitCh unit).1 (unitCh unit).2 ≠ 4) →
      finishes (.unitResetTimeout k0 unit) 0x80000008 (s.unitQuarantine k0 unit h.inst)) ∧
    (natBits unit 3 0 = 1 →
      (s.unitQuarantine k0 unit h.inst).rd Reg.stkChState (chIx k0 (unitCh unit).1 (unitCh unit).2) = 5) ∧
    (s.moving k0 unit 2 = none → s.resetFor k0 unit = some g → exec (.unitResetTimeout k0 unit) s = .next (s.unitQuarantine k0 unit g)) ∧
    (s.moving k0 unit 2 = some h → natBits unit 3 0 = 1 → s.chState k0 (unitCh unit).1 (unitCh unit).2 = 4 →
      exec (.unitResetTimeout k0 unit) s = .next s) ∧
    (s.moving k0 unit 4 = some h → h.op ≠ 0x16 → finishes (.unitRoutesRewritten k0 unit) 1 (s.unitFree k0 unit)) ∧
    (s.moving k0 unit 4 = some h → h.op = 0x16 → finishes (.unitRoutesRewritten k0 unit) 1
      ((s.unitFree k0 unit).setVinst h.inst { (s.unitFree k0 unit).vinst h.inst with revoked := true })) ∧
    (s.moving k0 unit 4 = none → exec (.unitRoutesRewritten k0 unit) s = .next s)) ∧
  (∀ (c k i g seat : Nat) (r : KeyReq) (s u t : State),
    let gi := s.instOf k (i % 64)
    let v := s.vinst gi
    let m := gi / 64
    let trig : State :=
      let s' := (s.wr Reg.secViStateState (viIx gi) 3).setVinst gi { v with step := 1 }
      { s' with handover := s'.handover.map (fun h =>
          if h.inst = gi && h.op = 0x14 && decide (h.step < 4) then { h with cancelled := true } else h) }
    ((s.core c).keyReq = some r → s.agentRead (freeAgent (coreSock c)) (coreSock c) (lineOf r.pa) = (u, none) → r.op = 0x17 → (u.part (coreSock c)).full = true →
      r.world = some (g, seat) → exec (.vrestart c) s = .next (u.vaultTrigger g)) ∧
    (s.vRunning gi = true → exec (.vaultRestart k i) s = .next trig ∧
      (s.rd Reg.secViStateBusy (viIx gi) ≠ 0 → v.kick + 1000 * s.rd Reg.secViWdog (viIx gi) ≤ s.now m →
        exec (.vaultWatchdogExpiry k i) s = .next trig)) ∧
    (s.vRunning gi = false → exec (.vaultRestart k i) s = .next s) ∧
    (s.rd Reg.secViStateBusy (viIx gi) = 0 ∨ s.now m < v.kick + 1000 * s.rd Reg.secViWdog (viIx gi) →
      exec (.vaultWatchdogExpiry k i) s = .next s) ∧
    ((s.core c).world.map (·.1) = some (s.instOf (coreSock c) (i % 64)) → exec (.viKick c i) s =
      .next (s.setVinst (s.instOf (coreSock c) (i % 64)) { s.vinst (s.instOf (coreSock c) (i % 64)) with
        kick := s.now (s.instOf (coreSock c) (i % 64) / 64) })) ∧
    ((s.core c).world.map (·.1) ≠ some (s.instOf (coreSock c) (i % 64)) → exec (.viKick c i) s = .next s) ∧
    ((s.core c).world = some (g, seat) →
      (s.rd Reg.secViStateState (viIx g) = 3 → s.abandonSeat c = some t → exec (.vaultSeatAbandon c) s = .next t) ∧
      (s.rd Reg.secViStateState (viIx g) = 3 → (s.core c).frozen = false → (s.core c).devWait = none → (s.core c).win = none → (s.core c).region = none →
        (s.core c).storeQ = [] → (s.sr c SR.FPSTAT).getLsbD 8 = false →
        ((s.core c).srOwn SR.XLATCTL).getLsbD 0 = false → ((s.core c).srOwn SR.XLATCTL).getLsbD 1 = false →
        ∃ t' : State, exec (.vaultSeatAbandon c) s = .next t' ∧ (t'.core c).world = none) ∧
      (s.rd Reg.secViStateState (viIx g) ≠ 3 → exec (.vaultSeatAbandon c) s = .next s)) ∧
    ((s.core c).world = none → exec (.vaultSeatAbandon c) s = .next s) ∧
    (v.step ≠ 1 → exec (.vaultUnitsReset k i) s = .next s) ∧
    (v.step = 1 → s.restartRuns m = true → s.cores.any (fun (e : Nat × Core) => e.2.world.map (·.1) = some gi) = false →
      ∃ t : State, exec (.vaultUnitsReset k i) s = .next t ∧ (t.vinst gi).step = 2 ∧ t.mem = s.mem) ∧
    (v.step ≠ 2 → exec (.vaultDataCleared k i) s = .next s) ∧
    (let draining (x : Nat) : Bool := natBits x 3 0 = 1 && s.chState (x / 2 ^ 32) (unitCh x).1 (unitCh x).2 = 3
     v.step = 2 → s.restartRuns m = true → v.pages.any (fun e => s.pageBusy k e.1) = false →
      (v.units.any draining = false → v.resets = [] → exec (.vaultDataCleared k i) s = .next (((v.pages.foldl (fun (s : State) (e : Nat × Nat) =>
        if e.2 = 4 then s.pageZero k e.1 else s.pageRecall k e.1) s).newKey (2 ^ 17 + gi)).setVinst gi { v with step := 3 })) ∧
      (v.units.any draining = true ∨ v.resets ≠ [] → exec (.vaultDataCleared k i) s = .next s)) ∧
    (v.step ≠ 3 → exec (.vaultDigestCheck k i) s = .next s) ∧
    (s.restartRuns m = false → exec (.vaultUnitsReset k i) s = .next s ∧ exec (.vaultDataCleared k i) s = .next s ∧
      exec (.vaultDigestCheck k i) s = .next s) ∧
    (v.step = 3 → s.restartRuns m = true →
      let d := s.digestOf v
      let same := !s.imageBad v &&
        (List.range 4).all (fun j => s.rd Reg.secViDigest { viIx gi with j := j } = leNat ((d.drop (8 * j)).take 8))
      let s' := s.setVinst gi { v with step := 0 }
      (same = true →
        let w := (v.units.filter (fun x => natBits x 3 0 = 2)).foldl (fun s x => s.unitFree (x / 2 ^ 32) (x % 2 ^ 32))
          (((s'.sealSeats gi v).wr Reg.secViStateState (viIx gi) 2).bump Reg.secViRestarts (viIx gi))
        exec (.vaultDigestCheck k i) s = .next (w.lossNotify m 256 (w.rd Reg.ihubSysvecVaultRestarted { sock := m }))) ∧
      (same = false →
        let w := (s'.wr Reg.secViStateState (viIx gi) 4).ash m
          { cls := 3, src := 0x70, code := 0x09, part := (s'.wr Reg.secViStateState (viIx gi) 4).partition m, d4 := gi % 64 }
        exec (.vaultDigestCheck k i) s = .next (w.lossNotify m 256 (w.rd Reg.ihubSysvecVaultLost { sock := m })))))

/-- R45-R52, R93, Tables ISA-3 to ISA-19: decoding the words of a command that is an instruction gives that command back, whatever the core and
at every value of every operand, its other fields being zero; each of these words is as long as its first parcel says; and a word that decodes
spells a command of the core that has words of its own. -/
def Obligations.decoding_inverts_encoding : Prop :=
  ∀ (c w : Nat) (i : Instr),
    (instrCore i = some c → encodeInstr i = some w → decodeInstr c w = some i ∧ w < 2 ^ (8 * parcelLen (w % 2 ^ 16))) ∧
    (decodeInstr c w = some i → instrCore i = some c ∧ ∃ w' : Nat, encodeInstr i = some w' ∧ decodeInstr c w' = some i)

/-- R45, R47, R49-R51: the words the spec spells out decode to their instructions; parcel 0x0000 and 48-bit OP 0x3F are no instruction; bits
[15:14] of the first parcel give the length.

R44, R45, R47, R51: what a core runs next is the command that the parcels at its pc decode to, as many as the first one says; where they
decode to none it is fetched and takes ILLEGAL_INSTRUCTION.

Where the spec leaves the choice open it rests on the model's choices of log entry 43. -/
def Obligations.spec_words_decode_and_run : Prop :=
  (∀ (c : Nat),
    decodeInstr c 0x17F0412F = some (.immOp c 1 5 2 0x3FF0) ∧ decodeInstr c 0x00004100 = some (.immOp c 1 0 0 0) ∧
    decodeInstr c 0x1800 = some (.cAddi c 0 0) ∧ decodeInstr c 0x00019D00 = some (.gentry c) ∧
    decodeInstr c 0x09941000CF20 = some (.vunpk c 4 1 6 10 0 1 0) ∧
    decodeInstr c 0x0000 = none ∧ (∀ x < 2 ^ 8, decodeInstr c (0xFF00 + x) = none) ∧
    parcelLen 0x1800 = 2 ∧ parcelLen 0x412F = 4 ∧ parcelLen 0x9D00 = 4 ∧ parcelLen 0xCF20 = 6) ∧
  (∀ (c w n : Nat) (i : Instr) (s : State),
    s.parcels c 2 = some w → s.parcels c (parcelLen w) = some n →
      (decodeInstr c n = some i → s.runFetched c = exec i s) ∧
      (decodeInstr c n = none → s.runFetched c = .next (s.instr c (parcelLen w) (fun s => illegal s c))))
end

