-- ==== Sys2Proof/Laws/Keeps.lean ====
section
/-!
SUPPORT. Laws/Keeps.lean: what no operation of the machine touches: the queue, the parts and the clock; and memory's canonical form,
which every operation keeps.
-/
set_option linter.all false
namespace Sys2Proof.Machine

/-- From `s` to `t` the queue, the parts and the clock are the same, and memory stays in its canonical form. -/
structure Keeps (s t : State) : Prop where
  pending : t.pending = s.pending
  parts : t.parts = s.parts
  time : t.time = s.time
  mem : s.mem.wf = true → t.mem.wf = true

theorem Keeps.refl (s : State) : Keeps s s := ⟨rfl, rfl, rfl, id⟩

theorem cellsWf_cons {α : Type} [DecidableEq α] {d : α} {k : Nat} {v : α} {t : Cells α} :
    cellsWf d ((k, v) :: t) = true ↔ v ≠ d ∧ (∀ e ∈ t.head?, k < e.1) ∧ cellsWf d t = true := by
  cases t with
  | nil => simp [cellsWf]
  | cons e t => simp [cellsWf, and_assoc]

theorem cellsWf_lt {α : Type} [DecidableEq α] {d : α} {k : Nat} {v : α} {t : Cells α}
    (h : cellsWf d ((k, v) :: t) = true) : ∀ e ∈ t, k < e.1 := by
  induction t generalizing k v with
  | nil => simp
  | cons e t ih =>
    obtain ⟨k', v'⟩ := e
    rw [cellsWf_cons] at h
    have hk : k < k' := h.2.1 (k', v') (by simp)
    intro e he
    rcases List.mem_cons.1 he with rfl | he
    · exact hk
    · exact Nat.lt_trans hk (ih h.2.2 e he)

theorem cellsWf_of {α : Type} [DecidableEq α] {d : α} {k : Nat} {v : α} {t : Cells α} (hv : v ≠ d)
    (hk : ∀ e ∈ t, k < e.1) (h : cellsWf d t = true) : cellsWf d ((k, v) :: t) = true := by
  rw [cellsWf_cons]
  refine ⟨hv, ?_, h⟩
  intro e he
  exact hk e (List.mem_of_mem_head? he)

theorem cellsWf_filter {α : Type} [DecidableEq α] {d : α} (p : Nat × α → Bool) {m : Cells α} (h : cellsWf d m = true) :
    cellsWf d (m.filter p) = true := by
  induction m with
  | nil => rfl
  | cons e t ih =>
    obtain ⟨k, v⟩ := e
    have ht := (cellsWf_cons.1 h)
    rw [List.filter_cons]
    split
    · refine cellsWf_of ht.1 ?_ (ih ht.2.2)
      intro e he
      exact cellsWf_lt h e (List.mem_filter.1 he).1
    · exact ih ht.2.2

/-- An entry removed keeps the canonical form. -/
theorem cellErase_wf {α : Type} [DecidableEq α] {d : α} {m : Cells α} (k : Nat) (h : cellsWf d m = true) :
    cellsWf d (cellErase m k) = true := cellsWf_filter _ h

theorem cellPut_mem {α : Type} {m : Cells α} {k : Nat} {v : α} {e : Nat × α} (he : e ∈ cellPut m k v) :
    e = (k, v) ∨ e ∈ m := by
  induction m with
  | nil => simpa [cellPut] using he
  | cons f t ih =>
    obtain ⟨k', v'⟩ := f
    rw [cellPut] at he
    split at he
    · rcases List.mem_cons.1 he with h | h
      · exact .inl h
      · exact .inr (List.mem_cons_of_mem _ h)
    · split at he
      · rcases List.mem_cons.1 he with h | h
        · exact .inl h
        · exact .inr h
      · rcases List.mem_cons.1 he with h | h
        · exact .inr (by rw [h]; exact List.mem_cons_self)
        · rcases ih h with h | h
          · exact .inl h
          · exact .inr (List.mem_cons_of_mem _ h)

/-- An entry listed at its place keeps the canonical form. -/
theorem cellPut_wf {α : Type} [DecidableEq α] {d : α} {m : Cells α} {k : Nat} {v : α} (hv : v ≠ d)
    (h : cellsWf d m = true) : cellsWf d (cellPut m k v) = true := by
  induction m with
  | nil => simpa [cellPut, cellsWf] using hv
  | cons f t ih =>
    obtain ⟨k', v'⟩ := f
    have hc := cellsWf_cons.1 h
    have hl := cellsWf_lt h
    rw [cellPut]
    split
    · next hk => subst hk; exact cellsWf_of hv hl hc.2.2
    · split
      · next hk =>
        refine cellsWf_of hv ?_ h
        intro e he
        rcases List.mem_cons.1 he with rfl | he
        · exact hk
        · exact Nat.lt_trans hk (hl e he)
      · next h1 h2 =>
        refine cellsWf_of hc.1 ?_ (ih hc.2.2)
        intro e he
        rcases cellPut_mem he with rfl | he
        · show k' < k; omega
        · exact hl e he

/-- A key set keeps the canonical form. -/
theorem cellSet_wf {α : Type} [DecidableEq α] {d : α} {m : Cells α} (k : Nat) (v : α) (h : cellsWf d m = true) :
    cellsWf d (cellSet d m k v) = true := by
  unfold cellSet
  split
  · exact cellErase_wf k h
  · next hv => exact cellPut_wf hv h

/-- A byte written keeps memory's canonical form. -/
theorem memSet_wf {m : Memory} (a : Nat) (b : Byte) (h : m.wf = true) : (memSet m a b).wf = true := cellSet_wf a b h

/-- Bytes written keep memory's canonical form. -/
theorem memWrite_wf {m : Memory} (a : Nat) (l : List Byte) (h : m.wf = true) : (memWrite m a l).wf = true := by
  induction l generalizing m a with
  | nil => exact h
  | cons b t ih => exact ih (a + 1) (memSet_wf a b h)

/-- Bytes dropped keep memory's canonical form. -/
theorem memFilter_wf {m : Memory} (p : Nat × Byte → Bool) (h : m.wf = true) : Memory.wf (m.filter p) = true := cellsWf_filter p h

/-! ### What an answer that carries a state keeps -/

/-- An optional state. -/
inductive KeepsO (s0 : State) : Option State → Prop
  | noneT : KeepsO s0 none
  | someI {t : State} (h : Keeps s0 t) : KeepsO s0 (some t)
/-- An optional pair with a state. -/
inductive KeepsO2 {α : Type} (s0 : State) : Option (α × State) → Prop
  | noneT : KeepsO2 s0 none
  | someI {p : α × State} (h : Keeps s0 p.2) : KeepsO2 s0 (some p)
/-- An optional pair that begins with a state. -/
inductive KeepsO1 {α : Type} (s0 : State) : Option (State × α) → Prop
  | noneT : KeepsO1 s0 none
  | someI {p : State × α} (h : Keeps s0 p.1) : KeepsO1 s0 (some p)
/-- The answer of a part of an instruction. -/
inductive KeepsR {α : Type} (s0 : State) : Res α → Prop
  | okI {a : α} {t : State} (h : Keeps s0 t) : KeepsR s0 (.ok a t)
  | evI {e : Ev} {t : State} (h : Keeps s0 t) : KeepsR s0 (.ev e t)
  | stallT : KeepsR s0 .stall
  | parkI {t : State} (h : Keeps s0 t) : KeepsR s0 (.park t)
/-- The answer of a part of an instruction that itself answers a state. -/
inductive KeepsRS (s0 : State) : Res State → Prop
  | okI {a t : State} (ha : Keeps s0 a) (h : Keeps s0 t) : KeepsRS s0 (.ok a t)
  | evI {e : Ev} {t : State} (h : Keeps s0 t) : KeepsRS s0 (.ev e t)
  | stallT : KeepsRS s0 .stall
  | parkI {t : State} (h : Keeps s0 t) : KeepsRS s0 (.park t)
/-- The answer of a part of a translation. -/
inductive KeepsX {α : Type} (s0 : State) : XR α → Prop
  | okI {a : α} {t : State} (h : Keeps s0 t) : KeepsX s0 (.ok a t)
  | badI {e : XErr} {t : State} (h : Keeps s0 t) : KeepsX s0 (.bad e t)
  | waitT : KeepsX s0 .wait
/-- The answer of a boundary. -/
inductive KeepsB (s0 : State) : Bnd → Prop
  | noneT : KeepsB s0 .none
  | tookI {t : State} (h : Keeps s0 t) : KeepsB s0 (.took t)
  | waitT : KeepsB s0 .wait
/-- The answer of an entry. -/
inductive KeepsE (s0 : State) : Ent → Prop
  | enteredI {t : State} (h : Keeps s0 t) : KeepsE s0 (.entered t)
  | arithI {t : State} (h : Keeps s0 t) : KeepsE s0 (.arith t)
  | noRoomI {a : Nat} {t : State} (h : Keeps s0 t) : KeepsE s0 (.noRoom a t)
  | waitT : KeepsE s0 .wait
/-- The answer of a DMA request's checks. -/
inductive KeepsDMA (s0 : State) : DmaR → Prop
  | okI {a : List (Nat × Nat)} {t : State} (h : Keeps s0 t) : KeepsDMA s0 (.ok a t)
  | refuseI {a : Nat} {t : State} (h : Keeps s0 t) : KeepsDMA s0 (.refuse a t)
  | waitT : KeepsDMA s0 .wait
/-- The answer of a security request. -/
inductive KeepsSEC (s0 : State) : SecR → Prop
  | finI {a : Nat} {t : State} (h : Keeps s0 t) : KeepsSEC s0 (.fin a t)
  | laterI {t : State} (h : Keeps s0 t) : KeepsSEC s0 (.later t)
  | waitT : KeepsSEC s0 .wait
/-- The outcome of a command. -/
inductive KeepsH (s0 : State) : Host.Outcome State Fault Refusal → Prop
  | nextI {t : State} (h : Keeps s0 t) : KeepsH s0 (.next t)
  | faultT {f : Fault} : KeepsH s0 (.fault f)
  | refusedT {r : Refusal} : KeepsH s0 (.refused r)

variable {s0 s : State}

/-- An update of any field but those four. -/
theorem Keeps.mkU (h : Keeps s0 s) {x_free} {x_tb} {x_straps} {x_poison} {x_macBad} {x_enc} {x_owner} {x_seatSr} {x_regs} {x_shadow} {x_locked} {x_repoch} {x_cores} {x_dirBits} {x_homeOld} {x_sf} {x_rsc} {x_rscG} {x_sfUse} {x_rscUse} {x_sdata} {x_held} {x_abuf} {x_ceCount} {x_ceSupp} {x_ashTotal} {x_ibi} {x_vault} {x_handover} {x_tlbis} {x_tlbiNext} {x_pafs} {x_ipis} {x_txns} {x_net} {x_hq} {x_retried} {x_unreach} {x_acts} {x_iotlb} {x_retire} {x_down} {x_meshIn} {x_meshReplay} {x_meshDue} {x_meshNak} {x_mlinks} {x_arbs} {x_commitLeft} {x_bucketDebt} {x_gateQ} {x_flues} {x_xout} {x_xin} {x_reroutes} {x_rerouteNext} {x_flueDown} {x_combine} {x_txNext} {x_txExp} {x_txHeld} {x_pstep} {x_goShadow} {x_chans} {x_mcOut} {x_stkChs} {x_stkCells} {x_rids} {x_prcs} {x_keyGen} {x_handoffs} {x_lockrecs} {x_pwrs} {x_jtags} {x_mgcs} {x_snapBase} {x_uwraps} {x_ubw} {x_bwPend} {x_bwClr} :
    Keeps s0 { s with free := x_free, tb := x_tb, straps := x_straps, poison := x_poison, macBad := x_macBad, enc := x_enc, owner := x_owner, seatSr := x_seatSr, regs := x_regs, shadow := x_shadow, locked := x_locked, repoch := x_repoch, cores := x_cores, dirBits := x_dirBits, homeOld := x_homeOld, sf := x_sf, rsc := x_rsc, rscG := x_rscG, sfUse := x_sfUse, rscUse := x_rscUse, sdata := x_sdata, held := x_held, abuf := x_abuf, ceCount := x_ceCount, ceSupp := x_ceSupp, ashTotal := x_ashTotal, ibi := x_ibi, vault := x_vault, handover := x_handover, tlbis := x_tlbis, tlbiNext := x_tlbiNext, pafs := x_pafs, ipis := x_ipis, txns := x_txns, net := x_net, hq := x_hq, retried := x_retried, unreach := x_unreach, acts := x_acts, iotlb := x_iotlb, retire := x_retire, down := x_down, meshIn := x_meshIn, meshReplay := x_meshReplay, meshDue := x_meshDue, meshNak := x_meshNak, mlinks := x_mlinks, arbs := x_arbs, commitLeft := x_commitLeft, bucketDebt := x_bucketDebt, gateQ := x_gateQ, flues := x_flues, xout := x_xout, xin := x_xin, reroutes := x_reroutes, rerouteNext := x_rerouteNext, flueDown := x_flueDown, combine := x_combine, txNext := x_txNext, txExp := x_txExp, txHeld := x_txHeld, pstep := x_pstep, goShadow := x_goShadow, chans := x_chans, mcOut := x_mcOut, stkChs := x_stkChs, stkCells := x_stkCells, rids := x_rids, prcs := x_prcs, keyGen := x_keyGen, handoffs := x_handoffs, lockrecs := x_lockrecs, pwrs := x_pwrs, jtags := x_jtags, mgcs := x_mgcs, snapBase := x_snapBase, uwraps := x_uwraps, ubw := x_ubw, bwPend := x_bwPend, bwClr := x_bwClr } :=
  ⟨h.pending, h.parts, h.time, h.mem⟩

/-- The same with bytes written to memory. -/
theorem Keeps.mkW {s1 : State} (h : Keeps s0 s) (h1 : Keeps s0 s1) {a l} {x_free} {x_tb} {x_straps} {x_poison} {x_macBad} {x_enc} {x_owner} {x_seatSr} {x_regs} {x_shadow} {x_locked} {x_repoch} {x_cores} {x_dirBits} {x_homeOld} {x_sf} {x_rsc} {x_rscG} {x_sfUse} {x_rscUse} {x_sdata} {x_held} {x_abuf} {x_ceCount} {x_ceSupp} {x_ashTotal} {x_ibi} {x_vault} {x_handover} {x_tlbis} {x_tlbiNext} {x_pafs} {x_ipis} {x_txns} {x_net} {x_hq} {x_retried} {x_unreach} {x_acts} {x_iotlb} {x_retire} {x_down} {x_meshIn} {x_meshReplay} {x_meshDue} {x_meshNak} {x_mlinks} {x_arbs} {x_commitLeft} {x_bucketDebt} {x_gateQ} {x_flues} {x_xout} {x_xin} {x_reroutes} {x_rerouteNext} {x_flueDown} {x_combine} {x_txNext} {x_txExp} {x_txHeld} {x_pstep} {x_goShadow} {x_chans} {x_mcOut} {x_stkChs} {x_stkCells} {x_rids} {x_prcs} {x_keyGen} {x_handoffs} {x_lockrecs} {x_pwrs} {x_jtags} {x_mgcs} {x_snapBase} {x_uwraps} {x_ubw} {x_bwPend} {x_bwClr} :
    Keeps s0 { s with mem := memWrite s1.mem a l, free := x_free, tb := x_tb, straps := x_straps, poison := x_poison, macBad := x_macBad, enc := x_enc, owner := x_owner, seatSr := x_seatSr, regs := x_regs, shadow := x_shadow, locked := x_locked, repoch := x_repoch, cores := x_cores, dirBits := x_dirBits, homeOld := x_homeOld, sf := x_sf, rsc := x_rsc, rscG := x_rscG, sfUse := x_sfUse, rscUse := x_rscUse, sdata := x_sdata, held := x_held, abuf := x_abuf, ceCount := x_ceCount, ceSupp := x_ceSupp, ashTotal := x_ashTotal, ibi := x_ibi, vault := x_vault, handover := x_handover, tlbis := x_tlbis, tlbiNext := x_tlbiNext, pafs := x_pafs, ipis := x_ipis, txns := x_txns, net := x_net, hq := x_hq, retried := x_retried, unreach := x_unreach, acts := x_acts, iotlb := x_iotlb, retire := x_retire, down := x_down, meshIn := x_meshIn, meshReplay := x_meshReplay, meshDue := x_meshDue, meshNak := x_meshNak, mlinks := x_mlinks, arbs := x_arbs, commitLeft := x_commitLeft, bucketDebt := x_bucketDebt, gateQ := x_gateQ, flues := x_flues, xout := x_xout, xin := x_xin, reroutes := x_reroutes, rerouteNext := x_rerouteNext, flueDown := x_flueDown, combine := x_combine, txNext := x_txNext, txExp := x_txExp, txHeld := x_txHeld, pstep := x_pstep, goShadow := x_goShadow, chans := x_chans, mcOut := x_mcOut, stkChs := x_stkChs, stkCells := x_stkCells, rids := x_rids, prcs := x_prcs, keyGen := x_keyGen, handoffs := x_handoffs, lockrecs := x_lockrecs, pwrs := x_pwrs, jtags := x_jtags, mgcs := x_mgcs, snapBase := x_snapBase, uwraps := x_uwraps, ubw := x_ubw, bwPend := x_bwPend, bwClr := x_bwClr } :=
  ⟨h.pending, h.parts, h.time, fun w => memWrite_wf a l (h1.mem w)⟩

/-- The same with one byte written to memory. -/
theorem Keeps.mkS {s1 : State} (h : Keeps s0 s) (h1 : Keeps s0 s1) {a b} {x_free} {x_tb} {x_straps} {x_poison} {x_macBad} {x_enc} {x_owner} {x_seatSr} {x_regs} {x_shadow} {x_locked} {x_repoch} {x_cores} {x_dirBits} {x_homeOld} {x_sf} {x_rsc} {x_rscG} {x_sfUse} {x_rscUse} {x_sdata} {x_held} {x_abuf} {x_ceCount} {x_ceSupp} {x_ashTotal} {x_ibi} {x_vault} {x_handover} {x_tlbis} {x_tlbiNext} {x_pafs} {x_ipis} {x_txns} {x_net} {x_hq} {x_retried} {x_unreach} {x_acts} {x_iotlb} {x_retire} {x_down} {x_meshIn} {x_meshReplay} {x_meshDue} {x_meshNak} {x_mlinks} {x_arbs} {x_commitLeft} {x_bucketDebt} {x_gateQ} {x_flues} {x_xout} {x_xin} {x_reroutes} {x_rerouteNext} {x_flueDown} {x_combine} {x_txNext} {x_txExp} {x_txHeld} {x_pstep} {x_goShadow} {x_chans} {x_mcOut} {x_stkChs} {x_stkCells} {x_rids} {x_prcs} {x_keyGen} {x_handoffs} {x_lockrecs} {x_pwrs} {x_jtags} {x_mgcs} {x_snapBase} {x_uwraps} {x_ubw} {x_bwPend} {x_bwClr} :
    Keeps s0 { s with mem := memSet s1.mem a b, free := x_free, tb := x_tb, straps := x_straps, poison := x_poison, macBad := x_macBad, enc := x_enc, owner := x_owner, seatSr := x_seatSr, regs := x_regs, shadow := x_shadow, locked := x_locked, repoch := x_repoch, cores := x_cores, dirBits := x_dirBits, homeOld := x_homeOld, sf := x_sf, rsc := x_rsc, rscG := x_rscG, sfUse := x_sfUse, rscUse := x_rscUse, sdata := x_sdata, held := x_held, abuf := x_abuf, ceCount := x_ceCount, ceSupp := x_ceSupp, ashTotal := x_ashTotal, ibi := x_ibi, vault := x_vault, handover := x_handover, tlbis := x_tlbis, tlbiNext := x_tlbiNext, pafs := x_pafs, ipis := x_ipis, txns := x_txns, net := x_net, hq := x_hq, retried := x_retried, unreach := x_unreach, acts := x_acts, iotlb := x_iotlb, retire := x_retire, down := x_down, meshIn := x_meshIn, meshReplay := x_meshReplay, meshDue := x_meshDue, meshNak := x_meshNak, mlinks := x_mlinks, arbs := x_arbs, commitLeft := x_commitLeft, bucketDebt := x_bucketDebt, gateQ := x_gateQ, flues := x_flues, xout := x_xout, xin := x_xin, reroutes := x_reroutes, rerouteNext := x_rerouteNext, flueDown := x_flueDown, combine := x_combine, txNext := x_txNext, txExp := x_txExp, txHeld := x_txHeld, pstep := x_pstep, goShadow := x_goShadow, chans := x_chans, mcOut := x_mcOut, stkChs := x_stkChs, stkCells := x_stkCells, rids := x_rids, prcs := x_prcs, keyGen := x_keyGen, handoffs := x_handoffs, lockrecs := x_lockrecs, pwrs := x_pwrs, jtags := x_jtags, mgcs := x_mgcs, snapBase := x_snapBase, uwraps := x_uwraps, ubw := x_ubw, bwPend := x_bwPend, bwClr := x_bwClr } :=
  ⟨h.pending, h.parts, h.time, fun w => memSet_wf a b (h1.mem w)⟩

/-- The same with bytes dropped from memory. -/
theorem Keeps.mkF {s1 : State} (h : Keeps s0 s) (h1 : Keeps s0 s1) {p : Nat × Byte → Bool} {x_free} {x_tb} {x_straps} {x_poison} {x_macBad} {x_enc} {x_owner} {x_seatSr} {x_regs} {x_shadow} {x_locked} {x_repoch} {x_cores} {x_dirBits} {x_homeOld} {x_sf} {x_rsc} {x_rscG} {x_sfUse} {x_rscUse} {x_sdata} {x_held} {x_abuf} {x_ceCount} {x_ceSupp} {x_ashTotal} {x_ibi} {x_vault} {x_handover} {x_tlbis} {x_tlbiNext} {x_pafs} {x_ipis} {x_txns} {x_net} {x_hq} {x_retried} {x_unreach} {x_acts} {x_iotlb} {x_retire} {x_down} {x_meshIn} {x_meshReplay} {x_meshDue} {x_meshNak} {x_mlinks} {x_arbs} {x_commitLeft} {x_bucketDebt} {x_gateQ} {x_flues} {x_xout} {x_xin} {x_reroutes} {x_rerouteNext} {x_flueDown} {x_combine} {x_txNext} {x_txExp} {x_txHeld} {x_pstep} {x_goShadow} {x_chans} {x_mcOut} {x_stkChs} {x_stkCells} {x_rids} {x_prcs} {x_keyGen} {x_handoffs} {x_lockrecs} {x_pwrs} {x_jtags} {x_mgcs} {x_snapBase} {x_uwraps} {x_ubw} {x_bwPend} {x_bwClr} :
    Keeps s0 { s with mem := s1.mem.filter p, free := x_free, tb := x_tb, straps := x_straps, poison := x_poison, macBad := x_macBad, enc := x_enc, owner := x_owner, seatSr := x_seatSr, regs := x_regs, shadow := x_shadow, locked := x_locked, repoch := x_repoch, cores := x_cores, dirBits := x_dirBits, homeOld := x_homeOld, sf := x_sf, rsc := x_rsc, rscG := x_rscG, sfUse := x_sfUse, rscUse := x_rscUse, sdata := x_sdata, held := x_held, abuf := x_abuf, ceCount := x_ceCount, ceSupp := x_ceSupp, ashTotal := x_ashTotal, ibi := x_ibi, vault := x_vault, handover := x_handover, tlbis := x_tlbis, tlbiNext := x_tlbiNext, pafs := x_pafs, ipis := x_ipis, txns := x_txns, net := x_net, hq := x_hq, retried := x_retried, unreach := x_unreach, acts := x_acts, iotlb := x_iotlb, retire := x_retire, down := x_down, meshIn := x_meshIn, meshReplay := x_meshReplay, meshDue := x_meshDue, meshNak := x_meshNak, mlinks := x_mlinks, arbs := x_arbs, commitLeft := x_commitLeft, bucketDebt := x_bucketDebt, gateQ := x_gateQ, flues := x_flues, xout := x_xout, xin := x_xin, reroutes := x_reroutes, rerouteNext := x_rerouteNext, flueDown := x_flueDown, combine := x_combine, txNext := x_txNext, txExp := x_txExp, txHeld := x_txHeld, pstep := x_pstep, goShadow := x_goShadow, chans := x_chans, mcOut := x_mcOut, stkChs := x_stkChs, stkCells := x_stkCells, rids := x_rids, prcs := x_prcs, keyGen := x_keyGen, handoffs := x_handoffs, lockrecs := x_lockrecs, pwrs := x_pwrs, jtags := x_jtags, mgcs := x_mgcs, snapBase := x_snapBase, uwraps := x_uwraps, ubw := x_ubw, bwPend := x_bwPend, bwClr := x_bwClr } :=
  ⟨h.pending, h.parts, h.time, fun w => memFilter_wf p (h1.mem w)⟩

/-- The same with bytes dropped and others written. -/
theorem Keeps.mkWF {s1 : State} (h : Keeps s0 s) (h1 : Keeps s0 s1) {p : Nat × Byte → Bool} {a l} {x_free} {x_tb} {x_straps} {x_poison} {x_macBad} {x_enc} {x_owner} {x_seatSr} {x_regs} {x_shadow} {x_locked} {x_repoch} {x_cores} {x_dirBits} {x_homeOld} {x_sf} {x_rsc} {x_rscG} {x_sfUse} {x_rscUse} {x_sdata} {x_held} {x_abuf} {x_ceCount} {x_ceSupp} {x_ashTotal} {x_ibi} {x_vault} {x_handover} {x_tlbis} {x_tlbiNext} {x_pafs} {x_ipis} {x_txns} {x_net} {x_hq} {x_retried} {x_unreach} {x_acts} {x_iotlb} {x_retire} {x_down} {x_meshIn} {x_meshReplay} {x_meshDue} {x_meshNak} {x_mlinks} {x_arbs} {x_commitLeft} {x_bucketDebt} {x_gateQ} {x_flues} {x_xout} {x_xin} {x_reroutes} {x_rerouteNext} {x_flueDown} {x_combine} {x_txNext} {x_txExp} {x_txHeld} {x_pstep} {x_goShadow} {x_chans} {x_mcOut} {x_stkChs} {x_stkCells} {x_rids} {x_prcs} {x_keyGen} {x_handoffs} {x_lockrecs} {x_pwrs} {x_jtags} {x_mgcs} {x_snapBase} {x_uwraps} {x_ubw} {x_bwPend} {x_bwClr} :
    Keeps s0 { s with mem := memWrite (s1.mem.filter p) a l, free := x_free, tb := x_tb, straps := x_straps, poison := x_poison, macBad := x_macBad, enc := x_enc, owner := x_owner, seatSr := x_seatSr, regs := x_regs, shadow := x_shadow, locked := x_locked, repoch := x_repoch, cores := x_cores, dirBits := x_dirBits, homeOld := x_homeOld, sf := x_sf, rsc := x_rsc, rscG := x_rscG, sfUse := x_sfUse, rscUse := x_rscUse, sdata := x_sdata, held := x_held, abuf := x_abuf, ceCount := x_ceCount, ceSupp := x_ceSupp, ashTotal := x_ashTotal, ibi := x_ibi, vault := x_vault, handover := x_handover, tlbis := x_tlbis, tlbiNext := x_tlbiNext, pafs := x_pafs, ipis := x_ipis, txns := x_txns, net := x_net, hq := x_hq, retried := x_retried, unreach := x_unreach, acts := x_acts, iotlb := x_iotlb, retire := x_retire, down := x_down, meshIn := x_meshIn, meshReplay := x_meshReplay, meshDue := x_meshDue, meshNak := x_meshNak, mlinks := x_mlinks, arbs := x_arbs, commitLeft := x_commitLeft, bucketDebt := x_bucketDebt, gateQ := x_gateQ, flues := x_flues, xout := x_xout, xin := x_xin, reroutes := x_reroutes, rerouteNext := x_rerouteNext, flueDown := x_flueDown, combine := x_combine, txNext := x_txNext, txExp := x_txExp, txHeld := x_txHeld, pstep := x_pstep, goShadow := x_goShadow, chans := x_chans, mcOut := x_mcOut, stkChs := x_stkChs, stkCells := x_stkCells, rids := x_rids, prcs := x_prcs, keyGen := x_keyGen, handoffs := x_handoffs, lockrecs := x_lockrecs, pwrs := x_pwrs, jtags := x_jtags, mgcs := x_mgcs, snapBase := x_snapBase, uwraps := x_uwraps, ubw := x_ubw, bwPend := x_bwPend, bwClr := x_bwClr } :=
  ⟨h.pending, h.parts, h.time, fun w => memWrite_wf a l (memFilter_wf p (h1.mem w))⟩

/-- Bytes written one by one keep memory's canonical form. -/
theorem memFold_wf {β : Type} {g : β → Nat} {b : β → Byte} {l : List β} {m : Memory} (h : m.wf = true) :
    Memory.wf (l.foldl (fun m e => memSet m (g e) (b e)) m) = true := by
  induction l generalizing m with
  | nil => exact h
  | cons e t ih => exact ih (memSet_wf _ _ h)

/-- The same update with bytes written one by one to memory. -/
theorem Keeps.mkL {s1 : State} {β : Type} {g : β → Nat} {b : β → Byte} {l : List β} (h : Keeps s0 s) (h1 : Keeps s0 s1) {x_free} {x_tb} {x_straps} {x_poison} {x_macBad} {x_enc} {x_owner} {x_seatSr} {x_regs} {x_shadow} {x_locked} {x_repoch} {x_cores} {x_dirBits} {x_homeOld} {x_sf} {x_rsc} {x_rscG} {x_sfUse} {x_rscUse} {x_sdata} {x_held} {x_abuf} {x_ceCount} {x_ceSupp} {x_ashTotal} {x_ibi} {x_vault} {x_handover} {x_tlbis} {x_tlbiNext} {x_pafs} {x_ipis} {x_txns} {x_net} {x_hq} {x_retried} {x_unreach} {x_acts} {x_iotlb} {x_retire} {x_down} {x_meshIn} {x_meshReplay} {x_meshDue} {x_meshNak} {x_mlinks} {x_arbs} {x_commitLeft} {x_bucketDebt} {x_gateQ} {x_flues} {x_xout} {x_xin} {x_reroutes} {x_rerouteNext} {x_flueDown} {x_combine} {x_txNext} {x_txExp} {x_txHeld} {x_pstep} {x_goShadow} {x_chans} {x_mcOut} {x_stkChs} {x_stkCells} {x_rids} {x_prcs} {x_keyGen} {x_handoffs} {x_lockrecs} {x_pwrs} {x_jtags} {x_mgcs} {x_snapBase} {x_uwraps} {x_ubw} {x_bwPend} {x_bwClr} :
    Keeps s0 { s with mem := l.foldl (fun m e => memSet m (g e) (b e)) s1.mem, free := x_free, tb := x_tb, straps := x_straps, poison := x_poison, macBad := x_macBad, enc := x_enc, owner := x_owner, seatSr := x_seatSr, regs := x_regs, shadow := x_shadow, locked := x_locked, repoch := x_repoch, cores := x_cores, dirBits := x_dirBits, homeOld := x_homeOld, sf := x_sf, rsc := x_rsc, rscG := x_rscG, sfUse := x_sfUse, rscUse := x_rscUse, sdata := x_sdata, held := x_held, abuf := x_abuf, ceCount := x_ceCount, ceSupp := x_ceSupp, ashTotal := x_ashTotal, ibi := x_ibi, vault := x_vault, handover := x_handover, tlbis := x_tlbis, tlbiNext := x_tlbiNext, pafs := x_pafs, ipis := x_ipis, txns := x_txns, net := x_net, hq := x_hq, retried := x_retried, unreach := x_unreach, acts := x_acts, iotlb := x_iotlb, retire := x_retire, down := x_down, meshIn := x_meshIn, meshReplay := x_meshReplay, meshDue := x_meshDue, meshNak := x_meshNak, mlinks := x_mlinks, arbs := x_arbs, commitLeft := x_commitLeft, bucketDebt := x_bucketDebt, gateQ := x_gateQ, flues := x_flues, xout := x_xout, xin := x_xin, reroutes := x_reroutes, rerouteNext := x_rerouteNext, flueDown := x_flueDown, combine := x_combine, txNext := x_txNext, txExp := x_txExp, txHeld := x_txHeld, pstep := x_pstep, goShadow := x_goShadow, chans := x_chans, mcOut := x_mcOut, stkChs := x_stkChs, stkCells := x_stkCells, rids := x_rids, prcs := x_prcs, keyGen := x_keyGen, handoffs := x_handoffs, lockrecs := x_lockrecs, pwrs := x_pwrs, jtags := x_jtags, mgcs := x_mgcs, snapBase := x_snapBase, uwraps := x_uwraps, ubw := x_ubw, bwPend := x_bwPend, bwClr := x_bwClr } :=
  ⟨h.pending, h.parts, h.time, fun w => memFold_wf (h1.mem w)⟩

theorem KeepsRS.bindR {α : Type} {r : Res State} {f : State → State → Res α} (h : KeepsRS s0 r)
    (hf : ∀ a t, Keeps s0 a → Keeps s0 t → KeepsR s0 (f a t)) : KeepsR s0 (r.bind f) := by
  cases h with
  | okI ha h => exact hf _ _ ha h
  | evI h => exact .evI h
  | stallT => exact .stallT
  | parkI h => exact .parkI h
theorem Keeps.foldR {α β : Type} {l : List α} {f : Run × β → α → Run × β} {p : Run × β} (h : Keeps s0 p.1.s)
    (hf : ∀ q x, Keeps s0 q.1.s → Keeps s0 (f q x).1.s) : Keeps s0 (l.foldl f p).1.s := by
  induction l generalizing p with
  | nil => exact h
  | cons x l ih => exact ih (hf _ _ h)
theorem Keeps.foldS {α : Type} {l : List α} {f : Run → α → Run} {p : Run} (h : Keeps s0 p.s)
    (hf : ∀ q x, Keeps s0 q.s → Keeps s0 (f q x).s) : Keeps s0 (l.foldl f p).s := by
  induction l generalizing p with
  | nil => exact h
  | cons x l ih => exact ih (hf _ _ h)
theorem Keeps.iteR {c : Prop} [Decidable c] {a b : Run} (ha : Keeps s0 a.s) (hb : Keeps s0 b.s) : Keeps s0 (if c then a else b).s := by
  split <;> assumption
theorem Keeps.ite {c : Prop} [Decidable c] {a b : State} (ha : Keeps s0 a) (hb : Keeps s0 b) : Keeps s0 (if c then a else b) := by
  split <;> assumption
theorem Keeps.fold {α : Type} {l : List α} {f : State → α → State} (h : Keeps s0 s)
    (hf : ∀ t x, Keeps s0 t → Keeps s0 (f t x)) : Keeps s0 (l.foldl f s) := by
  induction l generalizing s with
  | nil => exact h
  | cons x l ih => exact ih (hf _ _ h)
theorem Keeps.fold1 {α β : Type} {l : List α} {f : State × β → α → State × β} {p : State × β} (h : Keeps s0 p.1)
    (hf : ∀ q x, Keeps s0 q.1 → Keeps s0 (f q x).1) : Keeps s0 (l.foldl f p).1 := by
  induction l generalizing p with
  | nil => exact h
  | cons x l ih => exact ih (hf _ _ h)
theorem Keeps.fold2 {α β : Type} {l : List α} {f : β × State → α → β × State} {p : β × State} (h : Keeps s0 p.2)
    (hf : ∀ q x, Keeps s0 q.2 → Keeps s0 (f q x).2) : Keeps s0 (l.foldl f p).2 := by
  induction l generalizing p with
  | nil => exact h
  | cons x l ih => exact ih (hf _ _ h)
theorem KeepsO.fold {α : Type} {l : List α} {f : Option State → α → Option State} {o : Option State} (h : KeepsO s0 o)
    (hf : ∀ t x, KeepsO s0 t → KeepsO s0 (f t x)) : KeepsO s0 (l.foldl f o) := by
  induction l generalizing o with
  | nil => exact h
  | cons x l ih => exact ih (hf _ _ h)
theorem Keeps.fst {β : Type} {p : State × β} {t : State} {x : β} (h : Keeps s0 p.1) (e : p = (t, x)) : Keeps s0 t := by rw [e] at h; exact h
theorem Keeps.snd {β : Type} {p : β × State} {t : State} {x : β} (h : Keeps s0 p.2) (e : p = (x, t)) : Keeps s0 t := by rw [e] at h; exact h
theorem KeepsO.elim {o : Option State} {t : State} (h : KeepsO s0 o) (e : o = some t) : Keeps s0 t := by
  subst e; cases h; assumption
theorem KeepsO.getD {o : Option State} {t : State} (h : KeepsO s0 o) (ht : Keeps s0 t) : Keeps s0 (o.getD t) := by
  cases h with
  | noneT => exact ht
  | someI h => exact h
theorem KeepsO.bind {o : Option State} {f : State → Option State} (h : KeepsO s0 o) (hf : ∀ t, Keeps s0 t → KeepsO s0 (f t)) :
    KeepsO s0 (o.bind f) := by
  cases h with
  | noneT => exact .noneT
  | someI h => exact hf _ h
theorem KeepsO.map {o : Option State} {f : State → State} (h : KeepsO s0 o) (hf : ∀ t, Keeps s0 t → Keeps s0 (f t)) :
    KeepsO s0 (o.map f) := by
  cases h with
  | noneT => exact .noneT
  | someI h => exact .someI (hf _ h)
theorem KeepsO2.elim {α : Type} {o : Option (α × State)} {t : State} {x : α} (h : KeepsO2 s0 o) (e : o = some (x, t)) : Keeps s0 t := by
  subst e; cases h; assumption
theorem KeepsO1.elim {α : Type} {o : Option (State × α)} {t : State} {x : α} (h : KeepsO1 s0 o) (e : o = some (t, x)) : Keeps s0 t := by
  subst e; cases h; assumption
theorem KeepsR.bind {α β : Type} {r : Res α} {f : α → State → Res β} (h : KeepsR s0 r) (hf : ∀ a t, Keeps s0 t → KeepsR s0 (f a t)) :
    KeepsR s0 (r.bind f) := by
  cases h with
  | okI h => exact hf _ _ h
  | evI h => exact .evI h
  | stallT => exact .stallT
  | parkI h => exact .parkI h
theorem KeepsR.bindS {α : Type} {r : Res α} {f : α → State → Res State} (h : KeepsR s0 r) (hf : ∀ a t, Keeps s0 t → KeepsRS s0 (f a t)) :
    KeepsRS s0 (r.bind f) := by
  cases h with
  | okI h => exact hf _ _ h
  | evI h => exact .evI h
  | stallT => exact .stallT
  | parkI h => exact .parkI h
theorem KeepsX.bind {α β : Type} {r : XR α} {f : α → State → XR β} (h : KeepsX s0 r) (hf : ∀ a t, Keeps s0 t → KeepsX s0 (f a t)) :
    KeepsX s0 (r.bind f) := by
  cases h with
  | okI h => exact hf _ _ h
  | badI h => exact .badI h
  | waitT => exact .waitT
theorem KeepsRS.okE {r} {a t : State} (h : KeepsRS s0 r) (e : r = .ok a t) : Keeps s0 t := by
  subst e; cases h; assumption
theorem KeepsRS.okA {r} {a t : State} (h : KeepsRS s0 r) (e : r = .ok a t) : Keeps s0 a := by
  subst e; cases h; assumption
theorem KeepsR.okE {α : Type} {r : Res α} {a} {t : State} (h : KeepsR s0 r) (e : r = .ok a t) : Keeps s0 t := by
  subst e; cases h; assumption
theorem KeepsR.evE {α : Type} {r : Res α} {e} {t : State} (h : KeepsR s0 r) (e : r = .ev e t) : Keeps s0 t := by
  subst e; cases h; assumption
theorem KeepsR.parkE {α : Type} {r : Res α} {t : State} (h : KeepsR s0 r) (e : r = .park  t) : Keeps s0 t := by
  subst e; cases h; assumption
theorem KeepsX.okE {α : Type} {r : XR α} {a} {t : State} (h : KeepsX s0 r) (e : r = .ok a t) : Keeps s0 t := by
  subst e; cases h; assumption
theorem KeepsX.badE {α : Type} {r : XR α} {e} {t : State} (h : KeepsX s0 r) (e : r = .bad e t) : Keeps s0 t := by
  subst e; cases h; assumption
theorem KeepsRS.evE {r : Res State} {e} {t : State} (h : KeepsRS s0 r) (e : r = .ev e t) : Keeps s0 t := by
  subst e; cases h; assumption
theorem KeepsRS.parkE {r : Res State} {t : State} (h : KeepsRS s0 r) (e : r = .park  t) : Keeps s0 t := by
  subst e; cases h; assumption
theorem KeepsB.tookE {r : Bnd} {t : State} (h : KeepsB s0 r) (e : r = .took  t) : Keeps s0 t := by
  subst e; cases h; assumption
theorem KeepsE.enteredE {r : Ent} {t : State} (h : KeepsE s0 r) (e : r = .entered  t) : Keeps s0 t := by
  subst e; cases h; assumption
theorem KeepsE.arithE {r : Ent} {t : State} (h : KeepsE s0 r) (e : r = .arith  t) : Keeps s0 t := by
  subst e; cases h; assumption
theorem KeepsE.noRoomE {r : Ent} {a} {t : State} (h : KeepsE s0 r) (e : r = .noRoom a t) : Keeps s0 t := by
  subst e; cases h; assumption
theorem KeepsDMA.okE {r : DmaR} {a} {t : State} (h : KeepsDMA s0 r) (e : r = .ok a t) : Keeps s0 t := by
  subst e; cases h; assumption
theorem KeepsDMA.refuseE {r : DmaR} {a} {t : State} (h : KeepsDMA s0 r) (e : r = .refuse a t) : Keeps s0 t := by
  subst e; cases h; assumption
theorem KeepsSEC.finE {r : SecR} {a} {t : State} (h : KeepsSEC s0 r) (e : r = .fin a t) : Keeps s0 t := by
  subst e; cases h; assumption
theorem KeepsSEC.laterE {r : SecR} {t : State} (h : KeepsSEC s0 r) (e : r = .later  t) : Keeps s0 t := by
  subst e; cases h; assumption
theorem KeepsO.ite {c : Prop} [Decidable c] {a b : Option State} (ha : KeepsO s0 a) (hb : KeepsO s0 b) : KeepsO s0 (if c then a else b) := by split <;> assumption
theorem KeepsR.ite {α : Type} {c : Prop} [Decidable c] {a b : Res α} (ha : KeepsR s0 a) (hb : KeepsR s0 b) : KeepsR s0 (if c then a else b) := by split <;> assumption
theorem KeepsRS.ite {c : Prop} [Decidable c] {a b : Res State} (ha : KeepsRS s0 a) (hb : KeepsRS s0 b) : KeepsRS s0 (if c then a else b) := by split <;> assumption
theorem KeepsX.ite {α : Type} {c : Prop} [Decidable c] {a b : XR α} (ha : KeepsX s0 a) (hb : KeepsX s0 b) : KeepsX s0 (if c then a else b) := by split <;> assumption
theorem KeepsB.ite {c : Prop} [Decidable c] {a b : Bnd} (ha : KeepsB s0 a) (hb : KeepsB s0 b) : KeepsB s0 (if c then a else b) := by split <;> assumption
theorem KeepsE.ite {c : Prop} [Decidable c] {a b : Ent} (ha : KeepsE s0 a) (hb : KeepsE s0 b) : KeepsE s0 (if c then a else b) := by split <;> assumption
theorem KeepsDMA.ite {c : Prop} [Decidable c] {a b : DmaR} (ha : KeepsDMA s0 a) (hb : KeepsDMA s0 b) : KeepsDMA s0 (if c then a else b) := by split <;> assumption
theorem KeepsSEC.ite {c : Prop} [Decidable c] {a b : SecR} (ha : KeepsSEC s0 a) (hb : KeepsSEC s0 b) : KeepsSEC s0 (if c then a else b) := by split <;> assumption
theorem KeepsH.ite {c : Prop} [Decidable c] {a b : Host.Outcome State Fault Refusal} (ha : KeepsH s0 a) (hb : KeepsH s0 b) : KeepsH s0 (if c then a else b) := by split <;> assumption
theorem KeepsO2.ite {α : Type} {c : Prop} [Decidable c] {a b : Option (α × State)} (ha : KeepsO2 s0 a) (hb : KeepsO2 s0 b) : KeepsO2 s0 (if c then a else b) := by split <;> assumption
theorem KeepsO1.ite {α : Type} {c : Prop} [Decidable c] {a b : Option (State × α)} (ha : KeepsO1 s0 a) (hb : KeepsO1 s0 b) : KeepsO1 s0 (if c then a else b) := by split <;> assumption
theorem Keeps.ite1 {β : Type} {c : Prop} [Decidable c] {a b : State × β} (ha : Keeps s0 a.1) (hb : Keeps s0 b.1) : Keeps s0 (if c then a else b).1 := by
  split <;> assumption
theorem Keeps.ite2 {β : Type} {c : Prop} [Decidable c] {a b : β × State} (ha : Keeps s0 a.2) (hb : Keeps s0 b.2) : Keeps s0 (if c then a else b).2 := by
  split <;> assumption

end Sys2Proof.Machine
end

