-- ==== Sys2Proof/Laws/OpsKeeps.lean ====
section
/-!
SUPPORT. Laws/OpsKeeps.lean: what Machine/Ops.lean leaves alone: each operation and meaning of it keeps the queue, the parts, the clock and the
canonical form of memory (`Keeps`).
-/
set_option linter.all false
namespace Sys2Proof.Machine

theorem State.repochInc_keeps {s0 : State} {x0} {x1} (h0 : Keeps s0 x0) : Keeps s0 (@State.repochInc x0 x1) := by
  unfold State.repochInc
  with_reducible repeat' (first
      | assumption | intro _ | apply Keeps.fold | (fail_if_no_progress apply Keeps.mkU))

theorem State.actBegin_keeps {s0 : State} {x0} {x1} {x2} (h0 : Keeps s0 x0) : Keeps s0 (@State.actBegin x0 x1 x2) := by
  unfold State.actBegin
  with_reducible repeat' (first
      | assumption | apply State.repochInc_keeps | (fail_if_no_progress apply Keeps.mkU))

theorem State.actEnd_keeps {s0 : State} {x0} {x1} {x2} (h0 : Keeps s0 x0) : Keeps s0 (@State.actEnd x0 x1 x2) := by
  unfold State.actEnd
  with_reducible repeat' (first
      | assumption | (fail_if_no_progress apply Keeps.mkU))

theorem State.wr_keeps {s0 : State} {x0} {x1} {x2} {x3} (h0 : Keeps s0 x0) : Keeps s0 (@State.wr x0 x1 x2 x3) := by
  unfold State.wr
  with_reducible repeat' (first
      | assumption | (fail_if_no_progress apply Keeps.mkU))

theorem State.bump_keeps {s0 : State} {x0} {x1} {x2} (h0 : Keeps s0 x0) : Keeps s0 (@State.bump x0 x1 x2) := by
  unfold State.bump
  with_reducible repeat' (first
      | assumption | apply State.wr_keeps)

theorem State.useFree_keeps {s0 : State} {x0} (h0 : Keeps s0 x0) : Keeps s0 (@State.useFree x0) := by
  unfold State.useFree
  with_reducible repeat' (first
      | assumption | (fail_if_no_progress apply Keeps.mkU))

theorem State.setPend_keeps {s0 : State} {x0} {x1} {x2} (h0 : Keeps s0 x0) : Keeps s0 (@State.setPend x0 x1 x2) := by
  unfold State.setPend
  with_reducible repeat' (first
      | assumption | apply State.wr_keeps)

theorem State.sysVector_keeps {s0 : State} {x0} {x1} {x2} {x3} (h0 : Keeps s0 x0) : Keeps s0 (@State.sysVector x0 x1 x2 x3) := by
  unfold State.sysVector
  with_reducible repeat' (first
      | assumption | apply State.bump_keeps | apply State.setPend_keeps | apply Keeps.ite)

theorem State.mgcReason_keeps {s0 : State} {x0} {x1} {x2} (h0 : Keeps s0 x0) : Keeps s0 (@State.mgcReason x0 x1 x2) := by
  unfold State.mgcReason
  with_reducible repeat' (first
      | assumption | apply State.wr_keeps | apply Keeps.ite | (fail_if_no_progress apply Keeps.mkU))

theorem State.ashRaw_keeps {s0 : State} {x0} {x1} {x2} (h0 : Keeps s0 x0) : Keeps s0 (@State.ashRaw x0 x1 x2) := by
  unfold State.ashRaw
  with_reducible repeat' (first
      | assumption | apply State.bump_keeps | apply State.sysVector_keeps | apply State.wr_keeps
      | apply State.mgcReason_keeps | apply Keeps.ite | (fail_if_no_progress apply Keeps.mkU))

theorem State.ash_keeps {s0 : State} {x0} {x1} {x2} (h0 : Keeps s0 x0) : Keeps s0 (@State.ash x0 x1 x2) := by
  unfold State.ash
  with_reducible repeat' (first
      | assumption | apply State.bump_keeps | apply State.useFree_keeps | apply State.ashRaw_keeps | apply Keeps.ite
      | (fail_if_no_progress apply Keeps.mkU))

theorem State.clrPend_keeps {s0 : State} {x0} {x1} {x2} (h0 : Keeps s0 x0) : Keeps s0 (@State.clrPend x0 x1 x2) := by
  unfold State.clrPend
  with_reducible repeat' (first
      | assumption | apply State.wr_keeps)

theorem State.lossNotify_keeps {s0 : State} {x0} {x1} {x2} {x3} (h0 : Keeps s0 x0) : Keeps s0 (@State.lossNotify x0 x1 x2 x3) := by
  unfold State.lossNotify
  with_reducible repeat' (first
      | assumption | apply State.sysVector_keeps | apply State.wr_keeps | apply State.mgcReason_keeps | apply Keeps.ite
      | split)

theorem State.setCore_keeps {s0 : State} {x0} {x1} {x2} (h0 : Keeps s0 x0) : Keeps s0 (@State.setCore x0 x1 x2) := by
  unfold State.setCore
  with_reducible repeat' (first
      | assumption | (fail_if_no_progress apply Keeps.mkU))

theorem State.setSr_keeps {s0 : State} {x0} {x1} {x2} {x3} (h0 : Keeps s0 x0) : Keeps s0 (@State.setSr x0 x1 x2 x3) := by
  unfold State.setSr
  with_reducible repeat' (first
      | assumption | apply State.setCore_keeps | split | (fail_if_no_progress extract_lets)
      | (fail_if_no_progress apply Keeps.mkU))

theorem State.updCore_keeps {s0 : State} {x0} {x1} {x2} (h0 : Keeps s0 x0) : Keeps s0 (@State.updCore x0 x1 x2) := by
  unfold State.updCore
  with_reducible repeat' (first
      | assumption | apply State.setCore_keeps)

theorem State.wrIf_keeps {s0 : State} {x0} {x1} {x2} {x3} {x4} (h0 : Keeps s0 x0) : Keeps s0 (@State.wrIf x0 x1 x2 x3 x4) := by
  unfold State.wrIf
  with_reducible repeat' (first
      | assumption | apply State.wr_keeps | apply Keeps.ite)

theorem State.wrs_keeps {s0 : State} {x0} {x1} {x2} (h0 : Keeps s0 x0) : Keeps s0 (@State.wrs x0 x1 x2) := by
  induction x2 generalizing x0 with
  | nil => exact h0
  | cons e t ih => exact ih (State.wr_keeps h0)

end Sys2Proof.Machine
end

