-- ==== Sys2Proof/Laws/BellowsKeeps.lean ====
section
/-!
SUPPORT. Laws/BellowsKeeps.lean: what Machine/Bellows.lean leaves alone: each operation and meaning of it keeps the queue, the parts, the clock and the
canonical form of memory (`Keeps`).
-/
set_option linter.all false
namespace Sys2Proof.Machine

theorem State.gateTake_keeps {s0 : State} {x0} {x1} {x2} (h0 : Keeps s0 x0) : Keeps s0 (@State.gateTake x0 x1 x2) := by
  unfold State.gateTake
  with_reducible repeat' (first
      | assumption | (fail_if_no_progress apply Keeps.mkU))

theorem State.exempt_keeps {s0 : State} {x0} {x1} {x2} (h0 : Keeps s0 x0) : Keeps s0 (@State.exempt x0 x1 x2) := by
  unfold State.exempt
  with_reducible repeat' (first
      | assumption | apply State.bump_keeps | apply Keeps.ite)

theorem State.gatePass_keeps {s0 : State} {x0} {x1} {x2} (h0 : Keeps s0 x0) : Keeps s0 (@State.gatePass x0 x1 x2) := by
  unfold State.gatePass
  with_reducible repeat' (first
      | assumption | apply State.gateTake_keeps | apply State.exempt_keeps | apply Keeps.ite | split)

end Sys2Proof.Machine
end

