-- ==== Sys2Proof/Laws/CohKeeps.lean ====
section
/-!
SUPPORT. Laws/CohKeeps.lean: what Machine/Coh.lean leaves alone: each operation and meaning of it keeps the queue, the parts, the clock and the
canonical form of memory (`Keeps`).
-/
set_option linter.all false
namespace Sys2Proof.Machine

theorem State.abandon_keeps {s0 : State} {x0} {x1} {x2} {x3} {x4} {x5} {x6} (h0 : Keeps s0 x0) : Keeps s0 (@State.abandon x0 x1 x2 x3 x4 x5 x6) := by
  unfold State.abandon
  with_reducible repeat' (first
      | assumption | apply State.updCore_keeps | apply State.ash_keeps)

theorem State.release_keeps {s0 : State} {x0} {x1} (h0 : Keeps s0 x0) : Keeps s0 (@State.release x0 x1) := by
  unfold State.release
  with_reducible repeat' (first
      | assumption | (fail_if_no_progress apply Keeps.mkU))

theorem State.abortRegion_keeps {s0 : State} {x0} {x1} {x2} {x3} (h0 : Keeps s0 x0) : Keeps s0 (@State.abortRegion x0 x1 x2 x3) := by
  unfold State.abortRegion
  with_reducible repeat' (first
      | assumption | apply State.release_keeps | apply State.updCore_keeps)

theorem State.wroteHome_keeps {s0 : State} {x0} {x1} (h0 : Keeps s0 x0) : Keeps s0 (@State.wroteHome x0 x1) := by
  unfold State.wroteHome
  with_reducible repeat' (first
      | assumption | (fail_if_no_progress apply Keeps.mkU))

theorem State.sfRemove_keeps {s0 : State} {x0} {x1} {x2} (h0 : Keeps s0 x0) : Keeps s0 (@State.sfRemove x0 x1 x2) := by
  unfold State.sfRemove
  with_reducible repeat' (first
      | assumption | split | (fail_if_no_progress extract_lets) | (fail_if_no_progress apply Keeps.mkU))

theorem State.setBits_keeps {s0 : State} {x0} {x1} {x2} (h0 : Keeps s0 x0) : Keeps s0 (@State.setBits x0 x1 x2) := by
  unfold State.setBits
  with_reducible repeat' (first
      | assumption | (fail_if_no_progress apply Keeps.mkU))

theorem State.evHome_keeps {s0 : State} {x0} {x1} {x2} (h0 : Keeps s0 x0) : Keeps s0 (@State.evHome x0 x1 x2) := by
  unfold State.evHome
  with_reducible repeat' (first
      | assumption | apply State.setBits_keeps | apply Keeps.ite | split | (fail_if_no_progress apply Keeps.mkU))

theorem State.sfShare_keeps {s0 : State} {x0} {x1} (h0 : Keeps s0 x0) : Keeps s0 (@State.sfShare x0 x1) := by
  unfold State.sfShare
  with_reducible repeat' (first
      | assumption | (fail_if_no_progress apply Keeps.mkU))

theorem State.lastCopy_keeps {s0 : State} {x0} {x1} {x2} (h0 : Keeps s0 x0) : Keeps s0 (@State.lastCopy x0 x1 x2) := by
  unfold State.lastCopy
  with_reducible repeat' (first
      | assumption | apply State.evHome_keeps | split | (fail_if_no_progress extract_lets)
      | (fail_if_no_progress apply Keeps.mkU))

theorem State.slicePut_keeps {s0 : State} {x0} {x1} {x2} (h0 : Keeps s0 x0) : Keeps s0 (@State.slicePut x0 x1 x2) := by
  unfold State.slicePut
  with_reducible repeat' (first
      | assumption | intro _ | apply State.lastCopy_keeps | apply Keeps.fold | (fail_if_no_progress apply Keeps.mkU))

theorem State.evict_keeps {s0 : State} {x0} {x1} {x2} (h0 : Keeps s0 x0) : Keeps s0 (@State.evict x0 x1 x2) := by
  unfold State.evict
  with_reducible repeat' (first
      | assumption | apply State.wroteHome_keeps | apply State.sfRemove_keeps | apply State.updCore_keeps
      | apply State.evHome_keeps | apply State.setBits_keeps | apply State.sfShare_keeps | apply State.slicePut_keeps
      | apply State.gatePass_keeps | apply Keeps.ite | split | (fail_if_no_progress apply Keeps.mkU))

theorem State.roomL2_keeps {s0 : State} {x0} {x1} {x2} (h0 : Keeps s0 x0) : Keeps s0 (@State.roomL2 x0 x1 x2) := by
  unfold State.roomL2
  with_reducible repeat' (first
      | assumption | apply State.evict_keeps | apply State.useFree_keeps | apply Keeps.ite)

theorem State.recallFrom_keeps {s0 : State} {x0} {x1} {x2} (h0 : Keeps s0 x0) : Keeps s0 (@State.recallFrom x0 x1 x2) := by
  unfold State.recallFrom
  with_reducible repeat' (first
      | assumption | apply State.evict_keeps | apply State.updCore_keeps)

theorem State.sfEvict_keeps {s0 : State} {x0} {x1} {x2} (h0 : Keeps s0 x0) : Keeps s0 (@State.sfEvict x0 x1 x2) := by
  unfold State.sfEvict
  with_reducible repeat' (first
      | assumption | intro _ | apply State.recallFrom_keeps | apply Keeps.fold | (fail_if_no_progress apply Keeps.mkU))

theorem State.roomSf_keeps {s0 : State} {x0} {x1} {x2} (h0 : Keeps s0 x0) : Keeps s0 (@State.roomSf x0 x1 x2) := by
  unfold State.roomSf
  with_reducible repeat' (first
      | assumption | apply State.sfEvict_keeps | apply Keeps.ite | split)

theorem State.room_keeps {s0 : State} {x0} {x1} {x2} (h0 : Keeps s0 x0) : Keeps s0 (@State.room x0 x1 x2) := by
  unfold State.room
  with_reducible repeat' (first
      | assumption | apply State.roomL2_keeps | apply State.roomSf_keeps | apply Keeps.ite)

theorem State.sfAdd_keeps {s0 : State} {x0} {x1} {x2} {x3} (h0 : Keeps s0 x0) : Keeps s0 (@State.sfAdd x0 x1 x2 x3) := by
  unfold State.sfAdd
  with_reducible repeat' (first
      | assumption | apply Keeps.ite | (fail_if_no_progress apply Keeps.mkU))

theorem State.sliceClear_keeps {s0 : State} {x0} {x1} (h0 : Keeps s0 x0) : Keeps s0 (@State.sliceClear x0 x1) := by
  unfold State.sliceClear
  with_reducible repeat' (first
      | assumption | (fail_if_no_progress apply Keeps.mkU))

theorem State.setPoison_keeps {s0 : State} {x0} {x1} {x2} (h0 : Keeps s0 x0) : Keeps s0 (@State.setPoison x0 x1 x2) := by
  unfold State.setPoison
  with_reducible repeat' (first
      | assumption | (fail_if_no_progress apply Keeps.mkU))

theorem State.settle_keeps {s0 : State} {x0} {x1} {x2} (h0 : Keeps s0 x0) : Keeps s0 (@State.settle x0 x1 x2) := by
  unfold State.settle
  with_reducible repeat' (first
      | assumption | apply State.setPoison_keeps | split | apply Keeps.mkW)

theorem State.unbuffer_keeps {s0 : State} {x0} {x1} {x2} (h0 : Keeps s0 x0) : Keeps s0 (@State.unbuffer x0 x1 x2) := by
  unfold State.unbuffer
  with_reducible repeat' (first
      | assumption | apply State.setBits_keeps | apply Keeps.ite | (fail_if_no_progress apply Keeps.mkU))

theorem State.recallAll_keeps {s0 : State} {x0} {x1} {x2} (h0 : Keeps s0 x0) : Keeps s0 (@State.recallAll x0 x1 x2) := by
  unfold State.recallAll
  with_reducible repeat' (first
      | assumption | apply State.wroteHome_keeps | apply State.sliceClear_keeps | apply State.settle_keeps
      | apply State.unbuffer_keeps | apply State.setBits_keeps | (fail_if_no_progress apply Keeps.mkU))

theorem State.rscEvict_keeps {s0 : State} {x0} {x1} {x2} {x3} (h0 : Keeps s0 x0) : Keeps s0 (@State.rscEvict x0 x1 x2 x3) := by
  unfold State.rscEvict
  with_reducible repeat' (first
      | assumption | apply State.bump_keeps | apply State.recallAll_keeps | apply Keeps.ite | split
      | (fail_if_no_progress apply Keeps.mkU))

theorem State.roomRscSet_keeps {s0 : State} {x0} {x1} {x2} {x3} {x4} (h4 : Keeps s0 x4) : Keeps s0 (@State.roomRscSet x0 x1 x2 x3 x4) := by
  induction x2 generalizing x0 x1 x3 x4 with
  | zero => (unfold State.roomRscSet; first | assumption | constructor; assumption | constructor | exact h4)
  | succ n ih =>
    unfold State.roomRscSet
    try dsimp only
    with_reducible repeat' (first
        | assumption | apply ih | apply State.rscEvict_keeps | split)

theorem State.roomRsc_keeps {s0 : State} {x0} {x1} {x2} (h0 : Keeps s0 x0) : Keeps s0 (@State.roomRsc x0 x1 x2) := by
  unfold State.roomRsc
  with_reducible repeat' (first
      | assumption | apply State.roomRscSet_keeps | split)

theorem State.rscTouch_keeps {s0 : State} {x0} {x1} {x2} (h0 : Keeps s0 x0) : Keeps s0 (@State.rscTouch x0 x1 x2) := by
  unfold State.rscTouch
  with_reducible repeat' (first
      | assumption | (fail_if_no_progress apply Keeps.mkU))

theorem State.rscOwn_keeps {s0 : State} {x0} {x1} {x2} {x3} (h0 : Keeps s0 x0) : Keeps s0 (@State.rscOwn x0 x1 x2 x3) := by
  unfold State.rscOwn
  with_reducible repeat' (first
      | assumption | apply State.rscTouch_keeps | (fail_if_no_progress apply Keeps.mkU))

theorem State.others_keeps {s0 : State} {x0} {x1} {x2} (h0 : Keeps s0 x0) : Keeps s0 (@State.others x0 x1 x2) := by
  unfold State.others
  with_reducible repeat' (first
      | assumption | (fail_if_no_progress apply Keeps.mkU))

theorem State.toM_keeps {s0 : State} {x0} {x1} {x2} (h0 : Keeps s0 x0) : Keeps s0 (@State.toM x0 x1 x2) := by
  unfold State.toM
  with_reducible repeat' (first
      | assumption | apply State.updCore_keeps | apply State.setPoison_keeps | apply Keeps.ite)

theorem State.sfDropOthers_keeps {s0 : State} {x0} {x1} {x2} (h0 : Keeps s0 x0) : Keeps s0 (@State.sfDropOthers x0 x1 x2) := by
  unfold State.sfDropOthers
  with_reducible repeat' (first
      | assumption | (fail_if_no_progress apply Keeps.mkU))

theorem State.acqOwn_keeps {s0 : State} {x0} {x1} {x2} {x3} (h0 : Keeps s0 x0) : Keeps s0 (@State.acqOwn x0 x1 x2 x3) := by
  unfold State.acqOwn
  with_reducible repeat' (first
      | assumption | apply State.bump_keeps | apply State.room_keeps | apply State.sfAdd_keeps | apply State.roomRsc_keeps
      | apply State.rscOwn_keeps | apply State.sliceClear_keeps | apply State.settle_keeps | apply State.unbuffer_keeps
      | apply State.others_keeps | apply State.setBits_keeps | apply State.toM_keeps | apply State.sfDropOthers_keeps
      | apply State.gatePass_keeps | split)

theorem State.shareIn_keeps {s0 : State} {x0} {x1} {x2} {x3} (h0 : Keeps s0 x0) : Keeps s0 (@State.shareIn x0 x1 x2 x3) := by
  unfold State.shareIn
  with_reducible repeat' (first
      | assumption | apply State.wroteHome_keeps | apply State.setBits_keeps | apply State.sfShare_keeps | apply Keeps.ite
      | (fail_if_no_progress apply Keeps.mkU))

theorem State.sliceRead_keeps {s0 : State} {x0} {x1} {x2} {x3} {x4} (h0 : Keeps s0 x0) : KeepsO s0 (@State.sliceRead x0 x1 x2 x3 x4) := by
  unfold State.sliceRead
  with_reducible repeat' (first
      | assumption | apply State.shareIn_keeps | apply State.sfAdd_keeps | apply State.updCore_keeps
      | apply State.slicePut_keeps | apply KeepsO.someI | apply KeepsO.noneT | split | (fail_if_no_progress extract_lets))

theorem State.rscAdd_keeps {s0 : State} {x0} {x1} {x2} {x3} (h0 : Keeps s0 x0) : Keeps s0 (@State.rscAdd x0 x1 x2 x3) := by
  unfold State.rscAdd
  with_reducible repeat' (first
      | assumption | apply State.rscTouch_keeps | (fail_if_no_progress apply Keeps.mkU))

theorem State.acqShared_keeps {s0 : State} {x0} {x1} {x2} {x3} {x4} (h0 : Keeps s0 x0) : Keeps s0 (@State.acqShared x0 x1 x2 x3 x4) := by
  unfold State.acqShared
  try dsimp only
  with_reducible repeat' (first
      | assumption | apply State.wroteHome_keeps | apply State.room_keeps | apply State.sfAdd_keeps
      | apply State.roomRsc_keeps | apply State.rscOwn_keeps | apply State.updCore_keeps | apply State.settle_keeps
      | apply State.unbuffer_keeps | apply State.others_keeps | apply State.sliceRead_keeps | apply State.rscAdd_keeps
      | apply State.setBits_keeps | apply State.sfShare_keeps | apply State.slicePut_keeps | apply State.gatePass_keeps
      | refine KeepsO.elim ?_ (by assumption) | split | (fail_if_no_progress apply Keeps.mkU))

theorem State.bufferLine_keeps {s0 : State} {x0} {x1} {x2} (h0 : Keeps s0 x0) : Keeps s0 (@State.bufferLine x0 x1 x2) := by
  unfold State.bufferLine
  with_reducible repeat' (first
      | assumption | apply State.unbuffer_keeps | apply State.setBits_keeps | split | (fail_if_no_progress apply Keeps.mkU))

theorem State.cmoClean_keeps {s0 : State} {x0} {x1} {x2} (h0 : Keeps s0 x0) : Keeps s0 (@State.cmoClean x0 x1 x2) := by
  unfold State.cmoClean
  with_reducible repeat' (first
      | assumption | apply State.wroteHome_keeps | apply State.unbuffer_keeps | (fail_if_no_progress apply Keeps.mkU))

theorem State.cmoInval_keeps {s0 : State} {x0} {x1} {x2} (h0 : Keeps s0 x0) : Keeps s0 (@State.cmoInval x0 x1 x2) := by
  unfold State.cmoInval
  try dsimp only
  with_reducible repeat' (first
      | assumption | apply State.recallAll_keeps | apply State.unbuffer_keeps | apply State.setPoison_keeps | split
      | apply Keeps.mkW)

theorem State.encrypted_keeps {s0 : State} {x0} {x1} {x2} (h0 : Keeps s0 x0) : Keeps s0 (@State.encrypted x0 x1 x2) := by
  unfold State.encrypted
  with_reducible repeat' (first
      | assumption | apply Keeps.ite | (fail_if_no_progress apply Keeps.mkU))

theorem State.keepOld_keeps {s0 : State} {x0} {x1} (h0 : Keeps s0 x0) : Keeps s0 (@State.keepOld x0 x1) := by
  unfold State.keepOld
  with_reducible repeat' (first
      | assumption | split | (fail_if_no_progress apply Keeps.mkU))

theorem State.macFail_keeps {s0 : State} {x0} {x1} {x2} (h0 : Keeps s0 x0) : Keeps s0 (@State.macFail x0 x1 x2) := by
  unfold State.macFail
  with_reducible repeat' (first
      | assumption | apply State.bump_keeps | apply State.ash_keeps | apply State.setPoison_keeps
      | (fail_if_no_progress apply Keeps.mkU))

theorem State.macWrite_keeps {s0 : State} {x0} {x1} {x2} {x3} (h0 : Keeps s0 x0) : Keeps s0 (@State.macWrite x0 x1 x2 x3) := by
  unfold State.macWrite
  with_reducible repeat' (first
      | assumption | apply State.macFail_keeps | apply Keeps.ite | (fail_if_no_progress apply Keeps.mkU))

theorem State.touch_keeps {s0 : State} {x0} {x1} {x2} (h0 : Keeps s0 x0) : Keeps s0 (@State.touch x0 x1 x2) := by
  unfold State.touch
  with_reducible repeat' (first
      | assumption | apply Keeps.ite | apply Keeps.mkW | (fail_if_no_progress apply Keeps.mkU))

theorem State.performStore_keeps {s0 : State} {x0} {x1} {x2} (h0 : Keeps s0 x0) : KeepsO s0 (@State.performStore x0 x1 x2) := by
  unfold State.performStore
  with_reducible repeat' (first
      | assumption | apply State.acqOwn_keeps | apply State.abandon_keeps | apply State.updCore_keeps
      | apply State.encrypted_keeps | apply State.keepOld_keeps | apply State.macWrite_keeps | apply State.touch_keeps
      | apply State.setPoison_keeps | apply KeepsO.someI | apply KeepsO.noneT | apply KeepsO.ite | split | apply Keeps.mkW)

theorem State.drainList_keeps {s0 : State} {x0} {x1} {x2} (h0 : Keeps s0 x0) : Keeps s0 (@State.drainList x0 x1 x2).1 := by
  induction x2 generalizing x0 with
  | nil => exact h0
  | cons e t ih =>
    unfold State.drainList
    split
    · next h => exact ih (KeepsO.elim (State.performStore_keeps h0) h)
    · exact h0

theorem State.drain_keeps {s0 : State} {x0} {x1} (h0 : Keeps s0 x0) : KeepsO s0 (@State.drain x0 x1) := by
  unfold State.drain
  with_reducible repeat' (first
      | assumption | apply State.updCore_keeps | apply State.drainList_keeps | apply KeepsO.someI | apply KeepsO.noneT
      | refine Keeps.fst ?_ (by assumption) | split)

theorem State.drainTo_keeps {s0 : State} {x0} {x1} {x2} (h0 : Keeps s0 x0) : KeepsO s0 (@State.drainTo x0 x1 x2) := by
  unfold State.drainTo
  with_reducible repeat' (first
      | assumption | apply State.updCore_keeps | apply State.drainList_keeps | apply KeepsO.someI | apply KeepsO.noneT
      | apply KeepsO.ite | refine Keeps.fst ?_ (by assumption) | split)

theorem State.drainLine_keeps {s0 : State} {x0} {x1} {x2} (h0 : Keeps s0 x0) : KeepsO s0 (@State.drainLine x0 x1 x2) := by
  unfold State.drainLine
  with_reducible repeat' (first
      | assumption | apply State.drainTo_keeps)

theorem State.flushL2_keeps {s0 : State} {x0} {x1} (h0 : Keeps s0 x0) : Keeps s0 (@State.flushL2 x0 x1) := by
  unfold State.flushL2
  with_reducible repeat' (first
      | assumption | intro _ | apply State.evict_keeps | apply Keeps.fold)

theorem State.hatApply_keeps {s0 : State} {x0} {x1} {x2} {x3} {x4} (h0 : Keeps s0 x0) : Keeps s0 (@State.hatApply x0 x1 x2 x3 x4) := by
  unfold State.hatApply
  with_reducible repeat' (first
      | assumption | apply State.recallAll_keeps | apply State.bufferLine_keeps | apply State.keepOld_keeps
      | apply State.unbuffer_keeps | apply Keeps.ite | apply Keeps.mkW)

theorem State.queueStores_keeps {s0 : State} {x0} {x1} {x2} (h0 : Keeps s0 x0) : KeepsO s0 (@State.queueStores x0 x1 x2) := by
  unfold State.queueStores
  with_reducible repeat' (first
      | assumption | intro _ | apply State.drain_keeps | apply State.updCore_keeps | apply KeepsO.someI | apply KeepsO.map
      | split)

theorem State.sliceDrop_keeps {s0 : State} {x0} {x1} {x2} (h0 : Keeps s0 x0) : Keeps s0 (@State.sliceDrop x0 x1 x2) := by
  unfold State.sliceDrop
  with_reducible repeat' (first
      | assumption | (fail_if_no_progress apply Keeps.mkU))

theorem State.uncWrite_keeps {s0 : State} {x0} {x1} {x2} {x3} (h0 : Keeps s0 x0) : KeepsO s0 (@State.uncWrite x0 x1 x2 x3) := by
  unfold State.uncWrite
  with_reducible repeat' (first
      | assumption | apply State.recallAll_keeps | apply State.macWrite_keeps | apply State.touch_keeps
      | apply State.gatePass_keeps | apply KeepsO.someI | apply KeepsO.noneT | apply KeepsO.ite | apply Keeps.mkW)

end Sys2Proof.Machine
end

