-- ==== Sys2Proof/Laws/XlatKeeps.lean ====
section
/-!
SUPPORT. Laws/XlatKeeps.lean: what Machine/Xlat.lean leaves alone: each operation and meaning of it keeps the queue, the parts, the clock and the
canonical form of memory (`Keeps`).
-/
set_option linter.all false
namespace Sys2Proof.Machine

theorem State.install_keeps {s0 : State} {x0} {x1} {x2} {x3} (h0 : Keeps s0 x0) : Keeps s0 (@State.install x0 x1 x2 x3) := by
  unfold State.install
  with_reducible repeat' (first
      | assumption | apply State.updCore_keeps | apply Keeps.ite)

theorem State.poisonErr_keeps {s0 : State} {x0} {x1} {x2} {x3} {x4} (h0 : Keeps s0 x0) : Keeps s0 (@State.poisonErr x0 x1 x2 x3 x4).2 := by
  unfold State.poisonErr
  with_reducible repeat' (first
      | assumption | apply State.useFree_keeps | apply State.macFail_keeps | apply Keeps.ite2)

theorem setAD_keeps {s0 : State} {x0} {x1} {x2} {x3} {x4} (h4 : Keeps s0 x4) : KeepsX s0 (@setAD x0 x1 x2 x3 x4) := by
  unfold setAD
  with_reducible repeat' (first
      | assumption | apply State.recallAll_keeps | apply KeepsX.okI | apply KeepsX.waitT | apply KeepsX.ite | apply Keeps.mkS)

theorem payAD_keeps {s0 : State} {x0} {x1} {x2} (h2 : Keeps s0 x2) : KeepsX s0 (@payAD x0 x1 x2) := by
  induction x1 generalizing x0 x2 with
  | nil => (unfold payAD; first | assumption | constructor; assumption | constructor | exact h2)
  | cons e t ih =>
    unfold payAD
    try dsimp only
    with_reducible repeat' (first
        | assumption | apply ih | intro _ | apply setAD_keeps | apply KeepsX.bind)

theorem XCtx.fill_keeps {s0 : State} {x0} {x1} {x2} {x3} (h1 : Keeps s0 x1) : Keeps s0 (@XCtx.fill x0 x1 x2 x3) := by
  unfold XCtx.fill
  with_reducible repeat' (first
      | assumption | apply State.acqShared_keeps | apply Keeps.ite)

theorem readEntry_keeps {s0 : State} {x0} {x1} {x2} {x3} {x4} {x5} {x6} (h6 : Keeps s0 x6) : KeepsX s0 (@readEntry x0 x1 x2 x3 x4 x5 x6) := by
  unfold readEntry
  try dsimp only
  with_reducible repeat' (first
      | assumption | apply XCtx.fill_keeps | apply State.touch_keeps | apply State.poisonErr_keeps | apply KeepsX.okI
      | apply KeepsX.badI | apply KeepsX.waitT | split)

theorem walk2_keeps {s0 : State} {x0} {x1} {x2} {x3} {x4} {x5} {x6} (h6 : Keeps s0 x6) :
    KeepsX s0 (@walk2 x0 x1 x2 x3 x4 x5 x6) := by
  induction x3 generalizing x4 x5 x6 with
  | zero => exact .badI h6
  | succ n ih =>
    unfold walk2
    dsimp only
    with_reducible repeat' (first
        | assumption | apply ih | apply readEntry_keeps | apply KeepsX.okI | apply KeepsX.badI | apply KeepsX.waitT
        | refine KeepsX.okE ?_ (by assumption) | refine KeepsX.badE ?_ (by assumption) | split)

theorem stage2_keeps {s0 : State} {x0} {x1} {x2} {x3} {x4} {x5} {x6} (h6 : Keeps s0 x6) : KeepsX s0 (@stage2 x0 x1 x2 x3 x4 x5 x6) := by
  unfold stage2
  with_reducible repeat' (first
      | assumption | intro _ | apply walk2_keeps | apply KeepsX.bind | apply KeepsX.okI | apply KeepsX.badI
      | apply KeepsX.ite)

theorem owed1_keeps {s0 : State} {x0} {x1} {x2} {x3} {x4} (h4 : Keeps s0 x4) : KeepsX s0 (@owed1 x0 x1 x2 x3 x4) := by
  unfold owed1
  with_reducible repeat' (first
      | assumption | intro _ | apply stage2_keeps | apply KeepsX.bind | apply KeepsX.okI | apply KeepsX.ite)

theorem tablePa_keeps {s0 : State} {x0} {x1} {x2} {x3} {x4} {x5} (h5 : Keeps s0 x5) : KeepsX s0 (@tablePa x0 x1 x2 x3 x4 x5) := by
  unfold tablePa
  with_reducible repeat' (first
      | assumption | intro _ | apply stage2_keeps | apply setAD_keeps | apply KeepsX.bind | apply KeepsX.okI | split
      | (fail_if_no_progress extract_lets))

theorem walk1_keeps {s0 : State} {x0} {x1} {x2} {x3} {x4} {x5} {x6} {x7} (h7 : Keeps s0 x7) :
    KeepsX s0 (@walk1 x0 x1 x2 x3 x4 x5 x6 x7) := by
  induction x4 generalizing x5 x6 x7 with
  | zero => exact .badI h7
  | succ n ih =>
    unfold walk1
    dsimp only
    with_reducible repeat' (first
        | assumption | apply ih | apply readEntry_keeps | apply tablePa_keeps | apply KeepsX.okI | apply KeepsX.badI
        | apply KeepsX.waitT | refine KeepsX.okE ?_ (by assumption) | refine KeepsX.badE ?_ (by assumption) | split)

theorem translate_keeps {s0 : State} {x0} {x1} {x2} {x3} {x4} {x5} (h5 : Keeps s0 x5) : KeepsX s0 (@translate x0 x1 x2 x3 x4 x5) := by
  unfold translate
  with_reducible repeat' (first
      | assumption | intro _ | apply owed1_keeps | apply stage2_keeps | apply walk1_keeps | apply KeepsX.bind
      | apply KeepsX.okI | apply KeepsX.badI | apply KeepsX.ite | split)

theorem xlate_keeps {s0 : State} {x0} {x1} {x2} {x3} {x4} {x5} (h5 : Keeps s0 x5) : KeepsX s0 (@xlate x0 x1 x2 x3 x4 x5) := by
  unfold xlate
  with_reducible repeat' (first
      | assumption | intro _ | apply payAD_keeps | apply translate_keeps | apply KeepsX.bind | apply KeepsX.okI
      | apply KeepsX.badI | split)

theorem State.xlateIn_keeps {s0 : State} {x0} {x1} {x2} {x3} {x4} (h0 : Keeps s0 x0) : KeepsX s0 (@State.xlateIn x0 x1 x2 x3 x4) := by
  unfold State.xlateIn
  with_reducible repeat' (first
      | assumption | intro _ | apply xlate_keeps | apply State.install_keeps | apply KeepsX.bind | apply KeepsX.okI)

theorem State.xlateC_keeps {s0 : State} {x0} {x1} {x2} {x3} (h0 : Keeps s0 x0) : KeepsX s0 (@State.xlateC x0 x1 x2 x3) := by
  unfold State.xlateC
  with_reducible repeat' (first
      | assumption | apply State.xlateIn_keeps)

theorem xrToRes_keeps {s0 : State} {α : Type} {c : Nat} {r : XR α} (h : KeepsX s0 r) : KeepsR s0 (xrToRes c r) := by
  cases h with
  | okI h => exact .okI h
  | badI h => exact .evI h
  | waitT => exact .stallT

end Sys2Proof.Machine
end

