-- ==== Sys2Proof/Laws/AgentKeeps.lean ====
section
/-!
SUPPORT. Laws/AgentKeeps.lean: what Machine/Agent.lean leaves alone: each operation and meaning of it keeps the queue, the parts, the clock and the
canonical form of memory (`Keeps`).
-/
set_option linter.all false
namespace Sys2Proof.Machine

theorem State.agentHadd_keeps {s0 : State} {x0} {x1} {x2} {x3} {x4} (h0 : Keeps s0 x0) : Keeps s0 (@State.agentHadd x0 x1 x2 x3 x4).1 := by
  unfold State.agentHadd
  with_reducible repeat' (first
      | assumption | apply State.hatApply_keeps | apply State.touch_keeps | apply State.poisonErr_keeps
      | apply State.gatePass_keeps | split | (fail_if_no_progress extract_lets))

theorem State.agentLost_keeps {s0 : State} {x0} {x1} {x2} {x3} {x4} {x5} (h0 : Keeps s0 x0) : Keeps s0 (@State.agentLost x0 x1 x2 x3 x4 x5) := by
  unfold State.agentLost
  with_reducible repeat' (first
      | assumption | apply State.ash_keeps)

theorem State.rduLine_keeps {s0 : State} {x0} {x1} {x2} (h0 : Keeps s0 x0) : Keeps s0 (@State.rduLine x0 x1 x2) := by
  unfold State.rduLine
  with_reducible repeat' (first
      | assumption | apply State.wroteHome_keeps | apply State.settle_keeps | apply State.unbuffer_keeps
      | apply State.others_keeps | apply State.setBits_keeps | apply State.sfShare_keeps | split
      | (fail_if_no_progress extract_lets) | (fail_if_no_progress apply Keeps.mkU))

theorem State.agentRead_keeps {s0 : State} {x0} {x1} {x2} {x3} (h0 : Keeps s0 x0) : Keeps s0 (@State.agentRead x0 x1 x2 x3).1 := by
  unfold State.agentRead
  with_reducible repeat' (first
      | assumption | apply State.rduLine_keeps | apply State.touch_keeps | apply State.poisonErr_keeps
      | apply State.gatePass_keeps | split | (fail_if_no_progress extract_lets))

theorem State.wruLine_keeps {s0 : State} {x0} {x1} {x2} {x3} (h0 : Keeps s0 x0) : Keeps s0 (@State.wruLine x0 x1 x2 x3) := by
  unfold State.wruLine
  try dsimp only
  with_reducible repeat' (first
      | assumption | apply State.recallAll_keeps | apply State.macWrite_keeps | apply State.setPoison_keeps | apply Keeps.ite
      | apply Keeps.mkL)

theorem State.agentWrite_keeps {s0 : State} {x0} {x1} {x2} {x3} {x4} (h0 : Keeps s0 x0) : Keeps s0 (@State.agentWrite x0 x1 x2 x3 x4).1 := by
  unfold State.agentWrite
  with_reducible repeat' (first
      | assumption | apply State.agentLost_keeps | apply State.wruLine_keeps | apply State.touch_keeps
      | apply State.gatePass_keeps | split | (fail_if_no_progress extract_lets))

theorem State.iotlbPut_keeps {s0 : State} {x0} {x1} {x2} (h0 : Keeps s0 x0) : Keeps s0 (@State.iotlbPut x0 x1 x2) := by
  unfold State.iotlbPut
  with_reducible repeat' (first
      | assumption | apply Keeps.ite | (fail_if_no_progress apply Keeps.mkU))

theorem State.msgInt_keeps {s0 : State} {x0} {x1} {x2} (h0 : Keeps s0 x0) : Keeps s0 (@State.msgInt x0 x1 x2) := by
  unfold State.msgInt
  with_reducible repeat' (first
      | assumption | apply State.bump_keeps | apply State.setPend_keeps | apply State.updCore_keeps | apply Keeps.ite)

theorem State.portXlate_keeps {s0 : State} {x0} {x1} {x2} {x3} (h0 : Keeps s0 x0) : Keeps s0 (@State.portXlate x0 x1 x2 x3).1 := by
  unfold State.portXlate
  with_reducible repeat' (first
      | assumption | apply xlate_keeps | apply State.iotlbPut_keeps | refine KeepsX.okE ?_ (by assumption)
      | refine KeepsX.badE ?_ (by assumption) | split)

theorem State.updDescAt_keeps {s0 : State} {x0} {x1} {x2} (h0 : Keeps s0 x0) : Keeps s0 (@State.updDescAt x0 x1 x2) := by
  unfold State.updDescAt
  with_reducible repeat' (first
      | assumption | (fail_if_no_progress apply Keeps.mkU))

theorem State.remember_keeps {s0 : State} {x0} {x1} {x2} {x3} (h0 : Keeps s0 x0) : Keeps s0 (@State.remember x0 x1 x2 x3) := by
  unfold State.remember
  with_reducible repeat' (first
      | assumption | apply State.updDescAt_keeps | split)

theorem State.portLine_keeps {s0 : State} {x0} {x1} {x2} (h0 : Keeps s0 x0) : Keeps s0 (@State.portLine x0 x1 x2).1 := by
  unfold State.portLine
  with_reducible repeat' (first
      | assumption | apply State.agentRead_keeps | apply State.portXlate_keeps | apply State.remember_keeps
      | refine Keeps.fst ?_ (by assumption) | split | (fail_if_no_progress extract_lets))

theorem State.portRead_keeps {s0 : State} {x0} {x1} {x2} {x3} {x4} (h4 : Keeps s0 x4) : Keeps s0 (@State.portRead x0 x1 x2 x3 x4).1 := by
  induction x1 generalizing x0 x2 x3 x4 with
  | zero => (unfold State.portRead; first | assumption | constructor; assumption | constructor | exact h4)
  | succ n ih =>
    unfold State.portRead
    try dsimp only
    with_reducible repeat' (first
        | assumption | apply ih | apply State.portLine_keeps | refine Keeps.fst ?_ (by assumption) | split)

theorem State.pRead_keeps {s0 : State} {x0} {x1} {x2} {x3} (h0 : Keeps s0 x0) : Keeps s0 (@State.pRead x0 x1 x2 x3).1 := by
  unfold State.pRead
  with_reducible repeat' (first
      | assumption | apply State.portRead_keeps)

theorem State.portWrite_keeps {s0 : State} {x0} {x1} {x2} {x3} {x4} (h4 : Keeps s0 x4) : Keeps s0 (@State.portWrite x0 x1 x2 x3 x4).1 := by
  induction x1 generalizing x0 x2 x3 x4 with
  | zero => (unfold State.portWrite; first | assumption | constructor; assumption | constructor | exact h4)
  | succ n ih =>
    unfold State.portWrite
    try dsimp only
    with_reducible repeat' (first
        | assumption | apply ih | apply State.portXlate_keeps | apply State.agentWrite_keeps
        | refine Keeps.fst ?_ (by assumption) | split)

theorem State.pWrite_keeps {s0 : State} {x0} {x1} {x2} {x3} (h0 : Keeps s0 x0) : Keeps s0 (@State.pWrite x0 x1 x2 x3).1 := by
  unfold State.pWrite
  with_reducible repeat' (first
      | assumption | apply State.portWrite_keeps)

theorem State.portFree_keeps {s0 : State} {x0} {x1} {x2} {x3} {x4} (h4 : Keeps s0 x4) : Keeps s0 (@State.portFree x0 x1 x2 x3 x4) := by
  induction x1 generalizing x0 x2 x3 x4 with
  | zero => (unfold State.portFree; first | assumption | constructor; assumption | constructor | exact h4)
  | succ n ih =>
    unfold State.portFree
    try dsimp only
    with_reducible repeat' (first
        | assumption | apply ih | apply State.useFree_keeps | apply State.portXlate_keeps | apply State.agentWrite_keeps
        | refine Keeps.fst ?_ (by assumption) | split)

end Sys2Proof.Machine
end

