-- ==== Sys2Proof/Laws/CtlKeeps.lean ====
section
/-!
SUPPORT. Laws/CtlKeeps.lean: what Machine/Ctl.lean leaves alone: each operation and meaning of it keeps the queue, the parts, the clock and the
canonical form of memory (`Keeps`).
-/
set_option linter.all false
namespace Sys2Proof.Machine

theorem State.commitBlk_keeps {s0 : State} {x0} {x1} {x2} {x3} (h0 : Keeps s0 x0) : Keeps s0 (@State.commitBlk x0 x1 x2 x3) := by
  unfold State.commitBlk
  with_reducible repeat' (first
      | assumption | intro _ | apply Keeps.fold | split | (fail_if_no_progress apply Keeps.mkU))

theorem State.commitField_keeps {s0 : State} {x0} {x1} {x2} {x3} (h0 : Keeps s0 x0) : Keeps s0 (@State.commitField x0 x1 x2 x3) := by
  unfold State.commitField
  with_reducible repeat' (first
      | assumption | apply State.wr_keeps | split | (fail_if_no_progress apply Keeps.mkU))

theorem State.fieldWrite_keeps {s0 : State} {x0} {x1} {x2} {x3} {x4} (h0 : Keeps s0 x0) : Keeps s0 (@State.fieldWrite x0 x1 x2 x3 x4) := by
  unfold State.fieldWrite
  with_reducible repeat' (first
      | assumption | apply State.wr_keeps | split | (fail_if_no_progress apply Keeps.mkU))

end Sys2Proof.Machine
end

