-- ==== Sys2Proof/Laws/EventKeeps.lean ====
section
/-!
SUPPORT. Laws/EventKeeps.lean: what Machine/Event.lean leaves alone: each operation and meaning of it keeps the queue, the parts, the clock and the
canonical form of memory (`Keeps`).
-/
set_option linter.all false
namespace Sys2Proof.Machine

theorem State.applyHarden_keeps {s0 : State} {x0} {x1} (h0 : Keeps s0 x0) : Keeps s0 (@State.applyHarden x0 x1) := by
  unfold State.applyHarden
  with_reducible repeat' (first
      | assumption | apply State.updCore_keeps)

theorem State.setVinst_keeps {s0 : State} {x0} {x1} {x2} (h0 : Keeps s0 x0) : Keeps s0 (@State.setVinst x0 x1 x2) := by
  unfold State.setVinst
  with_reducible repeat' (first
      | assumption | (fail_if_no_progress apply Keeps.mkU))

theorem State.setWorld_keeps {s0 : State} {x0} {x1} {x2} (h0 : Keeps s0 x0) : Keeps s0 (@State.setWorld x0 x1 x2) := by
  unfold State.setWorld
  try dsimp only
  with_reducible repeat' (first
      | assumption | apply State.setVinst_keeps | apply State.updCore_keeps | apply State.wr_keeps | split)

theorem State.openWin_keeps {s0 : State} {x0} {x1} {x2} {x3} (h0 : Keeps s0 x0) : Keeps s0 (@State.openWin x0 x1 x2 x3) := by
  unfold State.openWin
  with_reducible repeat' (first
      | assumption | apply State.updCore_keeps)

theorem State.vaultTrigger_keeps {s0 : State} {x0} {x1} (h0 : Keeps s0 x0) : Keeps s0 (@State.vaultTrigger x0 x1) := by
  unfold State.vaultTrigger
  with_reducible repeat' (first
      | assumption | apply State.setVinst_keeps | apply State.wr_keeps | apply Keeps.ite
      | (fail_if_no_progress apply Keeps.mkU))

theorem State.exhaust_keeps {s0 : State} {x0} {x1} {x2} (h0 : Keeps s0 x0) : Keeps s0 (@State.exhaust x0 x1 x2) := by
  unfold State.exhaust
  with_reducible repeat' (first
      | assumption | apply State.lossNotify_keeps | apply State.wrIf_keeps | apply State.ash_keeps | apply State.wr_keeps
      | apply State.vaultTrigger_keeps | split)

theorem State.trPut_keeps {s0 : State} {x0} {x1} {x2} {x3} (h0 : Keeps s0 x0) : Keeps s0 (@State.trPut x0 x1 x2 x3) := by
  unfold State.trPut
  with_reducible repeat' (first
      | assumption | apply State.wrIf_keeps | apply State.wr_keeps)

theorem State.trStamp_keeps {s0 : State} {x0} {x1} (h0 : Keeps s0 x0) : Keeps s0 (@State.trStamp x0 x1) := by
  unfold State.trStamp
  with_reducible repeat' (first
      | assumption | apply State.updCore_keeps | apply State.trPut_keeps)

theorem State.trRec_keeps {s0 : State} {x0} {x1} {x2} {x3} {x4} (h0 : Keeps s0 x0) : Keeps s0 (@State.trRec x0 x1 x2 x3 x4) := by
  unfold State.trRec
  with_reducible repeat' (first
      | assumption | apply State.trStamp_keeps | apply State.updCore_keeps | apply State.trPut_keeps | apply Keeps.ite)

theorem State.clearRstack_keeps {s0 : State} {x0} {x1} {x2} (h0 : Keeps s0 x0) : Keeps s0 (@State.clearRstack x0 x1 x2) := by
  unfold State.clearRstack
  with_reducible repeat' (first
      | assumption | apply State.updCore_keeps | apply Keeps.ite)

theorem State.ctxEval_keeps {s0 : State} {x0} {x1} (h0 : Keeps s0 x0) : Keeps s0 (@State.ctxEval x0 x1) := by
  unfold State.ctxEval
  with_reducible repeat' (first
      | assumption | apply State.updCore_keeps | apply Keeps.ite)

theorem State.repredict_keeps {s0 : State} {x0} {x1} {x2} (h0 : Keeps s0 x0) : Keeps s0 (@State.repredict x0 x1 x2) := by
  unfold State.repredict
  with_reducible repeat' (first
      | assumption | apply State.updCore_keeps | apply State.clearRstack_keeps | apply State.applyHarden_keeps
      | apply State.ctxEval_keeps)

theorem State.enter_keeps {s0 : State} {x0} {x1} {x2} {x3} {x4} (h0 : Keeps s0 x0) : KeepsE s0 (@State.enter x0 x1 x2 x3 x4) := by
  unfold State.enter
  with_reducible repeat' (first
      | assumption | apply State.trRec_keeps | apply State.bump_keeps | apply State.xlateC_keeps
      | apply State.repredict_keeps | apply State.setSr_keeps | apply State.updCore_keeps | apply State.queueStores_keeps
      | apply State.wr_keeps | apply Keeps.ite | apply KeepsE.enteredI | apply KeepsE.arithI | apply KeepsE.noRoomI
      | apply KeepsE.waitT | refine KeepsO.elim ?_ (by assumption) | refine KeepsX.okE ?_ (by assumption)
      | refine KeepsX.badE ?_ (by assumption) | split | (fail_if_no_progress extract_lets))

theorem State.boundary_keeps {s0 : State} {x0} {x1} (h0 : Keeps s0 x0) : KeepsB s0 (@State.boundary x0 x1) := by
  unfold State.boundary
  with_reducible repeat' (first
      | assumption | apply State.abortRegion_keeps | apply State.setWorld_keeps | apply State.openWin_keeps
      | apply State.updCore_keeps | apply State.exhaust_keeps | apply State.enter_keeps | apply KeepsB.tookI
      | apply KeepsB.noneT | apply KeepsB.waitT | refine KeepsE.enteredE ?_ (by assumption)
      | refine KeepsE.arithE ?_ (by assumption) | refine KeepsE.noRoomE ?_ (by assumption) | split
      | (fail_if_no_progress extract_lets))

theorem State.seated_keeps {s0 : State} {x0} {x1} {x2} {x3} {x4} {x5} {x6} {x7} (h0 : Keeps s0 x0) : Keeps s0 (@State.seated x0 x1 x2 x3 x4 x5 x6 x7) := by
  unfold State.seated
  with_reducible repeat' (first
      | assumption | apply State.updCore_keeps)

theorem State.commitWin_keeps {s0 : State} {x0} {x1} (h0 : Keeps s0 x0) : KeepsO s0 (@State.commitWin x0 x1) := by
  unfold State.commitWin
  with_reducible repeat' (first
      | assumption | apply State.seated_keeps | apply State.updCore_keeps | apply State.exhaust_keeps
      | apply State.clrPend_keeps | apply State.enter_keeps | apply KeepsO.someI | apply KeepsO.noneT
      | refine KeepsE.enteredE ?_ (by assumption) | refine KeepsE.arithE ?_ (by assumption)
      | refine KeepsE.noRoomE ?_ (by assumption) | split | (fail_if_no_progress extract_lets))

theorem State.raise_keeps {s0 : State} {x0} {x1} {x2} (h0 : Keeps s0 x0) : KeepsO s0 (@State.raise x0 x1 x2) := by
  unfold State.raise
  with_reducible repeat' (first
      | assumption | apply State.abortRegion_keeps | apply State.exhaust_keeps | apply State.enter_keeps | apply KeepsO.someI
      | apply KeepsO.noneT | apply KeepsO.ite | refine KeepsE.enteredE ?_ (by assumption)
      | refine KeepsE.arithE ?_ (by assumption) | refine KeepsE.noRoomE ?_ (by assumption) | split)

theorem State.reharden_keeps {s0 : State} {x0} {x1} (h0 : Keeps s0 x0) : Keeps s0 (@State.reharden x0 x1) := by
  unfold State.reharden
  with_reducible repeat' (first
      | assumption | apply State.updCore_keeps | apply State.applyHarden_keeps | apply State.ctxEval_keeps)

theorem State.takeover_keeps {s0 : State} {x0} {x1} {x2} (h0 : Keeps s0 x0) : Keeps s0 (@State.takeover x0 x1 x2) := by
  unfold State.takeover
  with_reducible repeat' (first
      | assumption | apply State.updCore_keeps | apply Keeps.ite | split)

theorem State.unframe_keeps {s0 : State} {x0} {x1} {x2} (h0 : Keeps s0 x0) : Keeps s0 (@State.unframe x0 x1 x2).1 := by
  unfold State.unframe
  with_reducible repeat' (first
      | assumption | apply State.setWorld_keeps | apply State.repredict_keeps | apply State.setSr_keeps
      | apply State.updCore_keeps | apply State.wr_keeps | apply Keeps.ite)

end Sys2Proof.Machine
end

