-- ==== Sys2Proof/Laws/FailKeeps.lean ====
section
/-!
SUPPORT. Laws/FailKeeps.lean: what Machine/Fail.lean leaves alone: each operation and meaning of it keeps the queue, the parts, the clock and the
canonical form of memory (`Keeps`).
-/
set_option linter.all false
namespace Sys2Proof.Machine

theorem State.coreClear_keeps {s0 : State} {x0} {x1} (h0 : Keeps s0 x0) : Keeps s0 (@State.coreClear x0 x1) := by
  unfold State.coreClear
  with_reducible repeat' (first
      | assumption | intro _ | apply State.setCore_keeps | apply State.wrs_keeps | apply State.wr_keeps | apply Keeps.fold
      | (fail_if_no_progress apply Keeps.mkU))

theorem State.coreResetOne_keeps {s0 : State} {x0} {x1} (h0 : Keeps s0 x0) : KeepsO s0 (@State.coreResetOne x0 x1) := by
  unfold State.coreResetOne
  with_reducible repeat' (first
      | assumption | apply State.release_keeps | apply State.coreClear_keeps | apply State.setWorld_keeps
      | apply State.drain_keeps | apply State.vaultTrigger_keeps | apply State.flushL2_keeps | apply KeepsO.someI
      | apply KeepsO.noneT | refine KeepsO.elim ?_ (by assumption) | split)

theorem State.coreReset_keeps {s0 : State} {x0} {x1} (h0 : Keeps s0 x0) : KeepsO s0 (@State.coreReset x0 x1) := by
  unfold State.coreReset
  with_reducible repeat' (first
      | assumption | intro _ | apply State.coreResetOne_keeps | apply State.wr_keeps | apply KeepsO.bind | apply KeepsO.map
      | split | (fail_if_no_progress extract_lets))

theorem State.poisonOwned_keeps {s0 : State} {x0} {x1} (h0 : Keeps s0 x0) : Keeps s0 (@State.poisonOwned x0 x1) := by
  unfold State.poisonOwned
  with_reducible repeat' (first
      | assumption | intro _ | apply State.wroteHome_keeps | apply State.setBits_keeps | apply State.setPoison_keeps
      | apply Keeps.fold | split)

theorem State.saveRecord_keeps {s0 : State} {x0} {x1} {x2} (h0 : Keeps s0 x0) : Keeps s0 (@State.saveRecord x0 x1 x2) := by
  unfold State.saveRecord
  with_reducible repeat' (first
      | assumption | intro _ | apply State.wr_keeps | apply Keeps.fold)

theorem State.socketGone_keeps {s0 : State} {x0} {x1} (h0 : Keeps s0 x0) : Keeps s0 (@State.socketGone x0 x1) := by
  unfold State.socketGone
  with_reducible repeat' (first
      | assumption | intro _ | apply State.release_keeps | apply State.updCore_keeps | apply State.sliceClear_keeps
      | apply State.poisonOwned_keeps | apply Keeps.fold | (fail_if_no_progress apply Keeps.mkU))

theorem State.socketFail_keeps {s0 : State} {x0} {x1} {x2} {x3} {x4} (h0 : Keeps s0 x0) : Keeps s0 (@State.socketFail x0 x1 x2 x3 x4) := by
  unfold State.socketFail
  with_reducible repeat' (first
      | assumption | intro _ | apply State.socketGone_keeps | apply State.saveRecord_keeps | apply State.wrIf_keeps
      | apply State.ash_keeps | apply State.mgcReason_keeps | apply Keeps.ite | apply Keeps.fold
      | (fail_if_no_progress apply Keeps.mkU))

end Sys2Proof.Machine
end

