-- ==== Sys2Proof/Laws/HearthKeeps.lean ====
section
/-!
SUPPORT. Laws/HearthKeeps.lean: what Machine/Hearth.lean leaves alone: each operation and meaning of it keeps the queue, the parts, the clock and the
canonical form of memory (`Keeps`).
-/
set_option linter.all false
namespace Sys2Proof.Machine

theorem State.abortMembers_keeps {s0 : State} {x0} {x1} (h0 : Keeps s0 x0) : Keeps s0 (@State.abortMembers x0 x1) := by
  unfold State.abortMembers
  with_reducible repeat' (first
      | assumption | intro _ | apply State.abortRegion_keeps | apply Keeps.fold | split)

theorem State.updTxn_keeps {s0 : State} {x0} {x1} {x2} (h0 : Keeps s0 x0) : Keeps s0 (@State.updTxn x0 x1 x2) := by
  unfold State.updTxn
  with_reducible repeat' (first
      | assumption | (fail_if_no_progress apply Keeps.mkU))

theorem State.say_keeps {s0 : State} {x0} {x1} {x2} {x3} {x4} {x5} (h0 : Keeps s0 x0) : Keeps s0 (@State.say x0 x1 x2 x3 x4 x5) := by
  unfold State.say
  with_reducible repeat' (first
      | assumption | (fail_if_no_progress apply Keeps.mkU))

theorem State.endTxn_keeps {s0 : State} {x0} {x1} (h0 : Keeps s0 x0) : Keeps s0 (@State.endTxn x0 x1) := by
  unfold State.endTxn
  with_reducible repeat' (first
      | assumption | (fail_if_no_progress apply Keeps.mkU))

theorem State.finishHome_keeps {s0 : State} {x0} {x1} {x2} (h0 : Keeps s0 x0) : Keeps s0 (@State.finishHome x0 x1 x2) := by
  unfold State.finishHome
  try dsimp only
  with_reducible repeat' (first
      | assumption | apply State.hatApply_keeps | apply State.cmoInval_keeps | apply State.recallAll_keeps
      | apply State.say_keeps | apply State.cmoClean_keeps | apply State.macWrite_keeps | apply State.endTxn_keeps
      | apply State.setPoison_keeps | split | apply Keeps.mkL)

theorem State.sayAll_keeps {s0 : State} {x0} {x1} {x2} {x3} {x4} (h0 : Keeps s0 x0) : Keeps s0 (@State.sayAll x0 x1 x2 x3 x4) := by
  unfold State.sayAll
  with_reducible repeat' (first
      | assumption | intro _ | apply State.say_keeps | apply Keeps.fold)

theorem State.memRead_keeps {s0 : State} {x0} {x1} {x2} (h0 : Keeps s0 x0) : Keeps s0 (@State.memRead x0 x1 x2) := by
  unfold State.memRead
  with_reducible repeat' (first
      | assumption | apply State.say_keeps | apply State.rscOwn_keeps | apply State.rscAdd_keeps | apply State.setBits_keeps
      | apply Keeps.ite)

theorem State.serve_keeps {s0 : State} {x0} {x1} {x2} (h0 : Keeps s0 x0) : Keeps s0 (@State.serve x0 x1 x2) := by
  unfold State.serve
  try dsimp only
  with_reducible repeat' (first
      | assumption | apply State.updTxn_keeps | apply State.finishHome_keeps | apply State.roomRsc_keeps
      | apply State.say_keeps | apply State.rscOwn_keeps | apply State.sayAll_keeps | apply State.unbuffer_keeps
      | apply State.setBits_keeps | apply State.memRead_keeps | apply Keeps.ite | split
      | (fail_if_no_progress apply Keeps.mkU))

theorem State.sayRetry_keeps {s0 : State} {x0} {x1} {x2} (h0 : Keeps s0 x0) : Keeps s0 (@State.sayRetry x0 x1 x2) := by
  unfold State.sayRetry
  with_reducible repeat' (first
      | assumption | apply State.bump_keeps | apply State.say_keeps | (fail_if_no_progress apply Keeps.mkU))

theorem State.atHome_keeps {s0 : State} {x0} {x1} {x2} (h0 : Keeps s0 x0) : Keeps s0 (@State.atHome x0 x1 x2) := by
  unfold State.atHome
  with_reducible repeat' (first
      | assumption | apply State.serve_keeps | apply State.exempt_keeps | apply State.sayRetry_keeps | apply Keeps.ite
      | (fail_if_no_progress apply Keeps.mkU))

theorem State.took_keeps {s0 : State} {x0} {x1} (h0 : Keeps s0 x0) : Keeps s0 (@State.took x0 x1) := by
  unfold State.took
  with_reducible repeat' (first
      | assumption | (fail_if_no_progress apply Keeps.mkU))

theorem State.consume_keeps {s0 : State} {x0} {x1} {x2} {x3} (h0 : Keeps s0 x0) : Keeps s0 (@State.consume x0 x1 x2 x3) := by
  unfold State.consume
  with_reducible repeat' (first
      | assumption | apply State.took_keeps | split)

theorem State.copyRegions_keeps {s0 : State} {x0} {x1} {x2} {x3} (h0 : Keeps s0 x0) : Keeps s0 (@State.copyRegions x0 x1 x2 x3) := by
  unfold State.copyRegions
  with_reducible repeat' (first
      | assumption | apply Keeps.ite | (fail_if_no_progress apply Keeps.mkU))

theorem State.dropIn_keeps {s0 : State} {x0} {x1} {x2} {x3} (h0 : Keeps s0 x0) : Keeps s0 (@State.dropIn x0 x1 x2 x3) := by
  unfold State.dropIn
  with_reducible repeat' (first
      | assumption | apply State.sliceDrop_keeps | apply Keeps.ite | (fail_if_no_progress apply Keeps.mkU))

theorem State.poisonBuffer_keeps {s0 : State} {x0} {x1} {x2} (h0 : Keeps s0 x0) : Keeps s0 (@State.poisonBuffer x0 x1 x2) := by
  unfold State.poisonBuffer
  with_reducible repeat' (first
      | assumption | intro _ | apply State.setBits_keeps | apply State.setPoison_keeps | apply Keeps.fold
      | (fail_if_no_progress apply Keeps.mkU))

theorem State.setRetire_keeps {s0 : State} {x0} {x1} {x2} (h0 : Keeps s0 x0) : Keeps s0 (@State.setRetire x0 x1 x2) := by
  unfold State.setRetire
  with_reducible repeat' (first
      | assumption | (fail_if_no_progress apply Keeps.mkU))

theorem State.moveBucket_keeps {s0 : State} {x0} {x1} {x2} {x3} {x4} (h0 : Keeps s0 x0) : Keeps s0 (@State.moveBucket x0 x1 x2 x3 x4) := by
  unfold State.moveBucket
  with_reducible repeat' (first
      | assumption | apply State.wr_keeps)

theorem State.sourceFail_keeps {s0 : State} {x0} {x1} {x2} (h0 : Keeps s0 x0) : Keeps s0 (@State.sourceFail x0 x1 x2) := by
  unfold State.sourceFail
  with_reducible repeat' (first
      | assumption | intro _ | apply State.poisonBuffer_keeps | apply State.setRetire_keeps | apply State.sliceClear_keeps
      | apply State.moveBucket_keeps | apply State.wr_keeps | apply Keeps.fold | split
      | (fail_if_no_progress apply Keeps.mkU))

theorem State.startRetire_keeps {s0 : State} {x0} {x1} {x2} {x3} {x4} (h0 : Keeps s0 x0) : Keeps s0 (@State.startRetire x0 x1 x2 x3 x4) := by
  unfold State.startRetire
  with_reducible repeat' (first
      | assumption | apply State.setRetire_keeps | apply State.wr_keeps)

theorem State.retireReq_keeps {s0 : State} {x0} {x1} {x2} {x3} (h0 : Keeps s0 x0) : Keeps s0 (@State.retireReq x0 x1 x2 x3) := by
  unfold State.retireReq
  with_reducible repeat' (first
      | assumption | apply State.startRetire_keeps | apply State.setRetire_keeps | apply State.ash_keeps
      | apply State.wr_keeps | split)

theorem State.sliceFailed_keeps {s0 : State} {x0} {x1} {x2} (h0 : Keeps s0 x0) : Keeps s0 (@State.sliceFailed x0 x1 x2) := by
  unfold State.sliceFailed
  with_reducible repeat' (first
      | assumption | apply State.socketFail_keeps | apply State.sourceFail_keeps | apply State.setRetire_keeps
      | apply State.retireReq_keeps | split)

theorem State.hrthEvent_keeps {s0 : State} {x0} {x1} {x2} {x3} {x4} (h0 : Keeps s0 x0) : Keeps s0 (@State.hrthEvent x0 x1 x2 x3 x4) := by
  unfold State.hrthEvent
  with_reducible repeat' (first
      | assumption | apply State.bump_keeps | apply State.roomSf_keeps | apply State.roomRsc_keeps
      | apply State.sliceFailed_keeps | apply State.sliceDrop_keeps | apply State.ash_keeps | split
      | (fail_if_no_progress extract_lets))

theorem State.installL2_keeps {s0 : State} {x0} {x1} {x2} {x3} (h0 : Keeps s0 x0) : Keeps s0 (@State.installL2 x0 x1 x2 x3) := by
  unfold State.installL2
  with_reducible repeat' (first
      | assumption | apply State.room_keeps | apply State.sfAdd_keeps | apply State.updCore_keeps
      | apply State.slicePut_keeps | apply Keeps.ite)

theorem State.installM_keeps {s0 : State} {x0} {x1} (h0 : Keeps s0 x0) : Keeps s0 (@State.installM x0 x1) := by
  unfold State.installM
  with_reducible repeat' (first
      | assumption | apply State.updTxn_keeps | apply State.room_keeps | apply State.sfAdd_keeps | apply State.toM_keeps
      | split)

theorem State.sendReq_keeps {s0 : State} {x0} {x1} {x2} (h0 : Keeps s0 x0) : Keeps s0 (@State.sendReq x0 x1 x2) := by
  unfold State.sendReq
  with_reducible repeat' (first
      | assumption | apply State.atHome_keeps | apply State.exempt_keeps | apply Keeps.ite | split
      | (fail_if_no_progress apply Keeps.mkU))

theorem State.request_keeps {s0 : State} {x0} {x1} {x2} {x3} (h0 : Keeps s0 x0) : Keeps s0 (@State.request x0 x1 x2 x3) := by
  unfold State.request
  with_reducible repeat' (first
      | assumption | apply State.sendReq_keeps | apply State.touch_keeps | split | (fail_if_no_progress extract_lets))

theorem State.ownReq_keeps {s0 : State} {x0} {x1} {x2} {x3} (h0 : Keeps s0 x0) : Keeps s0 (@State.ownReq x0 x1 x2 x3) := by
  unfold State.ownReq
  with_reducible repeat' (first
      | assumption | apply State.request_keeps | apply State.room_keeps | apply State.sfAdd_keeps
      | apply State.sliceDrop_keeps | apply State.toM_keeps | split | (fail_if_no_progress extract_lets)
      | (fail_if_no_progress apply Keeps.mkU))

theorem State.readReq_keeps {s0 : State} {x0} {x1} {x2} {x3} (h0 : Keeps s0 x0) : Keeps s0 (@State.readReq x0 x1 x2 x3) := by
  unfold State.readReq
  with_reducible repeat' (first
      | assumption | apply State.request_keeps | apply State.room_keeps | apply State.sliceRead_keeps
      | apply State.touch_keeps | refine KeepsO.elim ?_ (by assumption) | split | (fail_if_no_progress extract_lets))

theorem State.received_keeps {s0 : State} {x0} {x1} {x2} {x3} {x4} {x5} (h0 : Keeps s0 x0) (h5 : ∀ y0, Keeps s0 y0 → Keeps s0 (x5 y0)) : Keeps s0 (@State.received x0 x1 x2 x3 x4 x5) := by
  unfold State.received
  with_reducible repeat' (first
      | assumption | apply h5 | apply State.took_keeps | apply State.updTxn_keeps | split
      | (fail_if_no_progress extract_lets))

theorem State.retireOver_keeps {s0 : State} {x0} {x1} {x2} (h0 : Keeps s0 x0) : Keeps s0 (@State.retireOver x0 x1 x2) := by
  unfold State.retireOver
  with_reducible repeat' (first
      | assumption | apply State.startRetire_keeps | apply State.actEnd_keeps | apply State.setRetire_keeps
      | apply State.wr_keeps | split)

theorem State.scanCore_keeps {s0 : State} {x0} {x1} {x2} (h0 : Keeps s0 x0) : Keeps s0 (@State.scanCore x0 x1 x2) := by
  unfold State.scanCore
  with_reducible repeat' (first
      | assumption | intro _ | apply State.wroteHome_keeps | apply State.abortRegion_keeps | apply State.updCore_keeps
      | apply Keeps.fold | split)

theorem State.serveSlot_keeps {s0 : State} {x0} {x1} {x2} (h0 : Keeps s0 x0) : Keeps s0 (@State.serveSlot x0 x1 x2) := by
  unfold State.serveSlot
  with_reducible repeat' (first
      | assumption | intro _ | apply State.serve_keeps | split | (fail_if_no_progress extract_lets)
      | (fail_if_no_progress apply Keeps.mkU))

theorem State.serveWaiting_keeps {s0 : State} {x0} {x1} {x2} {x3} (h3 : Keeps s0 x3) : Keeps s0 (@State.serveWaiting x0 x1 x2 x3) := by
  induction x2 generalizing x0 x1 x3 with
  | zero => (unfold State.serveWaiting; first | assumption | constructor; assumption | constructor | exact h3)
  | succ n ih =>
    unfold State.serveWaiting
    try dsimp only
    with_reducible repeat' (first
        | assumption | apply ih | intro _ | apply State.serve_keeps | split | (fail_if_no_progress apply Keeps.mkU))

theorem State.serveNext_keeps {s0 : State} {x0} {x1} {x2} (h0 : Keeps s0 x0) : Keeps s0 (@State.serveNext x0 x1 x2) := by
  unfold State.serveNext
  with_reducible repeat' (first
      | assumption | apply State.serveSlot_keeps | apply State.serveWaiting_keeps)

theorem State.snooped_keeps {s0 : State} {x0} {x1} {x2} {x3} {x4} (h0 : Keeps s0 x0) (h4 : ∀ y0 y1 y2, Keeps s0 y2 → Keeps s0 (x4 y0 y1 y2)) : Keeps s0 (@State.snooped x0 x1 x2 x3 x4) := by
  unfold State.snooped
  with_reducible repeat' (first
      | assumption | apply h4 | apply State.took_keeps | split)

theorem State.stripeCheck_keeps {s0 : State} {x0} {x1} {x2} (h0 : Keeps s0 x0) : Keeps s0 (@State.stripeCheck x0 x1 x2) := by
  unfold State.stripeCheck
  with_reducible repeat' (first
      | assumption | apply State.ash_keeps | apply State.wr_keeps | apply Keeps.ite)

theorem execAck_keeps {s0 : State} {x0} {x1} {x2} (h2 : Keeps s0 x2) : KeepsH s0 (@execAck x0 x1 x2) := by
  unfold execAck
  with_reducible repeat' (first
      | assumption | intro _ | apply State.installM_keeps | apply State.received_keeps | apply KeepsH.nextI)

theorem execAtomicBufferWriteback_keeps {s0 : State} {x0} {x1} {x2} (h2 : Keeps s0 x2) : KeepsH s0 (@execAtomicBufferWriteback x0 x1 x2) := by
  unfold execAtomicBufferWriteback
  with_reducible repeat' (first
      | assumption | apply State.unbuffer_keeps | apply KeepsH.nextI)

theorem execAtres_keeps {s0 : State} {x0} {x1} {x2} (h2 : Keeps s0 x2) : KeepsH s0 (@execAtres x0 x1 x2) := by
  unfold execAtres
  with_reducible repeat' (first
      | assumption | apply State.consume_keeps | apply KeepsH.nextI)

theorem execBellowsAdmit_keeps {s0 : State} {x0} {x1} {x2} (h2 : Keeps s0 x2) : KeepsH s0 (@execBellowsAdmit x0 x1 x2) := by
  unfold execBellowsAdmit
  with_reducible repeat' (first
      | assumption | apply State.gateTake_keeps | apply State.atHome_keeps | apply KeepsH.nextI | split
      | (fail_if_no_progress extract_lets) | (fail_if_no_progress apply Keeps.mkU))

theorem execBitsReadToHome_keeps {s0 : State} {x0} {x1} {x2} (h2 : Keeps s0 x2) : KeepsH s0 (@execBitsReadToHome x0 x1 x2) := by
  unfold execBitsReadToHome
  with_reducible repeat' (first
      | assumption | apply State.took_keeps | apply State.bump_keeps | apply State.say_keeps | apply State.rscOwn_keeps
      | apply State.sayAll_keeps | apply State.exempt_keeps | apply KeepsH.nextI | split | (fail_if_no_progress extract_lets))

theorem execBucketCopyDone_keeps {s0 : State} {x0} {x1} (h1 : Keeps s0 x1) : KeepsH s0 (@execBucketCopyDone x0 x1) := by
  unfold execBucketCopyDone
  with_reducible repeat' (first
      | assumption | intro _ | apply State.atHome_keeps | apply State.copyRegions_keeps | apply State.setRetire_keeps
      | apply State.moveBucket_keeps | apply State.wr_keeps | apply KeepsH.nextI | apply Keeps.fold | split
      | (fail_if_no_progress apply Keeps.mkU))

theorem execBucketMark_keeps {s0 : State} {x0} {x1} (h1 : Keeps s0 x1) : KeepsH s0 (@execBucketMark x0 x1) := by
  unfold execBucketMark
  with_reducible repeat' (first
      | assumption | apply State.setRetire_keeps | apply State.wr_keeps | apply KeepsH.nextI | split)

theorem execBucketTxnsDone_keeps {s0 : State} {x0} {x1} (h1 : Keeps s0 x1) : KeepsH s0 (@execBucketTxnsDone x0 x1) := by
  unfold execBucketTxnsDone
  with_reducible repeat' (first
      | assumption | apply State.setRetire_keeps | apply State.sliceClear_keeps | apply State.abortMembers_keeps
      | apply Keeps.ite | apply KeepsH.nextI | split)

theorem execCmo_keeps {s0 : State} {x0} {x1} {x2} {x3} (h3 : Keeps s0 x3) : KeepsH s0 (@execCmo x0 x1 x2 x3) := by
  unfold execCmo
  with_reducible repeat' (first
      | assumption | apply State.request_keeps | apply Keeps.ite | apply KeepsH.nextI)

theorem execCmp_keeps {s0 : State} {x0} {x1} {x2} (h2 : Keeps s0 x2) : KeepsH s0 (@execCmp x0 x1 x2) := by
  unfold execCmp
  with_reducible repeat' (first
      | assumption | apply State.took_keeps | apply State.serveNext_keeps | apply State.endTxn_keeps | apply KeepsH.nextI
      | split | (fail_if_no_progress extract_lets))

theorem execDataE_keeps {s0 : State} {x0} {x1} {x2} (h2 : Keeps s0 x2) : KeepsH s0 (@execDataE x0 x1 x2) := by
  unfold execDataE
  with_reducible repeat' (first
      | assumption | intro _ | apply State.installL2_keeps | apply State.received_keeps | apply KeepsH.nextI)

theorem execDataM_keeps {s0 : State} {x0} {x1} {x2} (h2 : Keeps s0 x2) : KeepsH s0 (@execDataM x0 x1 x2) := by
  unfold execDataM
  with_reducible repeat' (first
      | assumption | intro _ | apply State.installM_keeps | apply State.received_keeps | apply KeepsH.nextI)

theorem execDataS_keeps {s0 : State} {x0} {x1} {x2} (h2 : Keeps s0 x2) : KeepsH s0 (@execDataS x0 x1 x2) := by
  unfold execDataS
  with_reducible repeat' (first
      | assumption | intro _ | apply State.installL2_keeps | apply State.received_keeps | apply KeepsH.nextI)

theorem execDataU_keeps {s0 : State} {x0} {x1} {x2} (h2 : Keeps s0 x2) : KeepsH s0 (@execDataU x0 x1 x2) := by
  unfold execDataU
  with_reducible repeat' (first
      | assumption | intro _ | apply State.received_keeps | apply KeepsH.nextI)

theorem execEv_keeps {s0 : State} {x0} {x1} {x2} (h2 : Keeps s0 x2) : KeepsH s0 (@execEv x0 x1 x2) := by
  unfold execEv
  with_reducible repeat' (first
      | assumption | apply State.evict_keeps | apply KeepsH.nextI | split)

theorem execFin_keeps {s0 : State} {x0} {x1} {x2} (h2 : Keeps s0 x2) : KeepsH s0 (@execFin x0 x1 x2) := by
  unfold execFin
  with_reducible repeat' (first
      | assumption | apply State.serveNext_keeps | apply State.endTxn_keeps | apply KeepsH.nextI | split)

theorem execFlushb_keeps {s0 : State} {x0} {x1} {x2} (h2 : Keeps s0 x2) : KeepsH s0 (@execFlushb x0 x1 x2) := by
  unfold execFlushb
  with_reducible repeat' (first
      | assumption | intro _ | apply State.scanCore_keeps | apply State.setRetire_keeps | apply State.sliceClear_keeps
      | apply KeepsH.nextI | apply Keeps.fold | split | (fail_if_no_progress apply Keeps.mkU))

theorem execGnt_keeps {s0 : State} {x0} {x1} {x2} (h2 : Keeps s0 x2) : KeepsH s0 (@execGnt x0 x1 x2) := by
  unfold execGnt
  with_reducible repeat' (first
      | assumption | intro _ | apply State.installM_keeps | apply State.received_keeps | apply KeepsH.nextI)

theorem execHat_keeps {s0 : State} {x0} {x1} {x2} {x3} {x4} {x5} {x6} (h6 : Keeps s0 x6) : KeepsH s0 (@execHat x0 x1 x2 x3 x4 x5 x6) := by
  unfold execHat
  with_reducible repeat' (first
      | assumption | apply State.request_keeps | apply Keeps.ite | apply KeepsH.nextI)

theorem execHrthRetire_keeps {s0 : State} {x0} {x1} {x2} (h2 : Keeps s0 x2) : KeepsH s0 (@execHrthRetire x0 x1 x2) := by
  unfold execHrthRetire
  with_reducible repeat' (first
      | assumption | apply State.retireReq_keeps | apply KeepsH.nextI)

theorem execLockx_keeps {s0 : State} {x0} {x1} {x2} (h2 : Keeps s0 x2) : KeepsH s0 (@execLockx x0 x1 x2) := by
  unfold execLockx
  with_reducible repeat' (first
      | assumption | apply State.request_keeps | apply State.ownReq_keeps | apply KeepsH.nextI | split
      | (fail_if_no_progress apply Keeps.mkU))

theorem execOwn_keeps {s0 : State} {x0} {x1} {x2} (h2 : Keeps s0 x2) : KeepsH s0 (@execOwn x0 x1 x2) := by
  unfold execOwn
  with_reducible repeat' (first
      | assumption | apply State.ownReq_keeps | apply KeepsH.nextI)

theorem execRd_keeps {s0 : State} {x0} {x1} {x2} {x3} {x4} (h4 : Keeps s0 x4) : KeepsH s0 (@execRd x0 x1 x2 x3 x4) := by
  unfold execRd
  with_reducible repeat' (first
      | assumption | apply State.hrthEvent_keeps | apply State.readReq_keeps | apply KeepsH.nextI)

theorem execRdo_keeps {s0 : State} {x0} {x1} {x2} {x3} {x4} (h4 : Keeps s0 x4) : KeepsH s0 (@execRdo x0 x1 x2 x3 x4) := by
  unfold execRdo
  with_reducible repeat' (first
      | assumption | apply State.ownReq_keeps | apply State.hrthEvent_keeps | apply KeepsH.nextI)

theorem execRds_keeps {s0 : State} {x0} {x1} {x2} {x3} {x4} (h4 : Keeps s0 x4) : KeepsH s0 (@execRds x0 x1 x2 x3 x4) := by
  unfold execRds
  with_reducible repeat' (first
      | assumption | apply State.hrthEvent_keeps | apply State.readReq_keeps | apply KeepsH.nextI)

theorem execRdu_keeps {s0 : State} {x0} {x1} {x2} (h2 : Keeps s0 x2) : KeepsH s0 (@execRdu x0 x1 x2) := by
  unfold execRdu
  with_reducible repeat' (first
      | assumption | apply State.request_keeps | apply KeepsH.nextI)

theorem execRebuildDone_keeps {s0 : State} {x0} {x1} (h1 : Keeps s0 x1) : KeepsH s0 (@execRebuildDone x0 x1) := by
  unfold execRebuildDone
  with_reducible repeat' (first
      | assumption | intro _ | apply State.retireOver_keeps | apply State.wr_keeps | apply KeepsH.nextI | apply Keeps.fold
      | split)

theorem execRetry_keeps {s0 : State} {x0} {x1} {x2} (h2 : Keeps s0 x2) : KeepsH s0 (@execRetry x0 x1 x2) := by
  unfold execRetry
  with_reducible repeat' (first
      | assumption | apply State.consume_keeps | apply KeepsH.nextI)

theorem execRetryReissue_keeps {s0 : State} {x0} {x1} {x2} (h2 : Keeps s0 x2) : KeepsH s0 (@execRetryReissue x0 x1 x2) := by
  unfold execRetryReissue
  with_reducible repeat' (first
      | assumption | apply State.atHome_keeps | apply KeepsH.nextI | split | (fail_if_no_progress apply Keeps.mkU))

theorem execSliceRetireStart_keeps {s0 : State} {x0} {x1} (h1 : Keeps s0 x1) : KeepsH s0 (@execSliceRetireStart x0 x1) := by
  unfold execSliceRetireStart
  with_reducible repeat' (first
      | assumption | intro _ | apply State.actBegin_keeps | apply State.sourceFail_keeps | apply State.setRetire_keeps
      | apply State.unbuffer_keeps | apply KeepsH.nextI | apply Keeps.fold | split)

theorem execSliceRetired_keeps {s0 : State} {x0} {x1} (h1 : Keeps s0 x1) : KeepsH s0 (@execSliceRetired x0 x1) := by
  unfold execSliceRetired
  with_reducible repeat' (first
      | assumption | apply State.retireOver_keeps | apply State.setRetire_keeps | apply State.ash_keeps
      | apply State.wr_keeps | apply Keeps.ite | apply KeepsH.nextI | split)

theorem execSliceSourceFail_keeps {s0 : State} {x0} {x1} {x2} (h2 : Keeps s0 x2) : KeepsH s0 (@execSliceSourceFail x0 x1 x2) := by
  unfold execSliceSourceFail
  with_reducible repeat' (first
      | assumption | apply State.sliceFailed_keeps | apply KeepsH.nextI)

theorem execSliceTargetFail_keeps {s0 : State} {x0} {x1} (h1 : Keeps s0 x1) : KeepsH s0 (@execSliceTargetFail x0 x1) := by
  unfold execSliceTargetFail
  with_reducible repeat' (first
      | assumption | apply State.setRetire_keeps | apply State.wr_keeps | apply KeepsH.nextI | split)

theorem execSnpc_keeps {s0 : State} {x0} {x1} {x2} (h2 : Keeps s0 x2) : KeepsH s0 (@execSnpc x0 x1 x2) := by
  unfold execSnpc
  with_reducible repeat' (first
      | assumption | intro _ | apply State.say_keeps | apply State.snooped_keeps | apply State.cmoClean_keeps
      | apply Keeps.ite | apply KeepsH.nextI)

theorem execSnpi_keeps {s0 : State} {x0} {x1} {x2} (h2 : Keeps s0 x2) : KeepsH s0 (@execSnpi x0 x1 x2) := by
  unfold execSnpi
  with_reducible repeat' (first
      | assumption | intro _ | apply State.dropIn_keeps | apply State.say_keeps | apply State.snooped_keeps | apply Keeps.ite
      | apply KeepsH.nextI)

theorem execSnpr_keeps {s0 : State} {x0} {x1} {x2} (h2 : Keeps s0 x2) : KeepsH s0 (@execSnpr x0 x1 x2) := by
  unfold execSnpr
  with_reducible repeat' (first
      | assumption | intro _ | apply State.wroteHome_keeps | apply State.dropIn_keeps | apply State.say_keeps
      | apply State.snooped_keeps | apply Keeps.ite | apply KeepsH.nextI)

theorem execSnps_keeps {s0 : State} {x0} {x1} {x2} (h2 : Keeps s0 x2) : KeepsH s0 (@execSnps x0 x1 x2) := by
  unfold execSnps
  with_reducible repeat' (first
      | assumption | intro _ | apply State.wroteHome_keeps | apply State.say_keeps | apply State.snooped_keeps
      | apply State.sfShare_keeps | apply Keeps.ite | apply KeepsH.nextI | (fail_if_no_progress apply Keeps.mkU))

theorem execSnpx_keeps {s0 : State} {x0} {x1} {x2} (h2 : Keeps s0 x2) : KeepsH s0 (@execSnpx x0 x1 x2) := by
  unfold execSnpx
  with_reducible repeat' (first
      | assumption | intro _ | apply State.dropIn_keeps | apply State.say_keeps | apply State.snooped_keeps | apply Keeps.ite
      | apply KeepsH.nextI)

theorem execSrsp_keeps {s0 : State} {x0} {x1} {x2} {x3} (h3 : Keeps s0 x3) : KeepsH s0 (@execSrsp x0 x1 x2 x3) := by
  unfold execSrsp
  with_reducible repeat' (first
      | assumption | apply State.took_keeps | apply State.updTxn_keeps | apply State.finishHome_keeps | apply State.say_keeps
      | apply State.serveNext_keeps | apply State.rscAdd_keeps | apply State.setBits_keeps | apply State.memRead_keeps
      | apply KeepsH.nextI | split | (fail_if_no_progress extract_lets) | (fail_if_no_progress apply Keeps.mkU))

theorem execUnlock_keeps {s0 : State} {x0} {x1} {x2} (h2 : Keeps s0 x2) : KeepsH s0 (@execUnlock x0 x1 x2) := by
  unfold execUnlock
  with_reducible repeat' (first
      | assumption | apply State.atHome_keeps | apply State.serveNext_keeps | apply KeepsH.nextI | split
      | (fail_if_no_progress extract_lets) | (fail_if_no_progress apply Keeps.mkU))

theorem execUpg_keeps {s0 : State} {x0} {x1} {x2} (h2 : Keeps s0 x2) : KeepsH s0 (@execUpg x0 x1 x2) := by
  unfold execUpg
  with_reducible repeat' (first
      | assumption | apply State.ownReq_keeps | apply KeepsH.nextI)

theorem execWb_keeps {s0 : State} {x0} {x1} {x2} {x3} (h3 : Keeps s0 x3) : KeepsH s0 (@execWb x0 x1 x2 x3) := by
  unfold execWb
  with_reducible repeat' (first
      | assumption | apply State.wroteHome_keeps | apply State.evict_keeps | apply State.say_keeps
      | apply State.updCore_keeps | apply State.setBits_keeps | apply State.sfShare_keeps | apply State.slicePut_keeps
      | apply KeepsH.nextI | split | (fail_if_no_progress extract_lets) | (fail_if_no_progress apply Keeps.mkU))

theorem execWback_keeps {s0 : State} {x0} {x1} {x2} (h2 : Keeps s0 x2) : KeepsH s0 (@execWback x0 x1 x2) := by
  unfold execWback
  with_reducible repeat' (first
      | assumption | apply State.consume_keeps | apply KeepsH.nextI)

theorem execWru_keeps {s0 : State} {x0} {x1} {x2} {x3} (h3 : Keeps s0 x3) : KeepsH s0 (@execWru x0 x1 x2 x3) := by
  unfold execWru
  with_reducible repeat' (first
      | assumption | apply State.request_keeps | apply KeepsH.nextI)

end Sys2Proof.Machine
end

