-- ==== Sys2Proof/Laws/MeshKeeps.lean ====
section
/-!
SUPPORT. Laws/MeshKeeps.lean: what Machine/Mesh.lean leaves alone: each operation and meaning of it keeps the queue, the parts, the clock and the
canonical form of memory (`Keeps`).
-/
set_option linter.all false
namespace Sys2Proof.Machine

theorem State.commitSend_keeps {s0 : State} {x0} {x1} (h0 : Keeps s0 x0) : Keeps s0 (@State.commitSend x0 x1) := by
  unfold State.commitSend
  with_reducible repeat' (first
      | assumption | apply State.wr_keeps | (fail_if_no_progress apply Keeps.mkU))

theorem State.commitGo_keeps {s0 : State} {x0} {x1} (h0 : Keeps s0 x0) : Keeps s0 (@State.commitGo x0 x1) := by
  unfold State.commitGo
  with_reducible repeat' (first
      | assumption | apply State.commitSend_keeps | apply State.wr_keeps | apply Keeps.ite)

theorem State.dack_keeps {s0 : State} {x0} {x1} {x2} {x3} (h0 : Keeps s0 x0) : Keeps s0 (@State.dack x0 x1 x2 x3) := by
  unfold State.dack
  with_reducible repeat' (first
      | assumption | (fail_if_no_progress apply Keeps.mkU))

theorem State.dataDue_keeps {s0 : State} {x0} {x1} {x2} {x3} (h0 : Keeps s0 x0) : Keeps s0 (@State.dataDue x0 x1 x2 x3) := by
  unfold State.dataDue
  with_reducible repeat' (first
      | assumption | (fail_if_no_progress apply Keeps.mkU))

theorem State.meshLast_keeps {s0 : State} {x0} {x1} {x2} {x3} {x4} (h0 : Keeps s0 x0) : Keeps s0 (@State.meshLast x0 x1 x2 x3 x4) := by
  unfold State.meshLast
  with_reducible repeat' (first
      | assumption | apply State.wrs_keeps)

theorem State.dataBad_keeps {s0 : State} {x0} {x1} {x2} {x3} {x4} (h0 : Keeps s0 x0) : Keeps s0 (@State.dataBad x0 x1 x2 x3 x4) := by
  unfold State.dataBad
  with_reducible repeat' (first
      | assumption | apply State.bump_keeps | apply State.dataDue_keeps | apply State.meshLast_keeps | apply State.ash_keeps
      | apply State.setPoison_keeps | apply Keeps.ite | (fail_if_no_progress apply Keeps.mkU))

theorem State.xPut_keeps {s0 : State} {x0} {x1} {x2} {x3} (h0 : Keeps s0 x0) : Keeps s0 (@State.xPut x0 x1 x2 x3) := by
  unfold State.xPut
  with_reducible repeat' (first
      | assumption | (fail_if_no_progress apply Keeps.mkU))

theorem State.eject_keeps {s0 : State} {x0} {x1} {x2} {x3} {x4} {x5} (h0 : Keeps s0 x0) : Keeps s0 (@State.eject x0 x1 x2 x3 x4 x5) := by
  unfold State.eject
  with_reducible repeat' (first
      | assumption | apply State.xPut_keeps | apply State.dataBad_keeps | apply State.dataDue_keeps | apply Keeps.ite | split)

theorem State.newTxid_keeps {s0 : State} {x0} {x1} {x2} {x3} (h0 : Keeps s0 x0) : Keeps s0 (@State.newTxid x0 x1 x2 x3).2 := by
  unfold State.newTxid
  with_reducible repeat' (first
      | assumption | (fail_if_no_progress apply Keeps.mkU))

theorem State.replayKeep_keeps {s0 : State} {x0} {x1} {x2} {x3} (h0 : Keeps s0 x0) : Keeps s0 (@State.replayKeep x0 x1 x2 x3) := by
  unfold State.replayKeep
  with_reducible repeat' (first
      | assumption | apply Keeps.ite | (fail_if_no_progress apply Keeps.mkU))

theorem State.setIn_keeps {s0 : State} {x0} {x1} {x2} {x3} {x4} {x5} (h0 : Keeps s0 x0) : Keeps s0 (@State.setIn x0 x1 x2 x3 x4 x5) := by
  unfold State.setIn
  with_reducible repeat' (first
      | assumption | (fail_if_no_progress apply Keeps.mkU))

theorem State.setMlink_keeps {s0 : State} {x0} {x1} {x2} {x3} {x4} (h0 : Keeps s0 x0) : Keeps s0 (@State.setMlink x0 x1 x2 x3 x4) := by
  unfold State.setMlink
  with_reducible repeat' (first
      | assumption | (fail_if_no_progress apply Keeps.mkU))

theorem execArbCommitDone_keeps {s0 : State} {x0} {x1} (h1 : Keeps s0 x1) : KeepsH s0 (@execArbCommitDone x0 x1) := by
  unfold execArbCommitDone
  with_reducible repeat' (first
      | assumption | apply State.commitSend_keeps | apply State.wr_keeps | apply Keeps.ite | apply KeepsH.nextI)

theorem execArbStarvation_keeps {s0 : State} {x0} {x1} {x2} {x3} {x4} (h4 : Keeps s0 x4) : KeepsH s0 (@execArbStarvation x0 x1 x2 x3 x4) := by
  unfold execArbStarvation
  with_reducible repeat' (first
      | assumption | apply State.bump_keeps | apply State.sysVector_keeps | apply State.wrs_keeps | apply Keeps.ite
      | apply KeepsH.nextI | (fail_if_no_progress apply Keeps.mkU))

theorem execBridgeLaneRepair_keeps {s0 : State} {x0} {x1} {x2} {x3} (h3 : Keeps s0 x3) : KeepsH s0 (@execBridgeLaneRepair x0 x1 x2 x3) := by
  unfold execBridgeLaneRepair
  with_reducible repeat' (first
      | assumption | apply State.setMlink_keeps | apply Keeps.ite | apply KeepsH.nextI)

theorem execBridgeRepairDone_keeps {s0 : State} {x0} {x1} {x2} {x3} {x4} (h4 : Keeps s0 x4) : KeepsH s0 (@execBridgeRepairDone x0 x1 x2 x3 x4) := by
  unfold execBridgeRepairDone
  with_reducible repeat' (first
      | assumption | apply State.socketFail_keeps | apply State.bump_keeps | apply State.setMlink_keeps
      | apply State.meshLast_keeps | apply State.ash_keeps | apply Keeps.ite | apply KeepsH.nextI)

theorem execDack_keeps {s0 : State} {x0} {x1} {x2} {x3} (h3 : Keeps s0 x3) : KeepsH s0 (@execDack x0 x1 x2 x3) := by
  unfold execDack
  with_reducible repeat' (first
      | assumption | apply State.dack_keeps | apply Keeps.ite | apply KeepsH.nextI)

theorem execDackTimer_keeps {s0 : State} {x0} {x1} {x2} {x3} (h3 : Keeps s0 x3) : KeepsH s0 (@execDackTimer x0 x1 x2 x3) := by
  unfold execDackTimer
  with_reducible repeat' (first
      | assumption | apply State.dack_keeps | apply KeepsH.nextI)

theorem execDnak_keeps {s0 : State} {x0} {x1} {x2} {x3} (h3 : Keeps s0 x3) : KeepsH s0 (@execDnak x0 x1 x2 x3) := by
  unfold execDnak
  with_reducible repeat' (first
      | assumption | apply State.setIn_keeps | apply KeepsH.nextI | split | (fail_if_no_progress extract_lets)
      | (fail_if_no_progress apply Keeps.mkU))

theorem execFlitArrival_keeps {s0 : State} {x0} {x1} {x2} {x3} {x4} {x5} {x6} {x7} {x8} (h8 : Keeps s0 x8) : KeepsH s0 (@execFlitArrival x0 x1 x2 x3 x4 x5 x6 x7 x8) := by
  unfold execFlitArrival
  with_reducible repeat' (first
      | assumption | apply State.bump_keeps | apply State.eject_keeps | apply State.newTxid_keeps
      | apply State.replayKeep_keeps | apply State.setMlink_keeps | apply State.meshLast_keeps | apply State.setIn_keeps
      | apply KeepsH.nextI | split | (fail_if_no_progress extract_lets) | (fail_if_no_progress apply Keeps.mkU))

theorem execMeshLinkFailing_keeps {s0 : State} {x0} {x1} {x2} {x3} (h3 : Keeps s0 x3) : KeepsH s0 (@execMeshLinkFailing x0 x1 x2 x3) := by
  unfold execMeshLinkFailing
  with_reducible repeat' (first
      | assumption | apply State.socketFail_keeps | apply State.setMlink_keeps | apply State.meshLast_keeps | apply Keeps.ite
      | apply KeepsH.nextI)

theorem execShadowCommitArrival_keeps {s0 : State} {x0} {x1} {x2} {x3} (h3 : Keeps s0 x3) : KeepsH s0 (@execShadowCommitArrival x0 x1 x2 x3) := by
  unfold execShadowCommitArrival
  try dsimp only
  with_reducible repeat' (first
      | assumption | apply State.commitBlk_keeps | apply KeepsH.nextI | split | (fail_if_no_progress apply Keeps.mkU))

end Sys2Proof.Machine
end

