-- ==== Sys2Proof/Laws/ChimKeeps.lean ====
section
/-!
SUPPORT. Laws/ChimKeeps.lean: what Machine/Chim.lean leaves alone: each operation and meaning of it keeps the queue, the parts, the clock and the
canonical form of memory (`Keeps`).
-/
set_option linter.all false
namespace Sys2Proof.Machine

theorem State.branchAck_keeps {s0 : State} {x0} {x1} {x2} {x3} (h0 : Keeps s0 x0) : Keeps s0 (@State.branchAck x0 x1 x2 x3) := by
  unfold State.branchAck
  with_reducible repeat' (first
      | assumption | (fail_if_no_progress apply Keeps.mkU))

theorem State.castAt_keeps {s0 : State} {x0} {x1} {x2} {x3} {x4} (h0 : Keeps s0 x0) : Keeps s0 (@State.castAt x0 x1 x2 x3 x4) := by
  unfold State.castAt
  with_reducible repeat' (first
      | assumption | intro _ | apply State.xPut_keeps | apply Keeps.fold | (fail_if_no_progress apply Keeps.mkU))

theorem State.chimApply_keeps {s0 : State} {x0} {x1} (h0 : Keeps s0 x0) : Keeps s0 (@State.chimApply x0 x1) := by
  unfold State.chimApply
  with_reducible repeat' (first
      | assumption | apply State.commitBlk_keeps)

theorem State.recordAchk_keeps {s0 : State} {x0} {x1} {x2} (h0 : Keeps s0 x0) : Keeps s0 (@State.recordAchk x0 x1 x2) := by
  unfold State.recordAchk
  try dsimp only
  with_reducible repeat' (first
      | assumption | apply State.wrs_keeps | split)

theorem State.cfgCommit_keeps {s0 : State} {x0} {x1} (h0 : Keeps s0 x0) : Keeps s0 (@State.cfgCommit x0 x1) := by
  unfold State.cfgCommit
  with_reducible repeat' (first
      | assumption | intro _ | apply State.chimApply_keeps | apply State.recordAchk_keeps | apply State.wrs_keeps
      | apply State.ash_keeps | apply State.wr_keeps | apply Keeps.ite | apply Keeps.fold | split
      | (fail_if_no_progress extract_lets) | (fail_if_no_progress apply Keeps.mkU))

theorem State.cfgGo_keeps {s0 : State} {x0} {x1} (h0 : Keeps s0 x0) : Keeps s0 (@State.cfgGo x0 x1) := by
  unfold State.cfgGo
  with_reducible repeat' (first
      | assumption | apply State.cfgCommit_keeps | apply State.wr_keeps | apply Keeps.ite
      | (fail_if_no_progress apply Keeps.mkU))

theorem State.cfgLate_keeps {s0 : State} {x0} {x1} (h0 : Keeps s0 x0) : Keeps s0 (@State.cfgLate x0 x1) := by
  unfold State.cfgLate
  with_reducible repeat' (first
      | assumption | apply State.cfgCommit_keeps | (fail_if_no_progress apply Keeps.mkU))

theorem State.flueAsh_keeps {s0 : State} {x0} {x1} {x2} {x3} {x4} (h0 : Keeps s0 x0) : Keeps s0 (@State.flueAsh x0 x1 x2 x3 x4) := by
  unfold State.flueAsh
  with_reducible repeat' (first
      | assumption | apply State.ash_keeps)

theorem State.holdRoutes_keeps {s0 : State} {x0} {x1} {x2} (h0 : Keeps s0 x0) : Keeps s0 (@State.holdRoutes x0 x1 x2) := by
  unfold State.holdRoutes
  with_reducible repeat' (first
      | assumption | intro _ | apply Keeps.ite | apply Keeps.fold | (fail_if_no_progress apply Keeps.mkU))

theorem State.newReroute_keeps {s0 : State} {x0} {x1} {x2} {x3} (h0 : Keeps s0 x0) : Keeps s0 (@State.newReroute x0 x1 x2 x3) := by
  unfold State.newReroute
  with_reducible repeat' (first
      | assumption | (fail_if_no_progress apply Keeps.mkU))

theorem State.flueFail_keeps {s0 : State} {x0} {x1} {x2} {x3} (h0 : Keeps s0 x0) : Keeps s0 (@State.flueFail x0 x1 x2 x3) := by
  unfold State.flueFail
  with_reducible repeat' (first
      | assumption | intro _ | apply State.wrIf_keeps | apply State.holdRoutes_keeps | apply State.flueAsh_keeps
      | apply State.wr_keeps | apply State.newReroute_keeps | apply Keeps.fold | split | (fail_if_no_progress extract_lets))

theorem State.setFlue_keeps {s0 : State} {x0} {x1} {x2} {x3} (h0 : Keeps s0 x0) : Keeps s0 (@State.setFlue x0 x1 x2 x3) := by
  unfold State.setFlue
  with_reducible repeat' (first
      | assumption | (fail_if_no_progress apply Keeps.mkU))

theorem State.retrain_keeps {s0 : State} {x0} {x1} {x2} (h0 : Keeps s0 x0) : Keeps s0 (@State.retrain x0 x1 x2) := by
  unfold State.retrain
  with_reducible repeat' (first
      | assumption | apply State.setFlue_keeps | apply State.wr_keeps | apply Keeps.ite)

theorem State.flueRestore_keeps {s0 : State} {x0} {x1} {x2} (h0 : Keeps s0 x0) : Keeps s0 (@State.flueRestore x0 x1 x2) := by
  unfold State.flueRestore
  with_reducible repeat' (first
      | assumption | apply State.retrain_keeps | apply Keeps.ite)

theorem State.fwDrop_keeps {s0 : State} {x0} {x1} {x2} {x3} (h0 : Keeps s0 x0) : Keeps s0 (@State.fwDrop x0 x1 x2 x3) := by
  unfold State.fwDrop
  with_reducible repeat' (first
      | assumption | apply State.bump_keeps | apply State.wrs_keeps | apply State.ash_keeps)

theorem State.keyEnd_keeps {s0 : State} {x0} {x1} {x2} {x3} (h0 : Keeps s0 x0) : Keeps s0 (@State.keyEnd x0 x1 x2 x3) := by
  unfold State.keyEnd
  with_reducible repeat' (first
      | assumption | apply State.setFlue_keeps | apply State.wr_keeps | apply Keeps.ite)

theorem State.laneEnd_keeps {s0 : State} {x0} {x1} {x2} {x3} (h0 : Keeps s0 x0) : Keeps s0 (@State.laneEnd x0 x1 x2 x3) := by
  unfold State.laneEnd
  with_reducible repeat' (first
      | assumption | apply State.bump_keeps | apply State.setFlue_keeps | apply State.flueAsh_keeps | apply State.wr_keeps)

theorem State.updReroute_keeps {s0 : State} {x0} {x1} {x2} (h0 : Keeps s0 x0) : Keeps s0 (@State.updReroute x0 x1 x2) := by
  unfold State.updReroute
  with_reducible repeat' (first
      | assumption | (fail_if_no_progress apply Keeps.mkU))

theorem State.routeAborts_keeps {s0 : State} {x0} {x1} {x2} (h0 : Keeps s0 x0) : Keeps s0 (@State.routeAborts x0 x1 x2) := by
  unfold State.routeAborts
  with_reducible repeat' (first
      | assumption | intro _ | apply State.abortRegion_keeps | apply Keeps.ite | apply Keeps.fold | split)

theorem State.linkNews_keeps {s0 : State} {x0} {x1} {x2} {x3} (h0 : Keeps s0 x0) : Keeps s0 (@State.linkNews x0 x1 x2 x3) := by
  unfold State.linkNews
  with_reducible repeat' (first
      | assumption | apply State.actBegin_keeps | apply State.updReroute_keeps | apply State.routeAborts_keeps
      | apply State.wr_keeps | split)

theorem State.partRuns_keeps {s0 : State} {x0} {x1} {x2} (h0 : Keeps s0 x0) : Keeps s0 (@State.partRuns x0 x1 x2) := by
  unfold State.partRuns
  with_reducible repeat' (first
      | assumption | intro _ | apply State.wrs_keeps | apply State.encrypted_keeps | apply State.wr_keeps | apply Keeps.ite
      | apply Keeps.fold | (fail_if_no_progress apply Keeps.mkU))

theorem State.reReach_keeps {s0 : State} {x0} {x1} (h0 : Keeps s0 x0) : Keeps s0 (@State.reReach x0 x1) := by
  unfold State.reReach
  with_reducible repeat' (first
      | assumption | intro _ | apply State.wr_keeps | apply Keeps.ite | apply Keeps.fold
      | (fail_if_no_progress apply Keeps.mkU))

theorem State.resend_keeps {s0 : State} {x0} {x1} {x2} {x3} {x4} (h0 : Keeps s0 x0) : Keeps s0 (@State.resend x0 x1 x2 x3 x4) := by
  unfold State.resend
  with_reducible repeat' (first
      | assumption | apply State.exempt_keeps | split | (fail_if_no_progress apply Keeps.mkU))

theorem State.resendAll_keeps {s0 : State} {x0} {x1} (h0 : Keeps s0 x0) : Keeps s0 (@State.resendAll x0 x1) := by
  unfold State.resendAll
  with_reducible repeat' (first
      | assumption | intro _ | apply State.resend_keeps | apply Keeps.ite | apply Keeps.fold
      | (fail_if_no_progress apply Keeps.mkU))

theorem State.startFails_keeps {s0 : State} {x0} {x1} {x2} {x3} (h0 : Keeps s0 x0) : Keeps s0 (@State.startFails x0 x1 x2 x3) := by
  unfold State.startFails
  with_reducible repeat' (first
      | assumption | apply State.wrs_keeps | apply State.wr_keeps | (fail_if_no_progress apply Keeps.mkU))

theorem State.syncTo_keeps {s0 : State} {x0} {x1} {x2} (h0 : Keeps s0 x0) : Keeps s0 (@State.syncTo x0 x1 x2) := by
  unfold State.syncTo
  with_reducible repeat' (first
      | assumption | apply State.bump_keeps | apply State.wr_keeps | apply Keeps.ite | (fail_if_no_progress apply Keeps.mkU))

theorem State.toMesh_keeps {s0 : State} {x0} {x1} {x2} (h0 : Keeps s0 x0) : Keeps s0 (@State.toMesh x0 x1 x2) := by
  unfold State.toMesh
  with_reducible repeat' (first
      | assumption | apply State.eject_keeps | apply State.replayKeep_keeps | apply State.setIn_keeps | apply Keeps.ite)

theorem State.txRelease_keeps {s0 : State} {x0} {x1} {x2} {x3} {x4} {x5} (h5 : Keeps s0 x5) : Keeps s0 (@State.txRelease x0 x1 x2 x3 x4 x5) := by
  induction x4 generalizing x0 x1 x2 x3 x5 with
  | zero => (unfold State.txRelease; first | assumption | constructor; assumption | constructor | exact h5)
  | succ n ih =>
    unfold State.txRelease
    try dsimp only
    with_reducible repeat' (first
        | assumption | apply ih | apply State.toMesh_keeps | split | (fail_if_no_progress apply Keeps.mkU))

theorem State.txAgain_keeps {s0 : State} {x0} {x1} {x2} (h0 : Keeps s0 x0) : Keeps s0 (@State.txAgain x0 x1 x2) := by
  unfold State.txAgain
  with_reducible repeat' (first
      | assumption | intro _ | apply State.txRelease_keeps | apply Keeps.fold)

theorem State.xTake_keeps {s0 : State} {x0} {x1} {x2} {x3} (h0 : Keeps s0 x0) : Keeps s0 (@State.xTake x0 x1 x2 x3) := by
  unfold State.xTake
  with_reducible repeat' (first
      | assumption | (fail_if_no_progress apply Keeps.mkU))

theorem State.txArrive_keeps {s0 : State} {x0} {x1} {x2} {x3} (h0 : Keeps s0 x0) : Keeps s0 (@State.txArrive x0 x1 x2 x3) := by
  unfold State.txArrive
  with_reducible repeat' (first
      | assumption | apply State.txRelease_keeps | apply State.toMesh_keeps | apply State.bump_keeps
      | apply State.xTake_keeps | apply Keeps.ite | (fail_if_no_progress apply Keeps.mkU))

theorem execActionEndAbandon_keeps {s0 : State} {x0} {x1} {x2} (h2 : Keeps s0 x2) : KeepsH s0 (@execActionEndAbandon x0 x1 x2) := by
  unfold execActionEndAbandon
  with_reducible repeat' (first
      | assumption | intro _ | apply State.updCore_keeps | apply State.drainList_keeps | apply Keeps.ite | apply KeepsH.nextI
      | apply Keeps.fold | (fail_if_no_progress apply Keeps.mkU))

theorem execCfgdigest_keeps {s0 : State} {x0} {x1} {x2} (h2 : Keeps s0 x2) : KeepsH s0 (@execCfgdigest x0 x1 x2) := by
  unfold execCfgdigest
  with_reducible repeat' (first
      | assumption | apply State.startFails_keeps | apply Keeps.ite | apply KeepsH.nextI
      | (fail_if_no_progress apply Keeps.mkU))

theorem execCodewordReceive_keeps {s0 : State} {x0} {x1} {x2} {x3} {x4} {x5} {x6} (h6 : Keeps s0 x6) : KeepsH s0 (@execCodewordReceive x0 x1 x2 x3 x4 x5 x6) := by
  unfold execCodewordReceive
  with_reducible repeat' (first
      | assumption | apply State.bump_keeps | apply State.setFlue_keeps | apply State.wr_keeps | apply Keeps.ite
      | apply KeepsH.nextI | (fail_if_no_progress apply Keeps.mkU))

theorem execCombinedAck_keeps {s0 : State} {x0} {x1} {x2} (h2 : Keeps s0 x2) : KeepsH s0 (@execCombinedAck x0 x1 x2) := by
  unfold execCombinedAck
  with_reducible repeat' (first
      | assumption | apply State.xPut_keeps | apply State.say_keeps | apply KeepsH.nextI | split
      | (fail_if_no_progress extract_lets) | (fail_if_no_progress apply Keeps.mkU))

theorem execControlSlotReceive_keeps {s0 : State} {x0} {x1} {x2} {x3} {x4} {x5} {x6} {x7} {x8} {x9} {x10} (h10 : Keeps s0 x10) : KeepsH s0 (@execControlSlotReceive x0 x1 x2 x3 x4 x5 x6 x7 x8 x9 x10) := by
  unfold execControlSlotReceive
  with_reducible repeat' (first
      | assumption | apply State.bump_keeps | apply State.setFlue_keeps | apply State.syncTo_keeps | apply State.wr_keeps
      | apply Keeps.ite | apply KeepsH.nextI | split)

theorem execCrossbarFlitArrival_keeps {s0 : State} {x0} {x1} {x2} (h2 : Keeps s0 x2) : KeepsH s0 (@execCrossbarFlitArrival x0 x1 x2) := by
  unfold execCrossbarFlitArrival
  with_reducible repeat' (first
      | assumption | apply State.toMesh_keeps | apply State.xPut_keeps | apply State.fwDrop_keeps
      | apply State.branchAck_keeps | apply State.txAgain_keeps | apply State.txArrive_keeps | apply State.xTake_keeps
      | apply KeepsH.nextI | split)

theorem execFlueControlTimeout_keeps {s0 : State} {x0} {x1} {x2} (h2 : Keeps s0 x2) : KeepsH s0 (@execFlueControlTimeout x0 x1 x2) := by
  unfold execFlueControlTimeout
  with_reducible repeat' (first
      | assumption | apply State.flueFail_keeps | apply KeepsH.nextI)

theorem execFlueFailure_keeps {s0 : State} {x0} {x1} {x2} (h2 : Keeps s0 x2) : KeepsH s0 (@execFlueFailure x0 x1 x2) := by
  unfold execFlueFailure
  with_reducible repeat' (first
      | assumption | apply State.flueFail_keeps | apply KeepsH.nextI)

theorem execFlueKeyAgreed_keeps {s0 : State} {x0} {x1} {x2} {x3} (h3 : Keeps s0 x3) : KeepsH s0 (@execFlueKeyAgreed x0 x1 x2 x3) := by
  unfold execFlueKeyAgreed
  with_reducible repeat' (first
      | assumption | apply State.keyEnd_keeps | apply Keeps.ite | apply KeepsH.nextI)

theorem execFlueKeyEpoch_keeps {s0 : State} {x0} {x1} {x2} (h2 : Keeps s0 x2) : KeepsH s0 (@execFlueKeyEpoch x0 x1 x2) := by
  unfold execFlueKeyEpoch
  with_reducible repeat' (first
      | assumption | apply State.setFlue_keeps | apply Keeps.ite | apply KeepsH.nextI)

theorem execFlueTrained_keeps {s0 : State} {x0} {x1} {x2} {x3} (h3 : Keeps s0 x3) : KeepsH s0 (@execFlueTrained x0 x1 x2 x3) := by
  unfold execFlueTrained
  with_reducible repeat' (first
      | assumption | apply State.bump_keeps | apply State.setFlue_keeps | apply State.wrs_keeps | apply State.wr_keeps
      | apply State.newReroute_keeps | apply Keeps.ite | apply KeepsH.nextI)

theorem execHeldout_keeps {s0 : State} {x0} {x1} {x2} {x3} (h3 : Keeps s0 x3) : KeepsH s0 (@execHeldout x0 x1 x2 x3) := by
  unfold execHeldout
  with_reducible repeat' (first
      | assumption | apply State.wrs_keeps | apply State.mgcReason_keeps | apply KeepsH.nextI)

theorem execIdent_keeps {s0 : State} {x0} {x1} {x2} {x3} {x4} {x5} (h5 : Keeps s0 x5) : KeepsH s0 (@execIdent x0 x1 x2 x3 x4 x5) := by
  unfold execIdent
  with_reducible repeat' (first
      | assumption | apply State.wrIf_keeps | apply State.wr_keeps | apply Keeps.ite | apply KeepsH.nextI)

theorem execIdentTableComplete_keeps {s0 : State} {x0} {x1} {x2} (h2 : Keeps s0 x2) : KeepsH s0 (@execIdentTableComplete x0 x1 x2) := by
  unfold execIdentTableComplete
  with_reducible repeat' (first
      | assumption | intro _ | apply State.wr_keeps | apply State.mgcReason_keeps | apply Keeps.ite | apply KeepsH.nextI
      | apply Keeps.fold | split)

theorem execLane_keeps {s0 : State} {x0} {x1} {x2} (h2 : Keeps s0 x2) : KeepsH s0 (@execLane x0 x1 x2) := by
  unfold execLane
  with_reducible repeat' (first
      | assumption | apply State.laneEnd_keeps | apply KeepsH.nextI | split)

theorem execLaneFailing_keeps {s0 : State} {x0} {x1} {x2} {x3} (h3 : Keeps s0 x3) : KeepsH s0 (@execLaneFailing x0 x1 x2 x3) := by
  unfold execLaneFailing
  with_reducible repeat' (first
      | assumption | apply State.setFlue_keeps | apply State.flueFail_keeps | apply Keeps.ite | apply KeepsH.nextI)

theorem execLinkdown_keeps {s0 : State} {x0} {x1} {x2} (h2 : Keeps s0 x2) : KeepsH s0 (@execLinkdown x0 x1 x2) := by
  unfold execLinkdown
  with_reducible repeat' (first
      | assumption | apply State.linkNews_keeps | apply KeepsH.nextI)

theorem execLinkup_keeps {s0 : State} {x0} {x1} {x2} (h2 : Keeps s0 x2) : KeepsH s0 (@execLinkup x0 x1 x2) := by
  unfold execLinkup
  with_reducible repeat' (first
      | assumption | apply State.linkNews_keeps | apply KeepsH.nextI)

theorem execMulticastSnoop_keeps {s0 : State} {x0} {x1} {x2} {x3} {x4} {x5} (h5 : Keeps s0 x5) : KeepsH s0 (@execMulticastSnoop x0 x1 x2 x3 x4 x5) := by
  unfold execMulticastSnoop
  with_reducible repeat' (first
      | assumption | apply State.fwDrop_keeps | apply State.castAt_keeps | apply State.xTake_keeps | apply KeepsH.nextI
      | split)

theorem execPartitionKeysAgreed_keeps {s0 : State} {x0} {x1} {x2} {x3} (h3 : Keeps s0 x3) : KeepsH s0 (@execPartitionKeysAgreed x0 x1 x2 x3) := by
  unfold execPartitionKeysAgreed
  with_reducible repeat' (first
      | assumption | intro _ | apply State.startFails_keeps | apply State.keyEnd_keeps | apply State.partRuns_keeps
      | apply Keeps.ite | apply KeepsH.nextI | apply Keeps.fold)

theorem execRerouteAdopt_keeps {s0 : State} {x0} {x1} {x2} (h2 : Keeps s0 x2) : KeepsH s0 (@execRerouteAdopt x0 x1 x2) := by
  unfold execRerouteAdopt
  with_reducible repeat' (first
      | assumption | apply State.reReach_keeps | apply State.resendAll_keeps | apply State.updReroute_keeps
      | apply KeepsH.nextI | split | (fail_if_no_progress apply Keeps.mkU))

theorem execRerouteDone_keeps {s0 : State} {x0} {x1} (h1 : Keeps s0 x1) : KeepsH s0 (@execRerouteDone x0 x1) := by
  unfold execRerouteDone
  with_reducible repeat' (first
      | assumption | intro _ | apply State.cfgLate_keeps | apply State.wr_keeps | apply Keeps.ite | apply KeepsH.nextI
      | apply Keeps.fold | split | (fail_if_no_progress apply Keeps.mkU))

theorem execRerouteReplayResent_keeps {s0 : State} {x0} {x1} (h1 : Keeps s0 x1) : KeepsH s0 (@execRerouteReplayResent x0 x1) := by
  unfold execRerouteReplayResent
  with_reducible repeat' (first
      | assumption | intro _ | apply State.setFlue_keeps | apply State.resend_keeps | apply State.updReroute_keeps
      | apply KeepsH.nextI | apply Keeps.fold | split)

theorem execResync_keeps {s0 : State} {x0} {x1} {x2} {x3} {x4} (h4 : Keeps s0 x4) : KeepsH s0 (@execResync x0 x1 x2 x3 x4) := by
  unfold execResync
  with_reducible repeat' (first
      | assumption | apply State.bump_keeps | apply KeepsH.nextI | (fail_if_no_progress apply Keeps.mkU))

theorem execSyncMasterChange_keeps {s0 : State} {x0} {x1} (h1 : Keeps s0 x1) : KeepsH s0 (@execSyncMasterChange x0 x1) := by
  unfold execSyncMasterChange
  with_reducible repeat' (first
      | assumption | apply State.wrs_keeps | apply Keeps.ite | apply KeepsH.nextI | split)

end Sys2Proof.Machine
end

