-- ==== Sys2Proof/Laws/PmuKeeps.lean ====
section
/-!
SUPPORT. Laws/PmuKeeps.lean: what Machine/Pmu.lean leaves alone: each operation and meaning of it keeps the queue, the parts, the clock and the
canonical form of memory (`Keeps`).
-/
set_option linter.all false
namespace Sys2Proof.Machine

theorem State.bwMark_keeps {s0 : State} {x0} {x1} {x2} {x3} {x4} {x5} (h0 : Keeps s0 x0) : Keeps s0 (@State.bwMark x0 x1 x2 x3 x4 x5) := by
  unfold State.bwMark
  with_reducible repeat' (first
      | assumption | (fail_if_no_progress apply Keeps.mkU))

theorem State.bwSet_keeps {s0 : State} {x0} {x1} {x2} {x3} {x4} {x5} (h0 : Keeps s0 x0) : Keeps s0 (@State.bwSet x0 x1 x2 x3 x4 x5) := by
  unfold State.bwSet
  with_reducible repeat' (first
      | assumption | apply State.updCore_keeps | apply Keeps.ite | (fail_if_no_progress apply Keeps.mkU))

theorem State.pmuClear_keeps {s0 : State} {x0} {x1} {x2} (h0 : Keeps s0 x0) : Keeps s0 (@State.pmuClear x0 x1 x2) := by
  unfold State.pmuClear
  with_reducible repeat' (first
      | assumption | apply State.updCore_keeps)

theorem State.snapCore_keeps {s0 : State} {x0} {x1} {x2} (h0 : Keeps s0 x0) : Keeps s0 (@State.snapCore x0 x1 x2) := by
  unfold State.snapCore
  with_reducible repeat' (first
      | assumption | intro _ | apply State.wrIf_keeps | apply State.wr_keeps | apply Keeps.ite | apply Keeps.fold
      | (fail_if_no_progress apply Keeps.mkU))

theorem State.thrZero_keeps {s0 : State} {x0} {x1} {x2} (h0 : Keeps s0 x0) : Keeps s0 (@State.thrZero x0 x1 x2) := by
  unfold State.thrZero
  with_reducible repeat' (first
      | assumption | apply State.updCore_keeps)

theorem execBwWindowEnd_keeps {s0 : State} {x0} {x1} {x2} {x3} {x4} (h4 : Keeps s0 x4) : KeepsH s0 (@execBwWindowEnd x0 x1 x2 x3 x4) := by
  unfold execBwWindowEnd
  with_reducible repeat' (first
      | assumption | apply State.bwSet_keeps | apply Keeps.ite | apply KeepsH.nextI | (fail_if_no_progress apply Keeps.mkU))

theorem execBwctlWrite_keeps {s0 : State} {x0} {x1} {x2} {x3} {x4} {x5} {x6} {x7} (h7 : Keeps s0 x7) : KeepsH s0 (@execBwctlWrite x0 x1 x2 x3 x4 x5 x6 x7) := by
  unfold execBwctlWrite
  with_reducible repeat' (first
      | assumption | apply State.wrs_keeps | apply State.bwMark_keeps | apply Keeps.ite | apply KeepsH.nextI)

theorem execCounterWrap_keeps {s0 : State} {x0} {x1} {x2} (h2 : Keeps s0 x2) : KeepsH s0 (@execCounterWrap x0 x1 x2) := by
  unfold execCounterWrap
  with_reducible repeat' (first
      | assumption | apply State.updCore_keeps | apply Keeps.ite | apply KeepsH.nextI)

theorem execPmuSnapshot_keeps {s0 : State} {x0} {x1} (h1 : Keeps s0 x1) : KeepsH s0 (@execPmuSnapshot x0 x1) := by
  unfold execPmuSnapshot
  with_reducible repeat' (first
      | assumption | intro _ | apply State.useFree_keeps | apply State.snapCore_keeps | apply State.wr_keeps
      | apply Keeps.ite | apply KeepsH.nextI | apply Keeps.fold | (fail_if_no_progress apply Keeps.mkU))

theorem execSampleFire_keeps {s0 : State} {x0} {x1} {x2} {x3} (h3 : Keeps s0 x3) : KeepsH s0 (@execSampleFire x0 x1 x2 x3) := by
  unfold execSampleFire
  with_reducible repeat' (first
      | assumption | apply State.bump_keeps | apply State.sysVector_keeps | apply State.useFree_keeps | apply State.wrs_keeps
      | apply Keeps.ite | apply KeepsH.nextI)

theorem execThrctlWrite_keeps {s0 : State} {x0} {x1} {x2} {x3} {x4} {x5} (h5 : Keeps s0 x5) : KeepsH s0 (@execThrctlWrite x0 x1 x2 x3 x4 x5) := by
  unfold execThrctlWrite
  with_reducible repeat' (first
      | assumption | apply State.wrs_keeps | apply State.thrZero_keeps | apply Keeps.ite | apply KeepsH.nextI)

theorem execUnitCounterWrap_keeps {s0 : State} {x0} {x1} {x2} {x3} {x4} (h4 : Keeps s0 x4) : KeepsH s0 (@execUnitCounterWrap x0 x1 x2 x3 x4) := by
  unfold execUnitCounterWrap
  with_reducible repeat' (first
      | assumption | apply State.sysVector_keeps | apply State.wr_keeps | apply Keeps.ite | apply KeepsH.nextI | split
      | (fail_if_no_progress apply Keeps.mkU))

end Sys2Proof.Machine
end

