-- ==== Sys2Proof/Laws/SrOpsKeeps.lean ====
section
/-!
SUPPORT. Laws/SrOpsKeeps.lean: what Machine/SrOps.lean leaves alone: each operation and meaning of it keeps the queue, the parts, the clock and the
canonical form of memory (`Keeps`).
-/
set_option linter.all false
namespace Sys2Proof.Machine

theorem State.dropRights_keeps {s0 : State} {x0} {x1} {x2} {x3} (h0 : Keeps s0 x0) : Keeps s0 (@State.dropRights x0 x1 x2 x3) := by
  unfold State.dropRights
  with_reducible repeat' (first
      | assumption | apply State.setSr_keeps)

theorem State.thrLive_keeps {s0 : State} {x0} {x1} {x2} (h0 : Keeps s0 x0) : Keeps s0 (@State.thrLive x0 x1 x2).2 := by
  unfold State.thrLive
  with_reducible repeat' (first
      | assumption | apply State.useFree_keeps | apply Keeps.ite2)

theorem State.pmuLive_keeps {s0 : State} {x0} {x1} {x2} (h0 : Keeps s0 x0) : Keeps s0 (@State.pmuLive x0 x1 x2).2 := by
  unfold State.pmuLive
  with_reducible repeat' (first
      | assumption | apply State.useFree_keeps | apply Keeps.ite2)

theorem State.pmdata_keeps {s0 : State} {x0} {x1} (h0 : Keeps s0 x0) : Keeps s0 (@State.pmdata x0 x1).2 := by
  unfold State.pmdata
  with_reducible repeat' (first
      | assumption | apply State.thrLive_keeps | apply State.pmuLive_keeps | split | (fail_if_no_progress extract_lets))

theorem State.sendIpi_keeps {s0 : State} {x0} {x1} {x2} (h0 : Keeps s0 x0) : Keeps s0 (@State.sendIpi x0 x1 x2) := by
  unfold State.sendIpi
  with_reducible repeat' (first
      | assumption | apply State.bump_keeps | apply Keeps.ite | split | (fail_if_no_progress apply Keeps.mkU))

theorem State.srdVal_keeps {s0 : State} {x0} {x1} {x2} (h0 : Keeps s0 x0) : Keeps s0 (@State.srdVal x0 x1 x2).2 := by
  unfold State.srdVal
  with_reducible repeat' (first
      | assumption | apply State.pmdata_keeps | apply Keeps.ite2)

theorem State.writePmsel_keeps {s0 : State} {x0} {x1} {x2} (h0 : Keeps s0 x0) : Keeps s0 (@State.writePmsel x0 x1 x2) := by
  unfold State.writePmsel
  with_reducible repeat' (first
      | assumption | apply State.setSr_keeps | apply State.pmuClear_keeps | apply Keeps.ite)

theorem State.swrDo_keeps {s0 : State} {x0} {x1} {x2} {x3} (h0 : Keeps s0 x0) : Keeps s0 (@State.swrDo x0 x1 x2 x3) := by
  unfold State.swrDo
  with_reducible repeat' (first
      | assumption | apply State.sendIpi_keeps | apply State.setSr_keeps | apply State.updCore_keeps
      | apply State.clearRstack_keeps | apply State.writePmsel_keeps | apply State.dropRights_keeps | apply Keeps.ite)

end Sys2Proof.Machine
end

