-- ==== Sys2Proof/Laws/DebugKeeps.lean ====
section
/-!
SUPPORT. Laws/DebugKeeps.lean: what Machine/Debug.lean leaves alone: each operation and meaning of it keeps the queue, the parts, the clock and the
canonical form of memory (`Keeps`).
-/
set_option linter.all false
namespace Sys2Proof.Machine

theorem State.accRead_keeps {s0 : State} {x0} {x1} {x2} {x3} (h0 : Keeps s0 x0) : KeepsO2 s0 (@State.accRead x0 x1 x2 x3) := by
  unfold State.accRead
  with_reducible repeat' (first
      | assumption | apply State.srdVal_keeps | apply KeepsO2.someI | apply KeepsO2.noneT | split)

theorem State.accKeyreq_keeps {s0 : State} {x0} {x1} {x2} (h0 : Keeps s0 x0) : KeepsO s0 (@State.accKeyreq x0 x1 x2) := by
  unfold State.accKeyreq
  with_reducible repeat' (first
      | assumption | apply State.xlateC_keeps | apply State.updCore_keeps | apply KeepsO.someI | apply KeepsO.noneT
      | refine KeepsX.okE ?_ (by assumption) | split)

theorem State.accWrite_keeps {s0 : State} {x0} {x1} {x2} {x3} {x4} (h0 : Keeps s0 x0) : KeepsO s0 (@State.accWrite x0 x1 x2 x3 x4) := by
  unfold State.accWrite
  with_reducible repeat' (first
      | assumption | apply State.swrDo_keeps | apply State.reharden_keeps | apply State.updCore_keeps
      | apply State.accKeyreq_keeps | apply KeepsO.someI | apply KeepsO.noneT | split)

theorem State.accGo_keeps {s0 : State} {x0} {x1} (h0 : Keeps s0 x0) : Keeps s0 (@State.accGo x0 x1) := by
  unfold State.accGo
  with_reducible repeat' (first
      | assumption | apply State.accRead_keeps | apply State.accWrite_keeps | apply State.wr_keeps | apply Keeps.ite
      | refine KeepsO.elim ?_ (by assumption) | refine KeepsO2.elim ?_ (by assumption) | split)

theorem State.haltNow_keeps {s0 : State} {x0} {x1} {x2} (h0 : Keeps s0 x0) : Keeps s0 (@State.haltNow x0 x1 x2) := by
  unfold State.haltNow
  with_reducible repeat' (first
      | assumption | apply State.abortRegion_keeps | apply State.updCore_keeps | apply State.wr_keeps | apply Keeps.ite)

theorem State.haltReq_keeps {s0 : State} {x0} {x1} (h0 : Keeps s0 x0) : Keeps s0 (@State.haltReq x0 x1) := by
  unfold State.haltReq
  with_reducible repeat' (first
      | assumption | apply State.wrIf_keeps | apply State.haltNow_keeps | apply State.wr_keeps | apply Keeps.ite)

theorem State.resume_keeps {s0 : State} {x0} {x1} (h0 : Keeps s0 x0) : Keeps s0 (@State.resume x0 x1) := by
  unfold State.resume
  with_reducible repeat' (first
      | assumption | apply State.wrs_keeps | apply Keeps.ite)

theorem State.stepReq_keeps {s0 : State} {x0} {x1} (h0 : Keeps s0 x0) : Keeps s0 (@State.stepReq x0 x1) := by
  unfold State.stepReq
  with_reducible repeat' (first
      | assumption | apply State.resume_keeps | apply State.updCore_keeps | apply Keeps.ite)

theorem State.traceSet_keeps {s0 : State} {x0} {x1} {x2} (h0 : Keeps s0 x0) : Keeps s0 (@State.traceSet x0 x1 x2) := by
  unfold State.traceSet
  with_reducible repeat' (first
      | assumption | apply State.trStamp_keeps | apply State.updCore_keeps | apply State.wr_keeps | apply Keeps.ite)

theorem execAccGo_keeps {s0 : State} {x0} {x1} {x2} (h2 : Keeps s0 x2) : KeepsH s0 (@execAccGo x0 x1 x2) := by
  unfold execAccGo
  with_reducible repeat' (first
      | assumption | apply State.accGo_keeps | apply Keeps.ite | apply KeepsH.nextI)

theorem execCoreHalt_keeps {s0 : State} {x0} {x1} (h1 : Keeps s0 x1) : KeepsH s0 (@execCoreHalt x0 x1) := by
  unfold execCoreHalt
  with_reducible repeat' (first
      | assumption | apply State.updCore_keeps | apply State.haltNow_keeps | apply State.wr_keeps | apply Keeps.ite
      | apply KeepsH.nextI)

theorem execHaltreqWrite_keeps {s0 : State} {x0} {x1} (h1 : Keeps s0 x1) : KeepsH s0 (@execHaltreqWrite x0 x1) := by
  unfold execHaltreqWrite
  with_reducible repeat' (first
      | assumption | apply State.haltReq_keeps | apply Keeps.ite | apply KeepsH.nextI)

theorem execResumeWrite_keeps {s0 : State} {x0} {x1} (h1 : Keeps s0 x1) : KeepsH s0 (@execResumeWrite x0 x1) := by
  unfold execResumeWrite
  with_reducible repeat' (first
      | assumption | apply State.resume_keeps | apply Keeps.ite | apply KeepsH.nextI)

theorem execStepWrite_keeps {s0 : State} {x0} {x1} (h1 : Keeps s0 x1) : KeepsH s0 (@execStepWrite x0 x1) := by
  unfold execStepWrite
  with_reducible repeat' (first
      | assumption | apply State.stepReq_keeps | apply Keeps.ite | apply KeepsH.nextI)

end Sys2Proof.Machine
end

