-- ==== Sys2Proof/Laws/MemChKeeps.lean ====
section
/-!
SUPPORT. Laws/MemChKeeps.lean: what Machine/MemCh.lean leaves alone: each operation and meaning of it keeps the queue, the parts, the clock and the
canonical form of memory (`Keeps`).
-/
set_option linter.all false
namespace Sys2Proof.Machine

theorem State.spareAsh_keeps {s0 : State} {x0} {x1} {x2} {x3} {x4} {x5} (h0 : Keeps s0 x0) : Keeps s0 (@State.spareAsh x0 x1 x2 x3 x4 x5) := by
  unfold State.spareAsh
  with_reducible repeat' (first
      | assumption | apply State.ash_keeps)

theorem State.setChan_keeps {s0 : State} {x0} {x1} {x2} {x3} (h0 : Keeps s0 x0) : Keeps s0 (@State.setChan x0 x1 x2 x3) := by
  unfold State.setChan
  with_reducible repeat' (first
      | assumption | (fail_if_no_progress apply Keeps.mkU))

theorem State.candidate_keeps {s0 : State} {x0} {x1} {x2} {x3} (h0 : Keeps s0 x0) : Keeps s0 (@State.candidate x0 x1 x2 x3) := by
  unfold State.candidate
  with_reducible repeat' (first
      | assumption | apply State.spareAsh_keeps | apply State.setChan_keeps | apply Keeps.ite)

theorem State.updChan_keeps {s0 : State} {x0} {x1} {x2} {x3} (h0 : Keeps s0 x0) : Keeps s0 (@State.updChan x0 x1 x2 x3) := by
  unfold State.updChan
  with_reducible repeat' (first
      | assumption | apply State.setChan_keeps)

theorem State.macTouch_keeps {s0 : State} {x0} {x1} {x2} {x3} {x4} (h0 : Keeps s0 x0) : Keeps s0 (@State.macTouch x0 x1 x2 x3 x4) := by
  unfold State.macTouch
  with_reducible repeat' (first
      | assumption | apply State.updChan_keeps | split)

theorem State.mcMeet_keeps {s0 : State} {x0} {x1} {x2} {x3} {x4} (h0 : Keeps s0 x0) : Keeps s0 (@State.mcMeet x0 x1 x2 x3 x4).1 := by
  unfold State.mcMeet
  with_reducible repeat' (first
      | assumption | apply State.macTouch_keeps | apply State.touch_keeps | split)

theorem State.mcLast_keeps {s0 : State} {x0} {x1} {x2} {x3} {x4} {x5} {x6} (h0 : Keeps s0 x0) : Keeps s0 (@State.mcLast x0 x1 x2 x3 x4 x5 x6) := by
  unfold State.mcLast
  with_reducible repeat' (first
      | assumption | apply State.wrs_keeps)

theorem State.mcAsh_keeps {s0 : State} {x0} {x1} {x2} {x3} {x4} {x5} {x6} (h0 : Keeps s0 x0) : Keeps s0 (@State.mcAsh x0 x1 x2 x3 x4 x5 x6) := by
  unfold State.mcAsh
  with_reducible repeat' (first
      | assumption | apply State.ash_keeps)

theorem State.mcFixed_keeps {s0 : State} {x0} {x1} {x2} {x3} {x4} {x5} {x6} {x7} (h0 : Keeps s0 x0) : Keeps s0 (@State.mcFixed x0 x1 x2 x3 x4 x5 x6 x7) := by
  unfold State.mcFixed
  with_reducible repeat' (first
      | assumption | apply State.bump_keeps | apply State.mcLast_keeps | apply State.updChan_keeps
      | apply State.candidate_keeps | apply State.wrs_keeps | apply State.mcAsh_keeps | apply Keeps.ite)

theorem State.mcDeliver_keeps {s0 : State} {x0} {x1} {x2} {x3} {x4} {x5} {x6} (h0 : Keeps s0 x0) : Keeps s0 (@State.mcDeliver x0 x1 x2 x3 x4 x5 x6) := by
  unfold State.mcDeliver
  with_reducible repeat' (first
      | assumption | (fail_if_no_progress apply Keeps.mkU))

theorem State.mcMac_keeps {s0 : State} {x0} {x1} {x2} {x3} (h0 : Keeps s0 x0) : Keeps s0 (@State.mcMac x0 x1 x2 x3).1 := by
  unfold State.mcMac
  with_reducible repeat' (first
      | assumption | apply State.macFail_keeps | split)

theorem State.dramWrite_keeps {s0 : State} {x0} {x1} {x2} {x3} {x4} (h0 : Keeps s0 x0) : Keeps s0 (@State.dramWrite x0 x1 x2 x3 x4) := by
  unfold State.dramWrite
  with_reducible repeat' (first
      | assumption | apply State.setBits_keeps | apply State.setPoison_keeps | apply Keeps.ite | apply Keeps.mkW
      | (fail_if_no_progress apply Keeps.mkU))

theorem State.mcRewrite_keeps {s0 : State} {x0} {x1} {x2} {x3} {x4} (h0 : Keeps s0 x0) : Keeps s0 (@State.mcRewrite x0 x1 x2 x3 x4) := by
  unfold State.mcRewrite
  with_reducible repeat' (first
      | assumption | apply State.dramWrite_keeps | split)

theorem State.mcGood_keeps {s0 : State} {x0} {x1} {x2} {x3} {x4} (h0 : Keeps s0 x0) : Keeps s0 (@State.mcGood x0 x1 x2 x3 x4) := by
  unfold State.mcGood
  with_reducible repeat' (first
      | assumption | apply State.bump_keeps | apply State.mcFixed_keeps | apply State.mcDeliver_keeps
      | apply State.mcMac_keeps | apply State.mcRewrite_keeps | split)

theorem State.mcLost_keeps {s0 : State} {x0} {x1} {x2} (h0 : Keeps s0 x0) : Keeps s0 (@State.mcLost x0 x1 x2) := by
  unfold State.mcLost
  with_reducible repeat' (first
      | assumption | apply State.bump_keeps | apply State.mcLast_keeps | apply State.dramWrite_keeps
      | apply State.mcDeliver_keeps | apply State.mcAsh_keeps | split)

theorem State.mcReadLine_keeps {s0 : State} {x0} {x1} {x2} {x3} {x4} {x5} {x6} (h0 : Keeps s0 x0) : Keeps s0 (@State.mcReadLine x0 x1 x2 x3 x4 x5 x6) := by
  unfold State.mcReadLine
  try dsimp only
  with_reducible repeat' (first
      | assumption | apply State.mcMeet_keeps | apply State.mcLast_keeps | apply State.mcGood_keeps
      | apply State.mcLost_keeps | split)

theorem State.copyRow_keeps {s0 : State} {x0} {x1} {x2} {x3} {x4} (h0 : Keeps s0 x0) : Keeps s0 (@State.copyRow x0 x1 x2 x3 x4).1 := by
  unfold State.copyRow
  with_reducible repeat' (first
      | assumption | intro _ | apply State.mcReadLine_keeps | apply Keeps.fold1)

theorem State.markWrite_keeps {s0 : State} {x0} {x1} {x2} {x3} {x4} {x5} (h0 : Keeps s0 x0) : Keeps s0 (@State.markWrite x0 x1 x2 x3 x4 x5) := by
  unfold State.markWrite
  with_reducible repeat' (first
      | assumption | apply State.wrs_keeps | apply State.mcAsh_keeps | apply Keeps.ite)

theorem State.mcDo_keeps {s0 : State} {x0} {x1} {x2} {x3} {x4} (h0 : Keeps s0 x0) : Keeps s0 (@State.mcDo x0 x1 x2 x3 x4) := by
  unfold State.mcDo
  with_reducible repeat' (first
      | assumption | apply State.dramWrite_keeps | apply State.mcDeliver_keeps | apply State.mcReadLine_keeps
      | apply State.encrypted_keeps | apply State.macTouch_keeps | apply State.macWrite_keeps | apply Keeps.ite)

theorem State.mcAccess_keeps {s0 : State} {x0} {x1} {x2} (h0 : Keeps s0 x0) : Keeps s0 (@State.mcAccess x0 x1 x2) := by
  unfold State.mcAccess
  with_reducible repeat' (first
      | assumption | apply State.mcDo_keeps | apply State.updChan_keeps | split)

theorem State.mcRelease_keeps {s0 : State} {x0} {x1} {x2} (h0 : Keeps s0 x0) : Keeps s0 (@State.mcRelease x0 x1 x2) := by
  unfold State.mcRelease
  with_reducible repeat' (first
      | assumption | intro _ | apply State.updChan_keeps | apply State.mcAccess_keeps | apply Keeps.fold)

theorem State.spareCount_keeps {s0 : State} {x0} {x1} {x2} (h0 : Keeps s0 x0) : Keeps s0 (@State.spareCount x0 x1 x2) := by
  unfold State.spareCount
  with_reducible repeat' (first
      | assumption | apply State.wr_keeps)

theorem State.spareEnd_keeps {s0 : State} {x0} {x1} {x2} {x3} (h0 : Keeps s0 x0) : Keeps s0 (@State.spareEnd x0 x1 x2 x3) := by
  unfold State.spareEnd
  with_reducible repeat' (first
      | assumption | apply State.updChan_keeps | apply State.wr_keeps | apply Keeps.ite)

theorem State.spareReq_keeps {s0 : State} {x0} {x1} {x2} {x3} (h0 : Keeps s0 x0) : Keeps s0 (@State.spareReq x0 x1 x2 x3) := by
  unfold State.spareReq
  with_reducible repeat' (first
      | assumption | apply State.candidate_keeps)

theorem execDqsOscRead_keeps {s0 : State} {x0} {x1} {x2} {x3} {x4} (h4 : Keeps s0 x4) : KeepsH s0 (@execDqsOscRead x0 x1 x2 x3 x4) := by
  unfold execDqsOscRead
  with_reducible repeat' (first
      | assumption | apply State.bump_keeps | apply Keeps.ite | apply KeepsH.nextI)

theorem execHpprApply_keeps {s0 : State} {x0} {x1} {x2} {x3} (h3 : Keeps s0 x3) : KeepsH s0 (@execHpprApply x0 x1 x2 x3) := by
  unfold execHpprApply
  with_reducible repeat' (first
      | assumption | apply State.updChan_keeps | apply KeepsH.nextI)

theorem execMarkWrite_keeps {s0 : State} {x0} {x1} {x2} {x3} {x4} {x5} (h5 : Keeps s0 x5) : KeepsH s0 (@execMarkWrite x0 x1 x2 x3 x4 x5) := by
  unfold execMarkWrite
  with_reducible repeat' (first
      | assumption | apply State.markWrite_keeps | apply Keeps.ite | apply KeepsH.nextI)

theorem execMcRead_keeps {s0 : State} {x0} {x1} {x2} {x3} {x4} (h4 : Keeps s0 x4) : KeepsH s0 (@execMcRead x0 x1 x2 x3 x4) := by
  unfold execMcRead
  with_reducible repeat' (first
      | assumption | apply State.mcAccess_keeps | apply KeepsH.nextI)

theorem execMcWrite_keeps {s0 : State} {x0} {x1} {x2} {x3} {x4} {x5} (h5 : Keeps s0 x5) : KeepsH s0 (@execMcWrite x0 x1 x2 x3 x4 x5) := by
  unfold execMcWrite
  with_reducible repeat' (first
      | assumption | apply State.mcAccess_keeps | apply KeepsH.nextI)

theorem execRefresh_keeps {s0 : State} {x0} {x1} {x2} {x3} {x4} (h4 : Keeps s0 x4) : KeepsH s0 (@execRefresh x0 x1 x2 x3 x4) := by
  unfold execRefresh
  with_reducible repeat' (first
      | assumption | apply State.wr_keeps | apply Keeps.ite | apply KeepsH.nextI)

theorem execSelfRefreshEnter_keeps {s0 : State} {x0} {x1} {x2} (h2 : Keeps s0 x2) : KeepsH s0 (@execSelfRefreshEnter x0 x1 x2) := by
  unfold execSelfRefreshEnter
  with_reducible repeat' (first
      | assumption | apply State.updChan_keeps | apply Keeps.ite | apply KeepsH.nextI)

theorem execSelfRefreshExit_keeps {s0 : State} {x0} {x1} {x2} {x3} (h3 : Keeps s0 x3) : KeepsH s0 (@execSelfRefreshExit x0 x1 x2 x3) := by
  unfold execSelfRefreshExit
  with_reducible repeat' (first
      | assumption | apply State.updChan_keeps | apply State.wr_keeps | apply State.mcRelease_keeps | apply Keeps.ite
      | apply KeepsH.nextI)

theorem execSpareCopyDone_keeps {s0 : State} {x0} {x1} {x2} {x3} {x4} (h4 : Keeps s0 x4) : KeepsH s0 (@execSpareCopyDone x0 x1 x2 x3 x4) := by
  unfold execSpareCopyDone
  with_reducible repeat' (first
      | assumption | apply State.bump_keeps | apply State.spareAsh_keeps | apply State.spareCount_keeps
      | apply State.updChan_keeps | apply State.wrIf_keeps | apply State.wrs_keeps | apply State.copyRow_keeps
      | apply State.spareEnd_keeps | apply State.mcRelease_keeps | apply KeepsH.nextI | split)

theorem execSpareCopybackDone_keeps {s0 : State} {x0} {x1} {x2} {x3} (h3 : Keeps s0 x3) : KeepsH s0 (@execSpareCopybackDone x0 x1 x2 x3) := by
  unfold execSpareCopybackDone
  with_reducible repeat' (first
      | assumption | apply State.bump_keeps | apply State.spareCount_keeps | apply State.updChan_keeps
      | apply State.wrs_keeps | apply State.copyRow_keeps | apply State.spareEnd_keeps | apply State.mcRelease_keeps
      | apply KeepsH.nextI | split)

theorem execSpareReq_keeps {s0 : State} {x0} {x1} {x2} {x3} (h3 : Keeps s0 x3) : KeepsH s0 (@execSpareReq x0 x1 x2 x3) := by
  unfold execSpareReq
  with_reducible repeat' (first
      | assumption | apply State.spareReq_keeps | apply Keeps.ite | apply KeepsH.nextI)

theorem execSpareStart_keeps {s0 : State} {x0} {x1} {x2} (h2 : Keeps s0 x2) : KeepsH s0 (@execSpareStart x0 x1 x2) := by
  unfold execSpareStart
  with_reducible repeat' (first
      | assumption | apply State.setChan_keeps | apply State.wr_keeps | apply KeepsH.nextI | split
      | (fail_if_no_progress extract_lets))

theorem execSpprDone_keeps {s0 : State} {x0} {x1} {x2} (h2 : Keeps s0 x2) : KeepsH s0 (@execSpprDone x0 x1 x2) := by
  unfold execSpprDone
  with_reducible repeat' (first
      | assumption | apply State.updChan_keeps | apply KeepsH.nextI | split)

theorem execSweepInitDone_keeps {s0 : State} {x0} {x1} {x2} (h2 : Keeps s0 x2) : KeepsH s0 (@execSweepInitDone x0 x1 x2) := by
  unfold execSweepInitDone
  with_reducible repeat' (first
      | assumption | apply State.wr_keeps | apply State.mcRelease_keeps | apply Keeps.ite | apply KeepsH.nextI
      | apply Keeps.mkF)

theorem execSweepLine_keeps {s0 : State} {x0} {x1} {x2} {x3} {x4} (h4 : Keeps s0 x4) : KeepsH s0 (@execSweepLine x0 x1 x2 x3 x4) := by
  unfold execSweepLine
  with_reducible repeat' (first
      | assumption | apply State.bump_keeps | apply State.updChan_keeps | apply State.mcReadLine_keeps | apply State.wr_keeps
      | apply Keeps.ite | apply KeepsH.nextI)

theorem execZqCalibration_keeps {s0 : State} {x0} {x1} {x2} {x3} (h3 : Keeps s0 x3) : KeepsH s0 (@execZqCalibration x0 x1 x2 x3) := by
  unfold execZqCalibration
  with_reducible repeat' (first
      | assumption | apply KeepsH.nextI)

end Sys2Proof.Machine
end

