-- ==== Sys2Proof/Laws/PcieKeeps.lean ====
section
/-!
SUPPORT. Laws/PcieKeeps.lean: what Machine/Pcie.lean leaves alone: each operation and meaning of it keeps the queue, the parts, the clock and the
canonical form of memory (`Keeps`).
-/
set_option linter.all false
namespace Sys2Proof.Machine

theorem State.prcAsh_keeps {s0 : State} {x0} {x1} {x2} {x3} {x4} {x5} {x6} {x7} {x8} (h0 : Keeps s0 x0) : Keeps s0 (@State.prcAsh x0 x1 x2 x3 x4 x5 x6 x7 x8) := by
  unfold State.prcAsh
  with_reducible repeat' (first
      | assumption | apply State.ash_keeps)

theorem State.updPrc_keeps {s0 : State} {x0} {x1} {x2} {x3} (h0 : Keeps s0 x0) : Keeps s0 (@State.updPrc x0 x1 x2 x3) := by
  unfold State.updPrc
  with_reducible repeat' (first
      | assumption | (fail_if_no_progress apply Keeps.mkU))

theorem State.linkLost_keeps {s0 : State} {x0} {x1} {x2} {x3} (h0 : Keeps s0 x0) : Keeps s0 (@State.linkLost x0 x1 x2 x3) := by
  unfold State.linkLost
  with_reducible repeat' (first
      | assumption | apply State.updPrc_keeps)

theorem State.devLost_keeps {s0 : State} {x0} {x1} {x2} {x3} (h0 : Keeps s0 x0) : Keeps s0 (@State.devLost x0 x1 x2 x3) := by
  unfold State.devLost
  with_reducible repeat' (first
      | assumption | intro _ | apply State.wroteHome_keeps | apply State.setBits_keeps | apply State.setPoison_keeps
      | apply Keeps.fold | split | (fail_if_no_progress apply Keeps.mkU))

theorem State.contain_keeps {s0 : State} {x0} {x1} {x2} {x3} {x4} (h0 : Keeps s0 x0) : Keeps s0 (@State.contain x0 x1 x2 x3 x4) := by
  unfold State.contain
  with_reducible repeat' (first
      | assumption | apply State.prcAsh_keeps | apply State.linkLost_keeps | apply State.wr_keeps | apply State.devLost_keeps
      | apply Keeps.ite)

theorem State.ctxKeep_keeps {s0 : State} {x0} {x1} {x2} {x3} {x4} (h0 : Keeps s0 x0) : Keeps s0 (@State.ctxKeep x0 x1 x2 x3 x4) := by
  unfold State.ctxKeep
  with_reducible repeat' (first
      | assumption | apply State.updPrc_keeps)

theorem State.cxlClear_keeps {s0 : State} {x0} {x1} {x2} {x3} (h0 : Keeps s0 x0) : Keeps s0 (@State.cxlClear x0 x1 x2 x3) := by
  unfold State.cxlClear
  with_reducible repeat' (first
      | assumption | apply Keeps.mkF)

theorem State.cxlValid_keeps {s0 : State} {x0} {x1} {x2} {x3} {x4} (h0 : Keeps s0 x0) : Keeps s0 (@State.cxlValid x0 x1 x2 x3 x4) := by
  unfold State.cxlValid
  with_reducible repeat' (first
      | assumption | apply State.wrs_keeps | apply State.wr_keeps | apply Keeps.ite)

theorem State.prcRead_keeps {s0 : State} {x0} {x1} {x2} {x3} {x4} (h0 : Keeps s0 x0) : Keeps s0 (@State.prcRead x0 x1 x2 x3 x4).1 := by
  unfold State.prcRead
  with_reducible repeat' (first
      | assumption | apply State.agentRead_keeps | refine Keeps.fst ?_ (by assumption) | split)

theorem State.devCtx_keeps {s0 : State} {x0} {x1} {x2} {x3} (h0 : Keeps s0 x0) : Keeps s0 (@State.devCtx x0 x1 x2 x3).1 := by
  unfold State.devCtx
  with_reducible repeat' (first
      | assumption | apply State.prcRead_keeps | apply State.ctxKeep_keeps | apply Keeps.ite1
      | refine Keeps.fst ?_ (by assumption) | split)

theorem State.devReq_keeps {s0 : State} {x0} {x1} {x2} {x3} (h0 : Keeps s0 x0) : Keeps s0 (@State.devReq x0 x1 x2 x3).1 := by
  unfold State.devReq
  with_reducible repeat' (first
      | assumption | apply State.useFree_keeps | apply State.updPrc_keeps | apply Keeps.ite | apply Keeps.ite1)

theorem dmaXlate_keeps {s0 : State} {x0} {x1} {x2} {x3} (h3 : Keeps s0 x3) : Keeps s0 (@dmaXlate x0 x1 x2 x3).1 := by
  induction x2 generalizing x0 x1 x3 with
  | nil => (unfold dmaXlate; first | assumption | constructor; assumption | constructor | exact h3)
  | cons e t ih =>
    unfold dmaXlate
    try dsimp only
    with_reducible repeat' (first
        | assumption | apply ih | apply State.portXlate_keeps | refine Keeps.fst ?_ (by assumption) | split)

theorem State.dmaPort_keeps {s0 : State} {x0} {x1} {x2} {x3} {x4} (h0 : Keeps s0 x0) : Keeps s0 (@State.dmaPort x0 x1 x2 x3 x4).1 := by
  unfold State.dmaPort
  try dsimp only
  with_reducible repeat' (first
      | assumption | apply State.portXlate_keeps | apply State.prcRead_keeps | apply State.devCtx_keeps
      | apply State.ctxKeep_keeps | refine Keeps.fst ?_ (by assumption) | split)

theorem State.dmaCheck_keeps {s0 : State} {x0} {x1} {x2} {x3} {x4} {x5} {x6} {x7} {x8} (h0 : Keeps s0 x0) : KeepsDMA s0 (@State.dmaCheck x0 x1 x2 x3 x4 x5 x6 x7 x8) := by
  unfold State.dmaCheck
  with_reducible repeat' (first
      | assumption | apply dmaXlate_keeps | apply State.dmaPort_keeps | apply KeepsDMA.okI | apply KeepsDMA.refuseI
      | apply KeepsDMA.waitT | refine Keeps.fst ?_ (by assumption) | split)

theorem State.dmaKeep_keeps {s0 : State} {x0} {x1} {x2} {x3} {x4} (h0 : Keeps s0 x0) : Keeps s0 (@State.dmaKeep x0 x1 x2 x3 x4) := by
  unfold State.dmaKeep
  with_reducible repeat' (first
      | assumption | apply State.updPrc_keeps)

theorem State.dmaRefuse_keeps {s0 : State} {x0} {x1} {x2} {x3} {x4} {x5} (h0 : Keeps s0 x0) : Keeps s0 (@State.dmaRefuse x0 x1 x2 x3 x4 x5) := by
  unfold State.dmaRefuse
  with_reducible repeat' (first
      | assumption | apply State.prcAsh_keeps | apply State.bump_keeps)

theorem State.ioInval_keeps {s0 : State} {x0} {x1} {x2} {x3} (h0 : Keeps s0 x0) : Keeps s0 (@State.ioInval x0 x1 x2 x3) := by
  unfold State.ioInval
  with_reducible repeat' (first
      | assumption | (fail_if_no_progress apply Keeps.mkU))

theorem State.iotlbDrop_keeps {s0 : State} {x0} {x1} {x2} {x3} (h0 : Keeps s0 x0) : Keeps s0 (@State.iotlbDrop x0 x1 x2 x3) := by
  unfold State.iotlbDrop
  with_reducible repeat' (first
      | assumption | (fail_if_no_progress apply Keeps.mkU))

theorem State.ioinvGo_keeps {s0 : State} {x0} {x1} {x2} {x3} {x4} (h0 : Keeps s0 x0) : Keeps s0 (@State.ioinvGo x0 x1 x2 x3 x4) := by
  unfold State.ioinvGo
  with_reducible repeat' (first
      | assumption | apply State.iotlbDrop_keeps | apply State.updPrc_keeps | apply State.wr_keeps | apply Keeps.ite)

theorem State.linkOff_keeps {s0 : State} {x0} {x1} {x2} {x3} (h0 : Keeps s0 x0) : Keeps s0 (@State.linkOff x0 x1 x2 x3) := by
  unfold State.linkOff
  with_reducible repeat' (first
      | assumption | apply State.wrs_keeps | apply State.linkLost_keeps)

theorem State.msiWrite_keeps {s0 : State} {x0} {x1} {x2} {x3} {x4} (h0 : Keeps s0 x0) : Keeps s0 (@State.msiWrite x0 x1 x2 x3 x4) := by
  unfold State.msiWrite
  with_reducible repeat' (first
      | assumption | apply State.bump_keeps | apply State.updPrc_keeps | apply State.msgInt_keeps | apply State.devCtx_keeps
      | apply Keeps.ite | refine Keeps.fst ?_ (by assumption) | split)

theorem State.msiRelease_keeps {s0 : State} {x0} {x1} {x2} {x3} (h0 : Keeps s0 x0) : Keeps s0 (@State.msiRelease x0 x1 x2 x3) := by
  unfold State.msiRelease
  with_reducible repeat' (first
      | assumption | intro _ | apply State.msiWrite_keeps | apply State.updPrc_keeps | apply Keeps.fold)

theorem State.portRelease_keeps {s0 : State} {x0} {x1} {x2} {x3} (h0 : Keeps s0 x0) : Keeps s0 (@State.portRelease x0 x1 x2 x3) := by
  unfold State.portRelease
  with_reducible repeat' (first
      | assumption | apply State.wr_keeps | apply Keeps.ite)

theorem State.prcEvent_keeps {s0 : State} {x0} {x1} {x2} {x3} {x4} (h0 : Keeps s0 x0) : Keeps s0 (@State.prcEvent x0 x1 x2 x3 x4) := by
  unfold State.prcEvent
  with_reducible repeat' (first
      | assumption | apply State.msgInt_keeps | apply State.wr_keeps | apply Keeps.ite)

theorem State.slotFault_keeps {s0 : State} {x0} {x1} {x2} {x3} {x4} (h0 : Keeps s0 x0) : Keeps s0 (@State.slotFault x0 x1 x2 x3 x4) := by
  unfold State.slotFault
  with_reducible repeat' (first
      | assumption | apply State.linkOff_keeps | apply State.contain_keeps | apply State.prcEvent_keeps
      | apply State.updPrc_keeps | apply State.wrs_keeps | apply State.mgcReason_keeps)

theorem State.slotOff_keeps {s0 : State} {x0} {x1} {x2} {x3} (h0 : Keeps s0 x0) : Keeps s0 (@State.slotOff x0 x1 x2 x3) := by
  unfold State.slotOff
  with_reducible repeat' (first
      | assumption | apply State.linkOff_keeps | apply State.updPrc_keeps | apply State.wr_keeps | apply State.devLost_keeps
      | apply Keeps.ite)

theorem State.slotOn_keeps {s0 : State} {x0} {x1} {x2} {x3} (h0 : Keeps s0 x0) : Keeps s0 (@State.slotOn x0 x1 x2 x3) := by
  unfold State.slotOn
  with_reducible repeat' (first
      | assumption | apply State.updPrc_keeps | apply State.wr_keeps | apply Keeps.ite)

theorem State.slotsDue_keeps {s0 : State} {x0} (h0 : Keeps s0 x0) : Keeps s0 (@State.slotsDue x0) := by
  unfold State.slotsDue
  with_reducible repeat' (first
      | assumption | intro _ | apply State.updPrc_keeps | apply State.slotOn_keeps | apply Keeps.ite | apply Keeps.fold)

theorem dmaReadGo_keeps {s0 : State} {x0} {x1} {x2} {x3} {x4} (h4 : Keeps s0 x4) : Keeps s0 (@dmaReadGo x0 x1 x2 x3 x4).1 := by
  induction x2 generalizing x0 x1 x3 x4 with
  | nil => (unfold dmaReadGo; first | assumption | constructor; assumption | constructor | exact h4)
  | cons e t ih =>
    unfold dmaReadGo
    try dsimp only
    with_reducible repeat' (first
        | assumption | apply ih | apply State.agentRead_keeps | apply Keeps.ite1)

theorem dmaWriteGo_keeps {s0 : State} {x0} {x1} {x2} {x3} {x4} {x5} {x6} (h6 : Keeps s0 x6) : Keeps s0 (@dmaWriteGo x0 x1 x2 x3 x4 x5 x6).1 := by
  induction x3 generalizing x0 x1 x2 x4 x5 x6 with
  | nil => (unfold dmaWriteGo; first | assumption | constructor; assumption | constructor | exact h6)
  | cons e t ih =>
    unfold dmaWriteGo
    try dsimp only
    with_reducible repeat' (first
        | assumption | apply ih | apply State.agentWrite_keeps | apply State.setPoison_keeps | split)

theorem execAerError_keeps {s0 : State} {x0} {x1} {x2} {x3} (h3 : Keeps s0 x3) : KeepsH s0 (@execAerError x0 x1 x2 x3) := by
  unfold execAerError
  with_reducible repeat' (first
      | assumption | apply State.prcEvent_keeps | apply Keeps.ite | apply KeepsH.nextI)

theorem execAerFatal_keeps {s0 : State} {x0} {x1} {x2} {x3} (h3 : Keeps s0 x3) : KeepsH s0 (@execAerFatal x0 x1 x2 x3) := by
  unfold execAerFatal
  with_reducible repeat' (first
      | assumption | apply State.contain_keeps | apply State.prcEvent_keeps | apply Keeps.ite | apply KeepsH.nextI)

theorem execCxlPoisonFillDone_keeps {s0 : State} {x0} {x1} {x2} {x3} (h3 : Keeps s0 x3) : KeepsH s0 (@execCxlPoisonFillDone x0 x1 x2 x3) := by
  unfold execCxlPoisonFillDone
  with_reducible repeat' (first
      | assumption | apply State.cxlClear_keeps | apply State.wr_keeps | apply Keeps.ite | apply KeepsH.nextI)

theorem execCxlwinValidWrite_keeps {s0 : State} {x0} {x1} {x2} {x3} {x4} (h4 : Keeps s0 x4) : KeepsH s0 (@execCxlwinValidWrite x0 x1 x2 x3 x4) := by
  unfold execCxlwinValidWrite
  with_reducible repeat' (first
      | assumption | apply State.cxlValid_keeps | apply KeepsH.nextI)

theorem execDmaRead_keeps {s0 : State} {x0} {x1} {x2} {x3} {x4} {x5} {x6} {x7} {x8} (h8 : Keeps s0 x8) : KeepsH s0 (@execDmaRead x0 x1 x2 x3 x4 x5 x6 x7 x8) := by
  unfold execDmaRead
  with_reducible repeat' (first
      | assumption | apply State.bump_keeps | apply State.dmaRefuse_keeps | apply State.dmaKeep_keeps
      | apply State.updPrc_keeps | apply dmaReadGo_keeps | apply State.dmaCheck_keeps | apply Keeps.ite | apply KeepsH.nextI
      | refine KeepsDMA.okE ?_ (by assumption) | refine KeepsDMA.refuseE ?_ (by assumption) | split)

theorem execDmaWrite_keeps {s0 : State} {x0} {x1} {x2} {x3} {x4} {x5} {x6} {x7} {x8} {x9} (h9 : Keeps s0 x9) : KeepsH s0 (@execDmaWrite x0 x1 x2 x3 x4 x5 x6 x7 x8 x9) := by
  unfold execDmaWrite
  with_reducible repeat' (first
      | assumption | apply dmaWriteGo_keeps | apply State.msiRelease_keeps | apply State.bump_keeps
      | apply State.dmaRefuse_keeps | apply State.msiWrite_keeps | apply State.dmaKeep_keeps | apply State.dmaCheck_keeps
      | apply KeepsH.nextI | refine KeepsDMA.okE ?_ (by assumption) | refine KeepsDMA.refuseE ?_ (by assumption) | split
      | (fail_if_no_progress extract_lets))

theorem execIoinvDone_keeps {s0 : State} {x0} {x1} {x2} (h2 : Keeps s0 x2) : KeepsH s0 (@execIoinvDone x0 x1 x2) := by
  unfold execIoinvDone
  with_reducible repeat' (first
      | assumption | apply State.wr_keeps | apply KeepsH.nextI)

theorem execIoinvGo_keeps {s0 : State} {x0} {x1} {x2} {x3} {x4} (h4 : Keeps s0 x4) : KeepsH s0 (@execIoinvGo x0 x1 x2 x3 x4) := by
  unfold execIoinvGo
  with_reducible repeat' (first
      | assumption | apply State.ioinvGo_keeps | apply KeepsH.nextI)

theorem execLinkL1Exit_keeps {s0 : State} {x0} {x1} {x2} {x3} (h3 : Keeps s0 x3) : KeepsH s0 (@execLinkL1Exit x0 x1 x2 x3) := by
  unfold execLinkL1Exit
  with_reducible repeat' (first
      | assumption | apply State.updPrc_keeps | apply Keeps.ite | apply KeepsH.nextI)

theorem execMsiMessage_keeps {s0 : State} {x0} {x1} {x2} {x3} {x4} {x5} (h5 : Keeps s0 x5) : KeepsH s0 (@execMsiMessage x0 x1 x2 x3 x4 x5) := by
  unfold execMsiMessage
  with_reducible repeat' (first
      | assumption | apply State.msiWrite_keeps | apply Keeps.ite | apply KeepsH.nextI)

theorem execPortRelease_keeps {s0 : State} {x0} {x1} {x2} {x3} (h3 : Keeps s0 x3) : KeepsH s0 (@execPortRelease x0 x1 x2 x3) := by
  unfold execPortRelease
  with_reducible repeat' (first
      | assumption | apply State.portRelease_keeps | apply KeepsH.nextI)

theorem execPrcEventInterrupt_keeps {s0 : State} {x0} {x1} {x2} {x3} {x4} (h4 : Keeps s0 x4) : KeepsH s0 (@execPrcEventInterrupt x0 x1 x2 x3 x4) := by
  unfold execPrcEventInterrupt
  with_reducible repeat' (first
      | assumption | apply State.prcEvent_keeps | apply Keeps.ite | apply KeepsH.nextI)

theorem execPresenceChange_keeps {s0 : State} {x0} {x1} {x2} {x3} {x4} (h4 : Keeps s0 x4) : KeepsH s0 (@execPresenceChange x0 x1 x2 x3 x4) := by
  unfold execPresenceChange
  with_reducible repeat' (first
      | assumption | apply State.linkOff_keeps | apply State.contain_keeps | apply State.prcEvent_keeps
      | apply State.wr_keeps | apply State.mgcReason_keeps | apply Keeps.ite | apply KeepsH.nextI)

theorem execSlotAttention_keeps {s0 : State} {x0} {x1} {x2} {x3} (h3 : Keeps s0 x3) : KeepsH s0 (@execSlotAttention x0 x1 x2 x3) := by
  unfold execSlotAttention
  with_reducible repeat' (first
      | assumption | apply State.prcEvent_keeps | apply Keeps.ite | apply KeepsH.nextI)

theorem execSlotLinkTrained_keeps {s0 : State} {x0} {x1} {x2} {x3} {x4} {x5} {x6} {x7} (h7 : Keeps s0 x7) : KeepsH s0 (@execSlotLinkTrained x0 x1 x2 x3 x4 x5 x6 x7) := by
  unfold execSlotLinkTrained
  with_reducible repeat' (first
      | assumption | apply State.prcEvent_keeps | apply State.updPrc_keeps | apply State.wrs_keeps | apply Keeps.ite
      | apply KeepsH.nextI)

theorem execSlotPerstRelease_keeps {s0 : State} {x0} {x1} {x2} {x3} (h3 : Keeps s0 x3) : KeepsH s0 (@execSlotPerstRelease x0 x1 x2 x3) := by
  unfold execSlotPerstRelease
  with_reducible repeat' (first
      | assumption | apply State.wr_keeps | apply Keeps.ite | apply KeepsH.nextI)

theorem execSlotPowerFault_keeps {s0 : State} {x0} {x1} {x2} {x3} (h3 : Keeps s0 x3) : KeepsH s0 (@execSlotPowerFault x0 x1 x2 x3) := by
  unfold execSlotPowerFault
  with_reducible repeat' (first
      | assumption | intro _ | apply State.slotFault_keeps | apply Keeps.ite | apply KeepsH.nextI | apply Keeps.fold)

theorem execSlotPwroff_keeps {s0 : State} {x0} {x1} {x2} {x3} (h3 : Keeps s0 x3) : KeepsH s0 (@execSlotPwroff x0 x1 x2 x3) := by
  unfold execSlotPwroff
  with_reducible repeat' (first
      | assumption | apply State.slotOff_keeps | apply KeepsH.nextI)

theorem execSlotPwron_keeps {s0 : State} {x0} {x1} {x2} {x3} (h3 : Keeps s0 x3) : KeepsH s0 (@execSlotPwron x0 x1 x2 x3) := by
  unfold execSlotPwron
  with_reducible repeat' (first
      | assumption | apply State.slotOn_keeps | apply KeepsH.nextI)

theorem execSlotTrainTimeout_keeps {s0 : State} {x0} {x1} {x2} {x3} (h3 : Keeps s0 x3) : KeepsH s0 (@execSlotTrainTimeout x0 x1 x2 x3) := by
  unfold execSlotTrainTimeout
  with_reducible repeat' (first
      | assumption | apply State.prcEvent_keeps | apply State.wr_keeps | apply Keeps.ite | apply KeepsH.nextI)

end Sys2Proof.Machine
end

