-- ==== Sys2Proof/Laws/StkOpsKeeps.lean ====
section
/-!
SUPPORT. Laws/StkOpsKeeps.lean: what Machine/StkOps.lean leaves alone: each operation and meaning of it keeps the queue, the parts, the clock and the
canonical form of memory (`Keeps`).
-/
set_option linter.all false
namespace Sys2Proof.Machine

theorem State.pBits_keeps {s0 : State} {x0} {x1} {x2} {x3} {x4} (h0 : Keeps s0 x0) : Keeps s0 (@State.pBits x0 x1 x2 x3 x4).1 := by
  unfold State.pBits
  with_reducible repeat' (first
      | assumption | apply State.pRead_keeps)

theorem State.filterItem_keeps {s0 : State} {x0} {x1} {x2} {x3} (h0 : Keeps s0 x0) : Keeps s0 (@State.filterItem x0 x1 x2 x3).1 := by
  unfold State.filterItem
  with_reducible repeat' (first
      | assumption | apply State.pBits_keeps | apply Keeps.ite1)

theorem State.hashGet_keeps {s0 : State} {x0} {x1} {x2} {x3} {x4} {x5} {x6} {x7} {x8} (h8 : Keeps s0 x8) : Keeps s0 (@State.hashGet x0 x1 x2 x3 x4 x5 x6 x7 x8).1 := by
  induction x5 generalizing x0 x1 x2 x3 x4 x6 x7 x8 with
  | zero => (unfold State.hashGet; first | assumption | constructor; assumption | constructor | exact h8)
  | succ n ih =>
    unfold State.hashGet
    try dsimp only
    with_reducible repeat' (first
        | assumption | apply ih | apply State.pRead_keeps | refine Keeps.fst ?_ (by assumption) | split)

theorem State.hashPut_keeps {s0 : State} {x0} {x1} {x2} {x3} {x4} {x5} {x6} (h6 : Keeps s0 x6) : Keeps s0 (@State.hashPut x0 x1 x2 x3 x4 x5 x6).1 := by
  induction x4 generalizing x0 x1 x2 x3 x5 x6 with
  | zero => (unfold State.hashPut; first | assumption | constructor; assumption | constructor | exact h6)
  | succ n ih =>
    unfold State.hashPut
    try dsimp only
    with_reducible repeat' (first
        | assumption | apply ih | apply State.portXlate_keeps | apply State.pWrite_keeps | apply State.agentHadd_keeps
        | refine Keeps.fst ?_ (by assumption) | split)

theorem State.opUndef_keeps {s0 : State} {x0} {x1} {x2} (h0 : Keeps s0 x0) : Keeps s0 (@State.opUndef x0 x1 x2) := by
  unfold State.opUndef
  with_reducible repeat' (first
      | assumption | apply State.portFree_keeps | split)

theorem bitmapRun_keeps {s0 : State} {x0} {x1} (h1 : Keeps s0 (x1).s) : Keeps s0 (@bitmapRun x0 x1).s := by
  unfold bitmapRun
  with_reducible repeat' (first
      | assumption | apply Keeps.iteR)

theorem mergeHeads_keeps {s0 : State} {x0} {x1} {x2} {x3} (h3 : Keeps s0 x3) : Keeps s0 (@mergeHeads x0 x1 x2 x3).1 := by
  induction x2 generalizing x0 x1 x3 with
  | nil => (unfold mergeHeads; first | assumption | constructor; assumption | constructor | exact h3)
  | cons e t ih =>
    unfold mergeHeads
    try dsimp only
    with_reducible repeat' (first
        | assumption | apply ih | apply State.pRead_keeps | refine Keeps.fst ?_ (by assumption) | split)

theorem mergeGo_keeps {s0 : State} {x0} {x1} {x2} {x3} {x4} {x5} (h5 : Keeps s0 (x5).s) : Keeps s0 (@mergeGo x0 x1 x2 x3 x4 x5).s := by
  induction x3 generalizing x0 x1 x2 x4 x5 with
  | zero => (unfold mergeGo; first | assumption | constructor; assumption | constructor | exact h0)
  | succ n ih =>
    unfold mergeGo
    try dsimp only
    with_reducible repeat' (first
        | assumption | apply ih | apply mergeHeads_keeps | refine Keeps.fst ?_ (by assumption) | split)

theorem runOut_keeps {s0 : State} {x0} {x1} {x2} {x3} (h2 : Keeps s0 (x2).s) : Keeps s0 (@runOut x0 x1 x2 x3).1 := by
  unfold runOut
  with_reducible repeat' (first
      | assumption | apply State.pWrite_keeps | apply State.portFree_keeps | refine Keeps.fst ?_ (by assumption) | split
      | (fail_if_no_progress extract_lets))

theorem runAgg_keeps {s0 : State} {x0} {x1} {x2} (h2 : Keeps s0 x2) : Keeps s0 (@runAgg x0 x1 x2).1 := by
  unfold runAgg
  try dsimp only
  with_reducible repeat' (first
      | assumption | intro _ | apply runOut_keeps | apply State.pRead_keeps | apply Keeps.fold1
      | refine Keeps.fst ?_ (by assumption) | split)

theorem runBuild_keeps {s0 : State} {x0} {x1} {x2} (h2 : Keeps s0 x2) : Keeps s0 (@runBuild x0 x1 x2).1 := by
  unfold runBuild
  try dsimp only
  with_reducible repeat' (first
      | assumption | intro _ | apply State.hashPut_keeps | apply State.pRead_keeps | apply State.portFree_keeps
      | apply State.updDescAt_keeps | apply Keeps.foldR | refine Keeps.fst ?_ (by assumption) | split)

theorem runNone_keeps {s0 : State} {x0} {x1} (h0 : Keeps s0 x0) : Keeps s0 (@runNone x0 x1).1 := by
  unfold runNone
  with_reducible repeat' (first
      | assumption)

theorem runCrc_keeps {s0 : State} {x0} {x1} {x2} (h2 : Keeps s0 x2) : Keeps s0 (@runCrc x0 x1 x2).1 := by
  unfold runCrc
  with_reducible repeat' (first
      | assumption | apply State.pRead_keeps | apply runNone_keeps | refine Keeps.fst ?_ (by assumption) | split)

theorem runItems_keeps {s0 : State} {x0} {x1} {x2} {x3} {x4} (h1 : ∀ y0 y1, Keeps s0 y1 → Keeps s0 (x1 y0 y1).1) (h4 : Keeps s0 (x4).s) : Keeps s0 (@runItems x0 x1 x2 x3 x4).s := by
  induction x2 generalizing x0 x1 x3 x4 with
  | zero => (unfold runItems; first | assumption | constructor; assumption | constructor | exact h0)
  | succ n ih =>
    unfold runItems
    try dsimp only
    with_reducible repeat' (first
        | assumption | apply ih | apply h1 | refine Keeps.fst ?_ (by assumption) | split)

theorem runDecomp_keeps {s0 : State} {x0} {x1} {x2} (h2 : Keeps s0 x2) : Keeps s0 (@runDecomp x0 x1 x2).1 := by
  unfold runDecomp
  try dsimp only
  with_reducible repeat' (first
      | assumption | intro _ | apply runOut_keeps | apply State.pBits_keeps | apply State.pRead_keeps | apply runItems_keeps
      | apply Keeps.foldS | refine Keeps.fst ?_ (by assumption) | split)

theorem runFilter_keeps {s0 : State} {x0} {x1} {x2} {x3} (h3 : Keeps s0 x3) : Keeps s0 (@runFilter x0 x1 x2 x3).1 := by
  unfold runFilter
  try dsimp only
  with_reducible repeat' (first
      | assumption | intro _ | apply runOut_keeps | apply runItems_keeps | apply bitmapRun_keeps
      | apply State.filterItem_keeps | apply Keeps.iteR)

theorem runGcm_keeps {s0 : State} {x0} {x1} {x2} {x3} (h3 : Keeps s0 x3) : Keeps s0 (@runGcm x0 x1 x2 x3).1 := by
  unfold runGcm
  try dsimp only
  with_reducible repeat' (first
      | assumption | apply runOut_keeps | apply State.pRead_keeps | apply State.pWrite_keeps
      | refine Keeps.fst ?_ (by assumption) | split)

theorem runMerge_keeps {s0 : State} {x0} {x1} {x2} (h2 : Keeps s0 x2) : Keeps s0 (@runMerge x0 x1 x2).1 := by
  unfold runMerge
  try dsimp only
  with_reducible repeat' (first
      | assumption | apply runOut_keeps | apply State.pRead_keeps | apply mergeGo_keeps | apply runNone_keeps
      | refine Keeps.fst ?_ (by assumption) | split)

theorem runProbe_keeps {s0 : State} {x0} {x1} {x2} (h2 : Keeps s0 x2) : Keeps s0 (@runProbe x0 x1 x2).1 := by
  unfold runProbe
  with_reducible repeat' (first
      | assumption | intro _ | apply runOut_keeps | apply State.pRead_keeps | apply runItems_keeps
      | apply State.hashGet_keeps | refine Keeps.fst ?_ (by assumption) | split)

theorem runProject_keeps {s0 : State} {x0} {x1} {x2} (h2 : Keeps s0 x2) : Keeps s0 (@runProject x0 x1 x2).1 := by
  unfold runProject
  try dsimp only
  with_reducible repeat' (first
      | assumption | intro _ | apply runOut_keeps | apply State.pBits_keeps | apply State.pRead_keeps | apply runItems_keeps
      | apply runNone_keeps | refine Keeps.fst ?_ (by assumption) | split)

theorem runSha_keeps {s0 : State} {x0} {x1} {x2} (h2 : Keeps s0 x2) : Keeps s0 (@runSha x0 x1 x2).1 := by
  unfold runSha
  try dsimp only
  with_reducible repeat' (first
      | assumption | apply State.pRead_keeps | apply State.pWrite_keeps | apply State.portFree_keeps
      | refine Keeps.fst ?_ (by assumption) | split)

theorem runSort_keeps {s0 : State} {x0} {x1} {x2} (h2 : Keeps s0 x2) : Keeps s0 (@runSort x0 x1 x2).1 := by
  unfold runSort
  with_reducible repeat' (first
      | assumption | apply runOut_keeps | apply State.pRead_keeps | refine Keeps.fst ?_ (by assumption) | split)

end Sys2Proof.Machine
end

