-- ==== Sys2Proof/Laws/StokerKeeps.lean ====
section
/-!
SUPPORT. Laws/StokerKeeps.lean: what Machine/Stoker.lean leaves alone: each operation and meaning of it keeps the queue, the parts, the clock and the
canonical form of memory (`Keeps`).
-/
set_option linter.all false
namespace Sys2Proof.Machine

theorem State.boxValues_keeps {s0 : State} {x0} {x1} {x2} {x3} {x4} (h4 : Keeps s0 x4) : Keeps s0 (@State.boxValues x0 x1 x2 x3 x4).1 := by
  induction x2 generalizing x0 x1 x3 x4 with
  | zero => (unfold State.boxValues; first | assumption | constructor; assumption | constructor | exact h4)
  | succ n ih =>
    unfold State.boxValues
    try dsimp only
    with_reducible repeat' (first
        | assumption | apply ih | apply State.filterItem_keeps | refine Keeps.fst ?_ (by assumption) | split)

theorem State.updCell_keeps {s0 : State} {x0} {x1} {x2} {x3} (h0 : Keeps s0 x0) : Keeps s0 (@State.updCell x0 x1 x2 x3) := by
  unfold State.updCell
  with_reducible repeat' (first
      | assumption | (fail_if_no_progress apply Keeps.mkU))

theorem State.dropSplit_keeps {s0 : State} {x0} {x1} {x2} {x3} (h0 : Keeps s0 x0) : Keeps s0 (@State.dropSplit x0 x1 x2 x3) := by
  unfold State.dropSplit
  with_reducible repeat' (first
      | assumption | apply State.updCell_keeps | split)

theorem State.updStk_keeps {s0 : State} {x0} {x1} {x2} {x3} {x4} (h0 : Keeps s0 x0) : Keeps s0 (@State.updStk x0 x1 x2 x3 x4) := by
  unfold State.updStk
  with_reducible repeat' (first
      | assumption | apply State.wr_keeps | (fail_if_no_progress apply Keeps.mkU))

theorem State.updDesc_keeps {s0 : State} {x0} {x1} {x2} {x3} {x4} {x5} (h0 : Keeps s0 x0) : Keeps s0 (@State.updDesc x0 x1 x2 x3 x4 x5) := by
  unfold State.updDesc
  with_reducible repeat' (first
      | assumption | apply State.updStk_keeps)

theorem State.setFin_keeps {s0 : State} {x0} {x1} {x2} {x3} {x4} {x5} (h0 : Keeps s0 x0) : Keeps s0 (@State.setFin x0 x1 x2 x3 x4 x5) := by
  unfold State.setFin
  with_reducible repeat' (first
      | assumption | apply State.dropSplit_keeps | apply State.updDesc_keeps | split)

theorem State.setChState_keeps {s0 : State} {x0} {x1} {x2} {x3} {x4} (h0 : Keeps s0 x0) : Keeps s0 (@State.setChState x0 x1 x2 x3 x4) := by
  unfold State.setChState
  with_reducible repeat' (first
      | assumption | apply State.wr_keeps)

theorem State.stkReset_keeps {s0 : State} {x0} {x1} {x2} {x3} {x4} (h0 : Keeps s0 x0) : Keeps s0 (@State.stkReset x0 x1 x2 x3 x4) := by
  unfold State.stkReset
  with_reducible repeat' (first
      | assumption | intro _ | apply State.setFin_keeps | apply State.setChState_keeps | apply State.updStk_keeps
      | apply Keeps.ite | apply Keeps.fold)

theorem State.cfgEn_keeps {s0 : State} {x0} {x1} {x2} {x3} {x4} (h0 : Keeps s0 x0) : Keeps s0 (@State.cfgEn x0 x1 x2 x3 x4) := by
  unfold State.cfgEn
  with_reducible repeat' (first
      | assumption | apply State.stkReset_keeps | apply State.setChState_keeps | apply State.wr_keeps | apply Keeps.ite)

theorem State.chanEmpty_keeps {s0 : State} {x0} {x1} {x2} {x3} (h0 : Keeps s0 x0) : Keeps s0 (@State.chanEmpty x0 x1 x2 x3) := by
  unfold State.chanEmpty
  with_reducible repeat' (first
      | assumption | intro _ | apply State.setChState_keeps | apply State.wrs_keeps | apply State.updStk_keeps
      | apply State.wr_keeps | apply Keeps.ite | apply Keeps.fold | (fail_if_no_progress apply Keeps.mkU))

theorem State.stkStop_keeps {s0 : State} {x0} {x1} {x2} {x3} (h0 : Keeps s0 x0) : Keeps s0 (@State.stkStop x0 x1 x2 x3) := by
  unfold State.stkStop
  with_reducible repeat' (first
      | assumption | intro _ | apply State.setFin_keeps | apply State.opUndef_keeps | apply State.updStk_keeps
      | apply Keeps.ite | apply Keeps.fold)

theorem State.stkPf_keeps {s0 : State} {x0} {x1} {x2} {x3} {x4} (h0 : Keeps s0 x0) : Keeps s0 (@State.stkPf x0 x1 x2 x3 x4) := by
  unfold State.stkPf
  with_reducible repeat' (first
      | assumption | apply State.msgInt_keeps | apply State.wr_keeps | apply Keeps.ite)

theorem State.stkIrq_keeps {s0 : State} {x0} {x1} {x2} {x3} (h0 : Keeps s0 x0) : Keeps s0 (@State.stkIrq x0 x1 x2 x3) := by
  unfold State.stkIrq
  with_reducible repeat' (first
      | assumption | apply State.msgInt_keeps | apply State.updStk_keeps | apply Keeps.ite)

theorem State.stkTell_keeps {s0 : State} {x0} {x1} {x2} {x3} {x4} (h0 : Keeps s0 x0) : Keeps s0 (@State.stkTell x0 x1 x2 x3 x4) := by
  unfold State.stkTell
  with_reducible repeat' (first
      | assumption | apply State.stkIrq_keeps | apply State.wr_keeps | apply Keeps.ite)

theorem State.stkError_keeps {s0 : State} {x0} {x1} {x2} {x3} {x4} (h0 : Keeps s0 x0) : Keeps s0 (@State.stkError x0 x1 x2 x3 x4) := by
  unfold State.stkError
  with_reducible repeat' (first
      | assumption | apply State.stkStop_keeps | apply State.setChState_keeps | apply State.stkPf_keeps
      | apply State.wrs_keeps | apply State.updStk_keeps | apply State.stkTell_keeps)

theorem State.cqheadWrite_keeps {s0 : State} {x0} {x1} {x2} {x3} {x4} (h0 : Keeps s0 x0) : Keeps s0 (@State.cqheadWrite x0 x1 x2 x3 x4) := by
  unfold State.cqheadWrite
  with_reducible repeat' (first
      | assumption | apply State.stkError_keeps | apply State.wr_keeps | apply Keeps.ite)

theorem State.doorbell_keeps {s0 : State} {x0} {x1} {x2} {x3} {x4} (h0 : Keeps s0 x0) : Keeps s0 (@State.doorbell x0 x1 x2 x3 x4) := by
  unfold State.doorbell
  with_reducible repeat' (first
      | assumption | apply State.updCell_keeps | apply State.stkError_keeps | apply State.wr_keeps | apply Keeps.ite)

theorem State.mboxAck_keeps {s0 : State} {x0} {x1} {x2} {x3} {x4} (h0 : Keeps s0 x0) : Keeps s0 (@State.mboxAck x0 x1 x2 x3 x4) := by
  unfold State.mboxAck
  with_reducible repeat' (first
      | assumption | apply State.stkPf_keeps | apply State.wrs_keeps | apply State.stkTell_keeps | apply Keeps.ite)

theorem State.mboxTx_keeps {s0 : State} {x0} {x1} {x2} {x3} {x4} (h0 : Keeps s0 x0) : Keeps s0 (@State.mboxTx x0 x1 x2 x3 x4) := by
  unfold State.mboxTx
  with_reducible repeat' (first
      | assumption | apply State.stkPf_keeps | apply State.wrs_keeps | apply State.stkTell_keeps | apply Keeps.ite)

theorem State.physWrite_keeps {s0 : State} {x0} {x1} {x2} {x3} {x4} (h4 : Keeps s0 x4) : KeepsO s0 (@State.physWrite x0 x1 x2 x3 x4) := by
  induction x1 generalizing x0 x2 x3 x4 with
  | zero => (unfold State.physWrite; first | assumption | constructor; assumption | constructor | exact h4)
  | succ n ih =>
    unfold State.physWrite
    try dsimp only
    with_reducible repeat' (first
        | assumption | apply ih | apply State.agentWrite_keeps | apply KeepsO.someI | apply KeepsO.noneT
        | refine Keeps.fst ?_ (by assumption) | split)

theorem State.updRid_keeps {s0 : State} {x0} {x1} {x2} {x3} (h0 : Keeps s0 x0) : Keeps s0 (@State.updRid x0 x1 x2 x3) := by
  unfold State.updRid
  with_reducible repeat' (first
      | assumption | apply State.wrs_keeps | (fail_if_no_progress apply Keeps.mkU))

theorem State.ridAdvance_keeps {s0 : State} {x0} {x1} {x2} {x3} (h3 : Keeps s0 x3) : Keeps s0 (@State.ridAdvance x0 x1 x2 x3) := by
  induction x2 generalizing x0 x1 x3 with
  | zero => (unfold State.ridAdvance; first | assumption | constructor; assumption | constructor | exact h3)
  | succ n ih =>
    unfold State.ridAdvance
    try dsimp only
    with_reducible repeat' (first
        | assumption | apply ih | apply State.bump_keeps | apply State.updCell_keeps | apply State.updRid_keeps | split)

theorem State.ringCfg_keeps {s0 : State} {x0} {x1} {x2} {x3} {x4} {x5} {x6} (h0 : Keeps s0 x0) : Keeps s0 (@State.ringCfg x0 x1 x2 x3 x4 x5 x6) := by
  unfold State.ringCfg
  with_reducible repeat' (first
      | assumption | apply State.stkError_keeps | apply State.wr_keeps | apply Keeps.ite | split)

theorem State.segOut_keeps {s0 : State} {x0} {x1} {x2} {x3} {x4} (h0 : Keeps s0 x0) : Keeps s0 (@State.segOut x0 x1 x2 x3 x4) := by
  unfold State.segOut
  with_reducible repeat' (first
      | assumption | apply State.bump_keeps | apply State.physWrite_keeps | apply State.updStk_keeps | apply State.ash_keeps
      | apply State.updRid_keeps | apply State.ridAdvance_keeps | refine KeepsO.elim ?_ (by assumption) | split
      | (fail_if_no_progress extract_lets))

theorem State.splitEnd_keeps {s0 : State} {x0} {x1} {x2} {x3} {x4} {x5} {x6} {x7} (h0 : Keeps s0 x0) : Keeps s0 (@State.splitEnd x0 x1 x2 x3 x4 x5 x6 x7) := by
  unfold State.splitEnd
  try dsimp only
  with_reducible repeat' (first
      | assumption | apply runOut_keeps | apply State.setFin_keeps | apply bitmapRun_keeps
      | refine Keeps.fst ?_ (by assumption) | split)

theorem State.stkCtlReset_keeps {s0 : State} {x0} {x1} {x2} (h0 : Keeps s0 x0) : Keeps s0 (@State.stkCtlReset x0 x1 x2) := by
  unfold State.stkCtlReset
  with_reducible repeat' (first
      | assumption | intro _ | apply State.stkReset_keeps | apply State.setChState_keeps | apply Keeps.ite | apply Keeps.fold)

theorem State.stkResetReq_keeps {s0 : State} {x0} {x1} {x2} {x3} {x4} (h0 : Keeps s0 x0) : Keeps s0 (@State.stkResetReq x0 x1 x2 x3 x4) := by
  unfold State.stkResetReq
  with_reducible repeat' (first
      | assumption | apply State.stkReset_keeps | apply Keeps.ite)

theorem State.stkRun_keeps {s0 : State} {x0} {x1} {x2} {x3} {x4} {x5} {x6} {x7} (h0 : Keeps s0 x0) (h7 : ∀ y0 y1 y2, Keeps s0 y2 → Keeps s0 (x7 y0 y1 y2).1) : Keeps s0 (@State.stkRun x0 x1 x2 x3 x4 x5 x6 x7) := by
  unfold State.stkRun
  try dsimp only
  with_reducible repeat' (first
      | assumption | apply h7 | apply State.setFin_keeps | refine Keeps.fst ?_ (by assumption) | split)

theorem execAesgcm_keeps {s0 : State} {x0} {x1} {x2} {x3} {x4} (h4 : Keeps s0 x4) : KeepsH s0 (@execAesgcm x0 x1 x2 x3 x4) := by
  unfold execAesgcm
  with_reducible repeat' (first
      | assumption | intro _ | apply runGcm_keeps | apply State.stkRun_keeps | apply KeepsH.nextI | split)

theorem execAgg_keeps {s0 : State} {x0} {x1} {x2} {x3} {x4} (h4 : Keeps s0 x4) : KeepsH s0 (@execAgg x0 x1 x2 x3 x4) := by
  unfold execAgg
  with_reducible repeat' (first
      | assumption | apply State.stkRun_keeps | apply runAgg_keeps | apply KeepsH.nextI)

theorem execCellClockGate_keeps {s0 : State} {x0} {x1} {x2} (h2 : Keeps s0 x2) : KeepsH s0 (@execCellClockGate x0 x1 x2) := by
  unfold execCellClockGate
  with_reducible repeat' (first
      | assumption | apply State.updCell_keeps | apply Keeps.ite | apply KeepsH.nextI)

theorem execCellFault_keeps {s0 : State} {x0} {x1} {x2} (h2 : Keeps s0 x2) : KeepsH s0 (@execCellFault x0 x1 x2) := by
  unfold execCellFault
  with_reducible repeat' (first
      | assumption | intro _ | apply State.stkReset_keeps | apply State.bump_keeps | apply State.stkStop_keeps
      | apply State.ash_keeps | apply Keeps.ite | apply KeepsH.nextI | apply Keeps.fold)

theorem execCfgEnWrite_keeps {s0 : State} {x0} {x1} {x2} {x3} {x4} (h4 : Keeps s0 x4) : KeepsH s0 (@execCfgEnWrite x0 x1 x2 x3 x4) := by
  unfold execCfgEnWrite
  with_reducible repeat' (first
      | assumption | apply State.cfgEn_keeps | apply KeepsH.nextI)

theorem execChannelQuarantine_keeps {s0 : State} {x0} {x1} {x2} {x3} (h3 : Keeps s0 x3) : KeepsH s0 (@execChannelQuarantine x0 x1 x2 x3) := by
  unfold execChannelQuarantine
  with_reducible repeat' (first
      | assumption | apply State.setChState_keeps | apply State.ash_keeps | apply Keeps.ite | apply KeepsH.nextI)

theorem execChannelResetDone_keeps {s0 : State} {x0} {x1} {x2} {x3} (h3 : Keeps s0 x3) : KeepsH s0 (@execChannelResetDone x0 x1 x2 x3) := by
  unfold execChannelResetDone
  with_reducible repeat' (first
      | assumption | apply State.stkPf_keeps | apply State.stkTell_keeps | apply State.chanEmpty_keeps | apply Keeps.ite
      | apply KeepsH.nextI)

theorem execChannelResetRequest_keeps {s0 : State} {x0} {x1} {x2} {x3} {x4} (h4 : Keeps s0 x4) : KeepsH s0 (@execChannelResetRequest x0 x1 x2 x3 x4) := by
  unfold execChannelResetRequest
  with_reducible repeat' (first
      | assumption | apply State.stkResetReq_keeps | apply KeepsH.nextI)

theorem execCqheadWrite_keeps {s0 : State} {x0} {x1} {x2} {x3} {x4} (h4 : Keeps s0 x4) : KeepsH s0 (@execCqheadWrite x0 x1 x2 x3 x4) := by
  unfold execCqheadWrite
  with_reducible repeat' (first
      | assumption | apply State.cqheadWrite_keeps | apply KeepsH.nextI)

theorem execCrc32c_keeps {s0 : State} {x0} {x1} {x2} {x3} {x4} (h4 : Keeps s0 x4) : KeepsH s0 (@execCrc32c x0 x1 x2 x3 x4) := by
  unfold execCrc32c
  with_reducible repeat' (first
      | assumption | apply runCrc_keeps | apply State.stkRun_keeps | apply KeepsH.nextI)

theorem execDecomp_keeps {s0 : State} {x0} {x1} {x2} {x3} {x4} (h4 : Keeps s0 x4) : KeepsH s0 (@execDecomp x0 x1 x2 x3 x4) := by
  unfold execDecomp
  with_reducible repeat' (first
      | assumption | apply State.stkRun_keeps | apply runDecomp_keeps | apply KeepsH.nextI)

theorem execDescComplete_keeps {s0 : State} {x0} {x1} {x2} {x3} {x4} (h4 : Keeps s0 x4) : KeepsH s0 (@execDescComplete x0 x1 x2 x3 x4) := by
  unfold execDescComplete
  with_reducible repeat' (first
      | assumption | apply State.bump_keeps | apply State.wrIf_keeps | apply State.updStk_keeps | apply State.stkTell_keeps
      | apply State.pWrite_keeps | apply State.stkError_keeps | apply State.wr_keeps | apply KeepsH.nextI
      | refine Keeps.fst ?_ (by assumption) | split | (fail_if_no_progress extract_lets))

theorem execDescFetch_keeps {s0 : State} {x0} {x1} {x2} {x3} (h3 : Keeps s0 x3) : KeepsH s0 (@execDescFetch x0 x1 x2 x3) := by
  unfold execDescFetch
  with_reducible repeat' (first
      | assumption | apply State.pRead_keeps | apply State.updStk_keeps | apply State.updCell_keeps
      | apply State.stkError_keeps | apply State.wr_keeps | apply Keeps.ite | apply KeepsH.nextI
      | refine Keeps.fst ?_ (by assumption) | split)

theorem execDescStart_keeps {s0 : State} {x0} {x1} {x2} {x3} (h3 : Keeps s0 x3) : KeepsH s0 (@execDescStart x0 x1 x2 x3) := by
  unfold execDescStart
  with_reducible repeat' (first
      | assumption | apply State.setFin_keeps | apply State.pRead_keeps | apply State.updDesc_keeps | apply Keeps.ite
      | apply KeepsH.nextI | refine Keeps.fst ?_ (by assumption) | split)

theorem execDrainTimerExpiry_keeps {s0 : State} {x0} {x1} {x2} {x3} (h3 : Keeps s0 x3) : KeepsH s0 (@execDrainTimerExpiry x0 x1 x2 x3) := by
  unfold execDrainTimerExpiry
  with_reducible repeat' (first
      | assumption | apply State.stkStop_keeps | apply Keeps.ite | apply KeepsH.nextI)

theorem execDrained_keeps {s0 : State} {x0} {x1} {x2} {x3} {x4} (h4 : Keeps s0 x4) : KeepsH s0 (@execDrained x0 x1 x2 x3 x4) := by
  unfold execDrained
  with_reducible repeat' (first
      | assumption | apply State.bump_keeps | apply State.updStk_keeps | apply State.updCell_keeps | apply State.updRid_keeps
      | apply Keeps.ite | apply KeepsH.nextI)

theorem execFilter_keeps {s0 : State} {x0} {x1} {x2} {x3} {x4} (h4 : Keeps s0 x4) : KeepsH s0 (@execFilter x0 x1 x2 x3 x4) := by
  unfold execFilter
  with_reducible repeat' (first
      | assumption | intro _ | apply State.setFin_keeps | apply State.pRead_keeps | apply State.updDesc_keeps
      | apply runFilter_keeps | apply State.stkRun_keeps | apply KeepsH.nextI | refine Keeps.fst ?_ (by assumption) | split
      | (fail_if_no_progress extract_lets))

theorem execFireboxSlice_keeps {s0 : State} {x0} {x1} {x2} {x3} {x4} (h4 : Keeps s0 x4) : KeepsH s0 (@execFireboxSlice x0 x1 x2 x3 x4) := by
  unfold execFireboxSlice
  with_reducible repeat' (first
      | assumption | apply State.updCell_keeps | apply KeepsH.nextI | split | (fail_if_no_progress extract_lets)
      | (fail_if_no_progress apply Keeps.mkU))

theorem execHashbuild_keeps {s0 : State} {x0} {x1} {x2} {x3} {x4} (h4 : Keeps s0 x4) : KeepsH s0 (@execHashbuild x0 x1 x2 x3 x4) := by
  unfold execHashbuild
  with_reducible repeat' (first
      | assumption | apply runBuild_keeps | apply State.stkRun_keeps | apply KeepsH.nextI)

theorem execHashprobe_keeps {s0 : State} {x0} {x1} {x2} {x3} {x4} (h4 : Keeps s0 x4) : KeepsH s0 (@execHashprobe x0 x1 x2 x3 x4) := by
  unfold execHashprobe
  with_reducible repeat' (first
      | assumption | apply State.stkRun_keeps | apply runProbe_keeps | apply KeepsH.nextI)

theorem execMboxAck_keeps {s0 : State} {x0} {x1} {x2} {x3} {x4} (h4 : Keeps s0 x4) : KeepsH s0 (@execMboxAck x0 x1 x2 x3 x4) := by
  unfold execMboxAck
  with_reducible repeat' (first
      | assumption | apply State.mboxAck_keeps | apply KeepsH.nextI)

theorem execMboxTx_keeps {s0 : State} {x0} {x1} {x2} {x3} {x4} (h4 : Keeps s0 x4) : KeepsH s0 (@execMboxTx x0 x1 x2 x3 x4) := by
  unfold execMboxTx
  with_reducible repeat' (first
      | assumption | apply State.mboxTx_keeps | apply KeepsH.nextI)

theorem execMerge_keeps {s0 : State} {x0} {x1} {x2} {x3} {x4} (h4 : Keeps s0 x4) : KeepsH s0 (@execMerge x0 x1 x2 x3 x4) := by
  unfold execMerge
  with_reducible repeat' (first
      | assumption | apply runMerge_keeps | apply State.stkRun_keeps | apply KeepsH.nextI)

theorem execProject_keeps {s0 : State} {x0} {x1} {x2} {x3} {x4} (h4 : Keeps s0 x4) : KeepsH s0 (@execProject x0 x1 x2 x3 x4) := by
  unfold execProject
  with_reducible repeat' (first
      | assumption | apply State.stkRun_keeps | apply runProject_keeps | apply KeepsH.nextI)

theorem execRiddleDrain_keeps {s0 : State} {x0} {x1} {x2} {x3} {x4} (h4 : Keeps s0 x4) : KeepsH s0 (@execRiddleDrain x0 x1 x2 x3 x4) := by
  unfold execRiddleDrain
  with_reducible repeat' (first
      | assumption | apply State.updCell_keeps | apply State.updRid_keeps | apply Keeps.ite | apply KeepsH.nextI)

theorem execRiddleLineEval_keeps {s0 : State} {x0} {x1} {x2} (h2 : Keeps s0 x2) : KeepsH s0 (@execRiddleLineEval x0 x1 x2) := by
  unfold execRiddleLineEval
  with_reducible repeat' (first
      | assumption | apply State.bump_keeps | apply State.segOut_keeps | apply State.agentRead_keeps
      | apply State.touch_keeps | apply State.updRid_keeps | apply KeepsH.nextI | refine Keeps.fst ?_ (by assumption) | split
      | (fail_if_no_progress extract_lets))

theorem execRiddleProgramLoad_keeps {s0 : State} {x0} {x1} {x2} {x3} {x4} (h4 : Keeps s0 x4) : KeepsH s0 (@execRiddleProgramLoad x0 x1 x2 x3 x4) := by
  unfold execRiddleProgramLoad
  with_reducible repeat' (first
      | assumption | apply State.updRid_keeps | apply KeepsH.nextI | split)

theorem execRiddleSegmentWrite_keeps {s0 : State} {x0} {x1} {x2} (h2 : Keeps s0 x2) : KeepsH s0 (@execRiddleSegmentWrite x0 x1 x2) := by
  unfold execRiddleSegmentWrite
  with_reducible repeat' (first
      | assumption | apply State.segOut_keeps | apply KeepsH.nextI | split)

theorem execRiddleWorkItem_keeps {s0 : State} {x0} {x1} {x2} {x3} {x4} (h4 : Keeps s0 x4) : KeepsH s0 (@execRiddleWorkItem x0 x1 x2 x3 x4) := by
  unfold execRiddleWorkItem
  with_reducible repeat' (first
      | assumption | apply State.updDesc_keeps | apply State.updCell_keeps | apply State.updRid_keeps
      | apply State.ridAdvance_keeps | apply Keeps.ite | apply KeepsH.nextI | split)

theorem execRingCfgWrite_keeps {s0 : State} {x0} {x1} {x2} {x3} {x4} {x5} {x6} (h6 : Keeps s0 x6) : KeepsH s0 (@execRingCfgWrite x0 x1 x2 x3 x4 x5 x6) := by
  unfold execRingCfgWrite
  with_reducible repeat' (first
      | assumption | apply State.ringCfg_keeps | apply KeepsH.nextI)

theorem execSegmentRead_keeps {s0 : State} {x0} {x1} {x2} {x3} {x4} (h4 : Keeps s0 x4) : KeepsH s0 (@execSegmentRead x0 x1 x2 x3 x4) := by
  unfold execSegmentRead
  with_reducible repeat' (first
      | assumption | apply State.splitEnd_keeps | apply State.boxValues_keeps | apply State.updDesc_keeps
      | apply State.updStk_keeps | apply State.updCell_keeps | apply KeepsH.nextI | refine Keeps.fst ?_ (by assumption)
      | split | (fail_if_no_progress extract_lets))

theorem execSha256_keeps {s0 : State} {x0} {x1} {x2} {x3} {x4} (h4 : Keeps s0 x4) : KeepsH s0 (@execSha256 x0 x1 x2 x3 x4) := by
  unfold execSha256
  with_reducible repeat' (first
      | assumption | apply runSha_keeps | apply State.stkRun_keeps | apply KeepsH.nextI)

theorem execSortrun_keeps {s0 : State} {x0} {x1} {x2} {x3} {x4} (h4 : Keeps s0 x4) : KeepsH s0 (@execSortrun x0 x1 x2 x3 x4) := by
  unfold execSortrun
  with_reducible repeat' (first
      | assumption | apply runSort_keeps | apply State.stkRun_keeps | apply KeepsH.nextI)

theorem execSqtailDoorbell_keeps {s0 : State} {x0} {x1} {x2} {x3} {x4} (h4 : Keeps s0 x4) : KeepsH s0 (@execSqtailDoorbell x0 x1 x2 x3 x4) := by
  unfold execSqtailDoorbell
  with_reducible repeat' (first
      | assumption | apply State.doorbell_keeps | apply KeepsH.nextI)

theorem execStkCtlReset_keeps {s0 : State} {x0} {x1} {x2} (h2 : Keeps s0 x2) : KeepsH s0 (@execStkCtlReset x0 x1 x2) := by
  unfold execStkCtlReset
  with_reducible repeat' (first
      | assumption | apply State.stkCtlReset_keeps | apply KeepsH.nextI)

theorem execStkNop_keeps {s0 : State} {x0} {x1} {x2} {x3} {x4} (h4 : Keeps s0 x4) : KeepsH s0 (@execStkNop x0 x1 x2 x3 x4) := by
  unfold execStkNop
  with_reducible repeat' (first
      | assumption | intro _ | apply State.stkRun_keeps | apply KeepsH.nextI)

end Sys2Proof.Machine
end

