-- ==== Sys2Proof/Laws/VaultKeeps.lean ====
section
/-!
SUPPORT. Laws/VaultKeeps.lean: what Machine/Vault.lean leaves alone: each operation and meaning of it keeps the queue, the parts, the clock and the
canonical form of memory (`Keeps`).
-/
set_option linter.all false
namespace Sys2Proof.Machine

theorem State.seatArith_keeps {s0 : State} {x0} {x1} (h0 : Keeps s0 x0) : KeepsO s0 (@State.seatArith x0 x1) := by
  unfold State.seatArith
  with_reducible repeat' (first
      | assumption | apply State.setSr_keeps | apply State.enter_keeps | apply KeepsO.someI | apply KeepsO.noneT
      | refine KeepsE.enteredE ?_ (by assumption) | refine KeepsE.arithE ?_ (by assumption)
      | refine KeepsE.noRoomE ?_ (by assumption) | split)

theorem State.seatCaller_keeps {s0 : State} {x0} {x1} {x2} (h0 : Keeps s0 x0) : Keeps s0 (@State.seatCaller x0 x1 x2) := by
  unfold State.seatCaller
  with_reducible repeat' (first
      | assumption | apply State.useFree_keeps | apply State.wrs_keeps | apply State.updCore_keeps | split)

theorem State.abandonSeat_keeps {s0 : State} {x0} {x1} (h0 : Keeps s0 x0) : KeepsO s0 (@State.abandonSeat x0 x1) := by
  unfold State.abandonSeat
  with_reducible repeat' (first
      | assumption | intro _ | apply State.seatArith_keeps | apply State.abortRegion_keeps | apply State.setWorld_keeps
      | apply State.repredict_keeps | apply State.drain_keeps | apply State.updCore_keeps | apply State.seatCaller_keeps
      | apply State.raise_keeps | apply State.wr_keeps | apply Keeps.ite | apply KeepsO.noneT | apply KeepsO.bind
      | refine KeepsO.elim ?_ (by assumption) | split | (fail_if_no_progress extract_lets))

theorem State.evictSeats_keeps {s0 : State} {x0} {x1} (h0 : Keeps s0 x0) : KeepsO s0 (@State.evictSeats x0 x1) := by
  unfold State.evictSeats
  with_reducible repeat' (first
      | assumption | intro _ | apply State.abandonSeat_keeps | apply KeepsO.someI | apply KeepsO.fold | apply KeepsO.bind)

theorem State.moved_keeps {s0 : State} {x0} {x1} (h0 : Keeps s0 x0) : Keeps s0 (@State.moved x0 x1) := by
  unfold State.moved
  with_reducible repeat' (first
      | assumption | (fail_if_no_progress apply Keeps.mkU))

theorem State.secEnd_keeps {s0 : State} {x0} {x1} {x2} {x3} (h0 : Keeps s0 x0) : KeepsO s0 (@State.secEnd x0 x1 x2 x3) := by
  unfold State.secEnd
  with_reducible repeat' (first
      | assumption | apply State.bump_keeps | apply State.updCore_keeps | apply State.agentWrite_keeps | apply KeepsO.someI
      | apply KeepsO.noneT | refine Keeps.fst ?_ (by assumption) | split | (fail_if_no_progress extract_lets))

theorem State.moveEnd_keeps {s0 : State} {x0} {x1} {x2} (h0 : Keeps s0 x0) : KeepsO s0 (@State.moveEnd x0 x1 x2) := by
  unfold State.moveEnd
  with_reducible repeat' (first
      | assumption | apply State.moved_keeps | apply State.secEnd_keeps | apply KeepsO.someI | split)

theorem State.moveTo_keeps {s0 : State} {x0} {x1} {x2} (h0 : Keeps s0 x0) : Keeps s0 (@State.moveTo x0 x1 x2) := by
  unfold State.moveTo
  with_reducible repeat' (first
      | assumption | (fail_if_no_progress apply Keeps.mkU))

theorem State.newKey_keeps {s0 : State} {x0} {x1} (h0 : Keeps s0 x0) : Keeps s0 (@State.newKey x0 x1) := by
  unfold State.newKey
  with_reducible repeat' (first
      | assumption | (fail_if_no_progress apply Keeps.mkU))

theorem State.pageRecall_keeps {s0 : State} {x0} {x1} {x2} (h0 : Keeps s0 x0) : Keeps s0 (@State.pageRecall x0 x1 x2) := by
  unfold State.pageRecall
  with_reducible repeat' (first
      | assumption | intro _ | apply State.recallAll_keeps | apply Keeps.fold)

theorem State.pagePut_keeps {s0 : State} {x0} {x1} {x2} {x3} (h0 : Keeps s0 x0) : Keeps s0 (@State.pagePut x0 x1 x2 x3) := by
  unfold State.pagePut
  try dsimp only
  with_reducible repeat' (first
      | assumption | intro _ | apply State.encrypted_keeps | apply State.pageRecall_keeps | apply State.setPoison_keeps
      | apply Keeps.fold | apply Keeps.mkWF)

theorem State.pageZero_keeps {s0 : State} {x0} {x1} {x2} (h0 : Keeps s0 x0) : Keeps s0 (@State.pageZero x0 x1 x2) := by
  unfold State.pageZero
  with_reducible repeat' (first
      | assumption | apply State.pagePut_keeps)

theorem State.resetDone_keeps {s0 : State} {x0} {x1} {x2} (h0 : Keeps s0 x0) : Keeps s0 (@State.resetDone x0 x1 x2) := by
  unfold State.resetDone
  with_reducible repeat' (first
      | assumption | apply State.setVinst_keeps | split)

theorem State.sealSeats_keeps {s0 : State} {x0} {x1} {x2} (h0 : Keeps s0 x0) : Keeps s0 (@State.sealSeats x0 x1 x2) := by
  unfold State.sealSeats
  with_reducible repeat' (first
      | assumption | intro _ | apply Keeps.ite | apply Keeps.fold | (fail_if_no_progress apply Keeps.mkU))

theorem State.secDo_keeps {s0 : State} {x0} {x1} {x2} {x3} (h0 : Keeps s0 x0) (h3 : ∀ y0 y1, Keeps s0 y1 → KeepsSEC s0 (x3 y0 y1)) : Keeps s0 (@State.secDo x0 x1 x2 x3) := by
  unfold State.secDo
  try dsimp only
  with_reducible repeat' (first
      | assumption | apply h3 | apply State.secEnd_keeps | apply State.agentRead_keeps | apply KeepsSEC.finI
      | apply KeepsSEC.waitT | apply KeepsO.getD | refine Keeps.fst ?_ (by assumption)
      | refine KeepsSEC.finE ?_ (by assumption) | refine KeepsSEC.laterE ?_ (by assumption) | split)

theorem secWrite_keeps {s0 : State} {x0} {x1} {x2} {x3} (h3 : Keeps s0 x3) : KeepsO s0 (@secWrite x0 x1 x2 x3) := by
  induction x1 generalizing x0 x2 x3 with
  | nil => (unfold secWrite; first | assumption | constructor; assumption | constructor | exact h3)
  | cons e t ih =>
    unfold secWrite
    try dsimp only
    with_reducible repeat' (first
        | assumption | apply ih | apply State.agentWrite_keeps | apply KeepsO.noneT | refine Keeps.fst ?_ (by assumption)
        | split)

theorem State.secVa_keeps {s0 : State} {x0} {x1} {x2} {x3} {x4} (h0 : Keeps s0 x0) : KeepsO2 s0 (@State.secVa x0 x1 x2 x3 x4) := by
  unfold State.secVa
  with_reducible repeat' (first
      | assumption | apply xlate_keeps | apply State.touch_keeps | apply KeepsO2.someI | apply KeepsO2.noneT
      | refine KeepsX.okE ?_ (by assumption) | split)

theorem State.secReport_keeps {s0 : State} {x0} {x1} {x2} (h0 : Keeps s0 x0) : KeepsSEC s0 (@State.secReport x0 x1 x2) := by
  unfold State.secReport
  with_reducible repeat' (first
      | assumption | apply secWrite_keeps | apply State.useFree_keeps | apply State.secVa_keeps | apply KeepsSEC.finI
      | apply KeepsSEC.waitT | refine KeepsO.elim ?_ (by assumption) | refine KeepsO2.elim ?_ (by assumption) | split
      | (fail_if_no_progress extract_lets))

theorem State.secWorld_keeps {s0 : State} {x0} {x1} {x2} {x3} {x4} (h0 : Keeps s0 x0) (h4 : ∀ y0, Keeps s0 y0 → KeepsSEC s0 (x4 y0)) : KeepsSEC s0 (@State.secWorld x0 x1 x2 x3 x4) := by
  unfold State.secWorld
  with_reducible repeat' (first
      | assumption | apply h4 | apply KeepsSEC.finI | apply KeepsSEC.ite)

theorem State.unitAsk_keeps {s0 : State} {x0} {x1} {x2} {x3} {x4} (h0 : Keeps s0 x0) : KeepsSEC s0 (@State.unitAsk x0 x1 x2 x3 x4) := by
  unfold State.unitAsk
  with_reducible repeat' (first
      | assumption | apply KeepsSEC.laterI | (fail_if_no_progress apply Keeps.mkU))

theorem State.unitFree_keeps {s0 : State} {x0} {x1} {x2} (h0 : Keeps s0 x0) : Keeps s0 (@State.unitFree x0 x1 x2) := by
  unfold State.unitFree
  with_reducible repeat' (first
      | assumption | apply State.msiRelease_keeps | apply State.setChState_keeps | apply State.updPrc_keeps
      | apply State.updStk_keeps | apply State.stkIrq_keeps | apply Keeps.ite)

theorem State.unitRoutes_keeps {s0 : State} {x0} {x1} {x2} {x3} (h0 : Keeps s0 x0) : Keeps s0 (@State.unitRoutes x0 x1 x2 x3) := by
  unfold State.unitRoutes
  with_reducible repeat' (first
      | assumption | intro _ | apply State.wr_keeps | apply Keeps.fold)

theorem State.unitFrom_keeps {s0 : State} {x0} {x1} {x2} {x3} (h0 : Keeps s0 x0) : Keeps s0 (@State.unitFrom x0 x1 x2 x3) := by
  unfold State.unitFrom
  with_reducible repeat' (first
      | assumption | apply State.iotlbDrop_keeps | apply State.setVinst_keeps | apply State.updPrc_keeps
      | apply State.wrs_keeps | apply State.unitRoutes_keeps | apply Keeps.ite)

theorem State.unitTo_keeps {s0 : State} {x0} {x1} {x2} {x3} (h0 : Keeps s0 x0) : Keeps s0 (@State.unitTo x0 x1 x2 x3) := by
  unfold State.unitTo
  with_reducible repeat' (first
      | assumption | apply State.iotlbDrop_keeps | apply State.setVinst_keeps | apply State.updPrc_keeps
      | apply State.wrs_keeps | apply State.unitRoutes_keeps | apply Keeps.ite)

theorem State.unitNow_keeps {s0 : State} {x0} {x1} {x2} {x3} (h0 : Keeps s0 x0) : Keeps s0 (@State.unitNow x0 x1 x2 x3) := by
  unfold State.unitNow
  with_reducible repeat' (first
      | assumption | apply State.stkReset_keeps | apply State.stkStop_keeps | apply State.unitTo_keeps | apply Keeps.ite)

theorem State.unitQuarantine_keeps {s0 : State} {x0} {x1} {x2} {x3} (h0 : Keeps s0 x0) : Keeps s0 (@State.unitQuarantine x0 x1 x2 x3) := by
  unfold State.unitQuarantine
  with_reducible repeat' (first
      | assumption | apply State.prcAsh_keeps | apply State.bump_keeps | apply State.setVinst_keeps
      | apply State.setChState_keeps | apply State.updPrc_keeps | apply State.updStk_keeps | apply State.ash_keeps
      | apply Keeps.ite)

theorem State.viKick_keeps {s0 : State} {x0} {x1} {x2} (h0 : Keeps s0 x0) : Keeps s0 (@State.viKick x0 x1 x2) := by
  unfold State.viKick
  with_reducible repeat' (first
      | assumption | apply State.setVinst_keeps | apply Keeps.ite)

theorem execAttest_keeps {s0 : State} {x0} {x1} (h1 : Keeps s0 x1) : KeepsH s0 (@execAttest x0 x1) := by
  unfold execAttest
  with_reducible repeat' (first
      | assumption | intro _ | apply State.secDo_keeps | apply State.secReport_keeps | apply KeepsH.nextI
      | apply KeepsSEC.finI | apply KeepsSEC.ite)

theorem execSecRequestBadOp_keeps {s0 : State} {x0} {x1} (h1 : Keeps s0 x1) : KeepsH s0 (@execSecRequestBadOp x0 x1) := by
  unfold execSecRequestBadOp
  try dsimp only
  with_reducible repeat' (first
      | assumption | intro _ | apply State.secDo_keeps | apply KeepsH.nextI | apply KeepsSEC.finI)

theorem execStkkey_keeps {s0 : State} {x0} {x1} (h1 : Keeps s0 x1) : KeepsH s0 (@execStkkey x0 x1) := by
  unfold execStkkey
  try dsimp only
  with_reducible repeat' (first
      | assumption | intro _ | apply State.secDo_keeps | apply State.updStk_keeps | apply KeepsH.nextI | apply KeepsSEC.finI
      | apply KeepsSEC.ite)

theorem execUnitResetComplete_keeps {s0 : State} {x0} {x1} {x2} (h2 : Keeps s0 x2) : KeepsH s0 (@execUnitResetComplete x0 x1 x2) := by
  unfold execUnitResetComplete
  with_reducible repeat' (first
      | assumption | apply State.unitFrom_keeps | apply State.moveTo_keeps | apply State.resetDone_keeps
      | apply State.unitTo_keeps | apply State.unitFree_keeps | apply State.moveEnd_keeps | apply KeepsH.nextI
      | apply KeepsO.getD | split)

theorem execUnitResetTimeout_keeps {s0 : State} {x0} {x1} {x2} (h2 : Keeps s0 x2) : KeepsH s0 (@execUnitResetTimeout x0 x1 x2) := by
  unfold execUnitResetTimeout
  with_reducible repeat' (first
      | assumption | apply State.unitQuarantine_keeps | apply State.moveEnd_keeps | apply KeepsH.nextI | apply KeepsO.getD
      | split)

theorem execUnitRoutesRewritten_keeps {s0 : State} {x0} {x1} {x2} (h2 : Keeps s0 x2) : KeepsH s0 (@execUnitRoutesRewritten x0 x1 x2) := by
  unfold execUnitRoutesRewritten
  with_reducible repeat' (first
      | assumption | apply State.setVinst_keeps | apply State.unitFree_keeps | apply State.moveEnd_keeps | apply KeepsH.nextI
      | apply KeepsO.getD | split)

theorem execUnitWorkStopped_keeps {s0 : State} {x0} {x1} {x2} (h2 : Keeps s0 x2) : KeepsH s0 (@execUnitWorkStopped x0 x1 x2) := by
  unfold execUnitWorkStopped
  with_reducible repeat' (first
      | assumption | apply State.stkReset_keeps | apply State.moveTo_keeps | apply State.updPrc_keeps | apply KeepsH.nextI
      | split)

theorem execVadd_keeps {s0 : State} {x0} {x1} (h1 : Keeps s0 x1) : KeepsH s0 (@execVadd x0 x1) := by
  unfold execVadd
  with_reducible repeat' (first
      | assumption | intro _ | apply State.setVinst_keeps | apply State.secDo_keeps | apply State.secWorld_keeps
      | apply State.pageZero_keeps | apply State.secVa_keeps | apply State.pagePut_keeps | apply State.touch_keeps
      | apply KeepsH.nextI | apply KeepsSEC.finI | apply KeepsSEC.waitT | apply KeepsSEC.ite | apply Keeps.fold
      | refine KeepsO2.elim ?_ (by assumption) | split | (fail_if_no_progress apply Keeps.mkU))

theorem execVassign_keeps {s0 : State} {x0} {x1} {x2} (h2 : Keeps s0 x2) : KeepsH s0 (@execVassign x0 x1 x2) := by
  unfold execVassign
  with_reducible repeat' (first
      | assumption | intro _ | apply State.secDo_keeps | apply State.secWorld_keeps | apply State.unitAsk_keeps
      | apply KeepsH.nextI | apply KeepsSEC.finI | apply KeepsSEC.laterI | apply KeepsSEC.ite | split)

theorem execVaultDataCleared_keeps {s0 : State} {x0} {x1} {x2} (h2 : Keeps s0 x2) : KeepsH s0 (@execVaultDataCleared x0 x1 x2) := by
  unfold execVaultDataCleared
  with_reducible repeat' (first
      | assumption | intro _ | apply State.setVinst_keeps | apply State.newKey_keeps | apply State.pageZero_keeps
      | apply State.pageRecall_keeps | apply Keeps.ite | apply KeepsH.nextI | apply Keeps.fold)

theorem execVaultDigestCheck_keeps {s0 : State} {x0} {x1} {x2} (h2 : Keeps s0 x2) : KeepsH s0 (@execVaultDigestCheck x0 x1 x2) := by
  unfold execVaultDigestCheck
  with_reducible repeat' (first
      | assumption | intro _ | apply State.bump_keeps | apply State.lossNotify_keeps | apply State.setVinst_keeps
      | apply State.sealSeats_keeps | apply State.ash_keeps | apply State.unitFree_keeps | apply State.wr_keeps
      | apply Keeps.ite | apply KeepsH.nextI | apply Keeps.fold)

theorem execVaultRestart_keeps {s0 : State} {x0} {x1} {x2} (h2 : Keeps s0 x2) : KeepsH s0 (@execVaultRestart x0 x1 x2) := by
  unfold execVaultRestart
  with_reducible repeat' (first
      | assumption | apply State.vaultTrigger_keeps | apply KeepsH.nextI)

theorem execVaultSeatAbandon_keeps {s0 : State} {x0} {x1} (h1 : Keeps s0 x1) : KeepsH s0 (@execVaultSeatAbandon x0 x1) := by
  unfold execVaultSeatAbandon
  with_reducible repeat' (first
      | assumption | apply State.abandonSeat_keeps | apply KeepsH.nextI | apply KeepsO.getD | split)

theorem execVaultUnitsReset_keeps {s0 : State} {x0} {x1} {x2} (h2 : Keeps s0 x2) : KeepsH s0 (@execVaultUnitsReset x0 x1 x2) := by
  unfold execVaultUnitsReset
  with_reducible repeat' (first
      | assumption | intro _ | apply State.iotlbDrop_keeps | apply State.stkReset_keeps | apply State.setVinst_keeps
      | apply State.updPrc_keeps | apply Keeps.ite | apply KeepsH.nextI | apply Keeps.fold)

theorem execVaultWatchdogExpiry_keeps {s0 : State} {x0} {x1} {x2} (h2 : Keeps s0 x2) : KeepsH s0 (@execVaultWatchdogExpiry x0 x1 x2) := by
  unfold execVaultWatchdogExpiry
  with_reducible repeat' (first
      | assumption | apply State.vaultTrigger_keeps | apply Keeps.ite | apply KeepsH.nextI)

theorem execVcreate_keeps {s0 : State} {x0} {x1} (h1 : Keeps s0 x1) : KeepsH s0 (@execVcreate x0 x1) := by
  unfold execVcreate
  with_reducible repeat' (first
      | assumption | intro _ | apply State.setVinst_keeps | apply State.newKey_keeps | apply State.secDo_keeps
      | apply State.secWorld_keeps | apply State.wrs_keeps | apply State.wr_keeps | apply State.agentWrite_keeps
      | apply KeepsH.nextI | apply KeepsSEC.finI | apply KeepsSEC.waitT | apply Keeps.fold
      | refine Keeps.fst ?_ (by assumption) | split | (fail_if_no_progress extract_lets))

theorem execVdestroy_keeps {s0 : State} {x0} {x1} (h1 : Keeps s0 x1) : KeepsH s0 (@execVdestroy x0 x1) := by
  unfold execVdestroy
  with_reducible repeat' (first
      | assumption | intro _ | apply State.stkReset_keeps | apply State.unitFrom_keeps | apply State.setVinst_keeps
      | apply State.newKey_keeps | apply State.stkStop_keeps | apply State.secDo_keeps | apply State.secWorld_keeps
      | apply State.pageZero_keeps | apply State.wrs_keeps | apply State.evictSeats_keeps | apply State.unitFree_keeps
      | apply Keeps.ite | apply KeepsH.nextI | apply KeepsSEC.finI | apply KeepsSEC.waitT | apply KeepsSEC.ite
      | apply Keeps.fold | refine KeepsO.elim ?_ (by assumption) | split | (fail_if_no_progress apply Keeps.mkU))

theorem execViKick_keeps {s0 : State} {x0} {x1} {x2} (h2 : Keeps s0 x2) : KeepsH s0 (@execViKick x0 x1 x2) := by
  unfold execViKick
  with_reducible repeat' (first
      | assumption | apply State.viKick_keeps | apply KeepsH.nextI)

theorem execVreclaim_keeps {s0 : State} {x0} {x1} (h1 : Keeps s0 x1) : KeepsH s0 (@execVreclaim x0 x1) := by
  unfold execVreclaim
  with_reducible repeat' (first
      | assumption | intro _ | apply State.secDo_keeps | apply State.secWorld_keeps | apply State.unitAsk_keeps
      | apply KeepsH.nextI | apply KeepsSEC.finI | apply KeepsSEC.laterI | apply KeepsSEC.ite | split)

theorem execVrelease_keeps {s0 : State} {x0} {x1} (h1 : Keeps s0 x1) : KeepsH s0 (@execVrelease x0 x1) := by
  unfold execVrelease
  with_reducible repeat' (first
      | assumption | intro _ | apply State.secDo_keeps | apply State.secWorld_keeps | apply State.unitAsk_keeps
      | apply KeepsH.nextI | apply KeepsSEC.finI | apply KeepsSEC.laterI | apply KeepsSEC.ite)

theorem execVreport_keeps {s0 : State} {x0} {x1} (h1 : Keeps s0 x1) : KeepsH s0 (@execVreport x0 x1) := by
  unfold execVreport
  with_reducible repeat' (first
      | assumption | intro _ | apply State.secDo_keeps | apply State.secWorld_keeps | apply State.secReport_keeps
      | apply KeepsH.nextI)

theorem execVrestart_keeps {s0 : State} {x0} {x1} (h1 : Keeps s0 x1) : KeepsH s0 (@execVrestart x0 x1) := by
  unfold execVrestart
  with_reducible repeat' (first
      | assumption | intro _ | apply State.secDo_keeps | apply State.secWorld_keeps | apply State.vaultTrigger_keeps
      | apply KeepsH.nextI | apply KeepsSEC.laterI | split)

theorem execVseal_keeps {s0 : State} {x0} {x1} (h1 : Keeps s0 x1) : KeepsH s0 (@execVseal x0 x1) := by
  unfold execVseal
  with_reducible repeat' (first
      | assumption | intro _ | apply State.setVinst_keeps | apply State.secDo_keeps | apply State.secWorld_keeps
      | apply State.unitNow_keeps | apply State.wrs_keeps | apply State.sealSeats_keeps | apply State.wr_keeps
      | apply KeepsH.nextI | apply KeepsSEC.finI | apply KeepsSEC.waitT | apply KeepsSEC.ite | apply Keeps.fold | split)

end Sys2Proof.Machine
end

