-- ==== Sys2Proof/Laws/PowerKeeps.lean ====
section
/-!
SUPPORT. Laws/PowerKeeps.lean: what Machine/Power.lean leaves alone: each operation and meaning of it keeps the queue, the parts, the clock and the
canonical form of memory (`Keeps`).
-/
set_option linter.all false
namespace Sys2Proof.Machine

theorem State.clkSet_keeps {s0 : State} {x0} {x1} {x2} {x3} (h0 : Keeps s0 x0) : Keeps s0 (@State.clkSet x0 x1 x2 x3) := by
  unfold State.clkSet
  with_reducible repeat' (first
      | assumption | apply State.wrs_keeps | split)

theorem State.updPw_keeps {s0 : State} {x0} {x1} {x2} (h0 : Keeps s0 x0) : Keeps s0 (@State.updPw x0 x1 x2) := by
  unfold State.updPw
  with_reducible repeat' (first
      | assumption | (fail_if_no_progress apply Keeps.mkU))

theorem State.keysGone_keeps {s0 : State} {x0} {x1} {x2} (h0 : Keeps s0 x0) : Keeps s0 (@State.keysGone x0 x1 x2) := by
  unfold State.keysGone
  with_reducible repeat' (first
      | assumption | intro _ | apply State.newKey_keeps | apply State.setFlue_keeps | apply State.wr_keeps | apply Keeps.ite
      | apply Keeps.fold | apply Keeps.mkW)

theorem State.sealedReset_keeps {s0 : State} {x0} {x1} (h0 : Keeps s0 x0) : Keeps s0 (@State.sealedReset x0 x1) := by
  unfold State.sealedReset
  with_reducible repeat' (first
      | assumption | apply State.keysGone_keeps | apply Keeps.ite)

theorem State.inFlightGone_keeps {s0 : State} {x0} {x1} (h0 : Keeps s0 x0) : Keeps s0 (@State.inFlightGone x0 x1) := by
  unfold State.inFlightGone
  with_reducible repeat' (first
      | assumption | (fail_if_no_progress apply Keeps.mkU))

theorem State.seatsGone_keeps {s0 : State} {x0} {x1} (h0 : Keeps s0 x0) : Keeps s0 (@State.seatsGone x0 x1) := by
  unfold State.seatsGone
  with_reducible repeat' (first
      | assumption | intro _ | apply State.setWorld_keeps | apply State.vaultTrigger_keeps | apply Keeps.fold | split)

theorem State.regsBack_keeps {s0 : State} {x0} {x1} {x2} (h0 : Keeps s0 x0) : Keeps s0 (@State.regsBack x0 x1 x2) := by
  unfold State.regsBack
  with_reducible repeat' (first
      | assumption | (fail_if_no_progress apply Keeps.mkU))

theorem State.coldSock_keeps {s0 : State} {x0} {x1} (h0 : Keeps s0 x0) : Keeps s0 (@State.coldSock x0 x1) := by
  unfold State.coldSock
  with_reducible repeat' (first
      | assumption | intro _ | apply State.sealedReset_keeps | apply State.newKey_keeps | apply State.socketGone_keeps
      | apply State.inFlightGone_keeps | apply State.seatsGone_keeps | apply State.updPw_keeps | apply State.regsBack_keeps
      | apply Keeps.fold | apply Keeps.mkF | (fail_if_no_progress apply Keeps.mkU))

theorem State.coldReset_keeps {s0 : State} {x0} {x1} {x2} (h0 : Keeps s0 x0) : Keeps s0 (@State.coldReset x0 x1 x2) := by
  unfold State.coldReset
  with_reducible repeat' (first
      | assumption | apply State.updPw_keeps | apply State.coldSock_keeps | apply State.wr_keeps | apply Keeps.ite
      | (fail_if_no_progress apply Keeps.mkU))

theorem State.coreForce_keeps {s0 : State} {x0} {x1} (h0 : Keeps s0 x0) : Keeps s0 (@State.coreForce x0 x1) := by
  unfold State.coreForce
  with_reducible repeat' (first
      | assumption | apply State.coreReset_keeps | apply State.coreResetOne_keeps | apply State.updCore_keeps
      | refine KeepsO.elim ?_ (by assumption) | split | (fail_if_no_progress extract_lets))

theorem State.coreRst_keeps {s0 : State} {x0} {x1} {x2} (h0 : Keeps s0 x0) : Keeps s0 (@State.coreRst x0 x1 x2) := by
  unfold State.coreRst
  with_reducible repeat' (first
      | assumption | apply State.coreReset_keeps | apply State.updPw_keeps | refine KeepsO.elim ?_ (by assumption) | split)

theorem State.coreRunSet_keeps {s0 : State} {x0} {x1} {x2} (h0 : Keeps s0 x0) : Keeps s0 (@State.coreRunSet x0 x1 x2) := by
  unfold State.coreRunSet
  with_reducible repeat' (first
      | assumption | apply State.updCore_keeps | apply State.wr_keeps | apply Keeps.ite)

theorem State.coresHeld_keeps {s0 : State} {x0} {x1} {x2} (h0 : Keeps s0 x0) : Keeps s0 (@State.coresHeld x0 x1 x2) := by
  unfold State.coresHeld
  with_reducible repeat' (first
      | assumption | intro _ | apply State.coreForce_keeps | apply State.wr_keeps | apply Keeps.fold)

theorem State.dampBit_keeps {s0 : State} {x0} {x1} {x2} {x3} (h0 : Keeps s0 x0) : Keeps s0 (@State.dampBit x0 x1 x2 x3) := by
  unfold State.dampBit
  with_reducible repeat' (first
      | assumption | apply State.updPw_keeps | apply State.wr_keeps | apply Keeps.ite)

theorem State.freqCheck_keeps {s0 : State} {x0} {x1} {x2} (h0 : Keeps s0 x0) : Keeps s0 (@State.freqCheck x0 x1 x2) := by
  unfold State.freqCheck
  with_reducible repeat' (first
      | assumption | apply State.clkSet_keeps | apply Keeps.ite)

theorem State.freqAll_keeps {s0 : State} {x0} {x1} (h0 : Keeps s0 x0) : Keeps s0 (@State.freqAll x0 x1) := by
  unfold State.freqAll
  with_reducible repeat' (first
      | assumption | intro _ | apply State.freqCheck_keeps | apply Keeps.fold)

theorem State.lastWake_keeps {s0 : State} {x0} {x1} {x2} {x3} (h0 : Keeps s0 x0) : Keeps s0 (@State.lastWake x0 x1 x2 x3) := by
  unfold State.lastWake
  with_reducible repeat' (first
      | assumption | apply State.wrs_keeps)

theorem State.loadBoot_keeps {s0 : State} {x0} {x1} {x2} (h0 : Keeps s0 x0) : Keeps s0 (@State.loadBoot x0 x1 x2) := by
  unfold State.loadBoot
  try dsimp only
  with_reducible repeat' (first
      | assumption | apply Keeps.mkWF)

theorem State.lockPll_keeps {s0 : State} {x0} {x1} {x2} (h0 : Keeps s0 x0) : Keeps s0 (@State.lockPll x0 x1 x2) := by
  unfold State.lockPll
  with_reducible repeat' (first
      | assumption | apply State.clkSet_keeps | apply Keeps.ite)

theorem State.powerUp_keeps {s0 : State} {x0} {x1} (h0 : Keeps s0 x0) : Keeps s0 (@State.powerUp x0 x1) := by
  unfold State.powerUp
  with_reducible repeat' (first
      | assumption | apply State.updPw_keeps | apply State.coldSock_keeps | (fail_if_no_progress apply Keeps.mkU))

theorem State.offNow_keeps {s0 : State} {x0} {x1} (h0 : Keeps s0 x0) : Keeps s0 (@State.offNow x0 x1) := by
  unfold State.offNow
  with_reducible repeat' (first
      | assumption | apply State.powerUp_keeps | apply State.useFree_keeps | apply State.updPw_keeps | apply State.wr_keeps
      | apply Keeps.ite | (fail_if_no_progress apply Keeps.mkU))

theorem State.pkgWake_keeps {s0 : State} {x0} {x1} {x2} {x3} (h0 : Keeps s0 x0) : Keeps s0 (@State.pkgWake x0 x1 x2 x3) := by
  unfold State.pkgWake
  with_reducible repeat' (first
      | assumption | intro _ | apply State.bump_keeps | apply State.updPw_keeps | apply State.wr_keeps
      | apply State.lastWake_keeps | apply Keeps.ite | apply Keeps.fold | (fail_if_no_progress apply Keeps.mkU))

theorem State.pllWrite_keeps {s0 : State} {x0} {x1} {x2} {x3} {x4} (h0 : Keeps s0 x0) : Keeps s0 (@State.pllWrite x0 x1 x2 x3 x4) := by
  unfold State.pllWrite
  with_reducible repeat' (first
      | assumption | apply State.clkSet_keeps | apply State.freqCheck_keeps | apply Keeps.ite)

theorem State.powerDown_keeps {s0 : State} {x0} {x1} (h0 : Keeps s0 x0) : Keeps s0 (@State.powerDown x0 x1) := by
  unfold State.powerDown
  with_reducible repeat' (first
      | assumption | apply State.socketGone_keeps | apply State.seatsGone_keeps | apply State.updPw_keeps
      | apply State.wr_keeps | (fail_if_no_progress apply Keeps.mkU))

theorem State.powerFatal_keeps {s0 : State} {x0} {x1} (h0 : Keeps s0 x0) : Keeps s0 (@State.powerFatal x0 x1) := by
  unfold State.powerFatal
  with_reducible repeat' (first
      | assumption | apply State.socketFail_keeps | apply State.useFree_keeps | apply State.updPw_keeps
      | apply State.wr_keeps | apply Keeps.ite)

theorem State.powerOff_keeps {s0 : State} {x0} {x1} (h0 : Keeps s0 x0) : Keeps s0 (@State.powerOff x0 x1) := by
  unfold State.powerOff
  with_reducible repeat' (first
      | assumption | apply State.powerDown_keeps | apply State.wr_keeps | apply Keeps.ite | split)

theorem State.powerOn_keeps {s0 : State} {x0} {x1} {x2} {x3} (h0 : Keeps s0 x0) : Keeps s0 (@State.powerOn x0 x1 x2 x3) := by
  unfold State.powerOn
  with_reducible repeat' (first
      | assumption | apply State.powerUp_keeps | apply State.updPw_keeps | apply State.wr_keeps | apply Keeps.ite | split)

theorem State.pwrAsh_keeps {s0 : State} {x0} {x1} {x2} (h0 : Keeps s0 x0) : Keeps s0 (@State.pwrAsh x0 x1 x2) := by
  unfold State.pwrAsh
  with_reducible repeat' (first
      | assumption | apply State.useFree_keeps | apply State.ash_keeps)

theorem State.selWrite_keeps {s0 : State} {x0} {x1} {x2} {x3} (h0 : Keeps s0 x0) : Keeps s0 (@State.selWrite x0 x1 x2 x3) := by
  unfold State.selWrite
  with_reducible repeat' (first
      | assumption | apply State.clkSet_keeps | apply Keeps.ite)

theorem State.standbyIn_keeps {s0 : State} {x0} {x1} (h0 : Keeps s0 x0) : Keeps s0 (@State.standbyIn x0 x1) := by
  unfold State.standbyIn
  with_reducible repeat' (first
      | assumption | intro _ | apply State.sliceClear_keeps | apply State.unbuffer_keeps | apply State.updPw_keeps
      | apply State.wr_keeps | apply Keeps.fold | (fail_if_no_progress apply Keeps.mkU))

theorem State.standby_keeps {s0 : State} {x0} {x1} (h0 : Keeps s0 x0) : Keeps s0 (@State.standby x0 x1) := by
  unfold State.standby
  with_reducible repeat' (first
      | assumption | apply State.standbyIn_keeps | apply State.updPw_keeps | apply Keeps.ite | apply Keeps.fold)

theorem State.throttle_keeps {s0 : State} {x0} {x1} {x2} {x3} (h0 : Keeps s0 x0) : Keeps s0 (@State.throttle x0 x1 x2 x3) := by
  unfold State.throttle
  with_reducible repeat' (first
      | assumption | intro _ | apply State.updPw_keeps | apply State.freqAll_keeps | apply Keeps.fold)

theorem State.tileHot_keeps {s0 : State} {x0} {x1} {x2} {x3} {x4} (h0 : Keeps s0 x0) : Keeps s0 (@State.tileHot x0 x1 x2 x3 x4) := by
  unfold State.tileHot
  with_reducible repeat' (first
      | assumption | apply State.updPw_keeps | apply State.dampBit_keeps)

theorem State.upwr_keeps {s0 : State} {x0} {x1} {x2} {x3} (h0 : Keeps s0 x0) : Keeps s0 (@State.upwr x0 x1 x2 x3) := by
  unfold State.upwr
  with_reducible repeat' (first
      | assumption | apply State.wr_keeps | apply Keeps.ite)

theorem State.warmNow_keeps {s0 : State} {x0} {x1} (h0 : Keeps s0 x0) : Keeps s0 (@State.warmNow x0 x1) := by
  unfold State.warmNow
  with_reducible repeat' (first
      | assumption | intro _ | apply State.cxlClear_keeps | apply State.sealedReset_keeps | apply State.coresHeld_keeps
      | apply State.sliceClear_keeps | apply State.inFlightGone_keeps | apply State.unbuffer_keeps
      | apply State.regsBack_keeps | apply State.wr_keeps | apply State.devLost_keeps | apply Keeps.ite | apply Keeps.fold
      | (fail_if_no_progress apply Keeps.mkU))

theorem State.warmReset_keeps {s0 : State} {x0} {x1} (h0 : Keeps s0 x0) : Keeps s0 (@State.warmReset x0 x1) := by
  unfold State.warmReset
  with_reducible repeat' (first
      | assumption | apply State.wr_keeps | apply State.warmNow_keeps | apply Keeps.ite)

theorem execBootVerify_keeps {s0 : State} {x0} {x1} {x2} {x3} {x4} {x5} (h5 : Keeps s0 x5) : KeepsH s0 (@execBootVerify x0 x1 x2 x3 x4 x5) := by
  unfold execBootVerify
  with_reducible repeat' (first
      | assumption | apply State.powerUp_keeps | apply State.updPw_keeps | apply State.loadBoot_keeps
      | apply State.mgcReason_keeps | apply Keeps.ite | apply KeepsH.nextI | (fail_if_no_progress apply Keeps.mkU))

theorem execColdReset_keeps {s0 : State} {x0} {x1} {x2} (h2 : Keeps s0 x2) : KeepsH s0 (@execColdReset x0 x1 x2) := by
  unfold execColdReset
  with_reducible repeat' (first
      | assumption | apply State.coldReset_keeps | apply KeepsH.nextI)

theorem execCorePllUnlock_keeps {s0 : State} {x0} {x1} {x2} (h2 : Keeps s0 x2) : KeepsH s0 (@execCorePllUnlock x0 x1 x2) := by
  unfold execCorePllUnlock
  with_reducible repeat' (first
      | assumption | apply State.clkSet_keeps | apply State.pwrAsh_keeps | apply Keeps.ite | apply KeepsH.nextI)

theorem execCoreReset_keeps {s0 : State} {x0} {x1} {x2} (h2 : Keeps s0 x2) : KeepsH s0 (@execCoreReset x0 x1 x2) := by
  unfold execCoreReset
  with_reducible repeat' (first
      | assumption | apply State.coreRst_keeps | apply KeepsH.nextI)

theorem execCoreRunSet_keeps {s0 : State} {x0} {x1} {x2} (h2 : Keeps s0 x2) : KeepsH s0 (@execCoreRunSet x0 x1 x2) := by
  unfold execCoreRunSet
  with_reducible repeat' (first
      | assumption | apply State.coreRunSet_keeps | apply KeepsH.nextI)

theorem execDamperLimit_keeps {s0 : State} {x0} {x1} {x2} {x3} (h3 : Keeps s0 x3) : KeepsH s0 (@execDamperLimit x0 x1 x2 x3) := by
  unfold execDamperLimit
  with_reducible repeat' (first
      | assumption | apply State.throttle_keeps | apply State.wr_keeps | apply State.dampBit_keeps | apply Keeps.ite
      | apply KeepsH.nextI)

theorem execDamperLimitClear_keeps {s0 : State} {x0} {x1} {x2} {x3} (h3 : Keeps s0 x3) : KeepsH s0 (@execDamperLimitClear x0 x1 x2 x3) := by
  unfold execDamperLimitClear
  with_reducible repeat' (first
      | assumption | apply State.updPw_keeps | apply State.freqAll_keeps | apply State.wr_keeps | apply State.dampBit_keeps
      | apply Keeps.ite | apply KeepsH.nextI)

theorem execFreqRelock_keeps {s0 : State} {x0} {x1} {x2} (h2 : Keeps s0 x2) : KeepsH s0 (@execFreqRelock x0 x1 x2) := by
  unfold execFreqRelock
  with_reducible repeat' (first
      | assumption | apply State.lockPll_keeps | apply Keeps.ite | apply KeepsH.nextI)

theorem execHoldupTrigger_keeps {s0 : State} {x0} {x1} {x2} (h2 : Keeps s0 x2) : KeepsH s0 (@execHoldupTrigger x0 x1 x2) := by
  unfold execHoldupTrigger
  with_reducible repeat' (first
      | assumption | apply State.updPw_keeps | apply State.wr_keeps | apply State.mgcReason_keeps | apply State.pwrAsh_keeps
      | apply Keeps.ite | apply KeepsH.nextI | split)

theorem execJunctionFatal_keeps {s0 : State} {x0} {x1} (h1 : Keeps s0 x1) : KeepsH s0 (@execJunctionFatal x0 x1) := by
  unfold execJunctionFatal
  with_reducible repeat' (first
      | assumption | apply State.powerFatal_keeps | apply State.updPw_keeps | apply Keeps.ite | apply KeepsH.nextI)

theorem execMeshPllUnlock_keeps {s0 : State} {x0} {x1} {x2} (h2 : Keeps s0 x2) : KeepsH s0 (@execMeshPllUnlock x0 x1 x2) := by
  unfold execMeshPllUnlock
  with_reducible repeat' (first
      | assumption | apply State.powerFatal_keeps | apply KeepsH.nextI)

theorem execPartitionStopped_keeps {s0 : State} {x0} {x1} {x2} (h2 : Keeps s0 x2) : KeepsH s0 (@execPartitionStopped x0 x1 x2) := by
  unfold execPartitionStopped
  with_reducible repeat' (first
      | assumption | intro _ | apply State.sealedReset_keeps | apply State.coresHeld_keeps | apply State.wrs_keeps
      | apply State.updStk_keeps | apply State.wr_keeps | apply State.chanEmpty_keeps | apply State.warmNow_keeps
      | apply Keeps.ite | apply KeepsH.nextI | apply Keeps.fold)

theorem execPkgBankedEnter_keeps {s0 : State} {x0} {x1} (h1 : Keeps s0 x1) : KeepsH s0 (@execPkgBankedEnter x0 x1) := by
  unfold execPkgBankedEnter
  with_reducible repeat' (first
      | assumption | intro _ | apply State.wrIf_keeps | apply State.wr_keeps | apply Keeps.ite | apply KeepsH.nextI
      | apply Keeps.fold)

theorem execPkgCmdStandby_keeps {s0 : State} {x0} {x1} (h1 : Keeps s0 x1) : KeepsH s0 (@execPkgCmdStandby x0 x1) := by
  unfold execPkgCmdStandby
  with_reducible repeat' (first
      | assumption | apply State.standby_keeps | apply KeepsH.nextI)

theorem execPkgWake_keeps {s0 : State} {x0} {x1} {x2} {x3} (h3 : Keeps s0 x3) : KeepsH s0 (@execPkgWake x0 x1 x2 x3) := by
  unfold execPkgWake
  with_reducible repeat' (first
      | assumption | apply State.pkgWake_keeps | apply Keeps.ite | apply KeepsH.nextI)

theorem execPllLocked_keeps {s0 : State} {x0} {x1} {x2} (h2 : Keeps s0 x2) : KeepsH s0 (@execPllLocked x0 x1 x2) := by
  unfold execPllLocked
  with_reducible repeat' (first
      | assumption | apply State.lockPll_keeps | apply KeepsH.nextI)

theorem execPllenWrite_keeps {s0 : State} {x0} {x1} {x2} {x3} {x4} (h4 : Keeps s0 x4) : KeepsH s0 (@execPllenWrite x0 x1 x2 x3 x4) := by
  unfold execPllenWrite
  with_reducible repeat' (first
      | assumption | apply State.pllWrite_keeps | apply KeepsH.nextI)

theorem execPowerOffRequest_keeps {s0 : State} {x0} {x1} (h1 : Keeps s0 x1) : KeepsH s0 (@execPowerOffRequest x0 x1) := by
  unfold execPowerOffRequest
  with_reducible repeat' (first
      | assumption | apply State.powerOff_keeps | apply KeepsH.nextI)

theorem execPowerOnRequest_keeps {s0 : State} {x0} {x1} (h1 : Keeps s0 x1) : KeepsH s0 (@execPowerOnRequest x0 x1) := by
  unfold execPowerOnRequest
  with_reducible repeat' (first
      | assumption | apply State.powerOn_keeps | apply KeepsH.nextI)

theorem execPwrbtn_keeps {s0 : State} {x0} {x1} {x2} (h2 : Keeps s0 x2) : KeepsH s0 (@execPwrbtn x0 x1 x2) := by
  unfold execPwrbtn
  with_reducible repeat' (first
      | assumption | apply State.powerOn_keeps | apply State.powerOff_keeps | apply Keeps.ite | apply KeepsH.nextI)

theorem execPwrokAssert_keeps {s0 : State} {x0} {x1} {x2} (h2 : Keeps s0 x2) : KeepsH s0 (@execPwrokAssert x0 x1 x2) := by
  unfold execPwrokAssert
  try dsimp only
  with_reducible repeat' (first
      | assumption | intro _ | apply State.useFree_keeps | apply State.powerDown_keeps | apply State.wrs_keeps
      | apply State.updPw_keeps | apply State.wr_keeps | apply State.lastWake_keeps | apply KeepsH.nextI | apply Keeps.fold
      | split | (fail_if_no_progress apply Keeps.mkU))

theorem execPwrokLoss_keeps {s0 : State} {x0} {x1} {x2} (h2 : Keeps s0 x2) : KeepsH s0 (@execPwrokLoss x0 x1 x2) := by
  unfold execPwrokLoss
  with_reducible repeat' (first
      | assumption | apply State.offNow_keeps | apply State.powerFatal_keeps | apply Keeps.ite | apply KeepsH.nextI)

theorem execRefclkLoss_keeps {s0 : State} {x0} {x1} (h1 : Keeps s0 x1) : KeepsH s0 (@execRefclkLoss x0 x1) := by
  unfold execRefclkLoss
  with_reducible repeat' (first
      | assumption | apply State.powerFatal_keeps | apply KeepsH.nextI)

theorem execRestartCondition_keeps {s0 : State} {x0} {x1} (h1 : Keeps s0 x1) : KeepsH s0 (@execRestartCondition x0 x1) := by
  unfold execRestartCondition
  with_reducible repeat' (first
      | assumption | apply State.powerUp_keeps | apply State.updPw_keeps | apply State.wr_keeps | apply KeepsH.nextI | split
      | (fail_if_no_progress extract_lets))

theorem execRstDeassert_keeps {s0 : State} {x0} {x1} {x2} (h2 : Keeps s0 x2) : KeepsH s0 (@execRstDeassert x0 x1 x2) := by
  unfold execRstDeassert
  with_reducible repeat' (first
      | assumption | apply State.wrs_keeps | apply State.updPw_keeps | apply State.coldSock_keeps | apply Keeps.ite
      | apply KeepsH.nextI | (fail_if_no_progress apply Keeps.mkU))

theorem execSaveCommit_keeps {s0 : State} {x0} {x1} {x2} (h2 : Keeps s0 x2) : KeepsH s0 (@execSaveCommit x0 x1 x2) := by
  unfold execSaveCommit
  with_reducible repeat' (first
      | assumption | apply State.bump_keeps | apply State.offNow_keeps | apply State.socketGone_keeps
      | apply State.saveRecord_keeps | apply State.wrs_keeps | apply State.seatsGone_keeps | apply State.updPw_keeps
      | apply KeepsH.nextI | split)

theorem execSelWrite_keeps {s0 : State} {x0} {x1} {x2} {x3} (h3 : Keeps s0 x3) : KeepsH s0 (@execSelWrite x0 x1 x2 x3) := by
  unfold execSelWrite
  with_reducible repeat' (first
      | assumption | apply State.selWrite_keeps | apply KeepsH.nextI)

theorem execStandbyRailLoss_keeps {s0 : State} {x0} {x1} (h1 : Keeps s0 x1) : KeepsH s0 (@execStandbyRailLoss x0 x1) := by
  unfold execStandbyRailLoss
  with_reducible repeat' (first
      | assumption | apply State.socketGone_keeps | apply State.seatsGone_keeps | apply State.updPw_keeps
      | apply KeepsH.nextI | (fail_if_no_progress apply Keeps.mkU))

theorem execStandbyRailsValid_keeps {s0 : State} {x0} {x1} (h1 : Keeps s0 x1) : KeepsH s0 (@execStandbyRailsValid x0 x1) := by
  unfold execStandbyRailsValid
  with_reducible repeat' (first
      | assumption | apply State.updPw_keeps | apply Keeps.ite | apply KeepsH.nextI)

theorem execThermalClear_keeps {s0 : State} {x0} {x1} {x2} {x3} (h3 : Keeps s0 x3) : KeepsH s0 (@execThermalClear x0 x1 x2 x3) := by
  unfold execThermalClear
  with_reducible repeat' (first
      | assumption | apply State.tileHot_keeps | apply State.updPw_keeps | apply State.freqAll_keeps | apply State.wr_keeps
      | apply Keeps.ite | apply KeepsH.nextI)

theorem execThermalEmergency_keeps {s0 : State} {x0} {x1} {x2} {x3} (h3 : Keeps s0 x3) : KeepsH s0 (@execThermalEmergency x0 x1 x2 x3) := by
  unfold execThermalEmergency
  with_reducible repeat' (first
      | assumption | apply State.bump_keeps | apply State.tileHot_keeps | apply State.freqAll_keeps | apply State.wr_keeps
      | apply State.pwrAsh_keeps | apply Keeps.ite | apply KeepsH.nextI)

theorem execThermalTarget_keeps {s0 : State} {x0} {x1} {x2} {x3} (h3 : Keeps s0 x3) : KeepsH s0 (@execThermalTarget x0 x1 x2 x3) := by
  unfold execThermalTarget
  with_reducible repeat' (first
      | assumption | apply State.throttle_keeps | apply State.tileHot_keeps | apply State.wr_keeps | apply Keeps.ite
      | apply KeepsH.nextI)

theorem execUnitPowerDone_keeps {s0 : State} {x0} {x1} {x2} {x3} (h3 : Keeps s0 x3) : KeepsH s0 (@execUnitPowerDone x0 x1 x2 x3) := by
  unfold execUnitPowerDone
  with_reducible repeat' (first
      | assumption | apply State.wr_keeps | apply Keeps.ite | apply KeepsH.nextI | (fail_if_no_progress apply Keeps.mkU))

theorem execUpwrWrite_keeps {s0 : State} {x0} {x1} {x2} {x3} (h3 : Keeps s0 x3) : KeepsH s0 (@execUpwrWrite x0 x1 x2 x3) := by
  unfold execUpwrWrite
  with_reducible repeat' (first
      | assumption | apply State.upwr_keeps | apply KeepsH.nextI)

theorem execVholdLow_keeps {s0 : State} {x0} {x1} (h1 : Keeps s0 x1) : KeepsH s0 (@execVholdLow x0 x1) := by
  unfold execVholdLow
  with_reducible repeat' (first
      | assumption | apply State.pwrAsh_keeps | apply Keeps.ite | apply KeepsH.nextI)

theorem execWakeLand_keeps {s0 : State} {x0} {x1} {x2} {x3} (h3 : Keeps s0 x3) : KeepsH s0 (@execWakeLand x0 x1 x2 x3) := by
  unfold execWakeLand
  with_reducible repeat' (first
      | assumption | apply State.powerOn_keeps | apply State.pkgWake_keeps | apply State.sysVector_keeps
      | apply State.updPw_keeps | apply Keeps.ite | apply KeepsH.nextI)

theorem execWarmReset_keeps {s0 : State} {x0} {x1} (h1 : Keeps s0 x1) : KeepsH s0 (@execWarmReset x0 x1) := by
  unfold execWarmReset
  with_reducible repeat' (first
      | assumption | apply State.warmReset_keeps | apply KeepsH.nextI)

end Sys2Proof.Machine
end

