-- ==== Sys2Proof/Laws/ReliKeeps.lean ====
section
/-!
SUPPORT. Laws/ReliKeeps.lean: what Machine/Reli.lean leaves alone: each operation and meaning of it keeps the queue, the parts, the clock and the
canonical form of memory (`Keeps`).
-/
set_option linter.all false
namespace Sys2Proof.Machine

theorem State.emptyL2_keeps {s0 : State} {x0} {x1} (h0 : Keeps s0 x0) : Keeps s0 (@State.emptyL2 x0 x1) := by
  unfold State.emptyL2
  with_reducible repeat' (first
      | assumption | intro _ | apply State.evict_keeps | apply Keeps.ite | apply Keeps.fold)

theorem State.errSet_keeps {s0 : State} {x0} {x1} {x2} {x3} {x4} {x5} (h0 : Keeps s0 x0) : Keeps s0 (@State.errSet x0 x1 x2 x3 x4 x5) := by
  unfold State.errSet
  with_reducible repeat' (first
      | assumption | apply State.wrs_keeps)

theorem State.grateIn_keeps {s0 : State} {x0} {x1} {x2} (h0 : Keeps s0 x0) : Keeps s0 (@State.grateIn x0 x1 x2) := by
  unfold State.grateIn
  with_reducible repeat' (first
      | assumption | apply State.errSet_keeps | apply State.wrs_keeps | apply State.wr_keeps)

theorem State.grateOut_keeps {s0 : State} {x0} {x1} {x2} (h0 : Keeps s0 x0) : Keeps s0 (@State.grateOut x0 x1 x2) := by
  unfold State.grateOut
  with_reducible repeat' (first
      | assumption | apply State.wrIf_keeps | apply State.wr_keeps)

theorem State.tileBusy_keeps {s0 : State} {x0} {x1} {x2} {x3} (h0 : Keeps s0 x0) : Keeps s0 (@State.tileBusy x0 x1 x2 x3) := by
  unfold State.tileBusy
  with_reducible repeat' (first
      | assumption | apply State.wr_keeps)

theorem State.handEnd_keeps {s0 : State} {x0} {x1} (h0 : Keeps s0 x0) : Keeps s0 (@State.handEnd x0 x1) := by
  unfold State.handEnd
  with_reducible repeat' (first
      | assumption | apply State.actEnd_keeps | apply State.tileBusy_keeps | (fail_if_no_progress apply Keeps.mkU))

theorem State.handReq_keeps {s0 : State} {x0} {x1} {x2} (h0 : Keeps s0 x0) : Keeps s0 (@State.handReq x0 x1 x2) := by
  unfold State.handReq
  with_reducible repeat' (first
      | assumption | apply Keeps.ite | (fail_if_no_progress apply Keeps.mkU))

theorem State.handoffGo_keeps {s0 : State} {x0} {x1} {x2} (h0 : Keeps s0 x0) : Keeps s0 (@State.handoffGo x0 x1 x2) := by
  unfold State.handoffGo
  with_reducible repeat' (first
      | assumption | apply State.handReq_keeps | apply Keeps.ite)

theorem State.lockEnd_keeps {s0 : State} {x0} {x1} (h0 : Keeps s0 x0) : Keeps s0 (@State.lockEnd x0 x1) := by
  unfold State.lockEnd
  with_reducible repeat' (first
      | assumption | apply State.actEnd_keeps | (fail_if_no_progress apply Keeps.mkU))

theorem State.lockResume_keeps {s0 : State} {x0} {x1} {x2} (h0 : Keeps s0 x0) : Keeps s0 (@State.lockResume x0 x1 x2) := by
  unfold State.lockResume
  with_reducible repeat' (first
      | assumption | apply State.updCore_keeps | apply State.wr_keeps | apply State.lockEnd_keeps)

theorem State.lockStart_keeps {s0 : State} {x0} {x1} {x2} {x3} {x4} (h0 : Keeps s0 x0) : Keeps s0 (@State.lockStart x0 x1 x2 x3 x4) := by
  unfold State.lockStart
  with_reducible repeat' (first
      | assumption | apply State.updCore_keeps | apply State.wr_keeps | (fail_if_no_progress apply Keeps.mkU))

theorem State.lsAsh_keeps {s0 : State} {x0} {x1} {x2} {x3} {x4} {x5} (h0 : Keeps s0 x0) : Keeps s0 (@State.lsAsh x0 x1 x2 x3 x4 x5) := by
  unfold State.lsAsh
  with_reducible repeat' (first
      | assumption | apply State.ash_keeps)

theorem State.setHand_keeps {s0 : State} {x0} {x1} {x2} (h0 : Keeps s0 x0) : Keeps s0 (@State.setHand x0 x1 x2) := by
  unfold State.setHand
  with_reducible repeat' (first
      | assumption | (fail_if_no_progress apply Keeps.mkU))

theorem State.threadLost_keeps {s0 : State} {x0} {x1} {x2} {x3} (h0 : Keeps s0 x0) : Keeps s0 (@State.threadLost x0 x1 x2 x3) := by
  unfold State.threadLost
  with_reducible repeat' (first
      | assumption | intro _ | apply State.bump_keeps | apply State.lossNotify_keeps | apply State.release_keeps
      | apply State.grateOut_keeps | apply State.setWorld_keeps | apply State.updCore_keeps | apply State.ash_keeps
      | apply State.wr_keeps | apply State.poisonOwned_keeps | apply State.vaultTrigger_keeps | apply State.flushL2_keeps
      | apply Keeps.fold | split)

theorem State.nextSpare_keeps {s0 : State} {x0} {x1} {x2} (h0 : Keeps s0 x0) : Keeps s0 (@State.nextSpare x0 x1 x2) := by
  unfold State.nextSpare
  with_reducible repeat' (first
      | assumption | apply State.setHand_keeps | apply State.threadLost_keeps | apply State.handEnd_keeps | split
      | (fail_if_no_progress extract_lets))

theorem State.nvClr_keeps {s0 : State} {x0} {x1} (h0 : Keeps s0 x0) : Keeps s0 (@State.nvClr x0 x1) := by
  unfold State.nvClr
  with_reducible repeat' (first
      | assumption | apply State.wr_keeps)

theorem State.rdptrWrite_keeps {s0 : State} {x0} {x1} {x2} (h0 : Keeps s0 x0) : Keeps s0 (@State.rdptrWrite x0 x1 x2) := by
  unfold State.rdptrWrite
  with_reducible repeat' (first
      | assumption | apply State.wr_keeps)

theorem State.setLock_keeps {s0 : State} {x0} {x1} {x2} (h0 : Keeps s0 x0) : Keeps s0 (@State.setLock x0 x1 x2) := by
  unfold State.setLock
  with_reducible repeat' (first
      | assumption | (fail_if_no_progress apply Keeps.mkU))

theorem State.spareGone_keeps {s0 : State} {x0} {x1} {x2} (h0 : Keeps s0 x0) : Keeps s0 (@State.spareGone x0 x1 x2) := by
  unfold State.spareGone
  with_reducible repeat' (first
      | assumption | apply State.nextSpare_keeps | split)

theorem State.unpair_keeps {s0 : State} {x0} {x1} (h0 : Keeps s0 x0) : Keeps s0 (@State.unpair x0 x1) := by
  unfold State.unpair
  with_reducible repeat' (first
      | assumption | apply State.lockResume_keeps | apply State.updCore_keeps | apply State.wr_keeps
      | apply State.lsAsh_keeps)

theorem execAshpanWrite_keeps {s0 : State} {x0} {x1} {x2} {x3} {x4} {x5} {x6} {x7} {x8} {x9} {x10} {x11} {x12} (h12 : Keeps s0 x12) : KeepsH s0 (@execAshpanWrite x0 x1 x2 x3 x4 x5 x6 x7 x8 x9 x10 x11 x12) := by
  unfold execAshpanWrite
  with_reducible repeat' (first
      | assumption | apply State.ash_keeps | apply Keeps.ite | apply KeepsH.nextI)

theorem execCeLimitMinute_keeps {s0 : State} {x0} {x1} (h1 : Keeps s0 x1) : KeepsH s0 (@execCeLimitMinute x0 x1) := by
  unfold execCeLimitMinute
  with_reducible repeat' (first
      | assumption | apply State.ash_keeps | apply Keeps.ite | apply KeepsH.nextI | (fail_if_no_progress apply Keeps.mkU))

theorem execComparatorTest_keeps {s0 : State} {x0} {x1} {x2} (h2 : Keeps s0 x2) : KeepsH s0 (@execComparatorTest x0 x1 x2) := by
  unfold execComparatorTest
  with_reducible repeat' (first
      | assumption | apply State.ash_keeps | apply State.wr_keeps | apply Keeps.ite | apply KeepsH.nextI)

theorem execComparatorTestDone_keeps {s0 : State} {x0} {x1} {x2} {x3} (h3 : Keeps s0 x3) : KeepsH s0 (@execComparatorTestDone x0 x1 x2 x3) := by
  unfold execComparatorTestDone
  with_reducible repeat' (first
      | assumption | apply State.lockResume_keeps | apply State.wr_keeps | apply State.lsAsh_keeps | apply State.unpair_keeps
      | apply KeepsH.nextI | split | (fail_if_no_progress extract_lets))

theorem execGrateFence_keeps {s0 : State} {x0} {x1} {x2} (h2 : Keeps s0 x2) : KeepsH s0 (@execGrateFence x0 x1 x2) := by
  unfold execGrateFence
  with_reducible repeat' (first
      | assumption | apply State.handReq_keeps | apply State.retireReq_keeps | apply State.wr_keeps
      | apply State.spareGone_keeps | apply Keeps.ite | apply KeepsH.nextI)

theorem execHandoffGo_keeps {s0 : State} {x0} {x1} {x2} (h2 : Keeps s0 x2) : KeepsH s0 (@execHandoffGo x0 x1 x2) := by
  unfold execHandoffGo
  with_reducible repeat' (first
      | assumption | apply State.handoffGo_keeps | apply KeepsH.nextI)

theorem execHandoffL2Emptied_keeps {s0 : State} {x0} {x1} {x2} (h2 : Keeps s0 x2) : KeepsH s0 (@execHandoffL2Emptied x0 x1 x2) := by
  unfold execHandoffL2Emptied
  with_reducible repeat' (first
      | assumption | apply State.setHand_keeps | apply State.emptyL2_keeps | apply KeepsH.nextI | split)

theorem execHandoffRepoch_keeps {s0 : State} {x0} {x1} {x2} (h2 : Keeps s0 x2) : KeepsH s0 (@execHandoffRepoch x0 x1 x2) := by
  unfold execHandoffRepoch
  with_reducible repeat' (first
      | assumption | apply State.nextSpare_keeps | apply State.actBegin_keeps | apply KeepsH.nextI | split)

theorem execHandoffResume_keeps {s0 : State} {x0} {x1} {x2} (h2 : Keeps s0 x2) : KeepsH s0 (@execHandoffResume x0 x1 x2) := by
  unfold execHandoffResume
  with_reducible repeat' (first
      | assumption | apply State.bump_keeps | apply State.drain_keeps | apply State.updCore_keeps | apply State.handEnd_keeps
      | apply State.ash_keeps | apply State.wr_keeps | apply KeepsH.nextI | refine KeepsO.elim ?_ (by assumption) | split)

theorem execHandoffSourceFail_keeps {s0 : State} {x0} {x1} {x2} {x3} (h3 : Keeps s0 x3) : KeepsH s0 (@execHandoffSourceFail x0 x1 x2 x3) := by
  unfold execHandoffSourceFail
  with_reducible repeat' (first
      | assumption | apply State.actBegin_keeps | apply State.setLock_keeps | apply State.threadLost_keeps
      | apply State.handEnd_keeps | apply State.lockStart_keeps | apply State.wr_keeps | apply KeepsH.nextI | split
      | (fail_if_no_progress extract_lets))

theorem execHandoffStart_keeps {s0 : State} {x0} {x1} {x2} (h2 : Keeps s0 x2) : KeepsH s0 (@execHandoffStart x0 x1 x2) := by
  unfold execHandoffStart
  with_reducible repeat' (first
      | assumption | apply State.setHand_keeps | apply State.abortRegion_keeps | apply State.updCore_keeps
      | apply State.wr_keeps | apply State.tileBusy_keeps | apply Keeps.ite | apply KeepsH.nextI | split
      | (fail_if_no_progress extract_lets))

theorem execHandoffStateRead_keeps {s0 : State} {x0} {x1} {x2} (h2 : Keeps s0 x2) : KeepsH s0 (@execHandoffStateRead x0 x1 x2) := by
  unfold execHandoffStateRead
  with_reducible repeat' (first
      | assumption | apply State.setHand_keeps | apply KeepsH.nextI | split)

theorem execHandoffStoresRead_keeps {s0 : State} {x0} {x1} {x2} (h2 : Keeps s0 x2) : KeepsH s0 (@execHandoffStoresRead x0 x1 x2) := by
  unfold execHandoffStoresRead
  with_reducible repeat' (first
      | assumption | apply State.setHand_keeps | apply KeepsH.nextI | split)

theorem execLockstepMismatch_keeps {s0 : State} {x0} {x1} {x2} (h2 : Keeps s0 x2) : KeepsH s0 (@execLockstepMismatch x0 x1 x2) := by
  unfold execLockstepMismatch
  with_reducible repeat' (first
      | assumption | apply State.bump_keeps | apply State.lockStart_keeps | apply Keeps.ite | apply KeepsH.nextI)

theorem execLockstepRepaired_keeps {s0 : State} {x0} {x1} {x2} (h2 : Keeps s0 x2) : KeepsH s0 (@execLockstepRepaired x0 x1 x2) := by
  unfold execLockstepRepaired
  with_reducible repeat' (first
      | assumption | apply State.grateOut_keeps | apply State.setLock_keeps | apply State.emptyL2_keeps
      | apply State.errSet_keeps | apply State.updCore_keeps | apply State.grateIn_keeps | apply State.wr_keeps
      | apply State.unpair_keeps | apply KeepsH.nextI | split | (fail_if_no_progress extract_lets))

theorem execLockstepRepoch_keeps {s0 : State} {x0} {x1} {x2} (h2 : Keeps s0 x2) : KeepsH s0 (@execLockstepRepoch x0 x1 x2) := by
  unfold execLockstepRepoch
  with_reducible repeat' (first
      | assumption | apply State.actBegin_keeps | apply State.setLock_keeps | apply KeepsH.nextI | split)

theorem execLockstepSelftestDone_keeps {s0 : State} {x0} {x1} {x2} {x3} {x4} (h4 : Keeps s0 x4) : KeepsH s0 (@execLockstepSelftestDone x0 x1 x2 x3 x4) := by
  unfold execLockstepSelftestDone
  with_reducible repeat' (first
      | assumption | apply State.bump_keeps | apply State.grateOut_keeps | apply State.setLock_keeps
      | apply State.lockResume_keeps | apply State.threadLost_keeps | apply State.wr_keeps | apply State.lsAsh_keeps
      | apply State.lockEnd_keeps | apply Keeps.ite | apply KeepsH.nextI | split)

theorem execNvClr_keeps {s0 : State} {x0} {x1} (h1 : Keeps s0 x1) : KeepsH s0 (@execNvClr x0 x1) := by
  unfold execNvClr
  with_reducible repeat' (first
      | assumption | apply State.nvClr_keeps | apply KeepsH.nextI)

theorem execPipelineError_keeps {s0 : State} {x0} {x1} {x2} (h2 : Keeps s0 x2) : KeepsH s0 (@execPipelineError x0 x1 x2) := by
  unfold execPipelineError
  with_reducible repeat' (first
      | assumption | apply State.handReq_keeps | apply State.lockStart_keeps | apply KeepsH.nextI | split)

theorem execRdptrWrite_keeps {s0 : State} {x0} {x1} {x2} (h2 : Keeps s0 x2) : KeepsH s0 (@execRdptrWrite x0 x1 x2) := by
  unfold execRdptrWrite
  with_reducible repeat' (first
      | assumption | apply State.rdptrWrite_keeps | apply KeepsH.nextI)

theorem execSocketFailure_keeps {s0 : State} {x0} {x1} {x2} {x3} {x4} (h4 : Keeps s0 x4) : KeepsH s0 (@execSocketFailure x0 x1 x2 x3 x4) := by
  unfold execSocketFailure
  with_reducible repeat' (first
      | assumption | apply State.socketFail_keeps | apply Keeps.ite | apply KeepsH.nextI)

theorem execSpareFail_keeps {s0 : State} {x0} {x1} {x2} (h2 : Keeps s0 x2) : KeepsH s0 (@execSpareFail x0 x1 x2) := by
  unfold execSpareFail
  with_reducible repeat' (first
      | assumption | apply State.ash_keeps | apply State.wr_keeps | apply State.spareGone_keeps | apply Keeps.ite
      | apply KeepsH.nextI)

theorem execSpareLoaded_keeps {s0 : State} {x0} {x1} {x2} (h2 : Keeps s0 x2) : KeepsH s0 (@execSpareLoaded x0 x1 x2) := by
  unfold execSpareLoaded
  with_reducible repeat' (first
      | assumption | apply State.setHand_keeps | apply State.bump_keeps | apply State.grateOut_keeps
      | apply State.updCore_keeps | apply State.grateIn_keeps | apply KeepsH.nextI | split)

theorem execSparePowered_keeps {s0 : State} {x0} {x1} {x2} (h2 : Keeps s0 x2) : KeepsH s0 (@execSparePowered x0 x1 x2) := by
  unfold execSparePowered
  with_reducible repeat' (first
      | assumption | apply State.setHand_keeps | apply KeepsH.nextI | split)

end Sys2Proof.Machine
end

