-- ==== Sys2Proof/Laws/CtlBusKeeps.lean ====
section
/-!
SUPPORT. Laws/CtlBusKeeps.lean: what Machine/CtlBus.lean leaves alone: each operation and meaning of it keeps the queue, the parts, the clock and the
canonical form of memory (`Keeps`).
-/
set_option linter.all false
namespace Sys2Proof.Machine

theorem State.fieldSet_keeps {s0 : State} {x0} {x1} {x2} {x3} {x4} {x5} (h0 : Keeps s0 x0) : Keeps s0 (@State.fieldSet x0 x1 x2 x3 x4 x5) := by
  unfold State.fieldSet
  with_reducible repeat' (first
      | assumption | apply State.selWrite_keeps | apply State.haltReq_keeps | apply State.cqheadWrite_keeps
      | apply State.cfgEn_keeps | apply State.pllWrite_keeps | apply State.coreRunSet_keeps | apply State.traceSet_keeps
      | apply State.doorbell_keeps | apply State.wr_keeps | apply State.pmuClear_keeps | apply State.fieldWrite_keeps
      | apply State.rdptrWrite_keeps | apply State.thrZero_keeps | apply State.bwMark_keeps | apply Keeps.ite | split
      | (fail_if_no_progress apply Keeps.mkU))

theorem State.blkFields_keeps {s0 : State} {x0} {x1} {x2} (h0 : Keeps s0 x0) : Keeps s0 (@State.blkFields x0 x1 x2) := by
  unfold State.blkFields
  with_reducible repeat' (first
      | assumption | intro _ | apply State.fieldSet_keeps | apply Keeps.ite | apply Keeps.fold)

theorem State.dbgRead_keeps {s0 : State} {x0} {x1} {x2} {x3} (h0 : Keeps s0 x0) : Keeps s0 (@State.dbgRead x0 x1 x2 x3).1 := by
  unfold State.dbgRead
  with_reducible repeat' (first
      | assumption | apply State.agentRead_keeps | apply State.useFree_keeps | refine Keeps.fst ?_ (by assumption) | split)

theorem State.ctlStoreBy_keeps {s0 : State} {x0} {x1} {x2} {x3} (h0 : Keeps s0 x0) (h1 : ∀ y0 y1 y2 y3, Keeps s0 (x1 y0 y1 y2 y3)) : Keeps s0 (@State.ctlStoreBy x0 x1 x2 x3) := by
  unfold State.ctlStoreBy
  with_reducible repeat' (first
      | assumption | apply h1 | apply Keeps.ite | split)

theorem Written.on_keeps {s0 : State} {x0} {x1} {x2} {x3} (h1 : Keeps s0 x1) (h3 : ∀ y0 y1, Keeps s0 y0 → Keeps s0 (x3 y0 y1)) : Keeps s0 (@Written.on x0 x1 x2 x3) := by
  unfold Written.on
  with_reducible repeat' (first
      | assumption | apply h3 | split)

theorem Written.mark_keeps {s0 : State} {x0} {x1} (h1 : Keeps s0 x1) : Keeps s0 (@Written.mark x0 x1) := by
  unfold Written.mark
  with_reducible repeat' (first
      | assumption | apply State.markWrite_keeps | apply Keeps.ite)

theorem Written.cxl_keeps {s0 : State} {x0} {x1} (h1 : Keeps s0 x1) : Keeps s0 (@Written.cxl x0 x1) := by
  unfold Written.cxl
  with_reducible repeat' (first
      | assumption | apply State.cxlValid_keeps | split)

theorem Written.upwr_keeps {s0 : State} {x0} {x1} (h1 : Keeps s0 x1) : Keeps s0 (@Written.upwr x0 x1) := by
  unfold Written.upwr
  with_reducible repeat' (first
      | assumption | apply State.upwr_keeps | apply Keeps.ite)

theorem Written.ring_keeps {s0 : State} {x0} {x1} {x2} {x3} {x4} (h4 : Keeps s0 x4) : Keeps s0 (@Written.ring x0 x1 x2 x3 x4) := by
  unfold Written.ring
  with_reducible repeat' (first
      | assumption | apply State.ringCfg_keeps | apply Keeps.ite)

theorem Written.pkgCmd_keeps {s0 : State} {x0} {x1} (h1 : Keeps s0 x1) : Keeps s0 (@Written.pkgCmd x0 x1) := by
  unfold Written.pkgCmd
  with_reducible repeat' (first
      | assumption | apply State.powerOff_keeps | apply State.standby_keeps | split)

theorem State.unitAct_keeps {s0 : State} {x0} {x1} (h0 : Keeps s0 x0) : Keeps s0 (@State.unitAct x0 x1) := by
  unfold State.unitAct
  with_reducible repeat' (first
      | assumption | intro _ | apply State.warmReset_keeps | apply Written.on_keeps | apply Written.cxl_keeps
      | apply State.portRelease_keeps | apply State.mboxAck_keeps | apply State.mboxTx_keeps | apply State.slotOff_keeps
      | apply Written.upwr_keeps | apply State.coreRst_keeps | apply Written.ring_keeps | apply State.ioinvGo_keeps
      | apply State.stkCtlReset_keeps | apply Written.pkgCmd_keeps | apply State.stkResetReq_keeps | apply State.slotOn_keeps)

theorem State.wordAct0_keeps {s0 : State} {x0} {x1} {x2} (h0 : Keeps s0 x0) : Keeps s0 (@State.wordAct0 x0 x1 x2) := by
  unfold State.wordAct0
  with_reducible repeat' (first
      | assumption | intro _ | apply Written.on_keeps | apply Written.mark_keeps | apply State.spareReq_keeps
      | apply State.resume_keeps | apply State.cfgGo_keeps | apply State.nvClr_keeps | apply State.flueRestore_keeps
      | apply State.commitGo_keeps | apply State.stepReq_keeps | apply State.unitAct_keeps | apply State.retireReq_keeps
      | apply State.accGo_keeps | apply State.stripeCheck_keeps | apply State.viKick_keeps | apply State.handoffGo_keeps
      | split)

theorem State.blkStore0_keeps {s0 : State} {x0} {x1} {x2} {x3} {x4} {x5} {x6} {x7} {x8} (h0 : Keeps s0 x0) : Keeps s0 (@State.blkStore0 x0 x1 x2 x3 x4 x5 x6 x7 x8) := by
  unfold State.blkStore0
  with_reducible repeat' (first
      | assumption | apply State.wordAct0_keeps | apply State.blkFields_keeps)

theorem State.ctlStore0_keeps {s0 : State} {x0} {x1} {x2} {x3} {x4} (h0 : Keeps s0 x0) : Keeps s0 (@State.ctlStore0 x0 x1 x2 x3 x4) := by
  unfold State.ctlStore0
  with_reducible repeat' (first
      | assumption | intro _ | apply State.ctlStoreBy_keeps | apply State.blkStore0_keeps)

theorem State.memWriteDbg_keeps {s0 : State} {x0} {x1} {x2} {x3} {x4} (h0 : Keeps s0 x0) : Keeps s0 (@State.memWriteDbg x0 x1 x2 x3 x4).1 := by
  unfold State.memWriteDbg
  with_reducible repeat' (first
      | assumption | apply State.ctlStore0_keeps | apply State.agentWrite_keeps | refine Keeps.fst ?_ (by assumption) | split)

theorem State.memGo_keeps {s0 : State} {x0} {x1} {x2} (h0 : Keeps s0 x0) : Keeps s0 (@State.memGo x0 x1 x2) := by
  unfold State.memGo
  with_reducible repeat' (first
      | assumption | apply State.dbgRead_keeps | apply State.memWriteDbg_keeps | apply State.wr_keeps | apply Keeps.ite)

theorem State.blkStore_keeps {s0 : State} {x0} {x1} {x2} {x3} {x4} {x5} {x6} {x7} {x8} (h0 : Keeps s0 x0) : Keeps s0 (@State.blkStore x0 x1 x2 x3 x4 x5 x6 x7 x8) := by
  unfold State.blkStore
  with_reducible repeat' (first
      | assumption | apply State.memGo_keeps | apply State.wordAct0_keeps | apply State.blkFields_keeps | split
      | (fail_if_no_progress extract_lets))

theorem State.ctlStore_keeps {s0 : State} {x0} {x1} {x2} {x3} {x4} {x5} (h0 : Keeps s0 x0) : Keeps s0 (@State.ctlStore x0 x1 x2 x3 x4 x5) := by
  unfold State.ctlStore
  with_reducible repeat' (first
      | assumption | intro _ | apply State.blkStore_keeps | apply State.ctlStoreBy_keeps)

theorem execControlRegWrite_keeps {s0 : State} {x0} {x1} {x2} {x3} {x4} {x5} (h5 : Keeps s0 x5) : KeepsH s0 (@execControlRegWrite x0 x1 x2 x3 x4 x5) := by
  unfold execControlRegWrite
  with_reducible repeat' (first
      | assumption | apply State.ctlStore_keeps | apply Keeps.ite | apply KeepsH.nextI)

theorem execMemGo_keeps {s0 : State} {x0} {x1} {x2} (h2 : Keeps s0 x2) : KeepsH s0 (@execMemGo x0 x1 x2) := by
  unfold execMemGo
  with_reducible repeat' (first
      | assumption | apply State.memGo_keeps | apply Keeps.ite | apply KeepsH.nextI)

end Sys2Proof.Machine
end

