-- ==== Sys2Proof/Laws/AccessKeeps.lean ====
section
/-!
SUPPORT. Laws/AccessKeeps.lean: what Machine/Access.lean leaves alone: each operation and meaning of it keeps the queue, the parts, the clock and the
canonical form of memory (`Keeps`).
-/
set_option linter.all false
namespace Sys2Proof.Machine

theorem Res.counted_keeps {s0 : State} {x0} {x1 : Res x0} {x2} {x3} {x4} (h1 : KeepsR s0 x1) : KeepsR s0 (@Res.counted x0 x1 x2 x3 x4) := by
  cases h1 with
  | okI h => exact .okI (State.updCore_keeps h)
  | evI h => exact .evI h
  | stallT => exact .stallT
  | parkI h => exact .parkI (Keeps.ite (State.updCore_keeps h) h)

theorem Res.crossing_keeps {s0 : State} {x0} {x1 : Res x0} {x2} {x3} {x4} (h1 : KeepsR s0 x1) : KeepsR s0 (@Res.crossing x0 x1 x2 x3 x4) :=
  KeepsR.ite h1 (Res.counted_keeps (Res.counted_keeps h1))

theorem State.watch_keeps {s0 : State} {x0} {x1} {x2} {x3} {x4} {x5} (h0 : Keeps s0 x0) : KeepsR s0 (@State.watch x0 x1 x2 x3 x4 x5) := by
  unfold State.watch
  with_reducible repeat' (first
      | assumption | apply State.wr_keeps | apply KeepsR.okI | apply KeepsR.evI | split | (fail_if_no_progress extract_lets))

theorem State.paid_keeps {s0 : State} {x0} {x1} {x2} {x3} (h0 : Keeps s0 x0) : KeepsX s0 (@State.paid x0 x1 x2 x3) := by
  induction x3 generalizing x0 x1 x2 with
  | nil => (unfold State.paid; first | assumption | constructor; assumption | constructor | exact h0)
  | cons e t ih =>
    unfold State.paid
    try dsimp only
    with_reducible repeat' (first
        | assumption | apply ih | intro _ | apply payAD_keeps | apply State.install_keeps | apply KeepsX.bind)

theorem State.spans_keeps {s0 : State} {x0} {x1} {x2} {x3} {x4} (h0 : Keeps s0 x0) : KeepsX s0 (@State.spans x0 x1 x2 x3 x4) := by
  unfold State.spans
  with_reducible repeat' (first
      | assumption | intro _ | apply translate_keeps | apply KeepsX.bind | apply KeepsX.okI | apply KeepsX.badI | split)

theorem State.touchAll_keeps {s0 : State} {x0} {x1} {x2} (h0 : Keeps s0 x0) : Keeps s0 (@State.touchAll x0 x1 x2) := by
  unfold State.touchAll
  with_reducible repeat' (first
      | assumption | intro _ | apply State.touch_keeps | apply Keeps.ite | apply Keeps.fold)

theorem State.accessIf_keeps {s0 : State} {x0} {x1} {x2} {x3} {x4} {x5} (h0 : Keeps s0 x0) : KeepsR s0 (@State.accessIf x0 x1 x2 x3 x4 x5) := by
  unfold State.accessIf
  with_reducible repeat' (first
      | assumption | intro _ | apply State.watch_keeps | apply State.paid_keeps | apply xrToRes_keeps
      | apply State.spans_keeps | apply State.touchAll_keeps | apply KeepsR.bind | apply KeepsR.okI | apply KeepsR.evI
      | split | (fail_if_no_progress extract_lets))

theorem State.access_keeps {s0 : State} {x0} {x1} {x2} {x3} {x4} (h0 : Keeps s0 x0) : KeepsR s0 (@State.access x0 x1 x2 x3 x4) := by
  unfold State.access
  try dsimp only
  with_reducible repeat' (first
      | assumption | apply State.accessIf_keeps)

theorem State.accessMem_keeps {s0 : State} {x0} {x1} {x2} {x3} {x4} {x5} (h0 : Keeps s0 x0) : KeepsR s0 (@State.accessMem x0 x1 x2 x3 x4 x5) := by
  unfold State.accessMem
  with_reducible repeat' (first
      | assumption | apply State.accessIf_keeps)

theorem State.arrayEntry_keeps {s0 : State} {x0} {x1} {x2} {x3} {x4} {x5} (h0 : Keeps s0 x0) : Keeps s0 (@State.arrayEntry x0 x1 x2 x3 x4 x5) := by
  unfold State.arrayEntry
  with_reducible repeat' (first
      | assumption | apply State.ash_keeps)

theorem State.before_keeps {s0 : State} {x0} {x1} {x2} {x3} (h0 : Keeps s0 x0) : KeepsO s0 (@State.before x0 x1 x2 x3) := by
  unfold State.before
  with_reducible repeat' (first
      | assumption | apply State.drainTo_keeps)

theorem State.countC_keeps {s0 : State} {x0} {x1} {x2} (h0 : Keeps s0 x0) : Keeps s0 (@State.countC x0 x1 x2) := by
  unfold State.countC
  with_reducible repeat' (first
      | assumption | apply State.updCore_keeps)

theorem takeLines_keeps {s0 : State} {x0} {x1} {x2} {x3} (h1 : ∀ y0 y1, Keeps s0 y0 → Keeps s0 (x1 y0 y1)) (h3 : Keeps s0 x3) : KeepsO s0 (@takeLines x0 x1 x2 x3) := by
  induction x2 generalizing x0 x1 x3 with
  | nil => (unfold takeLines; first | assumption | constructor; assumption | constructor | exact h3)
  | cons e t ih =>
    unfold takeLines
    try dsimp only
    with_reducible repeat' (first
        | assumption | apply ih | apply h1 | apply KeepsO.noneT | apply KeepsO.ite)

theorem State.ensureHeld_keeps {s0 : State} {x0} {x1} (h0 : Keeps s0 x0) : KeepsO s0 (@State.ensureHeld x0 x1) := by
  unfold State.ensureHeld
  with_reducible repeat' (first
      | assumption | intro _ | apply State.acqOwn_keeps | apply takeLines_keeps | apply State.updCore_keeps
      | apply KeepsO.someI | apply KeepsO.noneT | refine KeepsO.elim ?_ (by assumption) | split
      | (fail_if_no_progress apply Keeps.mkU))

theorem State.fillLine_keeps {s0 : State} {x0} {x1} {x2} (h0 : Keeps s0 x0) : Keeps s0 (@State.fillLine x0 x1 x2) := by
  unfold State.fillLine
  with_reducible repeat' (first
      | assumption | apply State.acqShared_keeps | apply State.updCore_keeps | split)

theorem State.fetch_keeps {s0 : State} {x0} {x1} {x2} (h0 : Keeps s0 x0) : KeepsR s0 (@State.fetch x0 x1 x2) := by
  unfold State.fetch
  with_reducible repeat' (first
      | assumption | intro _ | apply State.watch_keeps | apply State.paid_keeps | apply takeLines_keeps
      | apply State.spans_keeps | apply State.poisonErr_keeps | apply State.fillLine_keeps | apply State.touchAll_keeps
      | apply KeepsR.evI | apply KeepsR.stallT | refine KeepsO.elim ?_ (by assumption) | refine KeepsX.okE ?_ (by assumption)
      | refine KeepsX.badE ?_ (by assumption) | split | (fail_if_no_progress extract_lets))

theorem State.firstDue_keeps {s0 : State} {x0} {x1} (h0 : Keeps s0 x0) : KeepsO1 s0 (@State.firstDue x0 x1) := by
  unfold State.firstDue
  split
  · exact .someI (State.setVinst_keeps h0)
  · cases State.lateArith x0 x1 with
    | none => exact .noneT
    | some e => exact .someI h0

theorem State.stepDone_keeps {s0 : State} {x0} {x1} (h0 : Keeps s0 x0) : Keeps s0 (@State.stepDone x0 x1) := by
  unfold State.stepDone
  with_reducible repeat' (first
      | assumption | apply State.haltNow_keeps | apply Keeps.ite)

theorem State.retireInstr_keeps {s0 : State} {x0} {x1} {x2} (h0 : Keeps s0 x0) : KeepsO s0 (@State.retireInstr x0 x1 x2) := by
  unfold State.retireInstr
  with_reducible repeat' (first
      | assumption | intro _ | apply State.stepDone_keeps | apply State.setSr_keeps | apply State.updCore_keeps
      | apply State.raise_keeps | apply KeepsO.someI | apply KeepsO.ite | apply KeepsO.map)

theorem State.instr_keeps {s0 : State} {x0} {x1} {x2} {x3} (h0 : Keeps s0 x0) (h3 : ∀ y0, Keeps s0 y0 → KeepsR s0 (x3 y0)) : Keeps s0 (@State.instr x0 x1 x2 x3) := by
  unfold State.instr
  with_reducible repeat' (first
      | assumption | intro _ | apply h3 | apply State.stepDone_keeps | apply State.fetch_keeps | apply State.haltNow_keeps
      | apply State.retireInstr_keeps | apply State.boundary_keeps | apply State.exhaust_keeps | apply State.raise_keeps
      | apply State.firstDue_keeps | apply KeepsO.getD | apply KeepsO.map | refine KeepsB.tookE ?_ (by assumption)
      | refine KeepsO1.elim ?_ (by assumption) | refine KeepsR.okE ?_ (by assumption) | refine KeepsR.evE ?_ (by assumption)
      | refine KeepsR.parkE ?_ (by assumption) | split)

theorem State.l1Err_keeps {s0 : State} {x0} {x1} {x2} {x3} (h0 : Keeps s0 x0) : Keeps s0 (@State.l1Err x0 x1 x2 x3) := by
  unfold State.l1Err
  with_reducible repeat' (first
      | assumption | apply State.bump_keeps | apply State.updCore_keeps | apply State.arrayEntry_keeps)

theorem State.l2Err_keeps {s0 : State} {x0} {x1} {x2} {x3} (h0 : Keeps s0 x0) : Keeps s0 (@State.l2Err x0 x1 x2 x3) := by
  unfold State.l2Err
  with_reducible repeat' (first
      | assumption | apply State.bump_keeps | apply State.updCore_keeps | apply State.arrayEntry_keeps
      | apply State.setPoison_keeps | split | (fail_if_no_progress extract_lets))

theorem State.readLines_keeps {s0 : State} {x0} {x1} {x2} {x3} {x4} {x5} (h0 : Keeps s0 x0) : KeepsR s0 (@State.readLines x0 x1 x2 x3 x4 x5) := by
  unfold State.readLines
  with_reducible repeat' (first
      | assumption | intro _ | apply takeLines_keeps | apply State.acqShared_keeps | apply State.updCore_keeps
      | apply State.poisonErr_keeps | apply KeepsR.okI | apply KeepsR.evI | apply KeepsR.stallT
      | refine KeepsO.elim ?_ (by assumption) | split)

theorem State.readMem_keeps {s0 : State} {x0} {x1} {x2} {x3} {x4} {x5} (h0 : Keeps s0 x0) : KeepsR s0 (@State.readMem x0 x1 x2 x3 x4 x5) := by
  unfold State.readMem
  with_reducible repeat' (first
      | assumption | apply State.drainTo_keeps | apply State.readLines_keeps | apply KeepsR.okI | apply KeepsR.stallT
      | refine KeepsO.elim ?_ (by assumption) | split | (fail_if_no_progress extract_lets))

theorem State.readSpan_keeps {s0 : State} {x0} {x1} {x2} {x3} {x4} (h0 : Keeps s0 x0) : KeepsR s0 (@State.readSpan x0 x1 x2 x3 x4) := by
  unfold State.readSpan
  try dsimp only
  with_reducible repeat' (first
      | assumption | apply State.useFree_keeps | apply State.devReq_keeps | apply State.readMem_keeps
      | apply State.poisonErr_keeps | apply KeepsR.okI | apply KeepsR.evI | split)

theorem State.readSpans_keeps {s0 : State} {x0} {x1} {x2} {x3} {x4} (h0 : Keeps s0 x0) : KeepsR s0 (@State.readSpans x0 x1 x2 x3 x4) := by
  induction x4 generalizing x0 x1 x2 x3 with
  | nil => (unfold State.readSpans; first | assumption | constructor; assumption | constructor | exact h0)
  | cons e t ih =>
    unfold State.readSpans
    try dsimp only
    with_reducible repeat' (first
        | assumption | apply ih | intro _ | apply State.readSpan_keeps | apply KeepsR.bind | apply KeepsR.okI)

theorem State.loadRaw_keeps {s0 : State} {x0} {x1} {x2} {x3} {x4} (h0 : Keeps s0 x0) : KeepsR s0 (@State.loadRaw x0 x1 x2 x3 x4) := by
  unfold State.loadRaw
  with_reducible repeat' (first
      | assumption | intro _ | apply State.ensureHeld_keeps | apply State.readSpans_keeps | apply State.access_keeps
      | apply KeepsR.bind | apply KeepsR.stallT | refine KeepsO.elim ?_ (by assumption) | split)

theorem State.load_keeps {s0 : State} {x0} {x1} {x2} {x3} {x4} (h0 : Keeps s0 x0) : KeepsR s0 (@State.load x0 x1 x2 x3 x4) := by
  unfold State.load
  with_reducible repeat' (first
      | assumption | apply Res.crossing_keeps | apply State.loadRaw_keeps)

theorem State.writeSpan_keeps {s0 : State} {x0} {x1} {x2} {x3} {x4} {x5} (h0 : Keeps s0 x0) : KeepsO s0 (@State.writeSpan x0 x1 x2 x3 x4 x5) := by
  unfold State.writeSpan
  with_reducible repeat' (first
      | assumption | intro _ | apply State.uncWrite_keeps | apply State.before_keeps | apply State.devReq_keeps
      | apply State.queueStores_keeps | apply State.ctlStore_keeps | apply KeepsO.someI | apply KeepsO.fold
      | apply KeepsO.bind | apply KeepsO.map | split)

theorem State.writeSpans_keeps {s0 : State} {x0} {x1} {x2} {x3} {x4} {x5} (h0 : Keeps s0 x0) : KeepsO s0 (@State.writeSpans x0 x1 x2 x3 x4 x5) := by
  induction x4 generalizing x0 x1 x2 x3 x5 with
  | nil => (unfold State.writeSpans; first | assumption | constructor; assumption | constructor | exact h0)
  | cons e t ih =>
    unfold State.writeSpans
    try dsimp only
    with_reducible repeat' (first
        | assumption | apply ih | apply State.writeSpan_keeps | apply KeepsO.noneT | refine KeepsO.elim ?_ (by assumption)
        | split)

theorem State.storeRaw_keeps {s0 : State} {x0} {x1} {x2} {x3} {x4} {x5} {x6} (h0 : Keeps s0 x0) : KeepsR s0 (@State.storeRaw x0 x1 x2 x3 x4 x5 x6) := by
  unfold State.storeRaw
  with_reducible repeat' (first
      | assumption | intro _ | apply State.ensureHeld_keeps | apply State.abortRegion_keeps | apply State.updCore_keeps
      | apply State.writeSpans_keeps | apply State.access_keeps | apply KeepsR.bind | apply KeepsR.okI | apply KeepsR.stallT
      | apply KeepsR.parkI | refine KeepsO.elim ?_ (by assumption) | split)

theorem State.store_keeps {s0 : State} {x0} {x1} {x2} {x3} {x4} {x5} {x6} (h0 : Keeps s0 x0) : KeepsR s0 (@State.store x0 x1 x2 x3 x4 x5 x6) := by
  unfold State.store
  with_reducible repeat' (first
      | assumption | apply Res.crossing_keeps | apply State.storeRaw_keeps)

theorem barrier_keeps {s0 : State} {x0} {x1} {x2} {x3} (h1 : Keeps s0 x1) (h3 : ∀ y0, Keeps s0 y0 → KeepsR s0 (x3 y0)) : KeepsR s0 (@barrier x0 x1 x2 x3) := by
  unfold barrier
  with_reducible repeat' (first
      | assumption | apply h3 | apply KeepsR.evI | apply KeepsR.ite)

end Sys2Proof.Machine
end

