-- ==== Sys2Proof/Laws/OperandsKeeps.lean ====
section
/-!
SUPPORT. Laws/OperandsKeeps.lean: what Machine/Operands.lean leaves alone: each operation and meaning of it keeps the queue, the parts, the clock and the
canonical form of memory (`Keeps`).
-/
set_option linter.all false
namespace Sys2Proof.Machine

theorem State.setG_keeps {s0 : State} {x0} {x1} {x2} {x3} (h0 : Keeps s0 x0) : Keeps s0 (@State.setG x0 x1 x2 x3) := by
  unfold State.setG
  with_reducible repeat' (first
      | assumption | apply State.updCore_keeps)

theorem State.setM_keeps {s0 : State} {x0} {x1} {x2} {x3} (h0 : Keeps s0 x0) : Keeps s0 (@State.setM x0 x1 x2 x3) := by
  unfold State.setM
  with_reducible repeat' (first
      | assumption | apply State.updCore_keeps)

theorem State.setV_keeps {s0 : State} {x0} {x1} {x2} {x3} (h0 : Keeps s0 x0) : Keeps s0 (@State.setV x0 x1 x2 x3) := by
  unfold State.setV
  with_reducible repeat' (first
      | assumption | apply State.updCore_keeps)

theorem illegal_keeps {s0 : State} {x0} {x1} {x2} (h1 : Keeps s0 x1) : KeepsR s0 (@illegal x0 x1 x2) := by
  unfold illegal
  with_reducible repeat' (first
      | assumption | apply KeepsR.evI)

theorem noAuth_keeps {s0 : State} {x0} {x1} {x2} (h1 : Keeps s0 x1) : KeepsR s0 (@noAuth x0 x1 x2) := by
  unfold noAuth
  with_reducible repeat' (first
      | assumption | apply KeepsR.evI)

end Sys2Proof.Machine
end

