-- ==== Sys2Proof/Laws/LoadStoreKeeps.lean ====
section
/-!
SUPPORT. Laws/LoadStoreKeeps.lean: what Machine/LoadStore.lean leaves alone: each operation and meaning of it keeps the queue, the parts, the clock and the
canonical form of memory (`Keeps`).
-/
set_option linter.all false
namespace Sys2Proof.Machine

theorem State.loadErr_keeps {s0 : State} {x0} {x1} {x2} {x3} {x4} {x5} (h0 : Keeps s0 x0) : KeepsR s0 (@State.loadErr x0 x1 x2 x3 x4 x5) := by
  unfold State.loadErr
  with_reducible repeat' (first
      | assumption | apply State.fetch_keeps | apply State.l2Err_keeps | apply State.spans_keeps | apply State.l1Err_keeps
      | apply KeepsR.okI | refine KeepsX.okE ?_ (by assumption) | split | (fail_if_no_progress extract_lets))

theorem State.loadReg_keeps {s0 : State} {x0} {x1} {x2} {x3} {x4} {x5} {x6} (h0 : Keeps s0 x0) : KeepsR s0 (@State.loadReg x0 x1 x2 x3 x4 x5 x6) := by
  unfold State.loadReg
  with_reducible repeat' (first
      | assumption | intro _ | apply Res.crossing_keeps | apply State.ensureHeld_keeps | apply State.readSpans_keeps
      | apply State.devReq_keeps | apply State.updCore_keeps | apply State.setG_keeps | apply State.access_keeps
      | apply KeepsR.bind | apply KeepsR.okI | apply KeepsR.stallT | apply KeepsR.parkI
      | refine KeepsO.elim ?_ (by assumption) | split)

theorem State.loadMet_keeps {s0 : State} {x0} {x1} {x2} {x3} {x4} {x5} {x6} {x7} (h0 : Keeps s0 x0) : KeepsR s0 (@State.loadMet x0 x1 x2 x3 x4 x5 x6 x7) := by
  unfold State.loadMet
  with_reducible repeat' (first
      | assumption | intro _ | apply State.loadErr_keeps | apply State.loadReg_keeps | apply KeepsR.bind)

theorem State.prefetchTry_keeps {s0 : State} {x0} {x1} {x2} {x3} (h0 : Keeps s0 x0) : KeepsO s0 (@State.prefetchTry x0 x1 x2 x3) := by
  unfold State.prefetchTry
  with_reducible repeat' (first
      | assumption | apply State.evict_keeps | apply State.acqOwn_keeps | apply State.acqShared_keeps
      | apply State.updCore_keeps | apply State.install_keeps | apply State.touch_keeps | apply State.slicePut_keeps
      | apply KeepsO.someI | apply KeepsO.noneT | split | (fail_if_no_progress extract_lets))

theorem State.prefetch_keeps {s0 : State} {x0} {x1} {x2} {x3} (h0 : Keeps s0 x0) : Keeps s0 (@State.prefetch x0 x1 x2 x3) := by
  unfold State.prefetch
  with_reducible repeat' (first
      | assumption | apply State.updCore_keeps | apply State.prefetchTry_keeps | apply KeepsO.getD)

theorem State.storeReg_keeps {s0 : State} {x0} {x1} {x2} {x3} {x4} {x5} {x6} (h0 : Keeps s0 x0) : KeepsR s0 (@State.storeReg x0 x1 x2 x3 x4 x5 x6) := by
  unfold State.storeReg
  with_reducible repeat' (first
      | assumption | intro _ | apply State.store_keeps | apply KeepsR.bind | apply KeepsR.okI)

theorem execCLdk_keeps {s0 : State} {x0} {x1} {x2} {x3} (h3 : Keeps s0 x3) : KeepsH s0 (@execCLdk x0 x1 x2 x3) := by
  unfold execCLdk
  with_reducible repeat' (first
      | assumption | intro _ | apply State.loadMet_keeps | apply State.instr_keeps | apply KeepsH.nextI)

theorem execCStk_keeps {s0 : State} {x0} {x1} {x2} {x3} (h3 : Keeps s0 x3) : KeepsH s0 (@execCStk x0 x1 x2 x3) := by
  unfold execCStk
  with_reducible repeat' (first
      | assumption | intro _ | apply State.storeReg_keeps | apply State.instr_keeps | apply KeepsH.nextI)

theorem execLd_keeps {s0 : State} {x0} {x1} {x2} {x3} {x4} {x5} {x6} (h6 : Keeps s0 x6) : KeepsH s0 (@execLd x0 x1 x2 x3 x4 x5 x6) := by
  unfold execLd
  with_reducible repeat' (first
      | assumption | intro _ | apply illegal_keeps | apply State.loadMet_keeps | apply State.instr_keeps | apply KeepsH.nextI
      | split)

theorem execLdL_keeps {s0 : State} {x0} {x1} {x2} {x3} {x4} {x5} (h5 : Keeps s0 x5) : KeepsH s0 (@execLdL x0 x1 x2 x3 x4 x5) := by
  unfold execLdL
  with_reducible repeat' (first
      | assumption | intro _ | apply illegal_keeps | apply State.loadMet_keeps | apply State.instr_keeps | apply KeepsH.nextI
      | split)

theorem misaligned_keeps {s0 : State} {x0} {x1} {x2} {x3} {x4} (h1 : Keeps s0 x1) : KeepsR s0 (@misaligned x0 x1 x2 x3 x4) := by
  unfold misaligned
  with_reducible repeat' (first
      | assumption | apply KeepsR.evI)

theorem execLda_keeps {s0 : State} {x0} {x1} {x2} {x3} {x4} {x5} (h5 : Keeps s0 x5) : KeepsH s0 (@execLda x0 x1 x2 x3 x4 x5) := by
  unfold execLda
  with_reducible repeat' (first
      | assumption | intro _ | apply illegal_keeps | apply State.loadMet_keeps | apply State.drain_keeps
      | apply misaligned_keeps | apply Res.counted_keeps | apply State.instr_keeps | apply KeepsH.nextI | apply KeepsO.someI
      | apply KeepsR.stallT | apply KeepsR.ite | refine KeepsO.elim ?_ (by assumption) | split)

theorem execLdx_keeps {s0 : State} {x0} {x1} {x2} {x3} {x4} {x5} {x6} (h6 : Keeps s0 x6) : KeepsH s0 (@execLdx x0 x1 x2 x3 x4 x5 x6) := by
  unfold execLdx
  with_reducible repeat' (first
      | assumption | intro _ | apply illegal_keeps | apply State.loadMet_keeps | apply State.instr_keeps | apply KeepsH.nextI
      | split)

theorem execPref_keeps {s0 : State} {x0} {x1} {x2} {x3} {x4} {x5} (h5 : Keeps s0 x5) : KeepsH s0 (@execPref x0 x1 x2 x3 x4 x5) := by
  unfold execPref
  with_reducible repeat' (first
      | assumption | intro _ | apply illegal_keeps | apply State.prefetch_keeps | apply State.instr_keeps
      | apply KeepsH.nextI | apply KeepsR.okI | apply KeepsR.ite)

theorem execSt_keeps {s0 : State} {x0} {x1} {x2} {x3} {x4} {x5} (h5 : Keeps s0 x5) : KeepsH s0 (@execSt x0 x1 x2 x3 x4 x5) := by
  unfold execSt
  with_reducible repeat' (first
      | assumption | intro _ | apply illegal_keeps | apply State.storeReg_keeps | apply State.instr_keeps
      | apply KeepsH.nextI | split)

theorem execStL_keeps {s0 : State} {x0} {x1} {x2} {x3} {x4} {x5} (h5 : Keeps s0 x5) : KeepsH s0 (@execStL x0 x1 x2 x3 x4 x5) := by
  unfold execStL
  with_reducible repeat' (first
      | assumption | intro _ | apply illegal_keeps | apply State.storeReg_keeps | apply State.instr_keeps
      | apply KeepsH.nextI | split)

theorem execStl_keeps {s0 : State} {x0} {x1} {x2} {x3} {x4} {x5} (h5 : Keeps s0 x5) : KeepsH s0 (@execStl x0 x1 x2 x3 x4 x5) := by
  unfold execStl
  with_reducible repeat' (first
      | assumption | intro _ | apply illegal_keeps | apply State.storeReg_keeps | apply misaligned_keeps
      | apply Res.counted_keeps | apply State.instr_keeps | apply KeepsH.nextI | split | (fail_if_no_progress extract_lets))

theorem execStx_keeps {s0 : State} {x0} {x1} {x2} {x3} {x4} {x5} {x6} (h6 : Keeps s0 x6) : KeepsH s0 (@execStx x0 x1 x2 x3 x4 x5 x6) := by
  unfold execStx
  with_reducible repeat' (first
      | assumption | intro _ | apply illegal_keeps | apply State.storeReg_keeps | apply State.instr_keeps
      | apply KeepsH.nextI | split)

end Sys2Proof.Machine
end

