-- ==== Sys2Proof/Laws/AtomicKeeps.lean ====
section
/-!
SUPPORT. Laws/AtomicKeeps.lean: what Machine/Atomic.lean leaves alone: each operation and meaning of it keeps the queue, the parts, the clock and the
canonical form of memory (`Keeps`).
-/
set_option linter.all false
namespace Sys2Proof.Machine

theorem done4_keeps {s0 : State} {x0} {x1} (h0 : Keeps s0 x0) : KeepsR s0 (@done4 x0 x1) := by
  unfold done4
  with_reducible repeat' (first
      | assumption | apply KeepsR.okI)

theorem State.cmo_keeps {s0 : State} {x0} {x1} {x2} {x3} {x4} (h0 : Keeps s0 x0) (h4 : ∀ y0 y1 y2, Keeps s0 y0 → Keeps s0 (x4 y0 y1 y2)) : KeepsR s0 (@State.cmo x0 x1 x2 x3 x4) := by
  unfold State.cmo
  with_reducible repeat' (first
      | assumption | intro _ | apply h4 | apply done4_keeps | apply State.drainLine_keeps | apply State.gatePass_keeps
      | apply State.accessMem_keeps | apply KeepsR.bind | apply KeepsR.stallT | refine KeepsO.elim ?_ (by assumption) | split)

theorem State.commitStores_keeps {s0 : State} {x0} {x1} {x2} (h0 : Keeps s0 x0) : KeepsO s0 (@State.commitStores x0 x1 x2) := by
  unfold State.commitStores
  with_reducible repeat' (first
      | assumption | apply State.drain_keeps | apply State.updCore_keeps)

theorem State.fence_keeps {s0 : State} {x0} {x1} {x2} {x3} (h0 : Keeps s0 x0) : KeepsR s0 (@State.fence x0 x1 x2 x3) := by
  unfold State.fence
  with_reducible repeat' (first
      | assumption | apply State.drain_keeps | apply State.updCore_keeps | apply State.countC_keeps | apply done4_keeps
      | apply KeepsR.parkI | refine KeepsO.elim ?_ (by assumption) | split)

theorem State.hatom_keeps {s0 : State} {x0} {x1} {x2} {x3} {x4} {x5} (h0 : Keeps s0 x0) : KeepsR s0 (@State.hatom x0 x1 x2 x3 x4 x5) := by
  unfold State.hatom
  try dsimp only
  with_reducible repeat' (first
      | assumption | intro _ | apply State.hatApply_keeps | apply State.abandon_keeps | apply misaligned_keeps
      | apply State.setG_keeps | apply State.ash_keeps | apply Res.counted_keeps | apply State.drainLine_keeps
      | apply State.poisonErr_keeps | apply State.gatePass_keeps | apply State.accessMem_keeps | apply KeepsR.bind
      | apply KeepsR.okI | apply KeepsR.evI | apply KeepsR.stallT | refine KeepsO.elim ?_ (by assumption) | split
      | (fail_if_no_progress apply Keeps.mkU))

theorem State.setWayL2_keeps {s0 : State} {x0} {x1} {x2} {x3} (h0 : Keeps s0 x0) : Keeps s0 (@State.setWayL2 x0 x1 x2 x3) := by
  unfold State.setWayL2
  with_reducible repeat' (first
      | assumption | apply State.evict_keeps | apply State.updCore_keeps | apply State.cmoClean_keeps | apply Keeps.ite)

theorem State.setWaySlice_keeps {s0 : State} {x0} {x1} {x2} {x3} {x4} (h0 : Keeps s0 x0) : Keeps s0 (@State.setWaySlice x0 x1 x2 x3 x4) := by
  unfold State.setWaySlice
  with_reducible repeat' (first
      | assumption | apply State.unbuffer_keeps | apply State.lastCopy_keeps | apply Keeps.ite
      | (fail_if_no_progress apply Keeps.mkU))

theorem State.setWay_keeps {s0 : State} {x0} {x1} {x2} {x3} (h0 : Keeps s0 x0) : Keeps s0 (@State.setWay x0 x1 x2 x3) := by
  unfold State.setWay
  try dsimp only
  with_reducible repeat' (first
      | assumption | apply State.setWayL2_keeps | apply State.useFree_keeps | apply State.updCore_keeps
      | apply State.setWaySlice_keeps | split)

theorem State.tlbiSend_keeps {s0 : State} {x0} {x1} {x2} (h0 : Keeps s0 x0) : Keeps s0 (@State.tlbiSend x0 x1 x2) := by
  unfold State.tlbiSend
  with_reducible repeat' (first
      | assumption | apply State.updCore_keeps | (fail_if_no_progress apply Keeps.mkU))

theorem State.tlbi_keeps {s0 : State} {x0} {x1} {x2} {x3} (h0 : Keeps s0 x0) : KeepsR s0 (@State.tlbi x0 x1 x2 x3) := by
  unfold State.tlbi
  with_reducible repeat' (first
      | assumption | apply State.drain_keeps | apply State.updCore_keeps | apply State.tlbiSend_keeps | apply done4_keeps
      | apply KeepsR.stallT | refine KeepsO.elim ?_ (by assumption) | split)

theorem State.tlbiAt_keeps {s0 : State} {x0} {x1} {x2} {x3} (h0 : Keeps s0 x0) : Keeps s0 (@State.tlbiAt x0 x1 x2 x3) := by
  unfold State.tlbiAt
  with_reducible repeat' (first
      | assumption | (fail_if_no_progress apply Keeps.mkU))

theorem execAtomAbort_keeps {s0 : State} {x0} {x1} {x2} (h2 : Keeps s0 x2) : KeepsH s0 (@execAtomAbort x0 x1 x2) := by
  unfold execAtomAbort
  with_reducible repeat' (first
      | assumption | intro _ | apply State.abortRegion_keeps | apply done4_keeps | apply State.instr_keeps
      | apply KeepsH.nextI | apply KeepsR.parkI | apply KeepsR.ite)

theorem execAtomAdd_keeps {s0 : State} {x0} {x1} {x2} (h2 : Keeps s0 x2) : KeepsH s0 (@execAtomAdd x0 x1 x2) := by
  unfold execAtomAdd
  with_reducible repeat' (first
      | assumption | intro _ | apply State.acqOwn_keeps | apply State.abortRegion_keeps | apply State.updCore_keeps
      | apply done4_keeps | apply State.access_keeps | apply State.instr_keeps | apply KeepsR.bind | apply KeepsH.nextI
      | apply KeepsR.stallT | apply KeepsR.parkI | apply KeepsR.ite | split)

theorem execAtomBegin_keeps {s0 : State} {x0} {x1} {x2} (h2 : Keeps s0 x2) : KeepsH s0 (@execAtomBegin x0 x1 x2) := by
  unfold execAtomBegin
  with_reducible repeat' (first
      | assumption | intro _ | apply State.abortRegion_keeps | apply State.drain_keeps | apply State.updCore_keeps
      | apply done4_keeps | apply State.instr_keeps | apply KeepsH.nextI | apply KeepsR.stallT | apply KeepsR.parkI
      | refine KeepsO.elim ?_ (by assumption) | split)

theorem execAtomCommit_keeps {s0 : State} {x0} {x1} {x2} (h2 : Keeps s0 x2) : KeepsH s0 (@execAtomCommit x0 x1 x2) := by
  unfold execAtomCommit
  with_reducible repeat' (first
      | assumption | intro _ | apply State.release_keeps | apply State.reharden_keeps | apply State.ensureHeld_keeps
      | apply State.commitStores_keeps | apply State.drain_keeps | apply State.updCore_keeps | apply done4_keeps
      | apply State.setG_keeps | apply State.instr_keeps | apply KeepsH.nextI | apply KeepsR.stallT
      | refine KeepsO.elim ?_ (by assumption) | split)

theorem fenceX_keeps {s0 : State} {x0} {x1} {x2} (h2 : Keeps s0 x2) : Keeps s0 (@fenceX x0 x1 x2) := by
  unfold fenceX
  with_reducible repeat' (first
      | assumption | intro _ | apply barrier_keeps | apply State.countC_keeps | apply State.instr_keeps | apply KeepsR.okI)

theorem execCFenceX_keeps {s0 : State} {x0} {x1} (h1 : Keeps s0 x1) : KeepsH s0 (@execCFenceX x0 x1) := by
  unfold execCFenceX
  with_reducible repeat' (first
      | assumption | apply fenceX_keeps | apply KeepsH.nextI)

theorem noRegion_keeps {s0 : State} {x0} {x1} {x2} (h0 : Keeps s0 x0) (h2 : ∀ y0, Keeps s0 y0 → KeepsR s0 (x2 y0)) : KeepsR s0 (@noRegion x0 x1 x2) := by
  unfold noRegion
  with_reducible repeat' (first
      | assumption | apply h2 | apply State.abortRegion_keeps | apply KeepsR.parkI | apply KeepsR.ite)

theorem execCclean_keeps {s0 : State} {x0} {x1} {x2} (h2 : Keeps s0 x2) : KeepsH s0 (@execCclean x0 x1 x2) := by
  unfold execCclean
  with_reducible repeat' (first
      | assumption | intro _ | apply State.cmo_keeps | apply noRegion_keeps | apply State.cmoClean_keeps
      | apply State.instr_keeps | apply KeepsH.nextI)

theorem execCflush_keeps {s0 : State} {x0} {x1} {x2} (h2 : Keeps s0 x2) : KeepsH s0 (@execCflush x0 x1 x2) := by
  unfold execCflush
  with_reducible repeat' (first
      | assumption | intro _ | apply State.cmo_keeps | apply noRegion_keeps | apply State.recallAll_keeps
      | apply State.instr_keeps | apply KeepsH.nextI)

theorem withAuth_keeps {s0 : State} {x0} {x1} {x2} {x3} (h0 : Keeps s0 x0) (h3 : ∀ y0, Keeps s0 y0 → KeepsR s0 (x3 y0)) : KeepsR s0 (@withAuth x0 x1 x2 x3) := by
  unfold withAuth
  with_reducible repeat' (first
      | assumption | apply h3 | apply noAuth_keeps | apply KeepsR.ite)

theorem execCinval_keeps {s0 : State} {x0} {x1} {x2} (h2 : Keeps s0 x2) : KeepsH s0 (@execCinval x0 x1 x2) := by
  unfold execCinval
  with_reducible repeat' (first
      | assumption | intro _ | apply State.cmoInval_keeps | apply State.cmo_keeps | apply noRegion_keeps
      | apply withAuth_keeps | apply State.instr_keeps | apply KeepsH.nextI)

theorem execCzero_keeps {s0 : State} {x0} {x1} {x2} (h2 : Keeps s0 x2) : KeepsH s0 (@execCzero x0 x1 x2) := by
  unfold execCzero
  with_reducible repeat' (first
      | assumption | intro _ | apply noRegion_keeps | apply done4_keeps | apply State.writeSpans_keeps
      | apply State.instr_keeps | apply State.accessMem_keeps | apply KeepsR.bind | apply KeepsH.nextI | apply KeepsR.stallT
      | refine KeepsO.elim ?_ (by assumption) | split)

theorem execFenceFull_keeps {s0 : State} {x0} {x1} (h1 : Keeps s0 x1) : KeepsH s0 (@execFenceFull x0 x1) := by
  unfold execFenceFull
  with_reducible repeat' (first
      | assumption | intro _ | apply State.fence_keeps | apply State.instr_keeps | apply KeepsH.nextI)

theorem execFenceGlobal_keeps {s0 : State} {x0} {x1} (h1 : Keeps s0 x1) : KeepsH s0 (@execFenceGlobal x0 x1) := by
  unfold execFenceGlobal
  with_reducible repeat' (first
      | assumption | intro _ | apply noRegion_keeps | apply State.fence_keeps | apply State.instr_keeps | apply KeepsH.nextI)

theorem execFenceIo_keeps {s0 : State} {x0} {x1} (h1 : Keeps s0 x1) : KeepsH s0 (@execFenceIo x0 x1) := by
  unfold execFenceIo
  with_reducible repeat' (first
      | assumption | intro _ | apply noRegion_keeps | apply State.fence_keeps | apply State.instr_keeps | apply KeepsH.nextI)

theorem fenceFree_keeps {s0 : State} {x0} {x1} {x2} (h2 : Keeps s0 x2) : Keeps s0 (@fenceFree x0 x1 x2) := by
  unfold fenceFree
  with_reducible repeat' (first
      | assumption | intro _ | apply State.countC_keeps | apply done4_keeps | apply State.instr_keeps)

theorem execFenceLl_keeps {s0 : State} {x0} {x1} (h1 : Keeps s0 x1) : KeepsH s0 (@execFenceLl x0 x1) := by
  unfold execFenceLl
  with_reducible repeat' (first
      | assumption | apply fenceFree_keeps | apply KeepsH.nextI)

theorem execFenceLs_keeps {s0 : State} {x0} {x1} (h1 : Keeps s0 x1) : KeepsH s0 (@execFenceLs x0 x1) := by
  unfold execFenceLs
  with_reducible repeat' (first
      | assumption | apply fenceFree_keeps | apply KeepsH.nextI)

theorem execFenceRecoveryTimeout_keeps {s0 : State} {x0} {x1} (h1 : Keeps s0 x1) : KeepsH s0 (@execFenceRecoveryTimeout x0 x1) := by
  unfold execFenceRecoveryTimeout
  with_reducible repeat' (first
      | assumption | apply State.raise_keeps | apply KeepsH.nextI | apply KeepsO.getD | split)

theorem execFenceSl_keeps {s0 : State} {x0} {x1} (h1 : Keeps s0 x1) : KeepsH s0 (@execFenceSl x0 x1) := by
  unfold execFenceSl
  with_reducible repeat' (first
      | assumption | intro _ | apply State.fence_keeps | apply State.instr_keeps | apply KeepsH.nextI)

theorem execFenceSs_keeps {s0 : State} {x0} {x1} (h1 : Keeps s0 x1) : KeepsH s0 (@execFenceSs x0 x1) := by
  unfold execFenceSs
  with_reducible repeat' (first
      | assumption | intro _ | apply State.updCore_keeps | apply State.countC_keeps | apply done4_keeps
      | apply State.instr_keeps | apply KeepsH.nextI)

theorem execFenceX_keeps {s0 : State} {x0} {x1} (h1 : Keeps s0 x1) : KeepsH s0 (@execFenceX x0 x1) := by
  unfold execFenceX
  with_reducible repeat' (first
      | assumption | apply fenceX_keeps | apply KeepsH.nextI)

theorem execHatom_keeps {s0 : State} {x0} {x1} {x2} {x3} {x4} {x5} {x6} (h6 : Keeps s0 x6) : KeepsH s0 (@execHatom x0 x1 x2 x3 x4 x5 x6) := by
  unfold execHatom
  with_reducible repeat' (first
      | assumption | intro _ | apply illegal_keeps | apply noRegion_keeps | apply State.hatom_keeps | apply State.instr_keeps
      | apply KeepsH.nextI | apply KeepsR.ite)

theorem execHcas_keeps {s0 : State} {x0} {x1} {x2} {x3} {x4} {x5} {x6} {x7} (h7 : Keeps s0 x7) : KeepsH s0 (@execHcas x0 x1 x2 x3 x4 x5 x6 x7) := by
  unfold execHcas
  with_reducible repeat' (first
      | assumption | intro _ | apply illegal_keeps | apply noRegion_keeps | apply State.hatom_keeps | apply State.instr_keeps
      | apply KeepsH.nextI | apply KeepsR.ite)

theorem execIflush_keeps {s0 : State} {x0} {x1} (h1 : Keeps s0 x1) : KeepsH s0 (@execIflush x0 x1) := by
  unfold execIflush
  with_reducible repeat' (first
      | assumption | intro _ | apply noRegion_keeps | apply State.drain_keeps | apply State.updCore_keeps | apply done4_keeps
      | apply State.instr_keeps | apply KeepsH.nextI | apply KeepsR.stallT | refine KeepsO.elim ?_ (by assumption) | split)

theorem execPostedAtomicFailed_keeps {s0 : State} {x0} {x1} (h1 : Keeps s0 x1) : KeepsH s0 (@execPostedAtomicFailed x0 x1) := by
  unfold execPostedAtomicFailed
  with_reducible repeat' (first
      | assumption | apply State.updCore_keeps | apply KeepsH.nextI | split | (fail_if_no_progress apply Keeps.mkU))

theorem execRegionLong_keeps {s0 : State} {x0} {x1} (h1 : Keeps s0 x1) : KeepsH s0 (@execRegionLong x0 x1) := by
  unfold execRegionLong
  with_reducible repeat' (first
      | assumption | apply State.stepDone_keeps | apply State.abortRegion_keeps | apply KeepsH.nextI | split)

theorem execRegionRecoveryTimeout_keeps {s0 : State} {x0} {x1} (h1 : Keeps s0 x1) : KeepsH s0 (@execRegionRecoveryTimeout x0 x1) := by
  unfold execRegionRecoveryTimeout
  with_reducible repeat' (first
      | assumption | apply State.stepDone_keeps | apply State.abortRegion_keeps | apply Keeps.ite | apply KeepsH.nextI)

theorem execSwclean_keeps {s0 : State} {x0} {x1} {x2} (h2 : Keeps s0 x2) : KeepsH s0 (@execSwclean x0 x1 x2) := by
  unfold execSwclean
  with_reducible repeat' (first
      | assumption | intro _ | apply noRegion_keeps | apply withAuth_keeps | apply State.setWay_keeps | apply done4_keeps
      | apply State.instr_keeps | apply KeepsH.nextI)

theorem execSwflush_keeps {s0 : State} {x0} {x1} {x2} (h2 : Keeps s0 x2) : KeepsH s0 (@execSwflush x0 x1 x2) := by
  unfold execSwflush
  with_reducible repeat' (first
      | assumption | intro _ | apply noRegion_keeps | apply withAuth_keeps | apply State.setWay_keeps | apply done4_keeps
      | apply State.instr_keeps | apply KeepsH.nextI)

theorem tlbiForm_keeps {s0 : State} {x0} {x1} {x2} {x3} (h2 : ∀ y0, Keeps s0 y0 → KeepsR s0 (x2 y0)) (h3 : Keeps s0 x3) : Keeps s0 (@tlbiForm x0 x1 x2 x3) := by
  unfold tlbiForm
  with_reducible repeat' (first
      | assumption | intro _ | apply illegal_keeps | apply noRegion_keeps | apply withAuth_keeps | apply State.instr_keeps
      | apply KeepsR.ite)

theorem execTlbiAll_keeps {s0 : State} {x0} {x1} {x2} (h2 : Keeps s0 x2) : KeepsH s0 (@execTlbiAll x0 x1 x2) := by
  unfold execTlbiAll
  with_reducible repeat' (first
      | assumption | intro _ | apply State.tlbi_keeps | apply tlbiForm_keeps | apply KeepsH.nextI)

theorem execTlbiComplete_keeps {s0 : State} {x0} {x1} {x2} (h2 : Keeps s0 x2) : KeepsH s0 (@execTlbiComplete x0 x1 x2) := by
  unfold execTlbiComplete
  with_reducible repeat' (first
      | assumption | apply State.updCore_keeps | apply KeepsH.nextI | split | (fail_if_no_progress apply Keeps.mkU))

theorem execTlbiForward_keeps {s0 : State} {x0} {x1} {x2} (h2 : Keeps s0 x2) : KeepsH s0 (@execTlbiForward x0 x1 x2) := by
  unfold execTlbiForward
  with_reducible repeat' (first
      | assumption | apply State.tlbiAt_keeps | apply KeepsH.nextI | split)

theorem execTlbiIpa_keeps {s0 : State} {x0} {x1} {x2} {x3} {x4} (h4 : Keeps s0 x4) : KeepsH s0 (@execTlbiIpa x0 x1 x2 x3 x4) := by
  unfold execTlbiIpa
  with_reducible repeat' (first
      | assumption | intro _ | apply State.tlbi_keeps | apply tlbiForm_keeps | apply noAuth_keeps | apply KeepsH.nextI
      | apply KeepsR.ite)

theorem execTlbiSid_keeps {s0 : State} {x0} {x1} {x2} {x3} (h3 : Keeps s0 x3) : KeepsH s0 (@execTlbiSid x0 x1 x2 x3) := by
  unfold execTlbiSid
  with_reducible repeat' (first
      | assumption | intro _ | apply State.tlbi_keeps | apply tlbiForm_keeps | apply KeepsH.nextI)

theorem execTlbiSocketAck_keeps {s0 : State} {x0} {x1} {x2} (h2 : Keeps s0 x2) : KeepsH s0 (@execTlbiSocketAck x0 x1 x2) := by
  unfold execTlbiSocketAck
  with_reducible repeat' (first
      | assumption | apply State.tlbiAt_keeps | apply KeepsH.nextI | split)

theorem execTlbiTargetAck_keeps {s0 : State} {x0} {x1} {x2} {x3} (h3 : Keeps s0 x3) : KeepsH s0 (@execTlbiTargetAck x0 x1 x2 x3) := by
  unfold execTlbiTargetAck
  with_reducible repeat' (first
      | assumption | apply State.tlbiAt_keeps | apply State.drain_keeps | apply State.ioInval_keeps
      | apply State.updCore_keeps | apply Keeps.ite | apply KeepsH.nextI | refine KeepsO.elim ?_ (by assumption) | split)

theorem execTlbiVa_keeps {s0 : State} {x0} {x1} {x2} {x3} {x4} (h4 : Keeps s0 x4) : KeepsH s0 (@execTlbiVa x0 x1 x2 x3 x4) := by
  unfold execTlbiVa
  with_reducible repeat' (first
      | assumption | intro _ | apply State.tlbi_keeps | apply tlbiForm_keeps | apply KeepsH.nextI)

theorem execTlbiVm_keeps {s0 : State} {x0} {x1} {x2} {x3} (h3 : Keeps s0 x3) : KeepsH s0 (@execTlbiVm x0 x1 x2 x3) := by
  unfold execTlbiVm
  with_reducible repeat' (first
      | assumption | intro _ | apply State.tlbi_keeps | apply tlbiForm_keeps | apply KeepsH.nextI)

end Sys2Proof.Machine
end

