-- ==== Sys2Proof/Laws/BranchKeeps.lean ====
section
/-!
SUPPORT. Laws/BranchKeeps.lean: what Machine/Branch.lean leaves alone: each operation and meaning of it keeps the queue, the parts, the clock and the
canonical form of memory (`Keeps`).
-/
set_option linter.all false
namespace Sys2Proof.Machine

theorem State.predict_keeps {s0 : State} {x0} {x1} {x2} {x3} {x4} {x5} {x6} (h0 : Keeps s0 x0) : Keeps s0 (@State.predict x0 x1 x2 x3 x4 x5 x6) := by
  unfold State.predict
  with_reducible repeat' (first
      | assumption | apply State.updCore_keeps | apply State.ctxEval_keeps | apply Keeps.ite)

theorem State.transfer_keeps {s0 : State} {x0} {x1} {x2} {x3} {x4} {x5} {x6} (h0 : Keeps s0 x0) : KeepsR s0 (@State.transfer x0 x1 x2 x3 x4 x5 x6) := by
  unfold State.transfer
  with_reducible repeat' (first
      | assumption | apply State.trRec_keeps | apply State.predict_keeps | apply State.updCore_keeps | apply Keeps.ite
      | apply KeepsR.okI | apply KeepsR.stallT | apply KeepsR.ite)

theorem badTarget_keeps {s0 : State} {x0} {x1} {x2} {x3} (h1 : Keeps s0 x1) : KeepsR s0 (@badTarget x0 x1 x2 x3) := by
  unfold badTarget
  with_reducible repeat' (first
      | assumption | apply KeepsR.evI)

theorem State.push_keeps {s0 : State} {x0} {x1} {x2} (h0 : Keeps s0 x0) : KeepsR s0 (@State.push x0 x1 x2) := by
  unfold State.push
  with_reducible repeat' (first
      | assumption | intro _ | apply State.store_keeps | apply State.setSr_keeps | apply KeepsR.bind | apply KeepsR.okI)

theorem State.call_keeps {s0 : State} {x0} {x1} {x2} {x3} (h0 : Keeps s0 x0) : KeepsR s0 (@State.call x0 x1 x2 x3) := by
  unfold State.call
  with_reducible repeat' (first
      | assumption | intro _ | apply State.transfer_keeps | apply badTarget_keeps | apply State.push_keeps
      | apply State.setG_keeps | apply Res.counted_keeps | apply KeepsR.bind | apply KeepsR.ite)

theorem State.goto_keeps {s0 : State} {x0} {x1} {x2} {x3} {x4} {x5} (h0 : Keeps s0 x0) : KeepsR s0 (@State.goto x0 x1 x2 x3 x4 x5) := by
  unfold State.goto
  with_reducible repeat' (first
      | assumption | apply State.transfer_keeps | apply badTarget_keeps | apply KeepsR.ite)

theorem State.ret_keeps {s0 : State} {x0} {x1} {x2} {x3} (h0 : Keeps s0 x0) : KeepsR s0 (@State.ret x0 x1 x2 x3) := by
  unfold State.ret
  with_reducible repeat' (first
      | assumption | intro _ | apply Res.crossing_keeps | apply State.transfer_keeps | apply badTarget_keeps
      | apply State.loadRaw_keeps | apply State.setSr_keeps | apply Res.counted_keeps | apply KeepsR.bind | apply KeepsR.evI
      | apply KeepsR.ite)

theorem execBcc_keeps {s0 : State} {x0} {x1} {x2} {x3} {x4} {x5} (h5 : Keeps s0 x5) : KeepsH s0 (@execBcc x0 x1 x2 x3 x4 x5) := by
  unfold execBcc
  with_reducible repeat' (first
      | assumption | intro _ | apply State.goto_keeps | apply State.instr_keeps | apply KeepsH.nextI)

theorem execBccL_keeps {s0 : State} {x0} {x1} {x2} {x3} {x4} {x5} (h5 : Keeps s0 x5) : KeepsH s0 (@execBccL x0 x1 x2 x3 x4 x5) := by
  unfold execBccL
  with_reducible repeat' (first
      | assumption | intro _ | apply State.goto_keeps | apply State.instr_keeps | apply KeepsH.nextI)

theorem execBrk_keeps {s0 : State} {x0} {x1} {x2} (h2 : Keeps s0 x2) : KeepsH s0 (@execBrk x0 x1 x2) := by
  unfold execBrk
  with_reducible repeat' (first
      | assumption | intro _ | apply illegal_keeps | apply barrier_keeps | apply State.instr_keeps | apply KeepsH.nextI
      | apply KeepsR.evI | apply KeepsR.ite)

theorem execCBeqz_keeps {s0 : State} {x0} {x1} {x2} {x3} (h3 : Keeps s0 x3) : KeepsH s0 (@execCBeqz x0 x1 x2 x3) := by
  unfold execCBeqz
  with_reducible repeat' (first
      | assumption | intro _ | apply State.goto_keeps | apply State.instr_keeps | apply KeepsH.nextI)

theorem execCBnez_keeps {s0 : State} {x0} {x1} {x2} {x3} (h3 : Keeps s0 x3) : KeepsH s0 (@execCBnez x0 x1 x2 x3) := by
  unfold execCBnez
  with_reducible repeat' (first
      | assumption | intro _ | apply State.goto_keeps | apply State.instr_keeps | apply KeepsH.nextI)

theorem execCBrk_keeps {s0 : State} {x0} {x1} (h1 : Keeps s0 x1) : KeepsH s0 (@execCBrk x0 x1) := by
  unfold execCBrk
  with_reducible repeat' (first
      | assumption | intro _ | apply barrier_keeps | apply State.instr_keeps | apply KeepsH.nextI | apply KeepsR.evI)

theorem execCJ_keeps {s0 : State} {x0} {x1} {x2} (h2 : Keeps s0 x2) : KeepsH s0 (@execCJ x0 x1 x2) := by
  unfold execCJ
  with_reducible repeat' (first
      | assumption | intro _ | apply State.goto_keeps | apply State.instr_keeps | apply KeepsH.nextI)

theorem execCRet_keeps {s0 : State} {x0} {x1} (h1 : Keeps s0 x1) : KeepsH s0 (@execCRet x0 x1) := by
  unfold execCRet
  with_reducible repeat' (first
      | assumption | intro _ | apply State.ret_keeps | apply State.instr_keeps | apply KeepsH.nextI)

theorem execCall_keeps {s0 : State} {x0} {x1} {x2} (h2 : Keeps s0 x2) : KeepsH s0 (@execCall x0 x1 x2) := by
  unfold execCall
  with_reducible repeat' (first
      | assumption | intro _ | apply State.instr_keeps | apply State.call_keeps | apply KeepsH.nextI)

theorem execCallr_keeps {s0 : State} {x0} {x1} {x2} (h2 : Keeps s0 x2) : KeepsH s0 (@execCallr x0 x1 x2) := by
  unfold execCallr
  with_reducible repeat' (first
      | assumption | intro _ | apply State.instr_keeps | apply State.call_keeps | apply KeepsH.nextI)

theorem execJmp_keeps {s0 : State} {x0} {x1} {x2} (h2 : Keeps s0 x2) : KeepsH s0 (@execJmp x0 x1 x2) := by
  unfold execJmp
  with_reducible repeat' (first
      | assumption | intro _ | apply State.goto_keeps | apply State.instr_keeps | apply KeepsH.nextI)

theorem execJmpr_keeps {s0 : State} {x0} {x1} {x2} (h2 : Keeps s0 x2) : KeepsH s0 (@execJmpr x0 x1 x2) := by
  unfold execJmpr
  with_reducible repeat' (first
      | assumption | intro _ | apply State.goto_keeps | apply State.instr_keeps | apply KeepsH.nextI)

theorem execRet_keeps {s0 : State} {x0} {x1} {x2} (h2 : Keeps s0 x2) : KeepsH s0 (@execRet x0 x1 x2) := by
  unfold execRet
  with_reducible repeat' (first
      | assumption | intro _ | apply State.ret_keeps | apply State.instr_keeps | apply KeepsH.nextI)

theorem execTrap_keeps {s0 : State} {x0} {x1} {x2} (h2 : Keeps s0 x2) : KeepsH s0 (@execTrap x0 x1 x2) := by
  unfold execTrap
  with_reducible repeat' (first
      | assumption | intro _ | apply illegal_keeps | apply barrier_keeps | apply State.instr_keeps | apply KeepsH.nextI
      | apply KeepsR.evI | apply KeepsR.ite)

end Sys2Proof.Machine
end

