-- ==== Sys2Proof/Laws/FlagsKeeps.lean ====
section
/-!
SUPPORT. Laws/FlagsKeeps.lean: what Machine/Flags.lean leaves alone: each operation and meaning of it keeps the queue, the parts, the clock and the
canonical form of memory (`Keeps`).
-/
set_option linter.all false
namespace Sys2Proof.Machine

theorem State.raiseFlags_keeps {s0 : State} {x0} {x1} {x2} (h0 : Keeps s0 x0) : Keeps s0 (@State.raiseFlags x0 x1 x2) := by
  unfold State.raiseFlags
  with_reducible repeat' (first
      | assumption | apply State.setSr_keeps | apply Keeps.ite)

end Sys2Proof.Machine
end

