-- ==== Sys2Proof/Laws/IntKeeps.lean ====
section
/-!
SUPPORT. Laws/IntKeeps.lean: what Machine/Int.lean leaves alone: each operation and meaning of it keeps the queue, the parts, the clock and the
canonical form of memory (`Keeps`).
-/
set_option linter.all false
namespace Sys2Proof.Machine

theorem wrG_keeps {s0 : State} {x0} {x1} {x2} {x3} {x4} (h0 : Keeps s0 x0) : KeepsR s0 (@wrG x0 x1 x2 x3 x4) := by
  unfold wrG
  with_reducible repeat' (first
      | assumption | apply State.setG_keeps | apply KeepsR.okI)

theorem decOut_keeps {s0 : State} {x0} {x1} {x2} {x3} {x4} (h0 : Keeps s0 x0) : KeepsR s0 (@decOut x0 x1 x2 x3 x4) := by
  unfold decOut
  with_reducible repeat' (first
      | assumption | apply State.raiseFlags_keeps | apply wrG_keeps | apply Keeps.ite)

theorem divZero_keeps {s0 : State} {x0} {x1} (h0 : Keeps s0 x0) : KeepsR s0 (@divZero x0 x1) := by
  unfold divZero
  with_reducible repeat' (first
      | assumption | apply KeepsR.evI)

theorem execAddiL_keeps {s0 : State} {x0} {x1} {x2} {x3} (h3 : Keeps s0 x3) : KeepsH s0 (@execAddiL x0 x1 x2 x3) := by
  unfold execAddiL
  with_reducible repeat' (first
      | assumption | intro _ | apply wrG_keeps | apply State.instr_keeps | apply KeepsH.nextI)

theorem execAddiw_keeps {s0 : State} {x0} {x1} {x2} {x3} {x4} (h4 : Keeps s0 x4) : KeepsH s0 (@execAddiw x0 x1 x2 x3 x4) := by
  unfold execAddiw
  with_reducible repeat' (first
      | assumption | intro _ | apply wrG_keeps | apply State.instr_keeps | apply KeepsH.nextI)

theorem execAddpc_keeps {s0 : State} {x0} {x1} {x2} {x3} (h3 : Keeps s0 x3) : KeepsH s0 (@execAddpc x0 x1 x2 x3) := by
  unfold execAddpc
  with_reducible repeat' (first
      | assumption | intro _ | apply wrG_keeps | apply State.instr_keeps | apply KeepsH.nextI)

theorem execAddpcL_keeps {s0 : State} {x0} {x1} {x2} {x3} (h3 : Keeps s0 x3) : KeepsH s0 (@execAddpcL x0 x1 x2 x3) := by
  unfold execAddpcL
  with_reducible repeat' (first
      | assumption | intro _ | apply wrG_keeps | apply State.instr_keeps | apply KeepsH.nextI)

theorem execCAdd_keeps {s0 : State} {x0} {x1} {x2} {x3} (h3 : Keeps s0 x3) : KeepsH s0 (@execCAdd x0 x1 x2 x3) := by
  unfold execCAdd
  with_reducible repeat' (first
      | assumption | intro _ | apply wrG_keeps | apply State.instr_keeps | apply KeepsH.nextI)

theorem execCAddi_keeps {s0 : State} {x0} {x1} {x2} {x3} (h3 : Keeps s0 x3) : KeepsH s0 (@execCAddi x0 x1 x2 x3) := by
  unfold execCAddi
  with_reducible repeat' (first
      | assumption | intro _ | apply wrG_keeps | apply State.instr_keeps | apply KeepsH.nextI)

theorem execCAnd_keeps {s0 : State} {x0} {x1} {x2} {x3} (h3 : Keeps s0 x3) : KeepsH s0 (@execCAnd x0 x1 x2 x3) := by
  unfold execCAnd
  with_reducible repeat' (first
      | assumption | intro _ | apply wrG_keeps | apply State.instr_keeps | apply KeepsH.nextI)

theorem execCLi_keeps {s0 : State} {x0} {x1} {x2} {x3} (h3 : Keeps s0 x3) : KeepsH s0 (@execCLi x0 x1 x2 x3) := by
  unfold execCLi
  with_reducible repeat' (first
      | assumption | intro _ | apply wrG_keeps | apply State.instr_keeps | apply KeepsH.nextI)

theorem execCMov_keeps {s0 : State} {x0} {x1} {x2} {x3} (h3 : Keeps s0 x3) : KeepsH s0 (@execCMov x0 x1 x2 x3) := by
  unfold execCMov
  with_reducible repeat' (first
      | assumption | intro _ | apply illegal_keeps | apply wrG_keeps | apply State.instr_keeps | apply KeepsH.nextI
      | apply KeepsR.ite)

theorem execCOr_keeps {s0 : State} {x0} {x1} {x2} {x3} (h3 : Keeps s0 x3) : KeepsH s0 (@execCOr x0 x1 x2 x3) := by
  unfold execCOr
  with_reducible repeat' (first
      | assumption | intro _ | apply wrG_keeps | apply State.instr_keeps | apply KeepsH.nextI)

theorem execCSlli_keeps {s0 : State} {x0} {x1} {x2} {x3} (h3 : Keeps s0 x3) : KeepsH s0 (@execCSlli x0 x1 x2 x3) := by
  unfold execCSlli
  with_reducible repeat' (first
      | assumption | intro _ | apply wrG_keeps | apply State.instr_keeps | apply KeepsH.nextI)

theorem execCSrai_keeps {s0 : State} {x0} {x1} {x2} {x3} (h3 : Keeps s0 x3) : KeepsH s0 (@execCSrai x0 x1 x2 x3) := by
  unfold execCSrai
  with_reducible repeat' (first
      | assumption | intro _ | apply wrG_keeps | apply State.instr_keeps | apply KeepsH.nextI)

theorem execCSrli_keeps {s0 : State} {x0} {x1} {x2} {x3} (h3 : Keeps s0 x3) : KeepsH s0 (@execCSrli x0 x1 x2 x3) := by
  unfold execCSrli
  with_reducible repeat' (first
      | assumption | intro _ | apply wrG_keeps | apply State.instr_keeps | apply KeepsH.nextI)

theorem execCSub_keeps {s0 : State} {x0} {x1} {x2} {x3} (h3 : Keeps s0 x3) : KeepsH s0 (@execCSub x0 x1 x2 x3) := by
  unfold execCSub
  with_reducible repeat' (first
      | assumption | intro _ | apply wrG_keeps | apply State.instr_keeps | apply KeepsH.nextI)

theorem execCXor_keeps {s0 : State} {x0} {x1} {x2} {x3} (h3 : Keeps s0 x3) : KeepsH s0 (@execCXor x0 x1 x2 x3) := by
  unfold execCXor
  with_reducible repeat' (first
      | assumption | intro _ | apply wrG_keeps | apply State.instr_keeps | apply KeepsH.nextI)

theorem execCrc_keeps {s0 : State} {x0} {x1} {x2} {x3} {x4} {x5} {x6} (h6 : Keeps s0 x6) : KeepsH s0 (@execCrc x0 x1 x2 x3 x4 x5 x6) := by
  unfold execCrc
  with_reducible repeat' (first
      | assumption | intro _ | apply illegal_keeps | apply wrG_keeps | apply State.instr_keeps | apply KeepsH.nextI
      | apply KeepsR.ite)

theorem execDadd_keeps {s0 : State} {x0} {x1} {x2} {x3} {x4} {x5} (h5 : Keeps s0 x5) : KeepsH s0 (@execDadd x0 x1 x2 x3 x4 x5) := by
  unfold execDadd
  with_reducible repeat' (first
      | assumption | intro _ | apply illegal_keeps | apply State.instr_keeps | apply decOut_keeps | apply KeepsH.nextI
      | apply KeepsR.ite)

theorem execDdiv_keeps {s0 : State} {x0} {x1} {x2} {x3} {x4} {x5} (h5 : Keeps s0 x5) : KeepsH s0 (@execDdiv x0 x1 x2 x3 x4 x5) := by
  unfold execDdiv
  with_reducible repeat' (first
      | assumption | intro _ | apply illegal_keeps | apply divZero_keeps | apply State.instr_keeps | apply decOut_keeps
      | apply KeepsH.nextI | apply KeepsR.ite)

theorem execDiv_keeps {s0 : State} {x0} {x1} {x2} {x3} {x4} {x5} {x6} (h6 : Keeps s0 x6) : KeepsH s0 (@execDiv x0 x1 x2 x3 x4 x5 x6) := by
  unfold execDiv
  with_reducible repeat' (first
      | assumption | intro _ | apply illegal_keeps | apply wrG_keeps | apply divZero_keeps | apply State.instr_keeps
      | apply KeepsH.nextI | apply KeepsR.ite)

theorem execDmul_keeps {s0 : State} {x0} {x1} {x2} {x3} {x4} {x5} (h5 : Keeps s0 x5) : KeepsH s0 (@execDmul x0 x1 x2 x3 x4 x5) := by
  unfold execDmul
  with_reducible repeat' (first
      | assumption | intro _ | apply illegal_keeps | apply State.instr_keeps | apply decOut_keeps | apply KeepsH.nextI
      | apply KeepsR.ite)

theorem execDresc_keeps {s0 : State} {x0} {x1} {x2} {x3} {x4} (h4 : Keeps s0 x4) : KeepsH s0 (@execDresc x0 x1 x2 x3 x4) := by
  unfold execDresc
  with_reducible repeat' (first
      | assumption | intro _ | apply illegal_keeps | apply State.instr_keeps | apply decOut_keeps | apply KeepsH.nextI
      | apply KeepsR.ite)

theorem execDsub_keeps {s0 : State} {x0} {x1} {x2} {x3} {x4} {x5} (h5 : Keeps s0 x5) : KeepsH s0 (@execDsub x0 x1 x2 x3 x4 x5) := by
  unfold execDsub
  with_reducible repeat' (first
      | assumption | intro _ | apply illegal_keeps | apply State.instr_keeps | apply decOut_keeps | apply KeepsH.nextI
      | apply KeepsR.ite)

theorem execExts_keeps {s0 : State} {x0} {x1} {x2} {x3} {x4} {x5} (h5 : Keeps s0 x5) : KeepsH s0 (@execExts x0 x1 x2 x3 x4 x5) := by
  unfold execExts
  with_reducible repeat' (first
      | assumption | intro _ | apply illegal_keeps | apply wrG_keeps | apply State.instr_keeps | apply KeepsH.nextI
      | apply KeepsR.ite)

theorem execExtu_keeps {s0 : State} {x0} {x1} {x2} {x3} {x4} {x5} (h5 : Keeps s0 x5) : KeepsH s0 (@execExtu x0 x1 x2 x3 x4 x5) := by
  unfold execExtu
  with_reducible repeat' (first
      | assumption | intro _ | apply illegal_keeps | apply wrG_keeps | apply State.instr_keeps | apply KeepsH.nextI
      | apply KeepsR.ite)

theorem execImmOp_keeps {s0 : State} {x0} {x1} {x2} {x3} {x4} {x5} (h5 : Keeps s0 x5) : KeepsH s0 (@execImmOp x0 x1 x2 x3 x4 x5) := by
  unfold execImmOp
  with_reducible repeat' (first
      | assumption | intro _ | apply illegal_keeps | apply wrG_keeps | apply State.instr_keeps | apply KeepsH.nextI | split)

theorem execIns_keeps {s0 : State} {x0} {x1} {x2} {x3} {x4} {x5} (h5 : Keeps s0 x5) : KeepsH s0 (@execIns x0 x1 x2 x3 x4 x5) := by
  unfold execIns
  with_reducible repeat' (first
      | assumption | intro _ | apply illegal_keeps | apply wrG_keeps | apply State.instr_keeps | apply KeepsH.nextI
      | apply KeepsR.ite)

theorem execIntOp_keeps {s0 : State} {x0} {x1} {x2} {x3} {x4} {x5} {x6} (h6 : Keeps s0 x6) : KeepsH s0 (@execIntOp x0 x1 x2 x3 x4 x5 x6) := by
  unfold execIntOp
  with_reducible repeat' (first
      | assumption | intro _ | apply illegal_keeps | apply wrG_keeps | apply State.instr_keeps | apply KeepsH.nextI | split)

theorem execLi_keeps {s0 : State} {x0} {x1} {x2} {x3} (h3 : Keeps s0 x3) : KeepsH s0 (@execLi x0 x1 x2 x3) := by
  unfold execLi
  with_reducible repeat' (first
      | assumption | intro _ | apply wrG_keeps | apply State.instr_keeps | apply KeepsH.nextI)

theorem execLih_keeps {s0 : State} {x0} {x1} {x2} {x3} (h3 : Keeps s0 x3) : KeepsH s0 (@execLih x0 x1 x2 x3) := by
  unfold execLih
  with_reducible repeat' (first
      | assumption | intro _ | apply wrG_keeps | apply State.instr_keeps | apply KeepsH.nextI)

theorem execLiu_keeps {s0 : State} {x0} {x1} {x2} {x3} (h3 : Keeps s0 x3) : KeepsH s0 (@execLiu x0 x1 x2 x3) := by
  unfold execLiu
  with_reducible repeat' (first
      | assumption | intro _ | apply wrG_keeps | apply State.instr_keeps | apply KeepsH.nextI)

theorem execLui_keeps {s0 : State} {x0} {x1} {x2} {x3} (h3 : Keeps s0 x3) : KeepsH s0 (@execLui x0 x1 x2 x3) := by
  unfold execLui
  with_reducible repeat' (first
      | assumption | intro _ | apply wrG_keeps | apply State.instr_keeps | apply KeepsH.nextI)

theorem execSel_keeps {s0 : State} {x0} {x1} {x2} {x3} {x4} {x5} {x6} {x7} (h7 : Keeps s0 x7) : KeepsH s0 (@execSel x0 x1 x2 x3 x4 x5 x6 x7) := by
  unfold execSel
  with_reducible repeat' (first
      | assumption | intro _ | apply illegal_keeps | apply wrG_keeps | apply State.instr_keeps | apply KeepsH.nextI
      | apply KeepsR.ite)

theorem execShiftImm_keeps {s0 : State} {x0} {x1} {x2} {x3} {x4} {x5} {x6} (h6 : Keeps s0 x6) : KeepsH s0 (@execShiftImm x0 x1 x2 x3 x4 x5 x6) := by
  unfold execShiftImm
  with_reducible repeat' (first
      | assumption | intro _ | apply illegal_keeps | apply wrG_keeps | apply State.instr_keeps | apply KeepsH.nextI | split
      | (fail_if_no_progress extract_lets))

end Sys2Proof.Machine
end

