-- ==== Sys2Proof/Laws/FpKeeps.lean ====
section
/-!
SUPPORT. Laws/FpKeeps.lean: what Machine/Fp.lean leaves alone: each operation and meaning of it keeps the queue, the parts, the clock and the
canonical form of memory (`Keeps`).
-/
set_option linter.all false
namespace Sys2Proof.Machine

theorem State.settleFlags_keeps {s0 : State} {x0} {x1} {x2} (h0 : Keeps s0 x0) : Keeps s0 (@State.settleFlags x0 x1 x2) := by
  unfold State.settleFlags
  with_reducible repeat' (first
      | assumption | apply State.raiseFlags_keeps | apply State.useFree_keeps | apply Keeps.ite)

theorem cmpOut_keeps {s0 : State} {x0} {x1} {x2} {x3} {x4} (h0 : Keeps s0 x0) : KeepsR s0 (@cmpOut x0 x1 x2 x3 x4) := by
  unfold cmpOut
  with_reducible repeat' (first
      | assumption | apply State.raiseFlags_keeps | apply State.setG_keeps | apply KeepsR.okI)

theorem fsign_keeps {s0 : State} {x0} {x1} {x2} {x3} {x4} {x5} (h5 : Keeps s0 x5) : Keeps s0 (@fsign x0 x1 x2 x3 x4 x5) := by
  unfold fsign
  with_reducible repeat' (first
      | assumption | intro _ | apply illegal_keeps | apply State.setV_keeps | apply State.instr_keeps | apply KeepsR.okI
      | split)

theorem execFabs_keeps {s0 : State} {x0} {x1} {x2} {x3} {x4} (h4 : Keeps s0 x4) : KeepsH s0 (@execFabs x0 x1 x2 x3 x4) := by
  unfold execFabs
  with_reducible repeat' (first
      | assumption | apply fsign_keeps | apply KeepsH.nextI)

theorem fpOut_keeps {s0 : State} {x0} {x1} {x2} {x3} (h0 : Keeps s0 x0) : KeepsR s0 (@fpOut x0 x1 x2 x3) := by
  unfold fpOut
  with_reducible repeat' (first
      | assumption | apply State.setV_keeps | apply State.settleFlags_keeps | apply KeepsR.okI)

theorem farith_keeps {s0 : State} {x0} {x1} {x2} {x3} {x4} {x5} {x6} {x7} (h7 : Keeps s0 x7) : Keeps s0 (@farith x0 x1 x2 x3 x4 x5 x6 x7) := by
  unfold farith
  with_reducible repeat' (first
      | assumption | intro _ | apply illegal_keeps | apply fpOut_keeps | apply State.instr_keeps | split)

theorem execFadd_keeps {s0 : State} {x0} {x1} {x2} {x3} {x4} {x5} {x6} (h6 : Keeps s0 x6) : KeepsH s0 (@execFadd x0 x1 x2 x3 x4 x5 x6) := by
  unfold execFadd
  with_reducible repeat' (first
      | assumption | apply farith_keeps | apply KeepsH.nextI)

theorem execFclass_keeps {s0 : State} {x0} {x1} {x2} {x3} {x4} (h4 : Keeps s0 x4) : KeepsH s0 (@execFclass x0 x1 x2 x3 x4) := by
  unfold execFclass
  with_reducible repeat' (first
      | assumption | intro _ | apply illegal_keeps | apply wrG_keeps | apply State.instr_keeps | apply KeepsH.nextI | split)

theorem execFcpys_keeps {s0 : State} {x0} {x1} {x2} {x3} {x4} {x5} (h5 : Keeps s0 x5) : KeepsH s0 (@execFcpys x0 x1 x2 x3 x4 x5) := by
  unfold execFcpys
  with_reducible repeat' (first
      | assumption | intro _ | apply illegal_keeps | apply State.setV_keeps | apply State.instr_keeps | apply KeepsH.nextI
      | apply KeepsR.okI | split)

theorem execFcvt_keeps {s0 : State} {x0} {x1} {x2} {x3} {x4} {x5} {x6} (h6 : Keeps s0 x6) : KeepsH s0 (@execFcvt x0 x1 x2 x3 x4 x5 x6) := by
  unfold execFcvt
  with_reducible repeat' (first
      | assumption | intro _ | apply State.raiseFlags_keeps | apply illegal_keeps | apply State.setG_keeps
      | apply fpOut_keeps | apply State.instr_keeps | apply KeepsH.nextI | apply KeepsR.okI | split)

theorem execFdiv_keeps {s0 : State} {x0} {x1} {x2} {x3} {x4} {x5} {x6} (h6 : Keeps s0 x6) : KeepsH s0 (@execFdiv x0 x1 x2 x3 x4 x5 x6) := by
  unfold execFdiv
  with_reducible repeat' (first
      | assumption | apply farith_keeps | apply KeepsH.nextI)

theorem fcmp_keeps {s0 : State} {x0} {x1} {x2} {x3} {x4} {x5} {x6} {x7} (h7 : Keeps s0 x7) : Keeps s0 (@fcmp x0 x1 x2 x3 x4 x5 x6 x7) := by
  unfold fcmp
  with_reducible repeat' (first
      | assumption | intro _ | apply cmpOut_keeps | apply illegal_keeps | apply State.instr_keeps | split)

theorem execFeq_keeps {s0 : State} {x0} {x1} {x2} {x3} {x4} {x5} (h5 : Keeps s0 x5) : KeepsH s0 (@execFeq x0 x1 x2 x3 x4 x5) := by
  unfold execFeq
  with_reducible repeat' (first
      | assumption | apply fcmp_keeps | apply KeepsH.nextI)

theorem execFle_keeps {s0 : State} {x0} {x1} {x2} {x3} {x4} {x5} (h5 : Keeps s0 x5) : KeepsH s0 (@execFle x0 x1 x2 x3 x4 x5) := by
  unfold execFle
  with_reducible repeat' (first
      | assumption | apply fcmp_keeps | apply KeepsH.nextI)

theorem execFleq_keeps {s0 : State} {x0} {x1} {x2} {x3} {x4} {x5} (h5 : Keeps s0 x5) : KeepsH s0 (@execFleq x0 x1 x2 x3 x4 x5) := by
  unfold execFleq
  with_reducible repeat' (first
      | assumption | apply fcmp_keeps | apply KeepsH.nextI)

theorem execFlt_keeps {s0 : State} {x0} {x1} {x2} {x3} {x4} {x5} (h5 : Keeps s0 x5) : KeepsH s0 (@execFlt x0 x1 x2 x3 x4 x5) := by
  unfold execFlt
  with_reducible repeat' (first
      | assumption | apply fcmp_keeps | apply KeepsH.nextI)

theorem execFltq_keeps {s0 : State} {x0} {x1} {x2} {x3} {x4} {x5} (h5 : Keeps s0 x5) : KeepsH s0 (@execFltq x0 x1 x2 x3 x4 x5) := by
  unfold execFltq
  with_reducible repeat' (first
      | assumption | apply fcmp_keeps | apply KeepsH.nextI)

theorem execFmadd_keeps {s0 : State} {x0} {x1} {x2} {x3} {x4} {x5} {x6} {x7} (h7 : Keeps s0 x7) : KeepsH s0 (@execFmadd x0 x1 x2 x3 x4 x5 x6 x7) := by
  unfold execFmadd
  with_reducible repeat' (first
      | assumption | intro _ | apply illegal_keeps | apply fpOut_keeps | apply State.instr_keeps | apply KeepsH.nextI | split)

theorem execFmax_keeps {s0 : State} {x0} {x1} {x2} {x3} {x4} {x5} {x6} (h6 : Keeps s0 x6) : KeepsH s0 (@execFmax x0 x1 x2 x3 x4 x5 x6) := by
  unfold execFmax
  with_reducible repeat' (first
      | assumption | apply farith_keeps | apply KeepsH.nextI)

theorem execFmin_keeps {s0 : State} {x0} {x1} {x2} {x3} {x4} {x5} {x6} (h6 : Keeps s0 x6) : KeepsH s0 (@execFmin x0 x1 x2 x3 x4 x5 x6) := by
  unfold execFmin
  with_reducible repeat' (first
      | assumption | apply farith_keeps | apply KeepsH.nextI)

theorem execFmul_keeps {s0 : State} {x0} {x1} {x2} {x3} {x4} {x5} {x6} (h6 : Keeps s0 x6) : KeepsH s0 (@execFmul x0 x1 x2 x3 x4 x5 x6) := by
  unfold execFmul
  with_reducible repeat' (first
      | assumption | apply farith_keeps | apply KeepsH.nextI)

theorem execFmvGv_keeps {s0 : State} {x0} {x1} {x2} {x3} (h3 : Keeps s0 x3) : KeepsH s0 (@execFmvGv x0 x1 x2 x3) := by
  unfold execFmvGv
  try dsimp only
  with_reducible repeat' (first
      | assumption | intro _ | apply State.setV_keeps | apply State.instr_keeps | apply KeepsH.nextI | apply KeepsR.okI)

theorem execFmvVg_keeps {s0 : State} {x0} {x1} {x2} {x3} (h3 : Keeps s0 x3) : KeepsH s0 (@execFmvVg x0 x1 x2 x3) := by
  unfold execFmvVg
  with_reducible repeat' (first
      | assumption | intro _ | apply wrG_keeps | apply State.instr_keeps | apply KeepsH.nextI)

theorem execFnabs_keeps {s0 : State} {x0} {x1} {x2} {x3} {x4} (h4 : Keeps s0 x4) : KeepsH s0 (@execFnabs x0 x1 x2 x3 x4) := by
  unfold execFnabs
  with_reducible repeat' (first
      | assumption | apply fsign_keeps | apply KeepsH.nextI)

theorem execFneg_keeps {s0 : State} {x0} {x1} {x2} {x3} {x4} (h4 : Keeps s0 x4) : KeepsH s0 (@execFneg x0 x1 x2 x3 x4) := by
  unfold execFneg
  with_reducible repeat' (first
      | assumption | apply fsign_keeps | apply KeepsH.nextI)

theorem execFsqrt_keeps {s0 : State} {x0} {x1} {x2} {x3} {x4} {x5} (h5 : Keeps s0 x5) : KeepsH s0 (@execFsqrt x0 x1 x2 x3 x4 x5) := by
  unfold execFsqrt
  with_reducible repeat' (first
      | assumption | apply farith_keeps | apply KeepsH.nextI)

theorem execFsub_keeps {s0 : State} {x0} {x1} {x2} {x3} {x4} {x5} {x6} (h6 : Keeps s0 x6) : KeepsH s0 (@execFsub x0 x1 x2 x3 x4 x5 x6) := by
  unfold execFsub
  with_reducible repeat' (first
      | assumption | apply farith_keeps | apply KeepsH.nextI)

theorem execFun_keeps {s0 : State} {x0} {x1} {x2} {x3} {x4} {x5} (h5 : Keeps s0 x5) : KeepsH s0 (@execFun x0 x1 x2 x3 x4 x5) := by
  unfold execFun
  with_reducible repeat' (first
      | assumption | apply fcmp_keeps | apply KeepsH.nextI)

end Sys2Proof.Machine
end

