-- ==== Sys2Proof/Laws/GateKeeps.lean ====
section
/-!
SUPPORT. Laws/GateKeeps.lean: what Machine/Gate.lean leaves alone: each operation and meaning of it keeps the queue, the parts, the clock and the
canonical form of memory (`Keeps`).
-/
set_option linter.all false
namespace Sys2Proof.Machine

theorem State.gateFetch_keeps {s0 : State} {x0} {x1} {x2} {x3} (h0 : Keeps s0 x0) : KeepsR s0 (@State.gateFetch x0 x1 x2 x3) := by
  unfold State.gateFetch
  with_reducible repeat' (first
      | assumption | intro _ | apply xrToRes_keeps | apply State.xlateIn_keeps | apply State.touch_keeps
      | apply State.poisonErr_keeps | apply State.fillLine_keeps | apply KeepsR.bind | apply KeepsR.okI | apply KeepsR.evI
      | apply KeepsR.stallT | apply KeepsR.ite)

theorem State.gateGo_keeps {s0 : State} {x0} {x1} {x2} {x3} (h0 : Keeps s0 x0) : KeepsR s0 (@State.gateGo x0 x1 x2 x3) := by
  unfold State.gateGo
  with_reducible repeat' (first
      | assumption | apply State.trRec_keeps | apply State.storeRaw_keeps | apply State.setWorld_keeps
      | apply State.repredict_keeps | apply State.seated_keeps | apply State.setSr_keeps | apply State.updCore_keeps
      | apply Keeps.ite | apply KeepsR.okI | apply KeepsR.evI | apply KeepsR.stallT | apply KeepsR.parkI
      | refine KeepsR.okE ?_ (by assumption) | refine KeepsR.parkE ?_ (by assumption) | split
      | (fail_if_no_progress extract_lets))

theorem State.gretDo_keeps {s0 : State} {x0} {x1} {x2} (h0 : Keeps s0 x0) : Keeps s0 (@State.gretDo x0 x1 x2) := by
  unfold State.gretDo
  with_reducible repeat' (first
      | assumption | apply State.setWorld_keeps | apply State.repredict_keeps | apply State.setSr_keeps
      | apply State.updCore_keeps | apply Keeps.ite)

theorem State.waitForm_keeps {s0 : State} {x0} {x1} {x2} {x3} {x4} (h0 : Keeps s0 x0) : KeepsR s0 (@State.waitForm x0 x1 x2 x3 x4) := by
  unfold State.waitForm
  with_reducible repeat' (first
      | assumption | apply State.wrIf_keeps | apply State.drain_keeps | apply State.updCore_keeps | apply State.countC_keeps
      | apply done4_keeps | apply State.setG_keeps | apply State.flushL2_keeps | apply KeepsR.stallT | apply KeepsR.parkI
      | refine KeepsO.elim ?_ (by assumption) | split | (fail_if_no_progress extract_lets))

theorem execCoreWake_keeps {s0 : State} {x0} {x1} (h1 : Keeps s0 x1) : KeepsH s0 (@execCoreWake x0 x1) := by
  unfold execCoreWake
  with_reducible repeat' (first
      | assumption | apply State.pkgWake_keeps | apply State.useFree_keeps | apply State.wrIf_keeps
      | apply State.updCore_keeps | apply State.retireInstr_keeps | apply State.wr_keeps | apply KeepsH.nextI
      | apply KeepsO.getD | split)

theorem execGate_keeps {s0 : State} {x0} {x1} {x2} (h2 : Keeps s0 x2) : KeepsH s0 (@execGate x0 x1 x2) := by
  unfold execGate
  with_reducible repeat' (first
      | assumption | intro _ | apply noRegion_keeps | apply State.readSpans_keeps | apply State.gateGo_keeps
      | apply barrier_keeps | apply misaligned_keeps | apply State.gateFetch_keeps | apply State.access_keeps
      | apply State.instr_keeps | apply KeepsR.bind | apply KeepsH.nextI | apply KeepsR.evI | split
      | (fail_if_no_progress extract_lets))

theorem execGentry_keeps {s0 : State} {x0} {x1} (h1 : Keeps s0 x1) : KeepsH s0 (@execGentry x0 x1) := by
  unfold execGentry
  with_reducible repeat' (first
      | assumption | intro _ | apply noRegion_keeps | apply done4_keeps | apply State.instr_keeps | apply KeepsH.nextI)

theorem execGret_keeps {s0 : State} {x0} {x1} (h1 : Keeps s0 x1) : KeepsH s0 (@execGret x0 x1) := by
  unfold execGret
  with_reducible repeat' (first
      | assumption | intro _ | apply State.trRec_keeps | apply State.gretDo_keeps | apply noRegion_keeps
      | apply State.loadRaw_keeps | apply barrier_keeps | apply State.instr_keeps | apply KeepsR.bind | apply KeepsH.nextI
      | apply KeepsR.okI | apply KeepsR.evI | apply KeepsR.ite)

theorem execGretEv_keeps {s0 : State} {x0} {x1} (h1 : Keeps s0 x1) : KeepsH s0 (@execGretEv x0 x1) := by
  unfold execGretEv
  with_reducible repeat' (first
      | assumption | intro _ | apply State.trRec_keeps | apply noRegion_keeps | apply withAuth_keeps
      | apply State.loadRaw_keeps | apply State.updCore_keeps | apply barrier_keeps | apply State.unframe_keeps
      | apply State.instr_keeps | apply KeepsR.bind | apply KeepsH.nextI | apply KeepsR.okI | apply KeepsR.evI
      | apply KeepsR.ite)

theorem execSleepGateClosed_keeps {s0 : State} {x0} {x1} (h1 : Keeps s0 x1) : KeepsH s0 (@execSleepGateClosed x0 x1) := by
  unfold execSleepGateClosed
  with_reducible repeat' (first
      | assumption | apply State.updCore_keeps | apply State.wr_keeps | apply KeepsH.nextI | split)

theorem execWait_keeps {s0 : State} {x0} {x1} {x2} {x3} (h3 : Keeps s0 x3) : KeepsH s0 (@execWait x0 x1 x2 x3) := by
  unfold execWait
  with_reducible repeat' (first
      | assumption | intro _ | apply State.waitForm_keeps | apply noRegion_keeps | apply barrier_keeps
      | apply State.instr_keeps | apply KeepsH.nextI)

theorem execWaitBanked_keeps {s0 : State} {x0} {x1} {x2} {x3} (h3 : Keeps s0 x3) : KeepsH s0 (@execWaitBanked x0 x1 x2 x3) := by
  unfold execWaitBanked
  with_reducible repeat' (first
      | assumption | intro _ | apply State.waitForm_keeps | apply noRegion_keeps | apply withAuth_keeps | apply barrier_keeps
      | apply State.instr_keeps | apply KeepsH.nextI)

theorem execWaitCold_keeps {s0 : State} {x0} {x1} {x2} {x3} (h3 : Keeps s0 x3) : KeepsH s0 (@execWaitCold x0 x1 x2 x3) := by
  unfold execWaitCold
  with_reducible repeat' (first
      | assumption | intro _ | apply State.waitForm_keeps | apply noRegion_keeps | apply withAuth_keeps | apply barrier_keeps
      | apply State.instr_keeps | apply KeepsH.nextI)

end Sys2Proof.Machine
end

