-- ==== Sys2Proof/Laws/IntrKeeps.lean ====
section
/-!
SUPPORT. Laws/IntrKeeps.lean: what Machine/Intr.lean leaves alone: each operation and meaning of it keeps the queue, the parts, the clock and the
canonical form of memory (`Keeps`).
-/
set_option linter.all false
namespace Sys2Proof.Machine

theorem State.seatTimer_keeps {s0 : State} {x0} {x1} {x2} (h0 : Keeps s0 x0) : Keeps s0 (@State.seatTimer x0 x1 x2) := by
  unfold State.seatTimer
  with_reducible repeat' (first
      | assumption | apply State.bump_keeps | apply State.setSr_keeps | apply State.updCore_keeps | apply Keeps.ite)

theorem execArbCommitGo_keeps {s0 : State} {x0} {x1} (h1 : Keeps s0 x1) : KeepsH s0 (@execArbCommitGo x0 x1) := by
  unfold execArbCommitGo
  with_reducible repeat' (first
      | assumption | apply State.commitGo_keeps | apply Keeps.ite | apply KeepsH.nextI)

theorem execCfgGo_keeps {s0 : State} {x0} {x1} (h1 : Keeps s0 x1) : KeepsH s0 (@execCfgGo x0 x1) := by
  unfold execCfgGo
  with_reducible repeat' (first
      | assumption | apply State.cfgGo_keeps | apply Keeps.ite | apply KeepsH.nextI)

theorem execContextSweepDone_keeps {s0 : State} {x0} {x1} (h1 : Keeps s0 x1) : KeepsH s0 (@execContextSweepDone x0 x1) := by
  unfold execContextSweepDone
  with_reducible repeat' (first
      | assumption | apply State.updCore_keeps | apply State.ctxEval_keeps | apply KeepsH.nextI | split)

theorem execDeviceCompletion_keeps {s0 : State} {x0} {x1} {x2} {x3} (h3 : Keeps s0 x3) : KeepsH s0 (@execDeviceCompletion x0 x1 x2 x3) := by
  unfold execDeviceCompletion
  with_reducible repeat' (first
      | assumption | apply State.prcAsh_keeps | apply State.bump_keeps | apply State.updCore_keeps
      | apply State.retireInstr_keeps | apply Keeps.ite | apply KeepsH.nextI | apply KeepsO.getD | split)

theorem execEntryWindowCommit_keeps {s0 : State} {x0} {x1} (h1 : Keeps s0 x1) : KeepsH s0 (@execEntryWindowCommit x0 x1) := by
  unfold execEntryWindowCommit
  with_reducible repeat' (first
      | assumption | apply State.commitWin_keeps | apply KeepsH.nextI | apply KeepsO.getD)

theorem execEventEntry_keeps {s0 : State} {x0} {x1} (h1 : Keeps s0 x1) : KeepsH s0 (@execEventEntry x0 x1) := by
  unfold execEventEntry
  with_reducible repeat' (first
      | assumption | apply State.stepDone_keeps | apply State.boundary_keeps | apply KeepsH.nextI
      | refine KeepsB.tookE ?_ (by assumption) | split)

theorem execFlueRestore_keeps {s0 : State} {x0} {x1} {x2} (h2 : Keeps s0 x2) : KeepsH s0 (@execFlueRestore x0 x1 x2) := by
  unfold execFlueRestore
  with_reducible repeat' (first
      | assumption | apply State.flueRestore_keeps | apply Keeps.ite | apply KeepsH.nextI)

theorem execHardenWrite_keeps {s0 : State} {x0} {x1} {x2} (h2 : Keeps s0 x2) : KeepsH s0 (@execHardenWrite x0 x1 x2) := by
  unfold execHardenWrite
  with_reducible repeat' (first
      | assumption | apply State.wr_keeps | apply Keeps.ite | apply KeepsH.nextI)

theorem execHwPrefetch_keeps {s0 : State} {x0} {x1} {x2} {x3} (h3 : Keeps s0 x3) : KeepsH s0 (@execHwPrefetch x0 x1 x2 x3) := by
  unfold execHwPrefetch
  with_reducible repeat' (first
      | assumption | apply State.updCore_keeps | apply State.prefetchTry_keeps | apply Keeps.ite | apply KeepsH.nextI
      | refine KeepsO.elim ?_ (by assumption) | split)

theorem execInterruptTakeover_keeps {s0 : State} {x0} {x1} {x2} (h2 : Keeps s0 x2) : KeepsH s0 (@execInterruptTakeover x0 x1 x2) := by
  unfold execInterruptTakeover
  with_reducible repeat' (first
      | assumption | apply State.takeover_keeps | apply KeepsH.nextI)

theorem execIpiReceive_keeps {s0 : State} {x0} {x1} (h1 : Keeps s0 x1) : KeepsH s0 (@execIpiReceive x0 x1) := by
  unfold execIpiReceive
  with_reducible repeat' (first
      | assumption | intro _ | apply State.setPend_keeps | apply Keeps.ite | apply KeepsH.nextI | apply Keeps.fold | split
      | (fail_if_no_progress apply Keeps.mkU))

theorem execMsgInterrupt_keeps {s0 : State} {x0} {x1} {x2} (h2 : Keeps s0 x2) : KeepsH s0 (@execMsgInterrupt x0 x1 x2) := by
  unfold execMsgInterrupt
  with_reducible repeat' (first
      | assumption | apply State.msgInt_keeps | apply Keeps.ite | apply KeepsH.nextI)

theorem execStoreDrain_keeps {s0 : State} {x0} {x1} {x2} (h2 : Keeps s0 x2) : KeepsH s0 (@execStoreDrain x0 x1 x2) := by
  unfold execStoreDrain
  with_reducible repeat' (first
      | assumption | apply State.l2Err_keeps | apply State.updCore_keeps | apply State.drainList_keeps | apply Keeps.ite
      | apply KeepsH.nextI | refine Keeps.fst ?_ (by assumption) | split)

theorem execStripeValidWrite_keeps {s0 : State} {x0} {x1} {x2} {x3} (h3 : Keeps s0 x3) : KeepsH s0 (@execStripeValidWrite x0 x1 x2 x3) := by
  unfold execStripeValidWrite
  with_reducible repeat' (first
      | assumption | apply State.stripeCheck_keeps | apply State.fieldWrite_keeps | apply Keeps.ite | apply KeepsH.nextI)

theorem execTimerCompare_keeps {s0 : State} {x0} {x1} (h1 : Keeps s0 x1) : KeepsH s0 (@execTimerCompare x0 x1) := by
  unfold execTimerCompare
  with_reducible repeat' (first
      | assumption | apply State.sysVector_keeps | apply State.seatTimer_keeps | apply State.updCore_keeps | apply Keeps.ite
      | apply KeepsH.nextI | split | (fail_if_no_progress extract_lets))

theorem execTpriWrite_keeps {s0 : State} {x0} {x1} {x2} (h2 : Keeps s0 x2) : KeepsH s0 (@execTpriWrite x0 x1 x2) := by
  unfold execTpriWrite
  with_reducible repeat' (first
      | assumption | apply State.wr_keeps | apply Keeps.ite | apply KeepsH.nextI)

theorem execUsefulnessDecay_keeps {s0 : State} {x0} {x1} (h1 : Keeps s0 x1) : KeepsH s0 (@execUsefulnessDecay x0 x1) := by
  unfold execUsefulnessDecay
  with_reducible repeat' (first
      | assumption | apply State.updCore_keeps | apply Keeps.ite | apply KeepsH.nextI)

end Sys2Proof.Machine
end

