-- ==== Sys2Proof/Laws/MgcKeeps.lean ====
section
/-!
SUPPORT. Laws/MgcKeeps.lean: what Machine/Mgc.lean leaves alone: each operation and meaning of it keeps the queue, the parts, the clock and the
canonical form of memory (`Keeps`).
-/
set_option linter.all false
namespace Sys2Proof.Machine

theorem State.updMgc_keeps {s0 : State} {x0} {x1} {x2} (h0 : Keeps s0 x0) : Keeps s0 (@State.updMgc x0 x1 x2) := by
  unfold State.updMgc
  with_reducible repeat' (first
      | assumption | (fail_if_no_progress apply Keeps.mkU))

theorem State.answer_keeps {s0 : State} {x0} {x1} {x2} (h0 : Keeps s0 x0) : Keeps s0 (@State.answer x0 x1 x2) := by
  unfold State.answer
  with_reducible repeat' (first
      | assumption | apply State.updMgc_keeps | apply Keeps.ite)

theorem State.updJtag_keeps {s0 : State} {x0} {x1} {x2} (h0 : Keeps s0 x0) : Keeps s0 (@State.updJtag x0 x1 x2) := by
  unfold State.updJtag
  with_reducible repeat' (first
      | assumption | (fail_if_no_progress apply Keeps.mkU))

theorem State.bypass_keeps {s0 : State} {x0} {x1} (h0 : Keeps s0 x0) : Keeps s0 (@State.bypass x0 x1) := by
  unfold State.bypass
  with_reducible repeat' (first
      | assumption | apply State.updJtag_keeps)

theorem State.bscan_keeps {s0 : State} {x0} {x1} {x2} {x3} {x4} (h0 : Keeps s0 x0) : Keeps s0 (@State.bscan x0 x1 x2 x3 x4) := by
  unfold State.bscan
  with_reducible repeat' (first
      | assumption | apply State.bypass_keeps | apply State.updJtag_keeps | apply Keeps.ite)

theorem State.dbgAcc_keeps {s0 : State} {x0} {x1} {x2} {x3} {x4} {x5} (h0 : Keeps s0 x0) : Keeps s0 (@State.dbgAcc x0 x1 x2 x3 x4 x5).1 := by
  unfold State.dbgAcc
  with_reducible repeat' (first
      | assumption | apply State.blkStore_keeps | apply Keeps.ite1)

theorem State.respond_keeps {s0 : State} {x0} {x1} {x2} {x3} {x4} (h0 : Keeps s0 x0) : Keeps s0 (@State.respond x0 x1 x2 x3 x4) := by
  unfold State.respond
  with_reducible repeat' (first
      | assumption | apply State.bump_keeps | apply State.updMgc_keeps)

theorem State.mgcDo_keeps {s0 : State} {x0} {x1} {x2} {x3} {x4} (h0 : Keeps s0 x0) (h4 : ∀ y0, Keeps s0 y0 → Keeps s0 (x4 y0).1) : Keeps s0 (@State.mgcDo x0 x1 x2 x3 x4) := by
  unfold State.mgcDo
  with_reducible repeat' (first
      | assumption | apply h4 | apply State.respond_keeps | apply Keeps.ite)

theorem State.mgcRead_keeps {s0 : State} {x0} {x1} {x2} {x3} {x4} (h0 : Keeps s0 x0) : Keeps s0 (@State.mgcRead x0 x1 x2 x3 x4).1 := by
  unfold State.mgcRead
  with_reducible repeat' (first
      | assumption | apply State.useFree_keeps | split)

theorem State.mgcWrite_keeps {s0 : State} {x0} {x1} {x2} {x3} {x4} {x5} (h0 : Keeps s0 x0) : Keeps s0 (@State.mgcWrite x0 x1 x2 x3 x4 x5).1 := by
  unfold State.mgcWrite
  with_reducible repeat' (first
      | assumption | apply State.blkStore_keeps | apply State.dbgAcc_keeps | split)

theorem State.setDyn_keeps {s0 : State} {x0} {x1} {x2} (h0 : Keeps s0 x0) : Keeps s0 (@State.setDyn x0 x1 x2) := by
  unfold State.setDyn
  with_reducible repeat' (first
      | assumption | apply State.wr_keeps | apply Keeps.ite)

theorem execAshNvclr_keeps {s0 : State} {x0} {x1} {x2} (h2 : Keeps s0 x2) : KeepsH s0 (@execAshNvclr x0 x1 x2) := by
  unfold execAshNvclr
  with_reducible repeat' (first
      | assumption | intro _ | apply State.nvClr_keeps | apply State.mgcDo_keeps | apply KeepsH.nextI)

theorem execAshRead_keeps {s0 : State} {x0} {x1} {x2} {x3} (h3 : Keeps s0 x3) : KeepsH s0 (@execAshRead x0 x1 x2 x3) := by
  unfold execAshRead
  with_reducible repeat' (first
      | assumption | intro _ | apply State.mgcDo_keeps | apply State.wr_keeps | apply KeepsH.nextI | split)

theorem execAshSaved_keeps {s0 : State} {x0} {x1} {x2} {x3} (h3 : Keeps s0 x3) : KeepsH s0 (@execAshSaved x0 x1 x2 x3) := by
  unfold execAshSaved
  with_reducible repeat' (first
      | assumption | intro _ | apply State.mgcDo_keeps | apply KeepsH.nextI | split)

theorem execBypass_keeps {s0 : State} {x0} {x1} (h1 : Keeps s0 x1) : KeepsH s0 (@execBypass x0 x1) := by
  unfold execBypass
  with_reducible repeat' (first
      | assumption | apply State.bypass_keeps | apply Keeps.ite | apply KeepsH.nextI)

theorem execClamp_keeps {s0 : State} {x0} {x1} (h1 : Keeps s0 x1) : KeepsH s0 (@execClamp x0 x1) := by
  unfold execClamp
  with_reducible repeat' (first
      | assumption | apply State.bscan_keeps | apply KeepsH.nextI)

theorem execDbgaccCapture_keeps {s0 : State} {x0} {x1} (h1 : Keeps s0 x1) : KeepsH s0 (@execDbgaccCapture x0 x1) := by
  unfold execDbgaccCapture
  with_reducible repeat' (first
      | assumption | apply State.updJtag_keeps | apply Keeps.ite | apply KeepsH.nextI)

theorem execDbgaccUpdate_keeps {s0 : State} {x0} {x1} {x2} {x3} {x4} (h4 : Keeps s0 x4) : KeepsH s0 (@execDbgaccUpdate x0 x1 x2 x3 x4) := by
  unfold execDbgaccUpdate
  with_reducible repeat' (first
      | assumption | apply State.dbgAcc_keeps | apply State.updJtag_keeps | apply Keeps.ite | apply KeepsH.nextI)

theorem execDebug_keeps {s0 : State} {x0} {x1} {x2} {x3} {x4} {x5} (h5 : Keeps s0 x5) : KeepsH s0 (@execDebug x0 x1 x2 x3 x4 x5) := by
  unfold execDebug
  with_reducible repeat' (first
      | assumption | intro _ | apply State.mgcDo_keeps | apply State.dbgAcc_keeps | apply KeepsH.nextI)

theorem execDisec_keeps {s0 : State} {x0} {x1} (h1 : Keeps s0 x1) : KeepsH s0 (@execDisec x0 x1) := by
  unfold execDisec
  with_reducible repeat' (first
      | assumption | apply State.updMgc_keeps | apply Keeps.ite | apply KeepsH.nextI)

theorem execEnec_keeps {s0 : State} {x0} {x1} (h1 : Keeps s0 x1) : KeepsH s0 (@execEnec x0 x1) := by
  unfold execEnec
  with_reducible repeat' (first
      | assumption | apply State.updMgc_keeps | apply Keeps.ite | apply KeepsH.nextI)

theorem execEntdaa_keeps {s0 : State} {x0} {x1} {x2} (h2 : Keeps s0 x2) : KeepsH s0 (@execEntdaa x0 x1 x2) := by
  unfold execEntdaa
  with_reducible repeat' (first
      | assumption | apply State.setDyn_keeps | apply KeepsH.nextI)

theorem execExtest_keeps {s0 : State} {x0} {x1} {x2} (h2 : Keeps s0 x2) : KeepsH s0 (@execExtest x0 x1 x2) := by
  unfold execExtest
  with_reducible repeat' (first
      | assumption | apply State.bscan_keeps | apply KeepsH.nextI)

theorem execGetbcr_keeps {s0 : State} {x0} {x1} (h1 : Keeps s0 x1) : KeepsH s0 (@execGetbcr x0 x1) := by
  unfold execGetbcr
  with_reducible repeat' (first
      | assumption | apply State.answer_keeps | apply KeepsH.nextI)

theorem execGetdcr_keeps {s0 : State} {x0} {x1} (h1 : Keeps s0 x1) : KeepsH s0 (@execGetdcr x0 x1) := by
  unfold execGetdcr
  with_reducible repeat' (first
      | assumption | apply State.answer_keeps | apply KeepsH.nextI)

theorem execGetpid_keeps {s0 : State} {x0} {x1} (h1 : Keeps s0 x1) : KeepsH s0 (@execGetpid x0 x1) := by
  unfold execGetpid
  with_reducible repeat' (first
      | assumption | apply State.answer_keeps | apply KeepsH.nextI)

theorem execGetstatus_keeps {s0 : State} {x0} {x1} (h1 : Keeps s0 x1) : KeepsH s0 (@execGetstatus x0 x1) := by
  unfold execGetstatus
  with_reducible repeat' (first
      | assumption | apply State.answer_keeps | apply State.useFree_keeps | apply KeepsH.nextI)

theorem execHighz_keeps {s0 : State} {x0} {x1} (h1 : Keeps s0 x1) : KeepsH s0 (@execHighz x0 x1) := by
  unfold execHighz
  with_reducible repeat' (first
      | assumption | apply State.bscan_keeps | apply KeepsH.nextI)

theorem execIdcode_keeps {s0 : State} {x0} {x1} (h1 : Keeps s0 x1) : KeepsH s0 (@execIdcode x0 x1) := by
  unfold execIdcode
  with_reducible repeat' (first
      | assumption | apply State.updJtag_keeps | apply Keeps.ite | apply KeepsH.nextI)

theorem execIdentity_keeps {s0 : State} {x0} {x1} {x2} {x3} (h3 : Keeps s0 x3) : KeepsH s0 (@execIdentity x0 x1 x2 x3) := by
  unfold execIdentity
  with_reducible repeat' (first
      | assumption | intro _ | apply State.mgcDo_keeps | apply KeepsH.nextI)

theorem execInfo_keeps {s0 : State} {x0} {x1} {x2} (h2 : Keeps s0 x2) : KeepsH s0 (@execInfo x0 x1 x2) := by
  unfold execInfo
  with_reducible repeat' (first
      | assumption | intro _ | apply State.mgcDo_keeps | apply KeepsH.nextI)

theorem execMgcIbi_keeps {s0 : State} {x0} {x1} (h1 : Keeps s0 x1) : KeepsH s0 (@execMgcIbi x0 x1) := by
  unfold execMgcIbi
  with_reducible repeat' (first
      | assumption | apply State.updMgc_keeps | apply KeepsH.nextI | split | (fail_if_no_progress apply Keeps.mkU))

theorem execPowerOff_keeps {s0 : State} {x0} {x1} {x2} (h2 : Keeps s0 x2) : KeepsH s0 (@execPowerOff x0 x1 x2) := by
  unfold execPowerOff
  with_reducible repeat' (first
      | assumption | intro _ | apply State.mgcDo_keeps | apply State.powerOff_keeps | apply KeepsH.nextI)

theorem execPowerOn_keeps {s0 : State} {x0} {x1} {x2} (h2 : Keeps s0 x2) : KeepsH s0 (@execPowerOn x0 x1 x2) := by
  unfold execPowerOn
  with_reducible repeat' (first
      | assumption | intro _ | apply State.powerOn_keeps | apply State.mgcDo_keeps | apply KeepsH.nextI)

theorem execRegRead_keeps {s0 : State} {x0} {x1} {x2} {x3} {x4} {x5} (h5 : Keeps s0 x5) : KeepsH s0 (@execRegRead x0 x1 x2 x3 x4 x5) := by
  unfold execRegRead
  with_reducible repeat' (first
      | assumption | intro _ | apply State.mgcDo_keeps | apply State.mgcRead_keeps | apply KeepsH.nextI)

theorem execRegWrite_keeps {s0 : State} {x0} {x1} {x2} {x3} {x4} {x5} {x6} (h6 : Keeps s0 x6) : KeepsH s0 (@execRegWrite x0 x1 x2 x3 x4 x5 x6) := by
  unfold execRegWrite
  with_reducible repeat' (first
      | assumption | intro _ | apply State.mgcDo_keeps | apply State.mgcWrite_keeps | apply KeepsH.nextI)

theorem execResetCold_keeps {s0 : State} {x0} {x1} {x2} (h2 : Keeps s0 x2) : KeepsH s0 (@execResetCold x0 x1 x2) := by
  unfold execResetCold
  with_reducible repeat' (first
      | assumption | intro _ | apply State.mgcDo_keeps | apply State.coldReset_keeps | apply KeepsH.nextI)

theorem execResetWarm_keeps {s0 : State} {x0} {x1} {x2} (h2 : Keeps s0 x2) : KeepsH s0 (@execResetWarm x0 x1 x2) := by
  unfold execResetWarm
  with_reducible repeat' (first
      | assumption | intro _ | apply State.warmReset_keeps | apply State.mgcDo_keeps | apply KeepsH.nextI)

theorem execRstdaa_keeps {s0 : State} {x0} {x1} (h1 : Keeps s0 x1) : KeepsH s0 (@execRstdaa x0 x1) := by
  unfold execRstdaa
  with_reducible repeat' (first
      | assumption | apply State.wr_keeps | apply Keeps.ite | apply KeepsH.nextI)

theorem execSamplePreload_keeps {s0 : State} {x0} {x1} {x2} {x3} (h3 : Keeps s0 x3) : KeepsH s0 (@execSamplePreload x0 x1 x2 x3) := by
  unfold execSamplePreload
  with_reducible repeat' (first
      | assumption | apply State.updJtag_keeps | apply Keeps.ite | apply KeepsH.nextI)

theorem execSetdasa_keeps {s0 : State} {x0} {x1} {x2} {x3} (h3 : Keeps s0 x3) : KeepsH s0 (@execSetdasa x0 x1 x2 x3) := by
  unfold execSetdasa
  with_reducible repeat' (first
      | assumption | apply State.setDyn_keeps | apply Keeps.ite | apply KeepsH.nextI)

theorem execStandby_keeps {s0 : State} {x0} {x1} {x2} (h2 : Keeps s0 x2) : KeepsH s0 (@execStandby x0 x1 x2) := by
  unfold execStandby
  with_reducible repeat' (first
      | assumption | intro _ | apply State.mgcDo_keeps | apply State.standby_keeps | apply KeepsH.nextI)

theorem execTelemetry_keeps {s0 : State} {x0} {x1} {x2} {x3} {x4} (h4 : Keeps s0 x4) : KeepsH s0 (@execTelemetry x0 x1 x2 x3 x4) := by
  unfold execTelemetry
  with_reducible repeat' (first
      | assumption | intro _ | apply State.mgcDo_keeps | apply KeepsH.nextI | apply Keeps.ite1)

theorem execThermal_keeps {s0 : State} {x0} {x1} {x2} (h2 : Keeps s0 x2) : KeepsH s0 (@execThermal x0 x1 x2) := by
  unfold execThermal
  with_reducible repeat' (first
      | assumption | apply State.useFree_keeps | apply State.mgcDo_keeps | apply KeepsH.nextI)

end Sys2Proof.Machine
end

