-- ==== Sys2Proof/Laws/SregKeeps.lean ====
section
/-!
SUPPORT. Laws/SregKeeps.lean: what Machine/Sreg.lean leaves alone: each operation and meaning of it keeps the queue, the parts, the clock and the
canonical form of memory (`Keeps`).
-/
set_option linter.all false
namespace Sys2Proof.Machine

theorem State.keyreq_keeps {s0 : State} {x0} {x1} {x2} (h0 : Keeps s0 x0) : KeepsRS s0 (@State.keyreq x0 x1 x2) := by
  unfold State.keyreq
  with_reducible repeat' (first
      | assumption | intro _ | apply State.updCore_keeps | apply State.access_keeps | apply KeepsR.bindS | apply KeepsRS.okI
      | apply KeepsRS.stallT | apply KeepsRS.ite)

theorem State.srd_keeps {s0 : State} {x0} {x1} {x2} {x3} (h0 : Keeps s0 x0) : KeepsR s0 (@State.srd x0 x1 x2 x3) := by
  unfold State.srd
  with_reducible repeat' (first
      | assumption | intro _ | apply illegal_keeps | apply barrier_keeps | apply State.srdVal_keeps | apply done4_keeps
      | apply State.setG_keeps | apply noAuth_keeps | apply KeepsR.ite)

theorem State.swrEnd_keeps {s0 : State} {x0} {x1} (h0 : Keeps s0 x0) : Keeps s0 (@State.swrEnd x0 x1) := by
  unfold State.swrEnd
  with_reducible repeat' (first
      | assumption | apply State.reharden_keeps | apply State.updCore_keeps | apply State.countC_keeps)

theorem State.swr_keeps {s0 : State} {x0} {x1} {x2} {x3} (h0 : Keeps s0 x0) : KeepsR s0 (@State.swr x0 x1 x2 x3) := by
  unfold State.swr
  try dsimp only
  with_reducible repeat' (first
      | assumption | intro _ | apply State.keyreq_keeps | apply State.swrDo_keeps | apply illegal_keeps
      | apply State.drain_keeps | apply barrier_keeps | apply done4_keeps | apply State.swrEnd_keeps | apply noAuth_keeps
      | apply KeepsRS.bindR | apply KeepsR.stallT | refine KeepsO.elim ?_ (by assumption) | split)

theorem sreg_keeps {s0 : State} {x0} {x1} {x2} (h1 : ∀ y0, Keeps s0 y0 → KeepsR s0 (x1 y0)) (h2 : Keeps s0 x2) : Keeps s0 (@sreg x0 x1 x2) := by
  unfold sreg
  with_reducible repeat' (first
      | assumption | intro _ | apply noRegion_keeps | apply State.instr_keeps)

theorem execIpiSend_keeps {s0 : State} {x0} {x1} {x2} (h2 : Keeps s0 x2) : KeepsH s0 (@execIpiSend x0 x1 x2) := by
  unfold execIpiSend
  with_reducible repeat' (first
      | assumption | intro _ | apply State.swr_keeps | apply sreg_keeps | apply KeepsH.nextI)

theorem execKdrop_keeps {s0 : State} {x0} {x1} {x2} (h2 : Keeps s0 x2) : KeepsH s0 (@execKdrop x0 x1 x2) := by
  unfold execKdrop
  with_reducible repeat' (first
      | assumption | intro _ | apply State.setSr_keeps | apply sreg_keeps | apply State.countC_keeps | apply done4_keeps
      | apply KeepsH.nextI)

theorem execKdropHi_keeps {s0 : State} {x0} {x1} {x2} (h2 : Keeps s0 x2) : KeepsH s0 (@execKdropHi x0 x1 x2) := by
  unfold execKdropHi
  with_reducible repeat' (first
      | assumption | intro _ | apply sreg_keeps | apply State.countC_keeps | apply done4_keeps | apply State.dropRights_keeps
      | apply KeepsH.nextI)

theorem execKdropLo_keeps {s0 : State} {x0} {x1} {x2} (h2 : Keeps s0 x2) : KeepsH s0 (@execKdropLo x0 x1 x2) := by
  unfold execKdropLo
  with_reducible repeat' (first
      | assumption | intro _ | apply sreg_keeps | apply State.countC_keeps | apply done4_keeps | apply State.dropRights_keeps
      | apply KeepsH.nextI)

theorem execPmdataRead_keeps {s0 : State} {x0} {x1} {x2} (h2 : Keeps s0 x2) : KeepsH s0 (@execPmdataRead x0 x1 x2) := by
  unfold execPmdataRead
  with_reducible repeat' (first
      | assumption | intro _ | apply State.srd_keeps | apply sreg_keeps | apply KeepsH.nextI)

theorem execSrd_keeps {s0 : State} {x0} {x1} {x2} {x3} (h3 : Keeps s0 x3) : KeepsH s0 (@execSrd x0 x1 x2 x3) := by
  unfold execSrd
  with_reducible repeat' (first
      | assumption | intro _ | apply State.srd_keeps | apply sreg_keeps | apply KeepsH.nextI)

theorem execSwr_keeps {s0 : State} {x0} {x1} {x2} {x3} (h3 : Keeps s0 x3) : KeepsH s0 (@execSwr x0 x1 x2 x3) := by
  unfold execSwr
  with_reducible repeat' (first
      | assumption | intro _ | apply State.swr_keeps | apply sreg_keeps | apply KeepsH.nextI)

theorem execSwrAuth_keeps {s0 : State} {x0} {x1} {x2} (h2 : Keeps s0 x2) : KeepsH s0 (@execSwrAuth x0 x1 x2) := by
  unfold execSwrAuth
  with_reducible repeat' (first
      | assumption | intro _ | apply State.swr_keeps | apply sreg_keeps | apply KeepsH.nextI)

theorem execSwrKrights_keeps {s0 : State} {x0} {x1} {x2} {x3} (h3 : Keeps s0 x3) : KeepsH s0 (@execSwrKrights x0 x1 x2 x3) := by
  unfold execSwrKrights
  with_reducible repeat' (first
      | assumption | intro _ | apply State.swr_keeps | apply sreg_keeps | apply KeepsH.nextI)

theorem execSwrPmsel_keeps {s0 : State} {x0} {x1} {x2} (h2 : Keeps s0 x2) : KeepsH s0 (@execSwrPmsel x0 x1 x2) := by
  unfold execSwrPmsel
  with_reducible repeat' (first
      | assumption | intro _ | apply State.swr_keeps | apply sreg_keeps | apply KeepsH.nextI)

theorem execSwrTcmp_keeps {s0 : State} {x0} {x1} {x2} (h2 : Keeps s0 x2) : KeepsH s0 (@execSwrTcmp x0 x1 x2) := by
  unfold execSwrTcmp
  with_reducible repeat' (first
      | assumption | intro _ | apply State.swr_keeps | apply sreg_keeps | apply KeepsH.nextI)

theorem execSwrXlatctl_keeps {s0 : State} {x0} {x1} {x2} (h2 : Keeps s0 x2) : KeepsH s0 (@execSwrXlatctl x0 x1 x2) := by
  unfold execSwrXlatctl
  with_reducible repeat' (first
      | assumption | intro _ | apply State.swr_keeps | apply sreg_keeps | apply KeepsH.nextI)

end Sys2Proof.Machine
end

