-- ==== Sys2Proof/Laws/State.lean ====
section
/-!
SUPPORT. Laws/State.lean: one lemma for each field and each plain update of State and Core, and the laws of the sparse tables, the
register table and the cores that read after write.
-/
namespace Sys2Proof.Machine

/-! ### setCore -/

@[simp] theorem State.setCore_pending (s : State) (c : Nat) (k : Core) : (s.setCore c k).pending = s.pending := rfl
@[simp] theorem State.setCore_free (s : State) (c : Nat) (k : Core) : (s.setCore c k).free = s.free := rfl
@[simp] theorem State.setCore_time (s : State) (c : Nat) (k : Core) : (s.setCore c k).time = s.time := rfl
@[simp] theorem State.setCore_tb (s : State) (c : Nat) (k : Core) : (s.setCore c k).tb = s.tb := rfl
@[simp] theorem State.setCore_parts (s : State) (c : Nat) (k : Core) : (s.setCore c k).parts = s.parts := rfl
@[simp] theorem State.setCore_straps (s : State) (c : Nat) (k : Core) : (s.setCore c k).straps = s.straps := rfl
@[simp] theorem State.setCore_mem (s : State) (c : Nat) (k : Core) : (s.setCore c k).mem = s.mem := rfl
@[simp] theorem State.setCore_poison (s : State) (c : Nat) (k : Core) : (s.setCore c k).poison = s.poison := rfl
@[simp] theorem State.setCore_macBad (s : State) (c : Nat) (k : Core) : (s.setCore c k).macBad = s.macBad := rfl
@[simp] theorem State.setCore_enc (s : State) (c : Nat) (k : Core) : (s.setCore c k).enc = s.enc := rfl
@[simp] theorem State.setCore_owner (s : State) (c : Nat) (k : Core) : (s.setCore c k).owner = s.owner := rfl
@[simp] theorem State.setCore_seatSr (s : State) (c : Nat) (k : Core) : (s.setCore c k).seatSr = s.seatSr := rfl
@[simp] theorem State.setCore_regs (s : State) (c : Nat) (k : Core) : (s.setCore c k).regs = s.regs := rfl
@[simp] theorem State.setCore_shadow (s : State) (c : Nat) (k : Core) : (s.setCore c k).shadow = s.shadow := rfl
@[simp] theorem State.setCore_locked (s : State) (c : Nat) (k : Core) : (s.setCore c k).locked = s.locked := rfl
@[simp] theorem State.setCore_repoch (s : State) (c : Nat) (k : Core) : (s.setCore c k).repoch = s.repoch := rfl
@[simp] theorem State.setCore_dirBits (s : State) (c : Nat) (k : Core) : (s.setCore c k).dirBits = s.dirBits := rfl
@[simp] theorem State.setCore_homeOld (s : State) (c : Nat) (k : Core) : (s.setCore c k).homeOld = s.homeOld := rfl
@[simp] theorem State.setCore_sf (s : State) (c : Nat) (k : Core) : (s.setCore c k).sf = s.sf := rfl
@[simp] theorem State.setCore_rsc (s : State) (c : Nat) (k : Core) : (s.setCore c k).rsc = s.rsc := rfl
@[simp] theorem State.setCore_rscG (s : State) (c : Nat) (k : Core) : (s.setCore c k).rscG = s.rscG := rfl
@[simp] theorem State.setCore_sfUse (s : State) (c : Nat) (k : Core) : (s.setCore c k).sfUse = s.sfUse := rfl
@[simp] theorem State.setCore_rscUse (s : State) (c : Nat) (k : Core) : (s.setCore c k).rscUse = s.rscUse := rfl
@[simp] theorem State.setCore_sdata (s : State) (c : Nat) (k : Core) : (s.setCore c k).sdata = s.sdata := rfl
@[simp] theorem State.setCore_held (s : State) (c : Nat) (k : Core) : (s.setCore c k).held = s.held := rfl
@[simp] theorem State.setCore_abuf (s : State) (c : Nat) (k : Core) : (s.setCore c k).abuf = s.abuf := rfl
@[simp] theorem State.setCore_ceCount (s : State) (c : Nat) (k : Core) : (s.setCore c k).ceCount = s.ceCount := rfl
@[simp] theorem State.setCore_ceSupp (s : State) (c : Nat) (k : Core) : (s.setCore c k).ceSupp = s.ceSupp := rfl
@[simp] theorem State.setCore_ashTotal (s : State) (c : Nat) (k : Core) : (s.setCore c k).ashTotal = s.ashTotal := rfl
@[simp] theorem State.setCore_ibi (s : State) (c : Nat) (k : Core) : (s.setCore c k).ibi = s.ibi := rfl
@[simp] theorem State.setCore_vault (s : State) (c : Nat) (k : Core) : (s.setCore c k).vault = s.vault := rfl
@[simp] theorem State.setCore_handover (s : State) (c : Nat) (k : Core) : (s.setCore c k).handover = s.handover := rfl
@[simp] theorem State.setCore_tlbis (s : State) (c : Nat) (k : Core) : (s.setCore c k).tlbis = s.tlbis := rfl
@[simp] theorem State.setCore_tlbiNext (s : State) (c : Nat) (k : Core) : (s.setCore c k).tlbiNext = s.tlbiNext := rfl
@[simp] theorem State.setCore_pafs (s : State) (c : Nat) (k : Core) : (s.setCore c k).pafs = s.pafs := rfl
@[simp] theorem State.setCore_ipis (s : State) (c : Nat) (k : Core) : (s.setCore c k).ipis = s.ipis := rfl
@[simp] theorem State.setCore_txns (s : State) (c : Nat) (k : Core) : (s.setCore c k).txns = s.txns := rfl
@[simp] theorem State.setCore_net (s : State) (c : Nat) (k : Core) : (s.setCore c k).net = s.net := rfl
@[simp] theorem State.setCore_hq (s : State) (c : Nat) (k : Core) : (s.setCore c k).hq = s.hq := rfl
@[simp] theorem State.setCore_retried (s : State) (c : Nat) (k : Core) : (s.setCore c k).retried = s.retried := rfl
@[simp] theorem State.setCore_unreach (s : State) (c : Nat) (k : Core) : (s.setCore c k).unreach = s.unreach := rfl
@[simp] theorem State.setCore_acts (s : State) (c : Nat) (k : Core) : (s.setCore c k).acts = s.acts := rfl
@[simp] theorem State.setCore_iotlb (s : State) (c : Nat) (k : Core) : (s.setCore c k).iotlb = s.iotlb := rfl
@[simp] theorem State.setCore_retire (s : State) (c : Nat) (k : Core) : (s.setCore c k).retire = s.retire := rfl
@[simp] theorem State.setCore_down (s : State) (c : Nat) (k : Core) : (s.setCore c k).down = s.down := rfl
@[simp] theorem State.setCore_meshIn (s : State) (c : Nat) (k : Core) : (s.setCore c k).meshIn = s.meshIn := rfl
@[simp] theorem State.setCore_meshReplay (s : State) (c : Nat) (k : Core) : (s.setCore c k).meshReplay = s.meshReplay := rfl
@[simp] theorem State.setCore_meshDue (s : State) (c : Nat) (k : Core) : (s.setCore c k).meshDue = s.meshDue := rfl
@[simp] theorem State.setCore_meshNak (s : State) (c : Nat) (k : Core) : (s.setCore c k).meshNak = s.meshNak := rfl
@[simp] theorem State.setCore_mlinks (s : State) (c : Nat) (k : Core) : (s.setCore c k).mlinks = s.mlinks := rfl
@[simp] theorem State.setCore_arbs (s : State) (c : Nat) (k : Core) : (s.setCore c k).arbs = s.arbs := rfl
@[simp] theorem State.setCore_commitLeft (s : State) (c : Nat) (k : Core) : (s.setCore c k).commitLeft = s.commitLeft := rfl
@[simp] theorem State.setCore_bucketDebt (s : State) (c : Nat) (k : Core) : (s.setCore c k).bucketDebt = s.bucketDebt := rfl
@[simp] theorem State.setCore_gateQ (s : State) (c : Nat) (k : Core) : (s.setCore c k).gateQ = s.gateQ := rfl
@[simp] theorem State.setCore_flues (s : State) (c : Nat) (k : Core) : (s.setCore c k).flues = s.flues := rfl
@[simp] theorem State.setCore_xout (s : State) (c : Nat) (k : Core) : (s.setCore c k).xout = s.xout := rfl
@[simp] theorem State.setCore_xin (s : State) (c : Nat) (k : Core) : (s.setCore c k).xin = s.xin := rfl
@[simp] theorem State.setCore_reroutes (s : State) (c : Nat) (k : Core) : (s.setCore c k).reroutes = s.reroutes := rfl
@[simp] theorem State.setCore_rerouteNext (s : State) (c : Nat) (k : Core) : (s.setCore c k).rerouteNext = s.rerouteNext := rfl
@[simp] theorem State.setCore_flueDown (s : State) (c : Nat) (k : Core) : (s.setCore c k).flueDown = s.flueDown := rfl
@[simp] theorem State.setCore_combine (s : State) (c : Nat) (k : Core) : (s.setCore c k).combine = s.combine := rfl
@[simp] theorem State.setCore_txNext (s : State) (c : Nat) (k : Core) : (s.setCore c k).txNext = s.txNext := rfl
@[simp] theorem State.setCore_txExp (s : State) (c : Nat) (k : Core) : (s.setCore c k).txExp = s.txExp := rfl
@[simp] theorem State.setCore_txHeld (s : State) (c : Nat) (k : Core) : (s.setCore c k).txHeld = s.txHeld := rfl
@[simp] theorem State.setCore_pstep (s : State) (c : Nat) (k : Core) : (s.setCore c k).pstep = s.pstep := rfl
@[simp] theorem State.setCore_goShadow (s : State) (c : Nat) (k : Core) : (s.setCore c k).goShadow = s.goShadow := rfl
@[simp] theorem State.setCore_chans (s : State) (c : Nat) (k : Core) : (s.setCore c k).chans = s.chans := rfl
@[simp] theorem State.setCore_mcOut (s : State) (c : Nat) (k : Core) : (s.setCore c k).mcOut = s.mcOut := rfl
@[simp] theorem State.setCore_stkChs (s : State) (c : Nat) (k : Core) : (s.setCore c k).stkChs = s.stkChs := rfl
@[simp] theorem State.setCore_stkCells (s : State) (c : Nat) (k : Core) : (s.setCore c k).stkCells = s.stkCells := rfl
@[simp] theorem State.setCore_rids (s : State) (c : Nat) (k : Core) : (s.setCore c k).rids = s.rids := rfl
@[simp] theorem State.setCore_prcs (s : State) (c : Nat) (k : Core) : (s.setCore c k).prcs = s.prcs := rfl
@[simp] theorem State.setCore_keyGen (s : State) (c : Nat) (k : Core) : (s.setCore c k).keyGen = s.keyGen := rfl
@[simp] theorem State.setCore_handoffs (s : State) (c : Nat) (k : Core) : (s.setCore c k).handoffs = s.handoffs := rfl
@[simp] theorem State.setCore_lockrecs (s : State) (c : Nat) (k : Core) : (s.setCore c k).lockrecs = s.lockrecs := rfl
@[simp] theorem State.setCore_pwrs (s : State) (c : Nat) (k : Core) : (s.setCore c k).pwrs = s.pwrs := rfl
@[simp] theorem State.setCore_jtags (s : State) (c : Nat) (k : Core) : (s.setCore c k).jtags = s.jtags := rfl
@[simp] theorem State.setCore_mgcs (s : State) (c : Nat) (k : Core) : (s.setCore c k).mgcs = s.mgcs := rfl
@[simp] theorem State.setCore_snapBase (s : State) (c : Nat) (k : Core) : (s.setCore c k).snapBase = s.snapBase := rfl
@[simp] theorem State.setCore_uwraps (s : State) (c : Nat) (k : Core) : (s.setCore c k).uwraps = s.uwraps := rfl
@[simp] theorem State.setCore_ubw (s : State) (c : Nat) (k : Core) : (s.setCore c k).ubw = s.ubw := rfl
@[simp] theorem State.setCore_bwPend (s : State) (c : Nat) (k : Core) : (s.setCore c k).bwPend = s.bwPend := rfl
@[simp] theorem State.setCore_bwClr (s : State) (c : Nat) (k : Core) : (s.setCore c k).bwClr = s.bwClr := rfl

/-! ### updCore -/

@[simp] theorem State.updCore_pending (s : State) (c : Nat) (f : Core → Core) : (s.updCore c f).pending = s.pending := rfl
@[simp] theorem State.updCore_free (s : State) (c : Nat) (f : Core → Core) : (s.updCore c f).free = s.free := rfl
@[simp] theorem State.updCore_time (s : State) (c : Nat) (f : Core → Core) : (s.updCore c f).time = s.time := rfl
@[simp] theorem State.updCore_tb (s : State) (c : Nat) (f : Core → Core) : (s.updCore c f).tb = s.tb := rfl
@[simp] theorem State.updCore_parts (s : State) (c : Nat) (f : Core → Core) : (s.updCore c f).parts = s.parts := rfl
@[simp] theorem State.updCore_straps (s : State) (c : Nat) (f : Core → Core) : (s.updCore c f).straps = s.straps := rfl
@[simp] theorem State.updCore_mem (s : State) (c : Nat) (f : Core → Core) : (s.updCore c f).mem = s.mem := rfl
@[simp] theorem State.updCore_poison (s : State) (c : Nat) (f : Core → Core) : (s.updCore c f).poison = s.poison := rfl
@[simp] theorem State.updCore_macBad (s : State) (c : Nat) (f : Core → Core) : (s.updCore c f).macBad = s.macBad := rfl
@[simp] theorem State.updCore_enc (s : State) (c : Nat) (f : Core → Core) : (s.updCore c f).enc = s.enc := rfl
@[simp] theorem State.updCore_owner (s : State) (c : Nat) (f : Core → Core) : (s.updCore c f).owner = s.owner := rfl
@[simp] theorem State.updCore_seatSr (s : State) (c : Nat) (f : Core → Core) : (s.updCore c f).seatSr = s.seatSr := rfl
@[simp] theorem State.updCore_regs (s : State) (c : Nat) (f : Core → Core) : (s.updCore c f).regs = s.regs := rfl
@[simp] theorem State.updCore_shadow (s : State) (c : Nat) (f : Core → Core) : (s.updCore c f).shadow = s.shadow := rfl
@[simp] theorem State.updCore_locked (s : State) (c : Nat) (f : Core → Core) : (s.updCore c f).locked = s.locked := rfl
@[simp] theorem State.updCore_repoch (s : State) (c : Nat) (f : Core → Core) : (s.updCore c f).repoch = s.repoch := rfl
@[simp] theorem State.updCore_dirBits (s : State) (c : Nat) (f : Core → Core) : (s.updCore c f).dirBits = s.dirBits := rfl
@[simp] theorem State.updCore_homeOld (s : State) (c : Nat) (f : Core → Core) : (s.updCore c f).homeOld = s.homeOld := rfl
@[simp] theorem State.updCore_sf (s : State) (c : Nat) (f : Core → Core) : (s.updCore c f).sf = s.sf := rfl
@[simp] theorem State.updCore_rsc (s : State) (c : Nat) (f : Core → Core) : (s.updCore c f).rsc = s.rsc := rfl
@[simp] theorem State.updCore_rscG (s : State) (c : Nat) (f : Core → Core) : (s.updCore c f).rscG = s.rscG := rfl
@[simp] theorem State.updCore_sfUse (s : State) (c : Nat) (f : Core → Core) : (s.updCore c f).sfUse = s.sfUse := rfl
@[simp] theorem State.updCore_rscUse (s : State) (c : Nat) (f : Core → Core) : (s.updCore c f).rscUse = s.rscUse := rfl
@[simp] theorem State.updCore_sdata (s : State) (c : Nat) (f : Core → Core) : (s.updCore c f).sdata = s.sdata := rfl
@[simp] theorem State.updCore_held (s : State) (c : Nat) (f : Core → Core) : (s.updCore c f).held = s.held := rfl
@[simp] theorem State.updCore_abuf (s : State) (c : Nat) (f : Core → Core) : (s.updCore c f).abuf = s.abuf := rfl
@[simp] theorem State.updCore_ceCount (s : State) (c : Nat) (f : Core → Core) : (s.updCore c f).ceCount = s.ceCount := rfl
@[simp] theorem State.updCore_ceSupp (s : State) (c : Nat) (f : Core → Core) : (s.updCore c f).ceSupp = s.ceSupp := rfl
@[simp] theorem State.updCore_ashTotal (s : State) (c : Nat) (f : Core → Core) : (s.updCore c f).ashTotal = s.ashTotal := rfl
@[simp] theorem State.updCore_ibi (s : State) (c : Nat) (f : Core → Core) : (s.updCore c f).ibi = s.ibi := rfl
@[simp] theorem State.updCore_vault (s : State) (c : Nat) (f : Core → Core) : (s.updCore c f).vault = s.vault := rfl
@[simp] theorem State.updCore_handover (s : State) (c : Nat) (f : Core → Core) : (s.updCore c f).handover = s.handover := rfl
@[simp] theorem State.updCore_tlbis (s : State) (c : Nat) (f : Core → Core) : (s.updCore c f).tlbis = s.tlbis := rfl
@[simp] theorem State.updCore_tlbiNext (s : State) (c : Nat) (f : Core → Core) : (s.updCore c f).tlbiNext = s.tlbiNext := rfl
@[simp] theorem State.updCore_pafs (s : State) (c : Nat) (f : Core → Core) : (s.updCore c f).pafs = s.pafs := rfl
@[simp] theorem State.updCore_ipis (s : State) (c : Nat) (f : Core → Core) : (s.updCore c f).ipis = s.ipis := rfl
@[simp] theorem State.updCore_txns (s : State) (c : Nat) (f : Core → Core) : (s.updCore c f).txns = s.txns := rfl
@[simp] theorem State.updCore_net (s : State) (c : Nat) (f : Core → Core) : (s.updCore c f).net = s.net := rfl
@[simp] theorem State.updCore_hq (s : State) (c : Nat) (f : Core → Core) : (s.updCore c f).hq = s.hq := rfl
@[simp] theorem State.updCore_retried (s : State) (c : Nat) (f : Core → Core) : (s.updCore c f).retried = s.retried := rfl
@[simp] theorem State.updCore_unreach (s : State) (c : Nat) (f : Core → Core) : (s.updCore c f).unreach = s.unreach := rfl
@[simp] theorem State.updCore_acts (s : State) (c : Nat) (f : Core → Core) : (s.updCore c f).acts = s.acts := rfl
@[simp] theorem State.updCore_iotlb (s : State) (c : Nat) (f : Core → Core) : (s.updCore c f).iotlb = s.iotlb := rfl
@[simp] theorem State.updCore_retire (s : State) (c : Nat) (f : Core → Core) : (s.updCore c f).retire = s.retire := rfl
@[simp] theorem State.updCore_down (s : State) (c : Nat) (f : Core → Core) : (s.updCore c f).down = s.down := rfl
@[simp] theorem State.updCore_meshIn (s : State) (c : Nat) (f : Core → Core) : (s.updCore c f).meshIn = s.meshIn := rfl
@[simp] theorem State.updCore_meshReplay (s : State) (c : Nat) (f : Core → Core) : (s.updCore c f).meshReplay = s.meshReplay := rfl
@[simp] theorem State.updCore_meshDue (s : State) (c : Nat) (f : Core → Core) : (s.updCore c f).meshDue = s.meshDue := rfl
@[simp] theorem State.updCore_meshNak (s : State) (c : Nat) (f : Core → Core) : (s.updCore c f).meshNak = s.meshNak := rfl
@[simp] theorem State.updCore_mlinks (s : State) (c : Nat) (f : Core → Core) : (s.updCore c f).mlinks = s.mlinks := rfl
@[simp] theorem State.updCore_arbs (s : State) (c : Nat) (f : Core → Core) : (s.updCore c f).arbs = s.arbs := rfl
@[simp] theorem State.updCore_commitLeft (s : State) (c : Nat) (f : Core → Core) : (s.updCore c f).commitLeft = s.commitLeft := rfl
@[simp] theorem State.updCore_bucketDebt (s : State) (c : Nat) (f : Core → Core) : (s.updCore c f).bucketDebt = s.bucketDebt := rfl
@[simp] theorem State.updCore_gateQ (s : State) (c : Nat) (f : Core → Core) : (s.updCore c f).gateQ = s.gateQ := rfl
@[simp] theorem State.updCore_flues (s : State) (c : Nat) (f : Core → Core) : (s.updCore c f).flues = s.flues := rfl
@[simp] theorem State.updCore_xout (s : State) (c : Nat) (f : Core → Core) : (s.updCore c f).xout = s.xout := rfl
@[simp] theorem State.updCore_xin (s : State) (c : Nat) (f : Core → Core) : (s.updCore c f).xin = s.xin := rfl
@[simp] theorem State.updCore_reroutes (s : State) (c : Nat) (f : Core → Core) : (s.updCore c f).reroutes = s.reroutes := rfl
@[simp] theorem State.updCore_rerouteNext (s : State) (c : Nat) (f : Core → Core) : (s.updCore c f).rerouteNext = s.rerouteNext := rfl
@[simp] theorem State.updCore_flueDown (s : State) (c : Nat) (f : Core → Core) : (s.updCore c f).flueDown = s.flueDown := rfl
@[simp] theorem State.updCore_combine (s : State) (c : Nat) (f : Core → Core) : (s.updCore c f).combine = s.combine := rfl
@[simp] theorem State.updCore_txNext (s : State) (c : Nat) (f : Core → Core) : (s.updCore c f).txNext = s.txNext := rfl
@[simp] theorem State.updCore_txExp (s : State) (c : Nat) (f : Core → Core) : (s.updCore c f).txExp = s.txExp := rfl
@[simp] theorem State.updCore_txHeld (s : State) (c : Nat) (f : Core → Core) : (s.updCore c f).txHeld = s.txHeld := rfl
@[simp] theorem State.updCore_pstep (s : State) (c : Nat) (f : Core → Core) : (s.updCore c f).pstep = s.pstep := rfl
@[simp] theorem State.updCore_goShadow (s : State) (c : Nat) (f : Core → Core) : (s.updCore c f).goShadow = s.goShadow := rfl
@[simp] theorem State.updCore_chans (s : State) (c : Nat) (f : Core → Core) : (s.updCore c f).chans = s.chans := rfl
@[simp] theorem State.updCore_mcOut (s : State) (c : Nat) (f : Core → Core) : (s.updCore c f).mcOut = s.mcOut := rfl
@[simp] theorem State.updCore_stkChs (s : State) (c : Nat) (f : Core → Core) : (s.updCore c f).stkChs = s.stkChs := rfl
@[simp] theorem State.updCore_stkCells (s : State) (c : Nat) (f : Core → Core) : (s.updCore c f).stkCells = s.stkCells := rfl
@[simp] theorem State.updCore_rids (s : State) (c : Nat) (f : Core → Core) : (s.updCore c f).rids = s.rids := rfl
@[simp] theorem State.updCore_prcs (s : State) (c : Nat) (f : Core → Core) : (s.updCore c f).prcs = s.prcs := rfl
@[simp] theorem State.updCore_keyGen (s : State) (c : Nat) (f : Core → Core) : (s.updCore c f).keyGen = s.keyGen := rfl
@[simp] theorem State.updCore_handoffs (s : State) (c : Nat) (f : Core → Core) : (s.updCore c f).handoffs = s.handoffs := rfl
@[simp] theorem State.updCore_lockrecs (s : State) (c : Nat) (f : Core → Core) : (s.updCore c f).lockrecs = s.lockrecs := rfl
@[simp] theorem State.updCore_pwrs (s : State) (c : Nat) (f : Core → Core) : (s.updCore c f).pwrs = s.pwrs := rfl
@[simp] theorem State.updCore_jtags (s : State) (c : Nat) (f : Core → Core) : (s.updCore c f).jtags = s.jtags := rfl
@[simp] theorem State.updCore_mgcs (s : State) (c : Nat) (f : Core → Core) : (s.updCore c f).mgcs = s.mgcs := rfl
@[simp] theorem State.updCore_snapBase (s : State) (c : Nat) (f : Core → Core) : (s.updCore c f).snapBase = s.snapBase := rfl
@[simp] theorem State.updCore_uwraps (s : State) (c : Nat) (f : Core → Core) : (s.updCore c f).uwraps = s.uwraps := rfl
@[simp] theorem State.updCore_ubw (s : State) (c : Nat) (f : Core → Core) : (s.updCore c f).ubw = s.ubw := rfl
@[simp] theorem State.updCore_bwPend (s : State) (c : Nat) (f : Core → Core) : (s.updCore c f).bwPend = s.bwPend := rfl
@[simp] theorem State.updCore_bwClr (s : State) (c : Nat) (f : Core → Core) : (s.updCore c f).bwClr = s.bwClr := rfl

/-! ### wr -/

@[simp] theorem State.wr_pending (s : State) (f : Fld) (a : Ix) (v : Nat) : (s.wr f a v).pending = s.pending := rfl
@[simp] theorem State.wr_free (s : State) (f : Fld) (a : Ix) (v : Nat) : (s.wr f a v).free = s.free := rfl
@[simp] theorem State.wr_time (s : State) (f : Fld) (a : Ix) (v : Nat) : (s.wr f a v).time = s.time := rfl
@[simp] theorem State.wr_tb (s : State) (f : Fld) (a : Ix) (v : Nat) : (s.wr f a v).tb = s.tb := rfl
@[simp] theorem State.wr_parts (s : State) (f : Fld) (a : Ix) (v : Nat) : (s.wr f a v).parts = s.parts := rfl
@[simp] theorem State.wr_straps (s : State) (f : Fld) (a : Ix) (v : Nat) : (s.wr f a v).straps = s.straps := rfl
@[simp] theorem State.wr_mem (s : State) (f : Fld) (a : Ix) (v : Nat) : (s.wr f a v).mem = s.mem := rfl
@[simp] theorem State.wr_poison (s : State) (f : Fld) (a : Ix) (v : Nat) : (s.wr f a v).poison = s.poison := rfl
@[simp] theorem State.wr_macBad (s : State) (f : Fld) (a : Ix) (v : Nat) : (s.wr f a v).macBad = s.macBad := rfl
@[simp] theorem State.wr_enc (s : State) (f : Fld) (a : Ix) (v : Nat) : (s.wr f a v).enc = s.enc := rfl
@[simp] theorem State.wr_owner (s : State) (f : Fld) (a : Ix) (v : Nat) : (s.wr f a v).owner = s.owner := rfl
@[simp] theorem State.wr_seatSr (s : State) (f : Fld) (a : Ix) (v : Nat) : (s.wr f a v).seatSr = s.seatSr := rfl
@[simp] theorem State.wr_shadow (s : State) (f : Fld) (a : Ix) (v : Nat) : (s.wr f a v).shadow = s.shadow := rfl
@[simp] theorem State.wr_locked (s : State) (f : Fld) (a : Ix) (v : Nat) : (s.wr f a v).locked = s.locked := rfl
@[simp] theorem State.wr_repoch (s : State) (f : Fld) (a : Ix) (v : Nat) : (s.wr f a v).repoch = s.repoch := rfl
@[simp] theorem State.wr_cores (s : State) (f : Fld) (a : Ix) (v : Nat) : (s.wr f a v).cores = s.cores := rfl
@[simp] theorem State.wr_dirBits (s : State) (f : Fld) (a : Ix) (v : Nat) : (s.wr f a v).dirBits = s.dirBits := rfl
@[simp] theorem State.wr_homeOld (s : State) (f : Fld) (a : Ix) (v : Nat) : (s.wr f a v).homeOld = s.homeOld := rfl
@[simp] theorem State.wr_sf (s : State) (f : Fld) (a : Ix) (v : Nat) : (s.wr f a v).sf = s.sf := rfl
@[simp] theorem State.wr_rsc (s : State) (f : Fld) (a : Ix) (v : Nat) : (s.wr f a v).rsc = s.rsc := rfl
@[simp] theorem State.wr_rscG (s : State) (f : Fld) (a : Ix) (v : Nat) : (s.wr f a v).rscG = s.rscG := rfl
@[simp] theorem State.wr_sfUse (s : State) (f : Fld) (a : Ix) (v : Nat) : (s.wr f a v).sfUse = s.sfUse := rfl
@[simp] theorem State.wr_rscUse (s : State) (f : Fld) (a : Ix) (v : Nat) : (s.wr f a v).rscUse = s.rscUse := rfl
@[simp] theorem State.wr_sdata (s : State) (f : Fld) (a : Ix) (v : Nat) : (s.wr f a v).sdata = s.sdata := rfl
@[simp] theorem State.wr_held (s : State) (f : Fld) (a : Ix) (v : Nat) : (s.wr f a v).held = s.held := rfl
@[simp] theorem State.wr_abuf (s : State) (f : Fld) (a : Ix) (v : Nat) : (s.wr f a v).abuf = s.abuf := rfl
@[simp] theorem State.wr_ceCount (s : State) (f : Fld) (a : Ix) (v : Nat) : (s.wr f a v).ceCount = s.ceCount := rfl
@[simp] theorem State.wr_ceSupp (s : State) (f : Fld) (a : Ix) (v : Nat) : (s.wr f a v).ceSupp = s.ceSupp := rfl
@[simp] theorem State.wr_ashTotal (s : State) (f : Fld) (a : Ix) (v : Nat) : (s.wr f a v).ashTotal = s.ashTotal := rfl
@[simp] theorem State.wr_ibi (s : State) (f : Fld) (a : Ix) (v : Nat) : (s.wr f a v).ibi = s.ibi := rfl
@[simp] theorem State.wr_vault (s : State) (f : Fld) (a : Ix) (v : Nat) : (s.wr f a v).vault = s.vault := rfl
@[simp] theorem State.wr_handover (s : State) (f : Fld) (a : Ix) (v : Nat) : (s.wr f a v).handover = s.handover := rfl
@[simp] theorem State.wr_tlbis (s : State) (f : Fld) (a : Ix) (v : Nat) : (s.wr f a v).tlbis = s.tlbis := rfl
@[simp] theorem State.wr_tlbiNext (s : State) (f : Fld) (a : Ix) (v : Nat) : (s.wr f a v).tlbiNext = s.tlbiNext := rfl
@[simp] theorem State.wr_pafs (s : State) (f : Fld) (a : Ix) (v : Nat) : (s.wr f a v).pafs = s.pafs := rfl
@[simp] theorem State.wr_ipis (s : State) (f : Fld) (a : Ix) (v : Nat) : (s.wr f a v).ipis = s.ipis := rfl
@[simp] theorem State.wr_txns (s : State) (f : Fld) (a : Ix) (v : Nat) : (s.wr f a v).txns = s.txns := rfl
@[simp] theorem State.wr_net (s : State) (f : Fld) (a : Ix) (v : Nat) : (s.wr f a v).net = s.net := rfl
@[simp] theorem State.wr_hq (s : State) (f : Fld) (a : Ix) (v : Nat) : (s.wr f a v).hq = s.hq := rfl
@[simp] theorem State.wr_retried (s : State) (f : Fld) (a : Ix) (v : Nat) : (s.wr f a v).retried = s.retried := rfl
@[simp] theorem State.wr_unreach (s : State) (f : Fld) (a : Ix) (v : Nat) : (s.wr f a v).unreach = s.unreach := rfl
@[simp] theorem State.wr_acts (s : State) (f : Fld) (a : Ix) (v : Nat) : (s.wr f a v).acts = s.acts := rfl
@[simp] theorem State.wr_iotlb (s : State) (f : Fld) (a : Ix) (v : Nat) : (s.wr f a v).iotlb = s.iotlb := rfl
@[simp] theorem State.wr_retire (s : State) (f : Fld) (a : Ix) (v : Nat) : (s.wr f a v).retire = s.retire := rfl
@[simp] theorem State.wr_down (s : State) (f : Fld) (a : Ix) (v : Nat) : (s.wr f a v).down = s.down := rfl
@[simp] theorem State.wr_meshIn (s : State) (f : Fld) (a : Ix) (v : Nat) : (s.wr f a v).meshIn = s.meshIn := rfl
@[simp] theorem State.wr_meshReplay (s : State) (f : Fld) (a : Ix) (v : Nat) : (s.wr f a v).meshReplay = s.meshReplay := rfl
@[simp] theorem State.wr_meshDue (s : State) (f : Fld) (a : Ix) (v : Nat) : (s.wr f a v).meshDue = s.meshDue := rfl
@[simp] theorem State.wr_meshNak (s : State) (f : Fld) (a : Ix) (v : Nat) : (s.wr f a v).meshNak = s.meshNak := rfl
@[simp] theorem State.wr_mlinks (s : State) (f : Fld) (a : Ix) (v : Nat) : (s.wr f a v).mlinks = s.mlinks := rfl
@[simp] theorem State.wr_arbs (s : State) (f : Fld) (a : Ix) (v : Nat) : (s.wr f a v).arbs = s.arbs := rfl
@[simp] theorem State.wr_commitLeft (s : State) (f : Fld) (a : Ix) (v : Nat) : (s.wr f a v).commitLeft = s.commitLeft := rfl
@[simp] theorem State.wr_bucketDebt (s : State) (f : Fld) (a : Ix) (v : Nat) : (s.wr f a v).bucketDebt = s.bucketDebt := rfl
@[simp] theorem State.wr_gateQ (s : State) (f : Fld) (a : Ix) (v : Nat) : (s.wr f a v).gateQ = s.gateQ := rfl
@[simp] theorem State.wr_flues (s : State) (f : Fld) (a : Ix) (v : Nat) : (s.wr f a v).flues = s.flues := rfl
@[simp] theorem State.wr_xout (s : State) (f : Fld) (a : Ix) (v : Nat) : (s.wr f a v).xout = s.xout := rfl
@[simp] theorem State.wr_xin (s : State) (f : Fld) (a : Ix) (v : Nat) : (s.wr f a v).xin = s.xin := rfl
@[simp] theorem State.wr_reroutes (s : State) (f : Fld) (a : Ix) (v : Nat) : (s.wr f a v).reroutes = s.reroutes := rfl
@[simp] theorem State.wr_rerouteNext (s : State) (f : Fld) (a : Ix) (v : Nat) : (s.wr f a v).rerouteNext = s.rerouteNext := rfl
@[simp] theorem State.wr_flueDown (s : State) (f : Fld) (a : Ix) (v : Nat) : (s.wr f a v).flueDown = s.flueDown := rfl
@[simp] theorem State.wr_combine (s : State) (f : Fld) (a : Ix) (v : Nat) : (s.wr f a v).combine = s.combine := rfl
@[simp] theorem State.wr_txNext (s : State) (f : Fld) (a : Ix) (v : Nat) : (s.wr f a v).txNext = s.txNext := rfl
@[simp] theorem State.wr_txExp (s : State) (f : Fld) (a : Ix) (v : Nat) : (s.wr f a v).txExp = s.txExp := rfl
@[simp] theorem State.wr_txHeld (s : State) (f : Fld) (a : Ix) (v : Nat) : (s.wr f a v).txHeld = s.txHeld := rfl
@[simp] theorem State.wr_pstep (s : State) (f : Fld) (a : Ix) (v : Nat) : (s.wr f a v).pstep = s.pstep := rfl
@[simp] theorem State.wr_goShadow (s : State) (f : Fld) (a : Ix) (v : Nat) : (s.wr f a v).goShadow = s.goShadow := rfl
@[simp] theorem State.wr_chans (s : State) (f : Fld) (a : Ix) (v : Nat) : (s.wr f a v).chans = s.chans := rfl
@[simp] theorem State.wr_mcOut (s : State) (f : Fld) (a : Ix) (v : Nat) : (s.wr f a v).mcOut = s.mcOut := rfl
@[simp] theorem State.wr_stkChs (s : State) (f : Fld) (a : Ix) (v : Nat) : (s.wr f a v).stkChs = s.stkChs := rfl
@[simp] theorem State.wr_stkCells (s : State) (f : Fld) (a : Ix) (v : Nat) : (s.wr f a v).stkCells = s.stkCells := rfl
@[simp] theorem State.wr_rids (s : State) (f : Fld) (a : Ix) (v : Nat) : (s.wr f a v).rids = s.rids := rfl
@[simp] theorem State.wr_prcs (s : State) (f : Fld) (a : Ix) (v : Nat) : (s.wr f a v).prcs = s.prcs := rfl
@[simp] theorem State.wr_keyGen (s : State) (f : Fld) (a : Ix) (v : Nat) : (s.wr f a v).keyGen = s.keyGen := rfl
@[simp] theorem State.wr_handoffs (s : State) (f : Fld) (a : Ix) (v : Nat) : (s.wr f a v).handoffs = s.handoffs := rfl
@[simp] theorem State.wr_lockrecs (s : State) (f : Fld) (a : Ix) (v : Nat) : (s.wr f a v).lockrecs = s.lockrecs := rfl
@[simp] theorem State.wr_pwrs (s : State) (f : Fld) (a : Ix) (v : Nat) : (s.wr f a v).pwrs = s.pwrs := rfl
@[simp] theorem State.wr_jtags (s : State) (f : Fld) (a : Ix) (v : Nat) : (s.wr f a v).jtags = s.jtags := rfl
@[simp] theorem State.wr_mgcs (s : State) (f : Fld) (a : Ix) (v : Nat) : (s.wr f a v).mgcs = s.mgcs := rfl
@[simp] theorem State.wr_snapBase (s : State) (f : Fld) (a : Ix) (v : Nat) : (s.wr f a v).snapBase = s.snapBase := rfl
@[simp] theorem State.wr_uwraps (s : State) (f : Fld) (a : Ix) (v : Nat) : (s.wr f a v).uwraps = s.uwraps := rfl
@[simp] theorem State.wr_ubw (s : State) (f : Fld) (a : Ix) (v : Nat) : (s.wr f a v).ubw = s.ubw := rfl
@[simp] theorem State.wr_bwPend (s : State) (f : Fld) (a : Ix) (v : Nat) : (s.wr f a v).bwPend = s.bwPend := rfl
@[simp] theorem State.wr_bwClr (s : State) (f : Fld) (a : Ix) (v : Nat) : (s.wr f a v).bwClr = s.bwClr := rfl

/-! ### bump -/

@[simp] theorem State.bump_pending (s : State) (f : Fld) (a : Ix) : (s.bump f a).pending = s.pending := rfl
@[simp] theorem State.bump_free (s : State) (f : Fld) (a : Ix) : (s.bump f a).free = s.free := rfl
@[simp] theorem State.bump_time (s : State) (f : Fld) (a : Ix) : (s.bump f a).time = s.time := rfl
@[simp] theorem State.bump_tb (s : State) (f : Fld) (a : Ix) : (s.bump f a).tb = s.tb := rfl
@[simp] theorem State.bump_parts (s : State) (f : Fld) (a : Ix) : (s.bump f a).parts = s.parts := rfl
@[simp] theorem State.bump_straps (s : State) (f : Fld) (a : Ix) : (s.bump f a).straps = s.straps := rfl
@[simp] theorem State.bump_mem (s : State) (f : Fld) (a : Ix) : (s.bump f a).mem = s.mem := rfl
@[simp] theorem State.bump_poison (s : State) (f : Fld) (a : Ix) : (s.bump f a).poison = s.poison := rfl
@[simp] theorem State.bump_macBad (s : State) (f : Fld) (a : Ix) : (s.bump f a).macBad = s.macBad := rfl
@[simp] theorem State.bump_enc (s : State) (f : Fld) (a : Ix) : (s.bump f a).enc = s.enc := rfl
@[simp] theorem State.bump_owner (s : State) (f : Fld) (a : Ix) : (s.bump f a).owner = s.owner := rfl
@[simp] theorem State.bump_seatSr (s : State) (f : Fld) (a : Ix) : (s.bump f a).seatSr = s.seatSr := rfl
@[simp] theorem State.bump_shadow (s : State) (f : Fld) (a : Ix) : (s.bump f a).shadow = s.shadow := rfl
@[simp] theorem State.bump_locked (s : State) (f : Fld) (a : Ix) : (s.bump f a).locked = s.locked := rfl
@[simp] theorem State.bump_repoch (s : State) (f : Fld) (a : Ix) : (s.bump f a).repoch = s.repoch := rfl
@[simp] theorem State.bump_cores (s : State) (f : Fld) (a : Ix) : (s.bump f a).cores = s.cores := rfl
@[simp] theorem State.bump_dirBits (s : State) (f : Fld) (a : Ix) : (s.bump f a).dirBits = s.dirBits := rfl
@[simp] theorem State.bump_homeOld (s : State) (f : Fld) (a : Ix) : (s.bump f a).homeOld = s.homeOld := rfl
@[simp] theorem State.bump_sf (s : State) (f : Fld) (a : Ix) : (s.bump f a).sf = s.sf := rfl
@[simp] theorem State.bump_rsc (s : State) (f : Fld) (a : Ix) : (s.bump f a).rsc = s.rsc := rfl
@[simp] theorem State.bump_rscG (s : State) (f : Fld) (a : Ix) : (s.bump f a).rscG = s.rscG := rfl
@[simp] theorem State.bump_sfUse (s : State) (f : Fld) (a : Ix) : (s.bump f a).sfUse = s.sfUse := rfl
@[simp] theorem State.bump_rscUse (s : State) (f : Fld) (a : Ix) : (s.bump f a).rscUse = s.rscUse := rfl
@[simp] theorem State.bump_sdata (s : State) (f : Fld) (a : Ix) : (s.bump f a).sdata = s.sdata := rfl
@[simp] theorem State.bump_held (s : State) (f : Fld) (a : Ix) : (s.bump f a).held = s.held := rfl
@[simp] theorem State.bump_abuf (s : State) (f : Fld) (a : Ix) : (s.bump f a).abuf = s.abuf := rfl
@[simp] theorem State.bump_ceCount (s : State) (f : Fld) (a : Ix) : (s.bump f a).ceCount = s.ceCount := rfl
@[simp] theorem State.bump_ceSupp (s : State) (f : Fld) (a : Ix) : (s.bump f a).ceSupp = s.ceSupp := rfl
@[simp] theorem State.bump_ashTotal (s : State) (f : Fld) (a : Ix) : (s.bump f a).ashTotal = s.ashTotal := rfl
@[simp] theorem State.bump_ibi (s : State) (f : Fld) (a : Ix) : (s.bump f a).ibi = s.ibi := rfl
@[simp] theorem State.bump_vault (s : State) (f : Fld) (a : Ix) : (s.bump f a).vault = s.vault := rfl
@[simp] theorem State.bump_handover (s : State) (f : Fld) (a : Ix) : (s.bump f a).handover = s.handover := rfl
@[simp] theorem State.bump_tlbis (s : State) (f : Fld) (a : Ix) : (s.bump f a).tlbis = s.tlbis := rfl
@[simp] theorem State.bump_tlbiNext (s : State) (f : Fld) (a : Ix) : (s.bump f a).tlbiNext = s.tlbiNext := rfl
@[simp] theorem State.bump_pafs (s : State) (f : Fld) (a : Ix) : (s.bump f a).pafs = s.pafs := rfl
@[simp] theorem State.bump_ipis (s : State) (f : Fld) (a : Ix) : (s.bump f a).ipis = s.ipis := rfl
@[simp] theorem State.bump_txns (s : State) (f : Fld) (a : Ix) : (s.bump f a).txns = s.txns := rfl
@[simp] theorem State.bump_net (s : State) (f : Fld) (a : Ix) : (s.bump f a).net = s.net := rfl
@[simp] theorem State.bump_hq (s : State) (f : Fld) (a : Ix) : (s.bump f a).hq = s.hq := rfl
@[simp] theorem State.bump_retried (s : State) (f : Fld) (a : Ix) : (s.bump f a).retried = s.retried := rfl
@[simp] theorem State.bump_unreach (s : State) (f : Fld) (a : Ix) : (s.bump f a).unreach = s.unreach := rfl
@[simp] theorem State.bump_acts (s : State) (f : Fld) (a : Ix) : (s.bump f a).acts = s.acts := rfl
@[simp] theorem State.bump_iotlb (s : State) (f : Fld) (a : Ix) : (s.bump f a).iotlb = s.iotlb := rfl
@[simp] theorem State.bump_retire (s : State) (f : Fld) (a : Ix) : (s.bump f a).retire = s.retire := rfl
@[simp] theorem State.bump_down (s : State) (f : Fld) (a : Ix) : (s.bump f a).down = s.down := rfl
@[simp] theorem State.bump_meshIn (s : State) (f : Fld) (a : Ix) : (s.bump f a).meshIn = s.meshIn := rfl
@[simp] theorem State.bump_meshReplay (s : State) (f : Fld) (a : Ix) : (s.bump f a).meshReplay = s.meshReplay := rfl
@[simp] theorem State.bump_meshDue (s : State) (f : Fld) (a : Ix) : (s.bump f a).meshDue = s.meshDue := rfl
@[simp] theorem State.bump_meshNak (s : State) (f : Fld) (a : Ix) : (s.bump f a).meshNak = s.meshNak := rfl
@[simp] theorem State.bump_mlinks (s : State) (f : Fld) (a : Ix) : (s.bump f a).mlinks = s.mlinks := rfl
@[simp] theorem State.bump_arbs (s : State) (f : Fld) (a : Ix) : (s.bump f a).arbs = s.arbs := rfl
@[simp] theorem State.bump_commitLeft (s : State) (f : Fld) (a : Ix) : (s.bump f a).commitLeft = s.commitLeft := rfl
@[simp] theorem State.bump_bucketDebt (s : State) (f : Fld) (a : Ix) : (s.bump f a).bucketDebt = s.bucketDebt := rfl
@[simp] theorem State.bump_gateQ (s : State) (f : Fld) (a : Ix) : (s.bump f a).gateQ = s.gateQ := rfl
@[simp] theorem State.bump_flues (s : State) (f : Fld) (a : Ix) : (s.bump f a).flues = s.flues := rfl
@[simp] theorem State.bump_xout (s : State) (f : Fld) (a : Ix) : (s.bump f a).xout = s.xout := rfl
@[simp] theorem State.bump_xin (s : State) (f : Fld) (a : Ix) : (s.bump f a).xin = s.xin := rfl
@[simp] theorem State.bump_reroutes (s : State) (f : Fld) (a : Ix) : (s.bump f a).reroutes = s.reroutes := rfl
@[simp] theorem State.bump_rerouteNext (s : State) (f : Fld) (a : Ix) : (s.bump f a).rerouteNext = s.rerouteNext := rfl
@[simp] theorem State.bump_flueDown (s : State) (f : Fld) (a : Ix) : (s.bump f a).flueDown = s.flueDown := rfl
@[simp] theorem State.bump_combine (s : State) (f : Fld) (a : Ix) : (s.bump f a).combine = s.combine := rfl
@[simp] theorem State.bump_txNext (s : State) (f : Fld) (a : Ix) : (s.bump f a).txNext = s.txNext := rfl
@[simp] theorem State.bump_txExp (s : State) (f : Fld) (a : Ix) : (s.bump f a).txExp = s.txExp := rfl
@[simp] theorem State.bump_txHeld (s : State) (f : Fld) (a : Ix) : (s.bump f a).txHeld = s.txHeld := rfl
@[simp] theorem State.bump_pstep (s : State) (f : Fld) (a : Ix) : (s.bump f a).pstep = s.pstep := rfl
@[simp] theorem State.bump_goShadow (s : State) (f : Fld) (a : Ix) : (s.bump f a).goShadow = s.goShadow := rfl
@[simp] theorem State.bump_chans (s : State) (f : Fld) (a : Ix) : (s.bump f a).chans = s.chans := rfl
@[simp] theorem State.bump_mcOut (s : State) (f : Fld) (a : Ix) : (s.bump f a).mcOut = s.mcOut := rfl
@[simp] theorem State.bump_stkChs (s : State) (f : Fld) (a : Ix) : (s.bump f a).stkChs = s.stkChs := rfl
@[simp] theorem State.bump_stkCells (s : State) (f : Fld) (a : Ix) : (s.bump f a).stkCells = s.stkCells := rfl
@[simp] theorem State.bump_rids (s : State) (f : Fld) (a : Ix) : (s.bump f a).rids = s.rids := rfl
@[simp] theorem State.bump_prcs (s : State) (f : Fld) (a : Ix) : (s.bump f a).prcs = s.prcs := rfl
@[simp] theorem State.bump_keyGen (s : State) (f : Fld) (a : Ix) : (s.bump f a).keyGen = s.keyGen := rfl
@[simp] theorem State.bump_handoffs (s : State) (f : Fld) (a : Ix) : (s.bump f a).handoffs = s.handoffs := rfl
@[simp] theorem State.bump_lockrecs (s : State) (f : Fld) (a : Ix) : (s.bump f a).lockrecs = s.lockrecs := rfl
@[simp] theorem State.bump_pwrs (s : State) (f : Fld) (a : Ix) : (s.bump f a).pwrs = s.pwrs := rfl
@[simp] theorem State.bump_jtags (s : State) (f : Fld) (a : Ix) : (s.bump f a).jtags = s.jtags := rfl
@[simp] theorem State.bump_mgcs (s : State) (f : Fld) (a : Ix) : (s.bump f a).mgcs = s.mgcs := rfl
@[simp] theorem State.bump_snapBase (s : State) (f : Fld) (a : Ix) : (s.bump f a).snapBase = s.snapBase := rfl
@[simp] theorem State.bump_uwraps (s : State) (f : Fld) (a : Ix) : (s.bump f a).uwraps = s.uwraps := rfl
@[simp] theorem State.bump_ubw (s : State) (f : Fld) (a : Ix) : (s.bump f a).ubw = s.ubw := rfl
@[simp] theorem State.bump_bwPend (s : State) (f : Fld) (a : Ix) : (s.bump f a).bwPend = s.bwPend := rfl
@[simp] theorem State.bump_bwClr (s : State) (f : Fld) (a : Ix) : (s.bump f a).bwClr = s.bwClr := rfl

/-! ### useFree -/

@[simp] theorem State.useFree_pending (s : State) : (s.useFree).pending = s.pending := rfl
@[simp] theorem State.useFree_time (s : State) : (s.useFree).time = s.time := rfl
@[simp] theorem State.useFree_tb (s : State) : (s.useFree).tb = s.tb := rfl
@[simp] theorem State.useFree_parts (s : State) : (s.useFree).parts = s.parts := rfl
@[simp] theorem State.useFree_straps (s : State) : (s.useFree).straps = s.straps := rfl
@[simp] theorem State.useFree_mem (s : State) : (s.useFree).mem = s.mem := rfl
@[simp] theorem State.useFree_poison (s : State) : (s.useFree).poison = s.poison := rfl
@[simp] theorem State.useFree_macBad (s : State) : (s.useFree).macBad = s.macBad := rfl
@[simp] theorem State.useFree_enc (s : State) : (s.useFree).enc = s.enc := rfl
@[simp] theorem State.useFree_owner (s : State) : (s.useFree).owner = s.owner := rfl
@[simp] theorem State.useFree_seatSr (s : State) : (s.useFree).seatSr = s.seatSr := rfl
@[simp] theorem State.useFree_regs (s : State) : (s.useFree).regs = s.regs := rfl
@[simp] theorem State.useFree_shadow (s : State) : (s.useFree).shadow = s.shadow := rfl
@[simp] theorem State.useFree_locked (s : State) : (s.useFree).locked = s.locked := rfl
@[simp] theorem State.useFree_repoch (s : State) : (s.useFree).repoch = s.repoch := rfl
@[simp] theorem State.useFree_cores (s : State) : (s.useFree).cores = s.cores := rfl
@[simp] theorem State.useFree_dirBits (s : State) : (s.useFree).dirBits = s.dirBits := rfl
@[simp] theorem State.useFree_homeOld (s : State) : (s.useFree).homeOld = s.homeOld := rfl
@[simp] theorem State.useFree_sf (s : State) : (s.useFree).sf = s.sf := rfl
@[simp] theorem State.useFree_rsc (s : State) : (s.useFree).rsc = s.rsc := rfl
@[simp] theorem State.useFree_rscG (s : State) : (s.useFree).rscG = s.rscG := rfl
@[simp] theorem State.useFree_sfUse (s : State) : (s.useFree).sfUse = s.sfUse := rfl
@[simp] theorem State.useFree_rscUse (s : State) : (s.useFree).rscUse = s.rscUse := rfl
@[simp] theorem State.useFree_sdata (s : State) : (s.useFree).sdata = s.sdata := rfl
@[simp] theorem State.useFree_held (s : State) : (s.useFree).held = s.held := rfl
@[simp] theorem State.useFree_abuf (s : State) : (s.useFree).abuf = s.abuf := rfl
@[simp] theorem State.useFree_ceCount (s : State) : (s.useFree).ceCount = s.ceCount := rfl
@[simp] theorem State.useFree_ceSupp (s : State) : (s.useFree).ceSupp = s.ceSupp := rfl
@[simp] theorem State.useFree_ashTotal (s : State) : (s.useFree).ashTotal = s.ashTotal := rfl
@[simp] theorem State.useFree_ibi (s : State) : (s.useFree).ibi = s.ibi := rfl
@[simp] theorem State.useFree_vault (s : State) : (s.useFree).vault = s.vault := rfl
@[simp] theorem State.useFree_handover (s : State) : (s.useFree).handover = s.handover := rfl
@[simp] theorem State.useFree_tlbis (s : State) : (s.useFree).tlbis = s.tlbis := rfl
@[simp] theorem State.useFree_tlbiNext (s : State) : (s.useFree).tlbiNext = s.tlbiNext := rfl
@[simp] theorem State.useFree_pafs (s : State) : (s.useFree).pafs = s.pafs := rfl
@[simp] theorem State.useFree_ipis (s : State) : (s.useFree).ipis = s.ipis := rfl
@[simp] theorem State.useFree_txns (s : State) : (s.useFree).txns = s.txns := rfl
@[simp] theorem State.useFree_net (s : State) : (s.useFree).net = s.net := rfl
@[simp] theorem State.useFree_hq (s : State) : (s.useFree).hq = s.hq := rfl
@[simp] theorem State.useFree_retried (s : State) : (s.useFree).retried = s.retried := rfl
@[simp] theorem State.useFree_unreach (s : State) : (s.useFree).unreach = s.unreach := rfl
@[simp] theorem State.useFree_acts (s : State) : (s.useFree).acts = s.acts := rfl
@[simp] theorem State.useFree_iotlb (s : State) : (s.useFree).iotlb = s.iotlb := rfl
@[simp] theorem State.useFree_retire (s : State) : (s.useFree).retire = s.retire := rfl
@[simp] theorem State.useFree_down (s : State) : (s.useFree).down = s.down := rfl
@[simp] theorem State.useFree_meshIn (s : State) : (s.useFree).meshIn = s.meshIn := rfl
@[simp] theorem State.useFree_meshReplay (s : State) : (s.useFree).meshReplay = s.meshReplay := rfl
@[simp] theorem State.useFree_meshDue (s : State) : (s.useFree).meshDue = s.meshDue := rfl
@[simp] theorem State.useFree_meshNak (s : State) : (s.useFree).meshNak = s.meshNak := rfl
@[simp] theorem State.useFree_mlinks (s : State) : (s.useFree).mlinks = s.mlinks := rfl
@[simp] theorem State.useFree_arbs (s : State) : (s.useFree).arbs = s.arbs := rfl
@[simp] theorem State.useFree_commitLeft (s : State) : (s.useFree).commitLeft = s.commitLeft := rfl
@[simp] theorem State.useFree_bucketDebt (s : State) : (s.useFree).bucketDebt = s.bucketDebt := rfl
@[simp] theorem State.useFree_gateQ (s : State) : (s.useFree).gateQ = s.gateQ := rfl
@[simp] theorem State.useFree_flues (s : State) : (s.useFree).flues = s.flues := rfl
@[simp] theorem State.useFree_xout (s : State) : (s.useFree).xout = s.xout := rfl
@[simp] theorem State.useFree_xin (s : State) : (s.useFree).xin = s.xin := rfl
@[simp] theorem State.useFree_reroutes (s : State) : (s.useFree).reroutes = s.reroutes := rfl
@[simp] theorem State.useFree_rerouteNext (s : State) : (s.useFree).rerouteNext = s.rerouteNext := rfl
@[simp] theorem State.useFree_flueDown (s : State) : (s.useFree).flueDown = s.flueDown := rfl
@[simp] theorem State.useFree_combine (s : State) : (s.useFree).combine = s.combine := rfl
@[simp] theorem State.useFree_txNext (s : State) : (s.useFree).txNext = s.txNext := rfl
@[simp] theorem State.useFree_txExp (s : State) : (s.useFree).txExp = s.txExp := rfl
@[simp] theorem State.useFree_txHeld (s : State) : (s.useFree).txHeld = s.txHeld := rfl
@[simp] theorem State.useFree_pstep (s : State) : (s.useFree).pstep = s.pstep := rfl
@[simp] theorem State.useFree_goShadow (s : State) : (s.useFree).goShadow = s.goShadow := rfl
@[simp] theorem State.useFree_chans (s : State) : (s.useFree).chans = s.chans := rfl
@[simp] theorem State.useFree_mcOut (s : State) : (s.useFree).mcOut = s.mcOut := rfl
@[simp] theorem State.useFree_stkChs (s : State) : (s.useFree).stkChs = s.stkChs := rfl
@[simp] theorem State.useFree_stkCells (s : State) : (s.useFree).stkCells = s.stkCells := rfl
@[simp] theorem State.useFree_rids (s : State) : (s.useFree).rids = s.rids := rfl
@[simp] theorem State.useFree_prcs (s : State) : (s.useFree).prcs = s.prcs := rfl
@[simp] theorem State.useFree_keyGen (s : State) : (s.useFree).keyGen = s.keyGen := rfl
@[simp] theorem State.useFree_handoffs (s : State) : (s.useFree).handoffs = s.handoffs := rfl
@[simp] theorem State.useFree_lockrecs (s : State) : (s.useFree).lockrecs = s.lockrecs := rfl
@[simp] theorem State.useFree_pwrs (s : State) : (s.useFree).pwrs = s.pwrs := rfl
@[simp] theorem State.useFree_jtags (s : State) : (s.useFree).jtags = s.jtags := rfl
@[simp] theorem State.useFree_mgcs (s : State) : (s.useFree).mgcs = s.mgcs := rfl
@[simp] theorem State.useFree_snapBase (s : State) : (s.useFree).snapBase = s.snapBase := rfl
@[simp] theorem State.useFree_uwraps (s : State) : (s.useFree).uwraps = s.uwraps := rfl
@[simp] theorem State.useFree_ubw (s : State) : (s.useFree).ubw = s.ubw := rfl
@[simp] theorem State.useFree_bwPend (s : State) : (s.useFree).bwPend = s.bwPend := rfl
@[simp] theorem State.useFree_bwClr (s : State) : (s.useFree).bwClr = s.bwClr := rfl

/-! ### enqueueFront -/

@[simp] theorem State.enqueueFront_free (s : State) (i : Instr) : (s.enqueueFront i).free = s.free := rfl
@[simp] theorem State.enqueueFront_time (s : State) (i : Instr) : (s.enqueueFront i).time = s.time := rfl
@[simp] theorem State.enqueueFront_tb (s : State) (i : Instr) : (s.enqueueFront i).tb = s.tb := rfl
@[simp] theorem State.enqueueFront_parts (s : State) (i : Instr) : (s.enqueueFront i).parts = s.parts := rfl
@[simp] theorem State.enqueueFront_straps (s : State) (i : Instr) : (s.enqueueFront i).straps = s.straps := rfl
@[simp] theorem State.enqueueFront_mem (s : State) (i : Instr) : (s.enqueueFront i).mem = s.mem := rfl
@[simp] theorem State.enqueueFront_poison (s : State) (i : Instr) : (s.enqueueFront i).poison = s.poison := rfl
@[simp] theorem State.enqueueFront_macBad (s : State) (i : Instr) : (s.enqueueFront i).macBad = s.macBad := rfl
@[simp] theorem State.enqueueFront_enc (s : State) (i : Instr) : (s.enqueueFront i).enc = s.enc := rfl
@[simp] theorem State.enqueueFront_owner (s : State) (i : Instr) : (s.enqueueFront i).owner = s.owner := rfl
@[simp] theorem State.enqueueFront_seatSr (s : State) (i : Instr) : (s.enqueueFront i).seatSr = s.seatSr := rfl
@[simp] theorem State.enqueueFront_regs (s : State) (i : Instr) : (s.enqueueFront i).regs = s.regs := rfl
@[simp] theorem State.enqueueFront_shadow (s : State) (i : Instr) : (s.enqueueFront i).shadow = s.shadow := rfl
@[simp] theorem State.enqueueFront_locked (s : State) (i : Instr) : (s.enqueueFront i).locked = s.locked := rfl
@[simp] theorem State.enqueueFront_repoch (s : State) (i : Instr) : (s.enqueueFront i).repoch = s.repoch := rfl
@[simp] theorem State.enqueueFront_cores (s : State) (i : Instr) : (s.enqueueFront i).cores = s.cores := rfl
@[simp] theorem State.enqueueFront_dirBits (s : State) (i : Instr) : (s.enqueueFront i).dirBits = s.dirBits := rfl
@[simp] theorem State.enqueueFront_homeOld (s : State) (i : Instr) : (s.enqueueFront i).homeOld = s.homeOld := rfl
@[simp] theorem State.enqueueFront_sf (s : State) (i : Instr) : (s.enqueueFront i).sf = s.sf := rfl
@[simp] theorem State.enqueueFront_rsc (s : State) (i : Instr) : (s.enqueueFront i).rsc = s.rsc := rfl
@[simp] theorem State.enqueueFront_rscG (s : State) (i : Instr) : (s.enqueueFront i).rscG = s.rscG := rfl
@[simp] theorem State.enqueueFront_sfUse (s : State) (i : Instr) : (s.enqueueFront i).sfUse = s.sfUse := rfl
@[simp] theorem State.enqueueFront_rscUse (s : State) (i : Instr) : (s.enqueueFront i).rscUse = s.rscUse := rfl
@[simp] theorem State.enqueueFront_sdata (s : State) (i : Instr) : (s.enqueueFront i).sdata = s.sdata := rfl
@[simp] theorem State.enqueueFront_held (s : State) (i : Instr) : (s.enqueueFront i).held = s.held := rfl
@[simp] theorem State.enqueueFront_abuf (s : State) (i : Instr) : (s.enqueueFront i).abuf = s.abuf := rfl
@[simp] theorem State.enqueueFront_ceCount (s : State) (i : Instr) : (s.enqueueFront i).ceCount = s.ceCount := rfl
@[simp] theorem State.enqueueFront_ceSupp (s : State) (i : Instr) : (s.enqueueFront i).ceSupp = s.ceSupp := rfl
@[simp] theorem State.enqueueFront_ashTotal (s : State) (i : Instr) : (s.enqueueFront i).ashTotal = s.ashTotal := rfl
@[simp] theorem State.enqueueFront_ibi (s : State) (i : Instr) : (s.enqueueFront i).ibi = s.ibi := rfl
@[simp] theorem State.enqueueFront_vault (s : State) (i : Instr) : (s.enqueueFront i).vault = s.vault := rfl
@[simp] theorem State.enqueueFront_handover (s : State) (i : Instr) : (s.enqueueFront i).handover = s.handover := rfl
@[simp] theorem State.enqueueFront_tlbis (s : State) (i : Instr) : (s.enqueueFront i).tlbis = s.tlbis := rfl
@[simp] theorem State.enqueueFront_tlbiNext (s : State) (i : Instr) : (s.enqueueFront i).tlbiNext = s.tlbiNext := rfl
@[simp] theorem State.enqueueFront_pafs (s : State) (i : Instr) : (s.enqueueFront i).pafs = s.pafs := rfl
@[simp] theorem State.enqueueFront_ipis (s : State) (i : Instr) : (s.enqueueFront i).ipis = s.ipis := rfl
@[simp] theorem State.enqueueFront_txns (s : State) (i : Instr) : (s.enqueueFront i).txns = s.txns := rfl
@[simp] theorem State.enqueueFront_net (s : State) (i : Instr) : (s.enqueueFront i).net = s.net := rfl
@[simp] theorem State.enqueueFront_hq (s : State) (i : Instr) : (s.enqueueFront i).hq = s.hq := rfl
@[simp] theorem State.enqueueFront_retried (s : State) (i : Instr) : (s.enqueueFront i).retried = s.retried := rfl
@[simp] theorem State.enqueueFront_unreach (s : State) (i : Instr) : (s.enqueueFront i).unreach = s.unreach := rfl
@[simp] theorem State.enqueueFront_acts (s : State) (i : Instr) : (s.enqueueFront i).acts = s.acts := rfl
@[simp] theorem State.enqueueFront_iotlb (s : State) (i : Instr) : (s.enqueueFront i).iotlb = s.iotlb := rfl
@[simp] theorem State.enqueueFront_retire (s : State) (i : Instr) : (s.enqueueFront i).retire = s.retire := rfl
@[simp] theorem State.enqueueFront_down (s : State) (i : Instr) : (s.enqueueFront i).down = s.down := rfl
@[simp] theorem State.enqueueFront_meshIn (s : State) (i : Instr) : (s.enqueueFront i).meshIn = s.meshIn := rfl
@[simp] theorem State.enqueueFront_meshReplay (s : State) (i : Instr) : (s.enqueueFront i).meshReplay = s.meshReplay := rfl
@[simp] theorem State.enqueueFront_meshDue (s : State) (i : Instr) : (s.enqueueFront i).meshDue = s.meshDue := rfl
@[simp] theorem State.enqueueFront_meshNak (s : State) (i : Instr) : (s.enqueueFront i).meshNak = s.meshNak := rfl
@[simp] theorem State.enqueueFront_mlinks (s : State) (i : Instr) : (s.enqueueFront i).mlinks = s.mlinks := rfl
@[simp] theorem State.enqueueFront_arbs (s : State) (i : Instr) : (s.enqueueFront i).arbs = s.arbs := rfl
@[simp] theorem State.enqueueFront_commitLeft (s : State) (i : Instr) : (s.enqueueFront i).commitLeft = s.commitLeft := rfl
@[simp] theorem State.enqueueFront_bucketDebt (s : State) (i : Instr) : (s.enqueueFront i).bucketDebt = s.bucketDebt := rfl
@[simp] theorem State.enqueueFront_gateQ (s : State) (i : Instr) : (s.enqueueFront i).gateQ = s.gateQ := rfl
@[simp] theorem State.enqueueFront_flues (s : State) (i : Instr) : (s.enqueueFront i).flues = s.flues := rfl
@[simp] theorem State.enqueueFront_xout (s : State) (i : Instr) : (s.enqueueFront i).xout = s.xout := rfl
@[simp] theorem State.enqueueFront_xin (s : State) (i : Instr) : (s.enqueueFront i).xin = s.xin := rfl
@[simp] theorem State.enqueueFront_reroutes (s : State) (i : Instr) : (s.enqueueFront i).reroutes = s.reroutes := rfl
@[simp] theorem State.enqueueFront_rerouteNext (s : State) (i : Instr) : (s.enqueueFront i).rerouteNext = s.rerouteNext := rfl
@[simp] theorem State.enqueueFront_flueDown (s : State) (i : Instr) : (s.enqueueFront i).flueDown = s.flueDown := rfl
@[simp] theorem State.enqueueFront_combine (s : State) (i : Instr) : (s.enqueueFront i).combine = s.combine := rfl
@[simp] theorem State.enqueueFront_txNext (s : State) (i : Instr) : (s.enqueueFront i).txNext = s.txNext := rfl
@[simp] theorem State.enqueueFront_txExp (s : State) (i : Instr) : (s.enqueueFront i).txExp = s.txExp := rfl
@[simp] theorem State.enqueueFront_txHeld (s : State) (i : Instr) : (s.enqueueFront i).txHeld = s.txHeld := rfl
@[simp] theorem State.enqueueFront_pstep (s : State) (i : Instr) : (s.enqueueFront i).pstep = s.pstep := rfl
@[simp] theorem State.enqueueFront_goShadow (s : State) (i : Instr) : (s.enqueueFront i).goShadow = s.goShadow := rfl
@[simp] theorem State.enqueueFront_chans (s : State) (i : Instr) : (s.enqueueFront i).chans = s.chans := rfl
@[simp] theorem State.enqueueFront_mcOut (s : State) (i : Instr) : (s.enqueueFront i).mcOut = s.mcOut := rfl
@[simp] theorem State.enqueueFront_stkChs (s : State) (i : Instr) : (s.enqueueFront i).stkChs = s.stkChs := rfl
@[simp] theorem State.enqueueFront_stkCells (s : State) (i : Instr) : (s.enqueueFront i).stkCells = s.stkCells := rfl
@[simp] theorem State.enqueueFront_rids (s : State) (i : Instr) : (s.enqueueFront i).rids = s.rids := rfl
@[simp] theorem State.enqueueFront_prcs (s : State) (i : Instr) : (s.enqueueFront i).prcs = s.prcs := rfl
@[simp] theorem State.enqueueFront_keyGen (s : State) (i : Instr) : (s.enqueueFront i).keyGen = s.keyGen := rfl
@[simp] theorem State.enqueueFront_handoffs (s : State) (i : Instr) : (s.enqueueFront i).handoffs = s.handoffs := rfl
@[simp] theorem State.enqueueFront_lockrecs (s : State) (i : Instr) : (s.enqueueFront i).lockrecs = s.lockrecs := rfl
@[simp] theorem State.enqueueFront_pwrs (s : State) (i : Instr) : (s.enqueueFront i).pwrs = s.pwrs := rfl
@[simp] theorem State.enqueueFront_jtags (s : State) (i : Instr) : (s.enqueueFront i).jtags = s.jtags := rfl
@[simp] theorem State.enqueueFront_mgcs (s : State) (i : Instr) : (s.enqueueFront i).mgcs = s.mgcs := rfl
@[simp] theorem State.enqueueFront_snapBase (s : State) (i : Instr) : (s.enqueueFront i).snapBase = s.snapBase := rfl
@[simp] theorem State.enqueueFront_uwraps (s : State) (i : Instr) : (s.enqueueFront i).uwraps = s.uwraps := rfl
@[simp] theorem State.enqueueFront_ubw (s : State) (i : Instr) : (s.enqueueFront i).ubw = s.ubw := rfl
@[simp] theorem State.enqueueFront_bwPend (s : State) (i : Instr) : (s.enqueueFront i).bwPend = s.bwPend := rfl
@[simp] theorem State.enqueueFront_bwClr (s : State) (i : Instr) : (s.enqueueFront i).bwClr = s.bwClr := rfl

/-! ### setG -/

@[simp] theorem State.setG_pending (s : State) (c : Nat) (r : Reg5) (x : Word) : (s.setG c r x).pending = s.pending := rfl
@[simp] theorem State.setG_free (s : State) (c : Nat) (r : Reg5) (x : Word) : (s.setG c r x).free = s.free := rfl
@[simp] theorem State.setG_time (s : State) (c : Nat) (r : Reg5) (x : Word) : (s.setG c r x).time = s.time := rfl
@[simp] theorem State.setG_tb (s : State) (c : Nat) (r : Reg5) (x : Word) : (s.setG c r x).tb = s.tb := rfl
@[simp] theorem State.setG_parts (s : State) (c : Nat) (r : Reg5) (x : Word) : (s.setG c r x).parts = s.parts := rfl
@[simp] theorem State.setG_straps (s : State) (c : Nat) (r : Reg5) (x : Word) : (s.setG c r x).straps = s.straps := rfl
@[simp] theorem State.setG_mem (s : State) (c : Nat) (r : Reg5) (x : Word) : (s.setG c r x).mem = s.mem := rfl
@[simp] theorem State.setG_poison (s : State) (c : Nat) (r : Reg5) (x : Word) : (s.setG c r x).poison = s.poison := rfl
@[simp] theorem State.setG_macBad (s : State) (c : Nat) (r : Reg5) (x : Word) : (s.setG c r x).macBad = s.macBad := rfl
@[simp] theorem State.setG_enc (s : State) (c : Nat) (r : Reg5) (x : Word) : (s.setG c r x).enc = s.enc := rfl
@[simp] theorem State.setG_owner (s : State) (c : Nat) (r : Reg5) (x : Word) : (s.setG c r x).owner = s.owner := rfl
@[simp] theorem State.setG_seatSr (s : State) (c : Nat) (r : Reg5) (x : Word) : (s.setG c r x).seatSr = s.seatSr := rfl
@[simp] theorem State.setG_regs (s : State) (c : Nat) (r : Reg5) (x : Word) : (s.setG c r x).regs = s.regs := rfl
@[simp] theorem State.setG_shadow (s : State) (c : Nat) (r : Reg5) (x : Word) : (s.setG c r x).shadow = s.shadow := rfl
@[simp] theorem State.setG_locked (s : State) (c : Nat) (r : Reg5) (x : Word) : (s.setG c r x).locked = s.locked := rfl
@[simp] theorem State.setG_repoch (s : State) (c : Nat) (r : Reg5) (x : Word) : (s.setG c r x).repoch = s.repoch := rfl
@[simp] theorem State.setG_dirBits (s : State) (c : Nat) (r : Reg5) (x : Word) : (s.setG c r x).dirBits = s.dirBits := rfl
@[simp] theorem State.setG_homeOld (s : State) (c : Nat) (r : Reg5) (x : Word) : (s.setG c r x).homeOld = s.homeOld := rfl
@[simp] theorem State.setG_sf (s : State) (c : Nat) (r : Reg5) (x : Word) : (s.setG c r x).sf = s.sf := rfl
@[simp] theorem State.setG_rsc (s : State) (c : Nat) (r : Reg5) (x : Word) : (s.setG c r x).rsc = s.rsc := rfl
@[simp] theorem State.setG_rscG (s : State) (c : Nat) (r : Reg5) (x : Word) : (s.setG c r x).rscG = s.rscG := rfl
@[simp] theorem State.setG_sfUse (s : State) (c : Nat) (r : Reg5) (x : Word) : (s.setG c r x).sfUse = s.sfUse := rfl
@[simp] theorem State.setG_rscUse (s : State) (c : Nat) (r : Reg5) (x : Word) : (s.setG c r x).rscUse = s.rscUse := rfl
@[simp] theorem State.setG_sdata (s : State) (c : Nat) (r : Reg5) (x : Word) : (s.setG c r x).sdata = s.sdata := rfl
@[simp] theorem State.setG_held (s : State) (c : Nat) (r : Reg5) (x : Word) : (s.setG c r x).held = s.held := rfl
@[simp] theorem State.setG_abuf (s : State) (c : Nat) (r : Reg5) (x : Word) : (s.setG c r x).abuf = s.abuf := rfl
@[simp] theorem State.setG_ceCount (s : State) (c : Nat) (r : Reg5) (x : Word) : (s.setG c r x).ceCount = s.ceCount := rfl
@[simp] theorem State.setG_ceSupp (s : State) (c : Nat) (r : Reg5) (x : Word) : (s.setG c r x).ceSupp = s.ceSupp := rfl
@[simp] theorem State.setG_ashTotal (s : State) (c : Nat) (r : Reg5) (x : Word) : (s.setG c r x).ashTotal = s.ashTotal := rfl
@[simp] theorem State.setG_ibi (s : State) (c : Nat) (r : Reg5) (x : Word) : (s.setG c r x).ibi = s.ibi := rfl
@[simp] theorem State.setG_vault (s : State) (c : Nat) (r : Reg5) (x : Word) : (s.setG c r x).vault = s.vault := rfl
@[simp] theorem State.setG_handover (s : State) (c : Nat) (r : Reg5) (x : Word) : (s.setG c r x).handover = s.handover := rfl
@[simp] theorem State.setG_tlbis (s : State) (c : Nat) (r : Reg5) (x : Word) : (s.setG c r x).tlbis = s.tlbis := rfl
@[simp] theorem State.setG_tlbiNext (s : State) (c : Nat) (r : Reg5) (x : Word) : (s.setG c r x).tlbiNext = s.tlbiNext := rfl
@[simp] theorem State.setG_pafs (s : State) (c : Nat) (r : Reg5) (x : Word) : (s.setG c r x).pafs = s.pafs := rfl
@[simp] theorem State.setG_ipis (s : State) (c : Nat) (r : Reg5) (x : Word) : (s.setG c r x).ipis = s.ipis := rfl
@[simp] theorem State.setG_txns (s : State) (c : Nat) (r : Reg5) (x : Word) : (s.setG c r x).txns = s.txns := rfl
@[simp] theorem State.setG_net (s : State) (c : Nat) (r : Reg5) (x : Word) : (s.setG c r x).net = s.net := rfl
@[simp] theorem State.setG_hq (s : State) (c : Nat) (r : Reg5) (x : Word) : (s.setG c r x).hq = s.hq := rfl
@[simp] theorem State.setG_retried (s : State) (c : Nat) (r : Reg5) (x : Word) : (s.setG c r x).retried = s.retried := rfl
@[simp] theorem State.setG_unreach (s : State) (c : Nat) (r : Reg5) (x : Word) : (s.setG c r x).unreach = s.unreach := rfl
@[simp] theorem State.setG_acts (s : State) (c : Nat) (r : Reg5) (x : Word) : (s.setG c r x).acts = s.acts := rfl
@[simp] theorem State.setG_iotlb (s : State) (c : Nat) (r : Reg5) (x : Word) : (s.setG c r x).iotlb = s.iotlb := rfl
@[simp] theorem State.setG_retire (s : State) (c : Nat) (r : Reg5) (x : Word) : (s.setG c r x).retire = s.retire := rfl
@[simp] theorem State.setG_down (s : State) (c : Nat) (r : Reg5) (x : Word) : (s.setG c r x).down = s.down := rfl
@[simp] theorem State.setG_meshIn (s : State) (c : Nat) (r : Reg5) (x : Word) : (s.setG c r x).meshIn = s.meshIn := rfl
@[simp] theorem State.setG_meshReplay (s : State) (c : Nat) (r : Reg5) (x : Word) : (s.setG c r x).meshReplay = s.meshReplay := rfl
@[simp] theorem State.setG_meshDue (s : State) (c : Nat) (r : Reg5) (x : Word) : (s.setG c r x).meshDue = s.meshDue := rfl
@[simp] theorem State.setG_meshNak (s : State) (c : Nat) (r : Reg5) (x : Word) : (s.setG c r x).meshNak = s.meshNak := rfl
@[simp] theorem State.setG_mlinks (s : State) (c : Nat) (r : Reg5) (x : Word) : (s.setG c r x).mlinks = s.mlinks := rfl
@[simp] theorem State.setG_arbs (s : State) (c : Nat) (r : Reg5) (x : Word) : (s.setG c r x).arbs = s.arbs := rfl
@[simp] theorem State.setG_commitLeft (s : State) (c : Nat) (r : Reg5) (x : Word) : (s.setG c r x).commitLeft = s.commitLeft := rfl
@[simp] theorem State.setG_bucketDebt (s : State) (c : Nat) (r : Reg5) (x : Word) : (s.setG c r x).bucketDebt = s.bucketDebt := rfl
@[simp] theorem State.setG_gateQ (s : State) (c : Nat) (r : Reg5) (x : Word) : (s.setG c r x).gateQ = s.gateQ := rfl
@[simp] theorem State.setG_flues (s : State) (c : Nat) (r : Reg5) (x : Word) : (s.setG c r x).flues = s.flues := rfl
@[simp] theorem State.setG_xout (s : State) (c : Nat) (r : Reg5) (x : Word) : (s.setG c r x).xout = s.xout := rfl
@[simp] theorem State.setG_xin (s : State) (c : Nat) (r : Reg5) (x : Word) : (s.setG c r x).xin = s.xin := rfl
@[simp] theorem State.setG_reroutes (s : State) (c : Nat) (r : Reg5) (x : Word) : (s.setG c r x).reroutes = s.reroutes := rfl
@[simp] theorem State.setG_rerouteNext (s : State) (c : Nat) (r : Reg5) (x : Word) : (s.setG c r x).rerouteNext = s.rerouteNext := rfl
@[simp] theorem State.setG_flueDown (s : State) (c : Nat) (r : Reg5) (x : Word) : (s.setG c r x).flueDown = s.flueDown := rfl
@[simp] theorem State.setG_combine (s : State) (c : Nat) (r : Reg5) (x : Word) : (s.setG c r x).combine = s.combine := rfl
@[simp] theorem State.setG_txNext (s : State) (c : Nat) (r : Reg5) (x : Word) : (s.setG c r x).txNext = s.txNext := rfl
@[simp] theorem State.setG_txExp (s : State) (c : Nat) (r : Reg5) (x : Word) : (s.setG c r x).txExp = s.txExp := rfl
@[simp] theorem State.setG_txHeld (s : State) (c : Nat) (r : Reg5) (x : Word) : (s.setG c r x).txHeld = s.txHeld := rfl
@[simp] theorem State.setG_pstep (s : State) (c : Nat) (r : Reg5) (x : Word) : (s.setG c r x).pstep = s.pstep := rfl
@[simp] theorem State.setG_goShadow (s : State) (c : Nat) (r : Reg5) (x : Word) : (s.setG c r x).goShadow = s.goShadow := rfl
@[simp] theorem State.setG_chans (s : State) (c : Nat) (r : Reg5) (x : Word) : (s.setG c r x).chans = s.chans := rfl
@[simp] theorem State.setG_mcOut (s : State) (c : Nat) (r : Reg5) (x : Word) : (s.setG c r x).mcOut = s.mcOut := rfl
@[simp] theorem State.setG_stkChs (s : State) (c : Nat) (r : Reg5) (x : Word) : (s.setG c r x).stkChs = s.stkChs := rfl
@[simp] theorem State.setG_stkCells (s : State) (c : Nat) (r : Reg5) (x : Word) : (s.setG c r x).stkCells = s.stkCells := rfl
@[simp] theorem State.setG_rids (s : State) (c : Nat) (r : Reg5) (x : Word) : (s.setG c r x).rids = s.rids := rfl
@[simp] theorem State.setG_prcs (s : State) (c : Nat) (r : Reg5) (x : Word) : (s.setG c r x).prcs = s.prcs := rfl
@[simp] theorem State.setG_keyGen (s : State) (c : Nat) (r : Reg5) (x : Word) : (s.setG c r x).keyGen = s.keyGen := rfl
@[simp] theorem State.setG_handoffs (s : State) (c : Nat) (r : Reg5) (x : Word) : (s.setG c r x).handoffs = s.handoffs := rfl
@[simp] theorem State.setG_lockrecs (s : State) (c : Nat) (r : Reg5) (x : Word) : (s.setG c r x).lockrecs = s.lockrecs := rfl
@[simp] theorem State.setG_pwrs (s : State) (c : Nat) (r : Reg5) (x : Word) : (s.setG c r x).pwrs = s.pwrs := rfl
@[simp] theorem State.setG_jtags (s : State) (c : Nat) (r : Reg5) (x : Word) : (s.setG c r x).jtags = s.jtags := rfl
@[simp] theorem State.setG_mgcs (s : State) (c : Nat) (r : Reg5) (x : Word) : (s.setG c r x).mgcs = s.mgcs := rfl
@[simp] theorem State.setG_snapBase (s : State) (c : Nat) (r : Reg5) (x : Word) : (s.setG c r x).snapBase = s.snapBase := rfl
@[simp] theorem State.setG_uwraps (s : State) (c : Nat) (r : Reg5) (x : Word) : (s.setG c r x).uwraps = s.uwraps := rfl
@[simp] theorem State.setG_ubw (s : State) (c : Nat) (r : Reg5) (x : Word) : (s.setG c r x).ubw = s.ubw := rfl
@[simp] theorem State.setG_bwPend (s : State) (c : Nat) (r : Reg5) (x : Word) : (s.setG c r x).bwPend = s.bwPend := rfl
@[simp] theorem State.setG_bwClr (s : State) (c : Nat) (r : Reg5) (x : Word) : (s.setG c r x).bwClr = s.bwClr := rfl

/-! ### setV -/

@[simp] theorem State.setV_pending (s : State) (c : Nat) (r : Reg5) (x : Vec) : (s.setV c r x).pending = s.pending := rfl
@[simp] theorem State.setV_free (s : State) (c : Nat) (r : Reg5) (x : Vec) : (s.setV c r x).free = s.free := rfl
@[simp] theorem State.setV_time (s : State) (c : Nat) (r : Reg5) (x : Vec) : (s.setV c r x).time = s.time := rfl
@[simp] theorem State.setV_tb (s : State) (c : Nat) (r : Reg5) (x : Vec) : (s.setV c r x).tb = s.tb := rfl
@[simp] theorem State.setV_parts (s : State) (c : Nat) (r : Reg5) (x : Vec) : (s.setV c r x).parts = s.parts := rfl
@[simp] theorem State.setV_straps (s : State) (c : Nat) (r : Reg5) (x : Vec) : (s.setV c r x).straps = s.straps := rfl
@[simp] theorem State.setV_mem (s : State) (c : Nat) (r : Reg5) (x : Vec) : (s.setV c r x).mem = s.mem := rfl
@[simp] theorem State.setV_poison (s : State) (c : Nat) (r : Reg5) (x : Vec) : (s.setV c r x).poison = s.poison := rfl
@[simp] theorem State.setV_macBad (s : State) (c : Nat) (r : Reg5) (x : Vec) : (s.setV c r x).macBad = s.macBad := rfl
@[simp] theorem State.setV_enc (s : State) (c : Nat) (r : Reg5) (x : Vec) : (s.setV c r x).enc = s.enc := rfl
@[simp] theorem State.setV_owner (s : State) (c : Nat) (r : Reg5) (x : Vec) : (s.setV c r x).owner = s.owner := rfl
@[simp] theorem State.setV_seatSr (s : State) (c : Nat) (r : Reg5) (x : Vec) : (s.setV c r x).seatSr = s.seatSr := rfl
@[simp] theorem State.setV_regs (s : State) (c : Nat) (r : Reg5) (x : Vec) : (s.setV c r x).regs = s.regs := rfl
@[simp] theorem State.setV_shadow (s : State) (c : Nat) (r : Reg5) (x : Vec) : (s.setV c r x).shadow = s.shadow := rfl
@[simp] theorem State.setV_locked (s : State) (c : Nat) (r : Reg5) (x : Vec) : (s.setV c r x).locked = s.locked := rfl
@[simp] theorem State.setV_repoch (s : State) (c : Nat) (r : Reg5) (x : Vec) : (s.setV c r x).repoch = s.repoch := rfl
@[simp] theorem State.setV_dirBits (s : State) (c : Nat) (r : Reg5) (x : Vec) : (s.setV c r x).dirBits = s.dirBits := rfl
@[simp] theorem State.setV_homeOld (s : State) (c : Nat) (r : Reg5) (x : Vec) : (s.setV c r x).homeOld = s.homeOld := rfl
@[simp] theorem State.setV_sf (s : State) (c : Nat) (r : Reg5) (x : Vec) : (s.setV c r x).sf = s.sf := rfl
@[simp] theorem State.setV_rsc (s : State) (c : Nat) (r : Reg5) (x : Vec) : (s.setV c r x).rsc = s.rsc := rfl
@[simp] theorem State.setV_rscG (s : State) (c : Nat) (r : Reg5) (x : Vec) : (s.setV c r x).rscG = s.rscG := rfl
@[simp] theorem State.setV_sfUse (s : State) (c : Nat) (r : Reg5) (x : Vec) : (s.setV c r x).sfUse = s.sfUse := rfl
@[simp] theorem State.setV_rscUse (s : State) (c : Nat) (r : Reg5) (x : Vec) : (s.setV c r x).rscUse = s.rscUse := rfl
@[simp] theorem State.setV_sdata (s : State) (c : Nat) (r : Reg5) (x : Vec) : (s.setV c r x).sdata = s.sdata := rfl
@[simp] theorem State.setV_held (s : State) (c : Nat) (r : Reg5) (x : Vec) : (s.setV c r x).held = s.held := rfl
@[simp] theorem State.setV_abuf (s : State) (c : Nat) (r : Reg5) (x : Vec) : (s.setV c r x).abuf = s.abuf := rfl
@[simp] theorem State.setV_ceCount (s : State) (c : Nat) (r : Reg5) (x : Vec) : (s.setV c r x).ceCount = s.ceCount := rfl
@[simp] theorem State.setV_ceSupp (s : State) (c : Nat) (r : Reg5) (x : Vec) : (s.setV c r x).ceSupp = s.ceSupp := rfl
@[simp] theorem State.setV_ashTotal (s : State) (c : Nat) (r : Reg5) (x : Vec) : (s.setV c r x).ashTotal = s.ashTotal := rfl
@[simp] theorem State.setV_ibi (s : State) (c : Nat) (r : Reg5) (x : Vec) : (s.setV c r x).ibi = s.ibi := rfl
@[simp] theorem State.setV_vault (s : State) (c : Nat) (r : Reg5) (x : Vec) : (s.setV c r x).vault = s.vault := rfl
@[simp] theorem State.setV_handover (s : State) (c : Nat) (r : Reg5) (x : Vec) : (s.setV c r x).handover = s.handover := rfl
@[simp] theorem State.setV_tlbis (s : State) (c : Nat) (r : Reg5) (x : Vec) : (s.setV c r x).tlbis = s.tlbis := rfl
@[simp] theorem State.setV_tlbiNext (s : State) (c : Nat) (r : Reg5) (x : Vec) : (s.setV c r x).tlbiNext = s.tlbiNext := rfl
@[simp] theorem State.setV_pafs (s : State) (c : Nat) (r : Reg5) (x : Vec) : (s.setV c r x).pafs = s.pafs := rfl
@[simp] theorem State.setV_ipis (s : State) (c : Nat) (r : Reg5) (x : Vec) : (s.setV c r x).ipis = s.ipis := rfl
@[simp] theorem State.setV_txns (s : State) (c : Nat) (r : Reg5) (x : Vec) : (s.setV c r x).txns = s.txns := rfl
@[simp] theorem State.setV_net (s : State) (c : Nat) (r : Reg5) (x : Vec) : (s.setV c r x).net = s.net := rfl
@[simp] theorem State.setV_hq (s : State) (c : Nat) (r : Reg5) (x : Vec) : (s.setV c r x).hq = s.hq := rfl
@[simp] theorem State.setV_retried (s : State) (c : Nat) (r : Reg5) (x : Vec) : (s.setV c r x).retried = s.retried := rfl
@[simp] theorem State.setV_unreach (s : State) (c : Nat) (r : Reg5) (x : Vec) : (s.setV c r x).unreach = s.unreach := rfl
@[simp] theorem State.setV_acts (s : State) (c : Nat) (r : Reg5) (x : Vec) : (s.setV c r x).acts = s.acts := rfl
@[simp] theorem State.setV_iotlb (s : State) (c : Nat) (r : Reg5) (x : Vec) : (s.setV c r x).iotlb = s.iotlb := rfl
@[simp] theorem State.setV_retire (s : State) (c : Nat) (r : Reg5) (x : Vec) : (s.setV c r x).retire = s.retire := rfl
@[simp] theorem State.setV_down (s : State) (c : Nat) (r : Reg5) (x : Vec) : (s.setV c r x).down = s.down := rfl
@[simp] theorem State.setV_meshIn (s : State) (c : Nat) (r : Reg5) (x : Vec) : (s.setV c r x).meshIn = s.meshIn := rfl
@[simp] theorem State.setV_meshReplay (s : State) (c : Nat) (r : Reg5) (x : Vec) : (s.setV c r x).meshReplay = s.meshReplay := rfl
@[simp] theorem State.setV_meshDue (s : State) (c : Nat) (r : Reg5) (x : Vec) : (s.setV c r x).meshDue = s.meshDue := rfl
@[simp] theorem State.setV_meshNak (s : State) (c : Nat) (r : Reg5) (x : Vec) : (s.setV c r x).meshNak = s.meshNak := rfl
@[simp] theorem State.setV_mlinks (s : State) (c : Nat) (r : Reg5) (x : Vec) : (s.setV c r x).mlinks = s.mlinks := rfl
@[simp] theorem State.setV_arbs (s : State) (c : Nat) (r : Reg5) (x : Vec) : (s.setV c r x).arbs = s.arbs := rfl
@[simp] theorem State.setV_commitLeft (s : State) (c : Nat) (r : Reg5) (x : Vec) : (s.setV c r x).commitLeft = s.commitLeft := rfl
@[simp] theorem State.setV_bucketDebt (s : State) (c : Nat) (r : Reg5) (x : Vec) : (s.setV c r x).bucketDebt = s.bucketDebt := rfl
@[simp] theorem State.setV_gateQ (s : State) (c : Nat) (r : Reg5) (x : Vec) : (s.setV c r x).gateQ = s.gateQ := rfl
@[simp] theorem State.setV_flues (s : State) (c : Nat) (r : Reg5) (x : Vec) : (s.setV c r x).flues = s.flues := rfl
@[simp] theorem State.setV_xout (s : State) (c : Nat) (r : Reg5) (x : Vec) : (s.setV c r x).xout = s.xout := rfl
@[simp] theorem State.setV_xin (s : State) (c : Nat) (r : Reg5) (x : Vec) : (s.setV c r x).xin = s.xin := rfl
@[simp] theorem State.setV_reroutes (s : State) (c : Nat) (r : Reg5) (x : Vec) : (s.setV c r x).reroutes = s.reroutes := rfl
@[simp] theorem State.setV_rerouteNext (s : State) (c : Nat) (r : Reg5) (x : Vec) : (s.setV c r x).rerouteNext = s.rerouteNext := rfl
@[simp] theorem State.setV_flueDown (s : State) (c : Nat) (r : Reg5) (x : Vec) : (s.setV c r x).flueDown = s.flueDown := rfl
@[simp] theorem State.setV_combine (s : State) (c : Nat) (r : Reg5) (x : Vec) : (s.setV c r x).combine = s.combine := rfl
@[simp] theorem State.setV_txNext (s : State) (c : Nat) (r : Reg5) (x : Vec) : (s.setV c r x).txNext = s.txNext := rfl
@[simp] theorem State.setV_txExp (s : State) (c : Nat) (r : Reg5) (x : Vec) : (s.setV c r x).txExp = s.txExp := rfl
@[simp] theorem State.setV_txHeld (s : State) (c : Nat) (r : Reg5) (x : Vec) : (s.setV c r x).txHeld = s.txHeld := rfl
@[simp] theorem State.setV_pstep (s : State) (c : Nat) (r : Reg5) (x : Vec) : (s.setV c r x).pstep = s.pstep := rfl
@[simp] theorem State.setV_goShadow (s : State) (c : Nat) (r : Reg5) (x : Vec) : (s.setV c r x).goShadow = s.goShadow := rfl
@[simp] theorem State.setV_chans (s : State) (c : Nat) (r : Reg5) (x : Vec) : (s.setV c r x).chans = s.chans := rfl
@[simp] theorem State.setV_mcOut (s : State) (c : Nat) (r : Reg5) (x : Vec) : (s.setV c r x).mcOut = s.mcOut := rfl
@[simp] theorem State.setV_stkChs (s : State) (c : Nat) (r : Reg5) (x : Vec) : (s.setV c r x).stkChs = s.stkChs := rfl
@[simp] theorem State.setV_stkCells (s : State) (c : Nat) (r : Reg5) (x : Vec) : (s.setV c r x).stkCells = s.stkCells := rfl
@[simp] theorem State.setV_rids (s : State) (c : Nat) (r : Reg5) (x : Vec) : (s.setV c r x).rids = s.rids := rfl
@[simp] theorem State.setV_prcs (s : State) (c : Nat) (r : Reg5) (x : Vec) : (s.setV c r x).prcs = s.prcs := rfl
@[simp] theorem State.setV_keyGen (s : State) (c : Nat) (r : Reg5) (x : Vec) : (s.setV c r x).keyGen = s.keyGen := rfl
@[simp] theorem State.setV_handoffs (s : State) (c : Nat) (r : Reg5) (x : Vec) : (s.setV c r x).handoffs = s.handoffs := rfl
@[simp] theorem State.setV_lockrecs (s : State) (c : Nat) (r : Reg5) (x : Vec) : (s.setV c r x).lockrecs = s.lockrecs := rfl
@[simp] theorem State.setV_pwrs (s : State) (c : Nat) (r : Reg5) (x : Vec) : (s.setV c r x).pwrs = s.pwrs := rfl
@[simp] theorem State.setV_jtags (s : State) (c : Nat) (r : Reg5) (x : Vec) : (s.setV c r x).jtags = s.jtags := rfl
@[simp] theorem State.setV_mgcs (s : State) (c : Nat) (r : Reg5) (x : Vec) : (s.setV c r x).mgcs = s.mgcs := rfl
@[simp] theorem State.setV_snapBase (s : State) (c : Nat) (r : Reg5) (x : Vec) : (s.setV c r x).snapBase = s.snapBase := rfl
@[simp] theorem State.setV_uwraps (s : State) (c : Nat) (r : Reg5) (x : Vec) : (s.setV c r x).uwraps = s.uwraps := rfl
@[simp] theorem State.setV_ubw (s : State) (c : Nat) (r : Reg5) (x : Vec) : (s.setV c r x).ubw = s.ubw := rfl
@[simp] theorem State.setV_bwPend (s : State) (c : Nat) (r : Reg5) (x : Vec) : (s.setV c r x).bwPend = s.bwPend := rfl
@[simp] theorem State.setV_bwClr (s : State) (c : Nat) (r : Reg5) (x : Vec) : (s.setV c r x).bwClr = s.bwClr := rfl

/-! ### setM -/

@[simp] theorem State.setM_pending (s : State) (c : Nat) (r : BitVec 3) (x : Word) : (s.setM c r x).pending = s.pending := rfl
@[simp] theorem State.setM_free (s : State) (c : Nat) (r : BitVec 3) (x : Word) : (s.setM c r x).free = s.free := rfl
@[simp] theorem State.setM_time (s : State) (c : Nat) (r : BitVec 3) (x : Word) : (s.setM c r x).time = s.time := rfl
@[simp] theorem State.setM_tb (s : State) (c : Nat) (r : BitVec 3) (x : Word) : (s.setM c r x).tb = s.tb := rfl
@[simp] theorem State.setM_parts (s : State) (c : Nat) (r : BitVec 3) (x : Word) : (s.setM c r x).parts = s.parts := rfl
@[simp] theorem State.setM_straps (s : State) (c : Nat) (r : BitVec 3) (x : Word) : (s.setM c r x).straps = s.straps := rfl
@[simp] theorem State.setM_mem (s : State) (c : Nat) (r : BitVec 3) (x : Word) : (s.setM c r x).mem = s.mem := rfl
@[simp] theorem State.setM_poison (s : State) (c : Nat) (r : BitVec 3) (x : Word) : (s.setM c r x).poison = s.poison := rfl
@[simp] theorem State.setM_macBad (s : State) (c : Nat) (r : BitVec 3) (x : Word) : (s.setM c r x).macBad = s.macBad := rfl
@[simp] theorem State.setM_enc (s : State) (c : Nat) (r : BitVec 3) (x : Word) : (s.setM c r x).enc = s.enc := rfl
@[simp] theorem State.setM_owner (s : State) (c : Nat) (r : BitVec 3) (x : Word) : (s.setM c r x).owner = s.owner := rfl
@[simp] theorem State.setM_seatSr (s : State) (c : Nat) (r : BitVec 3) (x : Word) : (s.setM c r x).seatSr = s.seatSr := rfl
@[simp] theorem State.setM_regs (s : State) (c : Nat) (r : BitVec 3) (x : Word) : (s.setM c r x).regs = s.regs := rfl
@[simp] theorem State.setM_shadow (s : State) (c : Nat) (r : BitVec 3) (x : Word) : (s.setM c r x).shadow = s.shadow := rfl
@[simp] theorem State.setM_locked (s : State) (c : Nat) (r : BitVec 3) (x : Word) : (s.setM c r x).locked = s.locked := rfl
@[simp] theorem State.setM_repoch (s : State) (c : Nat) (r : BitVec 3) (x : Word) : (s.setM c r x).repoch = s.repoch := rfl
@[simp] theorem State.setM_dirBits (s : State) (c : Nat) (r : BitVec 3) (x : Word) : (s.setM c r x).dirBits = s.dirBits := rfl
@[simp] theorem State.setM_homeOld (s : State) (c : Nat) (r : BitVec 3) (x : Word) : (s.setM c r x).homeOld = s.homeOld := rfl
@[simp] theorem State.setM_sf (s : State) (c : Nat) (r : BitVec 3) (x : Word) : (s.setM c r x).sf = s.sf := rfl
@[simp] theorem State.setM_rsc (s : State) (c : Nat) (r : BitVec 3) (x : Word) : (s.setM c r x).rsc = s.rsc := rfl
@[simp] theorem State.setM_rscG (s : State) (c : Nat) (r : BitVec 3) (x : Word) : (s.setM c r x).rscG = s.rscG := rfl
@[simp] theorem State.setM_sfUse (s : State) (c : Nat) (r : BitVec 3) (x : Word) : (s.setM c r x).sfUse = s.sfUse := rfl
@[simp] theorem State.setM_rscUse (s : State) (c : Nat) (r : BitVec 3) (x : Word) : (s.setM c r x).rscUse = s.rscUse := rfl
@[simp] theorem State.setM_sdata (s : State) (c : Nat) (r : BitVec 3) (x : Word) : (s.setM c r x).sdata = s.sdata := rfl
@[simp] theorem State.setM_held (s : State) (c : Nat) (r : BitVec 3) (x : Word) : (s.setM c r x).held = s.held := rfl
@[simp] theorem State.setM_abuf (s : State) (c : Nat) (r : BitVec 3) (x : Word) : (s.setM c r x).abuf = s.abuf := rfl
@[simp] theorem State.setM_ceCount (s : State) (c : Nat) (r : BitVec 3) (x : Word) : (s.setM c r x).ceCount = s.ceCount := rfl
@[simp] theorem State.setM_ceSupp (s : State) (c : Nat) (r : BitVec 3) (x : Word) : (s.setM c r x).ceSupp = s.ceSupp := rfl
@[simp] theorem State.setM_ashTotal (s : State) (c : Nat) (r : BitVec 3) (x : Word) : (s.setM c r x).ashTotal = s.ashTotal := rfl
@[simp] theorem State.setM_ibi (s : State) (c : Nat) (r : BitVec 3) (x : Word) : (s.setM c r x).ibi = s.ibi := rfl
@[simp] theorem State.setM_vault (s : State) (c : Nat) (r : BitVec 3) (x : Word) : (s.setM c r x).vault = s.vault := rfl
@[simp] theorem State.setM_handover (s : State) (c : Nat) (r : BitVec 3) (x : Word) : (s.setM c r x).handover = s.handover := rfl
@[simp] theorem State.setM_tlbis (s : State) (c : Nat) (r : BitVec 3) (x : Word) : (s.setM c r x).tlbis = s.tlbis := rfl
@[simp] theorem State.setM_tlbiNext (s : State) (c : Nat) (r : BitVec 3) (x : Word) : (s.setM c r x).tlbiNext = s.tlbiNext := rfl
@[simp] theorem State.setM_pafs (s : State) (c : Nat) (r : BitVec 3) (x : Word) : (s.setM c r x).pafs = s.pafs := rfl
@[simp] theorem State.setM_ipis (s : State) (c : Nat) (r : BitVec 3) (x : Word) : (s.setM c r x).ipis = s.ipis := rfl
@[simp] theorem State.setM_txns (s : State) (c : Nat) (r : BitVec 3) (x : Word) : (s.setM c r x).txns = s.txns := rfl
@[simp] theorem State.setM_net (s : State) (c : Nat) (r : BitVec 3) (x : Word) : (s.setM c r x).net = s.net := rfl
@[simp] theorem State.setM_hq (s : State) (c : Nat) (r : BitVec 3) (x : Word) : (s.setM c r x).hq = s.hq := rfl
@[simp] theorem State.setM_retried (s : State) (c : Nat) (r : BitVec 3) (x : Word) : (s.setM c r x).retried = s.retried := rfl
@[simp] theorem State.setM_unreach (s : State) (c : Nat) (r : BitVec 3) (x : Word) : (s.setM c r x).unreach = s.unreach := rfl
@[simp] theorem State.setM_acts (s : State) (c : Nat) (r : BitVec 3) (x : Word) : (s.setM c r x).acts = s.acts := rfl
@[simp] theorem State.setM_iotlb (s : State) (c : Nat) (r : BitVec 3) (x : Word) : (s.setM c r x).iotlb = s.iotlb := rfl
@[simp] theorem State.setM_retire (s : State) (c : Nat) (r : BitVec 3) (x : Word) : (s.setM c r x).retire = s.retire := rfl
@[simp] theorem State.setM_down (s : State) (c : Nat) (r : BitVec 3) (x : Word) : (s.setM c r x).down = s.down := rfl
@[simp] theorem State.setM_meshIn (s : State) (c : Nat) (r : BitVec 3) (x : Word) : (s.setM c r x).meshIn = s.meshIn := rfl
@[simp] theorem State.setM_meshReplay (s : State) (c : Nat) (r : BitVec 3) (x : Word) : (s.setM c r x).meshReplay = s.meshReplay := rfl
@[simp] theorem State.setM_meshDue (s : State) (c : Nat) (r : BitVec 3) (x : Word) : (s.setM c r x).meshDue = s.meshDue := rfl
@[simp] theorem State.setM_meshNak (s : State) (c : Nat) (r : BitVec 3) (x : Word) : (s.setM c r x).meshNak = s.meshNak := rfl
@[simp] theorem State.setM_mlinks (s : State) (c : Nat) (r : BitVec 3) (x : Word) : (s.setM c r x).mlinks = s.mlinks := rfl
@[simp] theorem State.setM_arbs (s : State) (c : Nat) (r : BitVec 3) (x : Word) : (s.setM c r x).arbs = s.arbs := rfl
@[simp] theorem State.setM_commitLeft (s : State) (c : Nat) (r : BitVec 3) (x : Word) : (s.setM c r x).commitLeft = s.commitLeft := rfl
@[simp] theorem State.setM_bucketDebt (s : State) (c : Nat) (r : BitVec 3) (x : Word) : (s.setM c r x).bucketDebt = s.bucketDebt := rfl
@[simp] theorem State.setM_gateQ (s : State) (c : Nat) (r : BitVec 3) (x : Word) : (s.setM c r x).gateQ = s.gateQ := rfl
@[simp] theorem State.setM_flues (s : State) (c : Nat) (r : BitVec 3) (x : Word) : (s.setM c r x).flues = s.flues := rfl
@[simp] theorem State.setM_xout (s : State) (c : Nat) (r : BitVec 3) (x : Word) : (s.setM c r x).xout = s.xout := rfl
@[simp] theorem State.setM_xin (s : State) (c : Nat) (r : BitVec 3) (x : Word) : (s.setM c r x).xin = s.xin := rfl
@[simp] theorem State.setM_reroutes (s : State) (c : Nat) (r : BitVec 3) (x : Word) : (s.setM c r x).reroutes = s.reroutes := rfl
@[simp] theorem State.setM_rerouteNext (s : State) (c : Nat) (r : BitVec 3) (x : Word) : (s.setM c r x).rerouteNext = s.rerouteNext := rfl
@[simp] theorem State.setM_flueDown (s : State) (c : Nat) (r : BitVec 3) (x : Word) : (s.setM c r x).flueDown = s.flueDown := rfl
@[simp] theorem State.setM_combine (s : State) (c : Nat) (r : BitVec 3) (x : Word) : (s.setM c r x).combine = s.combine := rfl
@[simp] theorem State.setM_txNext (s : State) (c : Nat) (r : BitVec 3) (x : Word) : (s.setM c r x).txNext = s.txNext := rfl
@[simp] theorem State.setM_txExp (s : State) (c : Nat) (r : BitVec 3) (x : Word) : (s.setM c r x).txExp = s.txExp := rfl
@[simp] theorem State.setM_txHeld (s : State) (c : Nat) (r : BitVec 3) (x : Word) : (s.setM c r x).txHeld = s.txHeld := rfl
@[simp] theorem State.setM_pstep (s : State) (c : Nat) (r : BitVec 3) (x : Word) : (s.setM c r x).pstep = s.pstep := rfl
@[simp] theorem State.setM_goShadow (s : State) (c : Nat) (r : BitVec 3) (x : Word) : (s.setM c r x).goShadow = s.goShadow := rfl
@[simp] theorem State.setM_chans (s : State) (c : Nat) (r : BitVec 3) (x : Word) : (s.setM c r x).chans = s.chans := rfl
@[simp] theorem State.setM_mcOut (s : State) (c : Nat) (r : BitVec 3) (x : Word) : (s.setM c r x).mcOut = s.mcOut := rfl
@[simp] theorem State.setM_stkChs (s : State) (c : Nat) (r : BitVec 3) (x : Word) : (s.setM c r x).stkChs = s.stkChs := rfl
@[simp] theorem State.setM_stkCells (s : State) (c : Nat) (r : BitVec 3) (x : Word) : (s.setM c r x).stkCells = s.stkCells := rfl
@[simp] theorem State.setM_rids (s : State) (c : Nat) (r : BitVec 3) (x : Word) : (s.setM c r x).rids = s.rids := rfl
@[simp] theorem State.setM_prcs (s : State) (c : Nat) (r : BitVec 3) (x : Word) : (s.setM c r x).prcs = s.prcs := rfl
@[simp] theorem State.setM_keyGen (s : State) (c : Nat) (r : BitVec 3) (x : Word) : (s.setM c r x).keyGen = s.keyGen := rfl
@[simp] theorem State.setM_handoffs (s : State) (c : Nat) (r : BitVec 3) (x : Word) : (s.setM c r x).handoffs = s.handoffs := rfl
@[simp] theorem State.setM_lockrecs (s : State) (c : Nat) (r : BitVec 3) (x : Word) : (s.setM c r x).lockrecs = s.lockrecs := rfl
@[simp] theorem State.setM_pwrs (s : State) (c : Nat) (r : BitVec 3) (x : Word) : (s.setM c r x).pwrs = s.pwrs := rfl
@[simp] theorem State.setM_jtags (s : State) (c : Nat) (r : BitVec 3) (x : Word) : (s.setM c r x).jtags = s.jtags := rfl
@[simp] theorem State.setM_mgcs (s : State) (c : Nat) (r : BitVec 3) (x : Word) : (s.setM c r x).mgcs = s.mgcs := rfl
@[simp] theorem State.setM_snapBase (s : State) (c : Nat) (r : BitVec 3) (x : Word) : (s.setM c r x).snapBase = s.snapBase := rfl
@[simp] theorem State.setM_uwraps (s : State) (c : Nat) (r : BitVec 3) (x : Word) : (s.setM c r x).uwraps = s.uwraps := rfl
@[simp] theorem State.setM_ubw (s : State) (c : Nat) (r : BitVec 3) (x : Word) : (s.setM c r x).ubw = s.ubw := rfl
@[simp] theorem State.setM_bwPend (s : State) (c : Nat) (r : BitVec 3) (x : Word) : (s.setM c r x).bwPend = s.bwPend := rfl
@[simp] theorem State.setM_bwClr (s : State) (c : Nat) (r : BitVec 3) (x : Word) : (s.setM c r x).bwClr = s.bwClr := rfl

/-! ### Core.setV -/

@[simp] theorem Core.setV_g (k : Core) (r : Reg5) (x : Vec) : (k.setV r x).g = k.g := rfl
@[simp] theorem Core.setV_m (k : Core) (r : Reg5) (x : Vec) : (k.setV r x).m = k.m := rfl
@[simp] theorem Core.setV_pc (k : Core) (r : Reg5) (x : Vec) : (k.setV r x).pc = k.pc := rfl
@[simp] theorem Core.setV_sr (k : Core) (r : Reg5) (x : Vec) : (k.setV r x).sr = k.sr := rfl
@[simp] theorem Core.setV_gsr (k : Core) (r : Reg5) (x : Vec) : (k.setV r x).gsr = k.gsr := rfl
@[simp] theorem Core.setV_xlPend (k : Core) (r : Reg5) (x : Vec) : (k.setV r x).xlPend = k.xlPend := rfl
@[simp] theorem Core.setV_world (k : Core) (r : Reg5) (x : Vec) : (k.setV r x).world = k.world := rfl
@[simp] theorem Core.setV_seatIn (k : Core) (r : Reg5) (x : Vec) : (k.setV r x).seatIn = k.seatIn := rfl
@[simp] theorem Core.setV_storeQ (k : Core) (r : Reg5) (x : Vec) : (k.setV r x).storeQ = k.storeQ := rfl
@[simp] theorem Core.setV_region (k : Core) (r : Reg5) (x : Vec) : (k.setV r x).region = k.region := rfl
@[simp] theorem Core.setV_aborts (k : Core) (r : Reg5) (x : Vec) : (k.setV r x).aborts = k.aborts := rfl
@[simp] theorem Core.setV_l2 (k : Core) (r : Reg5) (x : Vec) : (k.setV r x).l2 = k.l2 := rfl
@[simp] theorem Core.setV_l2bad (k : Core) (r : Reg5) (x : Vec) : (k.setV r x).l2bad = k.l2bad := rfl
@[simp] theorem Core.setV_l1i (k : Core) (r : Reg5) (x : Vec) : (k.setV r x).l1i = k.l1i := rfl
@[simp] theorem Core.setV_l1d (k : Core) (r : Reg5) (x : Vec) : (k.setV r x).l1d = k.l1d := rfl
@[simp] theorem Core.setV_itlb (k : Core) (r : Reg5) (x : Vec) : (k.setV r x).itlb = k.itlb := rfl
@[simp] theorem Core.setV_dtlb (k : Core) (r : Reg5) (x : Vec) : (k.setV r x).dtlb = k.dtlb := rfl
@[simp] theorem Core.setV_tlb (k : Core) (r : Reg5) (x : Vec) : (k.setV r x).tlb = k.tlb := rfl
@[simp] theorem Core.setV_tlbL (k : Core) (r : Reg5) (x : Vec) : (k.setV r x).tlbL = k.tlbL := rfl
@[simp] theorem Core.setV_wc (k : Core) (r : Reg5) (x : Vec) : (k.setV r x).wc = k.wc := rfl
@[simp] theorem Core.setV_mchk (k : Core) (r : Reg5) (x : Vec) : (k.setV r x).mchk = k.mchk := rfl
@[simp] theorem Core.setV_vpend (k : Core) (r : Reg5) (x : Vec) : (k.setV r x).vpend = k.vpend := rfl
@[simp] theorem Core.setV_pmu (k : Core) (r : Reg5) (x : Vec) : (k.setV r x).pmu = k.pmu := rfl
@[simp] theorem Core.setV_win (k : Core) (r : Reg5) (x : Vec) : (k.setV r x).win = k.win := rfl
@[simp] theorem Core.setV_fresh (k : Core) (r : Reg5) (x : Vec) : (k.setV r x).fresh = k.fresh := rfl
@[simp] theorem Core.setV_wait (k : Core) (r : Reg5) (x : Vec) : (k.setV r x).wait = k.wait := rfl
@[simp] theorem Core.setV_devWait (k : Core) (r : Reg5) (x : Vec) : (k.setV r x).devWait = k.devWait := rfl
@[simp] theorem Core.setV_tlbiOut (k : Core) (r : Reg5) (x : Vec) : (k.setV r x).tlbiOut = k.tlbiOut := rfl
@[simp] theorem Core.setV_fence (k : Core) (r : Reg5) (x : Vec) : (k.setV r x).fence = k.fence := rfl
@[simp] theorem Core.setV_keyReq (k : Core) (r : Reg5) (x : Vec) : (k.setV r x).keyReq = k.keyReq := rfl
@[simp] theorem Core.setV_hardenEff (k : Core) (r : Reg5) (x : Vec) : (k.setV r x).hardenEff = k.hardenEff := rfl
@[simp] theorem Core.setV_ssArm (k : Core) (r : Reg5) (x : Vec) : (k.setV r x).ssArm = k.ssArm := rfl
@[simp] theorem Core.setV_skipArm (k : Core) (r : Reg5) (x : Vec) : (k.setV r x).skipArm = k.skipArm := rfl
@[simp] theorem Core.setV_stepping (k : Core) (r : Reg5) (x : Vec) : (k.setV r x).stepping = k.stepping := rfl
@[simp] theorem Core.setV_frozen (k : Core) (r : Reg5) (x : Vec) : (k.setV r x).frozen = k.frozen := rfl
@[simp] theorem Core.setV_traceGap (k : Core) (r : Reg5) (x : Vec) : (k.setV r x).traceGap = k.traceGap := rfl
@[simp] theorem Core.setV_traceStamp (k : Core) (r : Reg5) (x : Vec) : (k.setV r x).traceStamp = k.traceStamp := rfl
@[simp] theorem Core.setV_pred (k : Core) (r : Reg5) (x : Vec) : (k.setV r x).pred = k.pred := rfl

/-! ### Core.setM -/

@[simp] theorem Core.setM_g (k : Core) (r : BitVec 3) (x : Word) : (k.setM r x).g = k.g := rfl
@[simp] theorem Core.setM_v (k : Core) (r : BitVec 3) (x : Word) : (k.setM r x).v = k.v := rfl
@[simp] theorem Core.setM_pc (k : Core) (r : BitVec 3) (x : Word) : (k.setM r x).pc = k.pc := rfl
@[simp] theorem Core.setM_sr (k : Core) (r : BitVec 3) (x : Word) : (k.setM r x).sr = k.sr := rfl
@[simp] theorem Core.setM_gsr (k : Core) (r : BitVec 3) (x : Word) : (k.setM r x).gsr = k.gsr := rfl
@[simp] theorem Core.setM_xlPend (k : Core) (r : BitVec 3) (x : Word) : (k.setM r x).xlPend = k.xlPend := rfl
@[simp] theorem Core.setM_world (k : Core) (r : BitVec 3) (x : Word) : (k.setM r x).world = k.world := rfl
@[simp] theorem Core.setM_seatIn (k : Core) (r : BitVec 3) (x : Word) : (k.setM r x).seatIn = k.seatIn := rfl
@[simp] theorem Core.setM_storeQ (k : Core) (r : BitVec 3) (x : Word) : (k.setM r x).storeQ = k.storeQ := rfl
@[simp] theorem Core.setM_region (k : Core) (r : BitVec 3) (x : Word) : (k.setM r x).region = k.region := rfl
@[simp] theorem Core.setM_aborts (k : Core) (r : BitVec 3) (x : Word) : (k.setM r x).aborts = k.aborts := rfl
@[simp] theorem Core.setM_l2 (k : Core) (r : BitVec 3) (x : Word) : (k.setM r x).l2 = k.l2 := rfl
@[simp] theorem Core.setM_l2bad (k : Core) (r : BitVec 3) (x : Word) : (k.setM r x).l2bad = k.l2bad := rfl
@[simp] theorem Core.setM_l1i (k : Core) (r : BitVec 3) (x : Word) : (k.setM r x).l1i = k.l1i := rfl
@[simp] theorem Core.setM_l1d (k : Core) (r : BitVec 3) (x : Word) : (k.setM r x).l1d = k.l1d := rfl
@[simp] theorem Core.setM_itlb (k : Core) (r : BitVec 3) (x : Word) : (k.setM r x).itlb = k.itlb := rfl
@[simp] theorem Core.setM_dtlb (k : Core) (r : BitVec 3) (x : Word) : (k.setM r x).dtlb = k.dtlb := rfl
@[simp] theorem Core.setM_tlb (k : Core) (r : BitVec 3) (x : Word) : (k.setM r x).tlb = k.tlb := rfl
@[simp] theorem Core.setM_tlbL (k : Core) (r : BitVec 3) (x : Word) : (k.setM r x).tlbL = k.tlbL := rfl
@[simp] theorem Core.setM_wc (k : Core) (r : BitVec 3) (x : Word) : (k.setM r x).wc = k.wc := rfl
@[simp] theorem Core.setM_mchk (k : Core) (r : BitVec 3) (x : Word) : (k.setM r x).mchk = k.mchk := rfl
@[simp] theorem Core.setM_vpend (k : Core) (r : BitVec 3) (x : Word) : (k.setM r x).vpend = k.vpend := rfl
@[simp] theorem Core.setM_pmu (k : Core) (r : BitVec 3) (x : Word) : (k.setM r x).pmu = k.pmu := rfl
@[simp] theorem Core.setM_win (k : Core) (r : BitVec 3) (x : Word) : (k.setM r x).win = k.win := rfl
@[simp] theorem Core.setM_fresh (k : Core) (r : BitVec 3) (x : Word) : (k.setM r x).fresh = k.fresh := rfl
@[simp] theorem Core.setM_wait (k : Core) (r : BitVec 3) (x : Word) : (k.setM r x).wait = k.wait := rfl
@[simp] theorem Core.setM_devWait (k : Core) (r : BitVec 3) (x : Word) : (k.setM r x).devWait = k.devWait := rfl
@[simp] theorem Core.setM_tlbiOut (k : Core) (r : BitVec 3) (x : Word) : (k.setM r x).tlbiOut = k.tlbiOut := rfl
@[simp] theorem Core.setM_fence (k : Core) (r : BitVec 3) (x : Word) : (k.setM r x).fence = k.fence := rfl
@[simp] theorem Core.setM_keyReq (k : Core) (r : BitVec 3) (x : Word) : (k.setM r x).keyReq = k.keyReq := rfl
@[simp] theorem Core.setM_hardenEff (k : Core) (r : BitVec 3) (x : Word) : (k.setM r x).hardenEff = k.hardenEff := rfl
@[simp] theorem Core.setM_ssArm (k : Core) (r : BitVec 3) (x : Word) : (k.setM r x).ssArm = k.ssArm := rfl
@[simp] theorem Core.setM_skipArm (k : Core) (r : BitVec 3) (x : Word) : (k.setM r x).skipArm = k.skipArm := rfl
@[simp] theorem Core.setM_stepping (k : Core) (r : BitVec 3) (x : Word) : (k.setM r x).stepping = k.stepping := rfl
@[simp] theorem Core.setM_frozen (k : Core) (r : BitVec 3) (x : Word) : (k.setM r x).frozen = k.frozen := rfl
@[simp] theorem Core.setM_traceGap (k : Core) (r : BitVec 3) (x : Word) : (k.setM r x).traceGap = k.traceGap := rfl
@[simp] theorem Core.setM_traceStamp (k : Core) (r : BitVec 3) (x : Word) : (k.setM r x).traceStamp = k.traceStamp := rfl
@[simp] theorem Core.setM_pred (k : Core) (r : BitVec 3) (x : Word) : (k.setM r x).pred = k.pred := rfl

/-! ### Core.setSrOwn -/

@[simp] theorem Core.setSrOwn_g (k : Core) (n : Nat) (x : Word) : (k.setSrOwn n x).g = k.g := rfl
@[simp] theorem Core.setSrOwn_v (k : Core) (n : Nat) (x : Word) : (k.setSrOwn n x).v = k.v := rfl
@[simp] theorem Core.setSrOwn_m (k : Core) (n : Nat) (x : Word) : (k.setSrOwn n x).m = k.m := rfl
@[simp] theorem Core.setSrOwn_pc (k : Core) (n : Nat) (x : Word) : (k.setSrOwn n x).pc = k.pc := rfl
@[simp] theorem Core.setSrOwn_gsr (k : Core) (n : Nat) (x : Word) : (k.setSrOwn n x).gsr = k.gsr := rfl
@[simp] theorem Core.setSrOwn_xlPend (k : Core) (n : Nat) (x : Word) : (k.setSrOwn n x).xlPend = k.xlPend := rfl
@[simp] theorem Core.setSrOwn_world (k : Core) (n : Nat) (x : Word) : (k.setSrOwn n x).world = k.world := rfl
@[simp] theorem Core.setSrOwn_seatIn (k : Core) (n : Nat) (x : Word) : (k.setSrOwn n x).seatIn = k.seatIn := rfl
@[simp] theorem Core.setSrOwn_storeQ (k : Core) (n : Nat) (x : Word) : (k.setSrOwn n x).storeQ = k.storeQ := rfl
@[simp] theorem Core.setSrOwn_region (k : Core) (n : Nat) (x : Word) : (k.setSrOwn n x).region = k.region := rfl
@[simp] theorem Core.setSrOwn_aborts (k : Core) (n : Nat) (x : Word) : (k.setSrOwn n x).aborts = k.aborts := rfl
@[simp] theorem Core.setSrOwn_l2 (k : Core) (n : Nat) (x : Word) : (k.setSrOwn n x).l2 = k.l2 := rfl
@[simp] theorem Core.setSrOwn_l2bad (k : Core) (n : Nat) (x : Word) : (k.setSrOwn n x).l2bad = k.l2bad := rfl
@[simp] theorem Core.setSrOwn_l1i (k : Core) (n : Nat) (x : Word) : (k.setSrOwn n x).l1i = k.l1i := rfl
@[simp] theorem Core.setSrOwn_l1d (k : Core) (n : Nat) (x : Word) : (k.setSrOwn n x).l1d = k.l1d := rfl
@[simp] theorem Core.setSrOwn_itlb (k : Core) (n : Nat) (x : Word) : (k.setSrOwn n x).itlb = k.itlb := rfl
@[simp] theorem Core.setSrOwn_dtlb (k : Core) (n : Nat) (x : Word) : (k.setSrOwn n x).dtlb = k.dtlb := rfl
@[simp] theorem Core.setSrOwn_tlb (k : Core) (n : Nat) (x : Word) : (k.setSrOwn n x).tlb = k.tlb := rfl
@[simp] theorem Core.setSrOwn_tlbL (k : Core) (n : Nat) (x : Word) : (k.setSrOwn n x).tlbL = k.tlbL := rfl
@[simp] theorem Core.setSrOwn_wc (k : Core) (n : Nat) (x : Word) : (k.setSrOwn n x).wc = k.wc := rfl
@[simp] theorem Core.setSrOwn_mchk (k : Core) (n : Nat) (x : Word) : (k.setSrOwn n x).mchk = k.mchk := rfl
@[simp] theorem Core.setSrOwn_vpend (k : Core) (n : Nat) (x : Word) : (k.setSrOwn n x).vpend = k.vpend := rfl
@[simp] theorem Core.setSrOwn_pmu (k : Core) (n : Nat) (x : Word) : (k.setSrOwn n x).pmu = k.pmu := rfl
@[simp] theorem Core.setSrOwn_win (k : Core) (n : Nat) (x : Word) : (k.setSrOwn n x).win = k.win := rfl
@[simp] theorem Core.setSrOwn_fresh (k : Core) (n : Nat) (x : Word) : (k.setSrOwn n x).fresh = k.fresh := rfl
@[simp] theorem Core.setSrOwn_wait (k : Core) (n : Nat) (x : Word) : (k.setSrOwn n x).wait = k.wait := rfl
@[simp] theorem Core.setSrOwn_devWait (k : Core) (n : Nat) (x : Word) : (k.setSrOwn n x).devWait = k.devWait := rfl
@[simp] theorem Core.setSrOwn_tlbiOut (k : Core) (n : Nat) (x : Word) : (k.setSrOwn n x).tlbiOut = k.tlbiOut := rfl
@[simp] theorem Core.setSrOwn_fence (k : Core) (n : Nat) (x : Word) : (k.setSrOwn n x).fence = k.fence := rfl
@[simp] theorem Core.setSrOwn_keyReq (k : Core) (n : Nat) (x : Word) : (k.setSrOwn n x).keyReq = k.keyReq := rfl
@[simp] theorem Core.setSrOwn_hardenEff (k : Core) (n : Nat) (x : Word) : (k.setSrOwn n x).hardenEff = k.hardenEff := rfl
@[simp] theorem Core.setSrOwn_ssArm (k : Core) (n : Nat) (x : Word) : (k.setSrOwn n x).ssArm = k.ssArm := rfl
@[simp] theorem Core.setSrOwn_skipArm (k : Core) (n : Nat) (x : Word) : (k.setSrOwn n x).skipArm = k.skipArm := rfl
@[simp] theorem Core.setSrOwn_stepping (k : Core) (n : Nat) (x : Word) : (k.setSrOwn n x).stepping = k.stepping := rfl
@[simp] theorem Core.setSrOwn_frozen (k : Core) (n : Nat) (x : Word) : (k.setSrOwn n x).frozen = k.frozen := rfl
@[simp] theorem Core.setSrOwn_traceGap (k : Core) (n : Nat) (x : Word) : (k.setSrOwn n x).traceGap = k.traceGap := rfl
@[simp] theorem Core.setSrOwn_traceStamp (k : Core) (n : Nat) (x : Word) : (k.setSrOwn n x).traceStamp = k.traceStamp := rfl
@[simp] theorem Core.setSrOwn_pred (k : Core) (n : Nat) (x : Word) : (k.setSrOwn n x).pred = k.pred := rfl

/-! ### Core.setG -/

@[simp] theorem Core.setG_v (k : Core) (r : Reg5) (x : Word) : (k.setG r x).v = k.v := by unfold Core.setG; split <;> rfl
@[simp] theorem Core.setG_m (k : Core) (r : Reg5) (x : Word) : (k.setG r x).m = k.m := by unfold Core.setG; split <;> rfl
@[simp] theorem Core.setG_pc (k : Core) (r : Reg5) (x : Word) : (k.setG r x).pc = k.pc := by unfold Core.setG; split <;> rfl
@[simp] theorem Core.setG_sr (k : Core) (r : Reg5) (x : Word) : (k.setG r x).sr = k.sr := by unfold Core.setG; split <;> rfl
@[simp] theorem Core.setG_gsr (k : Core) (r : Reg5) (x : Word) : (k.setG r x).gsr = k.gsr := by unfold Core.setG; split <;> rfl
@[simp] theorem Core.setG_xlPend (k : Core) (r : Reg5) (x : Word) : (k.setG r x).xlPend = k.xlPend := by unfold Core.setG; split <;> rfl
@[simp] theorem Core.setG_world (k : Core) (r : Reg5) (x : Word) : (k.setG r x).world = k.world := by unfold Core.setG; split <;> rfl
@[simp] theorem Core.setG_seatIn (k : Core) (r : Reg5) (x : Word) : (k.setG r x).seatIn = k.seatIn := by unfold Core.setG; split <;> rfl
@[simp] theorem Core.setG_storeQ (k : Core) (r : Reg5) (x : Word) : (k.setG r x).storeQ = k.storeQ := by unfold Core.setG; split <;> rfl
@[simp] theorem Core.setG_region (k : Core) (r : Reg5) (x : Word) : (k.setG r x).region = k.region := by unfold Core.setG; split <;> rfl
@[simp] theorem Core.setG_aborts (k : Core) (r : Reg5) (x : Word) : (k.setG r x).aborts = k.aborts := by unfold Core.setG; split <;> rfl
@[simp] theorem Core.setG_l2 (k : Core) (r : Reg5) (x : Word) : (k.setG r x).l2 = k.l2 := by unfold Core.setG; split <;> rfl
@[simp] theorem Core.setG_l2bad (k : Core) (r : Reg5) (x : Word) : (k.setG r x).l2bad = k.l2bad := by unfold Core.setG; split <;> rfl
@[simp] theorem Core.setG_l1i (k : Core) (r : Reg5) (x : Word) : (k.setG r x).l1i = k.l1i := by unfold Core.setG; split <;> rfl
@[simp] theorem Core.setG_l1d (k : Core) (r : Reg5) (x : Word) : (k.setG r x).l1d = k.l1d := by unfold Core.setG; split <;> rfl
@[simp] theorem Core.setG_itlb (k : Core) (r : Reg5) (x : Word) : (k.setG r x).itlb = k.itlb := by unfold Core.setG; split <;> rfl
@[simp] theorem Core.setG_dtlb (k : Core) (r : Reg5) (x : Word) : (k.setG r x).dtlb = k.dtlb := by unfold Core.setG; split <;> rfl
@[simp] theorem Core.setG_tlb (k : Core) (r : Reg5) (x : Word) : (k.setG r x).tlb = k.tlb := by unfold Core.setG; split <;> rfl
@[simp] theorem Core.setG_tlbL (k : Core) (r : Reg5) (x : Word) : (k.setG r x).tlbL = k.tlbL := by unfold Core.setG; split <;> rfl
@[simp] theorem Core.setG_wc (k : Core) (r : Reg5) (x : Word) : (k.setG r x).wc = k.wc := by unfold Core.setG; split <;> rfl
@[simp] theorem Core.setG_mchk (k : Core) (r : Reg5) (x : Word) : (k.setG r x).mchk = k.mchk := by unfold Core.setG; split <;> rfl
@[simp] theorem Core.setG_vpend (k : Core) (r : Reg5) (x : Word) : (k.setG r x).vpend = k.vpend := by unfold Core.setG; split <;> rfl
@[simp] theorem Core.setG_pmu (k : Core) (r : Reg5) (x : Word) : (k.setG r x).pmu = k.pmu := by unfold Core.setG; split <;> rfl
@[simp] theorem Core.setG_win (k : Core) (r : Reg5) (x : Word) : (k.setG r x).win = k.win := by unfold Core.setG; split <;> rfl
@[simp] theorem Core.setG_fresh (k : Core) (r : Reg5) (x : Word) : (k.setG r x).fresh = k.fresh := by unfold Core.setG; split <;> rfl
@[simp] theorem Core.setG_wait (k : Core) (r : Reg5) (x : Word) : (k.setG r x).wait = k.wait := by unfold Core.setG; split <;> rfl
@[simp] theorem Core.setG_devWait (k : Core) (r : Reg5) (x : Word) : (k.setG r x).devWait = k.devWait := by unfold Core.setG; split <;> rfl
@[simp] theorem Core.setG_tlbiOut (k : Core) (r : Reg5) (x : Word) : (k.setG r x).tlbiOut = k.tlbiOut := by unfold Core.setG; split <;> rfl
@[simp] theorem Core.setG_fence (k : Core) (r : Reg5) (x : Word) : (k.setG r x).fence = k.fence := by unfold Core.setG; split <;> rfl
@[simp] theorem Core.setG_keyReq (k : Core) (r : Reg5) (x : Word) : (k.setG r x).keyReq = k.keyReq := by unfold Core.setG; split <;> rfl
@[simp] theorem Core.setG_hardenEff (k : Core) (r : Reg5) (x : Word) : (k.setG r x).hardenEff = k.hardenEff := by unfold Core.setG; split <;> rfl
@[simp] theorem Core.setG_ssArm (k : Core) (r : Reg5) (x : Word) : (k.setG r x).ssArm = k.ssArm := by unfold Core.setG; split <;> rfl
@[simp] theorem Core.setG_skipArm (k : Core) (r : Reg5) (x : Word) : (k.setG r x).skipArm = k.skipArm := by unfold Core.setG; split <;> rfl
@[simp] theorem Core.setG_stepping (k : Core) (r : Reg5) (x : Word) : (k.setG r x).stepping = k.stepping := by unfold Core.setG; split <;> rfl
@[simp] theorem Core.setG_frozen (k : Core) (r : Reg5) (x : Word) : (k.setG r x).frozen = k.frozen := by unfold Core.setG; split <;> rfl
@[simp] theorem Core.setG_traceGap (k : Core) (r : Reg5) (x : Word) : (k.setG r x).traceGap = k.traceGap := by unfold Core.setG; split <;> rfl
@[simp] theorem Core.setG_traceStamp (k : Core) (r : Reg5) (x : Word) : (k.setG r x).traceStamp = k.traceStamp := by unfold Core.setG; split <;> rfl
@[simp] theorem Core.setG_pred (k : Core) (r : Reg5) (x : Word) : (k.setG r x).pred = k.pred := by unfold Core.setG; split <;> rfl

/-! ### Core.count -/

@[simp] theorem Core.count_g (k : Core) (e n : Nat) : (k.count e n).g = k.g := by unfold Core.count; dsimp only; split <;> rfl
@[simp] theorem Core.count_v (k : Core) (e n : Nat) : (k.count e n).v = k.v := by unfold Core.count; dsimp only; split <;> rfl
@[simp] theorem Core.count_m (k : Core) (e n : Nat) : (k.count e n).m = k.m := by unfold Core.count; dsimp only; split <;> rfl
@[simp] theorem Core.count_pc (k : Core) (e n : Nat) : (k.count e n).pc = k.pc := by unfold Core.count; dsimp only; split <;> rfl
@[simp] theorem Core.count_sr (k : Core) (e n : Nat) : (k.count e n).sr = k.sr := by unfold Core.count; dsimp only; split <;> rfl
@[simp] theorem Core.count_gsr (k : Core) (e n : Nat) : (k.count e n).gsr = k.gsr := by unfold Core.count; dsimp only; split <;> rfl
@[simp] theorem Core.count_xlPend (k : Core) (e n : Nat) : (k.count e n).xlPend = k.xlPend := by unfold Core.count; dsimp only; split <;> rfl
@[simp] theorem Core.count_world (k : Core) (e n : Nat) : (k.count e n).world = k.world := by unfold Core.count; dsimp only; split <;> rfl
@[simp] theorem Core.count_seatIn (k : Core) (e n : Nat) : (k.count e n).seatIn = k.seatIn := by unfold Core.count; dsimp only; split <;> rfl
@[simp] theorem Core.count_storeQ (k : Core) (e n : Nat) : (k.count e n).storeQ = k.storeQ := by unfold Core.count; dsimp only; split <;> rfl
@[simp] theorem Core.count_region (k : Core) (e n : Nat) : (k.count e n).region = k.region := by unfold Core.count; dsimp only; split <;> rfl
@[simp] theorem Core.count_aborts (k : Core) (e n : Nat) : (k.count e n).aborts = k.aborts := by unfold Core.count; dsimp only; split <;> rfl
@[simp] theorem Core.count_l2 (k : Core) (e n : Nat) : (k.count e n).l2 = k.l2 := by unfold Core.count; dsimp only; split <;> rfl
@[simp] theorem Core.count_l2bad (k : Core) (e n : Nat) : (k.count e n).l2bad = k.l2bad := by unfold Core.count; dsimp only; split <;> rfl
@[simp] theorem Core.count_l1i (k : Core) (e n : Nat) : (k.count e n).l1i = k.l1i := by unfold Core.count; dsimp only; split <;> rfl
@[simp] theorem Core.count_l1d (k : Core) (e n : Nat) : (k.count e n).l1d = k.l1d := by unfold Core.count; dsimp only; split <;> rfl
@[simp] theorem Core.count_itlb (k : Core) (e n : Nat) : (k.count e n).itlb = k.itlb := by unfold Core.count; dsimp only; split <;> rfl
@[simp] theorem Core.count_dtlb (k : Core) (e n : Nat) : (k.count e n).dtlb = k.dtlb := by unfold Core.count; dsimp only; split <;> rfl
@[simp] theorem Core.count_tlb (k : Core) (e n : Nat) : (k.count e n).tlb = k.tlb := by unfold Core.count; dsimp only; split <;> rfl
@[simp] theorem Core.count_tlbL (k : Core) (e n : Nat) : (k.count e n).tlbL = k.tlbL := by unfold Core.count; dsimp only; split <;> rfl
@[simp] theorem Core.count_wc (k : Core) (e n : Nat) : (k.count e n).wc = k.wc := by unfold Core.count; dsimp only; split <;> rfl
@[simp] theorem Core.count_mchk (k : Core) (e n : Nat) : (k.count e n).mchk = k.mchk := by unfold Core.count; dsimp only; split <;> rfl
@[simp] theorem Core.count_vpend (k : Core) (e n : Nat) : (k.count e n).vpend = k.vpend := by unfold Core.count; dsimp only; split <;> rfl
@[simp] theorem Core.count_win (k : Core) (e n : Nat) : (k.count e n).win = k.win := by unfold Core.count; dsimp only; split <;> rfl
@[simp] theorem Core.count_fresh (k : Core) (e n : Nat) : (k.count e n).fresh = k.fresh := by unfold Core.count; dsimp only; split <;> rfl
@[simp] theorem Core.count_wait (k : Core) (e n : Nat) : (k.count e n).wait = k.wait := by unfold Core.count; dsimp only; split <;> rfl
@[simp] theorem Core.count_devWait (k : Core) (e n : Nat) : (k.count e n).devWait = k.devWait := by unfold Core.count; dsimp only; split <;> rfl
@[simp] theorem Core.count_tlbiOut (k : Core) (e n : Nat) : (k.count e n).tlbiOut = k.tlbiOut := by unfold Core.count; dsimp only; split <;> rfl
@[simp] theorem Core.count_fence (k : Core) (e n : Nat) : (k.count e n).fence = k.fence := by unfold Core.count; dsimp only; split <;> rfl
@[simp] theorem Core.count_keyReq (k : Core) (e n : Nat) : (k.count e n).keyReq = k.keyReq := by unfold Core.count; dsimp only; split <;> rfl
@[simp] theorem Core.count_hardenEff (k : Core) (e n : Nat) : (k.count e n).hardenEff = k.hardenEff := by unfold Core.count; dsimp only; split <;> rfl
@[simp] theorem Core.count_ssArm (k : Core) (e n : Nat) : (k.count e n).ssArm = k.ssArm := by unfold Core.count; dsimp only; split <;> rfl
@[simp] theorem Core.count_skipArm (k : Core) (e n : Nat) : (k.count e n).skipArm = k.skipArm := by unfold Core.count; dsimp only; split <;> rfl
@[simp] theorem Core.count_stepping (k : Core) (e n : Nat) : (k.count e n).stepping = k.stepping := by unfold Core.count; dsimp only; split <;> rfl
@[simp] theorem Core.count_frozen (k : Core) (e n : Nat) : (k.count e n).frozen = k.frozen := by unfold Core.count; dsimp only; split <;> rfl
@[simp] theorem Core.count_traceGap (k : Core) (e n : Nat) : (k.count e n).traceGap = k.traceGap := by unfold Core.count; dsimp only; split <;> rfl
@[simp] theorem Core.count_traceStamp (k : Core) (e n : Nat) : (k.count e n).traceStamp = k.traceStamp := by unfold Core.count; dsimp only; split <;> rfl
@[simp] theorem Core.count_pred (k : Core) (e n : Nat) : (k.count e n).pred = k.pred := by unfold Core.count; dsimp only; split <;> rfl

/-! ### Sparse tables -/

@[simp] theorem cellFind_nil {α : Type} (k : Nat) : cellFind ([] : Cells α) k = none := rfl

@[simp] theorem cellGet_nil {α : Type} (d : α) (k : Nat) : cellGet d [] k = d := rfl

/-- An entry put is found. -/
@[simp] theorem cellFind_put_same {α : Type} (m : Cells α) (k : Nat) (v : α) : cellFind (cellPut m k v) k = some v := by
  induction m with
  | nil => simp [cellPut, cellFind]
  | cons e t ih =>
    obtain ⟨k', v'⟩ := e
    simp only [cellPut]
    split
    · simp [cellFind]
    · rename_i h
      split
      · simp [cellFind]
      · simp [cellFind, ih, Ne.symm h]

/-- Every other entry is found as before. -/
theorem cellFind_put_other {α : Type} (m : Cells α) {k j : Nat} (v : α) (h : j ≠ k) :
    cellFind (cellPut m k v) j = cellFind m j := by
  induction m with
  | nil => simp [cellPut, cellFind, Ne.symm h]
  | cons e t ih =>
    obtain ⟨k', v'⟩ := e
    simp only [cellPut]
    split
    · rename_i e
      subst e
      simp [cellFind, Ne.symm h]
    · split
      · simp [cellFind, Ne.symm h]
      · simp [cellFind, ih]

@[simp] theorem cellFind_erase_same {α : Type} (m : Cells α) (k : Nat) : cellFind (cellErase m k) k = none := by
  induction m with
  | nil => rfl
  | cons e t ih =>
    obtain ⟨k', v'⟩ := e
    simp only [cellErase, ne_eq, decide_not] at ih ⊢
    by_cases h : k' = k
    · simp [h, ih]
    · simp [h, cellFind, ih]

theorem cellFind_erase_other {α : Type} (m : Cells α) {k j : Nat} (h : j ≠ k) :
    cellFind (cellErase m k) j = cellFind m j := by
  induction m with
  | nil => rfl
  | cons e t ih =>
    obtain ⟨k', v'⟩ := e
    simp only [cellErase, ne_eq, decide_not] at ih ⊢
    by_cases h' : k' = k
    · subst h'
      simp [cellFind, Ne.symm h, ih]
    · simp [h', cellFind, ih]

/-- A key that was set reads as what it was set to. -/
@[simp] theorem cellGet_set_same {α : Type} [DecidableEq α] (d : α) (m : Cells α) (k : Nat) (v : α) :
    cellGet d (cellSet d m k v) k = v := by
  unfold cellGet cellSet
  split
  · rename_i h
    simp [h]
  · simp

/-- Every other key reads as before. -/
theorem cellGet_set_other {α : Type} [DecidableEq α] (d e : α) (m : Cells α) {k j : Nat} (v : α) (h : j ≠ k) :
    cellGet e (cellSet d m k v) j = cellGet e m j := by
  unfold cellGet cellSet
  split
  · rw [cellFind_erase_other m h]
  · rw [cellFind_put_other m v h]

theorem cellGet_set {α : Type} [DecidableEq α] (d : α) (m : Cells α) (k j : Nat) (v : α) :
    cellGet d (cellSet d m k v) j = if j = k then v else cellGet d m j := by
  split
  · rename_i h; subst h; simp
  · rename_i h; exact cellGet_set_other d d m v h

/-! ### Register fields -/

/-- A field written reads as the value cut to its width. -/
@[simp] theorem State.rd_wr_same (s : State) (f : Fld) (a : Ix) (v : Nat) : (s.wr f a v).rd f a = v % 2 ^ f.w := by
  unfold State.rd
  exact cellGet_set_same _ _ _ _

/-- Two fields of different numbers, or the same field of two sockets, have different keys. -/
theorem regKey_ne {f f' : Fld} {a a' : Ix} (hf : f.id < 1024) (hf' : f'.id < 1024) (h : f.id ≠ f'.id) :
    regKey f a ≠ regKey f' a' := by
  unfold regKey
  omega

/-- A field with another number reads as before. -/
theorem State.rd_wr_field (s : State) {f f' : Fld} (a a' : Ix) (v : Nat) (hf : f.id < 1024) (hf' : f'.id < 1024)
    (h : f'.id ≠ f.id) : (s.wr f a v).rd f' a' = s.rd f' a' := by
  unfold State.rd
  exact cellGet_set_other _ _ _ _ (regKey_ne hf' hf h)

/-- A field at another place reads as before. -/
theorem State.rd_wr_key (s : State) {f f' : Fld} (a a' : Ix) (v : Nat) (h : regKey f' a' ≠ regKey f a) :
    (s.wr f a v).rd f' a' = s.rd f' a' := by
  unfold State.rd
  exact cellGet_set_other _ _ _ _ h

/-! ### Cores -/

/-- A core that was set is that core. -/
@[simp] theorem State.core_setCore_same (s : State) (c : Nat) (k : Core) : (s.setCore c k).core c = k :=
  cellGet_set_same _ _ _ _

/-- Every other core is as before. -/
theorem State.core_setCore_other (s : State) {c d : Nat} (k : Core) (h : d ≠ c) : (s.setCore c k).core d = s.core d :=
  cellGet_set_other _ _ _ _ h

@[simp] theorem State.core_updCore_same (s : State) (c : Nat) (f : Core → Core) : (s.updCore c f).core c = f (s.core c) :=
  cellGet_set_same _ _ _ _

theorem State.core_updCore_other (s : State) {c d : Nat} (f : Core → Core) (h : d ≠ c) :
    (s.updCore c f).core d = s.core d :=
  cellGet_set_other _ _ _ _ h

/-- General register zero reads as zero (R40). -/
@[simp] theorem Core.gr_zero (k : Core) : k.gr 0 = 0 := rfl

/-- A general register other than g0 reads as what was written (R40). -/
theorem Core.gr_setG_same (k : Core) {r : Reg5} (x : Word) (h : r ≠ 0) : (k.setG r x).gr r = x := by
  unfold Core.gr Core.setG
  rw [if_neg h, if_neg h]
  exact cellGet_set_same _ _ _ _

/-- Every other general register reads as before. -/
theorem Core.gr_setG_other (k : Core) {r q : Reg5} (x : Word) (h : q ≠ r) : (k.setG r x).gr q = k.gr q := by
  unfold Core.setG
  split
  · rfl
  · unfold Core.gr
    split
    · rfl
    · exact cellGet_set_other _ _ _ _ (fun e => h (BitVec.eq_of_toNat_eq e))

/-- A write to g0 is discarded (R40). -/
@[simp] theorem Core.setG_zero (k : Core) (x : Word) : k.setG 0 x = k := by simp [Core.setG]

/-- A vector register reads as what was written (R42). -/
@[simp] theorem Core.vr_setV_same (k : Core) (r : Reg5) (x : Vec) : (k.setV r x).vr r = x := cellGet_set_same _ _ _ _

theorem Core.vr_setV_other (k : Core) {r q : Reg5} (x : Vec) (h : q ≠ r) : (k.setV r x).vr q = k.vr q :=
  cellGet_set_other _ _ _ _ (fun e => h (BitVec.eq_of_toNat_eq e))

/-- A mask register reads as what was written (R43). -/
@[simp] theorem Core.mr_setM_same (k : Core) (r : BitVec 3) (x : Word) : (k.setM r x).mr r = x := cellGet_set_same _ _ _ _

theorem Core.mr_setM_other (k : Core) {r q : BitVec 3} (x : Word) (h : q ≠ r) : (k.setM r x).mr q = k.mr q :=
  cellGet_set_other _ _ _ _ (fun e => h (BitVec.eq_of_toNat_eq e))

/-! ### The frame of an instruction -/

/-- An instruction that is fetched and takes effect retires. -/
theorem State.Fetched.retires {s s0 t : State} {c len : Nat} {body : State → Res Word} {n : Word} (h : s.Fetched c len s0)
    (hb : body s0 = .ok n t) : s.instr c len body = (t.retireInstr c n).getD s := by
  unfold State.instr
  simp only [h.runs, h.first, h.short, h.got, hb, State.boundary, h.quiet]
  simp

/-- An instruction that is fetched and raises an event takes it. -/
theorem State.Fetched.raises {s s0 t : State} {c len : Nat} {body : State → Res Word} {e : Ev} (h : s.Fetched c len s0)
    (hb : body s0 = .ev e t) (he : e.cause ≠ haltCause) : s.instr c len body = (t.takes c e).getD s := by
  unfold State.instr
  simp only [h.runs, h.first, h.short, h.got, hb, State.boundary, h.quiet]
  simp [he, State.takes]

/-- An instruction that is fetched and leaves the core asleep, or with a load or fence that waits, stays. -/
theorem State.Fetched.parks {s s0 t : State} {c len : Nat} {body : State → Res Word} (h : s.Fetched c len s0)
    (hb : body s0 = .park t) (ht : ((t.core c).devWait.isSome || (t.core c).wait.isSome || (t.core c).fence.isSome) = true) :
    s.instr c len body = t := by
  unfold State.instr
  simp only [h.runs, h.first, h.short, h.got, hb, State.boundary, h.quiet, ht]
  simp

end Sys2Proof.Machine
end

