-- ==== Sys2Proof/Laws/VectorKeeps.lean ====
section
/-!
SUPPORT. Laws/VectorKeeps.lean: what Machine/Vector.lean leaves alone: each operation and meaning of it keeps the queue, the parts, the clock and the
canonical form of memory (`Keeps`).
-/
set_option linter.all false
namespace Sys2Proof.Machine

theorem Res.lanes_keeps {s0 : State} {x0} {x1 : Res x0} {x2} {x3} {x4} {x5} {x6} (h1 : KeepsR s0 x1) :
    KeepsR s0 (@Res.lanes x0 x1 x2 x3 x4 x5 x6) :=
  KeepsR.ite (KeepsR.ite (Res.counted_keeps (Res.counted_keeps h1)) h1)
    (KeepsR.ite (KeepsR.ite (Res.counted_keeps (Res.counted_keeps h1)) h1)
      (Res.counted_keeps (Res.counted_keeps (Res.counted_keeps h1))))

theorem State.laneFault_keeps {s0 : State} {x0} {x1} {x2} {x3} {x4} (h0 : Keeps s0 x0) (h1 : Keeps s0 x1) : KeepsR s0 (@State.laneFault x0 x1 x2 x3 x4) := by
  unfold State.laneFault
  with_reducible repeat' (first
      | assumption | apply State.drain_keeps | apply State.setSr_keeps | apply KeepsR.evI | apply KeepsR.stallT
      | refine KeepsO.elim ?_ (by assumption) | split)

theorem State.loadLanes_keeps {s0 : State} {x0} {x1} {x2} {x3} {x4} (h0 : Keeps s0 x0) : KeepsR s0 (@State.loadLanes x0 x1 x2 x3 x4) := by
  induction x4 generalizing x0 x1 x2 x3 with
  | nil => (unfold State.loadLanes; first | assumption | constructor; assumption | constructor | exact h0)
  | cons e t ih =>
    unfold State.loadLanes
    try dsimp only
    with_reducible repeat' (first
        | assumption | apply ih | intro _ | apply State.loadRaw_keeps | apply KeepsR.bind | apply KeepsR.okI)

theorem State.storeLanes_keeps {s0 : State} {x0} {x1} {x2} {x3} {x4} {x5} {x6} (h0 : Keeps s0 x0) (h1 : Keeps s0 x1) : KeepsR s0 (@State.storeLanes x0 x1 x2 x3 x4 x5 x6) := by
  induction x6 generalizing x0 x1 x2 x3 x4 x5 with
  | nil => (unfold State.storeLanes; first | assumption | constructor; assumption | constructor | exact h1)
  | cons e t ih =>
    unfold State.storeLanes
    try dsimp only
    with_reducible repeat' (first
        | assumption | apply ih | apply State.storeRaw_keeps | apply State.laneFault_keeps | apply KeepsR.stallT
        | apply KeepsR.parkI | refine KeepsR.okE ?_ (by assumption) | refine KeepsR.evE ?_ (by assumption)
        | refine KeepsR.parkE ?_ (by assumption) | split)

theorem execGtom_keeps {s0 : State} {x0} {x1} {x2} {x3} {x4} (h4 : Keeps s0 x4) : KeepsH s0 (@execGtom x0 x1 x2 x3 x4) := by
  unfold execGtom
  with_reducible repeat' (first
      | assumption | intro _ | apply illegal_keeps | apply State.instr_keeps | apply State.setM_keeps | apply KeepsH.nextI
      | apply KeepsR.okI | apply KeepsR.ite)

theorem execMaskLogic_keeps {s0 : State} {x0} {x1} {x2} {x3} {x4} {x5} {x6} (h6 : Keeps s0 x6) : KeepsH s0 (@execMaskLogic x0 x1 x2 x3 x4 x5 x6) := by
  unfold execMaskLogic
  with_reducible repeat' (first
      | assumption | intro _ | apply illegal_keeps | apply State.instr_keeps | apply State.setM_keeps | apply KeepsH.nextI
      | apply KeepsR.okI | split)

theorem maskToG_keeps {s0 : State} {x0} {x1} {x2} {x3} {x4} {x5} (h5 : Keeps s0 x5) : Keeps s0 (@maskToG x0 x1 x2 x3 x4 x5) := by
  unfold maskToG
  with_reducible repeat' (first
      | assumption | intro _ | apply illegal_keeps | apply wrG_keeps | apply State.instr_keeps | apply KeepsR.ite)

theorem execMfirst_keeps {s0 : State} {x0} {x1} {x2} {x3} {x4} (h4 : Keeps s0 x4) : KeepsH s0 (@execMfirst x0 x1 x2 x3 x4) := by
  unfold execMfirst
  with_reducible repeat' (first
      | assumption | apply maskToG_keeps | apply KeepsH.nextI)

theorem execMpopc_keeps {s0 : State} {x0} {x1} {x2} {x3} {x4} (h4 : Keeps s0 x4) : KeepsH s0 (@execMpopc x0 x1 x2 x3 x4) := by
  unfold execMpopc
  with_reducible repeat' (first
      | assumption | apply maskToG_keeps | apply KeepsH.nextI)

theorem execMtog_keeps {s0 : State} {x0} {x1} {x2} {x3} {x4} (h4 : Keeps s0 x4) : KeepsH s0 (@execMtog x0 x1 x2 x3 x4) := by
  unfold execMtog
  with_reducible repeat' (first
      | assumption | apply maskToG_keeps | apply KeepsH.nextI)

theorem vOut_keeps {s0 : State} {x0} {x1} {x2} {x3} (h0 : Keeps s0 x0) : KeepsR s0 (@vOut x0 x1 x2 x3) := by
  unfold vOut
  with_reducible repeat' (first
      | assumption | apply State.setV_keeps | apply KeepsR.okI)

theorem execVbcastG_keeps {s0 : State} {x0} {x1} {x2} {x3} {x4} {x5} {x6} (h6 : Keeps s0 x6) : KeepsH s0 (@execVbcastG x0 x1 x2 x3 x4 x5 x6) := by
  unfold execVbcastG
  with_reducible repeat' (first
      | assumption | intro _ | apply illegal_keeps | apply vOut_keeps | apply State.instr_keeps | apply KeepsH.nextI
      | apply KeepsR.ite)

theorem execVcmp_keeps {s0 : State} {x0} {x1} {x2} {x3} {x4} {x5} {x6} {x7} {x8} {x9} {x10} (h10 : Keeps s0 x10) : KeepsH s0 (@execVcmp x0 x1 x2 x3 x4 x5 x6 x7 x8 x9 x10) := by
  unfold execVcmp
  with_reducible repeat' (first
      | assumption | intro _ | apply illegal_keeps | apply State.instr_keeps | apply State.setM_keeps | apply KeepsH.nextI
      | apply KeepsR.okI | split | (fail_if_no_progress extract_lets))

theorem execVcompress_keeps {s0 : State} {x0} {x1} {x2} {x3} {x4} {x5} {x6} {x7} {x8} (h8 : Keeps s0 x8) : KeepsH s0 (@execVcompress x0 x1 x2 x3 x4 x5 x6 x7 x8) := by
  unfold execVcompress
  with_reducible repeat' (first
      | assumption | intro _ | apply vOut_keeps | apply State.instr_keeps | apply KeepsH.nextI)

theorem execVcrc_keeps {s0 : State} {x0} {x1} {x2} {x3} {x4} {x5} {x6} {x7} {x8} (h8 : Keeps s0 x8) : KeepsH s0 (@execVcrc x0 x1 x2 x3 x4 x5 x6 x7 x8) := by
  unfold execVcrc
  with_reducible repeat' (first
      | assumption | intro _ | apply illegal_keeps | apply vOut_keeps | apply State.instr_keeps | apply KeepsH.nextI
      | apply KeepsR.ite)

theorem vperm_keeps {s0 : State} {x0} {x1} {x2} {x3} {x4} {x5} {x6} (h6 : Keeps s0 x6) : Keeps s0 (@vperm x0 x1 x2 x3 x4 x5 x6) := by
  unfold vperm
  with_reducible repeat' (first
      | assumption | intro _ | apply vOut_keeps | apply State.instr_keeps)

theorem execVexpand_keeps {s0 : State} {x0} {x1} {x2} {x3} {x4} {x5} {x6} {x7} {x8} (h8 : Keeps s0 x8) : KeepsH s0 (@execVexpand x0 x1 x2 x3 x4 x5 x6 x7 x8) := by
  unfold execVexpand
  with_reducible repeat' (first
      | assumption | apply vperm_keeps | apply KeepsH.nextI)

theorem execVext_keeps {s0 : State} {x0} {x1} {x2} {x3} {x4} {x5} {x6} {x7} (h7 : Keeps s0 x7) : KeepsH s0 (@execVext x0 x1 x2 x3 x4 x5 x6 x7) := by
  unfold execVext
  with_reducible repeat' (first
      | assumption | intro _ | apply illegal_keeps | apply wrG_keeps | apply State.instr_keeps | apply KeepsH.nextI
      | apply KeepsR.ite)

theorem execVfmadd_keeps {s0 : State} {x0} {x1} {x2} {x3} {x4} {x5} {x6} {x7} {x8} {x9} (h9 : Keeps s0 x9) : KeepsH s0 (@execVfmadd x0 x1 x2 x3 x4 x5 x6 x7 x8 x9) := by
  unfold execVfmadd
  with_reducible repeat' (first
      | assumption | intro _ | apply illegal_keeps | apply vOut_keeps | apply State.settleFlags_keeps
      | apply State.instr_keeps | apply KeepsH.nextI | split)

theorem execVfp_keeps {s0 : State} {x0} {x1} {x2} {x3} {x4} {x5} {x6} {x7} {x8} {x9} {x10} (h10 : Keeps s0 x10) : KeepsH s0 (@execVfp x0 x1 x2 x3 x4 x5 x6 x7 x8 x9 x10) := by
  unfold execVfp
  with_reducible repeat' (first
      | assumption | intro _ | apply illegal_keeps | apply vOut_keeps | apply State.settleFlags_keeps
      | apply State.instr_keeps | apply State.setM_keeps | apply KeepsH.nextI | apply KeepsR.okI | split
      | (fail_if_no_progress extract_lets))

theorem execVins_keeps {s0 : State} {x0} {x1} {x2} {x3} {x4} {x5} {x6} {x7} (h7 : Keeps s0 x7) : KeepsH s0 (@execVins x0 x1 x2 x3 x4 x5 x6 x7) := by
  unfold execVins
  with_reducible repeat' (first
      | assumption | intro _ | apply illegal_keeps | apply vOut_keeps | apply State.instr_keeps | apply KeepsH.nextI
      | apply KeepsR.ite)

theorem execVint_keeps {s0 : State} {x0} {x1} {x2} {x3} {x4} {x5} {x6} {x7} {x8} {x9} {x10} (h10 : Keeps s0 x10) : KeepsH s0 (@execVint x0 x1 x2 x3 x4 x5 x6 x7 x8 x9 x10) := by
  unfold execVint
  with_reducible repeat' (first
      | assumption | intro _ | apply illegal_keeps | apply vOut_keeps | apply State.instr_keeps | apply KeepsH.nextI | split
      | (fail_if_no_progress extract_lets))

theorem execVld_keeps {s0 : State} {x0} {x1} {x2} {x3} {x4} {x5} {x6} {x7} {x8} {x9} (h9 : Keeps s0 x9) : KeepsH s0 (@execVld x0 x1 x2 x3 x4 x5 x6 x7 x8 x9) := by
  unfold execVld
  with_reducible repeat' (first
      | assumption | intro _ | apply State.loadErr_keeps | apply illegal_keeps | apply vOut_keeps | apply Res.lanes_keeps
      | apply State.loadLanes_keeps | apply State.instr_keeps | apply KeepsR.bind | apply KeepsH.nextI | split
      | (fail_if_no_progress extract_lets))

theorem execVmov_keeps {s0 : State} {x0} {x1} {x2} {x3} {x4} {x5} {x6} (h6 : Keeps s0 x6) : KeepsH s0 (@execVmov x0 x1 x2 x3 x4 x5 x6) := by
  unfold execVmov
  with_reducible repeat' (first
      | assumption | apply vperm_keeps | apply KeepsH.nextI)

theorem execVpack_keeps {s0 : State} {x0} {x1} {x2} {x3} {x4} {x5} {x6} {x7} {x8} (h8 : Keeps s0 x8) : KeepsH s0 (@execVpack x0 x1 x2 x3 x4 x5 x6 x7 x8) := by
  unfold execVpack
  with_reducible repeat' (first
      | assumption | intro _ | apply illegal_keeps | apply State.useFree_keeps | apply vOut_keeps | apply State.instr_keeps
      | apply KeepsH.nextI | apply KeepsR.ite)

theorem execVperm_keeps {s0 : State} {x0} {x1} {x2} {x3} {x4} {x5} {x6} {x7} {x8} (h8 : Keeps s0 x8) : KeepsH s0 (@execVperm x0 x1 x2 x3 x4 x5 x6 x7 x8) := by
  unfold execVperm
  with_reducible repeat' (first
      | assumption | apply vperm_keeps | apply KeepsH.nextI)

theorem execVperm2_keeps {s0 : State} {x0} {x1} {x2} {x3} {x4} {x5} {x6} {x7} {x8} (h8 : Keeps s0 x8) : KeepsH s0 (@execVperm2 x0 x1 x2 x3 x4 x5 x6 x7 x8) := by
  unfold execVperm2
  with_reducible repeat' (first
      | assumption | apply vperm_keeps | apply KeepsH.nextI)

theorem execVredFp_keeps {s0 : State} {x0} {x1} {x2} {x3} {x4} {x5} {x6} {x7} (h7 : Keeps s0 x7) : KeepsH s0 (@execVredFp x0 x1 x2 x3 x4 x5 x6 x7) := by
  unfold execVredFp
  with_reducible repeat' (first
      | assumption | intro _ | apply illegal_keeps | apply vOut_keeps | apply State.settleFlags_keeps
      | apply State.instr_keeps | apply KeepsH.nextI | split)

theorem execVredInt_keeps {s0 : State} {x0} {x1} {x2} {x3} {x4} {x5} {x6} {x7} (h7 : Keeps s0 x7) : KeepsH s0 (@execVredInt x0 x1 x2 x3 x4 x5 x6 x7) := by
  unfold execVredInt
  with_reducible repeat' (first
      | assumption | intro _ | apply illegal_keeps | apply wrG_keeps | apply State.instr_keeps | apply KeepsH.nextI | split
      | (fail_if_no_progress extract_lets))

theorem execVrev_keeps {s0 : State} {x0} {x1} {x2} {x3} {x4} {x5} {x6} {x7} {x8} (h8 : Keeps s0 x8) : KeepsH s0 (@execVrev x0 x1 x2 x3 x4 x5 x6 x7 x8) := by
  unfold execVrev
  with_reducible repeat' (first
      | assumption | apply vperm_keeps | apply KeepsH.nextI)

theorem execVslidedn_keeps {s0 : State} {x0} {x1} {x2} {x3} {x4} {x5} {x6} {x7} {x8} (h8 : Keeps s0 x8) : KeepsH s0 (@execVslidedn x0 x1 x2 x3 x4 x5 x6 x7 x8) := by
  unfold execVslidedn
  with_reducible repeat' (first
      | assumption | apply vperm_keeps | apply KeepsH.nextI)

theorem execVslideup_keeps {s0 : State} {x0} {x1} {x2} {x3} {x4} {x5} {x6} {x7} {x8} (h8 : Keeps s0 x8) : KeepsH s0 (@execVslideup x0 x1 x2 x3 x4 x5 x6 x7 x8) := by
  unfold execVslideup
  with_reducible repeat' (first
      | assumption | apply vperm_keeps | apply KeepsH.nextI)

theorem execVst_keeps {s0 : State} {x0} {x1} {x2} {x3} {x4} {x5} {x6} {x7} {x8} {x9} (h9 : Keeps s0 x9) : KeepsH s0 (@execVst x0 x1 x2 x3 x4 x5 x6 x7 x8 x9) := by
  unfold execVst
  with_reducible repeat' (first
      | assumption | intro _ | apply illegal_keeps | apply State.storeRaw_keeps | apply State.storeLanes_keeps
      | apply Res.lanes_keeps | apply State.laneFault_keeps | apply State.instr_keeps | apply KeepsH.nextI | apply KeepsR.okI
      | apply KeepsR.stallT | apply KeepsR.parkI | refine KeepsR.okE ?_ (by assumption)
      | refine KeepsR.evE ?_ (by assumption) | refine KeepsR.parkE ?_ (by assumption) | split
      | (fail_if_no_progress extract_lets))

theorem execVunpk_keeps {s0 : State} {x0} {x1} {x2} {x3} {x4} {x5} {x6} {x7} {x8} (h8 : Keeps s0 x8) : KeepsH s0 (@execVunpk x0 x1 x2 x3 x4 x5 x6 x7 x8) := by
  unfold execVunpk
  with_reducible repeat' (first
      | assumption | intro _ | apply illegal_keeps | apply vOut_keeps | apply State.instr_keeps | apply KeepsH.nextI
      | apply KeepsR.ite)

theorem execVzero_keeps {s0 : State} {x0} {x1} {x2} {x3} {x4} {x5} (h5 : Keeps s0 x5) : KeepsH s0 (@execVzero x0 x1 x2 x3 x4 x5) := by
  unfold execVzero
  with_reducible repeat' (first
      | assumption | apply vperm_keeps | apply KeepsH.nextI)

end Sys2Proof.Machine
end

