-- ==== Sys2Proof/WellFormed.lean ====
section
/-!
DEFINITION. WellFormed.lean: the operands a command can be sent with: sockets, cores, Stoker cells and channels in range, physical
addresses of 57 bits, and control-space writes of 4 or 8 bytes, naturally aligned (R19).
-/
namespace Sys2Proof

/-- A socket number: ten bits (R5). -/
def sockOk (k : Nat) : Bool := decide (k < 1024)

/-- A core: a socket and a logical ID. -/
def coreOk (c : Nat) : Bool := decide (c < 1024 * 256)

/-- A Stoker cell. -/
def cellOk (n : Nat) : Bool := decide (n < 8)

/-- A Stoker channel. -/
def chanOk (c : Nat) : Bool := decide (c < 64)

/-- A physical address. -/
def paOk (a : Nat) : Bool := decide (a < 2 ^ 57)

/-- A write of `size` bytes at offset `off` of control space. -/
def writeOk (off size : Nat) : Bool := (size = 4 || size = 8) && off % size = 0

/-- Whether the operands of a command are in range. -/
def Instr.wf : Instr → Bool
  | .controlRegWrite _ k off size _ => sockOk k && writeOk off size
  | .shadowCommitArrival _ k _ => sockOk k
  | .intOp c _ _ _ _ _ => coreOk c
  | .div c _ _ _ _ _ => coreOk c
  | .crc c _ _ _ _ _ => coreOk c
  | .immOp c _ _ _ _ => coreOk c
  | .shiftImm c _ _ _ _ _ => coreOk c
  | .addiw c _ _ _ => coreOk c
  | .lui c _ _ => coreOk c
  | .addpc c _ _ => coreOk c
  | .extu c _ _ _ _ => coreOk c
  | .exts c _ _ _ _ => coreOk c
  | .ins c _ _ _ _ => coreOk c
  | .sel c _ _ _ _ _ _ => coreOk c
  | .li c _ _ => coreOk c
  | .liu c _ _ => coreOk c
  | .lih c _ _ => coreOk c
  | .addiL c _ _ => coreOk c
  | .addpcL c _ _ => coreOk c
  | .dadd c _ _ _ _ => coreOk c
  | .dsub c _ _ _ _ => coreOk c
  | .dmul c _ _ _ _ => coreOk c
  | .ddiv c _ _ _ _ => coreOk c
  | .dresc c _ _ _ => coreOk c
  | .ld c _ _ _ _ _ => coreOk c
  | .st c _ _ _ _ => coreOk c
  | .ldx c _ _ _ _ _ => coreOk c.c
  | .stx c _ _ _ _ _ => coreOk c
  | .lda c _ _ _ _ => coreOk c.c
  | .stl c _ _ _ _ => coreOk c
  | .pref c _ _ _ _ => coreOk c
  | .ldL c _ _ _ _ => coreOk c.c
  | .stL c _ _ _ _ => coreOk c
  | .bcc c _ _ _ _ => coreOk c
  | .bccL c _ _ _ _ => coreOk c
  | .jmp c _ => coreOk c
  | .call c _ => coreOk c
  | .jmpr c _ => coreOk c
  | .callr c _ => coreOk c
  | .ret c _ => coreOk c
  | .trap c _ => coreOk c
  | .brk c _ => coreOk c
  | .cMov c _ _ => coreOk c
  | .cAdd c _ _ => coreOk c
  | .cSub c _ _ => coreOk c
  | .cAnd c _ _ => coreOk c
  | .cOr c _ _ => coreOk c
  | .cXor c _ _ => coreOk c
  | .cAddi c _ _ => coreOk c
  | .cLi c _ _ => coreOk c
  | .cSlli c _ _ => coreOk c
  | .cSrli c _ _ => coreOk c
  | .cSrai c _ _ => coreOk c
  | .cLdk c _ _ => coreOk c.c
  | .cStk c _ _ => coreOk c
  | .cBeqz c _ _ => coreOk c
  | .cBnez c _ _ => coreOk c
  | .cJ c _ => coreOk c
  | .cRet c => coreOk c
  | .cBrk c => coreOk c
  | .cFenceX c => coreOk c
  | .fadd c _ _ _ _ _ => coreOk c
  | .fsub c _ _ _ _ _ => coreOk c
  | .fmul c _ _ _ _ _ => coreOk c
  | .fdiv c _ _ _ _ _ => coreOk c
  | .fmin c _ _ _ _ _ => coreOk c
  | .fmax c _ _ _ _ _ => coreOk c
  | .fsqrt c _ _ _ _ => coreOk c
  | .fmadd c _ _ _ _ _ _ => coreOk c
  | .feq c _ _ _ _ => coreOk c
  | .fun c _ _ _ _ => coreOk c
  | .flt c _ _ _ _ => coreOk c
  | .fle c _ _ _ _ => coreOk c
  | .fltq c _ _ _ _ => coreOk c
  | .fleq c _ _ _ _ => coreOk c
  | .fcvt c _ _ _ _ _ => coreOk c
  | .fmvVg c _ _ => coreOk c
  | .fmvGv c _ _ => coreOk c
  | .fclass c _ _ _ => coreOk c
  | .fabs c _ _ _ => coreOk c
  | .fneg c _ _ _ => coreOk c
  | .fnabs c _ _ _ => coreOk c
  | .fcpys c _ _ _ _ => coreOk c
  | .vint c _ _ _ _ _ _ _ _ _ => coreOk c
  | .vcmp c _ _ _ _ _ _ _ _ _ => coreOk c
  | .vfp c _ _ _ _ _ _ _ _ _ => coreOk c
  | .vfmadd c _ _ _ _ _ _ _ _ => coreOk c
  | .vld c _ _ _ _ _ _ _ _ => coreOk c.c
  | .vst c _ _ _ _ _ _ _ _ => coreOk c
  | .vperm c _ _ _ _ _ _ _ => coreOk c
  | .vperm2 c _ _ _ _ _ _ _ => coreOk c
  | .vcompress c _ _ _ _ _ _ _ => coreOk c
  | .vexpand c _ _ _ _ _ _ _ => coreOk c
  | .vslideup c _ _ _ _ _ _ _ => coreOk c
  | .vslidedn c _ _ _ _ _ _ _ => coreOk c
  | .vrev c _ _ _ _ _ _ _ => coreOk c
  | .vunpk c _ _ _ _ _ _ _ => coreOk c
  | .vpack c _ _ _ _ _ _ _ => coreOk c
  | .vcrc c _ _ _ _ _ _ _ => coreOk c
  | .vredInt c _ _ _ _ _ _ => coreOk c
  | .vredFp c _ _ _ _ _ _ => coreOk c
  | .maskLogic c _ _ _ _ _ => coreOk c
  | .mtog c _ _ _ => coreOk c
  | .gtom c _ _ _ => coreOk c
  | .mpopc c _ _ _ => coreOk c
  | .mfirst c _ _ _ => coreOk c
  | .vbcastG c _ _ _ _ _ => coreOk c
  | .vins c _ _ _ _ _ _ => coreOk c
  | .vext c _ _ _ _ _ _ => coreOk c
  | .vmov c _ _ _ _ _ => coreOk c
  | .vzero c _ _ _ _ => coreOk c
  | .hatom c _ _ _ _ _ => coreOk c
  | .hcas c _ _ _ _ _ _ => coreOk c
  | .atomBegin c _ => coreOk c
  | .atomAdd c _ => coreOk c
  | .atomCommit c _ => coreOk c
  | .atomAbort c _ => coreOk c
  | .regionLong c => coreOk c
  | .fenceLl c => coreOk c
  | .fenceLs c => coreOk c
  | .fenceSl c => coreOk c
  | .fenceSs c => coreOk c
  | .fenceFull c => coreOk c
  | .fenceIo c => coreOk c
  | .fenceGlobal c => coreOk c
  | .fenceX c => coreOk c
  | .iflush c => coreOk c
  | .cclean c _ => coreOk c
  | .cflush c _ => coreOk c
  | .cinval c _ => coreOk c
  | .czero c _ => coreOk c
  | .swclean c _ => coreOk c
  | .swflush c _ => coreOk c
  | .tlbiVa c _ _ _ => coreOk c
  | .tlbiSid c _ _ => coreOk c
  | .tlbiVm c _ _ => coreOk c
  | .tlbiIpa c _ _ _ => coreOk c
  | .tlbiAll c _ => coreOk c
  | .tlbiForward k _ => sockOk k
  | .tlbiTargetAck k _ _ => sockOk k
  | .tlbiSocketAck k _ => sockOk k
  | .tlbiComplete c _ => coreOk c
  | .srd c _ _ => coreOk c
  | .swr c _ _ => coreOk c
  | .swrAuth c _ => coreOk c
  | .swrKrights c _ _ => coreOk c
  | .swrTcmp c _ => coreOk c
  | .swrXlatctl c _ => coreOk c
  | .swrPmsel c _ => coreOk c
  | .pmdataRead c _ => coreOk c
  | .kdrop c _ => coreOk c
  | .kdropLo c _ => coreOk c
  | .kdropHi c _ => coreOk c
  | .gate c _ => coreOk c
  | .gentry c => coreOk c
  | .gret c => coreOk c
  | .gretEv c => coreOk c
  | .wait c _ _ => coreOk c
  | .waitBanked c _ _ => coreOk c
  | .waitCold c _ _ => coreOk c
  | .coreWake c => coreOk c
  | .sleepGateClosed c => coreOk c
  | .attest c => coreOk c
  | .vreport c => coreOk c
  | .stkkey c => coreOk c
  | .vcreate c => coreOk c
  | .vadd c => coreOk c
  | .vseal c => coreOk c
  | .vdestroy c => coreOk c
  | .vassign c _ => coreOk c
  | .vrelease c => coreOk c
  | .vreclaim c => coreOk c
  | .vrestart c => coreOk c
  | .secRequestBadOp c => coreOk c
  | .unitWorkStopped k _ => sockOk k
  | .unitResetComplete k _ => sockOk k
  | .unitResetTimeout k _ => sockOk k
  | .unitRoutesRewritten k _ => sockOk k
  | .viKick c _ => coreOk c
  | .vaultWatchdogExpiry k _ => sockOk k
  | .vaultRestart k _ => sockOk k
  | .vaultSeatAbandon c => coreOk c
  | .vaultUnitsReset k _ => sockOk k
  | .vaultDataCleared k _ => sockOk k
  | .vaultDigestCheck k _ => sockOk k
  | .eventEntry c => coreOk c
  | .interruptTakeover c _ => coreOk c
  | .entryWindowCommit c => coreOk c
  | .postedAtomicFailed c => coreOk c
  | .timerCompare c => coreOk c
  | .ipiSend c _ => coreOk c
  | .ipiReceive k => sockOk k
  | .msgInterrupt k _ => sockOk k
  | .tpriWrite c _ => coreOk c
  | .storeDrain c _ => coreOk c
  | .hwPrefetch c _ _ => coreOk c
  | .hardenWrite c _ => coreOk c
  | .contextSweepDone c => coreOk c
  | .usefulnessDecay c => coreOk c
  | .fenceRecoveryTimeout c => coreOk c
  | .regionRecoveryTimeout c => coreOk c
  | .actionEndAbandon k h => sockOk k && sockOk h
  | .rds c pa _ _ => coreOk c && paOk pa
  | .rd c pa _ _ => coreOk c && paOk pa
  | .rdo c pa _ _ => coreOk c && paOk pa
  | .upg c pa => coreOk c && paOk pa
  | .own c pa => coreOk c && paOk pa
  | .rdu _ pa => paOk pa
  | .wru _ pa _ => paOk pa
  | .hat c pa _ _ _ _ => coreOk c && paOk pa
  | .cmo c pa _ => coreOk c && paOk pa
  | .lockx c pa => coreOk c && paOk pa
  | .wb c pa _ => coreOk c && paOk pa
  | .ev c pa => coreOk c && paOk pa
  | .unlock c pa => coreOk c && paOk pa
  | .flushb h d => sockOk h && sockOk d
  | .snps d pa => sockOk d && paOk pa
  | .snpi d pa => sockOk d && paOk pa
  | .snpx d pa => sockOk d && paOk pa
  | .snpr d pa => sockOk d && paOk pa
  | .snpc d pa => sockOk d && paOk pa
  | .dataS _ pa => paOk pa
  | .dataE _ pa => paOk pa
  | .dataM _ pa => paOk pa
  | .dataU _ pa => paOk pa
  | .gnt _ pa => paOk pa
  | .ack _ pa => paOk pa
  | .srsp h d pa => sockOk h && sockOk d && paOk pa
  | .cmp _ pa => paOk pa
  | .atres _ pa => paOk pa
  | .wback _ pa => paOk pa
  | .retry _ pa => paOk pa
  | .retryReissue _ pa => paOk pa
  | .fin _ pa => paOk pa
  | .atomicBufferWriteback h pa => sockOk h && paOk pa
  | .hrthRetire k _ => sockOk k
  | .sliceRetireStart k => sockOk k
  | .bucketMark k => sockOk k
  | .bucketTxnsDone k => sockOk k
  | .bucketCopyDone k => sockOk k
  | .sliceRetired k => sockOk k
  | .sliceSourceFail k _ => sockOk k
  | .sliceTargetFail k => sockOk k
  | .rebuildDone k => sockOk k
  | .stripeValidWrite k _ _ => sockOk k
  | .flitArrival k _ _ _ _ dsock _ _ => sockOk k && sockOk dsock
  | .meshLinkFailing k _ _ => sockOk k
  | .bridgeLaneRepair k _ _ => sockOk k
  | .bridgeRepairDone k _ _ _ => sockOk k
  | .dack k d _ => sockOk k && sockOk d
  | .dackTimer k d _ => sockOk k && sockOk d
  | .dnak k d _ => sockOk k && sockOk d
  | .arbStarvation k _ _ _ => sockOk k
  | .arbCommitGo k => sockOk k
  | .arbCommitDone k => sockOk k
  | .bellowsAdmit k _ => sockOk k
  | .flueTrained k _ _ => sockOk k
  | .flueRestore k _ => sockOk k
  | .codewordReceive k _ _ _ _ _ => sockOk k
  | .controlSlotReceive k _ _ _ _ _ _ _ _ _ => sockOk k
  | .laneFailing k _ _ => sockOk k
  | .lane k _ => sockOk k
  | .flueFailure k _ => sockOk k
  | .flueControlTimeout k _ => sockOk k
  | .linkdown k _ => sockOk k
  | .rerouteAdopt k _ => sockOk k
  | .rerouteReplayResent _ => true
  | .rerouteDone _ => true
  | .linkup k _ => sockOk k
  | .crossbarFlitArrival k _ => sockOk k
  | .resync k ssock _ _ => sockOk k && sockOk ssock
  | .multicastSnoop k _ _ _ _ => sockOk k
  | .combinedAck k _ => sockOk k
  | .syncMasterChange k => sockOk k
  | .flueKeyEpoch k _ => sockOk k
  | .flueKeyAgreed k _ _ => sockOk k
  | .ident k _ psock _ _ => sockOk k && sockOk psock
  | .identTableComplete k _ => sockOk k
  | .heldout k by' _ => sockOk k && sockOk by'
  | .cfgGo k => sockOk k
  | .cfgdigest k _ => sockOk k
  | .partitionKeysAgreed k _ _ => sockOk k
  | .partitionStopped k _ => sockOk k
  | .mcRead k pa _ _ => sockOk k && paOk pa
  | .mcWrite k pa _ _ _ => sockOk k && paOk pa
  | .markWrite k _ _ _ _ => sockOk k
  | .sweepLine k _ _ _ => sockOk k
  | .sweepInitDone k _ => sockOk k
  | .refresh k _ _ _ => sockOk k
  | .zqCalibration k _ _ => sockOk k
  | .dqsOscRead k _ _ _ => sockOk k
  | .selfRefreshEnter k _ => sockOk k
  | .selfRefreshExit k _ _ => sockOk k
  | .spareReq k _ _ => sockOk k
  | .spareStart k _ => sockOk k
  | .spareCopyDone k _ _ _ => sockOk k
  | .spprDone k _ => sockOk k
  | .spareCopybackDone k _ _ => sockOk k
  | .hpprApply k _ _ => sockOk k
  | .riddleProgramLoad k _ cell c => sockOk k && cellOk cell && chanOk c
  | .riddleWorkItem k _ cell c => sockOk k && cellOk cell && chanOk c
  | .riddleLineEval k _ => sockOk k
  | .riddleSegmentWrite k _ => sockOk k
  | .riddleDrain k _ cell c => sockOk k && cellOk cell && chanOk c
  | .drained k _ cell c => sockOk k && cellOk cell && chanOk c
  | .sqtailDoorbell k cell c _ => sockOk k && cellOk cell && chanOk c
  | .cqheadWrite k cell c _ => sockOk k && cellOk cell && chanOk c
  | .ringCfgWrite k cell c _ _ _ => sockOk k && cellOk cell && chanOk c
  | .cfgEnWrite k cell c _ => sockOk k && cellOk cell && chanOk c
  | .descFetch k cell c => sockOk k && cellOk cell && chanOk c
  | .descStart k cell c => sockOk k && cellOk cell && chanOk c
  | .nop k cell c _ => sockOk k && cellOk cell && chanOk c
  | .filter k cell c _ => sockOk k && cellOk cell && chanOk c
  | .project k cell c _ => sockOk k && cellOk cell && chanOk c
  | .decomp k cell c _ => sockOk k && cellOk cell && chanOk c
  | .hashbuild k cell c _ => sockOk k && cellOk cell && chanOk c
  | .hashprobe k cell c _ => sockOk k && cellOk cell && chanOk c
  | .agg k cell c _ => sockOk k && cellOk cell && chanOk c
  | .sortrun k cell c _ => sockOk k && cellOk cell && chanOk c
  | .merge k cell c _ => sockOk k && cellOk cell && chanOk c
  | .crc32c k cell c _ => sockOk k && cellOk cell && chanOk c
  | .sha256 k cell c _ => sockOk k && cellOk cell && chanOk c
  | .aesgcm k cell c _ => sockOk k && cellOk cell && chanOk c
  | .segmentRead k cell c _ => sockOk k && cellOk cell && chanOk c
  | .descComplete k cell c _ => sockOk k && cellOk cell && chanOk c
  | .fireboxSlice k cell _ _ => sockOk k && cellOk cell
  | .cellClockGate k cell => sockOk k && cellOk cell
  | .cellFault k cell => sockOk k && cellOk cell
  | .mboxTx k cell c _ => sockOk k && cellOk cell && chanOk c
  | .mboxAck k cell c _ => sockOk k && cellOk cell && chanOk c
  | .channelResetRequest k cell c _ => sockOk k && cellOk cell && chanOk c
  | .stkCtlReset k cell => sockOk k && cellOk cell
  | .drainTimerExpiry k cell c => sockOk k && cellOk cell && chanOk c
  | .channelResetDone k cell c => sockOk k && cellOk cell && chanOk c
  | .channelQuarantine k cell c => sockOk k && cellOk cell && chanOk c
  | .dmaRead k _ _ _ _ _ _ _ => sockOk k
  | .dmaWrite k _ _ _ _ _ _ _ _ => sockOk k
  | .msiMessage k _ _ _ _ => sockOk k
  | .prcEventInterrupt k _ _ _ => sockOk k
  | .deviceCompletion c _ _ => coreOk c
  | .ioinvGo k _ _ _ => sockOk k
  | .ioinvDone k _ => sockOk k
  | .slotPwron k _ _ => sockOk k
  | .slotPerstRelease k _ _ => sockOk k
  | .slotLinkTrained k _ _ _ _ _ _ => sockOk k
  | .slotTrainTimeout k _ _ => sockOk k
  | .slotPowerFault k _ _ => sockOk k
  | .slotPwroff k _ _ => sockOk k
  | .presenceChange k _ _ _ => sockOk k
  | .aerFatal k _ _ => sockOk k
  | .portRelease k _ _ => sockOk k
  | .linkL1Exit k _ _ => sockOk k
  | .cxlwinValidWrite k _ _ _ => sockOk k
  | .cxlPoisonFillDone k _ _ => sockOk k
  | .ashpanWrite k _ _ _ _ _ _ _ _ _ _ _ => sockOk k
  | .rdptrWrite k _ => sockOk k
  | .ceLimitMinute k => sockOk k
  | .nvClr k => sockOk k
  | .handoffGo k _ => sockOk k
  | .pipelineError k _ => sockOk k
  | .handoffStart k _ => sockOk k
  | .handoffRepoch k _ => sockOk k
  | .sparePowered k _ => sockOk k
  | .handoffStateRead k _ => sockOk k
  | .handoffStoresRead k _ => sockOk k
  | .handoffL2Emptied k _ => sockOk k
  | .spareLoaded k _ => sockOk k
  | .handoffResume k _ => sockOk k
  | .handoffSourceFail k _ _ => sockOk k
  | .spareFail k _ => sockOk k
  | .grateFence k _ => sockOk k
  | .lockstepMismatch k _ => sockOk k
  | .lockstepRepoch k _ => sockOk k
  | .lockstepSelftestDone k _ _ _ => sockOk k
  | .lockstepRepaired k _ => sockOk k
  | .comparatorTest k _ => sockOk k
  | .comparatorTestDone k _ _ => sockOk k
  | .socketFailure k _ _ _ => sockOk k
  | .standbyRailsValid k => sockOk k
  | .rstDeassert k _ => sockOk k
  | .bootVerify k _ _ _ _ => sockOk k
  | .powerOnRequest k => sockOk k
  | .powerOffRequest k => sockOk k
  | .pwrbtn k _ => sockOk k
  | .pwrokAssert k _ => sockOk k
  | .pwrokLoss k _ => sockOk k
  | .refclkLoss k => sockOk k
  | .meshPllUnlock k _ => sockOk k
  | .corePllUnlock k _ => sockOk k
  | .junctionFatal k => sockOk k
  | .vholdLow k => sockOk k
  | .pllenWrite k _ _ _ => sockOk k
  | .pllLocked k _ => sockOk k
  | .selWrite k _ _ => sockOk k
  | .freqRelock k _ => sockOk k
  | .damperLimit k _ _ => sockOk k
  | .thermalTarget k _ _ => sockOk k
  | .thermalEmergency k _ _ => sockOk k
  | .thermalClear k _ _ => sockOk k
  | .pkgBankedEnter k => sockOk k
  | .pkgWake k _ _ => sockOk k
  | .pkgCmdStandby k => sockOk k
  | .wakeLand k _ _ => sockOk k
  | .upwrWrite k _ _ => sockOk k
  | .coldReset k _ => sockOk k
  | .warmReset k => sockOk k
  | .coreReset k _ => sockOk k
  | .coreRunSet k _ => sockOk k
  | .holdupTrigger k _ => sockOk k
  | .saveCommit k _ => sockOk k
  | .restartCondition k => sockOk k
  | .counterWrap c _ => coreOk c
  | .unitCounterWrap k _ _ _ => sockOk k
  | .thrctlWrite c _ _ _ _ => coreOk c
  | .bwctlWrite k _ _ _ _ _ _ => sockOk k
  | .bwWindowEnd k _ _ _ => sockOk k
  | .sampleFire c _ _ => coreOk c
  | .pmuSnapshot k => sockOk k
  | .haltreqWrite c => coreOk c.c
  | .coreHalt c => coreOk c
  | .resumeWrite c => coreOk c.c
  | .stepWrite c => coreOk c.c
  | .accGo _ c => coreOk c
  | .memGo _ k => sockOk k
  | .dbgaccUpdate k _ _ _ => sockOk k
  | .dbgaccCapture k => sockOk k
  | .idcode k => sockOk k
  | .samplePreload k _ _ => sockOk k
  | .extest k _ => sockOk k
  | .clamp k => sockOk k
  | .highz k => sockOk k
  | .bypass k => sockOk k
  | .info k _ => sockOk k
  | .identity k _ _ => sockOk k
  | .powerOn k _ => sockOk k
  | .powerOff k _ => sockOk k
  | .resetCold k _ => sockOk k
  | .resetWarm k _ => sockOk k
  | .standby k _ => sockOk k
  | .regRead k _ _ _ _ => sockOk k
  | .regWrite k _ _ _ _ _ => sockOk k
  | .ashRead k _ _ => sockOk k
  | .ashSaved k _ _ => sockOk k
  | .ashNvclr k _ => sockOk k
  | .telemetry k _ _ _ => sockOk k
  | .thermal k _ => sockOk k
  | .debug k _ _ _ _ => sockOk k
  | .mgcIbi k => sockOk k
  | .rstdaa k => sockOk k
  | .entdaa k _ => sockOk k
  | .setdasa k _ _ => sockOk k
  | .getpid k => sockOk k
  | .getbcr k => sockOk k
  | .getdcr k => sockOk k
  | .getstatus k => sockOk k
  | .enec k => sockOk k
  | .disec k => sockOk k
  | .slotAttention k _ _ => sockOk k
  | .aerError k _ _ => sockOk k
  | .damperLimitClear k _ _ => sockOk k
  | .unitPowerDone k _ _ => sockOk k
  | .standbyRailLoss k => sockOk k
  | .bitsReadToHome h pa => sockOk h && paOk pa

end Sys2Proof
end

