-- ==== Sys2Proof/Tests/Slice0.lean ====
section
/-!
SUPPORT. Tests/Slice0.lean: ill-formed commands refused, single steps on small states against values from the spec's tables and examples, and
for every statement of the certificate a state and operands that meet its hypotheses, at the ends of their ranges.
-/
set_option maxRecDepth 100000
namespace Sys2Proof.Machine

/-! ### Small states -/

/-- The reset machine with a control-register field written. -/
def regAt (f : Fld) (a : Ix) (v : Nat) : State := State.reset.wr f a v

/-- The reset machine with several fields of one place written. -/
def regsAt (a : Ix) (l : List (Fld × Nat)) : State := State.reset.wrs a l

/-- The reset machine with core 0 changed. -/
def coreWith (f : Core → Core) : State := State.reset.updCore 0 f

/-- What the fetch of `len` bytes leaves. -/
def fetchedOf (s : State) (c len : Nat) : State := match s.fetch c len with | .ok _ t => t | _ => s

/-- A running socket with DRAM behind its memory channels. -/
def dram : State := regsAt { sock := 0 } [(Reg.mcCapGib, 16), (Reg.mcGeomEn, 1)]

/-- The same with core 0 changed. -/
def dramWith (f : Core → Core) : State := dram.updCore 0 f

/-- The state a successful result leaves. -/
def resLeft {α : Type} (r : Res α) (s : State) : State := match r with | .ok _ t => t | _ => s

/-- Core 0 with a DRAM address in registers 2 and 25, and its shadow stack there. -/
def atDram : State := dramWith (fun k => ((k.setG 2 0x1000).setG 25 0x1000).setSrOwn SR.SSP 0x2000)

/-- A translation core 0 has cached: the page of `va` at `pa`, of a type and a key. -/
def tlbPage (va pa : Nat) (ty : PType) (key : Nat) : TlbE :=
  { vm := 0, s2 := false, world := none, sid := 0, glob := true, base := va / 4096, bits := 12, pa := pa, key := key, ty := ty, dev := false,
    s2r := 3, leafA := true, leafD := true, leaf2A := true, leaf2D := true, ipaPage := 0 }

/-- Core 0 translating: its code at the boot address, a data page at 0x1000, a shadow-stack page at 0x2000 that SR.SSP names and a gate page
at 0x3000, all in DRAM but the code. -/
def mapped : State :=
  dramWith (fun k => { (((k.setG 2 0x1000).setSrOwn SR.SSP 0x2800).setSrOwn SR.XLATCTL 1) with
    tlb := [tlbPage 0x7FFFFF000000 0x7FFFFF000000 .normal 0, tlbPage 0x1000 0x1000 .normal 1, tlbPage 0x2000 0x2000 .shadow 1,
      tlbPage 0x3000 0x3000 .gate 1] })

/-- A flit that socket 1 sent to a stop of socket 0, or on through it. -/
def aFlit (dsock cls : Nat) (plan : List Nat) : Flit :=
  { cls := cls, cast := 0, a := false, dsock := dsock, ssock := 1, part := 0, dstop := 0, sstop := 0, txid := 0, tag := 0, hops := 0, vc := 0,
    dstep := 0, groups := 0, count := 0, plan := plan, time := 0 }

/-- The reset machine with registers 2 and 3 of core 0 set. -/
def regs23 (x y : Word) : State := coreWith (fun k => (k.setG 2 x).setG 3 y)

/-- Core 0 with room for a frame at SR.FSP - 128. -/
def framed : State := dramWith (fun k => k.setSrOwn SR.FSP 0x2000)

/-! ### Operands in range -/

/-- One command that is in range for each check. -/
theorem test_wf_accepts :
    Instr.wf (.nvClr 1023) = true ∧ Instr.wf (.gentry (1023 * 256 + 255)) = true ∧ Instr.wf (.cellClockGate 0 7) = true ∧
    Instr.wf (.channelResetDone 0 7 63) = true ∧ Instr.wf (.rds 0 (2 ^ 57 - 1) 0 0) = true ∧
    Instr.wf (.controlRegWrite .mgc 0 8 8 0) = true ∧ Instr.wf (.controlRegWrite .mgc 0 4 4 0) = true := by decide

/-- R5: a socket number has ten bits. -/
theorem test_wf_refuses_socket : Instr.wf (.nvClr 1024) = false := by decide

/-- A core has a socket of ten bits and a logical ID of eight. -/
theorem test_wf_refuses_core : Instr.wf (.gentry (1024 * 256)) = false := by decide

/-- R439: a socket has eight Stoker cells. -/
theorem test_wf_refuses_cell : Instr.wf (.cellClockGate 0 8) = false := by decide

/-- R439: a cell has 64 channels. -/
theorem test_wf_refuses_channel : Instr.wf (.channelResetDone 0 7 64) = false := by decide

/-- A physical address has 57 bits. -/
theorem test_wf_refuses_address : Instr.wf (.rds 0 (2 ^ 57) 0 0) = false := by decide

/-- R19: a write of control space has 4 or 8 bytes, naturally aligned. -/
theorem test_wf_refuses_write : Instr.wf (.controlRegWrite .mgc 0 4 8 0) = false ∧ Instr.wf (.controlRegWrite .mgc 0 8 2 0) = false := by decide

/-! ### One step on small states; the expected values come from the spec's tables and examples, or by hand from them -/

/-- The state a command leaves. -/
def after (i : Instr) (s : State) : State := match exec i s with | .next t => t | _ => s

/-- Table ISA-8: ADD wraps; the word form works on the low words and sign-extends. -/
theorem test_add_wraps : (after (.intOp 0 0 0x00 1 2 3) (regs23 (-1) 2)).g 0 1 = 1 := by decide
theorem test_add_word_sign_extends : (after (.intOp 0 1 0x00 1 2 3) (regs23 0x7FFFFFFF 1)).g 0 1 = 0xFFFFFFFF80000000 := by decide

/-- Table ISA-8: SUB takes gC from gB, SRA keeps the sign, MULHSU takes gB signed and gC unsigned, BSWAP reverses the bytes. -/
theorem test_sub_order : (after (.intOp 0 0 0x01 1 2 3) (regs23 5 7)).g 0 1 = -2 := by decide
theorem test_sra_sign : (after (.intOp 0 0 0x0A 1 2 3) (regs23 (-8) 65)).g 0 1 = -4 := by decide
theorem test_mulhsu : (after (.intOp 0 0 0x1B 1 2 3) (regs23 (-1) (-1))).g 0 1 = -1 := by decide
theorem test_bswap : (after (.intOp 0 0 0x23 1 2 0) (regs23 0x0102030405060708 0)).g 0 1 = 0x0807060504030201 := by decide

/-- R40: a result whose destination is g0 is discarded, and the pc moves on. -/
theorem test_g0_discards :
    (let t := after (.intOp 0 0 0x00 0 2 3) (regs23 1 2)
     t.g 0 0 = 0 ∧ t.pc 0 = State.reset.pc 0 + 4) := by decide

/-- R54: a remainder takes the sign of the dividend; a divisor of zero is an event and g1 is not written. -/
theorem test_rem_sign : (after (.div 0 0 0x1E 1 2 3) (regs23 (-7) 2)).g 0 1 = -1 := by decide
theorem test_div_zero : (after (.div 0 0 0x1C 1 2 3) (framed.updCore 0 (fun k => (k.setG 1 9).setG 2 5))).sr 0 SR.CAUSE = 0x0005 := by decide

/-- R55: over the bytes 31H to 39H, starting from all ones and inverted at the end, CRC-32C gives its standard check value. -/
theorem test_crc32c_check :
    crcBytes 0xFFFFFFFF [0x31, 0x32, 0x33, 0x34, 0x35, 0x36, 0x37, 0x38, 0x39] ^^^ 0xFFFFFFFF = 0xE3069283 := by decide

/-- R58: 7 × 25 ÷ 10 is 17.5, rounded half away from zero to 18; -17.5 to -18. -/
theorem test_dmul_rounds : (after (.dmul 0 1 1 2 3) (regs23 7 25)).g 0 1 = 18 := by decide
theorem test_dmul_rounds_away : (after (.dmul 0 1 1 2 3) (regs23 (-7) 25)).g 0 1 = -18 := by decide

/-- R59: a sum beyond DMAX is DMAX with its sign, and SR.FPSTAT.DOF is set. -/
theorem test_dadd_limits :
    (let t := after (.dadd 0 0 1 2 3) (regs23 (-999999999999999999) (-1))
     t.g 0 1 = -999999999999999999 ∧ (t.sr 0 SR.FPSTAT).getLsbD 5 = true) := by decide

/-- IEEE 754 binary64: 1 + 2 = 3; 1 ÷ 3 rounds to nearest, inexact. -/
theorem test_fadd :
    (after (.fadd 0 0 2 1 2 3) (coreWith (fun k => (k.setV 2 0x3FF0000000000000).setV 3 0x4000000000000000))).v 0 1 = 0x4008000000000000 := by
  decide
theorem test_fdiv_inexact :
    (let t := after (.fdiv 0 0 2 1 2 3) (coreWith (fun k => (k.setV 2 0x3FF0000000000000).setV 3 0x4008000000000000))
     t.v 0 1 = 0x3FD5555555555555 ∧ (t.sr 0 SR.FPSTAT).getLsbD 4 = true) := by decide

/-- R72: a conversion beyond the range gives the nearest integer that can be represented and sets NV; NaN gives 0. -/
theorem test_fcvt_saturates :
    (let t := after (.fcvt 0 0 6 2 1 2) (coreWith (fun k => k.setV 2 0x43E0000000000000))
     t.g 0 1 = 0x7FFFFFFF ∧ (t.sr 0 SR.FPSTAT).getLsbD 0 = true) := by decide
theorem test_fcvt_nan : (after (.fcvt 0 0 4 2 1 2) (coreWith (fun k => (k.setG 1 5).setV 2 0x7FF8000000000000))).g 0 1 = 0 := by decide

/-- R75, Table ISA-17: VADD on bytes wraps in its lane; a disabled lane is kept with ZM = 0 and zeroed with ZM = 1. -/
theorem test_vadd_lanes :
    (after (.vint 0 0 1 2 3 0 1 0 0 0) (coreWith (fun k => (((k.setV 1 0x5500).setV 2 0x01FF).setV 3 0x0102).setM 1 1))).v 0 1 = 0x5501 := by
  decide
theorem test_vadd_zeroes :
    (after (.vint 0 0 1 2 3 0 1 0 1 0) (coreWith (fun k => (((k.setV 1 0x5500).setV 2 0x01FF).setV 3 0x0102).setM 1 1))).v 0 1 = 0x01 := by
  decide

/-- R60: the word at the address, lowest address first, sign-extended. -/
theorem test_ld_sign_extends :
    (after (.ld 0 2 1 2 0 0) { atDram with mem := [(0x1000, 0x01), (0x1003, 0x80)] }).g 0 1 = 0xFFFFFFFF80000001 := by decide

/-- R64, R65: a taken branch goes to the instruction's address plus twice the immediate; one not taken to the next instruction. -/
theorem test_bcc_taken : (after (.bcc 0 2 2 3 (-2)) (regs23 (-1) 1)).pc 0 = State.reset.pc 0 - 4 := by decide
theorem test_bcc_unsigned : (after (.bcc 0 4 2 3 (-2)) (regs23 (-1) 1)).pc 0 = State.reset.pc 0 + 4 := by decide

/-- R82: HADD of a word returns the old value and leaves the sum; the bytes beside it stay. -/
theorem test_hadd :
    (let t := after (.hatom 0 0 0x00 1 2 3) { (atDram.updCore 0 (fun k => k.setG 3 2)) with mem := [(0x1000, 0xFF), (0x1004, 7)] }
     t.g 0 1 = 0xFF ∧ memNat t.mem 0x1000 8 = 0x0000000700000101) := by decide

/-- Table SYSX-4: {read, execute} and {read, write} have {read} in common. -/
theorem test_rights_meet : meet 2 3 = 1 ∧ meet 3 2 = 1 ∧ meet 2 2 = 2 ∧ meet 0 3 = 0 := by decide

/-- R108: KDROP of key 1 to {read} leaves every other key. -/
theorem test_kdrop : (after (.kdrop 0 2) (regs23 0x101 0)).sr 0 SR.KRIGHTS0 = 0xFFFFFFFFFFFFFFF6 := by decide

/-- The walk example of the address-translation chapter: the indices of the address, and the two leaves. -/
theorem test_walk_example :
    [5, 4, 3, 2, 1].map (fun l => vaIdx l 0x7F1000002040) = [0, 0xFE, 0x040, 0, 2] ∧
    (let l := leafOf 1 0x000180000A4C3023 0
     l.base = 0x180000A4C3000 ∧ l.bits = 12 ∧ l.key = 0 ∧ l.glob = false ∧ l.a = true ∧ l.pa 0x7F1000002040 = 0x180000A4C3040) ∧
    (let l := leafOf 2 0x0401800040200033 0
     l.base = 0x1800040200000 ∧ l.bits = 21 ∧ l.key = 1 ∧ l.glob = true) := by decide

/-- FIPS 180-4: the digest of no bytes. -/
theorem test_sha256_empty :
    beNat (sha256 []) = 0xE3B0C44298FC1C149AFBF4C8996FB92427AE41E4649B934CA495991B7852B855 := by decide

/-- FIPS 197 and SP 800-38D: AES-256 of a zero block under a zero key, and the tag of an empty message. -/
theorem test_aes_gcm_zero :
    beNat (aesBlock (aesKeys (List.replicate 32 0)) (List.replicate 16 0)) = 0xDC95C078A2408989AD48A21492842087 ∧
    beNat (gcm (List.replicate 32 0) (List.replicate 12 0) [] [] false).2 = 0x530F8AFBC74536B9A963B4F1C4CB738B := by decide

/-- R407, R408: a symbol error of one device of a code word is corrected to the line written. -/
theorem test_code_word_corrects :
    (dfcDecode ((dfcWord 5 1 false).set 3 (nth 0 (dfcWord 5 1 false) 3 ^^^ 0x81)) none).any (fun r =>
      r.1 == 5 && r.2.1 == 1 && r.2.2.1 == false) = true := by decide

/-- R507: an entry moves WRPTR on; NV_CLR clears NV.VALID. -/
theorem test_nv_clr : (after (.nvClr 0) (regAt Reg.ashNvValid { sock := 0 } 1)).rd Reg.ashNvValid { sock := 0 } = 0 := by decide
theorem test_ash_write :
    (after (.ashpanWrite 0 2 0x20 5 0x04 0 0 0 0 1 2 3) State.reset).rd Reg.ashRingWrptr { sock := 0 } =
      State.reset.rd Reg.ashRingWrptr { sock := 0 } + 1 := by decide

/-- A step takes the oldest command, and an empty queue lets a nanosecond pass. -/
theorem test_step_order :
    (match step { State.reset with pending := [.nvClr 0, .gentry 0] } with | .next t => t.pending | _ => []) = [.gentry 0] ∧
    (match step State.reset with | .next t => t.time | _ => 0) = 1 := by decide

/-! ### The whole machine -/

/-- A queue with a command at its front, and an empty one. -/
theorem witness_step :
    ({ State.reset with pending := [.nvClr 0] } : State).pending = [.nvClr 0] ∧ State.reset.pending = [] ∧
    (∃ t, step { State.reset with pending := [.nvClr 0] } = .next t) ∧ (∃ t, step State.reset = .next t) ∧ State.reset.memOk :=
  ⟨by decide, by decide, ⟨_, rfl⟩, ⟨_, rfl⟩, (by rfl : Memory.wf State.reset.mem = true)⟩

/-- A core with no arithmetic exception due, no single step armed and no debugger's step; two registers that differ. -/
theorem witness_retirement :
    (State.reset.precise 0 && (State.reset.sr 0 SR.FPSTAT).getLsbD 8) = false ∧ (State.reset.core 0).ssArm = false ∧
    (State.reset.core 0).stepping = false ∧ (1 : Reg5) ≠ 0 ∧ (2 : Reg5) ≠ 1 ∧ (1 : BitVec 3) ≠ 0 ∧
    (State.reset.core 0).region = none ∧ State.reset.fetch 0 4 = .ok () (fetchedOf State.reset 0 4) :=
  ⟨by decide, by decide, by decide, by decide, by decide, by decide, by decide, rfl⟩

/-- Cores that may not run: one not out of reset, one halted, one asleep. -/
theorem witness_stopped_core :
    instrCore (.gentry 5) = some 5 ∧ State.reset.canRun 5 = false ∧ (regAt Reg.dbgCoreStatHalted (coreIx 0) 1).canRun 0 = false ∧
    (coreWith (fun k => { k with wait := some { dest := 1, deadline := 0, kind := 1, closing := false } })).canRun 0 = false := by decide

/-- A load of a line of DRAM that nothing else has; two stores that merge in a line of it, before one to the next line. -/
theorem witness_loads_and_stores :
    (let p : Span := { pa := 0x1000, len := 64, dev := false }
     dram.target (coreSock 0) p.pa = .dram 0 0x1000 ∧ (dram.core 0).ownStores = [] ∧ (dram.core 0).region = none ∧ p.dev = false ∧ 0 < p.len ∧
       p.pa % 64 + p.len ≤ 64 ∧ dram.readWaits 0 (lineOf p.pa) = false ∧ dram.badFor 0 (lineOf p.pa * 64) = false ∧
       cellGet none dram.homeOld (lineOf p.pa) = none ∧ dram.homeOld = []) ∧
    (let e : StoreEnt := { pa := 0x1038, bytes := [1, 2, 3, 4, 5, 6, 7, 8], whole := false, rel := false }
     let f : StoreEnt := { pa := 0x1000, bytes := [9], whole := false, rel := false }
     let g : StoreEnt := { pa := 0x1040, bytes := [9], whole := false, rel := false }
     let s := dramWith (fun k => { k with storeQ := [e, f, g] })
     let n := ([f, g].takeWhile (fun x => lineOf x.pa = lineOf e.pa)).length
     (s.core 0).storeQ = [e, f, g] ∧ n = 1 ∧ (s.core 0).frozen = false ∧ (s.core 0).region = none ∧ s.outOfReset 0 = true ∧
       s.target (coreSock 0) e.pa = .dram 0 0x1038 ∧ s.target (coreSock 0) f.pa = .dram 0 0x1000 ∧
       e.pa % 64 + e.bytes.length ≤ 64 ∧ f.pa % 64 + f.bytes.length ≤ 64 ∧ s.lineWaits 0 (lineOf e.pa) = false ∧
       s.stale (coreSock 0) (lineOf e.pa) = false ∧ cellGet false s.macBad (lineOf e.pa) = false ∧ s.homeOld = [] ∧
       e.pa ≤ 0x1038 ∧ 0x103F < e.pa + e.bytes.length ∧ e.pa + e.bytes.length ≤ 0x1040) := by decide

/-! ### Instructions -/

/-- Core 0 fetches an instruction of 2, 4 or 6 bytes at its boot address. -/
theorem witness_fetched : State.reset.Fetched 0 2 (fetchedOf State.reset 0 2) ∧ State.reset.Fetched 0 4 (fetchedOf State.reset 0 4) ∧
    State.reset.Fetched 0 6 (fetchedOf State.reset 0 6) :=
  ⟨⟨by decide, by decide, by decide, by decide, rfl⟩, ⟨by decide, by decide, by decide, by decide, rfl⟩,
    ⟨by decide, by decide, by decide, by decide, rfl⟩⟩

/-- Division: fetched with the most negative doubleword over -1, the most negative word over -1, and a divisor of zero. -/
theorem witness_division :
    (let s := regs23 (BitVec.intMin 64) (-1)
     let s0 := fetchedOf s 0 4
     s.Fetched 0 4 s0 ∧ s0.g 0 2 = BitVec.intMin 64 ∧ s0.g 0 3 = -1 ∧ s0.g 0 3 ≠ 0 ∧ (s0.g 0 3).truncate 32 ≠ (0 : BitVec 32)) ∧
    (let s := regs23 0x80000000 (-1)
     let s0 := fetchedOf s 0 4
     s.Fetched 0 4 s0 ∧ (s0.g 0 2).truncate 32 = BitVec.intMin 32 ∧ (s0.g 0 3).truncate 32 = (-1 : BitVec 32)) ∧
    (let s0 := fetchedOf State.reset 0 4
     State.reset.Fetched 0 4 s0 ∧ s0.g 0 3 = 0 ∧ (s0.g 0 3).truncate 32 = (0 : BitVec 32)) :=
  ⟨⟨⟨by decide, by decide, by decide, by decide, rfl⟩, by decide⟩, ⟨⟨by decide, by decide, by decide, by decide, rfl⟩, by decide⟩,
    ⟨⟨by decide, by decide, by decide, by decide, rfl⟩, by decide⟩⟩

/-- Field, short and decimal operands at the ends of their ranges. -/
theorem witness_integer_operands :
    (3 : BitVec 6).toNat < 4 ∧ (31 : BitVec 6).toNat < 32 ∧ (63 : BitVec 6).toNat + ((0 : BitVec 6).toNat + 1) ≤ 64 ∧
    (1 : Reg5) ≠ 0 ∧ (18 : BitVec 6).toNat ≤ 18 ∧ (0 : Int) ≤ (18 : BitVec 6).toInt ∧ (18 : BitVec 6).toInt ≤ 18 ∧
    (-18 : Int) ≤ (-18 : BitVec 6).toInt ∧ (-18 : BitVec 6).toInt < 0 ∧
    (fetchedOf (regs23 0 1) 0 4).g 0 3 ≠ 0 ∧ (fetchedOf State.reset 0 4).g 0 3 = 0 := by decide

/-! ### Floating point and vectors -/

/-- Every format and rounding mode at its ends, integer operands, and two formats that differ. -/
theorem witness_floating_point :
    State.reset.Fetched 0 4 (fetchedOf State.reset 0 4) ∧
    (fmtOf (0 : BitVec 3).toNat = some Fmt.b16 ∧ fmtOf (2 : BitVec 3).toNat = some Fmt.b64 ∧ (0 : BitVec 3) ≠ 2 ∧
      (fetchedOf State.reset 0 4).rmode 0 0 = some 0 ∧ (fetchedOf State.reset 0 4).rmode 0 4 = some 4 ∧
      (fetchedOf State.reset 0 4).rmode 0 7 = some 0 ∧ 4 ≤ (4 : BitVec 3).toNat ∧ 4 ≤ (7 : BitVec 3).toNat) :=
  ⟨⟨by decide, by decide, by decide, by decide, rfl⟩, by decide⟩

/-- Every form of the second operand, an operation of each group, and the widths of their lanes. -/
theorem witness_vector_arithmetic :
    State.reset.Fetched 0 6 (fetchedOf State.reset 0 6) ∧
    (let s0 := fetchedOf State.reset 0 6
     (s0.second 0 8 0 3 0).isSome = true ∧ (s0.second 0 64 1 3 0).isSome = true ∧ (s0.second 0 64 2 0 31).isSome = true ∧
       (vintOp 0 8 0 0).isSome = true ∧ (vcmpOp 5 64 0 0).isSome = true ∧ (7 : Reg5).toNat < 8 ∧ laneFmt 1 = some Fmt.b16 ∧
       laneFmt 3 = some Fmt.b64 ∧ s0.rmode 0 7 = some 0 ∧ (vfpOp Fmt.b32 0 0 0 0).isSome = true ∧ vfpOp Fmt.b32 0 16 0 0 = none ∧
       (vfpCmp Fmt.b32 16 0 0).isSome = true ∧ (3 : BitVec 11).toNat < 4) :=
  ⟨⟨by decide, by decide, by decide, by decide, rfl⟩, by decide⟩

/-- A vector load and store of one lane of DRAM, and with no lane enabled. -/
theorem witness_vector_memory :
    (let s := dramWith (fun k => (k.setG 2 0x1000).setM 1 1)
     let s0 := fetchedOf s 0 6
     let m := s0.vmask 0 1 3 0
     s.Fetched 0 6 s0 ∧ (s0.laneAddr 0 m.w 0 2 0 0).isSome = true ∧ m.onLanes = [0] ∧
       (∃ s1, s0.loadLanes 0 (m.w / 8) (fun i => s0.g 0 2 + BitVec.ofNat 64 (i * (m.w / 8))) m.onLanes = .ok [(0, 0)] s1) ∧
       (∃ s1, s0.storeLanes s0 0 (m.w / 8) (fun i => s0.g 0 2 + BitVec.ofNat 64 (i * (m.w / 8))) (lane m.w (s0.v 0 1)) m.onLanes =
         .ok (s0.nextPc 0 6) s1) ∧ (∃ s', s0.loadErr 0 6 0 (s0.g 0 2) 8 = .ok () s') ∧
       (s0.vmask 0 0 3 0).onLanes.length = 512 / (s0.vmask 0 0 3 0).w ∧ s0.wholeLine 0 (s0.g 0 2) = true ∧
       (∃ s1, s0.storeRaw 0 Acc.store (s0.g 0 2) (leBytes 64 (s0.v 0 1).toNat) true false = .ok () s1)) ∧
    (let s0 := fetchedOf State.reset 0 6
     (s0.vmask 0 1 3 0).onLanes = []) :=
  ⟨⟨⟨by decide, by decide, by decide, by decide, rfl⟩, by decide, by decide, ⟨_, rfl⟩, ⟨_, rfl⟩, ⟨_, rfl⟩, by decide, by decide, ⟨_, rfl⟩⟩, by decide⟩

/-- Widths that VUNPK and VPACK take, the lanes VINS names, a reduction and mask registers. -/
theorem witness_vector_permute_reduce_mask :
    (let s0 := fetchedOf State.reset 0 6
     (7 : Reg5).toNat + 1 ≤ (s0.vmask 0 0 0 0).w ∧ (31 : Reg5).toNat + 1 ≤ (s0.vmask 0 0 3 0).w ∧
       (vredInt 0 8 ((s0.vmask 0 0 0 0).onLanes.map (lane 8 (s0.v 0 2)))).isSome = true ∧ (s0.vmask 0 1 0 0).onLanes = [] ∧
       laneFmt 1 = some Fmt.b16 ∧ s0.rmode 0 7 = some 0 ∧ (7 : Reg5).toNat < 8 ∧ (63 : BitVec 6).toNat < 512 / (s0.vmask 0 0 0 0).w) := by
  decide

/-! ### Memory instructions and control transfer -/

/-- Loads of every form: fetched, granted and read from DRAM, with no array error and with one in a line the L1D lacks; LDA aligned with no
release store waiting. -/
theorem witness_loads :
    loadWidth 3 = some (8, true) ∧ loadWidth 4 = some (1, false) ∧ (3 : BitVec 6).toNat < 4 ∧
    (let s0 := fetchedOf atDram 0 4
     atDram.Fetched 0 4 s0 ∧ (∃ bs s1, s0.LoadsMet 0 4 0 (s0.g 0 2 + (0 : BitVec 11).signExtend 64) 8 bs s1) ∧
       (∃ bs s1, s0.LoadsMet 0 4 2 (s0.g 0 2 + (s0.g 0 0 <<< 3)) 8 bs s1) ∧
       (s0.g 0 2 + (0 : BitVec 11).signExtend 64).toNat % 8 = 0 ∧ (s0.core 0).storeQ.any (·.rel) = false) ∧
    (let s0 := fetchedOf atDram 0 6
     atDram.Fetched 0 6 s0 ∧ ∃ bs s1, s0.LoadsMet 0 6 0 (s0.g 0 2 + (0 : BitVec 27).signExtend 64) 8 bs s1) ∧
    (let s0 := fetchedOf atDram 0 2
     atDram.Fetched 0 2 s0 ∧ ∃ bs s1, s0.LoadsMet 0 2 0 (s0.g 0 25 + (0 : BitVec 5).zeroExtend 64 * 8) 8 bs s1) :=
  ⟨rfl, rfl, by decide,
    ⟨⟨by decide, by decide, by decide, by decide, rfl⟩, ⟨_, _, _, rfl, _, _, _, rfl, rfl, rfl, rfl⟩, ⟨_, _, _, rfl, _, _, _, rfl, rfl, rfl, rfl⟩,
      by decide, by decide⟩,
    ⟨⟨by decide, by decide, by decide, by decide, rfl⟩, ⟨_, _, _, rfl, _, _, _, rfl, rfl, rfl, rfl⟩⟩,
    ⟨⟨by decide, by decide, by decide, by decide, rfl⟩, ⟨_, _, _, rfl, _, _, _, rfl, rfl, rfl, rfl⟩⟩⟩

/-- Stores of every form, of eight bytes and of one. -/
theorem witness_stores :
    storeWidth 3 = some 8 ∧ storeWidth 0 = some 1 ∧
    (let s0 := fetchedOf atDram 0 4
     (∃ s1, s0.store 0 Acc.store (s0.g 0 2 + (0 : BitVec 11).signExtend 64) (leBytes 8 (s0.g 0 1).toNat) false false = .ok () s1) ∧
       (∃ s1, s0.store 0 Acc.store (s0.g 0 2 + (s0.g 0 0 <<< 3)) (leBytes 1 (s0.g 0 1).toNat) false false = .ok () s1) ∧
       (s0.g 0 2 + (0 : BitVec 11).signExtend 64).toNat % 8 = 0 ∧
       (∃ s1, s0.store 0 Acc.store (s0.g 0 2 + (0 : BitVec 11).signExtend 64) (leBytes 8 (s0.g 0 1).toNat) false true = .ok () s1)) ∧
    (let s0 := fetchedOf atDram 0 6
     ∃ s1, s0.store 0 Acc.store (s0.g 0 2 + (0 : BitVec 27).signExtend 64) (leBytes 8 (s0.g 0 1).toNat) false false = .ok () s1) ∧
    (let s0 := fetchedOf atDram 0 2
     ∃ s1, s0.store 0 Acc.store (s0.g 0 25 + (0 : BitVec 5).zeroExtend 64 * 8) (leBytes 8 (s0.g 0 1).toNat) false false = .ok () s1) :=
  ⟨rfl, rfl, ⟨⟨_, rfl⟩, ⟨_, rfl⟩, by decide, ⟨_, rfl⟩⟩, ⟨_, rfl⟩, ⟨_, rfl⟩⟩

/-- Transfers with room for their checkpoint: to an even target, to an odd one, taken and not. -/
theorem witness_transfers :
    (let s := regs23 0x1001 0x1000
     let s0 := fetchedOf s 0 4
     s.Fetched 0 4 s0 ∧ (s0.g 0 2).toNat % 2 = 1 ∧ (s0.g 0 3).toNat % 2 = 0 ∧
       (∀ kind ∈ [0, 1, 2, 3, 4, 5], (s0.nopred 0 || !(s0.core 0).pred.full kind) = true)) ∧
    (State.reset.Fetched 0 6 (fetchedOf State.reset 0 6) ∧ State.reset.Fetched 0 2 (fetchedOf State.reset 0 2)) :=
  ⟨⟨⟨by decide, by decide, by decide, by decide, rfl⟩, by decide⟩, ⟨by decide, by decide, by decide, by decide, rfl⟩,
    ⟨by decide, by decide, by decide, by decide, rfl⟩⟩

/-- A call whose push is granted, and returns whose popped entry agrees with the register and does not. -/
theorem witness_calls :
    (let s0 := fetchedOf mapped 0 4
     mapped.Fetched 0 4 s0 ∧ (s0.g 0 2).toNat % 2 = 0 ∧
       (∃ s1, s0.store 0 Acc.push (s0.sr 0 SR.SSP - 8) (leBytes 8 (s0.pc 0 + 4).toNat) false false = .ok () s1 ∧
         ∃ u, ((s1.setSr 0 SR.SSP (s0.sr 0 SR.SSP - 8)).setG 0 26 (s0.pc 0 + 4)).transfer 0 4 4 true (s0.g 0 2) (s0.pc 0 + 4) =
           .ok (s0.g 0 2) u) ∧
       (∃ s1, s0.loadRaw 0 Acc.pop (s0.sr 0 SR.SSP) 8 = .ok (List.replicate 8 0) s1 ∧
         ∃ u, (s1.setSr 0 SR.SSP (s0.sr 0 SR.SSP + 8)).transfer 0 5 4 true (s0.g 0 3)
           ((s1.setSr 0 SR.SSP (s0.sr 0 SR.SSP + 8)).nextPc 0 4) = .ok (s0.g 0 3) u) ∧
       BitVec.ofNat 64 (leNat (List.replicate 8 0)) = s0.g 0 3 ∧ (s0.g 0 3).toNat % 2 = 0 ∧
       BitVec.ofNat 64 (leNat (List.replicate 8 0)) ≠ s0.g 0 2) ∧
    (let s0 := fetchedOf mapped 0 2
     mapped.Fetched 0 2 s0 ∧ (∃ s1, s0.loadRaw 0 Acc.pop (s0.sr 0 SR.SSP) 8 = .ok (List.replicate 8 0) s1 ∧
         ∃ u, (s1.setSr 0 SR.SSP (s0.sr 0 SR.SSP + 8)).transfer 0 5 2 true (s0.g 0 26)
           ((s1.setSr 0 SR.SSP (s0.sr 0 SR.SSP + 8)).nextPc 0 2) = .ok (s0.g 0 26) u) ∧
       BitVec.ofNat 64 (leNat (List.replicate 8 0)) = s0.g 0 26) :=
  ⟨⟨⟨by decide, by decide, by decide, by decide, rfl⟩, by decide, ⟨_, rfl, _, rfl⟩, ⟨_, rfl, _, rfl⟩, by decide, by decide, by decide⟩,
    ⟨⟨by decide, by decide, by decide, by decide, rfl⟩, ⟨_, rfl, _, rfl⟩, by decide⟩⟩

/-- No arithmetic exception is pending at reset; a code of 16 bits. -/
theorem witness_traps :
    ((fetchedOf State.reset 0 4).sr 0 SR.FPSTAT).getLsbD 8 = false ∧ ((fetchedOf State.reset 0 2).sr 0 SR.FPSTAT).getLsbD 8 = false ∧
    (65535 : BitVec 19).toNat < 2 ^ 16 := by decide
/-! ### Atomics, regions, fences, maintenance and TLB invalidation -/

/-- Core 0 after the access of `n` bytes at its DRAM address, after its queued stores to the line are performed, and past its gate. -/
def atHome (acc : Acc) (n : Nat) (noHome : Bool) : State × State × State :=
  let u := resLeft ((fetchedOf atDram 0 4).accessMem 0 acc 0x1000 n noHome) State.reset
  let v := (u.drainLine 0 (lineOf 0x1000)).getD State.reset
  (u, v, v.gatePass 0 0)

/-- A Hearth atomic on a line of DRAM its home serves: not posted, of a doubleword. -/
theorem witness_hearth_atomic_doubleword :
    atDram.Fetched 0 4 (fetchedOf atDram 0 4) ∧ ((fetchedOf atDram 0 4).core 0).region = none ∧ ((fetchedOf atDram 0 4).g 0 2).toNat % 8 = 0 ∧
    (fetchedOf atDram 0 4).LineAt 0 Acc.atomic ((fetchedOf atDram 0 4).g 0 2) 8 false 0x1000 0 (atHome Acc.atomic 8 false).2.2 ∧
    (atHome Acc.atomic 8 false).2.2.badLine 0x1000 = false :=
  ⟨⟨by decide, by decide, by decide, by decide, rfl⟩, by decide, by decide,
    ⟨(atHome Acc.atomic 8 false).1, (atHome Acc.atomic 8 false).2.1, rfl, rfl, ⟨0x1000, .inl ⟨by decide, by decide⟩⟩, by decide, by decide,
      by decide, rfl⟩, by decide⟩

/-- The same posted, of a word. -/
theorem witness_hearth_atomic_word :
    ((fetchedOf atDram 0 4).g 0 2).toNat % 4 = 0 ∧
    (fetchedOf atDram 0 4).LineAt 0 Acc.atomic ((fetchedOf atDram 0 4).g 0 2) 4 false 0x1000 0 (atHome Acc.atomic 4 false).2.2 ∧
    (atHome Acc.atomic 4 false).2.2.badLine 0x1000 = false :=
  ⟨by decide, ⟨(atHome Acc.atomic 4 false).1, (atHome Acc.atomic 4 false).2.1, rfl, rfl, ⟨0x1000, .inl ⟨by decide, by decide⟩⟩, by decide,
    by decide, by decide, rfl⟩, by decide⟩

/-- A region: optimistic, of no line yet, its checkpoint empty. -/
def aRegion (ordered : Bool) : Region :=
  { ordered := ordered, lines := [], held := [], stores := [], accessed := false, retired := 0, dest := 1, next := 0x1004, ckG := [], ckV := [],
    ckM := [], ckFpstat := 0, ckXpc := 0 }

/-- Core 0 at DRAM with a region open. -/
def inRegion (ordered : Bool) : State := atDram.updCore 0 (fun k => { k with region := some (aRegion ordered) })

/-- A region to open; an open one of each kind, to add a line to and to commit. -/
theorem witness_regions :
    ((fetchedOf atDram 0 4).core 0).region = none ∧ ((fetchedOf atDram 0 4).drain 0).isSome = true ∧
    (∀ o, let s0 := fetchedOf (inRegion o) 0 4
      let s1 := resLeft (s0.access 0 Acc.atomAdd (s0.g 0 2) 1) State.reset
      let s2 := (s0.drain 0).getD State.reset
      (inRegion o).Fetched 0 4 s0 ∧ (s0.core 0).region = some (aRegion o) ∧ (aRegion o).accessed = false ∧ (aRegion o).lines.length < 8 ∧
        (aRegion o).lines.contains (lineOf 0x1000) = false ∧
        s0.access 0 Acc.atomAdd (s0.g 0 2) 1 = .ok [{ pa := 0x1000, len := 1, dev := false }] s1 ∧
        s1.target (coreSock 0) 0x1000 = .dram 0 0x1000 ∧ s1.lineWaits 0 (lineOf 0x1000) = false ∧
        s0.drain 0 = some s2 ∧ ((s2.ensureHeld 0).bind (fun s => (s.core 0).region.bind (fun r => s.commitStores 0 r))).isSome = true ∧
        (s0.core 0).devWait = none ∧ (s0.core 0).wait = none ∧ (s0.core 0).fence = none) := by
  refine ⟨by decide, by decide, ?_⟩
  intro o
  cases o <;>
    exact ⟨⟨by decide, by decide, by decide, by decide, rfl⟩, by decide, by decide, by decide, by decide, rfl, by decide, by decide, rfl,
      by decide, by decide, by decide, by decide⟩

/-- A region past its 1,024th instruction, and an ordered one while recovery is in progress. -/
theorem witness_region_commands :
    (let r := { aRegion false with retired := 1026 }
     ((coreWith (fun k => { k with region := some r })).core 0).region = some r ∧ 1025 < r.retired) ∧
    (let s := { inRegion true with acts := [(0, 1)] }
     (s.core 0).region = some (aRegion true) ∧ (aRegion true).ordered = true ∧ s.inAction (coreSock 0) = true) := by decide

/-- Core 0 with a store queued to a line another core's region holds, while recovery is in progress. -/
def storeHeld : State :=
  { atDram.updCore 0 (fun k => { k with storeQ := [{ pa := 0x1000, bytes := [1], whole := false, rel := false }] }) with
    held := [(64, some { holder := 1, waiter := none })], acts := [(0, 1)] }

/-- Fences with an empty store queue, with one whose store must wait, in recovery with a store queued, and a posted atomic that failed. -/
theorem witness_fences :
    (let s0 := fetchedOf atDram 0 4
     let s1 := (s0.drain 0).getD State.reset
     (s0.drain 0).isSome = true ∧ (s1.core 0).mchk = [] ∧ (s1.core 0).tlbiOut = []) ∧
    storeHeld.Fetched 0 4 (fetchedOf storeHeld 0 4) ∧ ((fetchedOf storeHeld 0 4).drain 0).isNone = true ∧
    (let u := storeHeld.updCore 0 (fun k => { k with fence := some 4 })
     u.canRun 0 = true ∧ (u.core 0).fence.isSome = true ∧ u.inAction (coreSock 0) = true ∧ (u.core 0).storeQ.length = 1) ∧
    (({ State.reset with pafs := [(0, 0x1000, 1)] } : State).pafs.find? (fun e => e.1 = 0) = some (0, 0x1000, 1)) :=
  ⟨by decide, ⟨by decide, by decide, by decide, by decide, rfl⟩, by decide, by decide, by decide⟩

/-- Cache maintenance and TLB invalidation with the authority reset gives, and on a line of DRAM. -/
theorem witness_maintenance :
    (let s0 := fetchedOf atDram 0 4
     (s0.core 0).region = none ∧ s0.auth 0 4 = true ∧ s0.auth 0 3 = true ∧ s0.auth 0 2 = true ∧ (s0.core 0).guest = false ∧
       (s0.drain 0).isSome = true ∧ (((s0.drain 0).getD State.reset).core 0).tlbiOut.length < 8) ∧
    (fetchedOf atDram 0 4).LineAt 0 Acc.clean ((fetchedOf atDram 0 4).g 0 2) 1 true 0x1000 0 (atHome Acc.clean 1 true).2.2 ∧
    (fetchedOf atDram 0 4).LineAt 0 Acc.inval ((fetchedOf atDram 0 4).g 0 2) 1 true 0x1000 0 (atHome Acc.inval 1 true).2.2 ∧
    (fetchedOf atDram 0 4).accessMem 0 Acc.czero ((fetchedOf atDram 0 4).g 0 2) 1 false =
      .ok [{ pa := 0x1000, len := 1, dev := false }] (atHome Acc.czero 1 false).1 ∧
    ((atHome Acc.czero 1 false).1.writeSpan 0 { pa := lineOf 0x1000 * 64, len := 64, dev := false } (List.replicate 64 0) true false).isSome =
      true :=
  ⟨by decide, ⟨(atHome Acc.clean 1 true).1, (atHome Acc.clean 1 true).2.1, rfl, rfl, ⟨0x1000, .inl ⟨by decide, by decide⟩⟩, by decide, by decide,
      by decide, rfl⟩,
    ⟨(atHome Acc.inval 1 true).1, (atHome Acc.inval 1 true).2.1, rfl, rfl, ⟨0x1000, .inl ⟨by decide, by decide⟩⟩, by decide, by decide, by decide,
      rfl⟩, rfl, by decide⟩

/-- An invalidation being forwarded, waiting for core 0 and for a root complex, acknowledged by every target, and by every socket. -/
theorem witness_tlb_completion :
    (let s (f snt : Bool) (l : List Nat) : State :=
       { State.reset with tlbis := [{ id := 0, core := 0, inv := .all, socks := [{ sock := 0, fwd := f, left := l, sent := snt }] }] }
     ((s false false []).tlbiFind 0 0).isSome = true ∧ ((s true false [0, 256]).tlbiFind 0 0).isSome = true ∧
       ([0, 256] : List Nat).contains 0 = true ∧ ([0, 256] : List Nat).contains 256 = true ∧
       ((s true false [0, 256]).core 0).frozen = false ∧ ((s true false [0, 256]).core 0).midAccess = false ∧ ((s true false [0, 256]).drain 0).isSome = true ∧
       ((s true true []).tlbis.find? (fun z => z.id = 0 && z.core = 0)).isSome = true) := by decide

/-! ### System registers, key rights, gates and waiting -/

/-- A system register to read, one to write under each authority, and the numbers that trap. -/
theorem witness_system_registers :
    (let s0 := fetchedOf State.reset 0 4
     State.reset.Fetched 0 4 s0 ∧ (s0.core 0).region = none ∧ (s0.core 0).world = none ∧ (s0.core 0).guest = false ∧
       (s0.sr 0 SR.FPSTAT).getLsbD 8 = false ∧ (s0.drain 0).isSome = true ∧
       (∀ b ∈ [0, 1, 5, 10], s0.auth 0 b = true)) ∧
    (let s := coreWith (fun k => k.setSrOwn SR.AUTH 0)
     s.Fetched 0 4 (fetchedOf s 0 4) ∧ (fetchedOf s 0 4).auth 0 5 = false ∧ (fetchedOf s 0 4).auth 0 0 = false ∧
       ((fetchedOf s 0 4).core 0).region = none ∧ ((fetchedOf s 0 4).sr 0 SR.FPSTAT).getLsbD 8 = false) ∧
    srKnown 0xFFF = false ∧ srRo 0x004 = true ∧ srRo 0x102 = false ∧ srKnown 0x102 = true ∧ srAuth 0x102 = some 0 :=
  ⟨⟨⟨by decide, by decide, by decide, by decide, rfl⟩, by decide, by decide, by decide, by decide, by decide, by decide⟩,
    ⟨⟨by decide, by decide, by decide, by decide, rfl⟩, by decide, by decide, by decide, by decide⟩, by decide⟩

/-- A gate descriptor at 0x3000 that leads to a GENTRY at 0x1000, with every key executable there. -/
def gated : State :=
  { (mapped.updCore 0 (fun k => k.setG 4 0x3000)) with
    mem := [(0x1001, 0x9D), (0x1002, 0x01)] ++ (List.range 16).map (fun i => (0x3000 + i, 0xAA)) ++ [(0x3011, 0x01)] }

/-- A gate whose descriptor is granted and well formed, within the normal world. -/
theorem witness_gate :
    (let s0 := fetchedOf gated 0 4
     let s1 := resLeft (s0.access 0 Acc.gate (s0.g 0 4) 32) State.reset
     let bs : List Byte := memBytes s1.mem 0x3000 32
     let s2 := resLeft (s1.readSpans 0 Acc.gate (s0.g 0 4) [{ pa := 0x3000, len := 32, dev := false }]) State.reset
     let d := descOf bs
     let w := s2.gateWorld 0 0x3000 d
     let s3 := resLeft (s2.gateFetch 0 w d) State.reset
     gated.Fetched 0 4 s0 ∧ (s0.core 0).region = none ∧ (s0.sr 0 SR.FPSTAT).getLsbD 8 = false ∧ (s0.g 0 4).toNat % 32 = 0 ∧
       s0.access 0 Acc.gate (s0.g 0 4) 32 = .ok [{ pa := 0x3000, len := 32, dev := false }] s1 ∧
       s1.readSpans 0 Acc.gate (s0.g 0 4) [{ pa := 0x3000, len := 32, dev := false }] = .ok bs s2 ∧
       s2.gateRefusal 0 0x3000 d = none ∧ w = none ∧ s2.gateFetch 0 w d = .ok 0x00019D00 s3 ∧
       (s3.core 0).world = none ∧
       ∃ s4, s3.storeRaw 0 Acc.push (s3.sr 0 SR.SSP - 48) (s3.gateRecord 0 d false) false false = .ok () s4) :=
  ⟨⟨by decide, by decide, by decide, by decide, rfl⟩, by decide, by decide, by decide, rfl, rfl, by decide, by decide, rfl,
    by decide, ⟨_, rfl⟩⟩

/-- A return record of the current domain at SR.SSP; one that is none; and a frame at SR.FSP. -/
def returning (m : Memory) : State := { (mapped.updCore 0 (fun k => k.setSrOwn SR.FSP 0x1000)) with mem := m }

/-- The bytes of a load that is granted. -/
def bytesOf (r : Res (List Byte)) : List Byte := match r with | .ok b _ => b | _ => []

/-- Returns: a record whose marker is 1, one whose marker is 0, a frame whose bit 63 is set, and no SR.AUTH.EVENT. -/
theorem witness_returns :
    (let s0 := fetchedOf (returning [(0x2800, 1)]) 0 4
     let m := bytesOf (s0.loadRaw 0 Acc.pop (s0.sr 0 SR.SSP) 8)
     let s1 := resLeft (s0.loadRaw 0 Acc.pop (s0.sr 0 SR.SSP) 8) State.reset
     (returning [(0x2800, 1)]).Fetched 0 4 s0 ∧ (s0.core 0).region = none ∧ (s0.sr 0 SR.FPSTAT).getLsbD 8 = false ∧
       s0.loadRaw 0 Acc.pop (s0.sr 0 SR.SSP) 8 = .ok m s1 ∧ leNat m % 2 = 1 ∧
       leNat m / 2 ^ 16 % 2 ^ 16 = ((s1.core 0).srOwn SR.DOMAIN).toNat % 2 ^ 16 ∧
       ∃ t s2, s1.loadRaw 0 Acc.pop (s0.sr 0 SR.SSP + 8) 40 = .ok t s2) ∧
    (let s0 := fetchedOf (returning []) 0 4
     let m := bytesOf (s0.loadRaw 0 Acc.pop (s0.sr 0 SR.SSP) 8)
     (∃ s1, s0.loadRaw 0 Acc.pop (s0.sr 0 SR.SSP) 8 = .ok m s1) ∧ leNat m % 2 = 0) ∧
    (let s0 := fetchedOf (returning [(0x1007, 0x80)]) 0 4
     let bs := bytesOf (s0.loadRaw 0 Acc.load (s0.sr 0 SR.FSP) 128)
     let s1 := resLeft (s0.loadRaw 0 Acc.load (s0.sr 0 SR.FSP) 128) State.reset
     s0.auth 0 1 = true ∧ s0.loadRaw 0 Acc.load (s0.sr 0 SR.FSP) 128 = .ok bs s1 ∧ s1.frameBad 0 (frameWord bs 0) = false) ∧
    (fetchedOf (coreWith (fun k => k.setSrOwn SR.AUTH 0)) 0 4).auth 0 1 = false :=
  ⟨⟨⟨by decide, by decide, by decide, by decide, rfl⟩, by decide, by decide, rfl, by decide, by decide, ⟨_, _, rfl⟩⟩,
    ⟨⟨_, rfl⟩, by decide⟩, ⟨by decide, rfl, by decide⟩, by decide⟩

/-- A core about to wait; one with a deadline already passed; one asleep that a halt request wakes; one entering Banked sleep. -/
theorem witness_waiting :
    (let s0 := fetchedOf State.reset 0 4
     State.reset.Fetched 0 4 s0 ∧ (s0.core 0).region = none ∧ (s0.sr 0 SR.FPSTAT).getLsbD 8 = false ∧
       s0.wakeReason 0 (s0.g 0 1).toNat = none ∧ s0.auth 0 6 = true ∧ (s0.drain 0).isSome = true) ∧
    (let s := { coreWith (fun k => k.setG 1 5) with time := 1000000 }
     let s0 := fetchedOf s 0 4
     s0.wakeReason 0 (s0.g 0 1).toNat = some 1) ∧
    (let i : WaitInfo := { dest := 1, deadline := 0, kind := 1, closing := false }
     let s := (regAt Reg.dbgCoreCtlHaltreq (coreIx 0) 1).updCore 0 (fun k => { k with wait := some i })
     (s.core 0).wait = some i ∧ s.wakeReason 0 0 = some 2 ∧ s.rd Reg.pwrPkgState { sock := coreSock 0 } = 0 ∧ i.kind ≠ 3) ∧
    (let i : WaitInfo := { dest := 1, deadline := 0, kind := 2, closing := true }
     let s := coreWith (fun k => { k with wait := some i })
     (s.core 0).wait = some i ∧ i.closing = true ∧ s.wakeReason 0 0 = none) :=
  ⟨⟨⟨by decide, by decide, by decide, by decide, rfl⟩, by decide, by decide, by decide, by decide, by decide⟩, by decide, by decide, by decide⟩

/-! ### Events, interrupts and messages -/

/-- An event is entered. -/
theorem witness_event_entry :
    (∃ u, framed.enter 0 { cause := 4, rpc := 0, epc := 0 } false false = .entered u) ∧ (framed.sr 0 SR.FPSTAT).getLsbD 8 = false ∧
    (framed.core 0).world = none ∧ (framed.core 0).guest = false ∧ (framed.core 0).storeQ.length ≤ 142 :=
  ⟨⟨_, rfl⟩, by decide, by decide, by decide, by decide⟩

/-- An interrupt pending on core 0, one of a higher priority over an open window, a machine check due, and a window that commits. -/
theorem witness_interrupt_entry :
    (let s := framed.setPend 0 0x51
     s.canRun 0 = true ∧ (s.core 0).stepping = false ∧ (s.core 0).region = none ∧ (s.sr 0 SR.FPSTAT).getLsbD 8 = false ∧
       (s.core 0).mchk = [] ∧ s.dueVault 0 = none ∧ s.dueInterrupt 0 = some 0x51) ∧
    (let m : MCheck := { cause := 0x301, addr := 0, info := 0 }
     let s := framed.updCore 0 (fun k => { k with mchk := [m] })
     s.canRun 0 = true ∧ (s.core 0).stepping = false ∧ (s.core 0).mchk = [m] ∧
       ∃ u, s.enter 0 { cause := m.cause, rpc := s.pc 0, epc := s.pc 0, evaddr := BitVec.ofNat 64 m.addr, info := m.info, async := true }
         false false = .entered u ∧ (u.core 0).stepping = false) ∧
    (let w : EntryWin := { vector := 0x51, takeover := false, fromNormal := false }
     let s := (framed.setPend 0 0x61).updCore 0 (fun k => { k with win := some w })
     (s.core 0).win = some w ∧ (s.core 0).world = none ∧ s.isPend 0 0x61 = true ∧ s.deliverable 0 0x61 = true ∧ (s.core 0).guest = false ∧
       w.vector / 16 < 0x61 / 16 ∧ w.vector / 16 = 0x5F / 16 ∧
       ∃ u, (s.updCore 0 (fun k => { k with win := none })).enter 0
         { cause := 0x400 + w.vector, rpc := s.pc 0, epc := s.pc 0, async := true, vector := w.vector } w.fromNormal w.takeover = .entered u ∧
         (u.core 0).world = none) :=
  ⟨by decide, ⟨by decide, by decide, by decide, _, rfl, by decide⟩,
    ⟨by decide, by decide, by decide, by decide, by decide, by decide, by decide, _, rfl, by decide⟩⟩

/-- A timer reached and one not armed; messages to core 0 and to every core; a route that names nobody and one that names core 0. -/
theorem witness_interrupt_sources :
    (let s := { coreWith (fun k => k.setSrOwn SR.TCMP 1) with time := 1000000 }
     s.outOfReset 0 = true ∧ (s.core 0).world = none ∧ (s.core 0).srOwn SR.TCMP ≠ 0 ∧ ((s.core 0).srOwn SR.TCMP).toNat ≤ s.now (coreSock 0)) ∧
    (State.reset.core 0).srOwn SR.TCMP = 0 ∧
    (let p : Ipi := { sock := 0, core := some 0, skip := none, vector := 0x51 }
     ({ State.reset with ipis := [p] } : State).ipis.find? (fun i => i.sock = 0) = some p ∧ State.reset.live 0 = true ∧
       State.reset.coreThere 0 0 = true) ∧
    State.reset.rd Reg.ihubRouteValid { sock := 0, i := 4095 } = 0 ∧
    (let s := regsAt { sock := 0, i := 0 } [(Reg.ihubRouteValid, 1), (Reg.ihubRouteVec, 16)]
     s.rd Reg.ihubRouteValid { sock := 0, i := 0 } ≠ 0 ∧ 16 ≤ s.rd Reg.ihubRouteVec { sock := 0, i := 0 } ∧
       s.samePart 0 (s.rd Reg.ihubRouteSocket { sock := 0, i := 0 }) = true ∧
       s.coreThere (s.rd Reg.ihubRouteSocket { sock := 0, i := 0 }) (s.rd Reg.ihubRouteCore { sock := 0, i := 0 }) = true ∧
       s.rd Reg.ihubRouteVault { sock := 0, i := 0 } = 0 ∧ s.live 0 = true) ∧
    coreLog 0 < (State.reset.part (coreSock 0)).cores := by decide

/-- Two stores queued to one line of DRAM and one to the next; prefetches of both kinds; a context that sweeps; 2^19 conditional branches
retired; and a load waiting on a device, whose answer a root port holds and does not hold. -/
theorem witness_core_background :
    (let e (pa : Nat) : StoreEnt := { pa := pa, bytes := [1], whole := false, rel := false }
     let s := atDram.updCore 0 (fun k => { k with storeQ := [e 0x1000, e 0x1004, e 0x1040] })
     (s.core 0).storeQ = [e 0x1000, e 0x1004, e 0x1040] ∧ (s.core 0).frozen = false ∧ s.outOfReset 0 = true ∧
       mergeRun [e 0x1000, e 0x1004, e 0x1040] = [e 0x1000, e 0x1004] ∧
       s.drainList 0 [e 0x1000, e 0x1004] = ((s.drainList 0 [e 0x1000, e 0x1004]).1, [])) ∧
    atDram.outOfReset 0 = true ∧ atDram.awake 0 = true ∧ (atDram.core 0).frozen = false ∧
    atDram.rd Reg.coreCfgL2pf (coreIx 0) = 1 ∧ atDram.rd Reg.coreCfgL1pf (coreIx 0) = 1 ∧
    (atDram.prefetchTry 0 0 0x1000).isSome = true ∧
    (let d := 64 * max 1 (atDram.rd Reg.coreCfgL2pfdist (coreIx 0))
     (0x1000 + BitVec.ofNat 64 d) >>> 12 = (0x1000 : Word) >>> 12 ∧ (atDram.prefetchTry 0 1 (0x1000 + BitVec.ofNat 64 d)).isSome = true) ∧
    (let s := coreWith (fun k => { k with pred := { k.pred with sweeping := some 3 } })
     (s.core 0).pred.sweeping = some 3 ∧ s.hardened 0 = false) ∧
    (let s := coreWith (fun k => { k with pred := { k.pred with condRetired := 2 ^ 19 } })
     2 ^ 19 ≤ (s.core 0).pred.condRetired) ∧
    (let w : DevWait := { dest := 1, size := 8, signed := false, next := 0, prc := 0, port := 0 }
     let s := coreWith (fun k => { k with devWait := some w })
     (s.core 0).devWait = some w ∧ (s.prc 0 0).held.contains (0, 0) = false ∧
       (∀ x ∈ (s.prc 0 0).parts, x.write = true → x.port ≠ 0) ∧ s.rd Reg.prcPortLinkContained (portIx 0 0 0) = 0) ∧
    (regAt Reg.prcPortLinkContained (portIx 0 0 0) 1).rd Reg.prcPortLinkContained (portIx 0 0 0) = 1 ∧
    (let w : DevWait := { dest := 1, size := 8, signed := false, next := 0, prc := 0, port := 2 }
     let s := { (coreWith (fun k => { k with devWait := some w })) with prcs := [(0, { Prc.idle with held := [(2, 0)] })] }
     (s.core 0).devWait = some w ∧ (s.prc 0 0).held.contains (2, 0) = true) := by decide

/-- A stripe region unlocked and one locked, commits idle and in progress, flues failed, up and off, and requests the requester may make. -/
theorem witness_block_control :
    State.reset.live 0 = true ∧ State.reset.up 0 = true ∧
    cellGet false State.reset.locked (regKey Reg.hrthStripeValid { sock := 0, i := 0 }) = false ∧
    cellGet false ({ State.reset with locked := [(regKey Reg.hrthStripeValid { sock := 0, i := 0 }, true)] } : State).locked
      (regKey Reg.hrthStripeValid { sock := 0, i := 0 }) = true ∧
    State.reset.rd Reg.arbCommitPending { sock := 0 } = 0 ∧
    (regAt Reg.arbCommitPending { sock := 0 } 1).rd Reg.arbCommitPending { sock := 0 } = 1 ∧
    State.reset.rd Reg.chimRrActive { sock := 0 } = 0 ∧ (regAt Reg.chimRrActive { sock := 0 } 1).rd Reg.chimRrActive { sock := 0 } = 1 ∧
    (regAt Reg.flueStateLink (flueIx 0 3) 3).link 0 3 = 3 ∧ State.reset.link 0 3 < 3 ∧
    State.reset.dbgDenied (.core 0) 0 0x30 = 0 ∧ 0x800 % 8 = 0 ∧ ctlCfg (State.reset.part 0) 0x800 = none ∧ 3 % 8 ≠ 0 := by decide

/-! ### Debug and performance monitoring -/

/-- A core to ask, an Exhausted one, one in the Vault world, one asked and not yet halted, and requests that are denied and are not. -/
theorem witness_halting :
    coreLog 0 < (State.reset.part (coreSock 0)).cores ∧ State.reset.rd Reg.coreLmapState (coreIx 0) ≠ 3 ∧
    (State.reset.core 0).region = none ∧ State.reset.exhausted 0 = false ∧ (State.reset.core 0).world = none ∧
    (regAt Reg.ihubCoreCstateExhausted (coreIx 0) 1).exhausted 0 = true ∧
    ((coreWith (fun k => { k with world := some (0, 0) })).core 0).world.isSome = true ∧
    (let s := regAt Reg.dbgCoreCtlHaltreq (coreIx 0) 1
     s.rd Reg.dbgCoreCtlHaltreq (coreIx 0) = 1 ∧ s.rd Reg.dbgCoreStatHalted (coreIx 0) = 0 ∧ s.coreMapped 0 = true ∧ s.outOfReset 0 = true ∧
       s.awake 0 = true ∧ (s.core 0).frozen = false ∧ (s.core 0).win = none ∧ (s.core 0).devWait = none ∧ (s.core 0).wait = none) ∧
    (regAt Reg.dbgCoreStatHalted (coreIx 0) 1).rd Reg.dbgCoreStatHalted (coreIx 0) = 1 ∧
    State.reset.dbgDenied (.core 0) (coreSock 0) (0x10010 + 0x4000 * coreLog 0) = 0 ∧
    State.reset.dbgDenied .jtag (coreSock 0) (0x10010 + 0x4000 * coreLog 0) ≠ 0 ∧
    State.reset.dbgDenied (.core 0) (coreSock 0) (0x10000 + 0x4000 * coreLog 0) = 0 ∧
    State.reset.dbgDenied .jtag (coreSock 0) (0x10000 + 0x4000 * coreLog 0) ≠ 0 := by decide

/-- A halted core with each register file selected, for a read and for a write, at the ends of the files. -/
theorem witness_halted_access :
    (∀ w ∈ [0, 1], ∀ p ∈ [(0, 31), (0, 32), (1, 255), (1, 256), (2, 7), (2, 8), (3, 0xFFF)],
      let s := regsAt (coreIx 0) [(Reg.dbgCoreStatHalted, 1), (Reg.dbgCoreAccWrite, w), (Reg.dbgCoreAccFile, p.1), (Reg.dbgCoreAccIndex, p.2)]
      s.dbgDenied (.core 0) (coreSock 0) (0x10010 + 0x4000 * coreLog 0) = 0 ∧ s.rd Reg.dbgCoreStatHalted (coreIx 0) = 1 ∧
        s.rd Reg.dbgCoreAccWrite (coreIx 0) = w ∧ s.rd Reg.dbgCoreAccFile (coreIx 0) = p.1 ∧ s.rd Reg.dbgCoreAccIndex (coreIx 0) = p.2) := by
  decide

/-- Counters about to wrap and a programmable threshold. -/
theorem witness_counters :
    (let s := coreWith (fun k => { k with pmu := [(383, 2 ^ 48 - 1)] })
     s.pmuRuns 0 = true ∧ cellGet 0 (s.core 0).pmu 383 % 2 ^ 48 = 2 ^ 48 - 1) ∧
    (unitWrapAt 0 0 0 0).isSome = true ∧ State.reset.up 0 = true ∧ State.reset.bankThere 0 0 0 0 = true ∧ State.reset.uwraps = [] ∧
    State.reset.rd Reg.pmuUwrapPend { sock := 0 } = 0 ∧ (regAt Reg.pmuUwrapPend { sock := 0 } 1).rd Reg.pmuUwrapPend { sock := 0 } = 1 ∧
    State.reset.rd Reg.pmuUwrapEn { sock := 0 } = 0 ∧
    (unitWrapAt 0 0 0 0).any (fun p => State.reset.rd p.1 p.2 == 0) = true ∧
    (State.reset.core 0).world = none ∧ coreLog 0 < (State.reset.part (coreSock 0)).cores ∧
    ((coreWith (fun k => { k with world := some (0, 0) })).core 0).world.isSome = true := by decide

/-- A bandwidth window of a unit and of a core, a sampler with and without a sample standing. -/
theorem witness_windows_samples :
    State.reset.bwPend.contains (bwKey 0 281 15) = false ∧ State.reset.bwClr.contains (bwKey 0 281 15) = false ∧
    (regAt Reg.pmuUnitbwEn (bwIx 0 281 15) 1).rd Reg.pmuUnitbwEn (bwIx 0 281 15) = 1 ∧
    (State.reset.core (0 * 256 + 255)).world = none ∧ coreLog (0 * 256 + 255) < (State.reset.part (coreSock (0 * 256 + 255))).cores ∧
    (let s := regAt Reg.pmuSampctlEn { coreIx 0 with j := 3 } 1
     s.rd Reg.pmuSampctlEn { coreIx 0 with j := 3 } = 1 ∧ s.rd Reg.pmuSampctlEvent { coreIx 0 with j := 3 } < 384 ∧ s.pmuRuns 0 = true ∧
       s.rd Reg.pmuSampFull { coreIx 0 with j := 3 } = 0) ∧
    (regAt Reg.pmuSampFull { coreIx 0 with j := 3 } 1).rd Reg.pmuSampFull { coreIx 0 with j := 3 } = 1 ∧ State.reset.up 0 = true := by decide

/-! ### Flues, the crossbar and the configuration of the fabric -/

/-- Flue 0 of socket 0 up, with flue 1 of socket 1 at its other end. -/
def flued : State :=
  (((regsAt (flueIx 0 0) [(Reg.flueStateLink, 2), (Reg.flueStateSpared, 15), (Reg.flueStatePeerSock, 1), (Reg.flueStatePeerFlue, 1)]).wr
    Reg.flueStateLink (flueIx 1 1) 2).wr Reg.chimDestValid { sock := 0, i := 1 } 1).wr Reg.chimDestPart { sock := 0, i := 1 } 0

/-- A flue to train, one up with its spare lane unused, and one with a lane being replaced. -/
theorem witness_flues :
    (let s := regAt Reg.flueCtlEn (flueIx 0 0) 1
     s.up 0 = true ∧ 0 < (s.part 0).flues ∧ s.rd Reg.flueCtlEn (flueIx 0 0) ≠ 0 ∧ s.link 0 0 ≤ 1 ∧ (s.flue 0 0).back = false) ∧
    flued.link 0 0 = 2 ∧ flued.rd Reg.flueStateSpared (flueIx 0 0) = 15 ∧
    ((flued.setFlue 0 0 { flued.flue 0 0 with lane := some 3 }).flue 0 0).lane = some 3 ∧ State.reset.link 0 0 ≠ 2 := by decide

/-- A reroute that its sockets have heard of (`g`), adopted (`a`) and whose replay buffers are resent (`p`). -/
def reroute (up p : Bool) (g a : List Nat) : Reroute :=
  { id := 0, sock := 0, flue := 0, psock := 1, pflue := 1, up := up, got := g, adopted := a, replayed := p }

/-- Flue 0 failed, its reroute at a step. -/
def rerouting (r : Reroute) : State := { flued with reroutes := [r] }

/-- A reroute of each kind that a socket has not heard of and has; one adopted at both ends; one resent, and adopted by every socket. -/
theorem witness_reroutes :
    (∀ up, let r := reroute up false [] []
      (rerouting r).reroutes.find? (fun r => r.id = 0) = some r ∧ (rerouting r).reroutes.find? (fun r => r.id = 0 && r.up == up) = some r ∧
        r.got.contains 0 = false ∧ ((rerouting r).fabric r.sock).contains 0 = true) ∧
    (let r := reroute false false [0] []
     r.got.contains 0 = true ∧ r.adopted.contains 0 = false ∧ r.replayed = false) ∧
    (let r := reroute false false [0, 1] [0, 1]
     r.replayed = false ∧ r.adopted.contains r.sock = true ∧ r.adopted.contains r.psock = true) ∧
    (let r := reroute false true [0, 1] [0, 1]
     r.replayed = true ∧ ((rerouting r).fabric r.sock).all (fun k => r.adopted.contains k || !(rerouting r).up k) = true) := by decide

/-- Flue 0 of socket 0 with a flit come in. -/
def flitIn (f : Flit) : State := { flued with xin := [(flueKey 0 0, [f])] }

/-- The crossbar: homes out of reach in and after a recovery action, a codeword sent and not taken, a sync message, flits for the mesh and
for the next flue, one of an unlisted socket, and combining entries that still wait and do not. -/
theorem witness_crossbar :
    (let s := { coreWith (fun k => k.setG 1 1) with unreach := [(0 * 1024 + 5, 1)] }
     s.inAction 0 = false ∧ s.reach 0 5 = 1 ∧ s.cores ≠ [] ∧ ∀ e ∈ s.cores, coreSock e.1 = 0 → (s.core e.1).storeQ = []) ∧
    ({ State.reset with acts := [(0, 1)] } : State).inAction 0 = true ∧
    (let s := flued.setFlue 1 1 { FlueS.fresh with unacked := [(0, [aFlit 0 2 []])] }
     s.link 0 0 = 2 ∧ s.link (s.peer 0 0).1 (s.peer 0 0).2 = 2 ∧
       (s.flue (s.peer 0 0).1 (s.peer 0 0).2).unacked.find? (fun e => e.1 = s.rd Reg.flueSeqRx (flueIx 0 0)) = some (0, [aFlit 0 2 []]) ∧
       0 % 16 = s.rd Reg.flueSeqRx (flueIx 0 0) % 16 ∧
       ([aFlit 0 2 []].any (fun f => s.partSealed (s.peer 0 0).1 f.part)) = false) ∧
    flued.rd Reg.chimSyncMaster { sock := 0 } = 0 ∧ (flued.flue 0 0).unacked = [] ∧ cellGet [] flued.xin (flueKey 0 0) = [] ∧
    (let f := aFlit 0 2 []
     let s := flitIn f
     xNext (cellGet [] s.xin (flueKey 0 0)) (s.xReady 0 0) = some f ∧ f.ssock ≠ 0 ∧ s.rd Reg.chimDestValid { sock := 0, i := f.ssock } = 1 ∧
       s.rd Reg.chimDestPart { sock := 0, i := f.ssock } = f.part ∧ f.cast = 0 ∧ f.dsock = 0 ∧ f.part = s.partition 0 ∧
       (f.cls ≠ 0 ∧ f.cls ≠ 4) ∧
       (let u := s.wr Reg.chimDestValid { sock := 0, i := 1 } 0
        u.rd Reg.chimDestValid { sock := 0, i := f.ssock } = 0 ∧ xNext (cellGet [] u.xin (flueKey 0 0)) (u.xReady 0 0) = some f)) ∧
    (let f := { aFlit 0 2 [] with part := 5 }
     let s := flitIn f
     xNext (cellGet [] s.xin (flueKey 0 0)) (s.xReady 0 0) = some f ∧ f.dsock = 0 ∧ f.cast = 0 ∧ f.part ≠ s.partition 0) ∧
    (let f := aFlit 0 4 []
     xNext (cellGet [] (flitIn f).xin (flueKey 0 0)) ((flitIn f).xReady 0 0) = some f ∧ (f.cls = 0 ∨ f.cls = 4)) ∧
    (let f := aFlit 2 2 [6]
     xNext (cellGet [] (flitIn f).xin (flueKey 0 0)) ((flitIn f).xReady 0 0) = some f ∧ f.dsock ≠ 0 ∧ ((flitIn f).onward 0 f).isSome = true) ∧
    (flued.combine.filter (fun e => e.sock = 0)).length < 1024 ∧ (0 : Nat) ≠ 7 ∧
    (let t : Txn := { req := { k := .rdo, ln := 64, frm := 0, age := 0 }, home := 0, data := false, expect := none, acks := 0, wait := [],
                      granted := false }
     let e (l : List Nat) : Combine := { sock := 0, tag := 64, frm := none, left := l, count := 1 }
     let s (l : List Nat) : State := { flued with combine := [e l], txns := [t] }
     (s []).combine.find? (fun e => e.sock = 0 && e.tag = 64) = some (e []) ∧ (e []).left = [] ∧ (e []).frm = none ∧
       (s []).txn 64 = some t ∧ (s [1]).combine.find? (fun e => e.sock = 0 && e.tag = 64) = some (e [1]) ∧ (e [1]).left ≠ []) := by decide

/-- The start of the fabric: a master to follow, discovery before and after, a Sealed partition that runs, a key epoch spent, and a start
at its digests and at its keys. -/
theorem witness_fabric_start :
    (State.reset.fabric 0).find? State.reset.up = some 0 ∧ ¬ (State.reset.rd Reg.chimSyncMaster { sock := 0 } = 0 ∧ 0 ≠ 0) ∧
    (regAt Reg.chimDiscState { sock := 0 } 1).rd Reg.chimDiscState { sock := 0 } ≠ 0 ∧
    (regAt Reg.chimDiscState { sock := 0 } 1).rd Reg.chimDiscState { sock := 0 } ≠ 2 ∧
    (¬ ∃ d ∈ State.reset.flood 1024 [0], d ≠ 0 ∧ State.reset.strap d = State.reset.strap 0 ∧ State.reset.joinsBefore d 0 false = true) ∧
    State.reset.rd Reg.chimDiscMode { sock := 0 } = 0 ∧ (regAt Reg.chimDiscMode { sock := 0 } 1).rd Reg.chimDiscMode { sock := 0 } = 1 ∧
    (let s := regsAt { sock := 0, i := 5 } [(Reg.chimPartGuar, 1), (Reg.chimPartState, 2)]
     s.partSealed 0 5 = true ∧ s.rd Reg.chimPartState { sock := 0, i := 5 } = 2) ∧
    (let s := State.reset.setFlue 0 0 { State.reset.flue 0 0 with sent := 2 ^ 32 }
     (s.flue 0 0).epoch < (s.flue 0 0).sent / 2 ^ 32) ∧
    (let s := { regAt Reg.chimPartState { sock := 0, i := 0 } 1 with pstep := [(0, 1)] }
     s.rd Reg.chimPartState { sock := 0, i := 0 } = 1 ∧ cellGet 0 s.pstep 0 = 1 ∧
       s.socksOf 0 0 = [] ∧ ∀ d ∈ s.socksOf 0 0, s.rd Reg.chimPartState { sock := d, i := 0 } = 1) ∧
    (let s := { (((flued.wr Reg.chimPartState { sock := 0, i := 0 } 1).wr Reg.chimPartState { sock := 1, i := 0 } 1).wr Reg.chimTopoKind
        { sock := 1 } 1) with pstep := [(0, 1)] }
     (∀ d ∈ s.socksOf 0 0, s.rd Reg.chimPartState { sock := d, i := 0 } = 1) ∧
       ∃ d ∈ s.socksOf 0 0, digestWords (fun f a => s.rd f a) d 0 ≠ digestWords (fun f a => s.rd f a) 0 0) ∧
    (let s := { State.reset with pstep := [(0, 2), (1, 2)] }
     cellGet 0 s.pstep (0 * 64 + 1) = 2 ∧ s.partSealed 0 1 = false) := by decide

/-- Two sockets joined: of one strapped identity, socket 0 the later; of two, with socket 0 the root; and with no root. -/
theorem witness_discovery :
    (let s := { flued.setFlue 0 0 { flued.flue 0 0 with trained := 10 } with straps := [(0, some 5), (1, some 5)] }
     s.rd Reg.chimDiscState { sock := 0 } ≠ 2 ∧ s.rd Reg.chimDiscMode { sock := 0 } = 0 ∧
       ∃ d ∈ s.flood 1024 [0], d ≠ 0 ∧ s.strap d = s.strap 0 ∧ s.joinsBefore d 0 false = true) ∧
    (let s := { ((flued.wr Reg.chimDiscMode { sock := 0 } 1).wr Reg.chimDiscMode { sock := 1 } 1) with straps := [(1, some 3)] }
     (s.flood 1024 [0]).filter (fun d => s.strap d = 0) = [0] ∧ (s.flood 1024 [1]).filter (fun d => s.strap d = 0) = [0] ∧
       s.rd Reg.chimDiscMode { sock := 1 } = 1 ∧ s.rd Reg.chimDiscState { sock := 1 } ≠ 2) ∧
    (let s := { flued.wr Reg.chimDiscMode { sock := 1 } 1 with straps := [(0, some 7), (1, some 3)] }
     ((s.flood 1024 [1]).filter (fun d => s.strap d = 0)).length ≠ 1) := by decide

/-! ### Coherence requests, snoops and answers -/

/-- Core 0 with line 64 (of DRAM homed in its own socket) in its L2 in a state. -/
def l2At (x : Option L2St) : State := dramWith (fun k => k.setL2 64 x)

/-- A transaction of core `f` on line 64. -/
def aTxn (k : ReqK) (f : Nat) : Txn :=
  { req := { k := k, ln := 64, frm := f, age := 0 }, home := 0, data := false, expect := none, acks := 0, wait := [], granted := false }

/-- A message about line 64. -/
def aMsg (k : MsgK) (src dst n : Nat) : Msg := { k := k, ln := 64, src := src, dst := dst, n := n }

/-- DRAM with a transaction of line 64 and a message of it in flight. -/
def talking (t : Txn) (m : Msg) : State := { dram with txns := [t], net := [m] }

/-- Socket 1 of the same partition, whose requests for line 64 go to socket 0; its core 257 has the line in a state. -/
def remote (x : Option L2St) (sf : Cells (Option SfE)) : State :=
  { ((dram.wr Reg.chimDestValid { sock := 1, i := 0 } 1).updCore 257 (fun k => k.setL2 64 x)) with sf := sf }

/-- A line without a copy at the core, with a shared one and with an owned one, homed in the core's own socket; an agent's request. -/
theorem witness_hearth_requests :
    (∀ x ∈ [none, some L2St.S, some L2St.E, some L2St.M], let s := l2At x
      (s.core 0).l2st (lineOf 0x1000) = x ∧ s.homeFor 0 (lineOf 0x1000) = .dram 0 0x1000 ∧
        (s.touch (reqSock 0) (lineOf 0x1000)).homeFor 0 (lineOf 0x1000) = .dram 0 0x1000 ∧ s.heldByOther 0 (lineOf 0x1000) = false ∧
        s.txn (lineOf 0x1000) = none) ∧
    0 = coreSock 0 ∧ 0x1000 % 8 = 0 ∧ 0x1004 % 4 = 0 ∧ 0x1004 % 8 ≠ 0 ∧
    (dram.touch (reqSock 0) (lineOf 0x1004)).homeFor 0 (lineOf 0x1004) = .dram 0 0x1000 ∧
    (let s := remote none []
     0 ≠ coreSock 256 ∧ (s.core 256).l2st (lineOf 0x1000) = none ∧ s.homeFor 256 (lineOf 0x1000) = .dram 0 0x1000 ∧
       cellGet none s.sf (sfKey (lineOf 0x1000) (coreSock 256)) = none ∧
       (s.touch (reqSock 256) (lineOf 0x1000)).homeFor 256 (lineOf 0x1000) = .dram 0 0x1000 ∧ s.heldByOther 256 (lineOf 0x1000) = false ∧
       s.txn (lineOf 0x1000) = none) ∧
    (let s := l2At none
     0x1000 < 2 ^ 20 ∧ s.badLine 0x1000 = false ∧ (((s.touch (coreSock 0) 64).room 0 64).sliceRead 0 64 0 false) = none ∧
       (((s.touch (coreSock 0) 64).room 0 64).sliceRead 0 64 0 true) = none) ∧
    (let s := remote (some .S) [(sfKey 64 1, some { excl := false, holders := .precise [257] })]
     (s.core 256).l2st (lineOf 0x1000) = none ∧ s.homeFor 256 64 = .dram 0 0x1000 ∧ s.heldByOther 256 64 = false ∧ s.txn 64 = none ∧
       s.badLine 0x1000 = false ∧ (((s.touch (coreSock 256) 64).room 256 64).sliceRead 256 64 0 false).isSome = true) ∧
    (let e : SfE := { excl := true, holders := .precise [257] }
     let s := remote (some .E) [(sfKey 64 1, some e)]
     (s.core 256).l2st (lineOf 0x1000) = none ∧ s.homeFor 256 64 = .dram 0 0x1000 ∧ s.heldByOther 256 64 = false ∧ s.txn 64 = none ∧
       cellGet none s.sf (sfKey 64 (coreSock 256)) = some e ∧ e.excl = true ∧
       (s.inSlice (coreSock 256) 64 || s.otherHas (2 ^ 21) 64 (fun d _ => decide (coreSock d = coreSock 256))) = true) := by decide

/-- A request at its home: served, waiting behind a transaction, refused for a held line, and while its bucket moves; one at a gate. -/
theorem witness_home_admission :
    (let r : Req := { k := .rdo, ln := 64, frm := 0, age := 0 }
     dram.rd Reg.hrthBucketMig { sock := 0, i := dram.bucket 0 (r.ln * 64) } ≠ 1 ∧ dram.mustRetry 0 r = false ∧ dram.slotsFull 0 r.ln = false ∧ dram.txn r.ln = none ∧
       (({ dram with txns := [aTxn .rdo 1] } : State).txn r.ln).isSome = true ∧
       ({ dram with held := [(64, some { holder := 1, waiter := none })] } : State).mustRetry 0 r = true ∧
       (dram.wr Reg.hrthBucketMig { sock := 0, i := dram.bucket 0 (r.ln * 64) } 1).rd Reg.hrthBucketMig
         { sock := 0, i := dram.bucket 0 (r.ln * 64) } = 1 ∧
       (let s := { dram with gateQ := [(0, [r])] }
        cellGet [] s.gateQ (0 * 512 + 0) = [r] ∧ 0 < s.gateTokens 0 0 ∧
          ({ s.gateTake 0 0 with gateQ := cellSet [] s.gateQ 0 [] } : State).homeFor r.frm r.ln = .dram 0 0x1000) ∧
       ({ dram with bucketDebt := [(0, (10 ^ 9, 0))] } : State).gateTokens 0 0 = 0) := by decide

/-- Copies to write back, to evict and held; a region's line to release with and without a retrier. -/
theorem witness_writebacks :
    (∀ x ∈ [some L2St.S, some L2St.E, some L2St.M], let s := l2At x
      s.homeFor 0 (lineOf 0x1000) = .dram 0 0x1000 ∧ (s.core 0).l2st (lineOf 0x1000) = x ∧ cellGet none s.held (lineOf 0x1000) = none) ∧
    coreSock 0 = 0 ∧
    (∀ w ∈ [none, some 5], let s := { l2At (some .M) with
        held := [(64, some { holder := 0, waiter := w })], retried := [{ k := .rdo, ln := 64, frm := 5, age := 0 }] }
      s.homeFor 0 (lineOf 0x1000) = .dram 0 0x1000 ∧
      (cellGet none s.held (lineOf 0x1000) = some { holder := 0, waiter := w }) ∧ (s.core 0).region = none ∧
        s.retried.find? (fun r => r.frm = 5 && r.ln = lineOf 0x1000) = some { k := .rdo, ln := 64, frm := 5, age := 0 }) ∧
    (let s := { l2At (some .E) with held := [(64, some { holder := 1, waiter := none })] }
     cellGet none s.held (lineOf 0x1000) = some { holder := 1, waiter := none } ∧ (1 : Nat) ≠ 0) := by decide

/-- Each snoop in flight to socket 0, whose core 1 owns the line and does not. -/
theorem witness_snoops :
    (∀ k ∈ [MsgK.snpi, .snps, .snpx, .snpr, .snpc], let s := talking (aTxn .rd 0) (aMsg k 0 0 0)
      s.txn (lineOf 0x1000) = some (aTxn .rd 0) ∧ (aMsg k 0 0 0).ln = lineOf 0x1000 ∧
        s.heard k (lineOf 0x1000) 0 none = some (aMsg k 0 0 0) ∧ (s.took (aMsg k 0 0 0)).ownsIn 0 0 64 = false) ∧
    (let s := (talking (aTxn .rd 0) (aMsg .snps 0 0 0)).updCore 1 (fun k => k.setL2 64 (some .M))
     s.txn (lineOf 0x1000) = some (aTxn .rd 0) ∧ s.heard .snps (lineOf 0x1000) 0 none = some (aMsg .snps 0 0 0) ∧
       (s.took (aMsg .snps 0 0 0)).ownsIn 0 0 64 = true) := by decide

/-- Answers at the home: the last SRSP of maintenance, one of a read that held nothing, and the bits of a read and of an ownership request. -/
theorem witness_home_answers :
    (let s := talking (aTxn (.cmo 1) 0) (aMsg .srsp 1 0 0)
     s.txn (lineOf 0x1000) = some (aTxn (.cmo 1) 0) ∧ s.heard .srsp (lineOf 0x1000) 0 (some 1) = some (aMsg .srsp 1 0 0)) ∧
    (let s := talking (aTxn .rd 0) (aMsg .srsp 1 0 2)
     s.txn (lineOf 0x1000) = some (aTxn .rd 0) ∧ s.heard .srsp (lineOf 0x1000) 0 (some 1) = some (aMsg .srsp 1 0 2) ∧
       (aMsg .srsp 1 0 2).n = 2) ∧
    (∀ k ∈ [ReqK.rd, .rdo], let s := talking (aTxn k 0) (aMsg .bits 0 0 0)
      s.heard .bits (lineOf 0x1000) 0 none = some (aMsg .bits 0 0 0) ∧ k.isOwn = decide (k = .rdo) ∧
        (((s.took (aMsg .bits 0 0 0)).snoopSet 0 0 64 (dirBitsOf 0)).2 = false)) := by decide

/-- Every message a requester takes, a transaction complete and not, a retry to reissue, and a line in the atomic buffer. -/
theorem witness_requesters :
    (∀ k ∈ [MsgK.dataS, .dataE, .dataM, .dataU, .gnt, .ack, .cmp, .atres, .wback, .retry],
      let s := talking (aTxn .rd 0) (aMsg k 0 0 1)
      s.txn (lineOf 0x1000) = some (aTxn .rd 0) ∧ (aTxn .rd 0).req.frm = 0 ∧ s.heard k (lineOf 0x1000) 0 none = some (aMsg k 0 0 1)) ∧
    (aTxn .rd 0).complete = false ∧ ({ aTxn .rd 0 with data := true } : Txn).complete = true ∧
    (let r : Req := { k := .rd, ln := 64, frm := 0, age := 0 }
     let s := { dram with retried := [r] }
     s.retried.find? (fun r => r.frm = 0 && r.ln = lineOf 0x1000) = some r ∧ s.homeFor 0 r.ln = .dram 0 0x1000) ∧
    (let s := { dram with abuf := [(slKey 0 (dram.sliceFor 0 (64 * 64)), [64])] }
     s.buffered 0 (lineOf 0x1000) = true) := by decide

/-- A retirement at each of its steps, and a socket with none. -/
theorem witness_slice_retirement :
    (dram.sliceLive 0 0 = true ∧ 1 < (dram.liveSlices 0).length ∧ dram.retiring 0 = none) ∧
    (∀ n ∈ [1, 2, 3, 4], ∀ f, let r : Retire :=
        { slice := 0, fail := f, step := n, bucket := 0, target := 0, bad := [], queue := [], left := [1] }
      (dram.setRetire 0 (some r)).retiring 0 = some r ∧ r.left.contains 1 = true ∧ r.left.contains 2 = false) ∧
    (let r : Retire := { slice := 300, fail := false, step := 2, bucket := 0, target := 0, bad := [], queue := [], left := [] }
     (dram.setRetire 0 (some r)).bucketsOf 0 300 = [] ∧ (dram.wr Reg.hrthMigRebuild { sock := 0 } 1).rd Reg.hrthMigRebuild { sock := 0 } = 1) ∧
    dram.txns = [] := by decide

/-- A slice that has buckets left and a slice to take them. -/
theorem witness_bucket_mark :
    (let r : Retire := { slice := 0, fail := false, step := 2, bucket := 0, target := 0, bad := [], queue := [], left := [] }
     (∃ b bs, dram.bucketsOf 0 0 = b :: bs) ∧ (dram.retireTarget 0 r).isSome = true) :=
  ⟨⟨_, _, rfl⟩, by decide⟩

/-! ### Memory channels, the mesh and arbitration -/

/-- DRAM with channel 0 of socket 0 changed. -/
def chanWith (f : Chan → Chan) : State := dram.setChan 0 0 (f (dram.chan 0 0))

/-- An enabled channel with nothing held, one in self-refresh, and code words that decode and do not. -/
theorem witness_memory_access :
    dram.mcLine 0 0x40 = some (0, 1) ∧ dram.rd Reg.mcGeomEn (mcIx 0 0) = 1 ∧ dram.mcHolds 0 0 1 = false ∧
    (dram.chan 0 0).held.any (fun r => lineOf r.pa = lineOf 0x40) = false ∧
    (chanWith (fun c => { c with selfRef := true })).mcHolds 0 0 1 = true ∧ dram.imageLine 0 0 1 = some 1 ∧ dram.paired 0 = false ∧
    (let m := dram.mcMeet 0 0 1 false
     let w (e : List Nat) := m.2.got e
     (dfcDecode (w []) (m.1.markOf 0 0 1 (1 % 2))).any (fun r => r.2.2.2 == none) = true ∧ m.1.macCovers (m.1.target 0 64) = false ∧
       (dfcDecode (w [1, 2, 4]) (m.1.markOf 0 0 1 (1 % 2))).isNone = true ∧ m.1.paired 0 = false) := by decide

/-- The Sweep in the middle and at the last line, initialisation, self-refresh to enter and to leave. -/
theorem witness_channel_upkeep :
    (let s := regsAt { sock := 0 } [(Reg.mcCapGib, 16), (Reg.mcGeomEn, 1), (Reg.mcSweepEn, 1)]
     s.rd Reg.mcGeomEn (mcIx 0 0) = 1 ∧ s.rd Reg.mcSweepEn (mcIx 0 0) = 1 ∧ s.mcHolds 0 0 (s.rd Reg.mcSweepPos (mcIx 0 0)) = false ∧
       s.rd Reg.mcSweepPos (mcIx 0 0) + 1 < (s.mcReadLine 0 0 (s.rd Reg.mcSweepPos (mcIx 0 0)) true [] []).chanLines 0 0 ∧
       s.rd Reg.mcSweepPos (mcIx 0 0) + 1 < s.chanLines 0 0) ∧
    (let s := (regsAt { sock := 0 } [(Reg.mcCapGib, 16), (Reg.mcGeomEn, 1), (Reg.mcSweepEn, 1)]).wr Reg.mcSweepPos (mcIx 0 0) (16 * 2 ^ 24 - 1)
     s.mcHolds 0 0 (s.rd Reg.mcSweepPos (mcIx 0 0)) = false ∧ 0 < s.chanLines 0 0 ∧
       (s.mcReadLine 0 0 (s.rd Reg.mcSweepPos (mcIx 0 0)) true [] []).chanLines 0 0 ≤ s.rd Reg.mcSweepPos (mcIx 0 0) + 1) ∧
    (let s := dram.wr Reg.mcSweepInit (mcIx 0 0) 1
     s.rd Reg.mcSweepInit (mcIx 0 0) = 1 ∧ (s.chan 0 0).held = []) ∧
    (∀ st ∈ [1, 2], (dram.wr Reg.pwrPkgState { sock := 0 } st).rd Reg.pwrPkgState { sock := 0 } = st) ∧
    dram.rd Reg.pwrPkgState { sock := 0 } = 0 ∧ ((chanWith (fun c => { c with selfRef := true })).chan 0 0).selfRef = true ∧
    ((chanWith (fun c => { c with selfRef := true })).chan 0 0).held = [] := by decide

/-- A channel with four candidates, one with a candidate and a free entry, and rows at each step. -/
theorem witness_row_sparing :
    4 ≤ ((chanWith (fun c => { c with cand := [1, 2, 3, 4] })).chan 0 0).cand.length ∧
    (let s := chanWith (fun c => { c with cand := [1] })
     (s.chan 0 0).row = none ∧ (s.chan 0 0).cand = [1] ∧ (s.freeSpare 0 0).isSome = true) ∧
    (∀ st ∈ [2, 4, 5], let r : SpareRow := { row := 1, entry := 0, step := st, copy := 0, fixed := 0 }
      let s := chanWith (fun c => { c with row := some r })
      (s.chan 0 0).row = some r ∧ r.step = st ∧ (s.chan 0 0).held = [] ∧ s.paired 0 = false ∧ (s.wr Reg.mcPprMode (mcIx 0 0) 0).rd Reg.mcPprMode (mcIx 0 0) = 0 ∧ r.fixed = 0 ∧
        r.copy = 0) := by decide

/-- Starvation with the flag clear and set; a commit with a block left, none left, and one queued behind it. -/
theorem witness_arbitration :
    (profOf 5 (State.reset.rd Reg.arbHearthq { sock := 0 })).thresh ≠ 0 ∧ (State.reset.arb 0 2 0).told.contains 3 = false ∧
    State.reset.rd Reg.arbStarveFlag { sock := 0 } = 0 ∧ (regAt Reg.arbStarveFlag { sock := 0 } 1).rd Reg.arbStarveFlag { sock := 0 } = 1 ∧
    State.reset.rd Reg.arbStintEn { sock := 0 } = 0 ∧
    (({ State.reset with arbs := [(arbKey 0 2 0, { Arb.idle with told := [3] })] } : State).arb 0 2 0).told.contains 3 = true ∧
    (cellGet [] ({ State.reset with commitLeft := [(0, [0, 1])] } : State).commitLeft 0).contains 0 = true ∧
    (cellGet [] State.reset.commitLeft 0).contains 0 = false ∧ cellGet [] State.reset.commitLeft 0 = [] ∧
    (regAt Reg.arbCommitPending { sock := 0 } 1).rd Reg.arbCommitPending { sock := 0 } = 1 ∧
    (regAt Reg.arbCommitPending { sock := 0 } 1).rd Reg.arbCommitQueued { sock := 0 } = 0 ∧
    (regAt Reg.arbCommitQueued { sock := 0 } 1).rd Reg.arbCommitQueued { sock := 0 } = 1 := by decide

/-- A stop with room and one without, sixteen flits to acknowledge, one to send again, and links refused, repaired and good. -/
theorem witness_mesh :
    State.reset.up 0 = true ∧ State.reset.waiting 0 307 = none ∧ State.reset.samePart 0 0 = true ∧
    (∃ n < 308, (State.reset.part 0).sends n 1 = true ∧ stopOut n 0 ≠ 4 ∧ (State.reset.inBuf 0 n 4 1).length < inDepth n 4 1) ∧
    (∃ n < 308, (State.reset.part 0).sends n 2 = true) ∧ (State.reset.inBuf 0 307 4 2).length < inDepth 307 4 2 ∧ stopOut 307 0 ≠ 4 ∧
    (let s := State.reset.setIn 0 0 4 1 (List.replicate (inDepth 0 4 1) (aFlit 0 1 []))
     inDepth 0 4 1 ≤ (s.inBuf 0 0 4 1).length) ∧
    (let s := { State.reset with meshDue := [(1, List.replicate 16 7)] }
     16 ≤ (cellGet [] s.meshDue ((0 * 512 + 0) * 512 + 1)).length) ∧
    (cellGet [] State.reset.meshDue ((0 * 512 + 0) * 512 + 1)).length < 16 ∧
    (let s := { State.reset with meshNak := [(1, [0])], meshReplay := [(stopKey 0 1, [(aFlit 0 3 [], 0)])] }
     cellGet [] s.meshNak ((0 * 512 + 0) * 512 + 1) = [0] ∧
       (cellGet [] s.meshReplay (stopKey 0 1)).find? (fun e => e.1.tag = 0) = some (aFlit 0 3 [], 0)) ∧
    (∀ st ∈ [0, 1, 2], ((State.reset.setMlink 0 0 0 { refused := 8, st := st }).mlink 0 0 0).st = st ∧
      ((State.reset.setMlink 0 0 0 { refused := 8, st := st }).mlink 0 0 0).refused = 8) ∧
    (List.range 308).any (fun n => (List.range 4).any (isBridge n)) = true ∧ isBridge 0 0 = false := by decide

/-! ### The JTAG port and the management controller -/

/-- A port with standby rails in cold reset, out of it and without rails; a capture with data; the two larger parts. -/
theorem witness_jtag :
    State.reset.jtagOn 0 = true ∧ cellGet 0 State.reset.down 0 ≠ 3 ∧ (State.reset.pw 0).seq ≠ 2 ∧
    (let s := { State.reset with down := [(0, 3)] }
     s.jtagOn 0 = true ∧ cellGet 0 s.down 0 = 3) ∧
    (State.reset.updPw 0 (fun p => { p with seq := 1 })).jtagOn 0 = false ∧
    ((State.reset.updJtag 0 (fun j => { j with data := some 5 })).jtag 0).data = some 5 ∧ State.reset.rd Reg.rootStep { sock := 0 } = 0 ∧
    State.reset.part 0 = .eq256 ∧ ({ State.reset with parts := [(0, .eq192)] } : State).part 0 = .eq192 := by decide

/-- External accesses with no rails, beyond the pages, not enabled, and to a core of a Sealed partition that runs. -/
theorem witness_external_debug :
    (State.reset.updPw 0 (fun p => { p with seq := 4 })).railsOn 0 = false ∧ State.reset.railsOn 0 = true ∧
    (regAt Reg.dbgCtlExten { sock := 0 } 0).rd Reg.dbgCtlExten { sock := 0 } = 0 ∧
    (let s := (regAt Reg.dbgCtlExten { sock := 0 } 1).wrs { sock := 0, i := 0 } [(Reg.chimPartGuar, 1), (Reg.chimPartState, 2)]
     s.railsOn 0 = true ∧ s.rd Reg.dbgCtlExten { sock := 0 } = 1 ∧ 0 < (s.part 0).cores ∧ s.rd Reg.coreLmapState { sock := 0, i := 0 } ≠ 3 ∧
       s.dbgSealed 0 = true) := by decide

/-- The controller up with the main rails and without them; entries to read and PMU doublewords to give. -/
theorem witness_management :
    State.reset.mgcUp 0 = true ∧ State.reset.railsOn 0 = true ∧
    (State.reset.updPw 0 (fun p => { p with seq := 4 })).mgcUp 0 = true ∧ (State.reset.updPw 0 (fun p => { p with seq := 4 })).railsOn 0 = false ∧
    (State.reset.rd Reg.pwrMgcAshptr { sock := 0 } + 4096 - State.reset.ashOldest 0) % 4096 ≤
      (State.reset.rd Reg.ashRingWrptr { sock := 0 } + 4096 - State.reset.ashOldest 0) % 4096 ∧
    0 + 8 * 30 ≤ 768 * 4096 ∧ State.reset.dbgSealed 0 = false := by decide

/-- An I3C target on its bus with an address, without one and with a reason to report; one that is not I3C. -/
theorem witness_i3c :
    (let s := regAt Reg.pwrMgcStatI3c { sock := 0 } 1
     s.i3cOn 0 = true ∧ s.dynAddr 0 = 0) ∧
    (let s := { (regsAt { sock := 0 } [(Reg.pwrMgcStatI3c, 1), (Reg.pwrMgcStatDynaddr, 8)]) with ibi := [(0, 3)] }
     s.i3cOn 0 = true ∧ s.dynAddr 0 ≠ 0 ∧ s.ibi.find? (fun e => e.1 = 0) = some (0, 3) ∧ (s.mgc 0).evOff = false) ∧
    State.reset.i3cOn 0 = false := by decide

/-! ### Root complexes -/

/-- DRAM and root complex 0 of socket 0 with port 0 up and a context for requester 5 that translates nothing and has two vectors. -/
def rooted : State :=
  ((dram.wr Reg.prcPortSlotState (portIx 0 0 0) 3).updPrc 0 0 (fun x =>
    { x with ctxs := [(5, [1, 0, 0, 0, 2 ^ 64 - 1, 2 ^ 64 - 1, 2 * 2 ^ 16, 0])] }))

/-- DMA that the context grants, to read and to write; one refused; an interrupt message within and beyond its vectors. -/
theorem witness_dma :
    rooted.portOpen 0 0 0 = true ∧ 5 < 2 ^ 16 ∧ 0x1000 / 2 ^ 20 ≠ rooted.rd Reg.prcMsiwin (prcIx 0 0) ∧
    (∃ l t, rooted.dmaCheck 0 0 5 none 0x1000 64 Acc.load (0 : BitVec 3).toNat = .ok l t) ∧
    (∃ l t, rooted.dmaCheck 0 0 5 none 0x1000 ([1, 2] : List Byte).length Acc.store (0 : BitVec 3).toNat = .ok l t) ∧
    (∃ a t, rooted.dmaCheck 0 0 7 none 0x1000 ([1, 2] : List Byte).length Acc.store (0 : BitVec 3).toNat = .refuse a t) ∧
    (1 : BitVec 3) ≠ 0 ∧ rooted.fnHeld 0 0 5 = false ∧
    (∃ t w i, rooted.devCtx 0 0 5 = (t, .ok (w, i)) ∧ leNat ([1, 0, 0, 0] : List Byte) < cw w 6 23 16 ∧
      cw w 6 23 16 ≤ leNat ([2, 0, 0, 0] : List Byte)) ∧
    rooted.rd Reg.prcMsiwin (prcIx 0 0) * 2 ^ 20 / 2 ^ 20 = rooted.rd Reg.prcMsiwin (prcIx 0 0) :=
  ⟨by decide, by decide, by decide, ⟨_, _, rfl⟩, ⟨_, _, rfl⟩, ⟨_, _, rfl⟩, by decide, by decide,
    ⟨_, _, _, rfl, by decide, by decide⟩, by decide⟩

/-- A port at each step of its slot, with a device and without, faulted and contained; a port that the root complex does not have; a CXL
range to check, and one being filled. -/
theorem witness_root_complex :
    rooted.hasPort 0 0 0 = true ∧ rooted.prcOn 0 0 = true ∧ State.reset.hasPort 0 0 1 = false ∧
    (∀ st ∈ [0, 1, 2, 3], (rooted.wr Reg.prcPortSlotState (portIx 0 0 0) st).rd Reg.prcPortSlotState (portIx 0 0 0) = st ∧
      (rooted.wr Reg.prcPortSlotState (portIx 0 0 0) st).hasPort 0 0 0 = true) ∧
    (∀ b ∈ [0, 1], (rooted.wr Reg.prcPortSlotPresent (portIx 0 0 0) b).rd Reg.prcPortSlotPresent (portIx 0 0 0) = b ∧
      (rooted.wr Reg.prcPortSlotFault (portIx 0 0 0) b).rd Reg.prcPortSlotFault (portIx 0 0 0) = b) ∧
    (let s := (rooted.wr Reg.prcPortSlotState (portIx 0 0 0) 2).wrs (portIx 0 0 0) [(Reg.prcPortCtlEn, 1), (Reg.prcPortCtlMaxgen, 6), (Reg.prcPortCtlCxl, 0)]
     s.rd Reg.prcPortCtlEn (portIx 0 0 0) = 1 ∧ 6 ≤ s.rd Reg.prcPortCtlMaxgen (portIx 0 0 0) ∧ s.rd Reg.prcPortCtlCxl (portIx 0 0 0) = 0) ∧
    ((rooted.wr Reg.prcPortEvent (portIx 0 0 0) 1).rd Reg.prcPortEvent (portIx 0 0 0)).testBit 0 = true ∧
    rooted.rd Reg.prcPortSlotPfgroup (portIx 0 0 0) = 0 ∧ rooted.rd Reg.prcPortLinkContained (portIx 0 0 0) = 0 ∧
    rooted.rd Reg.prcCxlwinValid { sock := 0, inst := 0, i := 0 } = 0 ∧
    (rooted.wr Reg.prcCxlwinInit { sock := 0, inst := 0, i := 0 } 1).rd Reg.prcCxlwinInit { sock := 0, inst := 0, i := 0 } = 1 := by decide

/-- Requests behind no earlier one, a write behind one that is not done; a slot whose fault is a second old and one whose is not; a port
whose link is in L1. -/
theorem witness_dma_order :
    rooted.dmaBehind 0 0 5 false 0x1000 64 = false ∧ rooted.dmaBehind 0 0 5 true 0x1000 2 = false ∧
    (let p : DmaPart := { rid := 5, port := 0, write := true, va := 0x2000, len := 64, done := 0, data := [], bad := false }
     (rooted.updPrc 0 0 (fun x => { x with parts := [p] })).dmaBehind 0 0 5 true 0x1000 2 = true) ∧
    (∀ q ∈ (rooted.prc 0 0).parts, q.write = true → q.rid ≠ 5) ∧
    rooted.slotHot 0 0 0 = false ∧ (rooted.updPrc 0 0 (fun x => { x with faults := [(0, 0)] })).slotHot 0 0 0 = true := by decide

/-! ### The Ashpan, hand-offs and lockstep -/

/-- An entry to write, with the sequence number reset leaves. -/
theorem witness_ashpan_entry :
    (0 : Nat) < 1024 ∧ ({ cls := 2, src := 0x20, inst := 5, code := 3 } : AshE).cls ≠ 0 ∧ ({ cls := 2, src := 0x20, inst := 5, code := 3 } : AshE).cls < 16 ∧
    ({ cls := 2, src := 0x20, inst := 5, code := 3 } : AshE).src < 256 ∧ ({ cls := 2, src := 0x20, inst := 5, code := 3 } : AshE).inst < 2 ^ 16 ∧
    State.reset.rd Reg.ashSeqNext { sock := 0 } < 2 ^ 32 := by decide

/-- A socket up and one off; corrected errors suppressed in a minute and none. -/
theorem witness_ashpan_commands :
    State.reset.up 0 = true ∧ ({ State.reset with down := [(0, 1)] } : State).up 0 = false ∧ cellGet 0 State.reset.ceSupp 0 = 0 ∧
    cellGet 0 ({ State.reset with ceSupp := [(0, 3)] } : State).ceSupp 0 ≠ 0 := by decide

/-- Core 0 handing off, at a step, with its spare. -/
def handing (step : Nat) (spare : Option Nat) (powered : Bool) : Handoff :=
  { core := 0, grate := 0, step := step, spare := spare, powered := powered, errs := (0, 0) }

/-- A socket with a spare and a core to hand off; one without spares; a hand-off at each step. -/
theorem witness_handoff :
    (State.reset.spares 0 ≠ [] ∧ State.reset.up 0 = true ∧ State.reset.coreMapped 0 = true ∧ State.reset.handoff 0 = none) ∧
    ((State.reset.spares 0).foldl (fun s g => s.wr Reg.coreGmapState { sock := 0, i := g } 5) State.reset).spares 0 = [] ∧
    (∀ n ∈ [0, 1, 2, 3, 4, 5, 6], ∀ b, let h := handing n (some 271) b
      let s := { State.reset with handoffs := [h] }
      s.handoff (0 * 256 + 0) = some h ∧ (s.rd Reg.ashHandoffTiles { sock := 0 }).testBit (tileOf h.grate) = false ∧
        (s.core 0).devWait = none ∧ (s.core 0).win = none ∧ (s.core 0).region = none ∧ (s.core 0).wait = none ∧
        (s.drain h.core).isSome = true ∧ s.activePair 0 0 = none ∧
        s.handoffs.find? (fun h => coreSock h.core = 0 && h.spare = some 271) = some h) := by decide

/-- Grates that are spare, used and fenced. -/
theorem witness_grates :
    (∀ st ∈ [1, 2, 4], (regAt Reg.coreGmapState { sock := 0, i := 0 } st).rd Reg.coreGmapState { sock := 0, i := 0 } = st) ∧
    State.reset.handoffs = [] ∧ State.reset.up 0 = true ∧ State.reset.activePair 0 0 = none ∧
    ({ State.reset with down := [(0, 1)] } : State).up 0 = false := by decide

/-- A lockstep pair at a step of its recovery. -/
def lockAt (step res : Nat) : LockRec := { sock := 0, pair := 0, step := step, mainBad := false, chkBad := false, res := res }

/-- A pair active, one at each step of its recovery, one to test and one being tested. -/
theorem witness_lockstep :
    (∀ st ∈ [0, 1, 2], (regAt Reg.ashLsState (lsIx 0 0) st).rd Reg.ashLsState (lsIx 0 0) = st) ∧ State.reset.up 0 = true ∧
    (∀ n ∈ [1, 2, 3], let s := { State.reset with lockrecs := [lockAt n 2] }
      s.lockrec 0 0 = some (lockAt n 2) ∧ (lockAt n 2).mainBad = false ∧ (lockAt n 2).chkBad = false) ∧
    (let s := regAt Reg.ashLscfgTlim { sock := 0 } 3
     (s.bump Reg.ashLsTransient (lsIx 0 0)).rd Reg.ashLsTransient (lsIx 0 0) <
       (s.bump Reg.ashLsTransient (lsIx 0 0)).rd Reg.ashLscfgTlim { sock := 0 }) ∧
    (State.reset.part 0).full = true ∧ (regAt Reg.ashLsEn (lsIx 0 0) 1).rd Reg.ashLsEn (lsIx 0 0) = 1 ∧
    State.reset.lockrec 0 0 = none := by decide

/-! ### Power -/

/-- Socket 0 at a step of its power sequence. -/
def pwAt (n : Nat) : State := State.reset.updPw 0 (fun p => { p with seq := n })

/-- Power sequence: Off, powering down, running, before standby, in RST#, at verification (no image, and one on a socket not in cold reset),
powering up with and without a latched power-off, with rails, a hold-up trigger of each cause, a save under way, and a restart wanted. -/
theorem witness_power_sequence :
    ((pwAt 4).pw 0).seq = 4 ∧ ((pwAt 4).pw 0).save = none ∧ ((pwAt 4).pw 0).need = false ∧
    ((pwAt 6).pw 0).seq = 6 ∧ ((pwAt 6).pw 0).save = none ∧
    (State.reset.pw 0).seq = 0 ∧ (State.reset.pw 0).save = none ∧ State.reset.up 0 = true ∧ (State.reset.pw 0).saved = false ∧
    ((pwAt 1).pw 0).seq = 1 ∧ ((pwAt 2).pw 0).seq = 2 ∧ ((pwAt 3).pw 0).seq = 3 ∧
    (let s := { pwAt 3 with down := [(0, 1)] }
     (s.pw 0).seq = 3 ∧ (s.loadBoot 0 [1]).rd Reg.pwrPkgPendreq { sock := 0 } = 0 ∧ cellGet 0 (s.loadBoot 0 [1]).down 0 = 1) ∧
    (let s := State.reset.updPw 0 (fun p => { p with seq := 5, wake := some (1, 0) })
     (s.pw 0).seq = 5 ∧ s.rd Reg.pwrPkgPendreq { sock := 0 } = 0 ∧ (s.pw 0).wake = some (1, 0)) ∧
    ((pwAt 5).wr Reg.pwrPkgPendreq { sock := 0 } 2).rd Reg.pwrPkgPendreq { sock := 0 } = 2 ∧
    (let s := State.reset.updPw 0 (fun p => { p with save := some (1, 0) })
     (s.pw 0).save = some (1, 0) ∧ (s.pw 0).seq = 0 ∧ s.rd Reg.pwrPkgPendreq { sock := 0 } = 0) ∧
    (let s := (State.reset.updPw 0 (fun p => { p with seq := 4, need := true })).wr Reg.pwrPkgPendreq { sock := 0 } 2
     (s.pw 0).seq = 4 ∧ (s.pw 0).need = true ∧ s.rd Reg.pwrPkgPendreq { sock := 0 } = 2) := by decide

/-- Clocks: core 0 has a clock and no checker; its PLL off, enabled, selected and locked; core 256 has none; a limit that still acts, a
target passed and an emergency. -/
theorem witness_clock_damper :
    State.reset.clkOk 0 0 = true ∧ State.reset.clkTwin 0 0 = none ∧ State.reset.rd Reg.pwrCoreLocked (pcIx 0 0) = 0 ∧
    (let s := regAt Reg.pwrCorePllen (pcIx 0 0) 1
     s.rd Reg.pwrCorePllen (pcIx 0 0) = 1 ∧ s.rd Reg.pwrCoreLocked (pcIx 0 0) = 0 ∧ s.rd Reg.pwrCoreSel (pcIx 0 0) = 0 ∧ s.clkOk 0 0 = true ∧
       s.clkTwin 0 0 = none) ∧
    (let s := regsAt (pcIx 0 0) [(Reg.pwrCorePllen, 1), (Reg.pwrCoreSel, 1)]
     s.rd Reg.pwrCorePllen (pcIx 0 0) = 1 ∧ s.rd Reg.pwrCoreLocked (pcIx 0 0) = 0 ∧ s.rd Reg.pwrCoreSel (pcIx 0 0) = 1 ∧ s.clkOk 0 0 = true ∧
       s.clkTwin 0 0 = none) ∧
    (let s := regAt Reg.pwrCoreLocked (pcIx 0 0) 1
     s.rd Reg.pwrCoreLocked (pcIx 0 0) = 1 ∧ s.live 0 = true ∧ s.clkOk 0 0 = true ∧ s.clkTwin 0 0 = none) ∧
    State.reset.clkOk 0 256 = false ∧ State.reset.live 0 = true ∧
    (let s := regAt Reg.pwrDampStatActive { sock := 0 } 3
     ((s.dampBit 0 0 false).wr Reg.pwrDampStatPkgw { sock := 0 } 1).rd Reg.pwrDampStatActive { sock := 0 } &&& 0x17 ≠ 0 ∧ s.live 0 = true) ∧
    State.reset.rd Reg.pwrDampTjtarget { sock := 0 } < 105 ∧ (State.reset.pw 0).emerg.testBit 0 = false ∧
    State.reset.rd Reg.pwrDampTjtarget { sock := 0 } < 104 + 2 := by decide

/-- Package, lands, units and resets: a running socket, one asleep, a land that asserts, a cell being turned on, a partition running and
stopping, a core out of reset and one that waits for RUN. -/
theorem witness_reset_sleep :
    State.reset.live 0 = true ∧ (regAt Reg.pwrPkgBanken { sock := 0 } 0).rd Reg.pwrPkgBanken { sock := 0 } = 0 ∧
    (regAt Reg.pwrPkgBanken { sock := 0 } 0).live 0 = true ∧ State.reset.rd Reg.pwrPkgState { sock := 0 } = 0 ∧
    (let s := regAt Reg.pwrPkgState { sock := 0 } 1
     s.live 0 = true ∧ s.rd Reg.pwrPkgState { sock := 0 } = 1) ∧
    (let s := regsAt { sock := 0, i := 3 } [(Reg.pwrWakePol, 1), (Reg.pwrWakeEn, 1)]
     s.live 0 = true ∧ (s.pw 0).seq = 0 ∧ s.rd Reg.pwrWakePol { sock := 0, i := 3 } = 1 ∧ s.rd Reg.pwrWakeEn { sock := 0, i := 3 } = 1 ∧
       s.rd Reg.pwrWakeEdge { sock := 0, i := 3 } = 0 ∧ (false == decide (s.rd Reg.pwrWakePol { sock := 0, i := 3 } = 1)) = false) ∧
    (State.reset.part 0).full = true ∧
    (let s := regsAt { sock := 0 } [(Reg.pwrUpwrStatStk, 0), (Reg.pwrUpwrStatPrc, 0), (Reg.pwrUpwrStk, 1)]
     s.live 0 = true ∧ s.rd Reg.pwrUpwrStatStk { sock := 0 } = 0 ∧ s.rd Reg.pwrUpwrStatPrc { sock := 0 } = 0 ∧
       (s.rd Reg.pwrUpwrStk { sock := 0 }).testBit 0 = true ∧ (s.rd Reg.pwrUpwrStatStk { sock := 0 }).testBit 0 = false) ∧
    (regAt Reg.chimPartState { sock := 0, i := State.reset.partition 0 } 2).rd Reg.chimPartState { sock := 0, i := State.reset.partition 0 } = 2 ∧
    State.reset.rd Reg.chimPartState { sock := 0, i := State.reset.partition 0 } = 0 ∧
    0 < (State.reset.part 0).cores ∧ (State.reset.coreReset 0).isSome = true ∧ (State.reset.part 0).cores ≤ 256 ∧
    (let s := regAt Reg.pwrPkgState { sock := 0 } 5
     s.live 0 = false) ∧
    ((State.reset.pw 0).save = none ∧ (State.reset.pw 0).seq = 0 ∧ ((pwAt 1).pw 0).seq = 1) ∧
    (255 < (State.reset.part 0).cores ∧ State.reset.rd Reg.pwrCoreRun (pcIx 0 255) = 0) ∧
    (let s := regAt Reg.chimPartState { sock := 0, i := 1 } 3
     s.rd Reg.chimPartState { sock := 0, i := 1 } = 3 ∧ s.partition 0 ≠ 1) := by decide

/-- A package that may enter Banked sleep: the cores that run are in Banked sleep and the cells' clocks gated; and the socket of a
partition that stops. -/
theorem witness_package_sleeps :
    (let s := { ((regAt Reg.pwrPkgBanken { sock := 0 } 1).wr Reg.pwrCoreCstate (pcIx 0 0) 2) with
       stkCells := (List.range 8).map (fun c => (c, { StkCell.idle with gated := true })) }
     s.live 0 = true ∧ s.rd Reg.pwrPkgState { sock := 0 } = 0 ∧ s.rd Reg.pwrPkgBanken { sock := 0 } = 1 ∧ s.allAsleep 0 [2, 3] = true ∧
       (∀ c < 8, s.stkOn 0 c = true → (s.cell 0 c).gated = true) ∧ s.prcBusy 0 = false ∧ s.inAction 0 = false ∧
       (∀ h ∈ s.handoffs, coreSock h.core ≠ 0) ∧ cellGet none s.retire 0 = none ∧
       (∀ m < 16, s.rd Reg.mcSpareStatBusy { sock := 0, inst := m } = 0) ∧ s.isAssured 0 = false ∧ s.landsHold 0 = false) ∧
    (let s := regAt Reg.chimPartState { sock := 0, i := State.reset.partition 0 } 3
     s.rd Reg.chimPartState { sock := 0, i := State.reset.partition 0 } = 3 ∧ s.partition 0 = State.reset.partition 0 ∧
       s.rd Reg.pwrResetWarmpend { sock := 0 } = 0) ∧
    State.reset.pairOf 0 0 = none ∧ (State.reset.core 0).frozen = false ∧ (State.reset.core 0).wait = none ∧
    (State.reset.core 0).storeQ = [] := by decide

/-! ### Stoker -/

/-- DRAM and channel 0 of cell 0 of socket 0 in a state, with rings of sixteen entries, every right, and a record. -/
def stoked (st : Nat) (x : StkCh) : State :=
  { dram.wrs (chIx 0 0 0) [(Reg.stkChState, st), (Reg.stkTpSqsize, 4), (Reg.stkTpCqsize, 4), (Reg.stkTpSqbase, 1), (Reg.stkTpCqbase, 2),
      (Reg.stkChCfgMaxinfl, 8), (Reg.stkChKr0, 2 ^ 64 - 1), (Reg.stkChKr1, 2 ^ 64 - 1)] with stkChs := [(chKey 0 0 0, x)] }

/-- A descriptor with its first doubleword, and one in flight. -/
def aDesc (op : Nat) (started : Bool) (fin : Option Fin) : Desc :=
  { idx := 0, w := [op, 0, 0, 0, 0, 0, 0, 0], started := started, fin := fin, split := none, memo := [], done := (0, 0) }

/-- A channel with one descriptor in flight and a key in slot 0. -/
def flying (d : Desc) : StkCh := { StkCh.idle with infl := [d], keys := [(0, some 5)] }

/-- A channel at each of its states: idle and busy, assigned and not, draining, stopped, and with nothing left in flight. -/
theorem witness_stoker_channels :
    (∀ st ∈ [0, 1, 2, 3, 4, 5], (stoked st StkCh.idle).hasCh 0 0 0 = true ∧ (stoked st StkCh.idle).chState 0 0 0 = st ∧
      (stoked st StkCh.idle).rd Reg.stkTpSqsize (chIx 0 0 0) = 4 ∧ (stoked st StkCh.idle).rd Reg.stkTpCqsize (chIx 0 0 0) = 4 ∧
      (stoked st StkCh.idle).rd Reg.stkChCfgVault (chIx 0 0 0) = 0) ∧
    15 % 4096 < 2 ^ 4 ∧ 2 ^ 4 ≤ 16 % 4096 ∧ (stoked 1 StkCh.idle).chBusy 0 0 0 = false ∧
    (stoked 1 (flying (aDesc 9 true none))).chBusy 0 0 0 = true ∧
    ((stoked 1 StkCh.idle).wr Reg.stkChCfgEn (chIx 0 0 0) 1).rd Reg.stkChCfgEn (chIx 0 0 0) = 1 ∧
    ((stoked 1 StkCh.idle).wr Reg.stkChCfgVault (chIx 0 0 0) 1).rd Reg.stkChCfgVault (chIx 0 0 0) = 1 ∧
    (let x := { flying (aDesc 9 true none) with rst := 1 }
     (stoked 3 x).stk 0 0 0 = x ∧ x.rst = 1 ∧ x.infl.any (fun d => d.fin.isNone) = true) ∧
    (let x := { StkCh.idle with rst := 3 }
     (stoked 3 x).stk 0 0 0 = x ∧ x.rst = 3 ∧ x.infl = [] ∧ x.drains = []) := by decide

/-- A descriptor to fetch with room for it; one to start that is well formed and one that is not; one that has ended. -/
theorem witness_stoker_descriptors :
    (let s := (stoked 1 StkCh.idle).wr Reg.stkTpSqtail (chIx 0 0 0) 1
     s.hasCh 0 0 0 = true ∧ s.chState 0 0 0 = 1 ∧ s.slotFree 0 0 0 = true ∧ s.rd Reg.stkTpSqhead (chIx 0 0 0) = 0 ∧
       s.rd Reg.stkTpSqhead (chIx 0 0 0) ≠ s.rd Reg.stkTpSqtail (chIx 0 0 0) ∧ (s.stk 0 0 0).infl.length < s.rd Reg.stkChCfgMaxinfl (chIx 0 0 0) ∧
       (s.rd Reg.stkTpCqtail (chIx 0 0 0) + 16 - s.rd Reg.stkTpCqhead (chIx 0 0 0)) % 16 + (s.stk 0 0 0).infl.length + 1 < 16 ∧
       (s.pRead (s.stkPort 0 0 0) (s.rd Reg.stkTpSqbase (chIx 0 0 0) * 4096 + 0 * 64) 64).2.2.isNone = true ∧
       ((s.wr Reg.stkTpSqbase (chIx 0 0 0) (2 ^ 34)).pRead (s.stkPort 0 0 0) ((2 ^ 34) * 4096 + 0 * 64) 64).2.2.any (fun e =>
         e.status ≠ 256) = true) ∧
    (stoked 1 StkCh.idle).rd Reg.stkTpSqhead (chIx 0 0 0) = (stoked 1 StkCh.idle).rd Reg.stkTpSqtail (chIx 0 0 0) ∧
    (∀ op ∈ [0, 1, 11], ((stoked 1 (flying (aDesc op false none))).stk 0 0 0).infl = [aDesc op false none] ∧
      ((stoked 1 (flying (aDesc op false none))).stk 0 0 0).infl.find? (fun d => !d.started) = some (aDesc op false none) ∧
      dw (aDesc op false none).w 0 8 8 = 0 ∧ dOp (aDesc op false none).w = op) ∧
    (let e : Desc := { aDesc 0 true none with idx := 1 }
     let d : Desc := { aDesc 0 false none with w := [256, 0, 0, 0, 0, 0, 0, 0] }
     let x : StkCh := { StkCh.idle with infl := [e, d] }
     (stoked 1 x).stk 0 0 0 = x ∧ x.infl.find? (fun d => !d.started) = some d ∧ dw d.w 0 8 8 = 1 ∧ e.idx ≠ d.idx) ∧
    formOk (aDesc 0 false none).w = true ∧ rangeOk (aDesc 0 false none).w = true ∧ formOk (aDesc 0x3F false none).w = false ∧
    formOk (aDesc 1 false none).w = true ∧ rangeOk (aDesc 1 false none).w = true ∧
    ((stoked 1 StkCh.idle).pRead ((stoked 1 StkCh.idle).stkPort 0 0 0) 0 256).2.2.isNone = true ∧
    progOk (((stoked 1 StkCh.idle).pRead ((stoked 1 StkCh.idle).stkPort 0 0 0) 0 256).2.1) (filterWidth (aDesc 1 false none).w) = false ∧
    (let f := Fin.stopped 0
     let s := stoked 1 (flying (aDesc 0 true (some f)))
     (s.stk 0 0 0).infl.find? (fun d => d.idx = 0) = some (aDesc 0 true (some f)) ∧
       (s.pWrite (s.stkPort 0 0 0) (s.rd Reg.stkTpCqbase (chIx 0 0 0) * 4096 + 0 * 32) (List.replicate 32 1)).2.2.isNone = true ∧
       (s.stk 0 0 0).infl.find? (fun d => d.idx = 1) = none) := by decide

/-- The port of a channel at work on its descriptor, as far as `n` more source lines. -/
def opPort (s : State) (n : Nat) : Port := { s.stkPort 0 0 0 with desc := some (chKey 0 0 0, 0), lim := n }

/-- A started descriptor of each operation ends. -/
theorem witness_stoker_operations :
    (∀ op ∈ [0, 1, 2, 3, 4, 5, 6, 7, 8, 9, 10, 11],
      (stoked 1 (flying (aDesc op true none))).running' 0 0 0 0 op = some (aDesc op true none)) ∧
    (∀ r ∈ ([(2, runProject), (3, runDecomp), (4, runBuild), (5, runProbe), (6, runAgg), (7, runSort), (8, runMerge), (9, runCrc)] :
        List (Nat × (Port → DWords → State → State × Option Fin))),
      let s := stoked 1 (flying (aDesc r.1 true none))
      (r.2 (opPort s 1) (aDesc r.1 true none).w s).2.isSome = true) := by decide

/-- A CRC32C over four lines has not run out after one of them, and has after all four. -/
theorem witness_stoker_lines :
    (let d : Desc := { aDesc 9 true none with w := [9, 0x10000, 256, 0, 0, 0, 0, 0] }
     let s := stoked 1 (flying d)
     s.running' 0 0 0 0 9 = some d ∧ (runCrc (opPort s 1) d.w s).2 = none ∧ (runCrc (opPort s 4) d.w s).2.isSome = true) := by decide

/-- SHA256, AESGCM with a key and FILTER in the cell end too. -/
theorem witness_stoker_keyed_operations :
    (let s := stoked 1 (flying (aDesc 10 true none))
     (runSha (opPort s 1) (aDesc 10 true none).w s).2.isSome = true) ∧
    (let s := stoked 1 (flying (aDesc 11 true none))
     cellGet none (s.stk 0 0 0).keys (dw (aDesc 11 true none).w 0 20 17) = some 5 ∧
       (runGcm (opPort s 1) (aDesc 11 true none).w (leBytes 32 5) s).2.isSome = true) ∧
    (let s := stoked 1 (flying (aDesc 1 true none))
     let r := s.pRead (s.stkPort 0 0 0) (dAux (aDesc 1 true none).w) 256
     r.2.2.isNone = true ∧ r.1.splits 0 0 0 (aDesc 1 true none).w = false ∧ r.1.running' 0 0 0 0 1 = some (aDesc 1 true none) ∧
       (runFilter (opPort r.1 1) (aDesc 1 true none).w r.2.1 r.1).2.isSome = true) := by decide

/-- A run of a split FILTER, and its descriptor. -/
def aRun : FRun := { first := 0, cnt := 64, va := 0, pa := 0, lines := 1, boff := 0, rid := true, tag := some 0, segsz := 64, at' := 0, sent := [], blk := 0 }

/-- A channel whose FILTER is split, of the runs given. -/
def splitting (l : List FRun) : StkCh :=
  { StkCh.idle with infl := [{ aDesc 1 true none with split := some { prog := [1], runs := l, pos := 0, out := [], n := 0, tail := none } }] }

/-- A work item of one block. -/
def anItem : RidItem :=
  { cell := 0, chan := 0, tag := 0, assured := false, fmt := 0, out := 0, w := 0, boff := 0, segsz := 64, base := 0, lenl := 1, nval := 64,
    dst := 0, prog := [1], blocks := [0] }

/-- A Riddle of socket 0, its lines read so far given. -/
def riddling (l : List Byte) : State := { stoked 1 (splitting [aRun]) with rids := [(0, { Rid.idle with queue := [anItem], lines := l })] }

/-- A work item to take, one not taken, a line to read and a block read; drains asked for, taken and not; segments to join. -/
theorem witness_riddles :
    (stoked 1 StkCh.idle).nextItem 0 0 0 0 = none ∧ ((stoked 1 (splitting [aRun])).nextItem 0 0 0 0).isSome = true ∧
    (dram.wr Reg.ridCtlEn { sock := 0, inst := 0 } 0).rd Reg.ridCtlEn { sock := 0, inst := 0 } = 0 ∧
    ((riddling []).rid 0 0).queue = [anItem] ∧ anItem.blocks = [0] ∧
    (anItem.block 0).1 + ((riddling []).rid 0 0).lines.length < (anItem.block 0).2 ∧
    (anItem.block 0).2 ≤ (anItem.block 0).1 + ((riddling (List.replicate 64 0)).rid 0 0).lines.length ∧
    (let s := riddling []
     s.mcLine 0 0 = some (0, 0) ∧ s.mcHolds 0 0 0 = false ∧ s.agentWaits 0 0 = false ∧
       (s.agentRead (freeAgent 0) 0 0).2.isNone = true ∧ (s.bits 0 = .none ∨ s.bits 0 = .shared) ∧
       (let u := s.setBits 0 .owned
        u.bits 0 ≠ .none ∧ u.bits 0 ≠ .shared)) ∧
    (let s := (stoked 1 (splitting [aRun])).wr Reg.ridCtlEn { sock := 0, inst := 0 } 1
     let s := { s with rids := [(0, { Rid.idle with progs := [(0, [1])] })] }
     s.rd Reg.ridCtlEn { sock := 0, inst := 0 } ≠ 0 ∧ (s.rid 0 0).queue = [] ∧ cellGet [] (s.rid 0 0).progs 0 = ([1] : List Byte) ∧
       (s.nextItem 0 0 0 0).any (fun x => x.2.1.prog == [1] && x.2.2 == aRun) = true ∧
       ∃ j < blocksOf aRun.pa aRun.lines, s.chanOf 0 ((aRun.pa / 4096 + j) * 4096 % 2 ^ 47) = 0) ∧
    (let u : SegUse := { tag := 0, chan := 0, idx := 0, line := 0, len := 1, left := [0], live := true }
     let s := { stoked 1 (flying (aDesc 0 true none)) with stkCells := [(0, { StkCell.idle with segs := [u] })] }
     (s.cell 0 0).segs.any (fun u => u.chan = 0 && u.idx = 0 && !u.left.isEmpty) = true ∧
       ((stoked 1 (flying (aDesc 0 true none))).cell 0 0).segs = []) ∧
    ((stoked 1 { StkCh.idle with drains := [3] }).stk 0 0 0).drains.contains 3 = true ∧ ((riddling []).rid 0 0).drains.contains (0, 0) = false ∧
    (({ dram with rids := [(0, { Rid.idle with drains := [(0, 0)] })] } : State).rid 0 0).drains.contains (0, 0) = true ∧
    (stoked 1 (splitting [aRun])).chState 0 0 0 = 1 ∧
    ((stoked 1 (splitting [aRun])).stk 0 0 0).infl.find? (fun d => d.idx = 0 && d.fin.isNone) = (splitting [aRun]).infl.head? ∧
    aRun.rid = true ∧ aRun.tag = some 0 ∧ ((stoked 1 (splitting [aRun])).stk 0 0 0).segs.contains (0, 0) = false ∧
    (let sp : Split := { prog := [1], runs := [], pos := 0, out := [], n := 0, tail := none }
     let s := stoked 1 (splitting [])
     (State.boxValues (s.stkPort 0 0 0) [1, 0, 0, 0, 0, 0, 0, 0] (dP64 [1, 0, 0, 0, 0, 0, 0, 0] - 0) sp s).2 = (sp, none)) := by decide

/-- An idle cell, one with work, and mailboxes free, busy and pending. -/
theorem witness_firebox_mailboxes :
    dram.stkOn 0 0 = true ∧ (∀ i < 64, (dram.stk 0 0 i).infl.any (fun d => d.started && d.fin.isNone) = false) ∧
    ((stoked 1 (flying (aDesc 9 true none))).stk 0 0 0).infl.any (fun d => d.started && d.fin.isNone) = true ∧
    (stoked 1 (flying (aDesc 9 true none))).rd Reg.stkSchedAres { sock := 0, inst := 0 } = 0 ∧
    (∀ i < 64, (1 : BitVec 64).getLsbD i = decide (i = 0)) ∧
    (∀ f ∈ [Reg.stkTpMboxTxbusy, Reg.stkChMboxTxbusy, Reg.stkTpMboxRxpend, Reg.stkChMboxRxpend],
      dram.rd f (chIx 0 0 0) = 0 ∧ (dram.wr f (chIx 0 0 0) 1).rd f (chIx 0 0 0) = 1) := by decide

/-! ### The security controller and Vault -/

/-- A request of core 0 whose block is at 0x1000. -/
def aReq (op : Nat) (w : Option (Nat × Nat)) : KeyReq :=
  { op := op, pa := 0x1000, world := w, domain := 0, kr0 := 0xFFFFFFFFFFFFFFFF, kr1 := 0xFFFFFFFFFFFFFFFF }

/-- DRAM with that request pending and the bytes of its block and what it leads to. -/
def asked (op : Nat) (w : Option (Nat × Nat)) (m : Memory) : State :=
  { dramWith (fun k => { k with keyReq := some (aReq op w) }) with mem := m }

/-- The same after the block is read. -/
def askedU (op : Nat) (w : Option (Nat × Nat)) (m : Memory) : State := ((asked op w m).agentRead (freeAgent 0) 0 64).1

/-- Whether a status word can be written to the request's block. -/
def statusGoes (s : State) (st : Nat) : Bool := (s.agentWrite (freeAgent 0) 0 0x1000 (leBytes 8 st)).2.all (fun y => y.status ≠ 256)

/-- A block that can be read, a status that can be written, operations listed and not, both worlds, a Sealed partition and one that is not, a
part with Vault and one without, and a channel of each world. -/
theorem witness_security_requests :
    (∀ op ∈ [0x01, 0x02, 0x03, 0x7F], ∀ w ∈ [none, some (0, 0)],
      ((asked op w []).core 0).keyReq = some (aReq op w) ∧ ((asked op w []).agentRead (freeAgent 0) 0 (lineOf 0x1000)).2 = none ∧
        statusGoes (askedU op w []) 1 = true) ∧
    0x7F ∉ ([0x01, 0x02, 0x03, 0x10, 0x11, 0x12, 0x13, 0x14, 0x15, 0x16, 0x17] : List Nat) ∧
    (askedU 1 none []).isSealed 0 = false ∧
    ((askedU 1 none []).wr Reg.secPartSealed { sock := 0 } 1).isSealed 0 = true ∧ ((askedU 2 none []).part 0).full = true ∧
    ({ askedU 2 none [] with parts := [(0, .eq128l)] } : State).part 0 = .eq128l ∧ (Part.eq128l).full = false ∧
    (askedU 3 none []).chNowhere 0 0 0 = false ∧ (askedU 3 none []).chWorld 0 0 0 = (none : Option (Nat × Nat)).map (·.1) ∧
    (askedU 3 (some (0, 0)) []).chWorld 0 0 0 ≠ (some (0, 0) : Option (Nat × Nat)).map (·.1) ∧
    ((askedU 3 none []).wr Reg.stkChState (chIx 0 0 0) 5).chNowhere 0 0 0 = true := by decide

/-- A report whose buffer is not 512-byte aligned, one whose buffer is at 0 and can be written, and one whose buffer is on no granted page. -/
theorem witness_report :
    (askedU 1 none [(0x1008, 1)]).opnd (aReq 1 none) 8 % 512 ≠ 0 ∧
    (let u := askedU 1 none []
     u.opnd (aReq 1 none) 8 % 512 = 0 ∧ u.secWait 0 (aReq 1 none) Acc.store 0 = false ∧
       (u.secVa 0 (aReq 1 none) Acc.store 0).any (fun p => p.1 == 0 &&
         (secWrite 0 (pieces 0 512) (List.replicate 512 1) p.2.useFree).isSome) = true) ∧
    (let u := (askedU 1 none []).updCore 0 (fun k => k.setSrOwn SR.XLATCTL 1)
     u.secWait 0 (aReq 1 none) Acc.store 0 = false ∧ (u.secVa 0 (aReq 1 none) Acc.store 0).isNone = true) := by decide

/-- Instance 0 in a state. -/
def inst0 (st : Nat) (v : VInst) (s : State) : State := (s.wr Reg.secViStateState (viIx 0) st).setVinst 0 v

/-- A sealing block with one seat and no stack pages, and page tables of the instance that map its entry. -/
def sealMem : Memory :=
  [(0x1011, 0x40), (0x102A, 1), (0x102B, 1), (0x1039, 0x20), (0x4000, 0x01), (0x4001, 0x50), (0x5000, 0x01), (0x5001, 0x60), (0x6000, 0x23)]

/-- Instances to create, open, sealed and restarting; pages to add and refused; a block that seals and one that does not. -/
theorem witness_vault_instances :
    (let u := askedU 0x10 none []
     (u.part 0).full = true ∧ (aReq 0x10 none).world = none ∧ u.rd Reg.secViStateState (viIx (u.instOf 0 0)) = 0 ∧
       (u.agentWrite (freeAgent 0) 0 (0x1000 + 8) (leBytes 8 0)).2 = none) ∧
    (let u := (List.range 64).foldl (fun s i => s.wr Reg.secViStateState (viIx i) 1) (askedU 0x10 none [])
     ∀ i < 64, u.rd Reg.secViStateState (viIx (u.instOf 0 i)) ≠ 0) ∧
    (let u := inst0 1 VInst.free (askedU 0x11 none [(0x1019, 0x80), (0x1020, 3)])
     (u.secInst 0 (aReq 0x11 none) (· = 1)).toOption = some 0 ∧ u.opnd (aReq 0x11 none) 0x18 = 0x8000 ∧
       natBits (u.opnd (aReq 0x11 none) 0x20) 1 0 = 3 ∧ 0x8000 % 4096 = 0 ∧ u.target 0 0x8000 = .dram 0 0x8000 ∧ (u.pageOwner 0x8000).1 = 0 ∧
       u.pageBusy 0 (0x8000 / 4096) = false) ∧
    ((askedU 0x11 none []).secInst 0 (aReq 0x11 none) (· = 1)).toOption = none ∧
    (let u := { inst0 1 VInst.free (askedU 0x12 none sealMem) with owner := [(0, (1, 0)), (4, (3, 0)), (5, (3, 0)), (6, (3, 0))] }
     let x := { u.vinst 0 with vseal := memBytes u.mem 0x1000 64 }
     (u.secInst 0 (aReq 0x12 none) (· = 1)).toOption = some 0 ∧ u.vsealWaits 0 (aReq 0x12 none) 0 x = false ∧ u.secAllow 0 (aReq 0x12 none) (x.sealed 0x38) = some [] ∧
       u.sealBad 0 0 x = false) ∧
    (let u := inst0 1 VInst.free (askedU 0x12 none [])
     u.sealBad 0 0 { u.vinst 0 with vseal := memBytes u.mem 0x1000 64 } = true ∧ u.secAllow 0 (aReq 0x12 none) 1 = none) ∧
    (∀ st ∈ [2, 3], let u := inst0 st VInst.free (askedU 0x13 none [])
      (u.secInst 0 (aReq 0x13 none) (· ≠ 0)).toOption = some 0 ∧ u.rd Reg.secViStateState (viIx 0) = st ∧
        u.handover.any (fun h => h.inst = 0) = false ∧ (u.vinst 0).pages.any (fun e => u.pageBusy 0 e.1) = false ∧
        (u.evictSeats 0).any (fun v => (v.vinst 0).units == []) = true) := by decide

/-- A hand-over of channel 0 of cell 0 at a step. -/
def handOver (op step : Nat) : HandOver := { sock := 0, unit := 1, inst := 0, op := op, step := step, core := 0, cancelled := false }

/-- A unit that may be assigned, one that may not, one owned, one in motion; hand-overs at their steps. -/
theorem witness_vault_units :
    (∀ op ∈ [0x14, 0x16],
      let x := { VInst.free with allow := [1], units := if op = 0x14 then [] else [unitKey 0 1] }
      let u := inst0 2 x (askedU op none [(0x1010, 1)])
      (u.part 0).full = true ∧ (∀ h ∈ u.handover, h.core ≠ 0) ∧ u.opnd (aReq op none) 0x10 = 1 ∧ unitOk 1 = true ∧
        (u.secInst 0 (aReq op none) (· = 2)).toOption = some 0 ∧ u.unitMoving 0 1 = false ∧
        u.unitOwner 0 1 = (if op = 0x14 then none else some 0) ∧ u.unitQuar 0 1 = false ∧ (∃ a ∈ (u.vinst 0).allow, a % 2 ^ 63 = 1) ∧
        (u.vinst 0).units.length < 16 ∧ (u.prc 0 (unitFn 1).1).fns.length < 64 ∧ statusGoes u 1 = true) ∧
    ({ askedU 0x14 none [] with handover := [handOver 0x14 1] } : State).unitMoving 0 1 = true ∧
    natBits 2 3 0 = 2 ∧ unitOk 2 = true ∧
    (∀ h ∈ [handOver 0x14 1, handOver 0x14 2, handOver 0x14 4, handOver 0x15 2], let s := { dram with handover := [h] }
      s.moving 0 1 h.step = some h ∧ natBits 1 3 0 = 1 ∧ h.cancelled = false ∧ (s.core 0).keyReq = none ∧
        statusGoes (s.moved h) 1 = true ∧
        ({ s.wr Reg.stkChState (chIx 0 0 0) 4 with handover := [h] } : State).chState 0 (unitCh 1).1 (unitCh 1).2 = 4 ∧
        s.chState 0 (unitCh 1).1 (unitCh 1).2 ≠ 4) := by decide

/-- A function in motion, and one that its root complex knows; a channel and a function that a restart resets; a request answered and gone. -/
theorem witness_vault_functions :
    (let h : HandOver := { handOver 0x14 1 with unit := 2 }
     let s := { dram with handover := [h] }
     s.moving 0 2 1 = some h ∧ natBits 2 3 0 = 2 ∧ natBits 2 3 0 ≠ 1) ∧
    (let h : HandOver := { handOver 0x14 2 with unit := 2 }
     let s := { dram with handover := [h] }
     s.moving 0 2 2 = some h ∧ (match (s.devCtx 0 (unitFn 2).1 (unitFn 2).2).2 with | .error true => false | _ => true) = true) ∧
    (let s := inst0 3 { VInst.free with step := 2, units := [unitKey 0 2], resets := [unitKey 0 2] } dram
     s.moving 0 2 2 = none ∧ s.resetFor 0 2 = some 0 ∧ s.restartRuns 0 = true) ∧
    (let s := (inst0 3 { VInst.free with step := 2, units := [unitKey 0 1] } dram).wr Reg.stkChState (chIx 0 0 0) 3
     s.resetFor 0 1 = some 0 ∧ s.chState (unitKey 0 1 / 2 ^ 32) (unitCh (unitKey 0 1)).1 (unitCh (unitKey 0 1)).2 = 3) ∧
    (let h : HandOver := { handOver 0x14 2 with cancelled := true }
     let s := { asked 0x14 none [] with handover := [h] }
     (s.core h.core).keyReq = some (aReq 0x14 none) ∧ h.cancelled = true ∧ statusGoes ((s.unitFree 0 1).moved h) 0x80000006 = true) := by decide

/-- The instance at a step of its restart, its digest that of its record. -/
def restarting (step : Nat) : State :=
  let s := inst0 3 { VInst.free with step := step } dram
  (List.range 4).foldl (fun s j => s.wr Reg.secViDigest { viIx 0 with j := j }
    (leNat (((s.digestOf { VInst.free with step := step }).drop (8 * j)).take 8))) s

/-- Restarts asked for, running, with a seat occupied and none, and at each step; the digest that agrees and one that does not. -/
theorem witness_vault_restarts :
    ((asked 0x17 (some (0, 0)) []).core 0).keyReq = some (aReq 0x17 (some (0, 0))) ∧
    ((asked 0x17 (some (0, 0)) []).agentRead (freeAgent 0) 0 (lineOf 0x1000)).2 = none ∧
    (inst0 2 VInst.free dram).vRunning ((inst0 2 VInst.free dram).instOf 0 0) = true ∧
    ((inst0 2 VInst.free dram).wr Reg.secViStateBusy (viIx 0) 1).rd Reg.secViStateBusy (viIx 0) ≠ 0 ∧
    dram.rd Reg.secViStateBusy (viIx 0) = 0 ∧
    (let s := (inst0 3 VInst.free dram).updCore 0 (fun k => { k with world := some (0, 0) })
     (s.core 0).world = some (0, 0) ∧ (s.core 0).world.map (·.1) = some (s.instOf (coreSock 0) (0 % 64)) ∧
       s.rd Reg.secViStateState (viIx 0) = 3 ∧ (s.abandonSeat 0).isSome = true ∧ (s.core 0).frozen = false ∧ (s.core 0).devWait = none ∧
       (s.core 0).win = none ∧ (s.core 0).region = none ∧ (s.core 0).storeQ = [] ∧ (s.sr 0 SR.FPSTAT).getLsbD 8 = false ∧
       ((s.core 0).srOwn SR.XLATCTL).getLsbD 0 = false ∧ ((s.core 0).srOwn SR.XLATCTL).getLsbD 1 = false) ∧
    (let s := { (inst0 2 { VInst.free with kick := 0 } dram).wrs (viIx 0) [(Reg.secViStateBusy, 1), (Reg.secViWdog, 1)] with time := 2000 }
     s.vRunning (s.instOf 0 0) = true ∧ s.rd Reg.secViStateBusy (viIx 0) ≠ 0 ∧
       (s.vinst 0).kick + 1000 * s.rd Reg.secViWdog (viIx 0) ≤ s.now 0) ∧
    (∀ n ∈ [1, 2, 3], let s := restarting n
      (s.vinst (s.instOf 0 0)).step = n ∧ s.cores.any (fun (e : Nat × Core) => e.2.world.map (·.1) = some 0) = false ∧
        (s.vinst 0).units = [] ∧ (s.vinst 0).pages = [] ∧ (s.vinst 0).resets = [] ∧ s.restartRuns 0 = true) ∧
    ({ restarting 1 with down := [(0, 1)] } : State).restartRuns 0 = false ∧
    (let s := restarting 3
     !s.imageBad (s.vinst 0) && (List.range 4).all (fun j => s.rd Reg.secViDigest { viIx 0 with j := j } =
       leNat (((s.digestOf (s.vinst 0)).drop (8 * j)).take 8))) = true ∧
    (let s := inst0 3 { VInst.free with step := 3 } dram
     !s.imageBad (s.vinst 0) && (List.range 4).all (fun j => s.rd Reg.secViDigest { viIx 0 with j := j } =
       leNat (((s.digestOf (s.vinst 0)).drop (8 * j)).take 8))) = false := by decide

/-! ### Encodings -/

/-- ADDI from page A: the fields of the spec's worked encoding, and NOP. -/
theorem test_decode_immediate :
    decodeInstr 7 0x17F0412F = some (.immOp 7 1 5 2 0x3FF0) ∧ decodeInstr 7 0x00004100 = some (.immOp 7 1 0 0 0) := by decide

/-- A 16-bit, a system and a 48-bit instruction. -/
theorem test_decode_lengths :
    decodeInstr 0 0x1800 = some (.cAddi 0 0 0) ∧ decodeInstr 0 0x00019D00 = some (.gentry 0) ∧
    decodeInstr 0 0x09941000CF20 = some (.vunpk 0 4 1 6 10 0 1 0) := by decide

/-- Parcel 0x0000 and 48-bit OP 0x3F are no instruction. -/
theorem test_decode_illegal : decodeInstr 0 0x0000 = none ∧ decodeInstr 0 0xFF00 = none ∧ decodeInstr 0 0xFFFF = none := by decide

/-- An instruction of each length has words; a command of no core has none. -/
theorem witness_encodings :
    encodeInstr (.gentry 3) = some 0x00019D00 ∧ instrCore (.gentry 3) = some 3 ∧ encodeInstr (.cAddi 0 0 0) = some 0x1800 ∧
    encodeInstr (.vunpk 0 4 1 6 10 0 1 0) = some 0x09941000CF20 ∧ encodeInstr (.nvClr 0) = none := by decide

/-- DRAM whose first line holds a word, and the core there. -/
def fetching (w : Nat) : State := { dramWith (fun k => { k with pc := 0 }) with mem := memWrite [] 0 (leBytes 4 w) }

/-- Parcels that decode and ones that do not. -/
theorem witness_fetched_words :
    (let s := fetching 0x00019D00
     s.parcels 0 2 = some 0x9D00 ∧ parcelLen 0x9D00 = 4 ∧ s.parcels 0 4 = some 0x00019D00 ∧ decodeInstr 0 0x00019D00 = some (.gentry 0)) ∧
    (let s := fetching 0
     s.parcels 0 2 = some 0 ∧ parcelLen 0 = 2 ∧ decodeInstr 0 0 = none) := by decide

end Sys2Proof.Machine
end

/-! ## What a step can do to the state as a whole -/

namespace Sys2Proof.Machine

/-! ### One step, by the queue -/

/-- With no command waiting a step is a tick. -/
theorem step_of_pending_nil {s : State} (h : s.pending = []) : step s = .next s.tick := by
  simp [step, h]

/-- With a command waiting a step runs it on the state with the rest of the queue. -/
theorem step_of_pending_cons {s : State} {i : Instr} {rest : List Instr} (h : s.pending = i :: rest) :
    step s = exec i { s with pending := rest } := by
  simp [step, h]

/-! ### A tick -/

/-- Powering on a slot changes registers and root complexes alone (R494, Table PCIX-3). -/
theorem State.slotOn_mem_cores (s : State) (k n j : Nat) :
    (s.slotOn k n j).mem = s.mem ∧ (s.slotOn k n j).cores = s.cores := by
  unfold State.slotOn
  dsimp only
  split
  · exact ⟨rfl, rfl⟩
  · split <;> exact ⟨rfl, rfl⟩

/-- The slots whose second after a power fault is over leave memory and the cores alone. -/
theorem State.slotsDue_mem_cores (s : State) : s.slotsDue.mem = s.mem ∧ s.slotsDue.cores = s.cores := by
  unfold State.slotsDue
  refine List.foldlRecOn (motive := fun t : State => t.mem = s.mem ∧ t.cores = s.cores) _ _ ⟨rfl, rfl⟩ fun t ht e _ => ?_
  refine List.foldlRecOn (motive := fun t : State => t.mem = s.mem ∧ t.cores = s.cores) _ _ ht fun u hu j _ => ?_
  dsimp only
  split
  · exact hu
  · obtain ⟨hmem, hcores⟩ := State.slotOn_mem_cores
      (u.updPrc (e.1 / 4) (e.1 % 4) (fun x => { x with want := x.want.filter (· ≠ j) })) (e.1 / 4) (e.1 % 4) j
    exact ⟨hmem.trans hu.1, hcores.trans hu.2⟩

/-- A tick keeps the queue and the parts, and memory in its canonical form; the clock is the one it sets. -/
theorem State.tick_keeps (s : State) : Keeps { s with time := s.time + 1 } s.tick :=
  State.slotsDue_keeps (Keeps.refl _)

/-! ### A command -/

/-- The state a command answers keeps what its outcome keeps. -/
theorem KeepsH.nextE {s0 t : State} {o : Host.Outcome State Fault Refusal} (h : KeepsH s0 o) (e : o = .next t) : Keeps s0 t := by
  subst e; cases h; assumption

/-- Whatever the command, `exec` keeps the queue, the parts and the clock, and memory in its canonical form: each meaning does. -/
theorem exec_keeps {s0 s : State} (h : Keeps s0 s) (i : Instr) : KeepsH s0 (exec i s) := by
  unfold exec
  split
  · exact execControlRegWrite_keeps h
  · exact execShadowCommitArrival_keeps h
  · exact execIntOp_keeps h
  · exact execDiv_keeps h
  · exact execCrc_keeps h
  · exact execImmOp_keeps h
  · exact execShiftImm_keeps h
  · exact execAddiw_keeps h
  · exact execLui_keeps h
  · exact execAddpc_keeps h
  · exact execExtu_keeps h
  · exact execExts_keeps h
  · exact execIns_keeps h
  · exact execSel_keeps h
  · exact execLi_keeps h
  · exact execLiu_keeps h
  · exact execLih_keeps h
  · exact execAddiL_keeps h
  · exact execAddpcL_keeps h
  · exact execDadd_keeps h
  · exact execDsub_keeps h
  · exact execDmul_keeps h
  · exact execDdiv_keeps h
  · exact execDresc_keeps h
  · exact execLd_keeps h
  · exact execSt_keeps h
  · exact execLdx_keeps h
  · exact execStx_keeps h
  · exact execLda_keeps h
  · exact execStl_keeps h
  · exact execPref_keeps h
  · exact execLdL_keeps h
  · exact execStL_keeps h
  · exact execBcc_keeps h
  · exact execBccL_keeps h
  · exact execJmp_keeps h
  · exact execCall_keeps h
  · exact execJmpr_keeps h
  · exact execCallr_keeps h
  · exact execRet_keeps h
  · exact execTrap_keeps h
  · exact execBrk_keeps h
  · exact execCMov_keeps h
  · exact execCAdd_keeps h
  · exact execCSub_keeps h
  · exact execCAnd_keeps h
  · exact execCOr_keeps h
  · exact execCXor_keeps h
  · exact execCAddi_keeps h
  · exact execCLi_keeps h
  · exact execCSlli_keeps h
  · exact execCSrli_keeps h
  · exact execCSrai_keeps h
  · exact execCLdk_keeps h
  · exact execCStk_keeps h
  · exact execCBeqz_keeps h
  · exact execCBnez_keeps h
  · exact execCJ_keeps h
  · exact execCRet_keeps h
  · exact execCBrk_keeps h
  · exact execCFenceX_keeps h
  · exact execFadd_keeps h
  · exact execFsub_keeps h
  · exact execFmul_keeps h
  · exact execFdiv_keeps h
  · exact execFmin_keeps h
  · exact execFmax_keeps h
  · exact execFsqrt_keeps h
  · exact execFmadd_keeps h
  · exact execFeq_keeps h
  · exact execFun_keeps h
  · exact execFlt_keeps h
  · exact execFle_keeps h
  · exact execFltq_keeps h
  · exact execFleq_keeps h
  · exact execFcvt_keeps h
  · exact execFmvVg_keeps h
  · exact execFmvGv_keeps h
  · exact execFclass_keeps h
  · exact execFabs_keeps h
  · exact execFneg_keeps h
  · exact execFnabs_keeps h
  · exact execFcpys_keeps h
  · exact execVint_keeps h
  · exact execVcmp_keeps h
  · exact execVfp_keeps h
  · exact execVfmadd_keeps h
  · exact execVld_keeps h
  · exact execVst_keeps h
  · exact execVperm_keeps h
  · exact execVperm2_keeps h
  · exact execVcompress_keeps h
  · exact execVexpand_keeps h
  · exact execVslideup_keeps h
  · exact execVslidedn_keeps h
  · exact execVrev_keeps h
  · exact execVunpk_keeps h
  · exact execVpack_keeps h
  · exact execVcrc_keeps h
  · exact execVredInt_keeps h
  · exact execVredFp_keeps h
  · exact execMaskLogic_keeps h
  · exact execMtog_keeps h
  · exact execGtom_keeps h
  · exact execMpopc_keeps h
  · exact execMfirst_keeps h
  · exact execVbcastG_keeps h
  · exact execVins_keeps h
  · exact execVext_keeps h
  · exact execVmov_keeps h
  · exact execVzero_keeps h
  · exact execHatom_keeps h
  · exact execHcas_keeps h
  · exact execAtomBegin_keeps h
  · exact execAtomAdd_keeps h
  · exact execAtomCommit_keeps h
  · exact execAtomAbort_keeps h
  · exact execRegionLong_keeps h
  · exact execFenceLl_keeps h
  · exact execFenceLs_keeps h
  · exact execFenceSl_keeps h
  · exact execFenceSs_keeps h
  · exact execFenceFull_keeps h
  · exact execFenceIo_keeps h
  · exact execFenceGlobal_keeps h
  · exact execFenceX_keeps h
  · exact execIflush_keeps h
  · exact execCclean_keeps h
  · exact execCflush_keeps h
  · exact execCinval_keeps h
  · exact execCzero_keeps h
  · exact execSwclean_keeps h
  · exact execSwflush_keeps h
  · exact execTlbiVa_keeps h
  · exact execTlbiSid_keeps h
  · exact execTlbiVm_keeps h
  · exact execTlbiIpa_keeps h
  · exact execTlbiAll_keeps h
  · exact execTlbiForward_keeps h
  · exact execTlbiTargetAck_keeps h
  · exact execTlbiSocketAck_keeps h
  · exact execTlbiComplete_keeps h
  · exact execSrd_keeps h
  · exact execSwr_keeps h
  · exact execSwrAuth_keeps h
  · exact execSwrKrights_keeps h
  · exact execSwrTcmp_keeps h
  · exact execSwrXlatctl_keeps h
  · exact execSwrPmsel_keeps h
  · exact execPmdataRead_keeps h
  · exact execKdrop_keeps h
  · exact execKdropLo_keeps h
  · exact execKdropHi_keeps h
  · exact execGate_keeps h
  · exact execGentry_keeps h
  · exact execGret_keeps h
  · exact execGretEv_keeps h
  · exact execWait_keeps h
  · exact execWaitBanked_keeps h
  · exact execWaitCold_keeps h
  · exact execCoreWake_keeps h
  · exact execSleepGateClosed_keeps h
  · exact execAttest_keeps h
  · exact execVreport_keeps h
  · exact execStkkey_keeps h
  · exact execVcreate_keeps h
  · exact execVadd_keeps h
  · exact execVseal_keeps h
  · exact execVdestroy_keeps h
  · exact execVassign_keeps h
  · exact execVrelease_keeps h
  · exact execVreclaim_keeps h
  · exact execVrestart_keeps h
  · exact execSecRequestBadOp_keeps h
  · exact execUnitWorkStopped_keeps h
  · exact execUnitResetComplete_keeps h
  · exact execUnitResetTimeout_keeps h
  · exact execUnitRoutesRewritten_keeps h
  · exact execViKick_keeps h
  · exact execVaultWatchdogExpiry_keeps h
  · exact execVaultRestart_keeps h
  · exact execVaultSeatAbandon_keeps h
  · exact execVaultUnitsReset_keeps h
  · exact execVaultDataCleared_keeps h
  · exact execVaultDigestCheck_keeps h
  · exact execEventEntry_keeps h
  · exact execInterruptTakeover_keeps h
  · exact execEntryWindowCommit_keeps h
  · exact execPostedAtomicFailed_keeps h
  · exact execTimerCompare_keeps h
  · exact execIpiSend_keeps h
  · exact execIpiReceive_keeps h
  · exact execMsgInterrupt_keeps h
  · exact execTpriWrite_keeps h
  · exact execStoreDrain_keeps h
  · exact execHwPrefetch_keeps h
  · exact execHardenWrite_keeps h
  · exact execContextSweepDone_keeps h
  · exact execUsefulnessDecay_keeps h
  · exact execFenceRecoveryTimeout_keeps h
  · exact execRegionRecoveryTimeout_keeps h
  · exact execActionEndAbandon_keeps h
  · exact execRds_keeps h
  · exact execRd_keeps h
  · exact execRdo_keeps h
  · exact execUpg_keeps h
  · exact execOwn_keeps h
  · exact execRdu_keeps h
  · exact execWru_keeps h
  · exact execHat_keeps h
  · exact execCmo_keeps h
  · exact execLockx_keeps h
  · exact execWb_keeps h
  · exact execEv_keeps h
  · exact execUnlock_keeps h
  · exact execFlushb_keeps h
  · exact execSnps_keeps h
  · exact execSnpi_keeps h
  · exact execSnpx_keeps h
  · exact execSnpr_keeps h
  · exact execSnpc_keeps h
  · exact execDataS_keeps h
  · exact execDataE_keeps h
  · exact execDataM_keeps h
  · exact execDataU_keeps h
  · exact execGnt_keeps h
  · exact execAck_keeps h
  · exact execSrsp_keeps h
  · exact execCmp_keeps h
  · exact execAtres_keeps h
  · exact execWback_keeps h
  · exact execRetry_keeps h
  · exact execRetryReissue_keeps h
  · exact execFin_keeps h
  · exact execAtomicBufferWriteback_keeps h
  · exact execHrthRetire_keeps h
  · exact execSliceRetireStart_keeps h
  · exact execBucketMark_keeps h
  · exact execBucketTxnsDone_keeps h
  · exact execBucketCopyDone_keeps h
  · exact execSliceRetired_keeps h
  · exact execSliceSourceFail_keeps h
  · exact execSliceTargetFail_keeps h
  · exact execRebuildDone_keeps h
  · exact execStripeValidWrite_keeps h
  · exact execFlitArrival_keeps h
  · exact execMeshLinkFailing_keeps h
  · exact execBridgeLaneRepair_keeps h
  · exact execBridgeRepairDone_keeps h
  · exact execDack_keeps h
  · exact execDackTimer_keeps h
  · exact execDnak_keeps h
  · exact execArbStarvation_keeps h
  · exact execArbCommitGo_keeps h
  · exact execArbCommitDone_keeps h
  · exact execBellowsAdmit_keeps h
  · exact execFlueTrained_keeps h
  · exact execFlueRestore_keeps h
  · exact execCodewordReceive_keeps h
  · exact execControlSlotReceive_keeps h
  · exact execLaneFailing_keeps h
  · exact execLane_keeps h
  · exact execFlueFailure_keeps h
  · exact execFlueControlTimeout_keeps h
  · exact execLinkdown_keeps h
  · exact execRerouteAdopt_keeps h
  · exact execRerouteReplayResent_keeps h
  · exact execRerouteDone_keeps h
  · exact execLinkup_keeps h
  · exact execCrossbarFlitArrival_keeps h
  · exact execResync_keeps h
  · exact execMulticastSnoop_keeps h
  · exact execCombinedAck_keeps h
  · exact execSyncMasterChange_keeps h
  · exact execFlueKeyEpoch_keeps h
  · exact execFlueKeyAgreed_keeps h
  · exact execIdent_keeps h
  · exact execIdentTableComplete_keeps h
  · exact execHeldout_keeps h
  · exact execCfgGo_keeps h
  · exact execCfgdigest_keeps h
  · exact execPartitionKeysAgreed_keeps h
  · exact execPartitionStopped_keeps h
  · exact execMcRead_keeps h
  · exact execMcWrite_keeps h
  · exact execMarkWrite_keeps h
  · exact execSweepLine_keeps h
  · exact execSweepInitDone_keeps h
  · exact execRefresh_keeps h
  · exact execZqCalibration_keeps h
  · exact execDqsOscRead_keeps h
  · exact execSelfRefreshEnter_keeps h
  · exact execSelfRefreshExit_keeps h
  · exact execSpareReq_keeps h
  · exact execSpareStart_keeps h
  · exact execSpareCopyDone_keeps h
  · exact execSpprDone_keeps h
  · exact execSpareCopybackDone_keeps h
  · exact execHpprApply_keeps h
  · exact execRiddleProgramLoad_keeps h
  · exact execRiddleWorkItem_keeps h
  · exact execRiddleLineEval_keeps h
  · exact execRiddleSegmentWrite_keeps h
  · exact execRiddleDrain_keeps h
  · exact execDrained_keeps h
  · exact execSqtailDoorbell_keeps h
  · exact execCqheadWrite_keeps h
  · exact execRingCfgWrite_keeps h
  · exact execCfgEnWrite_keeps h
  · exact execDescFetch_keeps h
  · exact execDescStart_keeps h
  · exact execStkNop_keeps h
  · exact execFilter_keeps h
  · exact execProject_keeps h
  · exact execDecomp_keeps h
  · exact execHashbuild_keeps h
  · exact execHashprobe_keeps h
  · exact execAgg_keeps h
  · exact execSortrun_keeps h
  · exact execMerge_keeps h
  · exact execCrc32c_keeps h
  · exact execSha256_keeps h
  · exact execAesgcm_keeps h
  · exact execSegmentRead_keeps h
  · exact execDescComplete_keeps h
  · exact execFireboxSlice_keeps h
  · exact execCellClockGate_keeps h
  · exact execCellFault_keeps h
  · exact execMboxTx_keeps h
  · exact execMboxAck_keeps h
  · exact execChannelResetRequest_keeps h
  · exact execStkCtlReset_keeps h
  · exact execDrainTimerExpiry_keeps h
  · exact execChannelResetDone_keeps h
  · exact execChannelQuarantine_keeps h
  · exact execDmaRead_keeps h
  · exact execDmaWrite_keeps h
  · exact execMsiMessage_keeps h
  · exact execPrcEventInterrupt_keeps h
  · exact execDeviceCompletion_keeps h
  · exact execIoinvGo_keeps h
  · exact execIoinvDone_keeps h
  · exact execSlotPwron_keeps h
  · exact execSlotPerstRelease_keeps h
  · exact execSlotLinkTrained_keeps h
  · exact execSlotTrainTimeout_keeps h
  · exact execSlotPowerFault_keeps h
  · exact execSlotPwroff_keeps h
  · exact execPresenceChange_keeps h
  · exact execAerFatal_keeps h
  · exact execPortRelease_keeps h
  · exact execLinkL1Exit_keeps h
  · exact execCxlwinValidWrite_keeps h
  · exact execCxlPoisonFillDone_keeps h
  · exact execAshpanWrite_keeps h
  · exact execRdptrWrite_keeps h
  · exact execCeLimitMinute_keeps h
  · exact execNvClr_keeps h
  · exact execHandoffGo_keeps h
  · exact execPipelineError_keeps h
  · exact execHandoffStart_keeps h
  · exact execHandoffRepoch_keeps h
  · exact execSparePowered_keeps h
  · exact execHandoffStateRead_keeps h
  · exact execHandoffStoresRead_keeps h
  · exact execHandoffL2Emptied_keeps h
  · exact execSpareLoaded_keeps h
  · exact execHandoffResume_keeps h
  · exact execHandoffSourceFail_keeps h
  · exact execSpareFail_keeps h
  · exact execGrateFence_keeps h
  · exact execLockstepMismatch_keeps h
  · exact execLockstepRepoch_keeps h
  · exact execLockstepSelftestDone_keeps h
  · exact execLockstepRepaired_keeps h
  · exact execComparatorTest_keeps h
  · exact execComparatorTestDone_keeps h
  · exact execSocketFailure_keeps h
  · exact execStandbyRailsValid_keeps h
  · exact execRstDeassert_keeps h
  · exact execBootVerify_keeps h
  · exact execPowerOnRequest_keeps h
  · exact execPowerOffRequest_keeps h
  · exact execPwrbtn_keeps h
  · exact execPwrokAssert_keeps h
  · exact execPwrokLoss_keeps h
  · exact execRefclkLoss_keeps h
  · exact execMeshPllUnlock_keeps h
  · exact execCorePllUnlock_keeps h
  · exact execJunctionFatal_keeps h
  · exact execVholdLow_keeps h
  · exact execPllenWrite_keeps h
  · exact execPllLocked_keeps h
  · exact execSelWrite_keeps h
  · exact execFreqRelock_keeps h
  · exact execDamperLimit_keeps h
  · exact execThermalTarget_keeps h
  · exact execThermalEmergency_keeps h
  · exact execThermalClear_keeps h
  · exact execPkgBankedEnter_keeps h
  · exact execPkgWake_keeps h
  · exact execPkgCmdStandby_keeps h
  · exact execWakeLand_keeps h
  · exact execUpwrWrite_keeps h
  · exact execColdReset_keeps h
  · exact execWarmReset_keeps h
  · exact execCoreReset_keeps h
  · exact execCoreRunSet_keeps h
  · exact execHoldupTrigger_keeps h
  · exact execSaveCommit_keeps h
  · exact execRestartCondition_keeps h
  · exact execCounterWrap_keeps h
  · exact execUnitCounterWrap_keeps h
  · exact execThrctlWrite_keeps h
  · exact execBwctlWrite_keeps h
  · exact execBwWindowEnd_keeps h
  · exact execSampleFire_keeps h
  · exact execPmuSnapshot_keeps h
  · exact execHaltreqWrite_keeps h
  · exact execCoreHalt_keeps h
  · exact execResumeWrite_keeps h
  · exact execStepWrite_keeps h
  · exact execAccGo_keeps h
  · exact execMemGo_keeps h
  · exact execDbgaccUpdate_keeps h
  · exact execDbgaccCapture_keeps h
  · exact execIdcode_keeps h
  · exact execSamplePreload_keeps h
  · exact execExtest_keeps h
  · exact execClamp_keeps h
  · exact execHighz_keeps h
  · exact execBypass_keeps h
  · exact execInfo_keeps h
  · exact execIdentity_keeps h
  · exact execPowerOn_keeps h
  · exact execPowerOff_keeps h
  · exact execResetCold_keeps h
  · exact execResetWarm_keeps h
  · exact execStandby_keeps h
  · exact execRegRead_keeps h
  · exact execRegWrite_keeps h
  · exact execAshRead_keeps h
  · exact execAshSaved_keeps h
  · exact execAshNvclr_keeps h
  · exact execTelemetry_keeps h
  · exact execThermal_keeps h
  · exact execDebug_keeps h
  · exact execMgcIbi_keeps h
  · exact execRstdaa_keeps h
  · exact execEntdaa_keeps h
  · exact execSetdasa_keeps h
  · exact execGetpid_keeps h
  · exact execGetbcr_keeps h
  · exact execGetdcr_keeps h
  · exact execGetstatus_keeps h
  · exact execEnec_keeps h
  · exact execDisec_keeps h
  · exact execSlotAttention_keeps h
  · exact execAerError_keeps h
  · exact execDamperLimitClear_keeps h
  · exact execUnitPowerDone_keeps h
  · exact execStandbyRailLoss_keeps h
  · exact execBitsReadToHome_keeps h

/-- Settles O7: a tick and every command keep the parts and what is left of the queue; only a tick moves the clock. -/
theorem step_keeps_parts_and_queue : Obligations.step_keeps_parts_and_queue := by
  intro s t h
  cases hp : s.pending with
  | nil =>
    rw [step_of_pending_nil hp] at h
    cases h
    have hk := s.tick_keeps
    exact ⟨hk.parts, hk.pending.trans hp, fun hne => absurd rfl hne, fun _ => State.slotsDue_mem_cores _⟩
  | cons i rest =>
    rw [step_of_pending_cons hp] at h
    have hk := (exec_keeps (Keeps.refl _) i).nextE h
    exact ⟨hk.parts, hk.pending, fun _ => hk.time, nofun⟩

end Sys2Proof.Machine

/-! ## Control-register writes with a row of their own -/

namespace Sys2Proof.Machine

/-! ### Stripe regions (R295) -/

section
variable {s : State} {k r : Nat}

/-- VALID of an unlocked region written 1 is kept as the region's check decides. -/
theorem exec_stripeValidWrite_set (hk : s.live k = true)
    (hl : cellGet false s.locked (regKey Reg.hrthStripeValid { sock := k, i := r }) = false) :
    exec (.stripeValidWrite k r true) s = .next ((s.fieldWrite Reg.hrthStripeValid { sock := k, i := r } 1 1).stripeCheck k r) := by
  change execStripeValidWrite k r true s = _
  simp [execStripeValidWrite, hk, hl]

/-- VALID of an unlocked region written 0 needs no check. -/
theorem exec_stripeValidWrite_clear (hk : s.live k = true)
    (hl : cellGet false s.locked (regKey Reg.hrthStripeValid { sock := k, i := r }) = false) :
    exec (.stripeValidWrite k r false) s = .next (s.fieldWrite Reg.hrthStripeValid { sock := k, i := r } 0 1) := by
  change execStripeValidWrite k r false s = _
  simp [execStripeValidWrite, hk, hl]

/-- A locked VALID ignores its writes. -/
theorem exec_stripeValidWrite_locked (b : Bool)
    (hl : cellGet false s.locked (regKey Reg.hrthStripeValid { sock := k, i := r }) = true) :
    exec (.stripeValidWrite k r b) s = .next s := by
  change execStripeValidWrite k r b s = _
  simp [execStripeValidWrite, hl]

end

/-! ### Commits (R340, R391) -/

section
variable {s : State} {k : Nat}

/-- COMMIT.GO of a running socket (R340). -/
theorem exec_arbCommitGo (hk : s.live k = true) : exec (.arbCommitGo k) s = .next (s.commitGo k) := by
  change execArbCommitGo k s = _
  simp [execArbCommitGo, hk]

/-- A commit in progress queues the next. -/
theorem State.commitGo_of_pending (h : s.rd Reg.arbCommitPending { sock := k } = 1) :
    s.commitGo k = s.wr Reg.arbCommitQueued { sock := k } 1 := if_pos h

/-- With none in progress the commit starts. -/
theorem State.commitGo_of_idle (h : s.rd Reg.arbCommitPending { sock := k } = 0) : s.commitGo k = s.commitSend k :=
  if_neg (by simp [h])

/-- A commit sent is in progress. -/
theorem State.commitSend_pending (s : State) (k : Nat) : (s.commitSend k).rd Reg.arbCommitPending { sock := k } = 1 :=
  s.rd_wr_same Reg.arbCommitPending { sock := k } 1

/-- A commit sent has every block of the part still to reach. -/
theorem State.commitSend_left (s : State) (k : Nat) : cellGet [] (s.commitSend k).commitLeft k = commitBlocks (s.part k) := by
  simp [State.commitSend]

/-- CFG.GO of a running socket (R391). -/
theorem exec_cfgGo (hk : s.live k = true) : exec (.cfgGo k) s = .next (s.cfgGo k) := by
  change execCfgGo k s = _
  simp [execCfgGo, hk]

/-- With no reroute in progress the configuration is committed at once. -/
theorem State.cfgGo_of_quiet (h : s.rd Reg.chimRrActive { sock := k } = 0) : s.cfgGo k = s.cfgCommit k :=
  if_neg (by simp [h])

end

/-! ### Flues (R380) -/

section
variable {s : State} {k n : Nat}

/-- CTL.RESTORE of a flue of a running socket. -/
theorem exec_flueRestore (hk : s.live k = true) : exec (.flueRestore k n) s = .next (s.flueRestore k n) := by
  change execFlueRestore k n s = _
  simp [execFlueRestore, hk]

/-- A failed or refused flue retrains at both ends. -/
theorem State.flueRestore_of_failed (h : s.link k n = 3 ∨ s.link k n = 4) :
    s.flueRestore k n = (s.retrain k n).retrain (s.peer k n).1 (s.peer k n).2 := by
  simp [State.flueRestore, h]

/-- A flue that is off, training or up is left as it is. -/
theorem State.flueRestore_of_working (h : s.link k n < 3) : s.flueRestore k n = s := by
  have hne : ¬(s.link k n = 3 ∨ s.link k n = 4) := by omega
  simp [State.flueRestore, hne]

end

/-! ### A debugger's access and stores to control space (R592, R15, R19) -/

section
variable {s : State} {k off size val : Nat} {rq : Rq}

/-- MEM.GO by a requester that may reach the DBG block (Table DBUG-1). -/
theorem exec_memGo_of_may (h : s.dbgDenied rq k 0x30 = 0) : exec (.memGo rq k) s = .next (s.memGo rq k) := by
  change execMemGo rq k s = _
  simp [execMemGo, h]

/-- A naturally aligned store of 4 or 8 bytes, by a requester that reaches the offset, takes effect. -/
theorem exec_controlRegWrite_of_may (hs : size = 4 ∨ size = 8) (ha : off % size = 0) (hc : ctlCfg (s.part k) off = none)
    (hr : ctlReaches (s.part k) rq off = true) (hu : s.up k = true) :
    exec (.controlRegWrite rq k off size val) s = .next (s.ctlStore rq k off size val) := by
  change execControlRegWrite rq k off size val s = _
  simp [execControlRegWrite, hs, ha, hc, hr, hu]

/-- A store that is not naturally aligned changes nothing. -/
theorem exec_controlRegWrite_of_unaligned (ha : off % size ≠ 0) : exec (.controlRegWrite rq k off size val) s = .next s := by
  change execControlRegWrite rq k off size val s = _
  simp [execControlRegWrite, ha]

end

/-- Settles O34: each row's register decides, by the lemma about it above. -/
theorem block_control_results : Obligations.block_control_results := by
  intro k r n off size val rq s hk
  refine ⟨fun hl => ⟨exec_stripeValidWrite_set hk hl, exec_stripeValidWrite_clear hk hl⟩,
    fun hl b => exec_stripeValidWrite_locked b hl, ?queued, ?starts, ?waits, ?commits, ?restores, ?stays, exec_memGo_of_may,
    exec_controlRegWrite_of_may, exec_controlRegWrite_of_unaligned⟩
  case queued => exact fun h => by rw [exec_arbCommitGo hk, State.commitGo_of_pending h]
  case starts =>
    intro h
    rw [exec_arbCommitGo hk, State.commitGo_of_idle h]
    exact ⟨_, rfl, s.commitSend_pending k, s.commitSend_left k⟩
  case waits => exact fun h => by rw [exec_cfgGo hk, State.cfgGo, if_pos h]
  case commits => exact fun h => by rw [exec_cfgGo hk, State.cfgGo_of_quiet h]
  case restores => exact fun h => by rw [exec_flueRestore hk, State.flueRestore_of_failed h]
  case stays => exact fun h => by rw [exec_flueRestore hk, State.flueRestore_of_working h]

end Sys2Proof.Machine

/-! ## Requests to a line's home -/

namespace Sys2Proof.Machine

/-! ### A request that leaves its socket (R302, R304) -/

/-- Whether a copy in the requester's own L2 already gives what a request of kind `k` asks for (Table HRTH-4). -/
def ReqK.metBy : ReqK → Option L2St → Bool
  | .rds, some _ | .rd, some _ => true
  | .rdo, some .M | .rdo, some .E | .upg, some .M | .upg, some .E | .own, some .M | .own, some .E => true
  | _, _ => false

/-- Without a copy no request is met. -/
@[simp] theorem ReqK.metBy_none (k : ReqK) : k.metBy none = false := by cases k <;> rfl

/-- A request of kind `k` about line `ln` on its way to home `h`, aged by the clock of its own socket (R302). -/
def State.sendNew (s : State) (k : ReqK) (f ln h : Nat) : State :=
  let u := s.touch (reqSock f) ln
  u.sendReq h { k := k, ln := ln, frm := f, age := u.now (reqSock f) }

/-- Deciphering a line for an access changes no core. -/
@[simp] theorem State.touch_cores (s : State) (k ln : Nat) : (s.touch k ln).cores = s.cores := by
  unfold State.touch
  split
  · dsimp only
    split <;> rfl
  · rfl

@[simp] theorem State.touch_core (s : State) (k ln c : Nat) : (s.touch k ln).core c = s.core c := by
  simp [State.core]

section
variable {s : State} {k : ReqK} {f pa h o : Nat}

/-- What the requester's own copy does not give is asked of the home. -/
theorem State.request_of_unmet (hh : (s.touch (reqSock f) (lineOf pa)).homeFor f (lineOf pa) = .dram h o)
    (hk : k.metBy ((s.core f).l2st (lineOf pa)) = false) : s.request k f pa = s.sendNew k f (lineOf pa) h := by
  have hcore := s.touch_core (reqSock f) (lineOf pa) f
  change (match (s.touch (reqSock f) (lineOf pa)).homeFor f (lineOf pa) with
    | .dram h _ | .cxl h _ =>
      if cacheAgent f && k.metBy (((s.touch (reqSock f) (lineOf pa)).core f).l2st (lineOf pa)) then _ else s.sendNew k f (lineOf pa) h
    | _ => _) = _
  simp [hh, hk]

end

/-! ### Reads at the caching slice (R25, Table HRTH-4) -/

/-- Whether a read of kind `k` may be answered with the line exclusive. -/
def ReqK.mayE : ReqK → Bool
  | .rd => true
  | _ => false

/-- The state in which the caching slice of core `c` has answered its read of line `ln` of home `h`, if it can; `e` when the read may take E. -/
def State.sliceAnswer (s : State) (c ln h : Nat) (e : Bool) : Option State :=
  ((s.touch (coreSock c) ln).room c ln).sliceRead c ln h e

section
variable {s u : State} {k : ReqK} {c pa h o : Nat}

/-- A read of a line the core lacks is the caching slice's to answer, unless the line is held, busy or bad. -/
theorem State.readReq_of_miss (hn : (s.core c).l2st (lineOf pa) = none) (hh : s.homeFor c (lineOf pa) = .dram h o) :
    s.readReq k c pa = if s.heldByOther c (lineOf pa) || (s.txn (lineOf pa)).isSome || s.badLine pa then s.request k c pa
      else (s.sliceAnswer c (lineOf pa) h k.mayE).getD (s.request k c pa) := by
  unfold State.readReq
  simp only [hn, hh]
  change (if _ then _ else match s.sliceAnswer c (lineOf pa) h k.mayE with | some s' => s' | none => s.request k c pa) = _
  cases s.sliceAnswer c (lineOf pa) h k.mayE <;> rfl

/-- A read the caching slice cannot answer goes to the home. -/
theorem State.readReq_of_unanswered (hn : (s.core c).l2st (lineOf pa) = none) (hh : s.homeFor c (lineOf pa) = .dram h o)
    (hu : (s.touch (reqSock c) (lineOf pa)).homeFor c (lineOf pa) = .dram h o)
    (ha : s.sliceAnswer c (lineOf pa) h k.mayE = none) : s.readReq k c pa = s.sendNew k c (lineOf pa) h := by
  have hreq : s.request k c pa = s.sendNew k c (lineOf pa) h := State.request_of_unmet hu (by simp [hn])
  simp [State.readReq_of_miss hn hh, ha, hreq]

/-- A read the caching slice can answer stays in the socket. -/
theorem State.readReq_of_answered (hn : (s.core c).l2st (lineOf pa) = none) (hh : s.homeFor c (lineOf pa) = .dram h o)
    (hheld : s.heldByOther c (lineOf pa) = false) (htxn : s.txn (lineOf pa) = none) (hbad : s.badLine pa = false)
    (ha : s.sliceAnswer c (lineOf pa) h k.mayE = some u) : s.readReq k c pa = u := by
  simp [State.readReq_of_miss hn hh, hheld, htxn, hbad, ha]

end

/-! ### Ownership at the caching slice (Table HRTH-4) -/

/-- An entry that `f` leaves alone, `f` moving no key, is found as before. -/
theorem cellFind_map_of_fixed {α : Type} {f : Nat × α → Nat × α} {k : Nat} (hkey : ∀ e, (f e).1 = e.1)
    (hfix : ∀ e, e.1 = k → f e = e) (m : Cells α) : cellFind (m.map f) k = cellFind m k := by
  induction m with
  | nil => rfl
  | cons e t ih =>
    obtain ⟨j, v⟩ := e
    by_cases hj : j = k
    · rw [List.map_cons, hfix (j, v) hj]
      simp [cellFind, hj]
    · have hne : (f (j, v)).1 ≠ k := by rwa [hkey]
      rw [List.map_cons, ← Prod.mk.eta (p := f (j, v))]
      simp only [cellFind, hne, hj, if_false, ih]

/-- The copies of a line in the other cores of core `c`'s socket dropped. -/
def State.dropPeers (s : State) (c ln : Nat) : State :=
  { s with cores := s.cores.map (fun (e : Nat × Core) =>
    if e.1 ≠ c && coreSock e.1 = coreSock c then (e.1, Core.snoopDrop ln e.2) else e) }

/-- The core itself keeps what it has. -/
@[simp] theorem State.dropPeers_core_self (s : State) (c ln : Nat) : (s.dropPeers c ln).core c = s.core c := by
  have hfind : cellFind (s.dropPeers c ln).cores c = cellFind s.cores c :=
    cellFind_map_of_fixed (fun e => by split <;> rfl) (fun e he => by simp [he]) s.cores
  simp [State.core, cellGet, hfind]

/-- Whether core `c`'s socket has the line, in its slice or in a core. -/
def State.sockCopy (s : State) (c ln : Nat) : Bool :=
  s.inSlice (coreSock c) ln || s.otherHas (2 ^ 21) ln (fun d _ => decide (coreSock d = coreSock c))

section
variable {s : State} {k : ReqK} {c pa h o : Nat} {e : SfE}

/-- At home ownership is asked of the home slice. -/
theorem State.ownReq_of_local (hh : s.homeFor c (lineOf pa) = .dram h o) (hq : h = coreSock c) :
    s.ownReq k c pa = s.request k c pa := by
  simp [State.ownReq, hh, hq]

/-- For a line of another home that no snoop-filter entry names, the request goes on once the socket's own copies are dropped. -/
theorem State.ownReq_of_unlisted (hh : s.homeFor c (lineOf pa) = .dram h o) (hq : h ≠ coreSock c)
    (hheld : s.heldByOther c (lineOf pa) = false) (htxn : s.txn (lineOf pa) = none)
    (hsf : cellGet none s.sf (sfKey (lineOf pa) (coreSock c)) = none) :
    s.ownReq k c pa = (s.dropPeers c (lineOf pa)).request k c pa := by
  cases k <;> simp [State.ownReq, hh, hq, hheld, htxn, hsf, State.dropPeers]

/-- A socket with a copy and permission E gives its core the line without a message. -/
theorem State.ownReq_of_exclusive (hh : s.homeFor c (lineOf pa) = .dram h o) (hq : h ≠ coreSock c)
    (hheld : s.heldByOther c (lineOf pa) = false) (htxn : s.txn (lineOf pa) = none)
    (hsf : cellGet none s.sf (sfKey (lineOf pa) (coreSock c)) = some e) (he : e.excl = true) (hcopy : s.sockCopy c (lineOf pa) = true) :
    s.ownReq k c pa = ((((s.dropPeers c (lineOf pa)).room c (lineOf pa)).sliceDrop (coreSock c) (lineOf pa)).sfAdd c (lineOf pa) true).toM
      c (lineOf pa) := by
  have hperm : (cellGet none s.sf (sfKey (lineOf pa) (coreSock c))).map (·.excl) = some true := by simp [hsf, he]
  simp only [State.ownReq, hh]
  rw [if_neg (by simp [hq, hheld, htxn])]
  exact if_pos (Bool.and_eq_true_iff.2 ⟨decide_eq_true hperm, hcopy⟩)

/-- A core without the line locks it through its caching slice. -/
theorem exec_lockx_of_miss (hn : (s.core c).l2st (lineOf pa) = none) : exec (.lockx c pa) s = .next (s.ownReq .lockx c pa) := by
  change execLockx c pa s = _
  simp [execLockx, hn]

/-- A core that owns the line holds it at once. -/
theorem exec_lockx_of_owner (ho : (s.core c).l2st (lineOf pa) = some .M ∨ (s.core c).l2st (lineOf pa) = some .E)
    (hheld : s.heldByOther c (lineOf pa) = false) (htxn : s.txn (lineOf pa) = none) : exec (.lockx c pa) s =
      .next { s with held := cellSet none s.held (lineOf pa) (some { holder := c, waiter := none }) } := by
  change execLockx c pa s = _
  obtain ho | ho := ho <;> simp [execLockx, ho, hheld, htxn]

end

/-! ### Atomics and maintenance (R311, R312) -/

section
variable {s : State} {f pa op kind : Nat} {wide posted : Bool} {x : Word}

/-- A Hearth atomic of a known operation at its natural boundary is requested. -/
theorem exec_hat_of_aligned (ha : pa % (if wide then 8 else 4) = 0) (hop : op ≤ 8) : exec (.hat f pa op wide posted x) s =
    .next (s.request (.hat op (pa % 64) (if wide then 8 else 4) x 0 posted) f pa) := by
  change execHat f pa op wide posted x s = _
  simp [execHat, ha, hop]

/-- Maintenance of a known kind is requested. -/
theorem exec_cmo_of_kind (h1 : 1 ≤ kind) (h3 : kind ≤ 3) : exec (.cmo f pa kind) s = .next (s.request (.cmo kind) f pa) := by
  change execCmo f pa kind s = _
  have h0 : kind ≠ 0 := by omega
  simp [execCmo, h0, h3]

/-- An atomic of no operation or off its boundary asks for nothing. -/
theorem exec_hat_of_malformed (h : pa % (if wide then 8 else 4) ≠ 0 ∨ 8 < op) : exec (.hat f pa op wide posted x) s = .next s := by
  change execHat f pa op wide posted x s = _
  simp [execHat, h]

/-- Maintenance of no kind asks for nothing. -/
theorem exec_cmo_of_unknown (h : kind = 0 ∨ 3 < kind) : exec (.cmo f pa kind) s = .next s := by
  change execCmo f pa kind s = _
  simp [execCmo, h]

end

/-! ### Admission at the home (R303, R310, R315, R319) -/

/-- An Assured request outside its bound is only counted. -/
@[simp] theorem State.exempt_net (s : State) (k : Nat) (f : Fld) : (s.exempt k f).net = s.net := by
  unfold State.exempt
  split <;> simp

section
variable {s : State} {h : Nat} {r : Req}

/-- A request for a bucket that moves waits, and nothing is answered. -/
theorem State.atHome_of_moving (hm : s.rd Reg.hrthBucketMig { sock := h, i := s.bucket h (r.ln * 64) } = 1) :
    (s.atHome h r).hq = s.hq ++ [r] ∧ (s.atHome h r).net = s.net := by
  simp [State.atHome, hm]

/-- A request that must be retried is answered RETRY. -/
theorem State.atHome_of_mustRetry (hm : s.rd Reg.hrthBucketMig { sock := h, i := s.bucket h (r.ln * 64) } ≠ 1)
    (hr : s.mustRetry h r = true) : s.atHome h r = s.sayRetry h r := by
  simp [State.atHome, hm, hr]

/-- A request for a busy line, or without a free transaction entry, waits. -/
theorem State.atHome_of_busy (hm : s.rd Reg.hrthBucketMig { sock := h, i := s.bucket h (r.ln * 64) } ≠ 1)
    (hr : s.mustRetry h r = false) (hb : (s.txn r.ln).isSome = true ∨ s.slotsFull h r.ln = true) :
    s.atHome h r = { s with hq := s.hq ++ [r] } := by
  simp [State.atHome, hm, hr, hb]

/-- Any other request is served. -/
theorem State.atHome_of_free (hm : s.rd Reg.hrthBucketMig { sock := h, i := s.bucket h (r.ln * 64) } ≠ 1)
    (hr : s.mustRetry h r = false) (ht : s.txn r.ln = none) (hf : s.slotsFull h r.ln = false) : s.atHome h r = s.serve h r := by
  simp [State.atHome, hm, hr, ht, hf]

end

/-! ### Bellows gates (R341, R342) -/

section
variable {s : State} {k g h o : Nat} {r : Req} {t : List Req}

/-- A gate with a token sends its oldest request to the home. -/
theorem exec_bellowsAdmit_of_token (hq : cellGet [] s.gateQ (k * 512 + g) = r :: t) (ht : 0 < s.gateTokens k g)
    (hh : ({ s.gateTake k g with gateQ := cellSet [] s.gateQ (k * 512 + g) t } : State).homeFor r.frm r.ln = .dram h o) :
    exec (.bellowsAdmit k g) s = .next (State.atHome { s.gateTake k g with gateQ := cellSet [] s.gateQ (k * 512 + g) t } h r) := by
  change execBellowsAdmit k g s = _
  simp [execBellowsAdmit, hq, ht.ne', hh]

/-- A gate without a token admits nothing. -/
theorem exec_bellowsAdmit_of_empty (ht : s.gateTokens k g = 0) : exec (.bellowsAdmit k g) s = .next s := by
  change execBellowsAdmit k g s = _
  unfold execBellowsAdmit
  cases cellGet [] s.gateQ (k * 512 + g) <;> simp [ht]

end

/-- Settles O39: who answers a request at its caching slice and at its home, by the lemmas about each above. -/
theorem hearth_request_results : Obligations.hearth_request_results := by
  refine ⟨fun c f pa h s => ⟨?reads, ?ownedHere, ?ownedElsewhere, ?anyRequester, exec_lockx_of_owner, ?malformed⟩,
    fun k g h r t s => ⟨State.atHome_of_free, State.atHome_of_busy, State.atHome_of_mustRetry, State.atHome_of_moving,
      fun hq ht _ hh => exec_bellowsAdmit_of_token hq ht hh, exec_bellowsAdmit_of_empty⟩⟩
  case reads =>
    intro o hh hn _
    exact ⟨fun hu => ⟨fun ha => congrArg _ (State.readReq_of_unanswered (k := .rds) hn hh hu ha),
        fun ha => congrArg _ (State.readReq_of_unanswered (k := .rd) hn hh hu ha)⟩,
      fun hheld htxn hbad => ⟨fun u ha => congrArg _ (State.readReq_of_answered (k := .rds) hn hh hheld htxn hbad ha),
        fun u ha => congrArg _ (State.readReq_of_answered (k := .rd) hn hh hheld htxn hbad ha)⟩⟩
  case ownedHere =>
    intro o ⟨hh, hu⟩ hq _
    have goes (k : ReqK) (hk : k.metBy ((s.core c).l2st (lineOf pa)) = false) : s.ownReq k c pa = s.sendNew k c (lineOf pa) h :=
      (State.ownReq_of_local hh hq).trans (State.request_of_unmet hu hk)
    refine ⟨fun hn => ⟨congrArg _ (goes .rdo (by simp [hn])), congrArg _ (goes .own (by simp [hn])), ?_⟩,
      fun hS => congrArg _ (goes .upg (by rw [hS]; rfl))⟩
    exact (exec_lockx_of_miss hn).trans (congrArg _ (goes .lockx (by simp [hn])))
  case ownedElsewhere =>
    intro o hq _ hn hh hheld htxn
    refine ⟨fun hsf hu => ?unlisted, fun e hsf he hcopy i hi => ?exclusive⟩
    case unlisted =>
      have goes (k : ReqK) : s.ownReq k c pa = (s.dropPeers c (lineOf pa)).sendNew k c (lineOf pa) h :=
        (State.ownReq_of_unlisted hh hq hheld htxn hsf).trans (State.request_of_unmet hu (by simp [hn]))
      exact ⟨congrArg _ (goes .rdo), congrArg _ (goes .own)⟩
    case exclusive =>
      have gets (k : ReqK) := State.ownReq_of_exclusive (k := k) hh hq hheld htxn hsf he hcopy
      obtain rfl | rfl : i = .rdo c pa 0 0 ∨ i = .own c pa := by simpa using hi
      · exact congrArg _ (gets .rdo)
      · exact congrArg _ (gets .own)
  case anyRequester =>
    intro o hu
    have goes (k : ReqK) (hk : k.metBy ((s.core f).l2st (lineOf pa)) = false) : s.request k f pa = s.sendNew k f (lineOf pa) h :=
      State.request_of_unmet hu hk
    exact ⟨fun b => congrArg _ (goes (.wru b) rfl), congrArg _ (goes .rdu rfl),
      fun op posted x hop => ⟨fun ha => (exec_hat_of_aligned ha hop).trans (congrArg _ (goes _ rfl)),
        fun ha => (exec_hat_of_aligned ha hop).trans (congrArg _ (goes _ rfl))⟩,
      fun kind h1 h3 => (exec_cmo_of_kind h1 h3).trans (congrArg _ (goes _ rfl))⟩
  case malformed =>
    intro i hi
    obtain rfl | rfl | rfl | rfl : i = .hat f pa 9 true true 0 ∨ i = .hat f 4 0 true true 0 ∨ i = .cmo f pa 0 ∨ i = .cmo f pa 4 := by
      simpa using hi
    · exact exec_hat_of_malformed (.inr (by decide))
    · exact exec_hat_of_malformed (.inl (by decide))
    · exact exec_cmo_of_unknown (.inl rfl)
    · exact exec_cmo_of_unknown (.inr (by decide))

end Sys2Proof.Machine

/-! ## Memory's canonical form and the register files -/

namespace Sys2Proof.Machine

/-- Settles O8: a tick and every command keep memory's canonical form. -/
theorem step_keeps_memory_canonical : Obligations.step_keeps_memory_canonical := by
  intro s t hs h
  cases hp : s.pending with
  | nil =>
    rw [step_of_pending_nil hp] at h
    cases h
    exact s.tick_keeps.mem hs
  | cons i rest =>
    rw [step_of_pending_cons hp] at h
    exact ((exec_keeps (Keeps.refl _) i).nextE h).mem hs

/-- Settles O3, by the read-after-write laws of the three register files. -/
theorem register_files : Obligations.register_files := by
  intro k a r x y m n
  refine ⟨k.gr_zero, k.setG_zero x, k.gr_setG_same x, k.gr_setG_other x, k.vr_setV_same a y, k.vr_setV_other y, k.mr_setM_same m x,
    k.mr_setM_other x, ?_⟩
  simp [Core.setV, Core.setM]

end Sys2Proof.Machine

/-! ## Integer instructions -/

namespace Sys2Proof.Machine

/-! ### Instructions that write a register -/

section
variable {s s0 t : State} {c len : Nat} {i : Instr} {body : State → Res Word}

/-- A command whose meaning runs a body that answers a state retires in that state. -/
theorem State.Fetched.next_retires {n : Word} (h : s.Fetched c len s0) (hi : exec i s = .next (s.instr c len body))
    (hb : body s0 = .ok n t) : exec i s = .next ((t.retireInstr c n).getD s) :=
  hi.trans (congrArg _ (h.retires hb))

/-- A command whose meaning runs a body that raises an event takes it. -/
theorem State.Fetched.next_takes {e : Ev} (h : s.Fetched c len s0) (hi : exec i s = .next (s.instr c len body))
    (hb : body s0 = .ev e t) (he : e.cause ≠ haltCause) : exec i s = .next ((t.takes c e).getD s) :=
  hi.trans (congrArg _ (h.raises hb he))

/-- A command whose meaning writes one general register writes it and retires. -/
theorem State.Fetched.next_wroteG {a : Reg5} {v : Word} (h : s.Fetched c len s0) (hi : exec i s = .next (s.instr c len body))
    (hb : body s0 = wrG s0 c len a v) : exec i s = .next ((s0.wroteG c len a v).getD s) :=
  h.next_retires hi hb

end

/-! ### INT (R53, R54) -/

section
variable {s s0 : State} {c : Nat} {f3 : BitVec 3} {f6 : BitVec 6} {a b d : Reg5} {v : Word}

/-- INT_OP writes the operation's result. -/
theorem exec_intOp (h : s.Fetched c 4 s0) (hv : intOp f3.toNat f6.toNat d (s0.g c b) (s0.g c d) = some v) :
    exec (.intOp c f3 f6 a b d) s = .next ((s0.wroteG c 4 a v).getD s) :=
  h.next_wroteG rfl (by simp only [hv])

end

/-- A comparison's result, by what is compared. -/
theorem bit_decide (p : Prop) [Decidable p] : bit (decide p) = if p then 1 else 0 := by
  by_cases h : p <;> simp [bit, h]

/-- Settles O9: each operation is a row of `intOp`. -/
theorem int_op_results : Obligations.int_op_results := by
  intro c a b d s s0 h
  and_intros <;>
    exact exec_intOp h (by simp [intOp, intUnary, intOp64, intOp32, bit_decide, BitVec.slt, BitVec.ult])

end Sys2Proof.Machine

/-! ## Division, immediates, short and long forms, decimals -/

namespace Sys2Proof.Machine

/-! ### Division (R54) -/

section
variable {s s0 : State} {c : Nat} {f6 : BitVec 6} {a b d : Reg5}

/-- A divisor of zero raises DIVIDE_BY_ZERO. -/
theorem exec_div_of_zero (h : s.Fetched c 4 s0) (hf : ¬(f6.toNat < 0x1C ∨ 0x1F < f6.toNat)) (hy : s0.g c d = 0) :
    exec (.div c 0 f6 a b d) s = .next ((s0.takes c { cause := 0x0005, rpc := s0.pc c, epc := s0.pc c }).getD s) :=
  h.next_takes rfl (by simp [hy, hf]; rfl) (by simp [haltCause])

/-- So does, in a word form, one whose low word is zero. -/
theorem exec_divw_of_zero (h : s.Fetched c 4 s0) (hf : ¬(f6.toNat < 0x1C ∨ 0x1F < f6.toNat))
    (hy : (s0.g c d).truncate 32 = (0 : BitVec 32)) :
    exec (.div c 1 f6 a b d) s = .next ((s0.takes c { cause := 0x0005, rpc := s0.pc c, epc := s0.pc c }).getD s) :=
  h.next_takes rfl (by simp only [hy]; simp [hf]; rfl) (by simp [haltCause])

/-- Any other division completes. -/
theorem exec_div_of_ne_zero (h : s.Fetched c 4 s0) (hf : ¬(f6.toNat < 0x1C ∨ 0x1F < f6.toNat)) (hy : ¬s0.g c d = 0) :
    exec (.div c 0 f6 a b d) s = .next ((s0.wroteG c 4 a
      (divide (f6.toNat = 0x1C || f6.toNat = 0x1E) (0x1E ≤ f6.toNat) (s0.g c b) (s0.g c d))).getD s) :=
  h.next_wroteG rfl (by simp only [if_neg hy]; simp [hf])

/-- So does any other division of low words. -/
theorem exec_divw_of_ne_zero (h : s.Fetched c 4 s0) (hf : ¬(f6.toNat < 0x1C ∨ 0x1F < f6.toNat))
    (hy : ¬(s0.g c d).truncate 32 = (0 : BitVec 32)) :
    exec (.div c 1 f6 a b d) s = .next ((s0.wroteG c 4 a ((divide (f6.toNat = 0x1C || f6.toNat = 0x1E) (0x1E ≤ f6.toNat)
      ((s0.g c b).truncate 32 : BitVec 32) ((s0.g c d).truncate 32)).signExtend 64)).getD s) :=
  h.next_wroteG rfl (by simp only [if_neg hy]; simp [hf])

end

/-- Settles O10: a zero divisor, the most negative value by -1, and every other division. -/
theorem division : Obligations.division := by
  intro c a b d s s0 h x y p q does doesW zero
  have legal : ∀ f6 ∈ ([0x1C, 0x1D, 0x1E, 0x1F] : List (BitVec 6)), ¬(f6.toNat < 0x1C ∨ 0x1F < f6.toNat) := by decide
  refine ⟨fun hy f6 hf => exec_div_of_zero h (legal f6 hf) hy, fun hq f6 hf => exec_divw_of_zero h (legal f6 hf) hq,
    fun hx hy => ?overflow, fun hp hq => ?overflowW, fun hy => ?divides, fun hq => ?dividesW⟩
  case overflow =>
    have hb : s0.g c b = BitVec.intMin 64 := hx
    have hd : s0.g c d = -1 := hy
    have hne : ¬s0.g c d = 0 := by rw [hd]; decide
    have hdiv {f6 : BitVec 6} (hf) := exec_div_of_ne_zero (a := a) (b := b) (f6 := f6) h hf hne
    simp only [hb, hd] at hdiv
    exact ⟨hdiv (f6 := 0x1C) (by decide), hdiv (f6 := 0x1E) (by decide)⟩
  case overflowW =>
    have hb : (s0.g c b).truncate 32 = BitVec.intMin 32 := hp
    have hd : (s0.g c d).truncate 32 = (-1 : BitVec 32) := hq
    have hne : ¬(s0.g c d).truncate 32 = (0 : BitVec 32) := by rw [hd]; decide
    have hdiv {f6 : BitVec 6} (hf) := exec_divw_of_ne_zero (a := a) (b := b) (f6 := f6) h hf hne
    simp only [hb, hd] at hdiv
    exact ⟨hdiv (f6 := 0x1C) (by decide), hdiv (f6 := 0x1E) (by decide)⟩
  case divides =>
    and_intros <;> exact exec_div_of_ne_zero h (legal _ (by simp)) hy
  case dividesW =>
    and_intros <;> exact exec_divw_of_ne_zero h (legal _ (by simp)) hq

/-! ### Immediates and fields (R56, R57) -/

/-- A shift amount keeps its value when it is zero-extended. -/
theorem zx_toNat (n : BitVec 6) : (zx n).toNat = n.toNat := by
  simp [zx]; omega

/-- A shift amount below 32 has bit 5 zero. -/
theorem getLsbD_five_of_lt {n : BitVec 6} (h : n.toNat < 32) : n.getLsbD 5 = false := Nat.testBit_lt_two_pow h

/-- The upper immediate is the 19 bits above 13 zeros, sign-extended from 32 (R56). -/
theorem upper_eq (imm : BitVec 19) : upper imm = ((imm ++ (0 : BitVec 13)) : BitVec 32).signExtend 64 := by
  unfold upper sxw zx
  congr 1
  refine BitVec.eq_of_getLsbD_eq fun i hi => ?_
  rw [BitVec.getLsbD_append]
  by_cases h13 : i < 13
  · simp [h13]
  · simp [h13, hi]

/-- The field of `len` bits at `pos`. -/
theorem natBits_field (x pos : Nat) {len : Nat} (h : 0 < len) : natBits x (pos + len - 1) pos = x / 2 ^ pos % 2 ^ len := by
  unfold natBits
  rw [Nat.shiftRight_eq_div_pow, show pos + len - 1 + 1 - pos = len by omega]

/-- The field of `len` bits at `pos` replaced. -/
theorem natSetBits_field (x pos v : Nat) {len : Nat} (h : 0 < len) :
    natSetBits x pos len v = x - x / 2 ^ pos % 2 ^ len * 2 ^ pos + v % 2 ^ len * 2 ^ pos := by
  unfold natSetBits
  rw [natBits_field x pos h]

/-- An upper half put above the low half of a doubleword. -/
theorem upper_half_or (imm : BitVec 32) (x : Word) :
    (zx imm <<< 32) ||| (x &&& 0xFFFFFFFF) = imm ++ (x.truncate 32 : BitVec 32) := by
  have hmask : ∀ i < 64, (0xFFFFFFFF : Word).getLsbD i = decide (i < 32) := by decide
  refine BitVec.eq_of_getLsbD_eq fun i hi => ?_
  rw [BitVec.getLsbD_or, BitVec.getLsbD_and, hmask i hi, BitVec.getLsbD_append]
  by_cases h : i < 32
  · simp [h]
  · simp [h, zx, hi]

section
variable {s s0 : State} {c : Nat} {a b d e : Reg5}

/-- CRC checks the bytes that its F6 names. -/
theorem exec_crc {f6 : BitVec 6} {k : Nat} (h : s.Fetched c 4 s0) (hf : f6.toNat = 0x28 + k) (hk : k < 4) :
    exec (.crc c 0 f6 a b d) s =
      .next ((s0.wroteG c 4 a (BitVec.ofNat 64 (crc32c ((s0.g c b).toNat % 2 ^ 32) (s0.g c d).toNat (2 ^ k)))).getD s) := by
  have hlegal : ¬0x2B < 0x28 + k := by omega
  exact h.next_wroteG rfl (by simp [hf, hlegal])

/-- The operation of table ISA-8 that a sub-operation of SHIFT_IMM is. -/
def shiftF6 (sub : BitVec 5) : Nat := match sub.toNat with | 0 => 0x08 | 1 => 0x09 | 2 => 0x0A | 3 => 0x0C | _ => 0x3F

/-- SHIFT_IMM writes the shift that its sub-operation names. -/
theorem exec_shiftImm {f3 : BitVec 3} {sub : BitVec 5} {n : BitVec 6} {v : Word} (h : s.Fetched c 4 s0)
    (hn : f3 = 1 → n.toNat < 32) (hv : intOp f3.toNat (shiftF6 sub) 0 (s0.g c b) (zx n) = some v) :
    exec (.shiftImm c f3 sub a b n) s = .next ((s0.wroteG c 4 a v).getD s) := by
  have hbit : (f3 = 1 && n.getLsbD 5) = false := by
    rw [Bool.and_eq_false_imp, decide_eq_true_eq]
    exact fun hf => getLsbD_five_of_lt (hn hf)
  refine h.next_wroteG rfl ?_
  simp only [hbit]
  change (match intOp f3.toNat (shiftF6 sub) 0 (s0.g c b) (zx n) with | some v => wrG s0 c 4 a v | none => illegal s0 c) = _
  rw [hv]

/-- EXTU of a field that lies in the register. -/
theorem exec_extu {pos lenM1 : BitVec 6} (h : s.Fetched c 4 s0) (hf : pos.toNat + (lenM1.toNat + 1) ≤ 64) :
    exec (.extu c a b pos lenM1) s =
      .next ((s0.wroteG c 4 a (BitVec.ofNat 64 ((s0.g c b).toNat / 2 ^ pos.toNat % 2 ^ (lenM1.toNat + 1)))).getD s) :=
  h.next_wroteG rfl (by simp only [if_neg (Nat.not_lt.2 hf), natBits_field _ _ (Nat.succ_pos _)])

/-- EXTS of a field that lies in the register. -/
theorem exec_exts {pos lenM1 : BitVec 6} (h : s.Fetched c 4 s0) (hf : pos.toNat + (lenM1.toNat + 1) ≤ 64) :
    exec (.exts c a b pos lenM1) s =
      .next ((s0.wroteG c 4 a ((BitVec.ofNat (lenM1.toNat + 1) ((s0.g c b).toNat / 2 ^ pos.toNat)).signExtend 64)).getD s) := by
  have hcut (x : Nat) : BitVec.ofNat (lenM1.toNat + 1) (x % 2 ^ (lenM1.toNat + 1)) = BitVec.ofNat (lenM1.toNat + 1) x :=
    BitVec.eq_of_toNat_eq (by simp)
  exact h.next_wroteG rfl (by simp only [if_neg (Nat.not_lt.2 hf), natBits_field _ _ (Nat.succ_pos _), hcut])

/-- INS into a field that lies in the register. -/
theorem exec_ins {pos lenM1 : BitVec 6} (h : s.Fetched c 4 s0) (hf : pos.toNat + (lenM1.toNat + 1) ≤ 64) :
    exec (.ins c a b pos lenM1) s = .next ((s0.wroteG c 4 a (BitVec.ofNat 64 ((s0.g c a).toNat -
      (s0.g c a).toNat / 2 ^ pos.toNat % 2 ^ (lenM1.toNat + 1) * 2 ^ pos.toNat +
      (s0.g c b).toNat % 2 ^ (lenM1.toNat + 1) * 2 ^ pos.toNat))).getD s) :=
  h.next_wroteG rfl (by simp only [if_neg (Nat.not_lt.2 hf), natSetBits_field _ _ _ (Nat.succ_pos _)])

end

/-! ### Decimals (R58, R59) -/

/-- An operand lies beyond DMAX (R58). -/
def beyondDmax (w : Word) : Bool := decide (999999999999999999 < w.toInt.natAbs)

/-- What a decimal instruction answers for the exact result `v`, `big` telling whether an operand lies beyond DMAX (R58). -/
def State.decimalOut (s0 s : State) (c : Nat) (a : Reg5) (v : Int) (big : Bool) : State :=
  let r : Int := if 999999999999999999 < v.natAbs then v.sign * 999999999999999999 else v
  let s1 := if 999999999999999999 < v.natAbs || big then s0.raiseFlags c 32 else s0
  ((s1.setG c a (BitVec.ofInt 64 r)).retireInstr c (s1.nextPc c 4)).getD s

/-- A command whose meaning ends in a decimal result completes with it. -/
theorem State.Fetched.next_decimalOut {s s0 : State} {c : Nat} {i : Instr} {body : State → Res Word} {a : Reg5} {v : Int}
    {srcs : List Word} (h : s.Fetched c 4 s0) (hi : exec i s = .next (s.instr c 4 body)) (hb : body s0 = decOut s0 c a v srcs) :
    exec i s = .next (s0.decimalOut s c a v (srcs.any beyondDmax)) := by
  have hdmax (x : Nat) : (dmax < (x : Int)) = (999999999999999999 < x) := by simp [dmax]
  refine h.next_retires hi (hb.trans ?_)
  simp only [decOut, wrG, hdmax, decide_eq_true_eq]
  rfl

/-- Settles O11: each instruction's result is the one its meaning writes. -/
theorem immediate_long_short_decimal_results : Obligations.immediate_long_short_decimal_results := by
  refine ⟨fun c a b d e s s0 h => ⟨?crcs, ?immediates, ?shifts, ?uppers, ?fields, ?select⟩, fun c a b s s0 => ⟨?long, ?short⟩,
    fun c a b d k s s0 h => ⟨?add, ?sub, ?mul, ?div, ?divZero, ?widen, ?narrow⟩⟩
  case crcs =>
    intro k hk
    exact exec_crc h (by simp; omega) hk
  case immediates =>
    intro imm
    exact ⟨h.next_wroteG rfl rfl, h.next_wroteG rfl rfl, h.next_wroteG rfl rfl, h.next_wroteG rfl rfl,
      h.next_wroteG rfl (congrArg (wrG s0 c 4 a) (bit_decide _)), h.next_wroteG rfl (congrArg (wrG s0 c 4 a) (bit_decide _)),
      h.next_wroteG rfl rfl⟩
  case shifts =>
    intro n
    have wide (h3 : (0 : BitVec 3) = 1) : n.toNat < 32 := absurd h3 (by decide)
    refine ⟨?_, ?_, ?_, ?_, fun hn => ?_⟩
    case refine_5 =>
      and_intros <;>
        exact exec_shiftImm h (fun _ => hn) (by simp [intOp, intUnary, intOp32, shiftF6, zx_toNat, Nat.mod_eq_of_lt hn])
    all_goals exact exec_shiftImm h wide (by simp [intOp, intUnary, intOp64, shiftF6, zx_toNat, Nat.mod_eq_of_lt n.isLt])
  case uppers =>
    intro imm
    exact ⟨h.next_wroteG rfl (by rw [upper_eq]), h.next_wroteG rfl (by rw [upper_eq])⟩
  case fields => exact fun pos lenM1 hf => ⟨exec_extu h hf, exec_exts h hf, exec_ins h hf⟩
  case select => exact h.next_wroteG rfl (by simp)
  case long =>
    intro h imm
    exact ⟨h.next_wroteG rfl rfl, h.next_wroteG rfl rfl, h.next_wroteG rfl (by rw [upper_half_or]), h.next_wroteG rfl rfl,
      h.next_wroteG rfl rfl⟩
  case short =>
    intro h
    exact ⟨fun ha hb => h.next_wroteG rfl (if_neg (by simpa using And.intro ha hb)), h.next_wroteG rfl rfl, h.next_wroteG rfl rfl, h.next_wroteG rfl rfl,
      h.next_wroteG rfl rfl, h.next_wroteG rfl rfl, fun imm => ⟨h.next_wroteG rfl rfl, h.next_wroteG rfl rfl, h.next_wroteG rfl rfl,
      h.next_wroteG rfl rfl, h.next_wroteG rfl rfl⟩⟩
  case add => exact (h.next_decimalOut rfl (if_neg (by simp))).trans (by simp [State.decimalOut, beyondDmax])
  case sub => exact (h.next_decimalOut rfl (if_neg (by simp))).trans (by simp [State.decimalOut, beyondDmax])
  case mul =>
    intro hk
    exact (h.next_decimalOut rfl (if_neg (Nat.not_lt.2 hk))).trans (by simp [State.decimalOut, beyondDmax])
  case div =>
    intro hk hy
    have hd : ¬s0.g c d = 0 := fun e => hy (by simp [e])
    exact (h.next_decimalOut rfl ((if_neg (Nat.not_lt.2 hk)).trans (if_neg hd))).trans (by simp [State.decimalOut, beyondDmax])
  case divZero =>
    intro hk hy
    have hd : s0.g c d = 0 := BitVec.eq_of_toInt_eq hy
    exact h.next_takes rfl ((if_neg (Nat.not_lt.2 hk)).trans (if_pos hd)) (by simp [haltCause])
  case widen =>
    intro h0 h18
    have hk : ¬(k.toInt < -18 ∨ 18 < k.toInt) := by omega
    exact (h.next_decimalOut rfl ((if_neg (by simpa using hk)).trans (if_pos h0))).trans (by simp [State.decimalOut, beyondDmax])
  case narrow =>
    intro h18 h0
    have hk : ¬(k.toInt < -18 ∨ 18 < k.toInt) := by omega
    exact (h.next_decimalOut rfl ((if_neg (by simpa using hk)).trans (if_neg (Int.not_le.2 h0)))).trans
      (by simp [State.decimalOut, beyondDmax])

end Sys2Proof.Machine

/-! ## The words of the spec, and what a core runs next (R44, R45, R47, R51) -/

namespace Sys2Proof.Machine

/-- 48-bit OP 0x3F is no instruction. -/
theorem decodeInstr_op3F (c x : Nat) (hx : x < 2 ^ 8) : decodeInstr c (0xFF00 + x) = none := by
  have hpage : (0xFF00 + x) / 2 ^ 14 % 4 = 3 := by omega
  have hop : (0xFF00 + x) / 2 ^ 8 % 64 = 0x3F := by omega
  simp only [decodeInstr, hpage, decode48, hop]

/-- What a core runs next is fetched as long as its first parcel says. -/
theorem State.fetchLen_of_parcels {c w : Nat} {s : State} (h : s.parcels c 2 = some w) : s.fetchLen c = parcelLen w := by
  simp [State.fetchLen, h]

/-- What a core runs next is what its parcels decode to. -/
theorem State.nextInstr_of_parcels {c w n : Nat} {s : State} (hw : s.parcels c 2 = some w) (hn : s.parcels c (parcelLen w) = some n) :
    s.nextInstr c = decodeInstr c n := by
  simp [State.nextInstr, State.fetchLen_of_parcels hw, hn]

/-- Settles O60: the words evaluate, and the fetched instruction runs by the lemmas above. -/
theorem spec_words_decode_and_run : Obligations.spec_words_decode_and_run := by
  refine ⟨fun c => ⟨rfl, rfl, rfl, rfl, rfl, rfl, decodeInstr_op3F c, rfl, rfl, rfl, rfl⟩, fun c w n i s hw hn => ⟨fun hi => ?_, fun hi => ?_⟩⟩
  · simp only [State.runFetched, State.nextInstr_of_parcels hw hn, hi]
  · simp only [State.runFetched, State.nextInstr_of_parcels hw hn, hi, State.fetchLen_of_parcels hw]

end Sys2Proof.Machine

/-! ## The words of instructions: what each format's fields read (R45-R52) -/

namespace Sys2Proof.Machine

theorem fld_eq {w lo n v : Nat} (h : w / 2 ^ lo % 2 ^ n = v) : fld w lo n = BitVec.ofNat n v :=
  BitVec.eq_of_toNat_eq (by simp [fld, ← h])

/-- A field in two pieces, from its pieces. -/
theorem fld2_eq {w hi n lo m v : Nat} (h1 : w / 2 ^ hi % 2 ^ n = v / 2 ^ m) (h2 : w / 2 ^ lo % 2 ^ m = v % 2 ^ m) :
    fld2 w hi n lo m = BitVec.ofNat (n + m) v := by
  unfold fld2
  rw [h1, h2, Nat.div_add_mod']

/-- The length of a word's first parcel stands in the word. -/
theorem parcelLen_mod (w : Nat) : parcelLen (w % 2 ^ 16) = parcelLen w := by
  unfold parcelLen
  rw [show w % 2 ^ 16 / 2 ^ 14 % 4 = w / 2 ^ 14 % 4 by omega]

/-! ### Formats CR, CI and CJ -/

theorem enc16_cr {op a b : Nat} (h : op < 16 ∧ a < 32 ∧ b < 32) :
    let w := enc16 op (a * 32 + b)
    (w / 2 ^ 14 % 4 = 0 ∧ w / 2 ^ 10 % 16 = op ∧ w < 2 ^ 16) ∧ fld w 5 5 = BitVec.ofNat 5 a ∧ fld w 0 5 = BitVec.ofNat 5 b := by
  refine ⟨?_, fld_eq ?_, fld_eq ?_⟩ <;> (simp only [enc16]; omega)

theorem enc16_cj {op imm : Nat} (h : op < 16 ∧ imm < 2 ^ 10) :
    let w := enc16 op imm
    (w / 2 ^ 14 % 4 = 0 ∧ w / 2 ^ 10 % 16 = op ∧ w < 2 ^ 16) ∧ fld w 0 10 = BitVec.ofNat 10 imm := by
  refine ⟨?_, fld_eq ?_⟩ <;> (simp only [enc16]; omega)

/-! ### Format T and those that share its places (Q, SH, BF, B) -/

section
variable {page op a f3 b d f6 : Nat} (h : page < 4 ∧ op < 64 ∧ a < 32 ∧ f3 < 8 ∧ b < 32 ∧ d < 32 ∧ f6 < 64)
include h

/-- The fields of format T. -/
theorem encT_fields :
    let w := encT page op a f3 b d f6
    (w / 2 ^ 14 % 4 = page ∧ w / 2 ^ 8 % 64 = op ∧ w < 2 ^ 32) ∧ fldA w = BitVec.ofNat 5 a ∧ fldF3 w = BitVec.ofNat 3 f3 ∧
    fldB w = BitVec.ofNat 5 b ∧ fldC w = BitVec.ofNat 5 d ∧ fldF6 w = BitVec.ofNat 6 f6 := by
  refine ⟨?_, fld_eq ?_, fld_eq ?_, fld_eq ?_, fld_eq ?_, fld_eq ?_⟩ <;> (simp only [encT]; omega)

/-- What other formats hold in the place of F6 and F3: format Q's D and F1, FARITH's operation, source and rounding mode, SH's sub-operation, and
BF's sub-operation. -/
theorem encT_pieces :
    let w := encT page op a f3 b d f6
    fldD w = BitVec.ofNat 5 (f6 / 2) ∧ fldF1 w = BitVec.ofNat 1 (f6 % 2) ∧ w / 2 ^ 16 % 8 = f6 % 8 ∧
    fld w 16 3 = BitVec.ofNat 3 (f6 % 8) ∧ fld w 19 3 = BitVec.ofNat 3 (f6 / 8) ∧ fld w 16 5 = BitVec.ofNat 5 (f6 % 32) ∧
    w % 4 = f3 % 4 := by
  refine ⟨fld_eq ?_, fld_eq ?_, ?_, fld_eq ?_, fld_eq ?_, fld_eq ?_, ?_⟩ <;> (simp only [encT]; omega)

/-- SH's shift amount, in F6's top bit and C. -/
theorem shamt_encT {x : Nat} :
    f6 / 32 = x / 2 ^ 5 → d = x % 2 ^ 5 → shamt (encT page op a f3 b d f6) = BitVec.ofNat 6 x := by
  have pieces : encT page op a f3 b d f6 / 2 ^ 21 % 2 ^ 1 = f6 / 32 ∧ encT page op a f3 b d f6 / 2 ^ 22 % 2 ^ 5 = d := by
    unfold encT
    omega
  exact fun hi hlo => fld2_eq (pieces.1.trans hi) (pieces.2.trans hlo)

/-- BF's position, in F3's top bit and C. -/
theorem bfPos_encT {x : Nat} :
    f3 / 4 = x / 2 ^ 5 → d = x % 2 ^ 5 → bfPos (encT page op a f3 b d f6) = BitVec.ofNat 6 x := by
  have pieces : encT page op a f3 b d f6 / 2 ^ 2 % 2 ^ 1 = f3 / 4 ∧ encT page op a f3 b d f6 / 2 ^ 22 % 2 ^ 5 = d := by
    unfold encT
    omega
  exact fun hi hlo => fld2_eq (pieces.1.trans hi) (pieces.2.trans hlo)

/-- B's offset, in A and F6. -/
theorem immB_encT {x : Nat} :
    a = x / 2 ^ 6 → f6 = x % 2 ^ 6 → immB (encT page op a f3 b d f6) = BitVec.ofNat 11 x := by
  have pieces : encT page op a f3 b d f6 / 2 ^ 3 % 2 ^ 5 = a ∧ encT page op a f3 b d f6 / 2 ^ 16 % 2 ^ 6 = f6 := by
    unfold encT
    omega
  exact fun hi hlo => fld2_eq (pieces.1.trans hi) (pieces.2.trans hlo)

end

/-! ### Formats I, M, U, J and SR -/

section
variable {op a f3 b imm : Nat}

/-- The fields of format M, and its immediate's and F3's places as numbers. -/
theorem encM_fields (h : op < 64 ∧ a < 32 ∧ f3 < 8 ∧ b < 32 ∧ imm < 2 ^ 11) :
    let w := encM op a f3 b imm
    (w / 2 ^ 14 % 4 = 1 ∧ w / 2 ^ 8 % 64 = op ∧ w < 2 ^ 32) ∧ fldA w = BitVec.ofNat 5 a ∧ fldF3 w = BitVec.ofNat 3 f3 ∧
    fldB w = BitVec.ofNat 5 b ∧ immM w = BitVec.ofNat 11 imm ∧ w / 2 ^ 0 % 2 ^ 3 = f3 ∧ w / 2 ^ 16 % 2 ^ 11 = imm := by
  refine ⟨?_, fld_eq ?_, fld_eq ?_, fld_eq ?_, fld_eq ?_, ?_, ?_⟩ <;> (simp only [encM]; omega)

/-- The fields of format I: format M's, the immediate's upper piece in F3. -/
theorem encI_fields (h : op < 64 ∧ a < 32 ∧ b < 32 ∧ imm < 2 ^ 14) :
    let w := encI op a b imm
    (w / 2 ^ 14 % 4 = 1 ∧ w / 2 ^ 8 % 64 = op ∧ w < 2 ^ 32) ∧ fldA w = BitVec.ofNat 5 a ∧ fldB w = BitVec.ofNat 5 b ∧
    immI w = BitVec.ofNat 14 imm := by
  obtain ⟨head, ha, -, hb, -, h3, hi⟩ := encM_fields (op := op) (a := a) (f3 := imm / 2 ^ 11) (b := b) (imm := imm % 2 ^ 11) (by omega)
  exact ⟨head, ha, hb, fld2_eq h3 hi⟩

/-- The places of format U. -/
theorem encU_places {lo hi : Nat} (h : op < 64 ∧ a < 32 ∧ lo < 2 ^ 3 ∧ hi < 2 ^ 16) :
    let w := 2 ^ 14 + op * 2 ^ 8 + a * 2 ^ 3 + lo + hi * 2 ^ 16
    (w / 2 ^ 14 % 4 = 1 ∧ w / 2 ^ 8 % 64 = op ∧ w < 2 ^ 32) ∧ w / 2 ^ 3 % 2 ^ 5 = a ∧ w / 2 ^ 0 % 2 ^ 3 = lo ∧ w / 2 ^ 16 % 2 ^ 16 = hi := by
  dsimp only
  omega

/-- The fields of format U. -/
theorem encU_fields (h : op < 64 ∧ a < 32 ∧ imm < 2 ^ 19) :
    let w := encU op a imm
    (w / 2 ^ 14 % 4 = 1 ∧ w / 2 ^ 8 % 64 = op ∧ w < 2 ^ 32) ∧ fldA w = BitVec.ofNat 5 a ∧ immU w = BitVec.ofNat 19 imm := by
  obtain ⟨head, ha, hlo, hhi⟩ := encU_places (op := op) (a := a) (lo := imm / 2 ^ 16) (hi := imm % 2 ^ 16) (by omega)
  exact ⟨head, fld_eq ha, fld2_eq hlo hhi⟩

/-- The places of format J. -/
theorem encJ_places {lo hi : Nat} (h : op < 64 ∧ lo < 2 ^ 8 ∧ hi < 2 ^ 16) :
    let w := 2 ^ 14 + op * 2 ^ 8 + lo + hi * 2 ^ 16
    (w / 2 ^ 14 % 4 = 1 ∧ w / 2 ^ 8 % 64 = op ∧ w < 2 ^ 32) ∧ w / 2 ^ 0 % 2 ^ 8 = lo ∧ w / 2 ^ 16 % 2 ^ 16 = hi := by
  dsimp only
  omega

/-- The fields of format J. -/
theorem encJ_fields (h : op < 64 ∧ imm < 2 ^ 24) :
    let w := encJ op imm
    (w / 2 ^ 14 % 4 = 1 ∧ w / 2 ^ 8 % 64 = op ∧ w < 2 ^ 32) ∧ immJ w = BitVec.ofNat 24 imm := by
  obtain ⟨head, hlo, hhi⟩ := encJ_places (op := op) (lo := imm / 2 ^ 16) (hi := imm % 2 ^ 16) (by omega)
  exact ⟨head, fld2_eq hlo hhi⟩

/-- The fields of format SR: the register's number in the place of F6 and C. -/
theorem encSr_fields {n : Nat} (h : a < 32 ∧ f3 < 8 ∧ n < 2 ^ 12) :
    let w := 2 * 2 ^ 14 + 0x1B * 2 ^ 8 + a * 2 ^ 3 + f3 + n * 2 ^ 16
    (w / 2 ^ 14 % 4 = 2 ∧ w / 2 ^ 8 % 64 = 0x1B ∧ w < 2 ^ 32) ∧ w / 2 ^ 28 % 16 = 0 ∧ fldA w = BitVec.ofNat 5 a ∧
    fldF3 w = BitVec.ofNat 3 f3 ∧ fld w 16 12 = BitVec.ofNat 12 n := by
  dsimp only
  exact ⟨by omega, by omega, fld_eq (by omega), fld_eq (by omega), fld_eq (by omega)⟩

end

/-! ### Formats L, LM, V and VM -/

section
variable {op a f3 b d e msk ew zm f11 imm : Nat}

/-- The fields of format L. -/
theorem encL_fields (h : op < 64 ∧ a < 32 ∧ f3 < 8 ∧ imm < 2 ^ 32) :
    let w := encL op a f3 imm
    (w / 2 ^ 14 % 4 = 3 ∧ w / 2 ^ 8 % 64 = op ∧ w < 2 ^ 48) ∧ fldA w = BitVec.ofNat 5 a ∧ fldF3 w = BitVec.ofNat 3 f3 ∧
    fld w 16 32 = BitVec.ofNat 32 imm := by
  refine ⟨?_, fld_eq ?_, fld_eq ?_, fld_eq ?_⟩ <;> (simp only [encL]; omega)

/-- The fields of format LM. -/
theorem encLM_fields (h : op < 64 ∧ a < 32 ∧ f3 < 8 ∧ b < 32 ∧ imm < 2 ^ 27) :
    let w := encLM op a f3 b imm
    (w / 2 ^ 14 % 4 = 3 ∧ w / 2 ^ 8 % 64 = op ∧ w < 2 ^ 48) ∧ fldA w = BitVec.ofNat 5 a ∧ fldF3 w = BitVec.ofNat 3 f3 ∧
    fldVB w = BitVec.ofNat 5 b ∧ fld w 16 27 = BitVec.ofNat 27 imm := by
  refine ⟨?_, fld_eq ?_, fld_eq ?_, fld_eq ?_, fld_eq ?_⟩ <;> (simp only [encLM]; omega)

/-- The fields of format V. -/
theorem encV_fields (h : op < 64 ∧ a < 32 ∧ f3 < 8 ∧ b < 32 ∧ d < 32 ∧ e < 32 ∧ msk < 8 ∧ ew < 4 ∧ zm < 2 ∧ f11 < 2 ^ 11) :
    let w := encV op a f3 b d e msk ew zm f11
    (w / 2 ^ 14 % 4 = 3 ∧ w / 2 ^ 8 % 64 = op ∧ w < 2 ^ 48) ∧ fldA w = BitVec.ofNat 5 a ∧ fldF3 w = BitVec.ofNat 3 f3 ∧
    fldVB w = BitVec.ofNat 5 b ∧ fldVC w = BitVec.ofNat 5 d ∧ fldVD w = BitVec.ofNat 5 e ∧ fld w 30 3 = BitVec.ofNat 3 msk ∧
    fld w 28 2 = BitVec.ofNat 2 ew ∧ fld w 27 1 = BitVec.ofNat 1 zm ∧ fldF11 w = BitVec.ofNat 11 f11 := by
  refine ⟨?_, fld_eq ?_, fld_eq ?_, fld_eq ?_, fld_eq ?_, fld_eq ?_, fld_eq ?_, fld_eq ?_, fld_eq ?_, fld_eq ?_⟩ <;>
    (simp only [encV]; omega)

/-- A lane number, its top bit in C and the others in D. -/
theorem lane_encV {x : Nat} (h : op < 64 ∧ a < 32 ∧ f3 < 8 ∧ b < 32 ∧ d < 2 ∧ e < 32 ∧ msk < 8 ∧ ew < 4 ∧ zm < 2 ∧ f11 < 2 ^ 11) :
    d = x / 2 ^ 5 → e = x % 2 ^ 5 → fld2 (encV op a f3 b d e msk ew zm f11) 38 1 33 5 = BitVec.ofNat 6 x := by
  have pieces : encV op a f3 b d e msk ew zm f11 / 2 ^ 38 % 2 ^ 1 = d ∧ encV op a f3 b d e msk ew zm f11 / 2 ^ 33 % 2 ^ 5 = e := by
    unfold encV
    omega
  exact fun hi hlo => fld2_eq (pieces.1.trans hi) (pieces.2.trans hlo)

/-- The fields of format VM. -/
theorem encVM_fields (h : op < 64 ∧ a < 32 ∧ f3 < 8 ∧ b < 32 ∧ d < 32 ∧ msk < 8 ∧ ew < 4 ∧ zm < 2 ∧ imm < 2 ^ 16) :
    let w := encVM op a f3 b d msk ew zm imm
    (w / 2 ^ 14 % 4 = 3 ∧ w / 2 ^ 8 % 64 = op ∧ w < 2 ^ 48) ∧ fldA w = BitVec.ofNat 5 a ∧ fldF3 w = BitVec.ofNat 3 f3 ∧
    fldVB w = BitVec.ofNat 5 b ∧ fldVC w = BitVec.ofNat 5 d ∧ fld w 35 3 = BitVec.ofNat 3 msk ∧ fld w 33 2 = BitVec.ofNat 2 ew ∧
    fld w 32 1 = BitVec.ofNat 1 zm ∧ fld w 16 16 = BitVec.ofNat 16 imm := by
  refine ⟨?_, fld_eq ?_, fld_eq ?_, fld_eq ?_, fld_eq ?_, fld_eq ?_, fld_eq ?_, fld_eq ?_, fld_eq ?_⟩ <;>
    (simp only [encVM]; omega)

end

end Sys2Proof.Machine

/-! ## Decoding inverts encoding -/

namespace Sys2Proof.Machine

/-- A word spells a command of core `c`: it decodes to it, and it is as long as its first parcel says. -/
def Spells (c w : Nat) (i : Instr) : Prop := decodeInstr c w = some i ∧ w < 2 ^ (8 * parcelLen (w % 2 ^ 16))

/-- A command's own words spell it. -/
def RoundTrips (c : Nat) (i : Instr) : Prop := ∀ w, encodeInstr i = some w → Spells c w i

section
variable {c w : Nat} {i : Instr}

theorem RoundTrips.of (he : encodeInstr i = some w) (h : Spells c w i) : RoundTrips c i := by
  intro w' hw
  obtain rfl : w = w' := Option.some.inj (he.symm.trans hw)
  exact h

/-- A command that has words only where its fields meet a condition. -/
theorem RoundTrips.ofIf {p : Prop} [Decidable p] (he : encodeInstr i = if p then some w else none) (h : p → Spells c w i) :
    RoundTrips c i := by
  intro w' hw
  rw [he, Option.ite_none_right_eq_some] at hw
  obtain ⟨hp, hw⟩ := hw
  cases hw
  exact h hp

theorem spells_of_length {n : Nat} (hlen : parcelLen w = n) (hlt : w < 2 ^ (8 * n)) (hd : decodeInstr c w = some i) : Spells c w i :=
  ⟨hd, by rwa [parcelLen_mod, hlen]⟩

theorem spells_of16 (h : w / 2 ^ 14 % 4 = 0 ∧ w < 2 ^ 16) (hd : decodeInstr c w = some i) : Spells c w i :=
  spells_of_length (n := 2) (by simp only [parcelLen, h.1]) h.2 hd

theorem spells_of32 (h : (w / 2 ^ 14 % 4 = 1 ∨ w / 2 ^ 14 % 4 = 2) ∧ w < 2 ^ 32) (hd : decodeInstr c w = some i) : Spells c w i := by
  obtain ⟨hp | hp, hlt⟩ := h <;> exact spells_of_length (n := 4) (by simp only [parcelLen, hp]) hlt hd

theorem spells_of48 (h : w / 2 ^ 14 % 4 = 3 ∧ w < 2 ^ 48) (hd : decodeInstr c w = some i) : Spells c w i :=
  spells_of_length (n := 6) (by simp only [parcelLen, h.1]) h.2 hd

end

/-! ### A word of each format spells a command when every word with its fields decodes to it -/

section
variable {c page op a f3 b d e f6 imm msk ew zm f11 : Nat} {i : Instr}

theorem Spells.ofCR (hb : op < 16 ∧ a < 32 ∧ b < 32)
    (h : ∀ w, (w / 2 ^ 14 % 4 = 0 ∧ w / 2 ^ 10 % 16 = op ∧ fld w 5 5 = BitVec.ofNat 5 a ∧ fld w 0 5 = BitVec.ofNat 5 b) →
      decodeInstr c w = some i) : Spells c (enc16 op (a * 32 + b)) i := by
  obtain ⟨⟨hp, ho, hlt⟩, hr⟩ := enc16_cr hb
  exact spells_of16 ⟨hp, hlt⟩ (h _ ⟨hp, ho, hr⟩)

theorem Spells.ofCJ (hb : op < 16 ∧ imm < 2 ^ 10)
    (h : ∀ w, (w / 2 ^ 14 % 4 = 0 ∧ w / 2 ^ 10 % 16 = op ∧ fld w 0 10 = BitVec.ofNat 10 imm) → decodeInstr c w = some i) :
    Spells c (enc16 op imm) i := by
  obtain ⟨⟨hp, ho, hlt⟩, hr⟩ := enc16_cj hb
  exact spells_of16 ⟨hp, hlt⟩ (h _ ⟨hp, ho, hr⟩)

theorem spells_of_encT (hb : page < 4 ∧ op < 64 ∧ a < 32 ∧ f3 < 8 ∧ b < 32 ∧ d < 32 ∧ f6 < 64) (hpage : page = 1 ∨ page = 2)
    (h : decodeInstr c (encT page op a f3 b d f6) = some i) : Spells c (encT page op a f3 b d f6) i := by
  obtain ⟨⟨hp, -, hlt⟩, -⟩ := encT_fields hb
  exact spells_of32 ⟨by rwa [hp], hlt⟩ h

theorem Spells.ofT (hb : page < 4 ∧ op < 64 ∧ a < 32 ∧ f3 < 8 ∧ b < 32 ∧ d < 32 ∧ f6 < 64) (hpage : page = 1 ∨ page = 2)
    (h : ∀ w, (w / 2 ^ 14 % 4 = page ∧ w / 2 ^ 8 % 64 = op ∧ fldA w = BitVec.ofNat 5 a ∧ fldF3 w = BitVec.ofNat 3 f3 ∧
      fldB w = BitVec.ofNat 5 b ∧ fldC w = BitVec.ofNat 5 d ∧ fldF6 w = BitVec.ofNat 6 f6) → decodeInstr c w = some i) :
    Spells c (encT page op a f3 b d f6) i := by
  obtain ⟨⟨hp, ho, -⟩, hr⟩ := encT_fields hb
  exact spells_of_encT hb hpage (h _ ⟨hp, ho, hr⟩)

/-- Format Q, and FARITH and FCVT: the place of F6 read in pieces. -/
theorem Spells.ofQ (hb : page < 4 ∧ op < 64 ∧ a < 32 ∧ f3 < 8 ∧ b < 32 ∧ d < 32 ∧ f6 < 64) (hpage : page = 1 ∨ page = 2)
    (h : ∀ w, (w / 2 ^ 14 % 4 = page ∧ w / 2 ^ 8 % 64 = op ∧ fldA w = BitVec.ofNat 5 a ∧ fldF3 w = BitVec.ofNat 3 f3 ∧
      fldB w = BitVec.ofNat 5 b ∧ fldC w = BitVec.ofNat 5 d ∧ fldD w = BitVec.ofNat 5 (f6 / 2) ∧ fldF1 w = BitVec.ofNat 1 (f6 % 2) ∧
      w / 2 ^ 16 % 8 = f6 % 8 ∧ fld w 16 3 = BitVec.ofNat 3 (f6 % 8) ∧ fld w 19 3 = BitVec.ofNat 3 (f6 / 8)) →
        decodeInstr c w = some i) :
    Spells c (encT page op a f3 b d f6) i := by
  obtain ⟨⟨hp, ho, -⟩, ha, h3, hB, hC, -⟩ := encT_fields hb
  obtain ⟨hD, h1, hk, hs, hr, -⟩ := encT_pieces hb
  exact spells_of_encT hb hpage (h _ ⟨hp, ho, ha, h3, hB, hC, hD, h1, hk, hs, hr⟩)

/-- Format SH: the shift amount in F6's top bit and C. -/
theorem Spells.ofSH {sub x : Nat} (hb : op < 64 ∧ a < 32 ∧ f3 < 8 ∧ b < 32 ∧ sub < 32 ∧ x < 64)
    (h : ∀ w, (w / 2 ^ 14 % 4 = 1 ∧ w / 2 ^ 8 % 64 = op ∧ fldA w = BitVec.ofNat 5 a ∧ fldF3 w = BitVec.ofNat 3 f3 ∧
      fldB w = BitVec.ofNat 5 b ∧ fld w 16 5 = BitVec.ofNat 5 sub ∧ shamt w = BitVec.ofNat 6 x) → decodeInstr c w = some i) :
    Spells c (encT 1 op a f3 b (x % 32) (sub + x / 32 * 32)) i := by
  have hb' : 1 < 4 ∧ op < 64 ∧ a < 32 ∧ f3 < 8 ∧ b < 32 ∧ x % 32 < 32 ∧ sub + x / 32 * 32 < 64 := by omega
  have hsub : (sub + x / 32 * 32) % 32 = sub := by omega
  obtain ⟨⟨hp, ho, -⟩, hA, h3, hB, -, -⟩ := encT_fields hb'
  obtain ⟨-, -, -, -, -, hs, -⟩ := encT_pieces hb'
  rw [hsub] at hs
  exact spells_of_encT hb' (.inl rfl) (h _ ⟨hp, ho, hA, h3, hB, hs, shamt_encT hb' (by omega) rfl⟩)

/-- Format BF: the position in F3's top bit and C. -/
theorem Spells.ofBF {sub x : Nat} (hb : op < 64 ∧ a < 32 ∧ sub < 4 ∧ b < 32 ∧ x < 64 ∧ f6 < 64)
    (h : ∀ w, (w / 2 ^ 14 % 4 = 1 ∧ w / 2 ^ 8 % 64 = op ∧ fldA w = BitVec.ofNat 5 a ∧ w % 4 = sub ∧
      fldB w = BitVec.ofNat 5 b ∧ fldF6 w = BitVec.ofNat 6 f6 ∧ bfPos w = BitVec.ofNat 6 x) → decodeInstr c w = some i) :
    Spells c (encT 1 op a (sub + x / 32 * 4) b (x % 32) f6) i := by
  have hb' : 1 < 4 ∧ op < 64 ∧ a < 32 ∧ sub + x / 32 * 4 < 8 ∧ b < 32 ∧ x % 32 < 32 ∧ f6 < 64 := by omega
  have hsub : (sub + x / 32 * 4) % 4 = sub := by omega
  obtain ⟨⟨hp, ho, -⟩, hA, -, hB, -, h6⟩ := encT_fields hb'
  obtain ⟨-, -, -, -, -, -, hs⟩ := encT_pieces hb'
  exact spells_of_encT hb' (.inl rfl) (h _ ⟨hp, ho, hA, hs.trans hsub, hB, h6, bfPos_encT hb' (by omega) rfl⟩)

/-- Format B: the offset in A and F6. -/
theorem Spells.ofB {x : Nat} (hb : op < 64 ∧ f3 < 8 ∧ b < 32 ∧ d < 32 ∧ x < 2 ^ 11)
    (h : ∀ w, (w / 2 ^ 14 % 4 = 1 ∧ w / 2 ^ 8 % 64 = op ∧ fldF3 w = BitVec.ofNat 3 f3 ∧ fldB w = BitVec.ofNat 5 b ∧
      fldC w = BitVec.ofNat 5 d ∧ immB w = BitVec.ofNat 11 x) → decodeInstr c w = some i) :
    Spells c (encT 1 op (x / 64) f3 b d (x % 64)) i := by
  have hb' : 1 < 4 ∧ op < 64 ∧ x / 64 < 32 ∧ f3 < 8 ∧ b < 32 ∧ d < 32 ∧ x % 64 < 64 := by omega
  obtain ⟨⟨hp, ho, -⟩, -, h3, hB, hC, -⟩ := encT_fields hb'
  exact spells_of_encT hb' (.inl rfl) (h _ ⟨hp, ho, h3, hB, hC, immB_encT hb' rfl rfl⟩)

theorem Spells.ofI (hb : op < 64 ∧ a < 32 ∧ b < 32 ∧ imm < 2 ^ 14)
    (h : ∀ w, (w / 2 ^ 14 % 4 = 1 ∧ w / 2 ^ 8 % 64 = op ∧ fldA w = BitVec.ofNat 5 a ∧ fldB w = BitVec.ofNat 5 b ∧
      immI w = BitVec.ofNat 14 imm) → decodeInstr c w = some i) : Spells c (encI op a b imm) i := by
  obtain ⟨⟨hp, ho, hlt⟩, hr⟩ := encI_fields hb
  exact spells_of32 ⟨.inl hp, hlt⟩ (h _ ⟨hp, ho, hr⟩)

theorem Spells.ofM (hb : op < 64 ∧ a < 32 ∧ f3 < 8 ∧ b < 32 ∧ imm < 2 ^ 11)
    (h : ∀ w, (w / 2 ^ 14 % 4 = 1 ∧ w / 2 ^ 8 % 64 = op ∧ fldA w = BitVec.ofNat 5 a ∧ fldF3 w = BitVec.ofNat 3 f3 ∧
      fldB w = BitVec.ofNat 5 b ∧ immM w = BitVec.ofNat 11 imm) → decodeInstr c w = some i) : Spells c (encM op a f3 b imm) i := by
  obtain ⟨⟨hp, ho, hlt⟩, ha, h3, hB, hi, -⟩ := encM_fields hb
  exact spells_of32 ⟨.inl hp, hlt⟩ (h _ ⟨hp, ho, ha, h3, hB, hi⟩)

theorem Spells.ofU (hb : op < 64 ∧ a < 32 ∧ imm < 2 ^ 19)
    (h : ∀ w, (w / 2 ^ 14 % 4 = 1 ∧ w / 2 ^ 8 % 64 = op ∧ fldA w = BitVec.ofNat 5 a ∧ immU w = BitVec.ofNat 19 imm) →
      decodeInstr c w = some i) : Spells c (encU op a imm) i := by
  obtain ⟨⟨hp, ho, hlt⟩, hr⟩ := encU_fields hb
  exact spells_of32 ⟨.inl hp, hlt⟩ (h _ ⟨hp, ho, hr⟩)

theorem Spells.ofJ (hb : op < 64 ∧ imm < 2 ^ 24)
    (h : ∀ w, (w / 2 ^ 14 % 4 = 1 ∧ w / 2 ^ 8 % 64 = op ∧ immJ w = BitVec.ofNat 24 imm) → decodeInstr c w = some i) :
    Spells c (encJ op imm) i := by
  obtain ⟨⟨hp, ho, hlt⟩, hr⟩ := encJ_fields hb
  exact spells_of32 ⟨.inl hp, hlt⟩ (h _ ⟨hp, ho, hr⟩)

theorem Spells.ofSR {n : Nat} (hb : a < 32 ∧ f3 < 8 ∧ n < 2 ^ 12)
    (h : ∀ w, (w / 2 ^ 14 % 4 = 2 ∧ w / 2 ^ 8 % 64 = 0x1B ∧ w / 2 ^ 28 % 16 = 0 ∧ fldA w = BitVec.ofNat 5 a ∧
      fldF3 w = BitVec.ofNat 3 f3 ∧ fld w 16 12 = BitVec.ofNat 12 n) → decodeInstr c w = some i) :
    Spells c (2 * 2 ^ 14 + 0x1B * 2 ^ 8 + a * 2 ^ 3 + f3 + n * 2 ^ 16) i := by
  obtain ⟨⟨hp, ho, hlt⟩, hr⟩ := encSr_fields hb
  exact spells_of32 ⟨.inr hp, hlt⟩ (h _ ⟨hp, ho, hr⟩)

theorem Spells.ofL (hb : op < 64 ∧ a < 32 ∧ f3 < 8 ∧ imm < 2 ^ 32)
    (h : ∀ w, (w / 2 ^ 14 % 4 = 3 ∧ w / 2 ^ 8 % 64 = op ∧ fldA w = BitVec.ofNat 5 a ∧ fldF3 w = BitVec.ofNat 3 f3 ∧
      fld w 16 32 = BitVec.ofNat 32 imm) → decodeInstr c w = some i) : Spells c (encL op a f3 imm) i := by
  obtain ⟨⟨hp, ho, hlt⟩, hr⟩ := encL_fields hb
  exact spells_of48 ⟨hp, hlt⟩ (h _ ⟨hp, ho, hr⟩)

theorem Spells.ofLM (hb : op < 64 ∧ a < 32 ∧ f3 < 8 ∧ b < 32 ∧ imm < 2 ^ 27)
    (h : ∀ w, (w / 2 ^ 14 % 4 = 3 ∧ w / 2 ^ 8 % 64 = op ∧ fldA w = BitVec.ofNat 5 a ∧ fldF3 w = BitVec.ofNat 3 f3 ∧
      fldVB w = BitVec.ofNat 5 b ∧ fld w 16 27 = BitVec.ofNat 27 imm) → decodeInstr c w = some i) : Spells c (encLM op a f3 b imm) i := by
  obtain ⟨⟨hp, ho, hlt⟩, hr⟩ := encLM_fields hb
  exact spells_of48 ⟨hp, hlt⟩ (h _ ⟨hp, ho, hr⟩)

theorem Spells.ofV (hb : op < 64 ∧ a < 32 ∧ f3 < 8 ∧ b < 32 ∧ d < 32 ∧ e < 32 ∧ msk < 8 ∧ ew < 4 ∧ zm < 2 ∧ f11 < 2 ^ 11)
    (h : ∀ w, (w / 2 ^ 14 % 4 = 3 ∧ w / 2 ^ 8 % 64 = op ∧ fldA w = BitVec.ofNat 5 a ∧ fldF3 w = BitVec.ofNat 3 f3 ∧
      fldVB w = BitVec.ofNat 5 b ∧ fldVC w = BitVec.ofNat 5 d ∧ fldVD w = BitVec.ofNat 5 e ∧ fld w 30 3 = BitVec.ofNat 3 msk ∧
      fld w 28 2 = BitVec.ofNat 2 ew ∧ fld w 27 1 = BitVec.ofNat 1 zm ∧ fldF11 w = BitVec.ofNat 11 f11) → decodeInstr c w = some i) :
    Spells c (encV op a f3 b d e msk ew zm f11) i := by
  obtain ⟨⟨hp, ho, hlt⟩, hr⟩ := encV_fields hb
  exact spells_of48 ⟨hp, hlt⟩ (h _ ⟨hp, ho, hr⟩)

/-- Format V with a lane number in C and D. -/
theorem Spells.ofLane {x : Nat} (hb : op < 64 ∧ a < 32 ∧ b < 32 ∧ x < 64 ∧ msk < 8 ∧ ew < 4 ∧ zm < 2 ∧ f11 < 2 ^ 11)
    (h : ∀ w, (w / 2 ^ 14 % 4 = 3 ∧ w / 2 ^ 8 % 64 = op ∧ fld2 w 38 1 33 5 = BitVec.ofNat 6 x ∧ fldA w = BitVec.ofNat 5 a ∧
      fldF3 w = BitVec.ofNat 3 0 ∧ fldVB w = BitVec.ofNat 5 b ∧ fld w 30 3 = BitVec.ofNat 3 msk ∧ fld w 28 2 = BitVec.ofNat 2 ew ∧
      fld w 27 1 = BitVec.ofNat 1 zm ∧ fldF11 w = BitVec.ofNat 11 f11) → decodeInstr c w = some i) :
    Spells c (encV op a 0 b (x / 32) (x % 32) msk ew zm f11) i := by
  obtain ⟨⟨hp, ho, hlt⟩, hA, h3, hB, -, -, hm, hw, hz, hf⟩ := encV_fields (op := op) (a := a) (f3 := 0) (b := b) (d := x / 32)
    (e := x % 32) (msk := msk) (ew := ew) (zm := zm) (f11 := f11) (by omega)
  have hl : fld2 (encV op a 0 b (x / 32) (x % 32) msk ew zm f11) 38 1 33 5 = BitVec.ofNat 6 x := lane_encV (by omega) rfl rfl
  exact spells_of48 ⟨hp, hlt⟩ (h _ ⟨hp, ho, hl, hA, h3, hB, hm, hw, hz, hf⟩)

theorem Spells.ofVM (hb : op < 64 ∧ a < 32 ∧ f3 < 8 ∧ b < 32 ∧ d < 32 ∧ msk < 8 ∧ ew < 4 ∧ zm < 2 ∧ imm < 2 ^ 16)
    (h : ∀ w, (w / 2 ^ 14 % 4 = 3 ∧ w / 2 ^ 8 % 64 = op ∧ fldA w = BitVec.ofNat 5 a ∧ fldF3 w = BitVec.ofNat 3 f3 ∧
      fldVB w = BitVec.ofNat 5 b ∧ fldVC w = BitVec.ofNat 5 d ∧ fld w 35 3 = BitVec.ofNat 3 msk ∧ fld w 33 2 = BitVec.ofNat 2 ew ∧
      fld w 32 1 = BitVec.ofNat 1 zm ∧ fld w 16 16 = BitVec.ofNat 16 imm) → decodeInstr c w = some i) :
    Spells c (encVM op a f3 b d msk ew zm imm) i := by
  obtain ⟨⟨hp, ho, hlt⟩, hr⟩ := encVM_fields hb
  exact spells_of48 ⟨hp, hlt⟩ (h _ ⟨hp, ho, hr⟩)

end

/-! ### Each group of the opcode tables -/

section
variable (c : Nat) (a b d e : Reg5) (f1 zm : BitVec 1) (f3 prec rm msk : BitVec 3) (ew : BitVec 2) (f6 pos : BitVec 6) (f11 : BitVec 11)

theorem roundTrips_cr : RoundTrips c (.cAdd c a b) ∧ RoundTrips c (.cSub c a b) ∧ RoundTrips c (.cAnd c a b) ∧ RoundTrips c (.cOr c a b) ∧
    RoundTrips c (.cXor c a b) := by
  and_intros <;> exact .of rfl (.ofCR (by omega) fun w h => by simp [-Nat.reducePow, decodeInstr, decode16, h])

theorem roundTrips_ci (imm : BitVec 5) : RoundTrips c (.cAddi c a imm) ∧ RoundTrips c (.cLi c a imm) ∧ RoundTrips c (.cSlli c a imm) ∧
    RoundTrips c (.cSrli c a imm) ∧ RoundTrips c (.cSrai c a imm) ∧ RoundTrips c (.cStk c a imm) ∧
    RoundTrips c (.cBeqz c a imm) ∧ RoundTrips c (.cBnez c a imm) := by
  and_intros <;> exact .of rfl (.ofCR (by omega) fun w h => by simp [-Nat.reducePow, decodeInstr, decode16, h])

theorem roundTrips_cMov : RoundTrips c (.cMov c a b) := by
  refine .ofIf rfl fun hc => .ofCR (by omega) fun w h => ?_
  obtain ⟨ha, hb⟩ : ¬a = 0#5 ∧ ¬b = 0#5 := by simpa using hc
  simp [-Nat.reducePow, decodeInstr, decode16, h, ha, hb, legal]

theorem roundTrips_cJ (imm : BitVec 10) : RoundTrips c (.cJ c imm) :=
  .of rfl (.ofCJ (by omega) fun w h => by simp [-Nat.reducePow, decodeInstr, decode16, h])

theorem roundTrips_cFixed : RoundTrips c (.cRet c) ∧ RoundTrips c (.cBrk c) ∧ RoundTrips c (.cFenceX c) := by
  and_intros <;> exact .of rfl ⟨rfl, by decide⟩

theorem roundTrips_int : RoundTrips c (.div c f3 f6 a b d) ∧ RoundTrips c (.crc c f3 f6 a b d) ∧ RoundTrips c (.intOp c f3 f6 a b d) := by
  refine ⟨.ofIf rfl fun hc => .ofT (by omega) (.inl rfl) fun w h => ?_, .ofIf rfl fun hc => .ofT (by omega) (.inl rfl) fun w h => ?_,
    .ofIf rfl fun hc => .ofT (by omega) (.inl rfl) fun w h => ?_⟩ <;> simp at hc <;>
    simp only [decodeInstr, decodeA, decodeInt, h, BitVec.ofNat_toNat, BitVec.setWidth_eq]
  · rw [if_pos hc]
  · rw [if_neg (by omega), if_pos hc]
  · rw [if_neg (by omega), if_neg (by omega)]

theorem roundTrips_immOp (imm : BitVec 14) : RoundTrips c (.immOp c f3 a b imm) := by
  have ops : ∀ f : BitVec 3, (f ≠ 0 && f ≠ 7) = true → f = 1 ∨ f = 2 ∨ f = 3 ∨ f = 4 ∨ f = 5 ∨ f = 6 := by decide
  refine .ofIf rfl fun hc => .ofI (by omega) fun w h => ?_
  have hop := ops f3 hc
  rcases hop with rfl | rfl | rfl | rfl | rfl | rfl <;> simp [-Nat.reducePow, decodeInstr, decodeA, h]

theorem roundTrips_addiw (imm : BitVec 14) : RoundTrips c (.addiw c a b imm) :=
  .of rfl (.ofI (by omega) fun w h => by simp [-Nat.reducePow, decodeInstr, decodeA, h])

theorem roundTrips_upper : (∀ (a : Reg5) (imm : BitVec 19), RoundTrips c (.lui c a imm)) ∧
    (∀ (a : Reg5) (imm : BitVec 19), RoundTrips c (.addpc c a imm)) ∧ (∀ (imm : BitVec 19), RoundTrips c (.trap c imm)) ∧
    (∀ (imm : BitVec 19), RoundTrips c (.brk c imm)) := by
  and_intros <;> intros <;> exact .of rfl (.ofU (by omega) fun w h => by simp [-Nat.reducePow, decodeInstr, decodeA, legal, h])

theorem roundTrips_shiftImm (sub : BitVec 5) : RoundTrips c (.shiftImm c f3 sub a b f6) :=
  .of rfl (.ofSH (by omega) fun w h => by simp [-Nat.reducePow, decodeInstr, decodeA, h])

theorem roundTrips_bitField : RoundTrips c (.extu c a b pos f6) ∧ RoundTrips c (.exts c a b pos f6) ∧ RoundTrips c (.ins c a b pos f6) := by
  and_intros <;> exact .of rfl (.ofBF (by omega) fun w h => by simp [-Nat.reducePow, decodeInstr, decodeA, decodeBf, h])

theorem roundTrips_decimal : (∀ (d : Reg5), RoundTrips c (.dadd c f6 a b d)) ∧ (∀ (d : Reg5), RoundTrips c (.dsub c f6 a b d)) ∧
    (∀ (d : Reg5), RoundTrips c (.dmul c f6 a b d)) ∧ (∀ (d : Reg5), RoundTrips c (.ddiv c f6 a b d)) ∧ RoundTrips c (.dresc c f6 a b) := by
  and_intros <;> intros <;>
    exact .of rfl (.ofT (by omega) (.inl rfl) fun w h => by simp [-Nat.reducePow, decodeInstr, decodeA, decodeDec, legal, h])

theorem roundTrips_access (imm : BitVec 11) : RoundTrips c (.st c f3 a b imm) ∧
    RoundTrips c (.stl c f3 a b imm) ∧ RoundTrips c (.pref c f3 a b imm) := by
  and_intros <;> exact .of rfl (.ofM (by omega) fun w h => by simp [-Nat.reducePow, decodeInstr, decodeA, h])

theorem roundTrips_stx : RoundTrips c (.stx c f3 f6 a b d) :=
  .of rfl (.ofT (by omega) (.inl rfl) fun w h => by simp [-Nat.reducePow, decodeInstr, decodeA, h])

theorem roundTrips_bcc (imm : BitVec 11) : RoundTrips c (.bcc c f3 b d imm) :=
  .of rfl (.ofB (by omega) fun w h => by simp [-Nat.reducePow, decodeInstr, decodeA, h])

theorem roundTrips_jump (imm : BitVec 24) : RoundTrips c (.jmp c imm) ∧ RoundTrips c (.call c imm) := by
  and_intros <;> exact .of rfl (.ofJ (by omega) fun w h => by simp [-Nat.reducePow, decodeInstr, decodeA, h])

theorem roundTrips_jumpRegister : RoundTrips c (.jmpr c b) ∧ RoundTrips c (.callr c b) ∧ RoundTrips c (.ret c b) := by
  and_intros <;>
    exact .of rfl (.ofT (by omega) (.inl rfl) fun w h => by simp [-Nat.reducePow, decodeInstr, decodeA, decodeJr, legal, h])

/-- An operation below a rounding mode, in the place of F6. -/
theorem ofNat_rounding (k : Nat) (hk : k < 8) : (k + rm.toNat * 8) % 8 = k ∧ BitVec.ofNat 3 ((k + rm.toNat * 8) / 8) = rm :=
  ⟨by omega, BitVec.eq_of_toNat_eq (by simp; omega)⟩

theorem roundTrips_farith : (∀ (d : Reg5), RoundTrips c (.fadd c rm prec a b d)) ∧
    (∀ (d : Reg5), RoundTrips c (.fsub c rm prec a b d)) ∧ (∀ (d : Reg5), RoundTrips c (.fmul c rm prec a b d)) ∧
    (∀ (d : Reg5), RoundTrips c (.fdiv c rm prec a b d)) ∧ (∀ (d : Reg5), RoundTrips c (.fmin c rm prec a b d)) ∧
    (∀ (d : Reg5), RoundTrips c (.fmax c rm prec a b d)) ∧ RoundTrips c (.fsqrt c rm prec a b) := by
  and_intros <;> intros <;>
    exact .of rfl (.ofQ (by omega) (.inr rfl) fun w h => by
      simp [-Nat.reducePow, -Nat.add_mul_mod_self_right, decodeInstr, decodeB, decodeFarith, legal, h, ofNat_rounding])

theorem roundTrips_fcvt (src : BitVec 3) : RoundTrips c (.fcvt c rm prec src a b) :=
  .of rfl (.ofQ (by omega) (.inr rfl) fun w h => by
    simp [-Nat.reducePow, -Nat.add_mul_mod_self_right, decodeInstr, decodeB, h, ofNat_rounding rm src.toNat src.isLt])

/-- D above F1, in the place of F6. -/
theorem ofNat_quad : (e.toNat * 2 + f1.toNat) % 2 = f1.toNat ∧ BitVec.ofNat 5 ((e.toNat * 2 + f1.toNat) / 2) = e :=
  ⟨by omega, BitVec.eq_of_toNat_eq (by simp; omega)⟩

theorem roundTrips_quad : RoundTrips c (.sel c f3 f1 a b d e) ∧ RoundTrips c (.fmadd c f3 f1 a b d e) ∧ RoundTrips c (.hcas c f3 f1 a b d e) := by
  refine ⟨.of rfl (.ofQ (by omega) (.inl rfl) fun w h => ?_), .of rfl (.ofQ (by omega) (.inr rfl) fun w h => ?_),
    .of rfl (.ofQ (by omega) (.inr rfl) fun w h => ?_)⟩ <;>
    simp [-Nat.reducePow, -Nat.mul_add_mod_self_right, decodeInstr, decodeA, decodeB, h, ofNat_quad]

theorem roundTrips_fcmp : RoundTrips c (.feq c prec a b d) ∧ RoundTrips c (.flt c prec a b d) ∧ RoundTrips c (.fle c prec a b d) ∧
    RoundTrips c (.fun c prec a b d) ∧ RoundTrips c (.fltq c prec a b d) ∧ RoundTrips c (.fleq c prec a b d) := by
  and_intros <;> exact .of rfl (.ofT (by omega) (.inr rfl) fun w h => by simp [-Nat.reducePow, decodeInstr, decodeB, decodeFcmp, h])

theorem roundTrips_fmv : RoundTrips c (.fmvVg c a b) ∧ RoundTrips c (.fmvGv c a b) ∧
    (∀ (prec : BitVec 3), RoundTrips c (.fclass c prec a b)) ∧ (∀ (prec : BitVec 3), RoundTrips c (.fabs c prec a b)) ∧
    (∀ (prec : BitVec 3), RoundTrips c (.fneg c prec a b)) ∧ (∀ (prec : BitVec 3), RoundTrips c (.fnabs c prec a b)) ∧
    (∀ (prec : BitVec 3) (d : Reg5), RoundTrips c (.fcpys c prec a b d)) := by
  and_intros <;> intros <;> exact .of rfl (.ofT (by omega) (.inr rfl) fun w h => by simp [-Nat.reducePow, decodeInstr, decodeB, decodeFmv, legal, h])

theorem roundTrips_atom : (∀ (f3 : BitVec 3) (f6 : BitVec 6) (a : Reg5) (b : Reg5) (d : Reg5), RoundTrips c (.hatom c f3 f6 a b d)) ∧
    (∀ (a : Reg5), RoundTrips c (.atomBegin c a)) ∧ (∀ (b : Reg5), RoundTrips c (.atomAdd c b)) ∧
    (∀ (a : Reg5), RoundTrips c (.atomCommit c a)) ∧ (∀ (b : Reg5), RoundTrips c (.atomAbort c b)) := by
  and_intros <;> intros <;> exact .of rfl (.ofT (by omega) (.inr rfl) fun w h => by simp [-Nat.reducePow, decodeInstr, decodeB, decodeAtom, legal, h])

theorem roundTrips_fence : RoundTrips c (.fenceLl c) ∧ RoundTrips c (.fenceLs c) ∧ RoundTrips c (.fenceSl c) ∧ RoundTrips c (.fenceSs c) ∧
    RoundTrips c (.fenceFull c) ∧ RoundTrips c (.fenceIo c) ∧ RoundTrips c (.fenceGlobal c) ∧ RoundTrips c (.fenceX c) := by
  and_intros <;> exact .of rfl ⟨rfl, by decide⟩

theorem roundTrips_cache : RoundTrips c (.iflush c) ∧ (∀ (b : Reg5), RoundTrips c (.cclean c b)) ∧
    (∀ (b : Reg5), RoundTrips c (.cflush c b)) ∧ (∀ (b : Reg5), RoundTrips c (.cinval c b)) ∧
    (∀ (b : Reg5), RoundTrips c (.czero c b)) ∧ (∀ (b : Reg5), RoundTrips c (.swclean c b)) ∧
    (∀ (b : Reg5), RoundTrips c (.swflush c b)) := by
  and_intros <;> intros <;> exact .of rfl (.ofT (by omega) (.inr rfl) fun w h => by simp [-Nat.reducePow, decodeInstr, decodeB, decodeCache, legal, h])

theorem roundTrips_tlbi : (∀ (b : Reg5) (d : Reg5), RoundTrips c (.tlbiVa c f3 b d)) ∧
    (∀ (d : Reg5), RoundTrips c (.tlbiSid c f3 d)) ∧ (∀ (d : Reg5), RoundTrips c (.tlbiVm c f3 d)) ∧
    (∀ (b : Reg5) (d : Reg5), RoundTrips c (.tlbiIpa c f3 b d)) ∧ RoundTrips c (.tlbiAll c f3) := by
  and_intros <;> intros <;> exact .of rfl (.ofT (by omega) (.inr rfl) fun w h => by simp [-Nat.reducePow, decodeInstr, decodeB, decodeTlbi, legal, h])

theorem roundTrips_sreg (n : BitVec 12) : RoundTrips c (.srd c a n) ∧ RoundTrips c (.swr c a n) :=
  ⟨.of rfl (.ofSR (f3 := 0) (by omega) fun w h => by simp [-Nat.reducePow, decodeInstr, decodeB, decodeSreg, legal, h]),
    .of rfl (.ofSR (by omega) fun w h => by simp [-Nat.reducePow, decodeInstr, decodeB, decodeSreg, legal, h])⟩

theorem roundTrips_keyGateWait : (∀ (b : Reg5), RoundTrips c (.kdrop c b)) ∧ (∀ (b : Reg5), RoundTrips c (.kdropLo c b)) ∧
    (∀ (b : Reg5), RoundTrips c (.kdropHi c b)) ∧ (∀ (b : Reg5), RoundTrips c (.gate c b)) ∧ RoundTrips c (.gentry c) ∧
    RoundTrips c (.gret c) ∧ RoundTrips c (.gretEv c) ∧ (∀ (a : Reg5) (b : Reg5), RoundTrips c (.wait c a b)) ∧
    (∀ (a : Reg5) (b : Reg5), RoundTrips c (.waitBanked c a b)) ∧ (∀ (a : Reg5) (b : Reg5), RoundTrips c (.waitCold c a b)) := by
  and_intros <;> intros <;> exact .of rfl (.ofT (by omega) (.inr rfl) fun w h => by simp [-Nat.reducePow, decodeInstr, decodeB, decodeKgw, legal, h])

theorem roundTrips_long (imm : BitVec 32) : RoundTrips c (.li c a imm) ∧ RoundTrips c (.liu c a imm) ∧ RoundTrips c (.lih c a imm) ∧
    RoundTrips c (.addiL c a imm) ∧ RoundTrips c (.addpcL c a imm) := by
  and_intros <;> exact .of rfl (.ofL (by omega) fun w h => by simp [-Nat.reducePow, decodeInstr, decode48, decodeLong, legal, h])

theorem roundTrips_longAccess (imm : BitVec 27) : RoundTrips c (.stL c f3 a b imm) ∧
    RoundTrips c (.bccL c f3 a b imm) := by
  and_intros <;> exact .of rfl (.ofLM (by omega) fun w h => by simp [-Nat.reducePow, decodeInstr, decode48, h])

theorem roundTrips_vectorArithmetic : (∀ (f3 : BitVec 3), RoundTrips c (.vint c f3 a b d e msk ew zm f11)) ∧
    (∀ (f3 : BitVec 3), RoundTrips c (.vcmp c f3 a b d e msk ew zm f11)) ∧
    (∀ (f3 : BitVec 3), RoundTrips c (.vfp c f3 a b d e msk ew zm f11)) ∧ RoundTrips c (.vfmadd c a b d e msk ew zm f11) := by
  and_intros <;> intros <;> exact .of rfl (.ofV (by omega) fun w h => by simp [-Nat.reducePow, decodeInstr, decode48, legal, h])

theorem roundTrips_vst (imm : BitVec 16) : RoundTrips c (.vst c f3 a b d msk ew zm imm) :=
  .of rfl (.ofVM (by omega) fun w h => by simp [-Nat.reducePow, decodeInstr, decode48, h])

theorem roundTrips_permute : RoundTrips c (.vperm c a b d e msk ew zm) ∧ RoundTrips c (.vperm2 c a b d e msk ew zm) ∧
    RoundTrips c (.vcompress c a b d e msk ew zm) ∧ RoundTrips c (.vexpand c a b d e msk ew zm) ∧
    RoundTrips c (.vslideup c a b d e msk ew zm) ∧ RoundTrips c (.vslidedn c a b d e msk ew zm) ∧ RoundTrips c (.vrev c a b d e msk ew zm) := by
  and_intros <;> exact .of rfl (.ofV (by omega) fun w h => by simp [-Nat.reducePow, decodeInstr, decode48, decodeVec, legal, h])

theorem roundTrips_column : RoundTrips c (.vunpk c a b d e msk ew zm) ∧ RoundTrips c (.vpack c a b d e msk ew zm) ∧
    RoundTrips c (.vcrc c a b d e msk ew zm) := by
  and_intros <;> exact .of rfl (.ofV (by omega) fun w h => by simp [-Nat.reducePow, decodeInstr, decode48, decodeVec, legal, h])

theorem roundTrips_reduce : RoundTrips c (.vredInt c f11 a b msk ew zm) ∧ RoundTrips c (.vredFp c f11 a b msk ew zm) := by
  refine ⟨.ofIf rfl fun hc => ?_, .ofIf rfl fun hc => ?_⟩ <;> refine .ofV (by omega) fun w h => ?_ <;> simp at hc <;>
    simp [-Nat.reducePow, decodeInstr, decode48, decodeVec, legal, h, hc]
  omega

theorem roundTrips_maskLogic : RoundTrips c (.maskLogic c f11 a b d msk) := by
  refine .ofIf rfl fun hc => .ofV (by omega) fun w h => ?_
  simp only [decide_eq_true_eq] at hc
  simp [-Nat.reducePow, decodeInstr, decode48, decodeVec, legal, h, hc]

theorem roundTrips_mask : RoundTrips c (.mtog c a b msk) ∧ RoundTrips c (.gtom c a b msk) ∧ RoundTrips c (.mpopc c a b msk) ∧
    RoundTrips c (.mfirst c a b msk) := by
  and_intros <;>
    exact .of rfl (.ofV (by omega) fun w h => by simp [-Nat.reducePow, -BitVec.toNat_ofNat, decodeInstr, decode48, decodeVec, legal, h])

theorem roundTrips_vectorMove : (∀ (b : Reg5), RoundTrips c (.vbcastG c a b msk ew zm)) ∧
    (∀ (b : Reg5), RoundTrips c (.vmov c a b msk ew zm)) ∧ RoundTrips c (.vzero c a msk ew zm) := by
  and_intros <;> intros <;> exact .of rfl (.ofV (by omega) fun w h => by simp [-Nat.reducePow, decodeInstr, decode48, decodeVec, legal, h])

theorem roundTrips_lane (ln : BitVec 6) : RoundTrips c (.vins c a b ln msk ew zm) ∧ RoundTrips c (.vext c a b ln msk ew zm) := by
  and_intros <;> exact .of rfl (.ofLane (by omega) fun w h => by simp [-Nat.reducePow, decodeInstr, decode48, decodeVec, legal, h])

/-- A load has words only without an array error. -/
theorem load_eta {x : LdCore} (h : decide (x.err = 0) = true) : x = ⟨x.c, 0⟩ := by
  obtain ⟨c, err⟩ := x
  obtain rfl : err = 0 := of_decide_eq_true h
  rfl

theorem roundTrips_cLdk (x : LdCore) (imm : BitVec 5) : RoundTrips x.c (.cLdk x a imm) :=
  .ofIf rfl fun hc => .ofCR (by omega) fun w h => by simpa [-Nat.reducePow, decodeInstr, decode16, h] using (load_eta hc).symm

theorem roundTrips_ldx (x : LdCore) : RoundTrips x.c (.ldx x f3 f6 a b d) :=
  .ofIf rfl fun hc => .ofT (by omega) (.inl rfl) fun w h => by simpa [-Nat.reducePow, decodeInstr, decodeA, h] using (load_eta hc).symm

theorem roundTrips_lda (x : LdCore) (imm : BitVec 11) : RoundTrips x.c (.lda x f3 a b imm) :=
  .ofIf rfl fun hc => .ofM (by omega) fun w h => by simpa [-Nat.reducePow, decodeInstr, decodeA, h] using (load_eta hc).symm

theorem roundTrips_ldL (x : LdCore) (imm : BitVec 27) : RoundTrips x.c (.ldL x f3 a b imm) :=
  .ofIf rfl fun hc => .ofLM (by omega) fun w h => by simpa [-Nat.reducePow, decodeInstr, decode48, h] using (load_eta hc).symm

theorem roundTrips_vld (x : LdCore) (imm : BitVec 16) : RoundTrips x.c (.vld x f3 a b d msk ew zm imm) :=
  .ofIf rfl fun hc => .ofVM (by omega) fun w h => by simpa [-Nat.reducePow, decodeInstr, decode48, h] using (load_eta hc).symm

theorem roundTrips_ld (imm : BitVec 11) (err : Nat) : RoundTrips c (.ld c f3 a b imm err) :=
  .ofIf rfl fun hc => .ofM (by omega) fun w h => by simpa [-Nat.reducePow, decodeInstr, decodeA, h] using (of_decide_eq_true hc).symm

end

theorem roundTrips_of_no_words {c : Nat} {i : Instr} (he : encodeInstr i = none) : RoundTrips c i := by
  intro w hw
  rw [he] at hw
  cases hw

/-- Every command of core `c` that is an instruction round-trips; those of the command table that stand for one register of SRD and SWR have
no words. -/
theorem roundTrips_of_instrCore {c : Nat} {i : Instr} (hi : instrCore i = some c) : RoundTrips c i := by
  cases i
  all_goals cases hi
  case swrAuth | swrKrights | swrTcmp | swrXlatctl | swrPmsel | pmdataRead => exact roundTrips_of_no_words rfl
  all_goals simp only [roundTrips_cr, roundTrips_ci, roundTrips_cMov, roundTrips_cJ, roundTrips_cFixed, roundTrips_int, roundTrips_immOp,
    roundTrips_addiw, roundTrips_upper, roundTrips_shiftImm, roundTrips_bitField, roundTrips_decimal, roundTrips_access, roundTrips_stx,
    roundTrips_cLdk, roundTrips_ldx, roundTrips_lda, roundTrips_ldL, roundTrips_vld, roundTrips_ld, roundTrips_bcc, roundTrips_jump,
    roundTrips_jumpRegister, roundTrips_farith, roundTrips_fcvt, roundTrips_quad, roundTrips_fcmp, roundTrips_fmv, roundTrips_atom,
    roundTrips_fence, roundTrips_cache, roundTrips_tlbi, roundTrips_sreg, roundTrips_keyGateWait, roundTrips_long, roundTrips_longAccess,
    roundTrips_vectorArithmetic, roundTrips_vst, roundTrips_permute, roundTrips_column, roundTrips_reduce, roundTrips_maskLogic,
    roundTrips_mask, roundTrips_vectorMove, roundTrips_lane]

/-! ### What decodes is a command of the core that has words -/

/-- What a decoder answers: nothing, or a command of core `c` that has words. -/
inductive HasWords (c : Nat) : Option Instr → Prop
  | nothing : HasWords c none
  | command {i : Instr} (core : instrCore i = some c) (words : (encodeInstr i).isSome = true) : HasWords c (some i)

theorem words_of_if {i : Instr} {w : Nat} {p : Prop} [Decidable p] (he : encodeInstr i = if p then some w else none) (h : p) :
    (encodeInstr i).isSome = true := by
  rw [he, if_pos h]
  rfl

section
variable (c w : Nat)

theorem decode16_hasWords : HasWords c (decode16 c w) := by
  unfold decode16
  simp only [legal]
  repeat' split
  all_goals constructor
  case h_1.isFalse.isTrue.words ha hb => exact words_of_if rfl (by simpa using And.intro ha (of_decide_eq_true hb))
  all_goals rfl

theorem decodeInt_hasWords : HasWords c (decodeInt c w) := by
  simp only [decodeInt]
  split
  next h => exact .command rfl (words_of_if rfl (by simpa using h))
  next hd =>
    split
    next h => exact .command rfl (words_of_if rfl (by simpa using h))
    next h => exact .command rfl (words_of_if rfl (by simp; omega))

theorem decodeBf_hasWords : HasWords c (decodeBf c w) := by
  unfold decodeBf
  split
  all_goals constructor
  all_goals rfl

theorem decodeDec_hasWords : HasWords c (decodeDec c w) := by
  unfold decodeDec
  simp only [legal]
  repeat' split
  all_goals constructor
  all_goals rfl

theorem decodeJr_hasWords : HasWords c (decodeJr c w) := by
  unfold decodeJr
  simp only [legal]
  repeat' split
  all_goals constructor
  all_goals rfl

theorem decodeA_hasWords : HasWords c (decodeA c w) := by
  unfold decodeA
  simp only [legal]
  repeat' split
  case h_1 => exact decodeInt_hasWords c w
  case h_12 => exact decodeBf_hasWords c w
  case h_14 => exact decodeDec_hasWords c w
  case h_25 => exact decodeJr_hasWords c w
  all_goals constructor
  all_goals rfl

theorem decodeFarith_hasWords : HasWords c (decodeFarith c w) := by
  unfold decodeFarith
  simp only [legal]
  repeat' split
  all_goals constructor
  all_goals rfl

theorem decodeFcmp_hasWords : HasWords c (decodeFcmp c w) := by
  unfold decodeFcmp
  split
  all_goals constructor
  all_goals rfl

theorem decodeFmv_hasWords : HasWords c (decodeFmv c w) := by
  unfold decodeFmv
  simp only [legal]
  repeat' split
  all_goals constructor
  all_goals rfl

theorem decodeAtom_hasWords : HasWords c (decodeAtom c w) := by
  unfold decodeAtom
  simp only [legal]
  repeat' split
  all_goals constructor
  all_goals rfl

theorem decodeFence_hasWords : HasWords c (decodeFence c w) := by
  unfold decodeFence
  simp only [legal]
  repeat' split
  all_goals constructor
  all_goals rfl

theorem decodeCache_hasWords : HasWords c (decodeCache c w) := by
  unfold decodeCache
  simp only [legal]
  repeat' split
  all_goals constructor
  all_goals rfl

theorem decodeTlbi_hasWords : HasWords c (decodeTlbi c w) := by
  unfold decodeTlbi
  simp only [legal]
  repeat' split
  all_goals constructor
  all_goals rfl

theorem decodeSreg_hasWords : HasWords c (decodeSreg c w) := by
  unfold decodeSreg
  simp only [legal]
  repeat' split
  all_goals constructor
  all_goals rfl

theorem decodeKgw_hasWords (g : Nat) : HasWords c (decodeKgw c w g) := by
  unfold decodeKgw
  simp only [legal]
  repeat' split
  all_goals constructor
  all_goals rfl

theorem decodeB_hasWords : HasWords c (decodeB c w) := by
  unfold decodeB
  split
  case h_1 => exact decodeFarith_hasWords c w
  case h_3 => exact decodeFcmp_hasWords c w
  case h_5 => exact decodeFmv_hasWords c w
  case h_8 => exact decodeAtom_hasWords c w
  case h_9 => exact decodeFence_hasWords c w
  case h_10 => exact decodeCache_hasWords c w
  case h_11 => exact decodeTlbi_hasWords c w
  case h_12 => exact decodeSreg_hasWords c w
  case h_13 | h_14 | h_15 => exact decodeKgw_hasWords c w _
  all_goals constructor
  all_goals rfl

theorem decodeLong_hasWords : HasWords c (decodeLong c w) := by
  unfold decodeLong
  split
  all_goals constructor
  all_goals rfl

theorem decodeVec_hasWords (g : Nat) : HasWords c (decodeVec c w g) := by
  unfold decodeVec
  simp only [legal]
  repeat' split
  all_goals constructor
  case h_3.isTrue.isTrue.words h _ => exact words_of_if rfl (decide_eq_true h)
  case h_3.isFalse.isTrue.isTrue.words h _ => exact words_of_if rfl (by simpa using h)
  case h_4.isTrue.isTrue.words h _ => exact words_of_if rfl (decide_eq_true h)
  all_goals rfl

theorem decode48_hasWords : HasWords c (decode48 c w) := by
  unfold decode48
  simp only [legal]
  repeat' split
  case h_1 => exact decodeLong_hasWords c w
  case h_12 | h_13 | h_14 | h_15 | h_16 => exact decodeVec_hasWords c w _
  all_goals constructor
  all_goals rfl

/-- Whatever decodes is a command of the core that has words of its own. -/
theorem decodeInstr_hasWords : HasWords c (decodeInstr c w) := by
  unfold decodeInstr
  split
  · exact decode16_hasWords c w
  · exact decodeA_hasWords c w
  · exact decodeB_hasWords c w
  · exact decode48_hasWords c w

end

/-- Settles O59: every instruction's words round-trip, and every decoder answers commands that have words. -/
theorem decoding_inverts_encoding : Obligations.decoding_inverts_encoding := by
  refine fun c w i => ⟨fun hi => roundTrips_of_instrCore hi w, fun hd => ?_⟩
  have hw := decodeInstr_hasWords c w
  rw [hd] at hw
  obtain _ | ⟨hi, hs⟩ := hw
  obtain ⟨w', he⟩ := Option.isSome_iff_exists.1 hs
  exact ⟨hi, w', he, (roundTrips_of_instrCore hi w' he).1⟩

end Sys2Proof.Machine

/-! ## Jumps and branches (R64, R65) -/

namespace Sys2Proof.Machine

/-- Bit 0 says whether a target is odd. -/
theorem getLsbD_zero_eq {w : Nat} (x : BitVec w) : x.getLsbD 0 = decide (x.toNat % 2 = 1) := by
  simp [BitVec.getLsbD]

/-- A target's offset counts halfwords. -/
theorem State.target2_eq {s : State} {c n : Nat} (imm : BitVec n) : s.target2 c imm = s.pc c + imm.signExtend 64 * 2 := by
  unfold State.target2 sx
  rw [BitVec.shiftLeft_eq_mul_twoPow]
  rfl

/-- The conditions of R65, on the operands as numbers. -/
def condHolds (f3 : BitVec 3) (x y : Word) : Bool :=
  match f3.toNat with
  | 0 => decide (x = y) | 1 => decide (x ≠ y) | 2 => decide (x.toInt < y.toInt) | 3 => decide (y.toInt ≤ x.toInt)
  | 4 => decide (x.toNat < y.toNat) | 5 => decide (y.toNat ≤ x.toNat) | 6 => decide (x &&& y ≠ 0) | _ => decide (x &&& y = 0)

theorem cond_eq_condHolds (f3 : BitVec 3) (x y : Word) : cond f3 x y = condHolds f3 x y := by
  have hle : (!x.slt y) = decide (y.toInt ≤ x.toInt) := by rw [BitVec.slt, ← decide_not, decide_eq_decide, Int.not_lt]
  have hleu : (!x.ult y) = decide (y.toNat ≤ x.toNat) := by rw [BitVec.ult, ← decide_not, decide_eq_decide, Nat.not_lt]
  unfold cond condHolds
  rw [hle, hleu] <;> rfl

section
variable {s s0 : State} {c kind len : Nat} {taken : Bool} {t ret : Word}

/-- A transfer that finds a free checkpoint, or needs none, goes on to its target or past the instruction (R215). -/
theorem State.transfer_of_room (h : (s.nopred c || !(s.core c).pred.full kind) = true) :
    ∃ u, s.transfer c kind len taken t ret = .ok (if taken then t else ret) u := by
  have hroom : ¬(!s.nopred c && (s.core c).pred.full kind) = true := by
    rw [Bool.not_eq_true, ← Bool.not_eq_true', Bool.not_and, Bool.not_not]
    exact h
  exact ⟨_, if_neg hroom⟩

/-- A transfer with an even target is not checked further (R46). -/
theorem State.goto_of_even (h : taken = true → t.toNat % 2 = 0) :
    s.goto c kind len taken t = s.transfer c kind len taken t (s.nextPc c len) := by
  have heven : (taken && t.getLsbD 0) = false := by
    rw [getLsbD_zero_eq, Bool.and_eq_false_imp, decide_eq_false_iff_not]
    exact fun ht => by have := h ht; omega
  rw [State.goto, heven]
  rfl

/-- A transfer that would be taken to an odd target raises MISALIGNED (R46). -/
theorem State.goto_of_odd (ht : taken = true) (h : t.toNat % 2 = 1) : s.goto c kind len taken t = badTarget s c t := by
  rw [State.goto, ht, getLsbD_zero_eq, decide_eq_true h]
  rfl

/-- What an instruction that is a transfer does: it retires at its target or past itself, or raises MISALIGNED at the target. -/
theorem State.Fetched.next_goto {i : Instr} {body : State → Res Word} (h : s.Fetched c len s0) (hi : exec i s = .next (s.instr c len body))
    (hb : body s0 = s0.goto c kind len taken t) :
    ((taken = true → t.toNat % 2 = 0) → (s0.nopred c || !(s0.core c).pred.full kind) = true →
      ∃ u : State, s0.transfer c kind len taken t (s0.nextPc c len) = .ok (if taken then t else s0.nextPc c len) u ∧
        exec i s = .next ((u.retireInstr c (if taken then t else s0.nextPc c len)).getD s)) ∧
    (taken = true → t.toNat % 2 = 1 →
      exec i s = .next ((s0.takes c { cause := 0x0101, rpc := s0.pc c, epc := s0.pc c, evaddr := t }).getD s)) := by
  refine ⟨fun heven hroom => ?_, fun ht hodd => ?_⟩
  · obtain ⟨u, hu⟩ := State.transfer_of_room (len := len) (taken := taken) (t := t) (ret := s0.nextPc c len) hroom
    exact ⟨u, hu, h.next_retires hi ((hb.trans (State.goto_of_even heven)).trans hu)⟩
  · exact h.next_takes hi (hb.trans (State.goto_of_odd ht hodd)) (by simp [haltCause])

end

/-- Settles O18: each instruction is a transfer, by `State.Fetched.next_goto`. -/
theorem branch_results : Obligations.branch_results := by
  intro c f3 a b d s s0
  refine ⟨fun h => ⟨fun imm => ?bcc, fun imm => ?jmp, h.next_goto rfl rfl⟩, fun h imm => ?bccL,
    fun h => ⟨fun imm => ⟨?beqz, ?bnez⟩, fun imm => ?cj⟩⟩
  case bcc => exact h.next_goto (taken := condHolds f3 _ _) rfl (by simp only [cond_eq_condHolds, State.target2_eq])
  case bccL => exact h.next_goto (taken := condHolds f3 _ _) rfl (by simp only [cond_eq_condHolds, State.target2_eq])
  case jmp => exact h.next_goto rfl (by simp only [State.target2_eq])
  case beqz => exact h.next_goto rfl (by simp only [State.target2_eq])
  case bnez => exact h.next_goto rfl (by simp only [State.target2_eq])
  case cj => exact h.next_goto rfl (by simp only [State.target2_eq])

end Sys2Proof.Machine

/-! ## Calls, returns, TRAP and BRK (R66, R67) -/

namespace Sys2Proof.Machine

/-! ### What an access counts (R188) -/

/-- An access that is answered and crosses a line is counted besides. -/
theorem Res.crossing_ok {α : Type} (a : α) (s : State) (c : Nat) (va : Word) (n : Nat) :
    (Res.ok a s).crossing c va n = .ok a (s.crossCounted c va n) := by
  unfold Res.crossing State.crossCounted
  split <;> rfl

/-- An access that raises an event counts nothing. -/
theorem Res.crossing_ev {α : Type} (e : Ev) (s : State) (c : Nat) (va : Word) (n : Nat) :
    (Res.ev e s : Res α).crossing c va n = .ev e s := ite_self _

/-! ### The shadow stack -/

theorem not_odd_of_even {t : Word} (h : t.toNat % 2 = 0) : ¬t.getLsbD 0 = true := by
  rw [getLsbD_zero_eq, decide_eq_true_eq, h]
  exact Nat.zero_ne_one

section
variable {s s0 s1 u : State} {c kind len : Nat} {b : Reg5} {t : Word} {e : List Byte}

/-- A system register set leaves the pc. -/
theorem State.pc_setSr (s : State) (c n : Nat) (v : Word) : (s.setSr c n v).pc c = s.pc c := by
  simp only [State.setSr]
  split <;> split
  · rfl
  all_goals simp [State.pc]

theorem State.nextPc_setSr (s : State) (c n len : Nat) (v : Word) : (s.setSr c n v).nextPc c len = s.nextPc c len := by
  simp only [State.nextPc, State.pc_setSr]

/-- A call to an even target whose push is performed. -/
theorem State.call_of_even (ht : t.toNat % 2 = 0)
    (hp : s.store c Acc.push (s.sr c SR.SSP - 8) (leBytes 8 (s.nextPc c 4).toNat) false false = .ok () s1)
    (hu : ((s1.setSr c SR.SSP (s.sr c SR.SSP - 8)).setG c 26 (s.nextPc c 4)).transfer c kind 4 true t (s.nextPc c 4) = .ok t u) :
    s.call c kind t = .ok t (u.countC c 4) := by
  simp only [State.call, if_neg (not_odd_of_even ht), State.push, hp, Res.bind, hu]
  rfl

/-- A return whose register equals the shadow stack's entry, an even address. -/
theorem State.ret_of_match (ht : t = s.g c b) (hl : s.loadRaw c Acc.pop (s.sr c SR.SSP) 8 = .ok e s1) (he : BitVec.ofNat 64 (leNat e) = t)
    (heven : t.toNat % 2 = 0)
    (hu : (s1.setSr c SR.SSP (s.sr c SR.SSP + 8)).transfer c 5 len true t ((s1.setSr c SR.SSP (s.sr c SR.SSP + 8)).nextPc c len) = .ok t u) :
    s.ret c len b = .ok t ((u.crossCounted c (s.sr c SR.SSP) 8).countC c 4) := by
  rw [State.nextPc_setSr] at hu
  unfold State.ret
  simp only [hl, Res.bind, ← ht, he, ne_eq, not_true, if_false, if_neg (not_odd_of_even heven), hu, Res.crossing_ok]
  rfl

/-- A return whose register does not raises CONTROL_FLOW. -/
theorem State.ret_of_mismatch (hl : s.loadRaw c Acc.pop (s.sr c SR.SSP) 8 = .ok e s1) (he : BitVec.ofNat 64 (leNat e) ≠ s.g c b) :
    s.ret c len b = .ev (faultEv s1 c 0x0201) s1 := by
  unfold State.ret
  simp only [hl, Res.bind, if_pos he, Res.crossing_ev]
  rfl

/-- A barrier with no arithmetic exception pending goes on (R86). -/
theorem barrier_of_quiet {α : Type} {k : State → Res α} (h : (s.sr c SR.FPSTAT).getLsbD 8 = false) : barrier s c k = k s :=
  if_neg (by rw [h]; exact Bool.false_ne_true)

/-- A trap that is a barrier, with no arithmetic exception pending, raises its event. -/
theorem State.Fetched.next_trap {i : Instr} {body : State → Res Word} {ev : Ev} (h : s.Fetched c len s0)
    (hq : (s0.sr c SR.FPSTAT).getLsbD 8 = false) (hi : exec i s = .next (s.instr c len body))
    (hb : body s0 = barrier s0 c (fun s => .ev ev s)) (he : ev.cause ≠ haltCause) : exec i s = .next ((s0.takes c ev).getD s) :=
  h.next_takes hi (hb.trans (barrier_of_quiet hq)) he

end

/-- Settles O19: calls, returns and traps by the lemmas above. -/
theorem call_return_trap_results : Obligations.call_return_trap_results := by
  refine ⟨fun c b s s0 s1 u t => ⟨?call, ?callr, ?ret, ?cRet⟩, fun c s s0 hq => ⟨fun h => ⟨?trap, ?brk⟩, ?cBrk⟩⟩
  case call =>
    rintro imm h rfl heven ⟨hp, hu⟩
    exact h.next_retires rfl ((congrArg _ (State.target2_eq imm)).trans (State.call_of_even heven hp hu))
  case callr =>
    rintro h rfl heven ⟨hp, hu⟩
    exact h.next_retires rfl (State.call_of_even heven hp hu)
  case ret =>
    intro e h ht hl
    exact ⟨fun he heven hu => h.next_retires rfl (State.ret_of_match ht hl he heven hu),
      fun he => h.next_takes rfl (State.ret_of_mismatch hl (ht ▸ he)) (by simp [haltCause])⟩
  case cRet =>
    intro e h ht hl he heven hu
    exact h.next_retires rfl (State.ret_of_match ht hl he heven hu)
  case trap =>
    intro imm himm
    exact h.next_trap hq rfl (if_neg (Nat.not_le.2 himm)) (by simp [haltCause])
  case brk => exact h.next_trap hq rfl (if_neg (by simp)) (by simp [haltCause])
  case cBrk => exact fun h => h.next_trap hq rfl rfl (by simp [haltCause])

end Sys2Proof.Machine

/-! ## Fences (R89, R94, R95) -/

namespace Sys2Proof.Machine

section
variable {s s0 s1 : State} {c kind : Nat} {ok : State → Bool}

/-- A fence with every earlier store performed, its condition met and no machine check left is done. -/
theorem State.fence_of_done (hd : s.drain c = some s1) (hok : ok s1 = true) (hm : (s1.core c).mchk = []) :
    s.fence c kind ok = done4 ((s1.updCore c (fun k => { k with fence := none })).countC c (154 + kind)) c := by
  simp [State.fence, hd, hok, hm]

/-- A fence with a store that must wait waits. -/
theorem State.fence_of_waiting (hd : s.drain c = none) :
    s.fence c kind ok = .park (s.updCore c (fun k => { k with fence := some kind })) := by
  simp [State.fence, hd]

/-- Outside a region an instruction that no region allows goes on. -/
theorem noRegion_of_none {k : State → Res Word} (h : (s.core c).region = none) : noRegion s c k = k s :=
  if_neg (by simp [h])

end

/-- Settles O23: each fence is done, waits or fails, by the lemmas above. -/
theorem fence_results : Obligations.fence_results := by
  refine ⟨fun c s s0 s1 => ⟨fun h => ⟨h.next_retires rfl rfl, h.next_retires rfl rfl, h.next_retires rfl rfl,
    fun hd hm => ⟨?sl, ?full, ?io, ?global⟩,
    ?x⟩, ?cx⟩, fun c s s0 => ⟨?waits, ?timeout, ?posted⟩⟩
  case sl => exact h.next_retires rfl (State.fence_of_done hd rfl hm)
  case full => exact h.next_retires rfl (State.fence_of_done hd rfl hm)
  case io => exact fun hr => h.next_retires rfl ((noRegion_of_none hr).trans (State.fence_of_done hd rfl hm))
  case global =>
    intro hr ht hv
    exact h.next_retires rfl ((noRegion_of_none hr).trans (State.fence_of_done hd (by simp [ht, hv]) hm))
  case x => exact fun hq => h.next_retires rfl (barrier_of_quiet hq)
  case cx => exact fun h hq => h.next_retires rfl (barrier_of_quiet hq)
  case waits => exact fun h hd => congrArg _ (h.parks (State.fence_of_waiting hd) (by simp))
  case timeout =>
    intro e t hrun hf ha hq
    change execFenceRecoveryTimeout c s = _
    simp [execFenceRecoveryTimeout, hrun, hf, ha, hq, faultEv]
  case posted =>
    intro x hx
    change execPostedAtomicFailed c s = _
    simp only [execPostedAtomicFailed, hx]

end Sys2Proof.Machine

/-! ## Scalar loads and stores (R60, R61) -/

namespace Sys2Proof.Machine

section
variable {s s' s0 s1 : State} {c len err n : Nat} {a : Reg5} {va : Word} {bs : List Byte} {sg : Bool} {f3 : BitVec 3} {rel : Bool}

/-- What a granted load of `n` bytes leaves: its register written with the bytes read, and a crossed line counted. -/
def State.loaded (s1 : State) (c : Nat) (a : Reg5) (va : Word) (n : Nat) (bs : List Byte) (sg : Bool) : State :=
  (s1.setG c a (extend bs sg)).crossCounted c va n

theorem State.loadReg_of_loads (h : s.Loads c va n bs s1) : s.loadReg c len a va n sg = .ok (s1.nextPc c len) (s1.loaded c a va n bs sg) := by
  obtain ⟨ps, sa, sb, hacc, hheld, hdev, hread⟩ := h
  simp only [State.loadReg, hacc, Res.bind, hheld, hdev, hread, Res.crossing_ok]
  rfl

/-- A load whose array error leaves a load that is granted. -/
theorem State.loadMet_of_loads (h : s.LoadsMet c len err va n bs s1) :
    s.loadMet c len err a va n sg = .ok (s1.nextPc c len) (s1.loaded c a va n bs sg) := by
  obtain ⟨sa, herr, hl⟩ := h
  simp only [State.loadMet, herr, Res.bind, State.loadReg_of_loads hl]

theorem State.storeReg_of_stored (h : s.store c Acc.store va (leBytes n (s.g c a).toNat) false rel = .ok () s1) :
    s.storeReg c len a va n rel = .ok (s1.nextPc c len) s1 := by
  simp only [State.storeReg, h, Res.bind]

theorem aligned_of_mod (h : va.toNat % n = 0) : ¬(!aligned va n) = true := by simp [aligned, h]

end

/-- Settles O17: loads by `State.loadMet_of_loads`, stores by `State.storeReg_of_stored`. -/
theorem load_and_store_results : Obligations.load_and_store_results := by
  refine ⟨fun c err f3 a b d n sg bs s s0 s1 hw => ⟨?ld, ?ldL, ?ldx, ?lda, ?cLdk⟩,
    fun c f3 a b d n s s0 s1 hw => ⟨?st, ?stL, ?stx, ?stl, ?cStk, ?pref⟩⟩
  case ld =>
    intro imm va h hl
    exact h.next_retires rfl (by simp only [hw]; exact State.loadMet_of_loads hl)
  case ldL =>
    intro imm va h hl
    exact h.next_retires rfl (by simp only [hw]; exact State.loadMet_of_loads hl)
  case ldx =>
    intro f6 va hf h hl
    exact h.next_retires rfl (by simp only [hw, if_neg (Nat.not_le.2 hf)]; exact State.loadMet_of_loads hl)
  case lda =>
    intro imm s' va h ha hd hl
    refine h.next_retires rfl ?_
    simp only [hw]
    refine (if_neg (aligned_of_mod ha)).trans ?_
    rw [hd]
    exact congrArg (Res.counted · c 152 1) (State.loadMet_of_loads hl)
  case cLdk => exact fun imm h hl => h.next_retires rfl (State.loadMet_of_loads hl)
  case st => exact fun imm h hs => h.next_retires rfl (by simp only [hw]; exact State.storeReg_of_stored hs)
  case stL => exact fun imm h hs => h.next_retires rfl (by simp only [hw]; exact State.storeReg_of_stored hs)
  case stx =>
    intro f6 hf h hs
    exact h.next_retires rfl (by simp only [hw, if_neg (Nat.not_le.2 hf)]; exact State.storeReg_of_stored hs)
  case stl =>
    intro imm h ha hs
    refine h.next_retires rfl ?_
    simp only [hw]
    exact (if_neg (aligned_of_mod ha)).trans (congrArg (Res.counted · c 153 1) (State.storeReg_of_stored hs))
  case cStk => exact fun imm h hs => h.next_retires rfl (State.storeReg_of_stored hs)
  case pref => exact fun hint imm h => h.next_retires rfl (if_neg (by simp))

end Sys2Proof.Machine

/-! ## Hearth atomics (R82, R83) -/

namespace Sys2Proof.Machine

section
variable {s s0 s1 : State} {c pa h n : Nat} {a b d e : Reg5} {va : Word} {f : Nat → Option Nat}

/-- What an atomic whose result is `new` leaves: memory at its address written at the home, the old value in its register, and the counter of
those that answer or are posted. -/
def State.atomicDone (s1 : State) (c h pa n : Nat) (a : Reg5) (new : Nat) : State :=
  ((s1.hatApply h (lineOf pa) pa (leBytes n new)).setG c a (BitVec.ofNat 64 (memNat s1.mem pa n))).countC c (if a = 0 then 164 else 163)

/-- An aligned atomic that is granted, on a clean line, applies its operation to the old value. -/
theorem State.hatom_of_lineAt (ha : va.toNat % n = 0) (hl : s.LineAt c Acc.atomic va n false pa h s1) (hb : s1.badLine pa = false) :
    s.hatom c a va n f = .ok ((s1.hatApply h (lineOf pa) pa (leBytes n ((f (memNat s1.mem pa n)).getD (memNat s1.mem pa n)))).nextPc c 4)
      (s1.atomicDone c h pa n a ((f (memNat s1.mem pa n)).getD (memNat s1.mem pa n))) := by
  obtain ⟨s', s'', hacc, hdrain, ⟨o, htarget⟩, hheld, hgate, hwait, rfl⟩ := hl
  have ht : s''.target (coreSock c) pa = .dram h o ∨ s''.target (coreSock c) pa = .cxl h o := htarget.imp And.right And.right
  have hfree : ¬(s''.heldByOther c (lineOf pa) || !s''.gateOpen c || s''.homeWaits (coreSock c) h (lineOf pa)) = true := by
    simp [hheld, hgate, hwait]
  rw [State.hatom, if_neg (aligned_of_mod ha), hacc]
  cases hf : f (memNat (s''.gatePass c h).mem pa n) <;> obtain ht | ht := ht <;>
    simp only [Res.bind, hdrain, ht, if_neg hfree, hb, hf, Option.getD_some, Option.getD_none] <;> rfl

/-- An instruction that is an atomic, outside a region, completes with its operation's result. -/
theorem State.Fetched.next_hatom {i : Instr} {body : State → Res Word} {new : Nat} (hf : s.Fetched c 4 s0) (hr : (s0.core c).region = none)
    (ha : va.toNat % n = 0) (hl : s0.LineAt c Acc.atomic va n false pa h s1) (hb : s1.badLine pa = false)
    (hi : exec i s = .next (s.instr c 4 body)) (hbody : body s0 = noRegion s0 c (fun s => s.hatom c a va n f))
    (hnew : (f (memNat s1.mem pa n)).getD (memNat s1.mem pa n) = new) :
    exec i s = .next (((s1.atomicDone c h pa n a new).retireInstr c
      ((s1.hatApply h (lineOf pa) pa (leBytes n new)).nextPc c 4)).getD s) := by
  subst hnew
  exact hf.next_retires hi ((hbody.trans (noRegion_of_none hr)).trans (State.hatom_of_lineAt ha hl hb))

/-- The operation and size that F6 of HATOM names: bits 4 to 1 and bit 5. -/
theorem execHatom_body {f6 : BitVec 6} {op : Nat} (hop : natBits f6.toNat 4 1 = op) (hlegal : op ≤ 8) (h0 : f6.getLsbD 0 = false)
    (hn : (if f6.getLsbD 5 then 8 else 4) = n) :
    exec (.hatom c 0 f6 a b d) s = .next (s.instr c 4 (fun s => noRegion s c (fun s =>
      s.hatom c a (s.g c b) n (fun old => some (hatOp op n old ((s.g c d).toNat % 2 ^ (8 * n))))))) := by
  change execHatom c 0 f6 a b d s = _
  simp only [execHatom, hop, h0, hn, decide_eq_false (Nat.not_lt.2 hlegal)]
  rfl

end

/-- Settles O20: each operation is a row of `hatOp`, done by `State.hatom_of_lineAt`. -/
theorem hearth_atomic_results : Obligations.hearth_atomic_results := by
  intro c pa h a b d e s s0 s1 hf hr hb
  refine ⟨fun n k hk ha hl => ?hatom, fun n f1 hk ha hl => ?hcas⟩
  case hatom =>
    have op (f6 : BitVec 6) (o : Nat) (hop : natBits f6.toNat 4 1 = o) (hlegal : o ≤ 8) (h0 : f6.getLsbD 0 = false)
        (hn : (if f6.getLsbD 5 then 8 else 4) = n) :=
      hf.next_hatom hr ha hl hb (execHatom_body (a := a) (b := b) (d := d) hop hlegal h0 hn) rfl rfl
    obtain ⟨rfl, rfl⟩ | ⟨rfl, rfl⟩ := hk
    · exact ⟨op _ 0 rfl (by decide) rfl rfl, op _ 1 rfl (by decide) rfl rfl, op _ 2 rfl (by decide) rfl rfl, op _ 3 rfl (by decide) rfl rfl,
        op _ 4 rfl (by decide) rfl rfl, op _ 5 rfl (by decide) rfl rfl, op _ 6 rfl (by decide) rfl rfl, op _ 7 rfl (by decide) rfl rfl,
        op _ 8 rfl (by decide) rfl rfl⟩
    · exact ⟨op _ 0 rfl (by decide) rfl rfl, op _ 1 rfl (by decide) rfl rfl, op _ 2 rfl (by decide) rfl rfl, op _ 3 rfl (by decide) rfl rfl,
        op _ 4 rfl (by decide) rfl rfl, op _ 5 rfl (by decide) rfl rfl, op _ 6 rfl (by decide) rfl rfl, op _ 7 rfl (by decide) rfl rfl,
        op _ 8 rfl (by decide) rfl rfl⟩
  case hcas =>
    have cas (old x y : Nat) : (if old = x then some y else none).getD old = if old = x then y else old := by split <;> rfl
    obtain ⟨rfl, rfl⟩ | ⟨rfl, rfl⟩ := hk <;> exact hf.next_hatom hr ha hl hb rfl rfl (cas _ _ _)

end Sys2Proof.Machine

/-! ## Scalar floating point (R68-R72) -/

namespace Sys2Proof.Machine

/-! ### Formats and signs -/

/-- Every format has a sign bit. -/
theorem fmtOf_width {code : Nat} {f : Fmt} (h : fmtOf code = some f) : f.w - 1 + 1 = f.w := by
  unfold fmtOf at h
  split at h <;> cases h <;> rfl

/-- A number with bit `k` replaced: what lies above it, what lies below it, and the new bit. -/
theorem natSetBits_bit (x k v : Nat) (hv : v < 2) :
    natSetBits x k 1 v = 2 ^ (k + 1) * (x / 2 ^ (k + 1)) + (x % 2 ^ k + v * 2 ^ k) := by
  have hq := Nat.div_add_mod x (2 ^ k)
  have hq2 := Nat.div_add_mod (x / 2 ^ k) 2
  have hsub : x - x / 2 ^ k % 2 * 2 ^ k = 2 ^ (k + 1) * (x / 2 ^ k / 2) + x % 2 ^ k := by
    rw [Nat.sub_eq_iff_eq_add (Nat.le_trans (Nat.mul_le_mul_right _ (Nat.mod_le _ _)) (Nat.div_mul_le_self _ _))]
    calc x = 2 ^ k * (x / 2 ^ k) + x % 2 ^ k := hq.symm
      _ = 2 ^ k * (2 * (x / 2 ^ k / 2) + x / 2 ^ k % 2) + x % 2 ^ k := by rw [hq2]
      _ = 2 ^ (k + 1) * (x / 2 ^ k / 2) + x % 2 ^ k + x / 2 ^ k % 2 * 2 ^ k := by ring
  rw [natSetBits_field x k v Nat.one_pos, Nat.pow_one, Nat.mod_eq_of_lt hv, hsub, Nat.div_div_eq_div_mul, ← Nat.pow_succ, Nat.add_assoc]

/-- A number cut to `k + 1` bits, its top bit replaced. -/
theorem natSetBits_top (x k v : Nat) (hv : v < 2) : natSetBits x k 1 v % 2 ^ (k + 1) = x % 2 ^ (k + 1) % 2 ^ k + v * 2 ^ k := by
  have hlt : x % 2 ^ k + v * 2 ^ k < 2 ^ (k + 1) := by
    have := Nat.mod_lt x (Nat.two_pow_pos k)
    have := Nat.mul_le_mul_right (2 ^ k) (Nat.le_of_lt_succ hv)
    rw [Nat.pow_succ]
    omega
  rw [natSetBits_bit x k v hv, Nat.mul_add_mod, Nat.mod_eq_of_lt hlt, Nat.mod_mod_of_dvd x (Nat.pow_dvd_pow 2 (Nat.le_succ k))]

/-- A number of `k + 1` bits with its top bit replaced. -/
theorem natSetBits_top_of_lt {x k : Nat} (v : Nat) (hx : x < 2 ^ (k + 1)) (hv : v < 2) : natSetBits x k 1 v = x % 2 ^ k + v * 2 ^ k := by
  rw [natSetBits_bit x k v hv, Nat.div_eq_of_lt hx, Nat.mul_zero, Nat.zero_add]

/-- An operand of format `f` with its sign set to `h`. -/
def Fmt.signed (f : Fmt) (x : Nat) (h : Bool) : Vec := BitVec.ofNat 512 (x % 2 ^ (f.w - 1) + (if h then 2 ^ (f.w - 1) else 0))

section
variable {f : Fmt} {code : Nat}

theorem signed_eq (x : Nat) (h : Bool) : f.signed x h = BitVec.ofNat 512 (x % 2 ^ (f.w - 1) + (if h then 1 else 0) * 2 ^ (f.w - 1)) := by
  cases h <;> simp [Fmt.signed]

theorem natSetBits_sign (hf : fmtOf code = some f) (x : Nat) (h : Bool) :
    BitVec.ofNat 512 (natSetBits x (f.w - 1) 1 (if h then 1 else 0) % 2 ^ f.w) = f.signed (x % 2 ^ f.w) h := by
  have htop := natSetBits_top x (f.w - 1) (if h then 1 else 0) (by split <;> decide)
  rw [fmtOf_width hf] at htop
  rw [htop, signed_eq]

theorem natSetBits_sign_of_lt (hf : fmtOf code = some f) {x : Nat} (hx : x < 2 ^ f.w) (h : Bool) :
    BitVec.ofNat 512 (natSetBits x (f.w - 1) 1 (if h then 1 else 0)) = f.signed x h := by
  rw [signed_eq, natSetBits_top_of_lt _ (by rwa [fmtOf_width hf]) (by split <;> decide)]

/-- An operand's sign is that of its register's low bits. -/
theorem testBit_sign (hf : fmtOf code = some f) (x : Nat) : x.testBit (f.w - 1) = (x % 2 ^ f.w).testBit (f.w - 1) := by
  have hw := fmtOf_width hf
  rw [Nat.testBit_mod_two_pow, decide_eq_true (by omega), Bool.true_and]

end

/-! ### Instructions -/

section
variable {s s0 : State} {c : Nat} {rm prec : BitVec 3} {a b d : Reg5} {f : Fmt} {m : Nat} {i : Instr}

/-- A binary operation in a format and a rounding mode that exist. -/
theorem State.Fetched.next_farith {op : Fmt → Nat → Nat → Nat → Nat × Nat} (h : s.Fetched c 4 s0)
    (hi : exec i s = .next (farith op c rm prec a b d s)) (hf : fmtOf prec.toNat = some f) (hm : s0.rmode c rm = some m) :
    exec i s = .next ((((s0.settleFlags c (op f m (s0.fsrc c f b) (s0.fsrc c f d)).2).setV c a
      (BitVec.ofNat 512 (op f m (s0.fsrc c f b) (s0.fsrc c f d)).1)).retireInstr c (s0.nextPc c 4)).getD s) :=
  h.next_retires hi (by simp only [hf, hm]; rfl)

/-- A comparison in a format that exists. -/
theorem State.Fetched.next_fcmp {test : Rel → Bool} {signalling : Bool} (h : s.Fetched c 4 s0)
    (hi : exec i s = .next (fcmp test signalling c prec a b d s)) (hf : fmtOf prec.toNat = some f) :
    exec i s = .next ((((s0.raiseFlags c (f.cmpFlags signalling (s0.fsrc c f b) (s0.fsrc c f d))).setG c a
      (if test (f.rel (s0.fsrc c f b) (s0.fsrc c f d)) then 1 else 0)).retireInstr c (s0.nextPc c 4)).getD s) :=
  h.next_retires hi (by simp only [hf]; rfl)

/-- A sign operation in a format that exists. -/
theorem State.Fetched.next_fsign {sg : Bool → Bool} (h : s.Fetched c 4 s0) (hi : exec i s = .next (fsign sg c prec a b s))
    (hf : fmtOf prec.toNat = some f) : exec i s = .next ((s0.wroteV c 4 a (f.signed (s0.fsrc c f b)
      (sg ((s0.fsrc c f b).testBit (f.w - 1))))).getD s) :=
  h.next_retires hi (by simp only [hf, natSetBits_sign hf, testBit_sign hf (s0.v c b).toNat]; rfl)

/-- FCPYS in a format that exists. -/
theorem State.Fetched.next_fcpys (h : s.Fetched c 4 s0) (hf : fmtOf prec.toNat = some f) :
    exec (.fcpys c prec a b d) s = .next ((s0.wroteV c 4 a (f.signed (s0.fsrc c f b) ((s0.fsrc c f d).testBit (f.w - 1)))).getD s) := by
  have hx : s0.fsrc c f b < 2 ^ f.w := Nat.mod_lt _ (Nat.two_pow_pos _)
  exact h.next_retires rfl (by simp only [hf, natSetBits_sign_of_lt hf hx, testBit_sign hf (s0.v c d).toNat]; rfl)

/-- FCVT between two formats that differ. -/
theorem State.Fetched.next_fcvt_float {dst : BitVec 3} {g : Fmt} (h : s.Fetched c 4 s0) (hf : fmtOf prec.toNat = some f)
    (hm : s0.rmode c rm = some m) (hg : fmtOf dst.toNat = some g) (hne : dst ≠ prec) :
    exec (.fcvt c rm dst prec a b) s = .next ((((s0.settleFlags c (f.toFmt g m (s0.fsrc c f b)).2).setV c a
      (BitVec.ofNat 512 (f.toFmt g m (s0.fsrc c f b)).1)).retireInstr c (s0.nextPc c 4)).getD s) :=
  h.next_retires rfl (by simp only [hm, hg, hf, if_neg hne]; rfl)

/-- A code of 4 or more names an integer, no format. -/
theorem fmtOf_integer {code : BitVec 3} (h : 4 ≤ code.toNat) : fmtOf code.toNat = none ∧ code ≠ 3 := by
  revert h; revert code; decide

/-- FCVT from an integer. -/
theorem State.Fetched.next_fcvt_ofInt {src : BitVec 3} (h : s.Fetched c 4 s0) (hf : fmtOf prec.toNat = some f)
    (hm : s0.rmode c rm = some m) (hs : 4 ≤ src.toNat) :
    exec (.fcvt c rm prec src a b) s = .next ((((s0.settleFlags c (f.ofInt m (cvtIntSrc src.toNat (s0.g c b))).2).setV c a
      (BitVec.ofNat 512 (f.ofInt m (cvtIntSrc src.toNat (s0.g c b))).1)).retireInstr c (s0.nextPc c 4)).getD s) := by
  obtain ⟨hn, h3⟩ := fmtOf_integer hs
  exact h.next_retires rfl (by simp only [hm, hf, hn, if_neg h3]; rfl)

/-- The integer type that a code of 4 or more names. -/
theorem integer_type {dst : BitVec 3} (h : 4 ≤ dst.toNat) :
    (if dst = 4 || dst = 5 then 64 else 32) = (if dst.toNat < 6 then 64 else 32) ∧
      (decide (dst = 4) || decide (dst = 6)) = decide (dst.toNat % 2 = 0) := by
  revert h; revert dst; decide

/-- FCVT to an integer. -/
theorem State.Fetched.next_fcvt_toInt {dst : BitVec 3} (h : s.Fetched c 4 s0) (hf : fmtOf prec.toNat = some f)
    (hm : s0.rmode c rm = some m) (hd : 4 ≤ dst.toNat) :
    exec (.fcvt c rm dst prec a b) s =
      let q := f.toInt m (if dst.toNat < 6 then 64 else 32) (dst.toNat % 2 = 0) (s0.fsrc c f b)
      .next ((((s0.raiseFlags c q.2).setG c a (BitVec.ofInt 64 q.1)).retireInstr c (s0.nextPc c 4)).getD s) := by
  obtain ⟨hn, h3⟩ := fmtOf_integer hd
  obtain ⟨hw, hsg⟩ := integer_type hd
  exact h.next_retires rfl (by simp only [hm, hf, hn, if_neg h3, hw, hsg])

end

/-- Settles O12: each instruction by its group's lemma. -/
theorem floating_point_results : Obligations.floating_point_results := by
  refine ⟨fun c rm prec a b d e f m s s0 h hf hm => ⟨?add, ?sub, ?mul, ?div, ?sqrt, ?min, ?max, fun g f3 f1 n hg hn => ?fma⟩,
    fun c rm prec a b d f m s s0 h hf hm => ⟨?eq, ?un, ?lt, ?le, ?ltq, ?leq, ?abs, ?neg, ?nabs, h.next_fcpys hf, ?fclass, ?vg, ?gv,
      fun dst g hg hne => h.next_fcvt_float hf hm hg hne, fun src hs => h.next_fcvt_ofInt hf hm hs,
      fun dst hd => h.next_fcvt_toInt hf hm hd⟩⟩
  case add => exact h.next_farith (op := Fmt.add) rfl hf hm
  case sub => exact h.next_farith (op := Fmt.sub) rfl hf hm
  case mul => exact h.next_farith (op := Fmt.mul) rfl hf hm
  case div => exact h.next_farith (op := Fmt.div) rfl hf hm
  case sqrt => exact h.next_farith (op := fun f m x _ => f.sqrt m x) (d := 0) rfl hf hm
  case min => exact h.next_farith (op := fun f _ => f.minmax false) rfl hf hm
  case max => exact h.next_farith (op := fun f _ => f.minmax true) rfl hf hm
  case fma => exact h.next_retires rfl (by simp only [hg, hn]; rfl)
  case eq => exact h.next_fcmp (test := fun r => r = .eq) rfl hf
  case un => exact h.next_fcmp (test := fun r => r = .un) rfl hf
  case lt | ltq => exact h.next_fcmp (test := fun r => r = .lt) rfl hf
  case le | leq => exact h.next_fcmp (test := fun r => r = .lt || r = .eq) rfl hf
  case abs => exact h.next_fsign (sg := fun _ => false) rfl hf
  case neg => exact h.next_fsign (sg := fun x => !x) rfl hf
  case nabs => exact h.next_fsign (sg := fun _ => true) rfl hf
  case fclass => exact h.next_retires rfl (by simp only [hf]; rfl)
  case vg => exact h.next_wroteG rfl rfl
  case gv => exact h.next_retires rfl rfl

end Sys2Proof.Machine

/-! ## Vector arithmetic (R75-R77) -/

namespace Sys2Proof.Machine

/-! ### Lanes -/

/-- Lane values put together fill their lanes. -/
theorem joinLanes_lt (w : Nat) (l : List Nat) : joinLanes w l < 2 ^ (w * l.length) := by
  induction l with
  | nil => exact Nat.one_pos
  | cons x t ih =>
    have hx := Nat.mod_lt x (Nat.two_pow_pos w)
    calc x % 2 ^ w + 2 ^ w * joinLanes w t < 2 ^ w * (joinLanes w t + 1) := by rw [Nat.mul_add]; omega
      _ ≤ 2 ^ w * 2 ^ (w * t.length) := Nat.mul_le_mul_left _ ih
      _ = 2 ^ (w * (x :: t).length) := by rw [← Nat.pow_add, List.length_cons, Nat.mul_add, Nat.mul_one, Nat.add_comm]

/-- A lane of lane values put together. -/
theorem joinLanes_lane (w : Nat) (l : List Nat) (i : Nat) (hi : i < l.length) : joinLanes w l / 2 ^ (w * i) % 2 ^ w = l[i] % 2 ^ w := by
  induction l generalizing i with
  | nil => exact absurd hi (Nat.not_lt_zero i)
  | cons x t ih =>
    have hw := Nat.two_pow_pos w
    cases i with
    | zero => simp [joinLanes]
    | succ i =>
      have hdiv : (x % 2 ^ w + 2 ^ w * joinLanes w t) / 2 ^ w = joinLanes w t := by
        rw [Nat.add_mul_div_left _ _ hw, Nat.div_eq_of_lt (Nat.mod_lt x hw), Nat.zero_add]
      rw [joinLanes, Nat.mul_succ, Nat.add_comm (w * i), Nat.pow_add, ← Nat.div_div_eq_div_mul, hdiv, List.getElem_cons_succ]
      exact ih i (Nat.lt_of_succ_lt_succ hi)

/-- A lane of a merged result: the value computed where it is enabled, and otherwise zero or the old lane, as ZM says (R75). -/
theorem VMask.lane_merge (m : VMask) (old : Vec) (f : Nat → Nat) {i : Nat} (hi : i < 512 / m.w) :
    lane m.w (m.merge old f) i = if m.on i then f i % 2 ^ m.w else if m.zero then 0 else lane m.w old i := by
  have hlen (g : Nat → Nat) : (m.lanes.map g).length = 512 / m.w := by simp [VMask.lanes, laneCount]
  have hfit (g : Nat → Nat) : joinLanes m.w (m.lanes.map g) < 2 ^ 512 :=
    Nat.lt_of_lt_of_le (joinLanes_lt _ _) (Nat.pow_le_pow_right Nat.two_pos (by rw [hlen]; exact Nat.mul_div_le 512 m.w))
  have hold : lane m.w old i % 2 ^ m.w = lane m.w old i := Nat.mod_mod _ _
  rw [lane, VMask.merge, BitVec.toNat_ofNat, Nat.mod_eq_of_lt (hfit _), joinLanes_lane _ _ i (by rwa [hlen])]
  simp only [VMask.lanes, List.getElem_map, List.getElem_range]
  split
  · rfl
  · split
    · exact Nat.zero_mod _
    · exact hold

/-- Whether an instruction's mask enables a lane (R75). -/
theorem State.vmask_on (s : State) (c : Nat) (msk : BitVec 3) (ew : BitVec 2) (zm : BitVec 1) (i : Nat) :
    (s.vmask c msk ew zm).on i = true ↔ msk = 0 ∨ ((s.core c).mr msk).getLsbD i = true := by
  simp [State.vmask, VMask.on, BitVec.getLsbD]

/-! ### Instructions -/

section
variable {s s0 : State} {c : Nat} {f3 : BitVec 3} {a b d e : Reg5} {msk : BitVec 3} {ew : BitVec 2} {zm : BitVec 1} {f11 : BitVec 11}
  {y : Nat → Nat}

/-- A legal VINT completes with its lanes merged under the mask. -/
theorem exec_vint (h : s.Fetched c 6 s0) (hy : s0.second c (s0.vmask c msk ew zm).w f3 d e = some y)
    (hop : (vintOp f11.toNat (s0.vmask c msk ew zm).w 0 0).isSome) :
    exec (.vint c f3 a b d e msk ew zm f11) s = .next ((s0.wroteV c 6 a ((s0.vmask c msk ew zm).merge (s0.v c a) (fun i =>
      (vintOp f11.toNat (s0.vmask c msk ew zm).w (lane (s0.vmask c msk ew zm).w (s0.v c b) i) (y i)).getD 0))).getD s) := by
  obtain ⟨v, hv⟩ := Option.isSome_iff_exists.1 hop
  exact h.next_retires rfl (by simp only [hy, hv]; rfl)

/-- A legal VCMP completes with its lanes' bits merged under the mask. -/
theorem exec_vcmp (h : s.Fetched c 6 s0) (hy : s0.second c (s0.vmask c msk ew zm).w f3 d e = some y)
    (hop : (vcmpOp f11.toNat (s0.vmask c msk ew zm).w 0 0).isSome) (ha : a.toNat < 8) :
    exec (.vcmp c f3 a b d e msk ew zm f11) s = .next ((s0.wroteM c 6 (a.truncate 3) ((s0.vmask c msk ew zm).mergeMask (s0.m c a) (fun i =>
      (vcmpOp f11.toNat (s0.vmask c msk ew zm).w (lane (s0.vmask c msk ew zm).w (s0.v c b) i) (y i)).getD false))).getD s) := by
  obtain ⟨v, hv⟩ := Option.isSome_iff_exists.1 hop
  have hm : isMask a = true := decide_eq_true ha
  exact h.next_retires rfl (by simp only [hy, hv, hm]; rfl)

end

/-- Settles O13: each group by its meaning, in its legal form. -/
theorem vector_arithmetic_results : Obligations.vector_arithmetic_results := by
  intro c f3 a b d e msk ew zm f11 y s s0 h m x hy
  refine ⟨exec_vint h hy, exec_vcmp h hy, fun f rm hf hrm => ⟨fun hop => ?vfp, fun hno hop ha => ?vfpCmp, fun h4 => ?vfmadd⟩⟩
  case vfp => exact h.next_retires rfl (by simp only [m] at hy; simp only [hy, hf, hrm, if_pos hop]; rfl)
  case vfpCmp =>
    have hm : isMask a = true := decide_eq_true ha
    have hnone : ¬(vfpOp f rm f11.toNat 0 0).isSome = true := by simp [hno]
    have hlegal : ((vfpCmp f f11.toNat 0 0).isSome && isMask a) = true := by simp [hop, hm]
    exact h.next_retires rfl (by simp only [m] at hy; simp only [hy, hf, hrm, if_neg hnone, if_pos hlegal]; rfl)
  case vfmadd => exact h.next_retires rfl (by simp only [hf, hrm, if_neg (Nat.not_le.2 h4)]; rfl)

/-- Settles O14: the merged result of VINT, read lane by lane. -/
theorem vint_lane_by_lane : Obligations.vint_lane_by_lane := by
  intro c f3 a b d e msk ew zm f11 y s s0 h w hy hop
  refine ⟨_, exec_vint h hy hop, fun i hi => ?_⟩
  have hlane := (s0.vmask c msk ew zm).lane_merge (s0.v c a)
    (fun i => (vintOp f11.toNat w (lane w (s0.v c b) i) (y i)).getD 0) hi
  simp only [State.vmask_on] at hlane
  exact hlane.trans (by simp [State.vmask]; rfl)

end Sys2Proof.Machine

/-! ## Vector loads and stores (R78, R79) -/

namespace Sys2Proof.Machine

/-- A vector access that is answered is counted by its lanes. -/
theorem Res.lanes_ok {α : Type} (a : α) (s : State) (c n : Nat) (f3 : BitVec 3) (addr : Nat → Word) (l : List Nat) :
    (Res.ok a s).lanes c n f3 addr l = .ok a (s.lanesCounted c n f3 addr l) := by
  unfold State.lanesCounted Res.lanes
  by_cases h0 : f3 = 0
  · simp only [if_pos h0]
    split <;> rfl
  · by_cases h1 : f3 = 1
    · simp only [if_neg h0, if_pos h1]
      split <;> rfl
    · simp only [if_neg h0, if_neg h1]
      rfl

/-- A register holds at least one lane. -/
theorem laneCount_pos (s : State) (c : Nat) (msk : BitVec 3) (ew : BitVec 2) (zm : BitVec 1) : 0 < laneCount (s.vmask c msk ew zm).w := by
  change 0 < 512 / (8 * 2 ^ ew.toNat)
  revert ew
  decide

section
variable {s s0 s' s1 : State} {c err : Nat} {f3 : BitVec 3} {a b d : Reg5} {msk : BitVec 3} {ew : BitVec 2} {zm : BitVec 1}
  {imm : BitVec 16} {addr : Nat → Word} {l : List (Nat × Nat)}

/-- A vector load whose enabled lanes are loaded completes. -/
theorem exec_vld (h : s.Fetched c 6 s0) (haddr : s0.laneAddr c (s0.vmask c msk ew zm).w f3 b d imm = some addr)
    (herr : s0.loadErr c 6 err (addr ((s0.vmask c msk ew zm).onLanes.headD 0)) ((s0.vmask c msk ew zm).w / 8) = .ok () s')
    (hl : s'.loadLanes c ((s0.vmask c msk ew zm).w / 8) addr (s0.vmask c msk ew zm).onLanes = .ok l s1) :
    exec (.vld ⟨c, err⟩ f3 a b d msk ew zm imm) s =
      .next ((((s1.setV c a ((s0.vmask c msk ew zm).merge (s1.v c a) (fun i => (cellFind l i).getD 0))).lanesCounted c
        ((s0.vmask c msk ew zm).w / 8) f3 addr (s0.vmask c msk ew zm).onLanes).retireInstr c (s1.nextPc c 6)).getD s) :=
  h.next_retires rfl (by simp only [haddr, herr, hl, Res.bind, vOut, Res.lanes_ok])

/-- Whether a vector store is the store of one whole line. -/
def State.storesWhole (s0 : State) (c : Nat) (f3 : BitVec 3) (m : VMask) (addr : Nat → Word) : Prop :=
  f3 = 0 ∧ m.onLanes.length = 512 / m.w ∧ s0.wholeLine c (addr 0) = true

theorem storesWhole_iff {m : VMask} : s0.storesWhole c f3 m addr ↔
    (decide (f3 = 0) && decide (m.onLanes.length = laneCount m.w) && s0.wholeLine c (addr 0)) = true := by
  rw [Bool.and_eq_true, Bool.and_eq_true, decide_eq_true_iff, decide_eq_true_iff, and_assoc]
  rfl

/-- A vector store lane by lane, each lane performed. -/
theorem exec_vst_lanes (h : s.Fetched c 6 s0) (haddr : s0.laneAddr c (s0.vmask c msk ew zm).w f3 b d imm = some addr) (h1 : f3 ≠ 1)
    (hw : ¬s0.storesWhole c f3 (s0.vmask c msk ew zm) addr)
    (hs : s0.storeLanes s0 c ((s0.vmask c msk ew zm).w / 8) addr (lane (s0.vmask c msk ew zm).w (s0.v c a)) (s0.vmask c msk ew zm).onLanes =
      .ok (s0.nextPc c 6) s1) :
    exec (.vst c f3 a b d msk ew zm imm) s = .next (((s1.lanesCounted c ((s0.vmask c msk ew zm).w / 8) f3 addr
      (s0.vmask c msk ew zm).onLanes).retireInstr c (s0.nextPc c 6)).getD s) := by
  rw [storesWhole_iff] at hw
  exact h.next_retires rfl (by simp only [haddr, if_neg h1, if_neg hw, hs, Res.lanes_ok])

/-- A vector store of one whole line, performed at once (R504). -/
theorem exec_vst_whole (h : s.Fetched c 6 s0) (haddr : s0.laneAddr c (s0.vmask c msk ew zm).w f3 b d imm = some addr)
    (hw : s0.storesWhole c f3 (s0.vmask c msk ew zm) addr)
    (hs : s0.storeRaw c Acc.store (addr 0) (leBytes 64 (s0.v c a).toNat) true false = .ok () s1) :
    exec (.vst c f3 a b d msk ew zm imm) s = .next ((s1.retireInstr c (s0.nextPc c 6)).getD s) := by
  have h1 : f3 ≠ 1 := by
    rw [hw.1]
    decide
  rw [storesWhole_iff] at hw
  exact h.next_retires rfl (by simp only [haddr, if_neg h1, if_pos hw, hs])

/-- A store of no lanes is no store of a line. -/
theorem not_storesWhole_of_no_lanes (hon : (s0.vmask c msk ew zm).onLanes = []) : ¬s0.storesWhole c f3 (s0.vmask c msk ew zm) addr := by
  rintro ⟨-, hlen, -⟩
  rw [hon] at hlen
  exact absurd (laneCount_pos s0 c msk ew zm) (by rw [laneCount, ← hlen]; exact Nat.lt_irrefl 0)

end

/-- Settles O15: loads and stores by the lemmas above. -/
theorem vector_memory_results : Obligations.vector_memory_results := by
  intro c f3 a b d msk ew zm imm addr s s0 h m n on whole stored haddr
  refine ⟨fun err l s' s1 => exec_vld h haddr, fun s1 h1 hw hs => exec_vst_lanes h haddr h1 hw hs, fun s1 hw hs => exec_vst_whole h haddr hw hs,
    fun hon => ?noLoad, fun hon h1 => ?noStore⟩
  case noLoad =>
    have hl : s0.loadLanes c n addr on = .ok [] s0 := by rw [hon]; rfl
    exact (exec_vld h haddr rfl hl).trans (by rw [show m.onLanes = [] from hon]; rfl)
  case noStore =>
    have hs : s0.storeLanes s0 c n addr (lane m.w (s0.v c a)) on = .ok (s0.nextPc c 6) s0 := by rw [hon]; rfl
    exact (exec_vst_lanes h haddr h1 (not_storesWhole_of_no_lanes hon) hs).trans (by rw [show m.onLanes = [] from hon])

end Sys2Proof.Machine

/-! ## Vector permutes, reductions, masks and moves (R80, R81) -/

namespace Sys2Proof.Machine

section
variable {s s0 : State} {c : Nat} {a b d : Reg5} {msk : BitVec 3} {ew : BitVec 2} {zm : BitVec 1} {f11 : BitVec 11} {i : Instr}

/-- A reduction of the enabled lanes to an integer. -/
theorem exec_vredInt {v : Int} (h : s.Fetched c 6 s0)
    (hv : vredInt f11.toNat (s0.vmask c msk ew zm).w
      ((s0.vmask c msk ew zm).onLanes.map (lane (s0.vmask c msk ew zm).w (s0.v c b))) = some v) :
    exec (.vredInt c f11 a b msk ew zm) s = .next ((s0.wroteG c 6 a (BitVec.ofInt 64 v)).getD s) :=
  h.next_retires rfl (by simp only [hv]; rfl)

/-- A reduction over no lanes yields the value its operation gives no operands (R81). -/
theorem exec_vredInt_of_no_lanes (v : Int) (h : s.Fetched c 6 s0) (hon : (s0.vmask c msk ew zm).onLanes = [])
    (hv : vredInt f11.toNat (s0.vmask c msk ew zm).w [] = some v) :
    exec (.vredInt c f11 a b msk ew zm) s = .next ((s0.wroteG c 6 a (BitVec.ofInt 64 v)).getD s) :=
  exec_vredInt h (by rw [hon]; exact hv)

/-- A mask operation between three mask registers. -/
theorem exec_maskLogic {v : Word} (h : s.Fetched c 6 s0) (ha : a.toNat < 8) (hb : b.toNat < 8) (hd : d.toNat < 8)
    (hv : maskOp f11.toNat (s0.m c b) (s0.m c d) = some v) :
    exec (.maskLogic c f11 a b d 0) s = .next ((s0.wroteM c 6 (a.truncate 3) v).getD s) := by
  have hma : isMask a = true := decide_eq_true ha
  have hmb : isMask b = true := decide_eq_true hb
  have hmd : isMask d = true := decide_eq_true hd
  exact h.next_retires rfl (by simp only [hv, hma, hmb, hmd]; rfl)

/-- An operation from a mask register to a general register. -/
theorem State.Fetched.next_maskToG {f : Word → Word} (h : s.Fetched c 6 s0) (hb : b.toNat < 8)
    (hi : exec i s = .next (maskToG f c a b 0 s)) : exec i s = .next ((s0.wroteG c 6 a (f (s0.m c b))).getD s) :=
  h.next_wroteG hi (if_pos (by simp [isMask, hb]))

end

/-- Settles O16: each instruction by its meaning; over no lanes a reduction is the value that `vredInt` gives the empty list. -/
theorem vector_permute_reduce_mask_results : Obligations.vector_permute_reduce_mask_results := by
  refine ⟨fun c a b d e msk ew zm s s0 h => ⟨h.next_retires rfl rfl, h.next_retires rfl rfl, h.next_retires rfl rfl, h.next_retires rfl rfl,
      h.next_retires rfl rfl, h.next_retires rfl rfl, h.next_retires rfl rfl, h.next_retires rfl rfl, h.next_retires rfl rfl, ?unpack, ?pack, ?crc⟩,
    fun c f11 a b d ln msk ew zm s s0 h => ⟨fun v hv => exec_vredInt h hv, ?empty, ?float, ?mask,
      fun hb => ⟨?mtog, ?mpopc, ?mfirst⟩, ?gtom, ?move⟩⟩
  case unpack => exact fun he => h.next_retires rfl (if_neg (Nat.not_lt.2 he))
  case pack => exact fun hm he => h.next_retires rfl ((if_neg (by simp [hm])).trans (if_neg (Nat.not_lt.2 he)))
  case crc => exact fun hw => h.next_retires rfl (if_neg (by simp [hw]))
  case empty =>
    intro hon
    exact ⟨exec_vredInt_of_no_lanes 0 h hon rfl, exec_vredInt_of_no_lanes _ h hon rfl, exec_vredInt_of_no_lanes _ h hon rfl,
      exec_vredInt_of_no_lanes _ h hon rfl, exec_vredInt_of_no_lanes 0 h hon rfl⟩
  case float =>
    intro f rm hf hrm
    and_intros <;> exact h.next_retires rfl (by simp only [hf, hrm]; rfl)
  case mask =>
    intro ha hb hd
    and_intros <;> exact exec_maskLogic h ha hb hd rfl
  case mtog => exact h.next_maskToG (f := fun x => x) hb rfl
  case mpopc => exact h.next_maskToG (f := fun x => BitVec.ofNat 64 (popc x.toNat 64)) hb rfl
  case mfirst => exact h.next_maskToG (f := fun x => BitVec.ofNat 64 (ctz x.toNat 0 64)) hb rfl
  case gtom => exact fun ha => h.next_retires rfl (if_pos (by simp [isMask, ha]))
  case move =>
    rintro rfl
    refine ⟨h.next_retires rfl (if_neg (by simp)), fun hl => ?_⟩
    have hlegal : ¬(decide ((0 : BitVec 3) ≠ 0) || decide (laneCount (s0.vmask c 0 ew zm).w ≤ ln.toNat)) = true := by
      rw [Bool.or_eq_true, decide_eq_true_iff, decide_eq_true_iff]
      exact fun hn => hn.elim (· rfl) (Nat.not_le.2 hl)
    exact ⟨h.next_retires rfl (if_neg hlegal), h.next_wroteG rfl (if_neg hlegal)⟩

end Sys2Proof.Machine

/-! ## What acts on a core besides its instructions (R63, R195, R196, R206, R219, R222, R490, R494-R496) -/

namespace Sys2Proof.Machine

/-! ### Draining stores (R196) -/

/-- The stores that merge with the first of a queue are its front. -/
theorem mergeRun_eq_take (e : StoreEnt) (t : List StoreEnt) : mergeRun (e :: t) = (e :: t).take (mergeRun (e :: t)).length :=
  List.prefix_iff_eq_take.1 ((List.cons_prefix_cons).2 ⟨rfl, List.takeWhile_prefix _⟩)

/-- They lie in its line. -/
theorem line_of_mem_mergeRun {e x : StoreEnt} {t : List StoreEnt} (hx : x ∈ mergeRun (e :: t)) : lineOf x.pa = lineOf e.pa := by
  obtain rfl | hx := List.mem_cons.1 hx
  · rfl
  · exact of_decide_eq_true (List.mem_takeWhile_imp (p := fun x : StoreEnt => decide (lineOf x.pa = lineOf e.pa)) hx)

section
variable {s u : State} {c : Nat} {e : StoreEnt} {t : List StoreEnt}

theorem exec_storeDrain (hq : (s.core c).storeQ = e :: t) (hz : (s.core c).frozen = false) (ho : s.outOfReset c = true)
    (hd : s.drainList c (mergeRun (e :: t)) = (u, [])) :
    exec (.storeDrain c 0) s = .next (u.updCore c (fun k => { k with storeQ := (e :: t).drop (mergeRun (e :: t)).length }.count 183
      (if u.rd Reg.dbgCoreStatHalted (coreIx c) = 1 then 0 else (mergeRun (e :: t)).length - 1))) := by
  have hrun : ¬((s.core c).frozen || !s.outOfReset c) = true := by simp [hz, ho]
  rw [mergeRun_eq_take e t] at hd
  change execStoreDrain c 0 s = _
  simp only [execStoreDrain, hq, if_neg hrun]
  exact congrArg _ (by simp [hd])

/-! ### Prefetches (R206) -/

theorem exec_hwPrefetch {stream : Bool} {va at' : Word}
    (hat : at' = if stream then va + BitVec.ofNat 64 (64 * max 1 (s.rd Reg.coreCfgL2pfdist (coreIx c))) else va)
    (ho : s.outOfReset c = true) (hw : s.awake c = true) (hz : (s.core c).frozen = false)
    (hf : s.rd (if stream then Reg.coreCfgL2pf else Reg.coreCfgL1pf) (coreIx c) = 1) (hp : at' >>> 12 = va >>> 12)
    (ht : s.prefetchTry c (if stream then 1 else 0) at' = some u) :
    exec (.hwPrefetch c stream va) s = .next (u.updCore c (fun k => k.count (if stream then 186 else 185) 1)) := by
  subst hat
  change execHwPrefetch c stream va s = _
  simp only [execHwPrefetch]
  exact congrArg _ ((if_neg (by simp [ho, hw, hz, hf, hp])).trans (by rw [ht]))

/-! ### The predictor (R219, R222) -/

/-- What an update of a core's predictor leaves: whether the core is hardened. -/
theorem State.hardened_updCore_pred (s : State) (c : Nat) (f : Core → Pred) :
    (s.updCore c (fun k => { k with pred := f k })).hardened c = s.hardened c := by
  have hsealed : (s.updCore c (fun k => { k with pred := f k })).isSealed (coreSock c) = s.isSealed (coreSock c) := rfl
  simp only [State.hardened, hsealed, State.core_updCore_same]

/-- Outside a hardened core a sweep's end only drops the number's entries. -/
theorem exec_contextSweepDone {n : Nat} (hs : (s.core c).pred.sweeping = some n) (hh : s.hardened c = false) :
    exec (.contextSweepDone c) s = .next (s.updCore c (fun k => { k with pred := k.pred.sweep n })) := by
  have hsoft : ¬(s.updCore c (fun k => { k with pred := k.pred.sweep n })).hardened c = true := by
    rw [State.hardened_updCore_pred, hh]
    exact Bool.false_ne_true
  change execContextSweepDone c s = _
  simp only [execContextSweepDone, hs]
  exact congrArg _ (if_neg hsoft)

/-- After a sweep no entry carries its number. -/
theorem Pred.sweep_clean (p : Pred) (n : Nat) : (p.sweep n).sweeping = none ∧ (∀ e ∈ (p.sweep n).btb, e.ctx ≠ n) ∧
    (∀ e ∈ (p.sweep n).tagged, ∀ x, e.2 = some x → x.ctx ≠ n) ∧ (∀ e ∈ (p.sweep n).ind, ∀ x, e.2 = some x → x.2 ≠ n) := by
  refine ⟨rfl, fun e he => ?_, fun e he x hx => ?_, fun e he x hx => ?_⟩
  · exact of_decide_eq_true (List.mem_filter.1 he).2
  · have := (List.mem_filter.1 he).2
    simp only [hx] at this
    exact of_decide_eq_true this
  · have := (List.mem_filter.1 he).2
    simp only [hx] at this
    exact of_decide_eq_true this

/-- A map of every entry's value maps what a key finds. -/
theorem cellFind_mapValues {α : Type} (f : α → α) (m : Cells α) (k : Nat) :
    cellFind (m.map (fun e => (e.1, f e.2))) k = (cellFind m k).map f := by
  induction m with
  | nil => rfl
  | cons e t ih =>
    simp only [List.map_cons, cellFind]
    split
    · rfl
    · exact ih

/-- Decay halves the usefulness of whatever a table entry holds. -/
theorem Pred.decay_tagged (p : Pred) (i : Nat) :
    cellGet none p.decay.tagged i = (cellGet none p.tagged i).map (fun x => { x with useful := x.useful / 2 }) := by
  have hfind : cellFind p.decay.tagged i = (cellFind p.tagged i).map (fun o => o.map (fun x => { x with useful := x.useful / 2 })) :=
    cellFind_mapValues _ _ _
  unfold cellGet
  rw [hfind]
  cases cellFind p.tagged i <;> rfl

theorem exec_usefulnessDecay (h : 2 ^ 19 ≤ (s.core c).pred.condRetired) :
    exec (.usefulnessDecay c) s = .next (s.updCore c (fun k => { k with pred := k.pred.decay })) :=
  congrArg Host.Outcome.next (if_neg (Nat.not_lt.2 h))

/-! ### Completions from devices (R490, R494, R495) -/

/-- A register of a root complex counted up leaves the socket's partition. -/
theorem State.partition_bump_mmioabort (s : State) (a : Ix) (k : Nat) : (s.bump Reg.prcErrMmioabort a).partition k = s.partition k :=
  s.rd_wr_field a _ _ (by decide) (by decide) (by decide)

/-- An answer that comes through another port, or while its request is held, changes nothing. -/
theorem exec_deviceCompletion_of_held {j data : Nat} {w : DevWait} (hw : (s.core c).devWait = some w)
    (h : j ≠ w.port ∨ (s.prc (w.prc / 4) (w.prc % 4)).held.contains (j, c) = true) :
    exec (.deviceCompletion c j data) s = .next s := by
  change execDeviceCompletion c j data s = _
  simp only [execDeviceCompletion, hw]
  refine congrArg _ (if_pos ?_)
  rw [Bool.or_eq_true, Bool.or_eq_true, decide_eq_true_iff]
  exact .inl h

/-- The answer to a waiting load, with the posted writes before it performed: its register is written with the data, or with all ones of a
contained port, which counts and records the abort. -/
theorem exec_deviceCompletion_of_port {j data : Nat} {w : DevWait} (hw : (s.core c).devWait = some w) (hj : j = w.port)
    (hheld : (s.prc (w.prc / 4) (w.prc % 4)).held.contains (j, c) = false)
    (hparts : ∀ x ∈ (s.prc (w.prc / 4) (w.prc % 4)).parts, x.write = true → x.port ≠ j) :
    exec (.deviceCompletion c j data) s =
      let bad := s.rd Reg.prcPortLinkContained (portIx (w.prc / 4) (w.prc % 4) j) = 1
      let s1 := if bad then (s.bump Reg.prcErrMmioabort (prcIx (w.prc / 4) (w.prc % 4))).prcAsh (w.prc / 4) (w.prc % 4) 5 0x07 0 0 j 7 else s
      .next (((s1.updCore c (fun k => { k with devWait := none }.setG w.dest
        (extend (leBytes w.size (if bad then 2 ^ 64 - 1 else data)) w.signed))).retireInstr c w.next).getD s) := by
  have hwrites : (s.prc (w.prc / 4) (w.prc % 4)).parts.any (fun x : DmaPart => x.write && x.port = j) = false := by
    rw [List.any_eq_false]
    intro x hx hxw
    obtain ⟨h1, h2⟩ := Bool.and_eq_true_iff.1 hxw
    exact hparts x hx h1 (of_decide_eq_true h2)
  change execDeviceCompletion c j data s = _
  simp only [execDeviceCompletion, hw]
  exact congrArg _ (if_neg (by rw [hheld, hwrites, hj]; simp))

end

/-- Settles O33: each background action by its lemma above. -/
theorem core_background_results : Obligations.core_background_results := by
  intro c j data stream va s u
  refine ⟨?drained,
    fun ho hw hz hf hp ht => exec_hwPrefetch rfl ho hw hz hf hp ht, fun n hs hh => ⟨_, exec_contextSweepDone hs hh, ?swept⟩,
    fun h => ⟨_, exec_usefulnessDecay h, ?decayed⟩, fun w hw => ⟨exec_deviceCompletion_of_held hw,
      fun hj hheld hparts => ⟨fun hok => ?answered, fun hbad => ?contained⟩⟩⟩
  case drained =>
    intro e t hq hz ho n hd
    exact ⟨fun x => line_of_mem_mergeRun, mergeRun_eq_take e t, exec_storeDrain hq hz ho hd⟩
  case swept => simpa using (s.core c).pred.sweep_clean n
  case decayed => simpa using ⟨rfl, (s.core c).pred.decay_tagged⟩
  case answered =>
    have hgood : ¬s.rd Reg.prcPortLinkContained (portIx (w.prc / 4) (w.prc % 4) j) = 1 := by omega
    exact (exec_deviceCompletion_of_port hw hj hheld hparts).trans (by simp only [if_neg hgood])
  case contained =>
    refine (exec_deviceCompletion_of_port hw hj hheld hparts).trans ?_
    simp only [if_pos hbad, State.prcAsh, State.partition_bump_mmioabort]

end Sys2Proof.Machine


/-! ## O6: two stores to one line of a Sealed partition

`State.stale` asks whether any agent but number 2 ^ 21 holds the line, 2 ^ 21 standing for "no agent".  The statement ranges over every
number, 2 ^ 21 with it: of two stores of that core to one line, the first drops the line's other copies and leaves one that `State.stale`
does not see, so that the second meets a line "not written since its Sealed partition started", and what the first has written gives way
to values that the spec leaves open (R415). -/

namespace Sys2Proof.Machine

/-! ### Bytes of memory after a write -/

theorem memGet_memWrite_of_lt (m : Memory) (l : List Byte) {a p : Nat} (h : a < p) : memGet (memWrite m p l) a = memGet m a := by
  induction l generalizing m p with
  | nil => rfl
  | cons b t ih => exact (ih (memSet m p b) (by omega)).trans (cellGet_set_other _ _ _ _ (by omega))

theorem memGet_memWrite_first (m : Memory) (a : Nat) (b : Byte) (t : List Byte) : memGet (memWrite m a (b :: t)) a = b :=
  (memGet_memWrite_of_lt (memSet m a b) t (Nat.lt_succ_self a)).trans (cellGet_set_same _ _ _ _)

/-! ### Stores performed -/

/-- A core that holds a line modified has it already (R196). -/
theorem State.acqOwn_of_modified {s : State} {c ln : Nat} (h : Nat) (hm : (s.core c).l2st ln = some .M) : s.acqOwn c ln h = s := by
  simp only [State.acqOwn, hm]

theorem State.keepOld_mem (s : State) (ln : Nat) : (s.keepOld ln).mem = s.mem := by
  unfold State.keepOld
  split <;> rfl

theorem State.macWrite_of_good {s : State} {ln : Nat} (k : Nat) (whole : Bool) (h : cellGet false s.macBad ln = false) :
    s.macWrite k ln whole = s := by simp [State.macWrite, h]

theorem State.encrypted_of_stale {s : State} {k ln : Nat} (h : s.stale k ln = true) :
    s.encrypted k ln = { s with enc := cellSet false s.enc ln true } := by
  simp only [State.stale, Bool.and_eq_true] at h
  obtain ⟨⟨⟨hrun, -⟩, -⟩, -⟩ := h
  exact if_pos hrun

/-- R415: a stale line without a MAC reads as open values from then on. -/
theorem State.touch_of_stale {s : State} {k ln : Nat} (h : s.stale k ln = true)
    (hmac : (s.encrypted k ln).macCovers ((s.encrypted k ln).target k (ln * 64)) = false) :
    s.touch k ln = { s with
      enc := cellSet false s.enc ln true, mem := memWrite s.mem (ln * 64) ((List.range 64).map (fun i => freeBits 8 (s.free + i))),
      free := s.free + 64 } := by
  rw [State.encrypted_of_stale h] at hmac
  unfold State.touch
  rw [if_pos h]
  exact if_neg (by simp [hmac])

/-- A store into a line that its core holds modified and that is stale all the same: the line's open values, then the store's bytes. -/
theorem State.performStore_mem_of_stale {s : State} {c h off : Nat} {e : StoreEnt} (ht : s.target (coreSock c) e.pa = .dram h off)
    (hw : s.lineWaits c (lineOf e.pa) = false) (hp : e.whole = false) (hs : s.stale (coreSock c) (lineOf e.pa) = true)
    (hmac : (s.encrypted (coreSock c) (lineOf e.pa)).macCovers
      ((s.encrypted (coreSock c) (lineOf e.pa)).target (coreSock c) (lineOf e.pa * 64)) = false)
    (hbad : cellGet false s.macBad (lineOf e.pa) = false)
    (hm : (s.core c).l2st (lineOf e.pa) = some .M) :
    ∃ t, s.performStore c e = some t ∧ t.mem =
      memWrite (memWrite s.mem (lineOf e.pa * 64) ((List.range 64).map (fun i => freeBits 8 (s.free + i)))) e.pa e.bytes := by
  simp only [State.performStore, ht, hw, hp, Bool.false_eq_true, if_false, State.touch_of_stale hs hmac]
  rw [State.macWrite_of_good, State.acqOwn_of_modified]
  · refine ⟨_, rfl, ?_⟩
    split <;> simp only [State.updCore_mem, State.keepOld_mem]
  · exact hm
  · exact hbad

/-- STORE_DRAIN of two stores to one line leaves the memory that performing both leaves (R196). -/
theorem storeDrain_two {s s1 s2 : State} {c : Nat} {e f : StoreEnt} (hq : (s.core c).storeQ = [e, f]) (hl : lineOf f.pa = lineOf e.pa)
    (hf : (s.core c).frozen = false) (ho : s.outOfReset c = true) (h1 : s.performStore c e = some s1) (h2 : s1.performStore c f = some s2) :
    ∃ t, exec (.storeDrain c 0) s = .next t ∧ t.mem = s2.mem := by
  have hexec : exec (.storeDrain c 0) s = execStoreDrain c 0 s := rfl
  simp [hexec, execStoreDrain, hq, mergeRun, hl, hf, ho, State.drainList, h1, h2, State.updCore_mem]

/-! ### The counterexample -/

/-- The number that stands for "no agent", taken as a core. -/
def strayCore : Nat := 2 ^ 21

/-- The first line of the memory of that core's socket. -/
def strayLine : Nat := 2 ^ 53

def strayFirst (b : Byte) : StoreEnt := { pa := strayLine * 64, bytes := [b], whole := false, rel := false }

def straySecond : StoreEnt := { pa := strayLine * 64 + 1, bytes := [0], whole := false, rel := false }

theorem strayFirst_line (b : Byte) : lineOf (strayFirst b).pa = strayLine := by simp [lineOf, strayFirst]

/-- A running Sealed partition without MAC, its socket with 1 GiB of DRAM; core 0 shares the line that the two queued stores write. -/
def stray (b : Byte) : State :=
  let s := State.reset.wrs { sock := 4096 } [(Reg.mcCapGib, 1), (Reg.mcGeomEn, 1), (Reg.secPartSealed, 1), (Reg.chimPartState, 2)]
  (s.updCore 0 (fun k => k.setL2 strayLine (some .S))).updCore strayCore (fun k => { k with storeQ := [strayFirst b, straySecond] })

/-- The state once the first of its stores has been performed. -/
def strayMid (b : Byte) : State := ((stray b).performStore strayCore (strayFirst b)).getD (stray b)

/-- The two values of the first byte that are tried: one open value cannot be both. -/
def strayBytes : List Byte := [1, 2]

theorem stray_admitted : ∀ b ∈ strayBytes,
    ((stray b).core strayCore).storeQ = [strayFirst b, straySecond] ∧ ((stray b).core strayCore).frozen = false ∧
    ((stray b).core strayCore).region = none ∧
    (stray b).outOfReset strayCore = true ∧ (stray b).lineWaits strayCore strayLine = false ∧
    (stray b).stale (coreSock strayCore) strayLine = false := by decide

theorem stray_target : ∀ b ∈ strayBytes, (stray b).target (coreSock strayCore) (strayFirst b).pa = .dram 4096 0 ∧
    (stray b).target (coreSock strayCore) straySecond.pa = .dram 4096 1 := by decide

theorem strayMid_isSome : ∀ b ∈ strayBytes, ((stray b).performStore strayCore (strayFirst b)).isSome = true := by decide

/-- After the first store the line is stale, held modified by the core that `State.stale` leaves out. -/
theorem strayMid_stale : ∀ b ∈ strayBytes,
    (strayMid b).stale (coreSock strayCore) strayLine = true ∧ ((strayMid b).core strayCore).l2st strayLine = some .M ∧
    (strayMid b).target (coreSock strayCore) straySecond.pa = .dram 4096 1 ∧ (strayMid b).lineWaits strayCore strayLine = false ∧
    ((strayMid b).encrypted (coreSock strayCore) strayLine).macCovers
      (((strayMid b).encrypted (coreSock strayCore) strayLine).target (coreSock strayCore) (strayLine * 64)) = false ∧
    cellGet false (strayMid b).macBad strayLine = false ∧ (strayMid b).free = 0 := by decide

theorem stray_fwdByte : ∀ b ∈ strayBytes, fwdByte (stray b).mem [strayFirst b, straySecond] (strayLine * 64) = b := by decide

/-- The first store's byte is lost: the line's first byte is the first open value, whatever was stored. -/
theorem stray_drained {b : Byte} (hb : b ∈ strayBytes) :
    ∃ t, exec (.storeDrain strayCore 0) (stray b) = .next t ∧ memGet t.mem (strayLine * 64) = freeBits 8 0 := by
  obtain ⟨hq, hf, -, ho, -, -⟩ := stray_admitted b hb
  obtain ⟨hs, hm, ht, hw, hmac, hbad, h0⟩ := strayMid_stale b hb
  have h1 : (stray b).performStore strayCore (strayFirst b) = some (strayMid b) := by
    obtain ⟨s1, h1⟩ := Option.isSome_iff_exists.mp (strayMid_isSome b hb)
    simp [strayMid, h1]
  have hl : lineOf straySecond.pa = strayLine := by decide
  obtain ⟨s2, h2, hmem⟩ := State.performStore_mem_of_stale (e := straySecond) ht (hl ▸ hw) rfl (hl ▸ hs)
    (hl ▸ hmac) (hl ▸ hbad) (hl ▸ hm)
  obtain ⟨t, hexec, htm⟩ := storeDrain_two hq (hl.trans (strayFirst_line b).symm) hf ho h1 h2
  refine ⟨t, hexec, ?_⟩
  rw [htm, hmem, memGet_memWrite_of_lt _ _ (by decide), hl, h0]
  exact memGet_memWrite_first _ _ _ _

/-- Refutes O6: of two stores of core 2 ^ 21 to a line of a Sealed partition, the byte of the first is not in memory when both have been
performed, since the second finds the line stale (`stray`, with first byte 1 or 2, one of which differs from the open value read). -/
theorem not_loads_read_and_stores_write_memory : ¬ Obligations.loads_read_and_stores_write_memory := by
  unfold Obligations.loads_read_and_stores_write_memory
  rintro ⟨-, hstore⟩
  have key : ∀ b ∈ strayBytes, freeBits 8 0 = b := by
    intro b hb
    obtain ⟨hq, hf, hr, ho, hw, hs⟩ := stray_admitted b hb
    obtain ⟨ht1, ht2⟩ := stray_target b hb
    obtain ⟨t, hexec, hread⟩ := stray_drained hb
    have hrun : ([straySecond].takeWhile (fun x => lineOf x.pa = strayLine)).length = 1 := by decide
    have hdram : ∀ x ∈ [strayFirst b, straySecond],
        (∃ off, (stray b).target (coreSock strayCore) x.pa = .dram 4096 off) ∧ x.pa % 64 + x.bytes.length ≤ 64 := by
      simpa using ⟨⟨⟨_, ht1⟩, by simp [strayFirst]⟩, ⟨_, ht2⟩, by decide⟩
    have := hstore strayCore 4096 (strayFirst b) [straySecond] (stray b)
    simp only [strayFirst_line, hrun] at this
    obtain ⟨t', hexec', hmem, -⟩ := this hq hf hr ho hdram hw hs rfl (.inr rfl)
    rw [hexec] at hexec'
    cases hexec'
    rw [← hread, hmem]
    exact stray_fwdByte b hb
  exact absurd ((key 1 (by decide)).symm.trans (key 2 (by decide))) (by decide)

end Sys2Proof.Machine


/-! ## O4: the frame of a retirement and of a fetch -/

namespace Sys2Proof.Machine

/-! ### A core past a retired instruction (R88, R188, R594) -/

/-- What spending SKIP clears: bit 9 of SR.DBGCTL alone. -/
theorem getLsbD_clear_skip (x : Word) {i : Nat} (h : i ≠ 9) : (x &&& ~~~(0x200 : Word)).getLsbD i = x.getLsbD i := by
  have hpow : (0x200 : Word) = BitVec.twoPow 64 9 := by decide
  by_cases hi : i < 64
  · rw [hpow]
    simp [hi, h]
  · simp [BitVec.getLsbD_of_ge _ _ (Nat.le_of_not_lt hi)]

theorem Core.srOwn_setSrOwn_same (k : Core) (n : Nat) (x : Word) : (k.setSrOwn n x).srOwn n = x := cellGet_set_same _ _ _ _

theorem Core.srOwn_setSrOwn_other (k : Core) {n r : Nat} (x : Word) (h : r ≠ n) : (k.setSrOwn n x).srOwn r = k.srOwn r :=
  cellGet_set_other _ _ _ _ h

/-- `k'` differs from `k` in nothing that a retirement leaves unchanged. -/
structure Core.Advanced (k k' : Core) (next : Word) : Prop where
  pc : k'.pc = next
  g : k'.g = k.g
  v : k'.v = k.v
  m : k'.m = k.m
  world : k'.world = k.world
  gsr : k'.gsr = k.gsr
  storeQ : k'.storeQ = k.storeQ
  l2 : k'.l2 = k.l2
  ssArm : k'.ssArm = k.ssArm
  stepping : k'.stepping = k.stepping
  sr : ∀ n, n ≠ SR.DBGCTL → k'.srOwn n = k.srOwn n
  dbgctl : ∀ i, i ≠ 9 → (k'.srOwn SR.DBGCTL).getLsbD i = (k.srOwn SR.DBGCTL).getLsbD i

/-- A retirement clears SKIP where it is armed, and touches no other system register. -/
theorem Core.srOwn_advance (k : Core) (next : Word) (n : Nat) : (k.advance next).srOwn n =
    (if k.skipArm then k.setSrOwn SR.DBGCTL (k.srOwn SR.DBGCTL &&& ~~~(0x200 : Word)) else k).srOwn n := by
  unfold Core.advance
  cases hs : k.skipArm <;> simp [Core.srOwn, Core.setSrOwn]

theorem Core.advance_advanced (k : Core) (next : Word) : k.Advanced (k.advance next) next := by
  have hsr : ∀ n, n ≠ SR.DBGCTL → (k.advance next).srOwn n = k.srOwn n := by
    intro n hn
    rw [Core.srOwn_advance]
    split
    · exact Core.srOwn_setSrOwn_other _ _ hn
    · rfl
  have hskip : ∀ i, i ≠ 9 → ((k.advance next).srOwn SR.DBGCTL).getLsbD i = (k.srOwn SR.DBGCTL).getLsbD i := by
    intro i hi
    rw [Core.srOwn_advance]
    split
    · rw [Core.srOwn_setSrOwn_same, getLsbD_clear_skip _ hi]
    · rfl
  unfold Core.advance at hsr hskip ⊢
  constructor
  case sr => exact hsr
  case dbgctl => exact hskip
  all_goals cases hs : k.skipArm <;> simp [Core.setSrOwn]

/-! ### The system registers in effect -/

/-- A system register in effect is that of the core's world, its guest's copy or its own. -/
theorem State.sr_congr {s t : State} {c n : Nat} (hseat : t.seatSr = s.seatSr) (hw : (t.core c).world = (s.core c).world)
    (hg : (t.core c).gsr = (s.core c).gsr) (ho : ∀ r, r ≠ SR.DBGCTL → (t.core c).srOwn r = (s.core c).srOwn r) (hn : n ≠ SR.DBGCTL) :
    t.sr c n = s.sr c n := by
  have hguest : (t.core c).guest = (s.core c).guest := by unfold Core.guest; rw [hw, ho SR.XLATCTL (by decide)]
  unfold State.sr
  simp only [hseat, hw, hg, hguest, ho n hn]

/-! ### Retirement -/

/-- A state whose only difference is what core `c`'s register files hold. -/
structure State.WroteFiles (s s1 : State) (c : Nat) : Prop where
  mem : s1.mem = s.mem
  poison : s1.poison = s.poison
  regs : s1.regs = s.regs
  pending : s1.pending = s.pending
  seatSr : s1.seatSr = s.seatSr
  others : ∀ d, d ≠ c → s1.core d = s.core d
  core : ∃ g v m, s1.core c = { s.core c with g := g, v := v, m := m }

theorem State.wroteFiles_refl (s : State) (c : Nat) : s.WroteFiles s c := ⟨rfl, rfl, rfl, rfl, rfl, fun _ _ => rfl, _, _, _, rfl⟩

theorem State.wroteFiles_updCore {s : State} {c : Nat} {f : Core → Core} {g : Cells Word} {v : Cells Vec} {m : Cells Word}
    (h : f (s.core c) = { s.core c with g := g, v := v, m := m }) : s.WroteFiles (s.updCore c f) c :=
  ⟨rfl, rfl, rfl, rfl, rfl, fun _ hd => State.core_updCore_other _ _ hd, g, v, m, (State.core_updCore_same s c f).trans h⟩

theorem State.wroteFiles_setG (s : State) (c : Nat) (r : Reg5) (x : Word) : s.WroteFiles (s.setG c r x) c :=
  State.wroteFiles_updCore (g := ((s.core c).setG r x).g) (v := (s.core c).v) (m := (s.core c).m) (by
    unfold Core.setG
    split <;> rfl)

theorem State.wroteFiles_setV (s : State) (c : Nat) (r : Reg5) (x : Vec) : s.WroteFiles (s.setV c r x) c := State.wroteFiles_updCore rfl

theorem State.wroteFiles_setM (s : State) (c : Nat) (r : BitVec 3) (x : Word) : s.WroteFiles (s.setM c r x) c :=
  State.wroteFiles_updCore rfl

theorem State.WroteFiles.sr {s s1 : State} {c : Nat} (h : s.WroteFiles s1 c) {n : Nat} (hn : n ≠ SR.DBGCTL) : s1.sr c n = s.sr c n := by
  obtain ⟨g, v, m, hc⟩ := h.core
  exact State.sr_congr h.seatSr (by rw [hc]) (by rw [hc]) (fun r _ => by rw [hc]; rfl) hn

theorem State.sr_advance (s : State) (c : Nat) (next : Word) {n : Nat} (hn : n ≠ SR.DBGCTL) :
    (s.updCore c (fun k => k.advance next)).sr c n = s.sr c n := by
  have ha := (s.core c).advance_advanced next
  have hc : (s.updCore c (fun k => k.advance next)).core c = (s.core c).advance next := State.core_updCore_same _ _ _
  exact State.sr_congr (State.updCore_seatSr _ _ _) (by rw [hc, ha.world]) (by rw [hc, ha.gsr]) (fun r hr => by rw [hc, ha.sr r hr]) hn

/-- No event is due: no precise arithmetic exception (R88), no single step (R594), no debugger's step (R590). -/
structure State.Quiet (s : State) (c : Nat) : Prop where
  arith : (s.precise c && (s.sr c SR.FPSTAT).getLsbD 8) = false
  ssArm : (s.core c).ssArm = false
  stepping : (s.core c).stepping = false

theorem State.Quiet.wroteFiles {s s1 : State} {c : Nat} (h : s.Quiet c) (hw : s.WroteFiles s1 c) : s1.Quiet c := by
  obtain ⟨g, v, m, hc⟩ := hw.core
  constructor
  · unfold State.precise
    rw [hw.sr (by decide), hw.sr (by decide)]
    exact h.arith
  · rw [hc]
    exact h.ssArm
  · rw [hc]
    exact h.stepping

theorem State.retireInstr_of_quiet {s : State} {c : Nat} (next : Word) (h : s.Quiet c) :
    s.retireInstr c next = some (s.updCore c (fun k => k.advance next)) := by
  have ha := (s.core c).advance_advanced next
  have harith := h.arith
  unfold State.precise at harith
  unfold State.retireInstr State.precise
  simp only [State.sr_advance s c next (n := SR.CORECTL) (by decide), State.sr_advance s c next (n := SR.FPSTAT) (by decide), harith,
    State.core_updCore_same, ha.ssArm, h.ssArm, Bool.false_eq_true, if_false, Option.map_some, State.stepDone, ha.stepping, h.stepping]

/-- The frame of a retirement: what `t` shares with the state `s` that the instruction found. -/
structure State.RetiredTo (s t : State) (c : Nat) (next : Word) : Prop where
  pc : t.pc c = next
  mem : t.mem = s.mem
  poison : t.poison = s.poison
  regs : t.regs = s.regs
  pending : t.pending = s.pending
  others : ∀ d, d ≠ c → t.core d = s.core d
  storeQ : (t.core c).storeQ = (s.core c).storeQ
  l2 : (t.core c).l2 = (s.core c).l2
  world : (t.core c).world = (s.core c).world
  sr : ∀ n, n ≠ SR.DBGCTL → (t.core c).srOwn n = (s.core c).srOwn n
  dbgctl : ∀ i, i ≠ 9 → ((t.core c).srOwn SR.DBGCTL).getLsbD i = ((s.core c).srOwn SR.DBGCTL).getLsbD i

/-- An instruction that has written register files only retires: the frame, and the files as written. -/
theorem State.WroteFiles.retires {s s1 : State} {c : Nat} (hw : s.WroteFiles s1 c) (h : s.Quiet c) (next : Word) :
    ∃ t, s1.retireInstr c next = some t ∧ s.RetiredTo t c next ∧
      (t.core c).g = (s1.core c).g ∧ (t.core c).v = (s1.core c).v ∧ (t.core c).m = (s1.core c).m := by
  have ha := (s1.core c).advance_advanced next
  refine ⟨_, State.retireInstr_of_quiet next (h.wroteFiles hw), ?_, ?_⟩
  · obtain ⟨g, v, m, hc⟩ := hw.core
    rw [hc] at ha
    refine ⟨?_, hw.mem, hw.poison, hw.regs, hw.pending, ?_, ?_, ?_, ?_, ?_, ?_⟩
    case refine_2 => exact fun d hd => (State.core_updCore_other _ _ hd).trans (hw.others d hd)
    all_goals simp only [State.pc, State.core_updCore_same, hc]
    · exact ha.pc
    · exact ha.storeQ
    · exact ha.l2
    · exact ha.world
    · exact ha.sr
    · exact ha.dbgctl
  · simp only [State.core_updCore_same]
    exact ⟨ha.g, ha.v, ha.m⟩

/-- The first half of O4: what each way of retiring leaves unchanged. -/
theorem retirement_frame {s : State} {c : Nat} (h : s.Quiet c) (len : Nat) (a : Reg5) (m : BitVec 3) (x : Word) (y : Vec) :
    (∀ u ∈ [s.wroteG c len a x, s.wroteV c len a y, s.wroteM c len m x, s.retireInstr c (s.nextPc c len)],
      ∃ t, u = some t ∧ s.RetiredTo t c (s.nextPc c len)) := by
  intro u hu
  have key : ∀ {s1 : State}, s.WroteFiles s1 c → ∃ t, s1.retireInstr c (s.nextPc c len) = some t ∧ s.RetiredTo t c (s.nextPc c len) := by
    intro s1 hw
    obtain ⟨t, ht, hr, -⟩ := hw.retires h (s.nextPc c len)
    exact ⟨t, ht, hr⟩
  simp only [List.mem_cons, List.not_mem_nil, or_false] at hu
  obtain rfl | rfl | rfl | rfl := hu
  · exact key (s.wroteFiles_setG c a x)
  · exact key (s.wroteFiles_setV c a y)
  · exact key (s.wroteFiles_setM c m x)
  · exact key (s.wroteFiles_refl c)

/-- What stands in the register files once a write of one of them has retired. -/
theorem State.WroteFiles.files {s s1 t : State} {c : Nat} (hw : s.WroteFiles s1 c) (h : s.Quiet c) {next : Word}
    (ht : s1.retireInstr c next = some t) :
    (t.core c).g = (s1.core c).g ∧ (t.core c).v = (s1.core c).v ∧ (t.core c).m = (s1.core c).m := by
  obtain ⟨t', ht', -, hfiles⟩ := hw.retires h next
  cases ht.symm.trans ht'
  exact hfiles

theorem State.Quiet.wroteG_files {s t : State} {c len : Nat} {a : Reg5} {x : Word} (h : s.Quiet c) (ht : s.wroteG c len a x = some t) :
    (∀ r, r ≠ a → t.g c r = s.g c r) ∧ (a ≠ 0 → t.g c a = x) ∧ t.g c 0 = 0 ∧ (t.core c).v = (s.core c).v ∧
      (t.core c).m = (s.core c).m := by
  obtain ⟨hg, hv, hm⟩ := (s.wroteFiles_setG c a x).files h ht
  simp only [State.setG, State.core_updCore_same] at hg hv hm
  have hgr : ∀ r, t.g c r = ((s.core c).setG a x).gr r := fun r => by simp only [State.g, Core.gr, hg]
  simp only [hgr]
  refine ⟨fun r hr => Core.gr_setG_other _ _ hr, fun ha => Core.gr_setG_same _ _ ha, rfl, ?_, ?_⟩
  · rw [hv]
    unfold Core.setG
    split <;> rfl
  · rw [hm]
    unfold Core.setG
    split <;> rfl

theorem State.Quiet.wroteV_files {s t : State} {c len : Nat} {a : Reg5} {y : Vec} (h : s.Quiet c) (ht : s.wroteV c len a y = some t) :
    (∀ r, r ≠ a → t.v c r = s.v c r) ∧ t.v c a = y ∧ (t.core c).g = (s.core c).g ∧ (t.core c).m = (s.core c).m := by
  obtain ⟨hg, hv, hm⟩ := (s.wroteFiles_setV c a y).files h ht
  simp only [State.setV, State.core_updCore_same] at hg hv hm
  have hvr : ∀ r, t.v c r = ((s.core c).setV a y).vr r := fun r => by simp only [State.v, Core.vr, hv]
  simp only [hvr]
  exact ⟨fun r hr => Core.vr_setV_other _ _ hr, Core.vr_setV_same _ _ _, hg, hm⟩

theorem State.Quiet.wroteM_files {s t : State} {c len : Nat} {m : BitVec 3} {x : Word} (h : s.Quiet c)
    (ht : s.wroteM c len m x = some t) :
    (∀ n, n ≠ m → (t.core c).mr n = (s.core c).mr n) ∧ (t.core c).mr m = x ∧ (t.core c).g = (s.core c).g ∧
      (t.core c).v = (s.core c).v := by
  obtain ⟨hg, hv, hm⟩ := (s.wroteFiles_setM c m x).files h ht
  simp only [State.setM, State.core_updCore_same] at hg hv hm
  have hmr : ∀ r, (t.core c).mr r = ((s.core c).setM m x).mr r := fun r => by simp only [Core.mr, hm]
  simp only [hmr]
  exact ⟨fun r hr => Core.mr_setM_other _ _ hr, Core.mr_setM_same _ _ _, hg, hv⟩

end Sys2Proof.Machine


/-! ### What the fabric does for a core's fetch leaves the core's own context alone (R118, R196, R240)

A fetch takes lines, makes room for them, walks tables and sets their A bits.  Of the core that fetches, outside a region, this changes its
caches only: a snoop that takes a line from it has no region to abort. -/

namespace Sys2Proof.Machine

/-- `k'` is outside a region and has the registers, the pc, the world and the stores of `k`. -/
structure Core.SameContext (k k' : Core) : Prop where
  g : k'.g = k.g
  v : k'.v = k.v
  m : k'.m = k.m
  pc : k'.pc = k.pc
  sr : k'.sr = k.sr
  storeQ : k'.storeQ = k.storeQ
  world : k'.world = k.world
  region : k'.region = none

/-- Core `c` of `s` is outside a region and has the context of `k`. -/
def State.Kept (k : Core) (c : Nat) (s : State) : Prop := k.SameContext (s.core c)

/-! #### One core -/

section
variable {k k' : Core}

theorem Core.SameContext.setL2 (h : k.SameContext k') (ln : Nat) (x : Option L2St) : k.SameContext (k'.setL2 ln x) :=
  ⟨h.g, h.v, h.m, h.pc, h.sr, h.storeQ, h.world, h.region⟩

theorem Core.SameContext.fillL1i (h : k.SameContext k') (ln : Nat) (x : Vec) : k.SameContext (k'.fillL1i ln x) :=
  ⟨h.g, h.v, h.m, h.pc, h.sr, h.storeQ, h.world, h.region⟩

theorem Core.SameContext.walkCache (h : k.SameContext k') (wc : List WcE) : k.SameContext { k' with wc := wc } :=
  ⟨h.g, h.v, h.m, h.pc, h.sr, h.storeQ, h.world, h.region⟩

theorem Core.SameContext.tlbPut (h : k.SameContext k') (acc : Acc) (e : TlbE) : k.SameContext (k'.tlbPut acc e) :=
  ⟨h.g, h.v, h.m, h.pc, h.sr, h.storeQ, h.world, h.region⟩

/-- A core outside a region has no region for a snoop to abort (R118). -/
theorem Core.SameContext.not_member (h : k.SameContext k') (ln : Nat) : k'.member ln = false := by simp [Core.member, h.region]

theorem Core.SameContext.snoopDrop (h : k.SameContext k') (ln : Nat) : k.SameContext (k'.snoopDrop ln) := by
  simp only [Core.snoopDrop, h.not_member ln, Bool.false_eq_true, if_false]
  exact h.setL2 ln none

theorem Core.SameContext.snoopDown (h : k.SameContext k') (ln : Nat) : k.SameContext (k'.snoopDown ln) := by
  simp only [Core.snoopDown, h.not_member ln, Bool.false_eq_true, if_false]
  split
  · exact h.setL2 ln _
  · exact h.setL2 ln _
  · exact h

end

/-! #### Operations that touch no core -/

@[simp] theorem State.setBits_cores (s : State) (ln : Nat) (b : DirBits) : (s.setBits ln b).cores = s.cores := rfl

@[simp] theorem State.setPoison_cores (s : State) (ln : Nat) (b : Bool) : (s.setPoison ln b).cores = s.cores := rfl

@[simp] theorem State.wroteHome_cores (s : State) (ln : Nat) : (s.wroteHome ln).cores = s.cores := rfl

@[simp] theorem State.sfShare_cores (s : State) (ln : Nat) : (s.sfShare ln).cores = s.cores := rfl

@[simp] theorem State.sliceClear_cores (s : State) (p : Nat → Nat → Bool) : (s.sliceClear p).cores = s.cores := rfl

@[simp] theorem State.rscOwn_cores (s : State) (h ln q : Nat) : (s.rscOwn h ln q).cores = s.cores := rfl

@[simp] theorem State.rscAdd_cores (s : State) (h ln q : Nat) : (s.rscAdd h ln q).cores = s.cores := rfl

@[simp] theorem State.sfAdd_cores (s : State) (c ln : Nat) (e : Bool) : (s.sfAdd c ln e).cores = s.cores := by
  unfold State.sfAdd
  dsimp only
  split <;> rfl

@[simp] theorem State.gatePass_cores (s : State) (c h : Nat) : (s.gatePass c h).cores = s.cores := by
  have hexempt : ∀ k f, (s.exempt k f).cores = s.cores := fun k f => by unfold State.exempt; split <;> rfl
  unfold State.gatePass
  split
  · dsimp only
    split <;> split <;> simp [State.gateTake, hexempt]
  · rfl

@[simp] theorem State.unbuffer_cores (s : State) (h ln : Nat) : (s.unbuffer h ln).cores = s.cores := by
  unfold State.unbuffer
  dsimp only
  split <;> rfl

@[simp] theorem State.settle_cores (s : State) (h ln : Nat) : (s.settle h ln).cores = s.cores := by
  unfold State.settle
  split
  · rfl
  · split <;> rfl

@[simp] theorem State.sfRemove_cores (s : State) (c ln : Nat) : (s.sfRemove c ln).cores = s.cores := by
  unfold State.sfRemove
  dsimp only
  split <;> rfl

@[simp] theorem State.evHome_cores (s : State) (q ln : Nat) : (s.evHome q ln).cores = s.cores := by
  unfold State.evHome
  split
  · dsimp only
    split
    · rfl
    · split <;> rfl
  · rfl

@[simp] theorem State.lastCopy_cores (s : State) (q ln : Nat) : (s.lastCopy q ln).cores = s.cores := by
  unfold State.lastCopy
  split
  · rfl
  · dsimp only
    split
    · split <;> simp
    · split <;> simp
    · rfl

theorem foldl_lastCopy_cores (q : Nat) (l : List Nat) (s : State) : (l.foldl (fun s x => s.lastCopy q x) s).cores = s.cores := by
  induction l generalizing s with
  | nil => rfl
  | cons x t ih => exact (ih (s.lastCopy q x)).trans (s.lastCopy_cores q x)

@[simp] theorem State.slicePut_cores (s : State) (q ln : Nat) : (s.slicePut q ln).cores = s.cores := foldl_lastCopy_cores _ _ _

/-! #### The context through changes of the cores -/

theorem cellFind_map {α : Type} (m : Cells α) (f : Nat × α → Nat × α) (hf : ∀ e, (f e).1 = e.1) (j : Nat) :
    cellFind (m.map f) j = (cellFind m j).map (fun v => (f (j, v)).2) := by
  induction m with
  | nil => rfl
  | cons e t ih =>
    obtain ⟨i, v⟩ := e
    simp only [List.map_cons, cellFind, hf (i, v), ih]
    split
    · rename_i hi
      subst hi
      rfl
    · rfl

section
variable {k : Core} {c : Nat} {s t : State}

theorem State.Kept.of_cores (h : s.Kept k c) (ht : t.cores = s.cores) : t.Kept k c := by
  have hcore : t.core c = s.core c := by unfold State.core; rw [ht]
  unfold State.Kept
  exact hcore ▸ h

theorem State.Kept.updCore (h : s.Kept k c) (d : Nat) {f : Core → Core} (hf : ∀ k', k.SameContext k' → k.SameContext (f k')) :
    (s.updCore d f).Kept k c := by
  unfold State.Kept
  by_cases hd : c = d
  · subst hd
    rw [State.core_updCore_same]
    exact hf _ h
  · rw [State.core_updCore_other _ _ hd]
    exact h

theorem State.Kept.mapCores (h : s.Kept k c) {f : Nat × Core → Nat × Core} (ht : t.cores = s.cores.map f) (hkey : ∀ e, (f e).1 = e.1)
    (hf : ∀ e, k.SameContext e.2 → k.SameContext (f e).2) : t.Kept k c := by
  unfold State.Kept State.core cellGet at h ⊢
  rw [ht, cellFind_map _ _ hkey]
  cases hc : cellFind s.cores c with
  | none => simpa [hc] using h
  | some k' =>
    rw [hc] at h
    exact hf (c, k') h

theorem State.Kept.others (h : s.Kept k c) (d : Nat) {f : Core → Core} (hf : ∀ k', k.SameContext k' → k.SameContext (f k')) :
    (s.others d f).Kept k c := by
  refine h.mapCores (t := s.others d f) rfl (fun e => ?_) (fun e he => ?_)
  · split <;> rfl
  · split
    · exact he
    · exact hf _ he

theorem State.Kept.evict (h : s.Kept k c) (d ln : Nat) : (s.evict d ln).Kept k c := by
  unfold State.evict
  split
  · exact h
  · refine State.Kept.of_cores (s := s.updCore d (fun k => k.setL2 ln none)) (h.updCore d (fun k' hk => hk.setL2 ln none)) ?_
    have hcores : ∀ z, ((s.gatePass d z).updCore d (fun k => k.setL2 ln none)).cores = (s.updCore d (fun k => k.setL2 ln none)).cores := by
      intro z
      simp [State.updCore, State.setCore, State.core]
    dsimp only
    repeat' split
    all_goals simp [hcores]

end

end Sys2Proof.Machine


/-! ### A line taken for a fetch (R25, R189, R297, R300, R305) -/

namespace Sys2Proof.Machine

section
variable {k : Core} {c : Nat} {s : State}

theorem State.Kept.ite {t : State} {p : Prop} [Decidable p] (hs : s.Kept k c) (ht : t.Kept k c) : (if p then s else t).Kept k c := by
  split
  · exact hs
  · exact ht

/-! #### Room for the line -/

theorem State.Kept.roomL2 (h : s.Kept k c) (d ln : Nat) : (s.roomL2 d ln).Kept k c := by
  unfold State.roomL2
  exact .ite h ((h.of_cores s.useFree_cores).evict d _)

theorem State.Kept.recallFrom (h : s.Kept k c) (d ln : Nat) : (s.recallFrom d ln).Kept k c := by
  unfold State.recallFrom
  refine State.Kept.evict ?_ d ln
  by_cases hd : c = d
  · subst hd
    refine h.updCore c (fun k' hk => ?_)
    simp only [hk.not_member ln, Bool.false_eq_true, if_false]
    exact hk
  · unfold State.Kept
    rw [State.core_updCore_other _ _ hd]
    exact h

theorem State.Kept.foldl_recallFrom (l : List Nat) (ln : Nat) :
    ∀ {s : State}, s.Kept k c → (l.foldl (fun s d => s.recallFrom d ln) s).Kept k c := by
  induction l with
  | nil => exact id
  | cons d t ih => exact fun h => ih (h.recallFrom d ln)

theorem State.Kept.sfEvict (h : s.Kept k c) (q ln : Nat) : (s.sfEvict q ln).Kept k c :=
  State.Kept.of_cores (State.Kept.foldl_recallFrom _ ln h) rfl

theorem State.Kept.roomSf (h : s.Kept k c) (q ln : Nat) : (s.roomSf q ln).Kept k c := by
  unfold State.roomSf
  dsimp only
  split
  · exact h
  · split
    · exact h.sfEvict q _
    · exact h

theorem State.Kept.room (h : s.Kept k c) (d ln : Nat) : (s.room d ln).Kept k c := by
  unfold State.room
  split
  · exact h
  · exact (h.roomL2 d ln).roomSf _ ln

theorem State.Kept.recallAll (h : s.Kept k c) (ln hm : Nat) : (s.recallAll ln hm).Kept k c := by
  refine State.Kept.mapCores (f := fun e => (e.1, Core.snoopDrop ln e.2)) h ?_ (fun _ => rfl) (fun e he => he.snoopDrop ln)
  simp [State.recallAll]

theorem State.Kept.rscEvict (h : s.Kept k c) (hm tile x : Nat) : (s.rscEvict hm tile x).Kept k c := by
  unfold State.rscEvict
  dsimp only
  split
  · exact h.of_cores rfl
  · split
    · exact h
    · exact (h.recallAll _ hm).of_cores rfl
    · exact h.of_cores rfl

theorem State.Kept.roomRscSet (hm tile n : Nat) : ∀ (i : Nat) {s : State}, s.Kept k c → (State.roomRscSet hm tile n i s).Kept k c := by
  induction n with
  | zero => exact fun _ _ h => h
  | succ n ih =>
    intro i s h
    unfold State.roomRscSet
    dsimp only
    split
    · exact h
    · split
      · exact h.rscEvict hm tile _
      · split
        · refine State.Kept.rscEvict ?_ hm tile _
          split
          · exact ih _ h
          · exact h
        · split
          · exact h.rscEvict hm tile _
          · exact h

theorem State.Kept.roomRsc (h : s.Kept k c) (hm ln : Nat) : (s.roomRsc hm ln).Kept k c := by
  unfold State.roomRsc
  split
  · exact h
  · exact State.Kept.roomRscSet _ _ _ _ h

/-! #### The read -/

theorem State.Kept.shareIn (h : s.Kept k c) (q hm ln : Nat) : (s.shareIn q hm ln).Kept k c := by
  have hmap : State.Kept k c { s with cores := s.cores.map (fun e => if coreSock e.1 = q then (e.1, Core.snoopDown ln e.2) else e) } := by
    refine h.mapCores rfl (fun e => ?_) (fun e he => ?_)
    · split <;> rfl
    · split
      · exact he.snoopDown ln
      · exact he
  unfold State.shareIn
  dsimp only
  split
  · exact hmap
  · split
    · exact hmap.of_cores rfl
    · exact hmap.of_cores rfl

/-- What a caching slice gives: the line in the reader's L2 (Table HRTH-4). -/
theorem State.Kept.sliceGive (h : s.Kept k c) (d ln q : Nat) (e inL : Bool) (x : L2St) :
    (((if inL then s.slicePut q ln else s).sfAdd d ln e).updCore d (fun k => k.setL2 ln (some x))).Kept k c := by
  refine State.Kept.updCore (h.of_cores ?_) d (fun k' hk => hk.setL2 ln _)
  cases inL <;> simp

theorem State.Kept.sliceRead (h : s.Kept k c) {d ln hm : Nat} {mayE : Bool} {t : State} (ht : s.sliceRead d ln hm mayE = some t) :
    t.Kept k c := by
  unfold State.sliceRead at ht
  dsimp only at ht
  split at ht
  · cases ht
  · split at ht
    · split at ht
      · cases ht
        exact h.sliceGive d ln _ _ _ _
      · cases ht
    · split at ht
      · cases ht
      · split at ht
        · cases ht
        · cases ht
          exact (h.shareIn _ hm ln).sliceGive d ln _ _ _ _

theorem State.Kept.acqShared (h : s.Kept k c) (d ln hm : Nat) (mayE : Bool) : (s.acqShared d ln hm mayE).Kept k c := by
  unfold State.acqShared
  split
  · exact h
  · have h1 : ((s.room d ln).gatePass d hm).Kept k c := (h.room d ln).of_cores (by simp)
    dsimp only
    split
    · rename_i t ht
      exact h1.sliceRead ht
    · refine State.Kept.updCore ?_ d (fun k' hk => hk.setL2 ln _)
      have h2 : ((if coreSock d = hm then (s.room d ln).gatePass d hm else ((s.room d ln).gatePass d hm).roomRsc hm ln).settle hm ln).Kept k c :=
        State.Kept.of_cores (h1.ite (h1.roomRsc hm ln)) (State.settle_cores _ _ _)
      revert h2
      generalize (if coreSock d = hm then (s.room d ln).gatePass d hm else ((s.room d ln).gatePass d hm).roomRsc hm ln).settle hm ln = x
      intro h2
      have h3 : (x.unbuffer hm ln).Kept k c := h2.of_cores (State.unbuffer_cores _ _ _)
      have h4 : (((x.unbuffer hm ln).others d (Core.snoopDown ln)).wroteHome ln).Kept k c :=
        (h3.others d (fun k' hk => hk.snoopDown ln)).of_cores rfl
      cases x.ownerSock d ln with
      | some o =>
        refine h4.of_cores ?_
        simp only [↓State.sfAdd_cores, ↓apply_ite State.cores, ↓State.slicePut_cores, ↓State.rscOwn_cores, ↓State.rscAdd_cores,
          ↓State.setBits_cores, ↓State.sfShare_cores, ite_self]
      | none =>
        refine h3.of_cores ?_
        simp only [↓State.sfAdd_cores, ↓apply_ite State.cores, ↓State.slicePut_cores, ↓State.rscOwn_cores, ↓State.rscAdd_cores,
          ↓State.setBits_cores, ite_self]

end

end Sys2Proof.Machine


/-! ### The pages of a fetch translated (R125, R227-R243) -/

namespace Sys2Proof.Machine

/-- A walk or access that is done leaves the context of core `c` as that of `k`. -/
def XR.Kept {α : Type} (k : Core) (c : Nat) (r : XR α) : Prop := ∀ a t, r = .ok a t → t.Kept k c

section
variable {α β : Type} {k : Core} {c : Nat} {s : State}

theorem XR.Kept.ok (a : α) (h : s.Kept k c) : (XR.ok a s).Kept k c := by
  intro b t ht
  cases ht
  exact h

theorem XR.Kept.bad (e : XErr) (s : State) : (XR.bad (α := α) e s).Kept k c := by
  intro b t ht
  cases ht

theorem XR.Kept.wait : (XR.wait (α := α)).Kept k c := by
  intro b t ht
  cases ht

theorem XR.Kept.bind {r : XR α} {f : α → State → XR β} (hr : r.Kept k c) (hf : ∀ a t, t.Kept k c → (f a t).Kept k c) :
    (r.bind f).Kept k c := by
  cases r with
  | ok a t => exact hf a t (hr a t rfl)
  | bad e t => exact .bad e t
  | wait => exact .wait

theorem XR.Kept.ite {r r' : XR α} {p : Prop} [Decidable p] (h : r.Kept k c) (h' : r'.Kept k c) : (if p then r else r').Kept k c := by
  split
  · exact h
  · exact h'

/-! #### Table entries -/

theorem State.Kept.touch (h : s.Kept k c) (q ln : Nat) : (s.touch q ln).Kept k c := h.of_cores (s.touch_cores q ln)

theorem State.Kept.fill (h : s.Kept k c) (x : XCtx) (ln hm : Nat) : (x.fill s ln hm).Kept k c := by
  unfold XCtx.fill
  exact .ite (h.acqShared _ ln hm true) h

theorem State.Kept.readEntry (h : s.Kept k c) (x : XCtx) (acc : Acc) (addr lvl : Nat) (st2 : Bool) (pa : Nat) :
    (readEntry x acc addr lvl st2 pa s).Kept k c := by
  have ht := h.touch x.sock (lineOf pa)
  unfold Sys2Proof.Machine.readEntry
  dsimp only
  split
  · exact .bad _ _
  · split
    case h_4 | h_5 => exact .ite .wait (.ite (.bad _ _) (.ok _ (ht.fill x _ _)))
    all_goals exact .bad _ _

theorem State.Kept.setAD (h : s.Kept k c) (x : XCtx) (ea raw : Nat) (d : Bool) : (setAD x ea raw d s).Kept k c := by
  unfold Sys2Proof.Machine.setAD
  exact .ite .wait (.ite (.ok _ h) (.ok _ ((h.recallAll _ _).of_cores rfl)))

/-! #### Walks -/

theorem State.Kept.walk2 (x : XCtx) (acc : Acc) (ipa lvl : Nat) :
    ∀ (t : Nat) (p : Path) {s : State}, s.Kept k c → (walk2 x acc ipa lvl t p s).Kept k c := by
  induction lvl with
  | zero => exact fun _ _ _ _ => .bad _ _
  | succ lvl ih =>
    intro t p s h
    unfold Sys2Proof.Machine.walk2
    dsimp only
    split
    · exact .wait
    · exact .bad _ _
    · rename_i hr
      have h' := h.readEntry _ _ _ _ _ _ _ _ hr
      exact .ite (.bad _ _) (.ite (.ok _ h') (ih _ _ h'))

theorem State.Kept.stage2 (h : s.Kept k c) (x : XCtx) (wc : List WcE) (acc : Acc) (okR : Nat → Bool) (ipa : Nat) (p : Path) :
    (stage2 x wc acc okR ipa p s).Kept k c :=
  XR.Kept.bind (State.Kept.walk2 x acc ipa _ _ p h) (fun _ _ ht => .ite (.ok _ ht) (.bad _ _))

theorem State.Kept.tablePa (h : s.Kept k c) (x : XCtx) (wc : List WcE) (acc : Acc) (t : Nat) (p : Path) :
    (tablePa x wc acc t p s).Kept k c := by
  unfold Sys2Proof.Machine.tablePa
  refine .ite ?_ (.ok _ h)
  split
  · exact .ok _ h
  · exact (h.stage2 x wc acc _ t p).bind (fun _ _ ht => .ite ((ht.setAD x _ _ _).bind (fun _ _ hu => .ok _ hu)) (.ok _ ht))

theorem State.Kept.walk1 (x : XCtx) (wc : List WcE) (acc : Acc) (va lvl : Nat) :
    ∀ (t : Nat) (p : Path) {s : State}, s.Kept k c → (walk1 x wc acc va lvl t p s).Kept k c := by
  induction lvl with
  | zero => exact fun _ _ _ _ => .bad _ _
  | succ lvl ih =>
    intro t p s h
    unfold Sys2Proof.Machine.walk1
    dsimp only
    split
    · exact .wait
    · exact .bad _ _
    · rename_i htable
      have h1 := h.tablePa _ _ _ _ _ _ _ htable
      refine .ite (.bad _ _) ?_
      split
      · exact .wait
      · exact .bad _ _
      · rename_i hentry
        have h2 := h1.readEntry _ _ _ _ _ _ _ _ hentry
        exact .ite (.bad _ _) (.ite (.ok _ h2) (ih _ _ h2))

theorem State.Kept.owed1 (h : s.Kept k c) (x : XCtx) (wc : List WcE) (acc : Acc) (l : Leaf) : (owed1 x wc acc l s).Kept k c := by
  unfold Sys2Proof.Machine.owed1
  exact .ite (.ok _ h) (.ite ((h.stage2 x wc acc _ _ _).bind (fun _ _ ht => .ok _ ht)) (.ok _ h))

/-! #### Translations -/

theorem State.Kept.translate (h : s.Kept k c) (x : XCtx) (tlb : List TlbE) (wc : List WcE) (acc : Acc) (va : Word) :
    (translate x tlb wc acc va s).Kept k c := by
  unfold Sys2Proof.Machine.translate
  dsimp only
  refine .ite (.ite (.bad _ _) ?_) (.ite (.bad _ _) (.ite ?_ (.ok _ h)))
  · split
    · exact .ok _ h
    · refine (State.Kept.walk1 _ wc acc _ _ _ _ h).bind (fun _ _ h1 => (h1.owed1 _ wc acc _).bind (fun _ _ h2 => .ite ?_ (.ok _ h2)))
      exact (h2.stage2 _ wc acc _ _ _).bind (fun _ _ h3 => .ok _ h3)
  · exact (h.stage2 _ wc acc _ _ _).bind (fun _ _ h1 => .ok _ h1)

theorem State.Kept.payAD (x : XCtx) (owed : List (Nat × Nat × Bool)) : ∀ {s : State}, s.Kept k c → (payAD x owed s).Kept k c := by
  induction owed with
  | nil => exact fun h => .ok _ h
  | cons o t ih => exact fun h => (h.setAD x _ _ _).bind (fun _ _ ht => ih ht)

theorem State.Kept.install (h : s.Kept k c) (d : Nat) (acc : Acc) (t : Tr) : (s.install d acc t).Kept k c := by
  unfold State.install
  refine .ite h (h.updCore d (fun k' hk => ?_))
  cases t.tlb with
  | none => exact hk.walkCache _
  | some e => exact (hk.tlbPut acc e).walkCache _

theorem State.Kept.paid (d : Nat) (acc : Acc) (ts : List Tr) : ∀ {s : State}, s.Kept k c → (s.paid d acc ts).Kept k c := by
  induction ts with
  | nil => exact fun h => .ok _ h
  | cons t ts ih => exact fun h => (State.Kept.payAD _ t.owed h).bind (fun _ _ hu => ih (hu.install d acc t))

theorem State.Kept.spans (h : s.Kept k c) (d : Nat) (acc : Acc) (va : Word) (size : Nat) : (s.spans d acc va size).Kept k c := by
  have hone : ∀ {s : State} (va : Word), s.Kept k c →
      ((Sys2Proof.Machine.translate (s.xctx d) ((s.core d).tlbs acc) (s.core d).wc acc va s).bind (fun t u =>
        match checkAcc (u.xctx d) acc va t u with | some e => .bad e u | none => .ok t u)).Kept k c := by
    refine fun va h => (h.translate _ _ _ acc va).bind (fun t u hu => ?_)
    split
    · exact .bad _ _
    · exact .ok _ hu
  unfold State.spans
  exact (hone va h).bind (fun _ _ h1 => .ite (.ok _ h1) ((hone _ h1).bind (fun _ _ h2 => .ok _ h2)))

/-! #### The fetch -/

theorem State.Kept.touchAll (d : Nat) (ps : List Span) : ∀ {s : State}, s.Kept k c → (s.touchAll d ps).Kept k c := by
  induction ps with
  | nil => exact id
  | cons p ps ih => exact fun h => ih (.ite h ((h.touch _ _).touch _ _))

theorem State.Kept.fillLine (h : s.Kept k c) (d ln : Nat) : (s.fillLine d ln).Kept k c := by
  unfold State.fillLine
  refine .ite h (State.Kept.updCore ?_ d (fun k' hk => hk.fillL1i ln _))
  split
  · exact h.acqShared d ln _ false
  · exact h.acqShared d ln _ false
  · exact h

theorem State.Kept.takeLines {w : State → Nat → Bool} {f : State → Nat → State} (hf : ∀ {s : State} ln, s.Kept k c → (f s ln).Kept k c)
    (l : List Nat) : ∀ {s t : State}, s.Kept k c → takeLines w f l s = some t → t.Kept k c := by
  induction l with
  | nil =>
    intro s t h ht
    cases ht
    exact h
  | cons ln l ih =>
    intro s t h ht
    unfold Sys2Proof.Machine.takeLines at ht
    split at ht
    · cases ht
    · exact ih (hf ln h) ht

/-- A comparator that matches ends the instruction: one that does not changes nothing (R62). -/
theorem State.watch_ok {d : Nat} {va : Word} {f l w : Bool} {t : State} (h : s.watch d va f l w = .ok () t) : t = s := by
  unfold State.watch at h
  split at h
  · cases h
    rfl
  · dsimp only at h
    split at h <;> cases h

theorem State.Kept.fetch (h : s.Kept k c) {d len : Nat} {t : State} (ht : s.fetch d len = .ok () t) : t.Kept k c := by
  unfold State.fetch at ht
  dsimp only at ht
  split at ht
  · cases ht
  · cases ht
  · rename_i ps ts s1 hspans
    have h1 := h.spans _ _ _ _ _ _ hspans
    split at ht
    · cases ht
    · split at ht
      · cases ht
      · cases ht
      · rename_i hpaid
        have h2 := State.Kept.touchAll d ps (State.Kept.paid _ _ _ h1 _ _ hpaid)
        split at ht
        · cases ht
        · split at ht
          · cases ht
          · rename_i hlines
            rw [State.watch_ok ht]
            exact State.Kept.takeLines (fun ln hs => hs.fillLine d ln) _ h2 hlines

end

/-- Settles O4: a retirement with nothing due is `Core.advance`; a fetch keeps the context of its core through every step of the
translation and of the lines' arrival. -/
theorem retirement_and_fetch_frame : Obligations.retirement_and_fetch_frame := by
  unfold Obligations.retirement_and_fetch_frame
  refine ⟨fun c len a m x y s harith harm hstep => ?_, fun c len s t hr ht => ?_⟩
  · have h : s.Quiet c := ⟨harith, harm, hstep⟩
    refine ⟨fun u hu => ?_, fun t ht => h.wroteG_files ht, fun t ht => h.wroteV_files ht, fun t ht => h.wroteM_files ht,
      fun t ht => (s.wroteFiles_refl c).files h ht⟩
    obtain ⟨t, hu, hf⟩ := retirement_frame h len a m x y u hu
    exact ⟨t, hu, hf.pc, hf.mem, hf.poison, hf.regs, hf.pending, hf.others, hf.storeQ, hf.l2, hf.world, hf.sr, hf.dbgctl⟩
  · have h : s.Kept (s.core c) c := ⟨rfl, rfl, rfl, rfl, rfl, rfl, rfl, hr⟩
    have hk := h.fetch ht
    have hf := State.fetch_keeps (x1 := c) (x2 := len) (Keeps.refl s)
    rw [ht] at hf
    cases hf with
    | okI hq => exact ⟨hk.g, hk.v, hk.m, hk.pc, hk.sr, hk.storeQ, hk.world, hq.pending, hq.time⟩

end Sys2Proof.Machine

/-! ## Instructions that no region allows (R86, R91, R116) -/

namespace Sys2Proof.Machine

section
variable {s s0 t : State} {c : Nat} {i : Instr} {body : State → Res Word}

/-- Outside a region such an instruction, with its effect, retires. -/
theorem State.Fetched.next_done (h : s.Fetched c 4 s0) (hr : (s0.core c).region = none)
    (hi : exec i s = .next (s.instr c 4 (fun s => noRegion s c body))) (hb : body s0 = done4 t c) :
    exec i s = .next ((t.retireInstr c (t.nextPc c 4)).getD s) :=
  h.next_retires hi ((noRegion_of_none hr).trans hb)

/-- One that faults takes the event. -/
theorem State.Fetched.next_faults {cause : Nat} (h : s.Fetched c 4 s0) (hr : (s0.core c).region = none)
    (hi : exec i s = .next (s.instr c 4 (fun s => noRegion s c body))) (hb : body s0 = .ev (faultEv s0 c cause) s0)
    (hc : cause ≠ haltCause) : exec i s = .next ((s0.takes c { cause := cause, rpc := s0.pc c, epc := s0.pc c }).getD s) :=
  h.next_takes hi ((noRegion_of_none hr).trans hb) hc

/-- With no exception pending one that is a barrier goes on too (R86). -/
theorem noRegion_barrier_of_quiet (hr : (s.core c).region = none) (hq : (s.sr c SR.FPSTAT).getLsbD 8 = false) :
    noRegion s c (fun s => barrier s c body) = body s := (noRegion_of_none hr).trans (barrier_of_quiet hq)

/-- A step that needs an authority bit goes on with it (R91). -/
theorem withAuth_of_auth {bit : Nat} (h : s.auth c bit = true) : withAuth s c bit body = body s := if_pos h

/-- Without it the instruction faults. -/
theorem withAuth_of_noAuth {bit : Nat} (h : s.auth c bit = false) : withAuth s c bit body = .ev (faultEv s c 0x0002) s :=
  if_neg (by simp [h])

end

end Sys2Proof.Machine

/-! ## The state after reset (R105, R557, Table SYSX-6) -/

namespace Sys2Proof.Machine

/-- A core at reset reads a system register as its reset value. -/
theorem coreDefault_srOwn (c n : Nat) : (coreDefault c).srOwn n = srReset n := rfl

/-- At reset a core is in the normal world and no guest. -/
theorem coreDefault_guest (c : Nat) : (coreDefault c).guest = false := by
  simp [Core.guest, coreDefault_srOwn, srReset, SR.XLATCTL, SR.AUTH, SR.KRIGHTS0, SR.KRIGHTS1]

/-- At reset the copy in effect of a system register is the core's own, at its reset value. -/
theorem State.sr_reset (c n : Nat) : State.reset.sr c n = srReset n := by
  change (if srGuest n && (coreDefault c).guest then _ else (coreDefault c).srOwn n) = srReset n
  rw [coreDefault_guest, Bool.and_false]
  exact coreDefault_srOwn c n

/-- Settles O2: every table of the state after reset is empty, so that each entry reads as its default. -/
theorem reset_values : Obligations.reset_values := by
  intro c k
  have hzero : ∀ r, k.gr r = 0 := fun r => ite_self _
  refine ⟨hzero, fun _ => rfl, fun _ => rfl, rfl, rfl, rfl, fun n hn => (State.sr_reset c n).trans ?_, rfl, rfl, rfl, rfl, rfl, rfl,
    rfl⟩
  revert n
  decide

end Sys2Proof.Machine

/-! ## Multi-line regions (R114-R120, R282) -/

namespace Sys2Proof.Machine

/-! ### An abort (R114, R118) -/

/-- What an abort of region `r` for `cause` makes of core `k`: the checkpoint restored, the pc after the ATOM.BEGIN, the cause counted, and
nothing that would keep the core from running on. -/
structure Core.RolledBack (k k' : Core) (r : Region) (cause : Nat) : Prop where
  region : k'.region = none
  pc : k'.pc = r.next
  gr : ∀ x : Reg5, x ≠ 0 → x ≠ r.dest → k'.gr x = cellGet 0 r.ckG x.toNat
  v : k'.v = r.ckV
  m : k'.m = r.ckM
  fpstat : k'.srOwn SR.FPSTAT = r.ckFpstat
  xpc : k'.srOwn SR.XPC = r.ckXpc
  aborts : k'.aborts = if cause = 1 ∨ cause = 8 ∨ cause = 10 then min 15 (k.aborts + 1) else k.aborts
  storeQ : k'.storeQ = k.storeQ
  devWait : k'.devWait = k.devWait
  wait : k'.wait = k.wait
  fence : k'.fence = k.fence

/-- A system register reads the same once an event is counted. -/
@[simp] theorem Core.srOwn_count (k : Core) (e n j : Nat) : (k.count e n).srOwn j = k.srOwn j := by
  simp only [Core.srOwn, Core.count_sr]

/-- A system register reads the same once a general register is written. -/
@[simp] theorem Core.srOwn_setG (k : Core) (a : Reg5) (x : Word) (j : Nat) : (k.setG a x).srOwn j = k.srOwn j := by
  simp only [Core.srOwn, Core.setG_sr]

/-- A general register reads the same once an event is counted. -/
@[simp] theorem Core.gr_count (k : Core) (e n : Nat) (a : Reg5) : (k.count e n).gr a = k.gr a := by
  simp only [Core.gr, Core.count_g]

theorem Core.abortRegion_rolledBack {k : Core} {r : Region} (h : k.region = some r) (cause code : Nat) :
    k.RolledBack (k.abortRegion cause code) r cause := by
  unfold Core.abortRegion
  rw [h]
  constructor
  case gr =>
    intro x h0 hd
    rw [Core.gr_count, Core.gr_count, Core.gr_setG_other _ _ hd]
    exact if_neg h0
  case fpstat =>
    rw [Core.srOwn_count, Core.srOwn_count, Core.srOwn_setG]
    exact (Core.srOwn_setSrOwn_other _ _ (by decide)).trans (Core.srOwn_setSrOwn_same _ _ _)
  case xpc =>
    rw [Core.srOwn_count, Core.srOwn_count, Core.srOwn_setG]
    exact Core.srOwn_setSrOwn_same _ _ _
  all_goals simp [abortCounted, or_assoc]

/-- The core whose region is aborted, once its held lines are released. -/
theorem State.core_abortRegion_same (s : State) (c cause code : Nat) :
    (s.abortRegion c cause code).core c = (s.core c).abortRegion cause code := State.core_updCore_same _ _ _

/-- Every other core is as before. -/
theorem State.core_abortRegion_other (s : State) {c d : Nat} (cause code : Nat) (h : d ≠ c) :
    (s.abortRegion c cause code).core d = s.core d := State.core_updCore_other _ _ h

/-- Settles O22, by what an abort does to the core (`Core.abortRegion_rolledBack`). -/
theorem region_abort_restores : Obligations.region_abort_restores := by
  intro c cause code r s hr
  have h := Core.abortRegion_rolledBack hr cause code
  simp only [State.pc, State.core_abortRegion_same]
  exact ⟨h.region, rfl, h.storeQ, h.pc, h.v, h.m, h.fpstat, h.xpc, h.gr, h.aborts, fun d => s.core_abortRegion_other cause code⟩

/-! ### Opening, extending, committing and aborting (R114-R120, R282) -/

section
variable {s s0 s1 s2 s3 : State} {c len pa h cause code : Nat} {a : Reg5} {va : Word} {r : Region} {i : Instr}

/-- ATOM.BEGIN opens the region with its checkpoint, an empty set and its register zero (R114, R119). -/
theorem Core.openRegion_opens (k : Core) (a : Reg5) (next : Word) :
    (k.openRegion a next).region = some
      { ordered := decide (3 ≤ k.aborts), lines := [], held := [], stores := [], accessed := false, retired := 0, dest := a, next := next,
        ckG := k.g, ckV := k.v, ckM := k.m, ckFpstat := k.srOwn SR.FPSTAT, ckXpc := k.srOwn SR.XPC } ∧
    (k.openRegion a next).gr a = 0 := by
  refine ⟨?_, ?_⟩
  · unfold Core.openRegion
    dsimp only
    split <;> simp
  · by_cases ha : a = 0
    · subst ha
      rfl
    · exact Core.gr_setG_same _ _ ha

/-- A new predictor context leaves memory, and the core's general registers and count of aborts (R221, R222). -/
theorem State.ctxEval_leaves (s : State) (c : Nat) :
    (s.ctxEval c).mem = s.mem ∧ ((s.ctxEval c).core c).g = (s.core c).g ∧ ((s.ctxEval c).core c).aborts = (s.core c).aborts := by
  unfold State.ctxEval
  split
  · dsimp only
    rw [State.core_updCore_same]
    refine ⟨rfl, ?_⟩
    split
    · exact ⟨rfl, rfl⟩
    · split
      · exact ⟨rfl, rfl⟩
      · split
        · simp
        · exact ⟨rfl, rfl⟩
  · exact ⟨rfl, rfl, rfl⟩

/-- So does all that ATOM.COMMIT does to the predictor (R204). -/
theorem State.reharden_leaves (s : State) (c : Nat) :
    (s.reharden c).mem = s.mem ∧ ((s.reharden c).core c).g = (s.core c).g ∧ ((s.reharden c).core c).aborts = (s.core c).aborts := by
  obtain ⟨hmem, hg, haborts⟩ := (s.applyHarden c).ctxEval_leaves c
  simp only [State.applyHarden, State.core_updCore_same] at hg haborts
  simp only [State.reharden, State.core_updCore_same]
  exact ⟨hmem, hg, haborts⟩

/-- An instruction that leaves its core parked with nothing to wait for has ended. -/
theorem State.Fetched.next_ends {t : State} {body : State → Res Word} (h : s.Fetched c len s0)
    (hi : exec i s = .next (s.instr c len body)) (hb : body s0 = .park t) (hd : (t.core c).devWait = none)
    (hw : (t.core c).wait = none) (hf : (t.core c).fence = none) : exec i s = .next (t.stepDone c) := by
  rw [hi]
  unfold State.instr
  simp only [h.runs, h.first, h.short, h.got, hb, State.boundary, h.quiet, hd, hw, hf]
  simp

/-- A line of memory is neither out of reach nor a target that a region cannot hold. -/
theorem Tgt.of_mem {t : Tgt} (ht : (∃ o, t = .dram h o) ∨ ∃ o, t = .cxl h o) : t ≠ .gone h ∧ t.isMem = true ∧ t.home = h := by
  obtain ⟨o, rfl⟩ | ⟨o, rfl⟩ := ht <;> simp [Tgt.isMem, Tgt.home]

/-- ATOM.BEGIN, the core's earlier stores performed. -/
theorem exec_atomBegin (h : s.Fetched c 4 s0) (hr : (s0.core c).region = none) (hd : s0.drain c = some s1) :
    let u := s1.updCore c (fun k => k.openRegion a (s1.pc c + 4))
    exec (.atomBegin c a) s = .next ((u.retireInstr c (u.nextPc c 4)).getD s) := by
  refine h.next_retires rfl ?_
  simp only [hr, hd, Option.isSome_none, Bool.false_eq_true, if_false]
  rfl

/-- ATOM.ADD of a line of memory that the set lacks and has room for (R115). -/
theorem exec_atomAdd {b : Reg5} (hf : s.Fetched c 4 s0) (hr : (s0.core c).region = some r) (ha : r.accessed = false)
    (hroom : r.lines.length < 8) (hnew : r.lines.contains (lineOf pa) = false)
    (hacc : s0.access c Acc.atomAdd (s0.g c b) 1 = .ok [{ pa := pa, len := 1, dev := false }] s1)
    (ht : (∃ o, s1.target (coreSock c) pa = .dram h o) ∨ ∃ o, s1.target (coreSock c) pa = .cxl h o)
    (hw : s1.lineWaits c (lineOf pa) = false) :
    let u := (if r.ordered then s1 else s1.acqOwn c (lineOf pa) h).updCore c (fun k => k.addLine (lineOf pa))
    exec (.atomAdd c b) s = .next ((u.retireInstr c (u.nextPc c 4)).getD s) := by
  obtain ⟨hgone, hmem, hhome⟩ := Tgt.of_mem ht
  refine hf.next_retires rfl ?_
  simp only [hr, ha, hacc, Res.bind, if_neg hgone, hmem, hnew, hhome, hw, if_neg (Nat.not_le.2 hroom), Bool.not_true, Bool.or_self,
    Bool.false_eq_true, if_false]
  cases r.ordered <;> rfl

/-- What a commit of region `r` leaves in the core: its status in the destination, no abort counted (R118, R120, Table SYSX-8). -/
def Core.committed (k : Core) (a : Reg5) (r : Region) : Core :=
  (({ k with aborts := 0 }.setG a (BitVec.ofNat 64 ((if r.ordered then 2 ^ 8 else 0) + k.aborts * 2 ^ 12))).count 165 1).count
    4 (microOps 4).toNat

/-- The state a commit leaves once its stores are performed. -/
def State.committed (s : State) (c : Nat) (a : Reg5) (r : Region) : State :=
  ((s.release c).updCore c (fun k => k.committed a r)).reharden c

/-- ATOM.COMMIT of an open region. -/
theorem exec_atomCommit (h : s.Fetched c 4 s0) (hr : (s0.core c).region.isSome) (hd : s0.drain c = some s1)
    (hh : s1.ensureHeld c = some s2) (hr2 : (s2.core c).region = some r) (hc : s2.commitStores c r = some s3) :
    exec (.atomCommit c a) s = .next (((s3.committed c a r).retireInstr c ((s3.committed c a r).nextPc c 4)).getD s) := by
  obtain ⟨r0, hr0⟩ := Option.isSome_iff_exists.1 hr
  refine h.next_retires rfl ?_
  have hcore : (s3.release c).core c = s3.core c := rfl
  simp only [hr0, hd, hh, hr2, hc, State.committed, Core.committed, State.updCore, hcore, done4]

theorem State.committed_mem (s : State) (c : Nat) (a : Reg5) (r : Region) : (s.committed c a r).mem = s.mem :=
  (State.reharden_leaves _ c).1

theorem State.committed_aborts (s : State) (c : Nat) (a : Reg5) (r : Region) : ((s.committed c a r).core c).aborts = 0 := by
  obtain ⟨-, -, haborts⟩ := ((s.release c).updCore c (fun k => k.committed a r)).reharden_leaves c
  rw [State.committed, haborts, State.core_updCore_same]
  simp [Core.committed]

theorem State.committed_status (s : State) (c : Nat) (r : Region) (ha : a ≠ 0) :
    (s.committed c a r).g c a = BitVec.ofNat 64 ((if r.ordered then 2 ^ 8 else 0) + (s.core c).aborts * 2 ^ 12) := by
  obtain ⟨-, hg, -⟩ := ((s.release c).updCore c (fun k => k.committed a r)).reharden_leaves c
  rw [State.committed, State.g, Core.gr, hg, State.core_updCore_same]
  exact ((Core.gr_count _ _ _ _).trans (Core.gr_count _ _ _ _)).trans (Core.gr_setG_same _ _ ha)

/-- ATOM.ABORT of an open region (R116). -/
theorem exec_atomAbort {b : Reg5} (h : s.Fetched c 4 s0) (hr : (s0.core c).region = some r) (hd : (s0.core c).devWait = none)
    (hw : (s0.core c).wait = none) (hf : (s0.core c).fence = none) :
    exec (.atomAbort c b) s = .next ((s0.abortRegion c 11 ((s0.g c b).toNat % 2 ^ 16)).stepDone c) := by
  have hk := Core.abortRegion_rolledBack hr 11 ((s0.g c b).toNat % 2 ^ 16)
  refine h.next_ends rfl (by simp only [hr, Option.isSome_some, if_true]) ?_ ?_ ?_ <;> rw [State.core_abortRegion_same]
  · exact hk.devWait.trans hd
  · exact hk.wait.trans hw
  · exact hk.fence.trans hf

end

/-- Settles O21: each instruction of a region, and the aborts of a region that is too long or stalled by recovery. -/
theorem region_results : Obligations.region_results := by
  refine ⟨fun c a b s s0 s1 h => ⟨?opens, ?adds, ?commits, ?closed⟩, fun c b r s s0 => ⟨exec_atomAbort, ?long, ?stalled⟩⟩
  case opens =>
    rintro r hr hd rfl
    obtain ⟨hopen, hzero⟩ := (s1.core c).openRegion_opens a (s1.pc c + 4)
    refine ⟨_, exec_atomBegin h hr hd, ?_, ?_, rfl⟩
    · rw [State.core_updCore_same]
      exact hopen
    · rw [State.g, State.core_updCore_same]
      exact hzero
  case adds => exact fun r pa hm hr ha hroom hnew hacc ht hw => exec_atomAdd h hr ha hroom hnew hacc ht hw
  case commits =>
    exact fun r s2 s3 hr hd hh hr2 hc => ⟨_, exec_atomCommit h hr hd hh hr2 hc, State.committed_aborts _ _ _ _,
      State.committed_mem _ _ _ _, State.committed_status _ _ _⟩
  case closed =>
    intro hr
    refine ⟨h.next_retires rfl ?_, h.next_retires rfl ?_, h.next_retires rfl ?_⟩ <;> simp only [hr] <;> rfl
  case long =>
    intro hr hlong
    change execRegionLong c s = _
    simp only [execRegionLong, hr, if_pos hlong]
  case stalled =>
    intro hr ho ha
    change execRegionRecoveryTimeout c s = _
    have hopen : (s.core c).orderedOpen = true := by simp [Core.orderedOpen, hr, ho]
    simp only [execRegionRecoveryTimeout, hopen, ha, Bool.and_self, if_true]

end Sys2Proof.Machine

/-! ## Cache maintenance (R96-R99) -/

namespace Sys2Proof.Machine

section
variable {s s0 s1 s2 : State} {c pa h : Nat} {b : Reg5} {va : Word} {acc : Acc}

/-- Maintenance that is granted at a line of memory does its operation at the line's home. -/
theorem State.cmo_of_lineAt {op : State → Nat → Nat → State} (hl : s.LineAt c acc va 1 true pa h s1) :
    s.cmo c acc va op = done4 (op s1 h (lineOf pa)) c := by
  obtain ⟨s', s'', hacc, hdrain, ⟨o, htarget⟩, hheld, hgate, hwait, rfl⟩ := hl
  have ht : s'.target (coreSock c) pa = .dram h o ∨ s'.target (coreSock c) pa = .cxl h o := htarget.imp And.left And.left
  have hfree : ¬(s''.heldByOther c (lineOf pa) || !s''.gateOpen c || s''.homeWaits (coreSock c) h (lineOf pa)) = true := by
    simp [hheld, hgate, hwait]
  rw [State.cmo, hacc]
  obtain ht | ht := ht <;> simp only [Res.bind, ht, hdrain, if_neg hfree]

/-- A granted CZERO stores 64 zero bytes in the line (R96). -/
theorem exec_czero (hf : s.Fetched c 4 s0) (hr : (s0.core c).region = none)
    (hacc : s0.accessMem c Acc.czero (s0.g c b) 1 false = .ok [{ pa := pa, len := 1, dev := false }] s1)
    (hw : s1.writeSpan c { pa := lineOf pa * 64, len := 64, dev := false } (List.replicate 64 0) true false = some s2) :
    exec (.czero c b) s = .next ((s2.retireInstr c (s2.nextPc c 4)).getD s) := by
  have hzeros : (leBytes 64 0).take 64 = List.replicate 64 0 := by decide
  refine hf.next_done hr rfl ?_
  simp only [hacc, Res.bind, List.map_cons, List.map_nil, State.writeSpans, hzeros, hw]

end

/-- Settles O24: maintenance by address by `State.cmo_of_lineAt`, the others at once. -/
theorem cache_results : Obligations.cache_results := by
  intro c pa h b s s0 s1 hf hr done
  refine ⟨fun hd => hf.next_done hr rfl ?iflush, fun hl => ⟨?clean, ?flush⟩, fun ha hl => ?inval, fun s2 => exec_czero hf hr,
    fun ha => ⟨?swclean, ?swflush⟩⟩
  case iflush => simp only [hd]
  case clean => exact hf.next_done hr rfl (State.cmo_of_lineAt hl)
  case flush => exact hf.next_done hr rfl (State.cmo_of_lineAt hl)
  case inval => exact hf.next_done hr rfl ((withAuth_of_auth ha).trans (State.cmo_of_lineAt hl))
  case swclean => exact hf.next_done hr rfl (withAuth_of_auth ha)
  case swflush => exact hf.next_done hr rfl (withAuth_of_auth ha)

end Sys2Proof.Machine

/-! ## TLB invalidation (R100, R101, R254-R258, Table XLAT-7) -/

namespace Sys2Proof.Machine

section
variable {s s0 s1 : State} {c k id t : Nat} {x : Tlbi} {y : TlbiSock} {iv : Inval} {i : Instr} {scope : BitVec 3}

/-- Core scope: the entries named leave the core's translation caches. -/
theorem State.tlbi_core (hd : s.drain c = some s1) : s.tlbi c 0 iv = done4 (s1.updCore c (fun k => k.invalidate iv)) c := by
  simp only [State.tlbi, hd, if_true]

/-- Partition scope, with fewer than eight outstanding: the invalidation is sent. -/
theorem State.tlbi_partition (hd : s.drain c = some s1) (hout : (s1.core c).tlbiOut.length < 8) :
    s.tlbi c 1 iv = done4 (s1.tlbiSend c iv) c := by
  have hscope : ¬(1 : BitVec 3) = 0 := by decide
  simp only [State.tlbi, hd, if_neg hscope, if_neg (Nat.not_le.2 hout)]

/-- A TLBI form of a scope that exists, outside a region and with its authority, does what it names and retires. -/
theorem State.Fetched.next_tlbi {u : State} {body : State → Res Word} (h : s.Fetched c 4 s0) (hr : (s0.core c).region = none)
    (ha : s0.auth c 2 = true) (hscope : scope.toNat ≤ 1) (hi : exec i s = .next (tlbiForm c scope body s))
    (hb : body s0 = s0.tlbi c scope iv) (hu : s0.tlbi c scope iv = done4 u c) :
    exec i s = .next ((u.retireInstr c (u.nextPc c 4)).getD s) := by
  refine h.next_retires hi ((if_neg (Nat.not_lt.2 hscope)).trans ?_)
  exact (noRegion_of_none hr).trans ((withAuth_of_auth ha).trans (hb.trans hu))

/-- Outside a guest a TLBI form takes the SID and the VM ID from its register. -/
theorem State.tags_of_host (d : Reg5) (hg : (s.core c).guest = false) :
    s.tags c d = ((s.g c d).toNat % 2 ^ 16, (s.g c d).toNat / 2 ^ 16 % 2 ^ 12) := by
  simp only [State.tags, hg, Bool.false_eq_true, if_false]
  have hsid : natBits (s.g c d).toNat 15 0 = (s.g c d).toNat / 2 ^ 0 % 2 ^ 16 := natBits_field _ 0 (len := 16) (by decide)
  have hvm : natBits (s.g c d).toNat 27 16 = (s.g c d).toNat / 2 ^ 16 % 2 ^ 12 := natBits_field _ 16 (len := 12) (by decide)
  rw [hsid, hvm, Nat.pow_zero, Nat.div_one]

/-- What each TLBI form of scope `scope` names, where no guest executes it: its effect is that of the invalidation named. -/
theorem exec_tlbi {u : Inval → State} (b d : Reg5) (h : s.Fetched c 4 s0) (hr : (s0.core c).region = none) (ha : s0.auth c 2 = true)
    (hg : (s0.core c).guest = false) (hscope : scope.toNat ≤ 1) (hu : ∀ iv, s0.tlbi c scope iv = done4 (u iv) c) :
    let sid := (s0.g c d).toNat % 2 ^ 16
    let vm := (s0.g c d).toNat / 2 ^ 16 % 2 ^ 12
    let page := (s0.g c b).toNat / 2 ^ 12 % 2 ^ 45
    let done (u : State) : Host.Outcome State Fault Refusal := .next ((u.retireInstr c (u.nextPc c 4)).getD s)
    exec (.tlbiVa c scope b d) s = done (u (.va sid vm page)) ∧ exec (.tlbiSid c scope d) s = done (u (.sid sid vm)) ∧
      exec (.tlbiVm c scope d) s = done (u (.vm vm)) ∧ exec (.tlbiIpa c scope b d) s = done (u (.ipa vm page)) ∧
      exec (.tlbiAll c scope) s = done (u .all) := by
  have hpage : natBits (s0.g c b).toNat 56 12 = (s0.g c b).toNat / 2 ^ 12 % 2 ^ 45 := natBits_field _ 12 (len := 45) (by decide)
  refine ⟨h.next_tlbi hr ha hscope rfl ?_ (hu _), h.next_tlbi hr ha hscope rfl ?_ (hu _), h.next_tlbi hr ha hscope rfl ?_ (hu _),
    h.next_tlbi hr ha hscope rfl ?_ (hu _), h.next_tlbi hr ha hscope rfl ?_ (hu _)⟩ <;>
    simp only [State.tags_of_host _ hg, hpage, hg, Bool.false_eq_true, if_false]

/-! ### An invalidation at the sockets of the partition (R256) -/

theorem exec_tlbiForward (hx : s.tlbiFind k id = some (x, y)) (hy : y.fwd = false) :
    exec (.tlbiForward k id) s = .next (s.tlbiAt k id (fun z => { z with fwd := true, left := s.tlbiTargets k })) := by
  change execTlbiForward k id s = _
  simp only [execTlbiForward, hx, hy, Bool.false_eq_true, if_false]

/-- A core that has performed what it translated before answers once the entries are gone. -/
theorem exec_tlbiTargetAck_core (hx : s.tlbiFind k id = some (x, y)) (hy : y.fwd = true) (hl : y.left.contains t = true) (ht : t < 256)
    (hz : (s.core (k * 256 + t)).frozen = false) (hm : (s.core (k * 256 + t)).midAccess = false)
    (hd : s.drain (k * 256 + t) = some s1) :
    exec (.tlbiTargetAck k id t) s = .next ((s1.updCore (k * 256 + t) (fun q => q.invalidate x.inv)).tlbiAt k id
      (fun z => { z with left := z.left.filter (· ≠ t) })) := by
  change execTlbiTargetAck k id t s = _
  simp only [execTlbiTargetAck, hx, hy, hl, if_pos ht, hz, hm, hd, Bool.not_true, Bool.or_self, Bool.false_eq_true, if_false]

/-- So does a root complex or a Stoker cell. -/
theorem exec_tlbiTargetAck_io (hx : s.tlbiFind k id = some (x, y)) (hy : y.fwd = true) (hl : y.left.contains t = true) (ht : 256 ≤ t) :
    exec (.tlbiTargetAck k id t) s =
      .next ((s.ioInval k (t - 256) x.inv).tlbiAt k id (fun z => { z with left := z.left.filter (· ≠ t) })) := by
  change execTlbiTargetAck k id t s = _
  simp only [execTlbiTargetAck, hx, hy, hl, if_neg (Nat.not_lt.2 ht), Bool.not_true, Bool.or_self, Bool.false_eq_true, if_false]

theorem exec_tlbiSocketAck (hx : s.tlbiFind k id = some (x, y)) (hy : y.fwd = true) (hl : y.left = []) :
    exec (.tlbiSocketAck k id) s = .next (s.tlbiAt k id (fun z => { z with sent := true })) := by
  change execTlbiSocketAck k id s = _
  simp only [execTlbiSocketAck, hx, hy, hl, List.isEmpty_nil, Bool.and_self, if_true]

/-- An invalidation that every socket has acknowledged is complete: nothing of its number is left. -/
theorem exec_tlbiComplete (hx : s.tlbis.find? (fun z => z.id = id && z.core = c) = some x) (hs : ∀ z ∈ x.socks, z.sent = true) :
    ∃ u : State, exec (.tlbiComplete c id) s = .next u ∧ (∀ z ∈ u.tlbis, z.id ≠ id) ∧ id ∉ (u.core c).tlbiOut := by
  have hexec : exec (.tlbiComplete c id) s = .next (({ s with tlbis := s.tlbis.filter (fun u => u.id ≠ id) } : State).updCore c
      (fun k => { k with tlbiOut := k.tlbiOut.filter (· ≠ id) })) := by
    change execTlbiComplete c id s = _
    simp only [execTlbiComplete, hx, if_pos (List.all_eq_true.2 hs)]
  refine ⟨_, hexec, ?_, ?_⟩ <;> simp

end

/-- Settles O25: each form in each scope (`exec_tlbi`), and each step of Table XLAT-7. -/
theorem tlb_invalidation_results : Obligations.tlb_invalidation_results := by
  refine ⟨fun c b d s s0 s1 h hr ha hg hd => ⟨?core, fun hout => ?partition⟩,
    fun c k id t x y s s1 hx => ⟨exec_tlbiForward hx, exec_tlbiTargetAck_core hx, exec_tlbiTargetAck_io hx, exec_tlbiSocketAck hx,
      exec_tlbiComplete⟩⟩
  case core =>
    exact exec_tlbi (u := fun iv => s1.updCore c (fun k => k.invalidate iv)) b d h hr ha hg (by decide) (fun _ => State.tlbi_core hd)
  case partition =>
    exact exec_tlbi (u := fun iv => s1.tlbiSend c iv) b d h hr ha hg (by decide) (fun _ => State.tlbi_partition hd hout)

end Sys2Proof.Machine

/-! ## System registers (R91, R102-R106, R123, R267) -/

namespace Sys2Proof.Machine

section
variable {s s0 s1 t : State} {c n bit : Nat} {a : Reg5} {v x : Word} {i : Instr}

/-! ### The checks of SRD and SWR (R86, R91, R102) -/

/-- With no exception pending it does not matter whether a register is a barrier (R86). -/
theorem ite_barrier_of_quiet {k : State → Res Word} (hq : (s.sr c SR.FPSTAT).getLsbD 8 = false) :
    (if srBarrier n then barrier s c k else k s) = k s := by
  rw [barrier_of_quiet hq, ite_self]

theorem State.srd_of_unlisted (hn : srKnown n = false) : s.srd c a n = .ev (faultEv s c 0x0001) s := if_pos (by simp [hn])

theorem State.swr_of_unlisted (hn : srKnown n = false) : s.swr c a n = .ev (faultEv s c 0x0001) s := if_pos (by simp [hn])

theorem State.swr_of_ro (hn : srRo n = true) : s.swr c a n = .ev (faultEv s c 0x0001) s := if_pos (by simp [hn])

/-- SWR of a register that may be written, without its authority (R91). -/
theorem State.swr_of_noAuth (hw : srRo n = false) (hn : srKnown n = true) (hq : (s.sr c SR.FPSTAT).getLsbD 8 = false)
    (hbit : srAuth n = some bit) (ha : s.auth c bit = false) : s.swr c a n = .ev (faultEv s c 0x0002) s := by
  unfold State.swr
  rw [if_neg (by simp [hn, hw]), ite_barrier_of_quiet hq, if_pos (by simp [hbit, ha])]
  rfl

/-- SRD of a listed register, SR.PMDATA with its authority outside a guest: its value (R102, R106). -/
theorem State.srd_of_listed (hn : srKnown n = true) (hq : (s.sr c SR.FPSTAT).getLsbD 8 = false)
    (hp : n = SR.PMDATA → s.auth c 5 = true ∧ (s.core c).guest = false) :
    s.srd c a n = done4 ((s.srdVal c n).2.setG c a (s.srdVal c n).1) c := by
  have hmay : ¬(decide (n = SR.PMDATA) && (!s.auth c 5 || ((s.core c).guest && s.rd Reg.pmuGuestok (coreIx c) = 0))) = true := by
    by_cases hpm : n = SR.PMDATA
    · simp [hp hpm]
    · simp [hpm]
  unfold State.srd
  rw [if_neg (by simp [hn]), ite_barrier_of_quiet hq, if_neg hmay]

/-- In the normal world and outside a guest SWR is refused to nobody but for its authority (R151, R245). -/
theorem State.swrDenied_of_host (hw : (s.core c).world = none) (hg : (s.core c).guest = false) : s.swrDenied c n v = false := by
  simp [State.swrDenied, hw, hg]

/-- SWR with its authority, every earlier store performed: the write, and what every SWR does besides (R103, R267). -/
theorem State.swr_of_auth (hw : (s.core c).world = none) (hg : (s.core c).guest = false) (hq : (s.sr c SR.FPSTAT).getLsbD 8 = false)
    (hd : s.drain c = some s1) (hn : (srKnown n && !srRo n) = true) (hkey : n ≠ SR.KEYREQ)
    (ha : ((srAuth n).map (s.auth c)).getD true = true) :
    s.swr c a n = done4 ((s1.swrDo c n (s.g c a)).swrEnd c) c := by
  obtain ⟨hknown, hro⟩ := Bool.and_eq_true_iff.1 hn
  rw [Bool.not_eq_true'] at hro
  unfold State.swr
  rw [if_neg (by simp [hknown, hro]), ite_barrier_of_quiet hq, if_neg (by simp [State.swrDenied_of_host hw hg, ha])]
  simp only [hd, if_neg hkey]

/-! ### SRD (R102, R105, R106) -/

/-- SRD of a listed register other than SR.PMDATA whose value is `x`. -/
theorem exec_srd {r : BitVec 12} (h : s.Fetched c 4 s0) (hr : (s0.core c).region = none)
    (hq : (s0.sr c SR.FPSTAT).getLsbD 8 = false) (hn : srKnown r.toNat = true) (hp : r.toNat ≠ SR.PMDATA)
    (hx : s0.srdVal c r.toNat = (x, s0)) :
    exec (.srd c a r) s = .next (((s0.setG c a x).retireInstr c ((s0.setG c a x).nextPc c 4)).getD s) :=
  h.next_done hr rfl ((State.srd_of_listed hn hq (absurd · hp)).trans (by rw [hx]))

/-- The registers whose SRD answers the copy in effect (Table SYSX-6). -/
def srPlain : List Nat :=
  [0x010, 0x040, 0x041, 0x042, 0x043, 0x080, 0x081, 0x082, 0x084, 0x0C0, 0x0C1, 0x0C2, 0x0C3, 0x0C4, 0x0C5, 0x0C6, 0x0C7,
    0x100, 0x101, 0x102, 0x103, 0x104, 0x141, 0x180, 0x1C1]

theorem srKnown_of_plain : ∀ n ∈ srPlain, srKnown n = true := by decide

theorem not_mem_of_srPlain : ∀ n ∈ srPlain, 4 ≤ n ∧ n ∉
    [SR.COREID, SR.REPOCH, SR.ATOMSTAT, SR.DOMAIN, SR.TIME, SR.PMDATA, SR.IPI, SR.KEYREQ] := by decide

theorem State.srdVal_of_plain (hn : n ∈ srPlain) : s.srdVal c n = (s.sr c n, s) ∧ n ≠ SR.PMDATA := by
  obtain ⟨h4, hother⟩ := not_mem_of_srPlain n hn
  simp only [List.mem_cons, List.not_mem_nil, or_false, not_or] at hother
  obtain ⟨hid, hepoch, hatom, hdomain, htime, hpm, hipi, hkey⟩ := hother
  refine ⟨?_, hpm⟩
  simp only [State.srdVal, if_neg (Nat.not_lt.2 h4), if_neg hid, if_neg hepoch, if_neg hatom, if_neg hdomain, if_neg htime, if_neg hpm,
    decide_eq_false hipi, decide_eq_false hkey, Bool.or_self, Bool.false_eq_true, if_false]

/-- SR.ATOMSTAT outside a region (R118). -/
theorem State.srdVal_atomstat (hr : (s.core c).region = none) :
    s.srdVal c SR.ATOMSTAT = (BitVec.ofNat 64 ((s.core c).aborts + if 3 ≤ (s.core c).aborts then 32 else 0), s) := by
  change (BitVec.ofNat 64 ((s.core c).aborts + (if (s.core c).region.isSome then 16 else 0) + _), s) = _
  rw [hr]
  rfl

/-- SRD of SR.PMDATA without its authority (R106). -/
theorem State.srd_pmdata_of_noAuth (ha : s.auth c 5 = false) : s.srd c a SR.PMDATA = .ev (faultEv s c 0x0002) s := by
  change (if (decide (SR.PMDATA = SR.PMDATA) && (!s.auth c 5 || _)) = true then noAuth s c else _) = _
  exact if_pos (by simp [ha])

/-! ### SWR (R92, R103, R104, R267) -/

/-- An SWR with its authority whose write is `t`. -/
theorem State.Fetched.next_swr (h : s.Fetched c 4 s0) (hr : (s0.core c).region = none) (hw : (s0.core c).world = none)
    (hg : (s0.core c).guest = false) (hq : (s0.sr c SR.FPSTAT).getLsbD 8 = false) (hd : s0.drain c = some s1)
    (hi : exec i s = .next (sreg c (fun s => s.swr c a n) s)) (hn : (srKnown n && !srRo n) = true) (hkey : n ≠ SR.KEYREQ)
    (ha : ((srAuth n).map (s0.auth c)).getD true = true) (ht : s1.swrDo c n (s0.g c a) = t) :
    exec i s = .next (((t.swrEnd c).retireInstr c ((t.swrEnd c).nextPc c 4)).getD s) :=
  h.next_done hr hi ((State.swr_of_auth hw hg hq hd hn hkey ha).trans (by rw [ht]))

end

/-- Settles O26: SRD by the register's value (`exec_srd`), SWR by the register's write (`State.swr_of_auth`). -/
theorem system_register_results : Obligations.system_register_results := by
  refine ⟨fun c a s s0 h hr hq => ?reads, fun c a s s0 s1 h hr hw hg hq hd => ?writes⟩
  case reads =>
    have reads (r : BitVec 12) {x : Word} := exec_srd (a := a) (r := r) (x := x) h hr hq
    refine ⟨reads 0x004 rfl (by decide) rfl, reads 0x005 rfl (by decide) rfl, reads 0x006 rfl (by decide) ?atomstat,
      reads 0x140 rfl (by decide) rfl, reads 0x142 rfl (by decide) rfl, reads 0x1C0 rfl (by decide) rfl, reads 0x083 rfl (by decide) rfl,
      fun r hmem => ?plain, fun ha hg => ?pmdata, fun ha => ?noAuth⟩
    case atomstat => exact State.srdVal_atomstat hr
    case plain =>
      have hplain : r.toNat ∈ srPlain := List.mem_map_of_mem (f := BitVec.toNat) hmem
      obtain ⟨hx, hpm⟩ := State.srdVal_of_plain hplain
      exact reads r (srKnown_of_plain _ hplain) hpm hx
    case pmdata => exact h.next_done hr rfl (State.srd_of_listed rfl hq fun _ => ⟨ha, hg⟩)
    case noAuth => exact h.next_faults hr rfl (State.srd_pmdata_of_noAuth ha) (by decide)
  case writes =>
    have writes (n : Nat) {i : Instr} {t : State} := h.next_swr (i := i) (t := t) (a := a) (n := n) hr hw hg hq hd
    exact ⟨writes SR.AUTH rfl rfl (by decide) rfl rfl, writes SR.KRIGHTS0 rfl rfl (by decide) rfl rfl,
      writes SR.KRIGHTS1 rfl rfl (by decide) rfl rfl, fun ha => writes SR.TCMP rfl rfl (by decide) ha rfl,
      fun ha => writes SR.XLATCTL rfl rfl (by decide) ha rfl, fun ha => writes SR.PMSEL rfl rfl (by decide) ha rfl,
      fun ha => writes SR.IPI rfl rfl (by decide) ha rfl, fun ha => writes SR.SID rfl rfl (by decide) ha rfl,
      fun ha => writes SR.FSP rfl rfl (by decide) ha rfl⟩

/-- Settles O27, by the checks that SRD and SWR make first. -/
theorem system_register_traps : Obligations.system_register_traps := by
  intro c a n bit s s0 h hr
  refine ⟨fun hn => ⟨h.next_faults hr rfl (State.srd_of_unlisted hn) ?_, h.next_faults hr rfl (State.swr_of_unlisted hn) ?_⟩,
    fun hn => h.next_faults hr rfl (State.swr_of_ro hn) ?_,
    fun hw hn hbit ha hq => h.next_faults hr rfl (State.swr_of_noAuth hw hn hq hbit ha) ?_⟩ <;> decide

end Sys2Proof.Machine

/-! ## Key rights (R107, R108, Table SYSX-4) -/

namespace Sys2Proof.Machine

/-- The number whose base-4 digits below place `n` are `d`, as `meetWord` sums it. -/
def digits4 (d : Nat → Nat) (n : Nat) : Nat := (List.range n).foldl (fun v k => v + d k * 2 ^ (2 * k)) 0

section
variable {d : Nat → Nat}

theorem digits4_succ (d : Nat → Nat) (n : Nat) : digits4 d (n + 1) = digits4 d n + d n * 2 ^ (2 * n) := by
  simp [digits4, List.range_succ]

theorem digits4_lt (hd : ∀ k, d k < 4) (n : Nat) : digits4 d n < 2 ^ (2 * n) := by
  induction n with
  | zero => exact Nat.one_pos
  | succ n ih =>
    have hpow : 2 ^ (2 * (n + 1)) = 4 * 2 ^ (2 * n) := by rw [Nat.mul_succ, Nat.pow_add, Nat.mul_comm]
    have hn : d n * 2 ^ (2 * n) ≤ 3 * 2 ^ (2 * n) := Nat.mul_le_mul_right _ (Nat.le_of_lt_succ (hd n))
    rw [digits4_succ, hpow]
    omega

/-- Each digit below `n` is read back. -/
theorem digits4_digit (hd : ∀ k, d k < 4) {n k : Nat} (hk : k < n) : digits4 d n / 2 ^ (2 * k) % 4 = d k := by
  induction n with
  | zero => omega
  | succ n ih =>
    rw [digits4_succ]
    obtain hk | rfl := Nat.lt_succ_iff_lt_or_eq.1 hk
    · have hpow : 2 ^ (2 * n) = 2 ^ (2 * k) * (4 * 4 ^ (n - k - 1)) := by
        rw [← Nat.pow_succ', Nat.pow_mul, Nat.pow_mul, ← Nat.pow_add]
        congr 1
        omega
      have hsplit : d n * 2 ^ (2 * n) = 2 ^ (2 * k) * (4 * (d n * 4 ^ (n - k - 1))) := by
        rw [hpow]
        ring
      rw [hsplit, Nat.add_mul_div_left _ _ (by positivity), Nat.add_mul_mod_self_left]
      exact ih hk
    · rw [Nat.add_mul_div_right _ _ (by positivity), Nat.div_eq_of_lt (digits4_lt hd _), Nat.zero_add, Nat.mod_eq_of_lt (hd _)]

end

/-- The rights that a code stands for: 0 read, 1 write, 2 execute (Table SYSX-4). -/
def rightsOf (r : Nat) : List Nat := if r = 0 then [] else if r = 1 then [0] else if r = 2 then [0, 2] else [0, 1]

/-- The code of an intersection stands for the rights that both codes stand for. -/
theorem rightsOf_meet : ∀ x < 4, ∀ y < 4, rightsOf (meet x y) = (rightsOf x).filter (· ∈ rightsOf y) := by decide

theorem mem_rightsOf_meet {x y : Nat} (hx : x < 4) (hy : y < 4) (p : Nat) :
    p ∈ rightsOf (meet x y) ↔ p ∈ rightsOf x ∧ p ∈ rightsOf y := by
  rw [rightsOf_meet x hx y hy, List.mem_filter, decide_eq_true_iff]

/-- The intersection of two rights codes is a rights code. -/
theorem meet_lt {x y : Nat} (hx : x < 4) : meet x y < 4 := by
  unfold meet
  split
  · exact hx
  · split <;> decide

theorem natBits_pair (x k : Nat) : natBits x (2 * k + 1) (2 * k) = x / 2 ^ (2 * k) % 4 := natBits_field x (2 * k) (len := 2) (by decide)

/-- The rights of each key in an intersection of 32 keys' rights (R104, R108). -/
theorem meetWord_key (x y : Word) {k : Nat} (hk : k < 32) :
    (meetWord x y).toNat / 2 ^ (2 * k) % 4 = meet (x.toNat / 2 ^ (2 * k) % 4) (y.toNat / 2 ^ (2 * k) % 4) := by
  have hd : ∀ k, meet (x.toNat / 2 ^ (2 * k) % 4) (y.toNat / 2 ^ (2 * k) % 4) < 4 := fun k => meet_lt (Nat.mod_lt _ (by decide))
  have hword : meetWord x y =
      BitVec.ofNat 64 (digits4 (fun k => meet (x.toNat / 2 ^ (2 * k) % 4) (y.toNat / 2 ^ (2 * k) % 4)) 32) := by
    simp only [meetWord, digits4, natBits_pair]
  rw [hword, BitVec.toNat_ofNat, Nat.mod_eq_of_lt (digits4_lt hd 32), digits4_digit hd hk]

/-- The rights that KDROP leaves its key: the rights' field replaced (R107). -/
theorem natSetBits_rights (old x key : Nat) :
    natSetBits old (2 * (key % 32)) 2 (meet (natBits old (2 * (key % 32) + 1) (2 * (key % 32))) (natBits x 9 8)) =
      old - old / 2 ^ (2 * (key % 32)) % 4 * 2 ^ (2 * (key % 32)) +
        meet (old / 2 ^ (2 * (key % 32)) % 4) (x / 2 ^ 8 % 4) * 2 ^ (2 * (key % 32)) := by
  have hlt : meet (old / 2 ^ (2 * (key % 32)) % 4) (x / 2 ^ 8 % 4) < 2 ^ 2 := meet_lt (Nat.mod_lt _ (by decide))
  have hnew : natBits x 9 8 = x / 2 ^ 8 % 4 := natBits_field x 8 (len := 2) (by decide)
  rw [natSetBits_field _ _ _ (by decide), natBits_pair, hnew, Nat.mod_eq_of_lt hlt]
  rfl

/-- Settles O28: the intersection key by key (`meetWord_key`), and the three instructions that make it. -/
theorem rights_intersection : Obligations.rights_intersection := by
  refine ⟨⟨fun x hx y hy p _ => mem_rightsOf_meet hx hy p, fun x y k => meetWord_key x y⟩,
    fun c b s s0 h hr => ⟨?kdrop, h.next_done hr rfl rfl, h.next_done hr rfl rfl⟩⟩
  case kdrop =>
    refine h.next_done hr rfl ?_
    have hkey : natBits (s0.g c b).toNat 5 0 = (s0.g c b).toNat % 64 := rfl
    simp only [natSetBits_rights, hkey]

end Sys2Proof.Machine

/-! ## Gates and returns (R109-R112, R128-R131, R149, R168) -/

namespace Sys2Proof.Machine

/-! ### GATE -/

section
variable {s s0 s1 s2 s3 s4 t : State} {c pa : Nat} {b : Reg5} {bs m : List Byte} {d : GDesc} {w : Option (Nat × Nat)} {n : Word}

/-- The state in which the callee runs: the caller's, or the seat a gate from the normal world takes (R149). -/
def State.callee (s : State) (c : Nat) (w : Option (Nat × Nat)) : State :=
  if (s.core c).world.isNone && w.isSome then s.setWorld c w else s

/-- A gate whose record is pushed, in `s4`, loads the descriptor and seats a core that enters the Vault world (R109, R149). -/
def State.gateEntered (s3 s4 : State) (c : Nat) (w : Option (Nat × Nat)) (d : GDesc) (p : Word) : State :=
  let s5 := (s4.setSr c SR.SSP p).updCore c (fun k => (((k.gateLoad d).count 246 1).count 57 1).count 4 (microOps 0).toNat)
  if (s3.core c).world.isNone && w.isSome then
    s5.seated c p false d.entry 2 (s3.rd Reg.ihubCoreCstateRpri (coreIx c)) (s3.rd Reg.ihubCoreCstateDepth (coreIx c))
  else s5

theorem State.gateGo_of_pushed
    (hp : (s3.callee c w).storeRaw c Acc.push ((s3.callee c w).sr c SR.SSP - 48)
      (s3.gateRecord c d ((s3.core c).world.isNone && w.isSome)) false false = .ok () s4) :
    s3.gateGo c w d = .ok d.entry
      (((s3.gateEntered s4 c w d ((s3.callee c w).sr c SR.SSP - 48)).repredict c (s3.hardened c)).trRec c 5 (s3.pc c) d.entry) := by
  unfold State.callee at hp
  simp only [State.gateGo, hp]
  rfl

/-- GATE through a descriptor that is granted and leads to a GENTRY (R109, R128-R131). -/
theorem exec_gate (h : s.Fetched c 4 s0) (hr : (s0.core c).region = none) (hq : (s0.sr c SR.FPSTAT).getLsbD 8 = false)
    (hal : (s0.g c b).toNat % 32 = 0)
    (hacc : s0.access c Acc.gate (s0.g c b) 32 = .ok [{ pa := pa, len := 32, dev := false }] s1)
    (hread : s1.readSpans c Acc.gate (s0.g c b) [{ pa := pa, len := 32, dev := false }] = .ok bs s2)
    (hgranted : s2.gateRefusal c pa (descOf bs) = none)
    (hentry : s2.gateFetch c (s2.gateWorld c pa (descOf bs)) (descOf bs) = .ok 0x00019D00 s3)
    (hgo : s3.gateGo c (s2.gateWorld c pa (descOf bs)) (descOf bs) = .ok n t) :
    exec (.gate c b) s = .next ((t.retireInstr c n).getD s) := by
  refine h.next_retires rfl ((noRegion_barrier_of_quiet hr hq).trans ?_)
  simp only [hal, hacc, hread, hgranted, hentry, hgo, Res.bind, List.map_cons, List.headD_cons, ne_eq, not_true, if_false]

/-! ### Returns (R111, R112, R168) -/

/-- GRET of a marked record of the current domain. -/
theorem exec_gret {r : List Byte} (h : s.Fetched c 4 s0) (hr : (s0.core c).region = none) (hq : (s0.sr c SR.FPSTAT).getLsbD 8 = false)
    (hm : s0.loadRaw c Acc.pop (s0.sr c SR.SSP) 8 = .ok m s1) (hmark : leNat m % 2 = 1)
    (hdom : leNat m / 2 ^ 16 % 2 ^ 16 = ((s1.core c).srOwn SR.DOMAIN).toNat % 2 ^ 16)
    (hl : s1.loadRaw c Acc.pop (s0.sr c SR.SSP + 8) 40 = .ok r s2) :
    exec (.gret c) s = .next ((((s2.gretDo c (m ++ r)).trRec c 5 (s2.pc c) (BitVec.ofNat 64 (frameWord (m ++ r) 1))).retireInstr c
      (BitVec.ofNat 64 (frameWord (m ++ r) 1))).getD s) := by
  have hbit : (leNat m).testBit 0 = true := by simp [hmark]
  have hname : natBits (leNat m) 31 16 = ((s1.core c).srOwn SR.DOMAIN).toNat % 65536 :=
    (natBits_field _ 16 (len := 16) (by decide)).trans hdom
  refine h.next_retires rfl ((noRegion_barrier_of_quiet hr hq).trans ?_)
  simp only [hm, Res.bind, hbit, hname, hl, ne_eq, not_true, decide_false, Bool.not_true, Bool.or_self, Bool.false_eq_true, if_false]

/-- GRET of a record without its marker raises CONTROL_FLOW. -/
theorem exec_gret_of_unmarked (h : s.Fetched c 4 s0) (hr : (s0.core c).region = none) (hq : (s0.sr c SR.FPSTAT).getLsbD 8 = false)
    (hm : s0.loadRaw c Acc.pop (s0.sr c SR.SSP) 8 = .ok m s1) (hmark : leNat m % 2 = 0) :
    exec (.gret c) s = .next ((s1.takes c { cause := 0x0201, rpc := s1.pc c, epc := s1.pc c }).getD s) := by
  have hbit : (leNat m).testBit 0 = false := by simp [hmark]
  refine h.next_takes rfl ((noRegion_barrier_of_quiet hr hq).trans ?_) (by simp [haltCause])
  simp only [hm, Res.bind, hbit]
  rfl

/-- GRET.EV of a well-formed frame, with its authority. -/
theorem exec_gretEv (h : s.Fetched c 4 s0) (hr : (s0.core c).region = none) (hq : (s0.sr c SR.FPSTAT).getLsbD 8 = false)
    (ha : s0.auth c 1 = true) (hl : s0.loadRaw c Acc.load (s0.sr c SR.FSP) 128 = .ok bs s1)
    (hframe : s1.frameBad c (frameWord bs 0) = false) :
    let u := (s1.unframe c bs).1.updCore c (fun k => ((k.count 248 1).count 57 1).count 4 (microOps 2).toNat)
    exec (.gretEv c) s = .next (((u.trRec c 5 (s1.pc c) (s1.unframe c bs).2).retireInstr c (s1.unframe c bs).2).getD s) := by
  refine h.next_retires rfl ((noRegion_barrier_of_quiet hr hq).trans ((withAuth_of_auth ha).trans ?_))
  simp only [hl, Res.bind, hframe]
  rfl

/-- GRET.EV without its authority. -/
theorem exec_gretEv_of_noAuth (h : s.Fetched c 4 s0) (hr : (s0.core c).region = none) (hq : (s0.sr c SR.FPSTAT).getLsbD 8 = false)
    (ha : s0.auth c 1 = false) :
    exec (.gretEv c) s = .next ((s0.takes c { cause := 0x0002, rpc := s0.pc c, epc := s0.pc c }).getD s) :=
  h.next_takes rfl ((noRegion_barrier_of_quiet hr hq).trans (withAuth_of_noAuth ha)) (by simp [haltCause])

end

/-- Settles O29: GATE by `exec_gate`, the returns by the lemmas after it. -/
theorem gate_results : Obligations.gate_results := by
  refine ⟨fun c pa b bs s s0 s1 s2 s3 s4 h hr => ⟨?gentry, ?gate⟩,
    fun c m t bs s s0 s1 s2 h hr hq => ⟨fun hm => ⟨?gret, ?unmarked⟩, ?gretEv, ?noAuth⟩⟩
  case gentry => exact h.next_retires rfl (noRegion_of_none hr)
  case gate =>
    intro hq hal hacc hread d w hgranted hentry enters callee p hp
    exact exec_gate h hr hq hal hacc hread hgranted hentry (State.gateGo_of_pushed hp)
  case gret => exact fun hmark hdom hl => exec_gret h hr hq hm hmark hdom hl
  case unmarked => exact exec_gret_of_unmarked h hr hq hm
  case gretEv => exact fun ha hl hframe => exec_gretEv h hr hq ha hl hframe
  case noAuth => exact exec_gretEv_of_noAuth h hr hq

end Sys2Proof.Machine

/-! ## The WAIT forms (R113, R542, R543) -/

namespace Sys2Proof.Machine

section
variable {s s0 s1 : State} {c kind r : Nat} {a b : Reg5} {w : WaitInfo}

/-- A WAIT form whose wake condition holds completes at once with the reason. -/
theorem State.waitForm_of_woken (hw : s.wakeReason c (s.g c b).toNat = some r) :
    s.waitForm c kind a b = done4 ((s.setG c a (BitVec.ofNat 64 r)).countC c 12) c := by
  simp only [State.waitForm, hw]

/-- The core waits in a form of `kind` (R113). -/
def State.waits (s : State) (c kind : Nat) (a : Reg5) (deadline : Nat) : State := s.updCore c (fun k =>
  { k with wait := some { dest := a, deadline := deadline, kind := kind, closing := decide (kind ≠ 1) } })

theorem State.waits_wait (s : State) (c kind : Nat) (a : Reg5) (deadline : Nat) :
    ((s.waits c kind a deadline).core c).wait.isSome = true := by
  simp only [State.waits, State.core_updCore_same, Option.isSome_some]

/-- A WAIT form, outside a region and with no exception pending, that leaves its core waiting. -/
theorem State.Fetched.next_waits {t : State} {i : Instr} {k : State → Res Word} (h : s.Fetched c 4 s0) (hr : (s0.core c).region = none)
    (hq : (s0.sr c SR.FPSTAT).getLsbD 8 = false)
    (hi : exec i s = .next (s.instr c 4 (fun s => noRegion s c (fun s => barrier s c k)))) (hb : k s0 = .park t)
    (ht : (t.core c).wait.isSome = true) : exec i s = .next t :=
  hi.trans (congrArg _ (h.parks ((noRegion_barrier_of_quiet hr hq).trans hb) (by rw [ht, Bool.or_true, Bool.true_or])))

/-- With no wake condition WAIT sleeps in Ember at once. -/
theorem State.waitForm_ember (hw : s.wakeReason c (s.g c b).toNat = none) :
    s.waitForm c 1 a b = .park ((s.waits c 1 a (s.g c b).toNat).wr Reg.pwrCoreCstate (coreIx c) 1) := by
  simp only [State.waitForm, hw]
  rfl

/-- WAIT.BANKED once the core's stores are performed. -/
theorem State.waitForm_banked (hw : s.wakeReason c (s.g c b).toNat = none) (hd : s.drain c = some s1) :
    s.waitForm c 2 a b = .park (s1.waits c 2 a (s.g c b).toNat) := by
  simp only [State.waitForm, hw, hd]
  rfl

/-- WAIT.COLD once they are and the L2 is flushed. -/
theorem State.waitForm_cold (hw : s.wakeReason c (s.g c b).toNat = none) (hd : s.drain c = some s1) :
    s.waitForm c 3 a b = .park ((s1.flushL2 c).waits c 3 a (s.g c b).toNat) := by
  simp only [State.waitForm, hw, hd]
  rfl

/-- CORE_WAKE of a waiting core that is not in Cold, its package awake. -/
theorem exec_coreWake (hi : (s.core c).wait = some w) (hr : s.wakeReason c w.deadline = some r)
    (hp : s.rd Reg.pwrPkgState { sock := coreSock c } = 0) (hk : w.kind ≠ 3) :
    let u := (s.wr Reg.pwrCoreCstate (coreIx c) 0).updCore c (fun k =>
      ({ k with wait := none }.setG w.dest (BitVec.ofNat 64 r)).count 12 1)
    exec (.coreWake c) s = .next ((u.retireInstr c (u.nextPc c 4)).getD s) := by
  change execCoreWake c s = _
  simp only [execCoreWake, hi, hr, hp, decide_eq_false hk, State.wrIf, Bool.false_and, Bool.false_eq_true, if_false]
  rfl

theorem exec_sleepGateClosed (hi : (s.core c).wait = some w) (hc : w.closing = true) (hr : s.wakeReason c w.deadline = none) :
    exec (.sleepGateClosed c) s = .next ((s.wr Reg.pwrCoreCstate (coreIx c) w.kind).updCore c (fun k =>
      { k.sleepLoss with wait := some { w with closing := false } })) := by
  change execSleepGateClosed c s = _
  simp only [execSleepGateClosed, hi, hc, hr, Option.isNone_none, Bool.and_self, if_true]

end

/-- Settles O30: a WAIT form sleeps or completes, and a sleeping core wakes or its gate closes, by the lemmas above. -/
theorem wait_results : Obligations.wait_results := by
  intro c a b s s0 s1
  refine ⟨fun h hr hq => ⟨fun hw => ⟨?ember, fun ha hd => ⟨?banked, ?cold⟩⟩,
      fun r hw => ⟨?woken, fun ha => ⟨?wokenB, ?wokenC⟩⟩⟩,
    fun i r => exec_coreWake, fun i => exec_sleepGateClosed⟩
  case ember => exact h.next_waits hr hq rfl (State.waitForm_ember hw) (State.waits_wait s0 c 1 a _)
  case banked => exact h.next_waits hr hq rfl ((withAuth_of_auth ha).trans (State.waitForm_banked hw hd)) (State.waits_wait s1 c 2 a _)
  case cold =>
    exact h.next_waits hr hq rfl ((withAuth_of_auth ha).trans (State.waitForm_cold hw hd)) (State.waits_wait (s1.flushL2 c) c 3 a _)
  case woken => exact h.next_done hr rfl ((barrier_of_quiet hq).trans (State.waitForm_of_woken hw))
  case wokenB => exact h.next_done hr rfl ((barrier_of_quiet hq).trans ((withAuth_of_auth ha).trans (State.waitForm_of_woken hw)))
  case wokenC => exact h.next_done hr rfl ((barrier_of_quiet hq).trans ((withAuth_of_auth ha).trans (State.waitForm_of_woken hw)))

end Sys2Proof.Machine

/-! ## Security requests (R141-R159, Tables DOMN-3 to DOMN-6) -/

namespace Sys2Proof.Machine

/-! ### A security request and its end (R142, Table DOMN-11) -/

/-- A request ended: it is counted as done or failed, and the core is free to ask again. -/
def State.secEnded (x : State) (c st : Nat) : State :=
  (x.bump (if st = 1 then Reg.secReqdone else Reg.secReqfail) { sock := coreSock c }).updCore c (fun q => { q with keyReq := none })

/-- A status that is written ends the request. -/
theorem State.secEnd_of_written {v x : State} {c st : Nat} {r : KeyReq} {e : Option Stop}
    (hw : v.agentWrite (freeAgent (coreSock c)) (coreSock c) r.pa (leBytes 8 st) = (x, e)) (he : ∀ y, e = some y → y.status ≠ 256) :
    v.secEnd c r st = some (x.secEnded c st) := by
  have hend : (if st = 1 then x.bump Reg.secReqdone { sock := coreSock c } else x.bump Reg.secReqfail { sock := coreSock c }) =
      x.bump (if st = 1 then Reg.secReqdone else Reg.secReqfail) { sock := coreSock c } := by split <;> rfl
  unfold State.secEnd State.secEnded
  simp only [hw]
  split
  · rename_i h
    cases h
    exact absurd rfl (he _ rfl)
  · rename_i h
    cases h
    rw [hend]

/-- Core `c` has request `r` pending, and reading its block leaves the state `u`. -/
structure State.Asked (s : State) (c : Nat) (r : KeyReq) (u : State) : Prop where
  req : (s.core c).keyReq = some r
  block : s.agentRead (freeAgent (coreSock c)) (coreSock c) (lineOf r.pa) = (u, none)

/-- Request `r` of core `c` comes to status `st` in state `v`: once the status is written command `i` has ended it. -/
def State.Ends (s : State) (c : Nat) (r : KeyReq) (i : Instr) (st : Nat) (v : State) : Prop :=
  ∀ (x : State) (e : Option Stop), v.agentWrite (freeAgent (coreSock c)) (coreSock c) r.pa (leBytes 8 st) = (x, e) →
    (∀ y, e = some y → y.status ≠ 256) → exec i s = .next (x.secEnded c st)

section
variable {s u v : State} {c st : Nat} {r : KeyReq} {i : Instr} {is : Nat → Bool} {f : KeyReq → State → SecR}

/-- A command for another operation leaves the request alone. -/
theorem State.Asked.exec_other (h : s.Asked c r u) (hi : exec i s = .next (s.secDo c is f)) (hop : is r.op = false) :
    exec i s = .next s := by
  rw [hi, State.secDo, h.req]
  simp [hop]

/-- An operation that must wait leaves the request pending. -/
theorem State.Asked.exec_wait (h : s.Asked c r u) (hi : exec i s = .next (s.secDo c is f)) (hop : is r.op = true)
    (hf : f r u = .wait) : exec i s = .next s := by
  rw [hi, State.secDo, h.req]
  simp only [hop, h.block, hf, Bool.not_true, Bool.false_eq_true, if_false]

/-- An operation that answers later has done what it does now. -/
theorem State.Asked.exec_later (h : s.Asked c r u) (hi : exec i s = .next (s.secDo c is f)) (hop : is r.op = true)
    (hf : f r u = .later v) : exec i s = .next v := by
  rw [hi, State.secDo, h.req]
  simp only [hop, h.block, hf, Bool.not_true, Bool.false_eq_true, if_false]

/-- An operation with its status ends once the status is written. -/
theorem State.Asked.ends (h : s.Asked c r u) (hi : exec i s = .next (s.secDo c is f)) (hop : is r.op = true)
    (hf : f r u = .fin st v) : s.Ends c r i st v := by
  intro x e hw he
  rw [hi, State.secDo, h.req]
  simp only [hop, h.block, hf, Bool.not_true, Bool.false_eq_true, if_false, State.secEnd_of_written hw he, Option.getD_some]

end

section
variable {s : State} {c : Nat} {r : KeyReq} {vault : Bool} {f : State → SecR}

theorem State.secWorld_of_absent (h : (s.part (coreSock c)).full = false) : s.secWorld c r vault f = .fin secAbsent s := by
  simp [State.secWorld, h]

theorem State.secWorld_of_wrong (h : (s.part (coreSock c)).full = true) (hw : r.world.isSome ≠ vault) :
    s.secWorld c r vault f = .fin secWrongWorld s := by
  simp [State.secWorld, h, hw]

theorem State.secWorld_of_right (h : (s.part (coreSock c)).full = true) (hw : r.world.isSome = vault) : s.secWorld c r vault f = f s := by
  simp [State.secWorld, h, hw]

end

/-- Core `c` has a request for operation `op` pending, which needs the Vault world on the part or not as `vault` says, and the request was
made in that world (Tables DOMN-3 and DOMN-4). -/
structure State.AskedIn (s : State) (c : Nat) (r : KeyReq) (u : State) (op : Nat) (vault : Bool) : Prop extends s.Asked c r u where
  op_eq : r.op = op
  full : (u.part (coreSock c)).full = true
  world : r.world.isSome = vault

section
variable {s u v : State} {c st op : Nat} {r : KeyReq} {i : Instr} {vault : Bool} {f : KeyReq → State → SecR}

theorem State.AskedIn.ends (h : s.AskedIn c r u op vault)
    (hi : exec i s = .next (s.secDo c (· = op) (fun r s => s.secWorld c r vault (f r))))
    (hf : f r u = .fin st v) : s.Ends c r i st v :=
  h.toAsked.ends hi (decide_eq_true h.op_eq) ((State.secWorld_of_right h.full h.world).trans hf)

theorem State.AskedIn.exec_wait (h : s.AskedIn c r u op vault)
    (hi : exec i s = .next (s.secDo c (· = op) (fun r s => s.secWorld c r vault (f r)))) (hf : f r u = .wait) : exec i s = .next s :=
  h.toAsked.exec_wait hi (decide_eq_true h.op_eq) ((State.secWorld_of_right h.full h.world).trans hf)

theorem State.AskedIn.exec_later (h : s.AskedIn c r u op vault)
    (hi : exec i s = .next (s.secDo c (· = op) (fun r s => s.secWorld c r vault (f r)))) (hf : f r u = .later v) : exec i s = .next v :=
  h.toAsked.exec_later hi (decide_eq_true h.op_eq) ((State.secWorld_of_right h.full h.world).trans hf)

end

/-! ### Reports (R144) -/

section
variable {s v w : State} {c pa : Nat} {r : KeyReq}

theorem State.secReport_of_unaligned (h : s.opnd r 8 % 512 ≠ 0) : s.secReport c r = .fin secBadArg s := by
  simp [State.secReport, h]

theorem State.secReport_of_untranslated (h : s.opnd r 8 % 512 = 0) (hw : s.secWait c r Acc.store (s.opnd r 8) = false)
    (hv : s.secVa c r Acc.store (s.opnd r 8) = none) : s.secReport c r = .fin secBadArg s := by
  simp [State.secReport, h, hw, hv]

theorem State.secReport_of_written (h : s.opnd r 8 % 512 = 0) (hw : s.secWait c r Acc.store (s.opnd r 8) = false)
    (hv : s.secVa c r Acc.store (s.opnd r 8) = some (pa, v))
    (ht : secWrite (coreSock c) (pieces pa 512) (v.report c r (memBytes s.mem (r.pa + 0x10) 32)) v.useFree = some w) :
    s.secReport c r = .fin 1 w := by
  simp [State.secReport, h, hw, hv, ht]

end


/-! ### Operations of Table DOMN-3 that need no instance -/

section
variable {s u v w : State} {c pa : Nat} {r : KeyReq}

theorem exec_secRequestBadOp (h : s.Asked c r u) (hop : r.op ∉ secOps) : s.Ends c r (.secRequestBadOp c) secBadOp u :=
  h.ends rfl (by simpa using hop) rfl

theorem exec_secRequestBadOp_of_listed (h : s.Asked c r u) (hop : r.op ∈ secOps) : exec (.secRequestBadOp c) s = .next s :=
  h.exec_other rfl (by simpa using hop)

/-- What a report that is written comes to (Table DOMN-5). -/
def State.Reports (s : State) (c : Nat) (r : KeyReq) (i : Instr) (u : State) : Prop :=
  (u.opnd r 8 % 512 ≠ 0 → s.Ends c r i secBadArg u) ∧
  (u.opnd r 8 % 512 = 0 → u.secWait c r Acc.store (u.opnd r 8) = false →
    (u.secVa c r Acc.store (u.opnd r 8) = none → s.Ends c r i secBadArg u) ∧
    (∀ pa v w, u.secVa c r Acc.store (u.opnd r 8) = some (pa, v) →
      secWrite (coreSock c) (pieces pa 512) (v.report c r (memBytes u.mem (r.pa + 0x10) 32)) v.useFree = some w → s.Ends c r i 1 w))

theorem State.Asked.reports {i : Instr} {is : Nat → Bool} {f : KeyReq → State → SecR} (h : s.Asked c r u)
    (hi : exec i s = .next (s.secDo c is f)) (hop : is r.op = true) (hf : f r u = u.secReport c r) : s.Reports c r i u :=
  ⟨fun ho => h.ends hi hop (hf.trans (State.secReport_of_unaligned ho)), fun ho hw =>
    ⟨fun hv => h.ends hi hop (hf.trans (State.secReport_of_untranslated ho hw hv)),
      fun _ _ _ hv ht => h.ends hi hop (hf.trans (State.secReport_of_written ho hw hv ht))⟩⟩

/-- ATTEST is the normal world's. -/
theorem exec_attest_inVault (h : s.Asked c r u) (hop : r.op = 0x01) (hw : r.world.isSome = true) :
    s.Ends c r (.attest c) secWrongWorld u := h.ends rfl (by simp [hop]) (if_pos hw)

theorem exec_attest_of_notSealed (h : s.Asked c r u) (hop : r.op = 0x01) (hw : r.world = none) (hs : u.isSealed (coreSock c) = false) :
    s.Ends c r (.attest c) secNotSealed u := h.ends rfl (by simp [hop]) (by simp [hw, hs])

theorem exec_attest (h : s.Asked c r u) (hop : r.op = 0x01) (hw : r.world = none) (hs : u.isSealed (coreSock c) = true) :
    s.Reports c r (.attest c) u := h.reports rfl (by simp [hop]) (by simp [hw, hs])

theorem exec_vreport_of_absent (h : s.Asked c r u) (hop : r.op = 0x02) (hf : (u.part (coreSock c)).full = false) :
    s.Ends c r (.vreport c) secAbsent u := h.ends rfl (by simp [hop]) (State.secWorld_of_absent hf)

/-- VREPORT is the Vault world's. -/
theorem exec_vreport_inNormal (h : s.Asked c r u) (hop : r.op = 0x02) (hf : (u.part (coreSock c)).full = true) (hw : r.world = none) :
    s.Ends c r (.vreport c) secWrongWorld u := h.ends rfl (by simp [hop]) (State.secWorld_of_wrong hf (by simp [hw]))

theorem exec_vreport (h : s.Asked c r u) (hop : r.op = 0x02) (hf : (u.part (coreSock c)).full = true) (hw : r.world.isSome = true) :
    s.Reports c r (.vreport c) u := h.reports rfl (by simp [hop]) (State.secWorld_of_right hf hw)

theorem exec_stkkey_of_absent (h : s.Asked c r u) (hop : r.op = 0x03) (hf : (u.part (coreSock c)).full = false) :
    s.Ends c r (.stkkey c) secAbsent u := h.ends rfl (by simp [hop]) (by simp [hf])

/-- The channel a STKKEY request names. -/
def KeyReq.chan (r : KeyReq) (u : State) : Nat × Nat := (natBits (u.opnd r 0x08) 2 0, natBits (u.opnd r 0x08) 13 8)

/-- A channel that is in neither world, or not in the request's, takes no key (R155). -/
theorem exec_stkkey_of_notAllowed (h : s.Asked c r u) (hop : r.op = 0x03) (hf : (u.part (coreSock c)).full = true)
    (hn : u.chNowhere (coreSock c) (r.chan u).1 (r.chan u).2 = true ∨
      u.chWorld (coreSock c) (r.chan u).1 (r.chan u).2 ≠ r.world.map (·.1)) :
    s.Ends c r (.stkkey c) secNotAllowed u := by
  refine h.ends rfl (by simp [hop]) ?_
  simp only [KeyReq.chan] at hn
  obtain hn | hn := hn <;> simp [hf, hn]

/-- A key in slot `slot` of a channel. -/
def State.setStkKey (s : State) (k cell ch slot key : Nat) : State :=
  s.updStk k cell ch (fun x => { x with keys := cellSet none x.keys slot (some key) })

theorem exec_stkkey (h : s.Asked c r u) (hop : r.op = 0x03) (hf : (u.part (coreSock c)).full = true)
    (hn : u.chNowhere (coreSock c) (r.chan u).1 (r.chan u).2 = false)
    (hw : u.chWorld (coreSock c) (r.chan u).1 (r.chan u).2 = r.world.map (·.1)) :
    s.Ends c r (.stkkey c) 1 (u.setStkKey (coreSock c) (r.chan u).1 (r.chan u).2 (natBits (u.opnd r 0x08) 19 16)
      (stkKeyOf (u.secKey (coreSock c) (r.world.map (·.1))) r.domain (u.opnd r 0x10)).toNat) := by
  refine h.ends rfl (by simp [hop]) ?_
  simp only [KeyReq.chan] at hn hw
  simp [hf, hn, hw, KeyReq.chan, State.setStkKey]

end

/-! ### Instances made (VCREATE, VADD, VSEAL) and destroyed (VDESTROY) -/

section
variable {s u v : State} {c g i : Nat} {r : KeyReq}

/-- The operations on an instance from the normal world are refused in the Vault world, and where the part has no Vault world. -/
theorem exec_vault_refused (h : s.Asked c r u) {x : Nat × Instr}
    (hx : x ∈ ([(0x10, .vcreate c), (0x11, .vadd c), (0x12, .vseal c), (0x13, .vdestroy c)] : List (Nat × Instr))) (hop : r.op = x.1) :
    ((u.part (coreSock c)).full = false → s.Ends c r x.2 secAbsent u) ∧
    ((u.part (coreSock c)).full = true → r.world.isSome = true → s.Ends c r x.2 secWrongWorld u) := by
  simp only [List.mem_cons, List.not_mem_nil, or_false] at hx
  obtain rfl | rfl | rfl | rfl := hx <;>
    exact ⟨fun hf => h.ends rfl (by simp [hop]) (State.secWorld_of_absent hf),
      fun hf hw => h.ends rfl (by simp [hop]) (State.secWorld_of_wrong hf (by simp [hw]))⟩

/-- New image and data keys for an instance (R145). -/
def State.newKeys (s : State) (g : Nat) : State := (s.newKey (1024 + g)).newKey (2 ^ 17 + g)

/-- The registers and record of an instance just created. -/
def State.created (s : State) (g : Nat) : State :=
  (((List.range 4).foldl (fun s j => s.wr Reg.secViDigest { viIx g with j := j } 0)
    (s.wrs (viIx g) [(Reg.secViStateState, 1), (Reg.secViStateSeats, 0), (Reg.secViStateBusy, 0), (Reg.secViWdog, 0),
      (Reg.secViRestarts, 0)])).setVinst g VInst.free).newKeys g

theorem exec_vcreate_of_none (h : s.AskedIn c r u 0x10 false)
    (hn : ∀ i < 64, u.rd Reg.secViStateState (viIx (u.instOf (coreSock c) i)) ≠ 0) : s.Ends c r (.vcreate c) secNoResource u := by
  have hfind : (List.range 64).find? (fun i => u.rd Reg.secViStateState (viIx (u.instOf (coreSock c) i)) = 0) = none := by simpa using hn
  refine h.ends rfl ?_
  simp only [hfind]

theorem exec_vcreate (h : s.AskedIn c r u 0x10 false) (hi : i < 64)
    (hfree : u.rd Reg.secViStateState (viIx (u.instOf (coreSock c) i)) = 0)
    (hl : ∀ j < i, u.rd Reg.secViStateState (viIx (u.instOf (coreSock c) j)) ≠ 0) (hg : u.instOf (coreSock c) i = g)
    (hv : u.agentWrite (freeAgent (coreSock c)) (coreSock c) (r.pa + 8) (leBytes 8 i) = (v, none)) :
    s.Ends c r (.vcreate c) 1 (v.created g) := by
  have hfind : (List.range 64).find? (fun i => u.rd Reg.secViStateState (viIx (u.instOf (coreSock c) i)) = 0) = some i := by
    simpa [List.find?_range_eq_some, hi, hfree] using hl
  refine h.ends rfl ?_
  simp only [hfind, hv, hg]
  rfl

/-- VADD names no instance, or one in another state. -/
theorem exec_vadd_of_noInst (h : s.AskedIn c r u 0x11 false) (hi : u.secInst c r (· = 1) = .error i) :
    s.Ends c r (.vadd c) i u := by
  refine h.ends rfl ?_
  simp only [hi]

/-- The page at `pa` made an instance's, of the kind given. -/
def State.ownPage (s : State) (g pa kind : Nat) : State :=
  { (s.setVinst g { s.vinst g with pages := (s.vinst g).pages ++ [(pa / 4096, kind + 1)] }) with
    owner := cellSet (0, 0) s.owner (pa / 4096) (kind + 1, g) }

theorem exec_vadd_of_badPage (h : s.AskedIn c r u 0x11 false) (hi : u.secInst c r (· = 1) = .ok g)
    (hb : u.opnd r 0x18 % 4096 ≠ 0 ∨ (u.target (coreSock c) (u.opnd r 0x18)).isMem = false ∨ (u.pageOwner (u.opnd r 0x18)).1 ≠ 0) :
    s.Ends c r (.vadd c) secBadArg u := by
  refine h.ends rfl ?_
  simp only [hi]
  refine if_pos ?_
  obtain ha | hm | ho := hb
  · simp [ha]
  · revert hm
    cases u.target (coreSock c) (u.opnd r 0x18) <;> simp [Tgt.isMem]
  · simp [ho]

theorem exec_vadd_data (h : s.AskedIn c r u 0x11 false)
    (hi : u.secInst c r (· = 1) = .ok g) (ha : u.opnd r 0x18 % 4096 = 0) (hm : (u.target (coreSock c) (u.opnd r 0x18)).isMem = true)
    (ho : (u.pageOwner (u.opnd r 0x18)).1 = 0) (hb : u.pageBusy (coreSock c) (u.opnd r 0x18 / 4096) = false)
    (hk : natBits (u.opnd r 0x20) 1 0 = 3) :
    s.Ends c r (.vadd c) 1
      ((u.pageZero (coreSock c) (u.opnd r 0x18 / 4096)).ownPage g (u.opnd r 0x18) (natBits (u.opnd r 0x20) 1 0)) := by
  refine h.ends rfl ?_
  simp only [hi]
  refine (if_neg ?_).trans ((if_neg (by simp [hb])).trans (if_pos hk))
  revert hm
  cases u.target (coreSock c) (u.opnd r 0x18) <;> simp [Tgt.isMem, ha, ho]

/-! #### VSEAL -/

/-- VSEAL names no instance, or one in another state. -/
theorem exec_vseal_of_noInst (h : s.AskedIn c r u 0x12 false) (hi : u.secInst c r (· = 1) = .error i) :
    s.Ends c r (.vseal c) i u := by
  refine h.ends rfl ?_
  simp only [hi]

/-- The record of instance `g` with the VSEAL block of request `r`. -/
def State.withSeal (u : State) (g : Nat) (r : KeyReq) : VInst := { u.vinst g with vseal := memBytes u.mem r.pa 64 }

/-- The registers, seats and record of an instance just sealed with record `v` (R148). -/
def State.sealInst (u : State) (g : Nat) (v : VInst) : State :=
  ((List.range 4).foldl (fun s j => s.wr Reg.secViDigest { viIx g with j := j } (leNat (((u.digestOf v).drop (8 * j)).take 8)))
    ((u.setVinst g v).wrs (viIx g) [(Reg.secViStateState, 2), (Reg.secViStateSeats, natBits (v.sealed 0x28) 23 16),
      (Reg.secViStateBusy, 0), (Reg.secViWdog, natBits (v.sealed 0x28) 55 24), (Reg.secViRestarts, 0)])).sealSeats g v

section
variable (h : s.AskedIn c r u 0x12 false) (hi : u.secInst c r (· = 1) = .ok g)
include h hi

theorem exec_vseal_waits (hwait : u.vsealWaits c r g (u.withSeal g r) = true) : exec (.vseal c) s = .next s := by
  refine h.exec_wait rfl ?_
  simp only [hi]
  exact if_pos hwait

theorem exec_vseal_of_noAllow (hwait : u.vsealWaits c r g (u.withSeal g r) = false)
    (ha : u.secAllow c r ((u.withSeal g r).sealed 0x38) = none) : s.Ends c r (.vseal c) secBadArg u := by
  refine h.ends rfl ?_
  unfold State.withSeal at hwait ha
  simp [hi, hwait, ha]

variable {l : List Nat} (hwait : u.vsealWaits c r g (u.withSeal g r) = false)
  (ha : u.secAllow c r ((u.withSeal g r).sealed 0x38) = some l)
include hwait ha

theorem exec_vseal_of_bad (hb : u.sealBad (coreSock c) g (u.withSeal g r) = true) :
    s.Ends c r (.vseal c) secBadArg u := by
  refine h.ends rfl ?_
  unfold State.withSeal at hwait ha hb
  simp [hi, hwait, ha, hb]

/-- A unit to be assigned at once that has an owner already is refused (R148). -/
theorem exec_vseal_of_owned (hb : u.sealBad (coreSock c) g (u.withSeal g r) = false)
    (ho : l.any (fun a => a.testBit 63 && (u.unitOwner (coreSock c) a).isSome) = true) :
    s.Ends c r (.vseal c) secNotAllowed u := by
  refine h.ends rfl ?_
  have hnow : (l.filter (·.testBit 63)).any (fun x => (u.unitOwner (coreSock c) x).isSome || u.unitMoving (coreSock c) x ||
      u.unitQuar (coreSock c) x) = true := by
    obtain ⟨a, hl, hbit⟩ := List.any_eq_true.1 ho
    rw [Bool.and_eq_true] at hbit
    exact List.any_eq_true.2 ⟨a, List.mem_filter.2 ⟨hl, hbit.1⟩, by simp [hbit.2]⟩
  unfold State.withSeal at hwait ha hb
  simp only [hi, hwait, ha, hb, hnow, Bool.false_eq_true, if_false, if_true]

theorem exec_vseal (hb : u.sealBad (coreSock c) g (u.withSeal g r) = false)
    (hn : l.filter (·.testBit 63) = []) : s.Ends c r (.vseal c) 1 (u.sealInst g { u.withSeal g r with allow := l }) := by
  refine h.ends rfl ?_
  unfold State.withSeal at hwait ha hb
  simp only [hi, hwait, ha, hb, hn, List.any_nil, List.foldl_nil, Bool.false_eq_true, if_false]
  rfl

end

/-- VDESTROY names no instance that there is. -/
theorem exec_vdestroy_of_noInst (h : s.AskedIn c r u 0x13 false) (hi : u.secInst c r (· ≠ 0) = .error i) :
    s.Ends c r (.vdestroy c) i u := by
  refine h.ends rfl ?_
  simp only [hi]

/-- A restart under way ends before the instance is destroyed (R159). -/
theorem exec_vdestroy_waits (h : s.AskedIn c r u 0x13 false) (hi : u.secInst c r (· ≠ 0) = .ok g)
    (hs : u.rd Reg.secViStateState (viIx g) = 3) : exec (.vdestroy c) s = .next s := by
  refine h.exec_wait rfl ?_
  simp only [hi]
  exact if_pos (by simp [hs])

/-- A unit of a destroyed instance reset at once and given back to the normal world. -/
def State.unitBack (s : State) (g x : Nat) : State :=
  let m := x % 2 ^ 32
  let stop (s : State) (h cell n : Nat) : State :=
    let y := s.stkReset h cell n false
    if (y.stk h cell n).infl.isEmpty then y else y.stkStop h cell n
  ((if natBits m 3 0 = 1 then stop s (x / 2 ^ 32) (unitCh m).1 (unitCh m).2 else s).unitFrom (x / 2 ^ 32) m g).unitFree (x / 2 ^ 32) m

/-- A page of a destroyed instance zeroed and returned. -/
def State.pageBack (s : State) (k : Nat) (e : Nat × Nat) : State :=
  { s.pageZero k e.1 with owner := cellErase (s.pageZero k e.1).owner e.1 }

/-- An instance whose seats are given up destroyed. -/
def State.destroyInst (v : State) (k g : Nat) : State :=
  ((((v.vinst g).pages.foldl (fun s e => s.pageBack k e) ((v.vinst g).units.foldl (fun s x => s.unitBack g x) v)).wrs (viIx g)
    [(Reg.secViStateState, 0), (Reg.secViStateSeats, 0), (Reg.secViStateBusy, 0), (Reg.secViWdog, 0)]).setVinst g VInst.free).newKeys g

theorem exec_vdestroy (h : s.AskedIn c r u 0x13 false) (hi : u.secInst c r (· ≠ 0) = .ok g)
    (hs : u.rd Reg.secViStateState (viIx g) ≠ 3) (hm : u.handover.any (fun h => h.inst = g) = false)
    (hp : (u.vinst g).pages.any (fun e => u.pageBusy (coreSock c) e.1) = false) (he : u.evictSeats g = some v) :
    s.Ends c r (.vdestroy c) 1 (v.destroyInst (coreSock c) g) := by
  refine h.ends rfl ?_
  simp only [hi, decide_eq_false hs, hm, hp, he, Bool.or_self, Bool.false_eq_true, if_false]
  rfl

end

/-- Settles O57: each request on its block, by the lemma about its operation and its outcome. -/
theorem vault_request_results : Obligations.vault_request_results := by
  refine ⟨?requests, ?instances⟩
  case requests =>
    intro c pa r s u v w x e k hq hb ended ends reports
    have h : s.Asked c r u := ⟨hq, hb⟩
    have hreports : ∀ {i : Instr}, s.Reports c r i u → reports i := fun hr =>
      ⟨fun ho => hr.1 ho x e, fun ho hw => ⟨fun hv => (hr.2 ho hw).1 hv x e, fun hv ht => (hr.2 ho hw).2 _ _ _ hv ht x e⟩⟩
    exact ⟨fun hop => exec_secRequestBadOp h hop x e, exec_secRequestBadOp_of_listed h,
      fun hop => ⟨fun hw => exec_attest_inVault h hop hw x e, fun hw hs => exec_attest_of_notSealed h hop hw hs x e,
        fun hw hs => hreports (exec_attest h hop hw hs)⟩,
      fun hop => ⟨fun hf => exec_vreport_of_absent h hop hf x e, fun hf hw => exec_vreport_inNormal h hop hf hw x e,
        fun hf hw => hreports (exec_vreport h hop hf hw)⟩,
      fun hop => ⟨fun hf => exec_stkkey_of_absent h hop hf x e, fun hf =>
        ⟨fun hn => exec_stkkey_of_notAllowed h hop hf (.inl hn) x e, fun hn => exec_stkkey_of_notAllowed h hop hf (.inr hn) x e,
          fun hn hw => exec_stkkey h hop hf hn hw x e⟩⟩⟩
  case instances =>
    intro c g pa i r l s u v x e k hq hb he ended ends newKeys
    have h : s.Asked c r u := ⟨hq, hb⟩
    have hin : ∀ {op : Nat}, (u.part k).full = true → r.world = none → r.op = op → s.AskedIn c r u op false :=
      fun hf hw hop => ⟨h, hop, hf, by simp [hw]⟩
    have hends : ∀ {i : Instr} {st : Nat} {v : State}, s.Ends c r i st v → ends i st v := fun hr hw => hr x e hw he
    refine ⟨fun y hy hop =>
        ⟨fun hf => hends ((exec_vault_refused h hy hop).1 hf), fun hf hw => hends ((exec_vault_refused h hy hop).2 hf hw)⟩,
      fun hf hw => ⟨fun hop => ⟨fun hn => hends (exec_vcreate_of_none (hin hf hw hop) hn),
          fun hi hfree hl hg hv => hends (exec_vcreate (hin hf hw hop) hi hfree hl hg hv)⟩,
        fun hop hi => hends (exec_vadd_of_noInst (hin hf hw hop) hi), fun hop hi hpa => ?vadd,
        fun hop hi => hends (exec_vseal_of_noInst (hin hf hw hop) hi), fun hop hi => ?vseal,
        fun hop hi => hends (exec_vdestroy_of_noInst (hin hf hw hop) hi),
        fun hop hi => ⟨exec_vdestroy_waits (hin hf hw hop) hi,
          fun hs hm hp he => hends (exec_vdestroy (hin hf hw hop) hi hs hm hp he)⟩⟩⟩
    case vadd =>
      subst hpa
      intro kind isMem own
      have hmem : isMem (u.opnd r 0x18) = (u.target k (u.opnd r 0x18)).isMem := by
        simp only [isMem]
        cases u.target k (u.opnd r 0x18) <;> rfl
      rw [hmem]
      exact ⟨fun hb => hends (exec_vadd_of_badPage (hin hf hw hop) hi hb),
        fun ha hm ho hb hk => hends (exec_vadd_data (hin hf hw hop) hi ha hm ho hb hk)⟩
    case vseal =>
      exact ⟨exec_vseal_waits (hin hf hw hop) hi, fun hwait ha => hends (exec_vseal_of_noAllow (hin hf hw hop) hi hwait ha),
        fun hwait ha => ⟨fun hb => hends (exec_vseal_of_bad (hin hf hw hop) hi hwait ha hb),
          fun hb ho => hends (exec_vseal_of_owned (hin hf hw hop) hi hwait ha hb ho),
          fun hb hn => hends (exec_vseal (hin hf hw hop) hi hwait ha hb hn)⟩⟩

end Sys2Proof.Machine

/-! ## Hand-overs of units, and the restart of an instance (R155-R160, Tables DOMN-8 and DOMN-9) -/

namespace Sys2Proof.Machine

/-! ### A unit asked for (VASSIGN, VRELEASE, VRECLAIM) -/

/-- Core `c` has no hand-over of its own under way, and its request names a unit. -/
structure State.AsksUnit (u : State) (c : Nat) (r : KeyReq) : Prop where
  idle : ∀ h ∈ u.handover, h.core ≠ c
  unit : unitOk (u.opnd r 0x10) = true
  plain : u.opnd r 0x10 < 2 ^ 63

/-- The hand-over of the unit asked for begun. -/
def State.asked (u : State) (c : Nat) (r : KeyReq) (g : Nat) : State :=
  { u with handover := u.handover ++ [{ sock := coreSock c, unit := u.opnd r 0x10 % 2 ^ 32, inst := g, op := r.op, step := 1, core := c,
                                        cancelled := false }] }

section
variable {s u : State} {c g : Nat} {r : KeyReq}

theorem State.AsksUnit.any_eq (hx : u.AsksUnit c r) : u.handover.any (fun h => h.core = c) = false := by simpa using hx.idle

theorem State.AsksUnit.named (hx : u.AsksUnit c r) : (!unitOk (u.opnd r 0x10) || (u.opnd r 0x10).testBit 63) = false := by
  simp [hx.unit, Nat.testBit_lt_two_pow hx.plain]

section
variable {sw : Bool} (h : s.AskedIn c r u 0x14 false) (hx : u.AsksUnit c r) (hi : u.secInst c r (· = 2) = .ok g)
include h hx hi

theorem exec_vassign_of_moving (hm : u.unitMoving (coreSock c) (u.opnd r 0x10) = true) : s.Ends c r (.vassign c sw) secState u := by
  refine h.ends rfl ?_
  simp only [hx.any_eq, hi, hx.named, hm, Bool.false_eq_true, if_false, if_true]

variable (hm : u.unitMoving (coreSock c) (u.opnd r 0x10) = false)
include hm

/-- A unit that is not on the instance's list, is another's or is quarantined, and a function behind a switch (R500), is not assigned. -/
theorem exec_vassign_of_notAllowed (hn : (u.unitOwner (coreSock c) (u.opnd r 0x10)).isSome = true ∨
      u.unitQuar (coreSock c) (u.opnd r 0x10) = true ∨ (∀ a ∈ (u.vinst g).allow, a % 2 ^ 63 ≠ u.opnd r 0x10) ∨
      (natBits (u.opnd r 0x10) 3 0 = 2 ∧ sw = true)) : s.Ends c r (.vassign c sw) secNotAllowed u := by
  refine h.ends rfl ?_
  simp only [hx.any_eq, hi, hx.named, hm, Bool.false_eq_true, if_false]
  refine if_pos ?_
  obtain ho | hq | ha | hs := hn
  · simp [ho]
  · simp [hq]
  · have hlist : (u.vinst g).allow.any (fun a => a % 2 ^ 63 = u.opnd r 0x10) = false := by simpa using ha
    simp only [hlist, Bool.not_false, Bool.true_or]
  · simp [hs]

theorem exec_vassign (ho : u.unitOwner (coreSock c) (u.opnd r 0x10) = none) (hq : u.unitQuar (coreSock c) (u.opnd r 0x10) = false)
    (ha : ∃ a ∈ (u.vinst g).allow, a % 2 ^ 63 = u.opnd r 0x10) (hs : sw = false) (hl : (u.vinst g).units.length < 16)
    (hfn : (u.prc (coreSock c) (unitFn (u.opnd r 0x10)).1).fns.length < 64) : exec (.vassign c sw) s = .next (u.asked c r g) := by
  refine h.exec_later rfl ?_
  have hlist : (u.vinst g).allow.any (fun a => a % 2 ^ 63 = u.opnd r 0x10) = true := by simpa using ha
  simp only [hx.any_eq, hi, hx.named, hm, ho, hq, hlist, hs, Nat.not_le.2 hl, Nat.not_le.2 hfn, decide_false, Option.isSome_none,
    Bool.not_true, Bool.and_false, Bool.or_self, Bool.false_eq_true, if_false]
  rfl

end

section
variable (h : s.AskedIn c r u 0x15 true) (hx : u.AsksUnit c r) (hw : r.world.map (·.1) = some g)
  (hm : u.unitMoving (coreSock c) (u.opnd r 0x10) = false)
include h hx hw hm

theorem exec_vrelease (ho : u.unitOwner (coreSock c) (u.opnd r 0x10) = some g) : exec (.vrelease c) s = .next (u.asked c r g) := by
  refine h.exec_later rfl ?_
  simp only [hx.any_eq, hx.named, hm, ho, hw, Option.getD_some, ne_eq, not_true_eq_false, Bool.false_eq_true, if_false]
  rfl

theorem exec_vrelease_of_notOwned (ho : u.unitOwner (coreSock c) (u.opnd r 0x10) ≠ some g) :
    s.Ends c r (.vrelease c) secNotAllowed u := by
  refine h.ends rfl ?_
  simp only [hx.any_eq, hx.named, hm, hw, if_pos ho, Bool.false_eq_true, if_false]

end

section
variable (h : s.AskedIn c r u 0x16 false) (hx : u.AsksUnit c r) (hi : u.secInst c r (· = 2) = .ok g)
  (hm : u.unitMoving (coreSock c) (u.opnd r 0x10) = false)
include h hx hi hm

theorem exec_vreclaim (ho : u.unitOwner (coreSock c) (u.opnd r 0x10) = some g) : exec (.vreclaim c) s = .next (u.asked c r g) := by
  refine h.exec_later rfl ?_
  simp only [hx.any_eq, hi, hx.named, hm, ho, ne_eq, not_true_eq_false, Bool.false_eq_true, if_false]
  rfl

theorem exec_vreclaim_of_notOwned (ho : u.unitOwner (coreSock c) (u.opnd r 0x10) ≠ some g) :
    s.Ends c r (.vreclaim c) secNotAllowed u := by
  refine h.ends rfl ?_
  simp only [hx.any_eq, hi, hx.named, hm, if_pos ho, Bool.false_eq_true, if_false]

end
end

/-! ### The steps of a hand-over (Table DOMN-9) -/

/-- Command `i` ends hand-over `h` with status `st` in state `v`: the request that asked for it, where it is still there, ends with it. -/
def State.Finishes (s : State) (h : HandOver) (i : Instr) (st : Nat) (v : State) : Prop :=
  ((v.core h.core).keyReq = none → exec i s = .next (v.moved h)) ∧
  (∀ (r : KeyReq) (w : State) (e : Option Stop), (v.core h.core).keyReq = some r →
    (v.moved h).agentWrite (freeAgent (coreSock h.core)) (coreSock h.core) r.pa (leBytes 8 st) = (w, e) →
    (∀ y, e = some y → y.status ≠ 256) → exec i s = .next (w.secEnded h.core st))

theorem State.finishes_of_moveEnd {s v : State} {h : HandOver} {i : Instr} {st : Nat}
    (hi : exec i s = .next ((v.moveEnd h st).getD s)) : s.Finishes h i st v := by
  refine ⟨fun hn => ?_, fun r w e hr hw he => ?_⟩
  · simp only [hi, State.moveEnd, hn, Option.getD_some]
  · simp only [hi, State.moveEnd, hr, State.secEnd_of_written hw he, Option.getD_some]

section
variable {s : State} {k unit g : Nat} {h : HandOver}

theorem exec_unitWorkStopped_channel (hm : s.moving k unit 1 = some h) (hk : natBits unit 3 0 = 1) :
    exec (.unitWorkStopped k unit) s = .next ((s.moveTo h 2).stkReset k (unitCh unit).1 (unitCh unit).2 true) := by
  change execUnitWorkStopped k unit s = _
  simp only [execUnitWorkStopped, hm, if_pos hk]

theorem exec_unitWorkStopped_function (hm : s.moving k unit 1 = some h) (hk : natBits unit 3 0 = 2) :
    exec (.unitWorkStopped k unit) s = .next ((s.moveTo h 2).updPrc k (unitFn unit).1 (fun x =>
      { x with stopped := (unitFn unit).2 :: x.stopped.filter (· ≠ (unitFn unit).2) })) := by
  change execUnitWorkStopped k unit s = _
  simp [execUnitWorkStopped, hm, hk]

theorem exec_unitWorkStopped_of_none (hm : s.moving k unit 1 = none) : exec (.unitWorkStopped k unit) s = .next s := by
  change execUnitWorkStopped k unit s = _
  simp only [execUnitWorkStopped, hm]

/-- The unit's reset has ended: a channel is HELD, and a function's context is not waiting for a line. -/
structure State.ResetEnded (s : State) (k unit : Nat) : Prop where
  channel : natBits unit 3 0 = 1 → s.chState k (unitCh unit).1 (unitCh unit).2 = 4
  function : natBits unit 3 0 = 2 → (s.devCtx k (unitFn unit).1 (unitFn unit).2).2 ≠ .error true

/-- The reset ended, the unit goes on to step 4, or back where its hand-over is cancelled. -/
theorem State.ResetEnded.exec (hr : s.ResetEnded k unit) (hm : s.moving k unit 2 = some h) :
    exec (.unitResetComplete k unit) s = .next (if h.cancelled then ((s.unitFree k unit).moveEnd h secState).getD s
      else (if h.op = 0x14 then s.unitTo k unit h.inst else s.unitFrom k unit h.inst).moveTo h 4) := by
  have hch : (natBits unit 3 0 = 1 && s.chState k (unitCh unit).1 (unitCh unit).2 ≠ 4) = false := by
    simpa using hr.channel
  change execUnitResetComplete k unit s = _
  simp only [execUnitResetComplete, hm, hch, Bool.false_eq_true, if_false]
  congr 1
  refine if_neg ?_
  intro hcon
  rw [Bool.and_eq_true, decide_eq_true_eq] at hcon
  obtain ⟨hf, hctx⟩ := hcon
  split at hctx
  · exact hr.function hf ‹_›
  · cases hctx

theorem exec_unitResetComplete_of_draining (hm : s.moving k unit 2 = some h) (hk : natBits unit 3 0 = 1)
    (hs : s.chState k (unitCh unit).1 (unitCh unit).2 ≠ 4) : exec (.unitResetComplete k unit) s = .next s := by
  change execUnitResetComplete k unit s = _
  simp [execUnitResetComplete, hm, hk, hs]

/-- Step 3a: a unit whose reset does not end in time (R155). -/
theorem exec_unitResetTimeout (hm : s.moving k unit 2 = some h)
    (hs : natBits unit 3 0 = 1 → s.chState k (unitCh unit).1 (unitCh unit).2 ≠ 4) :
    exec (.unitResetTimeout k unit) s = .next (((s.unitQuarantine k unit h.inst).moveEnd h secUnitFailed).getD s) := by
  change execUnitResetTimeout k unit s = _
  simp only [execUnitResetTimeout, hm]
  exact congrArg _ (if_neg (by simpa using hs))

theorem exec_unitResetTimeout_of_held (hm : s.moving k unit 2 = some h) (hk : natBits unit 3 0 = 1)
    (hs : s.chState k (unitCh unit).1 (unitCh unit).2 = 4) : exec (.unitResetTimeout k unit) s = .next s := by
  change execUnitResetTimeout k unit s = _
  simp [execUnitResetTimeout, hm, hk, hs]

/-- The reset that a restart waits for does not end in time (R158). -/
theorem exec_unitResetTimeout_restart (hm : s.moving k unit 2 = none) (hr : s.resetFor k unit = some g) :
    exec (.unitResetTimeout k unit) s = .next (s.unitQuarantine k unit g) := by
  change execUnitResetTimeout k unit s = _
  simp only [execUnitResetTimeout, hm, hr]

theorem exec_unitRoutesRewritten (hm : s.moving k unit 4 = some h) (ho : h.op ≠ 0x16) :
    exec (.unitRoutesRewritten k unit) s = .next (((s.unitFree k unit).moveEnd h 1).getD s) := by
  change execUnitRoutesRewritten k unit s = _
  simp only [execUnitRoutesRewritten, hm, if_neg ho]

/-- A unit reclaimed: its instance is told at its next entry (R185). -/
theorem exec_unitRoutesRewritten_reclaimed (hm : s.moving k unit 4 = some h) (ho : h.op = 0x16) :
    exec (.unitRoutesRewritten k unit) s = .next ((((s.unitFree k unit).setVinst h.inst
      { (s.unitFree k unit).vinst h.inst with revoked := true }).moveEnd h 1).getD s) := by
  change execUnitRoutesRewritten k unit s = _
  simp only [execUnitRoutesRewritten, hm, if_pos ho]

theorem exec_unitRoutesRewritten_of_none (hm : s.moving k unit 4 = none) : exec (.unitRoutesRewritten k unit) s = .next s := by
  change execUnitRoutesRewritten k unit s = _
  simp only [execUnitRoutesRewritten, hm]

end

/-! ### What a report leaves alone: an Ashpan entry with its interrupts, a system vector (R173, R505-R510) -/

/-- The register fields that reports change. -/
def reportFlds : List Nat :=
  [Reg.ashEntry, Reg.ashSeqNext, Reg.ashRingWrptr, Reg.ashRingRdptr, Reg.ashOverrun, Reg.ashIntPend, Reg.ashCelimSupp, Reg.ihubDropMsg,
    Reg.ihubPend, Reg.pwrMgcIbiPend].map Fld.id

/-- Between `s` and `t` there are reports only: memory, the cores, the memory channels and every other register field are the same. -/
structure State.Reported (s t : State) : Prop where
  mem : t.mem = s.mem
  cores : t.cores = s.cores
  chans : t.chans = s.chans
  rd : ∀ (f : Fld) (a : Ix), f.id < 1024 → f.id ∉ reportFlds → t.rd f a = s.rd f a

section
variable {s t u : State}

theorem State.Reported.refl (s : State) : s.Reported s := ⟨rfl, rfl, rfl, fun _ _ _ _ => rfl⟩

theorem State.Reported.trans (h : s.Reported t) (h' : t.Reported u) : s.Reported u :=
  ⟨h'.mem.trans h.mem, h'.cores.trans h.cores, h'.chans.trans h.chans, fun f a hf hn => (h'.rd f a hf hn).trans (h.rd f a hf hn)⟩

theorem State.Reported.chState (h : s.Reported t) (k cell c : Nat) : t.chState k cell c = s.chState k cell c :=
  h.rd _ _ (by decide) (by decide)

theorem State.reported_wr (s : State) {f : Fld} (a : Ix) (v : Nat) (hf : f.id ∈ reportFlds) : s.Reported (s.wr f a v) := by
  have hlt : ∀ n ∈ reportFlds, n < 1024 := by decide
  exact ⟨rfl, rfl, rfl, fun f' a' hf' hn => s.rd_wr_field a a' v (hlt _ hf) hf' (fun h => hn (h ▸ hf))⟩

theorem State.Reported.wr (h : s.Reported t) {f : Fld} (a : Ix) (v : Nat) (hf : f.id ∈ reportFlds) : s.Reported (t.wr f a v) :=
  h.trans (t.reported_wr a v hf)

theorem State.Reported.ite {p : Prop} [Decidable p] (h : s.Reported t) (h' : s.Reported u) : s.Reported (if p then t else u) := by
  split
  · exact h
  · exact h'

theorem State.reported_sysVector (s : State) (k l v : Nat) : s.Reported (s.sysVector k l v) :=
  .ite (s.reported_wr _ _ (by decide)) (s.reported_wr _ _ (by decide))

theorem State.reported_mgcReason (s : State) (k r : Nat) : s.Reported (s.mgcReason k r) := by
  obtain ⟨hmem, hcores, hchans, hrd⟩ := s.reported_wr (f := Reg.pwrMgcIbiPend) { sock := k }
    (s.rd Reg.pwrMgcIbiPend { sock := k } ||| 2 ^ r) (by decide)
  exact .ite ⟨hmem, hcores, hchans, hrd⟩ (.refl s)

theorem State.reported_ashRaw (s : State) (k : Nat) (e : AshE) : s.Reported (s.ashRaw k e) := by
  unfold State.ashRaw
  extract_lets a w seq at' w' full s1 s2 s3 s4 s5 s6 s7 s8 s9 s10 s11 s12 s13
  have hentry : ∀ {t : State} (a : Ix) (v : Nat), s.Reported t → s.Reported (t.wr Reg.ashEntry a v) := fun a v h => h.wr a v (by decide)
  have h8 : s.Reported s8 :=
    hentry _ _ (hentry _ _ (hentry _ _ (hentry _ _ (hentry _ _ (hentry _ _ (hentry _ _ (hentry _ _ (.refl s))))))))
  have h10 : s.Reported s10 := (h8.wr a _ (by decide)).wr a _ (by decide)
  have h11 : s.Reported s11 := .ite ((h10.wr a _ (by decide)).wr a _ (by decide)) h10
  have h12 : s.Reported s12 := ⟨h11.mem, h11.cores, h11.chans, h11.rd⟩
  have h13 : s.Reported s13 := .ite (.ite ((h12.wr a _ (by decide)).trans (State.reported_sysVector _ _ _ _)) h12) h12
  exact .ite (h13.trans (s13.reported_mgcReason k 1)) h13

theorem State.reported_ash (s : State) (k : Nat) (e : AshE) : s.Reported (s.ash k e) := by
  have hfree : s.Reported s.useFree.useFree := ⟨rfl, rfl, rfl, fun _ _ _ _ => rfl⟩
  have hcount : ∀ (t : State) m, t.Reported { t with ceCount := m } := fun _ _ => ⟨rfl, rfl, rfl, fun _ _ _ _ => rfl⟩
  have hsupp : ∀ (t : State) m, t.Reported { t with ceSupp := m } := fun _ _ => ⟨rfl, rfl, rfl, fun _ _ _ _ => rfl⟩
  refine hfree.trans (.ite (.ite ?_ ?_) (State.reported_ashRaw _ k _))
  · exact (hcount _ _).trans (State.reported_ashRaw _ k _)
  · exact (State.reported_wr _ _ _ (by decide)).trans (hsupp _ _)

/-- So is a loss notification, but for who was told (R183). -/
theorem State.lossNotify_cores (s : State) (k lost v : Nat) : (s.lossNotify k lost v).cores = s.cores := by
  unfold State.lossNotify
  dsimp only
  split
  · exact (s.reported_sysVector _ _ _).cores
  · split
    · exact (State.reported_sysVector _ _ _ _).cores
    · exact (s.reported_mgcReason _ _).cores

end

/-- A channel's record does not hold its state. -/
theorem State.updStk_chState (s : State) (k cell c k' cell' c' : Nat) (f : StkCh → StkCh) :
    (s.updStk k cell c f).chState k' cell' c' = s.chState k' cell' c' :=
  (State.rd_wr_field _ _ _ _ (by decide) (by decide) (by decide)).trans (State.rd_wr_field _ _ _ _ (by decide) (by decide) (by decide))

theorem State.setChState_chState (s : State) (k cell c v : Nat) : (s.setChState k cell c v).chState k cell c = v % 8 :=
  (State.rd_wr_field _ _ _ _ (by decide) (by decide) (by decide)).trans (State.rd_wr_same _ _ _ _)

/-- A quarantined channel shows so (step 3a of Table DOMN-9). -/
theorem State.unitQuarantine_chState {s : State} {k unit g : Nat} (hk : natBits unit 3 0 = 1) :
    (s.unitQuarantine k unit g).chState k (unitCh unit).1 (unitCh unit).2 = 5 := by
  unfold State.unitQuarantine
  simp only [hk, if_true]
  rw [(State.reported_ash _ _ _).chState, State.updStk_chState, State.setChState_chState]

/-! ### What resets of a restart leave alone: memory (step 4 of Table DOMN-8) -/

@[simp] theorem State.updStk_mem (s : State) (k cell c : Nat) (f : StkCh → StkCh) : (s.updStk k cell c f).mem = s.mem := rfl

@[simp] theorem State.setChState_mem (s : State) (k cell c v : Nat) : (s.setChState k cell c v).mem = s.mem := rfl

theorem State.setFin_mem (s : State) (k cell c idx : Nat) (f : Fin) : (s.setFin k cell c idx f).mem = s.mem := by
  unfold State.setFin State.dropSplit State.updDesc
  split
  · rfl
  · rw [State.updStk_mem]
    split <;> rfl

/-- A fold of operations that leave memory leaves memory. -/
theorem foldl_mem {α : Type} {f : State → α → State} (hf : ∀ s a, (f s a).mem = s.mem) (l : List α) (s : State) :
    (l.foldl f s).mem = s.mem := by
  induction l generalizing s with
  | nil => rfl
  | cons a t ih => exact (ih (f s a)).trans (hf s a)

theorem State.stkReset_mem (s : State) (k cell c : Nat) (hold : Bool) : (s.stkReset k cell c hold).mem = s.mem := by
  have hhold : (if hold then s.updStk k cell c (fun x => { x with hold := true }) else s).mem = s.mem := by
    split
    · exact State.updStk_mem _ _ _ _ _
    · rfl
  unfold State.stkReset
  dsimp only
  split
  · exact hhold
  · rw [State.updStk_mem, foldl_mem (fun s (d : Desc) => s.setFin_mem k cell c d.idx _), State.setChState_mem]
    exact hhold

/-! ### The watchdog and the triggers of a restart (R156, R160) -/

section
variable {s u : State} {c k i g seat : Nat} {r : KeyReq}

theorem State.vaultTrigger_of_running (h : s.vRunning g = true) :
    s.vaultTrigger g =
      let s' := (s.wr Reg.secViStateState (viIx g) 3).setVinst g { s.vinst g with step := 1 }
      { s' with handover := s'.handover.map (fun h =>
          if h.inst = g && h.op = 0x14 && decide (h.step < 4) then { h with cancelled := true } else h) } := if_pos h

theorem State.vaultTrigger_of_not_running (h : s.vRunning g = false) : s.vaultTrigger g = s := if_neg (by simp [h])

theorem exec_vrestart (h : s.AskedIn c r u 0x17 true) (hw : r.world = some (g, seat)) : exec (.vrestart c) s = .next (u.vaultTrigger g) :=
  h.exec_later rfl (by simp only [hw])

section
variable (hg : s.instOf k (i % 64) = g)
include hg

theorem exec_vaultWatchdogExpiry (hb : s.rd Reg.secViStateBusy (viIx g) ≠ 0)
    (ht : (s.vinst g).kick + 1000 * s.rd Reg.secViWdog (viIx g) ≤ s.now (g / 64)) :
    exec (.vaultWatchdogExpiry k i) s = .next (s.vaultTrigger g) := by
  subst hg
  change execVaultWatchdogExpiry k i s = _
  simp [execVaultWatchdogExpiry, hb, ht]

theorem exec_vaultWatchdogExpiry_early (h : s.rd Reg.secViStateBusy (viIx g) = 0 ∨
      s.now (g / 64) < (s.vinst g).kick + 1000 * s.rd Reg.secViWdog (viIx g)) : exec (.vaultWatchdogExpiry k i) s = .next s := by
  subst hg
  change execVaultWatchdogExpiry k i s = _
  obtain h | h := h <;> simp [execVaultWatchdogExpiry, h]

end

theorem exec_viKick (h : (s.core c).world.map (·.1) = some (s.instOf (coreSock c) (i % 64))) :
    exec (.viKick c i) s = .next (s.setVinst (s.instOf (coreSock c) (i % 64)) { s.vinst (s.instOf (coreSock c) (i % 64)) with
      kick := s.now (s.instOf (coreSock c) (i % 64) / 64) }) := by
  change Host.Outcome.next (s.viKick c (i % 64)) = _
  rw [State.viKick, if_pos h]

theorem exec_viKick_foreign (h : (s.core c).world.map (·.1) ≠ some (s.instOf (coreSock c) (i % 64))) : exec (.viKick c i) s = .next s := by
  change Host.Outcome.next (s.viKick c (i % 64)) = _
  rw [State.viKick, if_neg h]

end

/-! ### The steps of a restart (Table DOMN-8) -/

section
variable {s : State} {k i g : Nat} (hg : s.instOf k (i % 64) = g)
include hg

theorem exec_vaultUnitsReset_of_other (h : (s.vinst g).step ≠ 1 ∨ s.restartRuns (g / 64) = false) :
    exec (.vaultUnitsReset k i) s = .next s := by
  subst hg
  change execVaultUnitsReset k i s = _
  obtain h | h := h <;> simp [execVaultUnitsReset, h]

/-- Step 4: the reset of every unit is asked for; memory stays as it is. -/
theorem exec_vaultUnitsReset (h1 : (s.vinst g).step = 1) (hr : s.restartRuns (g / 64) = true)
    (hc : s.cores.any (fun (e : Nat × Core) => e.2.world.map (·.1) = some g) = false) :
    ∃ t : State, exec (.vaultUnitsReset k i) s = .next t ∧ (t.vinst g).step = 2 ∧ t.mem = s.mem := by
  subst hg
  change ∃ t : State, execVaultUnitsReset k i s = .next t ∧ _
  simp only [execVaultUnitsReset, h1, hr, hc, ne_eq, not_true_eq_false, decide_false, Bool.not_true, Bool.or_self, Bool.false_eq_true,
    if_false]
  refine ⟨_, rfl, ?_, ?_⟩
  · simp only [State.vinst, State.setVinst, cellGet_set_same]
  · refine foldl_mem (fun s x => ?_) _ s
    split
    · exact State.stkReset_mem _ _ _ _ _
    · rfl

/-- Whether the reset of a channel of an instance has not ended. -/
def State.unitDrains (s : State) (x : Nat) : Bool := natBits x 3 0 = 1 && s.chState (x / 2 ^ 32) (unitCh x).1 (unitCh x).2 = 3

/-- Whether step 5 must wait, or is not due. -/
def State.clearWaits (s : State) (k g : Nat) : Bool :=
  decide ((s.vinst g).step ≠ 2) || !s.restartRuns (g / 64) || (s.vinst g).units.any s.unitDrains || !(s.vinst g).resets.isEmpty ||
    (s.vinst g).pages.any (fun e => s.pageBusy k e.1)

/-- The data pages of an instance zeroed under a new key, and its image pages called home. -/
def State.cleared (s : State) (k g : Nat) : State :=
  (((s.vinst g).pages.foldl (fun (s : State) (e : Nat × Nat) => if e.2 = 4 then s.pageZero k e.1 else s.pageRecall k e.1) s).newKey
    (2 ^ 17 + g)).setVinst g { s.vinst g with step := 3 }

theorem exec_vaultDataCleared_eq : exec (.vaultDataCleared k i) s = .next (if s.clearWaits k g = true then s else s.cleared k g) := by
  subst hg
  rfl

theorem exec_vaultDataCleared_waits (h : (s.vinst g).step ≠ 2 ∨ s.restartRuns (g / 64) = false ∨
      (s.vinst g).units.any s.unitDrains = true ∨ (s.vinst g).resets ≠ []) : exec (.vaultDataCleared k i) s = .next s := by
  refine (exec_vaultDataCleared_eq hg).trans (congrArg _ (if_pos ?_))
  obtain h | h | h | h := h <;> simp only [State.clearWaits, h] <;> simp [h]

theorem exec_vaultDataCleared (h2 : (s.vinst g).step = 2) (hr : s.restartRuns (g / 64) = true)
    (hp : (s.vinst g).pages.any (fun e => s.pageBusy k e.1) = false) (hu : (s.vinst g).units.any s.unitDrains = false)
    (he : (s.vinst g).resets = []) : exec (.vaultDataCleared k i) s = .next (s.cleared k g) := by
  refine (exec_vaultDataCleared_eq hg).trans (congrArg _ (if_neg ?_))
  simp only [State.clearWaits, h2, hr, hp, hu, he]
  decide

/-- Whether the image of an instance hashes to its VI_DIGEST. -/
def State.sameDigest (s : State) (g : Nat) : Bool :=
  !s.imageBad (s.vinst g) && (List.range 4).all (fun j =>
    s.rd Reg.secViDigest { viIx g with j := j } = leNat (((s.digestOf (s.vinst g)).drop (8 * j)).take 8))

/-- Step 7: the instance is SEALED again and its functions take work (R158). -/
def State.resealed (s : State) (g : Nat) : State :=
  let v := s.vinst g
  (v.units.filter (fun x => natBits x 3 0 = 2)).foldl (fun s x => s.unitFree (x / 2 ^ 32) (x % 2 ^ 32))
    ((((s.setVinst g { v with step := 0 }).sealSeats g v).wr Reg.secViStateState (viIx g) 2).bump Reg.secViRestarts (viIx g))

/-- Step 7a: the instance is LOST. -/
def State.lostInst (s : State) (g : Nat) : State :=
  let s' := (s.setVinst g { s.vinst g with step := 0 }).wr Reg.secViStateState (viIx g) 4
  s'.ash (g / 64) { cls := 3, src := 0x70, code := 0x09, part := s'.partition (g / 64), d4 := g % 64 }

/-- Steps 6 to 7a: a restarting instance's digest decides what becomes of it, and the monitor core is told (R183). -/
def State.restartEnded (s : State) (g : Nat) : State :=
  if s.sameDigest g = true then
    (s.resealed g).lossNotify (g / 64) 256 ((s.resealed g).rd Reg.ihubSysvecVaultRestarted { sock := g / 64 })
  else (s.lostInst g).lossNotify (g / 64) 256 ((s.lostInst g).rd Reg.ihubSysvecVaultLost { sock := g / 64 })

theorem exec_vaultDigestCheck_eq : exec (.vaultDigestCheck k i) s =
    .next (if (decide ((s.vinst g).step ≠ 3) || !s.restartRuns (g / 64)) = true then s else s.restartEnded g) := by
  subst hg
  rfl

theorem exec_vaultDigestCheck_of_other (h : (s.vinst g).step ≠ 3 ∨ s.restartRuns (g / 64) = false) :
    exec (.vaultDigestCheck k i) s = .next s :=
  (exec_vaultDigestCheck_eq hg).trans (congrArg _ (if_pos (by simpa using h)))

theorem exec_vaultDigestCheck (h3 : (s.vinst g).step = 3) (hr : s.restartRuns (g / 64) = true) :
    exec (.vaultDigestCheck k i) s = .next (s.restartEnded g) :=
  (exec_vaultDigestCheck_eq hg).trans (congrArg _ (if_neg (by simp [h3, hr])))

end

/-! ### A core that gives up its seat (steps 2 and 3 of Table DOMN-8, R158) -/

/-- An event counted changes the counters only. -/
theorem Core.count_eq (k : Core) (e n : Nat) : ∃ p, k.count e n = { k with pmu := p } := by
  unfold Core.count
  dsimp only
  split
  · exact ⟨k.pmu, rfl⟩
  · exact ⟨_, rfl⟩

/-- A predictor context evaluated changes core `c`'s predictor and counters only (R221, R222). -/
theorem State.ctxEval_core (s : State) (c : Nat) : ∃ p q, (s.ctxEval c).core c = { s.core c with pred := p, pmu := q } := by
  unfold State.ctxEval
  split
  · simp only [State.core_updCore_same]
    split
    · exact ⟨_, _, rfl⟩
    · split
      · exact ⟨_, _, rfl⟩
      · split
        · rename_i e _ _
          obtain ⟨q, hq⟩ := Core.count_eq { s.core c with pred :=
            { (s.core c).pred with contexts := (s.core c).pred.contexts.dropLast, sweeping := some e.2.2.2.2 } } 151 1
          exact ⟨_, q, hq⟩
        · exact ⟨_, _, rfl⟩
  · exact ⟨_, _, rfl⟩

/-- A change of world changes the predictor, the counters and HARDEN of core `c` only (R204, R218, R223). -/
theorem State.repredict_core (s : State) (c : Nat) (was : Bool) :
    ∃ p q h, (s.repredict c was).core c = { s.core c with pred := p, pmu := q, hardenEff := h } := by
  obtain ⟨p, q, hctx⟩ := ((s.applyHarden c).clearRstack c was).ctxEval_core c
  have hras : ∃ p, ((s.applyHarden c).clearRstack c was).core c = { (s.applyHarden c).core c with pred := p } := by
    unfold State.clearRstack
    split
    · exact ⟨_, State.core_updCore_same _ _ _⟩
    · exact ⟨_, rfl⟩
  obtain ⟨p', hras⟩ := hras
  have hharden : ∃ q h, (s.applyHarden c).core c = { s.core c with pmu := q, hardenEff := h } := ⟨_, _, State.core_updCore_same _ _ _⟩
  obtain ⟨q', h, hharden⟩ := hharden
  refine ⟨p.flush, q, h, ?_⟩
  unfold State.repredict
  simp only [State.core_updCore_same, hctx, hras, hharden]

@[simp] theorem State.core_wr (s : State) (f : Fld) (a : Ix) (v c : Nat) : (s.wr f a v).core c = s.core c := rfl

@[simp] theorem State.core_bump (s : State) (f : Fld) (a : Ix) (c : Nat) : (s.bump f a).core c = s.core c := rfl

@[simp] theorem State.core_wrIf (s : State) (b : Bool) (f : Fld) (a : Ix) (v c : Nat) : (s.wrIf b f a v).core c = s.core c := by
  unfold State.wrIf
  split <;> rfl

@[simp] theorem State.core_trPut (s : State) (c w0 w1 d : Nat) : (s.trPut c w0 w1).core d = s.core d := by simp [State.trPut]

/-- What the trace records leaves the world of the core (R595). -/
@[simp] theorem State.trRec_world (s : State) (c kind : Nat) (frm to' : Word) :
    ((s.trRec c kind frm to').core c).world = (s.core c).world := by
  unfold State.trRec
  split
  · rfl
  · split
    · simp
    · dsimp only
      split <;> split <;> simp [State.trStamp]

/-- A system register set leaves the world of the core. -/
@[simp] theorem State.setSr_world (s : State) (c n : Nat) (v : Word) : ((s.setSr c n v).core c).world = (s.core c).world := by
  unfold State.setSr
  dsimp only
  split
  · split
    · rfl
    · simp [Core.setSrOwn]
  · split <;> simp [Core.setSrOwn]

@[simp] theorem State.repredict_world (s : State) (c : Nat) (was : Bool) : ((s.repredict c was).core c).world = (s.core c).world := by
  obtain ⟨p, q, h, hc⟩ := s.repredict_core c was
  rw [hc]

/-- An Exhausted core of the normal world stays there (R167). -/
theorem State.exhaust_world {s : State} {c : Nat} (hw : (s.core c).world = none) (cause : Nat) :
    ((s.exhaust c cause).core c).world = none := by
  have hcores : ∀ {t t' : State}, t'.cores = t.cores → (t.core c).world = none → (t'.core c).world = none := by
    intro t t' h ht
    rw [State.core, h]
    exact ht
  unfold State.exhaust
  rw [hw]
  exact hcores (State.lossNotify_cores _ _ _ _) (hcores (State.reported_ash _ _ _).cores (by simpa using hw))

/-- A core changed but for its world is in the same world. -/
theorem State.updCore_world {s : State} {c : Nat} {f : Core → Core} (hf : ∀ k, (f k).world = k.world) :
    ((s.updCore c f).core c).world = (s.core c).world := by
  rw [State.core_updCore_same]
  exact hf _

/-- So is one changed, with a register field, under a condition. -/
theorem ite_updCore_world {s : State} {c v : Nat} {p : Prop} [Decidable p] {g : Fld} {a : Ix} {f : Core → Core}
    (hf : ∀ k, (f k).world = k.world) : ((if p then (s.wr g a v).updCore c f else s).core c).world = (s.core c).world := by
  split
  · exact State.updCore_world hf
  · rfl

/-- Core `k` is outside a region, has no store queued and no arithmetic exception pending, and its own regime has no translation. -/
structure Core.Plain (k : Core) : Prop where
  region : k.region = none
  storeQ : k.storeQ = []
  arith : (k.srOwn SR.FPSTAT).getLsbD 8 = false
  stage1 : (k.srOwn SR.XLATCTL).getLsbD 0 = false
  stage2 : (k.srOwn SR.XLATCTL).getLsbD 1 = false

/-- With both stages off an address is refused or is its own translation, which owes nothing and installs nothing. -/
theorem translate_of_off {x : XCtx} (h1 : x.s1 = false) (h2 : x.s2 = false) (tlb : List TlbE) (wc : List WcE) (acc : Acc) (va : Word)
    (s : State) : (∃ e, translate x tlb wc acc va s = .bad e s) ∨
      (∃ t, translate x tlb wc acc va s = .ok t s ∧ t.owed = [] ∧ t.tlb = none ∧ t.path = []) := by
  unfold translate
  simp only [h1, h2, Bool.false_eq_true, if_false]
  split
  · exact .inl ⟨_, rfl⟩
  · exact .inr ⟨_, rfl, rfl, rfl, rfl⟩

/-- A core that has the regions, the stores and the two registers of a plain one is plain. -/
theorem Core.Plain.of_eq {k k' : Core} (h : k.Plain) (hr : k'.region = k.region) (hq : k'.storeQ = k.storeQ)
    (hs : ∀ n, n = SR.FPSTAT ∨ n = SR.XLATCTL → k'.srOwn n = k.srOwn n) : k'.Plain :=
  ⟨hr.trans h.region, hq.trans h.storeQ, by rw [hs _ (.inl rfl)]; exact h.arith, by rw [hs _ (.inr rfl)]; exact h.stage1,
    by rw [hs _ (.inr rfl)]; exact h.stage2⟩

/-- The registers that a gate's record or a frame holds do not make a core less plain. -/
theorem Core.Plain.restored {k : Core} (h : k.Plain) (a k0 k1 d : Word) (r : Reg5) (x : Word) :
    (((((k.setSrOwn SR.AUTH a).setSrOwn SR.KRIGHTS0 k0).setSrOwn SR.KRIGHTS1 k1).setSrOwn SR.DOMAIN d).setG r x).Plain := by
  refine h.of_eq (by simp [Core.setSrOwn]) (by simp [Core.setSrOwn]) ?_
  rintro n (rfl | rfl) <;>
    rw [Core.srOwn_setG, Core.srOwn_setSrOwn_other _ _ (by decide), Core.srOwn_setSrOwn_other _ _ (by decide),
      Core.srOwn_setSrOwn_other _ _ (by decide), Core.srOwn_setSrOwn_other _ _ (by decide)]

section
variable {s : State} {c : Nat}

/-- Without translation an access of a core of the normal world is granted or refused: nothing is waited for, nothing changes. -/
theorem State.xlateC_of_plain (hk : (s.core c).Plain) (hw : (s.core c).world = none) (acc : Acc) (va : Word) :
    (∃ t, s.xlateC c acc va = .ok t s) ∨ (∃ e, s.xlateC c acc va = .bad e s) := by
  have h1 : (s.xctx c).s1 = false := by
    simp only [State.xctx, State.xctxIn, hw, hk.stage1]
    rfl
  have h2 : (s.xctx c).s2 = false := by
    simp only [State.xctx, State.xctxIn, hw, hk.stage2]
    rfl
  unfold State.xlateC State.xlateIn xlate
  obtain ⟨e, he⟩ | ⟨t, ht, howed, htlb, hpath⟩ :=
    translate_of_off h1 h2 ((s.core c).tlbs acc) (s.core c).wc acc va s
  · exact .inr ⟨e, by simp only [he, XR.bind]⟩
  · cases hc : checkAcc (s.xctx c) acc va t s with
    | some e => exact .inr ⟨e, by simp only [ht, hc, XR.bind]⟩
    | none =>
      have hinst : s.install c acc t = s := by simp [State.install, htlb, hpath]
      exact .inl ⟨t, by simp only [ht, hc, howed, payAD, hinst, XR.bind]⟩

/-- A frame that finds the store queue empty is queued. -/
theorem State.queueStores_of_plain (hk : (s.core c).Plain) {es : List StoreEnt} (hl : es.length ≤ 144) :
    s.queueStores c es = some (s.updCore c (fun k => { k with storeQ := k.storeQ ++ es })) := by
  have hlen : ¬(s.core c).storeQ.length + es.length > 144 := by simpa [hk.storeQ] using hl
  simp only [State.queueStores, if_neg hlen, Option.map_some]

theorem State.sr_fpstat (s : State) (c : Nat) : s.sr c SR.FPSTAT = (s.core c).srOwn SR.FPSTAT := by
  unfold State.sr
  dsimp only
  split <;> simp [show srBanked SR.FPSTAT = false by decide, show srGuest SR.FPSTAT = false by decide]

/-- An event that is no host exit is entered at once, or finds no room, and leaves the core in the normal world. -/
theorem State.enter_of_plain (hk : (s.core c).Plain) (hw : (s.core c).world = none) {e : Ev} (hi : e.imprecise = false)
    (hnx : s.isHostExit c e = false) : (∃ t, s.enter c e false false = .entered t ∧ (t.core c).world = none) ∨
      (∃ t x, s.enter c e false false = .noRoom x t ∧ (t.core c).world = none) := by
  unfold State.enter
  extract_lets pend e' world hx s1 fsp f
  have hpend : pend = false := by
    change ((s.sr c SR.FPSTAT).getLsbD 8 && !e.imprecise) = false
    rw [State.sr_fpstat, hk.arith, Bool.false_and]
  have he : e' = e := if_neg (by rw [hpend]; decide)
  have hs1 : s1 = s := if_neg (by change ¬s.isHostExit c e' = true; rw [he, hnx]; decide)
  clear_value pend e' s1
  subst hpend he hs1
  split
  · exact .inr ⟨_, _, rfl, hw⟩
  · obtain ⟨t, ht⟩ | ⟨x, hx⟩ := s1.xlateC_of_plain hk hw Acc.frame (BitVec.ofNat 64 f)
    · rw [ht]
      dsimp only
      rw [s1.queueStores_of_plain hk (es := [_, _]) (show 2 ≤ 144 by decide)]
      refine .inl ⟨_, rfl, ?_⟩
      rw [State.trRec_world, State.repredict_world, State.core_bump]
      refine (ite_updCore_world fun k => Core.count_world k 7 1).trans ?_
      refine (State.updCore_world fun k => ?_).trans ?_
      · simp only [apply_ite Core.world, Core.count_world, Core.setG_world, ite_self]
        rfl
      · simp only [State.setSr_world]
        split <;> simp [hw]
    · rw [hx]
      exact .inr ⟨_, _, rfl, hw⟩

/-- So it is raised at once. -/
theorem State.raise_of_plain (hk : (s.core c).Plain) (hw : (s.core c).world = none) {e : Ev} (hi : e.imprecise = false)
    (hnx : s.isHostExit c e = false) : ∃ t, s.raise c e = some t ∧ (t.core c).world = none := by
  unfold State.raise
  simp only [hk.region, hi, Option.isSome_none, Bool.false_and, Bool.false_eq_true, if_false]
  obtain ⟨t, ht, hw'⟩ | ⟨t, x, ht, hw'⟩ := s.enter_of_plain hk hw hi hnx
  · exact ⟨t, by rw [ht], hw'⟩
  · exact ⟨_, by rw [ht], State.exhaust_world hw' x⟩

/-- A core with no region, no stores and no event pending has nothing to perform. -/
theorem State.drain_of_plain (hk : (s.core c).Plain) : s.drain c = some (s.updCore c (fun k => { k with storeQ := [] })) := by
  simp only [State.drain, hk.storeQ, State.drainList]

theorem State.seatArith_of_plain (hk : (s.core c).Plain) : s.seatArith c = some s := by
  unfold State.seatArith
  rw [State.sr_fpstat, hk.arith]
  rfl

/-- The caller's state of a seat has nothing of this in it. -/
theorem State.seatCaller_plain (hk : (s.core c).Plain) (i : Option SeatIn) : ((s.seatCaller c i).core c).Plain := by
  cases i with
  | none => exact hk
  | some i =>
    unfold State.seatCaller
    simp only [State.wrs, State.core_wr, State.core_updCore_same]
    split
    · exact (hk.restored _ _ _ _ _ _).of_eq rfl rfl (fun _ _ => rfl)
    · exact (hk.restored _ _ _ _ _ _).of_eq rfl rfl (fun _ _ => rfl)

/-- A core that leaves its seat is in the normal world. -/
theorem State.setWorld_none_core (s : State) (c : Nat) :
    ∃ i, (s.setWorld c none).core c = { s.core c with world := none, seatIn := i } := by
  unfold State.setWorld
  dsimp only
  split <;> simp only [State.core_wr, State.core_updCore_same] <;> exact ⟨_, rfl⟩

/-- A plain core that leaves its seat is still plain, whatever its predictor loses and its request becomes. -/
theorem State.leavesSeat_plain (hk : (s.core c).Plain) (was : Bool) (f : Core → Option KeyReq) :
    ((((s.setWorld c none).repredict c was).updCore c (fun q => { q with keyReq := f q })).core c).Plain ∧
      ((((s.setWorld c none).repredict c was).updCore c (fun q => { q with keyReq := f q })).core c).world = none := by
  obtain ⟨i, hi⟩ := s.setWorld_none_core c
  obtain ⟨p, q, h, hr⟩ := (s.setWorld c none).repredict_core c was
  rw [State.core_updCore_same, hr, hi]
  exact ⟨hk.of_eq rfl rfl (fun _ _ => rfl), rfl⟩

theorem State.updCore_plain {f : Core → Core} (h : (f (s.core c)).Plain) : ((s.updCore c f).core c).Plain := by
  rwa [State.core_updCore_same]

/-- A core that has nothing under way gives up its seat at once and is in the normal world (R158). -/
theorem State.abandonSeat_of_plain {w : Nat × Nat} (hk : (s.core c).Plain) (hw : (s.core c).world = some w)
    (hf : (s.core c).frozen = false) (hd : (s.core c).devWait = none) (hn : (s.core c).win = none) :
    ∃ t, s.abandonSeat c = some t ∧ (t.core c).world = none := by
  have hdrained := State.updCore_plain (f := fun k => { k with storeQ := [] }) (hk.of_eq rfl hk.storeQ.symm (fun _ _ => rfl))
  generalize hu : s.updCore c (fun k => { k with storeQ := [] }) = u at hdrained
  have hagain := State.updCore_plain (f := fun k => { k with storeQ := [] }) (hdrained.of_eq rfl hdrained.storeQ.symm (fun _ _ => rfl))
  generalize hv : u.updCore c (fun k => { k with storeQ := [] }) = v at hagain
  have hwoken := State.updCore_plain (f := fun q => { q with wait := none, fence := none }) (hagain.of_eq rfl rfl (fun _ _ => rfl))
  unfold State.abandonSeat
  simp only [hw, hf, hd, hn, hk.region, State.drain_of_plain hk, hu, State.seatArith_of_plain hdrained, State.drain_of_plain hdrained, hv,
    Option.isSome_none, Option.bind_some, Bool.or_self, Bool.false_eq_true, if_false]
  have hcaller := State.seatCaller_plain hwoken (s.core c).seatIn
  rw [← State.core_wr _ Reg.pwrCoreCstate (coreIx c) 0] at hcaller
  obtain ⟨hplain, hnormal⟩ := State.leavesSeat_plain hcaller (v.hardened c) (fun q => match q.keyReq with
    | some r => if r.op = 0x17 then none else some r
    | none => none)
  exact State.raise_of_plain hplain hnormal rfl (by simp [State.isHostExit])

end

section
variable {s : State} {c g seat : Nat}

theorem exec_vaultSeatAbandon {t : State} (hw : (s.core c).world = some (g, seat)) (h3 : s.rd Reg.secViStateState (viIx g) = 3)
    (ha : s.abandonSeat c = some t) : exec (.vaultSeatAbandon c) s = .next t := by
  change execVaultSeatAbandon c s = _
  simp only [execVaultSeatAbandon, hw, h3, ha, if_true, Option.getD_some]

theorem exec_vaultSeatAbandon_of_other (hw : (s.core c).world = some (g, seat)) (h3 : s.rd Reg.secViStateState (viIx g) ≠ 3) :
    exec (.vaultSeatAbandon c) s = .next s := by
  change execVaultSeatAbandon c s = _
  simp only [execVaultSeatAbandon, hw, if_neg h3]

theorem exec_vaultSeatAbandon_of_normal (hw : (s.core c).world = none) : exec (.vaultSeatAbandon c) s = .next s := by
  change execVaultSeatAbandon c s = _
  simp only [execVaultSeatAbandon, hw]

end

/-- Settles O58. A hand-over's steps end by `State.finishes_of_moveEnd`, and a core whose regime translates nothing gives up its seat by
`State.abandonSeat_of_plain`. -/
theorem vault_unit_and_restart_results : Obligations.vault_unit_and_restart_results := by
  refine ⟨?handOver, ?restart⟩
  case handOver =>
    intro c g x k0 unit r r' h s u w w' e k ask ended finishes he
    have hfin : ∀ {i : Instr} {st : Nat} {v : State}, exec i s = .next ((v.moveEnd h st).getD s) → finishes i st v := fun hi =>
      ⟨(State.finishes_of_moveEnd hi).1, fun hr hw => (State.finishes_of_moveEnd hi).2 r' w' e hr hw he⟩
    refine ⟨fun hq hb hf hidle hx hu hlt => ?requests, exec_unitWorkStopped_channel, exec_unitWorkStopped_of_none,
      exec_unitWorkStopped_function, fun hm hch hfn => ?reset, exec_unitResetComplete_of_draining,
      fun hm hs => hfin (exec_unitResetTimeout hm hs), State.unitQuarantine_chState, exec_unitResetTimeout_restart,
      exec_unitResetTimeout_of_held, fun hm ho => hfin (exec_unitRoutesRewritten hm ho),
      fun hm ho => hfin (exec_unitRoutesRewritten_reclaimed hm ho), exec_unitRoutesRewritten_of_none⟩
    case requests =>
      subst hx
      intro ends
      have hin : ∀ {op : Nat} {vault : Bool}, r.op = op → r.world.isSome = vault → s.AskedIn c r u op vault :=
        fun hop hw => ⟨⟨hq, hb⟩, hop, hf, hw⟩
      have hask : u.AsksUnit c r := ⟨hidle, hu, hlt⟩
      have hasked : ∀ {op : Nat}, r.op = op → u.asked c r g = ask op := fun hop => by rw [State.asked, hop]
      have hends : ∀ {i : Instr} {st : Nat}, s.Ends c r i st u → ends i st := fun hr hw => hr w e hw he
      refine ⟨fun hop hw hi => ?assign, fun hop hw hm => ?release, fun hop hw hi hm => ?reclaim⟩
      case assign =>
        have hr : s.AskedIn c r u 0x14 false := hin hop (by simp [hw])
        exact ⟨fun hm => hends (exec_vassign_of_moving hr hask hi hm), fun hm =>
          ⟨fun hn => hends (exec_vassign_of_notAllowed hr hask hi hm (hn.imp_right (.imp_right .inl))),
            fun hn => hends (exec_vassign_of_notAllowed hr hask hi hm (.inr (.inr (.inr ⟨hn, rfl⟩)))),
            fun ho hqr ha hl hfns => hasked hop ▸ exec_vassign hr hask hi hm ho hqr ha rfl hl hfns⟩⟩
      case release =>
        have hr : s.AskedIn c r u 0x15 true := hin hop (by rw [← Option.isSome_map, hw]; rfl)
        exact ⟨fun ho => hasked hop ▸ exec_vrelease hr hask hw hm ho, fun ho => hends (exec_vrelease_of_notOwned hr hask hw hm ho)⟩
      case reclaim =>
        have hr : s.AskedIn c r u 0x16 false := hin hop (by simp [hw])
        exact ⟨fun ho => hasked hop ▸ exec_vreclaim hr hask hi hm ho, fun ho => hends (exec_vreclaim_of_notOwned hr hask hi hm ho)⟩
    case reset =>
      have hr : s.ResetEnded k0 unit := ⟨hch, hfn⟩
      exact ⟨fun hc => (hr.exec hm).trans (by rw [hc]; rfl), fun hc => hfin ((hr.exec hm).trans (by rw [hc]; rfl))⟩
  case restart =>
    intro c k i g seat r s u t gi v m trig
    refine ⟨fun hq hb hop hf hw => exec_vrestart ⟨⟨hq, hb⟩, hop, hf, by rw [hw]; rfl⟩ hw,
      fun hr => ⟨congrArg _ (State.vaultTrigger_of_running hr), fun hb ht =>
        (exec_vaultWatchdogExpiry rfl hb ht).trans (congrArg _ (State.vaultTrigger_of_running hr))⟩,
      fun hr => congrArg _ (State.vaultTrigger_of_not_running hr), exec_vaultWatchdogExpiry_early rfl, exec_viKick, exec_viKick_foreign,
      fun hw => ⟨exec_vaultSeatAbandon hw, fun h3 hf hd hn hr hq hfp h1 h2 => ?plain, exec_vaultSeatAbandon_of_other hw⟩,
      exec_vaultSeatAbandon_of_normal, fun h => exec_vaultUnitsReset_of_other rfl (.inl h), exec_vaultUnitsReset rfl,
      fun h => exec_vaultDataCleared_waits rfl (.inl h), fun h2 hr hp => ⟨exec_vaultDataCleared rfl h2 hr hp,
        fun h => exec_vaultDataCleared_waits rfl (.inr (.inr h))⟩,
      fun h => exec_vaultDigestCheck_of_other rfl (.inl h), fun hr => ⟨exec_vaultUnitsReset_of_other rfl (.inr hr),
        exec_vaultDataCleared_waits rfl (.inr (.inl hr)), exec_vaultDigestCheck_of_other rfl (.inr hr)⟩,
      fun h3 hr => ⟨fun hsame => ?same, fun hsame => ?lost⟩⟩
    case plain =>
      have hk : (s.core c).Plain := ⟨hr, hq, State.sr_fpstat s c ▸ hfp, h1, h2⟩
      obtain ⟨t', ha, hw'⟩ := State.abandonSeat_of_plain hk hw hf hd hn
      exact ⟨t', exec_vaultSeatAbandon hw h3 ha, hw'⟩
    case same => exact (exec_vaultDigestCheck rfl h3 hr).trans (congrArg _ (if_pos hsame))
    case lost => exact (exec_vaultDigestCheck rfl h3 hr).trans (congrArg _ (if_neg (by rw [State.sameDigest, hsame]; decide)))

end Sys2Proof.Machine

/-! ## Memory channels: accesses, upkeep, row sparing and repair (R402-R427) -/

namespace Sys2Proof.Machine

/-! ### What a channel's record and its registers hold -/

/-- What is left where the entries of some keys are taken away. -/
theorem cellGet_filter {α : Type} (d : α) (p : Nat → Bool) (m : Cells α) (x : Nat) :
    cellGet d (m.filter (fun e => !p e.1)) x = if p x then d else cellGet d m x := by
  unfold cellGet
  induction m with
  | nil => simp
  | cons e m ih =>
    obtain ⟨j, v⟩ := e
    cases hj : p j with
    | true =>
      rw [List.filter_cons_of_neg (by simp [hj]), ih]
      by_cases hx : j = x
      · subst hx
        simp [hj]
      · simp [cellFind, hx]
    | false =>
      rw [List.filter_cons_of_pos (by simp [hj])]
      by_cases hx : j = x
      · subst hx
        simp [cellFind, hj]
      · simpa [cellFind, hx] using ih

section
variable {s t : State} {k n : Nat}

@[simp] theorem State.chan_setChan (s : State) (k n : Nat) (c : Chan) : (s.setChan k n c).chan k n = c := cellGet_set_same _ _ _ _

@[simp] theorem State.chan_updChan (s : State) (k n : Nat) (f : Chan → Chan) : (s.updChan k n f).chan k n = f (s.chan k n) :=
  s.chan_setChan _ _ _

@[simp] theorem State.chan_wr (s : State) (f : Fld) (a : Ix) (v k n : Nat) : (s.wr f a v).chan k n = s.chan k n := rfl

@[simp] theorem State.rd_updChan (s : State) (k n : Nat) (g : Chan → Chan) (f : Fld) (a : Ix) : (s.updChan k n g).rd f a = s.rd f a := rfl

@[simp] theorem State.isPoison_updChan (s : State) (k n : Nat) (f : Chan → Chan) (ln : Nat) :
    (s.updChan k n f).isPoison ln = s.isPoison ln := rfl

theorem State.chan_of_chans (h : t.chans = s.chans) : t.chan k n = s.chan k n := by
  rw [State.chan, h, State.chan]

theorem State.rd_bump_field (s : State) {f f' : Fld} (a a' : Ix) (hf : f.id < 1024) (hf' : f'.id < 1024) (h : f'.id ≠ f.id) :
    (s.bump f a).rd f' a' = s.rd f' a' := s.rd_wr_field _ _ _ hf hf' h

/-- Nothing waiting, nothing is let go. -/
theorem State.mcRelease_of_empty (h : (s.chan k n).held = []) : s.mcRelease k n = s.updChan k n (fun c => { c with held := [] }) := by
  simp only [State.mcRelease, h, List.foldl_nil]

end

/-! ### An access (R408, R411, R413, R423) -/

section
variable {s : State} {k n line ln : Nat} {q : McReq} {sweep : Bool}

/-- An access that meets an enabled channel with nothing in its way is performed. -/
theorem State.mcAccess_of_free (hl : s.mcLine k q.pa = some (n, line)) (he : s.rd Reg.mcGeomEn (mcIx k n) = 1)
    (hh : s.mcHolds k n line = false) (hw : (s.chan k n).held.any (fun r => lineOf r.pa = lineOf q.pa) = false) :
    s.mcAccess k q = s.mcDo k n line q := by
  simp only [State.mcAccess, hl, he, hh, hw, Nat.one_ne_zero, Bool.or_self, Bool.false_eq_true, if_false]

/-- One that the channel holds waits behind those that wait already. -/
theorem State.mcAccess_of_holds (hl : s.mcLine k q.pa = some (n, line)) (he : s.rd Reg.mcGeomEn (mcIx k n) = 1)
    (hh : s.mcHolds k n line = true) : s.mcAccess k q = s.setChan k n { s.chan k n with held := (s.chan k n).held ++ [q] } := by
  simp only [State.mcAccess, hl, he, hh, Nat.one_ne_zero, Bool.true_or, if_false, if_true]
  rfl

theorem State.mcMeet_place (s : State) (k n line : Nat) (sweep : Bool) :
    (s.mcMeet k n line sweep).2.k = k ∧ (s.mcMeet k n line sweep).2.n = n := by
  unfold State.mcMeet
  split <;> exact ⟨rfl, rfl⟩

/-- A line of the image, as a read meets it. -/
theorem State.mcMeet_of_image (h : s.imageLine k n line = some ln) : (s.mcMeet k n line sweep).2.ln = some ln ∧
    (s.mcMeet k n line sweep).2.word = dfcWord (s.stored k ln (s.dram ln).1 (s.dram ln).2.2) (s.dram ln).2.1 (s.dram ln).2.2 := by
  simp only [State.mcMeet, h, and_self]

/-- A line that no MAC covers is as poisoned as its code word says. -/
theorem State.mcMac_of_uncovered {l : McLine} (h : ∀ ln, l.ln = some ln → s.macCovers (s.target l.k (ln * 64)) = false) (x : Vec)
    (p : Bool) : s.mcMac l x p = (s, p) := by
  unfold State.mcMac
  split
  · simp only [h _ ‹_›, Bool.and_false, Bool.false_and, Bool.false_eq_true, if_false]
  · rfl

/-- Without an error a line is delivered as it decodes, deciphered. -/
theorem State.mcGood_of_clean {l : McLine} (h : ∀ ln, l.ln = some ln → s.macCovers (s.target l.k (ln * 64)) = false) (copy : Nat)
    (e : List Nat) (y : Vec) (b : Nat) (p : Bool) :
    s.mcGood l copy e (y, b, p, none) = s.mcDeliver l.k l.n (l.got e) (l.plain y) b p := by
  simp only [State.mcGood, State.mcMac_of_uncovered h]

theorem State.mcDeliver_mcOut (s : State) (k n : Nat) (w : List Nat) (x : Vec) (d : Nat) (p : Bool) :
    cellGet none (s.mcDeliver k n w x d p).mcOut (k * 16 + n) = some { word := w, data := x, d := d, p := p } := by
  simp only [State.mcDeliver, cellGet_set_same]

/-- A line that no copy decodes is answered as poisoned (R411). -/
theorem State.mcLost_mcOut (s : State) (l : McLine) (e : List Nat) :
    cellGet none (s.mcLost l e).mcOut (l.k * 16 + l.n) = some { word := l.got e, data := 0, d := 3, p := true } :=
  State.mcDeliver_mcOut _ _ _ _ _ _ _

section
variable {e0 : List Nat} (e1 : List Nat)

theorem State.mcReadLine_of_clean {y : Vec} {b : Nat} {p : Bool} (hln : s.imageLine k n line = some ln)
    (hd : dfcDecode ((s.mcMeet k n line false).2.got e0) ((s.mcMeet k n line false).1.markOf k n line (line % 2)) = some (y, b, p, none))
    (hm : (s.mcMeet k n line false).1.macCovers ((s.mcMeet k n line false).1.target k (ln * 64)) = false) :
    s.mcReadLine k n line false e0 e1 = (s.mcMeet k n line false).1.mcDeliver k n ((s.mcMeet k n line false).2.got e0)
      ((s.mcMeet k n line false).2.plain y) b p := by
  obtain ⟨hk, hn⟩ := s.mcMeet_place k n line false
  obtain ⟨hl, -⟩ := State.mcMeet_of_image (sweep := false) hln
  simp only [State.mcReadLine, hd, Bool.false_and, Bool.false_eq_true, if_false]
  rw [State.mcGood_of_clean, hk, hn]
  intro ln' h'
  obtain rfl : ln' = ln := Option.some.inj (h'.symm.trans hl)
  rwa [hk]

theorem State.mcReadLine_of_lost
    (hd : dfcDecode ((s.mcMeet k n line false).2.got e0) ((s.mcMeet k n line false).1.markOf k n line (line % 2)) = none)
    (hp : (s.mcMeet k n line false).1.paired k = false) : cellGet none (s.mcReadLine k n line false e0 e1).mcOut (k * 16 + n) =
      some { word := (s.mcMeet k n line false).2.got e0, data := 0, d := 3, p := true } := by
  obtain ⟨hk, hn⟩ := s.mcMeet_place k n line false
  have hlost := (s.mcMeet k n line false).1.mcLost_mcOut (s.mcMeet k n line false).2 e0
  rw [hk, hn] at hlost
  simpa only [State.mcReadLine, hd, hp, Bool.false_eq_true, if_false] using hlost

end
end

/-! ### Marks and the Sweep (R410, R413, R416, R417) -/

section
variable {s t : State} {k n r dev : Nat}

theorem exec_markWrite_valid (hn : n < 16) (hr : r < 16) (hd : dev < 10) :
    exec (.markWrite k n r true dev) s = .next ((((s.wr Reg.mcMarkValid { sock := k, inst := n, i := r } 1).wr Reg.mcMarkDev
      { sock := k, inst := n, i := r } dev).wr Reg.mcMarkAuto { sock := k, inst := n, i := r } 0).mcAsh k n 2 0x06 0 false) := by
  have hdev : ¬10 ≤ dev % 16 := by omega
  change execMarkWrite k n r true dev s = _
  simp [execMarkWrite, State.markWrite, State.wrs, hn, hr, hdev]

theorem exec_markWrite_clear (hn : n < 16) (hr : r < 16) :
    exec (.markWrite k n r false dev) s = .next (((s.wr Reg.mcMarkValid { sock := k, inst := n, i := r } 0).wr Reg.mcMarkDev
      { sock := k, inst := n, i := r } dev).wr Reg.mcMarkAuto { sock := k, inst := n, i := r } 0) := by
  change execMarkWrite k n r false dev s = _
  simp [execMarkWrite, State.markWrite, State.wrs, hn, hr]

/-- A mark of a device above 9 is ignored. -/
theorem exec_markWrite_of_noDev (hd : 10 ≤ dev) (hd' : dev < 16) : exec (.markWrite k n r true dev) s = .next s := by
  change execMarkWrite k n r true dev s = _
  simp [execMarkWrite, State.markWrite, Nat.mod_eq_of_lt hd', hd]

section
variable {e0 e1 : List Nat} (he : s.rd Reg.mcGeomEn (mcIx k n) = 1) (hs : s.rd Reg.mcSweepEn (mcIx k n) = 1)
  (hh : s.mcHolds k n (s.rd Reg.mcSweepPos (mcIx k n)) = false) (hl : s.chanLines k n ≠ 0)
  (ht : s.mcReadLine k n (s.rd Reg.mcSweepPos (mcIx k n)) true e0 e1 = t)
include he hs hh hl ht

/-- The Sweep reads the line it is at, and goes on to the next or, at the end of its pass, to the first. -/
theorem exec_sweepLine : exec (.sweepLine k n e0 e1) s = .next (if s.rd Reg.mcSweepPos (mcIx k n) + 1 < t.chanLines k n then
    t.wr Reg.mcSweepPos (mcIx k n) (s.rd Reg.mcSweepPos (mcIx k n) + 1)
  else ((t.wr Reg.mcSweepPos (mcIx k n) 0).bump Reg.mcSweepLaps (mcIx k n)).updChan k n (fun c => { c with fixes := [] })) := by
  change execSweepLine k n e0 e1 s = _
  simp [execSweepLine, he, hs, hh, hl, ht]

end

section
variable (h : ∀ (f : Fld) (a : Ix), f.id < 1024 → f.id ≠ Reg.mcSweepInit.id → t.rd f a = s.rd f a)
include h

theorem State.stripeAt_congr (k pa : Nat) : ∀ r, t.stripeAt k pa r = s.stripeAt k pa r
  | 0 => rfl
  | r + 1 => by
    simp only [State.stripeAt, State.stripeAt_congr k pa r, h Reg.hrthStripeN _ (by decide) (by decide),
      h Reg.hrthStripeBase _ (by decide) (by decide), h Reg.hrthStripeSock _ (by decide) (by decide),
      h Reg.hrthStripeShare _ (by decide) (by decide), h Reg.hrthStripeValid _ (by decide) (by decide)]

theorem State.cxlAt_congr (k off : Nat) : ∀ r, t.cxlAt k off r = s.cxlAt k off r
  | 0 => rfl
  | r + 1 => by
    simp only [State.cxlAt, State.cxlAt_congr k off r, h Reg.prcCxlwinBase _ (by decide) (by decide),
      h Reg.prcCxlwinSize _ (by decide) (by decide), h Reg.prcCxlwinValid _ (by decide) (by decide),
      h Reg.mcDecMacon _ (by decide) (by decide)]

theorem State.dramTop_congr (k : Nat) : t.dramTop k = s.dramTop k := by
  have hways : t.ways k = s.ways k := by rw [State.ways, h Reg.mcDecWays _ (by decide) (by decide), State.ways]
  have hpaired : t.paired k = s.paired k := by rw [State.paired, h Reg.mcGeomPaired _ (by decide) (by decide), State.paired]
  simp only [State.dramTop, hways, hpaired, h Reg.mcCapGib _ (by decide) (by decide), h Reg.mcGeomEn _ (by decide) (by decide)]

/-- Whether a line lies behind a CXL port does not depend on the initialisation of a channel. -/
theorem State.inCxl_congr (ln : Nat) : t.inCxl ln = s.inCxl ln := by
  simp only [State.inCxl, State.dramTop_congr h, State.stripeAt_congr h, State.cxlAt_congr h]

end

/-- What the memory holds once the Sweep has initialised a channel: nothing is listed of the channel's lines. -/
def State.initialised (s : State) (k n : Nat) : State :=
  { s with
    mem := s.mem.filter (fun e => !s.inChan k n e.1), poison := s.poison.filter (fun e => !s.inChan k n (e.1 * 64)),
    dirBits := s.dirBits.filter (fun e => !s.inChan k n (e.1 * 64)), homeOld := s.homeOld.filter (fun e => !s.inChan k n (e.1 * 64)),
    enc := s.enc.filter (fun e => !s.inChan k n (e.1 * 64)), macBad := s.macBad.filter (fun e => !s.inChan k n (e.1 * 64)) }

/-- The channel is initialised: its bytes read zero, and its lines of DRAM are not poisoned (R413). -/
theorem exec_sweepInitDone (hi : s.rd Reg.mcSweepInit (mcIx k n) = 1) (hh : (s.chan k n).held = []) :
    ∃ t : State, exec (.sweepInitDone k n) s = .next t ∧ t.rd Reg.mcSweepInit (mcIx k n) = 0 ∧
      (∀ x, memGet t.mem x = if s.inChan k n x then 0 else memGet s.mem x) ∧
      (∀ ln, s.inChan k n (ln * 64) = true → s.inCxl ln = false → t.isPoison ln = false) := by
  have hexec : exec (.sweepInitDone k n) s = .next (((s.initialised k n).wr Reg.mcSweepInit (mcIx k n) 0).mcRelease k n) := by
    change execSweepInitDone k n s = _
    rw [execSweepInitDone, if_neg (by rw [hi]; decide)]
    rfl
  have hheld : (((s.initialised k n).wr Reg.mcSweepInit (mcIx k n) 0).chan k n).held = [] := hh
  refine ⟨_, hexec, ?_⟩
  rw [State.mcRelease_of_empty hheld]
  refine ⟨by rw [State.rd_updChan, State.rd_wr_same, Nat.zero_mod], fun x => cellGet_filter 0 (s.inChan k n) s.mem x, fun ln hin hcxl => ?_⟩
  have hport := State.inCxl_congr (t := (s.initialised k n).wr Reg.mcSweepInit (mcIx k n) 0) (s := s)
    (fun f a hf hne => State.rd_wr_field _ _ _ _ (by decide) hf hne) ln
  rw [State.isPoison_updChan, State.isPoison, hport, hcxl]
  have hclean := cellGet_filter false (fun ln => s.inChan k n (ln * 64)) s.poison ln
  rw [if_pos hin] at hclean
  exact congrArg (· != false) hclean

/-! ### Self-refresh (R423) -/

theorem exec_selfRefreshEnter (hp : s.rd Reg.pwrPkgState { sock := k } = 1 ∨ s.rd Reg.pwrPkgState { sock := k } = 2)
    (hh : (s.chan k n).held = []) :
    exec (.selfRefreshEnter k n) s = .next (s.setChan k n { s.chan k n with selfRef := true }) := by
  change execSelfRefreshEnter k n s = _
  refine congrArg _ (if_pos ?_)
  obtain hp | hp := hp <;> simp [hp, hh]

theorem exec_selfRefreshExit {upd : Nat} (hp : s.rd Reg.pwrPkgState { sock := k } = 0) (hs : (s.chan k n).selfRef = true)
    (hh : (s.chan k n).held = []) :
    ∃ t : State, exec (.selfRefreshExit k n upd) s = .next t ∧ (t.chan k n).selfRef = false ∧ t.mem = s.mem := by
  change ∃ t : State, execSelfRefreshExit k n upd s = .next t ∧ _
  simp only [execSelfRefreshExit, hp, hs, decide_true, Bool.true_or, Bool.and_self, if_true]
  refine ⟨_, rfl, ?_⟩
  rw [State.mcRelease_of_empty (by rw [State.chan_updChan]; exact hh)]
  refine ⟨?_, rfl⟩
  rw [State.chan_updChan, State.chan_updChan]

end

/-! ### Row sparing and repair (R424-R427, Table MEMC-7) -/

section
variable {s : State} {k n line e x : Nat} {r : SpareRow} {t l : List Nat}

theorem exec_spareReq (hn : n < 16) (hl : line < 2 ^ 34) : exec (.spareReq k n line) s = .next (s.candidate k n (s.rowOf k line 0)) := by
  change execSpareReq k n line s = _
  rw [execSpareReq, if_pos hn, Nat.mod_eq_of_lt hl, State.spareReq]

/-- No fifth candidate waits. -/
theorem State.candidate_of_full (h : 4 ≤ (s.chan k n).cand.length) (row : Nat) : s.candidate k n row = s.spareAsh k n 5 0x07 0 := by
  refine if_pos ?_
  simp only [h, decide_true, Bool.or_true]

theorem exec_spareStart (hr : (s.chan k n).row = none) (hc : (s.chan k n).cand = x :: t) (he : s.freeSpare k n = some e) :
    exec (.spareStart k n) s = .next ((s.wr Reg.mcSpareStatBusy (mcIx k n) 1).setChan k n
      { s.chan k n with cand := t, row := some { row := x, entry := e, step := 2, copy := 0, fixed := 0 } }) := by
  change execSpareStart k n s = _
  simp only [execSpareStart, hr, hc, he]

theorem exec_spprDone (hr : (s.chan k n).row = some r) (h4 : r.step = 4) :
    exec (.spprDone k n) s = .next (s.setChan k n { s.chan k n with row := some { r with step := 5 } }) := by
  change execSpprDone k n s = _
  simp only [execSpprDone, hr, h4, if_true]
  rfl

theorem exec_sparing_of_none (hr : (s.chan k n).row = none) : exec (.spareCopyDone k n [] true) s = .next s ∧
    exec (.spprDone k n) s = .next s ∧ exec (.spareCopybackDone k n []) s = .next s := by
  change execSpareCopyDone k n [] true s = _ ∧ execSpprDone k n s = _ ∧ execSpareCopybackDone k n [] s = _
  simp only [execSpareCopyDone, execSpprDone, execSpareCopybackDone, hr, and_self]

theorem State.reported_spareAsh (s : State) (k n cls code entry : Nat) : s.Reported (s.spareAsh k n cls code entry) := s.reported_ash k _

theorem State.rd_spareCount (s : State) (k n : Nat) {f : Fld} (a : Ix) (hf : f.id < 1024) (hu : f.id ≠ Reg.mcSpareStatUsed.id)
    (hfull : f.id ≠ Reg.mcSpareStatFull.id) : (s.spareCount k n).rd f a = s.rd f a :=
  (State.rd_wr_field _ _ _ _ (by decide) hf hfull).trans (State.rd_wr_field _ _ _ _ (by decide) hf hu)

/-- The table ended for a channel that is not paired and holds nothing: the controller is free, and only SPARE.STAT.BUSY changes. -/
theorem State.spareEnd_released (hp : s.paired k = false) (hh : (s.chan k n).held = []) :
    (((s.spareEnd k n r).mcRelease k n).chan k n).row = none ∧
    ((s.spareEnd k n r).mcRelease k n).rd Reg.mcSpareStatBusy (mcIx k n) = 0 ∧
    ∀ (f : Fld) (a : Ix), f.id < 1024 → f.id ≠ Reg.mcSpareStatBusy.id → ((s.spareEnd k n r).mcRelease k n).rd f a = s.rd f a := by
  have hend : s.spareEnd k n r = (s.wr Reg.mcSpareStatBusy (mcIx k n) 0).updChan k n (fun c => { c with row := none }) := by
    simp only [State.spareEnd, hp, Bool.false_and, Bool.false_eq_true, if_false]
  rw [hend, State.mcRelease_of_empty (by rw [State.chan_updChan]; exact hh)]
  simp only [State.chan_updChan, State.rd_updChan]
  exact ⟨trivial, (State.rd_wr_same _ _ _ _).trans (Nat.zero_mod _), fun f a hf hne => State.rd_wr_field _ _ _ _ (by decide) hf hne⟩

/-- Steps 2 and 3: what the copy of a row leaves in the registers, with no error in the row. -/
def State.spareCopied (s : State) (k n : Nat) (r : SpareRow) : State :=
  let p := s.rowPlace k n r.row
  let s := s.wrs { sock := k, inst := n, i := r.entry } [(Reg.mcSpareValid, 1), (Reg.mcSpareSc, r.row % 2), (Reg.mcSpareRank, p.1),
    (Reg.mcSpareBank, p.2.1 * 4 + p.2.2.1), (Reg.mcSpareRow, p.2.2.2)]
  ((if r.copy = 0 then s.bump Reg.mcSpareStatDone (mcIx k n) else s).spareCount k n).spareAsh k n 2 0x06 r.entry

theorem State.spareCopied_chan (s : State) (k n : Nat) (r : SpareRow) : (s.spareCopied k n r).chan k n = s.chan k n := by
  refine State.chan_of_chans ((State.reported_spareAsh _ _ _ _ _ _).chans.trans ?_)
  simp only [State.spareCount, State.wrs, State.wr_chans, apply_ite State.chans, State.bump_chans, ite_self]

theorem State.spareCopied_paired (s : State) (k n : Nat) (r : SpareRow) : (s.spareCopied k n r).paired k = s.paired k := by
  unfold State.spareCopied State.paired
  dsimp only
  rw [(State.reported_spareAsh _ _ _ _ _ _).rd _ _ (by decide) (by decide), State.rd_spareCount _ _ _ _ (by decide) (by decide) (by decide)]
  split <;> simp (disch := decide) only [State.wrs, State.rd_bump_field, State.rd_wr_field]

theorem State.spareCopied_valid (s : State) (k n : Nat) (r : SpareRow) :
    (s.spareCopied k n r).rd Reg.mcSpareValid { sock := k, inst := n, i := r.entry } = 1 := by
  unfold State.spareCopied
  dsimp only
  rw [(State.reported_spareAsh _ _ _ _ _ _).rd _ _ (by decide) (by decide), State.rd_spareCount _ _ _ _ (by decide) (by decide) (by decide)]
  split <;> simp (disch := decide) only [State.wrs, State.rd_bump_field, State.rd_wr_field, State.rd_wr_same] <;> rfl

/-- The copy done, with no repair asked for: the entry is valid and the controller is free. -/
theorem exec_spareCopyDone (hr : (s.chan k n).row = some r) (h2 : r.step = 2) (hh : (s.chan k n).held = []) (hp : s.paired k = false) :
    ∃ u : State, exec (.spareCopyDone k n [] false) s = .next u ∧ (u.chan k n).row = none ∧
      u.rd Reg.mcSpareValid { sock := k, inst := n, i := r.entry } = 1 ∧ u.rd Reg.mcSpareStatBusy (mcIx k n) = 0 := by
  have hexec : exec (.spareCopyDone k n [] false) s = .next (((s.spareCopied k n r).spareEnd k n r).mcRelease k n) := by
    change execSpareCopyDone k n [] false s = _
    simp only [execSpareCopyDone, hr, h2, ne_eq, not_true_eq_false, Bool.and_false, Bool.false_eq_true, if_false]
    rfl
  obtain ⟨hrow, hbusy, hrd⟩ := State.spareEnd_released (s := s.spareCopied k n r) (r := r) ((s.spareCopied_paired k n r).trans hp)
    ((congrArg Chan.held (s.spareCopied_chan k n r)).trans hh)
  exact ⟨_, hexec, hrow, (hrd _ _ (by decide) (by decide)).trans (s.spareCopied_valid k n r), hbusy⟩

/-- Steps 5 and 6: every copy repaired, the entry is freed. -/
def State.spareFreed (s : State) (k n : Nat) (r : SpareRow) : State :=
  ((s.bump Reg.mcSpareStatPprdone (mcIx k n)).wrs { sock := k, inst := n, i := r.entry } [(Reg.mcSpareValid, 0), (Reg.mcSparePoisoned, 0),
    (Reg.mcSpareSc, 0), (Reg.mcSpareRank, 0), (Reg.mcSpareBank, 0), (Reg.mcSpareRow, 0)]).spareCount k n

/-- The row of a repair listed for hPPR where PPR.MODE asks for it. -/
def State.hpprListed (s : State) (k n row : Nat) : State :=
  if 2 ≤ s.rd Reg.mcPprMode (mcIx k n) then
    s.updChan k n (fun c => { c with hppr := if c.hppr.contains row then c.hppr else c.hppr ++ [row] })
  else s

theorem State.hpprListed_held (s : State) (k n row : Nat) : ((s.hpprListed k n row).chan k n).held = (s.chan k n).held := by
  unfold State.hpprListed
  split
  · rw [State.chan_updChan]
  · rfl

theorem State.hpprListed_rd (s : State) (k n row : Nat) (f : Fld) (a : Ix) : (s.hpprListed k n row).rd f a = s.rd f a := by
  unfold State.hpprListed
  split <;> rfl

theorem State.spareFreed_chan (s : State) (k n : Nat) (r : SpareRow) : (s.spareFreed k n r).chan k n = s.chan k n :=
  State.chan_of_chans (by simp only [State.spareFreed, State.spareCount, State.wrs, State.wr_chans, State.bump_chans])

theorem State.spareFreed_paired (s : State) (k n : Nat) (r : SpareRow) : (s.spareFreed k n r).paired k = s.paired k := by
  unfold State.spareFreed State.paired
  rw [State.rd_spareCount _ _ _ _ (by decide) (by decide) (by decide)]
  simp (disch := decide) only [State.wrs, State.rd_bump_field, State.rd_wr_field]

theorem State.spareFreed_valid (s : State) (k n : Nat) (r : SpareRow) :
    (s.spareFreed k n r).rd Reg.mcSpareValid { sock := k, inst := n, i := r.entry } = 0 := by
  unfold State.spareFreed
  rw [State.rd_spareCount _ _ _ _ (by decide) (by decide) (by decide)]
  simp (disch := decide) only [State.wrs, State.rd_wr_field, State.rd_wr_same]
  rfl

/-- The copy back done: the entry is free again, and so is the controller. -/
theorem exec_spareCopybackDone (hr : (s.chan k n).row = some r) (h5 : r.step = 5) (hf : r.fixed = 0) (hh : (s.chan k n).held = [])
    (hp : s.paired k = false) :
    ∃ u : State, exec (.spareCopybackDone k n []) s = .next u ∧ (u.chan k n).row = none ∧
      u.rd Reg.mcSpareValid { sock := k, inst := n, i := r.entry } = 0 := by
  have hcount : (s.bump Reg.mcSpareStatPprdone (mcIx k n)).paired k = false := by
    rw [State.paired, State.rd_bump_field _ _ _ (by decide) (by decide) (by decide)]
    exact hp
  have hexec : exec (.spareCopybackDone k n []) s =
      .next ((((s.spareFreed k n r).hpprListed k n r.row).spareEnd k n { r with fixed := 1 }).mcRelease k n) := by
    change execSpareCopybackDone k n [] s = _
    simp only [execSpareCopybackDone, hr, h5, hf, State.copyRow, List.foldl_nil, hcount, ne_eq, not_true_eq_false,
      Bool.false_eq_true, if_false, Nat.zero_add, if_true]
    rfl
  have hpaired : ((s.spareFreed k n r).hpprListed k n r.row).paired k = false := by
    rw [State.paired, State.hpprListed_rd]
    exact (s.spareFreed_paired k n r).trans hp
  obtain ⟨hrow, -, hrd⟩ := State.spareEnd_released (n := n) (r := { r with fixed := 1 }) hpaired
    (by rw [State.hpprListed_held, State.spareFreed_chan, hh])
  exact ⟨_, hexec, hrow, ((hrd _ _ (by decide) (by decide)).trans (State.hpprListed_rd _ _ _ _ _ _)).trans (s.spareFreed_valid k n r)⟩

end

/-- Settles O43. The accesses go by `State.mcAccess_of_free` and `State.mcReadLine_of_clean`, and row sparing by
`State.spareEnd_released`. -/
theorem memory_channel_results : Obligations.memory_channel_results := by
  refine ⟨?accesses, ?upkeep, ?sparing⟩
  case accesses =>
    intro k n pa line x y d p e0 e1 s hl he free
    have hread : free → exec (.mcRead k pa e0 e1) s = .next (s.mcReadLine k n line false e0 e1) := fun hfree =>
      congrArg _ (State.mcAccess_of_free (q := ⟨false, pa, 0, 0, false, e0, e1⟩) hl he hfree.1 hfree.2)
    refine ⟨hread, fun hfree => congrArg _ (State.mcAccess_of_free (q := ⟨true, pa, x, d.toNat, p, [], []⟩) hl he hfree.1 hfree.2),
      fun hh => congrArg _ (State.mcAccess_of_holds (q := ⟨false, pa, 0, 0, false, e0, e1⟩) hl he hh), fun ln b q hfree hln => ?_⟩
    exact ⟨(State.mcMeet_of_image hln).2, fun hd hm => (hread hfree).trans (congrArg _ (State.mcReadLine_of_clean e1 hln hd hm)),
      fun hd hp => ⟨_, hread hfree, State.mcReadLine_of_lost e1 hd hp⟩⟩
  case upkeep =>
    intro k n r dev post rank upd e0 e1 drift s a mk
    refine ⟨fun hn hr hd => ⟨exec_markWrite_valid hn hr hd, exec_markWrite_clear hn hr⟩, exec_markWrite_of_noDev, fun he hs hh => ?sweep,
      exec_sweepInitDone, rfl, rfl, rfl, exec_selfRefreshEnter, exec_selfRefreshExit⟩
    case sweep =>
      exact ⟨fun ht hl => (exec_sweepLine he hs hh (Nat.ne_zero_of_lt hl) rfl).trans (congrArg _ (if_pos ht)),
        fun hl ht => (exec_sweepLine he hs hh hl.ne' rfl).trans (congrArg _ (if_neg ht.not_gt))⟩
  case sparing =>
    intro k n line e r t l s hn hl c
    exact ⟨exec_spareReq hn hl, fun hc => (exec_spareReq hn hl).trans (congrArg _ (State.candidate_of_full hc _)), fun x => exec_spareStart,
      fun hr h2 hh hp _ => exec_spareCopyDone hr h2 hh hp, exec_spprDone, fun hr h5 hf _ hh hp => exec_spareCopybackDone hr h5 hf hh hp,
      exec_sparing_of_none, rfl⟩

end Sys2Proof.Machine

/-! ## What an access to memory cannot change in a core (R118, R196, R240)

The lines that a translation takes, the room made for them and the bits it sets change a core's caches and can abort its region.  A
property that these leave true of a core holds after any access that is granted.  `State.Kept` is about a core outside a region, which has
none to abort; this is about every core. -/

namespace Sys2Proof.Machine

/-- A property of a core that its caches' lines, an abort of its region by a snoop, and cached translations leave true. -/
structure Core.Lasting (P : Core → Prop) : Prop where
  setL2 : ∀ {k : Core} (ln : Nat) (x : Option L2St), P k → P (k.setL2 ln x)
  abort : ∀ {k : Core}, P k → P (k.abortRegion 1 0)
  tlbPut : ∀ {k : Core} (acc : Acc) (e : TlbE), P k → P (k.tlbPut acc e)
  walkCache : ∀ {k : Core} (wc : List WcE), P k → P { k with wc := wc }

/-- Core `c` of `s` has the property. -/
def State.Has (P : Core → Prop) (c : Nat) (s : State) : Prop := P (s.core c)

/-- A walk or access that is done leaves core `c` with the property. -/
def XR.Has {α : Type} (P : Core → Prop) (c : Nat) (r : XR α) : Prop := ∀ a t, r = .ok a t → t.Has P c

section
variable {P : Core → Prop} {k : Core}

theorem Core.Lasting.snoopDrop (hP : Core.Lasting P) (ln : Nat) (h : P k) : P (k.snoopDrop ln) := by
  unfold Core.snoopDrop
  refine hP.setL2 ln none ?_
  split
  · exact hP.abort h
  · exact h

theorem Core.Lasting.snoopDown (hP : Core.Lasting P) (ln : Nat) (h : P k) : P (k.snoopDown ln) := by
  have hdown : P ((if k.member ln then k.abortRegion 1 0 else k).setL2 ln (some .S)) := by
    refine hP.setL2 ln _ ?_
    split
    · exact hP.abort h
    · exact h
  unfold Core.snoopDown
  split
  · exact hdown
  · exact hdown
  · exact h

end

/-! ### Changes of the cores -/

section
variable {P : Core → Prop} {c : Nat} {s t : State}

theorem State.Has.of_cores (h : s.Has P c) (ht : t.cores = s.cores) : t.Has P c := by
  unfold State.Has State.core at h ⊢
  rwa [ht]

theorem State.Has.ite {p : Prop} [Decidable p] (h : s.Has P c) (h' : t.Has P c) : (if p then s else t).Has P c := by
  split
  · exact h
  · exact h'

theorem State.Has.updCore (h : s.Has P c) (d : Nat) {f : Core → Core} (hf : ∀ k, P k → P (f k)) : (s.updCore d f).Has P c := by
  unfold State.Has
  by_cases hd : c = d
  · subst hd
    rw [State.core_updCore_same]
    exact hf _ h
  · rw [State.core_updCore_other _ _ hd]
    exact h

theorem State.Has.mapCores (h : s.Has P c) {f : Nat × Core → Nat × Core} (ht : t.cores = s.cores.map f) (hkey : ∀ e, (f e).1 = e.1)
    (hf : ∀ e, P e.2 → P (f e).2) : t.Has P c := by
  unfold State.Has State.core cellGet at h ⊢
  rw [ht, cellFind_map _ _ hkey]
  cases hc : cellFind s.cores c with
  | none => simpa [hc] using h
  | some k =>
    rw [hc] at h
    exact hf (c, k) h

/-- The cores that `p` names changed. -/
theorem State.Has.mapSome (h : s.Has P c) {p : Nat → Prop} [DecidablePred p] {f : Core → Core} (hf : ∀ k, P k → P (f k))
    (ht : t.cores = s.cores.map (fun e => if p e.1 then (e.1, f e.2) else e)) : t.Has P c := by
  refine h.mapCores ht (fun e => ?_) (fun e he => ?_)
  · split <;> rfl
  · split
    · exact hf _ he
    · exact he

theorem State.Has.others (h : s.Has P c) (d : Nat) {f : Core → Core} (hf : ∀ k, P k → P (f k)) : (s.others d f).Has P c :=
  h.mapSome (p := (· ≠ d)) hf (by simp only [State.others, ne_eq, ite_not])

/-- A line that core `d` gives up leaves its L2, whatever becomes of it then. -/
theorem State.evict_cores (s : State) (d ln : Nat) :
    (s.evict d ln).cores = s.cores ∨ (s.evict d ln).cores = (s.updCore d (fun k => k.setL2 ln none)).cores := by
  unfold State.evict
  split
  · exact .inl rfl
  · have hcores : ∀ z, ((s.gatePass d z).updCore d (fun k => k.setL2 ln none)).cores = (s.updCore d (fun k => k.setL2 ln none)).cores := by
      intro z
      simp [State.updCore, State.setCore, State.core]
    refine .inr ?_
    dsimp only
    repeat' split
    all_goals simp [hcores]

end

/-! ### A line taken (R25, R189, R297, R300, R305) -/

section
variable {P : Core → Prop} {c : Nat} {s : State}

theorem State.Has.evict (h : s.Has P c) (hP : Core.Lasting P) (d ln : Nat) : (s.evict d ln).Has P c := by
  obtain he | he := s.evict_cores d ln
  · exact h.of_cores he
  · exact (h.updCore d (fun _ hk => hP.setL2 ln none hk)).of_cores he

theorem State.Has.recallFrom (h : s.Has P c) (hP : Core.Lasting P) (d ln : Nat) : (s.recallFrom d ln).Has P c := by
  unfold State.recallFrom
  refine State.Has.evict (h.updCore d (fun k hk => ?_)) hP d ln
  split
  · exact hP.abort hk
  · exact hk

theorem State.Has.foldl_recallFrom (hP : Core.Lasting P) (l : List Nat) (ln : Nat) :
    ∀ {s : State}, s.Has P c → (l.foldl (fun s d => s.recallFrom d ln) s).Has P c := by
  induction l with
  | nil => exact id
  | cons d t ih => exact fun h => ih (h.recallFrom hP d ln)

theorem State.Has.roomSf (h : s.Has P c) (hP : Core.Lasting P) (q ln : Nat) : (s.roomSf q ln).Has P c := by
  unfold State.roomSf
  refine .ite h ?_
  split
  · exact (State.Has.foldl_recallFrom hP _ _ h).of_cores rfl
  · exact h

theorem State.Has.room (h : s.Has P c) (hP : Core.Lasting P) (d ln : Nat) : (s.room d ln).Has P c := by
  have hL2 : (s.roomL2 d ln).Has P c := by
    unfold State.roomL2
    exact .ite h ((h.of_cores s.useFree_cores).evict hP d _)
  unfold State.room
  exact .ite h (hL2.roomSf hP _ ln)

theorem State.Has.recallAll (h : s.Has P c) (hP : Core.Lasting P) (ln hm : Nat) : (s.recallAll ln hm).Has P c :=
  h.mapCores (f := fun e => (e.1, Core.snoopDrop ln e.2)) (by simp [State.recallAll]) (fun _ => rfl) (fun _ he => hP.snoopDrop ln he)

theorem State.Has.rscEvict (h : s.Has P c) (hP : Core.Lasting P) (hm tile x : Nat) : (s.rscEvict hm tile x).Has P c := by
  unfold State.rscEvict
  refine .ite (h.of_cores rfl) ?_
  split
  · exact h
  · exact (h.recallAll hP _ hm).of_cores rfl
  · exact h.of_cores rfl

theorem State.Has.roomRscSet (hP : Core.Lasting P) (hm tile n : Nat) :
    ∀ (i : Nat) {s : State}, s.Has P c → (State.roomRscSet hm tile n i s).Has P c := by
  induction n with
  | zero => exact fun _ _ h => h
  | succ n ih =>
    intro i s h
    unfold State.roomRscSet
    refine .ite h ?_
    dsimp only
    split
    · exact h.rscEvict hP hm tile _
    · split
      · exact State.Has.rscEvict (.ite (ih _ h) h) hP hm tile _
      · split
        · exact h.rscEvict hP hm tile _
        · exact h

theorem State.Has.roomRsc (h : s.Has P c) (hP : Core.Lasting P) (hm ln : Nat) : (s.roomRsc hm ln).Has P c := by
  unfold State.roomRsc
  split
  · exact h
  · exact State.Has.roomRscSet hP _ _ _ _ h

theorem State.Has.shareIn (h : s.Has P c) (hP : Core.Lasting P) (q hm ln : Nat) : (s.shareIn q hm ln).Has P c := by
  have hmap : State.Has P c { s with cores := s.cores.map (fun e => if coreSock e.1 = q then (e.1, Core.snoopDown ln e.2) else e) } :=
    h.mapSome (p := (coreSock · = q)) (fun _ hk => hP.snoopDown ln hk) rfl
  unfold State.shareIn
  exact .ite hmap (.ite (hmap.of_cores rfl) (hmap.of_cores rfl))

/-- What a caching slice gives: the line in the reader's L2 (Table HRTH-4). -/
theorem State.Has.sliceGive (h : s.Has P c) (hP : Core.Lasting P) (d ln q : Nat) (e inL : Bool) (x : L2St) :
    (((if inL then s.slicePut q ln else s).sfAdd d ln e).updCore d (fun k => k.setL2 ln (some x))).Has P c := by
  refine State.Has.updCore (h.of_cores ?_) d (fun _ hk => hP.setL2 ln _ hk)
  cases inL <;> simp

theorem State.Has.sliceRead (h : s.Has P c) (hP : Core.Lasting P) {d ln hm : Nat} {mayE : Bool} {t : State}
    (ht : s.sliceRead d ln hm mayE = some t) : t.Has P c := by
  unfold State.sliceRead at ht
  dsimp only at ht
  split at ht
  · cases ht
  · split at ht
    · split at ht
      · cases ht
        exact h.sliceGive hP d ln _ _ _ _
      · cases ht
    · split at ht
      · cases ht
      · split at ht
        · cases ht
        · cases ht
          exact (h.shareIn hP _ hm ln).sliceGive hP d ln _ _ _ _

theorem State.Has.acqShared (h : s.Has P c) (hP : Core.Lasting P) (d ln hm : Nat) (mayE : Bool) : (s.acqShared d ln hm mayE).Has P c := by
  unfold State.acqShared
  split
  · exact h
  · have hroom : ((s.room d ln).gatePass d hm).Has P c := (h.room hP d ln).of_cores (by simp)
    dsimp only
    split
    · rename_i t ht
      exact hroom.sliceRead hP ht
    · refine State.Has.updCore ?_ d (fun _ hk => hP.setL2 ln _ hk)
      have hhome : ((if coreSock d = hm then (s.room d ln).gatePass d hm
          else ((s.room d ln).gatePass d hm).roomRsc hm ln).settle hm ln).Has P c :=
        State.Has.of_cores (.ite hroom (hroom.roomRsc hP hm ln)) (State.settle_cores _ _ _)
      revert hhome
      generalize (if coreSock d = hm then (s.room d ln).gatePass d hm else ((s.room d ln).gatePass d hm).roomRsc hm ln).settle hm ln = x
      intro hhome
      have hbuf : (x.unbuffer hm ln).Has P c := hhome.of_cores (State.unbuffer_cores _ _ _)
      cases x.ownerSock d ln with
      | some o =>
        refine (hbuf.others d (fun _ hk => hP.snoopDown ln hk)).of_cores ?_
        simp only [↓State.sfAdd_cores, ↓apply_ite State.cores, ↓State.slicePut_cores, ↓State.rscOwn_cores, ↓State.rscAdd_cores,
          ↓State.setBits_cores, ↓State.sfShare_cores, ↓State.wroteHome_cores, ite_self]
      | none =>
        refine hbuf.of_cores ?_
        simp only [↓State.sfAdd_cores, ↓apply_ite State.cores, ↓State.slicePut_cores, ↓State.rscOwn_cores, ↓State.rscAdd_cores,
          ↓State.setBits_cores, ite_self]

end

/-! ### A translation (R125, R227-R243) -/

section
variable {α β : Type} {P : Core → Prop} {c : Nat} {s : State}

theorem XR.Has.ok (a : α) (h : s.Has P c) : (XR.ok a s).Has P c := by
  intro b t ht
  cases ht
  exact h

theorem XR.Has.bad (e : XErr) (s : State) : (XR.bad (α := α) e s).Has P c := by
  intro b t ht
  cases ht

theorem XR.Has.wait : (XR.wait (α := α)).Has P c := by
  intro b t ht
  cases ht

theorem XR.Has.bind {r : XR α} {f : α → State → XR β} (hr : r.Has P c) (hf : ∀ a t, t.Has P c → (f a t).Has P c) :
    (r.bind f).Has P c := by
  cases r with
  | ok a t => exact hf a t (hr a t rfl)
  | bad e t => exact .bad e t
  | wait => exact .wait

theorem XR.Has.ite {r r' : XR α} {p : Prop} [Decidable p] (h : r.Has P c) (h' : r'.Has P c) : (if p then r else r').Has P c := by
  split
  · exact h
  · exact h'

theorem State.Has.readEntry (h : s.Has P c) (hP : Core.Lasting P) (x : XCtx) (acc : Acc) (addr lvl : Nat) (st2 : Bool) (pa : Nat) :
    (readEntry x acc addr lvl st2 pa s).Has P c := by
  have ht : (s.touch x.sock (lineOf pa)).Has P c := h.of_cores (s.touch_cores _ _)
  have hfill : ∀ {u : State} (ln hm : Nat), u.Has P c → (x.fill u ln hm).Has P c := fun ln hm hu => .ite (hu.acqShared hP _ ln hm true) hu
  unfold Sys2Proof.Machine.readEntry
  dsimp only
  split
  · exact .bad _ _
  · split
    case h_4 | h_5 => exact .ite .wait (.ite (.bad _ _) (.ok _ (hfill _ _ ht)))
    all_goals exact .bad _ _

theorem State.Has.setAD (h : s.Has P c) (hP : Core.Lasting P) (x : XCtx) (ea raw : Nat) (d : Bool) : (setAD x ea raw d s).Has P c := by
  unfold Sys2Proof.Machine.setAD
  exact .ite .wait (.ite (.ok _ h) (.ok _ ((h.recallAll hP _ _).of_cores rfl)))

theorem State.Has.walk2 (hP : Core.Lasting P) (x : XCtx) (acc : Acc) (ipa lvl : Nat) :
    ∀ (t : Nat) (p : Path) {s : State}, s.Has P c → (walk2 x acc ipa lvl t p s).Has P c := by
  induction lvl with
  | zero => exact fun _ _ _ _ => .bad _ _
  | succ lvl ih =>
    intro t p s h
    unfold Sys2Proof.Machine.walk2
    dsimp only
    split
    · exact .wait
    · exact .bad _ _
    · rename_i hr
      have hread := h.readEntry hP _ _ _ _ _ _ _ _ hr
      exact .ite (.bad _ _) (.ite (.ok _ hread) (ih _ _ hread))

theorem State.Has.stage2 (h : s.Has P c) (hP : Core.Lasting P) (x : XCtx) (wc : List WcE) (acc : Acc) (okR : Nat → Bool) (ipa : Nat)
    (p : Path) : (stage2 x wc acc okR ipa p s).Has P c :=
  XR.Has.bind (State.Has.walk2 hP x acc ipa _ _ p h) (fun _ _ ht => .ite (.ok _ ht) (.bad _ _))

theorem State.Has.tablePa (h : s.Has P c) (hP : Core.Lasting P) (x : XCtx) (wc : List WcE) (acc : Acc) (t : Nat) (p : Path) :
    (tablePa x wc acc t p s).Has P c := by
  unfold Sys2Proof.Machine.tablePa
  refine .ite ?_ (.ok _ h)
  split
  · exact .ok _ h
  · exact (h.stage2 hP x wc acc _ t p).bind (fun _ _ ht => .ite ((ht.setAD hP x _ _ _).bind (fun _ _ hu => .ok _ hu)) (.ok _ ht))

theorem State.Has.walk1 (hP : Core.Lasting P) (x : XCtx) (wc : List WcE) (acc : Acc) (va lvl : Nat) :
    ∀ (t : Nat) (p : Path) {s : State}, s.Has P c → (walk1 x wc acc va lvl t p s).Has P c := by
  induction lvl with
  | zero => exact fun _ _ _ _ => .bad _ _
  | succ lvl ih =>
    intro t p s h
    unfold Sys2Proof.Machine.walk1
    dsimp only
    split
    · exact .wait
    · exact .bad _ _
    · rename_i htable
      have h1 := h.tablePa hP _ _ _ _ _ _ _ htable
      refine .ite (.bad _ _) ?_
      split
      · exact .wait
      · exact .bad _ _
      · rename_i hentry
        have h2 := h1.readEntry hP _ _ _ _ _ _ _ _ hentry
        exact .ite (.bad _ _) (.ite (.ok _ h2) (ih _ _ h2))

theorem State.Has.owed1 (h : s.Has P c) (hP : Core.Lasting P) (x : XCtx) (wc : List WcE) (acc : Acc) (l : Leaf) :
    (owed1 x wc acc l s).Has P c := by
  unfold Sys2Proof.Machine.owed1
  exact .ite (.ok _ h) (.ite ((h.stage2 hP x wc acc _ _ _).bind (fun _ _ ht => .ok _ ht)) (.ok _ h))

theorem State.Has.translate (h : s.Has P c) (hP : Core.Lasting P) (x : XCtx) (tlb : List TlbE) (wc : List WcE) (acc : Acc) (va : Word) :
    (translate x tlb wc acc va s).Has P c := by
  unfold Sys2Proof.Machine.translate
  dsimp only
  refine .ite (.ite (.bad _ _) ?_) (.ite (.bad _ _) (.ite ?_ (.ok _ h)))
  · split
    · exact .ok _ h
    · refine (State.Has.walk1 hP _ wc acc _ _ _ _ h).bind (fun _ _ h1 => (h1.owed1 hP _ wc acc _).bind (fun _ _ h2 => .ite ?_ (.ok _ h2)))
      exact (h2.stage2 hP _ wc acc _ _ _).bind (fun _ _ h3 => .ok _ h3)
  · exact (h.stage2 hP _ wc acc _ _ _).bind (fun _ _ h1 => .ok _ h1)

theorem State.Has.payAD (hP : Core.Lasting P) (x : XCtx) (owed : List (Nat × Nat × Bool)) :
    ∀ {s : State}, s.Has P c → (payAD x owed s).Has P c := by
  induction owed with
  | nil => exact fun h => .ok _ h
  | cons o t ih => exact fun h => (h.setAD hP x _ _ _).bind (fun _ _ ht => ih ht)

theorem State.Has.install (h : s.Has P c) (hP : Core.Lasting P) (d : Nat) (acc : Acc) (t : Tr) : (s.install d acc t).Has P c := by
  unfold State.install
  refine .ite h (h.updCore d (fun _ hk => hP.walkCache _ ?_))
  cases t.tlb with
  | none => exact hk
  | some e => exact hP.tlbPut acc e hk

/-- An access granted leaves every core its lasting properties. -/
theorem State.Has.xlateC (h : s.Has P c) (hP : Core.Lasting P) (d : Nat) (acc : Acc) (va : Word) : (s.xlateC d acc va).Has P c := by
  have hx : ∀ x tlb wc, (xlate x tlb wc acc va s).Has P c := by
    refine fun x tlb wc => (h.translate hP x tlb wc acc va).bind (fun t u hu => ?_)
    split
    · exact .bad _ _
    · exact (State.Has.payAD hP x t.owed hu).bind (fun _ _ hv => .ok _ hv)
  exact (hx _ _ _).bind (fun t _ hu => .ok _ (hu.install hP d acc t))

end

end Sys2Proof.Machine

/-! ## The entry of an event (R162, R163, R164, R176) -/

namespace Sys2Proof.Machine

/-! ### What the translation of the frame's address leaves (R165) -/

/-- `k'` has the world and the system registers of `k`, but for the two that an abort of its region restores (R114). -/
structure Core.EntersAs (k k' : Core) : Prop where
  world : k'.world = k.world
  sr : ∀ n, n ≠ SR.FPSTAT → n ≠ SR.XPC → k'.srOwn n = k.srOwn n

theorem Core.entersAs_refl (k : Core) : k.EntersAs k := ⟨rfl, fun _ _ _ => rfl⟩

theorem Core.EntersAs.trans {k k' k'' : Core} (h : k.EntersAs k') (h' : k'.EntersAs k'') : k.EntersAs k'' :=
  ⟨h'.world.trans h.world, fun n hf hx => (h'.sr n hf hx).trans (h.sr n hf hx)⟩

theorem Core.srOwn_setSrOwn (k : Core) (n r : Nat) (x : Word) : (k.setSrOwn n x).srOwn r = if r = n then x else k.srOwn r := by
  split
  · next hr => exact hr ▸ k.srOwn_setSrOwn_same r x
  · next hr => exact k.srOwn_setSrOwn_other x hr

theorem Core.abortRegion_entersAs (k : Core) (cause code : Nat) : k.EntersAs (k.abortRegion cause code) := by
  unfold Core.abortRegion
  split
  · exact k.entersAs_refl
  · refine ⟨by simp [Core.setSrOwn], fun n hf hx => ?_⟩
    rw [Core.srOwn_count, Core.srOwn_count, Core.srOwn_setG]
    exact (Core.srOwn_setSrOwn_other _ _ hx).trans (Core.srOwn_setSrOwn_other _ _ hf)

theorem Core.abortRegion_storeQ (k : Core) (cause code : Nat) : (k.abortRegion cause code).storeQ = k.storeQ := by
  cases hr : k.region with
  | none => simp only [Core.abortRegion, hr]
  | some r => exact (Core.abortRegion_rolledBack hr cause code).storeQ

theorem Core.lasting_entersAs (k : Core) : Core.Lasting k.EntersAs where
  setL2 := fun _ _ h => ⟨h.world, h.sr⟩
  abort := fun {k'} h => h.trans (k'.abortRegion_entersAs 1 0)
  tlbPut := fun _ _ h => ⟨h.world, h.sr⟩
  walkCache := fun _ h => ⟨h.world, h.sr⟩

theorem Core.lasting_storeQ (q : List StoreEnt) : Core.Lasting (fun k => k.storeQ = q) where
  setL2 := fun _ _ h => h
  abort := fun {k} h => (k.abortRegion_storeQ 1 0).trans h
  tlbPut := fun _ _ h => h
  walkCache := fun _ h => h

/-- An access granted leaves the core's world, its system registers and its queue (R118, R196). -/
theorem State.xlateC_entersAs {s u : State} {c : Nat} {acc : Acc} {va : Word} {t : Tr} (h : s.xlateC c acc va = .ok t u) :
    (s.core c).EntersAs (u.core c) ∧ (u.core c).storeQ = (s.core c).storeQ :=
  ⟨State.Has.xlateC (s.core c).entersAs_refl (Core.lasting_entersAs _) c acc va t u h,
    State.Has.xlateC (P := fun k => k.storeQ = (s.core c).storeQ) rfl (Core.lasting_storeQ _) c acc va t u h⟩

/-- Stores that fit are queued without any being performed (R196). -/
theorem State.queueStores_of_room {s t : State} {c : Nat} {es : List StoreEnt} (hl : (s.core c).storeQ.length + es.length ≤ 144)
    (h : s.queueStores c es = some t) : t.core c = { s.core c with storeQ := (s.core c).storeQ ++ es } := by
  unfold State.queueStores at h
  simp only [if_neg (Nat.not_lt.2 hl), Option.map_some, Option.some.injEq] at h
  rw [← h, State.core_updCore_same]

/-! ### System registers that no seat or guest has a copy of (R151, R245) -/

/-- Core `c` of `s` is `k`, in the normal world and in no guest: every system register in effect is its own. -/
structure State.Own (c : Nat) (k : Core) (s : State) : Prop where
  core : s.core c = k
  world : k.world = none
  guest : k.guest = false

section
variable {s : State} {c : Nat} {k k' : Core}

theorem State.Own.sr (h : s.Own c k) (n : Nat) : s.sr c n = k.srOwn n := by
  simp [State.sr, h.core, h.world, h.guest]

/-- A core of the same world and SR.XLATCTL is as much in a guest. -/
theorem Core.guest_congr (hw : k'.world = k.world) (hx : k'.srOwn SR.XLATCTL = k.srOwn SR.XLATCTL) : k'.guest = k.guest := by
  rw [Core.guest, Core.guest, hw, hx]

theorem State.Own.setSr (h : s.Own c k) {n : Nat} (hn : SR.XLATCTL ≠ n) (x : Word) : (s.setSr c n x).Own c (k.setSrOwn n x) where
  core := by simp [State.setSr, h.core, h.world, h.guest]
  world := h.world
  guest := by
    rw [← h.guest]
    exact Core.guest_congr rfl (k.srOwn_setSrOwn_other x hn)

theorem State.Own.ite {t : State} (h : s.Own c k) (h' : t.Own c k') (p : Prop) [Decidable p] :
    (if p then s else t).Own c (if p then k else k') := by
  split
  · exact h
  · exact h'

end

/-! ### The registers that the handler finds -/

/-- `k'` has the general and system registers, the pc and the world of `k`. -/
structure Core.SameRegs (k k' : Core) : Prop where
  g : k'.g = k.g
  sr : k'.sr = k.sr
  pc : k'.pc = k.pc
  world : k'.world = k.world

theorem Core.sameRegs_refl (k : Core) : k.SameRegs k := ⟨rfl, rfl, rfl, rfl⟩

theorem Core.SameRegs.trans {k k' k'' : Core} (h : k.SameRegs k') (h' : k'.SameRegs k'') : k.SameRegs k'' :=
  ⟨h'.g.trans h.g, h'.sr.trans h.sr, h'.pc.trans h.pc, h'.world.trans h.world⟩

theorem Core.SameRegs.count {k k' : Core} (h : k.SameRegs k') (e n : Nat) : k.SameRegs (k'.count e n) :=
  ⟨(k'.count_g e n).trans h.g, (k'.count_sr e n).trans h.sr, (k'.count_pc e n).trans h.pc, (k'.count_world e n).trans h.world⟩

theorem Core.SameRegs.srOwn {k k' : Core} (h : k.SameRegs k') (n : Nat) : k'.srOwn n = k.srOwn n := by rw [Core.srOwn, h.sr, Core.srOwn]

theorem Core.SameRegs.gr {k k' : Core} (h : k.SameRegs k') (r : Reg5) : k'.gr r = k.gr r := by rw [Core.gr, h.g, Core.gr]

/-- What the trace records changes no register (R595). -/
theorem State.trRec_sameRegs (s : State) (c kind : Nat) (frm to' : Word) : (s.core c).SameRegs ((s.trRec c kind frm to').core c) := by
  unfold State.trRec
  split
  · exact ⟨rfl, rfl, rfl, rfl⟩
  · split
    · simp only [State.core_updCore_same]
      exact ⟨rfl, rfl, rfl, rfl⟩
    · dsimp only
      split <;> split <;> simp only [State.trStamp, State.core_trPut, State.core_updCore_same] <;> exact ⟨rfl, rfl, rfl, rfl⟩

/-- What becomes of the predictor changes no register (R204, R218, R221). -/
theorem State.repredict_sameRegs (s : State) (c : Nat) (was : Bool) : (s.core c).SameRegs ((s.repredict c was).core c) := by
  obtain ⟨p, q, h, hc⟩ := s.repredict_core c was
  rw [hc]
  exact ⟨rfl, rfl, rfl, rfl⟩

/-- SR.FSP, SR.CAUSE and SR.EVADDR set by an event `e` with its frame at `f`, and the rights exchanged for the handler's; an imprecise event
is no longer pending (R162). -/
def Core.swapSrs (k : Core) (e : Ev) (f : Word) : Core :=
  let k := if e.imprecise then k.setSrOwn SR.FPSTAT (k.srOwn SR.FPSTAT &&& ~~~(0x100 : Word)) else k
  let k := ((k.setSrOwn SR.FSP f).setSrOwn SR.CAUSE (BitVec.ofNat 64 e.cause)).setSrOwn SR.EVADDR e.evaddr
  ((k.setSrOwn SR.AUTH (k.srOwn SR.EVENT_AUTH)).setSrOwn SR.KRIGHTS0 (k.srOwn SR.EVENT_KEYS0)).setSrOwn SR.KRIGHTS1
    (k.srOwn SR.EVENT_KEYS1)

/-- The core turned to the handler at `entry`: domain 0, nothing armed, the frame's address in g1, the event counted (R162). -/
def Core.started (k : Core) (e : Ev) (world : Bool) (entry f : Word) : Core :=
  let k := k.setSrOwn SR.DOMAIN 0
  let k := (k.setSrOwn SR.DBGCTL (k.srOwn SR.DBGCTL &&& ~~~(0x300 : Word))).setG 1 f
  let k := { k with pc := entry, xlPend := if world then k.xlPend else none, fresh := true, ssArm := false, skipArm := false, fence := none }
  let k := (k.count (240 + e.cause / 256) 1).count 4 (microOps 5).toNat
  let k := if e.async || e.imprecise then k else k.count 55 1
  let k := if e.cause = 0x0301 then k.count 10 1 else k
  if e.imprecise then k.count 253 1 else k

/-- The core at the handler's first instruction. -/
def Core.atHandler (k : Core) (e : Ev) (world : Bool) (f : Word) : Core :=
  (k.swapSrs e f).started e world ((k.swapSrs e f).srOwn SR.EVENT_ENTRY) f

/-- What the handler of event `e` finds in system register `n` (R162). -/
def Core.handlerSr (k : Core) (e : Ev) (f : Word) (n : Nat) : Word :=
  if n = SR.DBGCTL then k.srOwn SR.DBGCTL &&& ~~~(0x300 : Word)
  else if n = SR.DOMAIN then 0
  else if n = SR.KRIGHTS1 then k.srOwn SR.EVENT_KEYS1
  else if n = SR.KRIGHTS0 then k.srOwn SR.EVENT_KEYS0
  else if n = SR.AUTH then k.srOwn SR.EVENT_AUTH
  else if n = SR.EVADDR then e.evaddr
  else if n = SR.CAUSE then BitVec.ofNat 64 e.cause
  else if n = SR.FSP then f
  else k.srOwn n

section
variable (k : Core) (e : Ev) (world : Bool) (entry f : Word) {n : Nat}

theorem Core.srOwn_swapSrs (hn : n ≠ SR.FPSTAT) : (k.swapSrs e f).srOwn n =
    if n = SR.KRIGHTS1 then k.srOwn SR.EVENT_KEYS1
    else if n = SR.KRIGHTS0 then k.srOwn SR.EVENT_KEYS0
    else if n = SR.AUTH then k.srOwn SR.EVENT_AUTH
    else if n = SR.EVADDR then e.evaddr
    else if n = SR.CAUSE then BitVec.ofNat 64 e.cause
    else if n = SR.FSP then f
    else k.srOwn n := by
  unfold Core.swapSrs
  extract_lets k4 k6
  have h6 : ∀ r, r ≠ SR.FPSTAT → k6.srOwn r =
      if r = SR.EVADDR then e.evaddr else if r = SR.CAUSE then BitVec.ofNat 64 e.cause else if r = SR.FSP then f else k.srOwn r := by
    intro r hr
    have h4 : k4.srOwn r = k.srOwn r := by
      change Core.srOwn (if _ then _ else _) r = _
      split
      · exact k.srOwn_setSrOwn_other _ hr
      · rfl
    rw [Core.srOwn_setSrOwn, Core.srOwn_setSrOwn, Core.srOwn_setSrOwn, h4]
  clear_value k6
  rw [Core.srOwn_setSrOwn, Core.srOwn_setSrOwn, Core.srOwn_setSrOwn, h6 n hn, h6 SR.EVENT_KEYS1 (by decide),
    h6 SR.EVENT_KEYS0 (by decide), h6 SR.EVENT_AUTH (by decide)]
  rfl

theorem Core.srOwn_started : (k.started e world entry f).srOwn n =
    if n = SR.DBGCTL then k.srOwn SR.DBGCTL &&& ~~~(0x300 : Word) else if n = SR.DOMAIN then 0 else k.srOwn n := by
  simp only [Core.started, apply_ite (Core.srOwn · n), Core.srOwn_count, ite_self]
  refine (Core.srOwn_setG ((k.setSrOwn SR.DOMAIN 0).setSrOwn SR.DBGCTL _) 1 f n).trans ?_
  rw [k.srOwn_setSrOwn_other 0 (by decide : SR.DBGCTL ≠ SR.DOMAIN), Core.srOwn_setSrOwn, Core.srOwn_setSrOwn]

theorem Core.started_pc : (k.started e world entry f).pc = entry := by
  simp only [Core.started, apply_ite Core.pc, Core.count_pc, ite_self]

theorem Core.started_gr_one : (k.started e world entry f).gr 1 = f := by
  simp only [Core.started, apply_ite (Core.gr · 1), Core.gr_count, ite_self]
  exact Core.gr_setG_same _ f (by decide)

theorem Core.atHandler_world : (k.atHandler e world f).world = k.world := by
  simp only [Core.atHandler, Core.started, Core.swapSrs, apply_ite Core.world, Core.count_world, Core.setG_world, Core.setSrOwn_world,
    ite_self]

theorem Core.atHandler_pc : (k.atHandler e world f).pc = k.srOwn SR.EVENT_ENTRY :=
  (Core.started_pc _ _ _ _ _).trans (k.srOwn_swapSrs e f (by decide))

theorem Core.srOwn_atHandler (hn : n ≠ SR.FPSTAT) : (k.atHandler e world f).srOwn n = k.handlerSr e f n := by
  unfold Core.atHandler Core.handlerSr
  rw [Core.srOwn_started, k.srOwn_swapSrs e f hn, k.srOwn_swapSrs e f (by decide)]
  rfl

end

/-! ### The event entered -/

/-- `Core.swapSrs` of core `c`, in the copies of the registers in effect. -/
def State.swapSrs (s : State) (c : Nat) (e : Ev) (f : Word) : State :=
  let s4 := if e.imprecise then s.setSr c SR.FPSTAT (s.sr c SR.FPSTAT &&& ~~~(0x100 : Word)) else s
  let s6 := ((s4.setSr c SR.FSP f).setSr c SR.CAUSE (BitVec.ofNat 64 e.cause)).setSr c SR.EVADDR e.evaddr
  ((s6.setSr c SR.AUTH (s6.sr c SR.EVENT_AUTH)).setSr c SR.KRIGHTS0 (s6.sr c SR.EVENT_KEYS0)).setSr c SR.KRIGHTS1 (s6.sr c SR.EVENT_KEYS1)

/-- The rest of `State.enter` once the frame is queued; `was` says that the core was hardened before. -/
def State.toHandler (s : State) (c : Nat) (e : Ev) (world was : Bool) (f : Word) : State :=
  let s7 := s.swapSrs c e f
  let s8 := s7.updCore c (fun k => k.started e world (s7.sr c SR.EVENT_ENTRY) f)
  let s9 := if 16 ≤ e.vector then
      (s8.wr Reg.ihubCoreCstateRpri (coreIx c) (e.vector / 16)).updCore c (fun k => k.count 7 1)
    else s8
  let s11 := (s9.bump Reg.ihubCoreCstateDepth (coreIx c)).repredict c was
  s11.trRec c 4 e.epc (s11.pc c)

section
variable {s u : State} {c : Nat} {e : Ev} {k : Core}

theorem State.Own.swapSrs (h : s.Own c k) (e : Ev) (f : Word) : (s.swapSrs c e f).Own c (k.swapSrs e f) := by
  have h4 := (h.setSr (n := SR.FPSTAT) (by decide) (k.srOwn SR.FPSTAT &&& ~~~(0x100 : Word))).ite h (e.imprecise = true)
  have h6 := ((h4.setSr (n := SR.FSP) (by decide) f).setSr (n := SR.CAUSE) (by decide) (BitVec.ofNat 64 e.cause)).setSr
    (n := SR.EVADDR) (by decide) e.evaddr
  unfold State.swapSrs
  simp only [h.sr, h6.sr]
  exact ((h6.setSr (by decide) _).setSr (by decide) _).setSr (by decide) _

theorem State.Own.toHandler (h : s.Own c k) (e : Ev) (world was : Bool) (f : Word) :
    (k.atHandler e world f).SameRegs ((s.toHandler c e world was f).core c) := by
  have h7 := h.swapSrs e f
  unfold State.toHandler
  extract_lets s7 s8 s9 s11
  have h8 : s8.core c = k.atHandler e world f := by
    rw [State.core_updCore_same, h7.core, h7.sr]
    rfl
  have h9 : (k.atHandler e world f).SameRegs (s9.core c) := by
    change Core.SameRegs _ (State.core (if _ then _ else _) c)
    split
    · rw [State.core_updCore_same, State.core_wr, h8]
      exact (Core.sameRegs_refl _).count 7 1
    · rw [h8]
      exact Core.sameRegs_refl _
  have h11 : (s9.core c).SameRegs (s11.core c) := State.repredict_sameRegs (s9.bump Reg.ihubCoreCstateDepth (coreIx c)) c was
  exact (h9.trans h11).trans (s11.trRec_sameRegs c 4 e.epc _)

/-- The frame lies 128 bytes below SR.FSP (R162). -/
theorem frame_address {fsp : Word} (h : 128 ≤ fsp.toNat) : BitVec.ofNat 64 (fsp.toNat - 128) = fsp - 128 := by
  bv_omega

/-- A core in no guest makes no host exit (R247). -/
theorem State.Own.isHostExit (h : s.Own c k) (e : Ev) : s.isHostExit c e = false := by
  simp [State.isHostExit, h.core, h.guest]

/-- An event entered with no arithmetic exception pending finds its frame translated and room for its stores; it leaves the core with the
registers of the handler. -/
theorem State.enter_entered (h : s.enter c e false false = .entered u) (ha : (s.sr c SR.FPSTAT).getLsbD 8 = false)
    (ho : s.Own c (s.core c)) (hq : (s.core c).storeQ.length ≤ 142) :
    ∃ k world, (s.core c).EntersAs k ∧ (k.atHandler e world (s.sr c SR.FSP - 128)).SameRegs (u.core c) := by
  unfold State.enter at h
  extract_lets pend e' world exits s1 fsp f at h
  have hpend : pend = false := by
    change ((s.sr c SR.FPSTAT).getLsbD 8 && !e.imprecise) = false
    rw [ha, Bool.false_and]
  have he : e' = e := if_neg (by rw [hpend]; decide)
  have hs1 : s1 = s := if_neg (by change ¬s.isHostExit c e' = true; rw [ho.isHostExit]; decide)
  have hf : 128 ≤ fsp → BitVec.ofNat 64 f = s.sr c SR.FSP - 128 := hs1 ▸ frame_address
  clear_value pend e' s1 f
  subst hpend he hs1
  split at h
  · cases h
  next hroom =>
  split at h
  · cases h
  · cases h
  next t s2 hx =>
  split at h
  · cases h
  next s3 hs3 =>
  have hu : s3.toHandler c e' world (s1.hardened c) (BitVec.ofNat 64 f) = u := Ent.entered.inj h
  obtain ⟨hk2, hq2⟩ := State.xlateC_entersAs hx
  have hk3 := State.queueStores_of_room (by rw [hq2]; simpa using hq) hs3
  have he3 : (s1.core c).EntersAs (s3.core c) := by
    rw [hk3]
    exact ⟨hk2.world, hk2.sr⟩
  have ho3 : s3.Own c (s3.core c) :=
    ⟨rfl, he3.world.trans ho.world, (Core.guest_congr he3.world (he3.sr _ (by decide) (by decide))).trans ho.guest⟩
  refine ⟨s3.core c, world, he3, ?_⟩
  rw [← hf (by omega), ← hu]
  exact ho3.toHandler e' world _ _

end

/-- Settles O31, by the core that `State.enter_entered` leaves. -/
theorem event_entry_results : Obligations.event_entry_results := by
  intro c e s u h f ha hw hg hq
  have ho : s.Own c (s.core c) := ⟨rfl, hw, hg⟩
  obtain ⟨k, world, he, hr⟩ := State.enter_entered h ha ho hq
  have hown : ∀ n, n ≠ SR.FPSTAT → (u.core c).srOwn n = k.handlerSr e f n := fun n hn =>
    (hr.srOwn n).trans (k.srOwn_atHandler e world f hn)
  have hsr : ∀ n, n ≠ SR.FPSTAT → n ≠ SR.XPC → k.srOwn n = s.sr c n := fun n hp hx => (he.sr n hp hx).trans (ho.sr n).symm
  have huw : (u.core c).world = (s.core c).world := (hr.world.trans (k.atHandler_world e world f)).trans he.world
  have hu : u.Own c (u.core c) := ⟨rfl, huw.trans hw,
    (Core.guest_congr huw ((hown SR.XLATCTL (by decide)).trans (he.sr _ (by decide) (by decide)))).trans hg⟩
  have hbank : ∀ n, n ≠ SR.FPSTAT → u.sr c n = k.handlerSr e f n := fun n hn => (hu.sr n).trans (hown n hn)
  refine ⟨?entry, ?g1, ?fsp, ?cause, ?evaddr, ?auth, ?keys0, ?keys1, ?domain, ?dbgctl⟩
  case entry => exact (hr.pc.trans (k.atHandler_pc e world f)).trans (hsr SR.EVENT_ENTRY (by decide) (by decide))
  case g1 => exact (hr.gr 1).trans (Core.started_gr_one _ e world _ f)
  case fsp => exact hbank SR.FSP (by decide)
  case cause => exact hbank SR.CAUSE (by decide)
  case evaddr => exact hbank SR.EVADDR (by decide)
  case auth => exact (hbank SR.AUTH (by decide)).trans (hsr SR.EVENT_AUTH (by decide) (by decide))
  case keys0 => exact (hbank SR.KRIGHTS0 (by decide)).trans (hsr SR.EVENT_KEYS0 (by decide) (by decide))
  case keys1 => exact (hbank SR.KRIGHTS1 (by decide)).trans (hsr SR.EVENT_KEYS1 (by decide) (by decide))
  case domain => exact hown SR.DOMAIN (by decide)
  case dbgctl => exact (hown SR.DBGCTL (by decide)).trans (congrArg (· &&& ~~~(0x300 : Word)) (he.sr SR.DBGCTL (by decide) (by decide)))

end Sys2Proof.Machine

/-! ## Interrupts (R171-R182, R204) -/

namespace Sys2Proof.Machine

/-! ### The boundary and the entry window (R171, R174, R176, R177) -/

section
variable {s t u : State} {c v : Nat}

theorem State.stepDone_of_running (h : (s.core c).stepping = false) : s.stepDone c = s := if_neg (by simp [h])

/-- What a core takes at its boundary is the outcome of EVENT_ENTRY, no debugger's step being under way. -/
theorem exec_eventEntry_of_took (hr : s.canRun c = true) (hb : s.boundary c = .took t) (ht : (t.core c).stepping = false) :
    exec (.eventEntry c) s = .next t := by
  change execEventEntry c s = _
  simp only [execEventEntry, hr, if_true, hb, State.stepDone_of_running ht]

/-- A boundary of core `c` outside a region, with no debugger's step under way and no arithmetic exception pending. -/
structure State.AtBoundary (s : State) (c : Nat) : Prop where
  stepping : (s.core c).stepping = false
  region : (s.core c).region = none
  arith : (s.sr c SR.FPSTAT).getLsbD 8 = false

/-- There a machine check goes ahead of every interrupt (R171). -/
theorem State.AtBoundary.mchk {m : MCheck} {l : List MCheck} (h : s.AtBoundary c) (hm : (s.core c).mchk = m :: l)
    (he : s.enter c { cause := m.cause, rpc := s.pc c, epc := s.pc c, evaddr := BitVec.ofNat 64 m.addr, info := m.info, async := true }
      false false = .entered u) : s.boundary c = .took (u.updCore c (fun k => { k with mchk := l })) := by
  have hdue : s.asyncDue c = true := by simp [State.asyncDue, hm]
  unfold State.boundary
  simp only [h.stepping, h.region, h.arith, hdue, hm, he, Option.isSome_none, Bool.not_true, Bool.or_self, Bool.false_eq_true, if_false]

/-- With no machine check and no interrupt of the Vault world the interrupt due opens its window (R176). -/
theorem State.AtBoundary.interrupt (h : s.AtBoundary c) (hm : (s.core c).mchk = []) (hd : s.dueVault c = none)
    (hi : s.dueInterrupt c = some v) : s.boundary c = .took (s.openWin c v false) := by
  have hdue : s.asyncDue c = true := by simp [State.asyncDue, hi]
  unfold State.boundary
  simp only [h.stepping, h.region, h.arith, hdue, hm, hd, hi, Option.isSome_none, Bool.not_true, Bool.or_self, Bool.false_eq_true, if_false]

/-- A deliverable vector of higher priority takes over (R176). -/
theorem State.takeover_of_higher {w : EntryWin} (hw : (s.core c).win = some w) (hn : (s.core c).world = none) (hp : s.isPend c v = true)
    (hd : s.deliverable c v = true) (hg : (s.core c).guest = false) (hv : w.vector / 16 < v / 16) :
    s.takeover c v = s.updCore c (fun k => { k with win := some { w with vector := v, takeover := true } }.count 252 1) := by
  simp [State.takeover, hw, hn, hp, hd, hg, hv]

/-- One of no higher priority does not. -/
theorem State.takeover_of_not_higher {w : EntryWin} (hw : (s.core c).win = some w) (hv : v / 16 ≤ w.vector / 16) : s.takeover c v = s := by
  simp [State.takeover, hw, Nat.not_lt.2 hv]

theorem exec_interruptTakeover (hv : v < 256) : exec (.interruptTakeover c v) s = .next (s.takeover c v) :=
  congrArg (fun x => Host.Outcome.next (s.takeover c x)) (Nat.mod_eq_of_lt hv)

/-- The window of an entry into the normal world commits: the event is entered and its vector no longer pending (R174, R176). -/
theorem exec_entryWindowCommit {w : EntryWin} (hw : (s.core c).win = some w)
    (he : (s.updCore c (fun k => { k with win := none })).enter c
      { cause := 0x400 + w.vector, rpc := s.pc c, epc := s.pc c, async := true, vector := w.vector } w.fromNormal w.takeover = .entered u)
    (hn : (u.core c).world = none) : exec (.entryWindowCommit c) s = .next (u.clrPend c w.vector) := by
  have hpc : (s.updCore c (fun k => { k with win := none })).pc c = s.pc c := by simp [State.pc]
  change execEntryWindowCommit c s = _
  simp only [execEntryWindowCommit, State.commitWin, hw, State.intEv, hpc, he, hn, Option.getD_some]

end

/-! ### Where vectors come from (R175, R179, R180, R182, R204) -/

section
variable {s : State} {c k i v : Nat}

theorem State.core_sysVector (s : State) (k l v c : Nat) : (s.sysVector k l v).core c = s.core c := by
  unfold State.sysVector
  split <;> rfl

/-- A core's own SR.TCMP reached raises the timer vector and is zeroed (R180). -/
theorem exec_timerCompare_of_due (hr : s.outOfReset c = true) (hw : (s.core c).world = none) (h0 : (s.core c).srOwn SR.TCMP ≠ 0)
    (hd : ((s.core c).srOwn SR.TCMP).toNat ≤ s.now (coreSock c)) :
    exec (.timerCompare c) s = .next ((s.updCore c (fun q => q.setSrOwn SR.TCMP 0)).sysVector (coreSock c) (coreLog c)
      (s.rd Reg.ihubSysvecTimer { sock := coreSock c })) := by
  have hdue : tcmpDue (s.now (coreSock c)) ((s.core c).srOwn SR.TCMP) = true := by
    rw [tcmpDue, decide_eq_true h0, decide_eq_true hd, Bool.and_self]
  change execTimerCompare c s = _
  simp only [execTimerCompare, hr, hdue, State.core_sysVector, State.core_updCore_same, Core.setSrOwn, hw, Bool.not_true,
    Bool.false_eq_true, if_false, if_true]

/-- One that is not armed is never reached. -/
theorem exec_timerCompare_of_unarmed (hw : (s.core c).world = none) (h0 : (s.core c).srOwn SR.TCMP = 0) :
    exec (.timerCompare c) s = .next s := by
  have hdue : tcmpDue (s.now (coreSock c)) ((s.core c).srOwn SR.TCMP) = false := by simp [tcmpDue, h0]
  change execTimerCompare c s = _
  simp only [execTimerCompare, hdue, hw, Bool.false_eq_true, if_false, ite_self]

/-- An inter-processor interrupt for one core becomes pending there (R179). -/
theorem exec_ipiReceive_core {p : Ipi} {l : Nat} (hf : s.ipis.find? (fun i => i.sock = k) = some p) (hk : s.live k = true)
    (hl : p.core = some l) (hc : s.coreThere k l = true) :
    exec (.ipiReceive k) s = .next ({ s with ipis := s.ipis.erase p }.setPend (k * 256 + l) p.vector) := by
  have hthere : ({ s with ipis := s.ipis.erase p } : State).coreThere k l = true := hc
  change execIpiReceive k s = _
  simp only [execIpiReceive, hf, hk, hl, hthere, Bool.not_true, Bool.false_eq_true, if_false, if_true]

/-- A broadcast becomes pending at each of its targets (R179). -/
theorem exec_ipiReceive_all {p : Ipi} (hf : s.ipis.find? (fun i => i.sock = k) = some p) (hk : s.live k = true) (hl : p.core = none) :
    exec (.ipiReceive k) s = .next (((List.range 256).filter ({ s with ipis := s.ipis.erase p }.ipiTarget p)).foldl
      (fun s l => s.setPend (k * 256 + l) p.vector) { s with ipis := s.ipis.erase p }) := by
  change execIpiReceive k s = _
  simp only [execIpiReceive, hf, hk, hl, Bool.not_true, Bool.false_eq_true, if_false]

theorem exec_msgInterrupt (hk : s.live k = true) : exec (.msgInterrupt k i) s = .next (s.msgInt k i) :=
  congrArg Host.Outcome.next (if_pos hk)

/-- A message whose route names no core of the partition is dropped and counted (R173, R182). -/
theorem State.msgInt_of_dropped (hi : i < 4096)
    (h : s.rd Reg.ihubRouteValid { sock := k, i := i } = 0 ∨ s.rd Reg.ihubRouteVec { sock := k, i := i } < 16 ∨
      s.samePart k (s.rd Reg.ihubRouteSocket { sock := k, i := i }) = false ∨
      s.coreThere (s.rd Reg.ihubRouteSocket { sock := k, i := i }) (s.rd Reg.ihubRouteCore { sock := k, i := i }) = false) :
    s.msgInt k i = s.bump Reg.ihubDropMsg { sock := k } := by
  unfold State.msgInt
  simp only [Nat.mod_eq_of_lt hi]
  exact if_pos (by simpa [or_assoc] using h)

/-- Otherwise the vector of a route to a core is pending there (R182). -/
theorem State.msgInt_of_routed (hi : i < 4096) (hv : s.rd Reg.ihubRouteValid { sock := k, i := i } ≠ 0)
    (hw : 16 ≤ s.rd Reg.ihubRouteVec { sock := k, i := i }) (hp : s.samePart k (s.rd Reg.ihubRouteSocket { sock := k, i := i }) = true)
    (hc : s.coreThere (s.rd Reg.ihubRouteSocket { sock := k, i := i }) (s.rd Reg.ihubRouteCore { sock := k, i := i }) = true)
    (hn : s.rd Reg.ihubRouteVault { sock := k, i := i } = 0) :
    s.msgInt k i = s.setPend (s.rd Reg.ihubRouteSocket { sock := k, i := i } * 256 + s.rd Reg.ihubRouteCore { sock := k, i := i })
      (s.rd Reg.ihubRouteVec { sock := k, i := i }) := by
  unfold State.msgInt
  simp only [Nat.mod_eq_of_lt hi]
  rw [if_neg (by simpa [hp, hc] using ⟨hv, hw⟩), if_neg (by simp [hn])]

theorem exec_tpriWrite (hk : s.live (coreSock c) = true) (hl : coreLog c < (s.part (coreSock c)).cores) (hv : v < 16) :
    exec (.tpriWrite c v) s = .next (s.wr Reg.ihubCoreTpri (coreIx c) v) := by
  change execTpriWrite c v s = _
  simp [execTpriWrite, hk, hl, Nat.mod_eq_of_lt hv]

theorem exec_hardenWrite (b : Bool) (hk : s.live (coreSock c) = true) (hl : coreLog c < (s.part (coreSock c)).cores) :
    exec (.hardenWrite c b) s = .next (if s.isSealed (coreSock c) then s
      else s.wr Reg.coreCfgHarden (coreIx c) (if b then 1 else 0)) := by
  change execHardenWrite c b s = _
  cases hs : s.isSealed (coreSock c) <;> simp [execHardenWrite, hk, hl, hs]

end

/-- Settles O32: a boundary goes by `State.boundary`, a message by `State.msgInt`. -/
theorem interrupt_results : Obligations.interrupt_results := by
  refine ⟨fun c v s u => ⟨?due, ?check, ?higher, ?level, ?commit⟩, fun c k i v b s => ⟨?timer, ?unarmed, ?one, ?all, ?message, ?tpri, ?harden⟩⟩
  case due =>
    intro hr hs hg hf hm hd hi
    refine exec_eventEntry_of_took hr ((State.AtBoundary.mk hs hg hf).interrupt hm hd hi) ?_
    rw [State.core_updCore_same]
    exact hs
  case check =>
    intro m l hr hs hg hf hm he hu
    refine exec_eventEntry_of_took hr ((State.AtBoundary.mk hs hg hf).mchk hm he) ?_
    rw [State.core_updCore_same]
    exact hu
  case higher =>
    exact fun w hv hw hn hp hd hg hlt => (exec_interruptTakeover hv).trans (congrArg _ (State.takeover_of_higher hw hn hp hd hg hlt))
  case level =>
    exact fun w hw heq hv => (exec_interruptTakeover hv).trans (congrArg _ (State.takeover_of_not_higher hw heq.ge))
  case commit => exact fun w => exec_entryWindowCommit
  case timer => exact exec_timerCompare_of_due
  case unarmed => exact exec_timerCompare_of_unarmed
  case one => exact fun p l => exec_ipiReceive_core
  case all => exact fun p => exec_ipiReceive_all
  case message =>
    exact fun hi hk => ⟨fun h => (exec_msgInterrupt hk).trans (congrArg _ (State.msgInt_of_dropped hi h)),
      fun hv hw hp hc hn => (exec_msgInterrupt hk).trans (congrArg _ (State.msgInt_of_routed hi hv hw hp hc hn))⟩
  case tpri => exact exec_tpriWrite
  case harden => exact exec_hardenWrite b

end Sys2Proof.Machine

/-! ## Cores that execute no instruction (R167, R209, R557, R588) -/

namespace Sys2Proof.Machine

/-- A core that cannot run starts nothing: neither the event due at the boundary nor the fetch. -/
theorem State.instr_of_stopped {s : State} {c : Nat} (h : s.canRun c = false) (len : Nat) (body : State → Res Word) :
    s.instr c len body = s := by
  unfold State.instr
  rw [h, Bool.not_false, if_pos rfl]

/-- The meaning of every instruction of Deryr is a body that `State.instr` runs on the instruction's own core, with nothing before or after
it. -/
theorem exec_eq_instr_of_instrCore {i : Instr} {c : Nat} (hi : instrCore i = some c) (s : State) :
    ∃ len body, exec i s = .next (s.instr c len body) := by
  cases i
  all_goals cases hi
  all_goals exact ⟨_, _, rfl⟩

/-- Settles O5: every instruction runs by `State.instr`, which on a stopped core answers the state as it was. -/
theorem stopped_core_executes_nothing : Obligations.stopped_core_executes_nothing := by
  intro i c s hi hs
  obtain ⟨len, body, h⟩ := exec_eq_instr_of_instrCore hi s
  rw [h, State.instr_of_stopped hs]

end Sys2Proof.Machine

/-! ## The operations of a Stoker channel (R277, R451-R453, R457-R463) -/

namespace Sys2Proof.Machine

/-- The port of a channel at work on descriptor `d`, as far as `n` more source lines (R277). -/
def State.descPort (s : State) (k cell c idx n : Nat) (d : Desc) : Port :=
  { s.stkPort k cell c with desc := some (chKey k cell c, idx), lim := d.memo.length + n }

/-- The operations that need nothing but their descriptor and its port: code, command and function (Table STOK-4). -/
noncomputable def portOps (k cell c idx n : Nat) : List (Nat × Instr × (Port → DWords → State → State × Option Fin)) :=
  [(2, .project k cell c ⟨idx, n⟩, runProject), (3, .decomp k cell c ⟨idx, n⟩, runDecomp),
    (4, .hashbuild k cell c ⟨idx, n⟩, runBuild), (5, .hashprobe k cell c ⟨idx, n⟩, runProbe), (6, .agg k cell c ⟨idx, n⟩, runAgg),
    (7, .sortrun k cell c ⟨idx, n⟩, runSort), (8, .merge k cell c ⟨idx, n⟩, runMerge), (9, .crc32c k cell c ⟨idx, n⟩, runCrc),
    (10, .sha256 k cell c ⟨idx, n⟩, runSha)]

/-- The command of each such operation runs its function for the operation's own code. -/
theorem exec_of_mem_portOps {k cell c idx n op : Nat} {i : Instr} {run : Port → DWords → State → State × Option Fin}
    (h : (op, i, run) ∈ portOps k cell c idx n) (s : State) : exec i s = .next (s.stkRun k cell c idx op n run) := by
  simp only [portOps, List.mem_cons, List.not_mem_nil, or_false, Prod.mk.injEq] at h
  obtain ⟨rfl, rfl, rfl⟩ | ⟨rfl, rfl, rfl⟩ | ⟨rfl, rfl, rfl⟩ | ⟨rfl, rfl, rfl⟩ | ⟨rfl, rfl, rfl⟩ | ⟨rfl, rfl, rfl⟩ | ⟨rfl, rfl, rfl⟩ |
    ⟨rfl, rfl, rfl⟩ | ⟨rfl, rfl, rfl⟩ := h
  all_goals rfl

section
variable {s t u : State} {k cell c idx op n : Nat} {d : Desc} {run : Port → DWords → State → State × Option Fin} {e : Fin}

/-- An operation that has run out ends its descriptor. -/
theorem State.stkRun_of_ended (hd : s.running' k cell c idx op = some d) (hr : run (s.descPort k cell c idx n d) d.w s = (u, some e)) :
    s.stkRun k cell c idx op n run = u.setFin k cell c idx e := by
  unfold State.descPort at hr
  simp only [State.stkRun, hd, hr]

/-- One that must go on later leaves it running. -/
theorem State.stkRun_of_waiting (hd : s.running' k cell c idx op = some d) (hr : run (s.descPort k cell c idx n d) d.w s = (u, none)) :
    s.stkRun k cell c idx op n run = u := by
  unfold State.descPort at hr
  simp only [State.stkRun, hd, hr]

/-- A command that runs a descriptor's operation ends the descriptor, or leaves it for later. -/
theorem exec_of_stkRun {i : Instr} (hi : exec i s = .next (t.stkRun k cell c idx op n run)) (hd : t.running' k cell c idx op = some d) :
    (run (t.descPort k cell c idx n d) d.w t = (u, some e) → exec i s = .next (u.setFin k cell c idx e)) ∧
      (run (t.descPort k cell c idx n d) d.w t = (u, none) → exec i s = .next u) :=
  ⟨fun h => hi.trans (congrArg _ (State.stkRun_of_ended hd h)), fun h => hi.trans (congrArg _ (State.stkRun_of_waiting hd h))⟩

/-- AESGCM runs with the key of the slot its descriptor names. -/
theorem exec_aesgcm {key : Nat} (hd : s.running' k cell c idx 11 = some d)
    (hk : cellGet none (s.stk k cell c).keys (dw d.w 0 20 17) = some key) :
    exec (.aesgcm k cell c ⟨idx, n⟩) s = .next (s.stkRun k cell c idx 11 n (fun p w => runGcm p w (leBytes 32 key))) := by
  change execAesgcm k cell c ⟨idx, n⟩ s = _
  simp only [execAesgcm, State.stkRun, hd, hk]

/-- A FILTER that is not split runs its program in the cell, from the state in which the program has been read. -/
theorem exec_filter_of_unsplit {b : List Byte} (hd : s.running' k cell c idx 1 = some d)
    (hp : s.pRead (s.stkPort k cell c) (dAux d.w) 256 = (t, b, none)) (hs : t.splits k cell c d.w = false) :
    exec (.filter k cell c ⟨idx, n⟩) s = .next (t.stkRun k cell c idx 1 n (fun p w => runFilter p w b)) := by
  change execFilter k cell c ⟨idx, n⟩ s = _
  simp [execFilter, hd, hp, hs]

/-- A FILTER whose program cannot be read ends with that. -/
theorem exec_filter_of_unread {b : List Byte} {x : Stop} (hd : s.running' k cell c idx 1 = some d)
    (hp : s.pRead (s.stkPort k cell c) (dAux d.w) 256 = (t, b, some x)) (hx : x.status ≠ 256) :
    exec (.filter k cell c ⟨idx, n⟩) s = .next (t.setFin k cell c idx ⟨x.status, 0, 0, x.addr, x.kind, x.s2⟩) := by
  change execFilter k cell c ⟨idx, n⟩ s = _
  simp only [execFilter, hd, hp]
  split
  · rename_i h
    cases h
    exact absurd rfl hx
  · rename_i h
    cases h
    rfl
  · rename_i h
    cases h

end

/-- Settles O55: the command of an operation runs its function by `State.stkRun`, which ends the descriptor when the function has run
out. -/
theorem stoker_operation_results : Obligations.stoker_operation_results := by
  intro k cell c idx op n d i run s u e _ hd
  refine ⟨fun hm => exec_of_stkRun (exec_of_mem_portOps hm s) hd, fun h0 => ?nop, fun key h11 hk => ?aesgcm,
    fun t b h1 hp hs hd' => exec_of_stkRun (exec_filter_of_unsplit (h1 ▸ hd) hp hs) hd',
    fun t b x h1 hp hx => exec_filter_of_unread (h1 ▸ hd) hp hx⟩
  case nop =>
    subst h0
    exact congrArg Host.Outcome.next (State.stkRun_of_ended (run := fun _ _ s => (s, some ⟨0, 0, 0, 0, 0, false⟩)) hd rfl)
  case aesgcm =>
    subst h11
    exact exec_of_stkRun (exec_aesgcm hd hk) hd

end Sys2Proof.Machine

/-! ## The crossbar, the fabric and a partition's start -/

namespace Sys2Proof.Machine

/-! ### Homes out of reach (R285) -/

/-- Core `c`'s queued stores performed as far as they go. -/
def State.drainOwn (s : State) (c : Nat) : State :=
  (s.drainList c (s.core c).storeQ).1.updCore c fun q => { q with storeQ := (s.drainList c (s.core c).storeQ).2 }

/-- From `s` to `t` socket `k` has drained store queues that were empty: they still are, and what no queue holds is the same. -/
structure State.DrainedEmpty (s t : State) (k : Nat) : Prop where
  unreach : t.unreach = s.unreach
  hq : t.hq = s.hq
  mem : t.mem = s.mem
  empty : ∀ e ∈ s.cores, coreSock e.1 = k → (t.core e.1).storeQ = []

section
variable {s t : State} {k h c : Nat}

/-- Draining one more empty queue. -/
theorem State.DrainedEmpty.drain (ht : s.DrainedEmpty t k) (hc : (t.core c).storeQ = []) :
    s.DrainedEmpty (t.drainOwn c) k := by
  rw [State.drainOwn, hc]
  refine ⟨ht.unreach, ht.hq, ht.mem, fun e he hk => ?_⟩
  by_cases h : e.1 = c
  · rw [h]
    exact congrArg Core.storeQ (State.core_updCore_same t c _)
  · exact (congrArg Core.storeQ (State.core_updCore_other t _ h)).trans (ht.empty e he hk)

/-- Socket `k` gives up home `h`, which is still out of its reach. -/
theorem exec_actionEndAbandon_of_unreached (ha : s.inAction k = false) (hr : s.reach k h = 1)
    (hq : ∀ e ∈ s.cores, coreSock e.1 = k → (s.core e.1).storeQ = []) :
    ∃ t : State, exec (.actionEndAbandon k h) s = .next t ∧ t.reach k h = 2 ∧ (∀ r ∈ t.hq, r ∈ s.hq) ∧ t.mem = s.mem := by
  have hrun : exec (.actionEndAbandon k h) s = execActionEndAbandon k h s := rfl
  have hgo : ¬(s.inAction k || decide (s.reach k h ≠ 1)) = true := by simp [ha, hr]
  rw [hrun, execActionEndAbandon, if_neg hgo]
  extract_lets s1 mine s2
  have hd : s2.DrainedEmpty (s2.cores.foldl (fun s e => if coreSock e.1 = k then s.drainOwn e.1 else s) s2) k := by
    refine List.foldlRecOn (motive := fun t : State => s2.DrainedEmpty t k) _ _ ⟨rfl, rfl, rfl, hq⟩ fun t ht e he => ?_
    split
    · rename_i hk
      exact ht.drain (ht.empty e he hk)
    · exact ht
  refine ⟨_, rfl, ?_, fun r hr => ?_, hd.mem⟩
  · exact (congrArg (cellGet 0 · (k * 1024 + h)) hd.unreach).trans (cellGet_set_same 0 s.unreach (k * 1024 + h) 2)
  · exact (List.mem_filter.mp (hd.hq ▸ hr)).1

/-- While a recovery action lasts nothing is given up. -/
theorem exec_actionEndAbandon_of_action (ha : s.inAction k = true) : exec (.actionEndAbandon k h) s = .next s := by
  change execActionEndAbandon k h s = _
  simp [execActionEndAbandon, ha]

end

/-! ### Codewords and control slots (R361-R365, R387) -/

section
variable {s : State} {k n seq rx e : Nat} {fs : List Flit}

/-- Flue `n` of socket `k` is up at both ends, and its peer sends codeword `rx` again, which carries the flits `fs`. -/
structure State.Resends (s : State) (k n rx e : Nat) (fs : List Flit) : Prop where
  here : s.link k n = 2
  there : s.link (s.peer k n).1 (s.peer k n).2 = 2
  next : s.rd Reg.flueSeqRx (flueIx k n) = rx
  old : (s.flue (s.peer k n).1 (s.peer k n).2).unacked.find? (fun e => e.1 = rx) = some (e, fs)

/-- The codeword expected, received without fault: its flits enter the crossbar and the flue expects the next. -/
theorem State.Resends.accepted (h : s.Resends k n rx e fs) (hseq : seq % 16 = rx % 16) :
    exec (.codewordReceive k n 0 seq true true) s =
      .next (({ s with xin := cellSet [] s.xin (flueKey k n) (cellGet [] s.xin (flueKey k n) ++
        fs.map (fun (f : Flit) => { f with hops := f.hops + 1, time := s.time })) }.setFlue k n
          { s.flue k n with rejects := 0, nak := false }).wr Reg.flueSeqRx (flueIx k n) ((rx + 1) % 4096)) := by
  change execCodewordReceive k n 0 seq true true s = _
  simp [execCodewordReceive, h.here, h.there, h.next, h.old, hseq]

/-- One whose CRC fails is counted and asked for again. -/
theorem State.Resends.badCrc (h : s.Resends k n rx e fs) :
    exec (.codewordReceive k n 0 seq false true) s = .next ((s.bump Reg.flueErrCrc (flueIx k n)).setFlue k n
      { s.flue k n with rejects := min 8 ((s.flue k n).rejects + 1), nak := true }) := by
  change execCodewordReceive k n 0 seq false true s = _
  simp [execCodewordReceive, h.here, h.there, h.next, h.old]

/-- A control slot at the time master, with nothing unacknowledged, tells it the peer's distance. -/
theorem exec_controlSlotReceive_of_master (hl : s.link k n = 2) (hm : s.rd Reg.chimSyncMaster { sock := k } = k)
    (hu : (s.flue k n).unacked = []) (a b c d m tag dist : Nat) :
    exec (.controlSlotReceive k n a false b c d m tag dist) s =
      .next ((s.setFlue k n { s.flue k n with unacked := [], sdist := dist % 32 }).wr Reg.chimSyncDist { sock := k } 0) := by
  have hrd : ∀ f, (s.setFlue k n f).rd Reg.chimSyncMaster { sock := k } = k := fun _ => hm
  change execControlSlotReceive k n a false b c d m tag dist s = _
  simp [execControlSlotReceive, hl, hu, hrd]

end

/-! ### The crossbar (R369, R378, R381) -/

section
variable {s : State} {k n : Nat} {f : Flit}

/-- Nothing comes in from an empty input, whatever is ready. -/
theorem xNext_nil (ready : Flit → Bool) : xNext [] ready = none := rfl

/-- With nothing come in and nothing held a port moves nothing. -/
theorem exec_crossbarFlitArrival_of_empty (hi : cellGet [] s.xin (flueKey k n) = []) (hh : cellGet [] s.txHeld (k * 8 + n) = []) :
    exec (.crossbarFlitArrival k n) s = .next s := by
  change execCrossbarFlitArrival k n s = _
  simp [execCrossbarFlitArrival, State.txAgain, hi, hh, xNext_nil]

/-- The firewall drops a flit of a socket it does not list. -/
theorem State.fwDrops_of_unlisted (hv : s.rd Reg.chimDestValid { sock := k, i := f.ssock } = 0) : s.fwDrops k f = true := by
  simp [State.fwDrops, hv]

/-- It drops one for this socket of another partition. -/
theorem State.fwDrops_of_strange (hd : f.dsock = k) (hc : f.cast = 0) (hp : f.part ≠ s.partition k) : s.fwDrops k f = true := by
  simp [State.fwDrops, hd, hc, hp]

/-- It passes a listed socket's flit of that socket's partition, which is this socket's if it is for this socket. -/
theorem State.fwDrops_of_listed (hv : s.rd Reg.chimDestValid { sock := k, i := f.ssock } = 1)
    (hp : s.rd Reg.chimDestPart { sock := k, i := f.ssock } = f.part) (hd : f.dsock = k → f.part = s.partition k) :
    s.fwDrops k f = false := by
  simpa [State.fwDrops, hv, hp] using fun h _ => hd h

variable (hx : xNext (cellGet [] s.xin (flueKey k n)) (s.xReady k n) = some f)
include hx

theorem exec_crossbarFlitArrival_of_dropped (hf : s.fwDrops k f = true) :
    exec (.crossbarFlitArrival k n) s = .next ((s.xTake k n f).fwDrop k n f) := by
  change execCrossbarFlitArrival k n s = _
  simp [execCrossbarFlitArrival, hx, hf]

/-- A request for this socket's homes takes its turn by its transaction number (R378). -/
theorem exec_crossbarFlitArrival_of_request (hf : s.fwDrops k f = false) (hc : f.cast = 0) (hd : f.dsock = k)
    (hcls : f.cls = 0 ∨ f.cls = 4) : exec (.crossbarFlitArrival k n) s = .next (s.txArrive k n f) := by
  change execCrossbarFlitArrival k n s = _
  simp [execCrossbarFlitArrival, hx, hf, hc, hd, hcls]

/-- Any other flit for this socket enters the mesh. -/
theorem exec_crossbarFlitArrival_of_mesh (hf : s.fwDrops k f = false) (hc : f.cast = 0) (hd : f.dsock = k)
    (hcls : f.cls ≠ 0 ∧ f.cls ≠ 4) : exec (.crossbarFlitArrival k n) s = .next ((s.xTake k n f).toMesh k f) := by
  change execCrossbarFlitArrival k n s = _
  simp [execCrossbarFlitArrival, hx, hf, hc, hd, hcls]

/-- A flit for another socket leaves by the port on its way. -/
theorem exec_crossbarFlitArrival_of_onward {q st : Nat} {t : List Nat} {det : Bool} (hf : s.fwDrops k f = false) (hc : f.cast = 0)
    (hd : f.dsock ≠ k) (ho : s.onward k f = some (q, st, t, det)) :
    exec (.crossbarFlitArrival k n) s = .next ((s.xTake k n f).xPut k q (s.passOn k st t det f)) := by
  change execCrossbarFlitArrival k n s = _
  simp [execCrossbarFlitArrival, hx, hf, hc, hd, ho]

end

/-! ### Casts (R371) -/

section
variable {s : State} {k tag : Nat} {e : Combine}

/-- The root of a broadcast for line `tag` sends it out when a combining entry is free. -/
theorem exec_multicastSnoop_of_root (hc : (s.combine.filter (fun e => e.sock = k)).length < 1024) (tag : Nat) :
    exec (.multicastSnoop k 7 true 0 tag) s = .next (s.castAt k
      { cls := 1, cast := 2, a := s.isAssured k, dsock := k, ssock := k, part := s.partition k, dstop := 0, sstop := 0, txid := 0,
        tag := tag, hops := 0, vc := 0, dstep := 0, groups := 0, count := 0, plan := [], time := s.time } none none) := by
  change execMulticastSnoop k 7 true 0 tag s = _
  rw [execMulticastSnoop, if_neg (Nat.not_le.mpr hc)]
  rfl

/-- A flue at which nothing has come in has no cast to send on. -/
theorem exec_multicastSnoop_of_empty {n : Nat} (hc : (s.combine.filter (fun e => e.sock = k)).length < 1024) (hn : n ≠ 7)
    (hi : cellGet [] s.xin (flueKey k n) = []) (tag : Nat) : exec (.multicastSnoop k n true 0 tag) s = .next s := by
  change execMulticastSnoop k n true 0 tag s = _
  rw [execMulticastSnoop, if_neg (Nat.not_le.mpr hc), if_neg hn, hi, xNext_nil]

/-- At the root the sum of the acknowledgements goes to the requester. -/
theorem exec_combinedAck_of_root {t : Txn} (he : s.combine.find? (fun e => e.sock = k && e.tag = tag) = some e) (hl : e.left = [])
    (hf : e.frm = none) (ht : s.txn tag = some t) :
    exec (.combinedAck k tag) s = .next ({ s with combine := s.combine.erase e }.say .ack tag k t.req.frm e.count) := by
  have hu : ({ s with combine := s.combine.erase e } : State).txn tag = some t := ht
  change execCombinedAck k tag s = _
  simp [execCombinedAck, he, hl, hf, hu]

/-- While a branch is silent the sum waits. -/
theorem exec_combinedAck_of_left (he : s.combine.find? (fun e => e.sock = k && e.tag = tag) = some e) (hl : e.left ≠ []) :
    exec (.combinedAck k tag) s = .next s := by
  change execCombinedAck k tag s = _
  simp [execCombinedAck, he, hl]

end

/-! ### Time and peers (R387, R389) -/

section
variable {s : State} {k n m psock pflue : Nat} {small : Bool}

/-- The lowest running socket of the fabric becomes master, unless another already is. -/
theorem exec_syncMasterChange_of_lowest (hm : (s.fabric k).find? s.up = some m)
    (hn : ¬(s.rd Reg.chimSyncMaster { sock := k } = m ∧ m ≠ k)) :
    exec (.syncMasterChange k) s = .next (s.wrs { sock := k }
      [(Reg.chimSyncMaster, m), (Reg.chimSyncDist, if m = k then 0 else 31), (Reg.chimSyncLocked, if m = k then 1 else 0)]) := by
  change execSyncMasterChange k s = _
  simp [execSyncMasterChange, hm, hn]

/-- What IDENT leaves at a flue: its peer, and a socket that has begun discovery. -/
def State.peerKnown (s : State) (k n psock pflue : Nat) : State :=
  ((s.wr Reg.flueStatePeerSock (flueIx k n) psock).wr Reg.flueStatePeerFlue (flueIx k n) pflue).wrIf
    (s.rd Reg.chimDiscState { sock := k } = 0) Reg.chimDiscState { sock := k } 1

/-- IDENT at a flue that is up names its peer, and refuses the flue when the peer is of the other family. -/
theorem exec_ident_of_up (hl : s.link k n = 2) :
    exec (.ident k n psock pflue small) s = .next (if small = decide (s.part k = .eq128l) then s.peerKnown k n psock pflue
      else ((s.peerKnown k n psock pflue).wr Reg.flueStateLink (flueIx k n) 4).wr Reg.flueStateRefuse (flueIx k n) 1) := by
  have hrd : ((s.wr Reg.flueStatePeerSock (flueIx k n) psock).wr Reg.flueStatePeerFlue (flueIx k n) pflue).rd Reg.chimDiscState
      { sock := k } = s.rd Reg.chimDiscState { sock := k } :=
    (State.rd_wr_field _ _ _ _ (by decide) (by decide) (by decide)).trans (State.rd_wr_field _ _ _ _ (by decide) (by decide) (by decide))
  have hpart : (s.peerKnown k n psock pflue).part k = s.part k := by
    unfold State.peerKnown State.wrIf
    split <;> rfl
  change execIdent k n psock pflue small s = _
  unfold execIdent
  dsimp only
  rw [if_neg (not_not_intro hl), hrd]
  change Host.Outcome.next (if small == decide ((s.peerKnown k n psock pflue).part k = .eq128l) then s.peerKnown k n psock pflue else _) = _
  simp only [hpart, beq_iff_eq]
  rfl

end

/-! ### Two sockets of one identity (R37) -/

/-- A field whose reset value is the same everywhere reads as what was written wherever its key is the one written. -/
theorem State.rd_wr_uniform (s : State) {f : Fld} {d : Nat} (hr : f.rst = .val d) (a a' : Ix) (v : Nat) :
    (s.wr f a v).rd f a' = if regKey f a' = regKey f a then v % 2 ^ f.w else s.rd f a' := by
  simp only [State.rd, State.wr, fldReset, hr, cellGet_set]

/-- One end of a flue refused because of a duplicate identity. -/
def State.refuseDup (s : State) (k n : Nat) : State :=
  (s.wr Reg.flueStateLink (flueIx k n) 4).wr Reg.flueStateRefuse (flueIx k n) 2

/-- The flue end shows that it is refused so. -/
def State.DupRefused (s : State) (k n : Nat) : Prop := s.link k n = 4 ∧ s.rd Reg.flueStateRefuse (flueIx k n) = 2

/-- A flue of socket `k` that is up refused at both ends. -/
def State.refuseFlue (s : State) (k n : Nat) : State :=
  if s.link k n = 2 then (s.refuseDup k n).refuseDup (s.peer k n).1 (s.peer k n).2 else s

section
variable {s t : State} {k n x y : Nat}

/-- Whether two places share their key is the same for both fields. -/
theorem regKey_refuse_iff (a a' : Ix) :
    regKey Reg.flueStateRefuse a' = regKey Reg.flueStateRefuse a ↔ regKey Reg.flueStateLink a' = regKey Reg.flueStateLink a := by
  unfold regKey
  omega

theorem State.link_refuseDup (s : State) (k n x y : Nat) : (s.refuseDup x y).link k n =
    if regKey Reg.flueStateLink (flueIx k n) = regKey Reg.flueStateLink (flueIx x y) then 4 else s.link k n :=
  (State.rd_wr_field _ _ _ _ (by decide) (by decide) (by decide)).trans (s.rd_wr_uniform rfl _ _ _)

theorem State.refuse_refuseDup (s : State) (k n x y : Nat) : (s.refuseDup x y).rd Reg.flueStateRefuse (flueIx k n) =
    if regKey Reg.flueStateLink (flueIx k n) = regKey Reg.flueStateLink (flueIx x y) then 2
    else s.rd Reg.flueStateRefuse (flueIx k n) := by
  rw [State.refuseDup, State.rd_wr_uniform _ rfl, State.rd_wr_field _ _ _ _ (by decide) (by decide) (by decide)]
  simp only [regKey_refuse_iff]
  rfl

/-- An end refused shows it. -/
theorem State.dupRefused_refuseDup (s : State) (k n : Nat) : (s.refuseDup k n).DupRefused k n := by
  simp [State.DupRefused, State.link_refuseDup, State.refuse_refuseDup]

/-- An end refused stays so whichever end is refused next. -/
theorem State.DupRefused.refuseDup (h : s.DupRefused k n) (x y : Nat) : (s.refuseDup x y).DupRefused k n := by
  obtain ⟨hl, hr⟩ := h
  simp [State.DupRefused, State.link_refuseDup, State.refuse_refuseDup, hl, hr]

/-- An end that is up stays up, or is the one refused. -/
theorem State.upOrRefused_refuseDup (h : s.link k n = 2 ∨ s.DupRefused k n) (x y : Nat) :
    (s.refuseDup x y).link k n = 2 ∨ (s.refuseDup x y).DupRefused k n := by
  obtain hl | hr := h
  · by_cases hk : regKey Reg.flueStateLink (flueIx k n) = regKey Reg.flueStateLink (flueIx x y)
    · exact .inr (by simp [State.DupRefused, State.link_refuseDup, State.refuse_refuseDup, hk])
    · exact .inl (by simp [State.link_refuseDup, hk, hl])
  · exact .inr (hr.refuseDup x y)

theorem State.DupRefused.refuseFlue (h : s.DupRefused k n) (m : Nat) : (s.refuseFlue k m).DupRefused k n := by
  unfold State.refuseFlue
  split
  · exact (h.refuseDup _ _).refuseDup _ _
  · exact h

theorem State.upOrRefused_refuseFlue (h : s.link k n = 2 ∨ s.DupRefused k n) (m : Nat) :
    (s.refuseFlue k m).link k n = 2 ∨ (s.refuseFlue k m).DupRefused k n := by
  unfold State.refuseFlue
  split
  · exact State.upOrRefused_refuseDup (State.upOrRefused_refuseDup h _ _) _ _
  · exact h

/-- The flue itself ends refused. -/
theorem State.dupRefused_refuseFlue (h : s.link k n = 2 ∨ s.DupRefused k n) : (s.refuseFlue k n).DupRefused k n := by
  obtain hl | hr := h
  · rw [State.refuseFlue, if_pos hl]
    exact (s.dupRefused_refuseDup k n).refuseDup _ _
  · exact hr.refuseFlue n

/-- Every listed flue that was up ends refused, also one whose two ends are both this socket's. -/
theorem State.dupRefused_foldl {l : List Nat} (hn : n ∈ l) (h : s.link k n = 2 ∨ s.DupRefused k n) :
    (l.foldl (fun s m => s.refuseFlue k m) s).DupRefused k n := by
  induction l generalizing s with
  | nil => cases hn
  | cons m l ih =>
    obtain rfl | hn := List.mem_cons.mp hn
    · exact List.foldlRecOn (motive := fun t : State => t.DupRefused k n) l _ (State.dupRefused_refuseFlue h)
        fun t ht m _ => ht.refuseFlue m
    · exact ih hn (State.upOrRefused_refuseFlue h m)

/-- Socket `k` held out: its flues that are up are refused at both ends, and the management controller is told. -/
def State.heldOut (s : State) (k : Nat) : State :=
  (((List.range 6).foldl (fun s m => s.refuseFlue k m) s).wr Reg.chimDiscState { sock := k } 3).mgcReason k 4

theorem State.heldOut_discState (s : State) (k : Nat) : (s.heldOut k).rd Reg.chimDiscState { sock := k } = 3 :=
  ((State.reported_mgcReason _ _ _).rd _ _ (by decide) (by decide)).trans (State.rd_wr_same _ _ _ _)

theorem State.heldOut_refused (hn : n < 6) (hl : s.link k n = 2) : (s.heldOut k).DupRefused k n := by
  have hkeep : ∀ f : Fld, f.id < 1024 → f.id ∉ reportFlds → f.id ≠ Reg.chimDiscState.id → (s.heldOut k).rd f (flueIx k n) =
      ((List.range 6).foldl (fun s m => s.refuseFlue k m) s).rd f (flueIx k n) := fun f hf hr hd =>
    ((State.reported_mgcReason _ _ _).rd _ _ hf hr).trans (State.rd_wr_field _ _ _ _ (by decide) hf hd)
  obtain ⟨hlink, hrefuse⟩ := State.dupRefused_foldl (List.mem_range.mpr hn) (.inl hl)
  exact ⟨(hkeep _ (by decide) (by decide) (by decide)).trans hlink, (hkeep _ (by decide) (by decide) (by decide)).trans hrefuse⟩

end

/-! ### The end of discovery (R389, R390) -/

/-- Socket `k` meets another of its identity that joins before it; `dup` tells where R37 orders neither (log entry 12). -/
def State.JoinsLater (s : State) (k : Nat) (dup : Bool) : Prop :=
  ∃ d ∈ s.flood 1024 [k], d ≠ k ∧ s.strap d = s.strap k ∧ s.joinsBefore d k dup = true

section
variable {s : State} {k r : Nat} {dup : Bool} (hd : s.rd Reg.chimDiscState { sock := k } ≠ 2)
include hd

/-- With strapped identities the first of a pair, or a socket alone with its identity, ends discovery. -/
theorem exec_identTableComplete_of_first (hm : s.rd Reg.chimDiscMode { sock := k } = 0) (hl : ¬s.JoinsLater k dup) :
    exec (.identTableComplete k dup) s = .next (s.wr Reg.chimDiscState { sock := k } 2) := by
  have hany : ¬(s.flood 1024 [k]).any (fun d => d ≠ k && s.strap d = s.strap k && s.joinsBefore d k dup) = true := by
    simpa [State.JoinsLater, and_assoc] using hl
  change execIdentTableComplete k dup s = _
  rw [execIdentTableComplete, if_neg hd, if_pos hm, if_neg hany]

/-- The later of a pair is held out. -/
theorem exec_identTableComplete_of_later (hm : s.rd Reg.chimDiscMode { sock := k } = 0) (hl : s.JoinsLater k dup) :
    exec (.identTableComplete k dup) s = .next (s.heldOut k) := by
  have hany : (s.flood 1024 [k]).any (fun d => d ≠ k && s.strap d = s.strap k && s.joinsBefore d k dup) = true := by
    simpa [State.JoinsLater, and_assoc] using hl
  change execIdentTableComplete k dup s = _
  rw [execIdentTableComplete, if_neg hd, if_pos hm, if_pos hany]
  rfl

variable (hm : s.rd Reg.chimDiscMode { sock := k } = 1)
include hm

/-- With assigned identities the one root keeps its own. -/
theorem exec_identTableComplete_of_root (hr : (s.flood 1024 [k]).filter (fun d => s.strap d = 0) = [k]) :
    exec (.identTableComplete k dup) s = .next (s.wr Reg.chimDiscState { sock := k } 2) := by
  change execIdentTableComplete k dup s = _
  simp [execIdentTableComplete, hd, hm, hr]

/-- Another socket takes its place in breadth-first order from the root. -/
theorem exec_identTableComplete_of_place (hr : (s.flood 1024 [k]).filter (fun d => s.strap d = 0) = [r]) (hk : k ≠ r) :
    exec (.identTableComplete k dup) s = .next (((s.wr Reg.rootSocket { sock := k } ((s.flood 1024 [r]).findIdx (· = k))).wr
      Reg.rootRewritten { sock := k } 1).wr Reg.chimDiscState { sock := k } 2) := by
  change execIdentTableComplete k dup s = _
  simp [execIdentTableComplete, hd, hm, hr, hk]

/-- Without a single root discovery stops. -/
theorem exec_identTableComplete_of_noRoot (hr : ((s.flood 1024 [k]).filter (fun d => s.strap d = 0)).length ≠ 1) :
    exec (.identTableComplete k dup) s = .next ((s.wr Reg.chimDiscState { sock := k } 3).mgcReason k 4) := by
  change execIdentTableComplete k dup s = _
  simp only [execIdentTableComplete, hd, hm, if_false, Nat.one_ne_zero]
  split
  · rename_i h
    exact absurd (congrArg List.length h) hr
  · rfl

end

/-! ### Link keys and the start of a partition (R392, R393, R395) -/

section
variable {s : State} {k n p : Nat}

theorem exec_flueKeyAgreed_of_sealed (hs : s.partSealed k p = true) (hr : s.rd Reg.chimPartState { sock := k, i := p } = 2) :
    exec (.flueKeyAgreed k n p) s = .next ((s.keyEnd k n p).keyEnd (s.peer k n).1 (s.peer k n).2 p) := by
  change execFlueKeyAgreed k n p s = _
  simp [execFlueKeyAgreed, hs, hr]

theorem exec_flueKeyEpoch_of_spent (h : (s.flue k n).epoch < (s.flue k n).sent / 2 ^ 32) :
    exec (.flueKeyEpoch k n) s = .next (s.setFlue k n { s.flue k n with epoch := (s.flue k n).epoch + 1 }) :=
  congrArg Host.Outcome.next (if_pos h)

/-- Every socket of partition `p` has come as far as socket `k`, which compares digests. -/
structure State.Comparing (s : State) (k p : Nat) : Prop where
  starting : s.rd Reg.chimPartState { sock := k, i := p } = 1
  step : cellGet 0 s.pstep (k * 64 + p) = 1
  others : ∀ d ∈ s.socksOf k p, s.rd Reg.chimPartState { sock := d, i := p } = 1

/-- Whether socket `d` has socket `k`'s digests of partition `p`. -/
def State.digestAgrees (s : State) (k p d : Nat) : Bool :=
  decide (digestWords (fun f a => s.rd f a) d p = digestWords (fun f a => s.rd f a) k p)

/-- The comparison takes the start to its keys, or fails it. -/
theorem State.Comparing.exec_cfgdigest (h : s.Comparing k p) : exec (.cfgdigest k p) s =
    .next (if (s.socksOf k p).all (s.digestAgrees k p) then { s with pstep := cellSet 0 s.pstep (k * 64 + p) 2 }
      else s.startFails k p 0x09) := by
  have hgo : ¬(decide (s.rd Reg.chimPartState { sock := k, i := p } ≠ 1) || decide (cellGet 0 s.pstep (k * 64 + p) ≠ 1)) = true := by
    simp [h.starting, h.step]
  have hall : ¬(!(s.socksOf k p).all fun d =>
      s.rd Reg.chimPartState { sock := d, i := p } = 1 || s.rd Reg.chimPartState { sock := d, i := p } = 2) = true := by
    simpa using fun d hd hn => absurd (h.others d hd) hn
  have hrun : exec (.cfgdigest k p) s = execCfgdigest k p s := rfl
  rw [hrun, execCfgdigest, if_neg hgo, if_neg hall]
  rfl

theorem State.Comparing.exec_of_agreement (h : s.Comparing k p)
    (hd : ∀ d ∈ s.socksOf k p, digestWords (fun f a => s.rd f a) d p = digestWords (fun f a => s.rd f a) k p) :
    exec (.cfgdigest k p) s = .next { s with pstep := cellSet 0 s.pstep (k * 64 + p) 2 } :=
  h.exec_cfgdigest.trans (congrArg _ (if_pos (List.all_eq_true.mpr fun d hm => decide_eq_true (hd d hm))))

theorem State.Comparing.exec_of_difference (h : s.Comparing k p)
    (hd : ∃ d ∈ s.socksOf k p, digestWords (fun f a => s.rd f a) d p ≠ digestWords (fun f a => s.rd f a) k p) :
    exec (.cfgdigest k p) s = .next (s.startFails k p 0x09) := by
  obtain ⟨d, hm, hne⟩ := hd
  exact h.exec_cfgdigest.trans (congrArg _ (if_neg fun hall => hne (of_decide_eq_true (List.all_eq_true.mp hall d hm))))

section
variable (hp : cellGet 0 s.pstep (k * 64 + p) = 2)
include hp

/-- A partition that is not Sealed needs no keys. -/
theorem exec_partitionKeysAgreed_of_plain (hs : s.partSealed k p = false) (ok : Bool) :
    exec (.partitionKeysAgreed k p ok) s = .next (s.partRuns k p) := by
  change execPartitionKeysAgreed k p ok s = _
  simp [execPartitionKeysAgreed, hp, hs]

theorem exec_partitionKeysAgreed_of_refused (hs : s.partSealed k p = true) :
    exec (.partitionKeysAgreed k p false) s = .next (s.startFails k p 0x0A) := by
  change execPartitionKeysAgreed k p false s = _
  simp [execPartitionKeysAgreed, hp, hs]

theorem exec_partitionKeysAgreed_of_sealed (hs : s.partSealed k p = true) :
    exec (.partitionKeysAgreed k p true) s = .next (((List.range 6).foldl (fun s n => s.keyEnd k n p) s).partRuns k p) := by
  change execPartitionKeysAgreed k p true s = _
  simp [execPartitionKeysAgreed, hp, hs]

end

end

/-- Settles O38: clause by clause, by the lemma above about its command. -/
theorem crossbar_and_fabric_results : Obligations.crossbar_and_fabric_results := by
  refine ⟨fun k n h seq tag ssock sstop txid s => ⟨exec_actionEndAbandon_of_unreached, exec_actionEndAbandon_of_action, ?codeword,
    fun hl hm hu a b c d m => exec_controlSlotReceive_of_master hl hm hu a b c d m tag, exec_crossbarFlitArrival_of_empty,
    fun f hx => ⟨?unlisted, ?strange, ?listed⟩,
    ⟨_, rfl, cellGet_set_same _ _ _ _, rfl, rfl⟩, (exec_multicastSnoop_of_root · tag), (exec_multicastSnoop_of_empty · · · tag),
    fun e t => exec_combinedAck_of_root, fun e => exec_combinedAck_of_left⟩,
    fun k n p m psock pflue small dup s => ⟨exec_syncMasterChange_of_lowest, exec_ident_of_up, fun hd => ⟨?strapped, ?assigned⟩, rfl,
      exec_flueKeyAgreed_of_sealed, exec_flueKeyEpoch_of_spent, ?digests, ?keys⟩⟩
  case codeword =>
    intro hl hp e fs ho
    have hre : s.Resends k n _ e fs := ⟨hl, hp, rfl, ho⟩
    exact ⟨fun hseq _ => hre.accepted hseq, hre.badCrc⟩
  case unlisted => exact fun hv => exec_crossbarFlitArrival_of_dropped hx (State.fwDrops_of_unlisted hv)
  case strange => exact fun hd hc hp => exec_crossbarFlitArrival_of_dropped hx (State.fwDrops_of_strange hd hc hp)
  case listed =>
    intro hv hp hc
    refine ⟨fun hd hpart => ?_, fun q st t det hd => ?_⟩
    · have hf := State.fwDrops_of_listed hv hp fun _ => hpart
      exact ⟨exec_crossbarFlitArrival_of_mesh hx hf hc hd, exec_crossbarFlitArrival_of_request hx hf hc hd⟩
    · exact exec_crossbarFlitArrival_of_onward hx (State.fwDrops_of_listed hv hp (absurd · hd)) hc hd
  case strapped =>
    exact fun hm => ⟨exec_identTableComplete_of_first hd hm, fun hl => ⟨_, exec_identTableComplete_of_later hd hm hl,
      s.heldOut_discState k, fun n hn => State.heldOut_refused hn⟩⟩
  case assigned =>
    exact fun hm => ⟨fun r hr => ⟨fun hk => exec_identTableComplete_of_root hd hm (hk ▸ hr),
      exec_identTableComplete_of_place hd hm hr⟩, exec_identTableComplete_of_noRoot hd hm⟩
  case digests =>
    intro hstart hstep hall
    have hc : s.Comparing k p := ⟨hstart, hstep, hall⟩
    exact ⟨hc.exec_of_agreement, hc.exec_of_difference⟩
  case keys =>
    exact fun hp => ⟨exec_partitionKeysAgreed_of_plain hp, fun hs =>
      ⟨exec_partitionKeysAgreed_of_refused hp hs, exec_partitionKeysAgreed_of_sealed hp hs⟩⟩

end Sys2Proof.Machine

/-! ## Write-backs, snoops and a home's answers -/

namespace Sys2Proof.Machine

/-! ### A message sent or taken off the fabric -/

@[simp] theorem State.say_core (s : State) (k : MsgK) (ln src dst n c : Nat) : (s.say k ln src dst n).core c = s.core c := rfl

@[simp] theorem State.say_held (s : State) (k : MsgK) (ln src dst n : Nat) : (s.say k ln src dst n).held = s.held := rfl

@[simp] theorem State.took_txn (s : State) (m : Msg) (ln : Nat) : (s.took m).txn ln = s.txn ln := rfl

/-! ### Write-backs and evictions (R296, R307) -/

/-- Core `c`'s modified line written home, its copy and its slice's kept clean (WB with KEEP). -/
def State.cleanedKept (s : State) (c ln : Nat) : State :=
  ((s.updCore c (fun k => k.setL2 ln (some .S))).wroteHome ln).slicePut (coreSock c) ln

section
variable {s : State} {c pa h o : Nat}

/-- A write-back is answered WBACK, and one from another sender than the line's owner does nothing else. -/
theorem exec_wb_of_stranger (hh : s.homeFor c (lineOf pa) = .dram h o) (hn : (s.core c).l2st (lineOf pa) ≠ some .M) (keep : Bool) :
    exec (.wb c pa keep) s = .next (s.say .wback (lineOf pa) h c 0) := by
  change execWb c pa keep s = _
  simp [execWb, hh, hn]

/-- The owner of a line that no region holds gives it up. -/
theorem exec_wb_of_owner (hh : s.homeFor c (lineOf pa) = .dram h o) (ho : (s.core c).l2st (lineOf pa) = some .M)
    (hheld : cellGet none s.held (lineOf pa) = none) :
    exec (.wb c pa false) s = .next ((s.say .wback (lineOf pa) h c 0).evict c (lineOf pa)) := by
  change execWb c pa false s = _
  simp [execWb, hh, ho, hheld]

/-- With KEEP the owner stays a sharer: of another home the only recorded one, at home of no record. -/
theorem exec_wb_keep (hh : s.homeFor c (lineOf pa) = .dram h o) (ho : (s.core c).l2st (lineOf pa) = some .M) :
    let x := (s.say .wback (lineOf pa) h c 0).cleanedKept c (lineOf pa)
    exec (.wb c pa true) s = .next (if coreSock c = h then (x.setBits (lineOf pa) .none).sfShare (lineOf pa)
      else { (x.setBits (lineOf pa) .shared).sfShare (lineOf pa) with
        rsc := cellSet none x.rsc (lineOf pa) (some (.p false [coreSock c])) }) := by
  change execWb c pa true s = _
  simp [execWb, hh, ho, State.cleanedKept]

/-- A clean copy is given up unless a region holds the line (R296, R315). -/
theorem exec_ev_of_clean (hc : (s.core c).l2st (lineOf pa) = some .E ∨ (s.core c).l2st (lineOf pa) = some .S) :
    exec (.ev c pa) s = .next (if (cellGet none s.held (lineOf pa)).isSome then s else s.evict c (lineOf pa)) := by
  change execEv c pa s = _
  obtain hc | hc := hc <;> simp [execEv, hc]

end

/-! ### The release of a held line (R310, R315, R316) -/

section
variable {s : State} {c pa h o w : Nat} {e : HeldE} {r : Req}

/-- A line that another core holds stays held. -/
theorem exec_unlock_of_other (he : cellGet none s.held (lineOf pa) = some e) (hn : e.holder ≠ c) : exec (.unlock c pa) s = .next s := by
  change execUnlock c pa s = _
  unfold execUnlock
  cases hh : s.homeFor c (lineOf pa) <;> simp [he, hh, hn]

/-- A holder without a region releases the line to the next request that waits for it. -/
theorem exec_unlock_of_unawaited (hh : s.homeFor c (lineOf pa) = .dram h o) (he : cellGet none s.held (lineOf pa) = some e)
    (hc : e.holder = c) (hr : (s.core c).region = none) (hw : e.waiter = none) :
    exec (.unlock c pa) s = .next (State.serveNext { s with held := cellErase s.held (lineOf pa) } h (lineOf pa)) := by
  change execUnlock c pa s = _
  simp [execUnlock, hh, he, hc, hr, hw]

/-- The request that a recorded retrier is to send again goes before any that waits. -/
theorem exec_unlock_of_awaited (hh : s.homeFor c (lineOf pa) = .dram h o) (he : cellGet none s.held (lineOf pa) = some e)
    (hc : e.holder = c) (hr : (s.core c).region = none) (hw : e.waiter = some w)
    (hf : s.retried.find? (fun r => r.frm = w && r.ln = lineOf pa) = some r) :
    exec (.unlock c pa) s =
      .next (State.atHome { s with held := cellErase s.held (lineOf pa), retried := s.retried.erase r } h r) := by
  change execUnlock c pa s = _
  simp [execUnlock, hh, he, hc, hr, hw, hf]

end

/-! ### Snoops (R307, Table HRTH-3) -/

/-- A snoop of a busy line is answered as its kind `f` says. -/
theorem State.snooped_of_heard {s : State} {k : MsgK} {d pa : Nat} {m : Msg} {t : Txn} (ht : s.txn (lineOf pa) = some t)
    (f : Msg → Txn → State → State) (hm : s.heard k (lineOf pa) d none = some m) : s.snooped k d pa f = f m t (s.took m) := by
  simp [State.snooped, hm, ht]

/-- Settles O40: each command by the lemma about it, each snoop by the answer its kind gives (`State.snooped_of_heard`). -/
theorem snoop_and_writeback_results : Obligations.snoop_and_writeback_results := by
  refine ⟨fun c pa h s => ⟨fun o hh => ⟨exec_wb_of_stranger hh, exec_wb_of_owner hh, ?kept, fun e => exec_unlock_of_unawaited hh,
      fun e w r => exec_unlock_of_awaited hh⟩, ?evicted, fun e => exec_unlock_of_other⟩, fun d pa m t s ht _ => ?snoops⟩
  case kept =>
    exact fun ho => ⟨fun hq => (exec_wb_keep hh ho).trans (congrArg _ (if_pos hq)),
      fun hq => (exec_wb_keep hh ho).trans (congrArg _ (if_neg hq))⟩
  case evicted =>
    intro hc
    refine ⟨fun hn => (exec_ev_of_clean hc).trans ?_, fun e he => (exec_ev_of_clean hc).trans ?_⟩
    · rw [hn]
      rfl
    · rw [he]
      rfl
  case snoops =>
    have answers {k : MsgK} (f : Msg → Txn → State → State) (hm : s.heard k (lineOf pa) d none = some m) :=
      congrArg (Host.Outcome.next (φ := Fault) (ρ := Refusal)) (State.snooped_of_heard ht f hm)
    exact ⟨answers _, fun hm hno => (answers _ hm).trans (congrArg _ (if_neg (by simp [hno]))),
      fun hm ho => (answers _ hm).trans (congrArg _ (if_pos ho)), answers _, answers _, answers _⟩

end Sys2Proof.Machine

/-! ## A transaction's answers, at the home and at the requester -/

namespace Sys2Proof.Machine

/-! ### At the home (R305, R307) -/

section
variable {s : State} {h d pa x : Nat} {m : Msg} {t : Txn}

/-- A socket's answer to a maintenance request is waited for no longer, and the last one finishes it. -/
theorem exec_srsp_of_cmo (ht : s.txn (lineOf pa) = some t) (hm : s.heard .srsp (lineOf pa) h (some d) = some m)
    (hk : t.req.k = .cmo x) :
    let w := (s.took m).updTxn (lineOf pa) (fun t => { t with wait := t.wait.filter (· ≠ d) })
    exec (.srsp h d pa) s =
      .next (if (t.wait.filter (· ≠ d)).isEmpty then (w.finishHome h t.req).serveNext h (lineOf pa) else w) := by
  change execSrsp h d pa s = _
  simp only [execSrsp, hm, ht, hk]

/-- A read whose owner answers that it holds nothing is served from memory. -/
theorem exec_srsp_of_read (ht : s.txn (lineOf pa) = some t) (hm : s.heard .srsp (lineOf pa) h (some d) = some m)
    (hk : t.req.k = .rds ∨ t.req.k = .rd) (hn : m.n = 2) : exec (.srsp h d pa) s = .next ((s.took m).memRead h t.req) := by
  change execSrsp h d pa s = _
  obtain hk | hk := hk <;> simp [execSrsp, hm, ht, hk, hn]

/-- Memory's bits tell the home nothing more about a request that does not ask for ownership. -/
theorem exec_bitsReadToHome_of_other (ht : s.txn (lineOf pa) = some t) (hm : s.heard .bits (lineOf pa) h none = some m)
    (hk : t.req.k.isOwn = false) : exec (.bitsReadToHome h pa) s = .next (s.took m) := by
  change execBitsReadToHome h pa s = _
  simp [execBitsReadToHome, hm, ht, hk]

/-- For ownership each socket that the bits make the home snoop is sent SNPI, and the requester the GNT with their number. -/
theorem exec_bitsReadToHome_of_own (ht : s.txn (lineOf pa) = some t) (hm : s.heard .bits (lineOf pa) h none = some m)
    (hk : t.req.k.isOwn = true) (hb : ((s.took m).snoopSet h t.req.frm (lineOf pa) (dirBitsOf m.n)).2 = false) :
    let l := ((s.took m).snoopSet h t.req.frm (lineOf pa) (dirBitsOf m.n)).1
    exec (.bitsReadToHome h pa) s = .next ((((s.took m).sayAll .snpi (lineOf pa) h l).rscOwn h (lineOf pa) (reqSock t.req.frm)).say .gnt
      (lineOf pa) h t.req.frm l.length) := by
  change execBitsReadToHome h pa s = _
  simp [execBitsReadToHome, hm, ht, hk, hb]

end

/-! ### At the requester (R309, R310) -/

section
variable {s : State} {k : MsgK} {f pa h o : Nat} {m : Msg} {t : Txn} {r : Req}

/-- A message that a requester waits for changes its transaction. -/
theorem State.received_of_heard (ht : s.txn (lineOf pa) = some t) (hf : t.req.frm = f) (g : Msg → Txn → Txn) (u : State → State)
    (hm : s.heard k (lineOf pa) f none = some m) : s.received k f pa g u = u ((s.took m).updTxn (lineOf pa) (g m)) := by
  simp [State.received, hm, ht, hf]

/-- A message kept for nothing more is taken off the fabric. -/
theorem State.consume_of_heard (hm : s.heard k (lineOf pa) f none = some m) : s.consume k f pa = s.took m := by
  simp [State.consume, hm]

/-- FIN ends the transaction of a requester that has everything, and only that. -/
theorem exec_fin_of_requester (ht : s.txn (lineOf pa) = some t) (hf : t.req.frm = f) :
    exec (.fin f pa) s = .next (if t.complete then (s.endTxn (lineOf pa)).serveNext t.home (lineOf pa) else s) := by
  change execFin f pa s = _
  simp [execFin, ht, hf]

/-- CMP ends the transaction of its requester. -/
theorem exec_cmp_of_requester (ht : s.txn (lineOf pa) = some t) (hf : t.req.frm = f)
    (hm : s.heard .cmp (lineOf pa) f none = some m) :
    exec (.cmp f pa) s = .next (((s.took m).endTxn (lineOf pa)).serveNext t.home (lineOf pa)) := by
  change execCmp f pa s = _
  simp [execCmp, hm, ht, hf]

/-- A request answered RETRY goes to its home again as it was, its age with it (R310). -/
theorem exec_retryReissue_of_retried (hr : s.retried.find? (fun r => r.frm = f && r.ln = lineOf pa) = some r)
    (hh : s.homeFor f r.ln = .dram h o) :
    exec (.retryReissue f pa) s = .next (State.atHome { s with retried := s.retried.erase r } h r) := by
  change execRetryReissue f pa s = _
  simp [execRetryReissue, hr, hh]

end

/-! ### The atomic buffer (R313) -/

/-- A buffered line leaves its slice's buffer, its value in memory as it was. -/
theorem State.unbuffer_of_buffered {s : State} {h ln : Nat} (hb : s.buffered h ln = true) :
    cellGet [] (s.unbuffer h ln).abuf (slKey h (s.sliceFor h (ln * 64))) =
      (cellGet [] s.abuf (slKey h (s.sliceFor h (ln * 64)))).filter (· ≠ ln) ∧ (s.unbuffer h ln).mem = s.mem := by
  rw [State.unbuffer, if_pos hb]
  exact ⟨cellGet_set_same _ _ _ _, rfl⟩

/-- Settles O41: each message by the lemma about it; what the requester records by `State.received_of_heard`. -/
theorem home_and_requester_results : Obligations.home_and_requester_results := by
  refine ⟨fun h d pa m t s ht => ⟨fun hm ⟨x, hk⟩ => exec_srsp_of_cmo ht hm hk, exec_srsp_of_read ht, exec_bitsReadToHome_of_other ht,
      exec_bitsReadToHome_of_own ht⟩,
    fun f pa h m t s => ⟨?waiting, ?atres, ?wback, ?retry, fun r o => exec_retryReissue_of_retried, ?buffered⟩⟩
  case waiting =>
    intro ht hf
    have records {k : MsgK} (g : Msg → Txn → Txn) (u : State → State) (hm : s.heard k (lineOf pa) f none = some m) :=
      congrArg (Host.Outcome.next (φ := Fault) (ρ := Refusal)) (State.received_of_heard ht hf g u hm)
    exact ⟨records _ _, records _ _, records _ _, records _ _, records _ _, records _ _,
      fun hc => (exec_fin_of_requester ht hf).trans (congrArg _ (if_pos hc)),
      fun hc => (exec_fin_of_requester ht hf).trans (congrArg _ (if_neg (by simp [hc]))), exec_cmp_of_requester ht hf⟩
  case atres => exact fun hm => congrArg _ (State.consume_of_heard hm)
  case wback => exact fun hm => congrArg _ (State.consume_of_heard hm)
  case retry => exact fun hm => congrArg _ (State.consume_of_heard hm)
  case buffered => exact fun hb => ⟨_, rfl, State.unbuffer_of_buffered hb⟩

end Sys2Proof.Machine

/-! ## The retirement of a slice -/

namespace Sys2Proof.Machine

/-! ### The record of a retirement -/

@[simp] theorem State.retiring_setRetire (s : State) (k : Nat) (r : Option Retire) : (s.setRetire k r).retiring k = r :=
  cellGet_set_same _ _ _ _

@[simp] theorem State.setRetire_rd (s : State) (k : Nat) (r : Option Retire) (f : Fld) (a : Ix) : (s.setRetire k r).rd f a = s.rd f a := rfl

/-- The fields of HRTH.MIG in which a socket shows the retirement that runs and how many wait. -/
def migFlds : List Nat := [Reg.hrthMigSlice, Reg.hrthMigActive, Reg.hrthMigSrcfail, Reg.hrthMigQueued].map Fld.id

section
variable {s : State} {f : Fld}

theorem State.rd_wr_mig {g : Fld} (hg : g.id ∈ migFlds) (hf : f.id < 1024) (hn : f.id ∉ migFlds) (a a' : Ix) (v : Nat) :
    (s.wr g a v).rd f a' = s.rd f a' := by
  have hlt : ∀ n ∈ migFlds, n < 1024 := by decide
  exact s.rd_wr_field a a' v (hlt _ hg) hf (fun h => hn (h ▸ hg))

/-- A retirement that begins is shown in those fields only. -/
theorem State.startRetire_rd (hf : f.id < 1024) (hn : f.id ∉ migFlds) (k sl : Nat) (fail : Bool) (q : List (Nat × Bool)) (a : Ix) :
    (s.startRetire k sl fail q).rd f a = s.rd f a := by
  rw [State.startRetire, State.setRetire_rd, State.rd_wr_mig (by decide) hf hn, State.rd_wr_mig (by decide) hf hn,
    State.rd_wr_mig (by decide) hf hn, State.rd_wr_mig (by decide) hf hn]

/-- So is the end of one, whether or not another waits. -/
theorem State.retireOver_rd (hf : f.id < 1024) (hn : f.id ∉ migFlds) (k : Nat) (r : Retire) (a : Ix) :
    (s.retireOver k r).rd f a = s.rd f a := by
  have hend : (((s.actEnd k actSlice).wr Reg.hrthMigActive { sock := k } 0).wr Reg.hrthMigSrcfail { sock := k } 0).rd f a = s.rd f a := by
    rw [State.rd_wr_mig (by decide) hf hn, State.rd_wr_mig (by decide) hf hn]
    rfl
  unfold State.retireOver
  cases r.queue with
  | nil => exact hend
  | cons e t => exact (State.startRetire_rd hf hn k e.1 e.2 t a).trans hend

end

/-! ### A retirement asked for (R317, R320) -/

section
variable {s : State} {k sl : Nat}

/-- With no retirement under way, a slice that serves beside another begins its own at once. -/
theorem State.retireReq_of_idle (hl : s.sliceLive k sl = true) (hn : 1 < (s.liveSlices k).length) (hr : s.retiring k = none) (fail : Bool) :
    s.retireReq k sl fail = s.startRetire k sl fail [] := by
  simp [State.retireReq, hl, hn, hr]

/-- A slice that fails then is retired as failed. -/
theorem State.sliceFailed_of_idle (hn : 1 < (s.liveSlices k).length) (hr : s.retiring k = none) :
    s.sliceFailed k sl = s.retireReq k sl true := by
  simp [State.sliceFailed, hn, hr]

/-- No step is taken of a retirement that does not run (log entry 13). -/
theorem exec_of_noRetirement (hr : s.retiring k = none) :
    ∀ i ∈ ([.sliceRetireStart k, .bucketMark k, .bucketTxnsDone k, .sliceRetired k, .rebuildDone k] : List Instr), exec i s = .next s := by
  intro i hi
  obtain rfl | rfl | rfl | rfl | rfl : i = .sliceRetireStart k ∨ i = .bucketMark k ∨ i = .bucketTxnsDone k ∨ i = .sliceRetired k ∨
    i = .rebuildDone k := by simpa using hi
  · change execSliceRetireStart k s = _
    simp [execSliceRetireStart, hr]
  · change execBucketMark k s = _
    simp [execBucketMark, hr]
  · change execBucketTxnsDone k s = _
    simp [execBucketTxnsDone, hr]
  · change execSliceRetired k s = _
    simp [execSliceRetired, hr]
  · change execRebuildDone k s = _
    simp [execRebuildDone, hr]

end

/-! ### The steps of a retirement (Table HRTH-5) -/

/-- A bucket that moves is given up: the optimistic regions with a line of it abort, and its slice's data-array lines go. -/
def State.bucketLeft (s : State) (k b : Nat) : State :=
  let u := s.abortMembers (fun ln => s.inBucket k ln (fun x => x = b))
  u.sliceClear (fun q ln => q = k && u.bucket k (ln * 64) = b)

theorem State.abortMembers_mem (s : State) (p : Nat → Bool) : (s.abortMembers p).mem = s.mem := by
  refine foldl_mem (fun u e => ?_) s.cores s
  split
  · split <;> rfl
  · rfl

/-- A bucket is given up without a byte of memory changed. -/
theorem State.bucketLeft_mem (s : State) (k b : Nat) : (s.bucketLeft k b).mem = s.mem := s.abortMembers_mem _

/-- A slice without buckets shown as RETIRED, and as failed if it was, with an entry in the Ashpan (step 6). -/
def State.shownRetired (s : State) (k : Nat) (r : Retire) : State :=
  let a : Ix := { sock := k, i := r.slice }
  let u := (s.wr Reg.hrthSliceRetired a 1).wr Reg.hrthSliceFailed a (if r.fail then 1 else 0)
  u.ash k { cls := 2, src := 0x10, inst := r.slice, code := 0x05, part := u.partition k }

theorem State.shownRetired_retired (s : State) (k : Nat) (r : Retire) :
    (s.shownRetired k r).rd Reg.hrthSliceRetired { sock := k, i := r.slice } = 1 :=
  ((State.reported_ash _ _ _).rd _ _ (by decide) (by decide)).trans
    ((State.rd_wr_field _ _ _ _ (by decide) (by decide) (by decide)).trans (s.rd_wr_same _ _ _))

theorem State.shownRetired_failed (s : State) (k : Nat) (r : Retire) :
    (s.shownRetired k r).rd Reg.hrthSliceFailed { sock := k, i := r.slice } = if r.fail then 1 else 0 := by
  refine (((State.reported_ash _ _ _).rd _ _ (by decide) (by decide)).trans (State.rd_wr_same _ _ _ _)).trans ?_
  split <;> rfl

/-- The requests held back for the bucket that a retirement has moved. -/
def Retire.holdsBack (r : Retire) (s : State) (k : Nat) (q : Req) : Bool := s.inBucket k q.ln (fun b => b = r.bucket)

section
variable {s : State} {k b t : Nat} {bs : List Nat} {r : Retire} (hr : s.retiring k = some r)
include hr

/-- The retirement of a slice that works begins with its atomic buffer written to memory (step 1). -/
theorem exec_sliceRetireStart_of_working (h1 : r.step = 1) (hf : r.fail = false) :
    let u := s.actBegin k actSlice
    exec (.sliceRetireStart k) s = .next (((cellGet [] u.abuf (slKey k r.slice)).foldl (fun s ln => s.unbuffer k ln) u).setRetire k
      (some { r with step := 2 })) := by
  change execSliceRetireStart k s = _
  simp [execSliceRetireStart, hr, h1, hf]

theorem exec_sliceRetireStart_of_failed (h1 : r.step = 1) (hf : r.fail = true) :
    exec (.sliceRetireStart k) s = .next ((s.actBegin k actSlice).sourceFail k r) := by
  change execSliceRetireStart k s = _
  simp [execSliceRetireStart, hr, h1, hf]

/-- The lowest bucket left is marked, its target chosen (step 2). -/
theorem exec_bucketMark_of_bucket (h2 : r.step = 2) (hb : s.bucketsOf k r.slice = b :: bs) (ht : s.retireTarget k r = some t) :
    exec (.bucketMark k) s =
      .next ((s.wr Reg.hrthBucketMig { sock := k, i := b } 1).setRetire k (some { r with step := 3, bucket := b, target := t })) := by
  change execBucketMark k s = _
  simp [execBucketMark, hr, h2, hb, ht]

/-- A marked bucket without transactions is given up (steps 3 and 4). -/
theorem exec_bucketTxnsDone_of_quiet (h3 : r.step = 3)
    (hq : s.txns.any (fun t => t.home = k && s.inBucket k t.req.ln (fun b => b = r.bucket)) = false) :
    exec (.bucketTxnsDone k) s = .next ((s.bucketLeft k r.bucket).setRetire k (some { r with step := 4 })) := by
  change execBucketTxnsDone k s = _
  simp only [execBucketTxnsDone, hr]
  exact congrArg _ (if_neg (by simp [h3, hq]))

/-- The bucket's entry names its target, and what was held back goes on in order (step 5). -/
theorem exec_bucketCopyDone_of_copied (h4 : r.step = 4) :
    let u := ((s.copyRegions k (r.slice / 34) (r.target / 34)).moveBucket k r.bucket r.slice r.target).wr Reg.hrthBucketMig
      { sock := k, i := r.bucket } 0
    exec (.bucketCopyDone k) s = .next (((s.hq.filter (r.holdsBack s k)).foldl (fun (x : State) q => x.atHome k q)
      { u with hq := u.hq.filter (fun q => !r.holdsBack s k q) }).setRetire k (some { r with step := 2, bad := [] })) := by
  change execBucketCopyDone k s = _
  simp only [execBucketCopyDone, hr, h4]
  rfl

/-- A failed target is not tried again for the bucket, which is to be marked anew (step 4b). -/
theorem exec_sliceTargetFail_of_copying (h4 : r.step = 4) :
    exec (.sliceTargetFail k) s = .next ((s.wr Reg.hrthBucketMig { sock := k, i := r.bucket } 0).setRetire k
      (some { r with step := 2, bad := r.bad ++ [r.target] })) := by
  change execSliceTargetFail k s = _
  simp [execSliceTargetFail, hr, h4]

/-- No bucket is copied outside step 4. -/
theorem exec_copy_of_otherStep (h4 : r.step ≠ 4) : exec (.bucketCopyDone k) s = .next s ∧ exec (.sliceTargetFail k) s = .next s := by
  change execBucketCopyDone k s = _ ∧ execSliceTargetFail k s = _
  simp [execBucketCopyDone, execSliceTargetFail, hr, h4]

/-- With no bucket left the slice is shown as RETIRED; whether the action ends or a rebuild still runs is shown in HRTH.MIG only (step 6). -/
theorem exec_sliceRetired_of_empty (h2 : r.step = 2) (hb : s.bucketsOf k r.slice = []) :
    ∃ u : State, exec (.sliceRetired k) s = .next u ∧
      ∀ (f : Fld) (a : Ix), f.id < 1024 → f.id ∉ migFlds → u.rd f a = (s.shownRetired k r).rd f a := by
  have hrun : exec (.sliceRetired k) s = .next (if (s.shownRetired k r).rd Reg.hrthMigRebuild { sock := k } = 1 then
      (s.shownRetired k r).setRetire k (some { r with step := 0 }) else (s.shownRetired k r).retireOver k r) := by
    change execSliceRetired k s = _
    simp only [execSliceRetired, hr]
    exact congrArg _ (if_neg (by simp [h2, hb]))
  refine ⟨_, hrun, fun f a hf hn => ?_⟩
  split
  · exact State.setRetire_rd _ _ _ _ _
  · exact State.retireOver_rd hf hn k r a

end

/-! ### The rebuild (R321, Table HRTH-6) -/

/-- REBUILD and UNK of HRTH.MIG cleared. -/
def State.clearRebuild (s : State) (k : Nat) : State :=
  (s.wr Reg.hrthMigUnk { sock := k } 0).wr Reg.hrthMigRebuild { sock := k } 0

theorem State.clearRebuild_rebuild (s : State) (k : Nat) : (s.clearRebuild k).rd Reg.hrthMigRebuild { sock := k } = 0 :=
  State.rd_wr_same _ _ _ _

theorem State.clearRebuild_unk (s : State) (k : Nat) : (s.clearRebuild k).rd Reg.hrthMigUnk { sock := k } = 0 :=
  (State.rd_wr_field _ _ _ _ (by decide) (by decide) (by decide)).trans (State.rd_wr_same _ _ _ _)

section
variable {s : State} {k d : Nat} {r : Retire} (hr : s.retiring k = some r)
include hr

/-- A socket that has scanned its slices is waited for no longer. -/
theorem exec_flushb_of_awaited (hd : r.left.contains d = true) :
    ∃ u : State, exec (.flushb k d) s = .next (u.setRetire k (some { r with left := r.left.filter (· ≠ d) })) := by
  change ∃ u : State, execFlushb k d s = _
  simp only [execFlushb, hr, hd]
  exact ⟨_, rfl⟩

theorem exec_flushb_of_answered (hd : r.left.contains d = false) : exec (.flushb k d) s = .next s := by
  change execFlushb k d s = _
  simp only [execFlushb, hr, hd]
  rfl

/-- With every answer in, REBUILD and UNK clear, and stay so if the action ends because the slice is retired too. -/
theorem exec_rebuildDone_of_answered (hb : s.rd Reg.hrthMigRebuild { sock := k } = 1) (hl : r.left = []) :
    ∃ u : State, exec (.rebuildDone k) s = .next u ∧ u.rd Reg.hrthMigRebuild { sock := k } = 0 ∧ u.rd Reg.hrthMigUnk { sock := k } = 0 := by
  have hrun : ∃ w : State, exec (.rebuildDone k) s =
      .next (if r.step = 0 then (w.clearRebuild k).retireOver k r else w.clearRebuild k) := by
    change ∃ w : State, execRebuildDone k s = _
    simp only [execRebuildDone, hr, hb, hl]
    exact ⟨_, rfl⟩
  obtain ⟨w, hw⟩ := hrun
  refine ⟨_, hw, ?_⟩
  split
  · exact ⟨(State.retireOver_rd (by decide) (by decide) k r _).trans (w.clearRebuild_rebuild k),
      (State.retireOver_rd (by decide) (by decide) k r _).trans (w.clearRebuild_unk k)⟩
  · exact ⟨w.clearRebuild_rebuild k, w.clearRebuild_unk k⟩

end

/-- Settles O42: each step by the lemma about its command. -/
theorem slice_retirement_results : Obligations.slice_retirement_results := by
  refine fun k sl d r s => ⟨fun hl hn hr => ⟨congrArg _ (State.retireReq_of_idle hl hn hr false), ?sourceFails⟩,
    fun hr => ⟨exec_sliceRetireStart_of_working hr, exec_sliceRetireStart_of_failed hr, fun b bs t => exec_bucketMark_of_bucket hr, ?quiet,
      exec_bucketCopyDone_of_copied hr, exec_sliceTargetFail_of_copying hr, ?retired, ?answers, exec_flushb_of_answered hr,
      exec_rebuildDone_of_answered hr, exec_copy_of_otherStep hr⟩, exec_of_noRetirement⟩
  case sourceFails => exact congrArg _ ((State.sliceFailed_of_idle hn hr).trans (State.retireReq_of_idle hl hn hr true))
  case quiet => exact fun h3 hq => ⟨_, exec_bucketTxnsDone_of_quiet hr h3 hq, State.retiring_setRetire _ _ _, s.bucketLeft_mem k r.bucket⟩
  case retired =>
    intro h2 hb
    obtain ⟨u, hu, hrd⟩ := exec_sliceRetired_of_empty hr h2 hb
    exact ⟨u, hu, (hrd _ _ (by decide) (by decide)).trans (s.shownRetired_retired k r),
      (hrd _ _ (by decide) (by decide)).trans (s.shownRetired_failed k r)⟩
  case answers =>
    intro hd
    obtain ⟨u, hu⟩ := exec_flushb_of_awaited hr hd
    exact ⟨_, hu, State.retiring_setRetire _ _ _⟩

end Sys2Proof.Machine

/-! ## Wait thresholds, profile commits and the mesh -/

namespace Sys2Proof.Machine

/-! ### Wait thresholds (R336) -/

/-- A wait counted, and told to its arbitration point for the length of its episode. -/
def State.starveCounted (s : State) (k kind inst req : Nat) : State :=
  { s.bump Reg.arbStarvecnt { sock := k } with
    arbs := cellSet Arb.idle s.arbs (arbKey k kind inst) { s.arb k kind inst with told := req :: (s.arb k kind inst).told } }

/-- The place of a starved requester latched (Table MESH-8 STARVE). -/
def State.starveLatched (s : State) (k kind inst req : Nat) : State :=
  let a : Ix := { sock := k }
  (((s.wr Reg.arbStarveFlag a 1).wr Reg.arbStarveKind a kind).wr Reg.arbStarveInstance a inst).wr Reg.arbStarveReq a req

section
variable {s : State} {k kind inst req : Nat}

/-- A wait that is counted moves STARVECNT alone of the registers. -/
theorem State.starveCounted_rd {f : Fld} (hf : f.id < 1024) (hn : f.id ≠ Reg.arbStarvecnt.id) (a : Ix) :
    (s.starveCounted k kind inst req).rd f a = s.rd f a :=
  s.rd_bump_field _ a (by decide) hf hn

/-- Latching a place leaves the interrupt's enable. -/
theorem State.starveLatched_stintEn (a : Ix) : (s.starveLatched k kind inst req).rd Reg.arbStintEn a = s.rd Reg.arbStintEn a := by
  dsimp only [State.starveLatched]
  iterate 4 rw [State.rd_wr_field _ _ _ _ (by decide) (by decide) (by decide)]

/-- No kind of arbitration point is numbered above 4. -/
theorem exec_arbStarvation_of_noKind (h : 4 < kind) : exec (.arbStarvation k kind inst req) s = .next s := by
  change execArbStarvation k kind inst req s = _
  simp [execArbStarvation, h]

/-- An episode is reported once. -/
theorem exec_arbStarvation_of_told (h : (s.arb k kind inst).told.contains req = true) :
    exec (.arbStarvation k kind inst req) s = .next s := by
  change execArbStarvation k kind inst req s = _
  refine congrArg _ (if_pos ?_)
  rw [h]
  simp

section
variable (hth : (profOf 5 (s.rd Reg.arbHearthq { sock := k })).thresh ≠ 0) (hnew : (s.arb k 2 inst).told.contains req = false)
include hth hnew

/-- A new episode at a Hearth's queue is counted; if none was latched its place is, and the interrupt raised where it is enabled. -/
theorem exec_arbStarvation_of_hearthq :
    let a : Ix := { sock := k }
    let t := s.starveCounted k 2 inst req
    let u := t.starveLatched k 2 inst req
    exec (.arbStarvation k 2 inst req) s = .next (if t.rd Reg.arbStarveFlag a = 1 then t
      else if u.rd Reg.arbStintEn a = 1 then u.sysVector k (u.rd Reg.arbStintCore a) (u.rd Reg.arbStintVec a) else u) := by
  change execArbStarvation k 2 inst req s = _
  refine congrArg _ (if_neg ?_)
  rw [hnew]
  simp [hth]

/-- A later episode leaves the place of the one latched. -/
theorem exec_arbStarvation_of_latched (hf : s.rd Reg.arbStarveFlag { sock := k } = 1) :
    exec (.arbStarvation k 2 inst req) s = .next (s.starveCounted k 2 inst req) :=
  (exec_arbStarvation_of_hearthq hth hnew).trans
    (congrArg _ (if_pos ((State.starveCounted_rd (by decide) (by decide) _).trans hf)))

/-- The first one is latched with its place. -/
theorem exec_arbStarvation_of_first (hf : s.rd Reg.arbStarveFlag { sock := k } = 0) (he : s.rd Reg.arbStintEn { sock := k } = 0) :
    exec (.arbStarvation k 2 inst req) s = .next ((s.starveCounted k 2 inst req).starveLatched k 2 inst req) := by
  have hflag : (s.starveCounted k 2 inst req).rd Reg.arbStarveFlag { sock := k } ≠ 1 := by
    simp [State.starveCounted_rd (f := Reg.arbStarveFlag) (by decide) (by decide), hf]
  have hen : ((s.starveCounted k 2 inst req).starveLatched k 2 inst req).rd Reg.arbStintEn { sock := k } ≠ 1 := by
    simp [State.starveLatched_stintEn, State.starveCounted_rd (f := Reg.arbStintEn) (by decide) (by decide), he]
  exact (exec_arbStarvation_of_hearthq hth hnew).trans (congrArg _ ((if_neg hflag).trans (if_neg hen)))

end

end

/-! ### Profile commits (R340) -/

section
variable {s : State} {k inst : Nat}

/-- A commit that reaches the ARB block has that block no longer before it. -/
theorem exec_shadowCommitArrival_of_left (h : (cellGet [] s.commitLeft k).contains 0 = true) :
    ∃ t : State, exec (.shadowCommitArrival .arb k inst) s = .next t ∧
      cellGet [] t.commitLeft k = (cellGet [] s.commitLeft k).filter (· ≠ 0) := by
  change ∃ t : State, execShadowCommitArrival .arb k inst s = _ ∧ _
  simp only [execShadowCommitArrival, h]
  exact ⟨_, rfl, cellGet_set_same _ _ _ _⟩

theorem exec_shadowCommitArrival_of_reached (h : (cellGet [] s.commitLeft k).contains 0 = false) :
    exec (.shadowCommitArrival .arb k inst) s = .next s := by
  change execShadowCommitArrival .arb k inst s = _
  simp only [execShadowCommitArrival, h]
  rfl

/-- A commit with a block before it is not over. -/
theorem exec_arbCommitDone_of_left (h : cellGet [] s.commitLeft k ≠ []) : exec (.arbCommitDone k) s = .next s := by
  change execArbCommitDone k s = _
  simp [execArbCommitDone, h]

/-- A commit that has reached every block is over; one that is queued starts. -/
theorem exec_arbCommitDone_of_reached (hp : s.rd Reg.arbCommitPending { sock := k } = 1) (hl : cellGet [] s.commitLeft k = []) :
    let u := s.wr Reg.arbCommitPending { sock := k } 0
    exec (.arbCommitDone k) s = .next
      (if s.rd Reg.arbCommitQueued { sock := k } = 1 then (u.wr Reg.arbCommitQueued { sock := k } 0).commitSend k else u) := by
  have hq : (s.wr Reg.arbCommitPending { sock := k } 0).rd Reg.arbCommitQueued { sock := k } = s.rd Reg.arbCommitQueued { sock := k } :=
    s.rd_wr_field _ _ _ (by decide) (by decide) (by decide)
  change execArbCommitDone k s = _
  simp [execArbCommitDone, hp, hl, hq]

end

/-! ### A flit at its stop's own input (R323-R327) -/

/-- The flit of a socket's unit at stop `n` for a stop of the same socket. -/
def State.ownFlit (s : State) (k n cls dstop tag : Nat) : Flit :=
  { cls := cls, cast := 0, a := s.isAssured k, dsock := k, ssock := k, part := s.partition k, dstop := dstop, sstop := n, txid := 0, tag := tag,
    hops := 0, vc := 0, dstep := 0, groups := 0, count := 0, plan := [], time := s.time }

section
variable {s : State} {k n cls dstop tag : Nat}

/-- A flit for another stop of its socket has not arrived. -/
theorem State.not_arrived_of_local {f : Flit} (hk : f.dsock = k) (h : stopOut n f.dstop ≠ 4) : s.arrived k n f = false := by
  simp [State.arrived, State.flitStop, hk, h]

variable (hu : s.up k = true) (hw : s.waiting k n = none)
include hu hw

/-- A flit that finds room in its stop's buffer enters it. -/
theorem exec_flitArrival_of_room (hn : n < 308) (hd : dstop < 308) (hs : (s.part k).sends n cls = true) (hp : s.samePart k k = true)
    (hc : cls = 1 ∨ cls = 2) (hr : (s.inBuf k n 4 cls).length < inDepth n 4 cls) (ho : stopOut n dstop ≠ 4) :
    exec (.flitArrival k n 4 0 cls k dstop tag) s = .next (s.setIn k n 4 cls (s.inBuf k n 4 cls ++ [s.ownFlit k n cls dstop tag])) := by
  have hcls : ¬4 < cls ∧ cls ≠ 4 ∧ cls ≠ 3 := by omega
  change execFlitArrival k n 4 0 cls k dstop tag s = _
  simp [execFlitArrival, State.replayFull, State.replayKeep, State.txFull, hu, hw, hs, hp, hcls, ho, State.not_arrived_of_local,
    State.ownFlit, Nat.not_le.2 hn, Nat.not_le.2 hd, Nat.not_le.2 hr]

/-- A flit whose buffer is full is not taken. -/
theorem exec_flitArrival_of_full (hf : inDepth n 4 cls ≤ (s.inBuf k n 4 cls).length) :
    exec (.flitArrival k n 4 0 cls k dstop tag) s = .next s := by
  change execFlitArrival k n 4 0 cls k dstop tag s = _
  simp [execFlitArrival, hu, hw, hf]

end

/-! ### Acknowledgement of data (R347) -/

section
variable {s : State} {k d src : Nat}

theorem exec_dack_of_due (h : 16 ≤ (cellGet [] s.meshDue ((k * 512 + d) * 512 + src)).length) :
    exec (.dack k d src) s = .next (s.dack k d src) :=
  congrArg Host.Outcome.next (if_pos h)

theorem exec_dack_of_few (h : (cellGet [] s.meshDue ((k * 512 + d) * 512 + src)).length < 16) : exec (.dack k d src) s = .next s :=
  congrArg Host.Outcome.next (if_neg (Nat.not_le.2 h))

/-- A refused flit that its source still holds goes out again, ahead of the source's others. -/
theorem exec_dnak_of_held {x : Nat} {t : List Nat} {e : Flit × Nat} (hx : cellGet [] s.meshNak ((k * 512 + d) * 512 + src) = x :: t)
    (he : (cellGet [] s.meshReplay (stopKey k src)).find? (fun e => e.1.tag = x) = some e) :
    let u : State := { s with meshNak := cellSet [] s.meshNak ((k * 512 + d) * 512 + src) t }
    exec (.dnak k d src) s = .next (u.setIn k src 4 3 ({ e.1 with time := s.time } :: u.inBuf k src 4 3)) := by
  change execDnak k d src s = _
  simp only [execDnak, hx, he]

end

/-! ### Failing links (R346, R348) -/

/-- A lane repair counted and recorded leaves the socket's partition. -/
theorem State.partition_meshRepaired (s : State) (k n port : Nat) (l : MLink) :
    (((s.bump Reg.meshErrLanerep { sock := k }).meshLast k n port 3).setMlink k n port l).partition k = s.partition k := by
  change ((((s.bump Reg.meshErrLanerep { sock := k }).wr Reg.meshErrLastStop { sock := k } n).wr Reg.meshErrLastPort { sock := k } port).wr
    Reg.meshErrLastKind { sock := k } 3).rd Reg.chimDestPart { sock := k, i := k } = _
  iterate 3 rw [State.rd_wr_field _ _ _ _ (by decide) (by decide) (by decide)]
  exact s.rd_bump_field _ _ (by decide) (by decide) (by decide)

section
variable {s : State} {k n port : Nat}

/-- A bridge refused eight times is to be repaired. -/
theorem exec_meshLinkFailing_of_bridge (hr : (s.mlink k n port).refused = 8) (hg : (s.mlink k n port).st = 0)
    (hb : isBridge n port = true) :
    exec (.meshLinkFailing k n port) s = .next (s.setMlink k n port { s.mlink k n port with st := 1 }) := by
  change execMeshLinkFailing k n port s = _
  simp [execMeshLinkFailing, hr, hg, hb]

/-- Any other link refused eight times fails, and the socket with it. -/
theorem exec_meshLinkFailing_of_plain (hr : (s.mlink k n port).refused = 8) (hg : (s.mlink k n port).st = 0)
    (hb : isBridge n port = false) :
    exec (.meshLinkFailing k n port) s = .next ((s.meshLast k n port 4).socketFail k 0x20 n (meshLastWord n port 4)) := by
  change execMeshLinkFailing k n port s = _
  simp [execMeshLinkFailing, hr, hg, hb]

theorem exec_bridgeLaneRepair_of_failing (h : (s.mlink k n port).st = 1) :
    exec (.bridgeLaneRepair k n port) s = .next (s.setMlink k n port { s.mlink k n port with st := 2 }) :=
  congrArg Host.Outcome.next (if_pos h)

/-- A repair that helps is counted, recorded and reported, and the link carries flits again. -/
theorem exec_bridgeRepairDone_of_repaired (h : (s.mlink k n port).st = 2) :
    exec (.bridgeRepairDone k n port true) s = .next ((((s.bump Reg.meshErrLanerep { sock := k }).meshLast k n port 3).setMlink k n port
      { refused := 0, st := 0 }).ash k
      { cls := 2, src := 0x20, inst := n, code := 0x06, part := s.partition k, d4 := meshLastWord n port 3 }) := by
  change execBridgeRepairDone k n port true s = _
  simp [execBridgeRepairDone, h, State.partition_meshRepaired]

/-- After one that does not the socket fails. -/
theorem exec_bridgeRepairDone_of_failed (h : (s.mlink k n port).st = 2) :
    exec (.bridgeRepairDone k n port false) s = .next ((s.meshLast k n port 4).socketFail k 0x20 n (meshLastWord n port 4)) := by
  change execBridgeRepairDone k n port false s = _
  simp [execBridgeRepairDone, h]

/-- A link that carries flits is not repaired (log entry 13). -/
theorem exec_repair_of_good (h : (s.mlink k n port).st = 0) (b : Bool) :
    exec (.bridgeLaneRepair k n port) s = .next s ∧ exec (.bridgeRepairDone k n port b) s = .next s := by
  change execBridgeLaneRepair k n port s = _ ∧ execBridgeRepairDone k n port b s = _
  simp [execBridgeLaneRepair, execBridgeRepairDone, h]

end

/-- Settles O44: each command by the lemma about it. -/
theorem mesh_arbitration_results : Obligations.mesh_arbitration_results := by
  refine ⟨fun k kind inst req s => ⟨?starved, exec_arbStarvation_of_noKind, exec_arbStarvation_of_told, exec_shadowCommitArrival_of_left,
      exec_shadowCommitArrival_of_reached, ?committed, exec_arbCommitDone_of_left⟩,
    fun k n port d src cls dstop tag s hu => ⟨fun hn hd hw hs hp hc => exec_flitArrival_of_room hu hw hn hd hs hp hc,
      fun _ hw => exec_flitArrival_of_full hu hw, ?acknowledged, exec_dack_of_few, fun x t e => exec_dnak_of_held,
      fun hr hg => ⟨exec_meshLinkFailing_of_bridge hr hg, exec_meshLinkFailing_of_plain hr hg⟩, exec_bridgeLaneRepair_of_failing,
      fun h => ⟨exec_bridgeRepairDone_of_repaired h, exec_bridgeRepairDone_of_failed h⟩, exec_repair_of_good⟩⟩
  case starved =>
    rintro rfl x hth hnew
    exact ⟨exec_arbStarvation_of_latched hth hnew, exec_arbStarvation_of_first hth hnew⟩
  case committed =>
    exact fun hp hl => ⟨fun hq => (exec_arbCommitDone_of_reached hp hl).trans (congrArg _ (if_neg (by simp [hq]))),
      fun hq => (exec_arbCommitDone_of_reached hp hl).trans (congrArg _ (if_pos hq))⟩
  case acknowledged =>
    intro i hi hdue
    obtain rfl | rfl : i = .dackTimer k d src ∨ i = .dack k d src := by simpa using hi
    · exact ⟨_, rfl, rfl, rfl⟩
    · exact ⟨_, exec_dack_of_due hdue, rfl, rfl⟩

end Sys2Proof.Machine

namespace Sys2Proof.Machine

/-! ### What a step leaves alone of reroutes and flues (R365, R376) -/

/-- Between `s` and `t` the records that reroutes turn on are the same: the reroutes, the recovery actions, the ends of the flues beyond
their registers, and the flues each socket knows to have failed. -/
structure State.FluesKept (s t : State) : Prop where
  reroutes : t.reroutes = s.reroutes
  acts : t.acts = s.acts
  flues : t.flues = s.flues
  flueDown : t.flueDown = s.flueDown

section
variable {s t u : State}

theorem State.FluesKept.refl (s : State) : s.FluesKept s := ⟨rfl, rfl, rfl, rfl⟩

theorem State.FluesKept.ite {p : Prop} [Decidable p] (h : s.FluesKept t) (h' : s.FluesKept u) : s.FluesKept (if p then t else u) := by
  split
  · exact h
  · exact h'

theorem State.FluesKept.wr (h : s.FluesKept t) (f : Fld) (a : Ix) (v : Nat) : s.FluesKept (t.wr f a v) :=
  ⟨h.reroutes, h.acts, h.flues, h.flueDown⟩

theorem State.FluesKept.wrs (h : s.FluesKept t) (a : Ix) (l : List (Fld × Nat)) : s.FluesKept (t.wrs a l) := by
  induction l generalizing t with
  | nil => exact h
  | cons e l ih => exact ih (h.wr e.1 a e.2)

theorem State.FluesKept.foldl {α : Type} {f : State → α → State} (h : s.FluesKept t)
    (hf : ∀ u x, s.FluesKept u → s.FluesKept (f u x)) (l : List α) : s.FluesKept (l.foldl f t) :=
  List.foldlRecOn (motive := fun u : State => s.FluesKept u) l f h fun u hu x _ => hf u x hu

/-! Reports (R173, R505-R510). -/

theorem State.FluesKept.sysVector (h : s.FluesKept t) (k l v : Nat) : s.FluesKept (t.sysVector k l v) :=
  .ite (h.wr _ _ _) (h.wr _ _ _)

theorem State.FluesKept.mgcReason (h : s.FluesKept t) (k r : Nat) : s.FluesKept (t.mgcReason k r) :=
  .ite ⟨h.reroutes, h.acts, h.flues, h.flueDown⟩ h

theorem State.FluesKept.ashRaw (h : s.FluesKept t) (k : Nat) (e : AshE) : s.FluesKept (t.ashRaw k e) := by
  unfold State.ashRaw
  extract_lets a w seq at' w' full s1 s2 s3 s4 s5 s6 s7 s8 s9 s10 s11 s12 s13
  have h4 : s.FluesKept s4 := (((h.wr _ _ _).wr _ _ _).wr _ _ _).wr _ _ _
  have h8 : s.FluesKept s8 := (((h4.wr _ _ _).wr _ _ _).wr _ _ _).wr _ _ _
  have h10 : s.FluesKept s10 := (h8.wr _ _ _).wr _ _ _
  have h11 : s.FluesKept s11 := .ite ((h10.wr _ _ _).wr _ _ _) h10
  have h12 : s.FluesKept s12 := ⟨h11.reroutes, h11.acts, h11.flues, h11.flueDown⟩
  have h13 : s.FluesKept s13 := .ite (.ite ((h12.wr _ _ _).sysVector _ _ _) h12) h12
  exact .ite (h13.mgcReason _ _) h13

theorem State.FluesKept.ash (h : s.FluesKept t) (k : Nat) (e : AshE) : s.FluesKept (t.ash k e) := by
  unfold State.ash
  extract_lets e' t'
  have h' : s.FluesKept t' := ⟨h.reroutes, h.acts, h.flues, h.flueDown⟩
  refine .ite (.ite (State.FluesKept.ashRaw ?_ _ _) ?_) (h'.ashRaw _ _)
  · exact ⟨h'.reroutes, h'.acts, h'.flues, h'.flueDown⟩
  · exact ⟨h'.reroutes, h'.acts, h'.flues, h'.flueDown⟩

/-! The configuration commit (R391). -/

theorem State.FluesKept.commitBlk (h : s.FluesKept t) (b : Blk) (k : Nat) (keep : Nat → Fld → Bool) :
    s.FluesKept (t.commitBlk b k keep) := by
  refine h.foldl (fun u e hu => ?_) _
  split
  · exact .ite ⟨hu.reroutes, hu.acts, hu.flues, hu.flueDown⟩ hu
  · exact hu

theorem State.FluesKept.recordAchk (h : s.FluesKept t) (k p : Nat) : s.FluesKept (t.recordAchk k p) := by
  unfold State.recordAchk
  dsimp only
  split
  · split
    · exact (h.wrs _ _).wrs _ _
    · exact h.wrs _ _
  · split
    · exact h.wrs _ _
    · exact h

theorem State.FluesKept.cfgCommit (h : s.FluesKept t) (k : Nat) : s.FluesKept (t.cfgCommit k) := by
  unfold State.cfgCommit
  extract_lets a t'
  have h' : s.FluesKept t' := h.wr _ _ _
  split
  · exact ((h'.wrs _ _).wr _ _ _).ash _ _
  · refine State.FluesKept.foldl (((h'.commitBlk _ _ _).commitBlk _ _ _).wr _ _ _) (fun u p hu => ?_) _
    extract_lets b cmd st u' u''
    have hu' : s.FluesKept u' := (hu.wr _ _ _).wr _ _ _
    have hu'' : s.FluesKept u'' := .ite (hu'.recordAchk _ _) hu'
    have hstart := (hu''.wr Reg.chimPartState b 1).wr Reg.chimCfgPart a p
    exact .ite ⟨hstart.reroutes, hstart.acts, hstart.flues, hstart.flueDown⟩ (.ite ((hu'.wr _ _ _).wr _ _ _) hu')

theorem State.FluesKept.cfgLate (h : s.FluesKept t) (k : Nat) : s.FluesKept (t.cfgLate k) := by
  unfold State.cfgLate
  extract_lets old late put t'
  have h' : s.FluesKept t' := by
    refine State.FluesKept.cfgCommit ?_ k
    exact ⟨h.reroutes, h.acts, h.flues, h.flueDown⟩
  exact ⟨h'.reroutes, h'.acts, h'.flues, h'.flueDown⟩

/-! Flits sent another way (R376). -/

theorem State.FluesKept.resend (h : s.FluesKept t) (k port : Nat) (first : Bool) (f : Flit) :
    s.FluesKept (t.resend k port first f) := by
  have hput : ∀ {u : State} x, s.FluesKept u → s.FluesKept { u with xout := x } := fun _ hu =>
    ⟨hu.reroutes, hu.acts, hu.flues, hu.flueDown⟩
  unfold State.resend
  extract_lets put
  split
  · split
    · exact hput _ (.ite (.ite (h.wr _ _ _) h) h)
    · exact hput _ h
  · exact hput _ h

theorem State.FluesKept.resendAll (h : s.FluesKept t) (k : Nat) : s.FluesKept (t.resendAll k) := by
  refine h.foldl (fun u n hu => ?_) _
  split
  · have hout : s.FluesKept { u with xout := cellErase u.xout (flueKey k n) } := ⟨hu.reroutes, hu.acts, hu.flues, hu.flueDown⟩
    exact hout.foldl (fun _ f hv => hv.resend k n false f) _
  · exact hu

theorem State.FluesKept.reReach (h : s.FluesKept t) (k : Nat) : s.FluesKept (t.reReach k) := by
  unfold State.reReach
  refine (h.foldl (fun u x hu => ?_) _).wr _ _ _
  split
  · exact ⟨hu.reroutes, hu.acts, hu.flues, hu.flueDown⟩
  · exact hu

end

/-- Between `s` and `t` memory, the register fields with their reset values, and the reroutes are the same. -/
structure State.RegsKept (s t : State) : Prop where
  mem : t.mem = s.mem
  regs : t.regs = s.regs
  parts : t.parts = s.parts
  reroutes : t.reroutes = s.reroutes

section
variable {s t u : State}

theorem State.RegsKept.refl (s : State) : s.RegsKept s := ⟨rfl, rfl, rfl, rfl⟩

theorem State.RegsKept.rd (h : s.RegsKept t) (f : Fld) (a : Ix) : t.rd f a = s.rd f a := by
  unfold State.rd State.part
  rw [h.regs, h.parts]

theorem State.RegsKept.link (h : s.RegsKept t) (k n : Nat) : t.link k n = s.link k n := h.rd _ _

theorem State.RegsKept.ite {p : Prop} [Decidable p] (h : s.RegsKept t) (h' : s.RegsKept u) : s.RegsKept (if p then t else u) := by
  split
  · exact h
  · exact h'

theorem State.RegsKept.foldl {α : Type} {f : State → α → State} (h : s.RegsKept t)
    (hf : ∀ u x, s.RegsKept u → s.RegsKept (f u x)) (l : List α) : s.RegsKept (l.foldl f t) :=
  List.foldlRecOn (motive := fun u : State => s.RegsKept u) l f h fun u hu x _ => hf u x hu

theorem State.RegsKept.holdRoutes (h : s.RegsKept t) (r : Reroute) (v : Nat) : s.RegsKept (t.holdRoutes r v) := by
  refine h.foldl (fun u x hu => ?_) _
  split
  · exact ⟨hu.mem, hu.regs, hu.parts, hu.reroutes⟩
  · exact hu

theorem State.RegsKept.actBegin (h : s.RegsKept t) (k n : Nat) : s.RegsKept (t.actBegin k n) := by
  have hinc : s.RegsKept (t.repochInc k) := by
    refine h.foldl (fun u d hu => ?_) _
    exact ⟨hu.mem, hu.regs, hu.parts, hu.reroutes⟩
  have hacts : ∀ {u : State} l, s.RegsKept u → s.RegsKept { u with acts := l } := fun _ hu =>
    ⟨hu.mem, hu.regs, hu.parts, hu.reroutes⟩
  exact hacts _ hinc

theorem State.RegsKept.routeAborts (h : s.RegsKept t) (k : Nat) (r : Reroute) : s.RegsKept (t.routeAborts k r) := by
  refine h.foldl (fun u e hu => ?_) _
  split
  · exact .ite ⟨hu.mem, hu.regs, hu.parts, hu.reroutes⟩ hu
  · exact hu

end

/-! ### Training and lanes (R357-R359) -/

section
variable {s : State} {k n flight lane : Nat}

theorem State.wrs_time (s : State) (a : Ix) (l : List (Fld × Nat)) : (s.wrs a l).time = s.time := by
  induction l generalizing s with
  | nil => rfl
  | cons e l ih => exact ih (s.wr e.1 a e.2)

/-- A flue that may train: it stands at a running socket, is enabled, and has not come up. -/
structure State.Trains (s : State) (k n : Nat) : Prop where
  up : s.up k = true
  there : n < (s.part k).flues
  enabled : s.rd Reg.flueCtlEn (flueIx k n) ≠ 0
  waits : s.link k n ≤ 1

theorem State.Trains.goes (h : s.Trains k n) :
    ¬(!s.up k || (s.part k).flues ≤ n || s.rd Reg.flueCtlEn (flueIx k n) = 0 || 1 < s.link k n) = true := by
  simp [h.up, h.there, h.enabled, h.waits]

/-- A flight time above 50 ns refuses the flue. -/
theorem State.Trains.refused (h : s.Trains k n) (hf : 200 < flight) : exec (.flueTrained k n flight) s = .next
    ((((s.bump Reg.flueErrTrains (flueIx k n)).wr Reg.flueStateFlight (flueIx k n) flight).wr Reg.flueStateLink (flueIx k n) 4).wr
      Reg.flueStateRefuse (flueIx k n) 0) := by
  change execFlueTrained k n flight s = _
  unfold execFlueTrained
  dsimp only
  rw [if_neg h.goes, if_pos hf]

/-- Any other brings it up, its sequence numbers cleared. -/
theorem State.Trains.accepted (h : s.Trains k n) (hf : flight ≤ 200) (hb : (s.flue k n).back = false) :
    exec (.flueTrained k n flight) s = .next ((((s.bump Reg.flueErrTrains (flueIx k n)).wr Reg.flueStateFlight (flueIx k n) flight).wrs
      (flueIx k n) [(Reg.flueStateLink, 2), (Reg.flueStateSpared, 15), (Reg.flueSeqTx, 0), (Reg.flueSeqRx, 0),
        (Reg.flueStateSealed, 0)]).setFlue k n { FlueS.fresh with trained := s.time }) := by
  have hback : (((s.bump Reg.flueErrTrains (flueIx k n)).wr Reg.flueStateFlight (flueIx k n) flight).flue k n).back = false := hb
  change execFlueTrained k n flight s = _
  unfold execFlueTrained
  dsimp only
  rw [if_neg h.goes, if_neg (Nat.not_lt.mpr hf)]
  simp only [hback, Bool.false_and, Bool.false_eq_true, if_false, State.wrs_time, State.wr_time, State.bump_time]
  rfl

/-- With the spare unused the failing lane is to be replaced. -/
theorem exec_laneFailing_of_unused (hl : s.link k n = 2) (hs : s.rd Reg.flueStateSpared (flueIx k n) = 15) (hlane : lane < 8) :
    exec (.laneFailing k n lane) s = .next (s.setFlue k n { s.flue k n with lane := some lane }) := by
  have hne : 15 ≠ lane := by omega
  change execLaneFailing k n lane s = _
  simp [execLaneFailing, hl, hs, Nat.not_le.mpr hlane, hne]

/-- Both ends steer it to the spare. -/
theorem exec_lane_of_failing (hl : (s.flue k n).lane = some lane) :
    exec (.lane k n) s = .next ((s.laneEnd k n lane).laneEnd (s.peer k n).1 (s.peer k n).2 lane) := by
  change execLane k n s = _
  simp only [execLane, hl]

end

/-! ### A failed flue (R366, R376, step 1) -/

/-- A flue failed at both ends. -/
def State.linkFailed (s : State) (k n : Nat) : State :=
  let p := s.peer k n
  let s := s.wr Reg.flueStateLink (flueIx k n) 3
  s.wrIf (s.link p.1 p.2 = 2) Reg.flueStateLink (flueIx p.1 p.2) 3

/-- A flue stopped at both ends, each of which has reported it. -/
def State.flueStopped (s : State) (k n code : Nat) : State :=
  ((s.linkFailed k n).flueAsh k n 2 code).flueAsh (s.peer k n).1 (s.peer k n).2 2 code

section
variable {s : State} {k n : Nat}

theorem State.fluesKept_linkFailed (s : State) (k n : Nat) : s.FluesKept (s.linkFailed k n) := by
  have h := (State.FluesKept.refl s).wr Reg.flueStateLink (flueIx k n) 3
  exact .ite (h.wr _ _ _) h

theorem State.mem_linkFailed (s : State) (k n : Nat) : (s.linkFailed k n).mem = s.mem := by
  unfold State.linkFailed State.wrIf
  dsimp only
  split
  · rfl
  · rfl

theorem State.link_linkFailed (s : State) (k n : Nat) : (s.linkFailed k n).link k n = 3 := by
  have hhere : (s.wr Reg.flueStateLink (flueIx k n) 3).rd Reg.flueStateLink (flueIx k n) = 3 := s.rd_wr_same _ _ _
  unfold State.linkFailed State.wrIf State.link
  dsimp only
  split
  · rw [State.rd_wr_uniform _ rfl, hhere]
    exact ite_self 3
  · exact hhere

theorem State.reported_flueAsh (s : State) (k n cls code : Nat) : s.Reported (s.flueAsh k n cls code) := s.reported_ash k _

theorem State.FluesKept.flueAsh {t : State} (h : s.FluesKept t) (k n cls code : Nat) : s.FluesKept (t.flueAsh k n cls code) :=
  h.ash k _

theorem State.reported_flueStopped (s : State) (k n code : Nat) : (s.linkFailed k n).Reported (s.flueStopped k n code) :=
  (State.reported_flueAsh _ _ _ _ _).trans (State.reported_flueAsh _ _ _ _ _)

theorem State.fluesKept_flueStopped (s : State) (k n code : Nat) : s.FluesKept (s.flueStopped k n code) :=
  ((s.fluesKept_linkFailed k n).flueAsh _ _ _ _).flueAsh _ _ _ _

theorem State.mem_flueStopped (s : State) (k n code : Nat) : (s.flueStopped k n code).mem = s.mem :=
  (s.reported_flueStopped k n code).mem.trans (s.mem_linkFailed k n)

theorem State.link_flueStopped (s : State) (k n code : Nat) : (s.flueStopped k n code).link k n = 3 :=
  ((s.reported_flueStopped k n code).rd _ _ (by decide) (by decide)).trans (s.link_linkFailed k n)

theorem State.link_newReroute (s : State) (x y : Nat) (up : Bool) (k n : Nat) : (s.newReroute x y up).link k n = s.link k n := rfl

theorem State.mem_newReroute (s : State) (x y : Nat) (up : Bool) : (s.newReroute x y up).mem = s.mem := rfl

/-- A failed flue that was up is stopped, and a reroute begins; then routes are held. -/
theorem State.flueFail_of_up (h : s.link k n = 2) (code : Nat) :
    ((s.flueStopped k n code).newReroute k n false).RegsKept (s.flueFail k n code) := by
  rw [State.flueFail, if_neg (not_not_intro h)]
  dsimp only
  split
  · exact (State.RegsKept.refl _).foldl (fun _ v hu => hu.holdRoutes _ v) _
  · exact .refl _

theorem State.flueFail_of_notUp (h : s.link k n ≠ 2) (code : Nat) : s.flueFail k n code = s := if_pos h

/-- What a failed flue leaves: one reroute more, the flue failed, and memory as it was. -/
theorem State.flueFail_begins (h : s.link k n = 2) (code : Nat) :
    (s.flueFail k n code).reroutes.length = s.reroutes.length + 1 ∧ (s.flueFail k n code).link k n = 3 ∧
      (s.flueFail k n code).mem = s.mem := by
  have hkept := State.flueFail_of_up h code
  refine ⟨?_, ((hkept.link k n).trans (State.link_newReroute _ _ _ _ _ _)).trans (s.link_flueStopped k n code),
    (hkept.mem.trans (State.mem_newReroute _ _ _ _)).trans (s.mem_flueStopped k n code)⟩
  calc (s.flueFail k n code).reroutes.length
      = (s.flueStopped k n code).reroutes.length + 1 := (congrArg List.length hkept.reroutes).trans List.length_append
    _ = s.reroutes.length + 1 := by rw [(s.fluesKept_flueStopped k n code).reroutes]

theorem exec_laneFailing_of_notUp (h : s.link k n ≠ 2) (lane : Nat) : exec (.laneFailing k n lane) s = .next s := by
  change execLaneFailing k n lane s = _
  simp [execLaneFailing, h]

theorem exec_ident_of_notUp (h : s.link k n ≠ 2) (psock pflue : Nat) (small : Bool) :
    exec (.ident k n psock pflue small) s = .next s :=
  congrArg Host.Outcome.next (if_pos h)

end

/-! ### News of a flue (R280, R376, R380, steps 2 and 3) -/

section
variable {s : State} {k id : Nat} {r : Reroute}

/-- Socket `k` has news of reroute `id`, which RR shows. -/
def State.newsShown (s : State) (k id : Nat) (up : Bool) : State :=
  let s := (s.updReroute id (fun r => { r with got := r.got ++ [k] })).wr Reg.chimRrActive { sock := k } 1
  s.wr Reg.chimRrDown { sock := k } (if up then s.rd Reg.chimRrDown { sock := k } - 1 else s.rd Reg.chimRrDown { sock := k } + 1)

theorem State.newsShown_reroutes (s : State) (k id : Nat) (up : Bool) : (s.newsShown k id up).reroutes =
    s.reroutes.map (fun q => if q.id = id then { q with got := q.got ++ [k] } else q) := rfl

theorem State.newsShown_active (s : State) (k id : Nat) (up : Bool) :
    (s.newsShown k id up).rd Reg.chimRrActive { sock := k } = 1 :=
  (State.rd_wr_field _ _ _ _ (by decide) (by decide) (by decide)).trans (State.rd_wr_same _ _ _ _)

/-- After that a socket of the fabric may begin a recovery action and abort regions. -/
theorem State.linkNews_of_new {up : Bool} (hf : s.reroutes.find? (fun r => r.id = id && r.up == up) = some r)
    (hg : r.got.contains k = false) (hk : (s.fabric r.sock).contains k = true) :
    (s.newsShown k id up).RegsKept (s.linkNews k id up) := by
  have hgo : ¬(r.got.contains k || !(s.fabric r.sock).contains k) = true := by
    rw [hg, hk]
    decide
  simp -zeta only [State.linkNews, hf, if_neg hgo]
  exact (State.RegsKept.ite ((State.RegsKept.refl (s.newsShown k id up)).actBegin k id) (.refl _)).routeAborts k r

/-- LINKUP and LINKDOWN bring the news. -/
theorem exec_news (s : State) (k id : Nat) (up : Bool) :
    exec (if up then .linkup k id else .linkdown k id) s = .next (s.linkNews k id up) := by
  cases up
  · rfl
  · rfl

/-- News for a socket of the fabric that does not have it yet. -/
theorem exec_news_of_new {up : Bool} (hf : s.reroutes.find? (fun r => r.id = id && r.up == up) = some r)
    (hg : r.got.contains k = false) (hk : (s.fabric r.sock).contains k = true) :
    ∃ t : State, exec (if up then .linkup k id else .linkdown k id) s = .next t ∧
      t.reroutes = s.reroutes.map (fun q => if q.id = id then { q with got := q.got ++ [k] } else q) ∧
      t.rd Reg.chimRrActive { sock := k } = 1 := by
  have hkept := State.linkNews_of_new hf hg hk
  exact ⟨_, exec_news s k id up, hkept.reroutes.trans (s.newsShown_reroutes k id up),
    (hkept.rd _ _).trans (s.newsShown_active k id up)⟩

/-- News that a socket has changes nothing. -/
theorem exec_news_of_old {up : Bool} (hf : s.reroutes.find? (fun r => r.id = id && r.up == up) = some r)
    (hg : r.got.contains k = true) : exec (if up then .linkup k id else .linkdown k id) s = .next s := by
  rw [exec_news, State.linkNews, hf]
  exact congrArg Host.Outcome.next (if_pos (by simp only [hg, Bool.true_or]))

end

/-! ### New routes, and the flits on the old ones (R376, R380, steps 4 and 5) -/

/-- One end of a rerouted flue, cleared, with what it had sent and not had acknowledged sent another way. -/
def State.flueResent (s : State) (k n : Nat) : State :=
  ((s.flue k n).unacked.flatMap (·.2)).reverse.foldl (fun s f => s.resend k n true f) (s.setFlue k n FlueS.fresh)

section
variable {s : State} {k id : Nat} {r : Reroute}

/-- A socket that has the news adopts the routes: it knows both ends as failed, or neither any more. -/
theorem exec_rerouteAdopt_of_news (hf : s.reroutes.find? (fun r => r.id = id) = some r) (hg : r.got.contains k = true)
    (ha : r.adopted.contains k = false) :
    ∃ t : State, exec (.rerouteAdopt k id) s = .next t ∧
      t.reroutes = s.reroutes.map (fun q => if q.id = id then { q with adopted := q.adopted ++ [k] } else q) ∧
      (∀ e ∈ [flueKey r.sock r.flue, flueKey r.psock r.pflue], e ∈ cellGet [] t.flueDown k ↔ r.up = false) := by
  have hgo : ¬(!r.got.contains k || r.adopted.contains k) = true := by
    rw [hg, ha]
    decide
  have hrun : exec (.rerouteAdopt k id) s = execRerouteAdopt k id s := rfl
  rw [hrun]
  simp -zeta only [execRerouteAdopt, hf, if_neg hgo]
  extract_lets t ends l t'
  have hkept : t'.FluesKept ((t'.resendAll k).reReach k) := ((State.FluesKept.refl t').resendAll k).reReach k
  refine ⟨_, rfl, hkept.reroutes, fun e he => ?_⟩
  have hdown : cellGet [] ((t'.resendAll k).reReach k).flueDown k = if r.up then l.filter (fun e => !ends.contains e) else ends ++ l :=
    (congrArg (cellGet [] · k) hkept.flueDown).trans (cellGet_set_same _ _ _ _)
  have hends : ends.contains e = true := List.contains_iff_mem.mpr he
  cases hup : r.up
  · rw [hdown, hup]
    exact iff_of_true (List.mem_append_left _ he) rfl
  · rw [hdown, hup]
    refine iff_of_false (fun h => ?_) Bool.noConfusion
    simpa only [hends, Bool.not_true, Bool.false_eq_true] using (List.mem_filter.mp h).2

theorem State.flue_setFlue (s : State) (x y k n : Nat) (f : FlueS) :
    (s.setFlue x y f).flue k n = if flueKey k n = flueKey x y then f else s.flue k n :=
  cellGet_set FlueS.fresh s.flues (flueKey x y) (flueKey k n) f

theorem State.fluesKept_flueResent (s : State) (k n : Nat) : (s.setFlue k n FlueS.fresh).FluesKept (s.flueResent k n) :=
  (State.FluesKept.refl _).foldl (fun _ f hu => hu.resend _ _ _ f) _

theorem State.flue_flueResent (s : State) (x y k n : Nat) :
    (s.flueResent x y).flue k n = if flueKey k n = flueKey x y then FlueS.fresh else s.flue k n :=
  (congrArg (cellGet FlueS.fresh · (flueKey k n)) (s.fluesKept_flueResent x y).flues).trans (s.flue_setFlue x y k n _)

theorem State.flueResent_reroutes (s : State) (k n : Nat) : (s.flueResent k n).reroutes = s.reroutes :=
  (s.fluesKept_flueResent k n).reroutes

theorem State.updReroute_reroutes (s : State) (id : Nat) (f : Reroute → Reroute) :
    (s.updReroute id f).reroutes = s.reroutes.map (fun q => if q.id = id then f q else q) := rfl

theorem State.flue_updReroute (s : State) (id : Nat) (f : Reroute → Reroute) (k n : Nat) :
    (s.updReroute id f).flue k n = s.flue k n := rfl

/-- With both ends adopted the replay buffers are resent. -/
theorem exec_rerouteReplayResent_of_adopted (hf : s.reroutes.find? (fun r => r.id = id) = some r) (hr : r.replayed = false)
    (hs : r.adopted.contains r.sock = true) (hp : r.adopted.contains r.psock = true) :
    ∃ t : State, exec (.rerouteReplayResent id) s = .next t ∧
      t.reroutes = s.reroutes.map (fun q => if q.id = id then { q with replayed := true } else q) ∧
      (t.flue r.sock r.flue).unacked = [] ∧ (t.flue r.psock r.pflue).unacked = [] := by
  have hgo : ¬(r.replayed || !r.adopted.contains r.sock || !r.adopted.contains r.psock) = true := by
    rw [hr, hs, hp]
    decide
  have hrun : exec (.rerouteReplayResent id) s = .next
      (((s.flueResent r.sock r.flue).flueResent r.psock r.pflue).updReroute id (fun r => { r with replayed := true })) := by
    change execRerouteReplayResent id s = _
    rw [execRerouteReplayResent, hf]
    exact congrArg _ (if_neg hgo)
  refine ⟨_, hrun, ?_, ?_, ?_⟩
  · rw [State.updReroute_reroutes, State.flueResent_reroutes, State.flueResent_reroutes]
  · rw [State.flue_updReroute, State.flue_flueResent, State.flue_flueResent, if_pos rfl, ite_self, FlueS.fresh]
  · rw [State.flue_updReroute, State.flue_flueResent, if_pos rfl, FlueS.fresh]

end

/-! ### The end of a reroute (R391, step 6) -/

/-- At a socket that has news of no other reroute RR is idle again, and a commit that waited is made. -/
def State.rerouteOver (s : State) (k : Nat) : State :=
  if s.reroutes.any (fun r => r.got.contains k) then s
  else
    let s := s.wr Reg.chimRrActive { sock := k } 0
    if s.rd Reg.chimCfgPending { sock := k } = 1 then s.cfgLate k else s

section
variable {s : State} {id : Nat} {r : Reroute}

theorem State.FluesKept.rerouteOver {t : State} (h : s.FluesKept t) (k : Nat) : s.FluesKept (t.rerouteOver k) :=
  .ite h (.ite ((h.wr _ _ _).cfgLate k) (h.wr _ _ _))

/-- With every running socket of the fabric on the new routes the reroute and its recovery actions end. -/
theorem exec_rerouteDone_of_adopted (hf : s.reroutes.find? (fun r => r.id = id) = some r) (hr : r.replayed = true)
    (ha : (s.fabric r.sock).all (fun k => r.adopted.contains k || !s.up k) = true) :
    ∃ t : State, exec (.rerouteDone id) s = .next t ∧ t.reroutes = s.reroutes.filter (fun q => q.id ≠ id) ∧
      t.acts = s.acts.filter (fun a => a.2 ≠ id) := by
  have hgo : ¬(!r.replayed || !(s.fabric r.sock).all (fun k => r.adopted.contains k || !s.up k)) = true := by
    rw [hr, ha]
    decide
  have hrun : exec (.rerouteDone id) s = .next ((s.fabric r.sock).foldl State.rerouteOver
      { s with reroutes := s.reroutes.filter (fun r => r.id ≠ id), acts := s.acts.filter (fun a => a.2 ≠ id) }) := by
    change execRerouteDone id s = _
    rw [execRerouteDone, hf]
    exact congrArg _ (if_neg hgo)
  have hkept := (State.FluesKept.refl { s with
    reroutes := s.reroutes.filter (fun r => r.id ≠ id), acts := s.acts.filter (fun a => a.2 ≠ id) }).foldl
      (fun _ k hu => hu.rerouteOver k) (s.fabric r.sock)
  exact ⟨_, hrun, hkept.reroutes, hkept.acts⟩

/-- A reroute whose replay buffers have not been resent goes on. -/
theorem exec_rerouteDone_of_unsent (hf : s.reroutes.find? (fun r => r.id = id) = some r) (hr : r.replayed = false) :
    exec (.rerouteDone id) s = .next s := by
  change execRerouteDone id s = _
  simp [execRerouteDone, hf, hr]

end

/-- Settles O37: each command by the lemma about it. -/
theorem flue_and_reroute_results : Obligations.flue_and_reroute_results := by
  refine ⟨fun k n flight lane s => ⟨?trained, exec_laneFailing_of_unused, fun l => exec_lane_of_failing, ?failed, ?notUp⟩,
    fun k id r s hf => ⟨fun up => exec_news_of_new, fun up hg hu => exec_news_of_old hu hg, exec_rerouteAdopt_of_news hf,
      exec_rerouteReplayResent_of_adopted hf, exec_rerouteDone_of_adopted hf, exec_rerouteDone_of_unsent hf⟩⟩
  case trained =>
    intro hup hn hen hl
    have h : s.Trains k n := ⟨hup, hn, hen, hl⟩
    exact ⟨h.refused, h.accepted⟩
  case failed =>
    intro hl i hi
    obtain rfl | rfl : i = .flueFailure k n ∨ i = .flueControlTimeout k n := by simpa using hi
    · exact ⟨_, rfl, State.flueFail_begins hl _⟩
    · exact ⟨_, rfl, State.flueFail_begins hl _⟩
  case notUp =>
    intro hl i hi
    obtain rfl | rfl | rfl | rfl : i = .flueFailure k n ∨ i = .flueControlTimeout k n ∨ i = .laneFailing k n lane ∨
      i = .ident k n 0 0 true := by simpa using hi
    · exact congrArg Host.Outcome.next (State.flueFail_of_notUp hl _)
    · exact congrArg Host.Outcome.next (State.flueFail_of_notUp hl _)
    · exact exec_laneFailing_of_notUp hl lane
    · exact exec_ident_of_notUp hl 0 0 true

end Sys2Proof.Machine

/-! ## A step and the queue -/

namespace Sys2Proof.Machine

/-- Settles O1: the two branches of a step, by whether a command waits. -/
theorem step_runs_front_command : Obligations.step_runs_front_command :=
  fun _ _ _ => ⟨step_of_pending_cons, step_of_pending_nil⟩

end Sys2Proof.Machine
/-! ## The Ashpan's ring (R505-R507) -/

namespace Sys2Proof.Machine

/-! ### Registers an operation leaves alone -/

/-- Between `s` and `t` only register fields with a number in `l` change. -/
def State.RegsBut (s t : State) (l : List Nat) : Prop := ∀ (f : Fld) (a : Ix), f.id < 1024 → f.id ∉ l → t.rd f a = s.rd f a

section
variable {s t u : State} {l : List Nat}

theorem State.RegsBut.refl (s : State) (l : List Nat) : s.RegsBut s l := fun _ _ _ _ => rfl

theorem State.RegsBut.wr (h : s.RegsBut t l) {g : Fld} (a : Ix) (v : Nat) (hg : g.id < 1024) (hm : g.id ∈ l) :
    s.RegsBut (t.wr g a v) l := fun f a' hf hn =>
  (t.rd_wr_field a a' v hg hf (fun e => hn (e ▸ hm))).trans (h f a' hf hn)

theorem State.RegsBut.ite {p : Prop} [Decidable p] (h : s.RegsBut t l) (h' : s.RegsBut u l) :
    s.RegsBut (if p then t else u) l := by
  split
  · exact h
  · exact h'

end

/-! ### An entry written -/

/-- The registers an entry's write changes besides the entry and SEQ: those of the ring when it is full, and those of the interrupts
(R507, R510, R601). -/
def ashTailFlds : List Nat :=
  [Reg.ashRingRdptr, Reg.ashOverrun, Reg.ashIntPend, Reg.ihubDropMsg, Reg.ihubPend, Reg.pwrMgcIbiPend].map Fld.id

/-- The eight doublewords of an entry, in the order the model writes them (Table RELY-2). -/
def State.ashWords (s : State) (k : Nat) (e : AshE) : State :=
  let at' (j : Nat) : Ix := { sock := k, i := s.rd Reg.ashRingWrptr { sock := k }, j := j }
  (((((((s.wr Reg.ashEntry (at' 1) (s.now k)).wr Reg.ashEntry (at' 2) (e.addr % 2 ^ 57)).wr Reg.ashEntry (at' 3)
    (e.code + e.peer * 2 ^ 16 + e.part * 2 ^ 26 + e.domain % 2 ^ 16 * 2 ^ 32 + e.core % 256 * 2 ^ 48)).wr Reg.ashEntry (at' 4) e.d4).wr
      Reg.ashEntry (at' 5) e.d5).wr Reg.ashEntry (at' 6) e.d6).wr Reg.ashEntry (at' 7) e.d7).wr Reg.ashEntry (at' 0)
        (s.rd Reg.ashSeqNext { sock := k } + e.cls * 2 ^ 32 + e.src * 2 ^ 36 + e.inst * 2 ^ 48)

/-- The entry written, with the next sequence number and the ring moved on (R506, R507). -/
def State.ashPut (s : State) (k : Nat) (e : AshE) : State :=
  let seq := s.rd Reg.ashSeqNext { sock := k }
  ((s.ashWords k e).wr Reg.ashSeqNext { sock := k } (if seq = 2 ^ 32 - 1 then 1 else seq + 1)).wr Reg.ashRingWrptr { sock := k }
    ((s.rd Reg.ashRingWrptr { sock := k } + 1) % 4096)

section
variable {s t : State} {l : List Nat}

theorem State.RegsBut.sysVector (h : s.RegsBut t l) (k c v : Nat) (hd : Reg.ihubDropMsg.id ∈ l) (hp : Reg.ihubPend.id ∈ l) :
    s.RegsBut (t.sysVector k c v) l :=
  .ite (h.wr _ _ (by decide) hd) (h.wr _ _ (by decide) hp)

theorem State.RegsBut.mgcReason (h : s.RegsBut t l) (k r : Nat) (hp : Reg.pwrMgcIbiPend.id ∈ l) : s.RegsBut (t.mgcReason k r) l :=
  .ite (h.wr (g := Reg.pwrMgcIbiPend) _ _ (by decide) hp) h

/-- What an entry's write does after the ring has moved on changes the registers of the full ring and of the interrupts alone. -/
theorem State.ashRaw_but (s : State) (k : Nat) (e : AshE) : (s.ashPut k e).RegsBut (s.ashRaw k e) ashTailFlds := by
  unfold State.ashRaw
  extract_lets a w seq at' w' full s1 s2 s3 s4 s5 s6 s7 s8 s9 s10 s11 s12 s13
  have h10 : (s.ashPut k e).RegsBut s10 ashTailFlds := .refl _ _
  have h11 : (s.ashPut k e).RegsBut s11 ashTailFlds :=
    .ite ((h10.wr a _ (by decide) (by decide)).wr a _ (by decide) (by decide)) h10
  have h12 : (s.ashPut k e).RegsBut s12 ashTailFlds := h11
  have h13 : (s.ashPut k e).RegsBut s13 ashTailFlds :=
    .ite (.ite ((h12.wr a _ (by decide) (by decide)).sysVector _ _ _ (by decide) (by decide)) h12) h12
  exact .ite (h13.mgcReason _ _ (by decide)) h13

/-- A doubleword of the entry reads after the whole write as when it was written. -/
theorem State.ashRaw_entry (s : State) (k : Nat) (e : AshE) (a : Ix) :
    (s.ashRaw k e).rd Reg.ashEntry a = (s.ashWords k e).rd Reg.ashEntry a := by
  rw [s.ashRaw_but k e _ _ (by decide) (by decide), State.ashPut, State.rd_wr_field _ _ _ _ (by decide) (by decide) (by decide),
    State.rd_wr_field _ _ _ _ (by decide) (by decide) (by decide)]

theorem State.ashRaw_wrptr (s : State) (k : Nat) (e : AshE) :
    (s.ashRaw k e).rd Reg.ashRingWrptr { sock := k } = (s.rd Reg.ashRingWrptr { sock := k } + 1) % 4096 := by
  rw [s.ashRaw_but k e _ _ (by decide) (by decide), State.ashPut, State.rd_wr_same]
  exact Nat.mod_mod _ _

theorem State.ashRaw_seqNext (s : State) (k : Nat) (e : AshE) (hs : s.rd Reg.ashSeqNext { sock := k } < 2 ^ 32) :
    (s.ashRaw k e).rd Reg.ashSeqNext { sock := k } =
      if s.rd Reg.ashSeqNext { sock := k } = 2 ^ 32 - 1 then 1 else s.rd Reg.ashSeqNext { sock := k } + 1 := by
  rw [s.ashRaw_but k e _ _ (by decide) (by decide), State.ashPut, State.rd_wr_field _ _ _ _ (by decide) (by decide) (by decide),
    State.rd_wr_same]
  change _ % 2 ^ 32 = _
  split <;> omega

/-- The doublewords of one entry have different places. -/
theorem ashEntry_key_ne (k i : Nat) {j j' : Nat} (h : j ≠ j') :
    regKey Reg.ashEntry { sock := k, i := i, j := j } ≠ regKey Reg.ashEntry { sock := k, i := i, j := j' } := by
  unfold regKey
  dsimp only
  omega

/-- What each doubleword of an entry holds (Table RELY-2). -/
theorem State.ashWords_words (s : State) (k : Nat) (e : AshE) :
    let word (j : Nat) : Nat := (s.ashWords k e).rd Reg.ashEntry { sock := k, i := s.rd Reg.ashRingWrptr { sock := k }, j := j }
    word 0 = (s.rd Reg.ashSeqNext { sock := k } + e.cls * 2 ^ 32 + e.src * 2 ^ 36 + e.inst * 2 ^ 48) % 2 ^ 64 ∧
    word 1 = s.now k % 2 ^ 64 ∧ word 2 = e.addr % 2 ^ 57 % 2 ^ 64 ∧ word 4 = e.d4 % 2 ^ 64 ∧ word 5 = e.d5 % 2 ^ 64 ∧
    word 6 = e.d6 % 2 ^ 64 ∧ word 7 = e.d7 % 2 ^ 64 := by
  have hd : ∀ (t : State) (i j j' v : Nat), j ≠ j' →
      (t.wr Reg.ashEntry { sock := k, i := i, j := j' } v).rd Reg.ashEntry { sock := k, i := i, j := j } =
        t.rd Reg.ashEntry { sock := k, i := i, j := j } := fun t i j j' v h => t.rd_wr_key _ _ v (ashEntry_key_ne k i h)
  have hw : Reg.ashEntry.w = 64 := rfl
  simp [State.ashWords, hd, hw]

/-- The time of a socket has 64 bits (R388). -/
theorem State.now_lt (s : State) (k : Nat) : s.now k < 2 ^ 64 := by
  unfold State.now
  dsimp only
  omega

/-- An entry above class CE is written at once (R509). -/
theorem State.ash_of_cls {k : Nat} {e : AshE} (h : e.cls ≠ 0) : s.ash k e = s.useFree.useFree.ashRaw k (e.detail s) := if_neg h

end

/-- Settles O48: the doublewords stay as they are written while the ring moves on and the interrupts are raised. -/
theorem ashpan_entry_written : Obligations.ashpan_entry_written := by
  intro k e s hk hcls hcls' hsrc hinst a w seq hseq t word
  have ht : t = s.useFree.useFree.ashRaw k (e.detail s) := State.ash_of_cls hcls
  have hword : ∀ j, word j = (s.useFree.useFree.ashWords k (e.detail s)).rd Reg.ashEntry { sock := k, i := w, j := j } := fun j => by
    rw [← State.ashRaw_entry, ← ht]
  obtain ⟨h0, h1, h2, h4, h5, h6, h7⟩ := s.useFree.useFree.ashWords_words k (e.detail s)
  have hrep : s.Reported t := s.reported_ash k e
  refine ⟨(hword 0).trans (h0.trans ?_), (hword 1).trans (h1.trans (Nat.mod_eq_of_lt (s.now_lt k))), (hword 2).trans (h2.trans ?_),
    (hword 4).trans h4, (hword 5).trans h5, (hword 6).trans h6, (hword 7).trans h7, fun h => ?_, fun h => ?_, ?_, ?_,
    hrep.mem, hrep.cores⟩
  · change (seq + e.cls * 2 ^ 32 + e.src * 2 ^ 36 + e.inst * 2 ^ 48) % 2 ^ 64 = _
    omega
  · change e.addr % 2 ^ 57 % 2 ^ 64 = _
    omega
  · simp [AshE.detail, h]
  · simp [AshE.detail, h]
  · rw [ht]
    exact State.ashRaw_wrptr _ k _
  · rw [ht]
    exact State.ashRaw_seqNext _ k _ hseq

end Sys2Proof.Machine

/-! ## The Ashpan's commands, spares and grates (R505-R511, R516-R521, R528) -/

namespace Sys2Proof.Machine

/-! ### Reports leave the units' own records alone -/

/-- Between `s` and `t` the records that units keep beside their registers are the same: those of hand-offs, lockstep recoveries, power,
Stoker, Riddles and root complexes, and which sockets are down and of what part. -/
structure State.UnitsKept (s t : State) : Prop where
  handoffs : t.handoffs = s.handoffs
  lockrecs : t.lockrecs = s.lockrecs
  down : t.down = s.down
  pwrs : t.pwrs = s.pwrs
  parts : t.parts = s.parts
  stkChs : t.stkChs = s.stkChs
  stkCells : t.stkCells = s.stkCells
  rids : t.rids = s.rids
  prcs : t.prcs = s.prcs

section
variable {s t u : State}

theorem State.UnitsKept.refl (s : State) : s.UnitsKept s := ⟨rfl, rfl, rfl, rfl, rfl, rfl, rfl, rfl, rfl⟩

theorem State.UnitsKept.wr (h : s.UnitsKept t) (f : Fld) (a : Ix) (v : Nat) : s.UnitsKept (t.wr f a v) :=
  ⟨h.handoffs, h.lockrecs, h.down, h.pwrs, h.parts, h.stkChs, h.stkCells, h.rids, h.prcs⟩

theorem State.UnitsKept.ite {p : Prop} [Decidable p] (h : s.UnitsKept t) (h' : s.UnitsKept u) : s.UnitsKept (if p then t else u) := by
  split
  · exact h
  · exact h'

theorem State.UnitsKept.foldl {α : Type} {f : State → α → State} (h : s.UnitsKept t)
    (hf : ∀ u x, s.UnitsKept u → s.UnitsKept (f u x)) (l : List α) : s.UnitsKept (l.foldl f t) :=
  List.foldlRecOn (motive := fun u : State => s.UnitsKept u) l f h fun u hu x _ => hf u x hu

theorem State.UnitsKept.sysVector (h : s.UnitsKept t) (k l v : Nat) : s.UnitsKept (t.sysVector k l v) := .ite (h.wr _ _ _) (h.wr _ _ _)

theorem State.UnitsKept.mgcReason (h : s.UnitsKept t) (k r : Nat) : s.UnitsKept (t.mgcReason k r) :=
  .ite ⟨h.handoffs, h.lockrecs, h.down, h.pwrs, h.parts, h.stkChs, h.stkCells, h.rids, h.prcs⟩ h

theorem State.UnitsKept.ashRaw (h : s.UnitsKept t) (k : Nat) (e : AshE) : s.UnitsKept (t.ashRaw k e) := by
  unfold State.ashRaw
  extract_lets a w seq at' w' full s1 s2 s3 s4 s5 s6 s7 s8 s9 s10 s11 s12 s13
  have h4 : s.UnitsKept s4 := (((h.wr _ _ _).wr _ _ _).wr _ _ _).wr _ _ _
  have h8 : s.UnitsKept s8 := (((h4.wr _ _ _).wr _ _ _).wr _ _ _).wr _ _ _
  have h10 : s.UnitsKept s10 := (h8.wr _ _ _).wr _ _ _
  have h11 : s.UnitsKept s11 := .ite ((h10.wr _ _ _).wr _ _ _) h10
  have h12 : s.UnitsKept s12 :=
    ⟨h11.handoffs, h11.lockrecs, h11.down, h11.pwrs, h11.parts, h11.stkChs, h11.stkCells, h11.rids, h11.prcs⟩
  have h13 : s.UnitsKept s13 := .ite (.ite ((h12.wr _ _ _).sysVector _ _ _) h12) h12
  exact .ite (h13.mgcReason _ _) h13

theorem State.UnitsKept.ash (h : s.UnitsKept t) (k : Nat) (e : AshE) : s.UnitsKept (t.ash k e) := by
  unfold State.ash
  extract_lets e' t'
  have h' : s.UnitsKept t' := ⟨h.handoffs, h.lockrecs, h.down, h.pwrs, h.parts, h.stkChs, h.stkCells, h.rids, h.prcs⟩
  have hc : ∀ c, s.UnitsKept { t' with ceCount := c } := fun _ => ⟨h'.handoffs, h'.lockrecs, h'.down, h'.pwrs, h'.parts, h'.stkChs, h'.stkCells, h'.rids, h'.prcs⟩
  have hs : ∀ (u : State) c, s.UnitsKept u → s.UnitsKept { u with ceSupp := c } := fun _ _ h => ⟨h.handoffs, h.lockrecs, h.down, h.pwrs, h.parts, h.stkChs, h.stkCells, h.rids, h.prcs⟩
  exact .ite (.ite ((hc _).ashRaw _ _) (hs _ _ (h'.wr _ _ _))) (h'.ashRaw _ _)

theorem State.unitsKept_ash (s : State) (k : Nat) (e : AshE) : s.UnitsKept (s.ash k e) := (State.UnitsKept.refl s).ash k e

end

/-- A field of the fabric's configuration is not where a core's grate or the spares are counted. -/
theorem State.partition_wr (s : State) {f : Fld} (a : Ix) (v k : Nat) (hf : f.id < 1024) (hn : Reg.chimDestPart.id ≠ f.id) :
    (s.wr f a v).partition k = s.partition k := s.rd_wr_field _ _ _ hf (by decide) hn

/-! ### The Ashpan's own commands -/

section
variable {s : State} {k v src inst code addr peer dom core cls d4 d5 d6 : Nat}

/-- What a unit detects is written as it states it. -/
theorem exec_ashpanWrite_of_up (hu : s.up k = true) (hcls : cls < 6) (hsrc : src < 256) (hinst : inst < 2 ^ 16) (hcode : code < 256)
    (hpeer : peer < 1024) : exec (.ashpanWrite k cls src inst code addr peer dom core d4 d5 d6) s = .next (s.ash k
      { cls := cls, src := src, inst := inst, code := code, addr := addr, peer := peer, part := s.partition k, domain := dom,
        core := core, d4 := d4, d5 := d5, d6 := d6 }) := by
  change execAshpanWrite k cls src inst code addr peer dom core d4 d5 d6 s = _
  simp only [execAshpanWrite, hu, hcls, decide_true, Bool.and_self, if_true, Nat.mod_eq_of_lt hsrc, Nat.mod_eq_of_lt hinst,
    Nat.mod_eq_of_lt hcode, Nat.mod_eq_of_lt hpeer]

theorem exec_ashpanWrite_of_down (hu : s.up k = false) :
    exec (.ashpanWrite k cls src inst code addr peer dom core d4 d5 d6) s = .next s := by
  change execAshpanWrite k cls src inst code addr peer dom core d4 d5 d6 s = _
  simp [execAshpanWrite, hu]

/-- RDPTR takes a value of the live range and names the oldest entry for any other (R507). -/
theorem exec_rdptrWrite (hv : v < 4096) : exec (.rdptrWrite k v) s = .next (s.wr Reg.ashRingRdptr { sock := k }
    (if (v + 4096 - s.ashOldest k) % 4096 ≤ (s.rd Reg.ashRingWrptr { sock := k } + 4096 - s.ashOldest k) % 4096 then v
      else s.ashOldest k)) := by
  change execRdptrWrite k v s = _
  simp only [execRdptrWrite, State.rdptrWrite, Nat.mod_eq_of_lt hv]

/-- The state once a minute's counts of corrected errors are cleared (R509). -/
def State.minuteOver (s : State) (k : Nat) : State :=
  { s with ceCount := cellErase s.ceCount k, ceSupp := cellErase s.ceSupp k }

theorem exec_ceLimitMinute_of_none (h : cellGet 0 s.ceSupp k = 0) : exec (.ceLimitMinute k) s = .next (s.minuteOver k) := by
  change execCeLimitMinute k s = _
  simp only [execCeLimitMinute, h, if_true]
  rfl

/-- Suppressed errors are recorded with their number. -/
theorem exec_ceLimitMinute_of_suppressed (h : cellGet 0 s.ceSupp k ≠ 0) : exec (.ceLimitMinute k) s = .next ((s.minuteOver k).ash k
    { cls := 5, src := 0xA0, code := 0x0B, part := (s.minuteOver k).partition k, d4 := cellGet 0 s.ceSupp k }) := by
  change execCeLimitMinute k s = _
  simp only [execCeLimitMinute, if_neg h]
  rfl

/-- The units of R528 fail their socket. -/
theorem exec_socketFailure_of_unit (hsrc : src ∈ [0x10, 0x20, 0x30, 0x70, 0x80, 0xD0]) (hi : inst < 2 ^ 16) :
    exec (.socketFailure k src inst d4) s = .next (s.socketFail k src inst d4) := by
  change execSocketFailure k src inst d4 s = _
  rw [execSocketFailure, Nat.mod_eq_of_lt hi]
  simp only [List.contains_iff_mem, if_pos hsrc]

/-- Any other source fails none. -/
theorem exec_socketFailure_of_other (hsrc : src ∉ [0x10, 0x20, 0x30, 0x70, 0x80, 0xD0]) :
    exec (.socketFailure k src inst d4) s = .next s := by
  change execSocketFailure k src inst d4 s = _
  simp only [execSocketFailure, List.contains_iff_mem, if_neg hsrc]

theorem exec_nvClr : exec (.nvClr k) s = .next (s.wr Reg.ashNvValid { sock := k } 0) := by
  change execNvClr k s = _
  simp only [execNvClr, State.nvClr]

/-- A socket that fails is down as failed. -/
theorem State.socketFail_down (hu : s.up k = true) : cellGet 0 (s.socketFail k src inst d4).down k = 2 := by
  rw [State.socketFail, if_neg (by simp [hu])]
  simp only [cellGet_set_same]

theorem socketFailure_fails (hsrc : src ∈ [0x10, 0x20, 0x30, 0x70, 0x80, 0xD0]) (hu : s.up k = true) :
    ∃ t : State, exec (.socketFailure k src inst d4) s = .next t ∧ cellGet 0 t.down k = 2 := by
  change ∃ t : State, execSocketFailure k src inst d4 s = .next t ∧ _
  simp only [execSocketFailure, List.contains_iff_mem, if_pos hsrc]
  exact ⟨_, rfl, State.socketFail_down hu⟩

end

/-! ### Spares and grates -/

section
variable {s : State} {k g l : Nat}

theorem State.spareGone_of_noHandoff (h : s.handoffs = []) : s.spareGone k g = s := by
  simp [State.spareGone, h]

/-- A spare that no hand-off uses is marked failed and no longer counted (R517). -/
theorem exec_spareFail_of_spare (hg : s.rd Reg.coreGmapState { sock := k, i := g } = 2) (hh : s.handoffs = []) :
    exec (.spareFail k g) s = .next (((s.wr Reg.coreGmapState { sock := k, i := g } 5).wr Reg.ashSpareLeft { sock := k }
      ((s.wr Reg.coreGmapState { sock := k, i := g } 5).rd Reg.ashSpareLeft { sock := k } - 1)).ash k
        { cls := 2, src := 0x01, inst := g, code := 0x05, part := s.partition k }) := by
  change execSpareFail k g s = _
  have hpart : ((s.wr Reg.coreGmapState { sock := k, i := g } 5).wr Reg.ashSpareLeft { sock := k }
      ((s.wr Reg.coreGmapState { sock := k, i := g } 5).rd Reg.ashSpareLeft { sock := k } - 1)).partition k = s.partition k :=
    (State.partition_wr _ _ _ _ (by decide) (by decide)).trans (State.partition_wr _ _ _ _ (by decide) (by decide))
  rw [execSpareFail, if_neg (not_not.mpr hg)]
  extract_lets s1 s2
  rw [State.spareGone_of_noHandoff ((s2.unitsKept_ash _ _).handoffs.trans hh), hpart]

theorem exec_spareFail_of_other (hg : s.rd Reg.coreGmapState { sock := k, i := g } ≠ 2) : exec (.spareFail k g) s = .next s := by
  change execSpareFail k g s = _
  rw [execSpareFail, if_pos hg]

/-- A grate in use is fenced, its slice retires and its thread asks for a hand-off (R521). -/
theorem exec_grateFence_of_used (hu : s.up k = true) (hg : s.rd Reg.coreGmapState { sock := k, i := g } = 1) :
    exec (.grateFence k g) s = .next ((((s.wr Reg.coreGmapState { sock := k, i := g } 4).wr Reg.coreGmapLogical { sock := k, i := g }
      0).retireReq k g true).handReq k (s.rd Reg.coreGmapLogical { sock := k, i := g })) := by
  change execGrateFence k g s = _
  simp [execGrateFence, hu, hg]

/-- A grate already fenced stays so. -/
theorem exec_grateFence_of_fenced (hg : s.rd Reg.coreGmapState { sock := k, i := g } = 4) : exec (.grateFence k g) s = .next s := by
  change execGrateFence k g s = _
  simp [execGrateFence, hg]

theorem exec_pipelineError_of_unpaired (hu : s.up k = true) (hp : s.activePair k l = none) :
    exec (.pipelineError k l) s = .next (s.handReq k l) := by
  change execPipelineError k l s = _
  simp [execPipelineError, hu, hp]

theorem exec_pipelineError_of_down (hu : s.up k = false) : exec (.pipelineError k l) s = .next s := by
  change execPipelineError k l s = _
  simp [execPipelineError, hu]

end

/-- Settles O49: each command by the lemma about it. -/
theorem ashpan_and_grate_results : Obligations.ashpan_and_grate_results :=
  ⟨fun _ _ _ _ _ _ _ _ _ _ _ _ _ _ => ⟨exec_ashpanWrite_of_up, exec_ashpanWrite_of_down, exec_rdptrWrite,
      ⟨exec_ceLimitMinute_of_none, exec_ceLimitMinute_of_suppressed⟩, exec_nvClr, exec_socketFailure_of_unit (by decide),
      fun hu => socketFailure_fails (by decide) hu, exec_socketFailure_of_other (by decide)⟩,
    fun _ _ _ _ => ⟨exec_spareFail_of_spare, exec_spareFail_of_other, exec_grateFence_of_used, exec_grateFence_of_fenced,
      exec_pipelineError_of_unpaired, exec_pipelineError_of_down⟩⟩

end Sys2Proof.Machine

/-! ## Hand-offs and lockstep recoveries -/

namespace Sys2Proof.Machine

/-! ### The steps of a hand-off (Table RELY-7) -/

/-- A hand-off at step `n`. -/
def State.handStep (s : State) (h : Handoff) (n : Nat) : State := s.setHand h { h with step := n }

section
variable {s t : State} {k l g : Nat} {h : Handoff} {d : Bool}

/-- Draining an empty queue changes neither memory nor, but for that queue, a core. -/
theorem State.drain_of_empty {c : Nat} (hq : (s.core c).storeQ = []) :
    s.drain c = some (s.updCore c (fun k => { k with storeQ := [] })) := by
  simp only [State.drain, hq, State.drainList]

/-- A hand-off asked for with a spare there begins at step 0 (R516, R517). -/
theorem exec_handoffGo_of_spare (hl : l < 256) (hsp : s.spares k ≠ []) (hu : s.up k = true) (hm : s.coreMapped (k * 256 + l) = true)
    (hn : s.handoff (k * 256 + l) = none) : exec (.handoffGo k l) s = .next { s with
      handoffs := s.handoffs ++ [{ core := k * 256 + l, grate := s.rd Reg.coreLmapGrate (coreIx (k * 256 + l)), step := 0, spare := none,
                                   powered := false, errs := (0, 0) }] } := by
  change execHandoffGo k l s = _
  simp [execHandoffGo, State.handoffGo, State.handReq, Nat.mod_eq_of_lt hl, hsp, hu, hm, hn]

theorem exec_handoffGo_of_noSpare (hsp : s.spares k = []) : exec (.handoffGo k l) s = .next s := by
  change execHandoffGo k l s = _
  simp [execHandoffGo, State.handoffGo, hsp]

/-- Step 1: the core stops. -/
theorem exec_handoffStart_of_idle (hh : s.handoff (k * 256 + l) = some h) (h0 : h.step = 0)
    (hb : (s.rd Reg.ashHandoffTiles { sock := k }).testBit (tileOf h.grate) = false) (hdev : (s.core (k * 256 + l)).devWait = none)
    (hwin : (s.core (k * 256 + l)).win = none) (hr : (s.core (k * 256 + l)).region = none) (hw : (s.core (k * 256 + l)).wait = none) :
    exec (.handoffStart k l) s = .next ((((s.updCore (k * 256 + l) (fun q => { q with frozen := true, fence := none })).wr
      Reg.coreLmapState (coreIx (k * 256 + l)) 4).tileBusy k (tileOf h.grate) true).handStep h 1) := by
  change execHandoffStart k l s = _
  simp [execHandoffStart, hh, h0, hb, hdev, hwin, hr, hw, State.updCore, State.handStep]

/-- Steps 2 and 3: the epoch is raised and the spare chosen. -/
theorem exec_handoffRepoch_of_stopped (hh : s.handoff (k * 256 + l) = some h) (h1 : h.step = 1) :
    exec (.handoffRepoch k l) s = .next ((s.actBegin k (actCore h.core)).nextSpare h 2) := by
  change execHandoffRepoch k l s = _
  simp [execHandoffRepoch, hh, h1]

theorem exec_sparePowered_of_taken (hf : s.handoffs.find? (fun h => coreSock h.core = k && h.spare = some g) = some h) :
    exec (.sparePowered k g) s = .next (s.setHand h { h with powered := true }) := by
  change execSparePowered k g s = _
  simp only [execSparePowered, hf]

/-- Step 4. -/
theorem exec_handoffStateRead_of_chosen (hh : s.handoff (k * 256 + l) = some h) (h2 : h.step = 2) :
    exec (.handoffStateRead k l) s = .next (s.handStep h 3) := by
  change execHandoffStateRead k l s = _
  simp only [execHandoffStateRead, hh, if_pos h2]
  rfl

theorem exec_handoffStateRead_of_otherStep (hh : s.handoff (k * 256 + l) = some h) (hn : h.step ≠ 2) :
    exec (.handoffStateRead k l) s = .next s := by
  change execHandoffStateRead k l s = _
  simp only [execHandoffStateRead, hh, if_neg hn]

/-- Step 5. -/
theorem exec_handoffStoresRead_of_read (hh : s.handoff (k * 256 + l) = some h) (h3 : h.step = 3) :
    exec (.handoffStoresRead k l) s = .next (s.handStep h 4) := by
  change execHandoffStoresRead k l s = _
  simp only [execHandoffStoresRead, hh, if_pos h3]
  rfl

/-- Step 6: with the spare powered. -/
theorem exec_handoffL2Emptied_of_powered (hh : s.handoff (k * 256 + l) = some h) (h4 : h.step = 4) (hp : h.powered = true) :
    exec (.handoffL2Emptied k l) s = .next ((s.emptyL2 h.core).handStep h 5) := by
  change execHandoffL2Emptied k l s = _
  simp [execHandoffL2Emptied, hh, h4, hp, State.handStep]

theorem exec_handoffL2Emptied_of_unpowered (hh : s.handoff (k * 256 + l) = some h) (hp : h.powered = false) :
    exec (.handoffL2Emptied k l) s = .next s := by
  change execHandoffL2Emptied k l s = _
  simp [execHandoffL2Emptied, hh, hp]

/-- Step 7: the core map changes. -/
theorem exec_spareLoaded_of_powered (hh : s.handoff (k * 256 + l) = some h) (h5 : h.step = 5) (hsp : h.spare = some g)
    (hp : h.powered = true) : exec (.spareLoaded k l) s = .next
      (((((s.grateOut k h.grate).grateIn h.core g).updCore h.core Core.newGrate).bump Reg.coreLmapMoves (coreIx h.core)).setHand h
        { h with step := 6, errs := s.errWords h.core }) := by
  change execSpareLoaded k l s = _
  simp [execSpareLoaded, hh, h5, hsp, hp]

theorem exec_spareLoaded_of_unpowered (hh : s.handoff (k * 256 + l) = some h) (hp : h.powered = false) :
    exec (.spareLoaded k l) s = .next s := by
  change execSpareLoaded k l s = _
  simp only [execSpareLoaded, hh, hp]
  split <;> simp

/-- A hand-off's end leaves memory and the cores alone. -/
theorem State.handEnd_mem_cores (s : State) (h : Handoff) : (s.handEnd h).mem = s.mem ∧ (s.handEnd h).cores = s.cores := ⟨rfl, rfl⟩

/-- Step 8: the thread goes on, its stores performed. -/
theorem exec_handoffResume_of_drained (hh : s.handoff (k * 256 + l) = some h) (h6 : h.step = 6) (hd : s.drain h.core = some t) :
    ∃ u : State, exec (.handoffResume k l) s = .next u ∧ u.mem = t.mem ∧ (u.core h.core).frozen = false := by
  change ∃ u : State, execHandoffResume k l s = .next u ∧ _
  rw [execHandoffResume, hh]
  simp only [h6, ne_eq, not_true_eq_false, if_false, hd]
  generalize hs1 : t.updCore h.core (fun q => { q with frozen := false }) = s1
  have hrest : ∀ (u : State) e, u.mem = s1.mem ∧ u.cores = s1.cores →
      ((u.ash k e).handEnd h).mem = t.mem ∧ (((u.ash k e).handEnd h).core h.core).frozen = false := by
    rintro u e ⟨hmem, hcores⟩
    obtain ⟨hmem', hcores'⟩ := (u.ash k e).handEnd_mem_cores h
    refine ⟨hmem'.trans ((u.reported_ash k e).mem.trans (hmem.trans (by rw [← hs1]; rfl))), ?_⟩
    rw [State.core, hcores', (u.reported_ash k e).cores, hcores, ← hs1]
    exact congrArg Core.frozen (t.core_updCore_same h.core _)
  refine ⟨_, rfl, hrest _ _ ?_⟩
  split <;> exact ⟨rfl, rfl⟩

/-- A source that fails in steps 4 to 6 loses a thread that no checker runs (R519). -/
theorem exec_handoffSourceFail_of_unpaired (hh : s.handoff (k * 256 + l) = some h) (h3 : h.step = 3) (hp : s.activePair k l = none) :
    exec (.handoffSourceFail k l d) s = .next ((s.handEnd h).threadLost h.core 4 d) := by
  change execHandoffSourceFail k l d s = _
  simp [execHandoffSourceFail, hh, h3, hp]

theorem exec_handoffSourceFail_of_loaded (hh : s.handoff (k * 256 + l) = some h) (h6 : h.step = 6) :
    exec (.handoffSourceFail k l d) s = .next s := by
  change execHandoffSourceFail k l d s = _
  simp [execHandoffSourceFail, hh, h6]

end

/-! ### A pair's recovery (Tables RELY-8 and RELY-10) -/

section
variable {s : State} {k p g : Nat} {r : LockRec}

theorem exec_lockstepMismatch_of_active (ha : s.rd Reg.ashLsState (lsIx k p) = 2) (hu : s.up k = true) :
    exec (.lockstepMismatch k p) s = .next ((s.bump Reg.ashLsMismatch (lsIx k p)).lockStart k p false false) := by
  change execLockstepMismatch k p s = _
  simp [execLockstepMismatch, ha, hu]

theorem exec_lockstepMismatch_of_other (ha : s.rd Reg.ashLsState (lsIx k p) ≠ 2) : exec (.lockstepMismatch k p) s = .next s := by
  change execLockstepMismatch k p s = _
  simp [execLockstepMismatch, ha]

theorem exec_lockstepRepoch_of_stopped (hr : s.lockrec k p = some r) (h1 : r.step = 1) :
    exec (.lockstepRepoch k p) s = .next ((s.actBegin k (actCore (s.lsMain k p))).setLock r { r with step := 2 }) := by
  change execLockstepRepoch k p s = _
  simp only [execLockstepRepoch, hr, if_pos h1]

/-- One self-test failed: that core's grate is to be replaced (4a, 4b). -/
theorem exec_lockstepSelftestDone_of_one (hr : s.lockrec k p = some r) (h2 : r.step = 2) (hm : r.mainBad = false)
    (hc : r.chkBad = false) (m : Bool) : exec (.lockstepSelftestDone k p m !m) s =
      .next (s.setLock r { r with step := 3, res := if m then 2 else 1 }) := by
  change execLockstepSelftestDone k p m (!m) s = _
  cases m <;> simp [execLockstepSelftestDone, hr, h2, hm, hc]

/-- Both passed, below TLIM: a transient (4c). -/
theorem exec_lockstepSelftestDone_of_both (hr : s.lockrec k p = some r) (h2 : r.step = 2) (hm : r.mainBad = false)
    (hc : r.chkBad = false) (ht : (s.bump Reg.ashLsTransient (lsIx k p)).rd Reg.ashLsTransient (lsIx k p) <
      s.rd Reg.ashLscfgTlim { sock := k }) : exec (.lockstepSelftestDone k p true true) s =
        .next (((s.bump Reg.ashLsTransient (lsIx k p)).lockResume r 2).lsAsh k p 2 0x06 0) := by
  change execLockstepSelftestDone k p true true s = _
  have htlim : (s.bump Reg.ashLsTransient (lsIx k p)).rd Reg.ashLscfgTlim { sock := k } = s.rd Reg.ashLscfgTlim { sock := k } :=
    s.rd_bump_field _ _ (by decide) (by decide) (by decide)
  simp [execLockstepSelftestDone, hr, h2, hm, hc, htlim, ht]

/-- With the checker's grate out of use a spare of the tile takes its place. -/
theorem exec_lockstepRepaired_of_spare (hr : s.lockrec k p = some r) (h3 : r.step = 3) (h2 : r.res = 2)
    (hg : (s.grateOut k (s.rd Reg.coreLmapGrate (coreIx (s.lsChk k p)))).pickSpare k
      (s.rd Reg.coreLmapGrate (coreIx (s.lsMain k p))) true = some g) :
    exec (.lockstepRepaired k p) s = .next ((((s.grateOut k (s.rd Reg.coreLmapGrate (coreIx (s.lsChk k p)))).grateIn (s.lsChk k p)
      g).wr Reg.ashLsState (lsIx k p) 1).setLock r { r with step := 4 }) := by
  change execLockstepRepaired k p s = _
  simp [execLockstepRepaired, hr, h3, h2, hg]

/-- With none there the thread goes on alone. -/
theorem exec_lockstepRepaired_of_noSpare (hr : s.lockrec k p = some r) (h3 : r.step = 3) (h2 : r.res = 2)
    (hg : (s.grateOut k (s.rd Reg.coreLmapGrate (coreIx (s.lsChk k p)))).pickSpare k
      (s.rd Reg.coreLmapGrate (coreIx (s.lsMain k p))) true = none) :
    exec (.lockstepRepaired k p) s = .next ((s.grateOut k (s.rd Reg.coreLmapGrate (coreIx (s.lsChk k p)))).unpair r) := by
  change execLockstepRepaired k p s = _
  simp [execLockstepRepaired, hr, h3, h2, hg]

/-- A configured pair is tested when it satisfies R522, and recorded when it does not. -/
theorem exec_comparatorTest_of_configured (hf : (s.part k).full = true) (hp : p < 128) (he : s.rd Reg.ashLsEn (lsIx k p) = 1)
    (h0 : s.rd Reg.ashLsState (lsIx k p) = 0) :
    exec (.comparatorTest k p) s = .next (if s.pairOk k p then s.wr Reg.ashLsState (lsIx k p) 1
      else s.ash k { cls := 5, src := 0x03, inst := p, code := 0x0A, part := s.partition k }) := by
  change execComparatorTest k p s = _
  simp [execComparatorTest, hf, Nat.not_le.mpr hp, he, h0]

theorem State.lockrec_lsAsh (s : State) (k p k' p' cls code w4 : Nat) : (s.lsAsh k' p' cls code w4).lockrec k p = s.lockrec k p := by
  rw [State.lockrec, State.lsAsh, (s.unitsKept_ash _ _).lockrecs, State.lockrec]

/-- A new pair whose comparator passes is ACTIVE. -/
theorem exec_comparatorTestDone_of_passed (h1 : s.rd Reg.ashLsState (lsIx k p) = 1) (hr : s.lockrec k p = none) :
    exec (.comparatorTestDone k p true) s = .next (((s.wr Reg.coreLmapState (coreIx (s.lsMain k p)) 2).wr Reg.coreLmapState
      (coreIx (s.lsChk k p)) 3).wr Reg.ashLsState (lsIx k p) 2) := by
  have hr' : ∀ a b c, (((s.wr Reg.coreLmapState a 2).wr Reg.coreLmapState b 3).wr Reg.ashLsState c 2).lockrec k p = none :=
    fun _ _ _ => hr
  change execComparatorTestDone k p true s = _
  simp [execComparatorTestDone, h1, hr']

/-- One whose comparator fails is CMPFAIL. -/
theorem exec_comparatorTestDone_of_failed (h1 : s.rd Reg.ashLsState (lsIx k p) = 1) (hr : s.lockrec k p = none) :
    exec (.comparatorTestDone k p false) s = .next ((s.wr Reg.ashLsState (lsIx k p) 5).lsAsh k p 3 0x03 0) := by
  have hr' : (s.wr Reg.ashLsState (lsIx k p) 5).lockrec k p = none := hr
  change execComparatorTestDone k p false s = _
  simp [execComparatorTestDone, h1, State.lockrec_lsAsh, hr']

theorem exec_comparatorTestDone_of_untested (h1 : s.rd Reg.ashLsState (lsIx k p) ≠ 1) (b : Bool) :
    exec (.comparatorTestDone k p b) s = .next s := by
  change execComparatorTestDone k p b s = _
  simp [execComparatorTestDone, h1]

end

/-- Settles O50: each step's command by the lemma about it. -/
theorem handoff_and_lockstep_results : Obligations.handoff_and_lockstep_results := by
  refine ⟨fun k l g h s => ⟨exec_handoffGo_of_spare, exec_handoffGo_of_noSpare, fun hh => ?steps, exec_sparePowered_of_taken⟩,
    fun k p r s => ⟨exec_lockstepMismatch_of_active, exec_lockstepMismatch_of_other, fun hr => ?recovery,
      exec_comparatorTest_of_configured, fun h1 hr => ⟨exec_comparatorTestDone_of_passed h1 hr, exec_comparatorTestDone_of_failed h1 hr⟩,
      fun h2 => exec_comparatorTestDone_of_untested (by omega)⟩⟩
  case steps =>
    exact ⟨exec_handoffStart_of_idle hh, exec_handoffRepoch_of_stopped hh, exec_handoffStateRead_of_chosen hh,
      exec_handoffStoresRead_of_read hh, exec_handoffL2Emptied_of_powered hh, fun _ => exec_handoffL2Emptied_of_unpowered hh,
      exec_spareLoaded_of_powered hh, fun _ => exec_spareLoaded_of_unpowered hh, fun _ => exec_handoffResume_of_drained hh,
      fun h6 hq => (exec_handoffResume_of_drained hh h6 (State.drain_of_empty hq) :),
      fun h3 hp _ => exec_handoffSourceFail_of_unpaired hh h3 hp,
      fun h6 _ => ⟨exec_handoffSourceFail_of_loaded hh h6, exec_handoffStateRead_of_otherStep hh (by omega)⟩⟩
  case recovery =>
    exact ⟨exec_lockstepRepoch_of_stopped hr, fun h2 hm hc => ⟨exec_lockstepSelftestDone_of_one hr h2 hm hc false,
        exec_lockstepSelftestDone_of_one hr h2 hm hc true, exec_lockstepSelftestDone_of_both hr h2 hm hc⟩,
      fun h3 h2 => ⟨fun _ => exec_lockstepRepaired_of_spare hr h3 h2, exec_lockstepRepaired_of_noSpare hr h3 h2⟩⟩

end Sys2Proof.Machine

/-! ## Power sequences (R532-R536, R562-R564, Table POWR-2) -/

namespace Sys2Proof.Machine

/-! ### A socket's power control -/

section
variable {s t : State} {k : Nat}

@[simp] theorem State.pw_updPw (s : State) (k : Nat) (f : Pwr → Pwr) : (s.updPw k f).pw k = f (s.pw k) := cellGet_set_same _ _ _ _

@[simp] theorem State.pw_wr (s : State) (f : Fld) (a : Ix) (v k : Nat) : (s.wr f a v).pw k = s.pw k := rfl

theorem State.wrs_pwrs (s : State) (a : Ix) (l : List (Fld × Nat)) : (s.wrs a l).pwrs = s.pwrs := by
  induction l generalizing s with
  | nil => rfl
  | cons e l ih => exact ih (s.wr e.1 a e.2)

theorem State.rd_mgcs (s : State) (m : Cells Mgc) (f : Fld) (a : Ix) : ({ s with mgcs := m } : State).rd f a = s.rd f a := rfl

@[simp] theorem State.rd_updPw (s : State) (k : Nat) (g : Pwr → Pwr) (f : Fld) (a : Ix) : (s.updPw k g).rd f a = s.rd f a := rfl

@[simp] theorem State.updPw_down (s : State) (k : Nat) (f : Pwr → Pwr) : (s.updPw k f).down = s.down := rfl

@[simp] theorem State.updPw_mem (s : State) (k : Nat) (f : Pwr → Pwr) : (s.updPw k f).mem = s.mem := rfl

theorem State.UnitsKept.pw (h : s.UnitsKept t) (k : Nat) : t.pw k = s.pw k := by
  rw [State.pw, h.pwrs, State.pw]

/-! ### Losing a socket's seats and caches keeps the records of its units -/

theorem State.UnitsKept.updCore (h : s.UnitsKept t) (c : Nat) (f : Core → Core) : s.UnitsKept (t.updCore c f) :=
  ⟨h.handoffs, h.lockrecs, h.down, h.pwrs, h.parts, h.stkChs, h.stkCells, h.rids, h.prcs⟩

theorem State.UnitsKept.release (h : s.UnitsKept t) (c : Nat) : s.UnitsKept (t.release c) :=
  ⟨h.handoffs, h.lockrecs, h.down, h.pwrs, h.parts, h.stkChs, h.stkCells, h.rids, h.prcs⟩

theorem State.UnitsKept.vaultTrigger (h : s.UnitsKept t) (g : Nat) : s.UnitsKept (t.vaultTrigger g) :=
  .ite ⟨h.handoffs, h.lockrecs, h.down, h.pwrs, h.parts, h.stkChs, h.stkCells, h.rids, h.prcs⟩ h

theorem State.UnitsKept.giveUpSeat (h : s.UnitsKept t) (c : Nat) : s.UnitsKept (t.setWorld c none) := by
  unfold State.setWorld
  extract_lets old t1 t2 busy t3
  have h2 : s.UnitsKept t2 := (h.updCore _ _).wr _ _ _
  have h3 : s.UnitsKept t3 := by
    dsimp only [t3, old]
    split
    · exact h2.wr _ _ _
    · exact h2
  exact h3

theorem State.UnitsKept.setPoison (h : s.UnitsKept t) (ln : Nat) (b : Bool) : s.UnitsKept (t.setPoison ln b) :=
  ⟨h.handoffs, h.lockrecs, h.down, h.pwrs, h.parts, h.stkChs, h.stkCells, h.rids, h.prcs⟩

theorem State.UnitsKept.wroteHome (h : s.UnitsKept t) (ln : Nat) : s.UnitsKept (t.wroteHome ln) :=
  ⟨h.handoffs, h.lockrecs, h.down, h.pwrs, h.parts, h.stkChs, h.stkCells, h.rids, h.prcs⟩

theorem State.UnitsKept.setBits (h : s.UnitsKept t) (ln : Nat) (b : DirBits) : s.UnitsKept (t.setBits ln b) :=
  ⟨h.handoffs, h.lockrecs, h.down, h.pwrs, h.parts, h.stkChs, h.stkCells, h.rids, h.prcs⟩

theorem State.UnitsKept.poisonOwned (h : s.UnitsKept t) (c : Nat) : s.UnitsKept (t.poisonOwned c) := by
  refine h.foldl (fun u e hu => ?_) _
  split
  · exact ((hu.setPoison _ _).wroteHome _).setBits _ _
  · exact hu

theorem State.UnitsKept.seatsGone (h : s.UnitsKept t) (k : Nat) : s.UnitsKept (t.seatsGone k) := by
  refine h.foldl (fun u e hu => ?_) _
  split
  · exact (hu.vaultTrigger _).giveUpSeat _
  · exact hu

theorem State.UnitsKept.socketGone (h : s.UnitsKept t) (k : Nat) : s.UnitsKept (t.socketGone k) := by
  unfold State.socketGone
  extract_lets cs t'
  have ht : s.UnitsKept t' := h.foldl (fun u c hu => ((hu.poisonOwned c).release c).updCore c _) _
  exact ⟨ht.handoffs, ht.lockrecs, ht.down, ht.pwrs, ht.parts, ht.stkChs, ht.stkCells, ht.rids, ht.prcs⟩

end

/-! ### Requests -/

section
variable {s : State} {k ms src i : Nat}

/-- A power-on request of a socket that is Off, with no restart condition to wait for, starts the power-up sequence (R534). -/
theorem State.powerOn_of_off (h4 : (s.pw k).seq = 4) (hs : (s.pw k).save = none) (hn : (s.pw k).need = false) :
    s.powerOn k src i = (s.updPw k (fun p => { p with wake := some (src, i) })).powerUp k := by
  simp [State.powerOn, h4, hs, hn]

/-- One during a power-down is latched (R536). -/
theorem State.powerOn_of_poweringDown (h6 : (s.pw k).seq = 6) (hs : (s.pw k).save = none) :
    s.powerOn k src i = (s.wr Reg.pwrPkgPendreq { sock := k } 1).updPw k (fun p => { p with wake := some (src, i) }) := by
  simp [State.powerOn, h6, hs]

/-- A power-off request of a running socket starts the power-down sequence. -/
theorem State.powerOff_of_running (h0 : (s.pw k).seq = 0) (hs : (s.pw k).save = none) (hu : s.up k = true) :
    s.powerOff k = s.powerDown k := by
  have hd : cellGet 0 s.down k = 0 := by simpa [State.up] using hu
  simp [State.powerOff, h0, hs, hd]

theorem exec_powerOnRequest : exec (.powerOnRequest k) s = .next (s.powerOn k 5 0) := by
  change execPowerOnRequest k s = _
  rw [execPowerOnRequest]

theorem exec_powerOffRequest : exec (.powerOffRequest k) s = .next (s.powerOff k) := by
  change execPowerOffRequest k s = _
  rw [execPowerOffRequest]

/-- A press of 10 ms up to 4 s of a socket that neither runs nor powers up asks for power-on. -/
theorem exec_pwrbtn_short (h10 : 10 ≤ ms) (h4 : ms < 4000) (h0 : (s.pw k).seq ≠ 0) (h5 : (s.pw k).seq ≠ 5) :
    exec (.pwrbtn k ms) s = .next (s.powerOn k 6 0) := by
  change execPwrbtn k ms s = _
  simp [execPwrbtn, Nat.not_le.mpr h4, h10, h0, h5]

theorem exec_pwrbtn_long (h4 : 4000 ≤ ms) : exec (.pwrbtn k ms) s = .next (s.powerOff k) := by
  change execPwrbtn k ms s = _
  rw [execPwrbtn, if_pos h4]

theorem exec_pwrbtn_bounce (h10 : ms < 10) : exec (.pwrbtn k ms) s = .next s := by
  change execPwrbtn k ms s = _
  rw [execPwrbtn, if_neg (by omega), if_neg (by simp [h10])]

end

/-! ### The power-up sequence -/

section
variable {s : State} {k w i : Nat}

theorem exec_standbyRailsValid (h1 : (s.pw k).seq = 1) :
    exec (.standbyRailsValid k) s = .next (s.updPw k (fun p => { p with seq := 2 })) := by
  change execStandbyRailsValid k s = _
  rw [execStandbyRailsValid, if_pos h1]

theorem exec_standbyRailsValid_of_other (h1 : (s.pw k).seq ≠ 1) : exec (.standbyRailsValid k) s = .next s := by
  change execStandbyRailsValid k s = _
  rw [execStandbyRailsValid, if_neg h1]

/-- What the standby domain has latched when RST# is released: the request in PENDREQ, the management bus, no dynamic address, and
the strap's identity (step 1 of Table POWR-11, R607). -/
def State.strapped (s : State) (k : Nat) (b : Bool) : State :=
  (s.coldSock k).wrs { sock := k } [(Reg.pwrPkgPendreq, s.rd Reg.pwrPkgPendreq { sock := k }), (Reg.pwrMgcStatI3c, if b then 1 else 0),
    (Reg.pwrMgcStatDynaddr, 0), (Reg.rootSocket, s.strap k)]

theorem State.strapped_i3c (s : State) (k : Nat) (b : Bool) : (s.strapped k b).rd Reg.pwrMgcStatI3c { sock := k } = if b then 1 else 0 := by
  refine (State.rd_wr_field _ _ _ _ (by decide) (by decide) (by decide)).trans ?_
  refine (State.rd_wr_field _ _ _ _ (by decide) (by decide) (by decide)).trans ((State.rd_wr_same _ _ _ _).trans ?_)
  cases b <;> rfl

theorem State.strapped_dynaddr (s : State) (k : Nat) (b : Bool) : (s.strapped k b).rd Reg.pwrMgcStatDynaddr { sock := k } = 0 :=
  (State.rd_wr_field _ _ _ _ (by decide) (by decide) (by decide)).trans (State.rd_wr_same _ _ _ _)

theorem execRstDeassert_of_held (h2 : (s.pw k).seq = 2) (b : Bool) : execRstDeassert k b s = .next
    (({ s.strapped k b with mgcs := cellErase (s.strapped k b).mgcs k } : State).updPw k (fun p => { p with seq := 3 })) := by
  rw [execRstDeassert, if_pos h2]
  rfl

/-- RST# released: the management controller starts on the strapped bus, with no dynamic address. -/
theorem exec_rstDeassert (h2 : (s.pw k).seq = 2) (b : Bool) : ∃ t : State, exec (.rstDeassert k b) s = .next t ∧ (t.pw k).seq = 3 ∧
    t.rd Reg.pwrMgcStatI3c { sock := k } = (if b then 1 else 0) ∧ t.rd Reg.pwrMgcStatDynaddr { sock := k } = 0 := by
  change ∃ t : State, execRstDeassert k b s = .next t ∧ _
  refine ⟨_, execRstDeassert_of_held h2 b, ?_, ?_, ?_⟩
  · rw [State.pw_updPw]
  · exact (State.rd_updPw _ _ _ _ _).trans ((State.rd_mgcs _ _ _ _).trans (s.strapped_i3c k b))
  · exact (State.rd_updPw _ _ _ _ _).trans ((State.rd_mgcs _ _ _ _).trans (s.strapped_dynaddr k b))

/-- With no image that verifies the socket stays in cold reset (R559). -/
theorem exec_bootVerify_of_none (h3 : (s.pw k).seq = 3) (x y : List Byte) :
    ∃ t : State, exec (.bootVerify k false false x y) s = .next t ∧ (t.pw k).seq = 7 ∧ cellGet 0 t.down k = 3 := by
  change ∃ t : State, execBootVerify k false false x y s = .next t ∧ _
  have hgo : ¬ (s.pw k).seq ≠ 3 := not_not.mpr h3
  simp only [execBootVerify, if_neg hgo, Bool.not_false, Bool.and_self, if_true]
  have hk := (State.UnitsKept.refl (({ s with down := cellSet 0 s.down k 3 } : State).updPw k (fun p => { p with seq := 7 }))).mgcReason k 5
  refine ⟨_, rfl, ?_, ?_⟩
  · rw [hk.pw, State.pw_updPw]
  · rw [hk.down, State.updPw_down, cellGet_set_same]

/-- With slot A verified and no request latched the socket is Off, its image in the boot window. -/
theorem exec_bootVerify_of_slotA (h3 : (s.pw k).seq = 3) (x y : List Byte) (hp : (s.loadBoot k x).rd Reg.pwrPkgPendreq { sock := k } = 0)
    (hd : cellGet 0 (s.loadBoot k x).down k = 1) :
    exec (.bootVerify k true true x y) s = .next ((s.loadBoot k x).updPw k (fun p => { p with seq := 4 })) := by
  change execBootVerify k true true x y s = _
  simp [execBootVerify, h3, hp, hd]

theorem exec_pwrokAssert_of_poweredOff (h5 : (s.pw k).seq = 5) (hp : s.rd Reg.pwrPkgPendreq { sock := k } = 2) :
    exec (.pwrokAssert k []) s = .next (s.powerDown k) := by
  change execPwrokAssert k [] s = _
  simp [execPwrokAssert, h5, hp]

/-- What woke a socket is recorded (R550). -/
theorem State.rd_lastWake (s : State) (k src i : Nat) : (s.lastWake k src i).rd Reg.pwrLastwakeSrc { sock := k } = src % 2 ^ Reg.pwrLastwakeSrc.w :=
  (State.rd_wr_field _ _ _ _ (by decide) (by decide) (by decide)).trans
    ((State.rd_wr_field _ _ _ _ (by decide) (by decide) (by decide)).trans
      ((State.rd_wr_field _ _ _ _ (by decide) (by decide) (by decide)).trans (State.rd_wr_same _ _ _ _)))

theorem State.rd_lastWake_pkgState (s : State) (k src i : Nat) :
    (s.lastWake k src i).rd Reg.pwrPkgState { sock := k } = s.rd Reg.pwrPkgState { sock := k } :=
  (State.rd_wr_field _ _ _ _ (by decide) (by decide) (by decide)).trans
    ((State.rd_wr_field _ _ _ _ (by decide) (by decide) (by decide)).trans
      ((State.rd_wr_field _ _ _ _ (by decide) (by decide) (by decide)).trans
        (State.rd_wr_field _ _ _ _ (by decide) (by decide) (by decide))))

@[simp] theorem State.pw_lastWake (s : State) (k src i j : Nat) : (s.lastWake k src i).pw j = s.pw j := by
  rw [State.pw, State.lastWake, State.wrs_pwrs, State.pw]

/-- The main rails are valid: the socket runs, and shows what woke it. -/
theorem exec_pwrokAssert_of_woken (h5 : (s.pw k).seq = 5) (hp : s.rd Reg.pwrPkgPendreq { sock := k } = 0)
    (hw : (s.pw k).wake = some (w, i)) :
    ∃ t : State, exec (.pwrokAssert k []) s = .next t ∧ t.up k = true ∧ t.rd Reg.pwrPkgState { sock := k } = 0 ∧ (t.pw k).seq = 0 ∧
      t.rd Reg.pwrLastwakeSrc { sock := k } = w % 2 ^ Reg.pwrLastwakeSrc.w := by
  change ∃ t : State, execPwrokAssert k [] s = .next t ∧ _
  have hgo : ¬ (s.pw k).seq ≠ 5 := not_not.mpr h5
  have hno : ¬ s.rd Reg.pwrPkgPendreq { sock := k } = 2 := by omega
  simp only [execPwrokAssert, if_neg hgo, if_neg hno, hw, List.foldl_nil]
  refine ⟨_, rfl, ?_, ?_, ?_, State.rd_lastWake _ _ _ _⟩
  · have hd : cellGet 0 (cellErase s.down k) k = 0 := by simp [cellGet]
    exact decide_eq_true hd
  · rw [State.rd_lastWake_pkgState, State.rd_wr_field _ _ _ _ (by decide) (by decide) (by decide)]
    exact State.rd_wr_same _ _ _ _
  · rw [State.pw_lastWake, State.pw_wr, State.pw_wr, State.pw_updPw]

end

/-! ### Faults (Table POWR-3) -/

section
variable {s : State} {k die cause : Nat}

theorem exec_pwrokLoss_of_poweringDown (h6 : (s.pw k).seq = 6) (b : Bool) : exec (.pwrokLoss k b) s = .next (s.offNow k) := by
  change execPwrokLoss k b s = _
  rw [execPwrokLoss, if_pos h6]

/-- Without PWRFAIL# the loss of a main rail is a fatal fault. -/
theorem exec_pwrokLoss_of_running (h0 : (s.pw k).seq = 0) : exec (.pwrokLoss k false) s = .next (s.powerFatal k) := by
  change execPwrokLoss k false s = _
  simp [execPwrokLoss, h0]

theorem exec_refclkLoss : exec (.refclkLoss k) s = .next (s.powerFatal k) := by
  change execRefclkLoss k s = _
  rw [execRefclkLoss]

theorem exec_meshPllUnlock : exec (.meshPllUnlock k die) s = .next (s.powerFatal k) := by
  change execMeshPllUnlock k die s = _
  rw [execMeshPllUnlock]

theorem exec_junctionFatal (hu : s.up k = true) :
    exec (.junctionFatal k) s = .next ((s.powerFatal k).updPw k (fun p => { p with therm := true })) := by
  change execJunctionFatal k s = _
  rw [execJunctionFatal, if_pos hu]

theorem exec_vholdLow (h0 : (s.pw k).seq = 0) (hu : s.up k = true) : exec (.vholdLow k) s = .next (s.pwrAsh k 5) := by
  change execVholdLow k s = _
  simp [execVholdLow, h0, hu]

end

/-! ### The hold-up save (R562-R564) -/

section
variable {s : State} {k cause dur : Nat}

/-- A first trigger of a running socket starts a save. -/
theorem exec_holdupTrigger_of_first (hs : (s.pw k).save = none) (hd : (s.pw k).saved = false) (h0 : (s.pw k).seq = 0)
    (h1 : 1 ≤ cause) (h3 : cause ≤ 3) : exec (.holdupTrigger k cause) s = .next ((((s.wr Reg.pwrPkgState { sock := k } 5).updPw k
      (fun p => { p with save := some (cause, s.rd Reg.pwrPkgState { sock := k }), saved := true })).pwrAsh k 5).mgcReason k 2) := by
  change execHoldupTrigger k cause s = _
  simp [execHoldupTrigger, hs, hd, h0, Nat.not_lt.mpr h3, Nat.ne_of_gt h1]

theorem exec_saveCommit_of_none (hs : (s.pw k).save = none) : exec (.saveCommit k dur) s = .next s := by
  change execSaveCommit k dur s = _
  simp only [execSaveCommit, hs]

/-- A socket that needs the restart condition stays Off. -/
theorem State.offNow_of_need (hn : (s.pw k).need = true) :
    cellGet 0 (s.offNow k).down k = 1 ∧ (s.offNow k).pw k = { s.pw k with seq := 4, stby := false } := by
  unfold State.offNow
  extract_lets t u
  have hpw : u.pw k = { s.pw k with seq := 4, stby := false } := State.pw_updPw _ _ _
  have hgo : ¬ (decide (u.rd Reg.pwrPkgPendreq { sock := k } = 1) && !(u.pw k).need) = true := by
    rw [hpw]
    simp [hn]
  rw [if_neg hgo]
  exact ⟨cellGet_set_same 0 t.down k 1, hpw⟩

/-- A save's end leaves the socket Off until the restart condition. -/
theorem exec_saveCommit_of_saving {c : Nat × Nat} (hs : (s.pw k).save = some c) :
    ∃ t : State, exec (.saveCommit k dur) s = .next t ∧ cellGet 0 t.down k = 1 ∧ (t.pw k).need = true ∧ (t.pw k).save = none := by
  change ∃ t : State, execSaveCommit k dur s = .next t ∧ _
  simp only [execSaveCommit, hs]
  generalize ((s.saveRecord k (if c.1 = 4 then 2 else 1)).wrs { sock := k } [(Reg.pwrSaveCause, c.1), (Reg.pwrSaveStateat, c.2),
    (Reg.pwrSaveDone, 1), (Reg.pwrSaveDuration, dur)]).bump Reg.pwrSaveSaves { sock := k } = t
  have hpw : ((t.updPw k (fun p => { p with save := none, need := true })).seatsGone k |>.socketGone k).pw k =
      { t.pw k with save := none, need := true } :=
    ((((State.UnitsKept.refl _).seatsGone k).socketGone k).pw k).trans (State.pw_updPw _ _ _)
  obtain ⟨hdown, hoff⟩ := State.offNow_of_need (k := k)
    (s := ((t.updPw k (fun p => { p with save := none, need := true })).seatsGone k).socketGone k) (by rw [hpw])
  exact ⟨_, rfl, hdown, by rw [hoff, hpw], by rw [hoff, hpw]⟩

theorem exec_restartCondition_of_poweredOff (h4 : (s.pw k).seq = 4) (hn : (s.pw k).need = true)
    (hp : s.rd Reg.pwrPkgPendreq { sock := k } = 2) : exec (.restartCondition k) s = .next
      ((s.updPw k (fun p => { p with need := false })).wr Reg.pwrPkgPendreq { sock := k } 0) := by
  change execRestartCondition k s = _
  simp [execRestartCondition, h4, hn, hp]

theorem exec_standbyRailLoss : ∃ t : State, exec (.standbyRailLoss k) s = .next t ∧ cellGet 0 t.down k = 1 ∧ (t.pw k).seq = 1 := by
  change ∃ t : State, execStandbyRailLoss k s = .next t ∧ _
  rw [execStandbyRailLoss]
  exact ⟨_, rfl, cellGet_set_same 0 _ k 1, congrArg Pwr.seq (State.pw_updPw _ k _)⟩

end

/-- Settles O51: each event of the sequences by the lemma about it. -/
theorem power_sequence_results : Obligations.power_sequence_results := by
  intro k ms w die cause dur s a p
  refine ⟨fun h4 hs hn => ⟨?on, fun h10 hms => ?button⟩, fun h6 hs => ?latched, fun h0 hs hu => ⟨?off, fun hms => ?held⟩,
    exec_pwrbtn_bounce, exec_standbyRailsValid, exec_standbyRailsValid_of_other, exec_rstDeassert, exec_bootVerify_of_none,
    exec_bootVerify_of_slotA, exec_pwrokAssert_of_woken, exec_pwrokAssert_of_poweredOff,
    fun h6 => exec_pwrokLoss_of_poweringDown h6 false, exec_pwrokLoss_of_running, exec_refclkLoss, exec_meshPllUnlock,
    exec_junctionFatal, exec_vholdLow, exec_holdupTrigger_of_first, exec_saveCommit_of_none,
    fun c hs _ _ => exec_saveCommit_of_saving hs, exec_restartCondition_of_poweredOff, exec_standbyRailLoss⟩
  case on => rw [exec_powerOnRequest, State.powerOn_of_off h4 hs hn]
  case button => rw [exec_pwrbtn_short h10 hms (h4.trans_ne (by decide)) (h4.trans_ne (by decide)), State.powerOn_of_off h4 hs hn]
  case latched => rw [exec_powerOnRequest, State.powerOn_of_poweringDown h6 hs]
  case off => rw [exec_powerOffRequest, State.powerOff_of_running h0 hs hu]
  case held => rw [exec_pwrbtn_long hms, State.powerOff_of_running h0 hs hu]

end Sys2Proof.Machine

/-! ## The reset of a core beyond the fabric (R557) -/

namespace Sys2Proof.Machine

/-- A fabric has sockets 0 to 1023, and core `k * 256 + l` is an agent's number from 2^20 up (log entry 22, R492): a reset of core 0 of
"socket 4096" starts core 2^20 at the boot window of socket 0, not at the one that socket 4096 would have. -/
theorem coreRst_beyond_fabric :
    ((State.reset.coreRst 4096 0).core (4096 * 256 + 0)).pc = State.reset.bootPc 0 ∧ State.reset.bootPc 0 ≠ State.reset.bootPc 4096 := by
  decide

/-- The reset state satisfies what the statement asks of a core that can be reset at once, for that socket too. -/
theorem reset_can_reset_beyond_fabric :
    State.reset.live 4096 = true ∧ 0 < (State.reset.part 4096).cores ∧ State.reset.pairOf 4096 0 = none ∧
      (State.reset.core (4096 * 256 + 0)).frozen = false ∧ (State.reset.core (4096 * 256 + 0)).wait = none ∧
      (State.reset.core (4096 * 256 + 0)).storeQ = [] := by
  decide

theorem exec_coreReset (k l : Nat) (s : State) : exec (.coreReset k l) s = .next (s.coreRst k l) := by
  change execCoreReset k l s = _
  rw [execCoreReset]

/-- Refutes O52: the statement bounds no socket number, and from 4096 up its clause that a core reset leaves the core at BOOT.PC of
the socket fails: at `k = 4096`, `l = 0` of the reset state the core starts at the boot window of socket 0. -/
theorem not_clock_damper_sleep_reset_results : ¬ Obligations.clock_damper_sleep_reset_results := by
  rintro ⟨-, h⟩
  obtain ⟨hlive, -⟩ := h 4096 0 0 0 0 0 0 0 State.reset
  obtain ⟨live, cores, pair, frozen, wait, storeQ⟩ := reset_can_reset_beyond_fabric
  obtain ⟨-, -, -, -, -, -, -, -, -, hreset, -⟩ := hlive live
  obtain ⟨t, ht, hpc, -⟩ := hreset cores pair frozen wait storeQ
  rw [exec_coreReset] at ht
  cases ht
  obtain ⟨hzero, hne⟩ := coreRst_beyond_fabric
  exact hne (hzero.symm.trans hpc)

end Sys2Proof.Machine

/-! ## Performance counters (R569, R578-R584) -/

namespace Sys2Proof.Machine

/-! ### Wraps -/

section
variable {s : State} {c k bank u e : Nat} {f : Fld} {i : Ix}

/-- A counter at its maximum continues from 0 with WRAP set; the core's others stay (R569). -/
theorem exec_counterWrap_of_max (he : e < 384) (hr : s.pmuRuns c = true) (hx : cellGet 0 (s.core c).pmu e % 2 ^ 48 = 2 ^ 48 - 1) :
    ∃ t : State, exec (.counterWrap c e) s = .next t ∧ cellGet 0 (t.core c).pmu e = 2 ^ 48 ∧
      ∀ d, d ≠ e → cellGet 0 (t.core c).pmu d = cellGet 0 (s.core c).pmu d := by
  have hrun : exec (.counterWrap c e) s = .next (s.updCore c (fun q => { q with pmu := cellSet 0 q.pmu e (2 ^ 48) })) := by
    change execCounterWrap c e s = _
    have hmax : ¬(pmuExact e && decide (cellGet 0 (s.core c).pmu e % 2 ^ 48 ≠ 2 ^ 48 - 1)) = true := by rw [hx]; simp
    have hlow : ¬400 ≤ e ∧ ¬384 ≤ e := by omega
    simp only [execCounterWrap, if_neg hmax]
    simp [hr, hlow]
  refine ⟨_, hrun, ?_, fun d hd => ?_⟩
  · rw [State.core_updCore_same, cellGet_set_same]
  · rw [State.core_updCore_same, cellGet_set_other _ _ _ _ hd]

/-- A unit counter wraps, and its unit's block will show so from the next snapshot. -/
def State.unitWrapped (s : State) (f : Fld) (i : Ix) : State := { s with uwraps := s.uwraps ++ [regKey f i] }

/-- A unit counter that is there, counts, and has not wrapped since the last snapshot. -/
structure State.Wraps (s : State) (k bank u e : Nat) (f : Fld) (i : Ix) : Prop where
  counter : unitWrapAt k bank u e = some (f, i)
  noChannel : bank ≠ 5
  up : s.up k = true
  there : s.bankThere k bank u e = true
  fresh : s.uwraps.contains (regKey f i) = false
  clear : s.rd f i = 0

/-- With PEND set already a wrap is only kept. -/
theorem State.Wraps.exec_of_pending (h : s.Wraps k bank u e f i) (hp : s.rd Reg.pmuUwrapPend { sock := k } = 1) :
    exec (.unitCounterWrap k bank u e) s = .next (s.unitWrapped f i) := by
  have hp' : (s.unitWrapped f i).rd Reg.pmuUwrapPend { sock := k } = 1 := hp
  change execUnitCounterWrap k bank u e s = _
  unfold State.unitWrapped at hp' ⊢
  simp only [execUnitCounterWrap, h.counter, h.noChannel, h.up, h.there, h.fresh, h.clear, hp', Bool.not_true,
    zero_ne_one, decide_false, Bool.false_and, Bool.or_self, Bool.false_eq_true, if_false, if_true]

/-- A first wrap sets PEND. -/
theorem State.Wraps.exec_of_first (h : s.Wraps k bank u e f i) (hp : s.rd Reg.pmuUwrapPend { sock := k } = 0)
    (he : s.rd Reg.pmuUwrapEn { sock := k } = 0) :
    exec (.unitCounterWrap k bank u e) s = .next ((s.unitWrapped f i).wr Reg.pmuUwrapPend { sock := k } 1) := by
  have hp' : (s.unitWrapped f i).rd Reg.pmuUwrapPend { sock := k } = 0 := hp
  have he' : ((s.unitWrapped f i).wr Reg.pmuUwrapPend { sock := k } 1).rd Reg.pmuUwrapEn { sock := k } = 0 :=
    (State.rd_wr_field _ _ _ _ (by decide) (by decide) (by decide)).trans he
  change execUnitCounterWrap k bank u e s = _
  unfold State.unitWrapped at hp' he' ⊢
  simp only [execUnitCounterWrap, h.counter, h.noChannel, h.up, h.there, h.fresh, h.clear, hp', he', Bool.not_true,
    zero_ne_one, decide_false, Bool.false_and, Bool.or_self, Bool.false_eq_true, if_false]

end

/-! ### Threshold and bandwidth counters -/

section
variable {s : State} {c k u j st n cls win : Nat} {en clr : Bool}

/-- THRCTL programs a threshold counter and zeroes it (R578). -/
theorem exec_thrctlWrite_of_normal (hw : (s.core c).world = none) (hc : coreLog c < (s.part (coreSock c)).cores) (hj : j < 16) :
    exec (.thrctlWrite c j st n en) s = .next
      ((((s.wr Reg.pmuThrctlStruct { coreIx c with j := j } st).wr Reg.pmuThrctlN { coreIx c with j := j } n).wr Reg.pmuThrctlEn
        { coreIx c with j := j } (if en then 1 else 0)).updCore c (fun q => { q with pmu := cellErase q.pmu (384 + j) })) := by
  change execThrctlWrite c j st n en s = _
  simp [execThrctlWrite, State.pmuPage, hw, hc, Nat.not_le.mpr hj, State.wrs, State.thrZero]

/-- In the Vault world a core's page keeps its values (R584). -/
theorem exec_thrctlWrite_of_vault (hw : (s.core c).world.isSome = true) : exec (.thrctlWrite c j st n en) s = .next s := by
  have hp : s.pmuPage c = false := by simp [State.pmuPage, Option.isNone_eq_false_iff.mpr hw]
  change execThrctlWrite c j st n en s = _
  simp [execThrctlWrite, hp]

/-- BWCTL of a unit's counter takes its setting for the next window (R579). -/
theorem exec_bwctlWrite_of_unit (hj : j < 16) (hu : 256 ≤ u) (hu' : u < 282) : exec (.bwctlWrite k u j cls win en clr) s = .next
    ((((s.wr Reg.pmuUnitbwClass (bwIx k u j) cls).wr Reg.pmuUnitbwWin (bwIx k u j) win).wr Reg.pmuUnitbwEn (bwIx k u j)
      (if en then 1 else 0)).bwMark k u j true clr) := by
  change execBwctlWrite k u j cls win en clr s = _
  simp [execBwctlWrite, Nat.not_le.mpr hj, Nat.not_lt.mpr hu, Nat.not_le.mpr hu', State.wrs]

/-- So does a core's, outside the Vault world. -/
theorem exec_bwctlWrite_of_core (hj : j < 16) (hu : u < 256) (hp : s.pmuPage (k * 256 + u) = true) :
    exec (.bwctlWrite k u j cls win en clr) s = .next
      ((((s.wr Reg.pmuCorebwClass (bwIx k u j) cls).wr Reg.pmuCorebwWin (bwIx k u j) win).wr Reg.pmuCorebwEn (bwIx k u j)
        (if en then 1 else 0)).bwMark k u j true clr) := by
  change execBwctlWrite k u j cls win en clr s = _
  simp [execBwctlWrite, Nat.not_le.mpr hj, hu, hp, show ¬ 282 ≤ u by omega, State.wrs]

/-- A unit's LAST and PEAK read as they were set. -/
theorem State.bwLive_bwSet_unit (s : State) (last peak : Nat) (hu : 256 ≤ u) :
    (s.bwSet k u j last peak).bwLive k u j false = last ∧ (s.bwSet k u j last peak).bwLive k u j true = peak := by
  have hne : bwKey k u j * 2 ≠ bwKey k u j * 2 + 1 := by omega
  simp only [State.bwLive, State.bwSet, if_neg (Nat.not_lt.mpr hu), Bool.false_eq_true, if_false, if_true, Nat.add_zero]
  exact ⟨(cellGet_set_other _ _ _ _ hne).trans (cellGet_set_same _ _ _ _), cellGet_set_same _ _ _ _⟩

/-- A window's end: its bytes in LAST, the greatest in PEAK (R579). -/
theorem exec_bwWindowEnd_of_counting (hj : j < 16) (hu : 256 ≤ u) (hu' : u < 282) (hpend : s.bwPend.contains (bwKey k u j) = false)
    (hclr : s.bwClr.contains (bwKey k u j) = false) (hen : s.rd Reg.pmuUnitbwEn (bwIx k u j) = 1)
    (hcls : s.rd Reg.pmuUnitbwClass (bwIx k u j) ≠ 0) :
    ∃ t : State, exec (.bwWindowEnd k u j n) s = .next t ∧ t.bwLive k u j false = n * bwUnit u ∧
      t.bwLive k u j true = max (s.bwLive k u j true) (n * bwUnit u) := by
  let x : State := { s with bwPend := s.bwPend.filter (· ≠ bwKey k u j), bwClr := s.bwClr.filter (· ≠ bwKey k u j) }
  have hcls' : x.rd Reg.pmuUnitbwClass (bwIx k u j) ≠ 0 := hcls
  have hrun : exec (.bwWindowEnd k u j n) s =
      .next (x.bwSet k u j (n * bwUnit u) (max (x.bwLive k u j true) (n * bwUnit u))) := by
    change execBwWindowEnd k u j n s = _
    dsimp only [x] at hcls' ⊢
    simp only [execBwWindowEnd, hpend, hclr, hen, hcls', Nat.not_le.mpr hj, Nat.not_le.mpr hu',
      Nat.not_lt.mpr hu, decide_false, Bool.false_and, Bool.or_self, Bool.false_eq_true, if_false, one_ne_zero]
  obtain ⟨hlast, hpeak⟩ := x.bwLive_bwSet_unit (k := k) (j := j) (n * bwUnit u) (max (x.bwLive k u j true) (n * bwUnit u)) hu
  exact ⟨_, hrun, hlast, hpeak⟩

end

/-! ### Samples and snapshots -/

section
variable {s : State} {c j k : Nat} {pc : Word}

/-- Comparator `j` of core `c` samples an event and can fire (R580). -/
structure State.Samples (s : State) (c j : Nat) : Prop where
  comparator : j < 4
  on : s.rd Reg.pmuSampctlEn { coreIx c with j := j } = 1
  event : s.rd Reg.pmuSampctlEvent { coreIx c with j := j } < 384
  runs : s.pmuRuns c = true

theorem State.Samples.goes (h : s.Samples c j) : ¬(decide (4 ≤ j) || decide (s.rd Reg.pmuSampctlEn { coreIx c with j := j } = 0) ||
    decide (384 ≤ s.rd Reg.pmuSampctlEvent { coreIx c with j := j }) || !s.pmuRuns c) = true := by
  simp [Nat.not_le.mpr h.comparator, h.on, Nat.not_le.mpr h.event, h.runs]

/-- While the last sample stands the next is lost. -/
theorem State.Samples.exec_of_full (h : s.Samples c j) (hf : s.rd Reg.pmuSampFull { coreIx c with j := j } = 1) :
    exec (.sampleFire c j pc) s = .next (s.bump Reg.pmuSampLost { coreIx c with j := j }) := by
  change execSampleFire c j pc s = _
  simp only [execSampleFire, if_neg h.goes, if_pos hf]

/-- Otherwise the pc and the count are recorded, and the core's vector is raised. -/
theorem State.Samples.exec_of_empty (h : s.Samples c j) (hf : s.rd Reg.pmuSampFull { coreIx c with j := j } = 0) :
    ∃ x t : State, exec (.sampleFire c j pc) s = .next t ∧
      t = (((x.wr Reg.pmuSampPc { coreIx c with j := j } (if pmuRetired (s.rd Reg.pmuSampctlEvent { coreIx c with j := j }) then pc
        else s.pc c).toNat).wr Reg.pmuSampCount { coreIx c with j := j }
          (if pmuExact (s.rd Reg.pmuSampctlEvent { coreIx c with j := j }) then
            cellGet 0 (s.core c).pmu (s.rd Reg.pmuSampctlEvent { coreIx c with j := j }) % 2 ^ 48 else s.freeNat 48)).wr Reg.pmuSampFull
              { coreIx c with j := j } 1).sysVector (coreSock c) (coreLog c) (x.rd Reg.pmuSampvec (coreIx c)) ∧
      x.regs = s.regs ∧ x.mem = s.mem := by
  have hne : ¬ s.rd Reg.pmuSampFull { coreIx c with j := j } = 1 := by omega
  have hvec : ∀ (x : State) a p n, (((x.wr Reg.pmuSampPc a p).wr Reg.pmuSampCount a n).wr Reg.pmuSampFull a 1).rd Reg.pmuSampvec
      (coreIx c) = x.rd Reg.pmuSampvec (coreIx c) := fun x a p n =>
    (State.rd_wr_field _ _ _ _ (by decide) (by decide) (by decide)).trans
      ((State.rd_wr_field _ _ _ _ (by decide) (by decide) (by decide)).trans
        (State.rd_wr_field _ _ _ _ (by decide) (by decide) (by decide)))
  let x : State := if pmuExact (s.rd Reg.pmuSampctlEvent { coreIx c with j := j }) then s else s.useFree
  refine ⟨x, _, ?_, rfl, ?_, ?_⟩
  · change execSampleFire c j pc s = _
    simp only [execSampleFire, if_neg h.goes, if_neg hne, State.wrs, hvec, x]
  · dsimp only [x]
    split <;> rfl
  · dsimp only [x]
    split <;> rfl

/-- Between `s` and `t` the clock and the timebases are the same. -/
structure State.TimeKept (s t : State) : Prop where
  time : t.time = s.time
  tb : t.tb = s.tb

variable {t u : State}

theorem State.TimeKept.refl (s : State) : s.TimeKept s := ⟨rfl, rfl⟩

theorem State.TimeKept.now (h : s.TimeKept t) (k : Nat) : t.now k = s.now k := by
  unfold State.now
  rw [h.time, h.tb]

theorem State.TimeKept.wr (h : s.TimeKept t) (f : Fld) (a : Ix) (v : Nat) : s.TimeKept (t.wr f a v) := ⟨h.time, h.tb⟩

theorem State.TimeKept.wrIf (h : s.TimeKept t) (b : Bool) (f : Fld) (a : Ix) (v : Nat) : s.TimeKept (t.wrIf b f a v) := by
  cases b
  · exact h
  · exact h.wr f a v

theorem State.TimeKept.ite {p : Prop} [Decidable p] (h : s.TimeKept t) (h' : s.TimeKept u) : s.TimeKept (if p then t else u) := by
  split
  · exact h
  · exact h'

theorem State.TimeKept.foldl {α : Type} {f : State → α → State} (h : s.TimeKept t)
    (hf : ∀ u x, s.TimeKept u → s.TimeKept (f u x)) (l : List α) : s.TimeKept (l.foldl f t) :=
  List.foldlRecOn (motive := fun u : State => s.TimeKept u) l f h fun u hu x _ => hf u x hu

theorem State.TimeKept.snapCore (h : s.TimeKept t) (c base : Nat) : s.TimeKept (t.snapCore c base) := by
  unfold State.snapCore
  extract_lets q a t1 t2
  have h1 : s.TimeKept t1 := by
    refine h.foldl (fun u e hu => ?_) _
    extract_lets x
    split
    · exact (hu.wrIf _ _ _ _).wr _ _ _
    · exact hu.wr _ _ _
  have h2 : s.TimeKept t2 := h1.foldl (fun u j hu => (hu.wr _ _ _).wr _ _ _) _
  clear_value t2
  exact ⟨h2.time, h2.tb⟩

/-- A snapshot's time is the boundary of 1,024 ns that it is taken at (R583). -/
theorem exec_pmuSnapshot_of_up (hu : s.up k = true) :
    ∃ t : State, exec (.pmuSnapshot k) s = .next t ∧ t.rd Reg.pmuSnapTime { sock := k } = s.now k - s.now k % 1024 := by
  change ∃ t : State, execPmuSnapshot k s = .next t ∧ _
  rw [execPmuSnapshot, if_neg (by simp [hu])]
  extract_lets a base cs s1 cells s2 mine s3 s4 s5 t
  have hfree : s.TimeKept s.useFree := ⟨rfl, rfl⟩
  have h1 : s.TimeKept s1 := hfree.foldl (fun u l hu => hu.snapCore (k * 256 + l) base) cs
  have h2 : s.TimeKept s2 := by
    refine h1.foldl (fun u g hu => ?_) _
    exact ⟨hu.time, hu.tb⟩
  have h3 : s.TimeKept s3 := by
    refine h2.foldl (fun u key hu => ?_) _
    exact ⟨hu.time, hu.tb⟩
  have h4 : s.TimeKept s4 := ⟨h3.time, h3.tb⟩
  have h5 : s.TimeKept s5 := h4.foldl (fun u i hu => (hu.wr _ _ _).wr _ _ _) _
  have ht : t = s.now k := h5.now k
  refine ⟨_, rfl, (State.rd_wr_field _ _ _ _ (by decide) (by decide) (by decide)).trans ((State.rd_wr_same _ _ _ _).trans ?_)⟩
  have hlt : s.now k < 2 ^ Reg.pmuSnapTime.w := s.now_lt k
  rw [ht]
  exact Nat.mod_eq_of_lt (Nat.lt_of_le_of_lt (Nat.sub_le _ _) hlt)

end

/-- Settles O36: each command by the lemma about it. -/
theorem performance_counter_results : Obligations.performance_counter_results := by
  refine ⟨fun c k bank u e j st n en f i s => ⟨exec_counterWrap_of_max, fun hc hb hu ht hf hz => ?wraps, exec_thrctlWrite_of_normal,
      exec_thrctlWrite_of_vault⟩,
    fun c k u j cls win n en clr pc s => ⟨exec_bwctlWrite_of_unit, fun hj hu hw hc => exec_bwctlWrite_of_core hj hu ?page,
      exec_bwWindowEnd_of_counting, fun hj hen he hr => ?samples, exec_pmuSnapshot_of_up⟩⟩
  case wraps =>
    have h : s.Wraps k bank u e f i := ⟨hc, hb, hu, ht, hf, hz⟩
    exact ⟨h.exec_of_pending, h.exec_of_first⟩
  case page => simp [State.pmuPage, hw, hc]
  case samples =>
    have h : s.Samples c j := ⟨hj, hen, he, hr⟩
    exact ⟨h.exec_of_full, h.exec_of_empty⟩

end Sys2Proof.Machine

/-! ## Halting and the registers of a halted core (R588-R591) -/

namespace Sys2Proof.Machine

/-- Core `c` halted for a reason, with no region to abort (R588). -/
def State.haltedFor (s : State) (c reason : Nat) : State :=
  (((s.wr Reg.dbgCoreStatHalted (coreIx c) 1).wr Reg.dbgCoreStatReason (coreIx c) reason).wr Reg.dbgCoreStatHaltpend (coreIx c) 0).updCore c
    (fun k => { k with stepping := false, traceGap := k.traceGap || s.rd Reg.dbgCoreTrctlEn (coreIx c) = 1 })

/-- Core `c` no longer asked to halt, nor halted. -/
def State.letGo (s : State) (c : Nat) : State := s.wrs (coreIx c)
  [(Reg.dbgCoreCtlHaltreq, 0), (Reg.dbgCoreStatHalted, 0), (Reg.dbgCoreStatHaltpend, 0), (Reg.dbgCoreStatReason, 0)]

section
variable {s : State} {c reason : Nat} {rq : Rq}

theorem State.haltNow_of_noRegion (hr : (s.core c).region = none) : s.haltNow c reason = s.haltedFor c reason := by
  have htrace : (((s.wr Reg.dbgCoreStatHalted (coreIx c) 1).wr Reg.dbgCoreStatReason (coreIx c) reason).wr Reg.dbgCoreStatHaltpend
      (coreIx c) 0).rd Reg.dbgCoreTrctlEn (coreIx c) = s.rd Reg.dbgCoreTrctlEn (coreIx c) :=
    (State.rd_wr_field _ _ _ _ (by decide) (by decide) (by decide)).trans
      ((State.rd_wr_field _ _ _ _ (by decide) (by decide) (by decide)).trans
        (State.rd_wr_field _ _ _ _ (by decide) (by decide) (by decide)))
  have hnone : ¬(s.core c).region.isSome = true := by simp [hr]
  simp only [State.haltNow, if_neg hnone, htrace]
  rfl

/-! ### Requests -/

theorem exec_haltreqWrite_of_denied (h : s.dbgMay rq c = false) : exec (.haltreqWrite ⟨rq, c⟩) s = .next s := by
  change execHaltreqWrite ⟨rq, c⟩ s = _
  simp [execHaltreqWrite, h]

theorem exec_resumeWrite_of_denied (h : s.dbgMay rq c = false) : exec (.resumeWrite ⟨rq, c⟩) s = .next s := by
  change execResumeWrite ⟨rq, c⟩ s = _
  simp [execResumeWrite, h]

theorem exec_stepWrite_of_denied (h : s.dbgMay rq c = false) : exec (.stepWrite ⟨rq, c⟩) s = .next s := by
  change execStepWrite ⟨rq, c⟩ s = _
  simp [execStepWrite, h]

theorem exec_haltreqWrite_of_may (h : s.dbgMay rq c = true) : exec (.haltreqWrite ⟨rq, c⟩) s = .next (s.haltReq c) := by
  change execHaltreqWrite ⟨rq, c⟩ s = _
  simp [execHaltreqWrite, h]

/-- HALTREQ does not say whether the core is Exhausted. -/
theorem State.exhausted_haltreq (s : State) (c v : Nat) : (s.wr Reg.dbgCoreCtlHaltreq (coreIx c) v).exhausted c = s.exhausted c :=
  congrArg (fun n => decide (n = 1)) (State.rd_wr_field _ _ _ _ (by decide) (by decide) (by decide))

/-- An Exhausted core shows HALTED at once, with reason 5. -/
theorem State.haltReq_of_exhausted (he : s.exhausted c = true) (hr : (s.core c).region = none) :
    s.haltReq c = (s.wr Reg.dbgCoreCtlHaltreq (coreIx c) 1).haltedFor c 5 := by
  rw [State.haltReq, if_pos ((s.exhausted_haltreq c 1).trans he)]
  exact State.haltNow_of_noRegion hr

/-- Any other is asked to halt; in the Vault world the halt is pending. -/
theorem State.haltReq_of_running (he : s.exhausted c = false) :
    s.haltReq c = (s.wr Reg.dbgCoreCtlHaltreq (coreIx c) 1).wrIf (s.core c).world.isSome Reg.dbgCoreStatHaltpend (coreIx c) 1 := by
  rw [State.haltReq, if_neg (by rw [s.exhausted_haltreq c 1, he]; decide)]
  rfl

theorem exec_resumeWrite_of_may (h : s.dbgMay rq c = true) (he : s.exhausted c = false) :
    exec (.resumeWrite ⟨rq, c⟩) s = .next (s.letGo c) := by
  change execResumeWrite ⟨rq, c⟩ s = _
  simp [execResumeWrite, h, State.resume, State.resumeDenied, he, State.letGo]

/-- A halted core executes one instruction (R590). -/
theorem exec_stepWrite_of_may (h : s.dbgMay rq c = true) (he : s.exhausted c = false)
    (hh : s.rd Reg.dbgCoreStatHalted (coreIx c) = 1) :
    exec (.stepWrite ⟨rq, c⟩) s = .next ((s.letGo c).updCore c (fun q => { q with stepping := true })) := by
  change execStepWrite ⟨rq, c⟩ s = _
  simp [execStepWrite, h, State.stepReq, State.resume, State.resumeDenied, he, hh, State.letGo]

/-- An Exhausted core ignores both (R167). -/
theorem exec_resumeWrite_of_exhausted (he : s.exhausted c = true) : exec (.resumeWrite ⟨rq, c⟩) s = .next s := by
  change execResumeWrite ⟨rq, c⟩ s = _
  simp [execResumeWrite, State.resume, State.resumeDenied, he]

theorem exec_stepWrite_of_exhausted (he : s.exhausted c = true) : exec (.stepWrite ⟨rq, c⟩) s = .next s := by
  change execStepWrite ⟨rq, c⟩ s = _
  simp [execStepWrite, State.stepReq, State.resumeDenied, he]

/-! ### The boundary -/

/-- A core asked to halt that stands at an instruction boundary (R588). -/
structure State.Halts (s : State) (c : Nat) : Prop where
  asked : s.rd Reg.dbgCoreCtlHaltreq (coreIx c) = 1
  running : s.rd Reg.dbgCoreStatHalted (coreIx c) = 0
  mapped : s.coreMapped c = true
  outOfReset : s.outOfReset c = true
  awake : s.awake c = true
  thawed : (s.core c).frozen = false
  noWindow : (s.core c).win = none
  noLoad : (s.core c).devWait = none
  noWait : (s.core c).wait = none

theorem State.Halts.exec_of_normal (h : s.Halts c) (hr : (s.core c).region = none) (hw : (s.core c).world = none) :
    exec (.coreHalt c) s = .next ((s.updCore c (fun q => { q with fence := none })).haltedFor c 1) := by
  have hr' : ((s.updCore c (fun q => { q with fence := none })).core c).region = none := by rw [State.core_updCore_same, hr]
  rw [← State.haltNow_of_noRegion hr']
  change execCoreHalt c s = _
  simp [execCoreHalt, h.asked, h.running, h.mapped, h.outOfReset, h.awake, h.thawed, h.noWindow, h.noLoad, h.noWait, hw]

theorem State.Halts.exec_of_vault (h : s.Halts c) (hw : (s.core c).world.isSome = true) :
    exec (.coreHalt c) s = .next (s.wr Reg.dbgCoreStatHaltpend (coreIx c) 1) := by
  change execCoreHalt c s = _
  simp [execCoreHalt, h.asked, h.running, h.mapped, h.outOfReset, h.awake, h.thawed, h.noWindow, h.noLoad, h.noWait, hw]

/-! ### ACC.GO -/

theorem exec_accGo_of_may (h : s.dbgDenied rq (coreSock c) (0x10010 + 0x4000 * coreLog c) = 0) :
    exec (.accGo rq c) s = .next (s.accGo c) := by
  change execAccGo rq c s = _
  rw [execAccGo, if_pos h]

theorem exec_accGo_of_denied (h : s.dbgDenied rq (coreSock c) (0x10010 + 0x4000 * coreLog c) ≠ 0) :
    exec (.accGo rq c) s = .next s := by
  change execAccGo rq c s = _
  rw [execAccGo, if_neg h]

theorem State.accGo_of_running (h : s.rd Reg.dbgCoreStatHalted (coreIx c) = 0) :
    s.accGo c = (s.wr Reg.dbgCoreAccStatus (coreIx c) 5).wr Reg.dbgCoreAccData (coreIx c) 0 := if_pos h

variable {t : State} {v : Word}

/-- A register of the halted core read. -/
theorem State.accGo_of_read (hh : s.rd Reg.dbgCoreStatHalted (coreIx c) = 1) (hw : s.rd Reg.dbgCoreAccWrite (coreIx c) = 0)
    (hx : s.accRead c (s.rd Reg.dbgCoreAccFile (coreIx c)) (s.rd Reg.dbgCoreAccIndex (coreIx c)) = some (v, s)) :
    s.accGo c = (s.wr Reg.dbgCoreAccStatus (coreIx c) 0).wr Reg.dbgCoreAccData (coreIx c) v.toNat := by
  simp only [State.accGo, hh, hw, one_ne_zero, zero_ne_one, if_false, hx]

theorem State.accGo_of_noRead (hh : s.rd Reg.dbgCoreStatHalted (coreIx c) = 1) (hw : s.rd Reg.dbgCoreAccWrite (coreIx c) = 0)
    (hx : s.accRead c (s.rd Reg.dbgCoreAccFile (coreIx c)) (s.rd Reg.dbgCoreAccIndex (coreIx c)) = none) :
    s.accGo c = (s.wr Reg.dbgCoreAccStatus (coreIx c) 7).wr Reg.dbgCoreAccData (coreIx c) 0 := by
  simp only [State.accGo, hh, hw, one_ne_zero, zero_ne_one, if_false, hx]

/-- A register of the halted core written. -/
theorem State.accGo_of_write (hh : s.rd Reg.dbgCoreStatHalted (coreIx c) = 1) (hw : s.rd Reg.dbgCoreAccWrite (coreIx c) = 1)
    (hx : s.accWrite c (s.rd Reg.dbgCoreAccFile (coreIx c)) (s.rd Reg.dbgCoreAccIndex (coreIx c))
      (BitVec.ofNat 64 (s.rd Reg.dbgCoreAccData (coreIx c))) = some t) :
    s.accGo c = t.wr Reg.dbgCoreAccStatus (coreIx c) 0 := by
  simp only [State.accGo, hh, hw, one_ne_zero, if_false, if_true, hx]

theorem State.accGo_of_noWrite (hh : s.rd Reg.dbgCoreStatHalted (coreIx c) = 1) (hw : s.rd Reg.dbgCoreAccWrite (coreIx c) = 1)
    (hx : s.accWrite c (s.rd Reg.dbgCoreAccFile (coreIx c)) (s.rd Reg.dbgCoreAccIndex (coreIx c))
      (BitVec.ofNat 64 (s.rd Reg.dbgCoreAccData (coreIx c))) = none) :
    s.accGo c = s.wr Reg.dbgCoreAccStatus (coreIx c) 7 := by
  simp only [State.accGo, hh, hw, one_ne_zero, if_false, if_true, hx]

end

/-- An index that its file does not have (Table DBUG-2). -/
def accBeyond (file i : Nat) : Prop := file = 0 ∧ 32 ≤ i ∨ file = 1 ∧ 256 ≤ i ∨ file = 2 ∧ 8 ≤ i

theorem State.accRead_of_beyond {s : State} {c file i : Nat} (h : accBeyond file i) : s.accRead c file i = none := by
  obtain ⟨rfl, hi⟩ | ⟨rfl, hi⟩ | ⟨rfl, hi⟩ := h
  all_goals exact if_neg (Nat.not_lt.mpr hi)

theorem State.accWrite_of_beyond {s : State} {c file i : Nat} {v : Word} (h : accBeyond file i) : s.accWrite c file i v = none := by
  obtain ⟨rfl, hi⟩ | ⟨rfl, hi⟩ | ⟨rfl, hi⟩ := h
  all_goals exact if_neg (Nat.not_lt.mpr hi)

/-- Settles O35: the requests and the boundary by the lemmas about them, ACC.GO by what `accRead` and `accWrite` answer for the file. -/
theorem debug_halt_results : Obligations.debug_halt_results := by
  refine ⟨?requests, ?access⟩
  case requests =>
    intro c rq s a halts may
    refine ⟨?denied, fun hm hr => ⟨?exhausted, ?normal, ?vault⟩, ?boundary, fun hm he => ⟨?resume, ?step⟩,
      fun _ he => ⟨exec_resumeWrite_of_exhausted he, exec_stepWrite_of_exhausted he⟩, ?running, exec_accGo_of_denied⟩
    case denied =>
      intro hm
      have h : s.dbgMay rq c = false := decide_eq_false hm
      exact ⟨exec_haltreqWrite_of_denied h, exec_resumeWrite_of_denied h, exec_stepWrite_of_denied h⟩
    case exhausted => exact fun _ he => by rw [exec_haltreqWrite_of_may (decide_eq_true hm), State.haltReq_of_exhausted he hr]; rfl
    case normal => exact fun he hw => by rw [exec_haltreqWrite_of_may (decide_eq_true hm), State.haltReq_of_running he, hw]; rfl
    case vault => exact fun he hw => by rw [exec_haltreqWrite_of_may (decide_eq_true hm), State.haltReq_of_running he, hw]; rfl
    case boundary =>
      intro hreq hnot hmap hout haw hfr hwin hdev hwait hr
      have h : s.Halts c := ⟨hreq, hnot, hmap, hout, haw, hfr, hwin, hdev, hwait⟩
      exact ⟨h.exec_of_normal hr, h.exec_of_vault⟩
    case resume => exact exec_resumeWrite_of_may (decide_eq_true hm) he
    case step => exact exec_stepWrite_of_may (decide_eq_true hm) he
    case running => exact fun hd h0 => by rw [exec_accGo_of_may hd, State.accGo_of_running h0]
  case access =>
    intro c rq s hd a file i x reads writes hh
    refine ⟨fun hw => ?reads, fun hw => ?writes⟩
    case reads =>
      have go : ∀ v, s.accRead c file i = some (v, s) → reads v := fun v hx => by
        change exec _ _ = _
        rw [exec_accGo_of_may hd, State.accGo_of_read hh hw hx]
      refine ⟨fun hf hi => go _ ?_, fun hf hi => go _ ?_, fun hf hi => go _ ?_, fun hf hi => go _ ?_, fun hb => ?_⟩
      · rw [hf]
        exact if_pos hi
      · rw [hf]
        exact if_pos hi
      · rw [hf]
        exact if_pos hi
      · rw [hf]
        exact if_pos hi
      · rw [exec_accGo_of_may hd, State.accGo_of_noRead hh hw (State.accRead_of_beyond hb)]
    case writes =>
      have go : ∀ t, s.accWrite c file i x = some t → writes t := fun t hx => by
        change exec _ _ = _
        rw [exec_accGo_of_may hd, State.accGo_of_write hh hw hx]
      refine ⟨fun hf hi => go _ ?_, fun hf hi => go _ ?_, fun hf hi => go _ ?_, fun hb => ?_⟩
      · rw [hf]
        exact if_pos hi
      · rw [hf]
        exact if_pos hi
      · rw [hf]
        exact if_pos hi
      · rw [exec_accGo_of_may hd, State.accGo_of_noWrite hh hw (State.accWrite_of_beyond hb)]

end Sys2Proof.Machine

/-! ## The JTAG port and external accesses of the debug block (R585-R587, R596, R597) -/

namespace Sys2Proof.Machine

section
variable {s : State} {k off data pins pre : Nat} {write : Bool}

/-! ### The port's instructions with the standby rails (Table DBUG-5) -/

theorem exec_idcode_of_on (h : s.jtagOn k = true) :
    exec (.idcode k) s = .next (s.updJtag k (fun j => { j with ir := 1, dr := s.idcode k, drive := 0 })) := by
  change execIdcode k s = _
  rw [execIdcode, if_pos h]

theorem exec_samplePreload_of_on (h : s.jtagOn k = true) :
    exec (.samplePreload k pins pre) s = .next (s.updJtag k (fun j => { j with ir := 2, dr := pins, pre := pre, drive := 0 })) := by
  change execSamplePreload k pins pre s = _
  rw [execSamplePreload, if_pos h]

theorem exec_bypass_of_on (h : s.jtagOn k = true) : exec (.bypass k) s = .next (s.bypass k) := by
  change execBypass k s = _
  rw [execBypass, if_pos h]

theorem exec_dbgaccUpdate_of_on (h : s.jtagOn k = true) :
    exec (.dbgaccUpdate k off write data) s = .next ((s.dbgAcc .jtag k off write (data % 2 ^ 64)).1.updJtag k (fun j => { j with
      ir := 0x20, dr := data % 2 ^ 64 + off % 2 ^ 23 * 2 ^ 64 + (if write then 2 ^ 87 else 0), drive := 0,
      status := (s.dbgAcc .jtag k off write (data % 2 ^ 64)).2.1,
      data := if write then none else some (s.dbgAcc .jtag k off write (data % 2 ^ 64)).2.2 })) := by
  change execDbgaccUpdate k off write data s = _
  rw [execDbgaccUpdate, if_pos h]

/-- A capture after a read loads the data read. -/
theorem exec_dbgaccCapture_of_read (h : s.jtagOn k = true) {v : Nat} (hv : (s.jtag k).data = some v) :
    exec (.dbgaccCapture k) s = .next (s.updJtag k (fun j => { j with
      ir := 0x20, dr := v + natBits j.dr 87 64 * 2 ^ 64 + j.status * 2 ^ 88, drive := 0 })) := by
  change execDbgaccCapture k s = _
  simp only [execDbgaccCapture, if_pos h, State.updJtag, hv]

/-- Held in cold reset, an instruction drives the lands. -/
theorem State.bscan_of_held (h : s.jtagOn k = true) (hd : cellGet 0 s.down k = 3 ∨ (s.pw k).seq = 2) (ir drive : Nat)
    (dr : Jtag → Nat) : s.bscan k ir drive dr = s.updJtag k (fun j => { j with ir := ir, dr := dr j, drive := drive }) := by
  have hheld : (decide (cellGet 0 s.down k = 3) || decide ((s.pw k).seq = 2)) = true := by simpa using hd
  rw [State.bscan, if_neg (by simp [h]), if_pos hheld]

/-- Otherwise it acts as BYPASS. -/
theorem State.bscan_of_running (h : s.jtagOn k = true) (hd : cellGet 0 s.down k ≠ 3) (hq : (s.pw k).seq ≠ 2) (ir drive : Nat)
    (dr : Jtag → Nat) : s.bscan k ir drive dr = s.bypass k := by
  rw [State.bscan, if_neg (by simp [h]), if_neg (by simp [hd, hq])]

theorem State.bscan_of_off (h : s.jtagOn k = false) (ir drive : Nat) (dr : Jtag → Nat) : s.bscan k ir drive dr = s := by
  rw [State.bscan, if_pos (by simp [h])]

/-- Without the standby rails the port does nothing. -/
theorem exec_jtag_of_off (h : s.jtagOn k = false) : ∀ i ∈ ([.idcode k, .samplePreload k pins pre, .bypass k, .extest k pins, .clamp k,
    .highz k, .dbgaccUpdate k off write data, .dbgaccCapture k] : List Instr), exec i s = .next s := by
  have hoff : ¬s.jtagOn k = true := by simp [h]
  simp only [List.forall_mem_cons]
  refine ⟨?idcode, ?sample, ?bypass, ?extest, ?clamp, ?highz, ?update, ?capture, by simp⟩
  case idcode => change execIdcode k s = _; rw [execIdcode, if_neg hoff]
  case sample => change execSamplePreload k pins pre s = _; rw [execSamplePreload, if_neg hoff]
  case bypass => change execBypass k s = _; rw [execBypass, if_neg hoff]
  case extest => change execExtest k pins s = _; rw [execExtest, s.bscan_of_off h]
  case clamp => change execClamp k s = _; rw [execClamp, s.bscan_of_off h]
  case highz => change execHighz k s = _; rw [execHighz, s.bscan_of_off h]
  case update => change execDbgaccUpdate k off write data s = _; rw [execDbgaccUpdate, if_neg hoff]
  case capture => change execDbgaccCapture k s = _; rw [execDbgaccCapture, if_neg hoff]

/-- The three that drive the lands, held in cold reset. -/
theorem exec_boundary_of_held (h : s.jtagOn k = true) (hd : cellGet 0 s.down k = 3 ∨ (s.pw k).seq = 2) :
    exec (.extest k pins) s = .next (s.updJtag k (fun j => { j with ir := 3, dr := pins, drive := 1 })) ∧
    exec (.clamp k) s = .next (s.updJtag k (fun j => { j with ir := 4, dr := 0, drive := 1 })) ∧
    exec (.highz k) s = .next (s.updJtag k (fun j => { j with ir := 5, dr := 0, drive := 2 })) := by
  refine ⟨?extest, ?clamp, ?highz⟩
  case extest => change execExtest k pins s = _; rw [execExtest, State.bscan_of_held h hd]
  case clamp => change execClamp k s = _; rw [execClamp, State.bscan_of_held h hd]
  case highz => change execHighz k s = _; rw [execHighz, State.bscan_of_held h hd]

theorem exec_boundary_of_running (h : s.jtagOn k = true) (hd : cellGet 0 s.down k ≠ 3) (hq : (s.pw k).seq ≠ 2) :
    ∀ i ∈ ([.extest k pins, .clamp k, .highz k] : List Instr), exec i s = .next (s.bypass k) := by
  simp only [List.forall_mem_cons]
  refine ⟨?extest, ?clamp, ?highz, by simp⟩
  case extest => change execExtest k pins s = _; rw [execExtest, State.bscan_of_running h hd hq]
  case clamp => change execClamp k s = _; rw [execClamp, State.bscan_of_running h hd hq]
  case highz => change execHighz k s = _; rw [execHighz, State.bscan_of_running h hd hq]

theorem State.idcode_eq256 (hs : s.rd Reg.rootStep { sock := k } = 0) (hp : s.part k = .eq256) : s.idcode k = 0x0EC25F4B := by
  rw [State.idcode, hs, hp]
  decide

theorem State.idcode_eq192 (hs : s.rd Reg.rootStep { sock := k } = 0) (hp : s.part k = .eq192) : s.idcode k = 0x0EC19F4B := by
  rw [State.idcode, hs, hp]
  decide

end

/-! ### Accesses of the debug block (Tables DBUG-1 and DBUG-2) -/

section
variable {s : State} {rq : Rq} {k off v : Nat} {w : Bool}

theorem State.dbgAcc_of_unpowered (h : s.railsOn k = false) : s.dbgAcc rq k off w v = (s, 8, 0) := by
  rw [State.dbgAcc, if_pos (by simp [h])]

theorem State.dbgAcc_of_beyond (h : s.railsOn k = true) (ho : 1040 * 4096 ≤ off) : s.dbgAcc rq k off w v = (s, 7, 0) := by
  rw [State.dbgAcc, if_neg (by simp [h]), if_pos (by omega)]

/-- A refusal of Table DBUG-1 is the access's status. -/
theorem State.dbgAcc_of_denied (h : s.railsOn k = true) (ho : off < 1040 * 4096) {d : Nat} (hd : s.dbgDenied rq k (off / 8 * 8) = d)
    (h0 : d ≠ 0) : s.dbgAcc rq k off w v = (s, d, 0) := by
  rw [State.dbgAcc, if_neg (by simp [h]), if_neg (by omega), if_pos (by rwa [hd]), hd]

theorem State.dbgDenied_of_extDisabled (hr : rqExt rq = true) (he : s.rd Reg.dbgCtlExten { sock := k } = 0) (o : Nat) :
    s.dbgDenied rq k o = 2 := by
  rw [State.dbgDenied, if_pos (by simp [hr, he])]

theorem State.dbgDenied_of_sealed (hr : rqExt rq = true) (he : s.rd Reg.dbgCtlExten { sock := k } = 1) {l o : Nat}
    (ho : 0x10000 ≤ o) (hl : (o - 0x10000) / 0x4000 = l) (hc : l < (s.part k).cores)
    (hm : s.rd Reg.coreLmapState { sock := k, i := l } ≠ 3) (hs : s.dbgSealed k = true) : s.dbgDenied rq k o = 3 := by
  have hthere : ¬((s.part k).cores ≤ l) := by omega
  rw [State.dbgDenied, hl, if_neg (by simp [he]), if_neg (by omega), if_neg (by simp [hm, hc]), if_pos (by simp [hr, hs])]

/-- A socket has no more logical cores than the debug block has pages for. -/
theorem Part.cores_le (p : Part) : p.cores ≤ 256 := by cases p <;> decide

theorem rqExt_of_jtag_or_mgc (h : rq = .jtag ∨ rq = .mgc) : rqExt rq = true := by
  rcases h with rfl | rfl <;> rfl

theorem State.dbgAcc_of_sealed (hr : rqExt rq = true) (h : s.railsOn k = true) (he : s.rd Reg.dbgCtlExten { sock := k } = 1) {l : Nat}
    (hl : l < (s.part k).cores) (hm : s.rd Reg.coreLmapState { sock := k, i := l } ≠ 3) (hs : s.dbgSealed k = true) :
    s.dbgAcc rq k (0x10000 + l * 0x4000) w v = (s, 3, 0) := by
  have hcores := (s.part k).cores_le
  exact State.dbgAcc_of_denied h (by omega) (State.dbgDenied_of_sealed hr he (by omega) (by omega) hl hm hs) (by decide)

end

/-- Settles O45: each JTAG instruction with and without the standby rails, and the debug block's refusals in their order. -/
theorem external_debug_results : Obligations.external_debug_results := by
  unfold Obligations.external_debug_results
  refine ⟨?port, ?block⟩
  case port =>
    intro k off data pins pre write s j sets
    refine ⟨?on, exec_jtag_of_off, State.idcode_eq256, State.idcode_eq192⟩
    case on =>
      intro hon
      exact ⟨exec_idcode_of_on hon, exec_samplePreload_of_on hon, exec_bypass_of_on hon, exec_boundary_of_held hon,
        exec_boundary_of_running hon, exec_dbgaccUpdate_of_on hon, fun v hv => exec_dbgaccCapture_of_read hon hv⟩
  case block =>
    intro rq k off v w s hrq
    have hext := rqExt_of_jtag_or_mgc hrq
    refine ⟨State.dbgAcc_of_unpowered, State.dbgAcc_of_beyond, ?disabled, ?closed⟩
    case disabled =>
      intro hon ho he
      exact State.dbgAcc_of_denied hon ho (State.dbgDenied_of_extDisabled hext he _) (by decide)
    case closed =>
      rintro hon he l hl rfl hm hs
      exact State.dbgAcc_of_sealed hext hon he hl hm hs

end Sys2Proof.Machine

/-! ## The management controller's commands and its I3C target (R598-R601) -/

namespace Sys2Proof.Machine

section
variable {s : State} {k tag id inst off n v i data addr : Nat} {write : Bool}

/-! ### How a management command completes (R599) -/

/-- A command that needs no more than the standby rails is carried out and answered. -/
theorem State.mgcDo_of_up (h : s.mgcUp k = true) (f : State → State × Nat × List Byte) :
    s.mgcDo k tag false f = (f s).1.respond k tag (f s).2.1 (f s).2.2 := by
  rw [State.mgcDo, if_neg (by simp [h]), if_neg (by simp)]

/-- So is one that needs the main rails, when they are on. -/
theorem State.mgcDo_of_rails (h : s.mgcUp k = true) (hr : s.railsOn k = true) (f : State → State × Nat × List Byte) :
    s.mgcDo k tag true f = (f s).1.respond k tag (f s).2.1 (f s).2.2 := by
  rw [State.mgcDo, if_neg (by simp [h]), if_neg (by simp [hr])]

theorem State.mgcDo_of_unpowered (h : s.mgcUp k = true) (hr : s.railsOn k = false) (f : State → State × Nat × List Byte) :
    s.mgcDo k tag true f = s.respond k tag 8 [] := by
  rw [State.mgcDo, if_neg (by simp [h]), if_pos (by simp [hr])]

/-- The response is what the controller shows. -/
theorem State.respond_mgc (st : Nat) (l : List Byte) :
    (s.respond k tag st l).mgc k = { s.mgc k with resp := some (st, tag % 256, l) } := by
  simp only [State.respond, State.updMgc, State.mgc, cellGet_set_same]
  rfl

/-! ### The commands -/

theorem exec_info (h : s.mgcUp k = true) : exec (.info k tag) s = .next (s.respond k tag 0
    (dwBytes (s.blkLoad .mgc .root k 0 0x10) ++ dwBytes (s.blkLoad .mgc .root k 0 0x18) ++
      dwBytes (s.blkLoad .mgc .chim k 0 Reg.chimDiscState.off) ++ dwBytes (s.blkLoad .mgc .pwr k 0 0x18))) := by
  change execInfo k tag s = _
  rw [execInfo, State.mgcDo_of_up h]

theorem exec_identity (h : s.mgcUp k = true) : exec (.identity k tag off) s = .next (s.respond k tag 0
    ((List.range (min 240 (97 + chainLen k - off))).map (fun i => identityByte k (off + i)))) := by
  change execIdentity k tag off s = _
  rw [execIdentity, State.mgcDo_of_up h]

theorem exec_powerOn (h : s.mgcUp k = true) : exec (.powerOn k tag) s = .next ((s.powerOn k 5 0).respond k tag 0 []) := by
  change execPowerOn k tag s = _
  rw [execPowerOn, State.mgcDo_of_up h]

theorem exec_powerOff (h : s.mgcUp k = true) : exec (.powerOff k tag) s = .next ((s.powerOff k).respond k tag 0 []) := by
  change execPowerOff k tag s = _
  rw [execPowerOff, State.mgcDo_of_up h]

theorem exec_resetCold (h : s.mgcUp k = true) : exec (.resetCold k tag) s = .next ((s.coldReset k false).respond k tag 0 []) := by
  change execResetCold k tag s = _
  rw [execResetCold, State.mgcDo_of_up h]

theorem exec_ashNvclr (h : s.mgcUp k = true) : exec (.ashNvclr k tag) s = .next ((s.nvClr k).respond k tag 0 []) := by
  change execAshNvclr k tag s = _
  rw [execAshNvclr, State.mgcDo_of_up h]

theorem exec_ashSaved (h : s.mgcUp k = true) (hi : i < 64) : exec (.ashSaved k tag i) s = .next (s.respond k tag 0
    ((List.range 8).flatMap (fun j => dwBytes (s.rd Reg.ashSaved { sock := k, i := i, j := j })))) := by
  have hle : ¬64 < i := by omega
  have hne : ¬i = 64 := by omega
  change execAshSaved k tag i s = _
  simp only [execAshSaved, State.mgcDo_of_up h, if_neg hle, if_neg hne]

theorem exec_ashSaved_summary (h : s.mgcUp k = true) : exec (.ashSaved k tag 64) s = .next (s.respond k tag 0
    ((List.range 8).flatMap (fun j => dwBytes (s.rd Reg.ashSummary { sock := k, i := j })))) := by
  change execAshSaved k tag 64 s = _
  simp only [execAshSaved, State.mgcDo_of_up h, if_neg (Nat.lt_irrefl 64), if_true]

theorem exec_ashSaved_beyond (h : s.mgcUp k = true) (hi : 64 < i) : exec (.ashSaved k tag i) s = .next (s.respond k tag 7 []) := by
  change execAshSaved k tag i s = _
  simp only [execAshSaved, State.mgcDo_of_up h, if_pos hi]

theorem exec_resetWarm (h : s.mgcUp k = true) (hr : s.railsOn k = true) :
    exec (.resetWarm k tag) s = .next ((s.warmReset k).respond k tag 0 []) := by
  change execResetWarm k tag s = _
  rw [execResetWarm, State.mgcDo_of_rails h hr]

theorem exec_standby (h : s.mgcUp k = true) (hr : s.railsOn k = true) :
    exec (.standby k tag) s = .next ((s.standby k).respond k tag 0 []) := by
  change execStandby k tag s = _
  rw [execStandby, State.mgcDo_of_rails h hr]

theorem exec_regRead (h : s.mgcUp k = true) (hr : s.railsOn k = true) : exec (.regRead k tag id inst off) s =
    .next ((s.mgcRead k id inst off).1.respond k tag (s.mgcRead k id inst off).2.1 (dwBytes (s.mgcRead k id inst off).2.2)) := by
  change execRegRead k tag id inst off s = _
  rw [execRegRead, State.mgcDo_of_rails h hr]

theorem exec_regWrite (h : s.mgcUp k = true) (hr : s.railsOn k = true) : exec (.regWrite k tag id inst off v) s =
    .next ((s.mgcWrite k id inst off v).1.respond k tag (s.mgcWrite k id inst off v).2 []) := by
  change execRegWrite k tag id inst off v s = _
  rw [execRegWrite, State.mgcDo_of_rails h hr]

theorem exec_thermal (h : s.mgcUp k = true) (hr : s.railsOn k = true) : exec (.thermal k tag) s =
    .next (s.useFree.respond k tag 0 (dwBytes (s.blkLoad .mgc .pwr k 0 0x28) ++ s.freeBytes 10)) := by
  change execThermal k tag s = _
  rw [execThermal, State.mgcDo_of_rails h hr]

theorem exec_debug (h : s.mgcUp k = true) (hr : s.railsOn k = true) : exec (.debug k tag off write data) s =
    .next ((s.dbgAcc .mgc k off write (data % 2 ^ 64)).1.respond k tag (s.dbgAcc .mgc k off write (data % 2 ^ 64)).2.1
      (BitVec.ofNat 8 (s.dbgAcc .mgc k off write (data % 2 ^ 64)).2.1 ::
        dwBytes (s.dbgAcc .mgc k off write (data % 2 ^ 64)).2.2)) := by
  change execDebug k tag off write data s = _
  rw [execDebug, State.mgcDo_of_rails h hr]

/-- ASH_READ of no entry or of more than three. -/
theorem exec_ashRead_badCount (h : s.mgcUp k = true) (hr : s.railsOn k = true) (hn : n = 0 ∨ 3 < n) :
    exec (.ashRead k tag n) s = .next (s.respond k tag 7 []) := by
  have hbad : (decide (n = 0) || decide (3 < n)) = true := by simpa using hn
  change execAshRead k tag n s = _
  simp only [execAshRead, State.mgcDo_of_rails h hr, if_pos hbad]

/-- A pointer among the surviving entries: ASH_READ starts there. -/
theorem exec_ashRead (h : s.mgcUp k = true) (hr : s.railsOn k = true) (h1 : 1 ≤ n) (h3 : n ≤ 3)
    (hlive : (s.rd Reg.pwrMgcAshptr { sock := k } + 4096 - s.ashOldest k) % 4096 ≤
      (s.rd Reg.ashRingWrptr { sock := k } + 4096 - s.ashOldest k) % 4096) :
    let p := s.rd Reg.pwrMgcAshptr { sock := k }
    let m := min n ((s.rd Reg.ashRingWrptr { sock := k } + 4096 - p) % 4096)
    exec (.ashRead k tag n) s = .next ((s.wr Reg.pwrMgcAshptr { sock := k } ((p + m) % 4096)).respond k tag 0
      ((List.range m).flatMap (fun i => s.ashBytes k ((p + i) % 4096)))) := by
  have hgood : ¬(decide (n = 0) || decide (3 < n)) = true := by simp; omega
  change execAshRead k tag n s = _
  simp only [execAshRead, State.mgcDo_of_rails h hr, if_pos hlive, if_neg hgood]

theorem exec_telemetry_bad (h : s.mgcUp k = true) (hr : s.railsOn k = true) (hb : off % 8 ≠ 0 ∨ n = 0 ∨ 30 < n) :
    exec (.telemetry k tag off n) s = .next (s.respond k tag 7 []) := by
  have hbad : (decide (off % 8 ≠ 0) || decide (n = 0) || decide (30 < n) || decide (768 * 4096 < off + 8 * n)) = true := by
    simp only [Bool.or_eq_true, decide_eq_true_eq]
    tauto
  change execTelemetry k tag off n s = _
  simp only [execTelemetry, State.mgcDo_of_rails h hr, if_pos hbad]

/-! ### TELEMETRY of a partition that is not sealed -/

/-- Every part's capability list has the PMU block under its ID, with its 768 pages. -/
theorem capById_pmu (p : Part) :
    ∃ e, capById 0x90 0 (capList p) 0 = some e ∧ e.blk = some .pmu ∧ e.pages = 768 := by
  cases p <;> exact ⟨_, rfl, rfl, rfl⟩

/-- The controller's reads of the PMU block are not refused SEALED. -/
theorem State.mgcRead_pmu_of_open (hs : s.dbgSealed k = false) (ho : off % 8 = 0) (hb : off < 768 * 4096) :
    (s.mgcRead k 0x90 0 off).2.1 = 0 := by
  obtain ⟨e, he, hblk, hpages⟩ := capById_pmu (s.part k)
  have hoff : s.unitOff k e = false := by simp [State.unitOff, hblk]
  have hin : ¬e.pages * 4096 ≤ off := by omega
  simp [State.mgcRead, he, ho, hin, hoff, hblk, hs]

theorem exec_telemetry (h : s.mgcUp k = true) (hr : s.railsOn k = true) (ho : off % 8 = 0) (h1 : 1 ≤ n) (h30 : n ≤ 30)
    (hin : off + 8 * n ≤ 768 * 4096) (hs : s.dbgSealed k = false) : exec (.telemetry k tag off n) s = .next (s.respond k tag 0
      ((List.range n).flatMap (fun i => dwBytes (s.mgcRead k 0x90 0 (off + 8 * i)).2.2))) := by
  have hgood : ¬(decide (off % 8 ≠ 0) || decide (n = 0) || decide (30 < n) || decide (768 * 4096 < off + 8 * n)) = true := by
    simp only [Bool.or_eq_true, decide_eq_true_eq]
    omega
  have hopen : ¬((List.range n).map (fun i => s.mgcRead k 0x90 0 (off + 8 * i))).any (fun r => r.2.1 = 3) = true := by
    simp only [List.any_map, List.any_eq_true, List.mem_range, Function.comp, decide_eq_true_eq, not_exists, not_and]
    intro i hi
    rw [State.mgcRead_pmu_of_open hs (by omega) (by omega)]
    decide
  change execTelemetry k tag off n s = _
  simp only [execTelemetry, State.mgcDo_of_rails h hr, if_neg hgood, if_neg hopen, List.flatMap_map]

/-- Without the main rails a command that needs them completes POWERED. -/
theorem exec_mgc_of_unpowered (h : s.mgcUp k = true) (hr : s.railsOn k = false) :
    ∀ i ∈ ([.resetWarm k tag, .standby k tag, .regRead k tag id inst off, .regWrite k tag id inst off v,
      .ashRead k tag n, .telemetry k tag off n, .thermal k tag, .debug k tag off write data] : List Instr),
      exec i s = .next (s.respond k tag 8 []) := by
  simp only [List.forall_mem_cons]
  refine ⟨?warm, ?standby, ?read, ?write, ?ash, ?telemetry, ?thermal, ?debug, by simp⟩
  case warm => change execResetWarm k tag s = _; rw [execResetWarm, State.mgcDo_of_unpowered h hr]
  case standby => change execStandby k tag s = _; rw [execStandby, State.mgcDo_of_unpowered h hr]
  case read => change execRegRead k tag id inst off s = _; rw [execRegRead, State.mgcDo_of_unpowered h hr]
  case write => change execRegWrite k tag id inst off v s = _; rw [execRegWrite, State.mgcDo_of_unpowered h hr]
  case ash => change execAshRead k tag n s = _; rw [execAshRead, State.mgcDo_of_unpowered h hr]
  case telemetry => change execTelemetry k tag off n s = _; rw [execTelemetry, State.mgcDo_of_unpowered h hr]
  case thermal => change execThermal k tag s = _; rw [execThermal, State.mgcDo_of_unpowered h hr]
  case debug => change execDebug k tag off write data s = _; rw [execDebug, State.mgcDo_of_unpowered h hr]

/-! ### The I3C target (R598, R601) -/

theorem exec_rstdaa_of_on (h : s.i3cOn k = true) : exec (.rstdaa k) s = .next (s.wr Reg.pwrMgcStatDynaddr { sock := k } 0) := by
  change execRstdaa k s = _
  rw [execRstdaa, if_pos h]

/-- A target that runs and has no dynamic address takes one. -/
theorem State.setDyn_of_none (h : s.i3cOn k = true) (h0 : s.dynAddr k = 0) (ha : addr < 128) :
    s.setDyn k addr = s.wr Reg.pwrMgcStatDynaddr { sock := k } addr := by
  rw [State.setDyn, if_pos (by simp [h, h0]), Nat.mod_eq_of_lt ha]

theorem State.setDyn_of_some (h0 : s.dynAddr k ≠ 0) : s.setDyn k addr = s := by
  rw [State.setDyn, if_neg (by simp [h0])]

theorem exec_entdaa : exec (.entdaa k addr) s = .next (s.setDyn k addr) := rfl

theorem exec_setdasa_own : exec (.setdasa k 0x3A addr) s = .next (s.setDyn k addr) := rfl

theorem exec_setdasa_other {static' : Nat} (h : static' ≠ 0x3A) : exec (.setdasa k static' addr) s = .next s := by
  change execSetdasa k static' addr s = _
  rw [execSetdasa, if_neg h]

theorem exec_enec_of_on (h : s.i3cOn k = true) : exec (.enec k) s = .next (s.updMgc k (fun m => { m with evOff := false })) := by
  change execEnec k s = _
  rw [execEnec, if_pos h]

theorem exec_disec_of_on (h : s.i3cOn k = true) : exec (.disec k) s = .next (s.updMgc k (fun m => { m with evOff := true })) := by
  change execDisec k s = _
  rw [execDisec, if_pos h]

/-- A target with a dynamic address answers. -/
theorem State.answer_of_addressed (h : s.i3cOn k = true) (h0 : s.dynAddr k ≠ 0) (l : List Byte) :
    s.answer k l = s.updMgc k (fun m => { m with ccc := l }) := by
  rw [State.answer, if_pos (by simp [h, h0])]

theorem State.answer_of_off (h : s.i3cOn k = false) (l : List Byte) : s.answer k l = s := by
  rw [State.answer, if_neg (by simp [h])]

theorem exec_getpid_of_addressed (h : s.i3cOn k = true) (h0 : s.dynAddr k ≠ 0) :
    exec (.getpid k) s = .next (s.updMgc k (fun m => { m with ccc := (leBytes 6 (s.pid k)).reverse })) := by
  change execGetpid k s = _
  rw [execGetpid, State.answer_of_addressed h h0]

theorem exec_getbcr_of_addressed (h : s.i3cOn k = true) (h0 : s.dynAddr k ≠ 0) :
    exec (.getbcr k) s = .next (s.updMgc k (fun m => { m with ccc := leBytes 1 (i3cOpen 2 k).toNat })) := by
  change execGetbcr k s = _
  rw [execGetbcr, State.answer_of_addressed h h0]

theorem exec_getdcr_of_addressed (h : s.i3cOn k = true) (h0 : s.dynAddr k ≠ 0) :
    exec (.getdcr k) s = .next (s.updMgc k (fun m => { m with ccc := leBytes 1 (i3cOpen 3 k).toNat })) := by
  change execGetdcr k s = _
  rw [execGetdcr, State.answer_of_addressed h h0]

/-- GETSTATUS answers two bytes that the spec does not state (log entry 1). -/
theorem exec_getstatus_of_addressed (h : s.i3cOn k = true) (h0 : s.dynAddr k ≠ 0) :
    ∃ t : State, exec (.getstatus k) s = .next t ∧ (t.mgc k).ccc = s.freeBytes 2 ∧ t.regs = s.regs := by
  refine ⟨(s.updMgc k (fun m => { m with ccc := s.freeBytes 2 })).useFree, ?_, ?_, rfl⟩
  · change execGetstatus k s = _
    rw [execGetstatus, State.answer_of_addressed h h0]
  · change (cellGet Mgc.idle (cellSet Mgc.idle s.mgcs k { s.mgc k with ccc := s.freeBytes 2 }) k).ccc = _
    rw [cellGet_set_same]

theorem exec_mgcIbi_of_addressed (h : s.i3cOn k = true) (h0 : s.dynAddr k ≠ 0) {e : Nat × Nat}
    (he : s.ibi.find? (fun e => e.1 = k) = some e) (hev : (s.mgc k).evOff = false) :
    exec (.mgcIbi k) s = .next (({ s with ibi := s.ibi.erase e } : State).updMgc k (fun m => { m with sent := some e.2 })) := by
  change execMgcIbi k s = _
  simp only [execMgcIbi, he]
  rw [if_pos (by simp [h, h0, hev])]

/-- A target that does not run answers nothing. -/
theorem exec_i3c_of_off (h : s.i3cOn k = false) :
    ∀ i ∈ ([.rstdaa k, .entdaa k addr, .enec k, .disec k, .getpid k, .getbcr k, .getdcr k] : List Instr), exec i s = .next s := by
  have hoff : ¬s.i3cOn k = true := by simp [h]
  simp only [List.forall_mem_cons]
  refine ⟨?rstdaa, ?entdaa, ?enec, ?disec, ?getpid, ?getbcr, ?getdcr, by simp⟩
  case rstdaa => change execRstdaa k s = _; rw [execRstdaa, if_neg hoff]
  case entdaa => rw [exec_entdaa, State.setDyn, if_neg (by simp [h])]
  case enec => change execEnec k s = _; rw [execEnec, if_neg hoff]
  case disec => change execDisec k s = _; rw [execDisec, if_neg hoff]
  case getpid => change execGetpid k s = _; rw [execGetpid, State.answer_of_off h]
  case getbcr => change execGetbcr k s = _; rw [execGetbcr, State.answer_of_off h]
  case getdcr => change execGetdcr k s = _; rw [execGetdcr, State.answer_of_off h]

end

/-- Settles O46: each management command with the rails it needs and without them, and the I3C target's common commands. -/
theorem management_results : Obligations.management_results := by
  unfold Obligations.management_results
  refine ⟨?commands, ?reads, ?target⟩
  case commands =>
    intro k tag id inst off n v i data write s hup answers
    refine ⟨exec_info hup, exec_identity hup, exec_powerOn hup, exec_powerOff hup, exec_resetCold hup, exec_ashNvclr hup,
      exec_ashSaved hup, exec_ashSaved_summary hup, exec_ashSaved_beyond hup, ?rails, exec_mgc_of_unpowered hup⟩
    case rails =>
      intro hr
      exact ⟨exec_resetWarm hup hr, exec_standby hup hr, exec_regRead hup hr, exec_regWrite hup hr, exec_thermal hup hr,
        exec_ashRead_badCount hup hr, exec_telemetry_bad hup hr, exec_debug hup hr⟩
  case reads =>
    intro k tag n off s hup hr a p w
    exact ⟨exec_ashRead hup hr, exec_telemetry hup hr, State.respond_mgc⟩
  case target =>
    intro k addr s a sets
    refine ⟨?on, exec_setdasa_other, exec_i3c_of_off⟩
    case on =>
      intro hon
      refine ⟨exec_rstdaa_of_on hon, ?take, ?keep, exec_enec_of_on hon, exec_disec_of_on hon, ?answer⟩
      case take =>
        intro h0 ha
        rw [exec_entdaa, exec_setdasa_own, State.setDyn_of_none hon h0 ha]
        exact ⟨rfl, rfl⟩
      case keep =>
        intro h0
        rw [exec_entdaa, State.setDyn_of_some h0]
      case answer =>
        intro h0
        exact ⟨exec_getpid_of_addressed hon h0, exec_getbcr_of_addressed hon h0, exec_getdcr_of_addressed hon h0,
          exec_getstatus_of_addressed hon h0, fun e he => exec_mgcIbi_of_addressed hon h0 he⟩

end Sys2Proof.Machine

/-! ## Stoker doorbells, rings, resets, firebox slices and mailboxes (R441-R445, R467-R476) -/

namespace Sys2Proof.Machine

/-! ### Lists of register writes -/

section
variable {s t : State} {l : List Nat}

theorem State.RegsBut.wrs (h : s.RegsBut t l) (a : Ix) (ws : List (Fld × Nat))
    (hw : ∀ f ∈ ws.map Prod.fst, f.id < 1024 ∧ f.id ∈ l) : s.RegsBut (t.wrs a ws) l := by
  induction ws generalizing t with
  | nil => exact h
  | cons w ws ih =>
    rw [List.map_cons, List.forall_mem_cons] at hw
    exact ih (h.wr _ _ hw.1.1 hw.1.2) hw.2

theorem State.RegsBut.foldl {α : Type} {step : State → α → State} (hs : ∀ u i, s.RegsBut u l → s.RegsBut (step u i) l) (is : List α)
    (h : s.RegsBut t l) : s.RegsBut (is.foldl step t) l := by
  induction is generalizing t with
  | nil => exact h
  | cons i is ih => exact ih (hs t i h)

theorem State.RegsBut.trans {u : State} (h : s.RegsBut t l) (h' : t.RegsBut u l) : s.RegsBut u l :=
  fun f a hf hn => (h' f a hf hn).trans (h f a hf hn)

theorem State.wrs_append (s : State) (a : Ix) (l m : List (Fld × Nat)) : s.wrs a (l ++ m) = (s.wrs a l).wrs a m := by
  induction l generalizing s with
  | nil => rfl
  | cons w l ih => exact ih _

/-- A field that a list of writes does not name reads as before. -/
theorem State.rd_wrs_other (s : State) (a a' : Ix) {ws : List (Fld × Nat)} {f : Fld} (hf : f.id < 1024)
    (hw : ∀ g ∈ ws.map Prod.fst, g.id < 1024 ∧ f.id ≠ g.id) : (s.wrs a ws).rd f a' = s.rd f a' := by
  induction ws generalizing s with
  | nil => rfl
  | cons w ws ih =>
    rw [List.map_cons, List.forall_mem_cons] at hw
    exact (ih _ hw.2).trans (s.rd_wr_field _ _ _ hw.1.1 hf hw.1.2)

/-- A field reads as the list of writes that names it once wrote it. -/
theorem State.rd_wrs_of_mem (s : State) (a : Ix) {ws : List (Fld × Nat)} {f : Fld} {v : Nat} (hm : (f, v) ∈ ws)
    (hlt : ∀ g ∈ ws.map Prod.fst, g.id < 1024) (hnd : (ws.map (fun w => w.1.id)).Nodup) : (s.wrs a ws).rd f a = v % 2 ^ f.w := by
  induction ws generalizing s with
  | nil => cases hm
  | cons w ws ih =>
    rw [List.map_cons, List.forall_mem_cons] at hlt
    rw [List.map_cons, List.nodup_cons] at hnd
    rcases List.mem_cons.mp hm with rfl | hm
    · refine ((s.wr f a v).rd_wrs_other a a hlt.1 fun g hg => ⟨hlt.2 g hg, fun e => hnd.1 ?_⟩).trans (s.rd_wr_same f a v)
      obtain ⟨w, hw, rfl⟩ := List.mem_map.mp hg
      exact List.mem_map.mpr ⟨w, hw, e.symm⟩
    · exact ih (s.wr w.1 a w.2) hm hlt.2 hnd.2

end

/-! ### Notices -/

/-- The registers a message to the interrupt hub changes, and those that follow a channel's record. -/
def noticeFlds : List Nat := [Reg.ihubDropMsg, Reg.ihubPend, Reg.stkChInfl, Reg.stkOccSlotfree].map Fld.id

section
variable {s t : State} {k cell c : Nat} {l : List Nat}

theorem State.RegsBut.msgInt (h : s.RegsBut t l) (k i : Nat) (hd : Reg.ihubDropMsg.id ∈ l) (hp : Reg.ihubPend.id ∈ l) :
    s.RegsBut (t.msgInt k i) l := by
  unfold State.msgInt
  extract_lets a v d core g
  exact .ite (h.wr _ _ (by decide) hd) (.ite h (h.wr _ _ (by decide) hp))

theorem State.RegsBut.updStk (h : s.RegsBut t l) (k cell c : Nat) (f : StkCh → StkCh) (hi : Reg.stkChInfl.id ∈ l)
    (ho : Reg.stkOccSlotfree.id ∈ l) : s.RegsBut (t.updStk k cell c f) l := by
  have h' : s.RegsBut { t with stkChs := cellSet StkCh.idle t.stkChs (chKey k cell c) (f (t.stk k cell c)) } l := h
  exact (h'.wr _ _ (by decide) hi).wr _ _ (by decide) ho

theorem State.RegsBut.stkIrq (h : s.RegsBut t noticeFlds) (k cell c : Nat) : s.RegsBut (t.stkIrq k cell c) noticeFlds := by
  unfold State.stkIrq
  exact .ite (h.updStk _ _ _ _ (by decide) (by decide)) (.ite (h.msgInt _ _ (by decide) (by decide)) h)

/-- The status bit of a notice is set. -/
theorem State.stkTell_rd {f : Fld} (hf : f.id < 1024) (hn : f.id ∉ noticeFlds) (hw : 1 % 2 ^ f.w = 1) :
    (s.stkTell k cell c f).rd f (chIx k cell c) = 1 := by
  rw [State.stkTell]
  split
  case isTrue h => exact h
  case isFalse => rw [(State.RegsBut.refl _ _).stkIrq k cell c f _ hf hn, State.rd_wr_same, hw]

/-- Any other register but those of the notice reads as before. -/
theorem State.stkTell_rd_other {f g : Fld} (hf : f.id < 1024) (hg : g.id < 1024) (hn : g.id ∉ noticeFlds) (hne : g.id ≠ f.id) (a : Ix) :
    (s.stkTell k cell c f).rd g a = s.rd g a := by
  rw [State.stkTell]
  split
  case isTrue => rfl
  case isFalse => rw [(State.RegsBut.refl _ _).stkIrq k cell c g _ hg hn, State.rd_wr_field _ _ _ _ hf hg hne]

theorem State.stkPf_rd_other {f g : Fld} (hf : f.id < 1024) (hg : g.id < 1024) (hn : g.id ∉ noticeFlds) (hne : g.id ≠ f.id) (a : Ix) :
    (s.stkPf k cell c f).rd g a = s.rd g a := by
  unfold State.stkPf
  extract_lets b v s1
  have hs1 : s1.rd g a = s.rd g a := State.rd_wr_field _ _ _ _ hf hg hne
  split
  · rfl
  · split
    · exact ((State.RegsBut.refl s1 noticeFlds).msgInt _ _ (by decide) (by decide) g a hg hn).trans hs1
    · exact hs1

end

/-! ### Doorbells, rings, enabling (R441, R444, R445) -/

section
variable {s : State} {k cell c v n base : Nat} {cq tenant : Bool}

theorem exec_sqtailDoorbell_of_in (h : s.hasCh k cell c = true) (hst : s.chState k cell c = 1)
    (hv : v % 4096 < 2 ^ s.rd Reg.stkTpSqsize (chIx k cell c)) : exec (.sqtailDoorbell k cell c v) s =
      .next ((s.wr Reg.stkTpSqtail (chIx k cell c) (v % 4096)).updCell k cell (fun x => { x with gated := false })) := by
  have hin : ¬s.ringSize Reg.stkTpSqsize k cell c ≤ v % 4096 := Nat.not_le.mpr hv
  change execSqtailDoorbell k cell c v s = _
  rw [execSqtailDoorbell, State.doorbell, if_neg (by simp [h, hst]), if_neg hin]

theorem exec_sqtailDoorbell_of_beyond (h : s.hasCh k cell c = true) (hst : s.chState k cell c = 1)
    (hv : 2 ^ s.rd Reg.stkTpSqsize (chIx k cell c) ≤ v % 4096) : exec (.sqtailDoorbell k cell c v) s = .next (s.stkError k cell c 3) := by
  have hout : s.ringSize Reg.stkTpSqsize k cell c ≤ v % 4096 := hv
  change execSqtailDoorbell k cell c v s = _
  rw [execSqtailDoorbell, State.doorbell, if_neg (by simp [h, hst]), if_pos hout]

theorem exec_sqtailDoorbell_of_closed (hst : s.chState k cell c ≠ 1) : exec (.sqtailDoorbell k cell c v) s = .next s := by
  change execSqtailDoorbell k cell c v s = _
  rw [execSqtailDoorbell, State.doorbell, if_pos (by simp [hst])]

theorem exec_cqheadWrite_of_in (h : s.hasCh k cell c = true) (hst : s.chState k cell c = 1)
    (hv : v % 4096 < 2 ^ s.rd Reg.stkTpCqsize (chIx k cell c)) :
    exec (.cqheadWrite k cell c v) s = .next (s.wr Reg.stkTpCqhead (chIx k cell c) (v % 4096)) := by
  have hin : ¬s.ringSize Reg.stkTpCqsize k cell c ≤ v % 4096 := Nat.not_le.mpr hv
  change execCqheadWrite k cell c v s = _
  rw [execCqheadWrite, State.cqheadWrite, if_neg (by simp [h, hst]), if_neg hin]

theorem exec_cqheadWrite_of_beyond (h : s.hasCh k cell c = true) (hst : s.chState k cell c = 1)
    (hv : 2 ^ s.rd Reg.stkTpCqsize (chIx k cell c) ≤ v % 4096) : exec (.cqheadWrite k cell c v) s = .next (s.stkError k cell c 3) := by
  have hout : s.ringSize Reg.stkTpCqsize k cell c ≤ v % 4096 := hv
  change execCqheadWrite k cell c v s = _
  rw [execCqheadWrite, State.cqheadWrite, if_neg (by simp [h, hst]), if_pos hout]

theorem exec_cqheadWrite_of_closed (hst : s.chState k cell c ≠ 1) : exec (.cqheadWrite k cell c v) s = .next s := by
  change execCqheadWrite k cell c v s = _
  rw [execCqheadWrite, State.cqheadWrite, if_pos (by simp [hst])]

/-- The rings of a busy channel are not to be set. -/
theorem exec_ringCfgWrite_of_busy (h : s.hasCh k cell c = true) (hst : s.chState k cell c = 1) (hb : s.chBusy k cell c = true) :
    exec (.ringCfgWrite k cell c cq n base) s = .next (s.stkError k cell c 4) := by
  change execRingCfgWrite k cell c cq n base s = _
  simp [execRingCfgWrite, State.ringCfg, h, hst, hb]

/-- A channel that takes new rings: DISABLED, or ENABLED and idle. -/
theorem exec_ringCfgWrite_of_quiet (h : s.hasCh k cell c = true)
    (hq : s.chState k cell c = 0 ∨ (s.chState k cell c = 1 ∧ s.chBusy k cell c = false)) (h4 : 4 ≤ n) (h12 : n ≤ 12) :
    exec (.ringCfgWrite k cell c cq n base) s = .next ((s.wr (if cq then Reg.stkTpCqsize else Reg.stkTpSqsize) (chIx k cell c) n).wr
      (if cq then Reg.stkTpCqbase else Reg.stkTpSqbase) (chIx k cell c) base) := by
  have hmod : n % 16 = n := Nat.mod_eq_of_lt (by omega)
  have hlow : ¬n < 4 := by omega
  have hhigh : ¬12 < n := by omega
  change execRingCfgWrite k cell c cq n base s = _
  rcases hq with hst | ⟨hst, hb⟩
  · simp [execRingCfgWrite, State.ringCfg, h, hst, hmod, hlow, hhigh]
  · simp [execRingCfgWrite, State.ringCfg, h, hst, hb, hmod, hlow, hhigh]

theorem exec_ringCfgWrite_of_small (h : s.hasCh k cell c = true)
    (hq : s.chState k cell c = 0 ∨ (s.chState k cell c = 1 ∧ s.chBusy k cell c = false)) (h4 : n < 4) :
    exec (.ringCfgWrite k cell c cq n base) s = .next (s.stkError k cell c 4) := by
  have hmod : n % 16 = n := Nat.mod_eq_of_lt (by omega)
  change execRingCfgWrite k cell c cq n base s = _
  rcases hq with hst | ⟨hst, -⟩ <;> simp [execRingCfgWrite, State.ringCfg, h, hst, hmod, h4]

theorem exec_cfgEnWrite_on (h : s.hasCh k cell c = true) (hv : s.rd Reg.stkChCfgVault (chIx k cell c) = 0) (hst : s.chState k cell c = 0) :
    exec (.cfgEnWrite k cell c true) s = .next ((s.wr Reg.stkChCfgEn (chIx k cell c) 1).setChState k cell c 1) := by
  have hst' : (s.wr Reg.stkChCfgEn (chIx k cell c) 1).chState k cell c = 0 :=
    (State.rd_wr_field _ _ _ _ (by decide) (by decide) (by decide)).trans hst
  change execCfgEnWrite k cell c true s = _
  simp [execCfgEnWrite, State.cfgEn, h, hv, hst']

theorem exec_cfgEnWrite_off (h : s.hasCh k cell c = true) (hv : s.rd Reg.stkChCfgVault (chIx k cell c) = 0)
    (he : s.rd Reg.stkChCfgEn (chIx k cell c) = 1) :
    exec (.cfgEnWrite k cell c false) s = .next ((s.wr Reg.stkChCfgEn (chIx k cell c) 0).stkReset k cell c false) := by
  change execCfgEnWrite k cell c false s = _
  simp [execCfgEnWrite, State.cfgEn, h, hv, he]

theorem exec_cfgEnWrite_of_vault (hv : s.rd Reg.stkChCfgVault (chIx k cell c) = 1) : exec (.cfgEnWrite k cell c tenant) s = .next s := by
  change execCfgEnWrite k cell c tenant s = _
  rw [execCfgEnWrite, State.cfgEn, if_pos (by simp [hv])]

/-! ### Resets (R471-R475, Table STOK-9) -/

theorem exec_channelResetRequest_manager (h : s.hasCh k cell c = true) (hv : s.rd Reg.stkChCfgVault (chIx k cell c) = 0) :
    exec (.channelResetRequest k cell c false) s = .next (s.stkReset k cell c false) := by
  change execChannelResetRequest k cell c false s = _
  simp [execChannelResetRequest, State.stkResetReq, h, hv]

theorem exec_channelResetRequest_manager_of_vault (h : s.hasCh k cell c = true) (hv : s.rd Reg.stkChCfgVault (chIx k cell c) = 1) :
    exec (.channelResetRequest k cell c false) s = .next s := by
  change execChannelResetRequest k cell c false s = _
  simp [execChannelResetRequest, State.stkResetReq, h, hv]

theorem exec_channelResetRequest_tenant (h : s.hasCh k cell c = true) (h4 : s.chState k cell c ≠ 4) (h5 : s.chState k cell c ≠ 5) :
    exec (.channelResetRequest k cell c true) s = .next (s.stkReset k cell c false) := by
  change execChannelResetRequest k cell c true s = _
  simp [execChannelResetRequest, State.stkResetReq, h, h4, h5]

/-- A tenant cannot leave HELD or QUARANTINED (R474). -/
theorem exec_channelResetRequest_tenant_of_held (hst : s.chState k cell c = 4 ∨ s.chState k cell c = 5) :
    exec (.channelResetRequest k cell c true) s = .next s := by
  change execChannelResetRequest k cell c true s = _
  rcases hst with hst | hst <;> simp [execChannelResetRequest, State.stkResetReq, hst]

theorem exec_drainTimerExpiry_of_unfinished (hst : s.chState k cell c = 3) (hr : (s.stk k cell c).rst = 1)
    (hu : (s.stk k cell c).infl.any (fun d => d.fin.isNone) = true) :
    exec (.drainTimerExpiry k cell c) s = .next (s.stkStop k cell c) := by
  change execDrainTimerExpiry k cell c s = _
  simp only [execDrainTimerExpiry, hst, hr, hu, decide_true, Bool.and_self, if_true]

theorem exec_channelQuarantine_of_stopped (hst : s.chState k cell c = 3) (hr : (s.stk k cell c).rst = 3) :
    exec (.channelQuarantine k cell c) s = .next ((s.setChState k cell c 5).ash k
      { cls := 3, src := 0x50, inst := cell, code := 0x05, part := s.partition k, d4 := c,
        d5 := 5 + s.rd Reg.stkChErrcause (chIx k cell c) * 2 ^ 8 }) := by
  change execChannelQuarantine k cell c s = _
  simp only [execChannelQuarantine, hst, hr, decide_true, Bool.and_self, if_true]

/-- A reset waits for what is in flight and for the Riddles. -/
theorem exec_channelResetDone_of_busy (hb : (s.stk k cell c).infl ≠ [] ∨ (s.stk k cell c).drains ≠ []) :
    exec (.channelResetDone k cell c) s = .next s := by
  change execChannelResetDone k cell c s = _
  rcases hb with hb | hb <;> simp [execChannelResetDone, hb]

theorem exec_channelResetDone_of_quiet (hr : (s.stk k cell c).rst ≠ 0) (hi : (s.stk k cell c).infl = [])
    (hd : (s.stk k cell c).drains = []) : exec (.channelResetDone k cell c) s =
      .next (((s.chanEmpty k cell c).stkTell k cell c Reg.stkTpStatusResetdone).stkPf k cell c Reg.stkRstdone) := by
  change execChannelResetDone k cell c s = _
  simp [execChannelResetDone, hr, hi, hd]

/-- The writes that empty a channel's rings. -/
def emptyRings : List (Fld × Nat) :=
  [(Reg.stkTpSqhead, 0), (Reg.stkTpSqtail, 0), (Reg.stkTpCqhead, 0), (Reg.stkTpCqtail, 0), (Reg.stkTpCqphase, 1)]

/-- The writes that clear its mailbox. -/
def mailboxCleared : List (Fld × Nat) :=
  [(Reg.stkTpMboxTxbusy, 0), (Reg.stkTpMboxRxpend, 0), (Reg.stkTpMboxTxseq, 0), (Reg.stkTpMboxRxseq, 0), (Reg.stkChMboxTxbusy, 0),
    (Reg.stkChMboxRxpend, 0), (Reg.stkChMboxTxseq, 0), (Reg.stkChMboxRxseq, 0)]

/-- What else the end of a reset changes among the registers: the mailbox, the channel's state and error, its occupancy. -/
def chanEmptyFlds : List Nat :=
  [Reg.stkTpMboxTxbusy, Reg.stkTpMboxRxpend, Reg.stkTpMboxTxseq, Reg.stkTpMboxRxseq, Reg.stkChMboxTxbusy, Reg.stkChMboxRxpend,
    Reg.stkChMboxTxseq, Reg.stkChMboxRxseq, Reg.stkChMboxw, Reg.stkChState, Reg.stkTpStatusState, Reg.stkTpStatusError, Reg.stkChErrcause,
    Reg.stkTpStatusErrcause, Reg.stkChInfl, Reg.stkOccSlotfree].map Fld.id

/-- The rings emptied and the mailbox cleared with its words. -/
def State.boxEmptied (s : State) (a : Ix) : State :=
  (List.range 16).foldl (fun s j => s.wr Reg.stkChMboxw { a with j := j } 0) (s.wrs a (emptyRings ++ mailboxCleared))

theorem State.boxEmptied_but (s : State) (a : Ix) : (s.wrs a emptyRings).RegsBut (s.boxEmptied a) chanEmptyFlds := by
  rw [State.boxEmptied, State.wrs_append]
  exact .foldl (fun u i hu => hu.wr _ _ (by decide) (by decide)) _ ((State.RegsBut.refl _ _).wrs a mailboxCleared (by decide))

theorem State.RegsBut.iotlb {s t : State} {l : List Nat} (h : s.RegsBut t l) (m : Cells (List TlbE)) :
    s.RegsBut { t with iotlb := m } l := h

theorem State.chanEmpty_but (s : State) (k cell c : Nat) :
    (s.wrs (chIx k cell c) emptyRings).RegsBut (s.chanEmpty k cell c) chanEmptyFlds := by
  unfold State.chanEmpty
  extract_lets x a s1 s2 s3 s4 s5
  have hs2 : s2 = s.boxEmptied a := rfl
  clear_value s2
  have h2 : (s.wrs a emptyRings).RegsBut s2 chanEmptyFlds := hs2 ▸ s.boxEmptied_but a
  have h3 : (s.wrs a emptyRings).RegsBut s3 chanEmptyFlds := h2.iotlb _
  clear_value s3
  have h4 : (s.wrs a emptyRings).RegsBut s4 chanEmptyFlds :=
    (h3.wr _ _ (by decide) (by decide)).wr _ _ (by decide) (by decide)
  clear_value s4
  have h5 : (s.wrs a emptyRings).RegsBut s5 chanEmptyFlds :=
    .ite h4 (h4.wrs a [(Reg.stkTpStatusError, 0), (Reg.stkChErrcause, 0), (Reg.stkTpStatusErrcause, 0)] (by decide))
  exact h5.updStk _ _ _ _ (by decide) (by decide)

/-- What the end of a reset shows of the rings. -/
theorem State.resetDone_rd {f : Fld} {v : Nat} (hm : (f, v) ∈ emptyRings) (hf : f.id < 1024) (hv : v < 2 ^ f.w)
    (hn : f.id ∉ Reg.stkRstdone.id :: Reg.stkTpStatusResetdone.id :: noticeFlds ++ chanEmptyFlds) :
    (((s.chanEmpty k cell c).stkTell k cell c Reg.stkTpStatusResetdone).stkPf k cell c Reg.stkRstdone).rd f (chIx k cell c) = v := by
  simp only [List.cons_append, List.mem_cons, List.mem_append, not_or] at hn
  obtain ⟨hpf, htell, hnotice, hempty⟩ := hn
  rw [State.stkPf_rd_other (by decide) hf hnotice hpf, State.stkTell_rd_other (by decide) hf hnotice htell,
    s.chanEmpty_but k cell c f _ hf hempty]
  exact (s.rd_wrs_of_mem _ hm (by decide) (by decide)).trans (Nat.mod_eq_of_lt hv)

/-- A cell with a named channel is powered. -/
theorem State.stkOn_of_hasCh (h : s.hasCh k cell c = true) : s.stkOn k cell = true := by
  rw [State.hasCh, Bool.and_eq_true] at h
  exact h.1

theorem exec_stkCtlReset_of_on (h : s.stkOn k cell = true) : exec (.stkCtlReset k cell) s =
    .next ((List.range 64).foldl (fun u i =>
      (if u.chState k cell i = 5 then u.setChState k cell i 0 else u).stkReset k cell i false) s) := by
  change execStkCtlReset k cell s = _
  rw [execStkCtlReset, State.stkCtlReset, if_neg (by simp [h])]

theorem exec_cellFault_of_on (h : s.stkOn k cell = true) : exec (.cellFault k cell) s =
    .next ((List.range 64).foldl (fun u i => if u.chState k cell i = 5 then u else (u.stkReset k cell i false).stkStop k cell i)
      ((s.bump Reg.stkStatCellfault { sock := k, inst := cell }).ash k
        { cls := 3, src := 0x50, inst := cell, code := 0x03, part := s.partition k })) := by
  have hpart : (s.bump Reg.stkStatCellfault { sock := k, inst := cell }).partition k = s.partition k :=
    s.partition_wr _ _ _ (by decide) (by decide)
  change execCellFault k cell s = _
  simp only [execCellFault, h, Bool.not_true, Bool.false_eq_true, if_false, hpart]

end

/-! ### The firebox (R467, R468) -/

/-- A lone candidate wins every unit of an arbitration point. -/
theorem Arb.unit_singleton (p : Prof) (c : Nat) (a : Arb) : (Arb.unit p [c] a).1 = some c := by
  have hpick (f : Nat → Nat) : pickMax f [c] = some c := rfl
  have helig (al : List Nat) : [c].filter (fun i => decide (0 < nth 0 al i)) = [] ∨
      [c].filter (fun i => decide (0 < nth 0 al i)) = [c] := by
    by_cases h : 0 < nth 0 al c <;> simp [h]
  unfold Arb.unit
  extract_lets wt fresh a1 elig aged w
  have hw : w = some c := by
    rcases helig a1.allow with he | he
    · have haged : aged = true := by simp [aged, elig, he]
      simp only [w, haged, if_true]
      rfl
    · simp only [w, elig, he]
      split
      · rfl
      · split
        · split
          case isTrue h =>
            rw [Bool.and_eq_true] at h
            simpa using h.1
          case isFalse => rfl
        · rfl
  rw [if_neg (by simp)]
  clear_value w
  subst hw
  rfl

section
variable {s : State} {k cell c clk : Nat} {req : BitVec 64}

/-- Whether channel `c` of the cell has started work. -/
def State.firing (s : State) (k cell c : Nat) : Bool := (s.stk k cell c).infl.any (fun d => d.started && d.fin.isNone)

theorem exec_cellClockGate_of_idle (h : s.stkOn k cell = true) (hi : ∀ i < 64, s.firing k cell i = false) :
    exec (.cellClockGate k cell) s = .next (s.updCell k cell (fun x => { x with gated := true })) := by
  have hall : (List.range 64).all (fun c => !(s.stk k cell c).infl.any (fun d => d.started && d.fin.isNone)) = true := by
    simp only [List.all_eq_true, List.mem_range]
    exact fun i hi' => congrArg (! ·) (hi i hi')
  change execCellClockGate k cell s = _
  rw [execCellClockGate, if_pos (by rw [h, hall]; rfl)]

theorem exec_cellClockGate_of_firing (hc : c < 64) (hf : s.firing k cell c = true) : exec (.cellClockGate k cell) s = .next s := by
  have hall : ¬(List.range 64).all (fun c => !(s.stk k cell c).infl.any (fun d => d.started && d.fin.isNone)) = true := by
    intro hall
    have hno := List.all_eq_true.mp hall c (List.mem_range.mpr hc)
    exact absurd hf (by simpa [State.firing] using hno)
  change execCellClockGate k cell s = _
  rw [execCellClockGate, if_neg (by rw [Bool.and_eq_true]; exact fun h => hall h.2)]

/-- No slice goes to a cell without started work. -/
theorem exec_fireboxSlice_of_idle (hi : ∀ i < 64, s.firing k cell i = false) : exec (.fireboxSlice k cell req clk) s = .next s := by
  have hnone : (List.range 64).filter (fun c => req.getLsbD c && (s.stk k cell c).infl.any (fun d => d.started && d.fin.isNone)) = [] := by
    rw [List.filter_eq_nil_iff]
    intro i hi'
    have hoff : (s.stk k cell i).infl.any (fun d => d.started && d.fin.isNone) = false := hi i (List.mem_range.mp hi')
    simp only [hoff, Bool.and_false]
    decide
  change execFireboxSlice k cell req clk s = _
  simp only [execFireboxSlice, hnone, List.isEmpty_nil, Bool.or_true, if_true]

/-- The one channel with a beat ready is granted the slice. -/
theorem exec_fireboxSlice_of_lone (h : s.stkOn k cell = true) (hc : c < 64) (hf : s.firing k cell c = true)
    (hres : s.rd Reg.stkSchedAres { sock := k, inst := cell } = 0) (hreq : ∀ i < 64, req.getLsbD i = decide (i = c)) :
    ∃ t : State, exec (.fireboxSlice k cell req clk) s = .next t ∧ (t.cell k cell).slice = (s.cell k cell).slice + 1 := by
  have hlone : (List.range 64).filter (fun c => req.getLsbD c && (s.stk k cell c).infl.any (fun d => d.started && d.fin.isNone)) = [c] := by
    have heq : ∀ i ∈ List.range 64, (req.getLsbD i && (s.stk k cell i).infl.any (fun d => d.started && d.fin.isNone)) = (i == c) := by
      intro i hi
      rw [hreq i (List.mem_range.mp hi)]
      by_cases hic : i = c
      · subst hic
        simpa [State.firing] using hf
      · simp [hic]
    rw [List.filter_congr heq, List.filter_beq, List.count_eq_one_of_mem List.nodup_range (List.mem_range.mpr hc)]
    rfl
  change ∃ t, execFireboxSlice k cell req clk s = .next t ∧ _
  simp only [execFireboxSlice, h, hlone, hres, List.isEmpty_cons, Bool.not_true, Bool.or_self, Bool.false_eq_true, if_false, Nat.min_zero,
    Nat.mul_zero, Nat.zero_div, Nat.lt_irrefl, decide_false, Arb.unit_singleton]
  refine ⟨_, rfl, ?_⟩
  rw [State.cell, State.updCell, cellGet_set_same]
  rfl

/-! ### Mailboxes (R473) -/

theorem exec_mboxTx_tenant (h : s.hasCh k cell c = true) (hb : s.rd Reg.stkTpMboxTxbusy (chIx k cell c) = 0) :
    exec (.mboxTx k cell c false) s = .next ((s.wrs (chIx k cell c) [(Reg.stkTpMboxTxbusy, 1), (Reg.stkChMboxRxpend, 1),
      (Reg.stkTpMboxTxseq, s.rd Reg.stkTpMboxTxseq (chIx k cell c) + 1),
      (Reg.stkChMboxRxseq, s.rd Reg.stkChMboxRxseq (chIx k cell c) + 1)]).stkPf k cell c Reg.stkMboxpend) := by
  change execMboxTx k cell c false s = _
  simp [execMboxTx, State.mboxTx, h, hb]

theorem exec_mboxTx_manager (h : s.hasCh k cell c = true) (hb : s.rd Reg.stkChMboxTxbusy (chIx k cell c) = 0) :
    exec (.mboxTx k cell c true) s = .next ((s.wrs (chIx k cell c) [(Reg.stkChMboxTxbusy, 1), (Reg.stkTpMboxRxpend, 1),
      (Reg.stkChMboxTxseq, s.rd Reg.stkChMboxTxseq (chIx k cell c) + 1),
      (Reg.stkTpMboxRxseq, s.rd Reg.stkTpMboxRxseq (chIx k cell c) + 1)]).stkTell k cell c Reg.stkTpStatusMbox) := by
  change execMboxTx k cell c true s = _
  simp [execMboxTx, State.mboxTx, h, hb]

theorem exec_mboxTx_tenant_of_busy (hb : s.rd Reg.stkTpMboxTxbusy (chIx k cell c) = 1) : exec (.mboxTx k cell c false) s = .next s := by
  change execMboxTx k cell c false s = _
  simp [execMboxTx, State.mboxTx, hb]

theorem exec_mboxAck_tenant (h : s.hasCh k cell c = true) (hp : s.rd Reg.stkTpMboxRxpend (chIx k cell c) = 1) :
    exec (.mboxAck k cell c false) s =
      .next ((s.wrs (chIx k cell c) [(Reg.stkTpMboxRxpend, 0), (Reg.stkChMboxTxbusy, 0)]).stkPf k cell c Reg.stkMboxpend) := by
  change execMboxAck k cell c false s = _
  simp [execMboxAck, State.mboxAck, h, hp]

theorem exec_mboxAck_manager (h : s.hasCh k cell c = true) (hp : s.rd Reg.stkChMboxRxpend (chIx k cell c) = 1) :
    exec (.mboxAck k cell c true) s =
      .next ((s.wrs (chIx k cell c) [(Reg.stkChMboxRxpend, 0), (Reg.stkTpMboxTxbusy, 0)]).stkTell k cell c Reg.stkTpStatusMbox) := by
  change execMboxAck k cell c true s = _
  simp [execMboxAck, State.mboxAck, h, hp]

theorem exec_mboxAck_tenant_of_none (hp : s.rd Reg.stkTpMboxRxpend (chIx k cell c) = 0) : exec (.mboxAck k cell c false) s = .next s := by
  change execMboxAck k cell c false s = _
  simp [execMboxAck, State.mboxAck, hp]

end

/-- Settles O53: each channel, cell and mailbox command in the states it names; what the end of a reset shows of the rings is what it
wrote to them first. -/
theorem stoker_channel_results : Obligations.stoker_channel_results := by
  unfold Obligations.stoker_channel_results
  refine ⟨?channels, ?cells⟩
  case channels =>
    intro k cell c v n base cq tenant s a st x h
    have hon : s.stkOn k cell = true := State.stkOn_of_hasCh h
    refine ⟨?enabled, ?closed, ?rings, ?own, ?vault, exec_channelResetRequest_tenant h, exec_channelResetRequest_tenant_of_held,
      exec_drainTimerExpiry_of_unfinished, exec_channelQuarantine_of_stopped, ?done, ?busy, exec_stkCtlReset_of_on hon,
      exec_cellFault_of_on hon⟩
    case enabled =>
      intro hst
      exact ⟨exec_sqtailDoorbell_of_in h hst, exec_sqtailDoorbell_of_beyond h hst, exec_cqheadWrite_of_in h hst,
        exec_cqheadWrite_of_beyond h hst, exec_ringCfgWrite_of_busy h hst⟩
    case closed =>
      intro hst
      exact ⟨exec_sqtailDoorbell_of_closed hst, exec_cqheadWrite_of_closed hst⟩
    case rings =>
      intro hq
      exact ⟨exec_ringCfgWrite_of_quiet h hq, exec_ringCfgWrite_of_small h hq⟩
    case own =>
      intro hv
      exact ⟨exec_cfgEnWrite_on h hv, exec_cfgEnWrite_off h hv, exec_channelResetRequest_manager h hv⟩
    case vault =>
      intro hv
      exact ⟨exec_cfgEnWrite_of_vault hv, exec_channelResetRequest_manager_of_vault h hv⟩
    case done =>
      intro hr hi hd
      have hset : 1 % 2 ^ Reg.stkTpStatusResetdone.w = 1 := by decide
      refine ⟨_, exec_channelResetDone_of_quiet hr hi hd, State.resetDone_rd ?_ ?_ ?_ ?_, State.resetDone_rd ?_ ?_ ?_ ?_,
        State.resetDone_rd ?_ ?_ ?_ ?_, State.resetDone_rd ?_ ?_ ?_ ?_, State.resetDone_rd ?_ ?_ ?_ ?_, ?told⟩
      case told =>
        exact (State.stkPf_rd_other (by decide) (by decide) (by decide) (by decide) _).trans
          (State.stkTell_rd (by decide) (by decide) hset)
      all_goals decide
    case busy =>
      intro _ hb
      exact exec_channelResetDone_of_busy hb
  case cells =>
    intro k cell c clk req s a
    refine ⟨?fire, ?mail⟩
    case fire =>
      intro hon
      refine ⟨fun hi => ⟨exec_cellClockGate_of_idle hon hi, exec_fireboxSlice_of_idle hi⟩, ?lone⟩
      intro hc hf
      exact ⟨exec_cellClockGate_of_firing hc hf, exec_fireboxSlice_of_lone hon hc hf⟩
    case mail =>
      intro h
      exact ⟨exec_mboxTx_tenant h, exec_mboxTx_manager h, exec_mboxTx_tenant_of_busy, exec_mboxAck_tenant h, exec_mboxAck_manager h,
        exec_mboxAck_tenant_of_none⟩

end Sys2Proof.Machine

/-! ## The Riddle units and the join of their segments (R430-R435, R464, R465) -/

namespace Sys2Proof.Machine

section
variable {s u : State} {k n cell c idx tg b : Nat} {it : RidItem} {q : List RidItem} {bl : List Nat} {d : Desc} {sp sq : Split} {r : FRun}

/-! ### Items and programs -/

@[simp] theorem State.updRid_rid (s : State) (k n : Nat) (f : Rid → Rid) : (s.updRid k n f).rid k n = f (s.rid k n) :=
  cellGet_set_same _ _ _ _

theorem exec_riddleProgramLoad_of_none (h : s.nextItem k cell c n = none) : exec (.riddleProgramLoad k n cell c) s = .next s := by
  change execRiddleProgramLoad k n cell c s = _
  simp only [execRiddleProgramLoad, h]

theorem exec_riddleWorkItem_of_none (h : s.nextItem k cell c n = none) : exec (.riddleWorkItem k n cell c) s = .next s := by
  change execRiddleWorkItem k n cell c s = _
  simp only [execRiddleWorkItem, h]

theorem exec_riddleProgramLoad_of_some (h : s.nextItem k cell c n = some (d, sp, r)) (hn : n < 16) :
    exec (.riddleProgramLoad k n cell c) s = .next (s.updRid k n (fun r => { r with progs := cellSet [] r.progs cell sp.prog })) := by
  change execRiddleProgramLoad k n cell c s = _
  simp only [execRiddleProgramLoad, h, if_pos hn]

/-- A Riddle that is not enabled accepts no item. -/
theorem exec_riddleWorkItem_of_disabled (h : s.nextItem k cell c n = some (d, sp, r))
    (he : s.rd Reg.ridCtlEn { sock := k, inst := n } = 0) : exec (.riddleWorkItem k n cell c) s = .next s := by
  change execRiddleWorkItem k n cell c s = _
  simp [execRiddleWorkItem, h, he]

/-- Nor does one with a full queue. -/
theorem exec_riddleWorkItem_of_full (h : s.nextItem k cell c n = some (d, sp, r)) (hq : 16 ≤ (s.rid k n).queue.length) :
    exec (.riddleWorkItem k n cell c) s = .next s := by
  have hfull (as' : Prop) [Decidable as'] : (if as' then 16 else 15) ≤ (s.rid k n).queue.length := by split <;> omega
  change execRiddleWorkItem k n cell c s = _
  simp [execRiddleWorkItem, h, hfull]

/-- The item of a run that Riddle `n` takes, with the blocks of its own channel (R430). -/
def State.itemOf (s : State) (k n cell c tg : Nat) (d : Desc) (sp : Split) (r : FRun) : RidItem :=
  { cell := cell, chan := c, tag := tg, assured := s.rd Reg.stkChCfgAssured (chIx k cell c) = 1, fmt := dw d.w 0 16 16
    out := dw d.w 0 18 17, w := dw d.w 0 25 20, boff := r.boff, segsz := r.segsz, base := r.pa, lenl := r.lines, nval := r.cnt
    dst := s.rd Reg.stkSegBase { sock := k, inst := cell } * 4096 + r.at' * 64, prog := sp.prog
    blocks := (List.range (blocksOf r.pa r.lines)).filter (fun j => s.chanOf k ((r.pa / 4096 + j) * 4096 % 2 ^ 47) = n) }

/-- An item with a block left stays at the front. -/
theorem State.ridAdvance_of_blocks (m : Nat) (hq : (s.rid k n).queue = it :: q) (hb : it.blocks ≠ []) : State.ridAdvance k n m s = s := by
  cases m with
  | zero => rfl
  | succ m =>
    have hne : ¬it.blocks.isEmpty = true := by simpa using hb
    simp only [State.ridAdvance, hq, if_neg hne]

/-- A split FILTER with its run `r` sent to Riddle `n` under a tag. -/
def Split.sentTo (sp : Split) (r : FRun) (tg n : Nat) : Split :=
  { sp with runs := sp.runs.map (fun e =>
      if e.first = r.first && e.va = r.va then { e with tag := some tg, at' := r.at', sent := e.sent ++ [n] } else e) }

/-- The next run noted as sent, and its item put at the end of the Riddle's queue. -/
def State.sendItem (s : State) (k n cell c tg : Nat) (d : Desc) (sp : Split) (r : FRun) : State :=
  (s.updDesc k cell c d.idx (fun d => { d with split := some (sp.sentTo r tg n) })).updRid k n (fun x =>
    { x with queue := x.queue ++ [s.itemOf k n cell c tg d sp r] })

theorem State.sendItem_queue : ((s.sendItem k n cell c tg d sp r).rid k n).queue =
    (s.rid k n).queue ++ [s.itemOf k n cell c tg d sp r] := by
  rw [State.sendItem, State.updRid_rid]
  rfl

/-- A run that has its segments: an idle Riddle with the program takes its item. -/
theorem exec_riddleWorkItem_of_tagged (h : s.nextItem k cell c n = some (d, sp, r)) (hn : n < 16)
    (he : s.rd Reg.ridCtlEn { sock := k, inst := n } ≠ 0) (hq : (s.rid k n).queue = [])
    (hp : cellGet [] (s.rid k n).progs cell = sp.prog) (ht : r.tag = some tg) :
    exec (.riddleWorkItem k n cell c) s = .next (State.ridAdvance k n 17 (s.sendItem k n cell c tg d sp r)) := by
  have hroom (as' : Prop) [Decidable as'] : ¬(if as' then 16 else 15) ≤ 0 := by split <;> omega
  have hn' : ¬16 ≤ n := by omega
  have htwo : ¬2 ≤ 0 := by omega
  change execRiddleWorkItem k n cell c s = _
  simp only [execRiddleWorkItem, h, hq, hp, ht, he, hn', hroom, htwo, List.length_nil, List.filter_nil, Option.getD_some,
    decide_false, ne_eq, not_true, Bool.or_self, Bool.false_eq_true, if_false]
  rfl

theorem riddleWorkItem_queue (h : s.nextItem k cell c n = some (d, sp, r)) (hn : n < 16)
    (he : s.rd Reg.ridCtlEn { sock := k, inst := n } ≠ 0) (hq : (s.rid k n).queue = [])
    (hp : cellGet [] (s.rid k n).progs cell = sp.prog) (ht : r.tag = some tg)
    (hb : ∃ j < blocksOf r.pa r.lines, s.chanOf k ((r.pa / 4096 + j) * 4096 % 2 ^ 47) = n) :
    ∃ t : State, exec (.riddleWorkItem k n cell c) s = .next t ∧ (t.rid k n).queue = [s.itemOf k n cell c tg d sp r] := by
  have hblocks : (s.itemOf k n cell c tg d sp r).blocks ≠ [] := by
    obtain ⟨j, hj, hch⟩ := hb
    exact List.ne_nil_of_mem (List.mem_filter.mpr ⟨List.mem_range.mpr hj, decide_eq_true hch⟩)
  have hqueue : ((s.sendItem k n cell c tg d sp r).rid k n).queue = [s.itemOf k n cell c tg d sp r] := by
    rw [State.sendItem_queue, hq, List.nil_append]
  exact ⟨_, exec_riddleWorkItem_of_tagged h hn he hq hp ht, by rw [State.ridAdvance_of_blocks 17 hqueue hblocks, hqueue]⟩

/-! ### Lines and segments (R431-R434) -/

/-- The next line of a Riddle's block can be read now: none of its channel's accesses is held, and no access of the agent waits. -/
def State.LineReady (s : State) (k n pa : Nat) : Prop :=
  (∀ l, s.mcLine k pa = some (n, l) → s.mcHolds k n l = false) ∧ s.agentWaits k (lineOf pa) = false

/-- What keeps a line back, as the command asks it. -/
theorem State.lineHeld_of_ready {pa e : Nat} (hpa : pa < e) (h : s.LineReady k n pa) :
    (decide (e ≤ pa) || (match s.mcLine k pa with | some (m, l) => decide (m = n) && s.mcHolds k n l | none => false) ||
      s.agentWaits k (lineOf pa)) = false := by
  obtain ⟨hheld, hwait⟩ := h
  have hle : ¬e ≤ pa := by omega
  simp only [hwait, hle, decide_false, Bool.or_false, Bool.false_or]
  split
  case h_1 m l hl =>
    by_cases hm : m = n
    · rw [hheld l (hm ▸ hl), Bool.and_false]
    · simp [hm]
  case h_2 => rfl

/-- Evaluated in place: the line is touched and counted, and its bytes join those of the block. -/
def State.lineInPlace (s : State) (k n pa : Nat) : State :=
  ((s.touch k (lineOf pa)).bump Reg.ridStatLines { sock := k, inst := n }).updRid k n (fun r =>
    { r with lines := r.lines ++ memBytes (s.touch k (lineOf pa)).mem pa 64 })

/-- Read through the home. -/
def State.lineReferred (u : State) (k n pa : Nat) : State :=
  (u.bump Reg.ridStatRefer { sock := k, inst := n }).updRid k n (fun r => { r with lines := r.lines ++ memBytes u.mem pa 64 })

section
variable {pa : Nat} (hq : (s.rid k n).queue = it :: q) (hb : it.blocks = b :: bl) (hpa : (it.block b).1 + (s.rid k n).lines.length = pa)
include hq hb hpa

theorem exec_riddleLineEval_of_read (hlt : pa < (it.block b).2) (hr : s.LineReady k n pa)
    (ha : s.agentRead (freeAgent k) k (lineOf pa) = (u, none)) : exec (.riddleLineEval k n) s =
      .next (if s.bits (lineOf pa) = .none ∨ s.bits (lineOf pa) = .shared then s.lineInPlace k n pa else u.lineReferred k n pa) := by
  change execRiddleLineEval k n s = _
  rw [execRiddleLineEval]
  simp only [hq, hb, hpa]
  refine (congrArg Host.Outcome.next (if_neg (Bool.eq_false_iff.mp (State.lineHeld_of_ready hlt hr)))).trans ?_
  simp only [ha]
  cases hbits : s.bits (lineOf pa) <;> simp <;> rfl

theorem exec_riddleLineEval_of_bad {e : Stop} (hlt : pa < (it.block b).2) (hr : s.LineReady k n pa)
    (ha : s.agentRead (freeAgent k) k (lineOf pa) = (u, some e)) (he : e.status ≠ 256) :
    exec (.riddleLineEval k n) s = .next (u.segOut k n (if e.status = 0x14 then 2 else 1) pa) := by
  change execRiddleLineEval k n s = _
  rw [execRiddleLineEval]
  simp only [hq, hb, hpa]
  refine (congrArg Host.Outcome.next (if_neg (Bool.eq_false_iff.mp (State.lineHeld_of_ready hlt hr)))).trans ?_
  simp only [ha]
  split
  next h => cases h; exact absurd rfl he
  next h => cases h; rfl
  next h => cases h

/-- The whole block has been read: no line of it is left. -/
theorem exec_riddleLineEval_of_end (hle : (it.block b).2 ≤ pa) : exec (.riddleLineEval k n) s = .next s := by
  change execRiddleLineEval k n s = _
  simp only [execRiddleLineEval, hq, hb, hpa, hle, decide_true, Bool.true_or, if_true]

theorem exec_riddleSegmentWrite_of_end (hle : (it.block b).2 ≤ pa) : exec (.riddleSegmentWrite k n) s = .next (s.segOut k n 0 0) := by
  change execRiddleSegmentWrite k n s = _
  simp only [execRiddleSegmentWrite, hq, hb, hpa, if_pos hle]

theorem exec_riddleSegmentWrite_of_unfinished (hlt : pa < (it.block b).2) : exec (.riddleSegmentWrite k n) s = .next s := by
  change execRiddleSegmentWrite k n s = _
  simp only [execRiddleSegmentWrite, hq, hb, hpa, if_neg (Nat.not_le.mpr hlt)]

end

theorem exec_riddleLineEval_of_empty (hq : (s.rid k n).queue = []) : exec (.riddleLineEval k n) s = .next s := by
  change execRiddleLineEval k n s = _
  simp only [execRiddleLineEval, hq]

theorem exec_riddleSegmentWrite_of_empty (hq : (s.rid k n).queue = []) : exec (.riddleSegmentWrite k n) s = .next s := by
  change execRiddleSegmentWrite k n s = _
  simp only [execRiddleSegmentWrite, hq]

/-! ### Drains (R435) -/

/-- A drain's items leave the queue, and the Riddle owes an answer. -/
theorem riddleDrain_drains (hd : (s.stk k cell c).drains.contains n = true) (hn : (s.rid k n).drains.contains (cell, c) = false) :
    ∃ t : State, exec (.riddleDrain k n cell c) s = .next t ∧ (cell, c) ∈ (t.rid k n).drains ∧
      ∀ i ∈ (t.rid k n).queue, ¬(i.cell = cell ∧ i.chan = c) := by
  change ∃ t, execRiddleDrain k n cell c s = .next t ∧ _
  simp only [execRiddleDrain, hd, hn, Bool.not_true, Bool.or_self, Bool.false_eq_true, if_false]
  have hcell (u : State) (f : StkCell → StkCell) : (u.updCell k cell f).rid k n = u.rid k n := rfl
  refine ⟨_, rfl, ?_⟩
  simp only [hcell, State.updRid_rid]
  exact ⟨List.mem_append_right _ (List.mem_singleton_self _), fun i hi => by
    simpa [-not_and, not_and_or] using (List.mem_filter.mp hi).2⟩

theorem exec_riddleDrain_of_none (hd : (s.stk k cell c).drains.contains n = false) : exec (.riddleDrain k n cell c) s = .next s := by
  change execRiddleDrain k n cell c s = _
  simp only [execRiddleDrain, hd, Bool.not_false, Bool.true_or, if_true]

theorem State.updStk_stk (s : State) (k cell c : Nat) (f : StkCh → StkCh) : (s.updStk k cell c f).stk k cell c = f (s.stk k cell c) :=
  cellGet_set_same _ _ _ _

/-- The Riddle's answer ends the channel's wait for it. -/
theorem drained_drains (hn : (s.rid k n).drains.contains (cell, c) = true) :
    ∃ t : State, exec (.drained k n cell c) s = .next t ∧ n ∉ (t.stk k cell c).drains := by
  change ∃ t, execDrained k n cell c s = .next t ∧ _
  simp only [execDrained, hn, if_true]
  have hcell (u : State) (f : StkCell → StkCell) : (u.updCell k cell f).stk k cell c = u.stk k cell c := rfl
  refine ⟨_, rfl, ?_⟩
  rw [hcell, State.updStk_stk]
  simp

theorem exec_drained_of_none (hn : (s.rid k n).drains.contains (cell, c) = false) : exec (.drained k n cell c) s = .next s := by
  change execDrained k n cell c s = _
  simp only [execDrained, hn, Bool.false_eq_true, if_false]

/-! ### The cell's join (R464, R465) -/

theorem exec_segmentRead_of_none (hf : (s.stk k cell c).infl.find? (fun d => d.idx = idx && d.fin.isNone) = none) :
    exec (.segmentRead k cell c idx) s = .next s := by
  change execSegmentRead k cell c idx s = _
  simp only [execSegmentRead, hf, ite_self]

section
variable (hst : s.chState k cell c = 1) (hf : (s.stk k cell c).infl.find? (fun d => d.idx = idx && d.fin.isNone) = some d)
  (hs : d.split = some sp)
include hst hf hs

/-- With no run left, the rest is evaluated and the output written. -/
theorem exec_segmentRead_of_last (hr : sp.runs = [])
    (hv : State.boxValues (s.stkPort k cell c) d.w (dP64 d.w - sp.pos) sp s = (u, sq, none)) :
    exec (.segmentRead k cell c idx) s = .next (u.splitEnd k cell c idx d.w sq none) := by
  change execSegmentRead k cell c idx s = _
  simp [execSegmentRead, hst, hf, hs, hr, hv]

/-- A run at a Riddle waits for its segment. -/
theorem exec_segmentRead_of_missing {rt : List FRun} (hr : sp.runs = r :: rt) (hrid : r.rid = true) (ht : r.tag = some tg)
    (hseg : (s.stk k cell c).segs.contains (tg, r.blk) = false) : exec (.segmentRead k cell c idx) s = .next s := by
  have hst' : ¬(decide (s.chState k cell c ≠ 1) && decide (s.chState k cell c ≠ 3)) = true := by simp [hst]
  change execSegmentRead k cell c idx s = _
  rw [execSegmentRead, if_neg hst']
  simp only [hf, hs, hr, hrid, ht, hseg, Bool.not_true, Bool.not_false, Bool.false_eq_true, if_false, if_true]

end

end

/-- Settles O56: each Riddle command on an empty queue and on the block in progress, the drains, and the cell's join. -/
theorem riddle_results : Obligations.riddle_results := by
  unfold Obligations.riddle_results
  intro k n cell c idx it q b bl d sp r s u
  refine ⟨fun h => ⟨exec_riddleProgramLoad_of_none h, exec_riddleWorkItem_of_none h⟩, ?item, ?block,
    fun hq => ⟨exec_riddleLineEval_of_empty hq, exec_riddleSegmentWrite_of_empty hq⟩, riddleDrain_drains, exec_riddleDrain_of_none,
    drained_drains, exec_drained_of_none, ?join, exec_segmentRead_of_none⟩
  case item =>
    intro h hn
    exact ⟨exec_riddleProgramLoad_of_some h hn, exec_riddleWorkItem_of_disabled h, exec_riddleWorkItem_of_full h,
      fun tg he hq hp ht hb => riddleWorkItem_queue h hn he hq hp ht hb⟩
  case block =>
    intro hq hb pa ln
    refine ⟨?read, ?bad, exec_riddleSegmentWrite_of_unfinished hq hb rfl,
      fun hle => ⟨exec_riddleSegmentWrite_of_end hq hb rfl hle, exec_riddleLineEval_of_end hq hb rfl hle⟩⟩
    case read =>
      intro hlt hheld hwait ha
      refine ⟨_, exec_riddleLineEval_of_read hq hb rfl hlt ⟨hheld, hwait⟩ ha, fun hin => if_pos hin, fun hnone hshared => if_neg ?_⟩
      exact not_or.mpr ⟨hnone, hshared⟩
    case bad =>
      intro e hlt hheld hwait ha he
      exact exec_riddleLineEval_of_bad hq hb rfl hlt ⟨hheld, hwait⟩ ha he
  case join =>
    intro hst hf hs
    exact ⟨fun sq hr hv => exec_segmentRead_of_last hst hf hs hr hv,
      fun tg rt hr hrid ht hseg => exec_segmentRead_of_missing hst hf hs hr hrid ht hseg⟩

end Sys2Proof.Machine

/-! ## A Stoker descriptor fetched, started and completed (R446-R454) -/

namespace Sys2Proof.Machine

section
variable {s u : State} {k cell c idx : Nat} {b : List Byte} {e : Stop} {d : Desc} {f : Fin}

/-! ### Fetching (R446) -/

/-- The descriptor at a place of the ring, as its 64 bytes spell it. -/
def Desc.fetched (head : Nat) (b : List Byte) : Desc :=
  { idx := head, w := (List.range 8).map (fun i => leNat ((b.drop (8 * i)).take 8)), started := false, fin := none, split := none,
    memo := [], done := (0, 0) }

/-- Whether the next descriptor may be fetched: one is there, the channel may have another in flight and has a completion entry for it. -/
structure State.FetchDue (s : State) (k cell c : Nat) : Prop where
  there : s.hasCh k cell c = true
  enabled : s.chState k cell c = 1
  slot : s.slotFree k cell c = true
  next : s.rd Reg.stkTpSqhead (chIx k cell c) ≠ s.rd Reg.stkTpSqtail (chIx k cell c)
  few : (s.stk k cell c).infl.length < s.rd Reg.stkChCfgMaxinfl (chIx k cell c)
  under : (s.stk k cell c).infl.length < 64
  room : (s.rd Reg.stkTpCqtail (chIx k cell c) + 2 ^ s.rd Reg.stkTpCqsize (chIx k cell c) - s.rd Reg.stkTpCqhead (chIx k cell c)) %
      2 ^ s.rd Reg.stkTpCqsize (chIx k cell c) + (s.stk k cell c).infl.length + 1 < 2 ^ s.rd Reg.stkTpCqsize (chIx k cell c)

theorem exec_descFetch_of_empty (h : s.rd Reg.stkTpSqhead (chIx k cell c) = s.rd Reg.stkTpSqtail (chIx k cell c)) :
    exec (.descFetch k cell c) s = .next s := by
  change execDescFetch k cell c s = _
  simp [execDescFetch, h]

/-- The condition that keeps the fetch back does not hold. -/
theorem State.FetchDue.not_held (h : s.FetchDue k cell c) :
    ¬(!s.hasCh k cell c || decide (s.chState k cell c ≠ 1) ||
        decide (s.rd Reg.stkTpSqhead (chIx k cell c) = s.rd Reg.stkTpSqtail (chIx k cell c)) ||
        decide (min 64 (max 1 (s.rd Reg.stkChCfgMaxinfl (chIx k cell c))) ≤ (s.stk k cell c).infl.length) || !s.slotFree k cell c ||
        decide (s.ringSize Reg.stkTpCqsize k cell c ≤
          (s.rd Reg.stkTpCqtail (chIx k cell c) + s.ringSize Reg.stkTpCqsize k cell c - s.rd Reg.stkTpCqhead (chIx k cell c)) %
            s.ringSize Reg.stkTpCqsize k cell c + (s.stk k cell c).infl.length + 1)) = true := by
  have hfew : ¬min 64 (max 1 (s.rd Reg.stkChCfgMaxinfl (chIx k cell c))) ≤ (s.stk k cell c).infl.length := by
    have hfew := h.few
    have hunder := h.under
    omega
  have hroom := Nat.not_le.mpr h.room
  simp only [State.ringSize, h.there, h.enabled, h.slot, h.next, hfew, hroom, Bool.not_true, ne_eq, not_true, decide_false, Bool.or_self]
  decide

theorem exec_descFetch_of_read (h : s.FetchDue k cell c)
    (hr : s.pRead (s.stkPort k cell c) (s.rd Reg.stkTpSqbase (chIx k cell c) * 4096 + s.rd Reg.stkTpSqhead (chIx k cell c) * 64) 64 =
      (u, b, none)) :
    ∃ t : State, exec (.descFetch k cell c) s = .next t ∧ t.mem = u.mem ∧
      (t.stk k cell c).infl = (u.stk k cell c).infl ++ [Desc.fetched (s.rd Reg.stkTpSqhead (chIx k cell c)) b] := by
  change ∃ t, execDescFetch k cell c s = .next t ∧ _
  simp only [execDescFetch, if_neg h.not_held, hr]
  have hcell (v : State) (f : StkCell → StkCell) : (v.updCell k cell f).stk k cell c = v.stk k cell c := rfl
  have hmem (v : State) (f : StkCell → StkCell) : (v.updCell k cell f).mem = v.mem := rfl
  refine ⟨_, rfl, ?mem, ?infl⟩
  case mem => rw [hmem, State.updStk_mem, State.wr_mem]
  case infl =>
    rw [hcell, State.updStk_stk]
    rfl

theorem exec_descFetch_of_unread (h : s.FetchDue k cell c)
    (hr : s.pRead (s.stkPort k cell c) (s.rd Reg.stkTpSqbase (chIx k cell c) * 4096 + s.rd Reg.stkTpSqhead (chIx k cell c) * 64) 64 =
      (u, b, some e)) (he : e.status ≠ 256) : exec (.descFetch k cell c) s = .next (u.stkError k cell c 1) := by
  change execDescFetch k cell c s = _
  simp only [execDescFetch, if_neg h.not_held, hr]
  split
  next h => cases h; exact absurd rfl he
  next h => cases h; rfl
  next h => cases h

/-! ### Starting (R447, R451, R454) -/

/-- The descriptor noted as started. -/
def State.startDesc (s : State) (k cell c : Nat) (d : Desc) : State :=
  s.updDesc k cell c d.idx (fun d => { d with started := true })

/-- One with FENCE waits for every earlier one. -/
theorem exec_descStart_of_fenced {e' : Desc} {t' : List Desc} (hf : (s.stk k cell c).infl.find? (fun d => !d.started) = some d)
    (hfence : dw d.w 0 8 8 = 1) (hi : (s.stk k cell c).infl = e' :: t') (hne : e'.idx ≠ d.idx) :
    exec (.descStart k cell c) s = .next s := by
  change execDescStart k cell c s = _
  rw [hi] at hf
  simp only [execDescStart, hi, hf, hfence, hne, decide_true, decide_false, Bool.not_false, Bool.and_self, if_true, ite_self]

section
variable (hst : s.chState k cell c = 1) (hf : (s.stk k cell c).infl.find? (fun d => !d.started) = some d)
  (hfirst : dw d.w 0 8 8 = 1 → ∃ t, (s.stk k cell c).infl = d :: t)
include hst hf hfirst

/-- The descriptor due to start goes through its checks. -/
theorem exec_descStart_of_due : exec (.descStart k cell c) s = .next (
    if !formOk d.w || !rangeOk d.w then (s.startDesc k cell c d).setFin k cell c d.idx (Fin.stopped 0x10)
    else if dOp d.w = 1 then
      match s.pRead (s.stkPort k cell c) (dAux d.w) 256 with
      | (_, _, some { status := 256, .. }) => s
      | (s, _, some e) => (s.startDesc k cell c d).setFin k cell c d.idx ⟨e.status, 0, 0, e.addr, e.kind, e.s2⟩
      | (s, p, none) =>
        if progOk p (filterWidth d.w) then s.startDesc k cell c d
        else (s.startDesc k cell c d).setFin k cell c d.idx (Fin.stopped 0x11)
    else if dOp d.w = 0x0B && (cellGet none (s.stk k cell c).keys (dw d.w 0 20 17)).isNone then
      (s.startDesc k cell c d).setFin k cell c d.idx (Fin.stopped 0x19)
    else s.startDesc k cell c d) := by
  change execDescStart k cell c s = _
  rw [execDescStart, if_neg (by rw [hst]; decide)]
  simp only [hf]
  rw [if_neg]
  · rfl
  · by_cases hfence : dw d.w 0 8 8 = 1
    · obtain ⟨t, ht⟩ := hfirst hfence
      simp [ht]
    · simp [hfence]

theorem exec_descStart_of_badForm (hbad : formOk d.w = false ∨ rangeOk d.w = false) :
    exec (.descStart k cell c) s = .next ((s.startDesc k cell c d).setFin k cell c d.idx (Fin.stopped 0x10)) := by
  rw [exec_descStart_of_due hst hf hfirst, if_pos (by rcases hbad with h | h <;> simp [h])]

section
variable (hform : formOk d.w = true) (hrange : rangeOk d.w = true)
include hform hrange

theorem exec_descStart_of_plain (h1 : dOp d.w ≠ 1) (h11 : dOp d.w ≠ 0x0B) :
    exec (.descStart k cell c) s = .next (s.startDesc k cell c d) := by
  rw [exec_descStart_of_due hst hf hfirst, if_neg (by simp [hform, hrange]), if_neg h1, if_neg (by simp [h11])]

/-- AESGCM needs its key. -/
theorem exec_descStart_of_noKey (h11 : dOp d.w = 0x0B) (hkey : cellGet none (s.stk k cell c).keys (dw d.w 0 20 17) = none) :
    exec (.descStart k cell c) s = .next ((s.startDesc k cell c d).setFin k cell c d.idx (Fin.stopped 0x19)) := by
  rw [exec_descStart_of_due hst hf hfirst, if_neg (by simp [hform, hrange]), if_neg (by simp [h11]), if_pos (by simp [h11, hkey])]

/-- FILTER starts with its program read and in order, and otherwise ends with BAD_PROGRAM. -/
theorem exec_descStart_of_program (h1 : dOp d.w = 1) (hr : s.pRead (s.stkPort k cell c) (dAux d.w) 256 = (u, b, none)) :
    exec (.descStart k cell c) s = .next (if progOk b (filterWidth d.w) then u.startDesc k cell c d
      else (u.startDesc k cell c d).setFin k cell c d.idx (Fin.stopped 0x11)) := by
  rw [exec_descStart_of_due hst hf hfirst, if_neg (by simp [hform, hrange]), if_pos h1, hr]

theorem exec_descStart_of_unread (h1 : dOp d.w = 1) (hr : s.pRead (s.stkPort k cell c) (dAux d.w) 256 = (u, b, some e))
    (he : e.status ≠ 256) : exec (.descStart k cell c) s =
      .next ((u.startDesc k cell c d).setFin k cell c d.idx ⟨e.status, 0, 0, e.addr, e.kind, e.s2⟩) := by
  rw [exec_descStart_of_due hst hf hfirst, if_neg (by simp [hform, hrange]), if_pos h1, hr]
  split
  next h => cases h; exact absurd rfl he
  next h => cases h; rfl
  next h => cases h

end

end

/-! ### Completing (R448, R449, R276) -/

theorem exec_descComplete_of_none (hf : (s.stk k cell c).infl.find? (fun d => d.idx = idx) = none) :
    exec (.descComplete k cell c idx) s = .next s := by
  change execDescComplete k cell c idx s = _
  simp only [execDescComplete, hf]

/-- It waits for the Riddles' writes for the descriptor. -/
theorem exec_descComplete_of_writing (hf : (s.stk k cell c).infl.find? (fun d => d.idx = idx) = some d)
    (hw : (s.cell k cell).segs.any (fun u => u.chan = c && u.idx = idx && !u.left.isEmpty) = true) :
    exec (.descComplete k cell c idx) s = .next s := by
  change execDescComplete k cell c idx s = _
  simp only [execDescComplete, hf, hw, if_true]

/-- The descriptor no longer in flight. -/
def State.dropDesc (s : State) (k cell c idx : Nat) : State :=
  s.updStk k cell c (fun x => { x with infl := x.infl.filter (fun d => d.idx ≠ idx) })

/-- The completion entry of a descriptor and its write at CQTAIL (Table STOK-5). -/
def State.entryWrite (s : State) (k cell c : Nat) (d : Desc) (f : Fin) : State × Nat × Option Stop :=
  let a := chIx k cell c
  let w0 := dw d.w 0 63 32 + d.idx * 2 ^ 32 + f.status * 2 ^ 44 + dOp d.w * 2 ^ 52 + s.rd Reg.stkTpCqphase a * 2 ^ 63
  let w3 := f.addr % 2 ^ 57 + f.kind * 2 ^ 57 + (if f.s2 then 2 ^ 59 else 0)
  s.pWrite (s.stkPort k cell c) (s.rd Reg.stkTpCqbase a * 4096 + s.rd Reg.stkTpCqtail a * 32) ([w0, f.r0, f.r1, w3].flatMap (leBytes 8))

/-- The entry written: CQTAIL moves on, the phase turns at the ring's end, and the descriptor has gone. -/
def State.entryDone (u : State) (k cell c idx tail : Nat) : State :=
  let a := chIx k cell c
  let t := (tail + 1) % u.ringSize Reg.stkTpCqsize k cell c
  ((u.wr Reg.stkTpCqtail a t).wrIf (t = 0) Reg.stkTpCqphase a (1 - u.rd Reg.stkTpCqphase a)).dropDesc k cell c idx

/-- The counters of completed descriptors. -/
def countFlds : List Nat := [Reg.stkChDone, Reg.stkStatDescs, Reg.stkChErrs, Reg.stkStatSquashed].map Fld.id

/-- A completed descriptor counted (Table STOK-10). -/
def State.countDesc (u : State) (k cell c : Nat) (f : Fin) : State :=
  let a := chIx k cell c
  let s := (u.bump Reg.stkChDone a).bump Reg.stkStatDescs { sock := k, inst := cell }
  let s := if 0x10 ≤ f.status then s.bump Reg.stkChErrs a else s
  if f.status = 2 then s.bump Reg.stkStatSquashed { sock := k, inst := cell } else s

section
variable (hf : (s.stk k cell c).infl.find? (fun d => d.idx = idx) = some d) (hfin : d.fin = some f)
  (hw : (s.cell k cell).segs.any (fun u => u.chan = c && u.idx = idx && !u.left.isEmpty) = false)
include hf hfin hw

theorem exec_descComplete_of_written (hq : (s.entryWrite k cell c d f).2.2 = none) : exec (.descComplete k cell c idx) s = .next (
    let t := ((s.entryWrite k cell c d f).1.entryDone k cell c idx (s.rd Reg.stkTpCqtail (chIx k cell c))).countDesc k cell c f
    if dw d.w 0 9 9 = 1 || 0x10 ≤ f.status then t.stkTell k cell c Reg.stkTpStatusCq else t) := by
  change execDescComplete k cell c idx s = _
  rcases hq' : s.entryWrite k cell c d f with ⟨u, n, o⟩
  rw [hq'] at hq
  obtain rfl : o = none := hq
  unfold State.entryWrite at hq'
  simp only [execDescComplete, hf, hw, Bool.false_eq_true, if_false, hfin, hq']
  rfl

theorem exec_descComplete_of_unwritten (hq : (s.entryWrite k cell c d f).2.2 = some e) (he : e.status ≠ 256)
    (hst : (s.entryWrite k cell c d f).1.chState k cell c = 1) : exec (.descComplete k cell c idx) s =
      .next (((s.entryWrite k cell c d f).1.dropDesc k cell c idx).stkError k cell c 2) := by
  change execDescComplete k cell c idx s = _
  rcases hq' : s.entryWrite k cell c d f with ⟨u, n, o⟩
  rw [hq'] at hq hst
  obtain rfl : o = some e := hq
  unfold State.entryWrite at hq'
  simp only [execDescComplete, hf, hw, Bool.false_eq_true, if_false, hfin, hq']
  split
  next h => cases h; exact absurd rfl he
  next h =>
    cases h
    rw [if_neg (by rw [hst]; decide)]
    rfl
  next h => cases h

end

/-! ### What a completion leaves of the channel -/

theorem State.entryDone_infl : ((u.entryDone k cell c idx tail).stk k cell c).infl =
    (u.stk k cell c).infl.filter (fun d => d.idx ≠ idx) := by
  unfold State.entryDone State.dropDesc
  extract_lets a t
  rw [State.updStk_stk]
  unfold State.wrIf
  split <;> rfl

theorem State.countDesc_stk : (u.countDesc k cell c f).stk k cell c = u.stk k cell c := by
  have hchs : (u.countDesc k cell c f).stkChs = u.stkChs := by
    unfold State.countDesc
    split <;> split <;> simp only [State.bump_stkChs]
  exact congrArg (cellGet StkCh.idle · (chKey k cell c)) hchs

theorem State.msgInt_stk (i : Nat) : (u.msgInt k i).stk k cell c = u.stk k cell c := by
  unfold State.msgInt
  extract_lets a v x l g
  split
  · rfl
  · split <;> rfl

/-- A notice does not change what is in flight. -/
theorem State.stkTell_infl (g : Fld) : ((u.stkTell k cell c g).stk k cell c).infl = (u.stk k cell c).infl := by
  unfold State.stkTell State.stkIrq
  extract_lets a
  split
  · rfl
  · split
    · rw [State.updStk_stk]
      rfl
    · split
      · rw [State.msgInt_stk]
        rfl
      · rfl

theorem State.entryDone_cqtail (ht : tail + 1 < u.ringSize Reg.stkTpCqsize k cell c) (hs : u.ringSize Reg.stkTpCqsize k cell c ≤ 4096) :
    (u.entryDone k cell c idx tail).rd Reg.stkTpCqtail (chIx k cell c) = tail + 1 := by
  have hcut : (tail + 1) % 2 ^ Reg.stkTpCqtail.w = tail + 1 := Nat.mod_eq_of_lt (Nat.lt_of_lt_of_le ht hs)
  unfold State.entryDone State.dropDesc
  extract_lets a t
  have htail : (u.wr Reg.stkTpCqtail a t).rd Reg.stkTpCqtail a = tail + 1 := by
    rw [State.rd_wr_same]
    simp only [t, Nat.mod_eq_of_lt ht, hcut]
  refine ((State.RegsBut.refl _ noticeFlds).updStk k cell c _ (by decide) (by decide) Reg.stkTpCqtail a (by decide) (by decide)).trans ?_
  unfold State.wrIf
  split
  · exact (State.rd_wr_field _ _ _ _ (by decide) (by decide) (by decide)).trans htail
  · exact htail

/-- The counters of a completed descriptor are all its count changes. -/
theorem State.countDesc_rd {g : Fld} (hg : g.id < 1024)
    (hn : g.id ∉ countFlds) (a : Ix) :
    (u.countDesc k cell c f).rd g a = u.rd g a := by
  unfold State.countDesc
  extract_lets a' s1 s2
  have h1 : u.RegsBut s1 countFlds := ((State.RegsBut.refl u _).wr a' _ (by decide) (by decide)).wr _ _ (by decide) (by decide)
  have h2 : u.RegsBut s2 countFlds := .ite (h1.wr a' _ (by decide) (by decide)) h1
  exact State.RegsBut.ite (h2.wr _ _ (by decide) (by decide)) h2 g a hg hn

/-- The entry written moves CQTAIL on by one before the ring's end, and its descriptor is no longer in flight. -/
theorem descComplete_cqtail (hf : (s.stk k cell c).infl.find? (fun d => d.idx = idx) = some d) (hfin : d.fin = some f)
    (hw : (s.cell k cell).segs.any (fun u => u.chan = c && u.idx = idx && !u.left.isEmpty) = false)
    (hq : (s.entryWrite k cell c d f).2.2 = none)
    (ht : s.rd Reg.stkTpCqtail (chIx k cell c) + 1 < 2 ^ (s.entryWrite k cell c d f).1.rd Reg.stkTpCqsize (chIx k cell c))
    (hs : 2 ^ (s.entryWrite k cell c d f).1.rd Reg.stkTpCqsize (chIx k cell c) ≤ 4096) :
    ∃ t : State, exec (.descComplete k cell c idx) s = .next t ∧
      t.rd Reg.stkTpCqtail (chIx k cell c) = s.rd Reg.stkTpCqtail (chIx k cell c) + 1 ∧
      (t.stk k cell c).infl = ((s.entryWrite k cell c d f).1.stk k cell c).infl.filter (fun d => d.idx ≠ idx) := by
  refine ⟨_, exec_descComplete_of_written hf hfin hw hq, ?tail, ?infl⟩
  case tail =>
    dsimp only
    rw [apply_ite (fun t : State => t.rd Reg.stkTpCqtail (chIx k cell c)),
      State.stkTell_rd_other (by decide) (by decide) (by decide) (by decide), ite_self, State.countDesc_rd (by decide) (by decide),
      State.entryDone_cqtail ht hs]
  case infl =>
    dsimp only
    rw [apply_ite (fun t : State => (t.stk k cell c).infl), State.stkTell_infl, ite_self, State.countDesc_stk, State.entryDone_infl]

end

/-- Settles O54: the fetch, the start and the completion of a descriptor, each from what the channel holds and what the ring's memory
answers. -/
theorem stoker_descriptor_results : Obligations.stoker_descriptor_results := by
  unfold Obligations.stoker_descriptor_results
  intro k cell c idx s u b e d f a p x head cqs
  refine ⟨?fetch, fun e' t' _ hf hfence hi hne => exec_descStart_of_fenced hf hfence hi hne, ?start, exec_descComplete_of_writing, ?complete,
    exec_descComplete_of_none⟩
  case fetch =>
    intro hhas hst hslot
    refine ⟨exec_descFetch_of_empty, ?due⟩
    intro hnext hfew hunder hroom
    have hdue : s.FetchDue k cell c := ⟨hhas, hst, hslot, hnext, hfew, hunder, hroom⟩
    exact ⟨exec_descFetch_of_read hdue, exec_descFetch_of_unread hdue⟩
  case start =>
    intro hst hf hfirst go fail
    refine ⟨exec_descStart_of_badForm hst hf hfirst, ?good⟩
    intro hform hrange
    refine ⟨exec_descStart_of_plain hst hf hfirst hform hrange, exec_descStart_of_noKey hst hf hfirst hform hrange, ?program,
      exec_descStart_of_unread hst hf hfirst hform hrange⟩
    intro h1 hr
    have hstart := exec_descStart_of_program hst hf hfirst hform hrange h1 hr
    exact ⟨fun hok => hstart.trans (congrArg _ (if_pos hok)), fun hbad => hstart.trans (congrArg _ (if_neg (by simp [hbad])))⟩
  case complete =>
    intro hf hfin hw tail w0 w3 q
    exact ⟨descComplete_cqtail hf hfin hw, fun e hq he hst => exec_descComplete_of_unwritten hf hfin hw hq he hst⟩

end Sys2Proof.Machine

/-! ## The root complexes: DMA, interrupt messages, slots, ports and CXL ranges (R482-R497) -/

namespace Sys2Proof.Machine

section
variable {s t : State} {k n j rid va len a : Nat} {p : Option Nat} {data : List Byte} {attr : BitVec 3} {poisoned : Bool}
  {l : List (Nat × Nat)}

/-! ### Requests checked and refused (R482-R486) -/

/-- Attributes that no request may have refuse it before its context is looked at. -/
theorem State.dmaCheck_of_attr {acc : Acc} (ha : attr ≠ 0) : s.dmaCheck k n rid p va len acc attr.toNat = .refuse va s := by
  have hne : attr.toNat ≠ 0 := fun h => ha (BitVec.eq_of_toNat_eq h)
  rw [State.dmaCheck, if_pos (by simp [hne])]

/-- A refusal is counted and recorded; memory is as before. -/
theorem State.dmaRefuse_mem : (s.dmaRefuse k n j rid a).mem = s.mem := (State.reported_ash _ _ _).mem

/-- A completion does not pass posted writes that came before it (R490). -/
theorem exec_dmaRead_of_behind (hrid : rid < 2 ^ 16) (hb : s.dmaBehind k n rid false va len = true) :
    exec (.dmaRead k n j rid p va len attr) s = .next s := by
  change execDmaRead k n j rid p va len attr s = _
  simp only [execDmaRead, Nat.mod_eq_of_lt hrid, hb, Bool.or_true, if_true]

section
variable (ho : s.portOpen k n j = true) (hrid : rid < 2 ^ 16)
include ho hrid

/-! ### DMA reads (R486, R487) -/

/-- A read whose context grants it, once each of its lines has been read. -/
theorem exec_dmaRead_of_done (hb : s.dmaBehind k n rid false va len = false)
    (hc : s.dmaCheck k n rid p va len Acc.load attr.toNat = .ok l t) :
    let pr := s.dmaPart k n j rid false va len
    let r := dmaReadGo (prcAgent k n j) k (l.drop pr.done) pr t
    let u := r.1.dmaKeep k n r.2 (r.2.done = l.length)
    r.2.done = l.length → exec (.dmaRead k n j rid p va len attr) s = .next (if r.2.bad
      then (u.bump Reg.prcErrPoisonin (prcIx k n)).updPrc k n (fun x => { x with resp := (2, r.2.data) })
      else u.updPrc k n (fun x => { x with resp := (0, r.2.data) })) := by
  intro pr r u hdone
  change execDmaRead k n j rid p va len attr s = _
  simp only [execDmaRead, Nat.mod_eq_of_lt hrid, ho, hb, hc, Bool.not_true, Bool.or_self, Bool.false_eq_true, if_false]
  rw [if_neg (not_not.mpr hdone)]

/-- One with lines left goes on later. -/
theorem exec_dmaRead_of_unfinished (hb : s.dmaBehind k n rid false va len = false)
    (hc : s.dmaCheck k n rid p va len Acc.load attr.toNat = .ok l t) :
    let pr := s.dmaPart k n j rid false va len
    let r := dmaReadGo (prcAgent k n j) k (l.drop pr.done) pr t
    r.2.done ≠ l.length → exec (.dmaRead k n j rid p va len attr) s = .next (r.1.dmaKeep k n r.2 (r.2.done = l.length)) := by
  intro pr r hdone
  change execDmaRead k n j rid p va len attr s = _
  simp only [execDmaRead, Nat.mod_eq_of_lt hrid, ho, hb, hc, Bool.not_true, Bool.or_self, Bool.false_eq_true, if_false]
  rw [if_pos hdone]

/-! ### DMA writes (R486, R487) -/

section
variable (hm : va / 2 ^ 20 ≠ s.rd Reg.prcMsiwin (prcIx k n))
include hm

theorem exec_dmaWrite_of_behind (hb : s.dmaBehind k n rid true va data.length = true) :
    exec (.dmaWrite k n j rid p va data poisoned attr) s = .next (s.dmaKeep k n (s.dmaPart k n j rid true va data.length) false) := by
  change execDmaWrite k n j rid p va data poisoned attr s = _
  simp only [execDmaWrite, Nat.mod_eq_of_lt hrid, ho, hb, hm, Bool.not_true, Bool.false_eq_true, if_false, if_true]

section
variable (hb : s.dmaBehind k n rid true va data.length = false)
include hb

/-- A write whose context grants it, once each of its lines is written: messages held behind it go out. -/
theorem exec_dmaWrite_of_done (hc : s.dmaCheck k n rid p va data.length Acc.store attr.toNat = .ok l t) :
    let pw := s.dmaPart k n j rid true va data.length
    let r := dmaWriteGo (prcAgent k n j) k poisoned (l.drop pw.done) (data.drop (((l.take pw.done).map (·.2)).sum)) pw t
    let u := r.1.dmaKeep k n r.2 (r.2.done = l.length)
    r.2.done = l.length → exec (.dmaWrite k n j rid p va data poisoned attr) s =
      .next ((if poisoned then u.bump Reg.prcErrPoisonin (prcIx k n) else u).msiRelease k n rid) := by
  intro pw r u hdone
  change execDmaWrite k n j rid p va data poisoned attr s = _
  simp only [execDmaWrite, Nat.mod_eq_of_lt hrid, ho, hb, hm, hc, Bool.not_true, Bool.false_eq_true, if_false]
  rw [if_neg (not_not.mpr hdone)]

theorem exec_dmaWrite_of_unfinished (hc : s.dmaCheck k n rid p va data.length Acc.store attr.toNat = .ok l t) :
    let pw := s.dmaPart k n j rid true va data.length
    let r := dmaWriteGo (prcAgent k n j) k poisoned (l.drop pw.done) (data.drop (((l.take pw.done).map (·.2)).sum)) pw t
    r.2.done ≠ l.length → exec (.dmaWrite k n j rid p va data poisoned attr) s =
      .next (r.1.dmaKeep k n r.2 (r.2.done = l.length)) := by
  intro pw r hdone
  change execDmaWrite k n j rid p va data poisoned attr s = _
  simp only [execDmaWrite, Nat.mod_eq_of_lt hrid, ho, hb, hm, hc, Bool.not_true, Bool.false_eq_true, if_false]
  rw [if_pos hdone]

theorem exec_dmaWrite_of_refused (hc : s.dmaCheck k n rid p va data.length Acc.store attr.toNat = .refuse a t) :
    exec (.dmaWrite k n j rid p va data poisoned attr) s =
      .next (((t.dmaRefuse k n j rid a).dmaKeep k n (s.dmaPart k n j rid true va data.length) true).msiRelease k n rid) := by
  change execDmaWrite k n j rid p va data poisoned attr s = _
  simp only [execDmaWrite, Nat.mod_eq_of_lt hrid, ho, hb, hm, hc, Bool.not_true, Bool.false_eq_true, if_false]

end

end

/-! ### Interrupt messages (R488) -/

theorem exec_msiMessage_of_open : exec (.msiMessage k n j rid data) s = .next (s.msiWrite k n rid data) := by
  change execMsiMessage k n j rid data s = _
  rw [execMsiMessage, if_pos ho, Nat.mod_eq_of_lt hrid]

/-- A write in the message window is an interrupt message. -/
theorem exec_dmaWrite_of_message (hm : va / 2 ^ 20 = s.rd Reg.prcMsiwin (prcIx k n)) :
    exec (.dmaWrite k n j rid p va data poisoned attr) s = .next (s.msiWrite k n rid data) := by
  change execDmaWrite k n j rid p va data poisoned attr s = _
  simp only [execDmaWrite, Nat.mod_eq_of_lt hrid, ho, hm, Bool.not_true, Bool.false_eq_true, if_false, if_true]

end

theorem State.msiWrite_of_badLength (hl : data.length ≠ 4) : s.msiWrite k n rid data = s.bump Reg.prcErrMsidrop (prcIx k n) := by
  rw [State.msiWrite, if_pos (by simp [hl])]

/-- A message of a function that holds nothing back is raised when its context has the index, and otherwise dropped. -/
theorem State.msiWrite_of_ctx {w : List Nat} {i : Option Nat} (hl : data.length = 4) (hh : s.fnHeld k n rid = false)
    (hp : ∀ q ∈ (s.prc k n).parts, q.write = true → q.rid ≠ rid) (hc : s.devCtx k n rid = (t, .ok (w, i))) :
    s.msiWrite k n rid data = if 256 ≤ leNat data || cw w 6 23 16 ≤ leNat data then t.bump Reg.prcErrMsidrop (prcIx k n)
      else t.msgInt k (cw w 6 11 0 + leNat data) := by
  obtain ⟨hstop, hquar⟩ : (s.prc k n).stopped.contains rid = false ∧ (s.prc k n).quar.contains rid = false := by
    simpa [State.fnHeld] using hh
  have hfree : (s.prc k n).parts.any (fun p => p.write && p.rid = rid) = false := by
    rw [List.any_eq_false]
    intro q hq
    rw [Bool.and_eq_true, decide_eq_true_eq]
    exact fun hw => hp q hq hw.1 hw.2
  simp only [State.msiWrite, hl, hquar, hstop, hfree, ne_eq, not_true, decide_false, Bool.or_self, Bool.false_eq_true, if_false, hc]

end

/-! ### Slots and ports (R489, R491-R495, Table PCIX-3) -/

section
variable {s : State} {k n j b gen width : Nat}

theorem State.prcEvent_of_set (h : (s.rd Reg.prcPortEvent (portIx k n j)).testBit b = true) : s.prcEvent k n j b = s := by
  rw [State.prcEvent, if_pos h]

/-- Without the port its commands do nothing. -/
theorem exec_port_of_none (h : s.hasPort k n j = false) : ∀ i ∈ ([.slotPwron k n j, .slotPerstRelease k n j, .slotTrainTimeout k n j,
    .slotPwroff k n j, .slotPowerFault k n j, .linkL1Exit k n j, .presenceChange k n j true, .aerFatal k n j, .aerError k n j,
    .portRelease k n j] : List Instr), exec i s = .next s := by
  have hclosed : s.portOpen k n j = false := by simp [State.portOpen, h]
  simp only [List.forall_mem_cons]
  refine ⟨?on, ?perst, ?timeout, ?off, ?fault, ?exit, ?presence, ?fatal, ?error, ?release, by simp⟩
  case on => change execSlotPwron k n j s = _; simp [execSlotPwron, State.slotOn, h]
  case perst => change execSlotPerstRelease k n j s = _; simp [execSlotPerstRelease, h]
  case timeout => change execSlotTrainTimeout k n j s = _; simp [execSlotTrainTimeout, h]
  case off => change execSlotPwroff k n j s = _; simp [execSlotPwroff, State.slotOff, h]
  case fault => change execSlotPowerFault k n j s = _; simp [execSlotPowerFault, h]
  case exit => change execLinkL1Exit k n j s = _; simp [execLinkL1Exit, h]
  case presence => change execPresenceChange k n j true s = _; simp [execPresenceChange, h]
  case fatal => change execAerFatal k n j s = _; simp [execAerFatal, hclosed]
  case error => change execAerError k n j s = _; simp [execAerError, hclosed]
  case release => change execPortRelease k n j s = _; simp [execPortRelease, State.portRelease, h]

theorem exec_slotPwron_of_fault (hf : s.rd Reg.prcPortSlotFault (portIx k n j) = 1) : exec (.slotPwron k n j) s = .next s := by
  change execSlotPwron k n j s = _
  simp [execSlotPwron, State.slotOn, hf]

section
variable (h : s.hasPort k n j = true)
include h

theorem exec_prcEventInterrupt_of_port (hb : b < 6) : exec (.prcEventInterrupt k n j b) s = .next (s.prcEvent k n j b) := by
  change execPrcEventInterrupt k n j b s = _
  simp only [execPrcEventInterrupt, h, hb, decide_true, Bool.and_self, if_true]

theorem exec_slotPwron_of_cold (hp : s.rd Reg.prcPortSlotPresent (portIx k n j) = 1) (hf : s.rd Reg.prcPortSlotFault (portIx k n j) = 0)
    (hst : s.rd Reg.prcPortSlotState (portIx k n j) = 0) (hh : s.slotHot k n j = false) :
    exec (.slotPwron k n j) s = .next (s.wr Reg.prcPortSlotState (portIx k n j) 1) := by
  change execSlotPwron k n j s = _
  simp [execSlotPwron, State.slotOn, h, hp, hf, hst, hh]

/-- Within a second of a fault the power-on waits. -/
theorem exec_slotPwron_of_hot (hp : s.rd Reg.prcPortSlotPresent (portIx k n j) = 1) (hf : s.rd Reg.prcPortSlotFault (portIx k n j) = 0)
    (hst : s.rd Reg.prcPortSlotState (portIx k n j) = 0) (hh : s.slotHot k n j = true) :
    exec (.slotPwron k n j) s = .next (s.updPrc k n (fun x => { x with want := j :: x.want.filter (· ≠ j) })) := by
  change execSlotPwron k n j s = _
  simp [execSlotPwron, State.slotOn, h, hp, hf, hst, hh]

theorem exec_slotPerstRelease_of_poweringUp (hst : s.rd Reg.prcPortSlotState (portIx k n j) = 1) :
    exec (.slotPerstRelease k n j) s = .next (s.wr Reg.prcPortSlotState (portIx k n j) 2) := by
  change execSlotPerstRelease k n j s = _
  simp only [execSlotPerstRelease, h, hst, decide_true, Bool.and_self, if_true]

theorem exec_slotTrainTimeout_of_training (hst : s.rd Reg.prcPortSlotState (portIx k n j) = 2) :
    exec (.slotTrainTimeout k n j) s = .next ((s.wr Reg.prcPortSlotState (portIx k n j) 4).prcEvent k n j 1) := by
  change execSlotTrainTimeout k n j s = _
  simp only [execSlotTrainTimeout, h, hst, decide_true, Bool.and_self, if_true]

/-- A PCIe link trained at a generation its port allows. -/
theorem exec_slotLinkTrained_of_training (hst : s.rd Reg.prcPortSlotState (portIx k n j) = 2)
    (he : s.rd Reg.prcPortCtlEn (portIx k n j) = 1) (h1 : 1 ≤ gen) (hg : gen ≤ s.rd Reg.prcPortCtlMaxgen (portIx k n j))
    (hc : s.rd Reg.prcPortCtlCxl (portIx k n j) = 0) : exec (.slotLinkTrained k n j gen width true true) s =
      .next (((s.wrs (portIx k n j) [(Reg.prcPortSlotState, 3), (Reg.prcPortLinkGen, gen), (Reg.prcPortLinkWidth, width),
        (Reg.prcPortLinkCxl, 0)]).updPrc k n (fun x => { x with noMeta := x.noMeta.filter (· ≠ j) })).prcEvent k n j 0) := by
  have h0 : gen ≠ 0 := by omega
  have hmax : ¬s.rd Reg.prcPortCtlMaxgen (portIx k n j) < gen := by omega
  change execSlotLinkTrained k n j gen width true true s = _
  simp [execSlotLinkTrained, h, hst, he, h0, hmax, hc]

theorem exec_slotPwroff_of_port : exec (.slotPwroff k n j) s =
    .next ((((s.wr Reg.prcPortSlotState (portIx k n j) 0).linkOff k n j).devLost k n j).updPrc k n
      (fun x => { x with want := x.want.filter (· ≠ j) })) := by
  change execSlotPwroff k n j s = _
  rw [execSlotPwroff, State.slotOff, if_pos h]

theorem exec_linkL1Exit_of_port : exec (.linkL1Exit k n j) s =
    .next (s.updPrc k n (fun x => { x with l1 := x.l1.filter (· ≠ j), held := x.held.filter (fun e => e.1 ≠ j) })) := by
  change execLinkL1Exit k n j s = _
  rw [execLinkL1Exit, if_pos h]

theorem exec_slotAttention_of_port : exec (.slotAttention k n j) s = .next (s.prcEvent k n j 4) := by
  change execSlotAttention k n j s = _
  rw [execSlotAttention, if_pos h]

/-- The power of a slot in no group fails for it alone. -/
theorem exec_slotPowerFault_of_alone (hst : s.rd Reg.prcPortSlotState (portIx k n j) = 1 ∨ s.rd Reg.prcPortSlotState (portIx k n j) = 3)
    (hg : s.rd Reg.prcPortSlotPfgroup (portIx k n j) = 0) : exec (.slotPowerFault k n j) s = .next (s.slotFault k n j 0) := by
  have hpow : 1 ≤ s.rd Reg.prcPortSlotState (portIx k n j) ∧ s.rd Reg.prcPortSlotState (portIx k n j) ≤ 4 := by omega
  change execSlotPowerFault k n j s = _
  simp only [execSlotPowerFault, h, decide_eq_true hpow, hg, Bool.not_true, Bool.or_self, Bool.false_eq_true, if_false, if_true]

theorem exec_presenceChange_of_added (hp : s.rd Reg.prcPortSlotPresent (portIx k n j) = 0) : exec (.presenceChange k n j true) s =
    .next (((s.wr Reg.prcPortSlotPresent (portIx k n j) 1).prcEvent k n j 3).mgcReason k 6) := by
  change execPresenceChange k n j true s = _
  simp [execPresenceChange, h, hp]

/-- A removal contains the port. -/
theorem exec_presenceChange_of_removed (hp : s.rd Reg.prcPortSlotPresent (portIx k n j) = 1) : exec (.presenceChange k n j false) s =
    .next (((((s.wr Reg.prcPortSlotPresent (portIx k n j) 0).prcEvent k n j 3).mgcReason k 6).linkOff k n j).contain k n j 3) := by
  change execPresenceChange k n j false s = _
  simp [execPresenceChange, h, hp]

section
variable (hst : s.rd Reg.prcPortSlotState (portIx k n j) = 3)
include hst

theorem exec_portRelease_of_up : exec (.portRelease k n j) s = .next (s.wr Reg.prcPortLinkContained (portIx k n j) 0) := by
  change execPortRelease k n j s = _
  rw [execPortRelease, State.portRelease, if_pos (by simp [h, hst])]

variable (hc : s.rd Reg.prcPortLinkContained (portIx k n j) = 0)
include hc

theorem State.portOpen_of_up : s.portOpen k n j = true := by simp [State.portOpen, h, hst, hc]

theorem exec_aerFatal_of_up : exec (.aerFatal k n j) s = .next ((s.contain k n j 5).prcEvent k n j 5) := by
  change execAerFatal k n j s = _
  rw [execAerFatal, if_pos (State.portOpen_of_up h hst hc)]

theorem exec_aerError_of_up : exec (.aerError k n j) s = .next (s.prcEvent k n j 5) := by
  change execAerError k n j s = _
  rw [execAerError, if_pos (State.portOpen_of_up h hst hc)]

end

end

end

/-! ### IOINV and CXL ranges (R484, R496, R497) -/

section
variable {s : State} {k n r rid : Nat} {all : Bool}

/-- No cached entry of the requester is left, and IOINV is under way. -/
theorem ioinvGo_drops (ho : s.prcOn k n = true) (hrid : rid < 2 ^ 16) :
    ∃ t : State, exec (.ioinvGo k n rid all) s = .next t ∧ t.rd Reg.prcIoinvDone (prcIx k n) = 0 ∧
      ∀ e ∈ (t.prc k n).ctxs, e.1 ≠ rid ∧ all = false := by
  change ∃ t, execIoinvGo k n rid all s = .next t ∧ _
  rw [execIoinvGo, State.ioinvGo, if_neg (by simp [ho]), Nat.mod_eq_of_lt hrid]
  refine ⟨_, rfl, (State.rd_wr_same _ _ _ _).trans (Nat.zero_mod _), ?_⟩
  have hprc (u : State) (q : Nat → Bool) (v : Nat) : ((u.iotlbDrop k n q).wr Reg.prcIoinvDone (prcIx k n) v).prc k n = u.prc k n := rfl
  rw [hprc, State.prc, State.updPrc, cellGet_set_same]
  intro e he
  have hkept := (List.mem_filter.mp he).2
  simp only [Bool.not_eq_true', Bool.or_eq_false_iff, decide_eq_false_iff_not] at hkept
  exact ⟨hkept.1.2, hkept.1.1⟩

theorem exec_cxlwinValidWrite_off (ho : s.prcOn k n = true) : exec (.cxlwinValidWrite k n r false) s =
    .next ((s.wr Reg.prcCxlwinValid { sock := k, inst := n, i := r } 0).wr Reg.prcCxlwinInit { sock := k, inst := n, i := r } 0) := by
  change execCxlwinValidWrite k n r false s = _
  simp [execCxlwinValidWrite, State.cxlValid, ho, State.wrs]

/-- A range is made valid when its check gives no code. -/
theorem exec_cxlwinValidWrite_on (ho : s.prcOn k n = true) (hv : s.rd Reg.prcCxlwinValid { sock := k, inst := n, i := r } = 0) :
    exec (.cxlwinValidWrite k n r true) s = .next (if s.cxlCode k n r = 0 then
      ((s.wr Reg.prcCxlwinCode { sock := k, inst := n, i := r } 0).wr Reg.prcCxlwinValid { sock := k, inst := n, i := r } 1).wr
        Reg.prcCxlwinInit { sock := k, inst := n, i := r } 1
      else s.wr Reg.prcCxlwinCode { sock := k, inst := n, i := r } (s.cxlCode k n r)) := by
  change execCxlwinValidWrite k n r true s = _
  simp [execCxlwinValidWrite, State.cxlValid, ho, hv, State.wrs]

theorem exec_cxlPoisonFillDone_of_filling (hi : s.rd Reg.prcCxlwinInit { sock := k, inst := n, i := r } = 1) :
    exec (.cxlPoisonFillDone k n r) s = .next ((s.cxlClear k n r).wr Reg.prcCxlwinInit { sock := k, inst := n, i := r } 0) := by
  change execCxlPoisonFillDone k n r s = _
  simp only [execCxlPoisonFillDone, if_pos hi]

end

/-- Settles O47: each DMA request by what its check answers, each message by its function's context, and each slot, port and range
command in the state it names. -/
theorem root_complex_results : Obligations.root_complex_results := by
  unfold Obligations.root_complex_results
  refine ⟨?dma, ?ports⟩
  case dma =>
    intro k n j rid va len p data attr poisoned s t l ho hrid pr pw
    refine ⟨?read, exec_dmaRead_of_behind hrid, ?write, State.dmaCheck_of_attr, ?length, ?message⟩
    case read =>
      intro hb hc
      exact ⟨exec_dmaRead_of_done ho hrid hb hc, exec_dmaRead_of_unfinished ho hrid hb hc⟩
    case write =>
      intro hm
      refine ⟨exec_dmaWrite_of_behind ho hrid hm, fun hb => ⟨?granted, fun a hc => ⟨exec_dmaWrite_of_refused ho hrid hm hb hc,
        State.dmaRefuse_mem⟩⟩⟩
      intro hc
      exact ⟨exec_dmaWrite_of_done ho hrid hm hb hc, exec_dmaWrite_of_unfinished ho hrid hm hb hc⟩
    case length =>
      intro hl
      rw [exec_msiMessage_of_open ho hrid, State.msiWrite_of_badLength hl]
    case message =>
      intro w i hl hh hp hc
      have hmsi := State.msiWrite_of_ctx hl hh hp hc
      refine ⟨fun h256 hidx => ?raised, fun hidx => ?dropped⟩
      case raised =>
        have hfits : ¬(decide (256 ≤ leNat data) || decide (cw w 6 23 16 ≤ leNat data)) = true := by simp [h256, hidx]
        rw [if_neg hfits] at hmsi
        exact ⟨by rw [exec_msiMessage_of_open ho hrid, hmsi], fun hm => by rw [exec_dmaWrite_of_message ho hrid hm, hmsi]⟩
      case dropped =>
        rw [exec_msiMessage_of_open ho hrid, hmsi, if_pos (by simp [hidx])]
  case ports =>
    intro k n j r rid gen width b all s a x st
    refine ⟨?port, exec_port_of_none, ioinvGo_drops, rfl, fun ho => ⟨exec_cxlwinValidWrite_off ho, exec_cxlwinValidWrite_on ho⟩,
      exec_cxlPoisonFillDone_of_filling⟩
    intro h
    exact ⟨exec_prcEventInterrupt_of_port h, fun b => State.prcEvent_of_set,
      fun hp hf hst => ⟨exec_slotPwron_of_cold h hp hf hst, exec_slotPwron_of_hot h hp hf hst⟩, exec_slotPwron_of_fault,
      exec_slotPerstRelease_of_poweringUp h, exec_slotTrainTimeout_of_training h, exec_slotLinkTrained_of_training h,
      exec_slotPwroff_of_port h, exec_linkL1Exit_of_port h, exec_slotAttention_of_port h, exec_slotPowerFault_of_alone h,
      exec_presenceChange_of_added h, exec_presenceChange_of_removed h, exec_portRelease_of_up h,
      fun hst hc => ⟨exec_aerFatal_of_up h hst hc, exec_aerError_of_up h hst hc⟩⟩

end Sys2Proof.Machine
